-- ==== Sys2Proof/Word.lean ====
section
/-! DEFINITION. The word types of the SK9640: bytes, byte strings, tally-word images and wrapping counters. -/

namespace Sys2Proof

/-- One byte. -/
abbrev Byte := BitVec 8

/-- A byte string in address order (byte 0 at the lowest address), the form of every buffer, record and key. -/
abbrev Bytes := List Byte

/-- A tally word as stored: 128 bits, byte 0 of storage order leftmost, so nibble `n` of R72 is bits
`[127 - 4n : 124 - 4n]`. -/
abbrev Image := BitVec 128

/-- A 32-bit binary register of an Alaing core. -/
abbrev Word := BitVec 32

/-- A 32-bit counter that wraps from 0xFFFF_FFFF to 0. -/
abbrev Ctr := BitVec 32

/-- A sparse table: key and value pairs, keys strictly rising, no entry equal to the table's default. -/
abbrev Table (α : Type) := List (Nat × α)

end Sys2Proof
end

