-- ==== Sys2Proof/Syntax.lean ====
section
/-! DEFINITION. The commands of the SK9640: one constructor per row of the command table, with what the command
carries. Data that comes from outside the device (host memory, pins, sensors, cards) is an operand of its command. -/

namespace Sys2Proof

/-- Where an uncorrectable word of R24 is found. -/
inductive BadWord where
  /-- Fabric beat, engine register or lane register carrying the work with this ring and host tag (R24, R222). -/
  | beat (ring tag : Nat)
  /-- Brine entry of the posting with this ring and host tag (R24, R223). -/
  | brine (ring tag : Nat)
  /-- CMAC unit of stage V, at work on the posting with this ring and host tag (R222). -/
  | verify (ring tag : Nat)
  /-- In the commit grain of the oldest entry of a book (R225). -/
  | commit (book : Nat)
  /-- Pan tally line; `metaBad` tells that the metadata word is uncorrectable too (R230). -/
  | panLine (book block : Nat) (metaBad : Bool)
  /-- Pan node line, or the root node at the tree's height (R232). -/
  | panNode (book level index : Nat)
  /-- A staged record, in one copy or in both (R226). -/
  | staged (book lseq : Nat) (both : Bool)
  /-- An assembled completion, receipt or mailbox image, in one copy or in both (R226). -/
  | completion (ring tag : Nat) (both : Bool)
  /-- A word of the work's output leaving for the host (R24). -/
  | output (ring tag : Nat)
  /-- A session context (R24, R401). -/
  | session (handle : Nat)
  /-- A resident key slot (R24). -/
  | slot (target index : Nat)
  /-- A word of an Alaing core's local memory, by local address (R333). -/
  | local_ (core addr : Nat)
  /-- A codeword of a USER page (partition × 4,096 + page); codeword 16 is the header (R467). -/
  | page (page codeword : Nat)
  /-- An ALLOW record (R474). -/
  | allow (entry : Nat)
  /-- A codeword of a counter: 0 BASE_A, 1 BASE_B, 2 BANK_A, 3 BANK_B (R483). -/
  | counter (counter codeword : Nat)
  /-- A codeword of the non-volatile write buffer: page (partition × 4,096 + page) and codeword (R22). -/
  | buffer (page codeword : Nat)
  /-- A codeword of a physical page of the non-volatile store (R467, R474). -/
  | store (page codeword : Nat)
  /-- Both copies of the helper data (R376). -/
  | helper
deriving DecidableEq, Repr

/-- A nibble-coded word (R22) whose value the model follows: its place. -/
inductive CodePlace where
  /-- Word 0 to 3 of a tally record in the Pan: VALUE, FLOOR, CEILING, the rest (R108). -/
  | pan (book index word : Nat)
  /-- The amount of a leg of the brine entry with this ring and host tag. -/
  | leg (ring tag leg : Nat)
  /-- A word of an Alaing core's local memory, by local address. -/
  | local_ (core addr : Nat)
  /-- Word 0 to 7 of a session context: session key, its mask, receipt key, its mask, two words each (R395). -/
  | session (handle word : Nat)
  /-- A word of the resident material of a key slot, or of its mask (R388). -/
  | slot (target index word : Nat)
  | mask (target index word : Nat)
  /-- A data codeword of a physical page of the non-volatile store (R465). -/
  | store (page codeword : Nat)
  /-- A codeword of the newest entry of the non-volatile write buffer for a USER page (partition × 4,096 + page). -/
  | buffer (page codeword : Nat)
  /-- A decimal register of an Alaing core (R326). -/
  | dreg (core num : Nat)
  /-- A word of a unit of R584 in any other place, a fabric beat among them: it is gone once it has been read. -/
  | other (unit : Nat)
deriving DecidableEq, Repr

/-- What stops the drain of a flush (R557). -/
inductive DrainCause where
  | allIssued
  | linkLost
  | perst
  | tenMs
  | hold (mv : Nat)
deriving DecidableEq, Repr

/-- A field of configuration space that a configuration request reads (R8, R245, R251). -/
inductive CfgField where
  | vendorId | deviceId | revisionId | classCode | interruptPin
  | maxLinkSpeed | maxLinkWidth | aspm | noSoftReset | pme | maxPayloadSupported | tag10Requester | flr | timeoutRanges | timeoutDisable
  | msi | msixSize | msixTable | msixPba | aer | pasidWidth | executePermission | privilegedMode
  | ats | pri | sriov | atomicOp | resizableBar
  | busMaster | d3hot | pasidEnable | relaxedOrdering | noSnoop | idoRequest | maxPayload | maxReadRequest
  | tag10Enable | msixEnable | functionMask
deriving DecidableEq, Repr

/-- A register that REGISTER_WRITE addresses: BAR0 by offset and size, or a field of configuration space (R245, R252). -/
inductive RegTarget where
  | bar0 (offset size : Nat)
  | relaxedOrdering
  | noSnoop
  | idoRequest
  | maxPayload
  | maxReadRequest
  | tag10
  | msixEnable
  | functionMask
deriving DecidableEq, Repr

/-- The quota registers of a slice (R285). -/
inductive QuotaReg where
  | sq | cq | pan | sess | limits
deriving DecidableEq, Repr

/-- The region registers of an MPU (R325). -/
inductive MpuReg where
  | start | stop | attr
deriving DecidableEq, Repr

/-- Frames of an external reader before the transport protocol (R539). -/
inductive TagFrame where
  | reqa
  /-- ANTICOLLISION of a cascade level with the UID bits already known. -/
  | anticollision (level : Nat) (known : List Bool)
  /-- SELECT of a cascade level with its four UID CLn bytes. -/
  | select (level : Nat) (uid : Bytes)
  | rats
  | hlta
deriving DecidableEq, Repr

/-- The commands, in the order of the table. -/
inductive Instr where
  /-- GRAIN_BOUNDARY (R43): The global grain tick: every unit ends its step and chooses its next step by the scruple calendar. -/
  | grainBoundary (wall : Option Nat)
  /-- SCRUPLE_BOUNDARY (R57): Every 20 grains each slice's class-0 tokens are refilled and background risk is evaluated. -/
  | scrupleBoundary
  /-- BG_DEADLINE_MISS (R56): A background task reaches its deadline unfinished and MISSED and BG_MISS are set. -/
  | bgDeadlineMiss (task : Nat)
  /-- SUBMISSION_DOORBELL (R259): An 8-byte write of TAIL and GENERATION to a submission doorbell page is checked and advances the ring tail. -/
  | submissionDoorbell (ring value : Nat)
  /-- JOURNAL_PERSISTED_DOORBELL (R173): Host software reports a persisted LSEQ, which releases withheld durable completions. -/
  | journalPersistedDoorbell (ring lseq : Nat)
  /-- JOURNAL_DRAINED_DOORBELL (R198): Host software reports a drained LSEQ, which frees journal region space. -/
  | journalDrainedDoorbell (ring lseq : Nat)
  /-- DOORBELL_WRITE_COMBINED (R260): A TLP of more than 8 bytes to a doorbell page is split into quadwords that are handled in address order. -/
  | doorbellWriteCombined (offset : Nat) (data : Bytes)
  /-- FETCH_READ_ISSUE (R261): A descriptor-fetch engine issues a read of up to 32 slots of a ring whose tail lies ahead of its fetch index. -/
  | fetchReadIssue (ring : Nat)
  /-- DESCRIPTOR_ARRIVAL (R265): Fetched descriptor data arrives, passes the header checks in order and is routed to its class or refused. -/
  | descriptorArrival (ring : Nat) (data : Bytes) (bad : List Nat)
  /-- FETCH_READ_RETRY (R263): A fetch read that ended with an error completion is retried 1 pound later, and the ring is halted if the retry fails. -/
  | fetchReadRetry (ring index : Nat) (poisoned : Bool)
  /-- PRIME_ADMISSION (R59): At a boundary of slots 0-18, up to 8 held prime descriptors are covered by tokens, presented and admitted to prime lanes. -/
  | primeAdmission
  /-- NOP (R257): The fetch engine completes a NOP descriptor itself with OK, in ring order. -/
  | nop (ring : Nat)
  /-- COUNTER_READ (R489): Class-0 authenticated read of a monotonic counter, with a CMAC over the value. -/
  | counterRead (ring : Nat)
  /-- COUNTER_INCR (R489): Class-0 authenticated increment of a monotonic counter, with a CMAC over the new value. -/
  | counterIncr (ring : Nat)
  /-- TALLY_READ (R179): Class-0 read of one field group of a committed tally record. -/
  | tallyRead (ring : Nat)
  /-- TALLY_ADJUST (R183): Class-0 single-tally adjust that commits in its prime lane with its own LSEQ and journal frame. -/
  | tallyAdjust (ring : Nat)
  /-- MAC_GEN (R412): Class-0 AES-CMAC generation under the session key. -/
  | macGen (ring : Nat)
  /-- MAC_VERIFY (R412): Class-0 AES-CMAC verification under the session key. -/
  | macVerify (ring : Nat)
  /-- COMPARE (R414): Class-0 constant-time comparison of two byte strings. -/
  | compare (ring : Nat)
  /-- POST (R152): A posting of 1 to 8 legs is checked, admitted, computed and committed atomically with the next LSEQ. -/
  | post (ring : Nat)
  /-- TALLY_OPEN (R116): Class-1 opening of a tally record with bounds and attributes. -/
  | tallyOpen (ring : Nat)
  /-- TALLY_SET (R116): Class-1 replacement of the floor, ceiling and attributes of an open tally. -/
  | tallySet (ring : Nat)
  /-- TALLY_CLOSE (R116): Class-1 closing of a tally whose value is zero. -/
  | tallyClose (ring : Nat)
  /-- POSTING_ADMISSION (R160): At a grain boundary, up to 8 held postings are admitted into free brine window entries. -/
  | postingAdmission
  /-- POSTING_HELD_JOURNAL_FULL (R200): A posting held for journal room past FULL_WAIT pounds ends with JOURNAL_FULL. -/
  | postingHeldJournalFull (ring : Nat)
  /-- POSTING_COMMIT (R169): A posting whose earlier entries have committed assigns its LSEQ, updates the Pan and hands its record to the journal writer. -/
  | postingCommit (book : Nat)
  /-- COMPLETION_ISSUE (R28): The completion writer issues a completion entry, with any receipt or mailbox before it, once its ordering conditions are met. -/
  | completionIssue (ring : Nat)
  /-- COMPLETION_WRITE_RETRY (R274): A completion ring stalled by a failed window check retries its write each pound. -/
  | completionWriteRetry (cq : Nat)
  /-- MSIX_TIMER_EXPIRY (R271): RING_MOD.TIME grains after the oldest counted completion, the ring's MSI-X message is sent. -/
  | msixTimerExpiry (ring : Nat)
  /-- FRAME_WRITE_ISSUE (R195): The journal writer issues a record's frame write, with its MAC and any pad marker, in LSEQ order. -/
  | frameWriteIssue (book : Nat)
  /-- HEAD_FOLD (R194): A committed record is folded into its strand head on a digest engine. -/
  | headFold (book : Nat)
  /-- FRAME_WRITE_RETRY (R201): A frame write that failed its window check is retried each pound while the book's journal stalls. -/
  | frameWriteRetry (book : Nat)
  /-- SEAL_FORMATION (R202): A seal of an OPEN book is formed at a count or ounce boundary, or on a SEAL command. -/
  | sealFormation (book : Nat)
  /-- SEAL_SIGNED (R205): A seal signing job ends and the seal statement is written to the seal area. -/
  | sealSigned (book : Nat)
  /-- SEAL (R205): Command that forms and signs a seal of the slice's book at the next boundary. -/
  | sealBook (ring : Nat)
  /-- CHECKPOINT (R137): Command that writes back the book's Saltern in two phases and issues a signed statement at a cut LSEQ. -/
  | checkpoint (ring : Nat)
  /-- CHECKPOINT_PHASE2 (R137): Once phase 1 has ended and earlier postings have committed, commits are held, the cut is taken and the statement is built. -/
  | checkpointPhase2 (book : Nat)
  /-- CHECKPOINT_RELEASE (R139): Command that ends a checkpoint hold on write-back. -/
  | checkpointRelease (ring : Nat)
  /-- CHECKPOINT_HOLD_EXPIRY (R139): A checkpoint hold ends by itself after 4,096 pounds and HOLD_EXPIRED is set. -/
  | checkpointHoldExpiry (book : Nat)
  /-- CHECKPOINT_RESTORE (R142): Command that verifies a checkpoint statement, loads its root node and sets the replay start. -/
  | checkpointRestore (ring : Nat)
  /-- REPLAY (R209): Command that reads journal frames from a host buffer and applies them to a book in RECOVERING. -/
  | replay (ring : Nat)
  /-- REPLAY_END (R211): Command that ends replay, giving OPEN at the target or FENCED_GAP short of it. -/
  | replayEnd (ring : Nat)
  /-- GAP_CLEAR (R213): Custodian-authorised command that commits a GAP_CLEAR record and reopens a FENCED_GAP book. -/
  | gapClear (ring : Nat)
  /-- ADOPT_PREPARE (R214): Command that draws a destination nonce for a book in NONE and writes the ticket. -/
  | adoptPrepare (ring : Nat)
  /-- HANDOVER (R215): Command that commits a HANDOVER record, writes back the book and writes a signed handover statement. -/
  | handover (ring : Nat)
  /-- ADOPT (R217): Command that verifies a handover statement and opens the book on the destination with an ADOPT record. -/
  | adopt (ring : Nat)
  /-- CREATE (R103): BOOK_CTL command to create the selected book; sets BUSY within the write. -/
  | create
  /-- DELETE (R104): BOOK_CTL command to delete the selected book; sets BUSY within the write. -/
  | delete
  /-- BOOK_COMMAND_EXAMINE (R103): At the next grain boundary a CREATE or DELETE is checked and accepted or refused with CMD_ERR. -/
  | bookCommandExamine (book : Nat)
  /-- BOOK_SETUP_DONE (R103): An accepted CREATE derives the book keys, records the book in HEADS and enters OPEN. -/
  | bookSetupDone (book : Nat)
  /-- DELETE_COMPLETE (R104): Once committed work has finished, the book's record is erased and the book enters NONE. -/
  | deleteComplete (book : Nat)
  /-- SALTERN_BLOCK_LOADED (R132): Reads of a missed block and its absent ancestors arrive, are verified against the tree and are decrypted into the Pan. -/
  | salternBlockLoaded (book block : Nat) (objects : List Bytes)
  /-- SALTERN_READ_RETRY (R134): A Saltern read that ended with an error completion is retried 1 pound later, and the waiting work ends with FAULT if it fails again. -/
  | salternReadRetry (book block : Nat)
  /-- BLOCK_WRITE_BACK (R135): A dirty block or node is encrypted, written with a new version, and its parent entry is updated. -/
  | blockWriteBack (book level index : Nat)
  /-- WRITE_BACK_RETRY (R135): A write-back that failed its window check is retried each pound. -/
  | writeBackRetry (book level index : Nat)
  /-- PAN_REBUILD (R230): An uncorrectable Pan tally line starts a rebuild of its block from the Saltern and the journal. -/
  | panRebuild (book block : Nat)
  /-- REBUILD_FRAME_ARRIVAL (R231): A journal frame read for a rebuild arrives, is checked and its entries are applied. -/
  | rebuildFrameArrival (book block : Nat) (data : Bytes)
  /-- UNFENCE (R237): RING_FENCE.UNFENCE write clears a ring's fence at the next grain boundary. -/
  | unfence
  /-- CORRECTED_WORD_WRITEBACK (R23): A corrected stored word is written back when its memory is next idle. -/
  | correctedWordWriteback (place : CodePlace) (upset : List (Nat × Nat))
  /-- UNCORRECTABLE_ERROR (R24): An uncorrectable word is detected and handled according to where it was found. -/
  | uncorrectableError (word : BadWord) (upset : List (Nat × Nat))
  /-- TAMPER_LEVEL2_SQUASH (R35): A level-2 event squashes the affected step, which is redone once. -/
  | tamperLevel2Squash (glitch : Option Bool) (unit index : Nat)
  /-- GLITCH_DETECTOR_TRIP (R498): A rail glitch detector trips and the steps on that rail are squashed at level 2. -/
  | glitchDetectorTrip (detector : Nat)
  /-- OVERVOLTAGE_TRIP (R498): The over-voltage monitor trips, which is a level-3 event. -/
  | overvoltageTrip (rail : Nat)
  /-- CLOCK_PERIOD_TRIP (R498): A core clock period lies out of bounds, which is a level-2 event that stops the clock. -/
  | clockPeriodTrip
  /-- CLOCK_FREQUENCY_TRIP (R498): The mean clock frequency lies out of bounds, which is a level-3 event. -/
  | clockFrequencyTrip (mhz : Nat)
  /-- CLOCK_RELOCK (R504): After a clock-monitor trip the PLL relocks and the response proceeds. -/
  | clockRelock
  /-- LIGHT_SENSOR_TRIP (R498): A light sensor trips, which is a level-4 event. -/
  | lightSensorTrip (sensor : Nat)
  /-- TEMPERATURE_GRADE_TRIP (R498): Tj leaves the grade range, which is a level-1 event. -/
  | temperatureGradeTrip (sensor : Nat) (tj : BitVec 16)
  /-- TEMPERATURE_TRIP (R498): Tj crosses the trip thresholds, which is a level-3 event. -/
  | temperatureTrip (sensor : Nat) (tj : BitVec 16)
  /-- SENSOR_CALIBRATION (R499): The calibration task measures the Thorn wall tracks and the sensors. -/
  | sensorCalibration (deviations : List (Nat × Nat))
  /-- SUBSTRATE_MESH_FAIL (R498): An open or short in the substrate mesh while powered is a level-4 event. -/
  | substrateMeshFail (mesh : Nat)
  /-- BATTERY_LOOP_CHECK (R501): Every 1,024 battery-oscillator cycles the battery domain checks TAMPER_LOOP and the mesh and may set the latch. -/
  | batteryLoopCheck (loopFault meshFault : Bool)
  /-- VBAT_LOW (R503): VBAT falls below 2.5 V while armed, which is a level-1 event that asserts ALARM_N. -/
  | vbatLow
  /-- KEY_ERASE_COMPLETE (R408): Erasure of the KEYS and ALLOW pages ends and ERASE_PENDING is cleared. -/
  | keyEraseComplete
  /-- BITTERN_SUMMARY_FORMED (R521): After entry into BITTERN and a release of the random unit, the summary statement is signed and stored. -/
  | bitternSummaryFormed
  /-- MAIN_RAIL_FAIL (R554): A main rail stays below its threshold for 8 grains and a power failure is declared. -/
  | mainRailFail (rail : Nat)
  /-- PWR_FAIL_N_ASSERT (R554): PWR_FAIL_N low for at least 100 ns declares a power failure. -/
  | pwrFailNAssert
  /-- PERST_N_ASSERT (R560): PERST_N assertion resets the device, with a flush while the running mark stands. -/
  | perstNAssert
  /-- DRAIN_CUTOFF (R557): The flush drain stops on link loss, PERST_N, 10 ms or HOLD below 8.0 V. -/
  | drainCutoff (cause : DrainCause)
  /-- KEEP_DOMAIN_STOP (R558): HOLD falls below 6.0 V during a flush and the keep domain stops where it stands. -/
  | keepDomainStop (written : Option Nat)
  /-- START_UP (R561): PERST_N deassertion with stable rails starts the start-up sequence. -/
  | startUp (array : Bytes) (holdMv : Nat) (vbatLost : Bool)
  /-- LINK_TRAINING_START (R562): Link training begins at the end of step 4, or 15 ms after deassertion. -/
  | linkTrainingStart
  /-- CONFIGURATION_READY (R561): Configuration space stops answering CRS and the set-up registers become available. -/
  | configurationReady
  /-- RINGS_SERVICEABLE (R561): Once the key sweep and configuration-ready are done, lanes pass their tests and fetching begins. -/
  | ringsServiceable
  /-- KEY_SWEEP (R385): Every occupied slot's MAC is checked and the slot is masked at start-up. -/
  | keySweep
  /-- KEY_SWEEP_FALLBACK_MASK (R389): With no random output within 16 pounds, the sweep masks slots with AES-CTR under K_MASK. -/
  | keySweepFallbackMask
  /-- HOLD_WEAK (R480): HOLD falls below 9.5 V and write-through begins, with ALARM_N asserted. -/
  | holdWeak (holdMv : Nat)
  /-- WRITE_THROUGH_EXIT (R480): HOLD stays at or above 9.8 V for 1 pound and write-through ends. -/
  | writeThroughExit
  /-- GRAIN_RECORD (R13): Every 4,096 pounds HTM_GRAIN is recorded in HEADS. -/
  | grainRecord
  /-- FUNCTION_LEVEL_RESET (R277): A function-level reset resets every active slice, the ring registers and MSI-X. -/
  | functionLevelReset
  /-- HOT_RESET (R277): A hot reset acts on the host interface as a function-level reset. -/
  | hotReset
  /-- LINK_DOWN_RESET (R277): A link-down reset acts on the host interface as a function-level reset. -/
  | linkDownReset
  /-- BUS_MASTER_ENABLE_CHANGE (R247): Clearing or setting Bus Master Enable or PASID Enable, or a D3hot transition, holds or resumes host traffic. -/
  | busMasterEnableChange (bme pasidEn d3hot : Bool)
  /-- CONFIG_REQUEST_RETRY (R246): Before configuration-ready a configuration request is answered with CRS. -/
  | configRequestRetry (field : CfgField)
  /-- UNSUPPORTED_BAR_REQUEST (R250): A non-memory request to a BAR is answered with Unsupported Request and logged. -/
  | unsupportedBarRequest (offset : Nat)
  /-- BAR0_BAD_ACCESS (R252): A BAR0 access of the wrong size or alignment is ignored, or reads zero, and is logged. -/
  | bar0BadAccess (offset size : Nat) (write : Bool)
  /-- LINK_PROTOCOL_VIOLATION (R249): A link-level violation by the partner is handled under PCIe, reported through AER and logged. -/
  | linkProtocolViolation (bit : Nat)
  /-- HOST_READ_RETRY (R248): A buffer read that ended with an error completion is retried after 1 pound, or the operation ends with FAULT. -/
  | hostReadRetry (tag : Nat)
  /-- HOST_READ_COMPLETION (R248): Data for a device-issued host read of a named buffer arrives and the waiting work continues. -/
  | hostReadCompletion (tag : Nat) (data : Bytes)
  /-- REGISTER_WRITE (R15): A write to a register without behaviour of its own sets its RW fields or clears its W1C bits. -/
  | registerWrite (reg : RegTarget) (value : Nat)
  /-- RC_REGISTER_READ (R15): A read of a clear-on-read field returns its value and clears it. -/
  | rcRegisterRead (bar offset size : Nat)
  /-- RING_ENABLE (R272): A RING_CFG write with ENABLE 1 to a disabled ring is checked and enables the ring or sets ERR. -/
  | ringEnable (value : Nat)
  /-- RING_DISABLE (R272): A RING_CFG write with ENABLE 0 stops fetching and sets BUSY. -/
  | ringDisable (value : Nat)
  /-- RING_DISABLE_DONE (R272): Fetched descriptors complete and fetch reads end, so BUSY and ENABLE clear. -/
  | ringDisableDone (ring : Nat)
  /-- ACTIVATE (R284): Slice command that activates a FREE slice after the PASID and quota checks, incrementing GEN. -/
  | activate (slice : Nat)
  /-- QUIESCE (R283): Slice command that stops fetching and lets fetched work drain. -/
  | quiesce (slice : Nat)
  /-- RESUME (R282): Slice command that returns a QUIESCING slice to ACTIVE. -/
  | resume (slice : Nat)
  /-- RESET (R291): Slice command that increments GEN, stops fetching and ends the slice's work in flight. -/
  | reset (slice : Nat)
  /-- REMOVE (R293): Slice command that resets the slice and then frees it, closing sessions and windows. -/
  | remove (slice : Nat)
  /-- SLICE_RESET_COMPLETE (R291): No work of an old generation remains; fences and HALTED clear and the slice returns to ACTIVE. -/
  | sliceResetComplete (slice : Nat)
  /-- SLICE_FREE (R293): After REMOVE, accesses checked under the old windows retire and the slice becomes FREE. -/
  | sliceFree (slice : Nat)
  /-- SLICE_QUOTA_WRITE (R285): A write of a slice quota field is checked against the reservation sums and accepted or refused with QREF. -/
  | sliceQuotaWrite (slice : Nat) (quota : QuotaReg) (value : Nat)
  /-- TOKEN_QUOTA_WRITE (R58): A write of SLICE_TOK_QUOTA is accepted or refused with TOKEN_OVER. -/
  | tokenQuotaWrite (slice value : Nat)
  /-- SLICE_PASID_WRITE (R279): A write of SLICE_PASID takes effect only while the slice is FREE. -/
  | slicePasidWrite (slice value : Nat)
  /-- DPL_ENABLE (R301): Setting DPL_BASE.EN checks the log ring window and starts dirty-page logging. -/
  | dplEnable (slice value : Nat)
  /-- DPL_READ_WRITE (R300): A write of DPL_READ consumes log entries and clears the repeat filter. -/
  | dplReadWrite (slice value : Nat)
  /-- WINDOW_BARRIER (R310): A GO write checks a slice's staged windows and makes them live. -/
  | windowBarrier (value : Nat)
  /-- WINDOW_BARRIER_END (R310): The accesses checked under the old windows retire and BUSY returns to 0. -/
  | windowBarrierEnd (slice : Nat)
  /-- MPU_DISABLE (R316): Clearing MPU_CTL.EN stalls the master and drains its old accesses. -/
  | mpuDisable (value : Nat)
  /-- MPU_ENABLE (R316): Setting MPU_CTL.EN checks the regions and enables the MPU or refuses the enable. -/
  | mpuEnable (value : Nat)
  /-- MPU_REGION_WRITE (R316): A region register write is accepted only while the MPU is disabled. -/
  | mpuRegionWrite (reg : MpuReg) (value : Nat)
  /-- MPU_WRITE_BUFFER_DRAIN (R321): A buffered DMA write leaves the MPU write buffer and is checked. -/
  | mpuWriteBufferDrain (mpu : Nat)
  /-- INVOKE (R361): Command that invokes an allow-listed applet image on an Alaing core. -/
  | invoke (ring : Nat)
  /-- INVOCATION_CORE_ASSIGN (R32): A waiting invocation is assigned the lowest idle core within its slice's quota. -/
  | invocationCoreAssign
  /-- IMAGE_LOAD_COMPLETE (R363): The image and mailbox reads end, the digest and signature checks are made and core state is set. -/
  | imageLoadComplete (core : Nat) (image mailbox : Bytes)
  /-- IMAGE_SIGNATURE_VERIFIED (R362): The class-3 verification of a not-current image signature ends and the entry's AUTH_SERIAL is updated. -/
  | imageSignatureVerified (core : Nat)
  /-- BUDGET_TRAP (R365): The charged grains reach the invocation budget and the core traps with BUDGET. -/
  | budgetTrap (core : Nat)
  /-- SERVICE_CALL_END (R347): A service ends, RES and STATUS are written and the core resumes at the next boundary. -/
  | serviceCallEnd (core : Nat)
  /-- ALLOW_ADD (R359): Command that verifies an image and writes an allow-list entry. -/
  | allowAdd (ring : Nat)
  /-- ALLOW_REMOVE (R359): Command that erases an occupied allow-list entry. -/
  | allowRemove (ring : Nat)
  /-- ALLOW_READ (R360): Command that writes an allow-list entry to host memory. -/
  | allowRead (ring : Nat)
  /-- SVC_TALLY_READ (R349): Service call that reads a tally of the slice's book as a prime operation with L set. -/
  | svcTallyRead (core : Nat)
  /-- SVC_POST (R177): Service call that forms a POST descriptor from the applet's payload and submits it. -/
  | svcPost (core : Nat)
  /-- SVC_DIGEST (R349): Service call that computes one complete digest of local memory. -/
  | svcDigest (core : Nat)
  /-- SVC_MAC (R349): Service call that generates or verifies a MAC under a key handle. -/
  | svcMac (core : Nat)
  /-- SVC_DERIVE (R349): Service call that derives an invocation key handle. -/
  | svcDerive (core : Nat)
  /-- SVC_BIGNUM (R349): Service call that runs a big-number operation on local operands. -/
  | svcBignum (core : Nat)
  /-- SVC_RANDOM (R349): Service call that draws random bytes into local memory. -/
  | svcRandom (core : Nat)
  /-- SVC_NV_READ (R349): Service call that reads a USER partition into local memory. -/
  | svcNvRead (core : Nat)
  /-- SVC_NV_WRITE (R349): Service call that writes local memory to a USER partition. -/
  | svcNvWrite (core : Nat)
  /-- SVC_RETURN (R367): Service call that ends the invocation and hands the mailbox output to the completion writer. -/
  | svcReturn (core : Nat)
  /-- DADD (R338): Alaing decimal add. -/
  | dadd (core : Nat)
  /-- DSUB (R338): Alaing decimal subtract. -/
  | dsub (core : Nat)
  /-- DCMP (R338): Alaing decimal compare. -/
  | dcmp (core : Nat)
  /-- DMUL (R338): Alaing decimal multiply into a register pair. -/
  | dmul (core : Nat)
  /-- DDIV (R340): Alaing decimal divide with optional rounding. -/
  | ddiv (core : Nat)
  /-- DRND (R338): Alaing decimal round of a word or a pair. -/
  | drnd (core : Nat)
  /-- DSHF (R338): Alaing decimal digit shift. -/
  | dshf (core : Nat)
  /-- DNEG (R338): Alaing decimal negate. -/
  | dneg (core : Nat)
  /-- DABS (R338): Alaing decimal absolute value. -/
  | dabs (core : Nat)
  /-- DMOV (R341): Alaing bit copy of a decimal register. -/
  | dmov (core : Nat)
  /-- DNRM (R341): Alaing normalisation of a tally word. -/
  | dnrm (core : Nat)
  /-- DVAL (R338): Alaing validity test of a tally word. -/
  | dval (core : Nat)
  /-- DTST (R338): Alaing sign and zero test. -/
  | dtst (core : Nat)
  /-- DCVB (R338): Alaing conversion of a tally word to binary. -/
  | dcvb (core : Nat)
  /-- DCVD (R338): Alaing conversion of binary to a tally word. -/
  | dcvd (core : Nat)
  /-- DLI (R338): Alaing load of an immediate as a tally word. -/
  | dli (core : Nat)
  /-- DADDI (R338): Alaing decimal add of an immediate. -/
  | daddi (core : Nat)
  /-- DCMPI (R338): Alaing decimal compare with an immediate. -/
  | dcmpi (core : Nat)
  /-- DGET (R338): Alaing read of one nibble of a decimal register. -/
  | dget (core : Nat)
  /-- DPUT (R338): Alaing write of one nibble of a decimal register. -/
  | dput (core : Nat)
  /-- DSEL (R338): Alaing conditional select of a decimal register. -/
  | dsel (core : Nat)
  /-- LDD (R342): Alaing load of a 16-byte tally word. -/
  | ldd (core : Nat)
  /-- STD (R342): Alaing store of a 16-byte tally word. -/
  | std (core : Nat)
  /-- LDX (R342): Alaing load of a 4-byte word. -/
  | ldx (core : Nat)
  /-- STX (R342): Alaing store of a 4-byte word; to CALL it starts a service call. -/
  | stx (core : Nat)
  /-- LDH (R342): Alaing load of a 2-byte halfword. -/
  | ldh (core : Nat)
  /-- STH (R342): Alaing store of a 2-byte halfword. -/
  | sth (core : Nat)
  /-- LDB (R342): Alaing load of a byte. -/
  | ldb (core : Nat)
  /-- STB (R342): Alaing store of a byte. -/
  | stb (core : Nat)
  /-- XADD (R343): Alaing binary add. -/
  | xadd (core : Nat)
  /-- XSUB (R343): Alaing binary subtract. -/
  | xsub (core : Nat)
  /-- XAND (R343): Alaing bitwise and. -/
  | xand (core : Nat)
  /-- XOR (R343): Alaing bitwise or. -/
  | xor (core : Nat)
  /-- XXOR (R343): Alaing bitwise exclusive or. -/
  | xxor (core : Nat)
  /-- XSHL (R343): Alaing logical shift left. -/
  | xshl (core : Nat)
  /-- XSHR (R343): Alaing logical shift right. -/
  | xshr (core : Nat)
  /-- XSAR (R343): Alaing arithmetic shift right. -/
  | xsar (core : Nat)
  /-- XMUL (R343): Alaing binary multiply, low 32 bits. -/
  | xmul (core : Nat)
  /-- XCMP (R343): Alaing binary compare. -/
  | xcmp (core : Nat)
  /-- XADDI (R343): Alaing binary add of an immediate. -/
  | xaddi (core : Nat)
  /-- XLI (R343): Alaing load of an immediate. -/
  | xli (core : Nat)
  /-- XLUI (R343): Alaing load of an upper immediate. -/
  | xlui (core : Nat)
  /-- XORI (R343): Alaing or with an immediate. -/
  | xori (core : Nat)
  /-- XANDI (R343): Alaing and with an immediate. -/
  | xandi (core : Nat)
  /-- XCMPI (R343): Alaing compare with an immediate. -/
  | xcmpi (core : Nat)
  /-- B (R344): Alaing conditional branch. -/
  | b (core : Nat)
  /-- BL (R344): Alaing branch and link. -/
  | bl (core : Nat)
  /-- BR (R344): Alaing branch to a register. -/
  | br (core : Nat)
  /-- DBNZ (R344): Alaing decrement and branch if not zero. -/
  | dbnz (core : Nat)
  /-- ALAING_NOP (R344): Alaing no-operation instruction. -/
  | alaingNop (core : Nat)
  /-- SVC (R347): Alaing instruction that starts service call n and enters the wait state. -/
  | svc (core : Nat)
  /-- TRAP (R345): Alaing user trap that ends the invocation. -/
  | trap (core : Nat)
  /-- SETM (R344): Alaing setting of the overflow trap mode. -/
  | setm (core : Nat)
  /-- MFF (R344): Alaing move from the flags register. -/
  | mff (core : Nat)
  /-- MTF (R344): Alaing move to the flags register. -/
  | mtf (core : Nat)
  /-- SESSION_OPEN (R396): Command that derives a session key from a parent slot along up to 4 labels. -/
  | sessionOpen (ring : Nat)
  /-- SESSION_DERIVE (R398): Command that derives a new session one level below the named session. -/
  | sessionDerive (ring : Nat)
  /-- SESSION_CLOSE (R399): Command that clears a session context and frees its handle. -/
  | sessionClose (ring : Nat)
  /-- SESSION_REDERIVATION (R400): Re-masking re-derives a session context's keys from its parent along the stored path. -/
  | sessionRederivation (handle : Nat)
  /-- KEY_REMASK (R388): A background step re-masks one key slot with a fresh mask. -/
  | keyRemask (target index : Nat)
  /-- SLOT_WRITE (R407): Envelope operation that installs or replaces a key slot. -/
  | slotWrite (ring : Nat)
  /-- SLOT_ERASE (R407): Envelope operation that erases a key slot. -/
  | slotErase (ring : Nat)
  /-- AUTH_WRITE (R407): Custodian-authorised envelope operation that writes an authority entry. -/
  | authWrite (ring : Nat)
  /-- AUTH_ERASE (R407): Custodian-authorised envelope operation that erases an authority entry. -/
  | authErase (ring : Nat)
  /-- PROVISION (R512): Envelope operation that installs the confirmed stage and moves ISSUED to SEALED. -/
  | provision (ring : Nat)
  /-- FAMILY_READ (R402): Command that returns a family counter. -/
  | familyRead (ring : Nat)
  /-- CERT_READ (R379): Command that writes the identity certificate to host memory. -/
  | certRead (ring : Nat)
  /-- CIPHER (R416): Bulk AES stream in GCM, CTR, CBC or XTS mode. -/
  | cipher (ring : Nat)
  /-- MAC (R420): Stream MAC generate or verify by AES-CMAC or HMAC. -/
  | mac (ring : Nat)
  /-- DIGEST (R423): One complete digest of a host buffer. -/
  | digest (ring : Nat)
  /-- DIGEST_UPDATE (R425): Absorbs data into a digest context in host memory. -/
  | digestUpdate (ring : Nat)
  /-- DIGEST_FINISH (R425): Absorbs the last data, pads and writes the digest and the finished context. -/
  | digestFinish (ring : Nat)
  /-- MODEXP (R428): Big-number modular exponentiation. -/
  | modexp (ring : Nat)
  /-- MODMUL (R428): Big-number modular multiplication. -/
  | modmul (ring : Nat)
  /-- RSA_PUBLIC (R428): RSA public operation. -/
  | rsaPublic (ring : Nat)
  /-- RSA_PRIVATE (R428): RSA private operation under a slot key. -/
  | rsaPrivate (ring : Nat)
  /-- ECDSA_SIGN (R428): ECDSA signature under a slot key. -/
  | ecdsaSign (ring : Nat)
  /-- ECDSA_VERIFY (R428): ECDSA signature verification. -/
  | ecdsaVerify (ring : Nat)
  /-- ECDH (R428): ECDH agreement under a slot key. -/
  | ecdh (ring : Nat)
  /-- X25519 (R428): X25519 agreement under a slot key. -/
  | x25519 (ring : Nat)
  /-- ED25519_SIGN (R428): Ed25519 signature under a slot key. -/
  | ed25519Sign (ring : Nat)
  /-- ED25519_VERIFY (R428): Ed25519 signature verification. -/
  | ed25519Verify (ring : Nat)
  /-- BN_JOB_END (R433): A big-number job ends and its engine chooses the job with the smallest remaining cost. -/
  | bnJobEnd (engine : Nat) (mismatch : Bool)
  /-- RANDOM (R454): Command that writes random bytes to a host buffer. -/
  | random (ring : Nat)
  /-- RNG_KAT (R461): Command that runs the built-in known-answer tests of the random unit. -/
  | rngKat (ring : Nat)
  /-- RNG_INJECT (R462): Command that runs the test instance of the conditioner or DRBG on host inputs. -/
  | rngInject (ring : Nat)
  /-- RNG_BLOCK_END (R441): A 1,024-sample block of each source ends, its health tests decide and a combined block is formed. -/
  | rngBlockEnd (samples : List Bytes)
  /-- CONDITIONING (R445): A combined block is conditioned by CBC-MAC into a pool entry. -/
  | conditioning
  /-- DRBG_INSTANTIATE (R448): The DRBG is instantiated from three pool entries and release begins. -/
  | drbgInstantiate
  /-- DRBG_RESEED (R448): A due reseed takes three fresh pool entries. -/
  | drbgReseed
  /-- RESEED_OVERDUE (R449): 1 pound passes without a reseed and release stops with RESEED_LATE set. -/
  | reseedOverdue
  /-- RNG_OUTPUT_STEP (R451): Each grain the unit serves the highest-priority waiting consumer with up to 128 bytes. -/
  | rngOutputStep
  /-- RNG_STARTUP_SLOW (R456): The start-up test has not passed 1 pound after the unit started. -/
  | rngStartupSlow
  /-- RNG_WAIT_TIMEOUT (R452): A bounded random consumer reaches its wait bound and ends with NO_ENTROPY. -/
  | rngWaitTimeout
  /-- RNG_DATA_READ (R453): A read of RNG_DATA removes 4 or 8 bytes from the FIFO, or returns zero with EMPTY. -/
  | rngDataRead (size : Nat)
  /-- NV_READ (R492): Command that reads bytes of a USER partition into a host buffer. -/
  | nvRead (ring : Nat)
  /-- NV_WRITE (R492): Command that writes host bytes to a USER partition through the write buffer. -/
  | nvWrite (ring : Nat)
  /-- NV_COMMIT (R492): Command that commits the write buffer. -/
  | nvCommit (ring : Nat)
  /-- NV_PASSWD (R494): Command that replaces a USER partition's read or write password. -/
  | nvPasswd (ring : Nat)
  /-- NV_CTL_COMMIT (R475): A write of NV_CTL.COMMIT commits the write buffer. -/
  | nvCtlCommit
  /-- WRITE_BUFFER_IDLE_COMMIT (R475): One ounce without a new write commits the write buffer. -/
  | writeBufferIdleCommit
  /-- PAGE_WRITE (R469): The controller writes one page of a buffer commit by the in-place or two-copy method. -/
  | pageWrite
  /-- NV_SCRUB_STEP (R495): The scrub task reads one page and rewrites its corrected codewords. -/
  | nvScrubStep (corrected bad : List Nat)
  /-- COUNTER_PERIODIC_STORE (R487): A counter 2^28 above its stored value is stored within a scruple. -/
  | counterPeriodicStore (counter : Nat)
  /-- NV_PART_CFG_WRITE (R490): A write of NV_PART_CFG creates, erases, resizes or reassigns a USER partition. -/
  | nvPartCfgWrite (value : Nat)
  /-- CNT_OWNER_WRITE (R488): A write of CNT_OWNER changes a counter's owner slice at the next grain. -/
  | cntOwnerWrite (value : Nat)
  /-- BAT_CFG_WRITE (R502): A write of BAT_CFG in ISSUED arms or disarms the battery domain after checking the loop and the mesh. -/
  | batCfgWrite (value : Nat) (loopOk meshOk : Bool)
  /-- CUST_CHALLENGE (R515): Command that issues a custodian challenge block, held in a slot. -/
  | custChallenge (ring : Nat)
  /-- CHALLENGE_SLOT_LAPSE (R515): A challenge slot lapses 131,072 pounds after its grain. -/
  | challengeSlotLapse (slot : Nat)
  /-- LC_STAGE (R511): Command that verifies a staging list under custodian authorisation and holds it as the confirmed stage. -/
  | lcStage (ring : Nat)
  /-- LC_CHANGE (R513): Command that makes an authorised life-cycle transition. -/
  | lcChange (ring : Nat)
  /-- BITTERN_STATEMENT (R519): Command that returns a signed summary, book or counter statement in Bittern mode. -/
  | bitternStatement (ring : Nat)
  /-- CL_COLLECT (R537): Command that collects two custodian card signatures over the antenna. -/
  | clCollect (ring : Nat)
  /-- CL_ABORT (R538): Command that ends a running collect of the slice. -/
  | clAbort (ring : Nat)
  /-- CL_COLLECT_WAIT_EXPIRY (R537): WAIT pounds pass before two signatures are accepted and the collect ends with AUTH. -/
  | clCollectWaitExpiry
  /-- EXTERNAL_FIELD_CHECK (R529): Before switching its carrier on, the device measures for an external field. -/
  | externalFieldCheck (field : Nat)
  /-- CARD_PING (R531): Every PING_MS a 10 µs carrier ping measures detuning and may detect a card. -/
  | cardPing (amplitude : Nat)
  /-- CARD_ANSWER (R534): A custodian card's answer to the signature APDU arrives and its signature is checked. -/
  | cardAnswer (data : Bytes)
  /-- CARD_FRAME_TIMEOUT (R547): No answer arrives within the frame waiting time and the block is retransmitted or the card rejected. -/
  | cardFrameTimeout
  /-- TAG_SELECT_APPLICATION (R542): Tag-mode SELECT of the tag application. -/
  | tagSelectApplication (aid : Bytes)
  /-- TAG_SELECT_FILE (R542): Tag-mode SELECT of an elementary file. -/
  | tagSelectFile (fid : Nat)
  /-- READ_BINARY (R542): Tag-mode read of the selected file. -/
  | readBinary (offset le : Nat)
  /-- UPDATE_BINARY (R544): Tag-mode write of the inventory memory, field-powered or not. -/
  | updateBinary (offset : Nat) (data : Bytes) (capMv field : Nat)
  /-- VERIFY (R542): Tag-mode password verification for partition 0. -/
  | verify (write : Bool) (password : Bytes) (capMv : Nat)
  /-- TAG_FRAME_ERROR (R547): A damaged frame in tag mode is ignored and counted. -/
  | tagFrameError
  /-- FIELD_LOSS (R545): The reader field collapses and tag state is lost or a write stands. -/
  | fieldLoss
  /-- SB_IDENT (R586): Sideband command 0x00 returns HTM_IDENT. -/
  | sbIdent
  /-- SB_DEVICE_ID (R586): Sideband command 0x01 returns DEVICE_ID. -/
  | sbDeviceId
  /-- SB_TJ_MAX (R586): Sideband command 0x02 returns the highest Tj. -/
  | sbTjMax
  /-- SB_TJ_MIN (R586): Sideband command 0x03 returns the lowest Tj. -/
  | sbTjMin
  /-- SB_POWER (R586): Sideband command 0x04 returns the device power. -/
  | sbPower
  /-- SB_HOLD (R586): Sideband command 0x05 returns HOLD in mV. -/
  | sbHold
  /-- SB_LC_STATE (R586): Sideband command 0x06 returns the life-cycle state. -/
  | sbLcState
  /-- SB_TAMPER_FLAGS (R586): Sideband command 0x07 returns the L2 window, ALARM and the battery latch. -/
  | sbTamperFlags
  /-- SB_TAMPER_CAUSE (R586): Sideband command 0x08 returns TAMPER_CAUSE. -/
  | sbTamperCause
  /-- SB_STATUS_FLAGS (R586): Sideband command 0x09 returns the halt, write-through, Bittern, spent and ready flags. -/
  | sbStatusFlags
  /-- SB_HALT (R586): Sideband command 0x0A returns HTM_HALT bits 15:0. -/
  | sbHalt
  /-- SB_SENSOR_TJ (R586): Sideband commands 0x10-0x1F return the Tj of one sensor. -/
  | sbSensorTj (sensor : Nat)
  /-- SIDEBAND_VIOLATION (R587): An unknown command, a write transaction or an unavailable command is not acknowledged and is logged. -/
  | sidebandViolation (code : Nat)
  /-- SMBUS_CLOCK_TIMEOUT (R596): The SMBus clock held low for 25-35 ms makes the port release the bus. -/
  | smbusClockTimeout
  /-- TELEMETRY_SAMPLE (R584): Once per pound temperatures, power and HOLD are sampled into telemetry registers. -/
  | telemetrySample (tj : List (BitVec 16)) (power holdMv : Nat)
  /-- PEAK_CLR (R590): TEL_CTL.PEAK_CLR resets the peak registers to the next sample. -/
  | peakClr
  /-- LOG_ACK_WRITE (R577): A write of PLOG_ACK or TLOG_ACK reports the last consumed SEQ. -/
  | logAckWrite (tamper : Bool) (seq : Nat)
  /-- FIELD_PRESENT (R530): A reader field appears at the antenna and, with main power absent, powers the device into TAG mode. -/
  | fieldPresent (field : Nat)
  /-- TAG_ANTICOLLISION (R539): In TAG mode an external reader's REQA, anticollision, SELECT, RATS or HLTA frame is answered with ATQA, UID, SAK or ATS. -/
  | tagAnticollision (frame : TagFrame)
  /-- CARD_ACTIVATION_ANSWER (R532): During a collect a card's ATQA, anticollision answer, SAK, ATS, PPS or SELECT response frame arrives and the dialogue advances. -/
  | cardActivationAnswer (data : Bytes) (collision : Option Nat)
  /-- MSIX_TABLE_WRITE (R271): A host write to the MSI-X table or PBA masks or unmasks a vector, and unmasking a vector whose PBA bit is set sends its pending message. -/
  | msixTableWrite (offset value : Nat)
  /-- VBAT_RESTORED (R503): VBAT rises back above 2.5 V while main power is present, clearing VBAT_LOW and letting ALARM_N be released. -/
  | vbatRestored
  /-- FUNCTION_LEVEL_RESET_COMPLETE (R277): A function-level, hot or link-down reset completes, and configuration and BAR requests are served again instead of CRS and Unsupported Request. -/
  | functionLevelResetComplete
  /-- LINK_UP (R561): Link training completes and the link enters L0, so configuration requests can arrive. -/
  | linkUp
deriving DecidableEq, Repr

end Sys2Proof
end

