-- ==== Sys2Proof/Decode.lean ====
section
/-! DEFINITION. Commands spelled by table words. The command table of the SK9640 gives no row any bits: commands reach
the device as bus accesses, descriptors and pin events, whose own layouts the meanings read. -/

namespace Sys2Proof

/-- The command that `nbits` bits `w` spell: none, as no row of the table has bits. -/
def decodeTableWord (_nbits _w : Nat) : Option Instr := none

end Sys2Proof
end

