-- ==== Sys2Proof/Machine/StCommon.lean ====
section
/-! DEFINITION. Types shared by every part of the state: status codes, completions, outgoing traffic, log events,
outstanding host reads. -/

namespace Sys2Proof.Machine
open Sys2Proof

/-- Status codes of R570, in code order. -/
inductive Status where
  | ok | malformed | state | policy | auth | fenced | stale | busy | fault | slotBad | noEntropy | overflow
  | invalidDigit | range | journalFull | torn | access | integrity | tamper | expired | exhausted | gap | holdLow
deriving DecidableEq, Repr

/-- What a device-issued write carries: it names the exclusions of R315 and the SOURCE of the dirty-page log (R299). -/
inductive Traffic where
  | fetch | completion | receipt | frame | seal | saltern | stream | mailbox | statement | image | mailboxRead | dpl
deriving DecidableEq, Repr

/-- The three TLP attributes of R315. -/
structure Attr where
  ns : Bool
  ro : Bool
  ido : Bool
deriving DecidableEq, Repr

/-- What leaves the device, in order of issue. Host memory is outside the model: this list is the device's whole
effect on it. -/
inductive Out where
  /-- A memory write TLP: master (R313), slice, PASID, address, attributes, kind, data. -/
  | mwr (master slice pasid addr : Nat) (attr : Attr) (kind : Traffic) (data : Bytes)
  /-- A memory read TLP. -/
  | mrd (master slice pasid addr len : Nat) (attr : Attr) (kind : Traffic)
  /-- An MSI-X message (R27, R271). -/
  | msix (addr : Nat) (data : Nat)
  /-- The data answered to a host read of a BAR, in bytes. -/
  | barRead (offset : Nat) (data : Bytes)
  /-- The data answered to a host read of the doorbell BAR (2) or the MSI-X BAR (4), in bytes. -/
  | barOther (bar offset : Nat) (data : Bytes)
  /-- The value answered to a configuration read of a field. -/
  | config (field : CfgField) (value : Nat)
  /-- Configuration Request Retry Status answered (R246, R277). -/
  | crs
  /-- Unsupported Request answered (R250, R277). -/
  | unsupported
  /-- A sideband port answer, low byte first (R586). -/
  | sideband (data : Bytes)
  /-- A sideband transaction not acknowledged (R587). -/
  | sidebandNak
  /-- A frame sent to a card or to an external reader over the antenna (R532-R542). -/
  | rf (data : Bytes)
deriving DecidableEq, Repr

/-- An event on its way into the protocol log (R575); `unit` is the place of its unit in the order of R20. -/
structure PEvent where
  unit : Nat
  event : Nat
  check : Nat
  status : Nat
  grain : Nat
  slice : Nat
  ring : Nat
  tag : Nat
  opcode : Nat
  slot : Nat
  detail : Nat
deriving DecidableEq, Repr

/-- An event on its way into the tamper log (R579). -/
structure TEvent where
  unit : Nat
  level : Nat
  source : Nat
  action : Nat
  grain : Nat
  loc : Nat
  slice : Nat
  detail : Nat
deriving DecidableEq, Repr

/-- What an outstanding host read is for. -/
inductive ReadKind where
  /-- The parts issued of an access that failed at a later part: they deliver nothing (R307). -/
  | failed
  /-- A descriptor fetch of a submission ring (R261). -/
  | fetch (ring : Nat)
  /-- A buffer named by the descriptor with this work id; `part` numbers its reads. -/
  | work (id part : Nat)
  /-- The reads of one Saltern load: book and block (R132). -/
  | load (book block : Nat)
  /-- A frame read of a Pan rebuild: book and block (R230). -/
  | rebuild (book block : Nat)
  /-- Image and mailbox reads of an invocation: core (R363). -/
  | image (core : Nat)
deriving DecidableEq, Repr

/-- A host read in flight. `epoch` is the slice's window epoch at its check point (R306); `retry` tells that it is the
one retry; `failedAt` is the grain of an error completion, after which the retry waits 1 pound. -/
structure Read where
  /-- Serial number of the model, in place of the PCI Express tag. -/
  id : Nat
  kind : ReadKind
  slice : Nat
  master : Nat
  addr : Nat
  len : Nat
  epoch : Nat
  retry : Bool
  failedAt : Option Nat
  /-- Descriptor fetch: issued before the ring's last unfence (R237). -/
  preUnfence : Bool
  /-- Descriptor fetch: the data is to be discarded (R272, R291). -/
  discard : Bool
  /-- Its request TLPs that are outstanding, each under a tag (R245). -/
  tags : Nat
  /-- Its request TLPs that wait for a tag. -/
  wait : List Out
deriving DecidableEq, Repr

/-- The completion of a piece of work, as handed to the completion writer (R268). -/
structure Cpl where
  status : Status
  result : Bytes
  late : Bool
  redo : Bool
  rcpt : Bool
  opcode : Nat
  tag : Nat
deriving DecidableEq, Repr

/-- Where a descriptor stands between its fetch and its completion. -/
inductive Phase where
  /-- Held by its fetch engine: a prime descriptor (R59), or a posting (R160) whose checks 1 to 3 have passed. -/
  | held
  /-- Sent to its unit by the class router (R29), not begun. -/
  | routed
  /-- Admitted to its unit and under way; `step` is the operation's own progress number. -/
  | active (step : Nat)
  /-- Waiting for the host reads of its buffers (R248). -/
  | reading (step : Nat)
  /-- Its completion is assembled. -/
  | done
deriving DecidableEq, Repr

/-- One descriptor in the device, from its arrival until its completion is issued or dropped. -/
structure Work where
  /-- Serial number of the model; unique among live work. -/
  id : Nat
  ring : Nat
  slot : Nat
  nslots : Nat
  slice : Nat
  /-- Generation in force when the descriptor was fetched (R288). -/
  gen : Nat
  opcode : Nat
  tag : Nat
  flagD : Bool
  flagF : Bool
  flagI : Bool
  flagL : Bool
  session : Nat
  aux : Nat
  len : Nat
  /-- The descriptor bytes as received. -/
  desc : Bytes
  phase : Phase
  /-- Grain boundary at which it first was held (R59, R160, R200). -/
  heldAt : Nat
  /-- Prime: boundary at which it became covered (R59). -/
  cover : Option Nat
  /-- Prime: held one grain under R61, presented first at the next boundary. -/
  first : Bool
  /-- Prime: grain of admission; other work: grain at which it began. -/
  admitted : Option Nat
  /-- Prime: the conditions of R63 found failed. -/
  lateConds : List Nat
  /-- Prime: its lane (R30) | 3 bits. -/
  lane : Nat
  /-- Prime: grains beyond two: extra steps of R46, the wait of R64, a redo. -/
  extra : Nat
  /-- A redo has been made (R64 condition 5). -/
  redone : Bool
  /-- Prime: the session key taken at admission (R33, R399), and the check found failed there. -/
  key : Bytes
  failed : Option (Nat × Status)
  /-- Host data read so far, in the order of the named buffers. -/
  input : List Bytes
  /-- Host data that has arrived for a step that cannot be made yet (R247). -/
  arrived : Option Bytes
  /-- Bytes of a stream or job processed so far, in and out. -/
  pos : Nat
  /-- Held for journal room since this grain (R200). -/
  fullSince : Option Nat
  /-- TALLY_ADJUST: journal bytes reserved at admission (R199). -/
  reserved : Nat
  /-- The event that ended it: its grain and its place in the order of R221. -/
  ending : Option (Nat × Nat)
  /-- Its status has fenced its ring with cause 0x1 (R234, R236). -/
  fenceDone : Bool
  /-- The commit this work made: book and LSEQ. -/
  commit : Option (Nat × Nat)
  /-- Receipt image assembled for the completion writer (R176), with its address and window epoch. -/
  receipt : Option (Nat × Nat × Bytes)
  /-- Mailbox write assembled for the completion writer (R367): address and bytes. -/
  mailbox : Option (Nat × Bytes)
  /-- The completion. -/
  cpl : Option Cpl
deriving DecidableEq, Repr

end Sys2Proof.Machine
end

