-- ==== Sys2Proof/Machine/StCore.lean ====
section
/-! DEFINITION. The state of the Alaing cores, their invocations and the applet allow-list. A field's docstring
reads: what it is | width | rule | reset value. -/

namespace Sys2Proof.Machine
open Sys2Proof

/-- Causes of R345. -/
inductive TrapCause where
  | invalidDigit | overflow | mpu | illegal | budget | memory | user
deriving DecidableEq, Repr

/-- Where an Alaing core stands. -/
inductive CoreMode where
  /-- No invocation holds the core. -/
  | idle
  /-- Assigned: image and mailbox are being read (R363). -/
  | loading
  /-- Loaded; the signature verification of check 9 runs as a class-3 job (R362). -/
  | verifying
  /-- Loaded; the first instruction runs at the next grain boundary. -/
  | ready
  /-- Executing. -/
  | running
  /-- In the wait state of a service call (R347). -/
  | waiting
  /-- The service has ended; the core resumes at the next boundary. -/
  | resume
  /-- Stalled for one grain in slot 19 (R68). -/
  | stalled
deriving DecidableEq, Repr

/-- The invocation a core runs (R361). -/
structure Invocation where
  /-- Work id of the INVOKE descriptor. -/
  work : Nat
  slice : Nat
  gen : Nat
  session : Nat
  image : Nat
  imageLen : Nat
  /-- Budget in grains | 21 | 12_applets.md R365 | - -/
  budget : Nat
  allow : Nat
  inAddr : Nat
  inLen : Nat
  outCap : Nat
  outAddr : Nat
  /-- Services the image may call | 16 | 12_applets.md R352 | - -/
  svcMask : Nat
  /-- Grains charged | 21 | 12_applets.md R365 | - -/
  charged : Nat
  /-- Postings committed | 32 | 12_applets.md R366 | - -/
  posts : Nat
  /-- The image bytes as read | 98,464 bytes at most | 12_applets.md R363 | - -/
  loaded : Option Bytes
deriving DecidableEq, Repr

/-- A key handle derived by an invocation (R349 DERIVE, R390). -/
structure Handle where
  /-- INDEX of its handle of KIND 1, 0 to 7 | 3 | 13_keys.md R393 | - -/
  num : Nat
  key : Bytes
  attr : BitVec 32
  level : Nat
  uses : Nat
  /-- Reset epoch in which it was derived | 64 | 13_keys.md R387 | - -/
  epoch : Nat
deriving DecidableEq, Repr

/-- An Alaing core (R326). -/
structure Core where
  mode : CoreMode
  inv : Option Invocation
  /-- D0 to D15 | 16 x 128 | 11_alaing_engine.md R326 | +0 before every invocation (R327) -/
  d : List Image
  /-- X0 to X7 | 8 x 32 | 11_alaing_engine.md R326 | 0 before every invocation (R327) -/
  x : List Word
  /-- F: S Z V I C and TV | 32 | 11_alaing_engine.md R326 | 0 -/
  f : Word
  /-- PC | 32 | 11_alaing_engine.md R326 | 0 -/
  pc : Word
  /-- Code memory, 64 KiB | 65,536 x 8 | 01_architecture.md R41 | zero -/
  code : Table Byte
  /-- Data memory, 32 KiB | 32,768 x 8 | 01_architecture.md R41 | zero -/
  data : Table Byte
  /-- Mailbox, 4 KiB | 4,096 x 8 | 01_architecture.md R41 | zero -/
  mail : Table Byte
  /-- CALL: last service number written | 32 | 11_alaing_engine.md R332 | 0 -/
  call : Word
  /-- STATUS: CODE, LATE, REDO, RCPT | 32 | 11_alaing_engine.md R347 | 0 -/
  status : Word
  /-- RES | 32 x 8 | 11_alaing_engine.md R332 | zero -/
  res : Table Byte
  /-- ARG | 80 x 8 | 11_alaing_engine.md R332 | zero -/
  arg : Table Byte
  /-- Cycle within the grain | 7 | 11_alaing_engine.md R329 | 0 -/
  cycle : Nat
  /-- The wait was entered by SVC, which sets Z from STATUS | 1 | 11_alaing_engine.md R344 | 0 -/
  svcZ : Bool
  /-- The service has been taken up by its unit | 1 | 11_alaing_engine.md R347 | 0 -/
  started : Bool
  /-- Answer of the service, held until SERVICE_CALL_END: status word and RES | model | 11_alaing_engine.md R347 | none -/
  answer : Option (Word × Bytes)
  /-- Commit whose frame the answer waits for: book, LSEQ, and whether it waits for persistence (R172) | model | 05_postings.md R177 | none -/
  await : Option (Nat × Nat × Bool)
  /-- Local output of the service: address and bytes | model | 11_alaing_engine.md R348 | none -/
  output : List (Nat × Bytes)
  /-- Derived handles, at most 8 | 8 entries | 11_alaing_engine.md R349 | none -/
  handles : List Handle
  /-- Local words found uncorrectable and not yet overwritten, by local address / 16 | model | 11_alaing_engine.md R333 | none -/
  bad : List Nat
  /-- A squash order is pending (R68 case 1) | 1 | 02_grain_and_classes.md R68 | 0 -/
  squash : Bool
  /-- State at the start of the instruction in progress, restored by a squash: PC and cycle | model | 11_alaing_engine.md R330 | 0 -/
  trapped : Option (TrapCause × Nat × Word × Word × Word)
deriving DecidableEq, Repr

/-- +0, the image of R327. -/
def imgZero : Image := 0xC

def Core.reset : Core :=
  { mode := .idle, inv := none, d := List.replicate 16 imgZero, x := List.replicate 8 0, f := 0, pc := 0, code := [],
    data := [], mail := [], call := 0, status := 0, res := [], arg := [], cycle := 0, svcZ := false, started := false,
    answer := none, await := none, output := [], handles := [], bad := [], squash := false, trapped := none }

/-- An allow-list entry (R356). -/
structure Allow where
  /-- DIGEST | 384 | 12_applets.md R356 | zero -/
  digest : Bytes
  /-- APPLET_ID | 64 | 12_applets.md R356 | 0 -/
  applet : Nat
  /-- AUTH_SERIAL | 64 | 12_applets.md R356 | 0 -/
  serial : Nat
  /-- VERSION | 32 | 12_applets.md R356 | 0 -/
  version : Nat
  /-- SLICE | 16 | 12_applets.md R356 | 0 -/
  slice : Nat
  /-- FLAGS.OCCUPIED | 1 | 12_applets.md R356 | 0 -/
  occupied : Bool
deriving DecidableEq, Repr

def Allow.reset : Allow :=
  { digest := List.replicate 48 0, applet := 0, serial := 0, version := 0, slice := 0, occupied := false }

/-- The Alaing dispatcher, the allow-list and the applet registers. -/
structure Applets where
  /-- The 32 Alaing cores | 32 | 11_alaing_engine.md R326 | all idle -/
  cores : Table Core
  /-- Allow-list entries of the ALLOW partition | 256 x 96 bytes | 12_applets.md R356 | none (R606) -/
  allow : Table Allow
  /-- APPLET_INVOKES.COUNT | 32 | 12_applets.md R372 | 0 -/
  invokes : Ctr
  /-- APPLET_TRAPS.COUNT | 32 | 12_applets.md R372 | 0 -/
  traps : Ctr
deriving DecidableEq, Repr

def Applets.reset : Applets := { cores := [], allow := [], invokes := 0, traps := 0 }

end Sys2Proof.Machine
end

