-- ==== Sys2Proof/Config.lean ====
section
/-! DEFINITION. What the manual leaves to an implementation or leaves open: free values, without a body. -/

namespace Sys2Proof.Config

/-- Free bytes of draw `n`: a value that the manual calls random or leaves open (log entry 6). -/
opaque freeByte : Nat → Nat → Byte

/-- Bytes 0 to `k - 1` of draw `n`. -/
def freeBytes (n k : Nat) : Bytes := (List.range k).map (freeByte n)

/-- A free number of draw `n`. -/
opaque freeNat : Nat → Nat

/-- A free truth value of draw `n`. -/
opaque freeBool : Nat → Bool

/-- The sign of a decimal pair whose two words have different signs: R84 to R88 state none (log entry 15). -/
opaque pairNegative : Image → Image → Bool

/-- Byte `i + j` of a record whose layout the manual does not state (log entry 77). -/
opaque recordByte (key i j : Nat) : Byte

/-- The helper data and the identity certificate that Hartum wrote at manufacture (R375, R379): log entry 7. -/
opaque helper : Bytes
opaque cert : Bytes

/-- The device is of the -X grade (R597): its temperature range is wider. -/
opaque gradeX : Bool

end Sys2Proof.Config
end

