-- ==== Sys2Proof/Machine/Bytes.lean ====
section
/-! DEFINITION. Byte strings, binary fields in little-endian order (R14), bit fields, and sparse tables. -/

namespace Sys2Proof.Machine
open Sys2Proof

/-- `f` of a number. The match makes Lean's kernel evaluate the number before it goes on. -/
def onNat {α : Type} (v : Nat) (f : Nat → α) : α :=
  match v with
  | 0 => f 0
  | n + 1 => f (n + 1)

/-- `n` zero bytes. -/
def zeros (n : Nat) : Bytes := List.replicate n 0

/-- `v` in `n` bytes, least significant first (R14). -/
def leBytes : Nat → Nat → Bytes
  | 0, _ => []
  | n + 1, v => BitVec.ofNat 8 v :: leBytes n (v / 256)

/-- The value of a byte string, least significant first (R14). -/
def leNat : Bytes → Nat
  | [] => 0
  | b :: t => b.toNat + 256 * leNat t

/-- `v` in `n` bytes, most significant first (standards' byte strings). -/
def beBytes (n v : Nat) : Bytes := (leBytes n v).reverse

/-- The value of a byte string, most significant first. -/
def beNat (b : Bytes) : Nat := leNat b.reverse

/-- `b` cut or zero-padded to `n` bytes. -/
def fit (n : Nat) (b : Bytes) : Bytes := b.take n ++ zeros (n - b.length)

/-- The `n` bytes at offset `o`; bytes past the end read zero. -/
def bytesAt (b : Bytes) (o n : Nat) : Bytes := fit n (b.drop o)

/-- The `n`-byte field at offset `o`. -/
def fieldAt (b : Bytes) (o n : Nat) : Nat := leNat (bytesAt b o n)

/-- Every byte is zero. -/
def allZero (b : Bytes) : Bool := b.all (· == 0)

/-- `b` with `d` placed at offset `o`; bytes past the end of `b` are dropped. -/
def putBytes (b : Bytes) (o : Nat) (d : Bytes) : Bytes := (b.take o ++ d ++ b.drop (o + d.length)).take b.length

/-- Bytewise exclusive or over the shorter length. -/
def xorBytes (a b : Bytes) : Bytes := List.zipWith (· ^^^ ·) a b

/-- Pieces of `n` bytes in order, the last one shorter; `k` bounds their number. -/
def piecesAux (n : Nat) : Nat → Bytes → List Bytes
  | 0, _ => []
  | k + 1, b => if b.isEmpty then [] else b.take n :: piecesAux n k (b.drop n)

/-- Pieces of `n` bytes in order, the last one shorter. -/
def pieces (n : Nat) (b : Bytes) : List Bytes := piecesAux n (b.length / n + 1) b

/-- Bits `hi` down to `lo` of `v`. -/
def bits (v hi lo : Nat) : Nat := v / 2 ^ lo % 2 ^ (hi + 1 - lo)

/-- Bit `i` of `v`. -/
def bit (v i : Nat) : Bool := v.testBit i

/-- `v` placed at bit `lo`. -/
def at_ (v lo : Nat) : Nat := v * 2 ^ lo

/-- A flag as a bit. -/
def flag (b : Bool) : Nat := if b then 1 else 0

/-- The ASCII bytes of a string. -/
def ascii (s : String) : Bytes := s.toList.map (fun c => BitVec.ofNat 8 c.toNat)

/-- `a` plus `b`, saturating at `m`. -/
def satAdd (m a b : Nat) : Nat := min m (a + b)

/-- Entry `k` of a table whose unlisted entries are `d`. -/
def tget {α : Type} (d : α) : Table α → Nat → α
  | [], _ => d
  | (j, v) :: t, k => if j == k then v else tget d t k

/-- The table without entry `k`. -/
def tdel {α : Type} (t : Table α) (k : Nat) : Table α := t.filter (fun e => e.1 != k)

/-- The table with entry `k` inserted in key order. -/
def tins {α : Type} (k : Nat) (v : α) : Table α → Table α
  | [] => [(k, v)]
  | (j, w) :: t => if k < j then (k, v) :: (j, w) :: t else if k == j then (k, v) :: t else (j, w) :: tins k v t

/-- The table with entry `k` set; the default is not listed. -/
def tput {α : Type} [DecidableEq α] (d : α) (t : Table α) (k : Nat) (v : α) : Table α :=
  if v = d then tdel t k else tins k v t

/-- The table with every listed entry changed. -/
def tmap {α : Type} [DecidableEq α] (d : α) (f : α → α) (t : Table α) : Table α :=
  (t.map (fun e => (e.1, f e.2))).filter (fun e => decide (e.2 ≠ d))

/-- Canonical form: keys strictly rising, no entry equal to the default. -/
def Twf {α : Type} (d : α) (t : Table α) : Prop :=
  (t.map Prod.fst).Pairwise (· < ·) ∧ ∀ e ∈ t, e.2 ≠ d

/-- `n` bytes of a byte memory from address `a`. -/
def memRead (m : Table Byte) (a n : Nat) : Bytes := (List.range n).map (fun i => tget 0 m (a + i))

/-- A byte memory with `b` written from address `a`. -/
def memWrite (m : Table Byte) (a : Nat) : Bytes → Table Byte
  | [] => m
  | b :: t => memWrite (tput 0 m a b) (a + 1) t

/-- Insert before the first element that `x` may precede. -/
def insertBy {α : Type} (le : α → α → Bool) (x : α) : List α → List α
  | [] => [x]
  | y :: t => if le x y then x :: y :: t else y :: insertBy le x t

/-- A stable sort by insertion. -/
def sortBy {α : Type} (le : α → α → Bool) : List α → List α
  | [] => []
  | x :: t => insertBy le x (sortBy le t)

end Sys2Proof.Machine
end

