-- ==== Sys2Proof/Machine/Tally.lean ====
section
/-! DEFINITION. The tally word and its arithmetic (R72-R93). -/

namespace Sys2Proof.Machine
open Sys2Proof

/-- Nibble `n` of R72; nibble 0 is the most significant. -/
def nib (w : Image) (n : Nat) : Nat := w.toNat / 2 ^ (4 * (31 - n)) % 16

/-- Decimal value of the `k` lowest nibbles of `v`. -/
def unpack : Nat → Nat → Nat
  | 0, _ => 0
  | k + 1, v => v % 16 + 10 * unpack k (v / 16)

/-- The `k` lowest decimal digits of `m`, one in each nibble. -/
def pack : Nat → Nat → Nat
  | 0, _ => 0
  | k + 1, m => m % 10 + 16 * pack k (m / 10)

/-- The `k` lowest nibbles of `v` are decimal digits. -/
def digitsOk : Nat → Nat → Bool
  | 0, _ => true
  | k + 1, v => decide (v % 16 < 10) && digitsOk k (v / 16)

/-- The sign nibble (R72). -/
def signNib (w : Image) : Nat := w.toNat % 16

/-- Sign codes accepted on input (R74). -/
def signOk (w : Image) : Bool := signNib w == 0xC || signNib w == 0xD || signNib w == 0xF

/-- The word is valid (R75). -/
def valid (w : Image) : Bool := signOk w && digitsOk 31 (w.toNat / 16)

/-- Magnitude: the 31 digits. -/
def magnitude (w : Image) : Nat := unpack 31 (w.toNat / 16)

/-- The sign nibble says negative. -/
def negative (w : Image) : Bool := signNib w == 0xD

/-- The integer a valid word stands for. -/
def toInt (w : Image) : Int := if negative w then -(magnitude w : Int) else magnitude w

/-- The image of a magnitude and a sign; zero carries 0xC (R77). -/
def mkImage (neg : Bool) (m : Nat) : Image := BitVec.ofNat 128 (16 * pack 31 m + if neg && m != 0 then 0xD else 0xC)

/-- The largest magnitude plus one (R78). -/
def tallyLimit : Nat := 10 ^ 31

/-- The image of an integer; none outside the range of R78. -/
def ofInt (v : Int) : Option Image := if v.natAbs < tallyLimit then some (mkImage (decide (v < 0)) v.natAbs) else none

/-- The normalised image of a valid word (R77). -/
def normal (w : Image) : Image := mkImage (negative w) (magnitude w)

/-- Add (R82), on valid words; none on overflow (R79). -/
def decAdd (a b : Image) : Option Image := ofInt (toInt a + toInt b)

/-- Subtract (R82). -/
def decSub (a b : Image) : Option Image := ofInt (toInt a - toInt b)

/-- First operand less than the second (R83). -/
def decLt (a b : Image) : Bool := decide (toInt a < toInt b)

/-- Equal values (R83). -/
def decEq (a b : Image) : Bool := decide (toInt a = toInt b)

/-- High and low word of a product or of any pair value (R84). -/
def pairOf (v : Int) : Image × Image :=
  let n := decide (v < 0)
  let word (m : Nat) : Image := BitVec.ofNat 128 (16 * pack 31 m + if n then 0xD else 0xC)
  (word (v.natAbs / tallyLimit), word (v.natAbs % tallyLimit))

/-- Multiply (R84). -/
def decMul (a b : Image) : Image × Image := pairOf (toInt a * toInt b)

/-- The integer a valid pair stands for; with two different signs the manual states none: log entry 15. -/
def pairInt (hi lo : Image) : Int :=
  let m := magnitude hi * tallyLimit + magnitude lo
  let n := if negative hi = negative lo then negative hi else Config.pairNegative hi lo
  if n then -(m : Int) else m

/-- The rounding modes of R87. -/
inductive Rounding where
  | halfEven | halfUp | towardZero | floor | ceiling
deriving DecidableEq, Repr

/-- The coding of R87; codes 5 to 7 are reserved. -/
def roundingOf (code : Nat) : Option Rounding :=
  match code with
  | 0 => some .halfEven | 1 => some .halfUp | 2 => some .towardZero | 3 => some .floor | 4 => some .ceiling
  | _ => none

/-- The condition of R88 under which the magnitude is incremented: `r` discarded of a unit `u`, `q` the part kept. -/
def roundsUp (mode : Rounding) (neg : Bool) (q r u : Nat) : Bool :=
  match mode with
  | .halfEven => decide (u < 2 * r) || (decide (2 * r = u) && q % 2 == 1)
  | .halfUp => decide (u ≤ 2 * r)
  | .towardZero => false
  | .floor => decide (0 < r) && neg
  | .ceiling => decide (0 < r) && !neg

/-- An integer of a given sign. -/
def signed (neg : Bool) (m : Nat) : Int := if neg then -(m : Int) else m

/-- Round off `k` digits (R88): the result, none on overflow, and whether the discarded part was not zero. -/
def decRound (mode : Rounding) (k : Nat) (v : Int) : Option Image × Bool :=
  let u := 10 ^ k
  let q := v.natAbs / u
  let r := v.natAbs % u
  let n := decide (v < 0)
  (ofInt (signed n (if roundsUp mode n q r u then q + 1 else q)), r != 0)

/-- Divide (R85, R86, R89): quotient and remainder; none on overflow. -/
def decDiv (mode : Option Rounding) (a : Int) (b : Image) : Option (Image × Image) :=
  if magnitude b = 0 then none
  else
    let q := a.natAbs / magnitude b
    let r := a.natAbs % magnitude b
    let n := decide (a < 0) != negative b
    let up := match mode with
      | none => false
      | some m => roundsUp m n q r (magnitude b)
    match ofInt (signed n (if up then q + 1 else q)), ofInt (signed (decide (a < 0)) r) with
    | some x, some y => some (x, y)
    | _, _ => none

/-- Digit shift (R90): the result, none on overflow, and whether a right shift discarded a non-zero digit. -/
def decShift (s : Int) (w : Image) : Option Image × Bool :=
  if 0 ≤ s then (ofInt (signed (negative w) (magnitude w * 10 ^ s.natAbs)), false)
  else
    (ofInt (signed (negative w) (magnitude w / 10 ^ s.natAbs)), magnitude w % 10 ^ s.natAbs != 0)

/-- Conversion to a 64-bit integer (R91). -/
def toBinary64 (w : Image) : Option (BitVec 64) :=
  if -(2 ^ 63 : Int) ≤ toInt w ∧ toInt w < 2 ^ 63 then some (BitVec.ofInt 64 (toInt w)) else none

/-- Conversion to a 128-bit integer (R91). -/
def toBinary128 (w : Image) : BitVec 128 := BitVec.ofInt 128 (toInt w)

/-- Conversion from a 64-bit integer (R92). -/
def ofBinary64 (v : BitVec 64) : Option Image := ofInt v.toInt

/-- Conversion from a 128-bit integer (R92). -/
def ofBinary128 (v : BitVec 128) : Option Image := ofInt v.toInt

/-- Significant decimal digits of `m`, at most `k`. -/
def digitCount : Nat → Nat → Nat
  | 0, _ => 0
  | k + 1, m => if m = 0 then 0 else 1 + digitCount k (m / 10)

/-- Quotient digit positions of R340. -/
def quotientDigits (a b : Nat) : Nat := min 31 (max 1 (digitCount 62 a + 1 - digitCount 62 b))

/-- A word as it stands in storage (R73). -/
def imageBytes (w : Image) : Bytes := beBytes 16 w.toNat

/-- The word stored in 16 bytes (R73). -/
def imageAt (b : Bytes) (o : Nat) : Image := BitVec.ofNat 128 (beNat (bytesAt b o 16))

end Sys2Proof.Machine
end

