-- ==== Sys2Proof/Machine/Operands.lean ====
section
/-! DEFINITION. Operand forms of the Alaing instructions: fields of a word (R334), illegal words (R335), registers,
local addresses (R41, R42, R331-R333), conditions (R336). -/

namespace Sys2Proof.Machine
open Sys2Proof

/-! Fields of an instruction word (R334). -/

def fOp (w : Word) : Nat := bits w.toNat 31 26
def fA (w : Word) : Nat := bits w.toNat 25 22
def fB (w : Word) : Nat := bits w.toNat 21 18
def fC (w : Word) : Nat := bits w.toNat 17 14
def fM (w : Word) : Nat := bits w.toNat 13 0
def fImm (w : Word) : Nat := bits w.toNat 17 0
def fX (w : Word) : Nat := bits w.toNat 21 19

/-- An `n`-bit two's-complement field. -/
def sext (n v : Nat) : Int := if v < 2 ^ (n - 1) then (v : Int) else (v : Int) - 2 ^ n

/-- The signed immediate (R334). -/
def sImm (w : Word) : Int := sext 18 (fImm w)

/-- The displacement in bytes (R334). -/
def sDisp (w : Word) : Int := sext 16 (bits w.toNat 15 0)

/-- The branch offset in words (R334). -/
def sOff (w : Word) : Int := sext 22 (bits w.toNat 21 0)

/-- Modifier fields of R339. -/
def mPair (w : Word) : Bool := bit w.toNat 13
def mRound (w : Word) : Bool := bit w.toNat 12
def mMode (w : Word) : Nat := bits w.toNat 11 9
def mDigits (w : Word) : Nat := bits w.toNat 5 0
def mShift (w : Word) : Int := sext 6 (bits w.toNat 5 0)
def mWide (w : Word) : Bool := bit w.toNat 0
def mNibble (w : Word) : Nat := bits w.toNat 4 0
def mCond (w : Word) : Nat := bits w.toNat 3 0

/-- What R335 checks of a word: bits that must be zero, fields that name an X register, further register faults
(cause 3 of R345), reserved codes (cause 4). -/
structure WordForm where
  zero : Nat
  xs : List Nat
  badReg : Bool
  badCode : Bool

/-- Bits of the fields A, B, C and M, and of the low 18 bits. -/
def bitsA : Nat := 15 * 2 ^ 22
def bitsB : Nat := 15 * 2 ^ 18
def bitsC : Nat := 15 * 2 ^ 14
def bitsM : Nat := 2 ^ 14 - 1
def bitsImm : Nat := 2 ^ 18 - 1

/-- Reserved rounding mode and digit count (R87, R88). -/
def badRound (w : Word) : Bool :=
  (roundingOf (mMode w)).isNone || decide ((if mPair w then 61 else 30) < mDigits w)

/-- An X register that cannot start the aligned group of a conversion (R339). -/
def badGroup (w : Word) (r : Nat) : Bool := if mWide w then !(r == 0 || r == 4) else r % 2 == 1

/-- The form of each assigned opcode (R335, R338-R344); none for a reserved one. -/
def wordForm (w : Word) : Option WordForm :=
  let a := fA w
  let b := fB w
  let c := fC w
  let f (z : Nat) (xs : List Nat) : Option WordForm := some { zero := z, xs := xs, badReg := false, badCode := false }
  match fOp w with
  | 0x01 => f bitsM [] | 0x02 => f bitsM [] | 0x03 => f (bitsA + bitsM) []
  | 0x04 => some { zero := bitsM, xs := [], badReg := a % 2 == 1, badCode := false }
  | 0x05 => some { zero := 2 ^ 9 - 1 + (if mRound w then 0 else 7 * 2 ^ 9), xs := [],
                   badReg := a % 2 == 1 || (mPair w && b % 2 == 1),
                   badCode := mRound w && (roundingOf (mMode w)).isNone }
  | 0x06 => some { zero := bitsC + 2 ^ 12 + 7 * 2 ^ 6, xs := [], badReg := mPair w && b % 2 == 1, badCode := badRound w }
  | 0x07 => some { zero := bitsC + (2 ^ 14 - 2 ^ 6), xs := [], badReg := false,
                   badCode := decide (mShift w < -30) || decide (30 < mShift w) }
  | 0x08 => f (bitsC + bitsM) [] | 0x09 => f (bitsC + bitsM) [] | 0x0A => f (bitsC + bitsM) []
  | 0x0B => f (bitsC + bitsM) [] | 0x0C => f (bitsA + bitsC + bitsM) [] | 0x0D => f (bitsA + bitsC + bitsM) []
  | 0x0E => some { zero := bitsC + (2 ^ 14 - 2), xs := [a], badReg := badGroup w a, badCode := false }
  | 0x0F => some { zero := bitsC + (2 ^ 14 - 2), xs := [b], badReg := badGroup w b, badCode := false }
  | 0x10 => f bitsB [] | 0x11 => f 0 [] | 0x12 => f bitsA []
  | 0x13 => f (bitsC + (2 ^ 14 - 2 ^ 5)) [a] | 0x14 => f (2 ^ 14 - 2 ^ 5) [c]
  | 0x15 => some { zero := 2 ^ 14 - 2 ^ 4, xs := [], badReg := false, badCode := decide (12 < mCond w) }
  | 0x18 => f (7 * 2 ^ 16) [] | 0x19 => f (7 * 2 ^ 16) []
  | 0x1A => f (7 * 2 ^ 16) [a] | 0x1B => f (7 * 2 ^ 16) [a] | 0x1C => f (7 * 2 ^ 16) [a] | 0x1D => f (7 * 2 ^ 16) [a]
  | 0x1E => f (7 * 2 ^ 16) [a] | 0x1F => f (7 * 2 ^ 16) [a]
  | 0x20 => f bitsM [a, b, c] | 0x21 => f bitsM [a, b, c] | 0x22 => f bitsM [a, b, c] | 0x23 => f bitsM [a, b, c]
  | 0x24 => f bitsM [a, b, c] | 0x25 => f bitsM [a, b, c] | 0x26 => f bitsM [a, b, c] | 0x27 => f bitsM [a, b, c]
  | 0x28 => f bitsM [a, b, c] | 0x29 => f (bitsA + bitsM) [b, c]
  | 0x2A => f 0 [a, b] | 0x2B => f bitsB [a] | 0x2C => f bitsB [a] | 0x2D => f 0 [a, b] | 0x2E => f 0 [a, b]
  | 0x2F => f bitsA [b]
  | 0x30 => some { zero := 0, xs := [], badReg := false, badCode := decide (12 < a) }
  | 0x31 => f 0 [a] | 0x32 => f (bitsA + bitsC + bitsM) [b] | 0x33 => f 0 [a]
  | 0x37 => f (2 ^ 26 - 1) [] | 0x38 => f (bitsA + bitsB) [] | 0x39 => f (bitsA + bitsB) []
  | 0x3A => f (bitsA + bitsB + (2 ^ 18 - 2)) [] | 0x3B => f (bitsB + bitsC + bitsM) [a]
  | 0x3C => f (bitsA + bitsC + bitsM) [b]
  | _ => none

/-- SUB of the illegal-instruction trap of a word, the lowest that applies (R335, R345): log entry 17. -/
def illegalSub (w : Word) : Option Nat :=
  match wordForm w with
  | none => some 1
  | some f =>
    if w.toNat &&& f.zero ≠ 0 then some 2
    else if f.xs.any (fun r => decide (7 < r)) || f.badReg then some 3
    else if f.badCode then some 4 else none

/-! Registers. -/

def Core.dReg (c : Core) (n : Nat) : Image := c.d.getD n imgZero
def Core.setD (c : Core) (n : Nat) (v : Image) : Core := { c with d := c.d.set n v }
def Core.xReg (c : Core) (n : Nat) : Word := c.x.getD n 0
def Core.setX (c : Core) (n : Nat) (v : Word) : Core := { c with x := c.x.set n v }

/-- A binary value over `n` X registers from X`r`, least significant word first (R326). -/
def Core.xGroup (c : Core) (r : Nat) : Nat → Nat
  | 0 => 0
  | n + 1 => (c.xReg r).toNat + 2 ^ 32 * c.xGroup (r + 1) n

/-- Store a binary value over `n` X registers from X`r`. -/
def Core.setXGroup (c : Core) (r : Nat) : Nat → Nat → Core
  | 0, _ => c
  | n + 1, v => (c.setX r (BitVec.ofNat 32 v)).setXGroup (r + 1) n (v / 2 ^ 32)

/-! Local memory (R41). -/

/-- Regions of the local map of R41. -/
inductive Area where
  | code | data | mail | window
deriving DecidableEq, Repr

/-- The region of a local address. -/
def areaOf (a : Nat) : Option Area :=
  if a < 0x10000 then some .code
  else if a < 0x18000 then some .data
  else if 0x20000 ≤ a ∧ a < 0x21000 then some .mail
  else if 0x30000 ≤ a ∧ a < 0x30100 then some .window
  else none

/-- First byte behind a region. -/
def Area.stop (r : Area) : Nat :=
  match r with
  | .code => 0x10000 | .data => 0x18000 | .mail => 0x21000 | .window => 0x30100

/-- The window of R332 allows an access of `n` bytes at window offset `o`; `word` tells LDX or STX. -/
def windowOk (o n : Nat) (write word : Bool) : Bool :=
  if o + n ≤ 4 then word && o == 0
  else if 4 ≤ o ∧ o + n ≤ 8 then word && !write
  else if 8 ≤ o ∧ o + n ≤ 0x10 then !write
  else if 0x10 ≤ o ∧ o + n ≤ 0x30 then !write
  else if 0x30 ≤ o ∧ o + n ≤ 0x80 then true
  else if 0x80 ≤ o ∧ o + n ≤ 0x100 then !write
  else false

/-- SUB of the MPU violation trap of a load or store of `n` bytes (R42, R331, R332, R345): log entry 17. -/
def accessSub (a n : Nat) (write word : Bool) : Option Nat :=
  match areaOf a with
  | none => some 1
  | some r =>
    if write && r == .code then some 2
    else if r.stop < a + n then some 4
    else if a % n != 0 then some 3
    else if r == .window && !windowOk (a - 0x30000) n write word then some 2 else none

/-- One byte of the local map, as a load sees it. -/
def Core.byteAt (c : Core) (a : Nat) : Byte :=
  match areaOf a with
  | some .code => tget 0 c.code a
  | some .data => tget 0 c.data (a - 0x10000)
  | some .mail => tget 0 c.mail (a - 0x20000)
  | some .window =>
    let o := a - 0x30000
    if o < 4 then BitVec.ofNat 8 (c.call.toNat / 256 ^ o)
    else if o < 8 then BitVec.ofNat 8 (c.status.toNat / 256 ^ (o - 4))
    else if 0x10 ≤ o ∧ o < 0x30 then tget 0 c.res (o - 0x10)
    else if 0x30 ≤ o ∧ o < 0x80 then tget 0 c.arg (o - 0x30)
    else 0
  | none => 0

/-- `n` bytes of the local map. -/
def Core.bytes (c : Core) (a n : Nat) : Bytes := (List.range n).map (fun i => c.byteAt (a + i))

/-- Write one byte of data memory, mailbox or ARG. -/
def Core.setByte (c : Core) (a : Nat) (v : Byte) : Core :=
  match areaOf a with
  | some .data => { c with data := tput 0 c.data (a - 0x10000) v }
  | some .mail => { c with mail := tput 0 c.mail (a - 0x20000) v }
  | some .window =>
    if 0x30030 ≤ a ∧ a < 0x30080 then { c with arg := tput 0 c.arg (a - 0x30030) v } else c
  | _ => c

/-- Write bytes from a local address. -/
def Core.setBytes (c : Core) (a : Nat) : Bytes → Core
  | [] => c
  | v :: t => (c.setByte a v).setBytes (a + 1) t

/-- The local word that holds an address is uncorrectable (R333). -/
def Core.badAt (c : Core) (a : Nat) : Bool := c.bad.contains (a / 16)

/-- The instruction word at an address (R331). -/
def Core.insnAt (c : Core) (a : Nat) : Word := BitVec.ofNat 32 (leNat (c.bytes a 4))

/-! Conditions (R336). -/

/-- A condition of R336; the reserved codes never hold. -/
def condHolds (code : Nat) (f : Word) : Bool :=
  let s := f.getLsbD 0
  let z := f.getLsbD 1
  let v := f.getLsbD 2
  let i := f.getLsbD 3
  let c := f.getLsbD 4
  match code with
  | 0 => true | 1 => z | 2 => !z | 3 => s | 4 => !s | 5 => !s && !z | 6 => s || z | 7 => c | 8 => !c | 9 => v
  | 10 => !v | 11 => i | 12 => !i | _ => false

end Sys2Proof.Machine
end

