-- ==== Sys2Proof/Machine/Flags.lean ====
section
/-! DEFINITION. The flags of an Alaing core (R326, R337). -/

namespace Sys2Proof.Machine
open Sys2Proof

/-- Flag numbers of F (R326). -/
def flagS : Nat := 0
def flagZ : Nat := 1
def flagV : Nat := 2
def flagI : Nat := 3
def flagC : Nat := 4
def flagTV : Nat := 8

/-- F with one flag set to a value. -/
def putFlag (f : Word) (n : Nat) (v : Bool) : Word :=
  if v then f ||| BitVec.twoPow 32 n else f &&& ~~~(BitVec.twoPow 32 n)

def Core.putFlag (c : Core) (n : Nat) (v : Bool) : Core := { c with f := Machine.putFlag c.f n v }

/-- S and Z after a result (R337). -/
def Core.flagsOf (c : Core) (v : Int) : Core := (c.putFlag flagS (decide (v < 0))).putFlag flagZ (decide (v = 0))

/-- S and Z after a 32-bit result (R337). -/
def Core.flagsOfWord (c : Core) (v : Word) : Core := (c.putFlag flagS v.msb).putFlag flagZ (v == 0)

/-- S and Z after a compare (R337). -/
def Core.flagsCompare (c : Core) (a b : Int) : Core :=
  (c.putFlag flagS (decide (a < b))).putFlag flagZ (decide (a = b))

/-- Carry out of bit 31 of a sum (R337). -/
def carryOf (a b : Word) : Bool := decide (2 ^ 32 ≤ a.toNat + b.toNat)

/-- First operand below the second, unsigned (R337). -/
def borrowOf (a b : Word) : Bool := decide (a.toNat < b.toNat)

/-- Overflow raises the trap (R326). -/
def Core.trapsOverflow (c : Core) : Bool := c.f.getLsbD flagTV

end Sys2Proof.Machine
end

