-- ==== Sys2Proof/Machine/AlaingCore.lean ====
section
/-! DEFINITION. What each Alaing instruction does to its core (R338-R344): one function per instruction from the core
and the instruction word to the outcome. The checks of the fetch and of R335 come before (R346). -/

namespace Sys2Proof.Machine
open Sys2Proof

/-- The outcome of an instruction: the core after it, with the cycles it took, or a trap with SUB and INFO; `v` tells
that V is set before the trap record is taken (R346). -/
inductive Effect where
  | done (c : Core) (cycles : Nat)
  | trap (cause : TrapCause) (sub : Nat) (info : Word) (v : Bool)
deriving DecidableEq, Repr

/-- The core goes on at the following instruction. -/
def Core.goOn (c : Core) (cycles : Nat) : Effect := .done { c with pc := c.pc + 4 } cycles

/-- Decimal overflow: V is set, nothing else changes, and the trap is raised with TV (R337, R346). -/
def Core.overflow (c : Core) (cycles : Nat) : Effect :=
  if c.trapsOverflow then .trap .overflow 0 0 true else (c.putFlag flagV true).goOn cycles

/-- Invalid digit in the operand from B (1) or from C (2). -/
def badDigit (sub : Nat) : Effect := .trap .invalidDigit sub 0 false

/-- A word result in Dd with S, Z and V, or an overflow. -/
def Core.putWord (c : Core) (d : Nat) (r : Option Image) (cycles : Nat) : Effect :=
  match r with
  | none => c.overflow cycles
  | some v => (((c.setD d v).flagsOf (toInt v)).putFlag flagV false).goOn cycles

/-- A word result in Dd with S and Z. -/
def Core.putPlain (c : Core) (d : Nat) (v : Image) : Effect := ((c.setD d v).flagsOf (toInt v)).goOn 1

/-- Two checked word operands from B and C. -/
def Core.withTwo (c : Core) (w : Word) (k : Image → Image → Effect) : Effect :=
  if !valid (c.dReg (fB w)) then badDigit 1
  else if !valid (c.dReg (fC w)) then badDigit 2
  else k (c.dReg (fB w)) (c.dReg (fC w))

/-- One checked word operand from B. -/
def Core.withOne (c : Core) (w : Word) (k : Image → Effect) : Effect :=
  if !valid (c.dReg (fB w)) then badDigit 1 else k (c.dReg (fB w))

/-- The value of the operand from B, a word or with P the pair B:B+1, checked. -/
def Core.withPair (c : Core) (w : Word) (k : Int → Effect) : Effect :=
  if !valid (c.dReg (fB w)) then badDigit 1
  else if mPair w then
    (if !valid (c.dReg (fB w + 1)) then badDigit 1 else k (pairInt (c.dReg (fB w)) (c.dReg (fB w + 1))))
  else k (toInt (c.dReg (fB w)))

/-- The immediate as a tally word (R339). -/
def immImage (w : Word) : Image := mkImage (decide (sImm w < 0)) (sImm w).natAbs

def alDadd (c : Core) (w : Word) : Effect := c.withTwo w (fun a b => c.putWord (fA w) (decAdd a b) 1)
def alDsub (c : Core) (w : Word) : Effect := c.withTwo w (fun a b => c.putWord (fA w) (decSub a b) 1)
def alDcmp (c : Core) (w : Word) : Effect := c.withTwo w (fun a b => (c.flagsCompare (toInt a) (toInt b)).goOn 1)

def alDmul (c : Core) (w : Word) : Effect :=
  c.withTwo w (fun a b =>
    let p := decMul a b
    (((c.setD (fA w) p.1).setD (fA w + 1) p.2).flagsOf (toInt a * toInt b)).goOn 8)

/-- DDIV: with a pair as dividend S and Z come from the whole dividend (R337, log entry 18), else from the quotient. -/
def alDdiv (c : Core) (w : Word) : Effect :=
  c.withPair w (fun a =>
    if !valid (c.dReg (fC w)) then badDigit 2
    else
      let b := c.dReg (fC w)
      let cycles := 3 + quotientDigits a.natAbs (magnitude b)
      match decDiv (if mRound w then roundingOf (mMode w) else none) a b with
      | none => c.overflow (if magnitude b = 0 then 3 else cycles)
      | some (q, r) =>
        let c := ((c.setD (fA w) q).setD (fA w + 1) r).flagsOf (if mPair w then a else toInt q)
        (c.putFlag flagV false).goOn cycles)

def alDrnd (c : Core) (w : Word) : Effect :=
  c.withPair w (fun a =>
    let r := decRound ((roundingOf (mMode w)).getD .towardZero) (mDigits w) a
    match r.1 with
    | none => c.overflow 2
    | some v => (c.putFlag flagC r.2).putWord (fA w) (some v) 2)

def alDshf (c : Core) (w : Word) : Effect :=
  c.withOne w (fun a =>
    let r := decShift (mShift w) a
    match r.1 with
    | none => c.overflow 1
    | some v => (c.putFlag flagC r.2).putWord (fA w) (some v) 1)

def alDneg (c : Core) (w : Word) : Effect :=
  c.withOne w (fun a => c.putPlain (fA w) (mkImage (decide (0 < toInt a)) (magnitude a)))
def alDabs (c : Core) (w : Word) : Effect := c.withOne w (fun a => c.putPlain (fA w) (mkImage false (magnitude a)))
def alDmov (c : Core) (w : Word) : Effect := (c.setD (fA w) (c.dReg (fB w))).goOn 1
def alDnrm (c : Core) (w : Word) : Effect := c.withOne w (fun a => c.putPlain (fA w) (normal a))
def alDval (c : Core) (w : Word) : Effect := (c.putFlag flagI (!valid (c.dReg (fB w)))).goOn 1
def alDtst (c : Core) (w : Word) : Effect := c.withOne w (fun a => (c.flagsOf (toInt a)).goOn 1)

def alDcvb (c : Core) (w : Word) : Effect :=
  c.withOne w (fun a =>
    let put (c : Core) : Effect := ((c.flagsOf (toInt a)).putFlag flagV false).goOn 4
    if mWide w then put (c.setXGroup (fA w) 4 (toBinary128 a).toNat)
    else
      match toBinary64 a with
      | none => c.overflow 4
      | some v => put (c.setXGroup (fA w) 2 v.toNat))

def alDcvd (c : Core) (w : Word) : Effect :=
  c.putWord (fA w)
    (if mWide w then ofBinary128 (BitVec.ofNat 128 (c.xGroup (fB w) 4)) else ofBinary64 (BitVec.ofNat 64 (c.xGroup (fB w) 2)))
    4

def alDli (c : Core) (w : Word) : Effect := c.putPlain (fA w) (immImage w)
def alDaddi (c : Core) (w : Word) : Effect := c.withOne w (fun a => c.putWord (fA w) (decAdd a (immImage w)) 1)
def alDcmpi (c : Core) (w : Word) : Effect := c.withOne w (fun a => (c.flagsCompare (toInt a) (sImm w)).goOn 1)
def alDget (c : Core) (w : Word) : Effect := (c.setX (fA w) (BitVec.ofNat 32 (nib (c.dReg (fB w)) (mNibble w)))).goOn 1

/-- The image with nibble `n` replaced. -/
def setNib (v : Image) (n k : Nat) : Image :=
  BitVec.ofNat 128 (v.toNat - nib v n * 2 ^ (4 * (31 - n)) + k % 16 * 2 ^ (4 * (31 - n)))

def alDput (c : Core) (w : Word) : Effect :=
  (c.setD (fA w) (setNib (c.dReg (fB w)) (mNibble w) (c.xReg (fC w)).toNat)).goOn 1

def alDsel (c : Core) (w : Word) : Effect :=
  (c.setD (fA w) (if condHolds (mCond w) c.f then c.dReg (fB w) else c.dReg (fC w))).goOn 1

/-! Memory instructions (R342). -/

/-- The effective address (R331). -/
def Core.address (c : Core) (w : Word) : Nat := (c.xReg (fX w) + BitVec.ofInt 32 (sDisp w)).toNat

/-- A load of `n` bytes: MPU, then MEMORY (R346). -/
def Core.load (c : Core) (w : Word) (n : Nat) (isX : Bool) (k : Bytes → Effect) : Effect :=
  let a := c.address w
  match accessSub a n false isX with
  | some sub => .trap .mpu sub (BitVec.ofNat 32 a) false
  | none => if c.badAt a then .trap .memory 2 (BitVec.ofNat 32 (a / 16 * 16)) false else k (c.bytes a n)

/-- The core enters its wait state for a service call (R347). -/
def Core.startCall (c : Core) (n : Word) (svc : Bool) : Core :=
  { c with call := n, mode := .waiting, svcZ := svc, started := false, answer := none, output := [], pc := c.pc + 4 }

/-- A store of bytes: MPU; a 16-byte store puts a new word in place of an uncorrectable one. -/
def Core.store (c : Core) (w : Word) (v : Bytes) (isX : Bool) : Effect :=
  let a := c.address w
  match accessSub a v.length true isX with
  | some sub => .trap .mpu sub (BitVec.ofNat 32 a) false
  | none =>
    if a = 0x30000 then .done (c.startCall (BitVec.ofNat 32 (leNat v)) false) 1
    else
      let c := c.setBytes a v
      let c := if v.length = 16 then { c with bad := c.bad.filter (· != a / 16) } else c
      c.goOn 1

def alLdd (c : Core) (w : Word) : Effect := c.load w 16 false (fun b => (c.setD (fA w) (imageAt b 0)).goOn 1)
def alStd (c : Core) (w : Word) : Effect := c.store w (imageBytes (c.dReg (fA w))) false
def alLdx (c : Core) (w : Word) : Effect :=
  c.load w 4 true (fun b => (c.setX (fA w) (BitVec.ofNat 32 (leNat b))).goOn 1)
def alStx (c : Core) (w : Word) : Effect := c.store w (leBytes 4 (c.xReg (fA w)).toNat) true
def alLdh (c : Core) (w : Word) : Effect :=
  c.load w 2 false (fun b => (c.setX (fA w) (BitVec.ofNat 32 (leNat b))).goOn 1)
def alSth (c : Core) (w : Word) : Effect := c.store w (leBytes 2 (c.xReg (fA w)).toNat) false
def alLdb (c : Core) (w : Word) : Effect :=
  c.load w 1 false (fun b => (c.setX (fA w) (BitVec.ofNat 32 (leNat b))).goOn 1)
def alStb (c : Core) (w : Word) : Effect := c.store w (leBytes 1 (c.xReg (fA w)).toNat) false

/-! Binary instructions (R343). -/

/-- A binary result with S and Z. -/
def Core.putX (c : Core) (w : Word) (v : Word) (cycles : Nat) : Effect := ((c.setX (fA w) v).flagsOfWord v).goOn cycles

/-- The operands from B and C, and the signed and the unsigned immediate. -/
def Core.opB (c : Core) (w : Word) : Word := c.xReg (fB w)
def Core.opC (c : Core) (w : Word) : Word := c.xReg (fC w)
def sImmW (w : Word) : Word := BitVec.ofInt 32 (sImm w)
def uImmW (w : Word) : Word := BitVec.ofNat 32 (fImm w)

def alXadd (c : Core) (w : Word) : Effect :=
  (c.putFlag flagC (carryOf (c.opB w) (c.opC w))).putX w (c.opB w + c.opC w) 1
def alXsub (c : Core) (w : Word) : Effect :=
  (c.putFlag flagC (borrowOf (c.opB w) (c.opC w))).putX w (c.opB w - c.opC w) 1
def alXand (c : Core) (w : Word) : Effect := c.putX w (c.opB w &&& c.opC w) 1
def alXor (c : Core) (w : Word) : Effect := c.putX w (c.opB w ||| c.opC w) 1
def alXxor (c : Core) (w : Word) : Effect := c.putX w (c.opB w ^^^ c.opC w) 1
def alXshl (c : Core) (w : Word) : Effect := c.putX w (c.opB w <<< ((c.opC w).toNat % 32)) 1
def alXshr (c : Core) (w : Word) : Effect := c.putX w (c.opB w >>> ((c.opC w).toNat % 32)) 1
def alXsar (c : Core) (w : Word) : Effect := c.putX w ((c.opB w).sshiftRight ((c.opC w).toNat % 32)) 1
def alXmul (c : Core) (w : Word) : Effect := c.putX w (c.opB w * c.opC w) 2

/-- A binary compare (R337). -/
def Core.compareX (c : Core) (a b : Word) : Effect :=
  ((c.putFlag flagC (borrowOf a b)).flagsCompare a.toInt b.toInt).goOn 1

def alXcmp (c : Core) (w : Word) : Effect := c.compareX (c.opB w) (c.opC w)
def alXaddi (c : Core) (w : Word) : Effect :=
  (c.putFlag flagC (carryOf (c.opB w) (sImmW w))).putX w (c.opB w + sImmW w) 1
def alXli (c : Core) (w : Word) : Effect := (c.setX (fA w) (sImmW w)).goOn 1
def alXlui (c : Core) (w : Word) : Effect := (c.setX (fA w) (uImmW w <<< 14)).goOn 1
def alXori (c : Core) (w : Word) : Effect := c.putX w (c.opB w ||| uImmW w) 1
def alXandi (c : Core) (w : Word) : Effect := c.putX w (c.opB w &&& uImmW w) 1
def alXcmpi (c : Core) (w : Word) : Effect := c.compareX (c.opB w) (sImmW w)

/-! Control instructions (R344). -/

/-- The target of a branch (R334). -/
def Core.target (c : Core) (w : Word) : Word := c.pc + BitVec.ofInt 32 (4 * sOff w)

def alB (c : Core) (w : Word) : Effect :=
  if condHolds (fA w) c.f then .done { c with pc := c.target w } 2 else c.goOn 1

def alBl (c : Core) (w : Word) : Effect := .done { (c.setX (fA w) (c.pc + 4)) with pc := c.target w } 2

/-- SUB for a BR target that is no instruction address (R344): log entry 17. -/
def targetSub (a : Nat) : Option Nat :=
  match areaOf a with
  | none => some 1
  | some .code => if a % 4 != 0 then some 3 else none
  | some _ => some 2

def alBr (c : Core) (w : Word) : Effect :=
  match targetSub (c.opB w).toNat with
  | some sub => .trap .mpu sub (c.opB w) false
  | none => .done { c with pc := c.opB w } 2

def alDbnz (c : Core) (w : Word) : Effect :=
  let v := c.xReg (fA w) - 1
  let c1 := c.setX (fA w) v
  if v = 0 then c1.goOn 1 else .done { c1 with pc := c.target w } 2

def alNop (c : Core) (_ : Word) : Effect := c.goOn 1
def alSvc (c : Core) (w : Word) : Effect := .done (c.startCall (uImmW w) true) 1
def alTrap (_ : Core) (w : Word) : Effect := .trap .user 0 (uImmW w) false
def alSetm (c : Core) (w : Word) : Effect := (c.putFlag flagTV (fImm w % 2 == 1)).goOn 1
def alMff (c : Core) (w : Word) : Effect := (c.setX (fA w) c.f).goOn 1

/-- The bits of F that MTF writes: 4 to 0 and 8. -/
def mtfMask : Word := 0x11F

def alMtf (c : Core) (w : Word) : Effect :=
  ({ c with f := (c.f &&& ~~~mtfMask) ||| (c.opB w &&& mtfMask) } : Core).goOn 1

/-! One step of a core (R329, R346). -/

/-- Cycles that must fit before the next boundary (R329): a function of the opcode but for branches, which take one
cycle less when not taken. -/
def fitCycles (c : Core) (w : Word) : Nat :=
  match fOp w with
  | 0x04 => 8 | 0x05 => 34 | 0x06 => 2 | 0x0E => 4 | 0x0F => 4 | 0x28 => 2 | 0x31 => 2 | 0x32 => 2
  | 0x30 => if condHolds (fA w) c.f then 2 else 1
  | 0x33 => if c.xReg (fA w) = 1 then 1 else 2
  | _ => 1

/-- Cycles of a grain. -/
def grainCycles : Nat := 100

/-- SUB of the MPU violation trap of a fetch (R42). -/
def fetchSub (a : Nat) : Option Nat := targetSub a

/-- What a running core does when the instruction at its PC is taken for the one with opcode `op`, whose effect is
`body`: none when the core does nothing (another instruction stands there, or it does not fit in the grain). The word
of the trap record is zero when the fetch failed. -/
def Core.execute (c : Core) (op : Nat) (body : Core → Word → Effect) : Option (Effect × Word) :=
  let a := c.pc.toNat
  match fetchSub a with
  | some sub => if c.cycle < grainCycles then some (.trap .mpu sub c.pc false, 0) else none
  | none =>
    if c.badAt a then
      (if c.cycle < grainCycles then some (.trap .memory 1 (BitVec.ofNat 32 (a / 16 * 16)) false, 0) else none)
    else
      let w := c.insnAt a
      match illegalSub w with
      | some sub => if c.cycle < grainCycles then some (.trap .illegal sub 0 false, w) else none
      | none =>
        if fOp w = op ∧ c.cycle + fitCycles c w ≤ grainCycles then some (body c w, w) else none

end Sys2Proof.Machine
end

