-- ==== Sys2Proof/Machine/Sha.lean ====
section
/-! DEFINITION. The digests of R423 and HMAC: SHA-2 (FIPS 180-4), SHA-3 (FIPS 202), HMAC (R427). The standards are cited
by the manual (PRESUMED, log entry 1). The constants of SHA-2 are formed from the primes that define them. -/

namespace Sys2Proof.Machine
open Sys2Proof

/-- The first 80 primes. -/
def primes80 : List Nat :=
  [2, 3, 5, 7, 11, 13, 17, 19, 23, 29, 31, 37, 41, 43, 47, 53, 59, 61, 67, 71, 73, 79, 83, 89, 97, 101, 103, 107, 109,
    113, 127, 131, 137, 139, 149, 151, 157, 163, 167, 173] ++
  [179, 181, 191, 193, 197, 199, 211, 223, 227, 229, 233, 239, 241, 251, 257, 263, 269, 271, 277, 281, 283, 293, 307,
    311, 313, 317, 331, 337, 347, 349, 353, 359, 367, 373, 379, 383, 389, 397, 401, 409]

/-- The largest r with r^e ≤ n, built from bit `b` down. -/
def rootAux (e n : Nat) : Nat → Nat → Nat
  | 0, r => r
  | b + 1, r => onNat (if (r + 2 ^ b) ^ e ≤ n then r + 2 ^ b else r) (rootAux e n b)

/-- The first `w` bits of the fractional part of the `e`-th root of `p`. -/
def fracRoot (w e p : Nat) : Nat := rootAux e (p * 2 ^ (e * w)) (w + 6) 0 % 2 ^ w

/-- What distinguishes SHA-256 and SHA-512. A word is a number below 2^w. -/
structure Sha2Par where
  w : Nat
  ks : List Nat
  /-- Σ0, Σ1: three rotations; σ0, σ1: two rotations and a shift. -/
  bs0 : Nat × Nat × Nat
  bs1 : Nat × Nat × Nat
  ss0 : Nat × Nat × Nat
  ss1 : Nat × Nat × Nat

def sha256Par : Sha2Par :=
  { w := 32, ks := (primes80.take 64).map (fracRoot 32 3), bs0 := (2, 13, 22), bs1 := (6, 11, 25), ss0 := (7, 18, 3),
    ss1 := (17, 19, 10) }

def sha512Par : Sha2Par :=
  { w := 64, ks := primes80.map (fracRoot 64 3), bs0 := (28, 34, 39), bs1 := (14, 18, 41), ss0 := (1, 8, 7),
    ss1 := (19, 61, 6) }

/-- Rotation of a word to the right. -/
def rotr (w n x : Nat) : Nat := x / 2 ^ n + x * 2 ^ (w - n) % 2 ^ w

/-- Exclusive or of three rotations. -/
def rot3 (w : Nat) (r : Nat × Nat × Nat) (x : Nat) : Nat := rotr w r.1 x ^^^ rotr w r.2.1 x ^^^ rotr w r.2.2 x

/-- Exclusive or of two rotations and a shift. -/
def rot2s (w : Nat) (r : Nat × Nat × Nat) (x : Nat) : Nat := rotr w r.1 x ^^^ rotr w r.2.1 x ^^^ x / 2 ^ r.2.2

/-- The message schedule: `n` further words from the words so far, latest first. -/
def sha2Words (p : Sha2Par) : Nat → List Nat → List Nat
  | 0, ws => ws.reverse
  | n + 1, ws =>
    onNat ((rot2s p.w p.ss1 (ws.getD 1 0) + ws.getD 6 0 + rot2s p.w p.ss0 (ws.getD 14 0) + ws.getD 15 0) % 2 ^ p.w)
      (fun x => sha2Words p n (x :: ws))

/-- The rounds over constants and words on the working variables a to h. -/
def sha2Rounds (p : Sha2Par) : List Nat → List Nat → List Nat → List Nat
  | k :: ks, w :: ws, [a, b, c, d, e, f, g, h] =>
    onNat (h + rot3 p.w p.bs1 e + ((e &&& f) ^^^ ((e ^^^ (2 ^ p.w - 1)) &&& g)) + k + w) (fun t1 =>
      onNat ((t1 + rot3 p.w p.bs0 a + ((a &&& b) ^^^ (a &&& c) ^^^ (b &&& c))) % 2 ^ p.w) (fun x =>
        onNat ((d + t1) % 2 ^ p.w) (fun y => sha2Rounds p ks ws [x, a, b, c, y, e, f, g])))
  | _, _, v => v

/-- The compression of one block into the chaining value. -/
def sha2Block (p : Sha2Par) (h : List Nat) (blk : Bytes) : List Nat :=
  let ws := sha2Words p (p.ks.length - 16) ((pieces (p.w / 8) blk).map beNat).reverse
  List.zipWith (fun a b => (a + b) % 2 ^ p.w) h (sha2Rounds p p.ks ws h)

/-- Rotation offsets of ρ with the walk of π, 24 steps from lane (1, 0). -/
def rhoPi : Nat → Nat → Nat → Nat → List (BitVec 64) → BitVec 64 → List (BitVec 64)
  | 0, _, _, _, a, _ => a
  | n + 1, t, x, y, a, cur =>
    let x' := y
    let y' := (2 * x + 3 * y) % 5
    let i := x' + 5 * y'
    rhoPi n (t + 1) x' y' (a.set i (cur.rotateLeft (((t + 1) * (t + 2) / 2) % 64))) (a.getD i 0)

/-- Round constant bits of ι by the LFSR of FIPS 202: seven bits per round. -/
def iotaBits : Nat → Nat → Nat → Nat × Nat
  | 0, _, lfsr => (0, lfsr)
  | n + 1, j, lfsr =>
    let next := (2 * lfsr ^^^ (if lfsr < 128 then 0 else 0x171))
    let r := iotaBits n (j + 1) next
    ((if lfsr % 2 == 1 then 2 ^ (2 ^ j - 1) else 0) ^^^ r.1, r.2)

/-- The rounds of Keccak-f[1600]. -/
def keccakRounds : Nat → Nat → List (BitVec 64) → List (BitVec 64)
  | 0, _, a => a
  | n + 1, lfsr, a =>
    let g := fun i => a.getD i 0
    let c := (List.range 5).map (fun x => g x ^^^ g (x + 5) ^^^ g (x + 10) ^^^ g (x + 15) ^^^ g (x + 20))
    let d := (List.range 5).map (fun x => c.getD ((x + 4) % 5) 0 ^^^ (c.getD ((x + 1) % 5) 0).rotateLeft 1)
    let a1 := (List.range 25).map (fun i => g i ^^^ d.getD (i % 5) 0)
    let b := rhoPi 24 0 1 0 a1 (a1.getD 1 0)
    let h := fun i => b.getD i 0
    let a2 := (List.range 25).map (fun i =>
      h i ^^^ (~~~ h (i / 5 * 5 + (i % 5 + 1) % 5) &&& h (i / 5 * 5 + (i % 5 + 2) % 5)))
    let rc := iotaBits 7 0 lfsr
    keccakRounds n rc.2 (a2.set 0 (a2.getD 0 0 ^^^ BitVec.ofNat 64 rc.1))

/-- Keccak-f[1600] on 25 lanes, lane x + 5y. -/
def keccakF (a : List (BitVec 64)) : List (BitVec 64) := keccakRounds 24 1 a

/-- Block size of an ALG of R423 in bytes (R424). -/
def shaBlock (alg : Nat) : Nat :=
  match alg with
  | 0 => 64 | 1 => 64 | 2 => 128 | 3 => 128 | 4 => 136 | 5 => 104 | _ => 72

/-- Digest size of an ALG of R423 in bytes. -/
def shaSize (alg : Nat) : Nat :=
  match alg with
  | 0 => 28 | 1 => 32 | 2 => 48 | 3 => 64 | 4 => 32 | 5 => 48 | _ => 64

/-- The chaining value as stored in CHAIN of R424: eight words of 4 or 8 bytes, or 25 lanes. -/
abbrev Chain := List Nat

/-- Initial chaining value of an ALG. -/
def shaInit (alg : Nat) : Chain :=
  match alg with
  | 0 => ((primes80.drop 8).take 8).map (fun p => fracRoot 64 2 p % 2 ^ 32)
  | 1 => (primes80.take 8).map (fracRoot 32 2)
  | 2 => ((primes80.drop 8).take 8).map (fracRoot 64 2)
  | 3 => (primes80.take 8).map (fracRoot 64 2)
  | _ => List.replicate 25 0

/-- One block absorbed. -/
def shaAbsorb (alg : Nat) (c : Chain) (blk : Bytes) : Chain :=
  if alg < 2 then sha2Block sha256Par c blk
  else if alg < 4 then sha2Block sha512Par c blk
  else
    let lanes := (List.range 25).map (fun i => BitVec.ofNat 64 (c.getD i 0 ^^^ fieldAt blk (8 * i) 8))
    (keccakF lanes).map BitVec.toNat

/-- Whole blocks absorbed. -/
def shaAbsorbAll (alg : Nat) (c : Chain) (bs : List Bytes) : Chain := bs.foldl (shaAbsorb alg) c

/-- The last bytes of a message padded to whole blocks; `total` is the message length in bytes. -/
def shaPad (alg : Nat) (tail : Bytes) (total : Nat) : Bytes :=
  let n := shaBlock alg
  if alg < 4 then
    let l := if alg < 2 then 8 else 16
    let z := (2 * n - (tail.length % n + 1 + l)) % n
    tail ++ [0x80] ++ zeros z ++ beBytes l (8 * total)
  else
    let m := n - tail.length % n
    tail ++ (if m == 1 then [0x86] else [0x06] ++ zeros (m - 2) ++ [0x80])

/-- The digest that a final chaining value gives. -/
def shaOut (alg : Nat) (c : Chain) : Bytes :=
  let raw :=
    if alg < 2 then (c.map (beBytes 4)).flatten
    else if alg < 4 then (c.map (beBytes 8)).flatten
    else (c.map (leBytes 8)).flatten
  fit (shaSize alg) raw

/-- The digest of the bytes that follow a chaining value; `total` is the length from the start. -/
def shaFinish (alg : Nat) (c : Chain) (tail : Bytes) (total : Nat) : Bytes :=
  shaOut alg (shaAbsorbAll alg c (pieces (shaBlock alg) (shaPad alg tail total)))

/-- The digest of a message under an ALG of R423. -/
def sha (alg : Nat) (msg : Bytes) : Bytes := shaFinish alg (shaInit alg) msg msg.length

def sha256 (msg : Bytes) : Bytes := sha 1 msg
def sha384 (msg : Bytes) : Bytes := sha 2 msg
def sha512 (msg : Bytes) : Bytes := sha 3 msg

/-- HMAC with a key of at most one block, composed of two pad-loads (R427). -/
def hmac (alg : Nat) (key msg : Bytes) : Bytes :=
  let k := fit (shaBlock alg) key
  sha alg (k.map (· ^^^ 0x5C) ++ sha alg (k.map (· ^^^ 0x36) ++ msg))

end Sys2Proof.Machine
end

