-- ==== Sys2Proof/Machine/StTamper.lean ====
section
/-! DEFINITION. The state of the tamper monitor, the life cycle, custodian challenges and the battery domain. A
field's docstring reads: what it is | width | rule | reset value. -/

namespace Sys2Proof.Machine
open Sys2Proof

/-- Life-cycle states of R507. -/
inductive LcState where
  | blank | issued | sealed_ | bittern | spent
deriving DecidableEq, Repr

/-- An entry of a staging list (R511). -/
structure StageEntry where
  index : Nat
  kind : Nat
  curve : Nat
  ident : Bytes
  pub : Bytes
deriving DecidableEq, Repr

/-- A life-cycle transition between its commit and the end of its erasure (R509). -/
structure Transition where
  target : LcState
  /-- LC_CHANGE descriptor that waits for it, by work id; `none` for a tamper-driven one. -/
  work : Option Nat
  /-- A tamper event rewrote the target (R506, R513). -/
  rewritten : Bool
deriving DecidableEq, Repr

/-- A tamper event found during start-up steps 1 to 4 and held until the end of step 4 (R567). -/
structure HeldEvent where
  level : Nat
  cause : Nat
  detail : Nat
deriving DecidableEq, Repr

/-- Tamper monitor and life cycle (R498-R527). -/
structure Tamper where
  /-- LC_STATUS.STATE | 3 | 17_tamper_and_lifecycle.md R507 | 1 (ISSUED, as shipped, R606) -/
  state : LcState
  /-- LC_STATUS.PENDING: ERASE_PENDING of the life-cycle record | 1 | 17_tamper_and_lifecycle.md R509 | 0 -/
  erasePending : Bool
  /-- TAMPER_CAUSE.CAUSE | 8 | 17_tamper_and_lifecycle.md R527 | 0x00 -/
  cause : Nat
  /-- TAMPER_CAUSE.DETAIL | 16 | 17_tamper_and_lifecycle.md R525 | DESIGN CHOICE 0 (log entry 7) -/
  detail : Nat
  /-- TAMPER_ENTRY_GRAIN.GRAIN | 64 | 17_tamper_and_lifecycle.md R525 | DESIGN CHOICE 0 (log entry 7) -/
  entryGrain : Nat
  /-- KEY_EPOCH at entry | 64 | 17_tamper_and_lifecycle.md R509 | DESIGN CHOICE 0 (log entry 7) -/
  entryEpoch : Nat
  /-- SUMMARY_DUE | 1 | 17_tamper_and_lifecycle.md R509 | 0 -/
  summaryDue : Bool
  /-- The stored summary statement, 256 bytes | 2,048 | 17_tamper_and_lifecycle.md R521 | none -/
  summary : Option Bytes
  /-- The transition in progress | model | 17_tamper_and_lifecycle.md R509 | none -/
  transition : Option Transition
  /-- The confirmed stage (LC_STATUS.STAGED) | 34 entries | 17_tamper_and_lifecycle.md R511 | none -/
  stage : Option (List StageEntry)
  /-- The 16 challenge slots: the 96-byte block pending in each | 16 x 768 | 17_tamper_and_lifecycle.md R515 | empty -/
  challenges : Table Bytes
  /-- TAMPER_L1.COUNT, saturating | 32 | 17_tamper_and_lifecycle.md R525 | 0x0000_0000 -/
  l1 : Nat
  /-- TAMPER_L2.COUNT, saturating | 32 | 17_tamper_and_lifecycle.md R525 | 0x0000_0000 -/
  l2 : Nat
  /-- Grains of the level-2 events of the last 5,760 grains | model | 17_tamper_and_lifecycle.md R505 | empty -/
  window : List Nat
  /-- The clock monitor has stopped the core clock; the response waits for the relock | 1 | 17_tamper_and_lifecycle.md R504 | 0 -/
  clockStopped : Bool
  /-- The event whose response waits for the relock: level, and for level 3 the frequency in MHz | model | 17_tamper_and_lifecycle.md R504 | none -/
  afterRelock : Option (Nat × Nat)
  /-- Events held during start-up steps 1 to 4 | model | 19_power_and_startup.md R567 | none -/
  held : List HeldEvent
  /-- Level-3 or level-4 event met during a flush, recorded in the battery latch: level, cause and detail | model | 17_tamper_and_lifecycle.md R506 | none -/
  flushEvent : Option (Nat × Nat × Nat)
  /-- BAT_CFG.ARM | 1 | 17_tamper_and_lifecycle.md R502 | DESIGN CHOICE 0 (log entry 7) -/
  arm : Bool
  /-- ARM as recorded in the life-cycle record | 1 | 17_tamper_and_lifecycle.md R502 | DESIGN CHOICE 0 (log entry 7) -/
  armRec : Bool
  /-- BAT_CFG.LOOP_EN | 1 | 17_tamper_and_lifecycle.md R525 | DESIGN CHOICE 0 (log entry 7) -/
  loopEn : Bool
  /-- The liveness pattern held by the battery domain | 32 | 17_tamper_and_lifecycle.md R500 | none -/
  pattern : Option Word
  /-- BAT_STATUS.LATCH | 1 | 17_tamper_and_lifecycle.md R501 | 0 -/
  latch : Bool
  /-- BAT_STATUS.LOOP | 1 | 17_tamper_and_lifecycle.md R501 | 0 -/
  latchLoop : Bool
  /-- BAT_STATUS.MESH | 1 | 17_tamper_and_lifecycle.md R501 | 0 -/
  latchMesh : Bool
  /-- BAT_STATUS.VBAT_LOW | 1 | 17_tamper_and_lifecycle.md R503 | 0 -/
  vbatLow : Bool
  /-- BAT_STATUS.ARM_ERR | 1 | 17_tamper_and_lifecycle.md R502 | 0 -/
  armErr : Bool
deriving DecidableEq, Repr

def Tamper.reset : Tamper :=
  { state := .issued, erasePending := false, cause := 0, detail := 0, entryGrain := 0, entryEpoch := 0,
    summaryDue := false, summary := none, transition := none, stage := none, challenges := [], l1 := 0, l2 := 0,
    window := [], clockStopped := false, afterRelock := none, held := [],
    flushEvent := none, arm := false, armRec := false, loopEn := false, pattern := none,
    latch := false, latchLoop := false, latchMesh := false, vbatLow := false, armErr := false }

end Sys2Proof.Machine
end

