-- ==== Sys2Proof/Machine/StContactless.lean ====
section
/-! DEFINITION. The state of the contactless front end: modes, the running collect, the dialogue with a card, the tag.
A field's docstring reads: what it is | width | rule | reset value. -/

namespace Sys2Proof.Machine
open Sys2Proof

/-- Modes of R530. -/
inductive ClMode where
  | off | tag | ping | reader
deriving DecidableEq, Repr

/-- What the reader waits for from a card (R532-R534). -/
inductive CardStep where
  /-- ATQA, after REQA number `n` (R531). -/
  | atqa (n : Nat)
  /-- The answer to ANTICOLLISION. -/
  | anticol
  /-- SAK, after SELECT. -/
  | sak
  /-- ATS, after RATS. -/
  | ats
  /-- The answer to PPS. -/
  | pps
  /-- The answer to SELECT of the custodian application. -/
  | selectAid
  /-- The answer to PSO COMPUTE DIGITAL SIGNATURE. -/
  | pso
deriving DecidableEq, Repr

/-- The dialogue with the cards in the field (R532-R535). -/
structure Dialog where
  step : CardStep
  /-- Cascade level, 1 to 3. -/
  level : Nat
  /-- Bits of the UID CLn already known, first bit first. -/
  known : List Bool
  /-- The branches with the colliding bit 0 that are still to be resolved. -/
  branches : List (Nat × List Bool)
  /-- UID bytes of the levels resolved. -/
  uid : Bytes
  /-- The bits of the frame last sent, for a retransmission. -/
  sent : Bytes
  /-- Retransmissions made of the current block (R547). -/
  retries : Nat
  /-- No card has answered since the detection (R531). -/
  fresh : Bool
deriving DecidableEq, Repr

/-- A running CL_COLLECT (R536-R538). -/
structure Collect where
  work : Nat
  slice : Nat
  /-- Grain at which it began. -/
  since : Nat
  /-- WAIT | 18 | 18_contactless.md R536 | - -/
  wait : Nat
  /-- The 96-byte challenge block | 768 | 18_contactless.md R536 | - -/
  block : Bytes
  /-- The custodian entries of LIST, for OP PROVISION. -/
  signers : Option (List StageEntry)
  /-- The measurement of R529 before the next ping has found no external field. -/
  fieldOk : Bool
  /-- Grain of the last measurement of R529. -/
  measuredAt : Nat
  /-- Grain of the last ping. -/
  lastPing : Nat
  /-- Pings since the baseline was taken. -/
  pings : Option Nat
  selected : Nat
  rejected : Nat
  /-- Accepted signatures in order: entry, ID, signature in the form of R516. -/
  sigs : List (Nat × Bytes × Bytes)
  dialog : Option Dialog
deriving DecidableEq, Repr

/-- How far an external reader has come with the device's tag (R539). -/
inductive TagLevel where
  | idle | ready1 | ready2 | active | protocol | halted
deriving DecidableEq, Repr

/-- The contactless front end. -/
structure Contactless where
  /-- CL_STATUS.MODE | 2 | 18_contactless.md R530 | 0x0 (OFF) -/
  mode : ClMode
  /-- CL_STATUS.EXT_FIELD | 1 | 18_contactless.md R529 | 0 -/
  extField : Bool
  /-- CL_STATUS.COLLECT: the running collect | 1 | 18_contactless.md R548 | none -/
  collect : Option Collect
  /-- CL_STATUS.CARDS of the running or last collect | 4 | 18_contactless.md R548 | 0x0 -/
  cards : Nat
  /-- CL_STATUS.SIGS of it | 2 | 18_contactless.md R548 | 0x0 -/
  sigs : Nat
  /-- CL_CFG.PING_MS | 9 | 18_contactless.md R548 | 0x0C8 -/
  pingMs : Nat
  /-- CL_CFG.DET_THR | 8 | 18_contactless.md R548 | 0x14 -/
  detThr : Nat
  /-- CL_CFG.RATE | 2 | 18_contactless.md R548 | 0x2 -/
  rate : Nat
  /-- CL_DETUNE.LAST | 10 | 18_contactless.md R548 | 0x000 -/
  detLast : Nat
  /-- CL_DETUNE.BASE | 10 | 18_contactless.md R548 | 0x000 -/
  detBase : Nat
  /-- CL_UID.UID, fixed on entry to ISSUED | 56 | 18_contactless.md R539 | as shipped (R606) -/
  uid : Bytes
  /-- The origin signature of IDENT | 512 | 18_contactless.md R540 | as shipped (R606) -/
  origin : Bytes
  /-- Field of an external reader at the antenna in mA/m, 0 when there is none | model | 18_contactless.md R530 | 0 -/
  field : Nat
  /-- Protocol level of the tag | 3 | 18_contactless.md R539 | idle -/
  level : TagLevel
  /-- The tag application is selected | 1 | 18_contactless.md R542 | 0 -/
  app : Bool
  /-- The selected elementary file, by FID | 16 | 18_contactless.md R542 | none -/
  file : Option Nat
  /-- A VERIFY of the read password stands | 1 | 18_contactless.md R542 | 0 -/
  readOk : Bool
  /-- A VERIFY of the write password stands | 1 | 18_contactless.md R542 | 0 -/
  writeOk : Bool
  /-- An UPDATE BINARY awaits the write of its page: serial number of the model in the page's list of waiters | model | 18_contactless.md R544 | none -/
  pendingUpdate : Option Nat
  /-- CL_FRAME_ERR.COUNT | 32 | 18_contactless.md R548 | 0x0000_0000 -/
  frameErr : Ctr
  /-- CL_FALSE_DET.COUNT | 32 | 18_contactless.md R548 | 0x0000_0000 -/
  falseDet : Ctr
  /-- CL_TAG_SESS.COUNT | 32 | 18_contactless.md R548 | 0x0000_0000 -/
  tagSess : Ctr
  /-- CL_TAG_NAK.COUNT | 32 | 18_contactless.md R548 | 0x0000_0000 -/
  tagNak : Ctr
deriving DecidableEq, Repr

def Contactless.reset : Contactless :=
  { mode := .off, extField := false, collect := none, cards := 0, sigs := 0, pingMs := 0xC8, detThr := 0x14, rate := 2,
    detLast := 0, detBase := 0, uid := List.replicate 7 0, origin := List.replicate 64 0, field := 0, level := .idle,
    app := false, file := none, readOk := false, writeOk := false, pendingUpdate := none, frameErr := 0, falseDet := 0,
    tagSess := 0, tagNak := 0 }

end Sys2Proof.Machine
end

