-- ==== Sys2Proof/Machine/StKeys.lean ====
section
/-! DEFINITION. The state of the key store, the crypto engines and the random unit. A field's docstring reads: what
it is | width | rule | reset value. -/

namespace Sys2Proof.Machine
open Sys2Proof

/-- A key slot: its descriptor (R382) and its resident material with its mask (R388). -/
structure Slot where
  /-- TYPE | 8 | 13_keys.md R382 | 0 (unoccupied) -/
  type : Nat
  /-- FLAGS.OCCUPIED | 1 | 13_keys.md R382 | 0 -/
  occupied : Bool
  /-- FLAGS.LEVEL | 3 | 13_keys.md R382 | 0 -/
  level : Nat
  /-- FAMILY | 16 | 13_keys.md R382 | 0 -/
  family : Nat
  /-- ATTR | 32 | 13_keys.md R383 | 0 -/
  attr : BitVec 32
  /-- SLICE | 16 | 13_keys.md R382 | 0 -/
  slice : Nat
  /-- Resident USES | 48 | 13_keys.md R386 | 0 -/
  uses : Nat
  /-- USES as last recorded in the descriptor | 48 | 13_keys.md R386 | 0 -/
  usesRec : Nat
  /-- E | 64 | 13_keys.md R382 | 0 -/
  e : Nat
  /-- Slot MAC | 64 | 13_keys.md R384 | zero -/
  mac : Bytes
  /-- Material as stored in KEYS: encrypted, or all zero for a VOLATILE key | 512 or 10,240 | 13_keys.md R384 | zero -/
  stored : Bytes
  /-- Resident material, masked | 512 or 10,240 | 13_keys.md R388 | none -/
  masked : Bytes
  /-- Its mask | 512 or 10,240 | 13_keys.md R388 | none -/
  mask : Bytes
  /-- SLOT_BAD | 1 | 13_keys.md R385 | 0 -/
  bad : Bool
  /-- Reset epoch in which it was installed | 64 | 13_keys.md R387 | 0 -/
  epoch : Nat
  /-- Count of installs and erasures of this slot: sessions descended from an older one are expired | model | 13_keys.md R407 | 0 -/
  install : Nat
  /-- Bytes of material that the re-masking under way has exchanged | model | 13_keys.md R388 | 0 -/
  swapped : Nat
deriving DecidableEq, Repr

def Slot.reset : Slot :=
  { type := 0, occupied := false, level := 0, family := 0, attr := 0, slice := 0, uses := 0, usesRec := 0, e := 0,
    mac := List.replicate 8 0, stored := [], masked := [], mask := [], bad := false, epoch := 0, install := 0,
    swapped := 0 }

/-- A session context (R395). -/
structure Session where
  slice : Nat
  /-- Open | 1 | 13_keys.md R395 | no session open -/
  isOpen : Bool
  level : Nat
  /-- Parent slot index (TARGET 0) and the slot's install count at opening | 14 | 13_keys.md R395 | - -/
  parent : Nat
  parentInstall : Nat
  /-- Labels of the path | 7 x 256 | 13_keys.md R395 | - -/
  labels : List Bytes
  /-- Attribute word | 32 | 13_keys.md R395 | - -/
  attr : BitVec 32
  /-- USES | 48 | 13_keys.md R395 | - -/
  uses : Nat
  /-- Creation epoch | 64 | 13_keys.md R395 | - -/
  epoch : Nat
  /-- Session key, masked, and its mask | 512 | 13_keys.md R395 | - -/
  masked : Bytes
  mask : Bytes
  /-- Receipt key, masked, and its mask; empty when none | 512 | 13_keys.md R397 | - -/
  rcptMasked : Bytes
  rcptMask : Bytes
  /-- Ended by a bad parent slot at a re-derivation: work answers SLOT_BAD | 1 | 13_keys.md R400 | - -/
  slotBad : Bool
  /-- Ended by the replacement or erasure of its parent slot: work answers EXPIRED | 1 | 13_keys.md R401 | - -/
  parentGone : Bool
  /-- Grain until which a re-derivation is in progress | 64 | 13_keys.md R400 | 0 -/
  busyUntil : Nat
  /-- Grain of the last re-masking | 64 | 13_keys.md R400 | - -/
  maskedAt : Nat
  /-- Integrity tag | 128 | 13_keys.md R395 | - (a free value: log entry 6) -/
  tag : Bytes
deriving DecidableEq, Repr

def Session.reset : Session :=
  { slice := 0, isOpen := false, level := 0, parent := 0, parentInstall := 0, labels := [], attr := 0, uses := 0,
    epoch := 0, masked := [], mask := [], rcptMasked := [], rcptMask := [], slotBad := false, parentGone := false,
    busyUntil := 0, maskedAt := 0, tag := [] }

/-- An authority table entry (R403). -/
structure Authority where
  /-- KIND | 8 | 13_keys.md R403 | 0 -/
  kind : Nat
  /-- CURVE | 8 | 13_keys.md R403 | 0 -/
  curve : Nat
  /-- FLAGS.OCCUPIED | 1 | 13_keys.md R403 | 0 -/
  occupied : Bool
  /-- SERIAL | 64 | 13_keys.md R403 | 0 -/
  serial : Nat
  /-- ID | 128 | 13_keys.md R403 | zero -/
  ident : Bytes
  /-- PUBLIC | 768 | 13_keys.md R403 | zero -/
  pub : Bytes
  /-- MAC | 64 | 13_keys.md R403 | zero -/
  mac : Bytes
deriving DecidableEq, Repr

def Authority.reset : Authority :=
  { kind := 0, curve := 0, occupied := false, serial := 0, ident := List.replicate 16 0,
    pub := List.replicate 96 0, mac := List.replicate 8 0 }

/-- The key store (R374-R410). -/
structure KeyStore where
  /-- The root array: its power-up state until it is overwritten | 4,096 bytes | 13_keys.md R374 | none: switched off -/
  rootArray : Bytes
  /-- The supply switch of the root array | 1 | 13_keys.md R374 | off -/
  rootOn : Bool
  /-- The root register | 256 | 13_keys.md R374 | none before reconstruction -/
  root : Option Bytes
  /-- K_SINT | 256 | 13_keys.md R377 | none before reconstruction -/
  kSint : Bytes
  /-- K_STORE_D | 256 | 13_keys.md R377 | none before reconstruction -/
  kStoreD : Bytes
  /-- K_STORE_T | 256 | 13_keys.md R377 | none before reconstruction -/
  kStoreT : Bytes
  /-- K_MASK | 256 | 13_keys.md R377 | none before reconstruction -/
  kMask : Bytes
  /-- Private scalar of the identity key, little-endian | 384 | 13_keys.md R377 | none before reconstruction -/
  dId : Bytes
  /-- Public key of the identity key: x then y | 768 | 13_keys.md R377 | none before reconstruction -/
  qId : Bytes
  /-- HTM_DEVICE_ID.ID | 128 | 13_keys.md R377 | zero before reconstruction -/
  deviceId : Bytes
  /-- DEVICE_ID copy kept for SPENT (R523) | 128 | 17_tamper_and_lifecycle.md R523 | zero -/
  deviceIdCopy : Bytes
  /-- Helper data of the SYSTEM partition; `none` when erased or when both copies are uncorrectable | 28,624 | 13_keys.md R375 | as shipped (R606) -/
  helper : Option Bytes
  /-- Identity certificate | 16,384 at most | 13_keys.md R379 | as shipped (R606) -/
  cert : Bytes
  /-- Compact slots | 12,288 | 13_keys.md R380 | none occupied (R606) -/
  compact : Table Slot
  /-- Large slots | 1,024 | 13_keys.md R380 | none occupied (R606) -/
  large : Table Slot
  /-- Session contexts by handle | 8,192 | 13_keys.md R395 | none open -/
  sessions : Table Session
  /-- Authority entries | 34 | 13_keys.md R403 | none occupied (R606) -/
  auth : Table Authority
  /-- Family counters | 256 x 64 | 13_keys.md R402 | 0 (R606) -/
  families : Table Nat
  /-- ERASE_PENDING of the SYSTEM partition | 1 | 13_keys.md R408 | 0 -/
  erasePending : Bool
  /-- KEY_STATUS.ERASING | 1 | 13_keys.md R410 | 0 -/
  erasing : Bool
  /-- KEY_STATUS.SWEPT | 1 | 13_keys.md R410 | 0 -/
  swept : Bool
  /-- KEY_STATUS.WEAK_MASK | 1 | 13_keys.md R389 | 0 -/
  weakMask : Bool
  /-- KEY_EPOCH.EPOCH | 64 | 13_keys.md R387 | DESIGN CHOICE 0 before the first start-up (log entry 7) -/
  epoch : Nat
  /-- KEY_EPOCH as last recorded | 64 | 13_keys.md R410 | DESIGN CHOICE 0 (log entry 7) -/
  epochRec : Nat
  /-- HTM_HALT.CODE | 8 | 13_keys.md R410 | 0x00 -/
  haltCode : Nat
  /-- HTM_HALT.ATTEMPTS | 2 | 13_keys.md R410 | 0x0 -/
  attempts : Nat
  /-- Position of the re-masking pass: slots, then contexts | model | 13_keys.md R388 | 0 -/
  remaskPos : Nat
deriving DecidableEq, Repr

def KeyStore.reset : KeyStore :=
  { rootArray := [], rootOn := false, root := none, kSint := [], kStoreD := [], kStoreT := [], kMask := [], dId := [], qId := [],
    deviceId := List.replicate 16 0, deviceIdCopy := List.replicate 16 0, helper := some Config.helper, cert := Config.cert, compact := [],
    large := [], sessions := [], auth := [], families := [], erasePending := false, erasing := false, swept := false,
    weakMask := false, epoch := 0, epochRec := 0, haltCode := 0, attempts := 0, remaskPos := 0 }

/-- A stream of R419 bound to a lane or an engine, or waiting for one. -/
structure Stream where
  work : Nat
  /-- Runs on a digest engine, not on an AES lane. -/
  onDigest : Bool
  /-- Lane or engine it is bound to; `none` while it waits. -/
  unit : Option Nat
  /-- Bytes processed. -/
  pos : Nat
  /-- Bytes to process, additional data included. -/
  total : Nat
deriving DecidableEq, Repr

/-- A big-number job (R428-R435). -/
structure BnJob where
  /-- Work id of the descriptor, or of the INVOKE of a service call's core. -/
  work : Nat
  /-- What the job is for: 0 a BIGNUM descriptor, 1 a BIGNUM service of core `who`, 2 the seal `no` of book `who`,
  3 check 9 of R361 of core `who`. -/
  use : Nat
  who : Nat
  no : Nat
  slice : Nat
  op : Nat
  key : Option Bytes
  keyType : Nat
  e : Nat
  input : Bytes
  /-- Cost in steps (R431) and steps completed. -/
  cost : Nat
  done : Nat
  /-- Admission: serial number of the model. -/
  admitted : Nat
  /-- Grain since which it waits, queued or saved. -/
  since : Nat
  retries : Nat
  /-- The random values for blinding and, for ECDSA, the nonce have arrived. -/
  rand : Bool
  /-- The mask of the key in a saved context (R388, R432); empty elsewhere. -/
  mask : Bytes
deriving DecidableEq, Repr

/-- A big-number engine. -/
structure BnEngine where
  running : Option BnJob
  /-- The running job is protected (R433). -/
  prot : Bool
  /-- Saved contexts, at most 4. -/
  saved : List BnJob
  /-- Steps of saving, starting and restoring still to take (R432, R433). -/
  pause : Nat
deriving DecidableEq, Repr

def BnEngine.reset : BnEngine := { running := none, prot := false, saved := [], pause := 0 }

/-- Streams, digest contexts and the big-number pool (R419, R432, R437). -/
structure Crypto where
  /-- The stream DMA engine of each job, as its MPU: work and 42 or 43 | model | 01_architecture.md R25 | none -/
  dmaJobs : List (Nat × Nat)
  /-- Streams bound or waiting, in admission order | 320 contexts | 14_crypto_engines.md R419 | none -/
  streams : List Stream
  /-- The 16 big-number engines | 16 | 14_crypto_engines.md R432 | idle -/
  bn : Table BnEngine
  /-- The queue of big-number jobs, oldest first | 16 | 14_crypto_engines.md R432 | empty -/
  bnQueue : List BnJob
  /-- BN_JOBS.COUNT | 32 | 14_crypto_engines.md R437 | 0 -/
  bnJobs : Ctr
  /-- BN_YIELDS.COUNT | 32 | 14_crypto_engines.md R437 | 0 -/
  bnYields : Ctr
  /-- BN_MISMATCH.COUNT | 32 | 14_crypto_engines.md R437 | 0 -/
  bnMismatch : Ctr
  /-- BN_FAULTS.COUNT | 32 | 14_crypto_engines.md R437 | 0 -/
  bnFaults : Ctr
  /-- CMP_GLITCH.COUNT | 32 | 14_crypto_engines.md R437 | 0 -/
  cmpGlitch : Ctr
deriving DecidableEq, Repr

def Crypto.reset : Crypto :=
  { dmaJobs := [], streams := [], bn := [], bnQueue := [], bnJobs := 0, bnYields := 0, bnMismatch := 0, bnFaults := 0, cmpGlitch := 0 }

/-- A consumer that waits for random output (R34, R452). -/
inductive RngUse where
  /-- Blinding and nonce of the big-number job admitted with this serial. -/
  | bignum (job : Nat)
  /-- The masks of the start-up sweep. -/
  | sweep
  /-- The masks of the keys of a session that is being opened, by work id. -/
  | context (work : Nat)
  /-- The masks of a session that is being re-derived, by handle. -/
  | rederive (handle : Nat)
  /-- The masks of the keys of a book in set-up. -/
  | bookKeys (book : Nat)
  /-- The masks of the keys of a book that is being adopted, by work id. -/
  | adopt (work : Nat)
  /-- An envelope, by work id. -/
  | envelope (work : Nat)
  /-- The refill of the firmware's port. -/
  | firmware
  /-- Steps of the known-answer tests at start-up (R457). -/
  | startTests
  /-- Steps of RNG_KAT, by work id. -/
  | kat (work : Nat)
  /-- Steps of RNG_INJECT, by work id. -/
  | inject (work : Nat)
  /-- Re-masking of slot (target, index). -/
  | remask (target index : Nat)
  /-- The destination nonce of ADOPT_PREPARE, by work id. -/
  | nonce (work : Nat)
  /-- A custodian challenge, by work id. -/
  | challenge (work : Nat)
  /-- The RANDOM service of a core. -/
  | service (core : Nat)
  /-- A RANDOM descriptor, by work id. -/
  | request (work : Nat)
  /-- The refill of RNG_DATA. -/
  | fifo
deriving DecidableEq, Repr

/-- A waiting random consumer. -/
structure RngWait where
  use : RngUse
  /-- Priority of R34. -/
  prio : Nat
  slice : Nat
  need : Nat
  got : Bytes
  /-- Grain of the request or of its last output step (R452). -/
  since : Nat
deriving DecidableEq, Repr

/-- What a step of the unit changed outside its outputs, for the redo of R459. -/
structure RngUndo where
  block : Option Bytes
  pool : List Bytes
  freshNeeded : Nat
  key : Bytes
  v : Bytes
  inst : Bool
  calls : Nat
  callLeft : Nat
  seededAt : Nat
  nonePassing : Bool
  reseeds : Ctr
  overdue : Bool
deriving DecidableEq, Repr

/-- Health-test state of one noise source (R442, R443). -/
structure Source where
  /-- Run length of the repetition count test and its sample | 6 + 1 | 15_random.md R442 | DESIGN CHOICE 0, no sample (log entry 7) -/
  run : Nat
  last : Bool
  /-- The latest block passed | 1 | 15_random.md R444 | 0 -/
  passing : Bool
  /-- A block has passed both tests since the unit started | 1 | 15_random.md R456 | 0 -/
  startOk : Bool
  /-- RNG_FAILk.COUNT | 16 | 15_random.md R463 | 0 -/
  fails : Nat
  /-- RNG_FAILk.RCT | 1 | 15_random.md R463 | 0 -/
  rct : Bool
  /-- RNG_FAILk.APT | 1 | 15_random.md R463 | 0 -/
  apt : Bool
deriving DecidableEq, Repr

def Source.reset : Source :=
  { run := 0, last := false, passing := false, startOk := false, fails := 0, rct := false, apt := false }

/-- The random unit (R439-R463). -/
structure Rng where
  /-- The unit has been started (R456), with the grain of its start | 1 | 15_random.md R456 | off -/
  started : Option Nat
  /-- The 11 sources | 11 | 15_random.md R439 | R442 -/
  sources : Table Source
  /-- RNG_STATUS.STARTUP | 1 | 15_random.md R463 | 0 -/
  startup : Bool
  /-- RNG_STATUS.KAT | 1 | 15_random.md R463 | 0 -/
  kat : Bool
  /-- RNG_STATUS.INST | 1 | 15_random.md R463 | 0 -/
  inst : Bool
  /-- RNG_STATUS.NONE_PASSING | 1 | 15_random.md R444 | 0 -/
  nonePassing : Bool
  /-- Combined blocks not yet conditioned, oldest first | 1,024 each | 15_random.md R441 | none -/
  blocks : List Bytes
  /-- The pool of conditioner outputs, oldest first | 3 x 128 | 15_random.md R446 | empty -/
  pool : List Bytes
  /-- Conditioner outputs still to be formed before a reseed may take the pool (R444, R459) | 2 | 15_random.md R444 | 0 -/
  freshNeeded : Nat
  /-- DRBG key | 256 | 15_random.md R447 | none -/
  key : Bytes
  /-- DRBG V | 128 | 15_random.md R447 | none -/
  v : Bytes
  /-- Generate calls since the last reseed | 8 | 15_random.md R448 | 0 -/
  calls : Nat
  /-- Bytes left in the generate call under way | 13 | 15_random.md R447 | 0 -/
  callLeft : Nat
  /-- Grain of the unit's last step (R44) | 64 | 15_random.md R451 | none -/
  stepAt : Option Nat
  /-- Grain of the last instantiation or reseed | 64 | 15_random.md R448 | 0 -/
  seededAt : Nat
  /-- DRBG output buffer | 256 bytes | 15_random.md R447 | empty -/
  buf : Bytes
  /-- RNG_DATA FIFO | 64 bytes | 15_random.md R453 | empty -/
  fifo : Bytes
  /-- A refill of the RNG_DATA FIFO has begun and has not filled it | 1 | 15_random.md R453 | 0 -/
  fifoFill : Bool
  /-- FIFO of the firmware's port, and whether its refill has begun | 64 bytes + 1 | 15_random.md R453 | empty -/
  fwFifo : Bytes
  fwFill : Bool
  /-- Output of the step of this grain, which its consumer gets at the boundary | 1,024 | 15_random.md R459 | none -/
  given : Option (RngUse × Bytes)
  /-- What another step of this grain changed | model | 15_random.md R459 | none -/
  undo : Option RngUndo
  /-- Waiting consumers in order of request | model | 15_random.md R451 | none -/
  waiters : List RngWait
  /-- Slice last served at priority 6 (R50) | 10 | 15_random.md R451 | 0 -/
  lastSlice : Nat
  /-- RNG_ERR.EMPTY | 1 | 15_random.md R463 | 0 -/
  errEmpty : Bool
  /-- RNG_ERR.STARTUP_SLOW | 1 | 15_random.md R463 | 0 -/
  errSlow : Bool
  /-- RNG_ERR.KAT_FAIL | 1 | 15_random.md R463 | 0 -/
  errKat : Bool
  /-- RNG_ERR.RESEED_LATE | 1 | 15_random.md R463 | 0 -/
  errLate : Bool
  /-- RNG_RELEASED.COUNT | 32 | 15_random.md R463 | 0 -/
  released : Ctr
  /-- Bytes released towards the next unit of 64 | 6 | 15_random.md R463 | 0 -/
  releasedRem : Nat
  /-- RNG_RESEEDS.COUNT | 32 | 15_random.md R463 | 0 -/
  reseeds : Ctr
  /-- RNG_TIMEOUTS.COUNT | 32 | 15_random.md R463 | 0 -/
  timeouts : Ctr
deriving DecidableEq, Repr

def Rng.reset : Rng :=
  { started := none, sources := [], startup := false, kat := false, inst := false, nonePassing := false, blocks := [],
    pool := [], freshNeeded := 0, key := [], v := [], calls := 0, callLeft := 0, stepAt := none, seededAt := 0, buf := [], fifo := [],
    fifoFill := false, fwFifo := [], fwFill := false, given := none, undo := none, waiters := [],
    lastSlice := 0, errEmpty := false, errSlow := false, errKat := false, errLate := false, released := 0,
    releasedRem := 0, reseeds := 0, timeouts := 0 }

end Sys2Proof.Machine
end

