-- ==== Sys2Proof/Machine/StLedger.lean ====
section
/-! DEFINITION. The state of the ledger path: scheduler, tallies, the Pan and its node cache, books, the brine
window, the journal writer. A field's docstring reads: what it is | width | rule | reset value. -/

namespace Sys2Proof.Machine
open Sys2Proof

/-- Units that take steps (R44), each lane, engine and core one of its own, and the units of R53 that carry background
work alone. -/
inductive UnitId where
  | prime (lane : Nat) | posting (lane : Nat) | journal | digest (engine : Nat) | aes (lane : Nat) | bignum (engine : Nat)
  | alaing (core : Nat) | dma (engine : Nat) | nv | random | mgmt
  | keyStore | pan | mover | tamper | telemetry
deriving DecidableEq, Repr

/-- The grain scheduler (R47-R58, R69). -/
structure Sched where
  /-- HTM_GRAIN.COUNT | 64 | 00_scope.md R11 | DESIGN CHOICE 0 before the restore of R13 (log entry 7) -/
  grain : Nat
  /-- The grain generator runs and HTM_GRAIN counts (R39) | 1 | 01_architecture.md R39 | 0 -/
  running : Bool
  /-- The grain of the last SCRUPLE_BOUNDARY processed | model | 02_grain_and_classes.md R57 | none -/
  lastScruple : Option Nat
  /-- SCHED_ERR.TOKEN_OVER | 1 | 02_grain_and_classes.md R58 | 0 -/
  tokenOver : Bool
  /-- SCHED_ERR.BG_MISS | 1 | 02_grain_and_classes.md R56 | 0 -/
  bgMiss : Bool
  /-- SCHED_BG.AT_RISK, by task bit | 6 | 02_grain_and_classes.md R54 | 0 -/
  atRisk : List Nat
  /-- SCHED_BG.MISSED, by task bit | 6 | 02_grain_and_classes.md R56 | 0 -/
  missed : List Nat
  /-- Units on which escalation is active (SCHED_SLOT.ESC) | 1 | 02_grain_and_classes.md R55 | none -/
  esc : List UnitId
  /-- SCHED_SEL.SLICE | 10 | 02_grain_and_classes.md R69 | 0x000 -/
  sel : Nat
  /-- Rotation pointers that do not stand at class 1, per unit | 2 per unit | 02_grain_and_classes.md R49 | class 1 -/
  rot : List (UnitId × Nat)
  /-- The class whose step each unit starts in the current grain; 4 is background | model | 02_grain_and_classes.md R48 | none -/
  served : List (UnitId × Nat)
  /-- Units that have made the step of this grain | model | 02_grain_and_classes.md R43 | none -/
  taken : List UnitId
  /-- Units that take their squashed step again in the next grain | model | 01_architecture.md R38 | none -/
  skip : List UnitId
  /-- The slice that a unit served last, per unit | 10 per unit | 02_grain_and_classes.md R50 | none -/
  lastSlice : List (UnitId × Nat)
  /-- The next boundary is the first after the restore of HTM_GRAIN | model | 01_architecture.md R39 | 0 -/
  fresh : Bool
  /-- Deadline of the current period of each background task, by task bit | model | 02_grain_and_classes.md R53 | one period after the grain 0 -/
  deadline : Table Nat
  /-- Background tasks whose missed period is still unfinished, by task bit | model | 02_grain_and_classes.md R56 | none -/
  overdue : List Nat
  /-- Slot-19 self-checks made, by prime lane | model | 02_grain_and_classes.md R52 | none -/
  laneChecks : Table Nat
  /-- Prime lanes still free to admit in this grain | model | 02_grain_and_classes.md R52 | 0 -/
  lanesFree : Nat
  /-- A PRIME_ADMISSION has been made at this boundary | model | 02_grain_and_classes.md R59 | 0 -/
  primeDone : Bool
  /-- Postings still admissible at this boundary | model | 05_postings.md R160 | 0 -/
  admitLeft : Nat
  /-- A POSTING_ADMISSION has been made at this boundary | model | 05_postings.md R160 | 0 -/
  admitDone : Bool
  /-- Fetch ports of the posting lanes left in this grain | model | 05_postings.md R162 | 0 -/
  portsLeft : Nat
  /-- The entries that hold the fetch ports of this grain, from lane 0 on | 16 at most | 05_postings.md R162 | none -/
  ports : List (Nat × Bool)
  /-- The entries that hold the compute units of this grain, from lane 0 on | 16 at most | 05_postings.md R162 | none -/
  units : List (Nat × Bool)
  /-- Commits left at this boundary over all books | model | 05_postings.md R164 | 0 -/
  commitsLeft : Nat
  /-- Legs left to commit at this boundary | model | 05_postings.md R164 | 0 -/
  commitLegs : Nat
  /-- Book and strand of the commits of this grain | model | 05_postings.md R164 | none -/
  strandsUsed : List (Nat × Nat)
deriving DecidableEq, Repr

def Sched.reset : Sched :=
  { grain := 0, running := false, lastScruple := none, tokenOver := false, bgMiss := false, atRisk := [],
    missed := [], esc := [], sel := 0, rot := [], served := [], taken := [], skip := [], lastSlice := [],
    fresh := false, deadline := [], overdue := [], laneChecks := [], lanesFree := 0,
    primeDone := false, admitLeft := 0, admitDone := false, portsLeft := 0, ports := [], units := [], commitsLeft := 0, commitLegs := 0,
    strandsUsed := [] }

/-- A tally record (R108); a record never opened is all zeros (R109). -/
structure Tally where
  /-- VALUE | 128 | 04_tallies_and_store.md R108 | zero bytes (R109) -/
  value : Image
  /-- FLOOR | 128 | 04_tallies_and_store.md R108 | zero bytes -/
  floor : Image
  /-- CEILING | 128 | 04_tallies_and_store.md R108 | zero bytes -/
  ceiling : Image
  /-- TALLY_ID: tag in bits 63:32, index in bits 31:0 | 64 | 04_tallies_and_store.md R106 | 0 -/
  tid : Nat
  /-- VERSION | 48 | 04_tallies_and_store.md R111 | 0 -/
  version : Nat
  /-- ATTR | 16 | 04_tallies_and_store.md R108 | 0 -/
  attr : BitVec 16
deriving DecidableEq, Repr

def Tally.zero : Tally := { value := 0, floor := 0, ceiling := 0, tid := 0, version := 0, attr := 0 }

/-- A resident Saltern block: four tally lines and the metadata word of R229. -/
structure PanBlock where
  /-- Book of the block | 10 | 04_tallies_and_store.md R118 | no block resident -/
  book : Nat
  /-- Block index | 30 | 04_tallies_and_store.md R124 | no block resident -/
  index : Nat
  /-- The four records | 4 x 512 | 04_tallies_and_store.md R117 | no block resident -/
  recs : List Tally
  /-- Dirty mark | 1 | 04_tallies_and_store.md R120 | no block resident -/
  dirty : Bool
  /-- Grain at which it became dirty | 64 | 04_tallies_and_store.md R120 | no block resident -/
  dirtyAt : Nat
  /-- WB_VER | 64 | 07_faults_and_order.md R229 | no block resident -/
  wbVer : Nat
  /-- WB_LSEQ | 64 | 07_faults_and_order.md R229 | no block resident -/
  wbLseq : Nat
  /-- WB_POS | 64 | 07_faults_and_order.md R229 | no block resident -/
  wbPos : Nat
  /-- Least-recently-used order: the larger, the later used | model | 04_tallies_and_store.md R119 | no block resident -/
  stamp : Nat
  /-- A write-back refused by the window check waits for its retry since this grain | 64 | 04_tallies_and_store.md R135 | none -/
  wbRefused : Option Nat
  /-- In the set fixed at the cut of a checkpoint, handover or region move | 1 | 04_tallies_and_store.md R137 | 0 -/
  cut : Bool
  /-- An uncorrectable word was found and the block is being rebuilt | 1 | 07_faults_and_order.md R230 | 0 -/
  lost : Bool
deriving DecidableEq, Repr

/-- A cached tree node: 8 versions and 8 MACs (R125). -/
structure PanNode where
  book : Nat
  level : Nat
  index : Nat
  /-- VER[e] | 8 x 64 | 04_tallies_and_store.md R125 | no node cached -/
  ver : List Nat
  /-- MAC[e] | 8 x 64 | 04_tallies_and_store.md R125 | no node cached -/
  mac : List Bytes
  /-- Dirty mark | 1 | 04_tallies_and_store.md R135 | no node cached -/
  dirty : Bool
  /-- Grain at which it became dirty | 64 | 02_grain_and_classes.md R53 | no node cached -/
  dirtyAt : Nat
  stamp : Nat
  /-- A write-back refused by the window check waits for its retry since this grain | 64 | 04_tallies_and_store.md R135 | none -/
  wbRefused : Option Nat
  /-- In the set fixed at a cut (R137) | 1 | 04_tallies_and_store.md R137 | 0 -/
  cut : Bool
  /-- Brought in for a write-back that is to update one of its entries | 1 | 04_tallies_and_store.md R124 | 0 -/
  awaited : Bool
deriving DecidableEq, Repr

/-- A Saltern load in flight: the block and the absent ancestors that are read at once (R132). -/
structure Load where
  book : Nat
  block : Nat
  /-- Levels of the objects being read, 0 the block; highest level first. -/
  levels : List Nat
  /-- Level of the trusted ancestor the check starts from. -/
  trusted : Nat
  /-- Error completion seen: grain of the failure; the one retry waits 1 pound (R134). -/
  failedAt : Option Nat
  retried : Bool
  /-- A comparator glitch has had its check redone (R422). -/
  redone : Bool
deriving DecidableEq, Repr

/-- A Pan rebuild in progress (R230). -/
structure Rebuild where
  book : Nat
  block : Nat
  /-- PAN_REBUILD has begun it. -/
  started : Bool
  /-- The Saltern image has been read and verified. -/
  haveBase : Bool
  recs : List Tally
  pos : Nat
  expect : Nat
  /-- Rings with an uncommitted entry that had a leg in the block (R231). -/
  rings : List Nat
deriving DecidableEq, Repr

/-- The Pan and its mover. -/
structure Pan where
  /-- Resident blocks | 65,536 at most | 04_tallies_and_store.md R117 | none -/
  blocks : List PanBlock
  /-- Cached nodes of levels 1 to h-1 | 2 lines each | 04_tallies_and_store.md R124 | none -/
  nodes : List PanNode
  /-- Loads in flight | model | 04_tallies_and_store.md R132 | none -/
  loads : List Load
  /-- Rebuilds in progress | model | 07_faults_and_order.md R230 | none -/
  rebuilds : List Rebuild
  /-- PAN_CFG.NODE_UNITS | 5 | 04_tallies_and_store.md R145 | 0x08 -/
  nodeUnits : Nat
  /-- Next LRU stamp | model | 04_tallies_and_store.md R119 | 0 -/
  clock : Nat
  /-- LEDGER_FAULT.RELOAD_FAIL | 1 | 07_faults_and_order.md R243 | 0 -/
  reloadFail : Bool
  /-- LEDGER_FAULT.NODE_LOSS | 1 | 07_faults_and_order.md R243 | 0 -/
  nodeLoss : Bool
  /-- LEDGER_FAULT.REDO_FAIL | 1 | 07_faults_and_order.md R243 | 0 -/
  redoFail : Bool
  /-- LEDGER_FAULT.BOOK | 10 | 07_faults_and_order.md R243 | 0x000 -/
  faultBook : Nat
  /-- PAN_RELOADS.COUNT | 32 | 07_faults_and_order.md R243 | 0 -/
  reloads : Ctr
  /-- LEDGER_REDO.COUNT | 32 | 07_faults_and_order.md R243 | 0 -/
  redos : Ctr
  /-- RING_FENCES.COUNT | 32 | 07_faults_and_order.md R243 | 0 -/
  fences : Ctr
deriving DecidableEq, Repr

def Pan.reset : Pan :=
  { blocks := [], nodes := [], loads := [], rebuilds := [], nodeUnits := 8, clock := 0, reloadFail := false,
    nodeLoss := false, redoFail := false, faultBook := 0, reloads := 0, redos := 0, fences := 0 }

/-- BOOK_STATUS.STATE (R101). -/
inductive BookState where
  | none_ | open_ | recovering | fencedIntegrity | fencedGap | released | deleting
deriving DecidableEq, Repr

/-- BOOK_CTL commands under way (R103, R104). -/
inductive BookCmd where
  | create | delete
deriving DecidableEq, Repr

/-- A record of the journal writer, kept in two staged copies until issued and folded (R226). -/
structure Staged where
  lseq : Nat
  /-- The record, without its trailer (R190, R192). -/
  record : Bytes
  /-- Frame MAC (R195). -/
  mac : Bytes
  /-- Grain of the commit. -/
  grain : Nat
  /-- Made by a prime lane: its frame may be issued in the commit grain (R183). -/
  prime : Bool
  /-- Bytes reserved at admission, returned in part once issued (R199). -/
  reserved : Nat
  issued : Bool
  folded : Bool
deriving DecidableEq, Repr

/-- A checkpoint, handover or region move that writes the Saltern back (R137, R215, R219). -/
structure WbJob where
  /-- Work id of the CHECKPOINT or HANDOVER, or of the command a region move completes. -/
  work : Nat
  /-- 1 and 2: the phases of R137; 3: phase 2 has ended, the statement is not yet written. -/
  phase : Nat
  /-- Passes of phase 1 made. -/
  passes : Nat
  /-- HOLD flag of the CHECKPOINT. -/
  hold : Bool
  /-- Cut LSEQ and heads at the cut, once taken. -/
  cut : Nat
  heads : List Bytes
  grain : Nat
  /-- Its statement is not to be written (slice reset in phase 2, R294). -/
  mute : Bool
  /-- The root node at the end of phase 2, empty before, and the grain of that end. -/
  root : Bytes
  ended : Nat
deriving DecidableEq, Repr

/-- A seal that has been formed and whose statement is not yet written (R202-R206). -/
structure Seal where
  no : Nat
  lseq : Nat
  grain : Nat
  cause : Nat
  prev : Bytes
  digest : Bytes
  heads : List Bytes
  /-- Where its statement goes: SEAL_BASE and SEAL_LOG2 as they stood when it was formed (R219). -/
  addr : Nat
  /-- Records between the seal before it and this one (R202). -/
  since : Nat
  /-- To be signed: formed by a command, or the newest (R205). -/
  sign : Bool
  /-- SEAL commands that wait for it. -/
  works : List Nat
deriving DecidableEq, Repr

/-- A book with its registers, chain state and journal state (R99-R105, R144, R193-R219). -/
structure Book where
  /-- BOOK_STATUS.STATE | 3 | 04_tallies_and_store.md R101 | 0x0 (NONE) -/
  st : BookState
  /-- PRIOR: the state before a life-cycle change released the book | 3 | 17_tamper_and_lifecycle.md R510 | 0x0 (NONE) -/
  prior : BookState
  /-- BOOK_STATUS.BUSY with its command | 1 | 04_tallies_and_store.md R103 | 0 -/
  cmd : Option BookCmd
  /-- The command has been examined and accepted | 1 | 04_tallies_and_store.md R103 | 0 -/
  accepted : Bool
  /-- BOOK_STATUS.CMD_ERR | 4 | 04_tallies_and_store.md R103 | 0x0 -/
  cmdErr : Nat
  /-- BOOK_STATUS.HOLD, with the grain at which the hold began | 1 | 04_tallies_and_store.md R139 | 0 -/
  hold : Option Nat
  /-- BOOK_STATUS.HOLD_EXPIRED | 1 | 04_tallies_and_store.md R139 | 0 -/
  holdExpired : Bool
  /-- BOOK_STATUS.WB_ACCESS | 1 | 04_tallies_and_store.md R135 | 0 -/
  wbAccess : Bool
  /-- BOOK_CFG.STRANDS | 7 | 04_tallies_and_store.md R144 | 0x01 -/
  strands : Nat
  /-- BOOK_CFG.KEY_SLOT | 14 | 04_tallies_and_store.md R144 | 0x0000 -/
  keySlot : Nat
  /-- BOOK_SALT_BASE.BASE, as an address | 64 (bits 63:8) | 04_tallies_and_store.md R144 | 0 -/
  saltBase : Nat
  /-- BOOK_CAP.BLOCKS | 31 | 04_tallies_and_store.md R144 | 0 -/
  cap : Nat
  /-- BOOK_UID.UID | 64 | 04_tallies_and_store.md R100 | 0 -/
  uid : Nat
  /-- BOOK_INCARN.INCARNATION | 32 | 04_tallies_and_store.md R100 | 0 -/
  incarn : Nat
  /-- BOOK_LSEQ.LSEQ: last committed LSEQ | 64 | 05_postings.md R165 | 0 -/
  lseq : Nat
  /-- Root node, versions | 8 x 64 | 04_tallies_and_store.md R124 | all zeros -/
  rootVer : List Nat
  /-- Root node, MACs | 8 x 64 | 04_tallies_and_store.md R124 | all zeros -/
  rootMac : List Bytes
  /-- Working strand heads: every folded record (R194) | STRANDS x 256 | 06_journal.md R194 | none -/
  heads : List Bytes
  /-- Strand heads before the first staged record (R239) | STRANDS x 256 | 07_faults_and_order.md R239 | none -/
  headsIssued : List Bytes
  /-- JRNL_TARGET.VALUE: saved LSEQ that replay must reach | 64 | 06_journal.md R218 | 0 -/
  target : Nat
  /-- Saved strand heads at the target (R105, R136) | STRANDS x 256 | 04_tallies_and_store.md R105 | none -/
  savedHeads : List Bytes
  /-- JRNL_REPLAYED.VALUE | 64 | 06_journal.md R218 | 0 -/
  replayed : Nat
  /-- CHECKPOINT_RESTORE has set the replay start | 1 | 04_tallies_and_store.md R142 | 0 -/
  restored : Bool
  /-- The book keys K_ENC, K_TWK, K_MAC and K_JRN are held (R127, R196) | 1 | 04_tallies_and_store.md R127 | 0 -/
  keysHeld : Bool
  /-- The masks of the four keys below, which stand as key XOR mask (R388) | 1,024 | 13_keys.md R388 | none -/
  keyMask : Bytes
  /-- K_ENC, masked | 256 | 04_tallies_and_store.md R127 | none -/
  kEnc : Bytes
  /-- K_TWK, masked | 256 | 04_tallies_and_store.md R127 | none -/
  kTwk : Bytes
  /-- K_MAC, masked | 256 | 04_tallies_and_store.md R127 | none -/
  kMac : Bytes
  /-- K_JRN, masked | 256 | 06_journal.md R196 | none -/
  kJrn : Bytes
  /-- JRNL_BASE.BASE, as an address | 64 (bits 63:12) | 06_journal.md R218 | 0 -/
  jBase : Nat
  /-- JRNL_CFG.SIZE_LOG2 | 6 | 06_journal.md R218 | 0x10 -/
  jSize : Nat
  /-- JRNL_CFG.FULL_WAIT | 4 | 06_journal.md R218 | 0x1 -/
  fullWait : Nat
  /-- JRNL_CFG.SEAL_LOG2 | 4 | 06_journal.md R218 | 0x8 -/
  sealLog2 : Nat
  /-- JRNL_CFG.ADJ_RESERVE | 8 | 06_journal.md R218 | 0x20 -/
  adjReserve : Nat
  /-- SEAL_BASE.BASE, as an address | 64 (bits 63:12) | 06_journal.md R218 | 0 -/
  sealBase : Nat
  /-- The journal region was moved in RECOVERING (R219) | 1 | 06_journal.md R219 | 0 -/
  moved : Bool
  /-- JRNL_STATUS.FULL_SEEN | 1 | 06_journal.md R218 | 0 -/
  fullSeen : Bool
  /-- JRNL_STATUS.WR_ACCESS | 1 | 06_journal.md R201 | 0 -/
  wrAccess : Bool
  /-- The journal is stalled since this grain by a refused frame write | 64 | 06_journal.md R201 | none -/
  jStall : Option Nat
  /-- JRNL_STATUS.SEAL_ACCESS | 1 | 06_journal.md R206 | 0 -/
  sealAccess : Bool
  /-- JRNL_STATUS.CFG_BAD | 1 | 06_journal.md R201 | 0 -/
  cfgBad : Bool
  /-- The pending adoption nonce (JRNL_STATUS.NONCE) | 128 | 06_journal.md R214 | none -/
  nonce : Option Bytes
  /-- JRNL_WRITE.VALUE | 64 | 06_journal.md R197 | 0 -/
  jWrite : Nat
  /-- JRNL_ISSUED.VALUE | 64 | 06_journal.md R218 | 0 -/
  issued : Nat
  /-- JRNL_PERSISTED.VALUE | 64 | 05_postings.md R173 | 0 -/
  persisted : Nat
  /-- Drained LSEQ | 64 | 06_journal.md R198 | 0 -/
  drained : Nat
  /-- JRNL_WRITE up to which bytes are free for reuse (R198) | 64 | 06_journal.md R198 | 0 -/
  freeUpTo : Nat
  /-- End positions of issued, unreleased frames, oldest first: LSEQ and JRNL_WRITE behind it | model | 06_journal.md R198 | empty -/
  frameEnds : List (Nat × Nat)
  /-- Bytes reserved by admitted, not ended work (R199) | 64 | 06_journal.md R199 | 0 -/
  reserved : Nat
  /-- Staged records, oldest first (R226) | model | 07_faults_and_order.md R226 | empty -/
  staged : List Staged
  /-- JRNL_SEAL_NO.VALUE | 64 | 06_journal.md R202 | 0 -/
  sealNo : Nat
  /-- Digest of the last seal | 256 | 06_journal.md R203 | 32 zero bytes -/
  lastSeal : Bytes
  /-- Records committed since the last seal | 64 | 06_journal.md R202 | 0 -/
  sinceSeal : Nat
  /-- Grain of the last seal formed | model | 06_journal.md R202 | none -/
  sealAt : Option Nat
  /-- Seals formed and not yet written | model | 06_journal.md R206 | none -/
  seals : List Seal
  /-- Checkpoint, handover or region-move write-back in progress (CKPT) | 1 | 04_tallies_and_store.md R137 | none -/
  wb : Option WbJob
  /-- A HANDOVER has been accepted: later work of the book is answered with STATE (R215) | model | 06_journal.md R215 | none -/
  handover : Option Nat
deriving DecidableEq, Repr

def Book.reset : Book :=
  { st := .none_, prior := .none_, cmd := none, accepted := false, cmdErr := 0, hold := none, holdExpired := false, wbAccess := false,
    strands := 1, keySlot := 0, saltBase := 0, cap := 0, uid := 0, incarn := 0, lseq := 0,
    rootVer := List.replicate 8 0, rootMac := List.replicate 8 (List.replicate 8 0), heads := [], headsIssued := [],
    target := 0, savedHeads := [], replayed := 0, restored := false, keysHeld := false, keyMask := [], kEnc := [], kTwk := [],
    kMac := [], kJrn := [], jBase := 0, jSize := 0x10, fullWait := 1, sealLog2 := 8, adjReserve := 0x20,
    sealBase := 0, moved := false, fullSeen := false, wrAccess := false, jStall := none, sealAccess := false,
    cfgBad := false, nonce := none, jWrite := 0, issued := 0, persisted := 0, drained := 0, freeUpTo := 0,
    frameEnds := [], reserved := 0, staged := [], sealNo := 0, lastSeal := List.replicate 32 0, sinceSeal := 0,
    sealAt := none, seals := [], wb := none, handover := none }

/-- What a brine entry does. -/
inductive EntryKind where
  | post | open_ | set | close
deriving DecidableEq, Repr

/-- One leg of a brine entry. -/
structure Leg where
  /-- Tally identifier | 64 | 05_postings.md R148 | - -/
  tid : Nat
  /-- Signed amount as received | 128 | 05_postings.md R148 | - -/
  amount : Image
  /-- Expected VERSION, 0 for no check | 48 | 05_postings.md R158 | - -/
  expect : Nat
  /-- The record computed in stage C (speculative until commit, R167). -/
  new : Tally
  /-- Fetched or linked in stage F (R162, R163). -/
  got : Bool := false
  /-- The entry whose computed record it took (R166). -/
  dep : Option (Nat × Bool) := none
deriving DecidableEq, Repr

/-- Stages of R161 of an entry in the window. -/
inductive Stage where
  | fetch | compute | rules | commit
deriving DecidableEq, Repr

/-- An entry of the brine window (R159-R169). -/
structure Entry where
  /-- Serial number of the model; names an entry of a service call. -/
  serial : Nat
  /-- Work id of its descriptor, or the core of a service call. -/
  src : Nat
  /-- Submitted by an applet: `src` is the core (R177). -/
  applet : Bool
  slice : Nat
  book : Nat
  gen : Nat
  kind : EntryKind
  legs : List Leg
  /-- New ATTR, FLOOR and CEILING of tally administration. -/
  attr : BitVec 16
  floor : Image
  ceiling : Image
  adj : Bool
  rcpt : Bool
  dflag : Bool
  session : Nat
  /-- Session key, receipt key (empty when none) and attribute word as taken at admission (R161, R399). -/
  skey : Bytes
  rkey : Bytes
  rights : BitVec 32
  /-- Descriptor bytes that the MAC covers, and the MAC; for an applet no MAC is checked (R177). -/
  body : Bytes
  mac : Bytes
  ring : Nat
  /-- Posting digest (R191). -/
  digest : Bytes
  /-- Receipt destination: a host address, or for a service call one of the core's mailbox. -/
  rcptAddr : Nat
  /-- Window epoch under which check 6 passed (R306). -/
  rcptEpoch : Option Nat
  /-- Grain of admission. -/
  admitted : Nat
  /-- Grains of stage V still to run (R161). -/
  vLeft : Nat
  /-- Result of checks 4 to 6, once V has ended: `none` inside when all pass. -/
  vRes : Option (Option (Nat × Status))
  stage : Stage
  /-- A redo has been made (R223). -/
  redone : Bool
  /-- Bytes reserved in the journal region (R199). -/
  reserved : Nat
  /-- The verdict of checks 7 to 14: check, leg, status. -/
  verdict : Option (Nat × Nat × Status)
  /-- An event that would end it reached it in its commit grain: its commit stands (R238). -/
  stands : Bool
deriving DecidableEq, Repr

/-- What names an entry: the work of its descriptor, or the serial of an entry of a service call. -/
def Entry.key (e : Entry) : Nat × Bool := (if e.applet then e.serial else e.src, e.applet)

/-- All legs have fetched or linked. -/
def Entry.fetched (e : Entry) : Bool := e.legs.all Leg.got

/-- The entries whose records this entry consumed (R166). -/
def Entry.deps (e : Entry) : List (Nat × Bool) := e.legs.filterMap Leg.dep

/-- The brine window and its registers (R186). -/
structure Brine where
  /-- Entries in admission order | 1,024 | 05_postings.md R159 | empty -/
  entries : List Entry
  /-- BRINE_STATUS.PEAK | 11 | 05_postings.md R186 | 0x000 -/
  peak : Nat
  /-- POST_COMMITS.COUNT | 32 | 05_postings.md R186 | 0 -/
  commits : Ctr
  /-- POST_REFUSED.COUNT | 32 | 05_postings.md R186 | 0 -/
  refused : Ctr
  /-- POST_REEXEC.COUNT | 32 | 05_postings.md R186 | 0 -/
  reexec : Ctr
  /-- POST_HELD.COUNT | 32 | 05_postings.md R186 | 0 -/
  held : Ctr
  /-- BOOK_SEL.BOOK | 10 | 04_tallies_and_store.md R144 | 0x000 -/
  bookSel : Nat
  /-- Device-wide incarnation counter of HEADS | 32 | 04_tallies_and_store.md R100 | 0 (R606) -/
  incarnCtr : Nat
deriving DecidableEq, Repr

def Brine.reset : Brine :=
  { entries := [], peak := 0, commits := 0, refused := 0, reexec := 0, held := 0, bookSel := 0, incarnCtr := 0 }

end Sys2Proof.Machine
end

