-- ==== Sys2Proof/Machine/StNv.lean ====
section
/-! DEFINITION. The state of the non-volatile store: pages, write buffer, USER partitions, monotonic counters, records
of HEADS. A field's docstring reads: what it is | width | rule | reset value. -/

namespace Sys2Proof.Machine
open Sys2Proof

/-- A physical page: its header codeword and its 16 data codewords (R465, R466). -/
structure NvPage where
  /-- PART | 8 | 16_nonvolatile_store.md R466 | 0x00 (free) for a page that holds no record -/
  part : Nat
  /-- KIND | 8 | 16_nonvolatile_store.md R466 | 0 -/
  kind : Nat
  /-- LPAGE | 16 | 16_nonvolatile_store.md R466 | 0 -/
  lpage : Nat
  /-- SEQ | 32 | 16_nonvolatile_store.md R466 | 0 -/
  seq : Nat
  /-- WEAR | 32 | 16_nonvolatile_store.md R466 | DESIGN CHOICE 0 (log entry 7) -/
  wear : Nat
  /-- INDEX | 8 | 16_nonvolatile_store.md R466 | 0 -/
  index : Nat
  /-- PAGES | 8 | 16_nonvolatile_store.md R466 | 0 -/
  pages : Nat
  /-- COMMIT is 0xA5, not 0x00 | 8 | 16_nonvolatile_store.md R466 | 0x00 -/
  commit : Bool
  /-- The 256 data bytes | 2,048 | 16_nonvolatile_store.md R465 | zero -/
  data : Bytes
  /-- Uncorrectable codewords: 0 to 15 data, 16 the header | 17 | 16_nonvolatile_store.md R467 | none -/
  badCw : List Nat
deriving DecidableEq, Repr

/-- A page that holds no record. -/
def NvPage.blank : NvPage :=
  { part := 0, kind := 0, lpage := 0, seq := 0, wear := 0, index := 0, pages := 0, commit := false,
    data := List.replicate 256 0, badCw := [] }

/-! The array as shipped (R468, R482, R488, R606): log entry 77. -/

/-- Records of SYSTEM that stand in it: logical page, first physical page, number of pages. -/
def shippedRecords : List (Nat × Nat × Nat) := [(4, 0, 14), (6, 14, 8), (0, 22, 1), (3, 23, 5), (2, 28, 1)]

/-- Pages of the counters, and of their owner table behind them. -/
def counterPages : Nat := 1024
def ownerPages : Nat := 32

/-- The page maps as shipped, by partition × 2^20 + logical page. -/
def shippedMap (key : Nat) : List Nat :=
  let part := key / 2 ^ 20
  let l := key % 2 ^ 20
  if part = 1 then
    match shippedRecords.find? (fun r => r.1 == l) with
    | some (_, first, n) => (List.range n).map (first + ·)
    | none => []
  else if part = 3 ∧ l < counterPages then [16384 + l]
  else if part = 3 ∧ l = counterPages then (List.range ownerPages).map (16384 + counterPages + ·)
  else []

/-- What a record's page holds as shipped, where the spec states it: the helper data, the certificate, the four counters of a
page, and no owner. -/
def shippedData (part lpage index : Nat) : Bytes :=
  let cut (b : Bytes) : Bytes := (List.range 256).map (fun i => b.getD (256 * index + i) 0)
  if part = 1 then
    (if lpage = 4 then cut Config.helper else if lpage = 6 then cut Config.cert
     else (List.range 256).map (Config.recordByte (part * 2 ^ 20 + lpage) (256 * index)))
  else if lpage = counterPages then List.replicate 256 0xFF
  else
    let word (n epoch : Nat) : Bytes :=
      List.replicate 8 0 ++ [BitVec.ofNat 8 epoch, 0, 0, 0, BitVec.ofNat 8 n, BitVec.ofNat 8 (n / 256), 0, 0]
    ((List.range 4).map (fun k => let n := 4 * lpage + k; word n 1 ++ word n 0 ++ word n 0 ++ word n 0)).flatten

/-- A physical page as shipped. -/
def NvPage.shipped (p : Nat) : NvPage :=
  let page (part lpage kind index pages : Nat) : NvPage :=
    { part := part, kind := kind, lpage := lpage, seq := 1, wear := 0, index := index, pages := pages, commit := true,
      data := shippedData part lpage index, badCw := [] }
  if p < 4096 then
    match shippedRecords.find? (fun r => decide (r.2.1 ≤ p) && decide (p < r.2.1 + r.2.2)) with
    | some (l, first, n) => page 1 l (if n = 1 then 1 else 2) (p - first) n
    | none => NvPage.blank
  else if 16384 ≤ p ∧ p < 16384 + counterPages then page 3 (p - 16384) 3 0 1
  else if 16384 + counterPages ≤ p ∧ p < 16384 + counterPages + ownerPages then
    page 3 counterPages 2 (p - 16384 - counterPages) ownerPages
  else NvPage.blank

/-- What a record holds besides its bytes: the fields of the state that stand for it, as its commit changes them. -/
inductive RecImage where
  /-- A page of a USER partition: its bytes are all there is. -/
  | user
  /-- USES of a slot as recorded (R386). -/
  | uses (target index n : Nat)
  /-- Material as stored (R384). -/
  | material (target index : Nat) (stored : Bytes)
  /-- A descriptor: the new contents of the slot (R407). -/
  | slot (target index : Nat) (k : Slot)
  /-- An authority entry (R403). -/
  | auth (index : Nat) (a : Authority)
  /-- A family counter (R402). -/
  | family (f n : Nat)
  /-- An allow-list entry (R356). -/
  | allow (index : Nat) (a : Allow)
  /-- The passwords of a USER partition (R494). -/
  | passwords (part : Nat) (read write : Bytes)
deriving DecidableEq, Repr

/-- A descriptor that waits for a commit: its result when the page is committed, and when the store has no spare. -/
structure CommitWait where
  work : Nat
  /-- A service call of this core waits, in the invocation of the descriptor (R480) -/
  core : Option Nat
  /-- The page is the last that it waits for. -/
  last : Bool
  ok : Bytes
  fail : Bytes
deriving DecidableEq, Repr

/-- An entry of the write buffer (R475): one page with its new contents. -/
structure WbEntry where
  /-- Record: partition × 2^20 + logical page, KIND, INDEX and PAGES of its header (R466) -/
  key : Nat
  kind : Nat
  index : Nat
  pages : Nat
  /-- The 256 bytes the page is to hold | 2,048 | 16_nonvolatile_store.md R475 | - -/
  data : Bytes
  /-- Codeword of the first byte written, where the write order begins (R469) -/
  first : Nat
  /-- What the record holds, which its commit puts in force -/
  img : List RecImage
  /-- Descriptors that wait for this page -/
  sync : List CommitWait
  /-- Entry frozen by a commit that has begun (R476) -/
  frozen : Bool
  /-- Codewords found uncorrectable in the buffer (R22) | 16 x 1 | 01_architecture.md R22 | none -/
  badCw : List Nat
deriving DecidableEq, Repr

/-- A USER partition (R490-R494). -/
structure UserPart where
  /-- NV_PART_CFG.EN | 1 | 16_nonvolatile_store.md R490 | 1 for partition 0, 0 for the others -/
  en : Bool
  /-- NV_PART_CFG.PAGES | 13 | 16_nonvolatile_store.md R496 | 4 for partition 0, DESIGN CHOICE 0 for the others (log entry 7) -/
  pages : Nat
  /-- NV_PART_CFG.SLICE | 10 | 16_nonvolatile_store.md R490 | DESIGN CHOICE 0 (log entry 7) -/
  slice : Nat
  /-- Read password, zero when none is set | 64 | 16_nonvolatile_store.md R494 | zero -/
  readPw : Bytes
  /-- Write password, zero when none is set | 64 | 16_nonvolatile_store.md R494 | zero -/
  writePw : Bytes
  /-- NV_PART_STATUS.FAILS | 4 | 16_nonvolatile_store.md R493 | 0x0 -/
  fails : Nat
  /-- NV_PART_STATUS.LOCKED | 1 | 16_nonvolatile_store.md R493 | 0 -/
  locked : Bool
  /-- NV_PART_STATUS.ERR | 4 | 16_nonvolatile_store.md R496 | 0x0 -/
  err : Nat
deriving DecidableEq, Repr

def UserPart.none_ : UserPart :=
  { en := false, pages := 0, slice := 0, readPw := List.replicate 8 0, writePw := List.replicate 8 0, fails := 0,
    locked := false, err := 0 }

/-- Partition 0, the TAG partition: always 4 pages, always enabled (R468). -/
def UserPart.tag : UserPart := { UserPart.none_ with en := true, pages := 4 }

/-- A counter codeword of R482: VALUE or CELLS, EPOCH, and whether it is correctable. -/
structure CntWord where
  /-- VALUE of a base codeword, CELLS of a bank codeword | 64 | 16_nonvolatile_store.md R482 | 0 -/
  v : Nat
  /-- EPOCH | 32 | 16_nonvolatile_store.md R482 | 1 for BASE_A, 0 for the others -/
  epoch : Nat
  /-- The codeword is correctable | 1 | 16_nonvolatile_store.md R483 | 1 -/
  ok : Bool
deriving DecidableEq, Repr

/-- A monotonic counter (R482-R488). -/
structure Counter where
  /-- CNT_VALUE: the volatile value | 64 | 16_nonvolatile_store.md R487 | 0 (R482) -/
  value : Nat
  /-- BASE_A | 128 | 16_nonvolatile_store.md R482 | VALUE 0, EPOCH 1 -/
  baseA : CntWord
  /-- BASE_B | 128 | 16_nonvolatile_store.md R482 | VALUE 0, EPOCH 0 -/
  baseB : CntWord
  /-- BANK_A | 128 | 16_nonvolatile_store.md R482 | zero -/
  bankA : CntWord
  /-- BANK_B | 128 | 16_nonvolatile_store.md R482 | zero -/
  bankB : CntWord
  /-- CNT_OWNER.SLICE | 16 | 16_nonvolatile_store.md R488 | 0xFFFF (R488) -/
  owner : Nat
deriving DecidableEq, Repr

/-- A counter as written on entry into ISSUED (R482, R488). -/
def Counter.issued : Counter :=
  { value := 0, baseA := { v := 0, epoch := 1, ok := true }, baseB := { v := 0, epoch := 0, ok := true },
    bankA := { v := 0, epoch := 0, ok := true }, bankB := { v := 0, epoch := 0, ok := true }, owner := 0xFFFF }

/-- The non-volatile store and its controller. -/
structure Nv where
  /-- The array, by physical page | 65,536 pages | 16_nonvolatile_store.md R465 | as shipped (log entry 77) -/
  pages : Table NvPage
  /-- The page maps: physical pages of the current copy of each record, in the order of INDEX, by partition × 2^20 + logical
  page | model | 16_nonvolatile_store.md R479 | as shipped (log entry 77) -/
  maps : Table (List Nat)
  /-- Retired physical pages | 65,536 x 1 | 16_nonvolatile_store.md R495 | none -/
  retired : List Nat
  /-- NV_STATUS.WORN | 1 | 16_nonvolatile_store.md R495 | 0 -/
  worn : Bool
  /-- The write buffer, in the order of first occupation | 64 entries | 16_nonvolatile_store.md R475 | empty -/
  wbuf : List WbEntry
  /-- Page writes that found the buffer full, oldest first | model | 16_nonvolatile_store.md R475 | none -/
  behind : List WbEntry
  /-- Grain of the last write to the buffer | 64 | 16_nonvolatile_store.md R475 | 0 -/
  lastWrite : Nat
  /-- NV_COMMIT descriptors that wait for the commit, by work id, with the pages it still has to write | model | 16_nonvolatile_store.md R492 | none -/
  commitWaits : List (Nat × Nat)
  /-- USER partitions | 64 | 16_nonvolatile_store.md R490 | partition 0 as R468, the others disabled -/
  parts : Table UserPart
  /-- Monotonic counters | 4,096 | 16_nonvolatile_store.md R482 | R482 -/
  counters : Table Counter
  /-- Counters whose periodic store is due (R487) with the grain at which the mark was reached | model | 16_nonvolatile_store.md R487 | none -/
  storeDue : List (Nat × Nat)
  /-- NV_STATUS.WT: write-through active, with the write-through mark of HEADS | 1 | 16_nonvolatile_store.md R480 | 0 -/
  wt : Bool
  /-- The write-through mark in HEADS | 1 | 16_nonvolatile_store.md R480 | 0 -/
  wtMark : Bool
  /-- NV_STATUS.FLUSH_LOST | 1 | 16_nonvolatile_store.md R479 | 0 -/
  flushLost : Bool
  /-- The running mark: an empty saved-state record is the current one | 1 | 16_nonvolatile_store.md R479 | 0 -/
  running : Bool
  /-- The saved-state record of HEADS: the books at JRNL_ISSUED | 1,024 books | 16_nonvolatile_store.md R478 | empty -/
  saved : Table Book
  /-- Book records of HEADS written at CREATE, DELETE, ADOPT and state changes | 1,024 books | 16_nonvolatile_store.md R477 | none (R606) -/
  bookRecs : Table Book
  /-- The HTM_GRAIN record of HEADS | 64 | 00_scope.md R13 | DESIGN CHOICE 0 (log entry 7) -/
  grainRec : Nat
  /-- HTM_GRAIN as last saved by a flush | 64 | 16_nonvolatile_store.md R478 | DESIGN CHOICE 0 (log entry 7) -/
  grainSaved : Option Nat
  /-- Next physical page of the scrub pass | 16 | 16_nonvolatile_store.md R495 | 0 -/
  scrubPos : Nat
  /-- Failure count of partition 0 kept while main power is absent | 4 | 18_contactless.md R543 | 0 -/
  tagFails : Nat
  /-- NV_PART_SEL.PART | 6 | 16_nonvolatile_store.md R496 | 0x00 -/
  partSel : Nat
  /-- CNT_SEL.COUNTER | 12 | 16_nonvolatile_store.md R496 | 0x000 -/
  cntSel : Nat
  /-- NV_CORRECTED.COUNT | 32 | 16_nonvolatile_store.md R496 | 0x0000_0000 -/
  corrected : Ctr
  /-- NV_UNCORR.COUNT | 32 | 16_nonvolatile_store.md R496 | 0x0000_0000 -/
  uncorr : Ctr
  /-- NV_TORN.COUNT | 32 | 16_nonvolatile_store.md R496 | 0x0000_0000 -/
  torn : Ctr
deriving DecidableEq, Repr

def Nv.reset : Nv :=
  { pages := [], maps := [], retired := [], worn := false, wbuf := [], behind := [], lastWrite := 0, commitWaits := [],
    parts := [(0, UserPart.tag)], counters := [], storeDue := [], wt := false, wtMark := false,
    flushLost := false, running := false, saved := [], bookRecs := [], grainRec := 0, grainSaved := none, scrubPos := 0,
    tagFails := 0, partSel := 0, cntSel := 0, corrected := 0, uncorr := 0, torn := 0 }

end Sys2Proof.Machine
end

