-- ==== Sys2Proof/Machine/StHost.lean ====
section
/-! DEFINITION. The state of the host interface: submission and completion rings, slices, windows, master MPUs,
MSI-X, configuration space, the protocol and tamper logs. A field's docstring reads: what it is | width | rule |
reset value. -/

namespace Sys2Proof.Machine
open Sys2Proof

/-- A submission ring (R261-R274, R237). -/
structure Sq where
  /-- RING_BASE.BASE, as an address | 64 (bits 63:12) | 08_rings_and_doorbells.md R273 | 0 -/
  base : Nat
  /-- RING_CFG.SIZE_LOG2 | 5 | 08_rings_and_doorbells.md R273 | 0x06 -/
  sizeLog2 : Nat
  /-- RING_CFG.ENABLE | 1 | 08_rings_and_doorbells.md R272 | 0 -/
  enabled : Bool
  /-- RING_CFG.BUSY | 1 | 08_rings_and_doorbells.md R272 | 0 -/
  busy : Bool
  /-- RING_CFG.ERR | 4 | 08_rings_and_doorbells.md R272 | 0x0 -/
  err : Nat
  /-- RING_CFG.SLICE | 10 | 08_rings_and_doorbells.md R273 | 0x000 -/
  slice : Nat
  /-- RING_BIND.CQ | 16 | 08_rings_and_doorbells.md R273 | 0x0000 -/
  cq : Nat
  /-- RING_BIND.VECTOR | 11 | 08_rings_and_doorbells.md R273 | 0x000 -/
  vector : Nat
  /-- RING_BIND.NOINT | 1 | 08_rings_and_doorbells.md R273 | 1 -/
  noint : Bool
  /-- RING_MOD.COUNT | 8 | 08_rings_and_doorbells.md R271 | 0x01 -/
  modCount : Nat
  /-- RING_MOD.TIME | 16 | 08_rings_and_doorbells.md R271 | 0x0000 -/
  modTime : Nat
  /-- RING_RCPT.RCPT_EN | 1 | 08_rings_and_doorbells.md R273 | 0 -/
  rcptEn : Bool
  /-- RING_RCPT.BASE, as an address | 64 (bits 63:12) | 08_rings_and_doorbells.md R273 | 0 -/
  rcptBase : Nat
  /-- RING_PTR.TAIL: tail of the last accepted doorbell | 16 | 08_rings_and_doorbells.md R273 | 0x0000 -/
  tail : Nat
  /-- RING_STATUS.FETCH: next slot to be fetched | 16 | 08_rings_and_doorbells.md R261 | 0x0000 -/
  fetch : Nat
  /-- RING_PTR.DONE and RING_STATUS.DONE0: SQ_HEAD of the last completion issued | 16 | 08_rings_and_doorbells.md R273 | 0 -/
  done : Nat
  /-- RING_STATUS.HALTED | 1 | 08_rings_and_doorbells.md R263 | 0 -/
  halted : Bool
  /-- RING_STATUS.HALT_CAUSE | 3 | 08_rings_and_doorbells.md R273 | 0x0 -/
  haltCause : Nat
  /-- RING_STATUS.DB_STALE | 1 | 08_rings_and_doorbells.md R259 | 0 -/
  dbStale : Bool
  /-- RING_STATUS.DB_SIZE | 1 | 08_rings_and_doorbells.md R259 | 0 -/
  dbSize : Bool
  /-- RING_STATUS.DB_DISABLED | 1 | 08_rings_and_doorbells.md R259 | 0 -/
  dbDisabled : Bool
  /-- RING_STATUS.DB_RESERVED | 1 | 08_rings_and_doorbells.md R259 | 0 -/
  dbReserved : Bool
  /-- RING_FENCE.FENCED | 1 | 07_faults_and_order.md R237 | 0 -/
  fenced : Bool
  /-- RING_FENCE.CAUSE | 4 | 07_faults_and_order.md R233 | 0x0 -/
  fenceCause : Nat
  /-- RING_FENCE.HEAD; `none` until a first descriptor completes FENCED | 16 | 07_faults_and_order.md R237 | 0x0000 -/
  fenceHead : Option Nat
  /-- RING_FENCE_TAG.TAG | 32 | 07_faults_and_order.md R237 | 0x0000_0000 -/
  fenceTag : Nat
  /-- Slots the descriptor at the fetch index is known to need (R262), 0 when not known | 3 | 08_rings_and_doorbells.md R262 | 0 -/
  need : Nat
  /-- Moderation count since the ring's last message | 8 | 08_rings_and_doorbells.md R271 | 0 -/
  modSeen : Nat
  /-- Grain of the oldest completion counted | 64 | 08_rings_and_doorbells.md R271 | none -/
  modSince : Option Nat
  /-- Slot whose fetch was refused for an uncorrectable word and is read again (R227) | 16 | 07_faults_and_order.md R227 | none -/
  refetch : Option Nat
  /-- First slots of a descriptor whose last slots stand in a read in flight | 3 x 512 | 08_rings_and_doorbells.md R261 | empty -/
  carry : Bytes
deriving DecidableEq, Repr

def Sq.reset : Sq :=
  { base := 0, sizeLog2 := 6, enabled := false, busy := false, err := 0, slice := 0, cq := 0, vector := 0,
    noint := true, modCount := 1, modTime := 0, rcptEn := false, rcptBase := 0, tail := 0, fetch := 0, done := 0,
    halted := false, haltCause := 0, dbStale := false, dbSize := false, dbDisabled := false, dbReserved := false,
    fenced := false, fenceCause := 0, fenceHead := none, fenceTag := 0, need := 0, modSeen := 0, modSince := none,
    refetch := none, carry := [] }

/-- A completion ring (R269-R274). -/
structure Cq where
  /-- RING_BASE.BASE of a completion ring, as an address | 64 (bits 63:12) | 08_rings_and_doorbells.md R273 | 0 -/
  base : Nat
  /-- RING_CFG.SIZE_LOG2 of a completion ring | 5 | 08_rings_and_doorbells.md R273 | 0x06 -/
  sizeLog2 : Nat
  /-- RING_CFG.ENABLE of a completion ring | 1 | 08_rings_and_doorbells.md R272 | 0 -/
  enabled : Bool
  /-- RING_CFG.ERR of a completion ring | 4 | 08_rings_and_doorbells.md R272 | 0x0 -/
  err : Nat
  /-- RING_CFG.SLICE of a completion ring | 10 | 08_rings_and_doorbells.md R273 | 0x000 -/
  slice : Nat
  /-- RING_PTR.TAIL: index of the next entry to be written | 16 | 08_rings_and_doorbells.md R273 | 0x0000 -/
  widx : Nat
  /-- RING_PTR.PHASE: PHASE of the next entry | 1 | 08_rings_and_doorbells.md R269 | 0 -/
  phase : Bool
  /-- RING_STATUS.STALLED | 1 | 08_rings_and_doorbells.md R274 | 0 -/
  stalled : Bool
  /-- Grain of the last refused write, for the retry each pound | 64 | 08_rings_and_doorbells.md R274 | 0 -/
  stallAt : Nat
  /-- Submission ring whose write was refused | 16 | 08_rings_and_doorbells.md R274 | 0 -/
  stallRing : Nat
deriving DecidableEq, Repr

def Cq.reset : Cq :=
  { base := 0, sizeLog2 := 6, enabled := false, err := 0, slice := 0, widx := 0, phase := false, stalled := false,
    stallAt := 0, stallRing := 0 }

/-- A window entry, staged or live (R308, R309). -/
structure Window where
  /-- WIN_CTL.EN | 1 | 10_access_control.md R324 | 0 -/
  en : Bool
  /-- WIN_CTL.R | 1 | 10_access_control.md R324 | 0 -/
  r : Bool
  /-- WIN_CTL.W | 1 | 10_access_control.md R324 | 0 -/
  w : Bool
  /-- WIN_BASE.PAGE, page number | 52 | 10_access_control.md R324 | 0 -/
  base : Nat
  /-- WIN_LIMIT.PAGE, page number of the last page | 52 | 10_access_control.md R324 | 0 -/
  limit : Nat
deriving DecidableEq, Repr

def Window.reset : Window := { en := false, r := false, w := false, base := 0, limit := 0 }

/-- SLICE_STATUS.STATE (R281). -/
inductive SliceState where
  | free | active | quiescing | resetting
deriving DecidableEq, Repr

/-- A slice: its slice-table entry (R278), its windows, its dirty-page log, its class-0 tokens. -/
structure Slice where
  /-- SLICE_STATUS.STATE | 2 | 09_slices.md R281 | 0 (FREE) -/
  st : SliceState
  /-- The reset under way ends in FREE, not in ACTIVE | 1 | 09_slices.md R293 | 0 -/
  removing : Bool
  /-- After step 6 of R291 of a REMOVE: only old accesses are still to retire | 1 | 09_slices.md R293 | 0 -/
  retiring : Bool
  /-- SLICE_STATUS.ERR | 4 | 09_slices.md R284 | 0x0 -/
  err : Nat
  /-- SLICE_STATUS.GEN | 8 | 09_slices.md R287 | 0x00 -/
  gen : Nat
  /-- SLICE_STATUS.QREF | 1 | 09_slices.md R285 | 0 -/
  qref : Bool
  /-- SLICE_PASID.PASID | 20 | 09_slices.md R279 | 0x0_0000 -/
  pasid : Nat
  /-- SLICE_SQ_QUOTA.RINGS | 17 | 09_slices.md R285 | 0 -/
  sqQuota : Nat
  /-- SLICE_CQ_QUOTA.RINGS | 17 | 09_slices.md R285 | 0 -/
  cqQuota : Nat
  /-- SLICE_PAN_QUOTA.LINES | 19 | 09_slices.md R285 | 0 -/
  panQuota : Nat
  /-- SLICE_SESS_QUOTA.SESSIONS | 14 | 09_slices.md R285 | 0 -/
  sessQuota : Nat
  /-- SLICE_TOK_QUOTA.TOKENS: the quota written | 8 | 09_slices.md R278 | 0x00 -/
  tokQuota : Nat
  /-- SCHED_TOKENS.QUOTA: the token quota in force | 8 | 02_grain_and_classes.md R57 | 0x00 -/
  tokForce : Nat
  /-- SCHED_TOKENS.LEFT | 8 | 02_grain_and_classes.md R57 | 0x00 -/
  tokLeft : Nat
  /-- SLICE_LIMITS.STRANDS | 7 | 09_slices.md R285 | 0x00 -/
  strandQuota : Nat
  /-- SLICE_LIMITS.CORES | 6 | 09_slices.md R285 | 0x00 -/
  coreQuota : Nat
  /-- SLICE_DROPPED.COUNT | 32 | 09_slices.md R289 | 0 -/
  dropped : Ctr
  /-- SCHED_LATE_TOKEN.COUNT | 32 | 02_grain_and_classes.md R63 | 0 -/
  lateToken : Ctr
  /-- SCHED_LATE_SIZE.COUNT | 32 | 02_grain_and_classes.md R63 | 0 -/
  lateSize : Ctr
  /-- SCHED_LATE_RESID.COUNT | 32 | 02_grain_and_classes.md R63 | 0 -/
  lateResid : Ctr
  /-- SCHED_LATE_HOLD.COUNT | 32 | 02_grain_and_classes.md R63 | 0 -/
  lateHold : Ctr
  /-- SCHED_LATE_REDO.COUNT | 32 | 02_grain_and_classes.md R63 | 0 -/
  lateRedo : Ctr
  /-- SCHED_LATE_RESET.COUNT | 32 | 02_grain_and_classes.md R63 | 0 -/
  lateReset : Ctr
  /-- DPL_BASE.EN | 1 | 09_slices.md R301 | 0 -/
  dplEn : Bool
  /-- The log is written: from the enabling write to the boundary after EN is cleared | model | 09_slices.md R301 | 0 -/
  dplOn : Bool
  /-- The base that the log in use was enabled with | 64 (bits 63:12) | 09_slices.md R301 | 0 -/
  dplRing : Nat
  /-- DPL_BASE.BASE, as an address | 64 (bits 63:12) | 09_slices.md R278 | 0 -/
  dplBase : Nat
  /-- DPL_STATUS.WRITE | 16 | 09_slices.md R278 | 0x0000 -/
  dplWrite : Nat
  /-- DPL_STATUS.OVF | 1 | 09_slices.md R302 | 0 -/
  dplOvf : Bool
  /-- DPL_STATUS.PHASE | 1 | 09_slices.md R299 | 0 -/
  dplPhase : Bool
  /-- DPL_STATUS.ACCESS | 1 | 09_slices.md R301 | 0 -/
  dplAccess : Bool
  /-- DPL_READ.READ | 16 | 09_slices.md R300 | 0x0000 -/
  dplRead : Nat
  /-- The last 64 distinct pages logged, latest first | 64 x 52 | 09_slices.md R300 | empty -/
  dplFilter : List Nat
  /-- Log entries that wait while the MPU of their master is disabled, as SOURCE and page, oldest first | model | 10_access_control.md R317 | none -/
  dplHeld : List (Nat × Nat)
  /-- The 32 staged windows (R309) | 32 entries | 10_access_control.md R309 | all zero -/
  staged : Table Window
  /-- The 32 live windows (R309) | 32 entries | 10_access_control.md R309 | all zero -/
  live : Table Window
  /-- WIN_STATUS.BUSY | 1 | 10_access_control.md R310 | 0 -/
  winBusy : Bool
  /-- WIN_STATUS.ERR | 4 | 10_access_control.md R310 | 0x0 -/
  winErr : Nat
  /-- Count of barriers committed: the epoch an access is checked under | model | 10_access_control.md R306 | 0 -/
  winEpoch : Nat
  /-- WIN_VIOL.COUNT | 32 | 10_access_control.md R324 | 0 -/
  winViol : Ctr
deriving DecidableEq, Repr

def Slice.reset : Slice :=
  { st := .free, removing := false, retiring := false, err := 0, gen := 0, qref := false, pasid := 0, sqQuota := 0,
    cqQuota := 0, panQuota := 0, sessQuota := 0, tokQuota := 0, tokForce := 0, tokLeft := 0, strandQuota := 0,
    coreQuota := 0, dropped := 0, lateToken := 0, lateSize := 0, lateResid := 0, lateHold := 0, lateRedo := 0,
    lateReset := 0, dplEn := false, dplOn := false, dplRing := 0, dplBase := 0, dplWrite := 0, dplOvf := false, dplPhase := false,
    dplAccess := false, dplRead := 0, dplFilter := [], dplHeld := [], staged := [], live := [], winBusy := false, winErr := 0,
    winEpoch := 0, winViol := 0 }

/-- A region of a master MPU (R314, R315); addresses in 8-byte units. -/
structure Region where
  /-- MPU_START.ADDR, in 8-byte units | 61 | 10_access_control.md R325 | 0 -/
  start : Nat
  /-- MPU_END.ADDR, in 8-byte units, last unit | 61 | 10_access_control.md R325 | 0x1FFF_FFFF_FFFF_FFFF -/
  stop : Nat
  /-- MPU_ATTR.EN | 1 | 10_access_control.md R325 | 1 (region 0), 0 (others) -/
  en : Bool
  /-- MPU_ATTR.R | 1 | 10_access_control.md R325 | 1 (region 0), 0 (others) -/
  r : Bool
  /-- MPU_ATTR.W | 1 | 10_access_control.md R325 | 1 (region 0), 0 (others) -/
  w : Bool
  /-- MPU_ATTR.NS | 1 | 10_access_control.md R325 | 0 -/
  ns : Bool
  /-- MPU_ATTR.RO | 1 | 10_access_control.md R325 | 0 -/
  ro : Bool
  /-- MPU_ATTR.IDO | 1 | 10_access_control.md R325 | 0 -/
  ido : Bool
deriving DecidableEq, Repr

def Region.reset : Region :=
  { start := 0, stop := 0x1FFFFFFFFFFFFFFF, en := false, r := false, w := false, ns := false, ro := false,
    ido := false }

/-- Region 0 after power-up: the whole address space with R and W (R319). -/
def Region.all : Region := { Region.reset with en := true, r := true, w := true }

/-- The first violation since the capture was last cleared (R322). -/
structure Capture where
  /-- Failing part was a write | 1 | 10_access_control.md R322 | 0 -/
  write : Bool
  /-- NOWIN or NOREGION | 1 | 10_access_control.md R324 | 0 -/
  none_ : Bool
  /-- MPU_CAP_INFO.PRECISE | 1 | 10_access_control.md R325 | 0 -/
  precise : Bool
  /-- MPU_CAP_INFO.REGION | 4 | 10_access_control.md R325 | 0 -/
  region : Nat
  /-- Slice of the access | 10 | 10_access_control.md R322 | 0 -/
  slice : Nat
  /-- Master of the access, as its MPU | 6 | 10_access_control.md R322 | 0 -/
  master : Nat
  /-- First byte of the failing part | 64 | 10_access_control.md R324 | 0 -/
  addr : Nat
deriving DecidableEq, Repr

/-- A write waiting in an MPU's write buffer (R321). -/
structure BufWrite where
  slice : Nat
  /-- Work on whose behalf it was made; `none` when the work has ended. -/
  work : Option Nat
  addr : Nat
  kind : Traffic
  data : Bytes
deriving DecidableEq, Repr

/-- A master MPU (R313-R322). -/
structure Mpu where
  /-- MPU_CTL.EN | 1 | 10_access_control.md R316 | 1 for MPUs 32 to 43, 0 for the others -/
  en : Bool
  /-- MPU_CTL.BUFW as written | 1 | 10_access_control.md R321 | 0 -/
  bufw : Bool
  /-- BUFW in force since the last enable | 1 | 10_access_control.md R325 | 0 -/
  bufwLive : Bool
  /-- The 16 regions | 16 entries | 10_access_control.md R314 | R319 -/
  regions : Table Region
  /-- MPU_STATUS.ERR | 4 | 10_access_control.md R325 | 0x0 -/
  err : Nat
  /-- MPU_CAP_INFO and MPU_CAP_ADDR | 82 | 10_access_control.md R322 | not valid -/
  cap : Option Capture
  /-- MPU_VIOL.COUNT | 32 | 10_access_control.md R325 | 0 -/
  viol : Ctr
  /-- The 16-entry write buffer, oldest first | 16 entries | 10_access_control.md R321 | empty -/
  wbuf : List BufWrite
deriving DecidableEq, Repr

/-- MPUs 0 to 31 and 44 at power-up: disabled until firmware sets them (R319). -/
def Mpu.fw : Mpu :=
  { en := false, bufw := false, bufwLive := false, regions := [], err := 0, cap := none, viol := 0, wbuf := [] }

/-- MPUs 32 to 43 at power-up: region 0 covers the whole space with R and W (R319). -/
def Mpu.dma : Mpu := { Mpu.fw with en := true, regions := [(0, Region.all)] }

/-- An MSI-X table entry (R271, R277). -/
structure Vector where
  /-- Message address | 64 | 08_rings_and_doorbells.md R251 | 0 -/
  addr : Nat
  /-- Message data | 32 | 08_rings_and_doorbells.md R251 | 0 -/
  data : Nat
  /-- Vector control mask bit | 1 | 08_rings_and_doorbells.md R277 | 1 (masked) -/
  masked : Bool
  /-- PBA bit | 1 | 08_rings_and_doorbells.md R271 | 0 -/
  pending : Bool
deriving DecidableEq, Repr

def Vector.reset : Vector := { addr := 0, data := 0, masked := true, pending := false }

/-- PCI configuration space as far as a rule of the manual depends on it, and the link. -/
structure Link where
  /-- Bus Master Enable | 1 | 08_rings_and_doorbells.md R247 | DESIGN CHOICE 0 (log entry 12) -/
  bme : Bool
  /-- PASID Enable | 1 | 08_rings_and_doorbells.md R247 | DESIGN CHOICE 0 (log entry 12) -/
  pasidEn : Bool
  /-- Power state D3hot | 1 | 08_rings_and_doorbells.md R247 | DESIGN CHOICE 0 (D0) (log entry 12) -/
  d3hot : Bool
  /-- Device Control, Enable Relaxed Ordering | 1 | 08_rings_and_doorbells.md R245 | PRESUMED 1 (PCI Express base specification, log entry 12) -/
  roEn : Bool
  /-- Device Control, Enable No Snoop | 1 | 08_rings_and_doorbells.md R245 | PRESUMED 1 (PCI Express base specification, log entry 12) -/
  nsEn : Bool
  /-- Device Control 2, IDO Request Enable | 1 | 08_rings_and_doorbells.md R245 | PRESUMED 0 (PCI Express base specification, log entry 12) -/
  idoEn : Bool
  /-- Max_Payload_Size in bytes | 3 | 08_rings_and_doorbells.md R245 | PRESUMED 128 (PCI Express base specification, log entry 12) -/
  mps : Nat
  /-- Max_Read_Request_Size in bytes | 3 | 08_rings_and_doorbells.md R245 | PRESUMED 512 (PCI Express base specification, log entry 12) -/
  mrrs : Nat
  /-- 10-bit Tag Requester Enable | 1 | 08_rings_and_doorbells.md R245 | PRESUMED 0 (PCI Express base specification, log entry 12) -/
  tag10 : Bool
  /-- MSI-X Enable of Message Control | 1 | 08_rings_and_doorbells.md R252 | PRESUMED 0 (PCI Express base specification, log entry 12) -/
  msixEn : Bool
  /-- Function Mask of Message Control | 1 | 08_rings_and_doorbells.md R252 | PRESUMED 0 (PCI Express base specification, log entry 12) -/
  funcMask : Bool
  /-- Link trained to L0 | 1 | 19_power_and_startup.md R561 | 0 -/
  up : Bool
  /-- Link training has begun | 1 | 19_power_and_startup.md R562 | 0 -/
  training : Bool
  /-- A reset of R277 is in progress: CRS and Unsupported Request are answered | 1 | 08_rings_and_doorbells.md R277 | 0 -/
  resetting : Bool
  /-- AER status bits recorded (correctable, uncorrectable), by bit number | 64 | 20_errors_and_telemetry.md R582 | 0 -/
  aer : List Nat
deriving DecidableEq, Repr

def Link.reset : Link :=
  { bme := false, pasidEn := false, d3hot := false, roEn := true, nsEn := true, idoEn := false, mps := 128,
    mrrs := 512, tag10 := false, msixEn := false, funcMask := false, up := false, training := false, resetting := false, aer := [] }

/-- A register write that takes effect at the next grain boundary. -/
inductive Deferred where
  /-- SLICE_CTL.CMD (R282). -/
  | slice (slice cmd : Nat)
  /-- A quota register of a slice (R286). -/
  | quota (slice : Nat) (quota : QuotaReg) (value : Nat)
  /-- DPL_BASE.EN cleared (R301). -/
  | dplOff (slice : Nat)
  /-- RING_FENCE.UNFENCE (R237). -/
  | unfence (ring : Nat)
  /-- RING_BIND.VECTOR and NOINT (R272). -/
  | bind (ring vector : Nat) (noint : Bool)
  /-- RING_MOD (R272). -/
  | mod_ (ring count time : Nat)
  /-- WINDOW_BARRIER.GO (R310). -/
  | barrier (slice : Nat)
  /-- MPU_CTL.EN (R316). -/
  | mpu (mpu : Nat) (en : Bool)
  /-- JRNL_CFG.FULL_WAIT and ADJ_RESERVE (R219). -/
  | jrnl (book fullWait adjReserve : Nat)
  /-- CNT_OWNER (R488). -/
  | owner (counter slice : Nat)
  /-- NV_PART_CFG.SLICE (R490). -/
  | part (part slice : Nat)
  /-- The committed contents of a slot or of an authority entry (R407). -/
  | install (image : RecImage)
deriving DecidableEq, Repr

/-- Selectors and device-wide registers of the host interface and of access control. -/
structure HostRegs where
  /-- RING_SEL.RING | 16 | 08_rings_and_doorbells.md R273 | 0x0000 -/
  ringSel : Nat
  /-- RING_SEL.KIND | 1 | 08_rings_and_doorbells.md R273 | 0 -/
  ringKind : Bool
  /-- WIN_SEL.SLICE | 10 | 10_access_control.md R324 | 0x000 -/
  winSlice : Nat
  /-- WIN_SEL.WINDOW | 5 | 10_access_control.md R324 | 0x00 -/
  winIndex : Nat
  /-- WINDOW_BARRIER.SLICE | 10 | 10_access_control.md R324 | 0x000 -/
  barrierSlice : Nat
  /-- WIN_CAP_INFO and WIN_CAP_ADDR | 96 | 10_access_control.md R322 | not valid -/
  winCap : Option Capture
  /-- MPU_SEL.MPU | 6 | 10_access_control.md R325 | 0x00 -/
  mpuSel : Nat
  /-- MPU_SEL.REGION | 4 | 10_access_control.md R325 | 0x0 -/
  mpuRegion : Nat
  /-- Register writes that wait for the next grain boundary, oldest first | model | 09_slices.md R282 | none -/
  deferred : List Deferred
  /-- The ring from which the rotation of each of the four fetch engines goes on | 4 x 17 | 08_rings_and_doorbells.md R261 | DESIGN CHOICE 0 (log entry 7) -/
  fetchFrom : Table Nat
deriving DecidableEq, Repr

def HostRegs.reset : HostRegs :=
  { ringSel := 0, ringKind := false, winSlice := 0, winIndex := 0, barrierSlice := 0, winCap := none, mpuSel := 0,
    mpuRegion := 0, deferred := [], fetchFrom := [] }

/-- One log of R575 or R579: its entries as bytes, its counters, and the events of the current grain, which enter in
the order of R574 at the grain boundary. -/
structure Logs where
  /-- Protocol log entries, 32 bytes each, by index | 256 x 256 | 20_errors_and_telemetry.md R575 | empty (zero) -/
  plog : Table Bytes
  /-- PLOG_STATUS.WRITE | 8 | 20_errors_and_telemetry.md R590 | 0 -/
  plogWrite : Nat
  /-- PLOG_STATUS.WRAPPED | 1 | 20_errors_and_telemetry.md R590 | 0 -/
  plogWrap : Bool
  /-- PLOG_SEQ.NEXT | 32 | 20_errors_and_telemetry.md R577 | 0x0000_0001 -/
  plogSeq : Nat
  /-- PLOG_ACK.SEQ | 32 | 20_errors_and_telemetry.md R577 | 0x0000_0000 -/
  plogAck : Nat
  /-- PLOG_LOST.COUNT, saturating | 32 | 20_errors_and_telemetry.md R577 | 0 -/
  plogLost : Nat
  /-- Protocol events of this grain not yet entered | model | 20_errors_and_telemetry.md R574 | empty -/
  ppend : List PEvent
  /-- Tamper log entries, 32 bytes each, by index | 64 x 256 | 20_errors_and_telemetry.md R579 | empty (zero) -/
  tlog : Table Bytes
  /-- TLOG_STATUS.WRITE | 6 | 20_errors_and_telemetry.md R590 | 0 -/
  tlogWrite : Nat
  /-- TLOG_STATUS.WRAPPED | 1 | 20_errors_and_telemetry.md R590 | 0 -/
  tlogWrap : Bool
  /-- TLOG_SEQ.NEXT | 32 | 20_errors_and_telemetry.md R577 | 0x0000_0001 -/
  tlogSeq : Nat
  /-- TLOG_ACK.SEQ | 32 | 20_errors_and_telemetry.md R577 | 0x0000_0000 -/
  tlogAck : Nat
  /-- TLOG_LOST.COUNT, saturating | 32 | 20_errors_and_telemetry.md R577 | 0 -/
  tlogLost : Nat
  /-- Tamper events of this grain not yet entered | model | 20_errors_and_telemetry.md R574 | empty -/
  tpend : List TEvent
deriving DecidableEq, Repr

def Logs.reset : Logs :=
  { plog := [], plogWrite := 0, plogWrap := false, plogSeq := 1, plogAck := 0, plogLost := 0, ppend := [], tlog := [], tlogWrite := 0,
    tlogWrap := false, tlogSeq := 1, tlogAck := 0, tlogLost := 0, tpend := [] }

end Sys2Proof.Machine
end

