-- ==== Sys2Proof/Machine/StPower.lean ====
section
/-! DEFINITION. The state of the power monitor, the start-up, the power-down flush, telemetry and the sideband port. A
field's docstring reads: what it is | width | rule | reset value. -/

namespace Sys2Proof.Machine
open Sys2Proof

/-- Steps of a power-down flush that take time (R556). -/
inductive FlushStep where
  /-- Step 3. -/
  | drain
  /-- Step 4. -/
  | save
  /-- Step 5. -/
  | commit
deriving DecidableEq, Repr

/-- A power-down flush in progress (R554-R558). -/
structure Flush where
  /-- Grain of the declaration, T. -/
  since : Nat
  step : FlushStep
  /-- The drain stopped with frames staged (R557). -/
  cut : Bool
deriving DecidableEq, Repr

/-- Power, reset and start-up (R550-R569). -/
structure Power where
  /-- PWR_STATUS.MAIN_OK | 1 | 19_power_and_startup.md R569 | 1 -/
  mainOk : Bool
  /-- PWR_STATUS.PWR_FAIL: PWR_FAIL_N is low | 1 | 19_power_and_startup.md R569 | 0 -/
  pwrFail : Bool
  /-- PERST_N is asserted | 1 | 19_power_and_startup.md R560 | DESIGN CHOICE 1: power-on before the first deassertion (log entry 7) -/
  perst : Bool
  /-- PWR_STATUS.FLUSHED | 1 | 19_power_and_startup.md R569 | DESIGN CHOICE 0 before the scan of step 4 (log entry 7) -/
  flushed : Bool
  /-- The saved-state flag of the last flush, as stored | 1 | 16_nonvolatile_store.md R478 | DESIGN CHOICE 0 (log entry 7) -/
  flushFlag : Bool
  /-- PWR_STATUS.STEP | 4 | 19_power_and_startup.md R561 | 0 -/
  step : Nat
  /-- The start-up has begun at PERST_N deassertion | 1 | 19_power_and_startup.md R561 | 0 -/
  starting : Bool
  /-- PWR_STATUS.RESET_CAUSE | 3 | 19_power_and_startup.md R560 | 0 (power-on) -/
  resetCause : Nat
  /-- PWR_HOLD.MV as sampled | 16 | 19_power_and_startup.md R569 | DESIGN CHOICE 0 before the first sample (log entry 7) -/
  holdMv : Nat
  /-- PWR_HOLD.MIN_MV | 16 | 19_power_and_startup.md R569 | DESIGN CHOICE 0 before the first sample (log entry 7) -/
  holdMin : Nat
  /-- A read has cleared MIN_MV: the next sample sets it | model | 19_power_and_startup.md R569 | 1 -/
  holdFresh : Bool
  /-- HOLD at or above 9.5 V, as monitored every grain (PWR_STATUS.HOLD_OK, NV_STATUS.HOLD_OK) | 1 | 19_power_and_startup.md R552 | 0 -/
  holdOk : Bool
  /-- PWR_FLUSH.GRAINS | 24 | 19_power_and_startup.md R569 | DESIGN CHOICE 0 (log entry 7) -/
  flushGrains : Nat
  /-- PWR_FLUSH.DRAIN_CUT | 1 | 19_power_and_startup.md R569 | DESIGN CHOICE 0 (log entry 7) -/
  drainCut : Bool
  /-- PWR_START.GRAINS | 24 | 19_power_and_startup.md R569 | 0xFF_FFFF -/
  startGrains : Nat
  /-- The flush in progress | model | 19_power_and_startup.md R556 | none -/
  flush : Option Flush
deriving DecidableEq, Repr

def Power.reset : Power :=
  { mainOk := true, pwrFail := false, perst := true, flushed := false, flushFlag := false, step := 0, starting := false,
    resetCause := 0, holdMv := 0, holdMin := 0, holdFresh := true, holdOk := false, flushGrains := 0, drainCut := false,
    startGrains := 0xFFFFFF, flush := none }

/-- A temperature register value that does not exist (R586, R590). -/
def tjNone : BitVec 16 := 0x8000

/-- Telemetry and the error counters (R584, R590). -/
structure Telemetry where
  /-- TEL_TEMP.MAX | 16 | 20_errors_and_telemetry.md R590 | 0x8000 -/
  tMax : BitVec 16
  /-- TEL_TEMP.MIN | 16 | 20_errors_and_telemetry.md R590 | 0x8000 -/
  tMin : BitVec 16
  /-- TEL_TEMP_PEAK.HIGH | 16 | 20_errors_and_telemetry.md R590 | 0x8000 -/
  peakHigh : BitVec 16
  /-- TEL_TEMP_PEAK.LOW | 16 | 20_errors_and_telemetry.md R590 | 0x8000 -/
  peakLow : BitVec 16
  /-- TEL_POWER.NOW | 16 | 20_errors_and_telemetry.md R590 | 0x0000 -/
  power : Nat
  /-- TEL_POWER.PEAK | 16 | 20_errors_and_telemetry.md R590 | 0x0000 -/
  powerPeak : Nat
  /-- TEL_ENERGY.VALUE | 64 | 20_errors_and_telemetry.md R590 | 0 -/
  energy : Nat
  /-- TEL_STAMP.VALUE | 64 | 20_errors_and_telemetry.md R590 | 0 -/
  stamp : Nat
  /-- HOLD in mV of the last sample, for the sideband port | 16 | 20_errors_and_telemetry.md R586 | DESIGN CHOICE 0 before the first sample (log entry 7) -/
  hold : Nat
  /-- PEAK_CLR written: the next sample sets the peaks | model | 20_errors_and_telemetry.md R590 | 0 -/
  peakClr : Bool
  /-- TEL_TSENSk.TJ | 16 x 16 | 20_errors_and_telemetry.md R590 | 0x8000 -/
  tsens : List (BitVec 16)
  /-- ERR_CORRu.COUNT by unit code, saturating | 13 x 32 | 20_errors_and_telemetry.md R590 | 0x0000_0000 -/
  errCorr : Table Nat
  /-- ERR_UNCORRu.COUNT by unit code, saturating | 13 x 32 | 20_errors_and_telemetry.md R590 | 0x0000_0000 -/
  errUncorr : Table Nat
deriving DecidableEq, Repr

def Telemetry.reset : Telemetry :=
  { tMax := tjNone, tMin := tjNone, peakHigh := tjNone, peakLow := tjNone, power := 0, powerPeak := 0, energy := 0,
    stamp := 0, hold := 0, peakClr := false, tsens := List.replicate 16 tjNone, errCorr := [], errUncorr := [] }

end Sys2Proof.Machine
end

