-- ==== Sys2Proof/Machine/State.lean ====
section
/-! DEFINITION. The state of the SK9640, its faults and refusals, and the state after reset. -/

namespace Sys2Proof.Machine
open Sys2Proof

/-- The whole device. A table lists only the entries that differ from their reset value. -/
structure State where
  /-- Commands that wait, first in, first out | model | DESIGN CHOICE (log entry 2) | empty -/
  pending : List Instr
  /-- What has left the device, oldest first | model | DESIGN CHOICE (log entry 4) | empty -/
  out : List Out
  /-- Serial number of the next work or read | model | DESIGN CHOICE (log entry 2) | 0 -/
  nextId : Nat
  /-- Count of free values drawn | model | DESIGN CHOICE (log entry 6) | 0 -/
  draws : Nat
  /-- Descriptors in the device, in fetch order | model | 08_rings_and_doorbells.md R261 | none -/
  work : List Work
  /-- Host reads in flight, oldest first | model | 08_rings_and_doorbells.md R248 | none -/
  reads : List Read
  /-- Submission rings | 65,536 rings | 08_rings_and_doorbells.md R261 | every ring as listed -/
  sq : Table Sq
  /-- Completion rings | 65,536 rings | 08_rings_and_doorbells.md R269 | every ring as listed -/
  cq : Table Cq
  /-- Slices | 1,024 slices | 09_slices.md R278 | every slice as listed -/
  slices : Table Slice
  /-- Books | 1,024 books | 04_tallies_and_store.md R99 | every book as listed -/
  books : Table Book
  /-- Master MPUs | 45 MPUs | 10_access_control.md R313 | every MPU as listed -/
  mpus : List Mpu
  /-- MSI-X table and PBA | 2,048 vectors | 08_rings_and_doorbells.md R251 | every vector as listed -/
  msix : Table Vector
  link : Link
  hregs : HostRegs
  logs : Logs
  sched : Sched
  pan : Pan
  brine : Brine
  applets : Applets
  keys : KeyStore
  crypto : Crypto
  rng : Rng
  nv : Nv
  tamper : Tamper
  cl : Contactless
  pwr : Power
  tel : Telemetry
deriving DecidableEq, Repr

/-- Stops of the machine. The manual gives every command an effect, so there is none. -/
inductive Fault
deriving DecidableEq, Repr

/-- Refusals of the model. -/
inductive Refusal where
  /-- The command has no meaning in the model yet; raised by its arm of `exec`; safe. -/
  | notModelled (mnemonic : String)
deriving DecidableEq, Repr

/-- The device as shipped (R606), main power just applied, before PERST_N is first deasserted (R551, R561): log entry
7. -/
def State.reset : State :=
  { pending := [], out := [], nextId := 0, draws := 0, work := [], reads := [], sq := [], cq := [], slices := [],
    books := [], mpus := List.replicate 32 Mpu.fw ++ List.replicate 12 Mpu.dma ++ [Mpu.fw], msix := [],
    link := Link.reset, hregs := HostRegs.reset, logs := Logs.reset, sched := Sched.reset, pan := Pan.reset,
    brine := Brine.reset, applets := Applets.reset, keys := KeyStore.reset, crypto := Crypto.reset, rng := Rng.reset,
    nv := Nv.reset, tamper := Tamper.reset, cl := Contactless.reset, pwr := Power.reset, tel := Telemetry.reset }

end Sys2Proof.Machine
end

