-- ==== Sys2Proof/Machine/Ops.lean ====
section
/-! DEFINITION. Named operations over the state: reading and changing one ring, slice, book, core, slot, …; logs; status
codes; work and its completion. -/

namespace Sys2Proof.Machine
open Sys2Proof

/-- Grains of a scruple, an ounce and a pound (R9). -/
def scruple : Nat := 20
def ounce : Nat := 480
def pound : Nat := 5760

/-- The current grain, HTM_GRAIN. -/
def State.now (s : State) : Nat := s.sched.grain

/-! Entries of tables. -/

def State.sqAt (s : State) (r : Nat) : Sq := tget Sq.reset s.sq r
def State.setSq (s : State) (r : Nat) (v : Sq) : State := { s with sq := tput Sq.reset s.sq r v }
def State.modSq (s : State) (r : Nat) (f : Sq → Sq) : State := s.setSq r (f (s.sqAt r))

def State.cqAt (s : State) (c : Nat) : Cq := tget Cq.reset s.cq c
def State.setCq (s : State) (c : Nat) (v : Cq) : State := { s with cq := tput Cq.reset s.cq c v }
def State.modCq (s : State) (c : Nat) (f : Cq → Cq) : State := s.setCq c (f (s.cqAt c))

def State.sliceAt (s : State) (n : Nat) : Slice := tget Slice.reset s.slices n
def State.setSlice (s : State) (n : Nat) (v : Slice) : State := { s with slices := tput Slice.reset s.slices n v }
def State.modSlice (s : State) (n : Nat) (f : Slice → Slice) : State := s.setSlice n (f (s.sliceAt n))

def State.bookAt (s : State) (b : Nat) : Book := tget Book.reset s.books b
def State.setBook (s : State) (b : Nat) (v : Book) : State := { s with books := tput Book.reset s.books b v }
def State.modBook (s : State) (b : Nat) (f : Book → Book) : State := s.setBook b (f (s.bookAt b))

def State.vectorAt (s : State) (v : Nat) : Vector := tget Vector.reset s.msix v
def State.setVector (s : State) (v : Nat) (e : Vector) : State := { s with msix := tput Vector.reset s.msix v e }

def State.mpuAt (s : State) (m : Nat) : Mpu := s.mpus.getD m Mpu.fw
def State.setMpu (s : State) (m : Nat) (v : Mpu) : State := { s with mpus := s.mpus.set m v }
def State.modMpu (s : State) (m : Nat) (f : Mpu → Mpu) : State := s.setMpu m (f (s.mpuAt m))

def State.coreAt (s : State) (c : Nat) : Core := tget Core.reset s.applets.cores c
def State.setCore (s : State) (c : Nat) (v : Core) : State :=
  { s with applets := { s.applets with cores := tput Core.reset s.applets.cores c v } }
def State.modCore (s : State) (c : Nat) (f : Core → Core) : State := s.setCore c (f (s.coreAt c))

def State.allowAt (s : State) (e : Nat) : Allow := tget Allow.reset s.applets.allow e
def State.setAllow (s : State) (e : Nat) (v : Allow) : State :=
  { s with applets := { s.applets with allow := tput Allow.reset s.applets.allow e v } }

/-- Slot of TARGET 0 (compact) or 1 (large). -/
def State.slotAt (s : State) (target index : Nat) : Slot :=
  tget Slot.reset (if target == 0 then s.keys.compact else s.keys.large) index
def State.setSlot (s : State) (target index : Nat) (v : Slot) : State :=
  if target == 0 then { s with keys := { s.keys with compact := tput Slot.reset s.keys.compact index v } }
  else { s with keys := { s.keys with large := tput Slot.reset s.keys.large index v } }
def State.modSlot (s : State) (target index : Nat) (f : Slot → Slot) : State :=
  s.setSlot target index (f (s.slotAt target index))

def State.sessionAt (s : State) (h : Nat) : Session := tget Session.reset s.keys.sessions h
def State.setSession (s : State) (h : Nat) (v : Session) : State :=
  { s with keys := { s.keys with sessions := tput Session.reset s.keys.sessions h v } }
def State.modSession (s : State) (h : Nat) (f : Session → Session) : State := s.setSession h (f (s.sessionAt h))

def State.authAt (s : State) (e : Nat) : Authority := tget Authority.reset s.keys.auth e
def State.setAuth (s : State) (e : Nat) (v : Authority) : State :=
  { s with keys := { s.keys with auth := tput Authority.reset s.keys.auth e v } }

def State.familyAt (s : State) (f : Nat) : Nat := tget 0 s.keys.families f
def State.setFamily (s : State) (f v : Nat) : State :=
  { s with keys := { s.keys with families := tput 0 s.keys.families f v } }

def State.partAt (s : State) (p : Nat) : UserPart := tget UserPart.none_ s.nv.parts p
def State.setPart (s : State) (p : Nat) (v : UserPart) : State :=
  { s with nv := { s.nv with parts := tput UserPart.none_ s.nv.parts p v } }
def State.modPart (s : State) (p : Nat) (f : UserPart → UserPart) : State := s.setPart p (f (s.partAt p))

def State.counterAt (s : State) (n : Nat) : Counter := tget Counter.issued s.nv.counters n
def State.setCounter (s : State) (n : Nat) (v : Counter) : State :=
  { s with nv := { s.nv with counters := tput Counter.issued s.nv.counters n v } }
def State.modCounter (s : State) (n : Nat) (f : Counter → Counter) : State := s.setCounter n (f (s.counterAt n))

def State.bnAt (s : State) (e : Nat) : BnEngine := tget BnEngine.reset s.crypto.bn e
def State.setBn (s : State) (e : Nat) (v : BnEngine) : State :=
  { s with crypto := { s.crypto with bn := tput BnEngine.reset s.crypto.bn e v } }

def State.sourceAt (s : State) (k : Nat) : Source := tget Source.reset s.rng.sources k
def State.setSource (s : State) (k : Nat) (v : Source) : State :=
  { s with rng := { s.rng with sources := tput Source.reset s.rng.sources k v } }

/-! Status codes (R570). -/

/-- The code of a status. -/
def statusCode (st : Status) : Nat :=
  match st with
  | .ok => 0x00 | .malformed => 0x01 | .state => 0x02 | .policy => 0x03 | .auth => 0x04 | .fenced => 0x05
  | .stale => 0x06 | .busy => 0x07 | .fault => 0x08 | .slotBad => 0x09 | .noEntropy => 0x0A | .overflow => 0x0B
  | .invalidDigit => 0x0C | .range => 0x0D | .journalFull => 0x0E | .torn => 0x0F | .access => 0x10
  | .integrity => 0x11 | .tamper => 0x12 | .expired => 0x13 | .exhausted => 0x14 | .gap => 0x15 | .holdLow => 0x16

/-! Units in the order of R20. -/

/-- Place in the order of R20 of the unit that serves an opcode (R29); log entry 13. -/
def unitOf (opcode : Nat) : Nat :=
  match opcode / 0x1000 with
  | 0x1 => 0 | 0x2 => 2 | 0x3 => 3 | 0x4 => 9 | 0x5 => 4 | 0x6 => 6 | 0x7 => 7 | 0x8 => 12 | 0x9 => 13 | 0xA => 9
  | _ => 8

def unitDma : Nat := 8
def unitMgmt : Nat := 9
def unitPcie : Nat := 20

/-! Logs (R573-R580): events wait in the state until the grain boundary. -/

/-- Raise a protocol-log event. -/
def State.plog (s : State) (e : PEvent) : State := { s with logs := { s.logs with ppend := s.logs.ppend ++ [e] } }

/-- A protocol-log event that names no descriptor. -/
def State.plogEvent (s : State) (unit event check slice ring detail : Nat) : State :=
  s.plog { unit := unit, event := event, check := check, status := 0xFF, grain := s.now, slice := slice, ring := ring,
           tag := 0, opcode := 0xFFFF, slot := 0, detail := detail }

/-- Register write ignored or refused (EVENT 0x04). -/
def State.plogReg (s : State) (unit err slice offset : Nat) : State := s.plogEvent unit 0x04 err slice 0xFFFF offset

/-- A protocol-log event about a descriptor. -/
def State.plogWork (s : State) (w : Work) (event check : Nat) (st : Status) (detail : Nat) : State :=
  s.plog { unit := unitOf w.opcode, event := event, check := check, status := statusCode st, grain := s.now,
           slice := w.slice, ring := w.ring, tag := w.tag, opcode := w.opcode, slot := w.slot, detail := detail }

/-- Raise a tamper-log event. -/
def State.tlogEvent (s : State) (unit level source action loc slice detail : Nat) : State :=
  let e : TEvent :=
    { unit := unit, level := level, source := source, action := action, grain := s.now, loc := loc, slice := slice,
      detail := detail }
  { s with logs := { s.logs with tpend := s.logs.tpend ++ [e] } }

/-- A level-1 tamper event: logged and counted (R504); nothing in SPENT. -/
def State.level1 (s : State) (unit source loc slice detail : Nat) : State :=
  if s.tamper.state = .spent then s
  else
    let s := s.tlogEvent unit 1 source 0 loc slice detail
    { s with tamper := { s.tamper with l1 := satAdd 0xFFFFFFFF s.tamper.l1 1 } }

/-- An uncorrectable word in a unit code of R584: counted, level 1 (R24). -/
def State.uncorrectable (s : State) (unit code slice detail : Nat) : State :=
  let s := s.level1 unit 0x10 code slice detail
  let n := satAdd 0xFFFFFFFF (tget 0 s.tel.errUncorr code) 1
  { s with tel := { s.tel with errUncorr := tput 0 s.tel.errUncorr code n } }

/-- Place in the order of R20 of the grain scheduler. -/
def unitSched : Nat := 14

/-- A background task reaches its deadline unfinished (R56); for re-masking it is a level-1 event. -/
def State.missTask (s : State) (task : Nat) : State :=
  let missed := if s.sched.missed.contains task then s.sched.missed else task :: s.sched.missed
  let s := { s with sched := { s.sched with missed := missed, bgMiss := true } }
  if task == 1 then s.level1 10 0x19 0 0xFFFF 0 else s.plogEvent unitSched 0x09 0 0xFFFF 0xFFFF task

/-- Length of the period of a background task, in grains (R53). -/
def taskPeriod (task : Nat) : Nat :=
  match task with
  | 0 => 1048576 * pound | 1 => 4096 * pound | 2 => 4096 * pound | 3 => 16 * pound | _ => pound

/-- Deadline of the current period of a background task (R53). -/
def State.taskDeadline (s : State) (task : Nat) : Nat := tget (taskPeriod task) s.sched.deadline task

def State.setDeadline (s : State) (task d : Nat) : State :=
  { s with sched := { s.sched with deadline := tput (taskPeriod task) s.sched.deadline task d } }

/-- A background task is finished: its next period begins at the end of this one, or now when this one was missed
(R56). -/
def State.taskDone (s : State) (task : Nat) : State :=
  let p := taskPeriod task
  let d := s.taskDeadline task
  if s.sched.overdue.contains task || decide (d ≤ s.now) then
    { s with sched := { s.sched with overdue := s.sched.overdue.filter (· != task) } }.setDeadline task (s.now + p)
  else if s.now + p < d then s
  else s.setDeadline task (d + p)

/-! Steps of units (R43, R48). -/

/-- Digest engines (the unit counts of 00_scope.md). -/
def digestEngines : Nat := 12

/-- Background work, behind the classes 0 to 3. -/
def background : Nat := 4

/-- The calendar gives a unit's step of this grain to a class, and the step has not been made (log entry 65). -/
def State.mayStep (s : State) (u : UnitId) (cls : Nat) : Bool := s.sched.served.contains (u, cls) && !s.sched.taken.contains u

/-- A unit has made its step of the grain. -/
def State.takeStep (s : State) (u : UnitId) : State := { s with sched := { s.sched with taken := u :: s.sched.taken } }

/-- A unit makes its step of the grain, for a class. -/
def State.stepOf (s : State) (u : UnitId) (cls : Nat) (f : State → State) : State :=
  if s.mayStep u cls then f (s.takeStep u) else s

/-- Turn of a slice in the rotation of a unit, behind the one served last (R50). -/
def State.turnOf (s : State) (u : UnitId) (slice : Nat) : Nat :=
  (slice + 2047 - ((s.sched.lastSlice.find? (fun e => e.1 == u)).map Prod.snd).getD 1023) % 1024

/-- A unit has served a slice. -/
def State.servedSlice (s : State) (u : UnitId) (slice : Nat) : State :=
  { s with sched := { s.sched with lastSlice := (u, slice) :: s.sched.lastSlice.filter (fun e => e.1 != u) } }

/-! Free values: log entry 6. -/

/-- The state after one free value has been drawn. -/
def State.drawn (s : State) : State := { s with draws := s.draws + 1 }

/-! Opcodes (R264-R266 and the opcode tables of the chapters). -/

/-- What R265 checks of an opcode: allowed slot counts, each with the least and largest LENGTH; whether it names a
session; the opcode's own check that contains the header checks, none where R611 gives it no list of checks. -/
structure OpInfo where
  lens : List (Nat × Nat × Nat)
  session : Bool
  listed : Bool

/-- The opcodes that are not reserved. -/
def opInfo (opcode : Nat) : Option OpInfo :=
  let one (slots len : Nat) (ses listed : Bool) : Option OpInfo :=
    some { lens := [(slots, len, len)], session := ses, listed := listed }
  match opcode with
  | 0x0000 => one 1 0 false false
  | 0x1000 => one 1 0x10 true true
  | 0x1001 => one 1 0x10 true true
  | 0x1010 => one 1 0x10 true true
  | 0x1011 => one 1 0x20 true true
  | 0x1020 => some { lens := [(1, 0, 48), (2, 0, 112)], session := true, listed := true }
  | 0x1021 => some { lens := [(1, 16, 48), (2, 16, 112)], session := true, listed := true }
  | 0x1030 => some { lens := [(1, 2, 48), (2, 50, 64)], session := true, listed := true }
  | 0x2000 => some { lens := [(2, 0x60, 0x60), (4, 0xE0, 0xE0)], session := true, listed := true }
  | 0x2010 => one 2 0x60 true true
  | 0x2011 => one 2 0x60 true true
  | 0x2012 => one 1 0x20 true true
  | 0x3000 => one 1 0 false true
  | 0x3010 => one 1 0x30 false true
  | 0x3011 => one 1 0 false false
  | 0x3012 => one 1 0x30 false true
  | 0x3020 => one 1 0x30 false false
  | 0x3021 => one 1 0 false false
  | 0x3030 => one 2 0x60 true true
  | 0x3031 => one 2 0x60 true true
  | 0x3032 => one 1 0x30 false true
  | 0x3040 => one 1 0x30 false true
  | 0x4000 => one 4 0xE0 false true
  | 0x4001 => one 1 0x20 true true
  | 0x4002 => one 2 0x60 true true
  | 0x4010 => one 1 0x30 false true
  | 0x4011 => one 1 0x10 false false
  | 0x4020 => one 1 0x30 false false
  | 0x5000 => one 2 0x60 true false
  | 0x5001 => one 1 0x30 true false
  | 0x5010 => one 1 0x30 false false
  | 0x5011 => one 1 0x30 false false
  | 0x5012 => one 1 0x30 false false
  | 0x6000 => one 1 0x30 false true
  | 0x7000 => one 2 0x60 true true
  | 0x7010 => one 2 0x60 true true
  | 0x7011 => one 1 0x20 true true
  | 0x7012 => one 1 0x30 false false
  | 0x8000 => one 1 0x10 false true
  | 0x8010 => one 1 0 false false
  | 0x8011 => one 1 0x30 false true
  | 0x9000 => one 1 0x30 false true
  | 0x9001 => one 1 0x30 false true
  | 0x9002 => one 1 0 false false
  | 0x9003 => one 1 0x30 false true
  | 0xA000 => one 1 0x30 false true
  | 0xA001 => one 1 0x30 false true
  | 0xA002 => one 1 0x30 false true
  | 0xA010 => one 1 0x30 false true
  | 0xA100 => one 1 0x30 false true
  | 0xA101 => one 1 0 false false
  | _ => none

/-- The class of an opcode's family (R29). -/
def classOf (opcode : Nat) : Nat :=
  match opcode / 0x1000 with
  | 0x1 => 0 | 0x2 => 1 | 0x3 => 1 | 0x6 => 3 | _ => 2

/-- Opcodes on which D is allowed (R264). -/
def allowsD (opcode : Nat) : Bool := opcode == 0x2000 || opcode == 0x2010 || opcode == 0x2011 || opcode == 0x2012

/-! Work. -/

/-- The work with a serial number. -/
def State.workAt (s : State) (id : Nat) : Option Work := s.work.find? (fun w => w.id == id)

/-- Change one piece of work. -/
def State.modWork (s : State) (id : Nat) (f : Work → Work) : State :=
  { s with work := s.work.map (fun w => if w.id == id then f w else w) }

/-- Remove one piece of work. -/
def State.dropWork (s : State) (id : Nat) : State := { s with work := s.work.filter (fun w => w.id != id) }

/-- Remove every piece of work that meets a condition. -/
def State.dropWorkIf (s : State) (p : Work → Bool) : State := { s with work := s.work.filter (fun w => !p w) }

/-- The oldest work of a ring that meets a condition. -/
def State.oldest (s : State) (ring : Nat) (p : Work → Bool) : Option Work :=
  s.work.find? (fun w => w.ring == ring && p w)

/-- Its completion is assembled. -/
def Work.isDone (w : Work) : Bool := match w.phase with | .done => true | _ => false

/-- Work of a service call of a core runs under a ring number of its own, above the submission rings (R348): log entry
8. -/
def appletRing (core : Nat) : Nat := 65536 + core

/-- The work is a service call. -/
def Work.isApplet (w : Work) : Bool := decide (65536 ≤ w.ring)

/-- It has not been admitted to a unit (R234): held, or routed and not begun. -/
def Work.waiting (w : Work) : Bool := match w.phase with | .held => true | .routed => true | _ => false

def Work.isHeld (w : Work) : Bool := match w.phase with | .held => true | _ => false

def Work.isRouted (w : Work) : Bool := match w.phase with | .routed => true | _ => false

/-- A posting or a tally administration operation. -/
def Work.isPosting (w : Work) : Bool := w.opcode / 0x1000 == 2

/-- The work, waiting for its host data, is at step `n`. -/
def Work.readingAt (w : Work) (n : Nat) : Bool := match w.phase with | .reading k => k == n | _ => false

/-- The work is under way at step `n`. -/
def Work.activeAt (w : Work) (n : Nat) : Bool := match w.phase with | .active k => k == n | _ => false

/-- The management core takes up a descriptor in a grain whose step it gives to the descriptor's class, unless it takes a
squashed step again (R35, R38, R48); the other units choose in ways of their own (log entry 65). -/
def State.coreTakes (s : State) (w : Work) : Bool :=
  unitOf w.opcode != unitMgmt || w.isApplet || s.mayStep .mgmt (classOf w.opcode)

/-- It has not begun, its unit takes it up, and R236 lets it begin: no earlier descriptor of its ring with F remains, and
for an F descriptor no earlier descriptor remains at all. -/
def State.mayBegin (s : State) (w : Work) : Bool :=
  let before := s.work.filter (fun v => v.ring == w.ring && decide (v.id < w.id))
  (if w.flagF then before.isEmpty else before.all (fun v => !v.flagF)) && s.coreTakes w

/-- A completion of a piece of work. -/
def Work.cplOf (w : Work) (st : Status) (res : Bytes) : Cpl :=
  { status := st, result := fit 16 res, late := !w.lateConds.isEmpty, redo := w.redone, rcpt := false,
    opcode := w.opcode, tag := w.tag }

/-! The brine window: entries that end (R167, R168). -/

/-- The leg is to be fetched afresh. -/
def Leg.drop (l : Leg) : Leg := { l with got := false, dep := none }

/-- Back to stage F for every leg (R223): position, entry, use charge and V result are kept. -/
def Entry.restart (e : Entry) : Entry := { e with stage := .fetch, legs := e.legs.map Leg.drop, verdict := none }

/-- The leg took its record from one of these entries. -/
def Leg.from_ (l : Leg) (bad : List (Nat × Bool)) : Bool := match l.dep with | some d => bad.contains d | none => false

/-- Back to stage F for the legs that took a record from `bad` (R167). -/
def Entry.refetch (e : Entry) (bad : List (Nat × Bool)) : Entry :=
  { e with stage := .fetch, legs := e.legs.map (fun l => if l.from_ bad then l.drop else l), verdict := none }

/-- A source has committed: its record stands in the Pan, and nothing can take it back. -/
def Entry.unlink (e : Entry) (key : Nat × Bool) : Entry :=
  { e with legs := e.legs.map (fun l => if l.dep == some key then { l with dep := none } else l) }

/-- Every later entry that consumed a record of `bad`, directly or through a chain, restarts; their number (R167). -/
def reexecAux (bad : List (Nat × Bool)) : List Entry → List Entry × Nat
  | [] => ([], 0)
  | e :: t =>
    if e.deps.any (fun d => bad.contains d) then
      let r := reexecAux (e.key :: bad) t
      (e.refetch bad :: r.1, r.2 + 1)
    else
      let r := reexecAux bad t
      (e :: r.1, r.2)

/-- The dependants of entries re-execute (R167). -/
def State.reexecute (s : State) (bad : List (Nat × Bool)) : State :=
  let r := reexecAux bad s.brine.entries
  { s with brine := { s.brine with entries := r.1, reexec := s.brine.reexec + BitVec.ofNat 32 r.2 } }

/-! Commits that stand (R238). -/

/-- Phase 2 of a CHECKPOINT, a handover or a region move holds the commits of a book (R137, R164). -/
def Book.commitsHeld (b : Book) : Bool := match b.wb with | some j => j.phase == 2 | none => false

/-- A TALLY_ADJUST in stage 2 of its lane. -/
def State.adjustAt2 (s : State) (w : Work) : Bool :=
  w.opcode == 0x1011 && w.activeAt 1 && w.failed.isNone &&
    (match w.admitted with | some g => decide (g + 1 + w.extra ≤ s.now) | none => false)

/-- A TALLY_ADJUST of the book stands in stage 2 of its lane: its LSEQ comes ahead of the class-1 commits of the grain
(R183). -/
def State.adjustInStage2 (s : State) (book : Nat) : Bool := s.work.any (fun w => w.slice == book && s.adjustAt2 w)

/-- The entries, oldest first, that commit in the grain: stage K has begun for each, and the commits, the legs and the strands
of the grain allow it (R164). -/
def standing (book strands : Nat) (used : List (Nat × Nat)) : Nat → Nat → Nat → List Entry → List (Nat × Bool)
  | commits, legs, lseq, e :: t =>
    let k := (book, (lseq + 1) % strands)
    if e.stage == .commit && decide (1 ≤ commits) && decide (e.legs.length ≤ legs) && !used.contains k then
      e.key :: standing book strands (k :: used) (commits - 1) (legs - e.legs.length) (lseq + 1) t
    else []
  | _, _, _, [] => []

/-- The entries of a book in stage K of the grain. -/
def State.inK (s : State) (book : Nat) : List (Nat × Bool) :=
  let b := s.bookAt book
  if b.st != .open_ || b.commitsHeld then []
  else
    standing book b.strands s.sched.strandsUsed s.sched.commitsLeft s.sched.commitLegs b.lseq
      (s.brine.entries.filter (fun e => e.book == book))

/-- An event reaches the book: the commits of the grain stand. -/
def State.standInK (s : State) (book : Nat) : State :=
  let keys := s.inK book
  { s with brine := { s.brine with
      entries := s.brine.entries.map (fun (e : Entry) => if keys.contains e.key then { e with stands := true } else e) } }

/-- Entries leave the window without a commit: their journal room returns (R199), their dependants re-execute. -/
def State.dropEntries (s : State) (p : Entry → Bool) : State :=
  let gone := s.brine.entries.filter p
  let s := gone.foldl (fun s e => s.modBook e.book (fun b => { b with reserved := b.reserved - e.reserved })) s
  let s := { s with brine := { s.brine with entries := s.brine.entries.filter (fun e => !p e) } }
  s.reexecute (gone.map Entry.key)

/-- The entry of a work is in the window. -/
def State.inWindow (s : State) (id : Nat) : Bool := s.brine.entries.any (fun e => !e.applet && e.src == id)

/-! Completions and fences (R233-R236). -/

/-- The completion is assembled; the engine clears its key register (R33). -/
def Work.done (w : Work) (st : Status) (res : Bytes) : Work :=
  { w with phase := .done, key := [], cpl := some (w.cplOf st res) }

/-- The conditions of R63 of an admitted prime operation at its end point, where its entry is assembled (R62); once it
has ended they stand. Write-through fails condition 4 (R481). -/
def State.lateAtEnd (s : State) (w : Work) : List Nat :=
  if w.admitted.isNone || classOf w.opcode != 0 then []
  else if w.isDone then w.lateConds
  else
    w.lateConds ++ (if s.pwr.holdOk && !s.nv.wt then [] else [4]) ++
      (if (s.sliceAt w.slice).gen = w.gen then [] else [6])

/-- The counter of the lowest-numbered failed condition (R64). -/
def State.countLate (s : State) (slice : Nat) (conds : List Nat) : State :=
  match conds.foldl min 7 with
  | 1 => s.modSlice slice (fun x => { x with lateToken := x.lateToken + 1 })
  | 2 => s.modSlice slice (fun x => { x with lateSize := x.lateSize + 1 })
  | 3 => s.modSlice slice (fun x => { x with lateResid := x.lateResid + 1 })
  | 4 => s.modSlice slice (fun x => { x with lateHold := x.lateHold + 1 })
  | 5 => s.modSlice slice (fun x => { x with lateRedo := x.lateRedo + 1 })
  | 6 => s.modSlice slice (fun x => { x with lateReset := x.lateReset + 1 })
  | _ => s


/-- STATUS of a service call (R347). -/
def svcStatus (st : Status) (late redo rcpt : Bool) : Word :=
  BitVec.ofNat 32 (statusCode st + 256 * flag late + 512 * flag redo + 1024 * flag rcpt)

/-- A service of a core has ended: its answer waits for SERVICE_CALL_END (R347). -/
def State.answerCore (s : State) (core : Nat) (status : Word) (res : Bytes) : State :=
  s.modCore core (fun c => if c.mode == .waiting && c.answer.isNone then { c with answer := some (status, res) } else c)

/-- Hand a completion to the completion writer without its fence; the outcome of a service call goes to its core. -/
def State.finishRaw (s : State) (id : Nat) (st : Status) (res : Bytes) : State :=
  match s.workAt id with
  | none => s
  | some w =>
    if w.isApplet then
      let conds := s.lateAtEnd w
      ((s.dropWork id).countLate w.slice conds).answerCore (w.ring - 65536)
        (svcStatus st (!conds.isEmpty) w.redone false) (fit 16 res)
    else
      let conds := s.lateAtEnd w
      s.modWork id (fun v => ({ v with lateConds := conds } : Work).done st res)

/-- The entry's commit stands (R238). -/
def State.standsAt (s : State) (id : Nat) : Bool := s.brine.entries.any (fun e => !e.applet && e.src == id && e.stands)

/-- The descriptors that a fence of the ring ends: those not admitted, and those with an uncommitted entry (R234). -/
def State.fenceHits (s : State) (ring : Nat) (w : Work) : Bool :=
  w.ring == ring && (w.waiting || (s.inWindow w.id && !s.standsAt w.id))

/-! Places in the order of R221. -/

def rankPower : Nat := 1
def rankChange : Nat := 2
def rankReset : Nat := 3
def rankBook : Nat := 4
def rankRing : Nat := 5
def rankFault : Nat := 6

/-- An event of a lower place has ended the uncommitted work in this grain (R221). -/
def State.endedBelow (s : State) (rank : Nat) (w : Work) : Bool :=
  w.isDone && w.commit.isNone && (match w.ending with | some (g, r) => g == s.now && decide (rank < r) | none => false)

/-- What an event of the grain has ended is decided anew by one above it in the order of R221. -/
def State.redecide (s : State) (rank : Nat) (p : Work → Bool) (st : Status) (res : Bytes) : State :=
  { s with work := s.work.map (fun w =>
      if p w && s.endedBelow rank w then { w.done st res with ending := some (s.now, rank) } else w) }

/-- A failed Pan reload fences a ring whose fence a fault of the same grain has made: the fault's work is decided anew
(R221, R234), so that its cause is not met, and the cause shown is that of the reload. -/
def State.refence (s : State) (ring cause tag : Nat) : State :=
  if cause = 4 ∧ s.work.any (fun w => w.ring == ring && s.endedBelow rankRing w) then
    (s.redecide rankRing (fun w => w.ring == ring) .fenced [BitVec.ofNat 8 cause]).modSq ring (fun q =>
      { q with fenceCause := cause, fenceTag := tag })
  else s

/-- Fence a ring (R233, R234); a fenced ring keeps its first cause. -/
def State.fenceRing (s : State) (ring cause tag : Nat) : State :=
  if (s.sqAt ring).fenced then s.refence ring cause tag
  else
    let head := (s.work.find? (s.fenceHits ring)).map Work.slot
    let work := s.work.map (fun w => if s.fenceHits ring w then { w.done .fenced [BitVec.ofNat 8 cause] with ending := some (s.now, rankRing) } else w)
    let s := s.modSq ring (fun q => { q with fenced := true, fenceCause := cause, fenceTag := tag, fenceHead := head })
    let s := { s with work := work, pan := { s.pan with fences := s.pan.fences + 1 } }
    s.dropEntries (fun e => !e.applet && e.ring == ring && !e.stands)

/-- Hand the completion of a piece of work to the completion writer: FAULT and TAMPER fence its ring (R233). The fence
of the F flag is made at the grain boundary (R234). -/
def State.finish (s : State) (id : Nat) (st : Status) (res : Bytes) : State :=
  match s.workAt id with
  | none => s
  | some w =>
    let s := s.finishRaw id st res
    if w.isApplet then s
    else
      match st with
      | .tamper => s.fenceRing w.ring 3 w.tag
      | .fault => s.fenceRing w.ring 2 w.tag
      | _ => s

/-- The completion of an F descriptor has a status other than OK that has not fenced its ring yet (R236). -/
def Work.flagFails (w : Work) : Bool :=
  w.flagF && w.isDone && !w.fenceDone && !w.isApplet &&
    (match w.cpl with | some c => c.status != .ok && c.status != .fenced | none => false)

/-- The fence of the F flag, once for a descriptor (R234, R236). -/
def State.flagFence (s : State) (w : Work) : State :=
  (s.modWork w.id (fun v => { v with fenceDone := true })).fenceRing w.ring 1 w.tag

/-- The statuses of the grain that ends fence the rings of their F descriptors (R234). -/
def State.flagFences (s : State) : State := (s.work.filter Work.flagFails).foldl State.flagFence s

/-- Change the status of a completion that waits to be issued. -/
def State.restatus (s : State) (id : Nat) (st : Status) : State :=
  match s.workAt id with
  | none => s
  | some w => s.finish id st ((w.cpl.map Cpl.result).getD [])

/-- The result form of R153: failing check and leg. -/
def refusalResult (check leg : Nat) : Bytes := [BitVec.ofNat 8 check, BitVec.ofNat 8 leg]

/-- Statuses whose refusals are logged (R153, R276); log entry 14. -/
def refusalLogged (st : Status) : Bool := st == .malformed || st == .stale || st == .state || st == .access

/-- Refuse a piece of work at a check of its family, with the result of R153. -/
def State.refuseLeg (s : State) (w : Work) (check leg : Nat) (st : Status) : State :=
  let s := if refusalLogged st then s.plogWork w 0x01 check st 0 else s
  s.finish w.id st (refusalResult check leg)

/-- Refuse a piece of work at a check that concerns no leg. -/
def State.refuse (s : State) (w : Work) (check : Nat) (st : Status) : State := s.refuseLeg w check 0xFF st

/-- Refuse a piece of work with a result of its own. -/
def State.refuseWith (s : State) (w : Work) (check : Nat) (st : Status) (res : Bytes) : State :=
  let s := if refusalLogged st then s.plogWork w 0x01 check st 0 else s
  s.finish w.id st res

/-- Complete a piece of work whose chapter lays down only the first bytes of the result: the others are free values
(log entry 20). -/
def State.finishOpen (s : State) (id : Nat) (st : Status) (known : Bytes) : State :=
  (s.finish id st (known ++ Config.freeBytes s.draws (16 - known.length))).drawn

/-- Refuse a piece of work outside any list of checks. -/
def State.refuseOpen (s : State) (w : Work) (st : Status) (known : Bytes) : State :=
  let s := if refusalLogged st then s.plogWork w 0x01 0 st 0 else s
  s.finishOpen w.id st known

/-- The oldest work of a ring with an opcode that stands routed and may begin (log entry 8). -/
def State.toStart (s : State) (ring opcode : Nat) : Option Work :=
  (s.oldest ring (fun w => w.isRouted && w.opcode == opcode)).filter (fun w => s.mayBegin w)

/-- Begin that work. -/
def State.onStart (s : State) (ring opcode : Nat) (f : Work → State) : State :=
  match s.toStart ring opcode with
  | none => s
  | some w => f w

/-- The first failure of a list of checks: each with the outcome it gives when its condition does not hold. -/
def firstFail {α : Type} : List (Bool × α) → Option α
  | [] => none
  | (ok, a) :: t => if ok then firstFail t else some a

/-- A field of the descriptor. -/
def Work.field (w : Work) (o n : Nat) : Nat := fieldAt w.desc o n

/-- Descriptor bytes `o` to `e - 1` are zero. -/
def Work.zeroFrom (w : Work) (o e : Nat) : Bool := allZero (bytesAt w.desc o (e - o))

/-- Wait for random output (R34, R451, R452), unless this consumer waits already. -/
def State.askRandom (s : State) (use : RngUse) (prio slice need : Nat) : State :=
  if s.rng.waiters.any (fun x => x.use == use) then s
  else
    let x : RngWait := { use := use, prio := prio, slice := slice, need := need, got := [], since := s.now }
    { s with rng := { s.rng with waiters := s.rng.waiters ++ [x] } }

/-- The random bytes a consumer has got, once it has all it needs. -/
def State.gotRandom (s : State) (use : RngUse) : Option Bytes :=
  ((s.rng.waiters.find? (fun x => x.use == use)).filter (fun x => decide (x.need ≤ x.got.length))).map RngWait.got

/-- The consumer waits no longer. -/
def State.dropRandom (s : State) (use : RngUse) : State :=
  { s with rng := { s.rng with waiters := s.rng.waiters.filter (fun x => x.use != use) } }

/-! Small facts of the device. -/

/-- HOLD is healthy: at or above 9.5 V (R552). -/
def State.holdHealthy (s : State) : Bool := s.pwr.holdOk

/-- HALT (R376). -/
def State.halted (s : State) : Bool := s.keys.haltCode != 0

/-- ALARM_N is asserted (R524). -/
def State.alarm (s : State) : Bool :=
  s.nv.wt || s.tamper.state == .bittern || s.tamper.state == .spent || s.tamper.latch || s.tamper.vbatLow ||
    s.tamper.transition.isSome

/-- Session is open and belongs to the slice. -/
def State.sessionOpen (s : State) (h slice : Nat) : Bool :=
  let x := s.sessionAt h
  x.isOpen && x.slice == slice && !x.parentGone && !x.slotBad

/-- The book of a slice carries its number (R99). -/
def State.bookExists (s : State) (n : Nat) : Bool := (s.bookAt n).st != .none_

/-- The device runs: past start-up step 9, not in HALT, no flush. -/
def State.serviceable (s : State) : Bool := s.pwr.step == 9 && s.pwr.flush.isNone && !s.halted

/-! The BARs (R251, R277, R376, R523, R563). -/

/-- Requests to the BARs reach the device. -/
def State.barUp (s : State) : Bool :=
  decide (8 ≤ s.pwr.step) && s.link.up && !s.link.resetting && s.pwr.flush.isNone

/-- A write to a BAR0 offset is taken: not in HALT, and in SPENT only in the maps of R523. -/
def State.regWritable (s : State) (offset : Nat) : Bool :=
  s.barUp && !s.halted &&
    (s.tamper.state != .spent || (decide (0x010000 ≤ offset) && decide (offset < 0x040000)))

/-- A memory request to a BAR that the device does not serve: Unsupported Request, AER and the protocol log (R250, R277,
R582). AER bits of the uncorrectable register are numbered from 32 (log entry 12). -/
def State.barRefused (s : State) (offset : Nat) : State :=
  let aer := if s.link.aer.contains 52 then s.link.aer else s.link.aer ++ [52]
  let s := { s with out := s.out ++ [Out.unsupported], link := { s.link with aer := aer } }
  s.plogEvent unitPcie 0x03 0 0xFFFF 0xFFFF (offset % 2 ^ 32)

/-- A memory request meets a reset of R277. -/
def State.barClosed (s : State) : Bool := s.link.resetting && s.pwr.flush.isNone && s.pwr.starting

/-- A register write with an effect of its own. -/
def State.onReg (s : State) (offset : Nat) (f : State → State) : State :=
  if s.regWritable offset then f s else if s.barClosed then s.barRefused offset else s

/-- A register write takes effect at the next grain boundary. -/
def State.defer (s : State) (d : Deferred) : State :=
  { s with hregs := { s.hregs with deferred := s.hregs.deferred ++ [d] } }

end Sys2Proof.Machine
end

