-- ==== Sys2Proof/Machine/HostAccess.lean ====
section
/-! DEFINITION. Host accesses of the masters: windows and MPUs (R306-R322), attributes (R315), the dirty-page log
(R298-R302). A write leaves through `out`; a read leaves through `out` and stands in `reads` until its data comes. -/

namespace Sys2Proof.Machine
open Sys2Proof

/-- The masters in the numbering of R313. -/
def masterFetch (ring : Nat) : Nat := 32 + ring % 4
def masterCq (cq : Nat) : Nat := 36 + cq % 2
def masterJournal (book : Nat) : Nat := 38 + book % 2
def masterSaltern (book : Nat) : Nat := 40 + book % 2
def masterMgmt : Nat := 44

/-- The stream engines of the jobs that have not ended. -/
def State.dmaJobs (s : State) : List (Nat × Nat) :=
  s.crypto.dmaJobs.filter (fun j => s.work.any (fun w => w.id == j.1 && !w.isDone))

/-- The stream engine of a job: engine 10 or 11 as assigned to it, for a new one the lower-numbered idle engine (R25). With
both at work a new job goes to engine 10: the model's choice (log entry 66). -/
def State.masterStream (s : State) (job : Nat) : Nat :=
  match s.dmaJobs.find? (fun j => j.1 == job) with
  | some j => j.2
  | none => if s.dmaJobs.any (fun j => j.2 == 42) && !s.dmaJobs.any (fun j => j.2 == 43) then 43 else 42

/-- An access through a stream engine assigns it to its job. -/
def State.assignDma (s : State) (master job : Nat) : State :=
  if (master == 42 || master == 43) && !s.dmaJobs.any (fun j => j.1 == job) then
    { s with crypto := { s.crypto with dmaJobs := (job, master) :: s.dmaJobs } }
  else s

/-- The device may issue request TLPs (R247, R277, R376, R559). -/
def State.linkOpen (s : State) : Bool :=
  s.link.bme && s.link.pasidEn && !s.link.d3hot && s.link.up && !s.link.resetting && !s.halted

/-- The DMA engine of a master takes a squashed step again and begins no other (R35, R38). -/
def State.engineRedoes (s : State) (m : Nat) : Bool := decide (32 ≤ m) && s.sched.taken.contains (.dma (m - 32))

/-- The master presents host accesses: the link is open, its MPU is enabled (R247, R314) and its engine is free for a step.
The MPUs of cores and of the management core are set by firmware for the access. -/
def State.canMaster (s : State) (m : Nat) : Bool :=
  s.linkOpen && (decide (m < 32) || m == 44 || (s.mpuAt m).en) && !s.engineRedoes m

/-- Read requests outstanding. -/
def State.tagsOut (s : State) : Nat := (s.reads.map Read.tags).sum

/-- Of `n` request TLPs, those that find a tag: without 10-bit tags at most 256 reads are outstanding (R245). -/
def State.tagsFor (s : State) (n : Nat) : Nat := if s.link.tag10 then n else min n (256 - s.tagsOut)

/-- The master presents host reads while a tag is free (R245). -/
def State.canRead (s : State) (m : Nat) : Bool := s.canMaster m && (s.link.tag10 || decide (s.tagsOut < 256))

/-! What units hold of a piece of work. -/

/-- The job of a piece of work, seals apart. -/
def BnJob.ofWork (j : BnJob) (id : Nat) : Bool := j.work == id && j.use != 2

/-- Every job: queued, running or saved. -/
def State.bnJobsAll (s : State) : List BnJob :=
  s.crypto.bnQueue ++ (s.crypto.bn.map (fun e => e.2.running.toList ++ e.2.saved)).flatten

/-- The random request of a job that meets a condition. -/
def RngUse.ofJob (u : RngUse) (js : List BnJob) : Bool :=
  match u with | .bignum n => js.any (fun j => j.admitted == n) | _ => false

/-- Big-number jobs that meet a condition leave queue and engines, with their random requests. -/
def State.dropBn (s : State) (p : BnJob → Bool) : State :=
  let eng (e : BnEngine) : BnEngine :=
    let gone := match e.running with | some j => p j | none => false
    { running := if gone then none else e.running, prot := e.prot && !gone,
      saved := e.saved.filter (fun j => !p j), pause := if gone then 0 else e.pause }
  { s with crypto := { s.crypto with
      bnQueue := s.crypto.bnQueue.filter (fun j => !p j), bn := tmap BnEngine.reset eng s.crypto.bn },
           rng := { s.rng with waiters := s.rng.waiters.filter (fun x => !x.use.ofJob (s.bnJobsAll.filter p)) } }

/-- The random consumer belongs to a piece of work. -/
def RngUse.ofWork (u : RngUse) (id : Nat) : Bool :=
  match u with
  | .nonce w => w == id | .challenge w => w == id | .request w => w == id | .context w => w == id | .adopt w => w == id
  | .envelope w => w == id | .kat w => w == id | .inject w => w == id | _ => false

/-- What units hold of a piece of work is given up. -/
def State.releaseUnits (s : State) (id : Nat) : State :=
  let s := s.dropBn (fun j => j.ofWork id)
  { s with
    crypto := { s.crypto with streams := s.crypto.streams.filter (fun x => x.work != id) },
    rng := { s.rng with waiters := s.rng.waiters.filter (fun x => !x.use.ofWork id) },
    nv := { s.nv with commitWaits := s.nv.commitWaits.filter (fun x => x.1 != id) } }

/-! Windows. -/

/-- Last byte of a window plus one (R308). -/
def Window.stop (w : Window) : Nat := (w.limit + 1) * 4096

/-- The window holds the address. -/
def Window.holds (w : Window) (a : Nat) : Bool := w.en && decide (w.base * 4096 ≤ a) && decide (a < w.stop)

/-- The window grants the permission. -/
def Window.grants (w : Window) (write : Bool) : Bool := if write then w.w else w.r

/-- The enabled live window of a slice that holds an address (R309). -/
def Slice.liveAt (sl : Slice) (a : Nat) : Option Window := (sl.live.map Prod.snd).find? (fun w => w.holds a)

/-- Every byte from `a` to `stop` lies in a live window that grants the permission, over at most `n` windows. -/
def Slice.covers (sl : Slice) (write : Bool) (stop : Nat) : Nat → Nat → Bool
  | 0, a => decide (stop ≤ a)
  | n + 1, a =>
    if stop ≤ a then true
    else
      match sl.liveAt a with
      | none => false
      | some w => w.grants write && sl.covers write stop n w.stop

/-- A named buffer passes the check of R267 item 2. A length of 0 is not checked. -/
def State.rangeOk (s : State) (slice addr len : Nat) (write : Bool) : Bool :=
  len == 0 || (s.sliceAt slice).covers write (addr + len) 32 addr

/-- A range inside one live window with both permissions (R103). -/
def State.rangeInOne (s : State) (slice addr len : Nat) : Bool :=
  match (s.sliceAt slice).liveAt addr with
  | none => false
  | some w => w.r && w.w && decide (addr + len ≤ w.stop)

/-- Address plus length exceeds 2^64 (R267 item 1). -/
def beyond64 (addr len : Nat) : Bool := decide (2 ^ 64 < addr + len)

/-! MPUs. -/

/-- Region `k` of an MPU. -/
def Mpu.region (m : Mpu) (k : Nat) : Region := tget Region.reset m.regions k

/-- The region holds the address (R314). -/
def Region.holds (r : Region) (a : Nat) : Bool := r.en && decide (8 * r.start ≤ a) && decide (a < 8 * r.stop + 8)

/-- The region grants the permission. -/
def Region.grants (r : Region) (write : Bool) : Bool := if write then r.w else r.r

/-- The enabled region under which an access at an address stands, with its number: one that grants the permission, else the
first that holds the address. Only the regions of a core can overlap (R316, R351). -/
def Mpu.regionAt (m : Mpu) (a : Nat) (write : Bool) : Option (Nat × Region) :=
  (m.regions.find? (fun e => e.2.holds a && e.2.grants write)).or (m.regions.find? (fun e => e.2.holds a))

/-- Where an access that stands at `a` is cut next (R307). -/
def nextCut (m : Mpu) (sl : Slice) (a stop : Nat) : Nat :=
  let regs := (m.regions.filter (fun e => e.2.en)).map (fun e => [8 * e.2.start, 8 * e.2.stop + 8])
  let wins := (sl.live.filter (fun e => e.2.en)).map (fun e => [e.2.base * 4096, e.2.stop])
  ((regs ++ wins).flatten.filter (fun c => decide (a < c))).foldl min (min stop ((a / 4096 + 1) * 4096))

/-- The parts of an access, in address order (R307). -/
def partsAux (m : Mpu) (sl : Slice) (stop : Nat) : Nat → Nat → List (Nat × Nat)
  | 0, _ => []
  | n + 1, a =>
    if stop ≤ a then []
    else (a, nextCut m sl a stop - a) :: partsAux m sl stop n (nextCut m sl a stop)

/-- The parts of an access, in address order (R307). -/
def State.parts (s : State) (master slice addr len : Nat) : List (Nat × Nat) :=
  partsAux (s.mpuAt master) (s.sliceAt slice) (addr + len) (len / 4096 + 100) addr

/-- The outcome of the two checks of one part (R306). -/
inductive Verdict where
  | pass (region : Region)
  | mpu (noRegion : Bool) (region : Nat)
  | window (noWindow : Bool)
deriving DecidableEq, Repr

/-- Both checks of one part: the MPU first, then the window (R26, R306). -/
def State.verdict (s : State) (master slice a : Nat) (write : Bool) : Verdict :=
  match (s.mpuAt master).regionAt a write with
  | none => .mpu true 0
  | some (k, r) =>
    if !r.grants write then .mpu false k
    else
      match (s.sliceAt slice).liveAt a with
      | none => .window true
      | some w => if w.grants write then .pass r else .window false

/-- A violation: counted, captured when the capture is free, logged (R320, R322). -/
def State.violation (s : State) (master slice a : Nat) (write precise : Bool) (v : Verdict) : State :=
  let unit := if master == 44 then unitMgmt else if master < 32 then 7 else unitDma
  match v with
  | .pass _ => s
  | .mpu noRegion k =>
    let cap : Capture :=
      if precise then
        { write := write, none_ := noRegion, precise := true, region := if noRegion then 0 else k, slice := slice,
          master := master, addr := a }
      else
        { write := write, none_ := false, precise := false, region := 0, slice := slice, master := master, addr := 0 }
    let s := s.modMpu master (fun m => { m with viol := m.viol + 1, cap := some (m.cap.getD cap) })
    s.plogEvent unit 0x06 0 slice 0xFFFF (master + 0x100)
  | .window noWindow =>
    let cap : Capture :=
      { write := write, none_ := noWindow, precise := true, region := 0, slice := slice, master := master, addr := a }
    let s := s.modSlice slice (fun x => { x with winViol := x.winViol + 1 })
    let s := { s with hregs := { s.hregs with winCap := some (s.hregs.winCap.getD cap) } }
    s.plogEvent unit 0x06 0 slice 0xFFFF master

/-- Traffic that never carries NS or RO (R315). -/
def Traffic.ordered (t : Traffic) : Bool :=
  match t with
  | .stream => false | .image => false | .mailboxRead => false | _ => true

/-- The attributes of a TLP formed under a region (R245, R315). -/
def State.attrOf (s : State) (r : Region) (t : Traffic) : Attr :=
  { ns := r.ns && s.link.nsEn && !t.ordered, ro := r.ro && s.link.roEn && !t.ordered, ido := r.ido && s.link.idoEn }

/-- The PASID that accesses of a slice carry (R279). -/
def State.pasidOf (s : State) (slice : Nat) : Nat := (s.sliceAt slice).pasid

/-- Append what leaves the device. -/
def State.emit (s : State) (o : Out) : State := { s with out := s.out ++ [o] }

/-- Memory write TLPs of one part, cut at Max_Payload_Size (R245). -/
def State.emitWrite (s : State) (master slice a : Nat) (attr : Attr) (t : Traffic) (data : Bytes) : State :=
  let tlps := (pieces s.link.mps data).zipIdx.map
    (fun p => Out.mwr master slice (s.pasidOf slice) (a + p.2 * s.link.mps) attr t p.1)
  { s with out := s.out ++ tlps }

/-- Memory read TLPs of one part, cut at Max_Read_Request_Size (R245). -/
def State.partTlps (s : State) (master slice a : Nat) (attr : Attr) (t : Traffic) (len : Nat) : List Out :=
  let k := s.link.mrrs
  (List.range ((len + k - 1) / k)).map
    (fun i => Out.mrd master slice (s.pasidOf slice) (a + i * k) (min k (len - i * k)) attr t)

/-- Firmware sets the management core's MPU to the buffer it is about to access (R40, R313). -/
def State.fwRegion (s : State) (master addr len : Nat) : State :=
  if master == 44 then
    let r : Region := { Region.reset with
                        start := addr / 8, stop := (addr + len - 1) / 8, en := true, r := true, w := true }
    s.modMpu 44 (fun m => { m with en := true, regions := [(0, r)] })
  else s

/-- Parts written in order up to the first that fails; the flag tells that all passed. -/
def State.writeParts (s : State) (master slice : Nat) (t : Traffic) (precise : Bool) (base : Nat) (data : Bytes) :
    List (Nat × Nat) → State × Bool
  | [] => (s, true)
  | (a, n) :: ps =>
    match s.verdict master slice a true with
    | .pass r =>
      State.writeParts (s.emitWrite master slice a (s.attrOf r t) t (bytesAt data (a - base) n)) master slice t precise
        base data ps
    | v => (s.violation master slice a true precise v, false)

/-- A checked write without dirty-page logging. -/
def State.rawWrite (s : State) (master slice : Nat) (t : Traffic) (precise : Bool) (addr : Nat) (data : Bytes) :
    State × Bool :=
  let s := s.fwRegion master addr data.length
  s.writeParts master slice t precise addr data (s.parts master slice addr data.length)

/-- SOURCE of a dirty-page log entry (R299). -/
def Traffic.source (t : Traffic) : Nat :=
  match t with
  | .completion => 0 | .receipt => 1 | .frame => 2 | .seal => 3 | .saltern => 4 | .stream => 5 | .mailbox => 6 | _ => 7

/-- The dirty-page log stops (R302). -/
def State.dplStop (s : State) (slice : Nat) (access : Bool) : State :=
  let s := s.modSlice slice (fun x => { x with dplOvf := true, dplAccess := x.dplAccess || access })
  s.plogEvent unitDma 0x07 0 slice 0xFFFF (302 - 100)

/-- Write one entry of the log (R299, R300); where its master's MPU buffers writes, a violation is imprecise (R321). -/
def State.dplEntry (s : State) (slice source page : Nat) : State :=
  let x := s.sliceAt slice
  if !x.dplOn || x.dplOvf || x.dplFilter.contains page then s
  else if (x.dplWrite + 1) % 65536 == x.dplRead then s.dplStop slice false
  else
    let m := masterCq slice
    let entry := leBytes 8 (flag x.dplPhase + 256 * source + 4096 * page)
    let r := s.rawWrite m slice .dpl (!(s.mpuAt m).bufwLive) (x.dplRing + 8 * x.dplWrite) entry
    if r.2 then
      r.1.modSlice slice (fun y =>
        { y with dplWrite := (x.dplWrite + 1) % 65536, dplPhase := if x.dplWrite == 65535 then !x.dplPhase else x.dplPhase,
                 dplFilter := (page :: y.dplFilter).take 64 })
    else r.1.dplStop slice true

/-- Log one written page (R298-R302). While the MPU of the master that writes the log is disabled the entry waits (R317). -/
def State.dplPage (s : State) (slice : Nat) (t : Traffic) (page : Nat) : State :=
  if (s.sliceAt slice).dplHeld.isEmpty && s.canMaster (masterCq slice) then s.dplEntry slice t.source page
  else if (s.sliceAt slice).dplOn then s.modSlice slice (fun y => { y with dplHeld := y.dplHeld ++ [(t.source, page)] })
  else s

/-- The entries of a slice's log that waited are written. -/
def State.dplHeldWrite (s : State) (slice : Nat) : State :=
  (s.sliceAt slice).dplHeld.foldl (fun s e => s.dplEntry slice e.1 e.2) (s.modSlice slice (fun y => { y with dplHeld := [] }))

/-- The same for every slice whose master may write again, at a grain boundary. -/
def State.dplGrain (s : State) : State :=
  (s.slices.filter (fun e => !e.2.dplHeld.isEmpty)).foldl (fun s e =>
    if s.canMaster (masterCq e.1) then s.dplHeldWrite e.1 else s) s

/-- Log the pages of a write (R299). -/
def State.dplNote (s : State) (slice : Nat) (t : Traffic) (addr len : Nat) : State :=
  if len == 0 then s
  else
    (List.range ((addr + len - 1) / 4096 + 1 - addr / 4096)).foldl (fun s i => s.dplPage slice t (addr / 4096 + i)) s

/-- The part passes both checks. -/
def Verdict.passes (v : Verdict) : Bool := match v with | .pass _ => true | _ => false

/-- Bytes of an access up to its first part that fails. -/
def State.landed (s : State) (write : Bool) (master slice addr len : Nat) : Nat :=
  (((s.parts master slice addr len).takeWhile (fun p => (s.verdict master slice p.1 write).passes)).map Prod.snd).sum

/-- The first part of an access that fails, with its verdict. -/
def State.failingPart (s : State) (write : Bool) (master slice addr len : Nat) : Option (Nat × Verdict) :=
  ((s.parts master slice addr len).map (fun p => (p.1, s.verdict master slice p.1 write))).find? (fun p => !p.2.passes)

/-- A write checked now: parts that pass leave, pages are logged, a failing part is a violation. -/
def State.writeNow (s : State) (master slice : Nat) (t : Traffic) (precise : Bool) (addr : Nat) (data : Bytes) :
    State × Bool :=
  let n := (s.fwRegion master addr data.length).landed true master slice addr data.length
  let r := s.rawWrite master slice t precise addr data
  (r.1.dplNote slice t addr n, r.2)

/-- The oldest write of an MPU's buffer leaves and is checked (R306, R321): a violation ends its work with ACCESS. -/
def State.drainOne (s : State) (master : Nat) : State :=
  match (s.mpuAt master).wbuf with
  | [] => s
  | b :: rest =>
    let s := s.modMpu master (fun m => { m with wbuf := rest })
    let r := s.writeNow master b.slice b.kind false b.addr b.data
    if r.2 then r.1
    else
      match b.work with
      | none => r.1
      | some id => (r.1.releaseUnits id).restatus id .access

/-- Writes that a rule retries or stalls on, and statements, on whose landing the end of the command that writes them depends
(R138, R215): their verdict is awaited even when the MPU buffers writes (R321). -/
def Traffic.awaited (t : Traffic) : Bool :=
  match t with
  | .completion => true | .receipt => true | .frame => true | .seal => true | .saltern => true | .mailbox => true
  | .dpl => true | .statement => true | _ => false

/-- Every write of an MPU's buffer leaves. -/
def State.drainAll (s : State) (master : Nat) : State :=
  (s.mpuAt master).wbuf.foldl (fun s _ => s.drainOne master) s

/-- A host write on behalf of a work. With BUFW it enters the buffer, which lets its oldest write go when full (R321);
an awaited write goes through the buffer at once. -/
def State.hostWrite (s : State) (master slice : Nat) (t : Traffic) (work : Option Nat) (addr : Nat) (data : Bytes) :
    State × Bool :=
  let s := match work with | some id => s.assignDma master id | none => s
  if data.isEmpty then (s, true)
  else if decide (32 ≤ master) && decide (master < 44) && (s.mpuAt master).bufwLive then
    if t.awaited then (s.drainAll master).writeNow master slice t false addr data
    else
      let s := if (s.mpuAt master).wbuf.length < 16 then s else s.drainOne master
      let b : BufWrite := { slice := slice, work := work, addr := addr, kind := t, data := data }
      (s.modMpu master (fun m => { m with wbuf := m.wbuf ++ [b] }), true)
  else s.writeNow master slice t true addr data

/-- A write whose check was made before (a receipt, R306): each part leaves with the attributes of its own region (R307). -/
def State.writeChecked (s : State) (master slice : Nat) (t : Traffic) (addr : Nat) (data : Bytes) : State :=
  let s := (s.parts master slice addr data.length).foldl (fun s p =>
    let r := ((s.mpuAt master).regionAt p.1 true).map Prod.snd
    s.emitWrite master slice p.1 (s.attrOf (r.getD Region.reset) t) t (bytesAt data (p.1 - addr) p.2)) s
  s.dplNote slice t addr data.length

/-- The TLPs of the parts of a read in order up to the first that fails, and that part. -/
def State.readTlps (s : State) (master slice : Nat) (t : Traffic) : List (Nat × Nat) → List Out × Option (Nat × Verdict)
  | [] => ([], none)
  | (a, n) :: ps =>
    match s.verdict master slice a false with
    | .pass r =>
      let q := s.readTlps master slice t ps
      (s.partTlps master slice a (s.attrOf r t) t n ++ q.1, q.2)
    | v => ([], some (a, v))

/-- A read stands in `reads` until it ends: of its TLPs those that find a tag leave, the others wait. -/
def State.addRead (s : State) (kind : ReadKind) (master slice addr len : Nat) (retry : Bool) (tlps : List Out) : State :=
  let k := s.tagsFor tlps.length
  let rd : Read :=
    { id := s.nextId, kind := kind, slice := slice, master := master, addr := addr, len := len,
      epoch := (s.sliceAt slice).winEpoch, retry := retry, failedAt := none, preUnfence := false, discard := kind == .failed,
      tags := k, wait := tlps.drop k }
  { s with out := s.out ++ tlps.take k, reads := s.reads ++ [rd], nextId := s.nextId + 1 }

/-- The work of a read. -/
def ReadKind.work? (k : ReadKind) : Option Nat := match k with | .work id _ => some id | _ => none

/-- A host read: checked and issued. The parts issued of one that fails end for nobody (R307, R310). -/
def State.hostRead (s : State) (kind : ReadKind) (master slice : Nat) (t : Traffic) (addr len : Nat) (retry : Bool) :
    State × Bool :=
  let s := match kind.work? with | some id => s.assignDma master id | none => s
  let s := s.fwRegion master addr len
  let q := s.readTlps master slice t (s.parts master slice addr len)
  match q.2 with
  | none => (s.addRead kind master slice addr len retry q.1, true)
  | some (a, v) =>
    let n := s.landed false master slice addr len
    ((if n = 0 then s else s.addRead .failed master slice addr n false q.1).violation master slice a false true v, false)

/-- The outstanding read with a serial number. -/
def State.readAt (s : State) (id : Nat) : Option Read := s.reads.find? (fun r => r.id == id)

/-- Remove a read that has ended. -/
def State.dropRead (s : State) (id : Nat) : State := { s with reads := s.reads.filter (fun r => r.id != id) }

/-- Change a read. -/
def State.modRead (s : State) (id : Nat) (f : Read → Read) : State :=
  { s with reads := s.reads.map (fun r => if r.id == id then f r else r) }

/-- The read has ended with an error completion: nothing of it is outstanding (R248). -/
def Read.fails (r : Read) (g : Nat) : Read := { r with failedAt := some g, tags := 0, wait := [] }

/-- The read ends for nobody: what it brings is discarded. -/
def Read.orphan (r : Read) : Read := { r with kind := .failed, discard := true }

/-- Reads are given up by those they were for; their accesses still retire (R310). -/
def State.orphanReads (s : State) (p : Read → Bool) : State :=
  { s with reads := (s.reads.filter (fun r => !(p r && r.failedAt.isSome))).map (fun r => if p r then r.orphan else r) }

/-- The retry of a read: checked and issued anew (R306). One that fails its check ends; the parts issued of it end for
nobody. -/
def State.rereadNow (s : State) (r : Read) (t : Traffic) : State × Bool :=
  let s := s.fwRegion r.master r.addr r.len
  let q := s.readTlps r.master r.slice t (s.parts r.master r.slice r.addr r.len)
  let k := s.tagsFor q.1.length
  match q.2 with
  | none =>
    ({ s with out := s.out ++ q.1.take k }.modRead r.id (fun x =>
      { x with retry := true, failedAt := none, epoch := (s.sliceAt r.slice).winEpoch, tags := k, wait := q.1.drop k }), true)
  | some (a, v) =>
    let n := s.landed false r.master r.slice r.addr r.len
    let s := s.dropRead r.id
    ((if n = 0 then s else s.addRead .failed r.master r.slice r.addr n false q.1).violation r.master r.slice a false true v, false)

/-- The requests of a read that wait leave under the tags that are free. -/
def State.sendWaiting (s : State) (id : Nat) : State :=
  match s.readAt id with
  | none => s
  | some r =>
    let k := s.tagsFor r.wait.length
    { s with out := s.out ++ r.wait.take k }.modRead id (fun x => { x with tags := x.tags + k, wait := r.wait.drop k })

/-- The waiting requests, oldest read first, at a boundary: the model's choice of moment (log entry 74). -/
def State.tagGrain (s : State) : State :=
  if s.linkOpen then ((s.reads.filter (fun r => !r.wait.isEmpty)).map Read.id).foldl State.sendWaiting s else s

/-- Its data can arrive: no request of it waits, and it has not failed. -/
def Read.arrives (r : Read) : Bool := r.failedAt.isNone && r.wait.isEmpty

/-- Part numbers of the reads a work still waits for. -/
def State.readsOf (s : State) (work : Nat) : List Read :=
  s.reads.filter (fun r => match r.kind with | .work id _ => id == work | _ => false)

/-- Every access of a slice checked before its present window epoch has retired; a read that ended with an error completion
has (R310 step 4). -/
def State.oldAccessesRetired (s : State) (slice : Nat) : Bool :=
  let e := (s.sliceAt slice).winEpoch
  s.reads.all (fun r => r.slice != slice || r.epoch == e || r.failedAt.isSome) &&
    s.work.all (fun w => w.slice != slice || (match w.receipt with | none => true | some (_, k, _) => k == e)) &&
    s.brine.entries.all (fun x => x.slice != slice || (match x.rcptEpoch with | none => true | some k => k == e))

end Sys2Proof.Machine
end

