-- ==== Sys2Proof/Machine/Rings.lean ====
section
/-! DEFINITION. Submission and completion rings (R254-R277): fetching, header checks, completions, interrupts,
configuration. -/

namespace Sys2Proof.Machine
open Sys2Proof

/-! Fetching (R261-R263). -/

/-- Slots of a submission ring. -/
def Sq.size (q : Sq) : Nat := 2 ^ q.sizeLog2

/-- Submitted slots not yet read. A tail beyond the ring size is a host error: nothing is fetched (log entry 24). -/
def Sq.ahead (q : Sq) : Nat := if q.tail < q.size then (q.tail + q.size - q.fetch) % q.size else 0

/-- The read is a descriptor fetch of the ring. -/
def Read.isFetch (r : Read) (ring : Nat) : Bool := match r.kind with | .fetch k => k == ring | _ => false

/-- The read belongs to a book, not to a piece of work: a load or a rebuild. -/
def Read.ofBook (r : Read) : Bool := match r.kind with | .load _ _ => true | .rebuild _ _ => true | _ => false

/-- The write belongs to a book, or to the dirty-page log, not to a piece of work. -/
def Traffic.ofBook (k : Traffic) : Bool := k == .frame || k == .seal || k == .saltern || k == .dpl

/-- Fetch reads of a ring in flight. -/
def State.fetchReads (s : State) (ring : Nat) : List Read := s.reads.filter (fun r => r.isFetch ring)

/-- Change the fetch reads of a ring in flight. -/
def State.modFetch (s : State) (ring : Nat) (f : Read → Read) : State :=
  { s with reads := s.reads.map (fun r => if r.isFetch ring then f r else r) }

/-- The fetch engine still keeps the descriptor: it is held, or it is to be held, or an earlier F keeps it back (R236, R261). -/
def State.keeps (s : State) (w : Work) : Bool := w.isHeld || (w.isRouted && (w.isPosting || !s.mayBegin w))

/-- Slots the engine keeps for a ring (R261): in flight, read in part, kept for their admission. -/
def State.keptSlots (s : State) (ring : Nat) : Nat :=
  let held := (s.work.filter (fun w => w.ring == ring && s.keeps w)).map Work.nslots
  let air := (s.fetchReads ring).map (fun r => r.len / 64)
  (held ++ air).foldl (· + ·) ((s.sqAt ring).carry.length / 64)

/-- Slots that the next fetch read of a ring takes; 0 when the engine issues none (R247, R261, R262, R281, R563). -/
def State.fetchRoom (s : State) (ring : Nat) : Nat :=
  let q := s.sqAt ring
  let n := q.ahead
  if !(s.serviceable && s.canRead (masterFetch ring) && q.enabled && !q.busy && !q.halted &&
      (s.sliceAt q.slice).st == .active && decide (q.need ≤ n)) then 0
  else min (min 32 n) (min (q.size - q.fetch) (64 - s.keptSlots ring))

/-- What a halt, stall or retry of R263 and R274 logs. -/
def State.plogHeld (s : State) (rule slice ring : Nat) : State := s.plogEvent unitDma 0x07 0 slice ring (rule - 100)

/-- The ring is halted: of its reads in flight those from place `first` on, issued behind the failure, are not used (R263). -/
def State.haltRing (s : State) (ring cause first : Nat) : State :=
  let late := ((s.fetchReads ring).drop first).map Read.id
  let s := s.modSq ring (fun q => { q with halted := true, haltCause := cause, carry := if first = 0 then [] else q.carry })
  let s := s.modFetch ring (fun r => if late.contains r.id then { r with discard := true } else r)
  s.plogHeld 263 (s.sqAt ring).slice ring

/-- The place of a ring in the rotation of its engine, from the ring after the one served last (R261). -/
def State.fetchRank (s : State) (ring : Nat) : Nat := (ring + 65536 - tget 0 s.hregs.fetchFrom (ring % 4)) % 65536

/-- The turn of the ring's engine is the ring's: no other ring with slots to read stands before it (R261). -/
def State.fetchTurn (s : State) (ring : Nat) : Bool :=
  s.sq.all (fun e => e.1 % 4 != ring % 4 || e.1 == ring || s.fetchRoom e.1 == 0 || decide (s.fetchRank ring < s.fetchRank e.1))

/-- The engine goes on with the ring after this one (R261). -/
def State.fetchServed (s : State) (ring : Nat) : State :=
  { s with hregs := { s.hregs with fetchFrom := tput 0 s.hregs.fetchFrom (ring % 4) (ring + 1) } }

/-- One fetch read, from the fetch index. -/
def State.fetchRead (s : State) (ring : Nat) : State :=
  let q := s.sqAt ring
  let n := s.fetchRoom ring
  if n = 0 || !s.fetchTurn ring then s
  else
    let s := s.fetchServed ring
    let r := s.hostRead (.fetch ring) (masterFetch ring) q.slice .fetch (q.base + 64 * q.fetch) (64 * n) false
    if r.2 then r.1.modSq ring (fun q => { q with fetch := (q.fetch + n) % q.size, need := 0 })
    else r.1.haltRing ring 3 (r.1.fetchReads ring).length

/-- FETCH_READ_ISSUE. -/
def execFetchReadIssue (ring : Nat) (s : State) : Host.Outcome State Fault Refusal := .next (s.fetchRead ring)

/-- A fetch read, the `index`th in flight, has ended with an error completion, or its retry is due 1 pound later (R263). -/
def State.fetchRetry (s : State) (ring index : Nat) (poisoned : Bool) : State :=
  match (s.fetchReads ring)[index]? with
  | none => s
  | some r =>
    if r.discard then s.dropRead r.id
    else
      match r.failedAt with
      | none =>
        if r.retry then (s.dropRead r.id).haltRing ring (if poisoned then 2 else 1) index
        else (s.modRead r.id (fun r => r.fails s.now)).plogHeld 263 r.slice ring
      | some g =>
        if decide (s.now < g + pound) || !s.canRead r.master then s
        else
          let o := s.rereadNow r .fetch
          if o.2 then o.1 else o.1.haltRing ring 3 index

/-- FETCH_READ_RETRY. -/
def execFetchReadRetry (ring index : Nat) (poisoned : Bool) (s : State) : Host.Outcome State Fault Refusal :=
  .next (s.fetchRetry ring index poisoned)

/-! Arrival (R227, R234, R262, R265). -/

/-- A descriptor of `n` slots at a slot of a ring, in class-router form. -/
def State.newWork (s : State) (ring slot n : Nat) (d : Bytes) : Work :=
  let q := s.sqAt ring
  let b3 := fieldAt d 3 1
  { id := s.nextId, ring := ring, slot := slot, nslots := n, slice := q.slice, gen := (s.sliceAt q.slice).gen,
    opcode := fieldAt d 0 2, tag := fieldAt d 8 4, flagD := bit b3 4, flagF := bit b3 5, flagI := bit b3 6,
    flagL := bit b3 7, session := fieldAt d 6 2, aux := fieldAt d 0xC 2, len := fieldAt d 0xE 2, desc := d,
    phase := .routed, heldAt := s.now, cover := none, first := false, admitted := none, lateConds := [], lane := 0, extra := 0,
    redone := false, key := [], failed := none, input := [], arrived := none, pos := 0, fullSince := none, reserved := 0, ending := none, fenceDone := false, commit := none, receipt := none, mailbox := none,
    cpl := none }

/-- Put a descriptor into the device. -/
def State.addWork (s : State) (w : Work) : State := { s with work := s.work ++ [w], nextId := s.nextId + 1 }

/-- Put a descriptor into the device with its completion. -/
def State.addDone (s : State) (w : Work) (st : Status) (res : Bytes) : State := (s.addWork w).finish w.id st res

/-- SLOTS as read, 1 when it is not a slot count. -/
def slotCountOf (d : Bytes) : Nat :=
  let n := fieldAt d 2 1
  if n = 1 ∨ n = 2 ∨ n = 4 then n else 1

/-- The descriptor of a COMPARE has the slot count (R414) and the LENGTH that its N asks for; with no N from 1 to 32 no slot
count matches. -/
def Work.compareSlots (w : Work) : Bool :=
  let n := bits w.aux 5 0
  w.opcode != 0x1030 || (decide (1 ≤ n) && decide (n ≤ 32) && w.field 2 1 == (if n ≤ 24 then 1 else 2))
def Work.compareLen (w : Work) : Bool := w.opcode != 0x1030 || w.len == 2 * bits w.aux 5 0

/-- The first failing check of R265 with its status. -/
def headerFail (size gen : Nat) (w : Work) : Option (Nat × Status) :=
  let n := w.field 2 1
  let b3 := w.field 3 1
  let info := (opInfo w.opcode).getD { lens := [], session := false, listed := false }
  firstFail [
    ((n == 1 || n == 2 || n == 4) && decide (w.slot + n ≤ size), (1, .malformed)),
    (w.field 4 1 == gen, (2, .stale)),
    ((opInfo w.opcode).isSome, (3, .malformed)),
    (b3 % 4 == classOf w.opcode, (4, .malformed)),
    (info.lens.any (fun l => l.1 == n) && w.compareSlots, (5, .malformed)),
    (info.lens.any (fun l => l.1 == n && decide (l.2.1 ≤ w.len) && decide (w.len ≤ l.2.2)) && w.compareLen, (6, .malformed)),
    (w.field 5 1 == 0 && bits b3 3 2 == 0 && (!w.flagD || allowsD w.opcode), (7, .malformed)),
    (!info.session || decide (w.session < 0x2000), (8, .malformed))]

/-- The opcode runs in the present life-cycle state (R518, R523). -/
def State.opcodeRuns (s : State) (opcode : Nat) : Bool :=
  match s.tamper.state with
  | .bittern => opcode == 0x0000 || opcode == 0x4020 || opcode == 0xA010 || opcode == 0xA002
  | .spent => opcode == 0x0000 || opcode == 0x4020
  | _ => true

/-- Result of REPLAY (R208). -/
def Book.replayResult (b : Book) (consumed check : Nat) : Bytes :=
  leBytes 8 b.replayed ++ leBytes 4 consumed ++ [BitVec.ofNat 8 check]

/-- A refusal under R265: status, result of R268, which for a REPLAY is that of R208, log with the detail of R576. -/
def State.refuseHeader (s : State) (w : Work) (check : Nat) (st : Status) : State :=
  let badSlots := check == 1 && slotCountOf w.desc != w.field 2 1
  let w := if badSlots then { w with opcode := 0xFFFF } else w
  let own := match opInfo w.opcode with | some i => i.listed | none => false
  let detail := if st == .stale then w.field 4 1 + 256 * (s.sliceAt w.slice).gen else 0
  let s := s.plogWork w 0x01 check st detail
  s.addDone w st
    (if own then refusalResult 1 0xFF else if w.opcode == 0x3020 then (s.bookAt w.slice).replayResult 0 0
     else [BitVec.ofNat 8 check])

/-- The header is checked, and the descriptor is refused or goes to its class. -/
def State.route (s : State) (w : Work) : State :=
  match headerFail (s.sqAt w.ring).size (s.sliceAt w.slice).gen w with
  | some (k, st) => s.refuseHeader w k st
  | none =>
    if !s.opcodeRuns w.opcode then (s.plogWork w 0x01 0 .state 0).addDone w .state []
    else if classOf w.opcode = 0 then s.addWork { w with phase := .held }
    else s.addWork w

/-- A descriptor with an uncorrectable word, read for the second time (R227); `header` tells that the word is in the
header. That its I and F flags are then taken as read is the model's choice (log entry 68). -/
def State.faultDescriptor (s : State) (w : Work) (header : Bool) : State :=
  s.addDone (if header then { w with opcode := 0xFFFF, tag := 0 } else w) .fault []

/-- A descriptor with an uncorrectable word is read again, with what was read behind it (R227). -/
def State.rereadFrom (s : State) (ring slot : Nat) : State :=
  let s := s.modSq ring (fun q => { q with refetch := some slot, fetch := slot, need := 0, carry := [] })
  s.modFetch ring (fun r => { r with discard := true })

/-- The last slots of a descriptor have not been read: they stand in a read in flight, or the engine waits for a tail
that covers them (R262). -/
def State.partRead (s : State) (ring slot need : Nat) (data : Bytes) : State :=
  if (s.fetchReads ring).any (fun r => !r.discard) then s.modSq ring (fun q => { q with carry := data })
  else s.modSq ring (fun q => { q with fetch := slot, need := need })

/-- One whole descriptor of a ring is presented. That the FENCED completion of one read on a fenced ring takes the I flag as
read is the model's choice (log entry 68). -/
def State.presentOne (s : State) (ring slot n : Nat) (d : Bytes) (pre : Bool) : State :=
  let q := s.sqAt ring
  let w := s.newWork ring slot n d
  let s := s.modSq ring (fun q => { q with refetch := if q.refetch == some slot then none else q.refetch, need := 0 })
  if q.fenced || pre then
    let s := s.addDone w .fenced [BitVec.ofNat 8 q.fenceCause]
    s.modSq ring (fun q => { q with fenceHead := some (q.fenceHead.getD slot) })
  else s.route w

/-- The last slots of a descriptor that ends FAULT have not been read: the next one is fetched from the slot behind it, or
behind the tail where its count runs past it (log entry 68). -/
def State.skipRest (s : State) (ring slot n have_ : Nat) : State :=
  let q := s.sqAt ring
  if n ≤ have_ then s
  else
    (s.modSq ring (fun x => { x with fetch := (slot + min n ((q.tail + q.size - slot) % q.size)) % q.size })).modFetch ring
      (fun r => { r with discard := true })

/-- The descriptors of fetched data, from a slot on: `bad` are its uncorrectable 16-byte words. One whose slots run past both the
tail and the ring end waits for the tail and is then refused by check 1: the model's choice (log entry 87). -/
def State.present (s : State) (ring : Nat) (pre : Bool) : Nat → Nat → Bytes → List Nat → State
  | 0, _, _, _ => s
  | fuel + 1, slot, data, bad =>
    if data.isEmpty then s
    else
      let q := s.sqAt ring
      let fenced := q.fenced || pre
      let n := if bad.contains 0 && !fenced then 1 else min (slotCountOf data) (q.size - slot)
      let hit := !fenced && bad.any (fun k => decide (k < 4 * n))
      let next (s : State) : State :=
        State.present s ring pre fuel (slot + n) (data.drop (64 * n)) ((bad.filter (fun k => decide (4 * n ≤ k))).map (· - 4 * n))
      if hit then
        let s := s.uncorrectable unitDma 9 q.slice 0
        if q.refetch == some slot then
          let s := s.modSq ring (fun q => { q with refetch := none })
          next ((s.faultDescriptor (s.newWork ring slot n (bytesAt data 0 (64 * n))) (bad.contains 0)).skipRest ring slot n
            (data.length / 64))
        else s.rereadFrom ring slot
      else if data.length < 64 * n then s.partRead ring slot n data
      else next (s.presentOne ring slot n (data.take (64 * n)) pre)

/-- Data of the oldest fetch read of a ring arrives; while that read awaits its retry nothing behind it is presented (R261).
A descriptor read in two goes by the read of its last slots where only the first was issued before the end of a fence (R237): the
model's choice (log entry 85). -/
def State.arrival (s : State) (ring : Nat) (data : Bytes) (bad : List Nat) : State :=
  match (s.fetchReads ring).head? with
  | none => s
  | some r =>
    if !r.arrives || data.length ≠ r.len then s
    else
      let s := s.dropRead r.id
      if r.discard || s.pwr.flush.isSome then s
      else
        let q := s.sqAt ring
        let k := q.carry.length / 64
        let s := s.modSq ring (fun q => { q with carry := [] })
        s.present ring r.preUnfence (k + data.length / 64) ((r.addr - q.base) / 64 - k) (q.carry ++ data)
          (bad.map (· + 4 * k))

/-- DESCRIPTOR_ARRIVAL. -/
def execDescriptorArrival (ring : Nat) (data : Bytes) (bad : List Nat) (s : State) : Host.Outcome State Fault Refusal :=
  .next (s.arrival ring data bad)

/-- NOP (R257): completed by the fetch engine, in ring order. -/
def execNop (ring : Nat) (s : State) : Host.Outcome State Fault Refusal :=
  .next (s.onStart ring 0x0000 (fun w => s.finish w.id .ok []))

/-! Interrupts (R271). -/

/-- A message of a vector is not sent: the vector or the function is masked, or MSI-X is not enabled (R252, R271). -/
def State.silent (s : State) (e : Vector) : Bool := e.masked || s.link.funcMask || !s.link.msixEn

/-- A message of a vector: sent, or pending. -/
def State.message (s : State) (v : Nat) : State :=
  let e := s.vectorAt v
  if s.silent e then s.setVector v { e with pending := true }
  else s.emit (.msix e.addr e.data)

/-- The ring's message is sent and its count starts again. -/
def State.ringMessage (s : State) (ring : Nat) : State :=
  let s := s.message (s.sqAt ring).vector
  s.modSq ring (fun q => { q with modSeen := 0, modSince := none })

/-- A completion with I has been issued (R271). That it is not counted while NOINT is 1 is the model's choice (log entry 86). -/
def State.moderate (s : State) (ring : Nat) : State :=
  if (s.sqAt ring).noint then s
  else
    let s := s.modSq ring (fun q => { q with modSeen := q.modSeen + 1, modSince := some (q.modSince.getD s.now) })
    let q := s.sqAt ring
    if max 1 q.modCount ≤ q.modSeen then s.ringMessage ring else s

/-- The moderation timer of a ring expires (R271). -/
def State.timer (s : State) (ring : Nat) : State :=
  let q := s.sqAt ring
  match q.modSince with
  | none => s
  | some g => if q.modTime != 0 && decide (g + q.modTime ≤ s.now) && !q.noint && s.linkOpen then s.ringMessage ring else s

/-- MSIX_TIMER_EXPIRY. -/
def execMsixTimerExpiry (ring : Nat) (s : State) : Host.Outcome State Fault Refusal := .next (s.timer ring)

/-! Issue of completions (R28, R172, R268, R269, R274, R289). -/

/-- A completion with FAULT and cause 0x03 is exempt from promise 4. -/
def Cpl.exempt (c : Cpl) : Bool := c.status == .fault && c.result.getD 8 0 == 3

/-- The commit of a piece of work lets its completion go: its frame has been issued, and with D it is persisted. -/
def State.commitReady (s : State) (w : Work) : Bool :=
  match w.commit, w.cpl with
  | some (b, lseq), some c =>
    c.exempt || (decide (lseq ≤ (s.bookAt b).issued) && (!w.flagD || decide (lseq ≤ (s.bookAt b).persisted)))
  | _, _ => true

/-- No write of the work waits in a write buffer (R321). -/
def State.drainedWork (s : State) (id : Nat) : Bool := s.mpus.all (fun m => m.wbuf.all (fun b => b.work != some id))

/-- Index of the slot after the descriptor's last slot. -/
def State.headOf (s : State) (w : Work) : Nat := (w.slot + w.nslots) % (s.sqAt w.ring).size

/-- The completion entry of R268. -/
def entryOf (w : Work) (c : Cpl) (head : Nat) (phase late : Bool) : Bytes :=
  leBytes 4 c.tag ++ leBytes 2 w.ring ++ leBytes 2 head ++ leBytes 1 (statusCode c.status) ++ leBytes 1 w.gen ++
    leBytes 2 (flag phase + 2 * flag late + 4 * flag c.redo + 8 * flag c.rcpt) ++ leBytes 2 c.opcode ++ zeros 2 ++
    fit 16 c.result

/-- Writes of a completion that R289 drops: the entry, and a receipt or mailbox that was to precede it. -/
def Work.writes (w : Work) : Nat := 1 + flag w.receipt.isSome + flag w.mailbox.isSome

/-- Dropped completions, receipts and mailbox writes are counted (SLICE_DROPPED). -/
def State.countDropped (s : State) (slice n : Nat) : State :=
  s.modSlice slice (fun x => { x with dropped := x.dropped + BitVec.ofNat 32 n })

/-- The writes of a piece of an older generation are dropped and counted (R289). -/
def State.dropWrites (s : State) (w : Work) : State :=
  ((s.dropWork w.id).countLate w.slice (s.lateAtEnd w)).countDropped w.slice w.writes

/-- The completion ring stalls behind a refused write (R274). -/
def State.stall (s : State) (cq ring slice : Nat) : State :=
  let s := s.modCq cq (fun c => { c with stalled := true, stallAt := s.now, stallRing := ring })
  s.plogHeld 274 slice ring

/-- What stands after the completion entry has been issued. -/
def State.issued (s : State) (w : Work) (c : Cpl) (head : Nat) : State :=
  let cq := (s.sqAt w.ring).cq
  let s := (s.dropWork w.id).countLate w.slice (s.lateAtEnd w)
  let s := s.modSq w.ring (fun q => { q with done := head })
  let s := s.modCq cq (fun x =>
    if x.widx + 1 = 2 ^ x.sizeLog2 then { x with widx := 0, phase := !x.phase } else { x with widx := x.widx + 1 })
  let s := if w.flagI then s.moderate w.ring else s
  if w.flagFails then s.fenceRing w.ring 1 c.tag else s

/-- The receipt, the mailbox and the completion entry leave in this order. -/
def State.issueWrites (s : State) (w : Work) (c : Cpl) : State :=
  let q := s.sqAt w.ring
  let m := masterCq q.cq
  let s := match w.receipt with
    | none => s
    | some (a, _, d) => (s.writeChecked m w.slice .receipt a d).modWork w.id (fun w => { w with receipt := none })
  let r := match w.mailbox with
    | none => (s, true)
    | some (a, d) =>
      let r := s.hostWrite m w.slice .mailbox none a d
      if r.2 then (r.1.modWork w.id (fun w => { w with mailbox := none }), true) else r
  if !r.2 then r.1.stall q.cq w.ring w.slice
  else
    let x := r.1.cqAt q.cq
    let head := r.1.headOf w
    let o := r.1.hostWrite m w.slice .completion none (x.base + 32 * x.widx)
      (entryOf w c head x.phase (c.late || !(r.1.lateAtEnd w).isEmpty))
    if o.2 then o.1.issued w c head else o.1.stall q.cq w.ring w.slice

/-- Issue the completion of the ring's oldest descriptor, when it may go. -/
def State.issueCpl (s : State) (ring : Nat) : State :=
  match s.work.find? (fun w => w.ring == ring) with
  | none => s
  | some w =>
    match w.cpl with
    | none => s
    | some c =>
      let cq := (s.sqAt ring).cq
      if !w.isDone || !s.drainedWork w.id then s
      else if (s.sliceAt w.slice).gen ≠ w.gen then
        (if w.commit.all (fun p => decide (p.2 ≤ (s.bookAt p.1).issued)) then s.dropWrites w else s)
      else if !s.commitReady w || (s.cqAt cq).stalled || !s.canMaster (masterCq cq) then s
      else s.issueWrites w c

/-- COMPLETION_ISSUE. -/
def execCompletionIssue (ring : Nat) (s : State) : Host.Outcome State Fault Refusal := .next (s.issueCpl ring)

/-- A stalled completion ring retries its write each pound (R274). -/
def State.cqRetry (s : State) (cq : Nat) : State :=
  let c := s.cqAt cq
  if !c.stalled || decide (s.now < c.stallAt + pound) || !s.canMaster (masterCq cq) then s
  else (s.modCq cq (fun c => { c with stalled := false })).issueCpl c.stallRing

/-- COMPLETION_WRITE_RETRY. -/
def execCompletionWriteRetry (cq : Nat) (s : State) : Host.Outcome State Fault Refusal := .next (s.cqRetry cq)

/-! Configuration (R272, R273). -/

/-- Rings of a kind that a slice has enabled, the named one not counted; a BUSY ring counts. -/
def State.sqUsed (s : State) (slice ring : Nat) : Nat :=
  (s.sq.filter (fun e => e.1 != ring && e.2.slice == slice && (e.2.enabled || e.2.busy))).length
def State.cqUsed (s : State) (slice cq : Nat) : Nat :=
  (s.cq.filter (fun e => e.1 != cq && e.2.slice == slice && e.2.enabled)).length

/-- ERR of the enable of a submission ring, 0 on success (R272). -/
def State.sqEnableErr (s : State) (ring : Nat) : Nat :=
  let q := s.sqAt ring
  let sl := s.sliceAt q.slice
  let c := s.cqAt q.cq
  (firstFail [(sl.st == .active, 1), (decide (6 ≤ q.sizeLog2) && decide (q.sizeLog2 ≤ 16), 2),
    (decide (s.sqUsed q.slice ring < sl.sqQuota), 3),
    (s.rangeOk q.slice q.base (64 * q.size) false &&
      (!q.rcptEn || s.rangeOk q.slice q.rcptBase (128 * q.size) true), 4),
    (c.enabled && c.slice == q.slice, 5), (s.link.bme && s.link.pasidEn, 8)]).getD 0

/-- ERR of the enable of a completion ring, 0 on success. -/
def State.cqEnableErr (s : State) (cq : Nat) : Nat :=
  let c := s.cqAt cq
  let sl := s.sliceAt c.slice
  (firstFail [(sl.st == .active, 1), (decide (6 ≤ c.sizeLog2) && decide (c.sizeLog2 ≤ 16), 2),
    (decide (s.cqUsed c.slice cq < sl.cqQuota), 3), (s.rangeOk c.slice c.base (32 * 2 ^ c.sizeLog2) true, 4),
    (s.link.bme && s.link.pasidEn, 8)]).getD 0

/-- Offset of RING_CFG. -/
def offRingCfg : Nat := 0x020010

/-- ERR of a submission ring; a refusal is logged. -/
def State.sqErr (s : State) (ring err offset : Nat) : State :=
  let s := s.modSq ring (fun q => { q with err := err })
  if err = 0 then s else s.plogEvent unitDma 0x04 err (s.sqAt ring).slice ring offset

/-- ERR of a completion ring; a refusal is logged. -/
def State.cqErr (s : State) (cq err offset : Nat) : State :=
  let s := s.modCq cq (fun c => { c with err := err })
  if err = 0 then s else s.plogEvent unitDma 0x04 err (s.cqAt cq).slice 0xFFFF offset

/-- An enabled submission ring: indices 0, no moderation, not halted (R263, R271, R272). -/
def Sq.started (q : Sq) : Sq :=
  { q with enabled := true, tail := 0, fetch := 0, done := 0, halted := false, haltCause := 0, need := 0, modSeen := 0,
           modSince := none, refetch := none, carry := [] }

/-- Disable of a submission ring: fetching stops, reads in flight will be discarded, BUSY until the end (R272). -/
def State.sqDisable (s : State) (ring : Nat) : State :=
  let s := s.modSq ring (fun q => { q with busy := true, carry := [] })
  s.modFetch ring (fun r => { r with discard := true })

/-- A submission ring bound to the completion ring is enabled or BUSY. -/
def State.cqBound (s : State) (cq : Nat) : Bool := s.sq.any (fun e => e.2.cq == cq && (e.2.enabled || e.2.busy))

/-- A write of RING_CFG to a submission ring. -/
def State.sqCfg (s : State) (ring value : Nat) : State :=
  let q := s.sqAt ring
  let size := bits value 4 0
  let slice := bits value 25 16
  let en := bit value 8
  if q.enabled || q.busy then
    let s := if !en && q.enabled && !q.busy then s.sqDisable ring else s
    s.sqErr ring (if size = q.sizeLog2 ∧ slice = q.slice then 0 else 6) offRingCfg
  else
    let s := s.modSq ring (fun q => { q with sizeLog2 := size, slice := slice })
    if !en then s.sqErr ring 0 offRingCfg
    else
      let err := s.sqEnableErr ring
      let s := s.sqErr ring err offRingCfg
      if err = 0 then s.modSq ring Sq.started else s

/-- A write of RING_CFG to a completion ring. -/
def State.cqCfg (s : State) (cq value : Nat) : State :=
  let c := s.cqAt cq
  let size := bits value 4 0
  let slice := bits value 25 16
  let en := bit value 8
  if c.enabled then
    let same := size == c.sizeLog2 && slice == c.slice
    if !en && s.cqBound cq then s.cqErr cq (if same then 7 else 6) offRingCfg
    else
      let s := if en then s else s.modCq cq (fun c => { c with enabled := false })
      s.cqErr cq (if same then 0 else 6) offRingCfg
  else
    let s := s.modCq cq (fun c => { c with sizeLog2 := size, slice := slice })
    if !en then s.cqErr cq 0 offRingCfg
    else
      let err := s.cqEnableErr cq
      let s := s.cqErr cq err offRingCfg
      if err = 0 then
        s.modCq cq (fun c => { c with enabled := true, widx := 0, phase := true, stalled := false, stallAt := 0 })
      else s

/-- A write of RING_CFG to the selected ring. -/
def State.ringCfg (s : State) (value : Nat) : State :=
  if s.hregs.ringKind then s.cqCfg s.hregs.ringSel value else s.sqCfg s.hregs.ringSel value

/-- RING_ENABLE: a RING_CFG write with ENABLE 1. -/
def execRingEnable (value : Nat) (s : State) : Host.Outcome State Fault Refusal :=
  .next (if bit value 8 then s.onReg offRingCfg (fun s => s.ringCfg value) else s)

/-- RING_DISABLE: a RING_CFG write with ENABLE 0. -/
def execRingDisable (value : Nat) (s : State) : Host.Outcome State Fault Refusal :=
  .next (if bit value 8 then s else s.onReg offRingCfg (fun s => s.ringCfg value))

/-- BUSY ends: every fetched descriptor has completed and no fetch read is in flight (R272). -/
def State.disableDone (s : State) (ring : Nat) : State :=
  if (s.sqAt ring).busy && s.work.all (fun w => w.ring != ring) && (s.fetchReads ring).isEmpty then
    s.modSq ring (fun q => { q with busy := false, enabled := false })
  else s

/-- RING_DISABLE_DONE. -/
def execRingDisableDone (ring : Nat) (s : State) : Host.Outcome State Fault Refusal := .next (s.disableDone ring)

/-- At the boundary the fence of a ring is cleared; what was fetched before still completes FENCED (R237). -/
def State.unfence (s : State) (ring : Nat) : State :=
  if (s.sqAt ring).fenced then
    let s := s.modSq ring (fun q => { q with fenced := false })
    s.modFetch ring (fun r => { r with preUnfence := true })
  else s

/-- UNFENCE: 1 written to RING_FENCE.UNFENCE of the selected submission ring. -/
def execUnfence (s : State) : Host.Outcome State Fault Refusal :=
  .next (s.onReg 0x020030 (fun s => if s.hregs.ringKind then s else s.defer (.unfence s.hregs.ringSel)))

end Sys2Proof.Machine
end

