-- ==== Sys2Proof/Machine/Doorbells.lean ====
section
/-! DEFINITION. Doorbells (R173, R198, R258-R260). -/

namespace Sys2Proof.Machine
open Sys2Proof

/-- The bits of RING_STATUS that a refused doorbell sets. -/
inductive DbFlag where
  | stale | size | disabled | reserved
deriving DecidableEq, Repr

/-- Bit of RING_STATUS. -/
def DbFlag.bitNo (f : DbFlag) : Nat :=
  match f with
  | .stale => 8 | .size => 9 | .disabled => 10 | .reserved => 11

/-- The flag is set in a ring. -/
def Sq.withFlag (q : Sq) (f : DbFlag) : Sq :=
  match f with
  | .stale => { q with dbStale := true }
  | .size => { q with dbSize := true }
  | .disabled => { q with dbDisabled := true }
  | .reserved => { q with dbReserved := true }

/-- A doorbell is ignored and logged (R259). -/
def State.dbIgnored (s : State) (ring off : Nat) (f : DbFlag) : State :=
  let s := s.modSq ring (fun q => q.withFlag f)
  s.plogEvent unitPcie 0x02 0 (s.sqAt ring).slice ring (f.bitNo + 65536 * off)

/-- The submission doorbell of an enabled ring. -/
def State.submit (s : State) (ring value : Nat) : State :=
  let q := s.sqAt ring
  let sl := s.sliceAt q.slice
  if bits value 23 16 != sl.gen || sl.st != .active then s.dbIgnored ring 0 .stale
  else if bits value 15 0 == q.tail then s
  else s.modSq ring (fun q => { q with tail := bits value 15 0 })

/-- Place of the journal writer in the order of R20. -/
def unitJournal : Nat := 3

/-- The frames up to the released LSEQ are free (R198). -/
def Book.release (b : Book) : Book :=
  let lim := max b.drained b.persisted
  let gone := b.frameEnds.takeWhile (fun e => decide (e.1 ≤ lim))
  { b with frameEnds := b.frameEnds.drop gone.length, freeUpTo := ((gone.getLast?).map Prod.snd).getD b.freeUpTo }

/-- A journal doorbell in a wrong state or beyond what was issued. -/
def State.plogJournalDb (s : State) (slice lseq : Nat) : State :=
  s.plogEvent unitJournal 0x08 0 slice 0xFFFF (lseq % 2 ^ 32)

/-- The journal-persisted doorbell (R173). -/
def State.persistedDb (s : State) (slice lseq : Nat) : State :=
  let b := s.bookAt slice
  if b.st != .open_ then s.plogJournalDb slice lseq
  else if lseq ≤ b.persisted then s
  else
    let s := if b.issued < lseq then s.plogJournalDb slice lseq else s
    s.setBook slice ({ b with persisted := min lseq b.issued } : Book).release

/-- The journal-drained doorbell (R198). -/
def State.drainedDb (s : State) (slice lseq : Nat) : State :=
  let b := s.bookAt slice
  if b.st != .open_ then s.plogJournalDb slice lseq
  else if lseq ≤ max b.drained b.persisted then s
  else
    let s := if b.issued < lseq then s.plogJournalDb slice lseq else s
    s.setBook slice ({ b with drained := max b.drained (min lseq b.issued) } : Book).release

/-- One write of a doorbell page, first matching row of R259. -/
def State.doorbell (s : State) (ring off size value : Nat) : State :=
  let q := s.sqAt ring
  if size != 8 || off % 8 != 0 then s.dbIgnored ring off .size
  else if 0x18 ≤ off then s.dbIgnored ring off .reserved
  else if !q.enabled || q.busy then s.dbIgnored ring off .disabled
  else if off = 0 then s.submit ring value
  else if off = 8 then s.persistedDb q.slice value
  else s.drainedDb q.slice value

/-- BAR2 and BAR4 take writes: not in HALT (R376). -/
def State.onDoorbell (s : State) (offset : Nat) (f : State → State) : State :=
  if s.barUp && !s.halted then f s else if s.barClosed then s.barRefused offset else s

/-- SUBMISSION_DOORBELL. -/
def execSubmissionDoorbell (ring value : Nat) (s : State) : Host.Outcome State Fault Refusal :=
  .next (s.onDoorbell (4096 * ring) (fun s => s.doorbell ring 0 8 value))

/-- JOURNAL_PERSISTED_DOORBELL. -/
def execJournalPersistedDoorbell (ring lseq : Nat) (s : State) : Host.Outcome State Fault Refusal :=
  .next (s.onDoorbell (4096 * ring + 8) (fun s => s.doorbell ring 8 8 lseq))

/-- JOURNAL_DRAINED_DOORBELL. -/
def execJournalDrainedDoorbell (ring lseq : Nat) (s : State) : Host.Outcome State Fault Refusal :=
  .next (s.onDoorbell (4096 * ring + 0x10) (fun s => s.doorbell ring 0x10 8 lseq))

/-- A TLP split into its aligned quadwords in address order (R260). -/
def State.doorbellTlp (s : State) : Nat → Nat → Bytes → State
  | 0, _, _ => s
  | fuel + 1, off, data =>
    if data.isEmpty then s
    else
      let n := min data.length (8 - off % 8)
      let s := s.doorbell (off / 4096) (off % 4096) n (leNat (data.take n))
      s.doorbellTlp fuel (off + n) (data.drop n)

/-- DOORBELL_WRITE_COMBINED: the bytes of one TLP from a BAR2 offset. -/
def execDoorbellWriteCombined (offset : Nat) (data : Bytes) (s : State) : Host.Outcome State Fault Refusal :=
  .next (s.onDoorbell offset (fun s =>
    if data.length ≤ 8 then s.doorbell (offset / 4096) (offset % 4096) data.length (leNat data)
    else s.doorbellTlp (data.length + 1) offset data))

end Sys2Proof.Machine
end

