-- ==== Sys2Proof/Machine/Aes.lean ====
section
/-! DEFINITION. AES and its modes: CMAC, CTR, CBC, XTS, GCM, key wrap, CBC-MAC, the KDF of R391. The algorithms are
those of FIPS 197 and NIST SP 800-38A, B, D, E, 800-108 and RFC 3394, which the manual cites (PRESUMED, log entry 1). -/

namespace Sys2Proof.Machine
open Sys2Proof

/-! A state, a word and a round key of AES are the numbers of their bytes, the first byte lowest; row `r` of column `c` is
byte `4 c + r`. -/

/-- The 16 bytes of a number, each multiplied by x in GF(2^8). -/
def double (v : Nat) : Nat :=
  ((2 * v) &&& 0xFEFEFEFEFEFEFEFEFEFEFEFEFEFEFEFE) ^^^ (0x1B * ((v / 2 ^ 7) &&& 0x01010101010101010101010101010101))

/-- Byte `a` of a table of 16 rows of 16 bytes, the row of the high digit, the leftmost byte that of low digit 0. -/
def tableByte (rows : List Nat) (a : Nat) : Nat := rows.getD (a / 16) 0 / 256 ^ (15 - a % 16) % 256

/-- The S-box of FIPS 197. -/
def sbox (a : Nat) : Nat :=
  tableByte
   [0x637c777bf26b6fc53001672bfed7ab76, 0xca82c97dfa5947f0add4a2af9ca472c0, 0xb7fd9326363ff7cc34a5e5f171d83115,
    0x04c723c31896059a071280e2eb27b275, 0x09832c1a1b6e5aa0523bd6b329e32f84, 0x53d100ed20fcb15b6acbbe394a4c58cf,
    0xd0efaafb434d338545f9027f503c9fa8, 0x51a3408f929d38f5bcb6da2110fff3d2, 0xcd0c13ec5f974417c4a77e3d645d1973,
    0x60814fdc222a908846eeb814de5e0bdb, 0xe0323a0a4906245cc2d3ac629195e479, 0xe7c8376d8dd54ea96c56f4ea657aae08,
    0xba78252e1ca6b4c6e8dd741f4bbd8b8a, 0x703eb5664803f60e613557b986c11d9e, 0xe1f8981169d98e949b1e87e9ce5528df,
    0x8ca1890dbfe6426841992d0fb054bb16] a

/-- The inverse S-box. -/
def isbox (a : Nat) : Nat :=
  tableByte
   [0x52096ad53036a538bf40a39e81f3d7fb, 0x7ce339829b2fff87348e4344c4dee9cb, 0x547b9432a6c2233dee4c950b42fac34e,
    0x082ea16628d924b2765ba2496d8bd125, 0x72f8f66486689816d4a45ccc5d65b692, 0x6c704850fdedb9da5e154657a78d9d84,
    0x90d8ab008cbcd30af7e45805b8b34506, 0xd02c1e8fca3f0f02c1afbd0301138a6b, 0x3a9111414f67dcea97f2cfcef0b4e673,
    0x96ac7422e7ad3585e2f937e81c75df6e, 0x47f11a711d29c5896fb7620eaa18be1b, 0xfc563e4bc6d279209adbc0fe78cd5af4,
    0x1fdda8338807c731b11210592780ec5f, 0x60517fa919b54a0d2de57a9f93c99cef, 0xa0e03b4dae2af5b0c8ebbb3c83539961,
    0x172b047eba77d626e169146355210c7d] a

/-- The low `n` bytes of a number through a table. -/
def subBytes (f : Nat → Nat) : Nat → Nat → Nat
  | 0, _ => 0
  | n + 1, v => f (v % 256) + 256 * subBytes f n (v / 256)

/-- Key expansion: `n` further words from the words so far (latest first); `i` is the next index, `nk` the key words. -/
def aesExpand (nk : Nat) : Nat → Nat → Nat → List Nat → List Nat
  | 0, _, _, ws => ws.reverse
  | n + 1, i, rc, ws =>
    let prev := ws.headD 0
    let t :=
      if i % nk == 0 then subBytes sbox 4 (prev / 256 + prev % 256 * 2 ^ 24) ^^^ rc
      else if nk > 6 && i % nk == 4 then subBytes sbox 4 prev
      else prev
    onNat (ws.getD (nk - 1) 0 ^^^ t) (fun w =>
      aesExpand nk n (i + 1) (if i % nk == 0 then double rc else rc) (w :: ws))

/-- The round keys of the words. -/
def joinWords : List Nat → List Nat
  | a :: b :: c :: d :: ws => (a + b * 2 ^ 32 + c * 2 ^ 64 + d * 2 ^ 96) :: joinWords ws
  | _ => []

/-- Round keys of a 16-, 24- or 32-byte key. -/
def aesKeys (key : Bytes) : List Nat :=
  let nk := key.length / 4
  joinWords (aesExpand nk (4 * (nk + 7) - nk) nk 1 ((pieces 4 key).map leNat).reverse)

/-- Row `r` of every column. -/
def rowMask (r : Nat) : Nat := 0xFF * 2 ^ (8 * r) * 0x1000000010000000100000001

/-- The columns of a row mask moved by `c` columns towards column 0, the first ones to the end. -/
def moveCols (c v : Nat) : Nat := v / 2 ^ (32 * c) + v * 2 ^ (128 - 32 * c) % 2 ^ 128

def shiftRows (v : Nat) : Nat :=
  (v &&& rowMask 0) ^^^ moveCols 1 (v &&& rowMask 1) ^^^ moveCols 2 (v &&& rowMask 2) ^^^ moveCols 3 (v &&& rowMask 3)

def invShiftRows (v : Nat) : Nat :=
  (v &&& rowMask 0) ^^^ moveCols 3 (v &&& rowMask 1) ^^^ moveCols 2 (v &&& rowMask 2) ^^^ moveCols 1 (v &&& rowMask 3)

/-- The columns of a state as a number, row `i` of each replaced by row `(i + r) % 4`, for `r` from 1 to 3. -/
def rotRows (r v : Nat) : Nat :=
  let low : Nat := (2 ^ (32 - 8 * r) - 1) * 0x1000000010000000100000001
  ((v / 2 ^ (8 * r)) &&& low) ||| ((v * 2 ^ (32 - 8 * r)) &&& (low ^^^ (2 ^ 128 - 1)))

/-- MixColumns, with the coefficients 2, 3, 1, 1. -/
def mixColumns (v : Nat) : Nat := double v ^^^ rotRows 1 (double v ^^^ v) ^^^ rotRows 2 v ^^^ rotRows 3 v

/-- InvMixColumns, with the coefficients 14, 11, 13, 9. -/
def invMixColumns (v : Nat) : Nat :=
  let v2 := double v
  let v4 := double v2
  let v8 := double v4
  (v8 ^^^ v4 ^^^ v2) ^^^ rotRows 1 (v8 ^^^ v2 ^^^ v) ^^^ rotRows 2 (v8 ^^^ v4 ^^^ v) ^^^ rotRows 3 (v8 ^^^ v)

/-- The rounds of the cipher. -/
def aesRounds : List Nat → Nat → Nat
  | [], st => st
  | [k], st => shiftRows (subBytes sbox 16 st) ^^^ k
  | k :: ks, st => onNat (shiftRows (subBytes sbox 16 st)) (fun v => onNat (mixColumns v ^^^ k) (aesRounds ks))

/-- The rounds of the inverse cipher; keys last first. -/
def aesInvRounds : List Nat → Nat → Nat
  | [], st => st
  | [k], st => subBytes isbox 16 (invShiftRows st) ^^^ k
  | k :: ks, st => onNat (subBytes isbox 16 (invShiftRows st) ^^^ k) (fun v => onNat (invMixColumns v) (aesInvRounds ks))

/-- AES encryption of one 16-byte block. -/
def aesEnc (key blk : Bytes) : Bytes :=
  match aesKeys key with
  | [] => zeros 16
  | k :: ks => leBytes 16 (onNat (leNat (fit 16 blk) ^^^ k) (aesRounds ks))

/-- AES decryption of one 16-byte block. -/
def aesDec (key blk : Bytes) : Bytes :=
  match (aesKeys key).reverse with
  | [] => zeros 16
  | k :: ks => leBytes 16 (onNat (leNat (fit 16 blk) ^^^ k) (aesInvRounds ks))

/-- Doubling of SP 800-38B: shift left by one, reduce by 0x87. -/
def cmacDouble (b : Bytes) : Bytes :=
  let v := beNat b
  beBytes 16 ((2 * v) % 2 ^ 128 ^^^ (if v < 2 ^ 127 then 0 else 0x87))

/-- CBC-MAC over 16-byte blocks from a chaining value. -/
def cbcChain (key : Bytes) : Bytes → List Bytes → Bytes
  | c, [] => c
  | c, b :: bs => onNat (leNat (aesEnc key (xorBytes c (fit 16 b)))) (fun v => cbcChain key (leBytes 16 v) bs)

/-- AES-CMAC of SP 800-38B. -/
def cmac (key msg : Bytes) : Bytes :=
  let k1 := cmacDouble (aesEnc key (zeros 16))
  let bs := pieces 16 msg
  let last := bs.getLastD []
  let fin := if last.length == 16 then xorBytes last k1 else xorBytes (fit 16 (last ++ [0x80])) (cmacDouble k1)
  cbcChain key (zeros 16) (bs.dropLast ++ [fin])

/-- CBC-MAC with an IV of zero over whole blocks (R445). -/
def cbcMac (key msg : Bytes) : Bytes := cbcChain key (zeros 16) (pieces 16 msg)

/-- `n` blocks of key stream from a counter block raised by 1 as a 128-bit big-endian integer (R416). -/
def ctrStream (key : Bytes) : Nat → Nat → Bytes
  | 0, _ => []
  | n + 1, c => aesEnc key (beBytes 16 (c % 2 ^ 128)) ++ ctrStream key n (c + 1)

/-- CTR mode (R416). -/
def aesCtr (key iv msg : Bytes) : Bytes := xorBytes msg (ctrStream key ((msg.length + 15) / 16) (beNat (fit 16 iv)))

/-- CBC encryption of whole blocks (R416). -/
def cbcEnc (key : Bytes) : Bytes → List Bytes → Bytes
  | _, [] => []
  | c, b :: bs => let o := aesEnc key (xorBytes c b); o ++ cbcEnc key o bs

/-- CBC decryption of whole blocks (R416). -/
def cbcDec (key : Bytes) : Bytes → List Bytes → Bytes
  | _, [] => []
  | c, b :: bs => xorBytes (aesDec key b) c ++ cbcDec key b bs

/-- Product by α of the XTS tweak: little-endian doubling modulo x^128 + x^7 + x^2 + x + 1. -/
def xtsNext (t : Bytes) : Bytes :=
  let v := leNat t
  leBytes 16 ((2 * v) % 2 ^ 128 ^^^ (if v < 2 ^ 127 then 0 else 0x87))

/-- Whole blocks of a data unit, with the tweak that follows. -/
def xtsBlocks (f : Bytes → Bytes) : Bytes → List Bytes → Bytes × Bytes
  | t, [] => ([], t)
  | t, b :: bs =>
    let r := xtsBlocks f (xtsNext t) bs
    (xorBytes (f (xorBytes b t)) t ++ r.1, r.2)

/-- One data unit of XTS encryption, with ciphertext stealing (R416). -/
def xtsEncUnit (k1 k2 tweak msg : Bytes) : Bytes :=
  let t0 := aesEnc k2 (fit 16 tweak)
  let r := msg.length % 16
  if r == 0 then (xtsBlocks (aesEnc k1) t0 (pieces 16 msg)).1
  else
    let head := xtsBlocks (aesEnc k1) t0 (pieces 16 (msg.take (msg.length - r)))
    let cc := head.1.drop (head.1.length - 16)
    let pp := msg.drop (msg.length - r) ++ cc.drop r
    head.1.take (head.1.length - 16) ++ xorBytes (aesEnc k1 (xorBytes pp head.2)) head.2 ++ cc.take r

/-- One data unit of XTS decryption, with ciphertext stealing (R416). -/
def xtsDecUnit (k1 k2 tweak msg : Bytes) : Bytes :=
  let t0 := aesEnc k2 (fit 16 tweak)
  let r := msg.length % 16
  if r == 0 then (xtsBlocks (aesDec k1) t0 (pieces 16 msg)).1
  else
    let head := xtsBlocks (aesDec k1) t0 (pieces 16 (msg.take (msg.length - r - 16)))
    let c := bytesAt msg (msg.length - r - 16) 16
    let pp := xorBytes (aesDec k1 (xorBytes c (xtsNext head.2))) (xtsNext head.2)
    let cc := msg.drop (msg.length - r) ++ pp.drop r
    head.1 ++ xorBytes (aesDec k1 (xorBytes cc head.2)) head.2 ++ pp.take r

/-- XTS over data units of `unit` bytes, the tweak raised by 1 for each (R416). -/
def xtsUnits (f : Bytes → Bytes → Bytes) : Nat → List Bytes → Bytes
  | _, [] => []
  | t, u :: us => f (leBytes 16 (t % 2 ^ 128)) u ++ xtsUnits f (t + 1) us

/-- Product in GF(2^128) of SP 800-38D over the bits of `x`, most significant first. -/
def ghashMulAux : Nat → Nat → Nat → Nat
  | 0, _, _ => 0
  | n + 1, x, v =>
    (if x.testBit n then v else 0) ^^^
      ghashMulAux n x (v / 2 ^^^ (if v % 2 == 1 then 0xE1 * 2 ^ 120 else 0))

/-- GHASH from a chaining value. -/
def ghash (h : Nat) : Nat → List Bytes → Nat
  | y, [] => y
  | y, b :: bs => ghash h (ghashMulAux 128 (y ^^^ beNat (fit 16 b)) h) bs

/-- The GCM tag (16 bytes) of additional data and ciphertext under a 12-byte nonce. -/
def gcmTag (key nonce aad ct : Bytes) : Bytes :=
  let h := beNat (aesEnc key (zeros 16))
  let y := ghash h 0 (pieces 16 aad ++ pieces 16 ct ++ [beBytes 8 (8 * aad.length) ++ beBytes 8 (8 * ct.length)])
  xorBytes (beBytes 16 y) (aesEnc key (nonce ++ [0, 0, 0, 1]))

/-- The GCM key stream starts at counter 2; only the last 32 bits count. -/
def gcmStream (key nonce : Bytes) : Nat → Nat → Bytes
  | 0, _ => []
  | n + 1, c => aesEnc key (nonce ++ beBytes 4 (c % 2 ^ 32)) ++ gcmStream key nonce n (c + 1)

/-- GCM encryption and decryption of the text (R416). -/
def gcmCrypt (key nonce msg : Bytes) : Bytes := xorBytes msg (gcmStream key nonce ((msg.length + 15) / 16) 2)

/-- One pass of the unwrapping of RFC 3394 at step `t`. -/
def kwStep (key : Bytes) (a : Bytes) (r : List Bytes) (t : Nat) : Bytes × List Bytes :=
  let i := (t - 1) % r.length
  let b := aesDec key (xorBytes a (beBytes 8 t) ++ r.getD i [])
  (b.take 8, r.set i (b.drop 8))

/-- The steps of RFC 3394 from `t` down to 1. -/
def kwSteps (key : Bytes) : Nat → Bytes × List Bytes → Bytes × List Bytes
  | 0, st => st
  | t + 1, st => kwSteps key t (kwStep key st.1 st.2 (t + 1))

/-- AES-KW unwrapping (RFC 3394, default initial value): the material, or none when integrity fails (R405). -/
def kwUnwrap (key wrapped : Bytes) : Option Bytes :=
  let ps := pieces 8 wrapped
  let r := kwSteps key (6 * (ps.length - 1)) (ps.headD [], ps.drop 1)
  if r.1 == List.replicate 8 0xA6 then some r.2.flatten else none

/-- Block `i` of the KDF input of R391. -/
def kdfInput (i level type : Nat) (label : Bytes) (bitsOut : Nat) : Bytes :=
  leBytes 1 i ++ ascii "SKAORA-K" ++ leBytes 1 level ++ leBytes 1 type ++ leBytes 1 label.length ++ fit 32 label ++
    [0] ++ leBytes 2 bitsOut ++ [0]

/-- Blocks `i`, `i + 1`, … of the KDF, `n` of them. -/
def kdfBlocks (key : Bytes) (level type : Nat) (label : Bytes) (bitsOut : Nat) : Nat → Nat → Bytes
  | 0, _ => []
  | n + 1, i => cmac key (kdfInput i level type label bitsOut) ++ kdfBlocks key level type label bitsOut n (i + 1)

/-- The KDF of R391: `n` bytes from a parent. -/
def kdf (key : Bytes) (level type : Nat) (label : Bytes) (n : Nat) : Bytes :=
  (kdfBlocks key level type label (8 * n) ((n + 15) / 16) 1).take n

end Sys2Proof.Machine
end

