-- ==== Sys2Proof/Machine/Ec.lean ====
section
/-! DEFINITION. Big-number and elliptic-curve operations of R428: modular powers, RSA, ECDSA, ECDH (FIPS 186-5), X25519
(RFC 7748), Ed25519 (RFC 8032). The standards are cited by the manual (PRESUMED, log entry 1). -/

namespace Sys2Proof.Machine
open Sys2Proof

/-- b^e mod m, taking `n` bits of `e` from the least significant. -/
def powModAux (m : Nat) : Nat → Nat → Nat → Nat → Nat
  | 0, _, _, acc => acc
  | n + 1, b, e, acc => powModAux m n (b * b % m) (e / 2) (if e % 2 == 1 then acc * b % m else acc)

/-- b^e mod m. -/
def powMod (b e m : Nat) : Nat := powModAux m (e.log2 + 1) (b % m) e (1 % m)

/-- Inverse modulo a prime. -/
def invMod (a p : Nat) : Nat := powMod a (p - 2) p

/-- a - b mod m for a, b below m. -/
def subMod (a b m : Nat) : Nat := (a + (m - b % m)) % m

/-- A short Weierstrass curve y² = x³ - 3x + b. -/
structure Curve where
  /-- Field bytes, the *s* of R428. -/
  size : Nat
  p : Nat
  b : Nat
  n : Nat
  gx : Nat
  gy : Nat

def p256 : Curve :=
  { size := 32
    p := 0xffffffff00000001000000000000000000000000ffffffffffffffffffffffff
    b := 0x5ac635d8aa3a93e7b3ebbd55769886bc651d06b0cc53b0f63bce3c3e27d2604b
    n := 0xffffffff00000000ffffffffffffffffbce6faada7179e84f3b9cac2fc632551
    gx := 0x6b17d1f2e12c4247f8bce6e563a440f277037d812deb33a0f4a13945d898c296
    gy := 0x4fe342e2fe1a7f9b8ee7eb4a7c0f9e162bce33576b315ececbb6406837bf51f5 }

def p384 : Curve :=
  { size := 48
    p := 2 ^ 384 - 2 ^ 128 - 2 ^ 96 + 2 ^ 32 - 1
    b := 0xb3312fa7e23ee7e4988e056be3f82d19181d9c6efe8141120314088f5013875ac656398d8a2ed19d2a85c8edd3ec2aef
    n := 0xffffffffffffffffffffffffffffffffffffffffffffffffc7634d81f4372ddf581a0db248b0a77aecec196accc52973
    gx := 0xaa87ca22be8b05378eb1c71ef320ad746e1d3b628ba79b9859f741e082542a385502f25dbf55296c3a545e3872760ab7
    gy := 0x3617de4a96262c6f5d9e98bf9292dc29f8f41dbd289a147ce9da3113b5f0b8c00a60b1ce1d7e819d7a431d7c90ea0e5f }

def p521 : Curve :=
  { size := 66
    p := 2 ^ 521 - 1
    b := 0x0051953eb9618e1c9a1f929a21a0b68540eea2da725b99b315f3b8b489918ef109e156193951ec7e937b1652c0bd3bb1bf073573df883d2c34f1ef451fd46b503f00
    n := 2 ^ 521 - 2 ^ 260 + 0xa51868783bf2f966b7fcc0148f709a5d03bb5c9b8899c47aebb6fb71e91386409
    gx := 0x00c6858e06b70404e9cd9e3ecb662395b4429c648139053fb521f828af606b4d3dbaa14b5e77efe75928fe1dc127a2ffa8de3348b3c1856a429bf97e7e31c2e5bd66
    gy := 0x011839296a789a3bc0045c8a5fb42c7d1bd998f54449579b446817afbd17273e662c97ee72995ef42640c550b9013fad0761353c7086a272c24088be94769fd16650 }

/-- A point in affine coordinates; none is the point at infinity. -/
abbrev Point := Option (Nat × Nat)

def Curve.g (c : Curve) : Point := some (c.gx, c.gy)

/-- The coordinates lie below the field prime and on the curve (R429). -/
def Curve.on (c : Curve) (x y : Nat) : Bool :=
  decide (x < c.p) && decide (y < c.p) && (y * y % c.p == (x * x * x + (c.p - 3) * x + c.b) % c.p)

/-- Sum of two points. -/
def Curve.add (c : Curve) (a b : Point) : Point :=
  match a, b with
  | none, q => q
  | q, none => q
  | some (x1, y1), some (x2, y2) =>
    if x1 == x2 && (y1 + y2) % c.p == 0 then none
    else
      let l :=
        if x1 == x2 then (3 * x1 * x1 + (c.p - 3)) * invMod (2 * y1 % c.p) c.p % c.p
        else subMod y2 y1 c.p * invMod (subMod x2 x1 c.p) c.p % c.p
      let x3 := subMod (l * l % c.p) ((x1 + x2) % c.p) c.p
      some (x3, subMod (l * subMod x1 x3 c.p % c.p) y1 c.p)

/-- k·P over `n` bits of k from the least significant. -/
def Curve.mulAux (c : Curve) : Nat → Nat → Point → Point → Point
  | 0, _, _, acc => acc
  | n + 1, k, q, acc => Curve.mulAux c n (k / 2) (c.add q q) (if k % 2 == 1 then c.add acc q else acc)

/-- k·P. -/
def Curve.mul (c : Curve) (k : Nat) (q : Point) : Point := c.mulAux (k.log2 + 1) k q none

/-- A hash value as an integer, truncated to its leftmost bits when longer than the order (R428). -/
def hashInt (c : Curve) (h : Bytes) : Nat :=
  let v := beNat h
  let nb := c.n.log2 + 1
  if 8 * h.length > nb then v / 2 ^ (8 * h.length - nb) else v

/-- An ECDSA signature with nonce k. -/
def ecdsaSign (c : Curve) (d k : Nat) (h : Bytes) : Nat × Nat :=
  match c.mul k c.g with
  | none => (0, 0)
  | some (x, _) =>
    let r := x % c.n
    (r, invMod k c.n * (hashInt c h + r * d) % c.n)

/-- The signature is valid for the key and the hash value. -/
def ecdsaVerify (c : Curve) (qx qy r s : Nat) (h : Bytes) : Bool :=
  decide (0 < r) && decide (r < c.n) && decide (0 < s) && decide (s < c.n) && c.on qx qy &&
    (let w := invMod s c.n
     match c.add (c.mul (hashInt c h * w % c.n) c.g) (c.mul (r * w % c.n) (some (qx, qy))) with
     | none => false
     | some (x, _) => x % c.n == r)

/-- x of d·Q. -/
def ecdh (c : Curve) (d qx qy : Nat) : Nat :=
  match c.mul d (some (qx, qy)) with
  | none => 0
  | some (x, _) => x

/-- The prime of Curve25519. -/
def p25519 : Nat := 2 ^ 255 - 19

/-- The Montgomery ladder of RFC 7748 over the bits of k from bit `t - 1` down. -/
def ladder (u k : Nat) : Nat → Nat × Nat × Nat × Nat → Nat × Nat × Nat × Nat
  | 0, st => st
  | t + 1, (x2, z2, x3, z3) =>
    let p := p25519
    let sw := k.testBit t
    let (x2, z2, x3, z3) := if sw then (x3, z3, x2, z2) else (x2, z2, x3, z3)
    let a := (x2 + z2) % p
    let aa := a * a % p
    let b := subMod x2 z2 p
    let bb := b * b % p
    let e := subMod aa bb p
    let da := subMod x3 z3 p * a % p
    let cb := (x3 + z3) * b % p
    let s := (da + cb) % p
    let f := subMod da cb p
    let r := (aa * bb % p, e * (aa + 121665 * e) % p, s * s % p, u * (f * f % p) % p)
    ladder u k t (if sw then (r.2.2.1, r.2.2.2, r.1, r.2.1) else r)

/-- The clamped scalar of RFC 7748. -/
def clamp (k : Nat) : Nat := k % 2 ^ 254 / 8 * 8 + 2 ^ 254

/-- X25519 of RFC 7748. -/
def x25519 (k u : Bytes) : Bytes :=
  let un := leNat u % 2 ^ 255 % p25519
  let r := ladder un (clamp (leNat k)) 255 (1, 0, un, 1)
  leBytes 32 (r.1 * invMod r.2.1 p25519 % p25519)

/-- d of Ed25519. -/
def edD : Nat := (p25519 - 121665 * invMod 121666 p25519 % p25519) % p25519

/-- The group order of Ed25519. -/
def edL : Nat := 2 ^ 252 + 27742317777372353535851937790883648493

/-- A point of Ed25519 in extended coordinates X, Y, Z, T. -/
abbrev EdPoint := Nat × Nat × Nat × Nat

def edAdd (a b : EdPoint) : EdPoint :=
  let p := p25519
  let (x1, y1, z1, t1) := a
  let (x2, y2, z2, t2) := b
  let aa := subMod y1 x1 p * subMod y2 x2 p % p
  let bb := (y1 + x1) * (y2 + x2) % p
  let cc := 2 * t1 * t2 % p * edD % p
  let dd := 2 * z1 * z2 % p
  let e := subMod bb aa p
  let f := subMod dd cc p
  let g := (dd + cc) % p
  let h := (bb + aa) % p
  (e * f % p, g * h % p, f * g % p, e * h % p)

def edMulAux : Nat → Nat → EdPoint → EdPoint → EdPoint
  | 0, _, _, acc => acc
  | n + 1, k, q, acc => edMulAux n (k / 2) (edAdd q q) (if k % 2 == 1 then edAdd acc q else acc)

def edMul (k : Nat) (q : EdPoint) : EdPoint := edMulAux (k.log2 + 1) k q (0, 1, 1, 0)

/-- The x with the given sign bit for a y, if y belongs to a point (RFC 8032, 5.1.3). -/
def edRecover (y : Nat) (sign : Bool) : Option Nat :=
  let p := p25519
  if y < p then
    let u := subMod (y * y % p) 1 p
    let v := (edD * (y * y % p) + 1) % p
    let w := u * invMod v p % p
    let x0 := powMod w ((p + 3) / 8) p
    let x := if x0 * x0 % p == w then x0 else x0 * powMod 2 ((p - 1) / 4) p % p
    if x * x % p == w then
      if x == 0 && sign then none
      else some (if (x % 2 == 1) == sign then x else (p - x) % p)
    else none
  else none

/-- The point that a canonical 32-byte encoding names. -/
def edDecode (b : Bytes) : Option EdPoint :=
  let v := leNat b
  let y := v % 2 ^ 255
  match edRecover y (v.testBit 255) with
  | none => none
  | some x => some (x, y, 1, x * y % p25519)

/-- The encoding of a point. -/
def edEncode (q : EdPoint) : Bytes :=
  let zi := invMod q.2.2.1 p25519
  let x := q.1 * zi % p25519
  let y := q.2.1 * zi % p25519
  leBytes 32 (y + (x % 2) * 2 ^ 255)

/-- The base point: y = 4/5, x even. -/
def edBase : EdPoint :=
  let y := 4 * invMod 5 p25519 % p25519
  let x := (edRecover y false).getD 0
  (x, y, 1, x * y % p25519)

/-- Ed25519 signature of a message under a 32-byte seed. -/
def edSign (seed msg : Bytes) : Bytes :=
  let h := sha512 seed
  let a := clamp (leNat (h.take 32))
  let pub := edEncode (edMul a edBase)
  let r := leNat (sha512 (h.drop 32 ++ msg)) % edL
  let rEnc := edEncode (edMul r edBase)
  let k := leNat (sha512 (rEnc ++ pub ++ msg)) % edL
  rEnc ++ leBytes 32 ((r + k * a) % edL)

/-- Two points are equal. -/
def edEq (a b : EdPoint) : Bool :=
  (a.1 * b.2.2.1 % p25519 == b.1 * a.2.2.1 % p25519) && (a.2.1 * b.2.2.1 % p25519 == b.2.1 * a.2.2.1 % p25519)

/-- The signature is valid for the public key and the message. -/
def edVerify (pub sig msg : Bytes) : Bool :=
  match edDecode pub, edDecode (sig.take 32) with
  | some a, some r =>
    let s := leNat (sig.drop 32)
    let k := leNat (sha512 (sig.take 32 ++ pub ++ msg)) % edL
    decide (s < edL) && edEq (edMul s edBase) (edAdd r (edMul k a))
  | _, _ => false

/-- RSA private operation by the Chinese remainder theorem, from the stored CRT parts of `w` bytes each (R381). -/
def rsaPrivate (w : Nat) (key : Bytes) (x : Nat) : Nat :=
  let p := fieldAt key 0 w
  let q := fieldAt key w w
  let m1 := powMod x (fieldAt key (2 * w) w) p
  let m2 := powMod x (fieldAt key (3 * w) w) q
  let h := fieldAt key (4 * w) w * subMod m1 (m2 % p) p % p
  m2 + h * q

end Sys2Proof.Machine
end

