-- ==== Sys2Proof/Machine/Nv.lean ====
section
/-! DEFINITION. The non-volatile store (R465-R497): pages, records and wear, the write buffer, USER partitions, monotonic
counters. Slot, authority, family, allow-list and password records go through the write buffer; a record that a rule commits
before the next effect of a command is written in that command (log entry 23). -/

namespace Sys2Proof.Machine
open Sys2Proof

/-! Partitions and records (R466, R468). -/

/-- Partition codes of R466. -/
def partSystem : Nat := 1
def partKeys : Nat := 2
def partCounters : Nat := 3
def partHeads : Nat := 4
def partAllow : Nat := 5
def partUser (n : Nat) : Nat := 0x40 + n

/-- Physical range of a partition: first page and number of pages (R468). -/
def partRange (part : Nat) : Nat × Nat :=
  match part with
  | 1 => (0, 4096) | 2 => (4096, 12288) | 3 => (16384, 4096) | 4 => (20480, 4096) | 5 => (24576, 1024)
  | _ => (25600, 39936)

/-- The small records of a partition are updated in place (R469). -/
def partInPlace (part : Nat) : Bool := part == partAllow || decide (0x40 ≤ part)

/-! Logical pages (log entry 77). -/

/-- Records of SYSTEM. -/
def recLife : Nat := 0
def recErase : Nat := 1
def recEpoch : Nat := 2
def recUserTable : Nat := 3
def recHelper : Nat := 4
def recTagFails : Nat := 5
def recCert : Nat := 6
/-- Pages of KEYS: 8 descriptors, the material of 4 compact slots or of a large one, an authority entry, 32 family counters. -/
def recSlot (target index : Nat) : Nat := 1536 * target + index / 8
def recMaterial (target index : Nat) : Nat := if target = 0 then 0x0800 + index / 4 else 0x2000 + index
def recAuth (entry : Nat) : Nat := 0x2800 + entry
def recFamily (family : Nat) : Nat := 0x2900 + family / 32
/-- Records of HEADS: books, the incarnation counter, adoption nonces, HTM_GRAIN, the saved state and its marks. -/
def recBook (book : Nat) : Nat := book
def recIncarn : Nat := 1024
def recNonce (book : Nat) : Nat := 1025 + book
def recGrain : Nat := 2049
def recSaved : Nat := 2050
def recWtMark : Nat := 2051
/-- The counter owner table in COUNTERS, behind the 1,024 counter pages. -/
def recOwners : Nat := counterPages

/-- Key of a record in the page maps. -/
def recKey (part rec : Nat) : Nat := 2 ^ 20 * part + rec

/-- Key of a USER page. -/
def userKey (part page : Nat) : Nat := recKey (partUser part) page

/-! What the records hold (R356, R382, R384, R402, R403, R410, R482). -/

/-- A descriptor of R382, with USES as recorded. -/
def Slot.descriptor (k : Slot) : Bytes :=
  if k.occupied then
    leBytes 1 k.type ++ leBytes 1 (1 + 2 * k.level) ++ leBytes 2 k.family ++ leBytes 4 k.attr.toNat ++ leBytes 2 k.slice ++
      leBytes 6 k.usesRec ++ leBytes 8 k.e ++ fit 8 k.mac
  else zeros 32

/-- Bytes 0x00 to 0x7F of an authority entry. -/
def Authority.covered (a : Authority) : Bytes :=
  leBytes 1 a.kind ++ leBytes 1 a.curve ++ leBytes 2 (flag a.occupied) ++ zeros 4 ++ leBytes 8 a.serial ++ fit 16 a.ident ++
    fit 96 a.pub

/-- The 144 bytes of an authority entry (R403). -/
def Authority.bytes (a : Authority) : Bytes := if a.occupied then a.covered ++ fit 8 a.mac ++ zeros 8 else zeros 144

/-- The 96 bytes of an allow-list entry (R356). -/
def Allow.bytes (a : Allow) : Bytes :=
  if a.occupied then
    fit 48 a.digest ++ leBytes 8 a.applet ++ leBytes 8 a.serial ++ leBytes 4 a.version ++ leBytes 2 a.slice ++ leBytes 2 1 ++
      zeros 24
  else zeros 96

/-- A counter codeword (R482). -/
def CntWord.bytes (c : CntWord) (n : Nat) : Bytes := leBytes 8 c.v ++ leBytes 4 c.epoch ++ leBytes 2 n ++ zeros 2

/-- The four codewords of a counter. -/
def Counter.words (c : Counter) : List CntWord := [c.baseA, c.baseB, c.bankA, c.bankB]

/-- A counter page (R482). -/
def State.counterBytes (s : State) (page : Nat) : Bytes :=
  ((List.range 4).map (fun k => (((s.counterAt (4 * page + k)).words).map (fun w => w.bytes (4 * page + k))).flatten)).flatten

/-- Number of pages of a record whose layout the manual does not state. -/
def openPages (part rec : Nat) : Nat := if part = 1 ∧ rec = recUserTable then 5 else 1

/-- A record of KEYS. -/
def State.keysData (s : State) (rec : Nat) : Bytes :=
  if rec < 1536 then ((List.range 8).map (fun i => (s.slotAt 0 (8 * rec + i)).descriptor)).flatten
  else if rec < 0x0800 then ((List.range 8).map (fun i => (s.slotAt 1 (8 * (rec - 1536) + i)).descriptor)).flatten
  else if rec < 0x2000 then ((List.range 4).map (fun i => fit 64 (s.slotAt 0 (4 * (rec - 0x0800) + i)).stored)).flatten
  else if rec < 0x2800 then fit 1280 (s.slotAt 1 (rec - 0x2000)).stored
  else if rec < 0x2900 then fit 256 (s.authAt (rec - 0x2800)).bytes
  else ((List.range 32).map (fun i => leBytes 8 (s.familyAt (32 * (rec - 0x2900) + i)))).flatten

/-- The bytes of a record, as the state's fields hold it; a record whose layout the manual does not state has free bytes
(log entry 77). -/
def State.recordData (s : State) (key : Nat) : Bytes :=
  let part := key / 2 ^ 20
  let rec_ := key % 2 ^ 20
  if part = partKeys then s.keysData rec_
  else if part = partAllow then fit 256 (s.allowAt rec_).bytes
  else if part = partCounters then
    (if rec_ = recOwners then ((List.range 4096).map (fun n => leBytes 2 (s.counterAt n).owner)).flatten
     else s.counterBytes rec_)
  else if part = partSystem ∧ rec_ = recEpoch then fit 256 (leBytes 8 s.keys.epoch)
  else if part = partHeads ∧ rec_ = recIncarn then fit 256 (leBytes 4 s.brine.incarnCtr)
  else if part = partHeads ∧ rec_ = recGrain then fit 256 (leBytes 8 s.now)
  else if part = partHeads ∧ recNonce 0 ≤ rec_ ∧ rec_ < recGrain then
    fit 256 (((s.bookAt (rec_ - recNonce 0)).nonce).getD [])
  else (List.range (256 * openPages part rec_)).map (Config.recordByte key s.draws)

/-- What an image puts in force. -/
def State.putImage (s : State) (i : RecImage) : State :=
  match i with
  | .user => s
  | .uses t n u => s.modSlot t n (fun k => { k with usesRec := u })
  | .material t n m => s.modSlot t n (fun k => { k with stored := m })
  | .slot t n k => s.setSlot t n k
  | .auth n a => s.setAuth n a
  | .family f n => s.setFamily f n
  | .allow n a => s.setAllow n a
  | .passwords p r w => s.modPart p (fun x => { x with readPw := r, writePw := w })

def State.putImages (s : State) (l : List RecImage) : State := l.foldl State.putImage s

/-- The records as they will stand once everything committed and buffered is in force. -/
def State.storeView (s : State) : State :=
  (s.putImages (s.hregs.deferred.filterMap (fun d => match d with | .install i => some i | _ => none))).putImages
    ((s.nv.wbuf ++ s.nv.behind).flatMap WbEntry.img)

/-- Number of ones among the low `k` bits. -/
def popcountTo (k v : Nat) : Nat := ((List.range k).filter (fun i => v.testBit i)).length

/-! Pages (R465-R467, R470, R473). -/

/-- A physical page. -/
def Nv.page (n : Nv) (p : Nat) : NvPage := tget (NvPage.shipped p) n.pages p

def Nv.setPage (n : Nv) (p : Nat) (v : NvPage) : Nv := { n with pages := tput (NvPage.shipped p) n.pages p v }

/-- The bank of a page (R465). -/
def bankOf (p : Nat) : Nat := p % 16

/-- The physical pages of the current copy of a record, INDEX 0 first. -/
def Nv.copy (n : Nv) (key : Nat) : List Nat := tget (shippedMap key) n.maps key

def Nv.setCopy (n : Nv) (key : Nat) (l : List Nat) : Nv := { n with maps := tput (shippedMap key) n.maps key l }

/-- The 16 bytes of the header codeword (R466). -/
def NvPage.header (p : NvPage) : Bytes :=
  leBytes 1 p.part ++ leBytes 1 p.kind ++ leBytes 2 p.lpage ++ leBytes 4 p.seq ++ leBytes 4 p.wear ++ leBytes 1 p.index ++
    leBytes 1 p.pages ++ leBytes 1 (if p.commit then 0xA5 else 0) ++ [0]

/-- The codeword map of R467. -/
def NvPage.map_ (p : NvPage) : Nat := p.badCw.foldl (fun m k => m ||| 2 ^ k) 0

/-- Bytes of a page with every uncorrectable codeword as zeros (R473). -/
def NvPage.readable (p : NvPage) : Bytes :=
  p.badCw.foldl (fun d k => if k < 16 then putBytes d (16 * k) (zeros 16) else d) (fit 256 p.data)

/-- The page reads TORN (R473). -/
def NvPage.torn (p : NvPage) : Bool := !p.commit || p.badCw.contains 16

/-- What reading the page ends with (R473). -/
def NvPage.outcome (p : NvPage) : Status := if p.torn then .torn else if p.badCw.isEmpty then .ok else .fault

/-- A codeword of the page is uncorrectable. -/
def NvPage.spoil (p : NvPage) (cw : Nat) : NvPage := if p.badCw.contains cw then p else { p with badCw := p.badCw ++ [cw] }

/-- The current copy of a record is usable: its INDEX 0 is committed and all of its pages are readable with equal SEQ (R470); a
record that has never been written is empty. -/
def Nv.usable (n : Nv) (key : Nat) : Bool :=
  match n.copy key with
  | [] => true
  | p :: t => (n.page p).outcome == .ok && t.all (fun q => (n.page q).badCw.isEmpty && (n.page q).seq == (n.page p).seq)

def State.recordOk (s : State) (part rec : Nat) : Bool := s.nv.usable (recKey part rec)

/-- An allow-list entry as it reads: TORN or FAULT reads as not OCCUPIED (R474). -/
def State.allowEntry (s : State) (e : Nat) : Allow := if s.recordOk partAllow e then s.allowAt e else Allow.reset

/-! Spares and wear (R468, R495). -/

/-- A physical page holds no record and is not retired. -/
def Nv.spare (n : Nv) (p : Nat) : Bool := (n.page p).part == 0 && !n.retired.contains p

/-- The better of the best spare so far and of the spares among the `k` pages from `p` on; WEAR 0 ends the search. -/
def Nv.spareFrom (n : Nv) : Nat → Nat → Option Nat → Option Nat
  | 0, _, b => b
  | k + 1, p, b =>
    let w := (n.page p).wear
    if !n.spare p then n.spareFrom k (p + 1) b
    else if w = 0 then some p
    else n.spareFrom k (p + 1) (match b with
      | none => some p
      | some q => if w < (n.page q).wear then some p else some q)

/-- The spare with the lowest WEAR of a partition, the lowest-numbered of several (log entry 23). -/
def Nv.bestSpare (n : Nv) (part : Nat) : Option Nat :=
  let r := partRange part
  n.spareFrom r.2 r.1 none

/-- WEAR at which a page is retired. -/
def wearLimit : Nat := 10 ^ 9

/-- A physical page is written: it holds `v` and has been written once more (R466, R495). -/
def Nv.writePhys (n : Nv) (p : Nat) (v : NvPage) : Nv :=
  let w := satAdd 0xFFFFFFFF (n.page p).wear 1
  let n := n.setPage p { v with wear := w }
  if wearLimit ≤ w ∧ !n.retired.contains p then { n with retired := p :: n.retired, worn := true } else n

/-- A page returns to the spares. -/
def Nv.freePage (n : Nv) (p : Nat) : Nv := n.setPage p { NvPage.blank with wear := (n.page p).wear }

/-- No spare is left in a partition: logged (R495). -/
def State.noSpare (s : State) (part : Nat) : State := s.plogEvent 13 0x0C 0 0xFFFF 0xFFFF (4 + 256 * part)

/-! Record writes (R469, R470). -/

/-- SEQ of the next copy of a record. -/
def Nv.nextSeq (n : Nv) (key : Nat) : Nat := (((n.copy key).head?.map (fun p => (n.page p).seq)).getD 0 + 1) % 2 ^ 32

/-- The pages of the new copy written so far, INDEX 1 first. -/
def Nv.newPages (n : Nv) (key pages : Nat) : List Nat :=
  ((List.range pages).drop 1).filterMap (fun i => (n.pages.find? (fun e => e.2.part == key / 2 ^ 20 && e.2.lpage == key % 2 ^ 20 &&
    e.2.seq == n.nextSeq key && e.2.index == i && !e.2.commit)).map Prod.fst)

/-- The copy whose INDEX 0 stands at `p` is current; the pages of the older one return to the spares. -/
def Nv.adopt (n : Nv) (key p : Nat) (rest : List Nat) : Nv :=
  ((n.copy key).foldl Nv.freePage n).setCopy key (p :: rest)

/-- One page of a new copy (R470): INDEX 0, which is written last, makes it valid. False when there is no spare. -/
def State.newCopy (s : State) (e : WbEntry) : State × Bool :=
  let part := e.key / 2 ^ 20
  match s.nv.bestSpare part with
  | none => (s.noSpare part, false)
  | some p =>
    let rest := s.nv.newPages e.key e.pages
    let v : NvPage :=
      { part := part, kind := e.kind, lpage := e.key % 2 ^ 20, seq := s.nv.nextSeq e.key, wear := 0, index := e.index,
        pages := e.pages, commit := e.index == 0, data := e.data, badCw := e.badCw }
    if e.index != 0 then ({ s with nv := s.nv.writePhys p v }, true)
    else if rest.length + 1 != e.pages then ({ s with nv := rest.foldl Nv.freePage s.nv }, false)
    else ({ s with nv := (s.nv.adopt e.key p rest).writePhys p v }, true)

/-- The page is due for levelling, or retired (R495). -/
def Nv.due (n : Nv) (p : Nat) : Bool := ((n.page p).wear != 0 && (n.page p).wear % 2 ^ 20 == 0) || n.retired.contains p

/-- The page write of an entry: in place in ALLOW and USER while HOLD is healthy, else, in write-through (R480) and from the field
(R544) by the two-copy method. A write in place that changes no codeword of a sound page writes nothing (R469). -/
def State.writeEntry (s : State) (e : WbEntry) : State × Bool :=
  if !partInPlace (e.key / 2 ^ 20) then s.newCopy e
  else
    match s.nv.copy e.key with
    | [] => if allZero e.data && e.badCw.isEmpty then (s, true) else s.newCopy e
    | p :: _ =>
      let v := s.nv.page p
      if v.data == e.data && v.outcome == .ok && e.badCw.isEmpty then (s, true)
      else if !s.holdHealthy || s.nv.wt || !s.pwr.starting || s.nv.due p then s.newCopy e
      else
        let new : NvPage := { v with seq := (v.seq + 1) % 2 ^ 32, commit := true, data := e.data, badCw := e.badCw }
        ({ s with nv := s.nv.writePhys p new }, true)

/-- The page writes of a record with an image, in the order of R470: INDEX 0 last. -/
def State.recordEntries (s : State) (key : Nat) (img : List RecImage) (sync : List CommitWait) : List WbEntry :=
  let d := (s.storeView.putImages img).recordData key
  let n := (d.length + 255) / 256
  ((List.range n).drop 1 ++ [0]).map (fun i =>
    { key := key, kind := if n ≤ 1 then 1 else 2, index := i, pages := n, data := bytesAt d (256 * i) 256, first := 0,
      img := if i = 0 then img else [], sync := sync.map (fun (w : CommitWait) => { w with last := w.last && i == 0 }), frozen := true,
      badCw := [] })

/-! The write buffer (R475, R476). -/

/-- The commit begins: every entry is frozen. -/
def State.commitBuffer (s : State) : State :=
  { s with nv := { s.nv with wbuf := s.nv.wbuf.map (fun e => { e with frozen := true }),
                             behind := s.nv.behind.map (fun e => { e with frozen := true }) } }

/-- A page write waits outside the buffer. -/
def State.bufferBehind (s : State) (e : WbEntry) : State := { s with nv := { s.nv with behind := s.nv.behind ++ [e] } }

/-- A page write enters the buffer, or waits behind it; in write-through it passes the buffer by (R480). -/
def State.bufferIn (s : State) (e : WbEntry) : State :=
  if !s.nv.wt && s.nv.behind.isEmpty && decide (s.nv.wbuf.length < 64) then
    let s := { s with nv := { s.nv with wbuf := (s.nv.wbuf ++ [e]).take 64, lastWrite := s.now } }
    if s.nv.wbuf.length = 64 then s.commitBuffer else s
  else s.bufferBehind e

/-- An entry of the buffer is free: the oldest page write behind it enters. -/
def State.bufferNext (s : State) : State :=
  match s.nv.behind with
  | [] => s
  | e :: rest =>
    if s.nv.wbuf.length < 64 then
      let s := { s with nv := { s.nv with wbuf := (s.nv.wbuf ++ [e]).take 64, behind := rest, lastWrite := s.now } }
      if s.nv.wbuf.length = 64 then s.commitBuffer else s
    else s

/-- The newest write of a page that has not reached the array. -/
def Nv.entryOf (n : Nv) (key : Nat) : Option WbEntry := ((n.wbuf ++ n.behind).reverse).find? (fun e => e.key == key)

/-- The committed contents of an entry are in force: those of a slot and of an authority entry at the next boundary (R407). -/
def State.commitImage (s : State) (i : RecImage) : State :=
  match i with
  | .slot _ _ _ => s.defer (.install i)
  | .auth _ _ => s.defer (.install i)
  | _ => s.putImage i

/-- An UPDATE BINARY that waited for the page is answered (R544); a failure has no status word of its own (log entry 35). -/
def State.tagWritten (s : State) (sync : List CommitWait) (ok : Bool) : State :=
  match s.cl.pendingUpdate with
  | none => s
  | some id =>
    if sync.all (fun w => w.work != id) then s
    else
      let sw : Bytes := if ok then [0x90, 0x00] else Config.freeBytes s.draws 2
      ({ s with cl := { s.cl with pendingUpdate := none }, out := s.out ++ [Out.rf sw] }).drawn

/-- The page writes that a failed descriptor has left are dropped: frozen ones that carry only its records. -/
def State.unsent (s : State) (work : Nat) : State :=
  let gone (e : WbEntry) : Bool := e.frozen && !e.img.contains .user && e.sync.any (fun w => w.work == work)
  { s with nv := { s.nv with wbuf := s.nv.wbuf.filter (fun e => !gone e), behind := s.nv.behind.filter (fun e => !gone e) } }

/-- A descriptor or a service call that waited for a page completes. -/
def State.waitDone (s : State) (w : CommitWait) (ok : Bool) : State :=
  match w.core with
  | some core =>
    if (s.coreAt core).inv.any (fun v => v.work == w.work) then
      s.answerCore core (svcStatus (if ok then .ok else .fault) false false false) (if ok then w.ok else w.fail)
    else s
  | none =>
    if !ok then (s.finish w.work .fault w.fail).unsent w.work else if w.last then s.finish w.work .ok w.ok else s

/-- A page has been written, or has found no spare: its record is in force, and what waited for it completes. -/
def State.entryDone (s : State) (e : WbEntry) (ok : Bool) : State :=
  let s := if ok then e.img.foldl State.commitImage s else s
  (e.sync.foldl (fun s w => s.waitDone w ok) s).tagWritten e.sync ok

/-- The page write that is next: of the commit, else one that passes the buffer by (R475, R480). -/
def Nv.nextPage (n : Nv) : Option WbEntry :=
  match n.wbuf with
  | e :: _ => if e.frozen then some e else none
  | [] => n.behind.head?

/-- That page write has been taken up. -/
def State.popPage (s : State) : State :=
  match s.nv.wbuf with
  | _ :: rest => { s with nv := { s.nv with wbuf := rest } }.bufferNext
  | [] => { s with nv := { s.nv with behind := s.nv.behind.tail } }

/-- One page is written (R476). -/
def State.pageWrite (s : State) : State :=
  match s.nv.nextPage with
  | none => s
  | some e =>
      let r := s.writeEntry e
      let s := r.1.popPage
      let waits := s.nv.commitWaits.map (fun x => (x.1, x.2 - 1))
      let s := { s with nv := { s.nv with commitWaits := waits.filter (fun x => x.2 != 0) } }
      let s := (waits.filter (fun x => x.2 == 0)).foldl (fun s x => s.finish x.1 (if r.2 then .ok else .fault) []) s
      s.entryDone e r.2

/-- A record is written in this command, ahead of the buffer's commit; the controller makes no other step in the grain (log
entry 23). False when no spare is left. -/
def State.nvNow (s : State) (key : Nat) (img : List RecImage) : State × Bool :=
  let r := (s.recordEntries key img []).foldl (fun r e => if r.2 then r.1.writeEntry e else r) (s.commitBuffer.takeStep .nv, true)
  if r.2 then (img.foldl State.commitImage r.1, true) else r

/-- Such a record where no rule looks at the outcome. -/
def State.nvPut (s : State) (part rec : Nat) : State := (s.nvNow (recKey part rec) []).1

/-- Records that a rule requires to be committed (R475): the buffer is committed, and they go behind it in their order.
What waits for the last of them completes with its commit. -/
def State.nvSend (s : State) (recs : List (Nat × List RecImage)) (sync : CommitWait) : State :=
  let last := (recs.getLast?.map Prod.fst).getD 0
  recs.foldl (fun s x => (s.recordEntries x.1 x.2 [{ sync with last := x.1 == last }]).foldl State.bufferIn s) s.commitBuffer

/-- A record that is written with the next commit (R386): it merges into an entry that is not frozen (R475). -/
def State.nvLazy (s : State) (key : Nat) (img : RecImage) : State :=
  if s.nv.wt then (s.nvNow key [img]).1
  else
    (s.recordEntries key [img] []).foldl (fun s e =>
      if s.nv.wbuf.any (fun x => x.key == key && !x.frozen) then
        let wbuf := s.nv.wbuf.map (fun x =>
          if x.key == key && !x.frozen then { x with data := e.data, img := x.img ++ e.img, badCw := [] } else x)
        { s with nv := { s.nv with wbuf := wbuf, lastWrite := s.now } }
      else s.bufferIn { e with frozen := false }) s

/-- What a page read sees: the buffer before the array (R475): data, map and outcome. -/
def Nv.readPage (n : Nv) (key : Nat) : Bytes × Nat × Status :=
  match n.entryOf key with
  | some e =>
    let p : NvPage := { NvPage.blank with commit := true, data := e.data, badCw := e.badCw }
    (p.readable, p.map_, p.outcome)
  | none =>
    match n.copy key with
    | [] => (zeros 256, 0, .ok)
    | p :: _ => ((n.page p).readable, (n.page p).map_, (n.page p).outcome)

/-- `len` bytes of a page from offset `o`, wrapping (R471). -/
def wrapRead (d : Bytes) (o len : Nat) : Bytes := (List.range len).map (fun i => d.getD ((o + i) % 256) 0)

/-- A page with bytes written from offset `o`, wrapping (R471). -/
def wrapWrite (d : Bytes) (o : Nat) : Bytes → Bytes
  | [] => d
  | b :: t => wrapWrite (d.set (o % 256) b) (o + 1) t

/-- What the codewords of a TORN or FAULT read raise: NV_UNCORR, NV_TORN and level-1 events (R24, R473). -/
def State.badRead (s : State) (key : Nat) : State :=
  let r := s.nv.readPage key
  let n := popcountTo 17 r.2.1
  let s := (List.range n).foldl (fun s _ => s.uncorrectable 13 10 0xFFFF ((key / 2 ^ 20 - 0x40) * 4096 + key % 2 ^ 20)) s
  { s with nv := { s.nv with uncorr := s.nv.uncorr + BitVec.ofNat 32 n, torn := s.nv.torn + (if r.2.2 = .torn then 1 else 0) } }

/-- The entry of a write to a USER page. -/
def userEntry (key o : Nat) (data : Bytes) (sync : List CommitWait) : WbEntry :=
  { key := key, kind := 1, index := 0, pages := 1, data := data, first := o % 256 / 16, img := [.user], sync := sync,
    frozen := false, badCw := [] }

/-- A write to a page through the buffer (R475); none when it has to wait for an entry. In write-through it passes the buffer
by, and what caused it completes with its page (R480). -/
def State.bufferWrite (s : State) (key o : Nat) (data : Bytes) (sync : List CommitWait) : Option State :=
  let new := wrapWrite (s.nv.readPage key).1 o data
  if s.nv.wt then some (s.bufferBehind { userEntry key o new sync with frozen := true })
  else if s.nv.wbuf.any (fun e => e.key == key && !e.frozen) then
    let wbuf := s.nv.wbuf.map (fun e =>
      if e.key == key && !e.frozen then { e with data := new, sync := e.sync ++ sync, badCw := [] } else e)
    some { s with nv := { s.nv with wbuf := wbuf, lastWrite := s.now } }
  else if 64 ≤ s.nv.wbuf.length then none
  else some (s.bufferIn (userEntry key o new sync))

/-- Map of a piece of the result of R492. -/
def nvResult (n map : Nat) : Bytes := leBytes 4 n ++ leBytes 4 map

/-- A page waits to be written. -/
def State.pageDue (s : State) : Bool := s.nv.nextPage.isSome

/-- PAGE_WRITE: a class-2 step of the store's controller (R44); powered from the field, the tag has no calendar (R544). -/
def execPageWrite (s : State) : Host.Outcome State Fault Refusal :=
  .next (if !s.pageDue then s else if s.pwr.starting then s.stepOf .nv 2 State.pageWrite else s.pageWrite)

/-- NV_CTL_COMMIT. -/
def execNvCtlCommit (s : State) : Host.Outcome State Fault Refusal :=
  .next (s.onReg 0x060004 State.commitBuffer)

/-- WRITE_BUFFER_IDLE_COMMIT (R475). -/
def execWriteBufferIdleCommit (s : State) : Host.Outcome State Fault Refusal :=
  .next (if s.nv.lastWrite + ounce ≤ s.now then s.commitBuffer else s)

/-! USER partitions (R490-R494). -/

/-- Sum of the pages of the enabled partitions (R468). -/
def State.userPages (s : State) : Nat := (s.nv.parts.map (fun e => if e.2.en then e.2.pages else 0)).foldl (· + ·) 0

/-- A password failure is counted, logged, and locks at 8 (R493). -/
def State.passwordFailed (s : State) (part : Nat) : State :=
  let n := (s.partAt part).fails + 1
  let s := s.modPart part (fun p => { p with fails := n, locked := decide (8 ≤ n) })
  let s := s.plogEvent 13 0x0C 0 0xFFFF 0xFFFF (2 + 256 * part)
  if 8 ≤ n then s.plogEvent 13 0x0C 0 0xFFFF 0xFFFF (3 + 256 * part) else s

/-- A password of zero removes its check; otherwise the one presented must be equal (check 7 of R492). -/
def passwordOk (stored given : Bytes) : Bool := allZero stored || stored == given

/-- Checks 2 to 4 of R492: failing check and status; FAULT while the partition records cannot be read (R474). -/
def State.partFail (s : State) (part slice offset : Nat) : Option (Nat × Status) :=
  let p := s.partAt part
  firstFail [(s.recordOk partSystem recUserTable, (2, .fault)), (p.en, (2, .state)), (p.slice == slice, (3, .policy)), (decide (offset < 256 * p.pages), (4, .range))]

/-- Checks 6 and 7 of R492, with their effect on the failure count. -/
def State.passwordCheck (s : State) (part : Nat) (write : Bool) (given : Bytes) : State × Option (Nat × Status) :=
  let p := s.partAt part
  if p.locked then (s, some (6, .state))
  else if passwordOk (if write then p.writePw else p.readPw) given then
    (s.modPart part (fun p => { p with fails := 0 }), none)
  else (s.passwordFailed part, some (7, .auth))

/-- Check 1 of NV_READ and NV_WRITE. -/
def nvForm (w : Work) (write : Bool) : Bool :=
  w.zeroFrom 0x11 0x14 && w.zeroFrom 0x24 0x28 && w.zeroFrom 0x30 0x40 && (w.aux == 0 || (write && w.aux == 1)) &&
    decide (w.field 0x10 1 ≤ 63) && decide (1 ≤ w.field 0x20 4) && decide (w.field 0x20 4 ≤ 4096) &&
    !beyond64 (w.field 0x18 8) (w.field 0x20 4)

/-- Checks 2 to 7 of NV_READ and NV_WRITE. -/
def State.nvChecks (s : State) (w : Work) (write : Bool) : State × Option (Nat × Status) :=
  let part := w.field 0x10 1
  match s.partFail part w.slice (w.field 0x14 4) with
  | some f => (s, some f)
  | none =>
    if !s.rangeOk w.slice (w.field 0x18 8) (w.field 0x20 4) (!write) then (s, some (5, .access))
    else s.passwordCheck part write (bytesAt w.desc 0x28 8)

/-- A call of a core that its unit has not taken up. -/
def Core.calls (c : Core) : Bool := c.mode == .waiting && !c.started && c.answer.isNone

/-- The slices with a page read ready for the store's controller. -/
def State.readSlices (s : State) : List Nat :=
  (s.work.filter (fun w => w.opcode == 0x9000 && w.isRouted && s.mayBegin w && s.canMaster (s.masterStream w.id))).map Work.slice ++
    (s.applets.cores.filter (fun e => e.2.calls && e.2.call == 8)).filterMap (fun e => e.2.inv.map Invocation.slice)

/-- The controller reads a page for a slice: its class-2 step of the grain, in the rotation of the slices (R44, R50). -/
def State.mayReadPage (s : State) (slice : Nat) : Bool :=
  s.mayStep .nv 2 && s.readSlices.all (fun k => decide (s.turnOf .nv slice ≤ s.turnOf .nv k))

/-- It has read one. -/
def State.readsPage (s : State) (slice : Nat) : State := (s.servedSlice .nv slice).takeStep .nv

/-- NV_READ (R491, R492): the read of the page is a class-2 step of the store's controller (R44). -/
def State.nvReadBody (s : State) (w : Work) : State :=
  let before := s
  if !nvForm w false then s.refuse w 1 .malformed
  else
    match s.nvChecks w false with
    | (s, some (k, st)) => s.refuse w k st
    | (s, none) =>
      if !s.canMaster (s.masterStream w.id) || !s.mayReadPage w.slice then before
      else
      let s := s.readsPage w.slice
      let off := w.field 0x14 4
      let len := w.field 0x20 4
      let key := userKey (w.field 0x10 1) (off / 256)
      let r := s.nv.readPage key
      let s := s.badRead key
      let o := s.hostWrite (s.masterStream w.id) w.slice .stream (some w.id) (w.field 0x18 8) (wrapRead r.1 (off % 256) len)
      if o.2 then o.1.finish w.id r.2.2 (nvResult len r.2.1) else o.1.finish w.id .access (nvResult 0 r.2.1)

/-- NV_READ. -/
def execNvRead (ring : Nat) (s : State) : Host.Outcome State Fault Refusal := .next (s.onStart ring 0x9000 s.nvReadBody)

/-- The data of an NV_WRITE goes into the buffer, or the work waits for an entry (R475). With SYNC, and in write-through, it
completes with its page (R480, R492). -/
def State.nvStore (s : State) (w : Work) : State :=
  let off := w.field 0x14 4
  let sync := w.aux == 1 || s.nv.wt
  match s.bufferWrite (userKey (w.field 0x10 1) (off / 256)) (off % 256) (fit (w.field 0x20 4) w.input.flatten)
      (if sync then [{ work := w.id, core := none, last := true, ok := nvResult (w.field 0x20 4) 0, fail := nvResult 0 0 }] else []) with
  | none => s.modWork w.id (fun v => { v with phase := .active 1 })
  | some s =>
    if sync then s.modWork w.id (fun v => { v with phase := .active 2 })
    else s.finish w.id .ok (nvResult (w.field 0x20 4) 0)

/-- NV_WRITE begins: its checks, then the read of its data. -/
def State.nvWriteBody (s : State) (w : Work) : State :=
  let before := s
  if !nvForm w true then s.refuse w 1 .malformed
  else
    match s.nvChecks w true with
    | (s, some (k, st)) => s.refuse w k st
    | (s, none) =>
      if !s.canRead (s.masterStream w.id) then before
      else
      let r := s.hostRead (.work w.id 0) (s.masterStream w.id) w.slice .stream (w.field 0x18 8) (w.field 0x20 4) false
      if r.2 then r.1.modWork w.id (fun v => { v with phase := .reading 1 }) else r.1.finish w.id .access (nvResult 0 0)

/-- NV_WRITE: begins the oldest one, or stores the data of one that waited for a buffer entry. -/
def execNvWrite (ring : Nat) (s : State) : Host.Outcome State Fault Refusal :=
  match s.oldest ring (fun w => w.opcode == 0x9001 && w.activeAt 1) with
  | some w => .next (s.nvStore w)
  | none => .next (s.onStart ring 0x9001 s.nvWriteBody)

/-- NV_COMMIT (R492). -/
def State.nvCommitBody (s : State) (w : Work) : State :=
  if !(w.aux == 0 && w.zeroFrom 0x10 0x40) then s.refuseOpen w .malformed []
  else
    let s := s.commitBuffer
    if s.nv.wbuf.isEmpty && s.nv.behind.isEmpty then s.finish w.id .ok []
    else
      let s := { s with nv := { s.nv with commitWaits := s.nv.commitWaits ++ [(w.id, s.nv.wbuf.length + s.nv.behind.length)] } }
      s.modWork w.id (fun v => { v with phase := .active 1 })

/-- NV_COMMIT. -/
def execNvCommit (ring : Nat) (s : State) : Host.Outcome State Fault Refusal :=
  .next (s.onStart ring 0x9002 s.nvCommitBody)

/-- NV_PASSWD (R491, R494): check 4 and check 5 concern no field it carries. It completes when the record is committed. -/
def State.nvPasswdBody (s : State) (w : Work) : State :=
  let part := w.field 0x10 1
  let sel := w.field 0x11 1
  let form := w.aux == 0 && w.zeroFrom 0x12 0x18 && w.zeroFrom 0x30 0x40 && decide (part ≤ 63) && sel != 0 && decide (sel < 4)
  if !form then s.refuse w 1 .malformed
  else
    match s.partFail part w.slice 0 with
    | some (k, st) => s.refuse w k st
    | none =>
      match s.passwordCheck part true (bytesAt w.desc 0x28 8) with
      | (s, some (k, st)) => s.refuse w k st
      | (s, none) =>
        let p := (s.storeView).partAt part
        let img : RecImage := .passwords part (if bit sel 0 then bytesAt w.desc 0x18 8 else p.readPw)
          (if bit sel 1 then bytesAt w.desc 0x20 8 else p.writePw)
        (s.modWork w.id (fun v => { v with phase := .active 1 })).nvSend [(recKey partSystem recUserTable, [img])]
          { work := w.id, core := none, last := true, ok := nvResult 0 0, fail := nvResult 0 0 }

/-- NV_PASSWD. -/
def execNvPasswd (ring : Nat) (s : State) : Host.Outcome State Fault Refusal :=
  .next (s.onStart ring 0x9003 s.nvPasswdBody)

/-- Erase a USER partition: its pages return to the spares, its contents are gone (R490). -/
def State.erasePart (s : State) (part : Nat) : State :=
  let inPart (k : Nat) : Bool := k / 2 ^ 20 == partUser part
  let n := { s.nv with wbuf := s.nv.wbuf.filter (fun e => !inPart e.key), behind := s.nv.behind.filter (fun e => !inPart e.key) }
  { s with nv := (n.maps.filter (fun e => inPart e.1)).foldl (fun n e => (e.2.foldl Nv.freePage n).setCopy e.1 []) n }

/-- A write of NV_PART_CFG (R490). -/
def State.partCfg (s : State) (value : Nat) : State :=
  let part := s.nv.partSel
  let p := s.partAt part
  let en := bit value 31
  let pages := bits value 12 0
  let slice := bits value 25 16
  let refuse (s : State) (err : Nat) : State :=
    (s.modPart part (fun p => { p with err := err })).plogReg 13 err 0xFFFF 0x060014
  let put (s : State) (p : UserPart) : State := ((s.setPart part p).nvPut partSystem recUserTable).defer (.part part slice)
  if part == 0 then
    let s := put s { p with err := 0 }
    if en && pages == p.pages then s else refuse s 3
  else if p.en && en then
    if pages == p.pages then put s { p with err := 0 } else refuse s 2
  else if p.en then
    let s := s.erasePart part
    put s { UserPart.none_ with pages := pages, slice := p.slice }
  else if en then
    if pages = 0 ∨ 4096 < pages ∨ 36864 < s.userPages + pages then refuse s 1
    else put s { p with en := true, pages := pages, err := 0 }
  else put s { p with pages := pages, err := 0 }

/-- NV_PART_CFG_WRITE. -/
def execNvPartCfgWrite (value : Nat) (s : State) : Host.Outcome State Fault Refusal :=
  .next (s.onReg 0x060014 (fun s => s.partCfg value))

/-- A reset of R277 or a start-up clears failure counts and locks (R493). -/
def State.lockReset (s : State) : State :=
  { s with nv := { s.nv with parts := tmap UserPart.none_ (fun x => { x with fails := 0, locked := false }) s.nv.parts } }

/-! Monotonic counters (R482-R489). -/

/-- The increment cells set in a bank copy. -/
def popcount (v : Nat) : Nat := popcountTo 64 v

/-- The base B of R483: none when neither base is valid; true for BASE_A. -/
def Counter.base (c : Counter) : Option (Bool × CntWord) :=
  if c.baseA.ok && c.baseB.ok then
    (if c.baseA.epoch == (c.baseB.epoch + 1) % 2 ^ 32 then some (true, c.baseA) else some (false, c.baseB))
  else if c.baseA.ok then some (true, c.baseA)
  else if c.baseB.ok then some (false, c.baseB) else none

/-- The bank copy that gives p of R483, true for BANK_A; none when K is empty. -/
def Counter.bank (c : Counter) (epoch : Nat) : Option (Bool × CntWord) :=
  let a := c.bankA.ok && c.bankA.epoch == epoch
  let b := c.bankB.ok && c.bankB.epoch == epoch
  if a && b then
    (if popcount c.bankB.v ≤ popcount c.bankA.v then some (true, c.bankA) else some (false, c.bankB))
  else if a then some (true, c.bankA)
  else if b then some (false, c.bankB) else none

/-- The stored value of R483; none when the counter is unusable. -/
def Counter.stored (c : Counter) : Option Nat :=
  c.base.map (fun b => b.2.v + ((c.bank b.2.epoch).map (fun k => popcount k.2.v)).getD 0)

/-- A store of R485: the base other than B with a new value. -/
def Counter.store (c : Counter) (v : Nat) : Counter :=
  match c.base with
  | none => c
  | some (isA, b) =>
    if c.stored = some v then c
    else
      let w : CntWord := { v := v, epoch := (b.epoch + 1) % 2 ^ 32, ok := true }
      if isA then { c with baseB := w } else { c with baseA := w }

/-- An increment written as one codeword (R484). -/
def Counter.writeIncr (c : Counter) : Counter :=
  match c.base with
  | none => c
  | some (isA, b) =>
    let k := c.bank b.epoch
    let cells := (k.map (fun x => x.2.v)).getD 0
    let p := popcount cells
    if p < 64 then
      let w : CntWord := { v := cells ||| 2 ^ p, epoch := b.epoch, ok := true }
      match k with
      | some (true, _) => { c with bankB := w }
      | _ => { c with bankA := w }
    else
      let w : CntWord := { v := b.v + 65, epoch := (b.epoch + 1) % 2 ^ 32, ok := true }
      if isA then { c with baseB := w } else { c with baseA := w }

/-- Largest value of a counter. -/
def counterMax : Nat := 2 ^ 64 - 1

/-- Increments since the last store at which a periodic store is due (R487). -/
def storeMark : Nat := 2 ^ 28

/-- The codewords of a counter are written (R482, R484, R485): its page in place, moved when it is due for levelling (R495). -/
def State.writeCounter (s : State) (n : Nat) : State :=
  let key := recKey partCounters (n / 4)
  let d := s.counterBytes (n / 4)
  let ok := ((List.range 4).map (fun k => ((s.counterAt (4 * (n / 4) + k)).words).map CntWord.ok)).flatten
  let bad := (ok.zipIdx.filter (fun x => !x.1)).map Prod.snd
  match s.nv.copy key with
  | [] => s
  | p :: _ =>
    if s.nv.due p then
      (s.newCopy { key := key, kind := 3, index := 0, pages := 1, data := d, first := 0, img := [], sync := [], frozen := true,
                   badCw := bad }).1
    else
      let new : NvPage := { s.nv.page p with data := d, badCw := bad }
      { s with nv := s.nv.writePhys p new }

/-- An increment takes hold (R487): volatile, or with its codeword in write-through. -/
def State.incrCounter (s : State) (n : Nat) : State :=
  let c := s.counterAt n
  let v := c.value + 1
  if s.nv.wt then
    (s.setCounter n { c.writeIncr with value := v }).writeCounter n
  else
    let s := s.setCounter n { c with value := v }
    if c.stored.map (· + storeMark) = some v then
      { s with nv := { s.nv with storeDue := s.nv.storeDue ++ [(n, s.now)] } }
    else s

/-- Store one counter (R485). -/
def State.storeCounter (s : State) (n : Nat) : State :=
  let c := s.counterAt n
  if c.stored = some c.value then s
  else (s.setCounter n (c.store c.value)).writeCounter n

/-- COUNTER_PERIODIC_STORE: a background step of the store's controller, ahead of every other one (R487). -/
def execCounterPeriodicStore (counter : Nat) (s : State) : Host.Outcome State Fault Refusal :=
  .next (if s.nv.storeDue.any (fun x => x.1 == counter) then
    s.stepOf .nv background (fun s =>
      let s := s.storeCounter counter
      { s with nv := { s.nv with storeDue := s.nv.storeDue.filter (fun x => x.1 != counter) } })
  else s)

/-- A counter changes hands at the grain boundary (R488). -/
def State.ownerWrite (s : State) (counter slice : Nat) : State :=
  (s.modCounter counter (fun c => { c with owner := slice })).nvPut partCounters recOwners

/-- A partition changes hands at the grain boundary (R490). -/
def State.partSlice (s : State) (part slice : Nat) : State :=
  (s.modPart part (fun p => { p with slice := slice })).nvPut partSystem recUserTable

/-- A write of CNT_OWNER (R488). -/
def State.cntOwner (s : State) (value : Nat) : State := s.defer (.owner s.nv.cntSel (value % 0x10000))

/-- CNT_OWNER_WRITE. -/
def execCntOwnerWrite (value : Nat) (s : State) : Host.Outcome State Fault Refusal :=
  .next (s.onReg 0x060044 (fun s => s.cntOwner value))

/-! Scrub and uncorrectable codewords (R473, R474, R495). -/

/-- A codeword of a counter is uncorrectable (R483). -/
def State.loseCounter (s : State) (n cw : Nat) : State :=
  s.modCounter n (fun c =>
    match cw with
    | 0 => { c with baseA := { c.baseA with ok := false } }
    | 1 => { c with baseB := { c.baseB with ok := false } }
    | 2 => { c with bankA := { c.bankA with ok := false } }
    | _ => { c with bankB := { c.bankB with ok := false } })

/-- A codeword of a physical page is uncorrectable: the page reads under R473. A counter page holds the codewords of R482; helper
data that cannot be read are lost (R376). -/
def State.badCodeword (s : State) (phys cw : Nat) : State :=
  let p := s.nv.page phys
  let s := { s with nv := s.nv.setPage phys (p.spoil cw) }
  if p.part = partCounters ∧ p.lpage < counterPages ∧ cw < 16 then s.loseCounter (4 * p.lpage + cw / 4) (cw % 4)
  else if p.part = partSystem ∧ p.lpage = recHelper then { s with keys := { s.keys with helper := none } }
  else s

/-- Count `n` corrected words of a unit code (R23, R584). -/
def State.corrected (s : State) (code n : Nat) : State :=
  let v := satAdd 0xFFFFFFFF (tget 0 s.tel.errCorr code) n
  { s with tel := { s.tel with errCorr := tput 0 s.tel.errCorr code v } }

/-- The scrub rewrites corrected codewords of a page in place: SEQ and COMMIT stay (R495), and a codeword that had been found
uncorrectable is sound again (R473). -/
def State.scrubWrite (s : State) (p : Nat) (cws : List Nat) : State :=
  let v := s.nv.page p
  { s with nv := s.nv.writePhys p { v with badCw := v.badCw.filter (fun k => !cws.contains k) } }

/-- The scrub goes on to the next page. -/
def State.scrubbed (s : State) (p corrected bad : Nat) : State :=
  { s with nv := { s.nv with
      scrubPos := (p + 1) % 65536, corrected := s.nv.corrected + BitVec.ofNat 32 corrected,
      uncorr := s.nv.uncorr + BitVec.ofNat 32 bad } }

/-- The scrub of one physical page (R495): corrected codewords are rewritten in place while HOLD is healthy. -/
def State.scrubStep (s : State) (corrected bad : List Nat) : State :=
  let p := s.nv.scrubPos
  let s := if corrected.isEmpty || !s.holdHealthy then s else s.scrubWrite p corrected
  let s := s.corrected 10 corrected.length
  let s := bad.foldl (fun s cw => (s.badCodeword p cw).uncorrectable 13 10 0xFFFF p) s
  let s := s.scrubbed p corrected.length bad.length
  if p = 65535 then s.taskDone 0 else s

/-- NV_SCRUB_STEP: a background step of the store's controller (R44, R51), after the stores of counters (R487). -/
def execNvScrubStep (corrected bad : List Nat) (s : State) : Host.Outcome State Fault Refusal :=
  .next (if !s.nv.storeDue.isEmpty then s else s.stepOf .nv background (fun s => s.scrubStep corrected bad))

end Sys2Proof.Machine
end

