-- ==== Sys2Proof/Machine/Keys.lean ====
section
/-! DEFINITION. Keys: slots, attributes, use counters, sessions, the derivation tree, device keys (R374-R401), and the
commands of the session family. -/

namespace Sys2Proof.Machine
open Sys2Proof

/-! Attribute words (R383). -/

def attrPost : Nat := 0
def attrTallyAdmin : Nat := 1
def attrTallyRead : Nat := 2
def attrTallyAdjust : Nat := 3
def attrCounter : Nat := 4
def attrMac : Nat := 5
def attrCipher : Nat := 6
def attrPrivate : Nat := 7
def attrDerive : Nat := 8
def attrBookMaster : Nat := 9
def attrReceipt : Nat := 10
def attrEnvelope : Nat := 11
def attrHandover : Nat := 12
def attrInvoke : Nat := 13
def attrApplet : Nat := 14
def attrAdj : Nat := 20
def attrVolatile : Nat := 21
def attrUnlimited : Nat := 22

/-- Operation bits and CLASSES (R392). -/
def attrRights : BitVec 32 := 0x000F7FFF

/-- Reserved bits of an attribute word: 15 and 31 to 23. -/
def attrReserved : BitVec 32 := 0xFF808000

/-- The key allows an operation of a class on a slice (R383). -/
def attrAllows (attr : BitVec 32) (op cls keySlice slice : Nat) : Bool :=
  attr.getLsbD op && attr.getLsbD (16 + cls) && (keySlice == slice || keySlice == 0xFFFF)

/-- R392 for a request under a parent that has `left` uses after the charge. -/
def deriveOk (parent req : BitVec 32) (left uses : Nat) : Bool :=
  (req &&& attrRights) &&& ~~~parent == 0 && (!req.getLsbD attrAdj || parent.getLsbD attrAdj) &&
    (if req.getLsbD attrUnlimited then parent.getLsbD attrUnlimited
     else decide (1 ≤ uses) && (parent.getLsbD attrUnlimited || decide (uses ≤ left)))

/-- The attributes of a derived key: VOLATILE is inherited (R392). -/
def deriveAttr (parent req : BitVec 32) : BitVec 32 := req ||| (parent &&& BitVec.twoPow 32 attrVolatile)

/-! Slots. -/

/-- Bytes of material of a TYPE (R381), none for a reserved one. -/
def typeSize (type : Nat) : Option Nat :=
  match type with
  | 0x01 => some 16 | 0x02 => some 24 | 0x03 => some 32 | 0x04 => some 32 | 0x05 => some 64 | 0x10 => some 32
  | 0x11 => some 48 | 0x12 => some 72 | 0x13 => some 32 | 0x14 => some 32 | 0x20 => some 640 | 0x21 => some 960
  | 0x22 => some 1280 | _ => none

/-- TYPEs that stand in large slots (R381). -/
def typeLarge (type : Nat) : Bool := type == 0x12 || type == 0x20 || type == 0x21 || type == 0x22

/-- Number of slots of a TARGET (R380). -/
def slotCount (target : Nat) : Nat := if target == 0 then 12288 else 1024

/-- The resident material (R388). -/
def Slot.material (k : Slot) : Bytes := xorBytes k.masked k.mask

/-- Descriptor bytes 0x00 to 0x09 and 0x10 to 0x17, which the slot MAC covers (R382, R384). -/
def Slot.covered (k : Slot) : Bytes :=
  leBytes 1 k.type ++ leBytes 1 (flag k.occupied + 2 * k.level) ++ leBytes 2 k.family ++ leBytes 4 k.attr.toNat ++
    leBytes 2 k.slice ++ leBytes 8 k.e

/-- The slot MAC of R384. -/
def slotMac (kSint : Bytes) (target index : Nat) (k : Slot) (material : Bytes) : Bytes :=
  (cmac kSint (leBytes 1 target ++ [0] ++ leBytes 2 index ++ k.covered ++ material)).take 8

/-- The tweak of a slot's data unit in KEYS (R384). -/
def storeTweak (target index : Nat) : Bytes := leBytes 2 index ++ leBytes 1 target ++ zeros 13

/-- Material as KEYS stores it (R384). -/
def KeyStore.seal (k : KeyStore) (target index : Nat) (m : Bytes) : Bytes :=
  xtsEncUnit k.kStoreD k.kStoreT (storeTweak target index) m

/-- The material of what KEYS stores. -/
def KeyStore.unseal (k : KeyStore) (target index : Nat) (b : Bytes) : Bytes :=
  xtsDecUnit k.kStoreD k.kStoreT (storeTweak target index) b

/-- The stored material of a slot, decrypted, passes the slot MAC, and its records can be read (R385, R474). -/
def State.storedOk (s : State) (target index : Nat) (k : Slot) : Bool :=
  s.recordOk partKeys (recSlot target index) && s.recordOk partKeys (recMaterial target index) &&
    slotMac s.keys.kSint target index k (s.keys.unseal target index k.stored) == k.mac

/-- The key has expired (R387). -/
def State.slotExpired (s : State) (k : Slot) : Bool := k.attr.getLsbD attrVolatile && k.epoch != s.keys.epoch

/-- The first of STATE, SLOT_BAD, EXPIRED and EXHAUSTED that holds for a slot named by an operation. -/
def State.slotFail (s : State) (target index : Nat) : Option Status :=
  let k := s.slotAt target index
  firstFail [(k.occupied, .state), (!k.bad, .slotBad), (!s.slotExpired k, .expired),
    (k.attr.getLsbD attrUnlimited || k.uses != 0, .exhausted)]

/-- USES of a slot as recorded, or as a record that waits in the write buffer will have it. -/
def State.usesRecorded (s : State) (target index : Nat) : Nat :=
  (((s.nv.wbuf ++ s.nv.behind).flatMap WbEntry.img).filterMap (fun i =>
    match i with
    | .uses t n u => if t = target ∧ n = index then some u else none
    | _ => none)).getLast?.getD (s.slotAt target index).usesRec

/-- Charge one use (R386): recorded when it has fallen by 4,096 since the last record, when it reaches zero, and at each
use in write-through (R480). -/
def State.chargeSlot (s : State) (target index : Nat) : State :=
  let k := s.slotAt target index
  if k.attr.getLsbD attrUnlimited || k.uses == 0 then s
  else
    let u := k.uses - 1
    let due := s.nv.wt || u == 0 || decide (4096 ≤ s.usesRecorded target index - u)
    let s := s.setSlot target index { k with uses := u }
    if due then s.nvLazy (recKey partKeys (recSlot target index)) (.uses target index u) else s

/-- A slot fails its integrity check (R385). -/
def State.badSlot (s : State) (target index : Nat) : State :=
  let s := s.modSlot target index (fun k => { k with bad := true, masked := [], mask := [], swapped := 0 })
  let slice := (s.slotAt target index).slice
  s.level1 10 0x17 index slice target

/-- The MAC of an occupied slot verifies over its resident material (R385). -/
def State.slotIntact (s : State) (target index : Nat) : Bool :=
  let k := s.slotAt target index
  slotMac s.keys.kSint target index k k.material == k.mac

/-- Every session descended from a slot answers EXPIRED (R401). -/
def State.endDescendants (s : State) (index install : Nat) : State :=
  let expire (x : Session) : Session :=
    if x.isOpen && x.parent == index && x.parentInstall == install then { x with parentGone := true } else x
  { s with keys := { s.keys with sessions := tmap Session.reset expire s.keys.sessions } }

/-- Committed contents of a slot or an authority entry take effect at a boundary (R407): with a compact slot every session
descended from its old key expires. -/
def State.install (s : State) (i : RecImage) : State :=
  match i with
  | .slot t n k =>
    let old := s.slotAt t n
    (if t = 0 then s.endDescendants n old.install else s).setSlot t n { k with install := old.install + 1 }
  | i => s.putImage i

/-! Sessions. -/

/-- The session key and the receipt key. -/
def Session.key (x : Session) : Bytes := xorBytes x.masked x.mask
def Session.rcptKey (x : Session) : Bytes := xorBytes x.rcptMasked x.rcptMask

/-- It has a receipt key (R397). -/
def Session.hasRcpt (x : Session) : Bool := x.attr.getLsbD attrReceipt && decide (x.level ≤ 6)

/-- The session's key has expired (R387, R401). -/
def State.sessionExpired (s : State) (x : Session) : Bool :=
  x.parentGone || (x.attr.getLsbD attrVolatile && x.epoch != s.keys.epoch)

/-- The handle names a session context of the slice that has not been closed. -/
def State.sessionHeld (s : State) (h slice : Nat) : Bool :=
  decide (h < 8192) && (s.sessionAt h).isOpen && (s.sessionAt h).slice == slice

/-- The first of STATE, SLOT_BAD, EXPIRED and EXHAUSTED that holds for a session named by work of a slice. -/
def State.sessionFail (s : State) (h slice : Nat) : Option Status :=
  let x := s.sessionAt h
  firstFail [(s.sessionHeld h slice, .state), (!x.slotBad, .slotBad), (!s.sessionExpired x, .expired),
    (x.attr.getLsbD attrUnlimited || x.uses != 0, .exhausted)]

/-- Charge one use to a session. -/
def State.chargeSession (s : State) (h : Nat) : State :=
  s.modSession h (fun x => if x.attr.getLsbD attrUnlimited then x else { x with uses := x.uses - 1 })

/-- A re-derivation is in progress (R400): work of the session waits. -/
def State.sessionBusy (s : State) (h : Nat) : Bool := decide (s.now < (s.sessionAt h).busyUntil)

/-- The MAC in the last 16 of `n` bytes of a descriptor verifies under a key (R151). -/
def Work.macOk (w : Work) (key : Bytes) (n : Nat) : Bool := cmac key (w.desc.take (n - 16)) == bytesAt w.desc (n - 16) 16

/-- Keys k1, k2, … along labels (R396). -/
def derivePath (key : Bytes) (level : Nat) : List Bytes → Bytes
  | [] => key
  | l :: t => derivePath (kdf key (level + 1) 0x03 l 32) (level + 1) t

/-- The receipt key of R397. -/
def rcptKeyOf (key : Bytes) (level : Nat) : Bytes := kdf key (level + 1) 0x03 (ascii "SKAORA-RCPT") 32

/-- The first handle from `h` on, of `n`, that is free. -/
def State.freeHandle (s : State) : Nat → Nat → Option Nat
  | 0, _ => none
  | n + 1, h => if (s.sessionAt h).isOpen then s.freeHandle n (h + 1) else some h

/-- Sessions open for a slice. -/
def State.sessionCount (s : State) (slice : Nat) : Nat :=
  (s.keys.sessions.filter (fun e => e.2.isOpen && e.2.slice == slice)).length

/-- Sessions open device-wide. -/
def State.sessionTotal (s : State) : Nat := (s.keys.sessions.filter (fun e => e.2.isOpen)).length

/-- Bytes of mask over the keys of a session and of a book. -/
def sessionMask : Nat := 64
def bookMask : Nat := 128

/-- Put fresh masks, bytes of the random unit, on a session's keys. -/
def State.maskSession (s : State) (h : Nat) (key r : Bytes) : State :=
  let x := s.sessionAt h
  let rk := if x.hasRcpt then rcptKeyOf key x.level else []
  let s := s.setSession h { x with
    masked := xorBytes key (r.take 32), mask := r.take 32, rcptMasked := xorBytes rk (r.drop 32),
    rcptMask := (r.drop 32).take rk.length, maskedAt := s.now,
    tag := Config.freeBytes s.draws 16 }
  s.drawn

/-- The attribute block of R396: attribute word and USES. -/
def Work.attrBlock (w : Work) : BitVec 32 × Nat := (BitVec.ofNat 32 (w.field 0x20 4), w.field 0x24 6)

/-- Open a session (R396): context, keys, result. -/
def State.openSession (s : State) (w : Work) (parent install : Nat) (labels : List Bytes) (level : Nat)
    (attr : BitVec 32) (uses : Nat) (key mask : Bytes) : State :=
  match s.freeHandle 8192 0 with
  | none => s.refuse w 6 .busy
  | some h =>
    let x : Session :=
      { Session.reset with
        slice := w.slice, isOpen := true, level := level, parent := parent, parentInstall := install, labels := labels,
        attr := attr, uses := if attr.getLsbD attrUnlimited then 0 else uses, epoch := s.keys.epoch }
    let s := (s.setSession h x).maskSession h key mask
    s.finish w.id .ok (leBytes 2 h ++ leBytes 1 level ++ leBytes 1 (flag x.hasRcpt))

/-- A context is free for the slice (check 6 of R396). -/
def State.sessionRoom (s : State) (slice : Nat) : Bool :=
  decide (s.sessionCount slice < (s.sliceAt slice).sessQuota) && decide (s.sessionTotal < 8192)

/-- Labels of the steps used are from 1 to 32 bytes long and zero-padded, the others absent (check 1 of R396). -/
def Work.labelsOk (w : Work) : Bool :=
  let n := w.field 0x14 1
  decide (1 ≤ n) && decide (n ≤ 4) && (List.range 4).all (fun j =>
    let len := w.field (0x15 + j) 1
    let lab := bytesAt w.desc (0x30 + 32 * j) 32
    (if j < n then decide (1 ≤ len) && decide (len ≤ 32) else len == 0) && allZero (lab.drop len))

/-- The masks of a session that can be opened are drawn at priority 2, before anything is charged. -/
def State.drawContext (s : State) (w : Work) : State :=
  (s.modWork w.id (fun v => { v with phase := .active 1 })).askRandom (.context w.id) 2 w.slice sessionMask

/-- SESSION_OPEN (R396), with the masks once they have come; a refusal does not wait for them. -/
def State.sessionOpenWith (s : State) (w : Work) (mask : Option Bytes) : State :=
  let s0 := s
  let kh := w.field 0x10 4
  let idx := kh % 0x10000
  let steps := w.field 0x14 1
  let (attr, uses) := w.attrBlock
  let k := s.slotAt 0 idx
  let form := w.aux == 0 && w.labelsOk && w.zeroFrom 0x19 0x20 && w.zeroFrom 0x2A 0x30 && w.zeroFrom 0xB0 0xF0 &&
    attr &&& attrReserved == 0
  if !form then s.refuse w 1 .malformed
  else if !(kh / 0x10000 == 0x2000 && decide (idx < 12288)) then s.refuse w 2 .malformed
  else
    match s.slotFail 0 idx with
    | some st => s.refuse w 3 st
    | none =>
      if k.type != 0x03 then s.refuse w 4 .policy
      else
        let s := s.chargeSlot 0 idx
        if !w.macOk k.material 0x100 then s.refuse w 4 .auth
        else if !(attrAllows k.attr attrDerive 2 k.slice w.slice && decide (k.level + steps ≤ 7) &&
            deriveOk k.attr attr (s.slotAt 0 idx).uses uses) then
          s.refuse w 5 .policy
        else if !s.sessionRoom w.slice then s.refuse w 6 .busy
        else
          let labels := (List.range steps).map (fun j => bytesAt w.desc (0x30 + 32 * j) (w.field (0x15 + j) 1))
          match mask with
          | none => s0.drawContext w
          | some r =>
            s.openSession w idx k.install labels (k.level + steps) (deriveAttr k.attr attr) uses
              (derivePath k.material k.level labels) r

/-- SESSION_OPEN begins. -/
def State.sessionOpenBody (s : State) (w : Work) : State := s.sessionOpenWith w none

/-- SESSION_OPEN. -/
def execSessionOpen (ring : Nat) (s : State) : Host.Outcome State Fault Refusal :=
  .next (s.onStart ring 0x4000 s.sessionOpenBody)

/-- SESSION_DERIVE (R398): the checks of R396, the named session in place of the parent. -/
def State.sessionDeriveWith (s : State) (w : Work) (mask : Option Bytes) : State :=
  let s0 := s
  let len := w.field 0x10 1
  let (attr, uses) := w.attrBlock
  let x := s.sessionAt w.session
  let label := bytesAt w.desc 0x30 32
  let form := w.aux == 0 && w.zeroFrom 0x11 0x20 && w.zeroFrom 0x2A 0x30 && w.zeroFrom 0x50 0x70 &&
    attr &&& attrReserved == 0 && decide (1 ≤ len) && decide (len ≤ 32) && allZero (label.drop len)
  if !form then s.refuse w 1 .malformed
  else
    match s.sessionFail w.session w.slice with
    | some st => s.refuse w 3 st
    | none =>
      let s := s.chargeSession w.session
      if !w.macOk x.key 0x80 then s.refuse w 4 .auth
      else if !(attrAllows x.attr attrDerive 2 x.slice w.slice && decide (x.level + 1 ≤ 7) &&
          deriveOk x.attr attr (s.sessionAt w.session).uses uses) then s.refuse w 5 .policy
      else if !s.sessionRoom w.slice then s.refuse w 6 .busy
      else
        let l := label.take len
        match mask with
        | none => s0.drawContext w
        | some r =>
          s.openSession w x.parent x.parentInstall (x.labels ++ [l]) (x.level + 1) (deriveAttr x.attr attr) uses
            (kdf x.key (x.level + 1) 0x03 l 32) r

/-- SESSION_DERIVE begins. -/
def State.sessionDeriveBody (s : State) (w : Work) : State := s.sessionDeriveWith w none

/-- The masks of a session that is being opened have come. -/
def State.contextReady (s : State) (w : Work) (r : Bytes) : State :=
  if w.opcode == 0x4000 then s.sessionOpenWith w (some r) else s.sessionDeriveWith w (some r)

/-- SESSION_DERIVE. -/
def execSessionDerive (ring : Nat) (s : State) : Host.Outcome State Fault Refusal :=
  .next (s.onStart ring 0x4002 (fun w => if s.sessionBusy w.session then s else s.sessionDeriveBody w))

/-- SESSION_CLOSE (R399). -/
def State.sessionCloseBody (s : State) (w : Work) : State :=
  if !(w.aux == 0 && w.zeroFrom 0x10 0x30) then s.refuse w 1 .malformed
  else if !s.sessionHeld w.session w.slice then s.refuse w 2 .state
  else if (s.sessionAt w.session).slotBad then s.refuse w 2 .slotBad
  else if !w.macOk (s.sessionAt w.session).key 0x40 then s.refuse w 3 .auth
  else (s.setSession w.session Session.reset).finish w.id .ok []

/-- SESSION_CLOSE. -/
def execSessionClose (ring : Nat) (s : State) : Host.Outcome State Fault Refusal :=
  .next (s.onStart ring 0x4001 (fun w => if s.sessionBusy w.session then s else s.sessionCloseBody w))

/-- Places of the loaded slots and session contexts in the re-masking pass: compact slots, large slots, sessions. -/
def State.remaskItems (s : State) : List Nat :=
  let loaded (t : Table Slot) : List Nat :=
    (t.filter (fun e => e.2.occupied && !e.2.bad && !e.2.masked.isEmpty)).map Prod.fst
  loaded s.keys.compact ++ (loaded s.keys.large).map (12288 + ·) ++
    ((s.keys.sessions.filter (fun e => e.2.isOpen && !e.2.slotBad && !s.sessionExpired e.2)).map (fun e => 13312 + e.1))

/-- Those that the pass still has before it. -/
def State.remaskLeft (s : State) : List Nat := s.remaskItems.filter (fun k => decide (s.keys.remaskPos ≤ k))

/-- The pass has reached its end: task 1 of R53 is finished. -/
def State.remaskEnd (s : State) : State :=
  if s.remaskLeft.isEmpty then { s with keys := { s.keys with remaskPos := 0 } }.taskDone 1 else s

/-- The item at a place has been re-masked: the pass goes on behind it when it was next. -/
def State.remasked (s : State) (place : Nat) : State :=
  if decide (s.keys.remaskPos ≤ place) && s.remaskLeft.all (fun k => decide (place ≤ k)) then
    { s with keys := { s.keys with remaskPos := place + 1 } }.remaskEnd
  else s

/-- Re-derivation of a session context (R400), a background step of the key store, once the random unit has given the masks (R388):
four grains during which its work waits. -/
def State.rederive (s : State) (h : Nat) : State :=
  let x := s.sessionAt h
  let k := s.slotAt 0 x.parent
  if !x.isOpen || x.slotBad || s.sessionExpired x then s
  else if k.bad then
    (s.setSession h { x with slotBad := true, masked := [], mask := [], rcptMasked := [], rcptMask := [] }).remasked (13312 + h)
  else
    match s.gotRandom (.rederive h) with
    | none => s.askRandom (.rederive h) 2 0 sessionMask
    | some r =>
      s.stepOf .keyStore background (fun s =>
        let s := (s.dropRandom (.rederive h)).maskSession h (derivePath k.material k.level x.labels) r
        (s.modSession h (fun y => { y with busyUntil := s.now + 4 })).remasked (13312 + h))

/-- SESSION_REDERIVATION. -/
def execSessionRederivation (handle : Nat) (s : State) : Host.Outcome State Fault Refusal := .next (s.rederive handle)

/-- Bytes of material of a slot of a TARGET (R380), as its masks are drawn. -/
def slotBytes (target : Nat) : Nat := if target = 0 then 64 else 1280

/-- One step of an exchange of masks: 256 bytes from `o` on (R388). -/
def Slot.exchange (k : Slot) (r : Bytes) (o : Nat) : Slot :=
  let cut (b : Bytes) : Bytes := (b.drop o).take 256
  { k with masked := k.masked.take o ++ xorBytes (cut k.masked) (xorBytes (cut k.mask) (cut (r.take k.mask.length))) ++ k.masked.drop (o + 256),
           mask := k.mask.take o ++ cut (r.take k.mask.length) ++ k.mask.drop (o + 256), swapped := o + 256 }

/-- One re-masking of a slot (R388): the mask is exchanged once the random unit has given a fresh one, in background steps of
the key store, one for a compact slot and five for a large one; the slot MAC is checked in the same pass (R385). Until then the
request waits at priority 2. -/
def State.remask (s : State) (target index : Nat) : State :=
  let k := s.slotAt target index
  if !k.occupied || k.bad || k.masked.isEmpty then s
  else
    match s.gotRandom (.remask target index) with
    | none => s.askRandom (.remask target index) 2 0 (slotBytes target)
    | some r =>
      s.stepOf .keyStore background (fun s =>
        let s := s.setSlot target index (k.exchange r k.swapped)
        if k.swapped + 256 < slotBytes target then s
        else
          let s := (s.dropRandom (.remask target index)).modSlot target index (fun k => { k with swapped := 0 })
          (if s.slotIntact target index then s else s.badSlot target index).remasked (12288 * target + index))

/-- KEY_REMASK. -/
def execKeyRemask (target index : Nat) (s : State) : Host.Outcome State Fault Refusal := .next (s.remask target index)

/-- FAMILY_READ (R402). -/
def State.familyReadBody (s : State) (w : Work) : State :=
  let f := w.field 0x10 2
  if !(w.aux == 0 && w.zeroFrom 0x12 0x20) || decide (255 < f) then s.refuseOpen w .malformed []
  else if !s.recordOk partKeys (recFamily f) then s.refuseOpen w .fault []
  else s.finishOpen w.id .ok (leBytes 8 (s.familyAt f))

/-- FAMILY_READ. -/
def execFamilyRead (ring : Nat) (s : State) : Host.Outcome State Fault Refusal :=
  .next (s.onStart ring 0x4011 s.familyReadBody)

/-- CERT_READ (R379): result bytes 0 and 1 always carry the certificate length. -/
def State.certReadBody (s : State) (w : Work) : State :=
  let out := w.field 0x10 8
  let len := w.field 0x18 4
  let n := s.keys.cert.length
  let res := leBytes 2 n
  if !(w.aux == 0 && w.zeroFrom 0x1C 0x40) || decide (len < n) || beyond64 out len then s.refuseOpen w .malformed res
  else if s.tamper.state = .blank then s.refuseOpen w .state res
  else if !s.recordOk partSystem recCert then s.refuseOpen w .fault res
  else if !s.rangeOk w.slice out len true then s.refuseOpen w .access res
  else if !s.canMaster masterMgmt then s
  else
    let r := s.hostWrite masterMgmt w.slice .statement (some w.id) out s.keys.cert
    r.1.finishOpen w.id (if r.2 then .ok else .access) res

/-- CERT_READ. -/
def execCertRead (ring : Nat) (s : State) : Host.Outcome State Fault Refusal :=
  .next (s.onStart ring 0x4020 s.certReadBody)

/-! Keys named by operations (R393). -/

/-- Where a key named by a handle stands. -/
inductive KeySrc where
  | session (h : Nat)
  | slot (target index : Nat)
  | handle (core num : Nat)
deriving DecidableEq, Repr

/-- The key a handle names, for work of a session or of an invocation on a core; none when it is MALFORMED. -/
def keySrcOf (kh session : Nat) (core : Option Nat) : Option KeySrc :=
  let idx := kh % 0x10000
  if kh / 0x10000 % 0x1000 != 0 then none
  else
    match kh / 0x10000000 with
    | 0 => if idx == 0 then some (.session session) else none
    | 1 => match core with
      | some c => if idx < 8 then some (.handle c idx) else none
      | none => none
    | 2 => if idx < 12288 then some (.slot 0 idx) else none
    | 3 => if idx < 1024 then some (.slot 1 idx) else none
    | _ => none

/-- The key of an applet is that of its session or one that DERIVE has returned (R369). -/
def KeySrc.ofApplet (k : KeySrc) : Bool := match k with | .slot _ _ => false | _ => true

/-- The derived handle `num` of a core. -/
def State.handleAt (s : State) (core num : Nat) : Option Handle :=
  (s.coreAt core).handles.find? (fun h => h.num == num)

/-- STATE, SLOT_BAD, EXPIRED, EXHAUSTED for a key named by an operation of a slice. -/
def State.keyFail (s : State) (k : KeySrc) (slice : Nat) : Option Status :=
  match k with
  | .session h => s.sessionFail h slice
  | .slot t i => s.slotFail t i
  | .handle c n =>
    match s.handleAt c n with
    | none => some .state
    | some h =>
      firstFail [(!(h.attr.getLsbD attrVolatile && h.epoch != s.keys.epoch), .expired),
        (h.attr.getLsbD attrUnlimited || h.uses != 0, .exhausted)]

/-- Charge one use of a key. -/
def State.chargeKey (s : State) (k : KeySrc) : State :=
  match k with
  | .session h => s.chargeSession h
  | .slot t i => s.chargeSlot t i
  | .handle c n =>
    s.modCore c (fun x => { x with handles := x.handles.map (fun h =>
      if h.num == n && !h.attr.getLsbD attrUnlimited then { h with uses := h.uses - 1 } else h) })

/-- The key itself, with TYPE, attribute word, allowed slice and level. -/
structure KeyView where
  key : Bytes
  type : Nat
  attr : BitVec 32
  slice : Nat
  level : Nat
  uses : Nat
  e : Nat

/-- What an operation reads of a key. -/
def State.keyView (s : State) (k : KeySrc) (slice : Nat) : KeyView :=
  match k with
  | .session h =>
    let x := s.sessionAt h
    { key := x.key, type := 0x03, attr := x.attr, slice := x.slice, level := x.level, uses := x.uses, e := 0 }
  | .slot t i =>
    let x := s.slotAt t i
    { key := x.material, type := x.type, attr := x.attr, slice := x.slice, level := x.level, uses := x.uses, e := x.e }
  | .handle c n =>
    match s.handleAt c n with
    | none => { key := [], type := 0, attr := 0, slice := slice, level := 0, uses := 0, e := 0 }
    | some h =>
      { key := h.key, type := 0x03, attr := h.attr, slice := slice, level := h.level, uses := h.uses, e := 0 }

/-! Device keys (R374-R378). -/

/-- The device keys derived from the root (R377). -/
def deviceKey (root : Bytes) (label : String) : Bytes := kdf root 1 0x03 (ascii label) 32

/-- The private identity scalar (R377). -/
def identityScalar (root : Bytes) : Nat := leNat (kdf root 1 0x11 (ascii "SKAORA-IDENTITY") 56) % (p384.n - 1) + 1

/-- A point as x then y, each in `n` little-endian bytes. -/
def pointBytes (n : Nat) (p : Point) : Bytes :=
  match p with
  | none => zeros (2 * n)
  | some (x, y) => leBytes n x ++ leBytes n y

/-- DEVICE_ID of a public identity key (R377). -/
def deviceIdOf (q : Bytes) : Bytes := (sha384 q).take 16

/-- The 128 bytes hashed for a tweak (R378). -/
def tweakInput (purpose : String) (q : Bytes) (uid incarn j : Nat) : Bytes :=
  fit 16 (ascii purpose) ++ q ++ leBytes 8 uid ++ leBytes 4 incarn ++ leBytes 4 j

/-- The tweak `t` of R378. -/
def tweakOf (purpose : String) (q : Bytes) (uid incarn j : Nat) : Nat :=
  leNat (sha384 (tweakInput purpose q uid incarn j)) % (p384.n - 1) + 1

/-- Values that `j` can take in its four bytes (R378). -/
def tweakTries : Nat := 2 ^ 32

/-- The tweaked private key, from the first `j` of `n` that does not give zero. -/
def tweakedAux (purpose : String) (d : Nat) (q : Bytes) (uid incarn : Nat) : Nat → Nat → Nat
  | 0, _ => 0
  | n + 1, j =>
    let k := (d + tweakOf purpose q uid incarn j) % p384.n
    if k = 0 then tweakedAux purpose d q uid incarn n (j + 1) else k

/-- The book-attestation key of a book incarnation (R378). -/
def State.attestKey (s : State) (uid incarn : Nat) : Nat :=
  tweakedAux "SKAORA-BOOKATT" (leNat s.keys.dId) s.keys.qId uid incarn tweakTries 0

/-- The envelope agreement key (R378). -/
def State.envelopeKey (s : State) : Nat := tweakedAux "SKAORA-ENVELOPE" (leNat s.keys.dId) s.keys.qId 0 0 tweakTries 0

/-- The public book-attestation key of a device with identity key `q` (R378). -/
def attestPublicAux (q : Bytes) (uid incarn : Nat) : Nat → Nat → Point
  | 0, _ => none
  | n + 1, j =>
    let qp : Point := some (fieldAt q 0 48, fieldAt q 48 48)
    match p384.add qp (p384.mul (tweakOf "SKAORA-BOOKATT" q uid incarn j) p384.g) with
    | none => attestPublicAux q uid incarn n (j + 1)
    | some p => some p

def attestPublic (q : Bytes) (uid incarn : Nat) : Point := attestPublicAux q uid incarn tweakTries 0

/-- r then s, 48 bytes each, little-endian (R140). -/
def sigBytes (n : Nat) (rs : Nat × Nat) : Bytes := leBytes n rs.1 ++ leBytes n rs.2

/-- An ECDSA P-384 signature of the device over a digest. Its nonce comes from the random unit: a free value (log entry
6). -/
def State.signP384 (s : State) (d : Nat) (digest : Bytes) : Bytes × State :=
  (sigBytes 48 (ecdsaSign p384 d (Config.freeNat s.draws % (p384.n - 1) + 1) digest), s.drawn)

/-- A P-384 signature, r then s, under a public key given as x then y. -/
def verifyP384 (q sig digest : Bytes) : Bool :=
  ecdsaVerify p384 (fieldAt q 0 48) (fieldAt q 48 48) (fieldAt sig 0 48) (fieldAt sig 48 48) digest

end Sys2Proof.Machine
end

