-- ==== Sys2Proof/Machine/Slices.lean ====
section
/-! DEFINITION. Slices (R278-R302): commands, quotas, reset and removal, the dirty-page log registers. -/

namespace Sys2Proof.Machine
open Sys2Proof

/-! Work that ends without a completion. -/

/-- The collect of a descriptor ends without a completion: the front end is a tag again (R530, R538). -/
def State.dropCollect (s : State) (id : Nat) : State :=
  match s.cl.collect with
  | some c => if c.work == id then { s with cl := { s.cl with collect := none, mode := .tag } } else s
  | none => s

/-- A piece of work is given up without a completion. -/
def State.abandon (s : State) (w : Work) : State := ((s.releaseUnits w.id).dropCollect w.id).dropWork w.id

/-! Reset of a slice with work in flight (R291, R294). -/

/-- Work under way that a slice reset lets run to its end, by opcode and progress. NV_READ, RNG_KAT and RNG_INJECT, which have
no row of their own in R294, are abandoned: the model's choice (log entry 88). -/
def Work.runsOn (w : Work) : Bool :=
  match w.opcode / 0x1000 with
  | 0x1 => true
  | 0x3 => w.opcode == 0x3000 || w.opcode == 0x3012 || w.opcode == 0x3032 || (w.opcode == 0x3030 && w.commit.isSome)
  | 0x4 => true
  | 0x7 => decide (0x7010 ≤ w.opcode)
  | 0x9 => decide (0x9001 < w.opcode) || w.activeAt 2
  | 0xA => w.opcode != 0xA100
  | _ => false

/-- The checkpoint or handover of a piece of work ends (R294). -/
def State.endWriteBack (s : State) (w : Work) : State :=
  s.modBook w.slice (fun b =>
    let b := if b.handover == some w.id then { b with handover := none } else b
    match b.wb with
    | some j => if j.work == w.id then { b with wb := none } else b
    | none => b)

/-- CHECKPOINT in phase 2 or later: it runs to its end, but its statement is not written. That phase 3, which R294 does not
name, is as phase 2 is the model's choice (log entry 89). -/
def State.muteCheckpoint (s : State) (w : Work) : Option State :=
  match (s.bookAt w.slice).wb with
  | some j =>
    if j.work == w.id && decide (2 ≤ j.phase) then
      some (s.modBook w.slice (fun b => { b with wb := some { j with mute := true } }))
    else none
  | none => none

/-- A prime operation (R29). -/
def Work.isPrimeOp (w : Work) : Bool := w.opcode / 0x1000 == 1

/-- One piece of work of an older generation at a slice reset (R294). What a fault or a fence of the same grain had ended ends
under the reset instead (R221), and a posting in its commit grain stands (R238). -/
def State.resetWork (s : State) (w : Work) : State :=
  if s.endedBelow rankReset w && !w.isPrimeOp then s.dropWork w.id
  else if s.standsAt w.id then s
  else if w.isDone then
    (if w.commit.all (fun p => decide (p.2 ≤ (s.bookAt p.1).issued)) then s.dropWrites w else s)
  else if w.waiting then s.dropWork w.id
  else if w.opcode == 0x3010 then
    match s.muteCheckpoint w with
    | some s => s
    | none => (s.endWriteBack w).abandon w
  else if w.opcode == 0x7000 && w.activeAt 2 then s
  else if w.runsOn then s
  else (s.endWriteBack w).abandon w

/-- The fetch reads of a slice's rings are discarded (R291 step 2). -/
def State.discardFetch (s : State) (slice : Nat) : State :=
  (s.sq.filter (fun e => e.2.slice == slice)).foldl (fun s e =>
    (s.modSq e.1 (fun q => { q with carry := [], refetch := none })).modFetch e.1 (fun r => { r with discard := true })) s

/-- Steps 1 to 3 and 5 of R291. -/
def State.startReset (s : State) (slice : Nat) (remove : Bool) : State :=
  let s := s.modSlice slice (fun x => { x with gen := (x.gen + 1) % 256, st := .resetting, removing := remove })
  let s := s.discardFetch slice
  let s := (s.standInK slice).dropEntries (fun e => e.slice == slice && !e.stands)
  let s := s.modBook slice (fun b => { b with hold := none })
  (s.work.filter (fun w => w.slice == slice)).foldl (fun s w => s.resetWork w) s

/-! Quotas (R117, R285). -/

/-- Tally lines of the Pan (R117). -/
def State.tallyLines (s : State) : Nat := 262144 - 4096 * s.pan.nodeUnits

/-- Blocks resident or on their way for a book (R119). -/
def State.blocksTaken (s : State) (book : Nat) : Nat :=
  (s.pan.blocks.filter (fun b => b.book == book)).length +
    (s.pan.loads.filter (fun l => l.book == book && l.levels.contains 0)).length

/-- Tally lines a slice holds: a block that is being read has its lines. -/
def State.linesHeld (s : State) (slice : Nat) : Nat := 4 * s.blocksTaken slice

/-- A book that counts in the sums of R143 and whose slice keeps its 32 lines (R117): it exists, or its CREATE has been
accepted. -/
def Book.counts (b : Book) : Bool := b.st != .none_ || (b.accepted && b.cmd == some .create)

/-- The Pan reservation sum over the slices that are not FREE, one left out. -/
def State.panSumBut (s : State) (skip : Nat) : Nat :=
  (s.slices.map (fun e => if e.1 == skip || e.2.st == .free then 0 else max e.2.panQuota (s.linesHeld e.1))).foldl (· + ·) 0

/-- The Pan reservation sum (PAN_QUOTA_TOTAL). -/
def State.panSum (s : State) : Nat := s.panSumBut 1024

/-- The session reservation sum, one slice left out. -/
def State.sessSumBut (s : State) (skip : Nat) : Nat :=
  (s.slices.map (fun e => if e.1 == skip || e.2.st == .free then 0 else max e.2.sessQuota (s.sessionCount e.1))).foldl
    (· + ·) 0

/-- Sum of the token quotas of the ACTIVE slices (R57), as written. -/
def State.tokenSum (s : State) : Nat :=
  (s.slices.map (fun e => if e.2.st == .active then e.2.tokQuota else 0)).foldl (· + ·) 0

/-- Offset of a slice's entry. -/
def sliceOff (slice o : Nat) : Nat := 0x010000 + 64 * slice + o

/-- A write to a slice entry is ignored or refused and logged. -/
def State.plogSlice (s : State) (slice o err : Nat) : State := s.plogReg unitMgmt err slice (sliceOff slice o)

/-- A quota field is refused (R285). -/
def State.quotaRefused (s : State) (slice o : Nat) : State :=
  (s.modSlice slice (fun x => { x with qref := true })).plogSlice slice o 0

/-- A quota register at the grain boundary after its write (R285, R286). -/
def State.quotaWrite (s : State) (slice : Nat) (r : QuotaReg) (value : Nat) : State :=
  let x := s.sliceAt slice
  match r with
  | .sq =>
    let v := bits value 16 0
    if 65536 < v then s.quotaRefused slice 0x0C else s.setSlice slice { x with sqQuota := v }
  | .cq =>
    let v := bits value 16 0
    if 65536 < v then s.quotaRefused slice 0x10 else s.setSlice slice { x with cqQuota := v }
  | .pan =>
    let v := bits value 18 0
    let bad := v % 4 != 0 || decide (s.tallyLines < v) || ((s.bookAt slice).counts && decide (v < 32)) ||
      (x.st != .free && decide (s.tallyLines < s.panSumBut slice + max v (s.linesHeld slice)))
    if bad then s.quotaRefused slice 0x14 else s.setSlice slice { x with panQuota := v }
  | .sess =>
    let v := bits value 13 0
    let bad := decide (8192 < v) ||
      (x.st != .free && decide (8192 < s.sessSumBut slice + max v (s.sessionCount slice)))
    if bad then s.quotaRefused slice 0x18 else s.setSlice slice { x with sessQuota := v }
  | .limits =>
    let st := bits value 6 0
    let co := bits value 13 8
    let s := if 64 < st then s.quotaRefused slice 0x20 else s.modSlice slice (fun x => { x with strandQuota := st })
    if 32 < co then s.quotaRefused slice 0x20 else s.modSlice slice (fun x => { x with coreQuota := co })

/-- SLICE_QUOTA_WRITE. -/
def execSliceQuotaWrite (slice : Nat) (quota : QuotaReg) (value : Nat) (s : State) : Host.Outcome State Fault Refusal :=
  .next (s.onReg (sliceOff slice 0x0C) (fun s => s.defer (.quota slice quota value)))

/-- A token quota is refused (R58). -/
def State.tokenRefused (s : State) (slice : Nat) : State :=
  { s with sched := { s.sched with tokenOver := true } }.plogSlice slice 0x1C 0

/-- A write of SLICE_TOK_QUOTA (R58). -/
def State.tokenWrite (s : State) (slice value : Nat) : State :=
  let x := s.sliceAt slice
  let v := bits value 7 0
  if 128 < v || (x.st == .active && decide (128 < s.tokenSum - x.tokQuota + v)) then s.tokenRefused slice
  else s.setSlice slice { x with tokQuota := v }

/-- TOKEN_QUOTA_WRITE. -/
def execTokenQuotaWrite (slice value : Nat) (s : State) : Host.Outcome State Fault Refusal :=
  .next (s.onReg (sliceOff slice 0x1C) (fun s => s.tokenWrite slice value))

/-- Sum of the token quotas in force of the ACTIVE slices (SCHED_TOKEN_TOTAL). -/
def State.tokenTotal (s : State) : Nat :=
  (s.slices.map (fun e => if e.2.st == .active then e.2.tokForce else 0)).foldl (· + ·) 0

/-- An activation: the quota comes into force at the next scruple boundary (R57), and one whose tokens would break the sum
gets none (R58). That a slice has no tokens from its activation to that boundary is the model's choice (log entry 62). -/
def State.tokensIn (s : State) (slice : Nat) : State :=
  let s := s.modSlice slice (fun x => { x with tokForce := 0, tokLeft := 0 })
  if 128 < s.tokenSum then (s.modSlice slice (fun x => { x with tokQuota := 0 })).tokenRefused slice else s

/-- SLICE_PASID (R279). -/
def State.pasidWrite (s : State) (slice value : Nat) : State :=
  if (s.sliceAt slice).st == .free then s.modSlice slice (fun x => { x with pasid := bits value 19 0 })
  else s.plogSlice slice 0x08 0

/-- SLICE_PASID_WRITE. -/
def execSlicePasidWrite (slice value : Nat) (s : State) : Host.Outcome State Fault Refusal :=
  .next (s.onReg (sliceOff slice 0x08) (fun s => s.pasidWrite slice value))

/-! Commands (R282-R284). -/

/-- A refused command. -/
def State.sliceErr (s : State) (slice err : Nat) : State :=
  (s.modSlice slice (fun x => { x with err := err })).plogSlice slice 0x00 err

/-- ERR of ACTIVATE in state FREE, 0 when it is accepted (R284). -/
def State.activateErr (s : State) (slice : Nat) : Nat :=
  let x := s.sliceAt slice
  let taken := s.slices.any (fun e => e.1 != slice && e.2.st != .free && e.2.pasid == x.pasid)
  let pan := decide (s.panSumBut slice + max x.panQuota (s.linesHeld slice) ≤ s.tallyLines)
  let sess := decide (s.sessSumBut slice + max x.sessQuota (s.sessionCount slice) ≤ 8192)
  (firstFail [(!taken, 3), (pan && sess && (!(s.bookAt slice).counts || decide (32 ≤ x.panQuota)), 4)]).getD 0

/-- The slice becomes ACTIVE from FREE: a new generation (R287), cleared counters (R69). -/
def Slice.activated (x : Slice) : Slice :=
  { x with st := .active, err := 0, gen := (x.gen + 1) % 256, lateToken := 0, lateSize := 0, lateResid := 0,
           lateHold := 0, lateRedo := 0, lateReset := 0 }

/-- ACTIVATE. -/
def State.sliceActivate (s : State) (slice : Nat) : State :=
  if (s.sliceAt slice).st != .free then s.sliceErr slice 1
  else
    let err := s.activateErr slice
    if err != 0 then s.sliceErr slice err else (s.modSlice slice Slice.activated).tokensIn slice

def execActivate (slice : Nat) (s : State) : Host.Outcome State Fault Refusal :=
  .next (s.onReg (sliceOff slice 0) (fun s => s.defer (.slice slice 1)))

/-- QUIESCE. -/
def State.sliceQuiesce (s : State) (slice : Nat) : State :=
  if (s.sliceAt slice).st != .active then s.sliceErr slice 1
  else s.modSlice slice (fun x => { x with st := .quiescing, err := 0 })

def execQuiesce (slice : Nat) (s : State) : Host.Outcome State Fault Refusal :=
  .next (s.onReg (sliceOff slice 0) (fun s => s.defer (.slice slice 2)))

/-- RESUME: an activation under R58. -/
def State.sliceResume (s : State) (slice : Nat) : State :=
  if (s.sliceAt slice).st != .quiescing then s.sliceErr slice 1
  else (s.modSlice slice (fun x => { x with st := .active, err := 0 })).tokensIn slice

def execResume (slice : Nat) (s : State) : Host.Outcome State Fault Refusal :=
  .next (s.onReg (sliceOff slice 0) (fun s => s.defer (.slice slice 3)))

/-- The slice is ACTIVE or QUIESCING. -/
def Slice.live_ (x : Slice) : Bool := x.st == .active || x.st == .quiescing

/-- RESET. -/
def State.sliceReset (s : State) (slice : Nat) : State :=
  if !(s.sliceAt slice).live_ then s.sliceErr slice 1
  else (s.modSlice slice (fun x => { x with err := 0 })).startReset slice false

def execReset (slice : Nat) (s : State) : Host.Outcome State Fault Refusal :=
  .next (s.onReg (sliceOff slice 0) (fun s => s.defer (.slice slice 4)))

/-- REMOVE. That an accepted CREATE counts as a book is the model's choice (log entry 90). -/
def State.sliceRemove (s : State) (slice : Nat) : State :=
  if !(s.sliceAt slice).live_ then s.sliceErr slice 1
  else if s.bookExists slice || (s.bookAt slice).accepted then s.sliceErr slice 2
  else (s.modSlice slice (fun x => { x with err := 0 })).startReset slice true

def execRemove (slice : Nat) (s : State) : Host.Outcome State Fault Refusal :=
  .next (s.onReg (sliceOff slice 0) (fun s => s.defer (.slice slice 5)))

/-- SLICE_CTL.CMD at the grain boundary after its write (R282). -/
def State.sliceCtl (s : State) (slice cmd : Nat) : State :=
  match cmd with
  | 1 => s.sliceActivate slice
  | 2 => s.sliceQuiesce slice
  | 3 => s.sliceResume slice
  | 4 => s.sliceReset slice
  | 5 => s.sliceRemove slice
  | _ => s.sliceErr slice 6

/-- The submission rings of a slice. -/
def State.ringsOf (s : State) (slice : Nat) : List Nat := (s.sq.filter (fun e => e.2.slice == slice)).map Prod.fst

/-- DRAINED (R283): QUIESCING, and nothing of the slice remains, reads of its descriptors included. -/
def State.drainedSlice (s : State) (slice : Nat) : Bool :=
  (s.sliceAt slice).st == .quiescing && s.work.all (fun w => w.slice != slice) &&
    (s.ringsOf slice).all (fun r => (s.fetchReads r).isEmpty)

/-! The end of a reset (R291 step 6, R293). -/

/-- A random consumer of the slice's work waits; a seal is its book's. -/
def State.asksFor (s : State) (slice : Nat) (x : RngWait) : Bool :=
  match x.use with
  | .bignum n => s.bnJobsAll.any (fun j => j.admitted == n && j.use != 2 && j.slice == slice)
  | .remask _ _ => false
  | .fifo => false
  | _ => x.slice == slice

/-- No work of an older generation remains anywhere in the device, write buffers and reads of buffers included, and every
committed frame of the slice's book has been issued (R290, R291 step 6). Saltern loads, rebuilds and seals are the book's
own. -/
def State.oldWorkGone (s : State) (slice : Nat) : Bool :=
  s.work.all (fun w => w.slice != slice) && s.brine.entries.all (fun e => e.slice != slice) &&
    s.mpus.all (fun m => m.wbuf.all (fun b => b.slice != slice || b.kind.ofBook)) && s.reads.all (fun r => r.slice != slice || r.ofBook) &&
    (s.ringsOf slice).all (fun r => (s.fetchReads r).isEmpty) &&
    s.applets.cores.all (fun e => match e.2.inv with | some i => i.slice != slice | none => true) &&
    (s.bnJobsAll.filter (fun j => j.use != 2)).all (fun j => j.slice != slice) && s.rng.waiters.all (fun x => !s.asksFor slice x) &&
    (s.bookAt slice).staged.all Staged.issued

/-- A submission ring at the end of its slice's reset. -/
def Sq.cleared (q : Sq) : Sq :=
  { q with fenced := false, halted := false, haltCause := 0, need := 0, carry := [], refetch := none,
           fetch := q.tail % q.size, done := q.tail % q.size }

/-- Rings, sessions, windows and dirty-page log of a removed slice (R293). -/
def State.removeSlice (s : State) (slice : Nat) : State :=
  let s := { s with
    sq := s.sq.filter (fun e => e.2.slice != slice), cq := s.cq.filter (fun e => e.2.slice != slice),
    keys := { s.keys with sessions := s.keys.sessions.filter (fun e => !(e.2.isOpen && e.2.slice == slice)) } }
  s.modSlice slice (fun x =>
    { x with live := tmap Window.reset (fun e => { e with en := false }) x.live,
             staged := tmap Window.reset (fun e => { e with en := false }) x.staged, winEpoch := x.winEpoch + 1,
             dplEn := false, dplOn := false, dplHeld := [], retiring := true })

/-- Step 6 of R291. -/
def State.resetDone (s : State) (slice : Nat) : State :=
  let x := s.sliceAt slice
  if x.st != .resetting || x.retiring || !s.oldWorkGone slice then s
  else
    let s := (s.ringsOf slice).foldl (fun s r => s.modSq r Sq.cleared) s
    if x.removing then s.removeSlice slice
    else (s.modSlice slice (fun x => { x with st := .active })).tokensIn slice

/-- SLICE_RESET_COMPLETE. -/
def execSliceResetComplete (slice : Nat) (s : State) : Host.Outcome State Fault Refusal := .next (s.resetDone slice)

/-- A removed slice becomes FREE (R293). -/
def State.sliceFree (s : State) (slice : Nat) : State :=
  if (s.sliceAt slice).retiring && s.oldAccessesRetired slice then
    s.modSlice slice (fun x => { x with st := .free, removing := false, retiring := false })
  else s

/-- SLICE_FREE. -/
def execSliceFree (slice : Nat) (s : State) : Host.Outcome State Fault Refusal := .next (s.sliceFree slice)

/-! The dirty-page log (R298-R302). -/

/-- A write of DPL_BASE: setting EN checks the log ring's window (R301). The log in use keeps the base it was enabled with: that
a BASE written while EN is 1 waits for the next enable is the model's choice (log entry 73). -/
def State.dplCtl (s : State) (slice value : Nat) : State :=
  let x := s.sliceAt slice
  let base := value / 4096 * 4096 % 2 ^ 64
  let x' := { x with dplBase := base }
  if !bit value 0 then (s.setSlice slice { x' with dplEn := false }).defer (.dplOff slice)
  else if x.dplEn then s.setSlice slice x'
  else if s.rangeOk slice base 0x80000 true then
    s.setSlice slice { x' with dplEn := true, dplOn := true, dplRing := base, dplHeld := [], dplWrite := x.dplRead, dplPhase := true, dplOvf := false, dplFilter := [] }
  else (s.setSlice slice { x' with dplAccess := true }).plogSlice slice 0x30 0

/-- DPL_ENABLE: a write of DPL_BASE. -/
def execDplEnable (slice value : Nat) (s : State) : Host.Outcome State Fault Refusal :=
  .next (s.onReg (sliceOff slice 0x30) (fun s => s.dplCtl slice value))

/-- A write of DPL_READ (R300). -/
def State.dplConsume (s : State) (slice value : Nat) : State :=
  s.modSlice slice (fun x => { x with dplRead := bits value 15 0, dplFilter := [] })

/-- DPL_READ_WRITE. -/
def execDplReadWrite (slice value : Nat) (s : State) : Host.Outcome State Fault Refusal :=
  .next (s.onReg (sliceOff slice 0x3C) (fun s => s.dplConsume slice value))

end Sys2Proof.Machine
end

