-- ==== Sys2Proof/Machine/BigNum.lean ====
section
/-! DEFINITION. Big-number jobs (R428-R435): formats, validation, cost, results, the queue and the engines. -/

namespace Sys2Proof.Machine
open Sys2Proof

/-! Operations (R428). -/

/-- A curve by its CURVE code. -/
def curveOf (code : Nat) : Option Curve :=
  match code with
  | 1 => some p256 | 2 => some p384 | 3 => some p521 | _ => none

/-- The curve of a slot TYPE. -/
def typeCurve (type : Nat) : Option Curve := if 0x10 ≤ type then curveOf (type - 0xF) else none

/-- Bytes of an RSA modulus of a slot TYPE. -/
def rsaWidth (type : Nat) : Nat := if type = 0x20 then 256 else if type = 0x21 then 384 else 512

/-- OP is assigned. -/
def bnOpOk (op : Nat) : Bool :=
  [0x01, 0x02, 0x10, 0x11, 0x20, 0x21, 0x22, 0x30, 0x31, 0x32].contains op

/-- The slot TYPEs that suit an OP; none for an OP without KEY. -/
def bnTypes (op : Nat) : Option (List Nat) :=
  match op with
  | 0x11 => some [0x20, 0x21, 0x22]
  | 0x20 => some [0x10, 0x11, 0x12]
  | 0x22 => some [0x10, 0x11, 0x12]
  | 0x30 => some [0x13]
  | 0x31 => some [0x14]
  | _ => none

/-- Field size of a curve of a slot TYPE. -/
def typeField (type : Nat) : Nat := ((typeCurve type).map Curve.size).getD 0

/-- IN_LEN may be right for an OP: exact where IN does not say it. -/
def bnInLenMay (op type inLen : Nat) : Bool :=
  match op with
  | 0x01 => decide (11 ≤ inLen) && decide (inLen ≤ 3080)
  | 0x02 => decide (11 ≤ inLen) && decide (inLen ≤ 3080)
  | 0x10 => decide (137 ≤ inLen) && decide (inLen ≤ 3080)
  | 0x11 => inLen == rsaWidth type
  | 0x20 => decide (16 ≤ inLen) && decide (inLen ≤ 66)
  | 0x21 => decide (148 ≤ inLen) && decide (inLen ≤ 334)
  | 0x22 => inLen == 2 * typeField type
  | 0x30 => inLen == 32
  | 0x31 => decide (inLen ≤ 65536)
  | _ => decide (96 ≤ inLen) && decide (inLen ≤ 65632)

/-- IN_LEN is the size that IN itself lays down. -/
def bnInOk (op : Nat) (b : Bytes) : Bool :=
  let m := fieldAt b 0 4
  let e := fieldAt b 4 4
  match op with
  | 0x01 => decide (1 ≤ m) && decide (m ≤ 1024) && decide (1 ≤ e) && decide (e ≤ 1024) && b.length == 8 + 2 * m + e
  | 0x02 => decide (1 ≤ m) && decide (m ≤ 1024) && e == 0 && b.length == 8 + 3 * m
  | 0x10 => decide (64 ≤ m) && decide (m ≤ 1024) && decide (1 ≤ e) && decide (e ≤ 1024) && b.length == 8 + 2 * m + e
  | 0x21 =>
    match curveOf (fieldAt b 0 1) with
    | none => false
    | some c => allZero (bytesAt b 1 3) && decide (20 + 4 * c.size ≤ b.length) && decide (b.length ≤ 70 + 4 * c.size)
  | _ => true

/-- Bytes of the result. -/
def bnOutLen (op type : Nat) (b : Bytes) : Nat :=
  match op with
  | 0x11 => rsaWidth type
  | 0x20 => 2 * typeField type
  | 0x21 => 0
  | 0x22 => typeField type
  | 0x30 => 32
  | 0x31 => 64
  | 0x32 => 0
  | _ => fieldAt b 0 4

/-- Least OUT_LEN that the descriptor itself shows to be too small. -/
def bnOutMin (op type : Nat) : Nat :=
  match op with
  | 0x01 => 1 | 0x02 => 1 | 0x10 => 64
  | _ => bnOutLen op type []

/-- 0, 1 or not below the modulus. -/
def unfit (x m : Nat) : Bool := decide (x < 2) || decide (m ≤ x)

/-- The input passes R429. -/
def bnValid (op type : Nat) (key b : Bytes) : Bool :=
  let m := fieldAt b 0 4
  let e := fieldAt b 4 4
  match op with
  | 0x01 =>
    let n := fieldAt b 8 m
    n % 2 == 1 && decide (3 ≤ n) && !unfit (fieldAt b (8 + m) m) n && decide (2 ≤ fieldAt b (8 + 2 * m) e)
  | 0x02 =>
    let n := fieldAt b 8 m
    n % 2 == 1 && decide (3 ≤ n) && !unfit (fieldAt b (8 + m) m) n && !unfit (fieldAt b (8 + 2 * m) m) n
  | 0x10 =>
    let n := fieldAt b 8 m
    let x := fieldAt b (8 + m) e
    n % 2 == 1 && fieldAt b (7 + m) 1 != 0 && x % 2 == 1 && decide (3 ≤ x) && !unfit (fieldAt b (8 + m + e) m) n
  | 0x11 =>
    let w := rsaWidth type / 2
    !unfit (leNat b) (fieldAt key 0 w * fieldAt key w w)
  | 0x21 =>
    match curveOf (fieldAt b 0 1) with
    | none => false
    | some c =>
      let k := c.size
      c.on (fieldAt b 4 k) (fieldAt b (4 + k) k) && !unfit (fieldAt b (4 + 2 * k) k) c.n &&
        !unfit (fieldAt b (4 + 3 * k) k) c.n
  | 0x22 =>
    match typeCurve type with
    | none => false
    | some c => c.on (fieldAt b 0 c.size) (fieldAt b c.size c.size)
  | 0x30 => !allZero b
  | 0x32 => (edDecode (b.take 32)).isSome && (edDecode (bytesAt b 32 32)).isSome
  | _ => true

/-- Steps of a job (R431). -/
def bnCost (op type : Nat) (b : Bytes) : Nat :=
  let m := fieldAt b 0 4
  let e := fieldAt b 4 4
  let c := (m + 63) / 64
  let curve (x y z : Nat) (t : Nat) : Nat := if t = 1 then x else if t = 2 then y else z
  match op with
  | 0x01 => 2 * (c * c * 3 * e) + 16
  | 0x02 => 2 * ((c * c + 3) / 4) + 2
  | 0x10 =>
    let x := fieldAt b (8 + m) e
    2 * ((c * c * (if x = 0 then 0 else x.log2 + 1) * 3 + 7) / 8) + 16
  | 0x11 => if type = 0x20 then 6400 else if type = 0x21 then 21333 else 50000
  | 0x20 => curve 640 1440 3200 (type - 0xF)
  | 0x21 => curve 1422 3200 7111 (fieldAt b 0 1)
  | 0x22 => curve 600 1350 3000 (type - 0xF)
  | 0x30 => 400
  | 0x31 => 492 + 2 * (b.length / 1024)
  | _ => 1100 + (b.length - 96) / 1024

/-- What a job gives. -/
inductive BnOutcome where
  /-- Bytes for OUT. -/
  | out (b : Bytes)
  /-- A verification. -/
  | verdict (valid : Bool)
  /-- Refused under R429 by its result. -/
  | range
deriving DecidableEq, Repr

/-- The result of a job; `k` is the ECDSA nonce (R428). -/
def bnResult (op type : Nat) (key : Bytes) (b : Bytes) (k : Nat) : BnOutcome :=
  let m := fieldAt b 0 4
  let e := fieldAt b 4 4
  match op with
  | 0x01 => .out (leBytes m (powMod (fieldAt b (8 + m) m) (fieldAt b (8 + 2 * m) e) (fieldAt b 8 m)))
  | 0x02 => .out (leBytes m (fieldAt b (8 + m) m * fieldAt b (8 + 2 * m) m % fieldAt b 8 m))
  | 0x10 => .out (leBytes m (powMod (fieldAt b (8 + m + e) m) (fieldAt b (8 + m) e) (fieldAt b 8 m)))
  | 0x11 => .out (leBytes (rsaWidth type) (rsaPrivate (rsaWidth type / 2) key (leNat b)))
  | 0x20 =>
    match typeCurve type with
    | none => .range
    | some c => .out (sigBytes c.size (ecdsaSign c (leNat key) (k % (c.n - 1) + 1) b))
  | 0x21 =>
    match curveOf (fieldAt b 0 1) with
    | none => .range
    | some c =>
      let n := c.size
      .verdict (ecdsaVerify c (fieldAt b 4 n) (fieldAt b (4 + n) n) (fieldAt b (4 + 2 * n) n) (fieldAt b (4 + 3 * n) n)
        (b.drop (4 + 4 * n)))
  | 0x22 =>
    match typeCurve type with
    | none => .range
    | some c => .out (leBytes c.size (ecdh c (leNat key) (fieldAt b 0 c.size) (fieldAt b c.size c.size)))
  | 0x30 =>
    let r := x25519 key b
    if allZero r then .range else .out r
  | 0x31 => .out (edSign key b)
  | _ => .verdict (edVerify (b.take 32) (bytesAt b 32 64) (b.drop 96))

/-! The queue and the engines (R432-R434). -/

def bnEngines : Nat := 16

/-- Random bytes that a job draws: 32 for blinding, and for ECDSA as many as the order has (log entry 25). -/
def bnNeed (op type : Nat) : Nat :=
  if op = 0x02 then 0 else if op = 0x20 then 32 + typeField type else 32

/-- Steps still to do. -/
def BnJob.left (j : BnJob) : Nat := j.cost - j.done

/-- A job joins the queue and asks for its random values. -/
def State.bnSubmit (s : State) (j : BnJob) : State :=
  let need := bnNeed j.op j.keyType
  let j := { j with admitted := s.nextId, since := s.now, rand := need == 0, done := 0, retries := 0 }
  let s := { s with nextId := s.nextId + 1, crypto := { s.crypto with bnQueue := s.crypto.bnQueue ++ [j] } }
  if need = 0 then s else s.askRandom (.bignum j.admitted) 1 j.slice need

/-- The random values of a job have arrived. -/
def State.bnSupplied (s : State) (n : Nat) : State :=
  let give (x : BnJob) : BnJob := if x.admitted == n then { x with rand := true } else x
  let eng (e : BnEngine) : BnEngine := { e with running := e.running.map give, saved := e.saved.map give }
  { s with crypto := { s.crypto with bnQueue := s.crypto.bnQueue.map give, bn := tmap BnEngine.reset eng s.crypto.bn } }

/-- The random values of jobs that have arrived (check 6 of R430). -/
def State.bnRandom (s : State) : State :=
  s.bnJobsAll.foldl (fun s j =>
    if j.rand then s
    else
      match s.gotRandom (.bignum j.admitted) with
      | none => s
      | some _ => (s.bnSupplied j.admitted).dropRandom (.bignum j.admitted)) s

/-- The job has waited a pound: it is protected (R433). -/
def BnJob.prot (j : BnJob) (now : Nat) : Bool := decide (j.since + pound ≤ now)

/-- `a` is chosen before `b`: protected jobs first, oldest first; then the smaller remaining cost, ties oldest. -/
def BnJob.before (now : Nat) (a b : BnJob) : Bool :=
  if a.prot now then !b.prot now || decide (a.admitted < b.admitted)
  else !b.prot now && (decide (a.left < b.left) || (a.left == b.left && decide (a.admitted < b.admitted)))

/-- The job that is chosen from a list. -/
def bnBest (now : Nat) : List BnJob → Option BnJob
  | [] => none
  | j :: t =>
    match bnBest now t with
    | none => some j
    | some k => if j.before now k then some j else some k

/-- Jobs of the queue that can run. -/
def State.bnReady (s : State) : List BnJob := s.crypto.bnQueue.filter BnJob.rand

/-- Take a job out of the queue. -/
def State.bnUnqueue (s : State) (j : BnJob) : State :=
  { s with crypto := { s.crypto with bnQueue := s.crypto.bnQueue.filter (fun x => x.admitted != j.admitted) } }

/-- A job is saved: its key stays masked in the context (R388, R432). That the mask is a free value is the model's choice: no
rule says where it is drawn (log entry 25). -/
def BnJob.save (j : BnJob) (now : Nat) (mask : Bytes) : BnJob :=
  { j with since := now, key := j.key.map (fun k => xorBytes k mask), mask := mask }

/-- A saved job is restored. -/
def BnJob.restore (j : BnJob) : BnJob := { j with key := j.key.map (fun k => xorBytes k j.mask), mask := [] }

/-- A function-level reset clears the saved contexts (R437): a job of a seal, which goes on, starts again from the queue
(log entry 25). -/
def Crypto.unsave (c : Crypto) : Crypto :=
  { c with bnQueue := c.bnQueue ++ (c.bn.flatMap (fun e => e.2.saved)).map (fun j => { j.restore with done := 0 }),
           bn := tmap BnEngine.reset (fun e => { e with saved := [] }) c.bn }

/-- An idle engine chooses (R432, R433). -/
def State.bnChoose (s : State) (e : Nat) : State :=
  let x := s.bnAt e
  if x.running.isSome then s
  else
    match bnBest s.now (x.saved ++ s.bnReady) with
    | none => s
    | some j =>
      let saved := x.saved.any (fun k => k.admitted == j.admitted)
      let y : BnEngine :=
        { running := some (if saved then j.restore else j), prot := j.prot s.now, saved := x.saved.filter (fun k => k.admitted != j.admitted),
          pause := if saved then 1 else 0 }
      (if saved then s else s.bnUnqueue j).setBn e y

/-- One step of an engine; a retried job waits for fresh random values (R435). -/
def BnEngine.step (x : BnEngine) : BnEngine :=
  match x.running with
  | none => x
  | some j =>
    if 0 < x.pause then { x with pause := x.pause - 1 }
    else if !j.rand then x
    else { x with running := some { j with done := min j.cost (j.done + 1) } }

/-- A grain of the big-number engines. -/
def State.bnGrain (s : State) : State :=
  let s := (List.range bnEngines).foldl (fun s e => s.setBn e (s.bnAt e).step) s.bnRandom
  (List.range bnEngines).foldl (fun s e => s.bnChoose e) s

/-- The engine that yields to a job of a cost: the largest remaining cost, ties lowest number (R432). -/
def State.bnYielder (s : State) (cost : Nat) : Option (Nat × BnJob) :=
  (List.range bnEngines).foldl (fun acc e =>
    let x := s.bnAt e
    match x.running with
    | none => acc
    | some j =>
      if decide (cost < j.left) && decide (x.saved.length < 4) && !x.prot then
        (match acc with
         | none => some (e, j)
         | some (_, k) => if k.left < j.left then some (e, j) else acc)
      else acc) none

/-- One waiting job is matched to an engine at a scruple boundary. -/
def State.bnYield (s : State) (w : BnJob) : State :=
  match s.bnYielder w.cost with
  | none => s
  | some (e, j) =>
    let k := j.save s.now (Config.freeBytes s.draws ((j.key.map List.length).getD 0))
    let y : BnEngine := { running := some w, prot := w.prot s.now, saved := (s.bnAt e).saved ++ [k], pause := 1 }
    let s := ((s.bnUnqueue w).setBn e y).drawn
    { s with crypto := { s.crypto with bnYields := s.crypto.bnYields + 1 } }

/-- Queued jobs by cost, ties oldest first. -/
def bnByCost (js : List BnJob) : List BnJob :=
  js |> sortBy (fun a b => decide (a.cost < b.cost) || (a.cost == b.cost && decide (a.admitted ≤ b.admitted)))

/-- The matching of R432 at a scruple boundary. -/
def State.bnScruple (s : State) : State :=
  (bnByCost (s.bnReady.filter (fun j => decide (j.since + scruple ≤ s.now)))).foldl (fun s w => s.bnYield w) s

/-- The finished job of an engine. -/
def State.bnFinished (s : State) (e : Nat) : Option BnJob := (s.bnAt e).running.filter (fun j => j.done == j.cost)

/-- The engine is free of its finished job, which is counted, and chooses the next one at the boundary at which the job has
ended (R433). -/
def State.bnRetire (s : State) (e : Nat) : State :=
  let s := s.setBn e { s.bnAt e with running := none, prot := false, pause := 0 }
  { s with crypto := { s.crypto with bnJobs := s.crypto.bnJobs + 1 } }.bnChoose e

/-- The outcome of a job. Its nonce is a free value (log entry 6). -/
def State.bnOutcome (s : State) (j : BnJob) : BnOutcome × State :=
  (bnResult j.op j.keyType (j.key.getD []) j.input (Config.freeNat s.draws), s.drawn)

/-- The engine that runs a finished job with a use. -/
def State.bnEngineOf (s : State) (p : BnJob → Bool) : Option (Nat × BnJob) :=
  ((List.range bnEngines).filterMap (fun e => (s.bnFinished e).map (fun j => (e, j)))).find? (fun x => p x.2)

/-! BIGNUM (R428, R430). -/

/-- A job of a descriptor or a service call. -/
def bnJobOf (work use who slice op : Nat) (key : Option Bytes) (keyType : Nat) (input : Bytes) : BnJob :=
  { work := work, use := use, who := who, no := 0, slice := slice, op := op, key := key, keyType := keyType, e := 0,
    input := input, cost := bnCost op keyType input, done := 0, admitted := 0, since := 0, retries := 0, rand := false,
    mask := [] }

/-- KEY is of KIND 2 or 3 and in range. -/
def bnKey (kh : Nat) : Option (Nat × Nat) :=
  match keySrcOf kh 0 none with
  | some (.slot t i) => some (t, i)
  | _ => none

/-- TYPE of the key of a BIGNUM descriptor, 0 when its OP takes none. -/
def State.bnType (s : State) (op kh : Nat) : Nat :=
  match bnTypes op, bnKey kh with
  | some _, some (t, i) => (s.slotAt t i).type
  | _, _ => 0

/-- Lengths that check 1 of R430 can test before IN is read. With a slot whose TYPE does not suit OP they must be those of
some TYPE that does. -/
def bnLensOk (op type inLen outLen : Nat) : Bool :=
  let fits (t : Nat) : Bool := bnInLenMay op t inLen && decide (bnOutMin op t ≤ outLen)
  match bnTypes op with
  | some ts => if ts.contains type then fits type else ts.any fits
  | none => fits type

/-- IN itself lays down the sizes, so that check 1 ends once IN has been read. -/
def bnInLays (op : Nat) : Bool := op == 0x01 || op == 0x02 || op == 0x10 || op == 0x21

/-- Check 1 of BIGNUM before IN is read. -/
def State.bnForm (s : State) (w : Work) : Bool :=
  let kh := w.field 0x1C 4
  w.zeroFrom 0x2C 0x40 && bnOpOk w.aux && (kh == 0) == (bnTypes w.aux).isNone &&
    !beyond64 (w.field 0x10 8) (w.field 0x18 4) && !beyond64 (w.field 0x20 8) (w.field 0x28 4) &&
    bnLensOk w.aux (s.bnType w.aux kh) (w.field 0x18 4) (w.field 0x28 4)

/-- Checks 2 and 3: the state charged, or the failing check. -/
def State.bnKeyCheck (s : State) (slice op kh : Nat) : State × Option (Nat × Status) :=
  match bnTypes op with
  | none => (s, none)
  | some ts =>
    match bnKey kh with
    | none => (s, some (2, .malformed))
    | some (t, i) =>
      match s.slotFail t i with
      | some st => (s, some (2, st))
      | none =>
        let k := s.slotAt t i
        let ok := ts.contains k.type && attrAllows k.attr attrPrivate 3 k.slice slice
        (s.chargeSlot t i, if ok then none else some (3, .policy))

/-- IN has been read: the exact lengths, the input, then the queue. -/
def State.bnBegin (s : State) (w : Work) (input : Bytes) : State :=
  let op := w.aux
  let kh := w.field 0x1C 4
  let type := s.bnType op kh
  let key := match bnTypes op, bnKey kh with
    | some _, some (t, i) => some (s.slotAt t i).material
    | _, _ => none
  let n := bnOutLen op type input
  if !(bnInOk op input && decide (n ≤ w.field 0x28 4)) then s.refuse w 1 .malformed
  else if bnInLays op && !s.rangeOk w.slice (w.field 0x20 8) (w.field 0x28 4) true then s.refuse w 4 .access
  else if !bnValid op type (key.getD []) input then s.refuse w 5 .range
  else
    (s.bnSubmit (bnJobOf w.id 0 0 w.slice op key type input)).modWork w.id (fun v => { v with phase := .active 1 })

/-- A BIGNUM descriptor begins. -/
def State.bnStart (s : State) (w : Work) : State :=
  let before := s
  let inAddr := w.field 0x10 8
  let inLen := w.field 0x18 4
  if !s.bnForm w then s.refuse w 1 .malformed
  else
    let r := s.bnKeyCheck w.slice w.aux (w.field 0x1C 4)
    match r.2 with
    | some (k, st) => r.1.refuse w k st
    | none =>
      let s := r.1
      if !(s.rangeOk w.slice inAddr inLen false &&
          (bnInLays w.aux || s.rangeOk w.slice (w.field 0x20 8) (w.field 0x28 4) true)) then
        s.refuse w 4 .access
      else if inLen = 0 then s.bnBegin w []
      else if !s.canRead (s.masterStream w.id) then before
      else
        let o := s.hostRead (.work w.id 0) (s.masterStream w.id) w.slice .stream inAddr inLen false
        if o.2 then o.1.modWork w.id (fun v => { v with phase := .reading 1, admitted := some s.now })
        else o.1.refuse w 4 .access

/-- The oldest BIGNUM of a ring with an OP begins; one with an unassigned OP is refused by any of the rows. -/
def State.bnRow (s : State) (ring op : Nat) : State :=
  match s.oldest ring (fun w => w.isRouted && w.opcode == 0x6000 && (w.aux == op || !bnOpOk w.aux)) with
  | none => s
  | some w => if s.mayBegin w then s.bnStart w else s

/-- MODEXP. -/
def execModexp (ring : Nat) (s : State) : Host.Outcome State Fault Refusal := .next (s.bnRow ring 0x01)
/-- MODMUL. -/
def execModmul (ring : Nat) (s : State) : Host.Outcome State Fault Refusal := .next (s.bnRow ring 0x02)
/-- RSA_PUBLIC. -/
def execRsaPublic (ring : Nat) (s : State) : Host.Outcome State Fault Refusal := .next (s.bnRow ring 0x10)
/-- RSA_PRIVATE. -/
def execRsaPrivate (ring : Nat) (s : State) : Host.Outcome State Fault Refusal := .next (s.bnRow ring 0x11)
/-- ECDSA_SIGN. -/
def execEcdsaSign (ring : Nat) (s : State) : Host.Outcome State Fault Refusal := .next (s.bnRow ring 0x20)
/-- ECDSA_VERIFY. -/
def execEcdsaVerify (ring : Nat) (s : State) : Host.Outcome State Fault Refusal := .next (s.bnRow ring 0x21)
/-- ECDH. -/
def execEcdh (ring : Nat) (s : State) : Host.Outcome State Fault Refusal := .next (s.bnRow ring 0x22)
/-- X25519. -/
def execX25519 (ring : Nat) (s : State) : Host.Outcome State Fault Refusal := .next (s.bnRow ring 0x30)
/-- ED25519_SIGN. -/
def execEd25519Sign (ring : Nat) (s : State) : Host.Outcome State Fault Refusal := .next (s.bnRow ring 0x31)
/-- ED25519_VERIFY. -/
def execEd25519Verify (ring : Nat) (s : State) : Host.Outcome State Fault Refusal := .next (s.bnRow ring 0x32)

/-- A BIGNUM descriptor whose job has ended (R428, R430). -/
def State.bnEnd (s : State) (w : Work) (j : BnJob) (o : BnOutcome) : State :=
  let tail := leBytes 4 j.cost ++ leBytes 1 j.retries
  match o with
  | .range => s.refuse w 5 .range
  | .verdict ok => s.finish w.id (if ok then .ok else .auth) (zeros 4 ++ tail)
  | .out b =>
    let r := s.hostWrite (s.masterStream w.id) w.slice .stream (some w.id) (w.field 0x20 8) b
    if r.2 then r.1.finish w.id .ok (leBytes 4 b.length ++ tail) else r.1.refuse w 4 .access

end Sys2Proof.Machine
end

