-- ==== Sys2Proof/Machine/Fencing.lean ====
section
/-! DEFINITION. Books that leave OPEN under events: how their work ends (R136, R168, R238), and the records of HEADS. -/

namespace Sys2Proof.Machine
open Sys2Proof

/-- The book's record of HEADS is written by the two-copy method at each state change (R477). -/
def State.recordBook (s : State) (book : Nat) : State :=
  let n := { s.nv with bookRecs := tput Book.reset s.nv.bookRecs book (s.bookAt book) }
  { s with nv := n }.nvPut partHeads (recBook book)

/-- A state change of a book, with its record. -/
def State.bookState (s : State) (book : Nat) (st : BookState) : State :=
  (s.modBook book (fun b => { b with st := st })).recordBook book

/-- The book takes class-1 work and class-0 tally work: OPEN, and no HANDOVER has been accepted (R102, R215). -/
def Book.accepts (b : Book) : Bool := b.st == .open_ && b.handover.isNone

/-- What refuses postings, tally administration and class-0 tally operations (R102). -/
def Book.postFail (b : Book) : Option Status :=
  if b.accepts then none
  else
    match b.st with
    | .fencedIntegrity => some .integrity
    | .fencedGap => some .gap
    | _ => some .state

/-! Entries that end. -/

/-- The outcome of an entry that has left the window goes to its descriptor or to its core; `fence` tells whether FAULT
and TAMPER fence the ring. -/
def State.endEntry (s : State) (e : Entry) (st : Status) (res : Bytes) (fence : Bool) : State :=
  if e.applet then s.answerCore e.src (svcStatus st false e.redone false) (fit 16 res)
  else
    let s := s.modWork e.src (fun w => { w with redone := e.redone })
    if fence then s.finish e.src st res else s.finishRaw e.src st res

/-- Entries end without a commit, each with the same status. -/
def State.endEntries (s : State) (p : Entry → Bool) (st : Status) (res : Bytes) (fence : Bool) : State :=
  let gone := s.brine.entries.filter p
  gone.foldl (fun s e => s.endEntry e st res fence) (s.dropEntries p)

/-- The result of a posting with a commit that ends with FAULT or TAMPER (R228). -/
def faultResult (lseq cause : Nat) : Bytes := leBytes 8 lseq ++ [BitVec.ofNat 8 cause]

/-- Works that pass a condition are handed to an operation, oldest first. -/
def State.eachWork (s : State) (p : Work → Bool) (f : State → Work → State) : State := (s.work.filter p).foldl f s

/-- A committed posting whose completion waits for the persisted doorbell (R172). -/
def State.withheld (s : State) (book : Nat) (w : Work) : Bool :=
  match w.commit, w.cpl with
  | some (b, lseq), some c =>
    b == book && w.isDone && w.flagD && c.status == .ok && decide ((s.bookAt b).persisted < lseq)
  | _, _ => false

/-- A core whose answer, its frame issued, waits for persistence in a book that will not give it gets FAULT. -/
def Core.released (x : Core) (book issued persisted : Nat) : Core :=
  match x.await with
  | some (b, lseq, true) =>
    if b == book && decide (lseq ≤ issued) && decide (persisted < lseq) then
      { x with await := none, answer := some (svcStatus .fault false false false, fit 16 (faultResult lseq 3)) }
    else x
  | _ => x

/-- Every such core. -/
def State.releaseCalls (s : State) (book : Nat) : State :=
  let b := s.bookAt book
  { s with applets := { s.applets with cores := tmap Core.reset (fun x => x.released book b.issued b.persisted) s.applets.cores } }

/-- Its commit's frame has been issued. -/
def State.frameOut (s : State) (w : Work) : Bool :=
  match w.commit with | some (b, lseq) => decide (lseq ≤ (s.bookAt b).issued) | none => false

/-- Completions withheld behind an issued frame are released as FAULT with cause 0x03, without their receipts (R220
promise 4, R238); then their rings are fenced. A commit whose frame is still to be issued follows once it is. -/
def State.releaseWithheld (s : State) (book : Nat) : State :=
  let ws := s.work.filter (fun w => s.withheld book w && s.frameOut w)
  let s := ws.foldl (fun s w =>
    (s.modWork w.id (fun v => { v with receipt := none })).finishRaw w.id .fault
      (faultResult ((w.commit.map Prod.snd).getD 0) 3)) s
  (ws.foldl (fun s w => s.fenceRing w.ring 2 w.tag) s).releaseCalls book

/-- A prime tally operation that waits, or stands in stage 1 of its lane (R238). -/
def State.tallyInStage1 (s : State) (w : Work) : Bool :=
  w.opcode / 16 == 0x101 && (w.activeAt 0 ||
    (w.activeAt 1 && (match w.admitted with | some g => decide (s.now ≤ g + w.extra) | none => false)))

/-- An event of a place in the order of R221 has ended works. -/
def State.markEnding (s : State) (rank : Nat) (ids : List Nat) : State :=
  { s with work := s.work.map (fun w => if ids.contains w.id then { w with ending := some (s.now, rank) } else w) }

/-- The uncommitted postings and tally operations of a book end; those in their commit grain, as `standInK` has marked them
while the book was OPEN, stand (R136, R168, R238). -/
def State.endBookWork (s : State) (book : Nat) (st : Status) : State :=
  let hits := s.work.filter (fun w => w.slice == book && !w.isDone &&
    ((w.isPosting && w.waiting) || (s.inWindow w.id && !s.standsAt w.id) || s.tallyInStage1 w))
  let s := s.redecide rankBook (fun w => w.slice == book && (w.isPosting || w.opcode / 16 == 0x101)) st (refusalResult 2 0xFF)
  let s := s.endEntries (fun e => e.book == book && !e.stands) st (refusalResult 2 0xFF) false
  let s := s.eachWork (fun w => w.slice == book && w.isPosting && w.waiting && !w.isApplet) (fun s w =>
    let s := if refusalLogged st then s.plogWork w 0x01 2 st 0 else s
    s.finishRaw w.id st (refusalResult 2 0xFF))
  let s := s.eachWork (fun w => w.slice == book && w.isApplet && w.isPosting && w.waiting) (fun s w =>
    s.finishRaw w.id st (refusalResult 2 0xFF))
  let s := s.eachWork (fun w => w.slice == book && s.tallyInStage1 w) (fun s w =>
    s.finishRaw w.id st (refusalResult 2 0xFF))
  s.markEnding rankBook (hits.map Work.id)

/-- Work of a book that ends before its write-backs are over (R137, R215, R219): a CHECKPOINT, one that waits behind
another included, a HANDOVER, and what ends a recovery. -/
def Work.writesBack (w : Work) (book : Nat) : Bool :=
  w.slice == book && !w.isDone && !w.waiting &&
    (w.opcode == 0x3010 || w.opcode == 0x3030 || w.opcode / 16 == 0x302 || (w.activeAt 2 && (w.opcode == 0x3012 || w.opcode == 0x3040)))

/-- The book leaves the state in which its CHECKPOINT, HANDOVER, REPLAY or region move may end otherwise (R136, R138). A
hold in force stands (R139). -/
def State.endCheckpoints (s : State) (book : Nat) (st : Status) : State :=
  let s := s.eachWork (fun w => w.writesBack book) (fun s w =>
    s.finishRaw w.id st (if w.opcode / 16 == 0x302 then (s.bookAt book).replayResult w.pos 0 else refusalResult 2 0xFF))
  s.modBook book (fun b => { b with wb := none, handover := none })

/-- The saved LSEQ and heads become those of the last commit once its frames are out (R136). -/
def Book.recordTarget (b : Book) : Book :=
  if b.st == .fencedIntegrity && b.staged.all (fun r => r.issued && r.folded) then
    { b with target := b.lseq, savedHeads := b.headsIssued }
  else b

/-- The read belongs to a load or a rebuild of the book. -/
def Read.ofBookAt (r : Read) (book : Nat) : Bool :=
  match r.kind with | .load b _ => b == book | .rebuild b _ => b == book | _ => false

/-- Loads and rebuilds of a book are given up. -/
def State.dropLoads (s : State) (book : Nat) : State :=
  let s := s.orphanReads (fun r => r.ofBookAt book)
  { s with pan := { s.pan with loads := s.pan.loads.filter (fun l => l.book != book),
                               rebuilds := s.pan.rebuilds.filter (fun r => r.book != book) } }

/-- A book enters FENCED_INTEGRITY (R136, R231, R232). -/
def State.fenceIntegrity (s : State) (book : Nat) : State :=
  let st := (s.bookAt book).st
  if st == .none_ || st == .fencedIntegrity || st == .deleting || st == .released then s
  else
    let s := (s.standInK book).bookState book .fencedIntegrity
    let s := s.modBook book (fun b => { b with restored := false })
    let s := if st == .recovering then s else s.modBook book Book.recordTarget
    let s := (s.endBookWork book .integrity).endCheckpoints book .integrity
    (s.dropLoads book).releaseWithheld book

/-- A Saltern object fails its check (R136): logged with its level and index. -/
def State.salternFailure (s : State) (book level index : Nat) : State :=
  (s.level1 11 0x16 book book (level * 2 ^ 56 + index)).fenceIntegrity book

end Sys2Proof.Machine
end

