-- ==== Sys2Proof/Machine/Saltern.lean ====
section
/-! DEFINITION. The Pan and the Saltern (R117-R136): geometry, sealing, loads, write-backs. -/

namespace Sys2Proof.Machine
open Sys2Proof

/-! Geometry (R124, R126). -/

/-- The smallest `h` from `k` on, of `n` tries, with 8^h at least B. -/
def heightAux (blocks : Nat) : Nat → Nat → Nat
  | 0, k => k
  | n + 1, k => if blocks ≤ 8 ^ k then k else heightAux blocks n (k + 1)

/-- Height of the tree over B blocks. -/
def treeHeight (blocks : Nat) : Nat := heightAux blocks 11 0

/-- Nodes of a level. -/
def nodesAt (blocks k : Nat) : Nat := (blocks + 8 ^ k - 1) / 8 ^ k

/-- Nodes of the levels 1 to `k`. -/
def nodesBelow (blocks : Nat) : Nat → Nat
  | 0 => 0
  | k + 1 => nodesBelow blocks k + nodesAt blocks (k + 1)

/-- BOOK_CAP is valid (R103). -/
def capOk (blocks : Nat) : Bool := blocks % 8 == 0 && decide (8 ≤ blocks) && decide (blocks ≤ 2 ^ 30)

/-- BOOK_SALT_SIZE (R126, R144). -/
def saltSize (blocks : Nat) : Nat :=
  if capOk blocks then 256 * blocks + 128 * nodesBelow blocks (treeHeight blocks - 1) else 0

/-- Height of a book's tree. -/
def Book.height (b : Book) : Nat := treeHeight b.cap

/-- Address of a block (level 0) or a node. -/
def Book.objAddr (b : Book) (level index : Nat) : Nat :=
  if level = 0 then b.saltBase + 256 * index
  else b.saltBase + 256 * b.cap + 128 * nodesBelow b.cap (level - 1) + 128 * index

/-- Bytes of a block or a node in host memory. -/
def objSize (level : Nat) : Nat := if level = 0 then 256 else 128

/-! Records and blocks. -/

/-- The 64 bytes of a record (R108). -/
def Tally.bytes (t : Tally) : Bytes :=
  imageBytes t.value ++ imageBytes t.floor ++ imageBytes t.ceiling ++ leBytes 8 t.tid ++ leBytes 6 t.version ++
    leBytes 2 t.attr.toNat

/-- The record held in 64 bytes. -/
def tallyAt (b : Bytes) (o : Nat) : Tally :=
  { value := imageAt b o, floor := imageAt b (o + 16), ceiling := imageAt b (o + 32), tid := fieldAt b (o + 48) 8,
    version := fieldAt b (o + 56) 6, attr := BitVec.ofNat 16 (fieldAt b (o + 62) 2) }

/-- The plaintext of a block. -/
def PanBlock.bytes (b : PanBlock) : Bytes := (b.recs.map Tally.bytes).flatten

/-- The four records of a plaintext. -/
def recsOf (d : Bytes) : List Tally := [tallyAt d 0, tallyAt d 64, tallyAt d 128, tallyAt d 192]

/-- The 128 bytes of a node (R125). -/
def nodeBytes (ver : List Nat) (mac : List Bytes) : Bytes := (ver.map (leBytes 8)).flatten ++ mac.flatten

def nodeVers (d : Bytes) : List Nat := (List.range 8).map (fun e => fieldAt d (8 * e) 8)
def nodeMacs (d : Bytes) : List Bytes := (List.range 8).map (fun e => bytesAt d (64 + 8 * e) 8)

/-! Sealing (R128, R129). -/

/-- The XTS tweak of a block. -/
def blockTweak (index ver : Nat) : Bytes := leBytes 8 index ++ leBytes 8 ver

/-- The book keys, unmasked in the datapath that uses them (R388). -/
def Book.encKey (b : Book) : Bytes := xorBytes b.kEnc (bytesAt b.keyMask 0 32)
def Book.twkKey (b : Book) : Bytes := xorBytes b.kTwk (bytesAt b.keyMask 32 32)
def Book.macKey (b : Book) : Bytes := xorBytes b.kMac (bytesAt b.keyMask 64 32)
def Book.jrnKey (b : Book) : Bytes := xorBytes b.kJrn (bytesAt b.keyMask 96 32)

/-- The MAC of a stored block or node. -/
def Book.objMac (b : Book) (level index ver : Nat) (stored : Bytes) : Bytes :=
  (cmac b.macKey (leBytes 8 b.uid ++ leBytes 1 level ++ zeros 7 ++ leBytes 8 index ++ leBytes 8 ver ++ stored)).take 8

/-- A block as stored. -/
def Book.sealBlock (b : Book) (index ver : Nat) (plain : Bytes) : Bytes :=
  xtsEncUnit b.encKey b.twkKey (blockTweak index ver) plain

/-- The plaintext of a stored block. -/
def Book.openBlock (b : Book) (index ver : Nat) (stored : Bytes) : Bytes :=
  xtsDecUnit b.encKey b.twkKey (blockTweak index ver) stored

/-- The Saltern root of a book (R131). -/
def saltRoot (uid h cap : Nat) (root : Bytes) : Bytes := sha256 (leBytes 8 uid ++ leBytes 1 h ++ leBytes 4 cap ++ root)

/-- The root node of a book. -/
def Book.rootBytes (b : Book) : Bytes := nodeBytes b.rootVer b.rootMac

/-! The Pan. -/

/-- The resident block of a book. -/
def State.blockAt (s : State) (book block : Nat) : Option PanBlock :=
  s.pan.blocks.find? (fun b => b.book == book && b.index == block)

/-- Change a resident block. -/
def State.modBlock (s : State) (book block : Nat) (f : PanBlock → PanBlock) : State :=
  let blocks := s.pan.blocks.map (fun b => if b.book == book && b.index == block then f b else b)
  { s with pan := { s.pan with blocks := blocks } }

/-- Drop a resident block. -/
def State.dropBlock (s : State) (book block : Nat) : State :=
  { s with pan := { s.pan with blocks := s.pan.blocks.filter (fun b => !(b.book == book && b.index == block)) } }

/-- The cached node of a book. -/
def State.nodeAt (s : State) (book level index : Nat) : Option PanNode :=
  s.pan.nodes.find? (fun n => n.book == book && n.level == level && n.index == index)

/-- Change a cached node. -/
def State.modNode (s : State) (book level index : Nat) (f : PanNode → PanNode) : State :=
  let nodes := s.pan.nodes.map (fun n => if n.book == book && n.level == level && n.index == index then f n else n)
  { s with pan := { s.pan with nodes := nodes } }

/-- Drop a cached node. -/
def State.dropNode (s : State) (book level index : Nat) : State :=
  { s with pan := { s.pan with
      nodes := s.pan.nodes.filter (fun n => !(n.book == book && n.level == level && n.index == index)) } }

/-- The block or node has just been used. -/
def State.tick (s : State) : State := { s with pan := { s.pan with clock := s.pan.clock + 1 } }

def State.touchBlock (s : State) (book block : Nat) : State :=
  s.tick.modBlock book block (fun b => { b with stamp := s.pan.clock })

def State.touchNode (s : State) (book level index : Nat) : State :=
  s.tick.modNode book level index (fun n => { n with stamp := s.pan.clock })

/-- Version and MAC of a block or node in its parent, when the parent is on the die. -/
def State.parentEntry (s : State) (book level index : Nat) : Option (Nat × Bytes) :=
  let b := s.bookAt book
  if level + 1 = b.height then some (b.rootVer.getD (index % 8) 0, b.rootMac.getD (index % 8) [])
  else (s.nodeAt book (level + 1) (index / 8)).map (fun n => (n.ver.getD (index % 8) 0, n.mac.getD (index % 8) []))

/-- Where the journal's next frame will begin (R197). -/
def Book.jHead (b : Book) : Nat :=
  ((b.staged.filter (fun r => !r.issued)).map Staged.reserved).foldl (· + ·) b.jWrite

/-- Cache a verified node. -/
def State.putNode (s : State) (book level index : Nat) (d : Bytes) : State :=
  if (s.nodeAt book level index).isSome then s
  else
    let n : PanNode :=
      { book := book, level := level, index := index, ver := nodeVers d, mac := nodeMacs d, dirty := false, dirtyAt := 0,
        stamp := s.pan.clock, wbRefused := none, cut := false, awaited := false }
    { s.tick with pan := { s.tick.pan with nodes := s.pan.nodes ++ [n] } }

/-- Place a loaded block; a block being rebuilt takes it as its base (R230). -/
def State.placeBlock (s : State) (book block ver : Nat) (plain : Bytes) : State :=
  match s.blockAt book block with
  | some b =>
    { s with pan := { s.pan with rebuilds := s.pan.rebuilds.map (fun r =>
        if r.book == book && r.block == block then { r with haveBase := true, recs := if ver == b.wbVer then recsOf plain else [] }
        else r) } }
  | none =>
    let b := s.bookAt book
    let p : PanBlock :=
      { book := book, index := block, recs := recsOf plain, dirty := false, dirtyAt := 0, wbVer := ver, wbLseq := b.lseq,
        wbPos := b.jHead, stamp := s.pan.clock, wbRefused := none, cut := false, lost := false }
    { s.tick with pan := { s.tick.pan with blocks := s.pan.blocks ++ [p] } }

/-- Block of a tally identifier, and its place in the block (R106, R124). -/
def tidIndex (tid : Nat) : Nat := tid % 2 ^ 32
def tidBlock (tid : Nat) : Nat := tidIndex tid / 4

/-- The record of a tally in a resident block. -/
def State.record (s : State) (book index : Nat) : Option Tally :=
  ((s.blockAt book (index / 4)).filter (fun b => !b.lost)).map (fun b => b.recs.getD (index % 4) Tally.zero)

/-- A commit changes a record (R120). -/
def State.setRecord (s : State) (book index : Nat) (t : Tally) : State :=
  s.modBlock book (index / 4) (fun b =>
    { b with recs := b.recs.set (index % 4) t, dirty := true, dirtyAt := if b.dirty then b.dirtyAt else s.now })

/-- The block is pinned (R119). -/
def State.pinned (s : State) (book block : Nat) : Bool :=
  s.brine.entries.any (fun e => e.book == book && e.legs.any (fun l => tidBlock l.tid == block))

/-! Loads (R132). -/

/-- The levels from an object up to the nearest object whose parent is on the die, lowest first. -/
def State.absentPath (s : State) (book : Nat) : Nat → Nat → Nat → List Nat
  | 0, _, _ => []
  | n + 1, level, index =>
    if (s.parentEntry book level index).isSome then [level]
    else level :: s.absentPath book n (level + 1) (index / 8)

/-- The load of a block in flight. -/
def State.loadAt (s : State) (book block : Nat) : Option Load :=
  s.pan.loads.find? (fun l => l.book == book && l.block == block)

def State.dropLoad (s : State) (book block : Nat) : State :=
  { s with pan := { s.pan with loads := s.pan.loads.filter (fun l => !(l.book == book && l.block == block)) } }

/-- The read belongs to the load of a block. -/
def Read.ofLoad (r : Read) (book block : Nat) : Bool :=
  match r.kind with | .load b k => b == book && k == block | _ => false

/-- The data of the reads of a load has come. -/
def State.dropLoadReads (s : State) (book block : Nat) : State :=
  { s with reads := s.reads.filter (fun r => !r.ofLoad book block) }

/-- The reads of a load that are still out end for nobody. -/
def State.giveUpReads (s : State) (book block : Nat) : State := s.orphanReads (fun r => r.ofLoad book block)

/-- One read of a load, the oldest, has ended with an error completion; the others end for nobody (R134). -/
def State.loadReadFailed (s : State) (book block : Nat) : State :=
  match s.reads.find? (fun r => r.ofLoad book block) with
  | none => s
  | some r => (s.dropRead r.id).giveUpReads book block

/-- A read or write of the Saltern is held, stalled or retried (EVENT 0x07). -/
def State.plogSaltern (s : State) (rule book : Nat) : State := s.plogEvent 11 0x07 0 book 0xFFFF (rule - 100)

/-- Issue the reads of a load, highest level first; the flag tells that every window check passed. -/
def State.loadReads (s : State) (book block : Nat) (retry : Bool) : List Nat → State × Bool
  | [] => (s, true)
  | l :: ls =>
    let r := s.hostRead (.load book block) (masterSaltern book) book .saltern
      ((s.bookAt book).objAddr l (block / 8 ^ l)) (objSize l) retry
    if r.2 then r.1.loadReads book block retry ls else r

/-- Begin the load of the objects over a block from level `low` up. That all reads leave at once, also where a node that is
being read may hold version 0, is the model's choice (log entry 83). -/
def State.startLoad (s : State) (book block low : Nat) : State × Bool :=
  let up := s.absentPath book 12 low (block / 8 ^ low)
  let levels := up.reverse
  let l : Load :=
    { book := book, block := block, levels := levels, trusted := levels.headD low + 1, failedAt := none, retried := false, redone := false }
  let r := s.loadReads book block false levels
  if r.2 then ({ r.1 with pan := { r.1.pan with loads := r.1.pan.loads ++ [l] } }, true)
  else ((r.1.giveUpReads book block).plogSaltern 134 book, false)

/-- The highest absent object over a block has never been written (R125). -/
def State.pathZero (s : State) (book block low : Nat) : Bool :=
  let top := (s.absentPath book 12 low (block / 8 ^ low)).getLastD low
  match s.parentEntry book top (block / 8 ^ top) with
  | some (v, _) => v == 0
  | none => false

/-- The nearest cached node over an object of a block has just been used (R124). -/
def State.touchAbove (s : State) (book block low : Nat) : State :=
  let l := (s.absentPath book 12 low (block / 8 ^ low)).getLastD low + 1
  s.touchNode book l (block / 8 ^ l)

/-- The node that a load for a write-back brought in waits for the update of its entry (R124). -/
def State.awaitNode (s : State) (book block low : Nat) : State :=
  if low = 0 then s else s.modNode book low (block / 8 ^ low) (fun n => { n with awaited := true })

/-- The absent nodes over a block from level `low` up are on the die as zeros. -/
def State.zeroNodes (s : State) (book block low : Nat) : State :=
  ((s.absentPath book 12 low (block / 8 ^ low)).foldl (fun s l => s.putNode book l (block / 8 ^ l) (zeros 128)) s).awaitNode
    book block low

/-! Write-backs (R121, R135). -/

/-- Write-back is suspended by the hold of a CHECKPOINT: from the end of its phase 2 on (R120, R139). -/
def Book.held (b : Book) : Bool := b.hold.isSome || (match b.wb with | some j => j.phase == 3 && j.hold | none => false)

/-- Write-back of the book is allowed, for an object in the fixed set or not (R136, R137, R139). -/
def Book.mayWriteBack (b : Book) (cut : Bool) : Bool :=
  (b.st == .open_ || b.st == .recovering || b.st == .fencedGap) && b.hold.isNone &&
    (match b.wb with
     | some j => if j.phase == 2 then cut else j.phase == 1 || !j.hold
     | none => true)

/-- The parent's entry takes the new version and MAC; a cached parent becomes dirty and joins the fixed set (R135, log
entry 10). -/
def State.setEntry (s : State) (book level index ver : Nat) (mac : Bytes) : State :=
  let b := s.bookAt book
  let e := index % 8
  if level + 1 = b.height then s.setBook book { b with rootVer := b.rootVer.set e ver, rootMac := b.rootMac.set e mac }
  else
    let cut := match b.wb with | some j => j.phase == 2 | none => false
    (s.touchNode book (level + 1) (index / 8)).modNode book (level + 1) (index / 8) (fun n =>
      { n with ver := n.ver.set e ver, mac := n.mac.set e mac, dirty := true, dirtyAt := if n.dirty then n.dirtyAt else s.now, cut := n.cut || cut, awaited := false })

/-- The write-back of an object waits for its retry from now on (R135). -/
def State.holdWriteBack (s : State) (book level index : Nat) : State :=
  if level = 0 then s.modBlock book index (fun p => { p with wbRefused := some s.now })
  else s.modNode book level index (fun n => { n with wbRefused := some s.now })

/-- The parent of an object is brought onto the die, from zeros at once, else by a load (R135 step 1). A load that fails the
window check is tried again with the write-back each pound (log entry 10). -/
def State.needParent (s : State) (book level index : Nat) : State :=
  if (s.parentEntry book level index).isSome then s
  else
    let block := index * 8 ^ level
    if s.pathZero book block (level + 1) then s.zeroNodes book block (level + 1)
    else if (s.loadAt book block).isSome || !s.canRead (masterSaltern book) then s
    else
      let r := (s.touchAbove book block (level + 1)).startLoad book block (level + 1)
      if r.2 then r.1 else r.1.holdWriteBack book level index

/-- The dirty object, sealed under its next version: version, MAC, stored bytes. -/
def State.sealed (s : State) (book level index ver : Nat) : Option (Bytes × Bytes) :=
  let b := s.bookAt book
  let stored :=
    if level = 0 then ((s.blockAt book index).filter (fun p => p.dirty && !p.lost)).map (fun p => b.sealBlock index ver p.bytes)
    else ((s.nodeAt book level index).filter PanNode.dirty).map (fun n => nodeBytes n.ver n.mac)
  stored.map (fun d => (b.objMac level index ver d, d))

/-- The object has been written: clean, with its metadata (R121, R229). -/
def State.wrote (s : State) (book level index ver : Nat) (mac : Bytes) : State :=
  let b := s.bookAt book
  let s :=
    if level = 0 then
      s.modBlock book index (fun p =>
        { p with dirty := false, wbVer := ver, wbLseq := b.lseq, wbPos := b.jHead, wbRefused := none, cut := false })
    else s.modNode book level index (fun n => { n with dirty := false, wbRefused := none, cut := false })
  s.setEntry book level index ver mac

/-- A write-back is refused by the window check (R135). -/
def State.writeBackRefused (s : State) (book level index : Nat) : State :=
  ((s.modBook book (fun b => { b with wbAccess := true })).plogSaltern 135 book).holdWriteBack book level index

/-- Write an object back whose parent is on the die (R135 steps 2 to 4); the flag tells that it is clean afterwards. -/
def State.writeBack (s : State) (book level index : Nat) : State × Bool :=
  match s.parentEntry book level index with
  | none => (s, false)
  | some (v, _) =>
    match s.sealed book level index (v + 1) with
    | none => (s, false)
    | some (mac, d) =>
      if !s.canMaster (masterSaltern book) then (s, false)
      else
        let r := s.hostWrite (masterSaltern book) book .saltern none ((s.bookAt book).objAddr level index) d
        if r.2 then (r.1.wrote book level index (v + 1) mac, true) else (r.1.writeBackRefused book level index, false)

/-- The object belongs to the fixed set, and since when its write waits for a retry. -/
def State.objCut (s : State) (book level index : Nat) : Bool :=
  if level = 0 then ((s.blockAt book index).map PanBlock.cut).getD false
  else ((s.nodeAt book level index).map PanNode.cut).getD false

def State.objRefused (s : State) (book level index : Nat) : Option Nat :=
  if level = 0 then (s.blockAt book index).bind PanBlock.wbRefused else (s.nodeAt book level index).bind PanNode.wbRefused

/-- A write-back, its parent loaded first where it is absent. -/
def State.doWriteBack (s : State) (book level index : Nat) : State :=
  if !(s.bookAt book).mayWriteBack (s.objCut book level index) then s
  else ((s.needParent book level index).writeBack book level index).1

/-- A write-back of a checkpoint, a handover or a region move is class-1 work of the mover; another is a background step of it
(R51, R53). -/
def State.stepWriteBack (s : State) (book level index : Nat) : State :=
  if (s.bookAt book).wb.isSome then s.doWriteBack book level index
  else s.stepOf .mover background (fun s => s.doWriteBack book level index)

/-! Room (R119). -/

/-- The least-recently-used block of a list. -/
def lruBlock : List PanBlock → Option PanBlock
  | [] => none
  | b :: t =>
    match lruBlock t with
    | none => some b
    | some c => if b.stamp ≤ c.stamp then some b else some c

/-- The block that a miss would take for reuse. -/
def State.victim (s : State) (book : Nat) : Option PanBlock :=
  lruBlock (s.pan.blocks.filter (fun b =>
    b.book == book && !b.lost && !s.pinned book b.index && (!b.dirty || (s.bookAt book).mayWriteBack b.cut)))

/-- A refused write-back waits for its retry, each pound (R135). -/
def State.retryWaits (s : State) (refused : Option Nat) : Bool :=
  match refused with | some g => decide (s.now < g + pound) | none => false

/-- Evict one block: a clean one is dropped, a dirty one is written back first, again each pound when that was refused. -/
def State.evict (s : State) (book : Nat) : State × Bool :=
  match s.victim book with
  | none => (s, false)
  | some b =>
    if !b.dirty then (s.dropBlock book b.index, true)
    else if s.retryWaits b.wbRefused then (s, false)
    else
      let r := (s.needParent book 0 b.index).writeBack book 0 b.index
      if r.2 then (r.1.dropBlock book b.index, true) else r

/-- Room for one more block within the slice's quota. -/
def State.makeRoom (s : State) (book : Nat) : State × Bool :=
  if s.blocksTaken book < (s.sliceAt book).panQuota / 4 then (s, true) else s.evict book

/-- What a lookup of a block finds (R118, R132). -/
inductive Lookup where
  | ready
  | waiting
  | failed (st : Status)
deriving DecidableEq, Repr

/-- A lookup of a block: a hit, zeros for one never written, or a load. -/
def State.lookup (s : State) (book block : Nat) : State × Lookup :=
  match s.blockAt book block with
  | some b => if b.lost then (s, .waiting) else (s.touchBlock book block, .ready)
  | none =>
    if (s.loadAt book block).isSome then (s, .waiting)
    else
      let r := s.makeRoom book
      let s := r.1.touchAbove book block 0
      if !r.2 then (r.1, .waiting)
      else if s.pathZero book block 0 then (s.placeBlock book block 0 (zeros 256), .ready)
      else if !s.canRead (masterSaltern book) then (s, .waiting)
      else
        let o := s.startLoad book block 0
        (o.1, if o.2 then .waiting else .failed .access)

/-! The end of a load. -/

/-- Result of work whose load has failed (R153, R228). -/
def loadFailResult (st : Status) (check leg : Nat) : Bytes :=
  if st == .fault then faultResult 0 5 else if st == .tamper then faultResult 0 1 else refusalResult check leg

/-- Identifier check of an entry (R153). -/
def Entry.idCheck (e : Entry) : Nat := match e.kind with | .post => 9 | _ => 7

/-- The leg waits in stage F for its tally in a block. -/
def Leg.waitsFor (l : Leg) (block : Nat) : Bool := !l.got && tidBlock l.tid == block

/-- Lowest leg of an entry that waits for a block. -/
def Entry.legIn (e : Entry) (block : Nat) : Nat := e.legs.findIdx (fun l => l.waitsFor block)

/-- The entry waits in stage F for a block. -/
def Entry.waitsFor (e : Entry) (book block : Nat) : Bool := e.book == book && e.legs.any (fun l => l.waitsFor block)

/-- A prime tally operation on a block that waits for it before it takes its lane (R178, R184). -/
def Work.primeOn (w : Work) (book block : Nat) : Bool :=
  w.slice == book && w.opcode / 16 == 0x101 && w.admitted.isSome && w.activeAt 0 && tidBlock (w.field 0x10 8) == block

/-- A REPLAY under way (R208). -/
def Work.replaying (w : Work) (book : Nat) : Bool :=
  w.slice == book && w.opcode == 0x3020 && !w.isDone && !w.waiting

/-- The frame at the front of `d` is there whole and names a tally of a block (R189). -/
def frameNames (d : Bytes) (block : Nat) : Bool :=
  let n := fieldAt d 1 1
  decide (1 ≤ fieldAt d 0 1) && decide (fieldAt d 0 1 ≤ 5) && decide (96 + 32 * n ≤ d.length) &&
    (List.range n).any (fun k => tidBlock (fieldAt d (0x40 + 32 * k) 8) == block)

/-- A REPLAY whose frame waits for a block. -/
def Work.replaysOn (w : Work) (book block : Nat) : Bool :=
  w.replaying book && w.activeAt 1 && frameNames w.input.flatten block

/-- The work that waited for a block ends (R134, R153, R208). -/
def State.endWaiters (s : State) (book block : Nat) (st : Status) : State :=
  let gone := s.brine.entries.filter (fun e => e.waitsFor book block)
  let s := s.dropEntries (fun e => e.waitsFor book block)
  let s := gone.foldl (fun s e => s.endEntry e st (loadFailResult st e.idCheck (e.legIn block)) true) s
  let s := s.eachWork (fun w => w.primeOn book block) (fun s w => s.finish w.id st (loadFailResult st 9 0))
  s.eachWork (fun w => w.replaysOn book block) (fun s w =>
    s.finish w.id st ((s.bookAt book).replayResult w.pos (if st == .integrity then 6 else 0)))

/-- The rebuild of a block. -/
def State.rebuildAt (s : State) (book block : Nat) : Option Rebuild :=
  s.pan.rebuilds.find? (fun r => r.book == book && r.block == block)

/-- A rebuild ends. -/
def State.dropRebuild (s : State) (book block : Nat) : State :=
  { s.orphanReads (fun r => r.kind == .rebuild book block) with
    pan := { s.pan with rebuilds := s.pan.rebuilds.filter (fun r => !(r.book == book && r.block == block)),
                        reloads := s.pan.reloads + 1 } }

/-- The entries with a leg in a block. -/
def Entry.names (e : Entry) (book block : Nat) : Bool := e.book == book && e.legs.any (fun l => tidBlock l.tid == block)

/-- The rings with an uncommitted entry that has a leg in a block. -/
def State.ringsOn (s : State) (book block : Nat) : List Nat :=
  (s.brine.entries.filter (fun e => !e.applet && e.names book block)).map Entry.ring

/-- A rebuild fails (R231): the book, then the rings of the entries that need the block, those admitted during the rebuild
included. -/
def State.rebuildFailed (s : State) (r : Rebuild) : State :=
  let rings := r.rings ++ s.ringsOn r.book r.block
  let s := s.dropRebuild r.book r.block
  let s := { s with pan := { s.pan with reloadFail := true, faultBook := r.book } }
  rings.foldl (fun s k => s.fenceRing k 4 0) (s.salternFailure r.book 0 r.block)

/-- The load reads the block itself; another brings in the parent of an object that is written back (R135 step 1). -/
def State.readsBlock (s : State) (book block : Nat) : Bool :=
  ((s.loadAt book block).map (fun l => l.levels.contains 0)).getD false

/-- A loaded path fails its check: the operations that needed it, and the book (R136). -/
def State.loadBad (s : State) (book block level : Nat) : State :=
  let needed := s.readsBlock book block
  let s := s.dropLoad book block
  match s.rebuildAt book block with
  | some r => s.rebuildFailed r
  | none => (if needed then s.endWaiters book block .integrity else s).salternFailure book level (block / 8 ^ level)

/-- The objects of a load, highest level first, checked downward from the trusted ancestor (R132). A node that another load
has verified meanwhile is on the die. -/
def State.verifyPath (s : State) (book block : Nat) (low : Nat) : List (Nat × Bytes) → State
  | [] => (s.dropLoad book block).awaitNode book block low
  | (l, d) :: t =>
    let i := block / 8 ^ l
    if l != 0 && (s.nodeAt book l i).isSome then (s.touchNode book l i).verifyPath book block low t
    else
    match s.parentEntry book l i with
    | none => s.dropLoad book block
    | some (v, mac) =>
      if v == 0 then
        let s := s.dropLoad book block
        if low == 0 then s.placeBlock book block 0 (zeros 256) else s.zeroNodes book block low
      else if (s.bookAt book).objMac l i v d != mac then s.loadBad book block l
      else if l == 0 then
        (s.dropLoad book block).placeBlock book block v ((s.bookAt book).openBlock block v d)
      else (s.putNode book l i d).verifyPath book block low t

/-- Change a load. -/
def State.modLoad (s : State) (book block : Nat) (f : Load → Load) : State :=
  { s with pan := { s.pan with loads := s.pan.loads.map (fun l => if l.book == book && l.block == block then f l else l) } }

/-- The load is given up (R134). The work that waited for the block ends; where a parent was to be brought in, no work
waits, and the write-back is tried again each pound (log entry 10). -/
def State.loadFailed (s : State) (book block : Nat) (st : Status) : State :=
  let low := ((s.loadAt book block).map (fun l => l.levels.getLastD 0)).getD 0
  let s := (s.giveUpReads book block).dropLoad book block
  match s.rebuildAt book block with
  | some r => s.rebuildFailed r
  | none => if low = 0 then s.endWaiters book block st else s.holdWriteBack book (low - 1) (block / 8 ^ (low - 1))

/-- A read of a load ends with an error completion, or its retry is due (R134). -/
def State.loadRetry (s : State) (book block : Nat) : State :=
  match s.loadAt book block with
  | none => s
  | some l =>
    match l.failedAt with
    | none =>
      if l.retried || (s.rebuildAt book block).isSome then (s.loadReadFailed book block).loadFailed book block .fault
      else ((s.loadReadFailed book block).modLoad book block (fun l => { l with failedAt := some s.now })).plogSaltern 134 book
    | some g =>
      if decide (s.now < g + pound) || !s.canRead (masterSaltern book) then s
      else
        let r := s.loadReads book block true l.levels
        if r.2 then r.1.modLoad book block (fun l => { l with failedAt := none, retried := true })
        else (r.1.plogSaltern 134 book).loadFailed book block .access

/-- SALTERN_READ_RETRY. -/
def execSalternReadRetry (book block : Nat) (s : State) : Host.Outcome State Fault Refusal := .next (s.loadRetry book block)

/-! The node cache (R124). -/

/-- Nodes that the cache holds. -/
def State.nodeRoom (s : State) : Nat := 2048 * s.pan.nodeUnits

/-- A dirty child of the node waits to be written back. -/
def State.childWaits (s : State) (n : PanNode) : Bool :=
  s.pan.blocks.any (fun b => b.dirty && b.book == n.book && n.level == 1 && b.index / 8 == n.index) ||
    s.pan.nodes.any (fun m => m.dirty && m.book == n.book && m.level + 1 == n.level && m.index / 8 == n.index)

/-- The node is not replaced: it is on the path of a load in flight, the trusted ancestor included (R132), or a write-back is
to update its entry (R124). -/
def State.nodeHeld (s : State) (n : PanNode) : Bool :=
  s.pan.loads.any (fun l => l.book == n.book && decide (n.level ≤ l.trusted) && l.block / 8 ^ n.level == n.index) ||
    (n.awaited && s.childWaits n)

/-- A node is replaced while the cache is beyond its size; a dirty one is written back first, its parent brought in where it
is absent (R124, R135). One that is held, or whose write-back may not be made or waits for its retry, stands (log entry
10). -/
def State.trimNode (s : State) (n : PanNode) : State :=
  if s.pan.nodes.length ≤ s.nodeRoom then s
  else
    match s.nodeAt n.book n.level n.index with
    | none => s
    | some v =>
      if s.nodeHeld v then s
      else if !v.dirty then s.dropNode v.book v.level v.index
      else if !(s.bookAt v.book).mayWriteBack v.cut || s.retryWaits v.wbRefused then s
      else
        let r := (s.needParent v.book v.level v.index).writeBack v.book v.level v.index
        if r.2 then r.1.dropNode v.book v.level v.index else r.1

/-- The node cache keeps its size (R124): the least recently used nodes that may be replaced are. -/
def State.trim (s : State) : State :=
  (s.pan.nodes |> sortBy (fun a b => decide (a.stamp ≤ b.stamp))).foldl State.trimNode s

/-- BLOCK_WRITE_BACK. -/
def execBlockWriteBack (book level index : Nat) (s : State) : Host.Outcome State Fault Refusal :=
  .next (if (s.objRefused book level index).isSome then s else (s.stepWriteBack book level index).trim)

/-- WRITE_BACK_RETRY (R135): a background step of the mover too, or one of class 1 (R51). -/
def execWriteBackRetry (book level index : Nat) (s : State) : Host.Outcome State Fault Refusal :=
  .next (match s.objRefused book level index with
    | none => s
    | some g => if s.now < g + pound then s else (s.stepWriteBack book level index).trim)

/-- No flush is under way, or it drains: an admitted TALLY_ADJUST still gets its block (R238, R556). -/
def State.drains (s : State) : Bool := match s.pwr.flush with | none => true | some f => f.step == .drain

/-- Data of every read of a load has arrived. -/
def State.blockLoaded (s : State) (book block : Nat) (objects : List Bytes) : State :=
  match s.loadAt book block with
  | none => s
  | some l =>
    if !(s.reads.filter (fun r => r.ofLoad book block)).all Read.arrives || l.failedAt.isSome || objects.map List.length != l.levels.map objSize || !s.drains then s
    else ((s.dropLoadReads book block).verifyPath book block (l.levels.getLastD 0) (l.levels.zip objects)).trim

/-- SALTERN_BLOCK_LOADED. -/
def execSalternBlockLoaded (book block : Nat) (objects : List Bytes) (s : State) : Host.Outcome State Fault Refusal :=
  .next (s.blockLoaded book block objects)

/-- The Pan lines and cached nodes of a book are dropped without write-back (R104, R142). -/
def State.dropPan (s : State) (book : Nat) : State :=
  { s.dropLoads book with pan := { (s.dropLoads book).pan with
      blocks := s.pan.blocks.filter (fun b => b.book != book), nodes := s.pan.nodes.filter (fun n => n.book != book) } }

/-- Dirty blocks of a book (BOOK_DIRTY). -/
def State.dirtyBlocks (s : State) (book : Nat) : Nat :=
  (s.pan.blocks.filter (fun b => b.book == book && b.dirty)).length

end Sys2Proof.Machine
end

