-- ==== Sys2Proof/Machine/Journal.lean ====
section
/-! DEFINITION. The journal (R188-R201) and the seals (R202-R206). -/

namespace Sys2Proof.Machine
open Sys2Proof

/-! Strand heads (R193, R194). -/

/-- The head of a strand at CREATE (R193). -/
def genesisHead (uid incarn strands k : Nat) : Bytes :=
  sha256 (ascii "SKAORA-J" ++ leBytes 8 uid ++ leBytes 4 incarn ++ leBytes 1 strands ++ leBytes 1 k ++ zeros 10)

def genesisHeads (uid incarn strands : Nat) : List Bytes := (List.range strands).map (genesisHead uid incarn strands)

/-- A record folded into the heads (R194). -/
def foldHead (strands : Nat) (heads : List Bytes) (lseq : Nat) (record : Bytes) : List Bytes :=
  let k := lseq % strands
  heads.set k (sha256 (heads.getD k [] ++ record))

/-- The heads of a book at an LSEQ that its staged records reach (R194). -/
def Book.headsAt (b : Book) (lseq : Nat) : List Bytes :=
  (b.staged.filter (fun r => decide (r.lseq ≤ lseq))).foldl (fun h r => foldHead b.strands h r.lseq r.record)
    b.headsIssued

/-- Records that have been issued and folded leave the staging, oldest first (R226). -/
def Book.settle (b : Book) : Book :=
  let gone := b.staged.takeWhile (fun r => r.issued && r.folded)
  let heads := gone.foldl (fun h r => foldHead b.strands h r.lseq r.record) b.headsIssued
  ({ b with staged := b.staged.drop gone.length, headsIssued := heads } : Book).recordTarget

/-- Every record up to an LSEQ has been issued and folded: a statement at that LSEQ may be formed (R195, R240). -/
def Book.statable (b : Book) (lseq : Nat) : Bool := b.staged.all (fun r => decide (lseq < r.lseq))

/-! Room (R197-R199). -/

/-- Bytes of a frame with `legs` entries. -/
def frameSize (legs : Nat) : Nat := 96 + 32 * legs

/-- Bytes of the region. -/
def Book.region (b : Book) : Nat := 2 ^ b.jSize

/-- Bytes from a position to the region end that a frame skips behind a pad marker (R197). -/
def Book.padFrom (b : Book) (pos frame : Nat) : Nat :=
  let rest := b.region - pos % b.region
  if rest < frame then rest else 0

/-- Free space minus reservations (R199); none with CFG_BAD (R201). -/
def Book.room (b : Book) : Nat := if b.cfgBad then 0 else b.region - (b.jHead - b.freeUpTo) - b.reserved

/-- What a posting of `legs` entries reserves (R199). -/
def reservation (legs : Nat) : Nat := frameSize legs + 32

/-- The region and the seal area are valid and lie in windows (R201, R218). -/
def State.journalOk (s : State) (book : Nat) : Bool :=
  let b := s.bookAt book
  decide (16 ≤ b.jSize) && decide (b.jSize ≤ 36) && decide (4 ≤ b.sealLog2) && decide (b.sealLog2 ≤ 12) &&
    s.rangeOk book b.jBase b.region true && s.rangeOk book b.jBase b.region false

/-- CFG_BAD as checked when the book enters OPEN (R201). -/
def State.checkJournal (s : State) (book : Nat) : State :=
  let bad := !s.journalOk book
  s.modBook book (fun b => { b with cfgBad := bad })

/-! Records (R189-R192). -/

/-- What a commit says about itself. -/
structure RecordInfo where
  kind : Nat
  session : Nat
  ring : Nat
  flags : Nat
  digest : Bytes
  /-- Entries of 32 bytes. -/
  entries : List Bytes
  /-- Made by a prime lane. -/
  prime : Bool
  /-- Bytes reserved at admission. -/
  reserved : Nat
  /-- The commit grain, when it is not the present one. -/
  at_ : Option Nat := none

/-- The record of a commit (R190). -/
def recordBytes (book : Nat) (b : Book) (lseq grain : Nat) (r : RecordInfo) : Bytes :=
  let n := r.entries.length
  leBytes 1 r.kind ++ leBytes 1 n ++ leBytes 2 book ++ leBytes 4 b.incarn ++ leBytes 8 lseq ++ leBytes 8 grain ++
    leBytes 2 r.session ++ leBytes 2 r.ring ++ leBytes 1 (lseq % b.strands) ++ leBytes 1 r.flags ++
    leBytes 2 (64 + 32 * n) ++ r.digest ++ r.entries.flatten

/-- An entry that carries a tally word (R192). -/
def recordEntry (tid version aux : Nat) (amount : Image) : Bytes :=
  leBytes 8 tid ++ leBytes 6 version ++ leBytes 2 aux ++ imageBytes (normal amount)

/-- A commit: the next LSEQ, its record and frame MAC, staged for the journal writer (R165, R169, R195). -/
def State.commitRecord (s : State) (book : Nat) (r : RecordInfo) : State :=
  s.modBook book (fun b =>
    let lseq := b.lseq + 1
    let g := r.at_.getD s.now
    let rec_ := recordBytes book b lseq g r
    let frame := rec_.length + 32
    let st : Staged :=
      { lseq := lseq, record := rec_, mac := cmac b.jrnKey rec_, grain := g, prime := r.prime,
        reserved := frame + b.padFrom b.jHead frame, issued := false, folded := false }
    { b with lseq := lseq, staged := b.staged ++ [st], reserved := b.reserved - r.reserved, sinceSeal := b.sinceSeal + 1 })

/-! The journal writer (R195-R201). -/

/-- The book as a power loss leaves it: at JRNL_ISSUED (R239). The count of records since the last seal that stands is
kept over the loss: R477 does not list it, and it is the model's choice (log entry 55). -/
def Book.atIssued (b : Book) : Book :=
  let cut := b.seals.find? (fun x => decide (b.issued < x.lseq))
  let since := match cut with
    | some x => x.since - (x.lseq - b.issued)
    | none => b.sinceSeal - (b.staged.filter (fun r => decide (b.issued < r.lseq))).length
  { b with lseq := b.issued, headsIssued := b.headsAt b.issued, heads := b.headsAt b.issued, staged := [], seals := [],
           sinceSeal := since, sealNo := (cut.map (fun x => x.no - 1)).getD b.sealNo, lastSeal := (cut.map Seal.prev).getD b.lastSeal,
           reserved := 0, wb := none, hold := none, handover := none, jStall := none, cmd := none, accepted := false }

/-- The image of a book that survives a power loss: the values of R477 at JRNL_ISSUED, the target of a book that is still
to reach it, or where the replay of a book in FENCED_GAP has come to (R105, R213, R239). -/
def Book.image (b : Book) : Book :=
  let a := b.atIssued
  if b.st == .fencedGap then { a with lseq := b.lseq, heads := b.heads, headsIssued := b.headsIssued }
  else if b.st == .recovering || (b.st == .fencedIntegrity && b.staged.isEmpty) then
    { a with lseq := b.target, heads := b.savedHeads, headsIssued := b.savedHeads }
  else if b.staged.isEmpty then { a with lseq := b.lseq } else a

/-- Heads and LSEQ are recorded as each frame write is issued while HOLD is weak (R239, R480). -/
def State.throughBook (s : State) (book : Nat) : State :=
  if s.nv.wt then
    let n := { s.nv with bookRecs := tput Book.reset s.nv.bookRecs book (s.bookAt book).image }
    ({ s with nv := n } : State).nvPut partHeads (recBook book)
  else s

/-- The next record to be issued. -/
def Book.nextFrame (b : Book) : Option Staged := b.staged.find? (fun r => !r.issued)

/-- The trailer of a frame at a position (R196). -/
def Book.trailer (b : Book) (r : Staged) (pos : Nat) : Bytes := r.mac ++ leBytes 8 (pos / b.region) ++ zeros 8

/-- The pad marker at a position (R197). -/
def Book.padMarker (b : Book) (pos : Nat) : Bytes := (0xFF : Byte) :: zeros 7 ++ leBytes 8 (pos / b.region) ++ zeros 16

/-- A frame write is refused by the window check: the journal stalls (R201). -/
def State.journalStall (s : State) (book : Nat) : State :=
  let s := s.modBook book (fun b => { b with jStall := some s.now, wrAccess := true })
  s.plogEvent unitJournal 0x07 0 book 0xFFFF (201 - 100)

/-- The pad up to the region end has been written, and is counted (R197). -/
def Book.padded (b : Book) (r : Staged) (pad : Nat) : Book :=
  { b with jWrite := b.jWrite + pad,
           staged := b.staged.map (fun x => if x.lseq == r.lseq then { x with reserved := x.reserved - pad } else x) }

/-- The writes of a frame: a pad marker where the region end is too near, then the frame (R197). -/
def State.writeFrame (s : State) (book : Nat) (r : Staged) : State × Bool :=
  let b := s.bookAt book
  let m := masterJournal book
  let pad := b.padFrom b.jWrite (r.record.length + 32)
  let pos := b.jWrite + pad
  let p := if pad = 0 then (s, true)
    else s.hostWrite m book .frame none (b.jBase + b.jWrite % b.region) (b.padMarker b.jWrite)
  if !p.2 then p
  else
    (p.1.modBook book (fun b => b.padded r pad)).hostWrite m book .frame none (b.jBase + pos % b.region)
      (r.record ++ b.trailer r pos)

/-- The frame has been issued; a completion that waits for persistence is released when the book has left OPEN (R238). -/
def State.frameIssued (s : State) (book : Nat) (r : Staged) : State :=
  let s := s.modBook book (fun b =>
    let pos := b.jWrite + r.record.length + 32
    let staged := b.staged.map (fun x => if x.lseq == r.lseq then { x with issued := true } else x)
    ({ b with staged := staged, jWrite := pos, issued := r.lseq, frameEnds := b.frameEnds ++ [(r.lseq, pos)],
              jStall := none } : Book).settle)
  let s := s.throughBook book
  if (s.bookAt book).st == .open_ then s else s.releaseWithheld book

/-- The journal writer still works: no flush, or its drain (R557). -/
def State.writerRuns (s : State) : Bool :=
  match s.pwr.flush with | none => true | some f => f.step == .drain

/-- In write-through an issued frame takes a class-1 step of the store's controller, for its record in HEADS (R48, R239,
R480); the flush keeps no calendar. -/
def State.headsFree (s : State) : Bool := !s.nv.wt || s.pwr.flush.isSome || s.mayStep .nv 1

/-- The frame may leave, unless the writer takes a squashed step again (R35): in the grain after its commit, or for a prime lane
in the commit grain (R183, R195), into free bytes (R198). -/
def State.frameDue (s : State) (book : Nat) (r : Staged) : Bool :=
  let b := s.bookAt book
  s.writerRuns && !s.sched.taken.contains .journal && s.headsFree && (r.prime || decide (r.grain < s.now)) && s.canMaster (masterJournal book) &&
    decide (b.jWrite + r.reserved - b.freeUpTo ≤ b.region)

/-- The next frame of a book is written. -/
def State.issueFrame (s : State) (book : Nat) : State :=
  match (s.bookAt book).nextFrame with
  | none => s
  | some r =>
    if !s.frameDue book r then s
    else
      let o := s.writeFrame book r
      if o.2 then o.1.frameIssued book r else o.1.journalStall book

/-- FRAME_WRITE_ISSUE. -/
def execFrameWriteIssue (book : Nat) (s : State) : Host.Outcome State Fault Refusal :=
  .next (if (s.bookAt book).jStall.isSome then s else s.issueFrame book)

/-- FRAME_WRITE_RETRY (R201). -/
def execFrameWriteRetry (book : Nat) (s : State) : Host.Outcome State Fault Refusal :=
  .next (match (s.bookAt book).jStall with
    | none => s
    | some g => if s.now < g + pound then s else s.issueFrame book)

/-- The oldest record not yet folded goes into its head. -/
def Book.foldNext (b : Book) : Book :=
  match b.staged.find? (fun r => !r.folded) with
  | none => b
  | some r =>
    let staged := b.staged.map (fun x => if x.lseq == r.lseq then { x with folded := true } else x)
    ({ b with staged := staged, heads := foldHead b.strands b.heads r.lseq r.record } : Book).settle

/-- A digest engine folds a record: a class-1 step of it (R48, R195); the flush keeps no calendar. -/
def State.foldOn (s : State) (book : Nat) : State :=
  if s.pwr.flush.isSome then s.modBook book Book.foldNext
  else
    match (List.range digestEngines).find? (fun e => s.mayStep (.digest e) 1) with
    | none => s
    | some e => (s.modBook book Book.foldNext).takeStep (.digest e)

/-- HEAD_FOLD. -/
def execHeadFold (book : Nat) (s : State) : Host.Outcome State Fault Refusal := .next (s.foldOn book)

/-! Seals. -/

/-- The seal digest (R203). -/
def sealDigest (uid lseq no : Nat) (prev : Bytes) (heads : List Bytes) : Bytes :=
  sha256 (ascii "SKAORA-S" ++ leBytes 8 uid ++ leBytes 8 lseq ++ leBytes 8 no ++ prev ++ heads.flatten)

/-- SEAL commands of a book accepted before this boundary. -/
def State.sealWorks (s : State) (book : Nat) : List Work :=
  s.work.filter (fun w => w.slice == book && w.opcode == 0x3000 && w.activeAt 1 &&
    (match w.admitted with | some g => decide (g < s.now) | none => false))

/-- The cause of a seal due at this boundary (R202). An accepted SEAL whose book has left OPEN waits until the book is OPEN
again: the manual does not say how it ends, and the wait is the model's choice (log entry 56). -/
def State.sealCause (s : State) (book : Nat) : Option Nat :=
  let b := s.bookAt book
  if b.st != .open_ || b.sealAt == some s.now then none
  else if !(s.sealWorks book).isEmpty then some 2
  else if 4096 ≤ b.sinceSeal then some 0
  else if s.now % ounce = 0 ∧ 1 ≤ b.sinceSeal then some 1
  else none

/-- The job belongs to a seal of a book. -/
def BnJob.ofSeal (j : BnJob) (book no : Nat) : Bool := j.use == 2 && j.who == book && j.no == no

/-- The signing of a seal has not begun: its job waits in the queue. -/
def State.sealQueued (s : State) (book no : Nat) : Bool := s.crypto.bnQueue.any (fun j => j.ofSeal book no)

/-- Seals not made by a command whose signing has not begun are written unsigned (R205). -/
def State.unsignOlder (s : State) (book : Nat) : State :=
  let old := (s.bookAt book).seals.filter (fun x => x.sign && x.works.isEmpty && s.sealQueued book x.no)
  let s := s.modBook book (fun b =>
    { b with seals := b.seals.map (fun x => if old.any (fun y => y.no == x.no) then { x with sign := false } else x) })
  old.foldl (fun s x => s.dropBn (fun j => j.ofSeal book x.no)) s

/-- The signing job of a seal: ECDSA P-384 for the book's slice (R205). -/
def sealJob (book no : Nat) : BnJob :=
  { work := 0, use := 2, who := book, no := no, slice := book, op := 0x20, key := none, keyType := 0x11, e := 0,
    input := [], cost := bnCost 0x20 0x11 [], done := 0, admitted := 0, since := 0, retries := 0, rand := false, mask := [] }

/-- A seal is formed (R202, R203). -/
def State.formSeal (s : State) (book : Nat) : State :=
  match s.sealCause book with
  | none => s
  | some cause =>
    let ws := s.sealWorks book
    let s := s.unsignOlder book
    let b := s.bookAt book
    let no := b.sealNo + 1
    let heads := b.headsAt b.lseq
    let d := sealDigest b.uid b.lseq no b.lastSeal heads
    let x : Seal :=
      { no := no, lseq := b.lseq, grain := s.now, cause := cause, prev := b.lastSeal, digest := d, heads := heads,
        addr := b.sealBase + 256 * (no % 2 ^ b.sealLog2), since := b.sinceSeal, sign := true, works := ws.map Work.id }
    let s := s.setBook book { b with sealNo := no, lastSeal := d, sinceSeal := 0, sealAt := some s.now, seals := b.seals ++ [x] }
    let s := ws.foldl (fun s w => s.modWork w.id (fun v => { v with phase := .active 2 })) s
    s.bnSubmit (sealJob book no)

/-- SEAL_FORMATION. -/
def execSealFormation (book : Nat) (s : State) : Host.Outcome State Fault Refusal := .next (s.formSeal book)

/-- The seal statement before its signature (R204). -/
def State.sealBody (s : State) (book : Nat) (x : Seal) : Bytes :=
  let b := s.bookAt book
  leBytes 2 2 ++ leBytes 2 0x100 ++ leBytes 2 book ++ leBytes 1 b.strands ++ leBytes 1 (x.cause + 4 * flag x.sign) ++
    s.keys.deviceId ++ leBytes 8 b.uid ++ leBytes 4 b.incarn ++ zeros 4 ++ leBytes 8 x.lseq ++ leBytes 8 x.grain ++
    leBytes 8 x.no ++ x.prev ++ x.digest ++ zeros 32

/-- A statement under the book-attestation key (R140, R204). -/
def State.signBook (s : State) (book : Nat) (body : Bytes) : Bytes × State :=
  let b := s.bookAt book
  s.signP384 (s.attestKey b.uid b.incarn) (sha384 body)

/-- A seal statement goes to the seal area; the commands that wait for it complete (R205, R206). -/
def State.writeSeal (s : State) (book : Nat) (x : Seal) : State :=
  let body := s.sealBody book x
  let r := if x.sign then s.signBook book body else (zeros 96, s)
  let o := r.2.hostWrite (masterJournal book) book .seal none x.addr (body ++ r.1)
  let s := if o.2 then o.1
    else (o.1.modBook book (fun b => { b with sealAccess := true })).plogEvent unitJournal 0x07 0 book 0xFFFF (206 - 100)
  let s := s.modBook book (fun b => { b with seals := b.seals.filter (fun y => y.no != x.no) })
  x.works.foldl (fun s id => s.finish id (if o.2 then .ok else .access) (leBytes 8 x.no ++ leBytes 8 x.lseq)) s

/-- The oldest seal of a book is written: unsigned, or once its signing job has ended (R205, R206, R240). -/
def State.sealSigned (s : State) (book : Nat) : State :=
  match (s.bookAt book).seals.head? with
  | none => s
  | some x =>
    if !((s.bookAt book).statable x.lseq && s.writerRuns && s.canMaster (masterJournal book)) then s
    else if !x.sign then s.writeSeal book x
    else
      match s.bnEngineOf (fun j => j.ofSeal book x.no) with
      | none => s
      | some (e, _) => (s.bnRetire e).writeSeal book x

/-- SEAL_SIGNED. -/
def execSealSigned (book : Nat) (s : State) : Host.Outcome State Fault Refusal := .next (s.sealSigned book)

/-- SEAL (R205): accepted, it waits for the next boundary. -/
def State.sealBody_ (s : State) (w : Work) : State :=
  if !(w.aux == 0 && w.zeroFrom 0x10 0x40) then s.refuse w 1 .malformed
  else if !(s.bookAt w.slice).accepts then s.refuse w 2 .state
  else s.modWork w.id (fun v => { v with phase := .active 1, admitted := some s.now })

/-- SEAL. -/
def execSeal (ring : Nat) (s : State) : Host.Outcome State Fault Refusal := .next (s.onStart ring 0x3000 s.sealBody_)

end Sys2Proof.Machine
end

