-- ==== Sys2Proof/Machine/Legs.lean ====
section
/-! DEFINITION. The rules of legs and of tally administration (R107, R110-R112, R115, R116, R152-R158). -/

namespace Sys2Proof.Machine
open Sys2Proof

/-! Attributes of a tally (R108). -/

def Tally.debit (t : Tally) : Bool := t.attr.getLsbD 0
def Tally.credit (t : Tally) : Bool := t.attr.getLsbD 1
def Tally.frozen (t : Tally) : Bool := t.attr.getLsbD 2
def Tally.isOpen (t : Tally) : Bool := t.attr.getLsbD 3

/-- The last VERSION (R112). -/
def versionMax : Nat := 2 ^ 48 - 1

/-- A tally index of a book lies in range (R106). -/
def indexOk (cap tid : Nat) : Bool := decide (tidIndex tid < 4 * cap)

/-- The identifier checks of R107. -/
def idFail (cap tid : Nat) (old : Tally) : Option Status :=
  firstFail [(indexOk cap tid, .range), (old.isOpen, .policy), (old.tid == tid, .policy)]

/-- FROZEN, DEBIT and CREDIT permit the amount (R110). -/
def permits (old : Tally) (amount : Image) : Bool :=
  !old.frozen && (decide (0 ≤ toInt amount) || old.debit) && (decide (toInt amount ≤ 0) || old.credit)

/-- The bound check (R157). -/
def boundOk (old : Tally) (value : Image) : Bool :=
  (!decLt value old.floor || !decLt value old.value) && (!decLt old.ceiling value || !decLt old.value value)

/-- The bounds of a record are valid words. -/
def Tally.boundsValid (t : Tally) : Bool := valid t.floor && valid t.ceiling

/-- Check `k` of R152 on one leg. A stored word that is invalid though its code is correct is an operand of the checks that
compute with it, and is reported there ahead of a range or an ordering (R75, R76, R83): VALUE at check 12, FLOOR and CEILING
at check 13. The numbers of these checks are the model's choice (log entry 71). -/
def legFail (k cap : Nat) (l : Leg) (old : Tally) : Option Status :=
  let sum := decAdd old.value l.amount
  match k with
  | 7 => if valid l.amount then none else some .invalidDigit
  | 9 => idFail cap l.tid old
  | 10 => if l.expect == 0 || l.expect == old.version then none else some .policy
  | 11 => if permits old l.amount then none else some .policy
  | 12 => if !valid old.value then some .invalidDigit else if sum.isSome then none else some .overflow
  | 13 => if !old.boundsValid then some .invalidDigit else if boundOk old (sum.getD old.value) then none else some .policy
  | 14 => if old.version + 1 < versionMax then none else some .overflow
  | _ => none

/-- The first leg, from leg `i` on, that fails check `k`. -/
def firstLeg (k cap : Nat) : Nat → List (Leg × Tally) → Option (Nat × Nat × Status)
  | _, [] => none
  | i, (l, old) :: t =>
    match legFail k cap l old with
    | some st => some (k, i, st)
    | none => firstLeg k cap (i + 1) t

/-- The amounts sum to zero (R155). -/
def balanced (legs : List Leg) : Bool := decide ((legs.map (fun l => toInt l.amount)).sum = 0)

/-- Checks 7 to 14 of R152: check, leg, status. -/
def postVerdict (cap : Nat) (adj : Bool) (ls : List (Leg × Tally)) : Option (Nat × Nat × Status) :=
  match firstLeg 7 cap 0 ls with
  | some r => some r
  | none =>
    if !adj && !balanced (ls.map Prod.fst) then some (8, 0xFF, .policy)
    else ([9, 10, 11, 12, 13, 14].filterMap (fun k => firstLeg k cap 0 ls)).head?

/-- The record after a leg. -/
def legResult (l : Leg) (old : Tally) : Tally :=
  { old with value := (decAdd old.value l.amount).getD old.value, version := old.version + 1 }

/-- Checks 6 to 12 of R115; a stored VALUE that is invalid fails check 11 (R75, log entry 71). -/
def adminVerdict (cap : Nat) (kind : EntryKind) (floor ceiling : Image) (l : Leg) (old : Tally) :
    Option (Nat × Nat × Status) :=
  let bounds := kind == .open_ || kind == .set
  let f : Option (Nat × Status) := firstFail [
    (!bounds || (valid floor && valid ceiling), (6, .invalidDigit)),
    (indexOk cap l.tid, (7, .range)),
    (kind == .open_ || (idFail cap l.tid old).isNone, (7, .policy)),
    (kind != .open_ || !old.isOpen, (8, .policy)),
    (l.expect == 0 || l.expect == old.version, (9, .policy)),
    (!bounds || !decLt ceiling floor, (10, .policy)),
    (kind != .close || valid old.value, (11, .invalidDigit)),
    (kind != .close || magnitude old.value == 0, (11, .policy)),
    (decide (old.version + 1 < versionMax) || (kind == .close && old.version + 1 == versionMax), (12, .overflow))]
  f.map (fun r => (r.1, 0, r.2))

/-- The attribute bit OPEN. -/
def attrOpen : BitVec 16 := 8

/-- The record after a tally administration operation (R116). -/
def adminResult (kind : EntryKind) (attr : BitVec 16) (floor ceiling : Image) (l : Leg) (old : Tally) : Tally :=
  match kind with
  | .open_ =>
    { value := mkImage false 0, floor := normal floor, ceiling := normal ceiling, tid := l.tid,
      version := old.version + 1, attr := attr ||| attrOpen }
  | .close => { old with attr := old.attr &&& ~~~attrOpen, version := old.version + 1 }
  | _ =>
    { old with floor := normal floor, ceiling := normal ceiling, attr := attr ||| attrOpen,
               version := old.version + 1 }

/-- The verdict of an entry on the records it finds. -/
def Entry.verdictOn (e : Entry) (cap : Nat) (olds : List Tally) : Option (Nat × Nat × Status) :=
  match e.kind with
  | .post => postVerdict cap e.adj (e.legs.zip olds)
  | k =>
    match e.legs, olds with
    | l :: _, o :: _ => adminVerdict cap k e.floor e.ceiling l o
    | _, _ => none

/-- The record that a leg of an entry leaves; a refused entry leaves the old one. -/
def Entry.resultOn (e : Entry) (refused : Bool) (l : Leg) (old : Tally) : Tally :=
  if refused then old
  else
    match e.kind with
    | .post => legResult l old
    | k => adminResult k e.attr e.floor e.ceiling l old

/-- Stage C of an entry on the records it finds. -/
def Entry.compute (e : Entry) (cap : Nat) (olds : List Tally) : Entry :=
  let v := e.verdictOn cap olds
  { e with stage := .compute, verdict := v,
           legs := (e.legs.zip olds).map (fun p => { p.1 with new := e.resultOn v.isSome p.1 p.2 }) }

end Sys2Proof.Machine
end

