-- ==== Sys2Proof/Machine/Postings.lean ====
section
/-! DEFINITION. Postings and tally administration (R146-R177): descriptors, admission, the brine window, commit. -/

namespace Sys2Proof.Machine
open Sys2Proof

/-! Descriptors (R147-R150, R114). -/

/-- LEGS, RCPT and ADJ of the auxiliary field of POST (R147). -/
def postLegs (aux : Nat) : Nat := bits aux 3 0
def postRcpt (aux : Nat) : Bool := bit aux 4
def postAdj (aux : Nat) : Bool := bit aux 5

/-- Leg `n` of a POST of 2 or 4 slots. -/
def postLeg (d : Bytes) (slots n : Nat) : Leg :=
  { amount := imageAt d (0x10 + 16 * n),
    tid := fieldAt d ((if slots = 2 then 0x40 else 0x90) + 8 * n) 8,
    expect := if slots = 2 then fieldAt d (0x58 + 6 * n) 6 else if n < 5 then fieldAt d (0xD0 + 6 * n) 6 else 0,
    new := Tally.zero }

/-- Legs that a descriptor has room for. -/
def legRoom (slots : Nat) : Nat := if slots = 2 then 3 else 8

/-- No two legs name the same index. -/
def distinctLegs : List Leg → Bool
  | [] => true
  | l :: t => t.all (fun k => tidIndex k.tid != tidIndex l.tid) && distinctLegs t

/-- The legs of a POST. -/
def Work.legs (w : Work) : List Leg := (List.range (postLegs w.aux)).map (postLeg w.desc w.nslots)

/-- The form rules of R150. -/
def Work.postForm (w : Work) : Bool :=
  let n := postLegs w.aux
  let spare := (List.range (legRoom w.nslots)).drop n |>.map (postLeg w.desc w.nslots)
  let count := if w.nslots = 2 then decide (1 ≤ n) && decide (n ≤ 3) else decide (4 ≤ n) && decide (n ≤ 8)
  count && spare.all (fun l => l.amount == 0 && l.tid == 0 && l.expect == 0) && distinctLegs w.legs &&
    (!postAdj w.aux || n == 1) && decide (w.aux < 64) && w.zeroFrom (if w.nslots = 2 then 0x6A else 0xEE) (64 * w.nslots - 16)

/-- SCALE of an attribute word is 0 to 9, its reserved bits and bit 3 are zero (R108, R114). -/
def attrOk (attr : Nat) : Bool := bits attr 3 3 == 0 && decide (bits attr 7 4 ≤ 9) && bits attr 15 8 == 0

/-- Check 1 of R115. -/
def Work.adminForm (w : Work) : Bool :=
  w.aux == 0 && (if w.opcode == 0x2012 then w.zeroFrom 0x1E 0x30 else attrOk (w.field 0x1E 2) && w.zeroFrom 0x40 0x70)

/-- Checks 1 to 3 of R152 and R115 (the header apart): failing check and status. -/
def State.postEarly (s : State) (w : Work) : Option (Nat × Status) :=
  if !(if w.opcode == 0x2000 then w.postForm else w.adminForm) then some (1, .malformed)
  else
    match (s.bookAt w.slice).postFail with
    | some st => some (2, st)
    | none => (s.sessionFail w.session w.slice).map (fun st => (3, st))

/-- A posting or tally operation passes checks 1 to 3 and is held for admission, or ends. -/
def State.presentPosting (s : State) (w : Work) : State :=
  match s.postEarly w with
  | some (k, st) => s.refuse w k st
  | none => s.modWork w.id (fun v => { v with phase := .held, heldAt := s.now })

/-- Postings and tally operations of a ring are presented in ring order, whatever their opcodes (R160). -/
def State.postFirst (s : State) (w : Work) : Bool :=
  !s.work.any (fun v => v.ring == w.ring && decide (v.id < w.id) && v.isPosting && v.isRouted)

/-- The posting of a ring with an opcode is presented when it comes next. -/
def State.onPosting (s : State) (ring opcode : Nat) : State :=
  s.onStart ring opcode (fun w => if s.postFirst w then s.presentPosting w else s)

/-- POST (R152). -/
def execPost (ring : Nat) (s : State) : Host.Outcome State Fault Refusal := .next (s.onPosting ring 0x2000)
/-- TALLY_OPEN (R115). -/
def execTallyOpen (ring : Nat) (s : State) : Host.Outcome State Fault Refusal := .next (s.onPosting ring 0x2010)
/-- TALLY_SET (R115). -/
def execTallySet (ring : Nat) (s : State) : Host.Outcome State Fault Refusal := .next (s.onPosting ring 0x2011)
/-- TALLY_CLOSE (R115). -/
def execTallyClose (ring : Nat) (s : State) : Host.Outcome State Fault Refusal := .next (s.onPosting ring 0x2012)

/-! Admission (R159-R161, R199). -/

/-- What an opcode of the family does. -/
def kindOf (opcode : Nat) : EntryKind :=
  match opcode with
  | 0x2010 => .open_ | 0x2011 => .set | 0x2012 => .close | _ => .post

/-- Entries of the journal record of a piece of work (R189). -/
def Work.recordLegs (w : Work) : Nat :=
  match w.opcode with
  | 0x2010 => 2 | 0x2011 => 2 | 0x2012 => 1 | _ => postLegs w.aux

/-- The receipt destination: in the ring's receipt area, or in the core's mailbox (R174, R177). -/
def State.rcptAddr (s : State) (w : Work) : Nat :=
  if w.isApplet then fieldAt (w.input.headD []) 0 4 else (s.sqAt w.ring).rcptBase + 128 * w.slot

/-- The brine entry of a piece of work. -/
def State.entryOf (s : State) (w : Work) : Entry :=
  let x := s.sessionAt w.session
  let post := w.opcode == 0x2000
  let l : Leg := { tid := w.field 0x10 8, amount := 0, expect := w.field 0x18 6, new := Tally.zero }
  { serial := s.nextId, src := if w.isApplet then w.ring - 65536 else w.id, applet := w.isApplet, slice := w.slice, book := w.slice,
    gen := w.gen, kind := kindOf w.opcode, legs := if post then w.legs else [l], attr := BitVec.ofNat 16 (w.field 0x1E 2),
    floor := imageAt w.desc 0x20, ceiling := imageAt w.desc 0x30, adj := post && postAdj w.aux,
    rcpt := post && postRcpt w.aux, dflag := w.flagD, session := w.session, skey := x.key,
    rkey := if x.hasRcpt then x.rcptKey else [], rights := x.attr, body := w.desc.take (64 * w.nslots - 16),
    mac := bytesAt w.desc (64 * w.nslots - 16) 16, ring := w.ring % 65536, digest := sha256 w.desc,
    rcptAddr := s.rcptAddr w, rcptEpoch := none, admitted := s.now, vLeft := if w.nslots = 4 then 2 else 1, vRes := none,
    stage := .fetch, redone := false, reserved := reservation w.recordLegs, verdict := none, stands := false }

/-- Bytes reserved by the TALLY_ADJUSTs of a book that have been admitted and have not ended (R199). -/
def State.adjustsReserved (s : State) (book : Nat) : Nat :=
  ((s.work.filter (fun w => w.slice == book && w.opcode == 0x1011 && !w.isDone)).map Work.reserved).sum

/-- Room of a book's journal region (R199). -/
def State.roomOf (s : State) (book : Nat) : Nat := (s.bookAt book).room - s.adjustsReserved book

/-- The journal region of the book has room for a posting (R199). -/
def State.roomFor (s : State) (book legs : Nat) : Bool :=
  decide (reservation legs + (s.bookAt book).adjReserve * 160 ≤ s.roomOf book)

/-- The posting is held for want of room in its journal region: JRNL_STATUS.FULL (R200). -/
def State.shortOfRoom (s : State) (w : Work) : Bool :=
  w.isHeld && w.isPosting && w.fullSince.isSome && !s.roomFor w.slice w.recordLegs

/-- Entries that a slice holds. -/
def State.entriesOf (s : State) (slice : Nat) : Nat := (s.brine.entries.filter (fun e => e.slice == slice)).length

/-- Entries of the window, and of one slice (R159, R160). -/
def windowSize : Nat := 1024
def sliceEntries : Nat := 256

/-- Postings that arrived before this boundary and are held, in the order of R160. -/
def State.heldPostings (s : State) : List Work :=
  (s.work.filter (fun w => w.isHeld && w.isPosting && decide (w.heldAt < s.now))) |> sortBy (fun a b =>
    decide (a.heldAt < b.heldAt) ||
      (a.heldAt == b.heldAt && (decide (a.ring < b.ring) || (a.ring == b.ring && decide (a.id ≤ b.id)))))

/-- A posting of a ring is held: it waits for room since this grain. -/
def State.noteFull (s : State) (w : Work) (full : Bool) : State :=
  let s := s.modWork w.id (fun v => { v with fullSince := if full then some (v.fullSince.getD s.now) else none })
  if full then s.modBook w.slice (fun b => { b with fullSeen := true }) else s

/-- Progress of one admission boundary: rings held, whether a posting was held for want of an entry. -/
structure Admitting where
  st : State
  rings : List Nat
  want : Bool

/-- An entry enters the window. -/
def State.admitEntry (s : State) (w : Work) : State :=
  let e := s.entryOf w
  let s := s.modBook w.slice (fun b => { b with reserved := b.reserved + e.reserved })
  let n := s.brine.entries.length + 1
  let s := { s with brine := { s.brine with entries := s.brine.entries ++ [e], peak := max s.brine.peak n },
                    sched := { s.sched with admitLeft := s.sched.admitLeft - 1 }, nextId := s.nextId + 1 }
  if w.isApplet then s.dropWork w.id
  else s.modWork w.id (fun v => { v with phase := .active 1, admitted := some s.now, fullSince := none })

/-- One held posting at an admission boundary. One held for want of room stays so while room is short, whatever else holds it
too (R200). "For want of an entry" (R186) covers the limit of 256 entries of a slice:
the model's choice (log entry 53). -/
def admitOne (a : Admitting) (w : Work) : Admitting :=
  let s := a.st
  let stays : State := s.noteFull w (w.fullSince.isSome && !s.roomFor w.slice w.recordLegs)
  let hold : Admitting := { a with rings := w.ring :: a.rings, st := stays }
  if a.rings.contains w.ring then { a with st := stays }
  else if s.sched.admitLeft = 0 || s.sessionBusy w.session then hold
  else
    match s.postEarly w with
    | some (k, st) => { a with st := s.refuse w k st }
    | none =>
      if windowSize ≤ s.brine.entries.length then { hold with want := true }
      else if sliceEntries ≤ s.entriesOf w.slice then { hold with want := true }
      else if !s.roomFor w.slice w.recordLegs then { hold with st := s.noteFull w true }
      else { a with st := s.admitEntry w }

/-! Stage F (R163, R166, R184). -/

/-- The youngest earlier entry of the book that names an index. -/
def sourceOf (earlier : List Entry) (book index : Nat) : Option Entry :=
  earlier.reverse.find? (fun e => e.book == book && e.legs.any (fun l => tidIndex l.tid == index))

/-- Entries ahead of an entry in admission order. -/
def State.ahead (s : State) (key : Nat × Bool) : List Entry := s.brine.entries.takeWhile (fun e => e.key != key)

/-- The entry with a key. -/
def State.entryAt (s : State) (key : Nat × Bool) : Option Entry := s.brine.entries.find? (fun e => e.key == key)

/-- Change an entry. -/
def State.modEntry (s : State) (key : Nat × Bool) (f : Entry → Entry) : State :=
  { s with brine := { s.brine with entries := s.brine.entries.map (fun e => if e.key == key then f e else e) } }

/-- A TALLY_ADJUST admitted at or before a boundary on a tally has not updated the Pan (R184). -/
def State.adjustPending (s : State) (book index admitted : Nat) : Bool :=
  s.work.any (fun w => w.slice == book && w.opcode == 0x1011 && !w.isDone && tidIndex (w.field 0x10 8) == index &&
    (match w.admitted with | some g => decide (g ≤ admitted) | none => false))

/-- Lookup of one leg: ready, waiting, or the status that ends the entry. -/
def State.fetchLeg (s : State) (e : Entry) (earlier : List Entry) (l : Leg) : State × Lookup :=
  if !indexOk (s.bookAt e.book).cap l.tid then (s, .ready)
  else if s.adjustPending e.book (tidIndex l.tid) e.admitted then (s, .waiting)
  else
    match sourceOf earlier e.book (tidIndex l.tid) with
    | some src => (s, if src.fetched then .ready else .waiting)
    | none => s.lookup e.book (tidBlock l.tid)

/-- What the lookups of legs came to: the state, the legs with those now found marked, how many those are, and the first
failure with its leg. -/
structure Fetching where
  st : State
  legs : List Leg
  found : Nat
  failed : Option (Nat × Status)

/-- A leg that was looked up stands before the rest. -/
def Fetching.cons (q : Fetching) (l : Leg) (ready : Bool) : Fetching :=
  { q with legs := (if ready then { l with got := true } else l) :: q.legs, found := q.found + flag ready }

/-- Lookups of the legs not yet fetched (R163: the other legs are fetched at once). -/
def State.fetchLegs (s : State) (e : Entry) (earlier : List Entry) : Nat → List Leg → Fetching
  | _, [] => { st := s, legs := [], found := 0, failed := none }
  | i, l :: t =>
    if l.got then (s.fetchLegs e earlier (i + 1) t).cons l false
    else
      let r := s.fetchLeg e earlier l
      match r.2 with
      | .failed st => { st := r.1, legs := l :: t, found := 0, failed := some (i, st) }
      | .ready => (r.1.fetchLegs e earlier (i + 1) t).cons l true
      | .waiting => (r.1.fetchLegs e earlier (i + 1) t).cons l false

/-- The log entry of a refused entry; that of a service call names no descriptor (R153, R177, R575). -/
def State.logEntry (s : State) (e : Entry) (check : Nat) (st : Status) : State :=
  if e.applet then
    s.plog { unit := unitOf 0x2000, event := 0x01, check := check, status := statusCode st, grain := s.now, slice := e.slice,
             ring := appletRing e.src, tag := 0, opcode := 0x2000, slot := 0, detail := 0 }
  else
    match s.workAt e.src with
    | some w => s.plogWork w 0x01 check st 0
    | none => s

/-- A refusal of an entry: logged, counted, handed on (R153, R186). -/
def State.refuseEntry (s : State) (e : Entry) (check leg : Nat) (st : Status) : State :=
  let s := if e.kind == .post then { s with brine := { s.brine with refused := s.brine.refused + 1 } } else s
  let s := if refusalLogged st then s.logEntry e check st else s
  (s.dropEntries (fun x => x.key == e.key)).endEntry e st (refusalResult check leg) true

/-- Stage F of an entry: the legs that are found take their fetch ports in one grain (R162, R163). That a younger entry may
take ports that are too few for an older one is the model's choice (log entry 84). -/
def State.fetchEntry (s : State) (e : Entry) : State :=
  let r := s.fetchLegs e (s.ahead e.key) 0 e.legs
  let s := r.st
  match r.failed with
  | some (leg, st) => (s.dropEntries (fun x => x.key == e.key)).endEntry e st (loadFailResult st e.idCheck leg) true
  | none =>
    if 0 < r.found && decide (r.found ≤ s.sched.portsLeft) then
      let s := { s with sched := { s.sched with
        portsLeft := s.sched.portsLeft - r.found, ports := s.sched.ports ++ List.replicate r.found e.key } }
      s.modEntry e.key (fun x => { x with legs := r.legs })
    else s

/-- The entry waits in stage F for a leg. -/
def Entry.inFetch (e : Entry) : Bool := e.stage == .fetch && !e.fetched

/-- Every entry that waits in stage F looks its legs up, in admission order: a fetch that waited for room comes before
those of later entries (R119). -/
def State.fetchWaiting (s : State) : State :=
  (s.brine.entries.map Entry.key).foldl (fun s k =>
    match s.entryAt k with
    | some e => if e.inFetch then s.fetchEntry e else s
    | none => s) s

/-- POSTING_ADMISSION: the held postings in order; those admitted enter stage F in the same grain. -/
def State.admitPostings (s : State) : State :=
  let a := s.heldPostings.foldl admitOne { st := s, rings := [], want := false }
  let s := if a.want then { a.st with brine := { a.st.brine with held := a.st.brine.held + 1 } } else a.st
  s.fetchWaiting

/-- POSTING_ADMISSION: once at a boundary. -/
def execPostingAdmission (s : State) : Host.Outcome State Fault Refusal :=
  .next (if s.serviceable && !s.sched.admitDone then
    { s.admitPostings with sched := { s.admitPostings.sched with admitDone := true } } else s)

/-- A held posting has waited FULL_WAIT pounds for room (R200). -/
def State.heldFull (s : State) (ring : Nat) : State :=
  match s.oldest ring (fun w => w.isHeld && w.isPosting) with
  | none => s
  | some w =>
    let n := (s.bookAt w.slice).fullWait
    match w.fullSince with
    | none => s
    | some g =>
      if n = 0 || decide (s.now < g + n * pound) || !s.shortOfRoom w then s
      else s.finish w.id .journalFull (zeros 16)

/-- POSTING_HELD_JOURNAL_FULL. -/
def execPostingHeldJournalFull (ring : Nat) (s : State) : Host.Outcome State Fault Refusal := .next (s.heldFull ring)

/-! Stage V (R152 checks 4 to 6, R154). -/

/-- Checks 4 to 6: failing check and status. -/
def State.verifyEntry (s : State) (e : Entry) : Option (Nat × Status) :=
  let post := e.kind == .post
  let right := if post then attrPost else attrTallyAdmin
  let q := s.sqAt e.ring
  let area := if e.applet then decide (0x20000 ≤ e.rcptAddr) && decide (e.rcptAddr + 128 ≤ 0x21000) else
    s.rangeOk e.slice q.rcptBase (128 * q.size) true
  firstFail [
    (e.applet || cmac e.skey e.body == e.mac, (4, .auth)),
    (e.rights.getLsbD right && e.rights.getLsbD 17 && (!e.adj || e.rights.getLsbD attrAdj) &&
      (!e.rcpt || !e.rkey.isEmpty), (5, .policy)),
    (!e.rcpt || e.applet || q.rcptEn, (6, .state)),
    (!e.rcpt || area, (6, .access))]

/-- The first part of a receipt write that fails: its check point is check 6 (R306). -/
def State.rcptPart (s : State) (e : Entry) : Option (Nat × Verdict) :=
  if e.rcpt && !e.applet && (s.verifyEntry e).isNone then
    s.failingPart true (masterCq (s.sqAt e.ring).cq) e.slice e.rcptAddr 128
  else none

/-- Stage V ends: the use is charged to the session whose key was taken (R154). -/
def State.endVerify (s : State) (e : Entry) : State :=
  let x := s.sessionAt e.session
  let s := if !e.applet && x.isOpen && x.key == e.skey then s.chargeSession e.session else s
  let bad := s.rcptPart e
  let r := (s.verifyEntry e).or (bad.map (fun _ => (6, .access)))
  let s := match bad with
    | some (a, v) => s.violation (masterCq (s.sqAt e.ring).cq) e.slice a true true v
    | none => s
  let epoch := if e.rcpt && r.isNone && !e.applet then some (s.sliceAt e.slice).winEpoch else none
  s.modEntry e.key (fun y => { y with vRes := some r, rcptEpoch := epoch })

/-! Stage C (R162, R166). -/

/-- The record that a leg finds, and the entry it comes from: none while neither is there. -/
def State.oldRecord (s : State) (e : Entry) (earlier : List Entry) (l : Leg) : Option (Tally × Option (Nat × Bool)) :=
  if !indexOk (s.bookAt e.book).cap l.tid then some (Tally.zero, none)
  else
    match sourceOf earlier e.book (tidIndex l.tid) with
    | some src =>
      if src.stage == .fetch then none
      else (src.legs.find? (fun k => tidIndex k.tid == tidIndex l.tid)).map (fun k => (k.new, some src.key))
    | none => (s.record e.book (tidIndex l.tid)).map (fun t => (t, none))

/-- Budgets of stage C in one grain: compute units left, and the depth in its chain of each entry computed. -/
structure Computing where
  st : State
  units : Nat
  depth : List ((Nat × Bool) × Nat)

/-- Longest chain of dependent legs in one grain (R166). -/
def chainLimit : Nat := 16

/-- Each leg keeps the entry whose record it took. -/
def Entry.linked (e : Entry) (deps : List (Option (Nat × Bool))) : Entry :=
  { e with legs := List.zipWith (fun l d => { l with dep := d }) e.legs deps }

/-- One entry whose legs have been fetched enters stage C. -/
def computeEntry (c : Computing) (e : Entry) : Computing :=
  let s := c.st
  let olds := (e.legs.map (s.oldRecord e (s.ahead e.key))).filterMap id
  let deps := olds.filterMap Prod.snd
  let d := 1 + (deps.map (fun k => ((c.depth.find? (fun x => x.1 == k)).map Prod.snd).getD 0)).foldl max 0
  let lost (l : Leg) : Bool :=
    (sourceOf (s.ahead e.key) e.book (tidIndex l.tid)).isNone && (s.oldRecord e (s.ahead e.key) l).isNone
  if e.legs.any lost then
    { c with st := s.modEntry e.key (fun x => { x with legs := e.legs.map (fun l => if lost l then l.drop else l) }) }
  else if olds.length ≠ e.legs.length || decide (c.units < e.legs.length) || decide (chainLimit < d) then c
  else
    let cap := (s.bookAt e.book).cap
    let s := { s with sched := { s.sched with units := s.sched.units ++ List.replicate e.legs.length e.key } }
    { st := s.modEntry e.key (fun x => (x.compute cap (olds.map Prod.fst)).linked (olds.map Prod.snd)),
      units := c.units - e.legs.length, depth := (e.key, d) :: c.depth }

/-! Stage R and the boundary (R161). -/

/-- The lowest-numbered failure of checks 4 to 14: check, leg, status. -/
def Entry.outcome (e : Entry) : Option (Nat × Nat × Status) :=
  match e.vRes with
  | some (some (k, st)) => some (k, 0xFF, st)
  | _ => e.verdict

/-- Stage V of one entry at a boundary. -/
def State.verifyStep (s : State) (e : Entry) : State :=
  if e.vLeft = 0 then s
  else
    let s := s.modEntry e.key (fun x => { x with vLeft := x.vLeft - 1 })
    if e.vLeft = 1 && e.vRes.isNone then s.endVerify e else s

/-- One entry passes a boundary. -/
def boundaryEntry (c : Computing) (key : Nat × Bool) : Computing :=
  match c.st.entryAt key with
  | none => c
  | some e0 =>
    let c := { c with st := c.st.verifyStep e0 }
    match c.st.entryAt key with
    | none => c
    | some e =>
      match e.stage with
      | .fetch => if e.fetched then computeEntry c e else { c with st := c.st.fetchEntry e }
      | .compute =>
        if e.vRes.isSome then { c with st := c.st.modEntry key (fun x => { x with stage := .rules }) } else c
      | .rules =>
        (match e.outcome with
         | some (k, leg, st) => { c with st := c.st.refuseEntry e k leg st }
         | none => { c with st := c.st.modEntry key (fun x => { x with stage := .commit }) })
      | .commit => c

/-- The brine window at a grain boundary, oldest entry first. -/
def State.brineGrain (s : State) : State :=
  ((s.brine.entries.map Entry.key).foldl boundaryEntry { st := s, units := 16, depth := [] }).st

/-! Stage K (R164, R165, R169). -/

/-- The entry may commit at this boundary. One whose commit stands commits whatever its book has become (R238). -/
def State.mayCommit (s : State) (e : Entry) : Bool :=
  let b := s.bookAt e.book
  e.stage == .commit && !s.adjustInStage2 e.book && decide (1 ≤ s.sched.commitsLeft) && decide (e.legs.length ≤ s.sched.commitLegs) &&
    !s.sched.strandsUsed.contains (e.book, (b.lseq + 1) % b.strands) && ((!b.commitsHeld && b.st == .open_) || e.stands)

/-- A TALLY_READ admitted before an entry that commits keeps the record it is ordered before (R179, R184). -/
def State.snapReads (s : State) (book index admitted : Nat) (old : Tally) : State :=
  { s with work := s.work.map (fun w =>
      let before := match w.admitted with | some g => decide (g ≤ admitted) | none => false
      if w.slice == book && w.opcode == 0x1010 && !w.isDone && before && w.input.isEmpty &&
        tidIndex (w.field 0x10 8) == index then { w with input := [old.bytes] } else w) }

/-- The records of an entry go into the Pan. -/
def State.commitLegs (s : State) (e : Entry) : State :=
  e.legs.foldl (fun s l =>
    let i := tidIndex l.tid
    (s.snapReads e.book i e.admitted ((s.record e.book i).getD Tally.zero)).setRecord e.book i l.new) s

/-- KIND of a record (R189). -/
def EntryKind.code (k : EntryKind) : Nat :=
  match k with
  | .post => 0x01 | .open_ => 0x03 | .set => 0x04 | .close => 0x05

/-- The entries of the record (R192). -/
def Entry.recordEntries (e : Entry) : List Bytes :=
  match e.kind with
  | .post => e.legs.map (fun l => recordEntry l.tid l.new.version 0 l.amount)
  | .close => e.legs.map (fun l => recordEntry l.tid l.new.version l.new.attr.toNat (mkImage false 0))
  | _ =>
    (e.legs.map (fun l => [recordEntry l.tid l.new.version l.new.attr.toNat l.new.floor,
      recordEntry l.tid l.new.version l.new.attr.toNat l.new.ceiling])).flatten

/-- The record of an entry. -/
def Entry.info (e : Entry) : RecordInfo :=
  { kind := e.kind.code, session := e.session, ring := e.ring,
    flags := flag e.adj + 2 * flag e.dflag + 4 * flag e.rcpt + 8 * flag e.applet, digest := e.digest,
    entries := e.recordEntries, prime := false, reserved := e.reserved }

/-- The result of a commit (R116, R170). -/
def Entry.result (e : Entry) (lseq : Nat) : Bytes :=
  match e.kind with
  | .post => leBytes 8 lseq ++ e.legs.map (fun l => BitVec.ofNat 8 l.new.version)
  | _ => leBytes 8 lseq ++ (e.legs.map (fun l => leBytes 6 l.new.version)).flatten

/-- The receipt (R175). -/
def Entry.receipt (e : Entry) (b : Book) (lseq grain : Nat) : Bytes :=
  let body := leBytes 2 0x10 ++ leBytes 1 e.legs.length ++ leBytes 1 (flag e.adj + 2 * flag e.dflag) ++
    leBytes 4 b.incarn ++ leBytes 8 b.uid ++ leBytes 8 lseq ++ leBytes 8 grain ++ e.digest ++
    fit 48 (e.legs.map (fun l => leBytes 6 l.new.version)).flatten
  body ++ cmac e.rkey body

/-- The outcome of a commit for its descriptor or its core (R170, R176, R177); core 32 stands for an invocation that has
ended (R350). -/
def State.commitOutcome (s : State) (e : Entry) (lseq : Nat) : State :=
  let res := e.result lseq
  let rc := e.receipt (s.bookAt e.book) lseq s.now
  if e.applet && decide (32 ≤ e.src) then s
  else if e.applet then
    let s := s.modCore e.src (fun c =>
      { c with await := some (e.book, lseq, e.dflag), inv := c.inv.map (fun i => { i with posts := i.posts + 1 }),
               output := if e.rcpt then [(e.rcptAddr, rc)] else [] })
    s.answerCore e.src (svcStatus .ok false e.redone e.rcpt) (fit 16 res)
  else
    let receipt := match e.rcptEpoch with
      | some k => if e.rcpt then some (e.rcptAddr, k, rc) else none
      | none => none
    let s := s.modWork e.src (fun w => { w with commit := some (e.book, lseq), redone := e.redone, receipt := receipt })
    let s := s.finish e.src .ok res
    s.modWork e.src (fun w => { w with cpl := w.cpl.map (fun c => { c with rcpt := e.rcpt }) })

/-- An entry commits. -/
def State.commitEntry (s : State) (e : Entry) : State :=
  let b := s.bookAt e.book
  let lseq := b.lseq + 1
  let s := ((s.commitLegs e).commitRecord e.book e.info)
  let s := { s with
    brine := { s.brine with
      entries := (s.brine.entries.filter (fun (x : Entry) => x.key != e.key)).map (Entry.unlink · e.key), commits := s.brine.commits + 1 },
    sched := { s.sched with commitsLeft := s.sched.commitsLeft - 1, commitLegs := s.sched.commitLegs - e.legs.length,
                            strandsUsed := (e.book, lseq % b.strands) :: s.sched.strandsUsed } }
  s.commitOutcome e lseq

/-- The oldest entry of a book commits when it may. -/
def State.commitBook (s : State) (book : Nat) : State :=
  match s.brine.entries.find? (fun e => e.book == book) with
  | none => s
  | some e => if s.mayCommit e then s.commitEntry e else s

/-- POSTING_COMMIT. -/
def execPostingCommit (book : Nat) (s : State) : Host.Outcome State Fault Refusal := .next (s.commitBook book)

end Sys2Proof.Machine
end

