-- ==== Sys2Proof/Machine/Prime.lean ====
section
/-! DEFINITION. Prime operations (R30, R59-R65, R178-R184, R412-R414, R489). -/

namespace Sys2Proof.Machine
open Sys2Proof

/-- A prime descriptor or class-0 service call. -/
def Work.isPrime (w : Work) : Bool := classOf w.opcode == 0 && w.opcode != 0

/-- Opcodes of counters and of tallies. -/
def Work.isCounterOp (w : Work) : Bool := w.opcode / 2 == 0x800
def Work.isTallyOp (w : Work) : Bool := w.opcode / 2 == 0x808

/-- What R61 keeps apart: a counter, or a tally of a book. -/
def Work.primeKey (w : Work) : Option (Nat × Nat × Nat) :=
  if w.isCounterOp then some (0, 0, w.field 0x10 2)
  else if w.isTallyOp then some (1, w.slice, tidIndex (w.field 0x10 8))
  else none

/-- Largest payload within the limit (R46). -/
def primeLimit (opcode : Nat) : Nat :=
  match opcode with
  | 0x1000 => 16 | 0x1001 => 16 | 0x1010 => 16 | 0x1011 => 32 | _ => 64

/-- Additional steps (R46). -/
def Work.extraSteps (w : Work) : Nat := (w.len - primeLimit w.opcode + 63) / 64

/-! Checks made at admission (R413, R181, R489). -/

/-- TLEN of R412, N of R414. -/
def Work.tlen (w : Work) : Nat := bits w.aux 4 0
def Work.cmpLen (w : Work) : Nat := bits w.aux 5 0

/-- Check 1 of each prime opcode. -/
def Work.primeForm (w : Work) : Bool :=
  let stop := 64 * w.nslots
  match w.opcode with
  | 0x1010 => decide (w.aux < 4) && w.zeroFrom 0x18 0x20 && w.zeroFrom 0x30 0x40
  | 0x1011 => w.aux == 0 && w.zeroFrom 0x1E 0x20
  | 0x1020 => decide (w.aux < 32) && decide (4 ≤ w.tlen) && decide (w.tlen ≤ 16) && w.zeroFrom (0x10 + w.len) stop
  | 0x1021 =>
    decide (w.aux < 32) && decide (4 ≤ w.tlen) && decide (w.tlen ≤ 16) && w.zeroFrom (0x10 + w.tlen) 0x20 &&
      w.zeroFrom (0x10 + w.len) stop
  | 0x1030 =>
    decide (w.aux < 64) && decide (1 ≤ w.cmpLen) && decide (w.cmpLen ≤ 32) && w.len == 2 * w.cmpLen &&
      w.nslots == (if w.cmpLen ≤ 24 then 1 else 2) && w.zeroFrom (0x10 + w.len) stop
  | _ => w.aux == 0 && w.zeroFrom 0x12 0x18 && w.zeroFrom 0x30 0x40 && decide (w.field 0x10 2 < 4096)

/-- Where the MAC of an opcode lies, as the number of bytes it ends; 0 when it has none. -/
def primeMac (opcode : Nat) : Nat :=
  match opcode with
  | 0x1000 => 0x30 | 0x1001 => 0x30 | 0x1010 => 0x30 | 0x1011 => 0x40 | _ => 0

/-- The key allows the opcode (R383). -/
def primeRight (attr : BitVec 32) (opcode : Nat) : Bool :=
  attr.getLsbD 16 &&
    (match opcode with
     | 0x1000 => attr.getLsbD attrCounter
     | 0x1001 => attr.getLsbD attrCounter
     | 0x1010 => attr.getLsbD attrTallyRead
     | 0x1011 => attr.getLsbD attrTallyAdjust && attr.getLsbD attrAdj
     | _ => attr.getLsbD attrMac)

/-- Numbers of the session, MAC and key checks of an opcode. -/
def primeChecks (w : Work) : Nat × Nat × Nat := if w.isTallyOp then (3, 4, 5) else if w.isCounterOp then (2, 3, 4) else (2, 3, 3)

/-- The checks of a prime operation that need no record: the state charged, the failing check. -/
def State.primeEarly (s : State) (w : Work) : State × Option (Nat × Status) :=
  let x := s.sessionAt w.session
  let (ks, km, kr) := primeChecks w
  let n := primeMac w.opcode
  match firstFail [(w.primeForm, (1, Status.malformed)), (!w.isTallyOp || (s.bookAt w.slice).postFail.isNone,
      (2, ((s.bookAt w.slice).postFail).getD .state))] with
  | some f => (s, some f)
  | none =>
    match s.sessionFail w.session w.slice with
    | some st => (s, some (ks, st))
    | none =>
      if w.opcode == 0x1030 then (s, none)
      else
        let s := if w.isApplet then s else s.chargeSession w.session
        (s, firstFail [(n == 0 || w.isApplet || w.macOk x.key n, (km, .auth)), (primeRight x.attr w.opcode, (kr, .policy)),
          (!w.isCounterOp || s.recordOk partCounters recOwners, (5, .fault)),
          (!w.isCounterOp || (s.counterAt (w.field 0x10 2)).owner == w.slice, (5, .policy))])

/-- The key handle of a class-0 MAC call (R349): it stands in the first bytes of the descriptor that the call forms. -/
def Work.callKey (w : Work) : Option KeySrc :=
  if w.isApplet && (w.opcode == 0x1020 || w.opcode == 0x1021) then keySrcOf (w.field 0 4) w.session (some (w.ring - 65536)) else none

/-- Checks 2 and 3 of R413 for the key that a MAC call names. -/
def State.callEarly (s : State) (w : Work) (k : KeySrc) : State × Option (Nat × Status) :=
  match s.keyFail k w.slice with
  | some st => (s, some (2, st))
  | none =>
    let v := s.keyView k w.slice
    (s.chargeKey k, firstFail [(decide (v.type ≤ 3) && attrAllows v.attr attrMac 0 v.slice w.slice, (3, .policy))])

/-- The checks of an operation that need no record, and the key it takes. -/
def State.primeTake (s : State) (w : Work) : (State × Option (Nat × Status)) × Bytes :=
  match w.callKey with
  | some k => (s.callEarly w k, (s.keyView k w.slice).key)
  | none => (s.primeEarly w, (s.sessionAt w.session).key)

/-- A re-derivation of the session whose key the operation takes is in progress (R63, R400). -/
def State.keyBusy (s : State) (w : Work) : Bool :=
  match w.callKey with
  | some (.session h) => s.sessionBusy h
  | some _ => false
  | none => s.sessionBusy w.session

/-! Condition 3 (R63, R137, R184). -/

/-- An uncommitted entry admitted before the operation names its tally. -/
def State.postingBefore (s : State) (w : Work) (admitted : Nat) : Bool :=
  s.brine.entries.any (fun e => e.book == w.slice && decide (e.admitted < admitted) &&
    e.legs.any (fun l => tidIndex l.tid == tidIndex (w.field 0x10 8)))

/-- An earlier prime operation on the same counter or tally has been admitted and has not ended (R61). -/
def State.primeBefore (s : State) (w : Work) (admitted : Nat) : Bool :=
  w.primeKey.isSome && s.work.any (fun v => v.id != w.id && v.primeKey == w.primeKey && !v.isDone &&
    (match v.admitted with | some g => decide (g < admitted) || (g == admitted && decide (v.id < w.id)) | none => false))

/-- An earlier prime operation on the same counter or tally waits under condition 3. -/
def State.primeWaiting (s : State) (w : Work) (admitted : Nat) : Bool :=
  w.primeKey.isSome && s.work.any (fun v => v.id != w.id && v.primeKey == w.primeKey && v.activeAt 0 &&
    (match v.admitted with | some g => decide (g < admitted) | none => false))

/-- The line is dirty while phase 2 of a checkpoint lasts (R137). -/
def State.phase2Dirty (s : State) (w : Work) : Bool :=
  (s.bookAt w.slice).commitsHeld && ((s.blockAt w.slice (tidBlock (w.field 0x10 8))).map PanBlock.dirty).getD false

/-- The tally is at hand: ready, waiting, or the load has failed. -/
def State.primeTally (s : State) (w : Work) (admitted : Nat) : State × Lookup :=
  if s.primeWaiting w admitted then (s, .waiting)
  else if !w.isTallyOp || !indexOk (s.bookAt w.slice).cap (w.field 0x10 8) then (s, .ready)
  else if s.postingBefore w admitted || s.phase2Dirty w then (s, .waiting)
  else s.lookup w.slice (tidBlock (w.field 0x10 8))

/-- A condition of R63 is recorded. -/
def Work.late (w : Work) (k : Nat) : Work := if w.lateConds.contains k then w else { w with lateConds := w.lateConds ++ [k] }

/-- The operation stands in stage 1 of its lane. -/
def State.inStage1 (s : State) (w : Work) : Bool :=
  w.isPrime && w.activeAt 1 && (match w.admitted with | some g => decide (s.now ≤ g + w.extra) | none => false)

/-- The lowest lane whose stage 1 is free. -/
def State.freeLane (s : State) : Nat :=
  ((List.range 8).find? (fun l => s.work.all (fun v => v.lane != l || !s.inStage1 v))).getD 7

/-- The operation starts in its lane, `now` being the grain of its stage 1. -/
def State.primeRun (s : State) (w : Work) : State :=
  let l := s.freeLane
  s.modWork w.id (fun v =>
    { v with phase := .active 1, lane := l, extra := v.extraSteps + (s.now - v.admitted.getD s.now) })

/-- The operation waits under condition 3. -/
def State.primeWait (s : State) (w : Work) : State :=
  s.modWork w.id (fun v => { v.late 3 with phase := .active 0 })

/-- An admitted operation: its early checks, then its lane or its wait. During a re-derivation of the session it names, COMPARE
included, it waits (R63, R400). -/
def State.primeEnter (s : State) (w : Work) : State :=
  if s.keyBusy w && w.key.isEmpty && w.failed.isNone then s.primeWait w
  else
    let admitted := w.admitted.getD s.now
    let known := !w.key.isEmpty || w.failed.isSome
    let r := if known then (s, w.failed) else (s.primeTake w).1
    let key := if known then w.key else (s.primeTake w).2
    let s := r.1.modWork w.id (fun v => { v with key := key, failed := r.2 })
    if r.2.isSome then s.primeRun w
    else
      let t := s.primeTally w admitted
      match t.2 with
      | .ready => t.1.primeRun w
      | .waiting => t.1.primeWait w
      | .failed st =>
        (t.1.modWork w.id (fun v => { v.late 3 with failed := some (9, st) })).primeRun w

/-! Admission (R59-R61). -/

/-- Held prime work that may be presented, by ring number, in ring order. -/
def State.heldPrimes (s : State) : List Work :=
  (s.work.filter (fun w => w.isHeld && w.isPrime && s.mayBegin w)) |> sortBy (fun a b =>
    decide (a.ring < b.ring) || (a.ring == b.ring && decide (a.id ≤ b.id)))

/-- The slice is quiescing: its prime descriptors are presented as if L were set (R283). -/
def State.quiescing (s : State) (slice : Nat) : Bool := (s.sliceAt slice).st == .quiescing

/-- Coverage at this boundary (R59), of the descriptors that arrived before it. -/
def State.coverPrimes (s : State) : State :=
  (s.heldPrimes.filter (fun w => decide (w.heldAt < s.now))).foldl (fun s w =>
    let sl := s.sliceAt w.slice
    let covered := (s.work.filter (fun v => v.isHeld && v.isPrime && v.slice == w.slice && v.cover.isSome)).length
    if w.cover.isSome || sl.st != .active || decide (sl.tokLeft ≤ covered) then s
    else s.modWork w.id (fun v => { v with cover := some s.now })) s

/-- Place of held prime work in the order of R59, R61 and R283: those held a grain, covered ones by boundary, then L and
the slices that quiesce. -/
def State.primeRank (s : State) (w : Work) : Nat × Nat :=
  if s.now ≤ w.heldAt then (3, 0)
  else if s.quiescing w.slice then (if w.first then 0 else 2, s.now + 1)
  else
    match w.cover with
    | some g => (if w.first then 0 else 1, g)
    | none => if w.flagL then (if w.first then 0 else 2, s.now + 1) else (3, 0)

/-- The held prime work in that order. -/
def State.primeOrder (s : State) : List Work :=
  s.heldPrimes |> sortBy (fun a b =>
    let x := s.primeRank a
    let y := s.primeRank b
    decide (x.1 < y.1) || (x.1 == y.1 && (decide (x.2 < y.2) ||
      (x.2 == y.2 && (decide (a.ring < b.ring) || (a.ring == b.ring && decide (a.id ≤ b.id)))))))

/-- Progress of one presenting boundary: rings held, keys presented, operations presented. -/
structure Presenting where
  st : State
  keys : List (Nat × Nat × Nat)
  count : Nat

/-- An earlier prime descriptor of its ring is still held. -/
def State.primeBehind (s : State) (w : Work) : Bool :=
  s.work.any (fun v => v.ring == w.ring && decide (v.id < w.id) && v.isHeld && v.isPrime)

/-- Journal room that a TALLY_ADJUST needs: the reservation of a record of one entry (R181 check 15, R199). -/
def adjustBytes : Nat := reservation 1

/-- Admission of one operation: token, conditions 1, 2, 4 and 6, journal room (R199), stage 1. -/
def State.admitPrime (s : State) (w : Work) : State :=
  let sl := s.sliceAt w.slice
  let s := if w.cover.isSome then s.modSlice w.slice (fun x => { x with tokLeft := x.tokLeft - 1 }) else s
  let c1 := w.cover.isNone && sl.st != .quiescing
  let conds := (if c1 then [1] else []) ++ (if 0 < w.extraSteps then [2] else []) ++
    (if s.pwr.holdOk && !s.nv.wt then [] else [4]) ++ (if sl.st == .active then [] else [6])
  let s := { s with sched := { s.sched with lanesFree := s.sched.lanesFree - 1 } }
  let room := if w.opcode == 0x1011 && decide (adjustBytes ≤ s.roomOf w.slice) then adjustBytes else 0
  let s := s.modWork w.id (fun v =>
    { v with admitted := some s.now, lateConds := conds, extra := w.extraSteps, first := false, reserved := room })
  match s.workAt w.id with
  | none => s
  | some v => s.primeEnter v

/-- One operation at a presenting boundary. -/
def presentPrime (p : Presenting) (w : Work) : Presenting :=
  let s := p.st
  let clash := match w.primeKey with | some k => p.keys.contains k | none => false
  let keys := match w.primeKey with | some k => k :: p.keys | none => p.keys
  if (s.primeRank w).1 = 3 || s.primeBehind w || decide (8 ≤ p.count) || s.sched.lanesFree = 0 then p
  else if clash then { p with st := s.modWork w.id (fun v => { v with first := true }) }
  else { st := s.admitPrime w, keys := keys, count := p.count + 1 }

/-- A waiting operation whose wait has ended takes a lane (R64). -/
def resumePrime (p : Presenting) (w : Work) : Presenting :=
  let s := p.st
  let clash := match w.primeKey with | some k => p.keys.contains k | none => false
  if s.sched.lanesFree = 0 || clash then p
  else
    let t := s.primeEnter w
    let runs := ((t.workAt w.id).map (fun v => v.activeAt 1)).getD false
    if runs then
      { p with st := { t with sched := { t.sched with lanesFree := t.sched.lanesFree - 1 } },
               keys := match w.primeKey with | some k => k :: p.keys | none => p.keys }
    else { p with st := t }

/-- The boundaries of slots 0 to 18 admit prime operations, once each (R52, R59), ahead of the class-1 admissions of the
boundary (R184). Covered descriptors are presented first, so that R60 holds; then operations whose wait under condition 3
has ended take lanes, then uncovered descriptors: the order of the two last is the model's choice (log entry 54). -/
def State.primeAdmission (s : State) : State :=
  if !s.serviceable || s.now % scruple == 19 || s.sched.primeDone || s.sched.admitDone then s
  else
    let s := s.coverPrimes
    let order := s.primeOrder
    let covered (w : Work) : Bool := decide ((s.primeRank w).1 = 0) || decide ((s.primeRank w).2 ≤ s.now)
    let p := (order.filter covered).foldl presentPrime { st := s, keys := [], count := 0 }
    let waiting := p.st.work.filter (fun w => w.isPrime && w.activeAt 0)
    let p := waiting.foldl resumePrime p
    let p := (order.filter (fun w => !covered w)).foldl presentPrime p
    { p.st with sched := { p.st.sched with primeDone := true } }

/-- PRIME_ADMISSION. -/
def execPrimeAdmission (s : State) : Host.Outcome State Fault Refusal := .next s.primeAdmission

/-! Stage 2 (R30). -/

/-- Stage 2 of the operation has ended: boundary g + 2 for one admitted at boundary g. Until then nothing of it is visible
and a level-2 event squashes it (R30, R64). Operations on one counter or tally take effect in admission order (R61). -/
def State.stage2 (s : State) (w : Work) : Bool :=
  w.activeAt 1 && (match w.admitted with | some g => decide (g + 2 + w.extra ≤ s.now) && !s.primeBefore w g | none => false)

/-- The end of stage 2: a failed check ends the operation, else it is carried out. -/
def State.primeEnd (s : State) (w : Work) (f : Work → State) : State :=
  match w.failed with
  | some (k, st) => if k = 9 then s.refuseWith w k st (loadFailResult st 9 0) else s.refuse w k st
  | none => f w

/-- The oldest operation of a ring with an opcode whose stage 2 has ended is carried out. -/
def State.onPrime (s : State) (ring opcode : Nat) (f : Work → State) : State :=
  match s.oldest ring (fun w => w.opcode == opcode && s.stage2 w) with
  | none => s
  | some w => s.primeEnd w f

/-- The 32 bytes under the CMAC of a counter result (R489). -/
def counterMac (w : Work) (v : Nat) : Bytes :=
  (cmac w.key (ascii "SKAORA-C" ++ leBytes 2 (w.field 0x10 2) ++ leBytes 2 w.opcode ++ zeros 4 ++ bytesAt w.desc 0x18 8 ++
    leBytes 8 v)).take 8

/-- Checks 6 and 7 of R489, the increment, the result. -/
def State.counterOp (s : State) (w : Work) (incr : Bool) : State :=
  let n := w.field 0x10 2
  let c := s.counterAt n
  if c.stored.isNone then s.refuse w 6 .fault
  else if incr && c.value == counterMax then s.refuse w 7 .overflow
  else
    let s := if incr then s.incrCounter n else s
    let v := (s.counterAt n).value
    s.finish w.id .ok (leBytes 8 v ++ counterMac w v)

/-- COUNTER_READ (R489). -/
def execCounterRead (ring : Nat) (s : State) : Host.Outcome State Fault Refusal :=
  .next (s.onPrime ring 0x1000 (fun w => s.counterOp w false))

/-- COUNTER_INCR (R489). -/
def execCounterIncr (ring : Nat) (s : State) : Host.Outcome State Fault Refusal :=
  .next (s.onPrime ring 0x1001 (fun w => s.counterOp w true))

/-- The record of the tally of a prime operation: the one it is ordered before, or the Pan's. -/
def State.primeRecord (s : State) (w : Work) : Option Tally :=
  match w.input with
  | b :: _ => some (tallyAt b 0)
  | [] => if indexOk (s.bookAt w.slice).cap (w.field 0x10 8) then s.record w.slice (tidIndex (w.field 0x10 8)) else some Tally.zero

/-- The tally of an operation in stage 2. The state of the book was checked at the admission (R102); what takes the book
from OPEN ends an operation that still stands in stage 1 (R238). One whose block has left the Pan waits for it as in stage 1,
so in a book that has left OPEN it ends as there. -/
def State.primeBook (s : State) (w : Work) (f : Tally → State) : State :=
  match s.primeRecord w with
  | none =>
    match (s.bookAt w.slice).postFail with
    | some st => s.refuse w 2 st
    | none => s.primeWait w
  | some t => f t

/-- The 16 bytes of a TALLY_READ (R179). -/
def readGroup (t : Tally) (sel : Nat) : Bytes :=
  match sel with
  | 0 => imageBytes t.value | 1 => imageBytes t.floor | 2 => imageBytes t.ceiling | _ => bytesAt t.bytes 0x30 16

/-- TALLY_READ (R179, R181). -/
def State.tallyReadOp (s : State) (w : Work) : State :=
  s.primeBook w (fun t =>
    match idFail (s.bookAt w.slice).cap (w.field 0x10 8) t with
    | some st => s.refuseLeg w 9 0 st
    | none => s.finish w.id .ok (readGroup t (w.aux % 4)))

/-- TALLY_READ. -/
def execTallyRead (ring : Nat) (s : State) : Host.Outcome State Fault Refusal :=
  .next (s.onPrime ring 0x1010 s.tallyReadOp)

/-- The leg of a TALLY_ADJUST (R180). -/
def Work.adjustLeg (w : Work) : Leg :=
  { tid := w.field 0x10 8, amount := imageAt w.desc 0x20, expect := w.field 0x18 6, new := Tally.zero }

/-- TALLY_ADJUST (R181-R183). The commit takes hold at the end of its stage-2 grain, whose number the record carries (R183, R190,
R195). On a line of the fixed set of a checkpoint it waits for the end of phase 2 (R137).
POST_COMMITS does not count it: the model reads "tally operations" of R186 as those of the posting family (log entry
53). -/
def State.tallyAdjustOp (s : State) (w : Work) : State :=
  if s.phase2Dirty w then s.primeWait w
  else s.primeBook w (fun t =>
    let b := s.bookAt w.slice
    let l := w.adjustLeg
    match postVerdict b.cap true [(l, t)] with
    | some (k, leg, st) => s.refuseLeg w k leg st
    | none =>
      if s.roomOf w.slice + w.reserved < adjustBytes then s.refuse w 15 .journalFull
      else
        let new := legResult l t
        let i := tidIndex l.tid
        let info : RecordInfo :=
          { kind := 0x02, session := w.session, ring := w.ring, flags := 1, digest := sha256 w.desc,
            entries := [recordEntry l.tid new.version 0 l.amount], prime := true, reserved := 0, at_ := w.admitted.map (fun g => g + 1 + w.extra) }
        let s := (s.setRecord w.slice i new).commitRecord w.slice info
        let lseq := (s.bookAt w.slice).lseq
        (s.modWork w.id (fun v => { v with commit := some (w.slice, lseq) })).finish w.id .ok
          (leBytes 8 lseq ++ leBytes 6 new.version))

/-- TALLY_ADJUST. -/
def execTallyAdjust (ring : Nat) (s : State) : Host.Outcome State Fault Refusal :=
  .next (s.onPrime ring 0x1011 s.tallyAdjustOp)

/-- MAC_GEN: the MAC of the payload (R412). -/
def State.macGenOp (s : State) (w : Work) : State :=
  s.finish w.id .ok ((cmac w.key (bytesAt w.desc 0x10 w.len)).take w.tlen)

/-- MAC_GEN. -/
def execMacGen (ring : Nat) (s : State) : Host.Outcome State Fault Refusal :=
  .next (s.onPrime ring 0x1020 s.macGenOp)

/-- MAC_VERIFY: the MAC of the payload is compared (R412). -/
def State.macVerifyOp (s : State) (w : Work) : State :=
  let tag := (cmac w.key (bytesAt w.desc 0x20 (w.len - 16))).take w.tlen
  s.finish w.id (if tag == bytesAt w.desc 0x10 w.tlen then .ok else .auth) []

/-- MAC_VERIFY. -/
def execMacVerify (ring : Nat) (s : State) : Host.Outcome State Fault Refusal :=
  .next (s.onPrime ring 0x1021 s.macVerifyOp)

/-- COMPARE: two strings of N bytes (R414). -/
def State.compareOp (s : State) (w : Work) : State :=
  let same := bytesAt w.desc 0x10 w.cmpLen == bytesAt w.desc (0x10 + w.cmpLen) w.cmpLen
  s.finish w.id (if same then .ok else .auth) (leBytes 1 (flag same))

/-- COMPARE. -/
def execCompare (ring : Nat) (s : State) : Host.Outcome State Fault Refusal :=
  .next (s.onPrime ring 0x1030 s.compareOp)

/-- Stage 2 of a prime operation, by its opcode. -/
def State.primeOp (s : State) (w : Work) : State :=
  match w.opcode with
  | 0x1000 => s.counterOp w false
  | 0x1001 => s.counterOp w true
  | 0x1010 => s.tallyReadOp w
  | 0x1011 => s.tallyAdjustOp w
  | 0x1020 => s.macGenOp w
  | 0x1021 => s.macVerifyOp w
  | 0x1030 => s.compareOp w
  | _ => s

/-- The operations in lanes that meet a condition complete both steps, oldest first: at a power loss (R556 step 1), and a
TALLY_ADJUST in stage 2 at a life-cycle change (R238). -/
def State.finishLanes (s : State) (p : State → Work → Bool) : State :=
  (s.work.filter (fun w => w.isPrime && w.activeAt 1)).foldl (fun s w =>
    if p s w then s.primeEnd w s.primeOp else s) s

end Sys2Proof.Machine
end

