-- ==== Sys2Proof/Machine/Books.lean ====
section
/-! DEFINITION. Books (R99-R105, R143): CREATE, DELETE and their two later steps. -/

namespace Sys2Proof.Machine
open Sys2Proof

/-- Offset of BOOK_CTL. -/
def offBookCtl : Nat := 0x050004

/-- Place of a book command's log entries: the management unit. -/
def State.plogBook (s : State) (book err offset : Nat) : State := s.plogReg unitMgmt err book offset

/-- A write of BOOK_CTL.CMD (R103, R144). -/
def State.bookCtl (s : State) (cmd : Nat) : State :=
  let book := s.brine.bookSel
  let start (c : BookCmd) : State := s.modBook book (fun b => { b with cmd := some c, accepted := false, cmdErr := 0 })
  if (s.bookAt book).cmd.isSome then s
  else
    match cmd with
    | 1 => start .create
    | 2 => start .delete
    | _ => s.plogBook book 0 offBookCtl

/-- CREATE: BOOK_CTL.CMD 1 for the selected book. -/
def execCreate (s : State) : Host.Outcome State Fault Refusal := .next (s.onReg offBookCtl (fun s => s.bookCtl 1))

/-- DELETE: BOOK_CTL.CMD 2 for the selected book. -/
def execDelete (s : State) : Host.Outcome State Fault Refusal := .next (s.onReg offBookCtl (fun s => s.bookCtl 2))

/-! Book keys (R127, R196, R391). -/

/-- The compact slot holds a book master key that can derive the four keys of a slice's book (R103 condition 6). -/
def State.masterOk (s : State) (slot slice : Nat) : Bool :=
  let k := s.slotAt 0 slot
  decide (slot < 12288) && k.occupied && k.type == 0x03 && k.attr.getLsbD attrBookMaster && k.attr.getLsbD attrDerive &&
    (k.slice == slice || k.slice == 0xFFFF) && decide (k.level ≤ 6) && !k.bad && !s.slotExpired k &&
    (k.attr.getLsbD attrUnlimited || decide (4 ≤ k.uses))

/-- One book key. -/
def bookKey (k : Slot) (uid : Nat) (label : String) : Bytes :=
  kdf k.material (k.level + 1) 0x03 (ascii label ++ leBytes 8 uid) 32

/-- The four keys are derived and held under a mask of random bytes (R388); each derivation charges the master one use. -/
def State.deriveBook (s : State) (book : Nat) (r : Bytes) : State :=
  let b := s.bookAt book
  let k := s.slotAt 0 b.keySlot
  let s := s.setBook book { b with
    keysHeld := true, keyMask := r, kEnc := xorBytes (bookKey k b.uid "SALT-ENC") (bytesAt r 0 32),
    kTwk := xorBytes (bookKey k b.uid "SALT-TWK") (bytesAt r 32 32), kMac := xorBytes (bookKey k b.uid "SALT-MAC") (bytesAt r 64 32),
    kJrn := xorBytes (bookKey k b.uid "JRNL-MAC") (bytesAt r 96 32) }
  (List.range 4).foldl (fun s _ => s.chargeSlot 0 b.keySlot) s

/-! CREATE. -/

/-- A sum over the books but one. -/
def State.bookSum (s : State) (skip : Nat) (f : Book → Nat) : Nat :=
  (s.books.map (fun e => if e.1 != skip && e.2.counts then f e.2 else 0)).foldl (· + ·) 0

/-- CMD_ERR of the conditions of R103, 0 when all hold. -/
def State.createErr (s : State) (book : Nat) : Nat :=
  let b := s.bookAt book
  let x := s.sliceAt book
  (firstFail [(x.st == .active && b.st == .none_, 1),
    (capOk b.cap && decide (s.bookSum book Book.cap + b.cap ≤ 2 ^ 30), 2),
    (decide (1 ≤ b.strands) && decide (b.strands ≤ 64) && decide (b.strands ≤ x.strandQuota) &&
      decide (s.bookSum book Book.strands + b.strands ≤ 4096), 3),
    (s.rangeInOne book b.saltBase (saltSize b.cap), 4), (decide (32 ≤ x.panQuota), 5),
    (s.masterOk b.keySlot book, 6), (decide (s.brine.incarnCtr < 0xFFFFFFFF), 7)]).getD 0

/-- A command is refused: BUSY ends, CMD_ERR tells why. -/
def State.bookRefused (s : State) (book err : Nat) : State :=
  (s.modBook book (fun b => { b with cmd := none, accepted := false, cmdErr := err })).plogBook book err offBookCtl

/-- The next incarnation is assigned (R100). -/
def State.nextIncarn (s : State) (book : Nat) : State :=
  let n := s.brine.incarnCtr + 1
  let s := { s with brine := { s.brine with incarnCtr := n } }
  (s.modBook book (fun b => { b with incarn := n })).nvPut partHeads recIncarn

/-- A book without records: LSEQ, root, heads, journal and seals at their start (R103, R193, R197, R203). -/
def Book.fresh (b : Book) : Book :=
  let heads := genesisHeads b.uid b.incarn b.strands
  { b with
    prior := .none_, hold := none, lseq := 0, rootVer := List.replicate 8 0, rootMac := List.replicate 8 (zeros 8),
    heads := heads, headsIssued := heads, target := 0, savedHeads := [], replayed := 0, restored := false, moved := false,
    jStall := none, jWrite := 0, issued := 0, persisted := 0, drained := 0, freeUpTo := 0, frameEnds := [],
    reserved := 0, staged := [], sealNo := 0, lastSeal := zeros 32, sinceSeal := 0, sealAt := none, seals := [],
    wb := none, handover := none }

/-- An accepted CREATE is carried out (R103); its incarnation was assigned as it was accepted. -/
def State.setupBook (s : State) (book : Nat) (r : Bytes) : State :=
  let s := s.deriveBook book r
  let s := s.modBook book (fun b => { b.fresh with cmd := none, accepted := false, cmdErr := 0 })
  (s.bookState book .open_).checkJournal book

/-- BOOK_SETUP_DONE: the set-up of an accepted CREATE ends, once the random unit has given the masks of its keys; a master key lost
meanwhile refuses it. -/
def execBookSetupDone (book : Nat) (s : State) : Host.Outcome State Fault Refusal :=
  let b := s.bookAt book
  .next (if !(b.accepted && b.cmd == some .create) then s
    else if !s.masterOk b.keySlot book then s.bookRefused book 6
    else
      match s.gotRandom (.bookKeys book) with
      | none => s.askRandom (.bookKeys book) 2 book bookMask
      | some r => (s.dropRandom (.bookKeys book)).setupBook book r)

/-! DELETE (R104). -/

/-- SEAL commands of a book that have not formed their seal complete with STATE. -/
def State.endSeals (s : State) (book : Nat) : State :=
  s.eachWork (fun w => w.slice == book && w.opcode == 0x3000 && w.activeAt 1) (fun s w => s.refuse w 2 .state)

/-- Steps 1 to 4 of R104. -/
def State.startDelete (s : State) (book : Nat) : State :=
  let was := (s.bookAt book).st
  let s := s.modBook book (fun b => { b with accepted := true })
  let s := (s.standInK book).bookState book .deleting
  let s := ((s.endBookWork book .state).endCheckpoints book .state).endSeals book
  let s := if was == .open_ then s.releaseWithheld book else s
  s.dropLoads book

/-- BOOK_COMMAND_EXAMINE: the conditions of R103 or R104. An accepted CREATE takes its incarnation here (R103 step 1), so that
condition 7 holds of the counter it is taken from. -/
def State.examineBook (s : State) (book : Nat) : State :=
  let b := s.bookAt book
  if b.accepted then s
  else
    match b.cmd with
    | none => s
    | some .create =>
      let err := s.createErr book
      if err = 0 then (s.nextIncarn book).modBook book (fun b => { b with accepted := true })
      else s.bookRefused book err
    | some .delete =>
      if b.st == .none_ || b.st == .deleting then s.bookRefused book 1 else s.startDelete book

/-- BOOK_COMMAND_EXAMINE. -/
def execBookCommandExamine (book : Nat) (s : State) : Host.Outcome State Fault Refusal := .next (s.examineBook book)

/-- Steps 5 to 7 of R104; the configuration fields stay as they stood (R144). -/
def State.eraseBook (s : State) (book : Nat) : State :=
  let s := s.dropPan book
  let s := s.modBook book (fun b =>
    { Book.reset with
      holdExpired := b.holdExpired, wbAccess := b.wbAccess, strands := b.strands, keySlot := b.keySlot,
      saltBase := b.saltBase, cap := b.cap, uid := b.uid, jBase := b.jBase, jSize := b.jSize, fullWait := b.fullWait,
      sealLog2 := b.sealLog2, adjReserve := b.adjReserve, sealBase := b.sealBase, fullSeen := b.fullSeen,
      wrAccess := b.wrAccess, sealAccess := b.sealAccess, nonce := b.nonce, jWrite := b.jWrite })
  s.recordBook book

/-- A prime tally operation of the book still stands in stage 2 of its lane, or an entry in its commit grain. -/
def State.workLeft (s : State) (book : Nat) : Bool :=
  s.work.any (fun w => w.slice == book && w.opcode / 16 == 0x101 && w.activeAt 1) ||
    s.brine.entries.any (fun e => e.book == book)

/-- DELETE_COMPLETE: committed frames have been issued and formed seals written, and no work of stage 2 or
stage K is left. -/
def execDeleteComplete (book : Nat) (s : State) : Host.Outcome State Fault Refusal :=
  let b := s.bookAt book
  .next (if b.st == .deleting && b.staged.isEmpty && b.seals.isEmpty && !s.workLeft book then s.eraseBook book else s)

end Sys2Proof.Machine
end

