-- ==== Sys2Proof/Machine/Checkpoint.lean ====
section
/-! DEFINITION. Checkpoints (R137-R142): the two phases, the hold, the statement, the restore; and the write-back of a
fixed set that handover and region move share. -/

namespace Sys2Proof.Machine
open Sys2Proof

/-! The fixed set (R137). -/

/-- Some object of the book is marked. -/
def State.cutLeft (s : State) (book : Nat) : Bool :=
  s.pan.blocks.any (fun b => b.book == book && b.cut) || s.pan.nodes.any (fun n => n.book == book && n.cut)

/-- The dirty objects of a book are marked, the others not. -/
def State.markCut (s : State) (book : Nat) : State :=
  { s with pan := { s.pan with
      blocks := s.pan.blocks.map (fun b => if b.book == book then { b with cut := b.dirty } else b),
      nodes := s.pan.nodes.map (fun n => if n.book == book then { n with cut := n.dirty } else n) } }

/-- A write-back of a whole book begins: commits are held, the cut and its heads are taken (R137, R240). -/
def State.takeCut (s : State) (book : Nat) (j : WbJob) : State :=
  let s := s.modBook book (fun b =>
    { b with wb := some { j with phase := 2, cut := b.lseq, heads := b.headsAt b.lseq, grain := s.now } })
  s.markCut book

/-- A job that starts with the cut: handover or region move. -/
def wbJobOf (work : Nat) : WbJob :=
  { work := work, phase := 2, passes := 0, hold := false, cut := 0, heads := [], grain := 0, mute := false, root := [],
    ended := 0 }

/-! CHECKPOINT. -/

/-- Length of a checkpoint statement (R140). -/
def ckptLen (strands : Nat) : Nat := 336 + 32 * strands

/-- Check 1 of R138. -/
def Work.ckptForm (w : Work) (strands : Nat) : Bool :=
  w.aux == 0 && decide (w.field 0x1C 4 < 2) && w.zeroFrom 0x20 0x40 && decide (ckptLen strands ≤ w.field 0x18 4) &&
    !beyond64 (w.field 0x10 8) (w.field 0x18 4)

/-- CHECKPOINT begins, or waits behind another checkpoint or a hold (R138). -/
def State.startCheckpoint (s : State) (w : Work) : State :=
  let b := s.bookAt w.slice
  if !w.ckptForm b.strands then s.refuse w 1 .malformed
  else if !b.accepts then s.refuse w 2 .state
  else if b.wb.isSome || b.hold.isSome then
    s.modWork w.id (fun v => { v with phase := .active 0, admitted := some (v.admitted.getD s.now) })
  else if !s.rangeOk w.slice (w.field 0x10 8) (w.field 0x18 4) true then s.refuse w 3 .access
  else
    let j := { wbJobOf w.id with phase := 1, hold := bit (w.field 0x1C 4) 0 }
    let s := s.modBook w.slice (fun b => { b with wb := some j })
    (s.markCut w.slice).modWork w.id (fun v => { v with phase := .active 1, admitted := some s.now })

/-- CHECKPOINT. -/
def execCheckpoint (ring : Nat) (s : State) : Host.Outcome State Fault Refusal :=
  .next (s.onStart ring 0x3010 s.startCheckpoint)

/-- A CHECKPOINT that waits begins at the boundary at which nothing stands before it any longer (R138). -/
def State.ckptGrain (s : State) : State :=
  (s.work.filter (fun w => w.opcode == 0x3010 && w.activeAt 0)).foldl (fun s w => s.startCheckpoint w) s

/-- Postings of the book admitted before its checkpoint are still in the window. -/
def State.earlierPostings (s : State) (book : Nat) (j : WbJob) : Bool :=
  let g := ((s.workAt j.work).bind Work.admitted).getD s.now
  s.brine.entries.any (fun e => e.book == book && decide (e.admitted ≤ g))

/-- Phase 1 at a pass end: another pass, or phase 2 once the earlier postings have ended. -/
def State.ckptPhase1 (s : State) (book : Nat) (j : WbJob) : State :=
  if s.cutLeft book then s
  else if 64 < s.dirtyBlocks book ∧ j.passes + 1 < 8 then
    (s.modBook book (fun b => { b with wb := some { j with passes := j.passes + 1 } })).markCut book
  else if s.earlierPostings book j then s
  else s.takeCut book j

/-- The end of phase 2: the root is formed, commits resume. -/
def State.ckptPhase2 (s : State) (book : Nat) (j : WbJob) : State :=
  if s.cutLeft book then s
  else s.modBook book (fun b => { b with wb := some { j with phase := 3, root := b.rootBytes, ended := s.now } })

/-- The checkpoint statement before its signature (R140). -/
def State.ckptBody (s : State) (book : Nat) (j : WbJob) : Bytes :=
  let b := s.bookAt book
  leBytes 2 1 ++ leBytes 2 (ckptLen b.strands) ++ leBytes 2 book ++ leBytes 1 b.strands ++ leBytes 1 b.height ++
    s.keys.deviceId ++ leBytes 8 b.uid ++ leBytes 4 b.incarn ++ leBytes 4 b.cap ++ leBytes 8 j.cut ++ leBytes 8 j.grain ++
    zeros 24 ++ saltRoot b.uid b.height b.cap j.root ++ j.root ++ j.heads.flatten

/-- The statement is signed and written, the CHECKPOINT ends, the hold begins (R138-R140). -/
def State.ckptStatement (s : State) (book : Nat) (j : WbJob) (w : Work) : State :=
  let body := s.ckptBody book j
  let r := s.signBook book body
  let res := leBytes 8 j.cut ++ leBytes 2 (ckptLen (s.bookAt book).strands)
  let o := r.2.hostWrite (masterJournal book) book .statement none (w.field 0x10 8) (body ++ r.1)
  let s := o.1.modBook book (fun b => { b with wb := none, hold := if o.2 && j.hold then some j.ended else b.hold })
  s.finish w.id (if o.2 then .ok else .access) res

/-- Phase 3: the statement waits for the frames up to the cut (R240); a muted one is not written (R294). -/
def State.ckptPhase3 (s : State) (book : Nat) (j : WbJob) : State :=
  match s.workAt j.work with
  | none => s.modBook book (fun b => { b with wb := none })
  | some w =>
    if j.mute then ((s.modBook book (fun b => { b with wb := none })).countDropped w.slice 1).dropWork w.id
    else if (s.bookAt book).statable j.cut && s.writerRuns && s.canMaster (masterJournal book) then s.ckptStatement book j w
    else s

/-- The write-back of a book belongs to a work with an opcode. -/
def State.wbOf (s : State) (book opcode : Nat) : Option WbJob :=
  (s.bookAt book).wb.filter (fun j => ((s.workAt j.work).map Work.opcode) == some opcode)

/-- CHECKPOINT_PHASE2: the checkpoint of a book takes its next step. -/
def State.ckptStep (s : State) (book : Nat) : State :=
  match s.wbOf book 0x3010 with
  | none => s
  | some j =>
    match j.phase with
    | 1 => s.ckptPhase1 book j
    | 2 => s.ckptPhase2 book j
    | _ => s.ckptPhase3 book j

/-- CHECKPOINT_PHASE2. -/
def execCheckpointPhase2 (book : Nat) (s : State) : Host.Outcome State Fault Refusal := .next (s.ckptStep book)

/-! The hold (R139). -/

/-- CHECKPOINT_RELEASE; once a HANDOVER has been accepted it is later work of the book (R215). -/
def State.releaseHold (s : State) (w : Work) : State :=
  if !(w.aux == 0 && w.zeroFrom 0x10 0x40) then s.refuseOpen w .malformed []
  else if (s.bookAt w.slice).handover.isSome then s.refuseOpen w .state []
  else (s.modBook w.slice (fun b => { b with hold := none })).finishOpen w.id .ok []

/-- CHECKPOINT_RELEASE. -/
def execCheckpointRelease (ring : Nat) (s : State) : Host.Outcome State Fault Refusal :=
  .next (s.onStart ring 0x3011 s.releaseHold)

/-- Grains of a hold. -/
def holdGrains : Nat := 4096 * pound

/-- CHECKPOINT_HOLD_EXPIRY. -/
def execCheckpointHoldExpiry (book : Nat) (s : State) : Host.Outcome State Fault Refusal :=
  .next (match (s.bookAt book).hold with
    | none => s
    | some g =>
      if s.now < g + holdGrains then s else s.modBook book (fun b => { b with hold := none, holdExpired := true }))

/-! Entry into OPEN after a recovery (R211, R219). -/

/-- Released and persisted LSEQ are the last committed one; no byte of the region is held. -/
def Book.reopened (b : Book) : Book :=
  { b with issued := b.lseq, persisted := b.lseq, drained := b.lseq, freeUpTo := b.jWrite, frameEnds := [], wb := none,
           restored := false, moved := false, jStall := none }

/-- JRNL_WRITE at the start of the new region (R219 step 2). -/
def Book.movedWrite (b : Book) : Nat := (b.jWrite + b.region - 1) / b.region * b.region

/-- Steps 2 to 4 of R219. -/
def State.endMove (s : State) (book : Nat) : State :=
  let s := s.modBook book (fun b => { b with jWrite := b.movedWrite })
  let pos := (s.bookAt book).jWrite
  let lseq := (s.bookAt book).lseq
  { s with pan := { s.pan with
      blocks := s.pan.blocks.map (fun b => if b.book == book then { b with wbPos := pos, wbLseq := lseq } else b) } }

/-- The book enters OPEN; the region is checked (R201). -/
def State.openBook (s : State) (book : Nat) : State :=
  let s := if (s.bookAt book).moved then s.endMove book else s
  ((s.modBook book Book.reopened).bookState book .open_).checkJournal book

/-- Work that ends a recovery completes: with the result of R208 for REPLAY and REPLAY_END, else with one that no rule
lays down. -/
def State.recoveryEnd (s : State) (w : Work) (st : Status) : State :=
  if w.opcode / 16 == 0x302 then s.finish w.id st ((s.bookAt w.slice).replayResult w.pos 0) else s.finishOpen w.id st []

/-- The heads differ from the saved ones, or a replayed record does not fit the tallies (R209, R211). -/
def State.replayBroken (s : State) (book detail : Nat) : State :=
  (s.level1 3 0x16 book book detail).fenceIntegrity book

/-- Replay has reached the target (R211): OPEN, the write-back of a moved region first (R219), or FENCED_INTEGRITY. -/
def State.reachTarget (s : State) (w : Work) : State :=
  let b := s.bookAt w.slice
  if b.heads != b.savedHeads then
    (s.recoveryEnd w .integrity).replayBroken w.slice 0
  else if b.moved then
    (s.takeCut w.slice (wbJobOf w.id)).modWork w.id (fun v => { v with phase := .active 2 })
  else (s.openBook w.slice).recoveryEnd w .ok

/-! CHECKPOINT_RESTORE (R142). -/

/-- Checks 1 to 5, then the read of the statement. That an address plus length beyond 2^64 (R267) fails with check 1, ahead
of the state, is the model's choice (log entry 60). -/
def State.startRestore (s : State) (w : Work) : State :=
  let b := s.bookAt w.slice
  let addr := w.field 0x10 8
  let len := w.field 0x18 4
  let fail := firstFail [
    (w.aux == 0 && w.zeroFrom 0x1C 0x40 && !beyond64 addr len, (1, Status.malformed)),
    (b.st == .recovering || b.st == .fencedIntegrity, (2, .state)), (b.keysHeld, (3, .slotBad)),
    (len == ckptLen b.strands, (4, .malformed)), (s.rangeOk w.slice addr len false, (5, .access))]
  match fail with
  | some (k, st) => s.refuse w k st
  | none =>
    if !s.canRead (masterJournal w.slice) then s
    else
      let r := s.hostRead (.work w.id 0) (masterJournal w.slice) w.slice .statement addr len false
      if r.2 then r.1.modWork w.id (fun v => { v with phase := .reading 1 }) else r.1.refuse w 5 .access

/-- CHECKPOINT_RESTORE. -/
def execCheckpointRestore (ring : Nat) (s : State) : Host.Outcome State Fault Refusal :=
  .next (s.onStart ring 0x3012 s.startRestore)

/-- Checks 6 to 10 on the statement as read. -/
def State.restoreFail (s : State) (book : Nat) (d : Bytes) : Option (Nat × Status) :=
  let b := s.bookAt book
  let n := 0xF0 + 32 * b.strands
  let q := pointBytes 48 (p384.mul (s.attestKey b.uid b.incarn) p384.g)
  firstFail [
    (fieldAt d 2 2 == ckptLen b.strands && fieldAt d 0 2 == 1, (6, .malformed)),
    (verifyP384 q (bytesAt d n 96) (sha384 (d.take n)), (7, .auth)),
    (bytesAt d 8 16 == s.keys.deviceId && fieldAt d 4 2 == book && fieldAt d 0x18 8 == b.uid &&
      fieldAt d 0x20 4 == b.incarn && fieldAt d 6 1 == b.strands && fieldAt d 7 1 == b.height && fieldAt d 0x24 4 == b.cap,
      (8, .policy)),
    (bytesAt d 0x50 32 == saltRoot b.uid b.height b.cap (bytesAt d 0x70 128), (9, .policy)),
    (decide (fieldAt d 0x28 8 ≤ b.target), (10, .policy))]

/-- The effect of a restore: steps 1 to 4. -/
def State.restoreTo (s : State) (book : Nat) (d : Bytes) : State :=
  let s := s.dropPan book
  let root := bytesAt d 0x70 128
  let lseq := fieldAt d 0x28 8
  let s := s.modBook book (fun b =>
    let heads := (List.range b.strands).map (fun k => bytesAt d (0xF0 + 32 * k) 32)
    { b with rootVer := nodeVers root, rootMac := nodeMacs root, replayed := lseq, lseq := lseq, heads := heads,
             headsIssued := heads, restored := true })
  s.bookState book .recovering

/-- The statement has been read: a fenced book waits until its committed frames are out (R136), and the restore waits behind a
region move under way, which opens the book (log entry 72). -/
def State.restoreRead (s : State) (w : Work) : State :=
  let b := s.bookAt w.slice
  let d := w.input.flatten
  if !(b.st == .recovering || b.st == .fencedIntegrity) then s.refuse w 2 .state
  else if !b.staged.isEmpty || b.wb.isSome || s.brine.entries.any (fun e => e.book == w.slice) then s
  else
    match s.restoreFail w.slice d with
    | some (k, st) => s.refuse w k st
    | none =>
      let s := s.restoreTo w.slice d
      let b := s.bookAt w.slice
      if b.replayed = b.target then s.reachTarget w else s.finishOpen w.id .ok []

end Sys2Proof.Machine
end

