-- ==== Sys2Proof/Machine/Custody.lean ====
section
/-! DEFINITION. Dual control (R514-R517): custodian authorisations and their challenge slots. -/

namespace Sys2Proof.Machine
open Sys2Proof

/-- OP codes of R514. -/
def opProvision : Nat := 1
def opGapClear : Nat := 2
def opLifeCycle : Nat := 3
def opAuthority : Nat := 4
def opRngTest : Nat := 5

/-- Length of an authorisation record. -/
def authLen : Nat := 312

/-- A public key that may sign: index, curve, identifier, public key. -/
structure Signer where
  index : Nat
  curve : Nat
  ident : Bytes
  pub : Bytes

/-- The installed custodians. -/
def State.custodians (s : State) : List Signer :=
  (s.keys.auth.filter (fun e => decide (18 ≤ e.1) && e.2.occupied && e.2.kind == 4)).map (fun e =>
    { index := e.1, curve := e.2.curve, ident := e.2.ident, pub := e.2.pub })

/-- Their records can be read (R474). -/
def State.custodyOk (s : State) : Bool :=
  s.keys.auth.all (fun e => !(decide (18 ≤ e.1) && e.2.occupied) || s.recordOk partKeys (recAuth e.1))

/-- The status of a failed authorisation: FAULT while a custodian's record cannot be read (R474). -/
def State.custodyFail (s : State) (st : Status) : Status := if s.custodyOk then st else .fault

/-- The custodian entries of a staging list. -/
def stageSigners (l : List StageEntry) : List Signer :=
  (l.filter (fun e => decide (18 ≤ e.index))).map (fun e =>
    { index := e.index, curve := e.curve, ident := e.ident, pub := e.pub })

/-- A custodian's signature over bytes: ECDSA P-384 with SHA-384, or P-256 with SHA-256. -/
def Signer.verifies (x : Signer) (sig msg : Bytes) : Bool :=
  let r := fieldAt sig 0 48
  let v := fieldAt sig 48 48
  if x.curve == 0x11 then ecdsaVerify p384 (fieldAt x.pub 0 48) (fieldAt x.pub 48 48) r v (sha384 msg)
  else ecdsaVerify p256 (fieldAt x.pub 0 32) (fieldAt x.pub 32 32) r v (sha256 msg)

/-- Field `o` of signer `i` of an authorisation record. -/
def authField (a : Bytes) (i o n : Nat) : Bytes := bytesAt a (0x68 + 104 * i + o) n

/-- SLOT of the challenge block. -/
def authSlot (a : Bytes) : Nat := fieldAt a 9 1

/-- The challenge block names this device, this epoch, the operation and its subject (R515, R517). -/
def State.challengeOk (s : State) (a : Bytes) (op : Nat) (subject : Bytes) : Bool :=
  bytesAt a 0 8 == ascii "SKAORA-A" && fieldAt a 8 1 == op && allZero (bytesAt a 0x0A 6) &&
    bytesAt a 0x10 16 == s.keys.deviceId && fieldAt a 0x20 8 == s.keys.epoch && bytesAt a 0x40 32 == subject &&
    (if op == opRngTest then authSlot a == 0xFF
     else (s.tamper.challenges.find? (fun e => e.1 == authSlot a)).map Prod.snd == some (a.take 96))

/-- Two different custodians of the signer set have signed the challenge block. -/
def signedByTwo (signers : List Signer) (a : Bytes) : Bool :=
  let one (i : Nat) : Option Signer :=
    (signers.find? (fun x => x.index == leNat (authField a i 0 1))).filter (fun x =>
      allZero (authField a i 1 7) && x.verifies (authField a i 8 96) (a.take 96))
  match one 0, one 1 with
  | some x, some y => x.index != y.index && x.ident != y.ident
  | _, _ => false

/-- An authorisation record passes (R516, R517). -/
def State.authorised (s : State) (signers : List Signer) (a : Bytes) (op : Nat) (subject : Bytes) : Bool :=
  a.length == authLen && s.challengeOk a op subject && fieldAt a 0x60 1 == 2 && allZero (bytesAt a 0x61 7) &&
    signedByTwo signers a

/-- The operation that presented an authorisation has committed: its slot is free. -/
def State.consumeChallenge (s : State) (slot : Nat) : State :=
  { s with tamper := { s.tamper with challenges := tdel s.tamper.challenges slot } }

end Sys2Proof.Machine
end

