-- ==== Sys2Proof/Machine/Replay.lean ====
section
/-! DEFINITION. Replay (R208-R211) and the clearing of a gap (R212, R213). -/

namespace Sys2Proof.Machine
open Sys2Proof

/-! Records as read. -/

/-- KIND of R189 is assigned. -/
def kindOk (k : Nat) : Bool := (decide (1 ≤ k) && decide (k ≤ 5)) || (decide (0x10 ≤ k) && decide (k ≤ 0x12))

/-- The kinds whose entries name tallies. -/
def tallyKind (k : Nat) : Bool := decide (1 ≤ k) && decide (k ≤ 5)

/-- Bytes of the frame that stands at the start of `d`. -/
def frameAt (d : Bytes) : Nat := frameSize (fieldAt d 1 1)

/-- KIND is assigned and LENGTH belongs to LEGS: check 1 of R209. -/
def frameHead (d : Bytes) : Bool := kindOk (fieldAt d 0 1) && fieldAt d 0x1E 2 == 64 + 32 * fieldAt d 1 1

/-- The frame fits: check 1 of R209. -/
def frameFits (d : Bytes) : Bool := decide (frameAt d ≤ d.length) && frameHead d

/-- The record of the frame at the start of `d`. -/
def recordOf (d : Bytes) : Bytes := d.take (frameAt d - 32)

/-- LSEQ of a record. -/
def recLseq (d : Bytes) : Nat := fieldAt d 8 8

/-- Checks 1 to 3 of R209 on the frame at the start of `d`. -/
def Book.frameFail (b : Book) (book : Nat) (d : Bytes) : Option (Nat × Status) :=
  firstFail [(frameFits d, (1, .malformed)),
    (fieldAt d 2 2 == book && fieldAt d 0x1C 1 == recLseq d % b.strands, (2, .policy)),
    (b.keysHeld && cmac b.jrnKey (recordOf d) == bytesAt d (frameAt d - 32) 16, (3, .auth))]

/-- Entry `n` of a record. -/
def entryBytes (r : Bytes) (n : Nat) : Bytes := bytesAt r (0x40 + 32 * n) 32

/-- The tally entries of a record, in order. -/
def tallyEntries (r : Bytes) : List (Nat × Bytes) :=
  if tallyKind (fieldAt r 0 1) then (List.range (fieldAt r 1 1)).map (fun n => (n, entryBytes r n)) else []

/-- An entry applied to a record of a tally (R210); none when the VALUE leaves its range. -/
def applyEntry (kind n : Nat) (e : Bytes) (t : Tally) : Option Tally :=
  let version := fieldAt e 8 6
  let attr := BitVec.ofNat 16 (fieldAt e 0x0E 2)
  let amount := imageAt e 0x10
  let bounded (t : Tally) : Tally :=
    let t := { t with version := version, attr := attr, tid := fieldAt e 0 8 }
    if n = 0 then { t with floor := amount } else { t with ceiling := amount }
  match kind with
  | 0x03 => some { bounded t with value := mkImage false 0 }
  | 0x04 => some (bounded t)
  | 0x05 => some { t with version := version, attr := attr }
  | _ => (decAdd t.value amount).map (fun v => { t with value := v, version := version })

/-! One frame of a replay. -/

/-- Why a record cannot be applied, or that it waits for a block. -/
inductive Applying where
  | applied
  | waits
  | bad (check : Nat)
  | loadFailed (st : Status)
deriving DecidableEq, Repr

/-- The blocks of a record are looked up (stage F): all there, or the first that is not. -/
def State.replayFetch (s : State) (book : Nat) : List (Nat × Bytes) → State × Applying
  | [] => (s, .applied)
  | (_, e) :: t =>
    let r := s.lookup book (tidBlock (fieldAt e 0 8))
    match r.2 with
    | .failed st => (r.1, .loadFailed st)
    | .ready => r.1.replayFetch book t
    | .waiting =>
      let q := r.1.replayFetch book t
      (q.1, match q.2 with | .loadFailed st => .loadFailed st | _ => .waits)

/-- Check 6 of R209 on an entry: range, tag, VERSION. -/
def State.replayEntryOk (s : State) (book kind : Nat) (e : Bytes) : Bool :=
  let tid := fieldAt e 0 8
  match s.record book (tidIndex tid) with
  | none => false
  | some t => (kind == 0x03 || t.tid / 2 ^ 32 == tid / 2 ^ 32) && fieldAt e 8 6 == t.version + 1

/-- The entries applied in order to the records as they change; none when check 7 fails. -/
def applyEntries (kind : Nat) : List (Nat × Bytes) → (Nat → Tally) → List (Nat × Tally) → Option (List (Nat × Tally))
  | [], _, acc => some acc
  | (n, e) :: t, old, acc =>
    let i := tidIndex (fieldAt e 0 8)
    match applyEntry kind n e (((acc.find? (fun x => x.1 == i)).map Prod.snd).getD (old i)) with
    | none => none
    | some v => applyEntries kind t old ((i, v) :: acc.filter (fun x => x.1 != i))

/-- A record is applied: tallies, head, LSEQ (R210). -/
def State.applyRecord (s : State) (book : Nat) (r : Bytes) : State × Applying :=
  let kind := fieldAt r 0 1
  let es := tallyEntries r
  if !es.all (fun e => indexOk (s.bookAt book).cap (fieldAt e.2 0 8)) then (s, .bad 6)
  else
    let f := s.replayFetch book es
    let s := f.1
    match f.2 with
    | .applied =>
      if !es.all (fun e => s.replayEntryOk book kind e.2) then (s, .bad 6)
      else
        match applyEntries kind es (fun i => (s.record book i).getD Tally.zero) [] with
        | none => (s, .bad 7)
        | some news =>
          let lseq := recLseq r
          let s := news.foldl (fun s x => s.setRecord book x.1 x.2) s
          (s.modBook book (fun b =>
            let heads := foldHead b.strands b.heads lseq r
            { b with heads := heads, headsIssued := heads, lseq := lseq, replayed := lseq }), .applied)
    | w => (s, w)

/-- A REPLAY ends. -/
def State.endReplay (s : State) (w : Work) (st : Status) (check : Nat) : State :=
  let s := if refusalLogged st then s.plogWork w 0x01 check st 0 else s
  s.finish w.id st ((s.bookAt w.slice).replayResult w.pos check)

/-- Check 4 of R209. -/
def Book.lseqFits (b : Book) (d : Bytes) : Bool :=
  if fieldAt d 0 1 == 0x10 then fieldAt d 0x40 8 == b.replayed + 1 else recLseq d == b.replayed + 1

/-- Bytes of a REPLAY's buffer up to a frame's LSEQ, STRAND and LENGTH; a pad marker is as long. -/
def replayHead : Nat := 32

/-- A REPLAY has passed `n` bytes of its buffer; what has been read behind them stays. -/
def Work.pass (w : Work) (n : Nat) : Work :=
  { w with pos := min (w.pos + n) (w.field 0x18 4), input := [(w.input.flatten).drop n] }

/-- The bytes of the frame at the REPLAY's position are read up to `n` (R208, R248); nothing beyond it is (R211). -/
def State.replayRead (s : State) (w : Work) (n : Nat) : State :=
  let have_ := w.input.flatten.length
  if !s.canRead (masterJournal w.slice) then s
  else
    let r := s.hostRead (.work w.id 0) (masterJournal w.slice) w.slice .statement (w.field 0x10 8 + w.pos + have_) (n - have_)
      false
    if r.2 then r.1.modWork w.id (fun v => { v with phase := .reading 1 }) else r.1.endReplay w .access 0

/-- The last applied LSEQ has reached the target. A book that no CHECKPOINT_RESTORE has set to a replay start does not
enter OPEN (R105): STATE (log entry 57). -/
def State.replayReached (s : State) (w : Work) : State :=
  if (s.bookAt w.slice).restored then s.reachTarget w else s.endReplay w .state 0

/-- One frame, pad marker or end of a REPLAY's buffer; the flag tells that it goes on in this grain. A frame that is skipped
is not checked, and the check of its place in the buffer is part of check 1 (R209). -/
def State.replayFrame (s : State) (w : Work) : State × Bool :=
  let book := w.slice
  let b := s.bookAt book
  let d := w.input.flatten
  let left := w.field 0x18 4 - w.pos
  let skip (n : Nat) : State × Bool := (s.modWork w.id (fun v => v.pass n), true)
  if b.target ≤ b.replayed then (s.replayReached w, false)
  else if left = 0 then (s.endReplay w .ok 0, false)
  else if d.length < replayHead then (s.replayRead w replayHead, false)
  else if fieldAt d 0 1 == 0xFF then skip replayHead
  else if recLseq d ≤ b.replayed then skip (frameAt d)
  else if left < frameAt d || !frameHead d then (s.endReplay w .malformed 1, false)
  else if d.length < frameAt d then (s.replayRead w (frameAt d), false)
  else
    match b.frameFail book d with
    | some (k, st) => (s.endReplay w st k, false)
    | none =>
      if !b.lseqFits d then (s.endReplay w .policy 4, false)
      else if b.target < recLseq d then (s.endReplay w .policy 5, false)
      else if s.sched.commitsLeft = 0 || s.sched.strandsUsed.contains (book, recLseq d % b.strands) then (s, false)
      else
        let r := s.applyRecord book (recordOf d)
        match r.2 with
        | .applied =>
          let s := { r.1 with sched := { r.1.sched with
            commitsLeft := r.1.sched.commitsLeft - 1,
            strandsUsed := (book, recLseq d % b.strands) :: r.1.sched.strandsUsed } }
          (s.modWork w.id (fun v => v.pass (frameAt d)), true)
        | .waits => (r.1, false)
        | .bad k => ((r.1.endReplay w .integrity k).replayBroken book k, false)
        | .loadFailed st => (r.1.endReplay w st (if st == .integrity then 6 else 0), false)

/-- Frames of a REPLAY until it ends, waits, or has used the grain; `n` bounds their number. -/
def State.replayFrames (s : State) (id : Nat) : Nat → State
  | 0 => s
  | n + 1 =>
    match s.workAt id with
    | none => s
    | some w =>
      let r := s.replayFrame w
      if r.2 then r.1.replayFrames id n else r.1

/-- A REPLAY under way at a grain boundary; one whose book has left RECOVERING ends (R611). -/
def State.replayGrain (s : State) (w : Work) : State :=
  let st := (s.bookAt w.slice).st
  if st != .recovering then s.endReplay w (if st == .fencedIntegrity then .integrity else .state) 0
  else s.replayFrames w.id (w.input.flatten.length / 32 + 2)

/-- REPLAY begins: checks 1 to 3 of R208; its buffer is read frame by frame. One at a time for a book. -/
def State.startReplay (s : State) (w : Work) : State :=
  let b := s.bookAt w.slice
  let addr := w.field 0x10 8
  let len := w.field 0x18 4
  let form := w.aux == 0 && w.zeroFrom 0x1C 0x40 && len != 0 && len % 32 == 0 && !beyond64 addr len
  if !form then s.endReplay w .malformed 0
  else if b.st != .recovering then s.endReplay w .state 0
  else if s.work.any (fun v => v.replaying w.slice) then s
  else if !s.rangeOk w.slice addr len false then s.endReplay w .access 0
  else s.modWork w.id (fun v => { v with phase := .active 1 })

/-- REPLAY. -/
def execReplay (ring : Nat) (s : State) : Host.Outcome State Fault Refusal := .next (s.onStart ring 0x3020 s.startReplay)

/-! REPLAY_END (R211). -/

/-- The 80-byte GAP block of a book (R212). -/
def State.gapBlock (s : State) (book : Nat) : Bytes :=
  let b := s.bookAt book
  s.keys.deviceId ++ leBytes 8 b.uid ++ leBytes 4 b.incarn ++ zeros 4 ++ leBytes 8 b.replayed ++ leBytes 8 b.target ++
    sha256 b.savedHeads.flatten

/-- A book enters FENCED_GAP: its waiting work ends with GAP (R211, R238). -/
def State.fenceGap (s : State) (book : Nat) : State := (s.bookState book .fencedGap).endBookWork book .gap

/-- REPLAY_END. -/
def State.endOfReplay (s : State) (w : Work) : State :=
  let b := s.bookAt w.slice
  if !(w.aux == 0 && w.zeroFrom 0x10 0x40) then s.endReplay w .malformed 0
  else if b.st != .recovering then s.endReplay w .state 0
  else if s.work.any (fun v => v.replaying w.slice) || b.wb.isSome then s
  else if b.target ≤ b.replayed then s.replayReached w
  else (s.fenceGap w.slice).endReplay w .gap 0

/-- REPLAY_END. -/
def execReplayEnd (ring : Nat) (s : State) : Host.Outcome State Fault Refusal := .next (s.onStart ring 0x3021 s.endOfReplay)

/-! GAP_CLEAR (R212, R213). -/

/-- Checks 1 to 3, then the read of the authorisation (log entry 26). A book that no checkpoint statement has set to a replay
start is not recovered by it (R105, R141): STATE (log entry 57). -/
def State.startGapClear (s : State) (w : Work) : State :=
  let b := s.bookAt w.slice
  let addr := w.field 0x10 8
  let len := w.field 0x18 4
  let fail := firstFail [
    (w.aux == 0 && w.zeroFrom 0x1C 0x40 && len == authLen && !beyond64 addr len, (1, Status.malformed)),
    (b.st == .fencedGap && b.restored, (2, .state)), (s.rangeOk w.slice addr len false, (3, .access))]
  match fail with
  | some (k, st) => s.refuse w k st
  | none =>
    if b.wb.isSome || !s.canRead masterMgmt then s
    else
      let r := s.hostRead (.work w.id 0) masterMgmt w.slice .statement addr len false
      if r.2 then r.1.modWork w.id (fun v => { v with phase := .reading 1 }) else r.1.refuse w 3 .access

/-- GAP_CLEAR. -/
def execGapClear (ring : Nat) (s : State) : Host.Outcome State Fault Refusal :=
  .next (s.onStart ring 0x3040 s.startGapClear)

/-- The GAP_CLEAR record is committed and the book enters OPEN (R213), its persisted LSEQ the last committed one (R173). -/
def State.clearGap (s : State) (w : Work) (a : Bytes) : State :=
  let book := w.slice
  let b := s.bookAt book
  let s := if b.moved then s.endMove book else s
  let info : RecordInfo :=
    { kind := 0x10, session := 0, ring := w.ring, flags := 0, digest := sha256 a,
      entries := [leBytes 8 (b.replayed + 1) ++ leBytes 8 b.target ++ zeros 16, sha256 b.savedHeads.flatten],
      prime := false, reserved := 0 }
  let s := s.modBook book (fun b => { b.reopened with lseq := b.target, issued := b.target, persisted := b.target,
                                                      drained := b.target })
  let s := ((s.commitRecord book info).bookState book .open_).checkJournal book
  let lseq := (s.bookAt book).lseq
  let s := s.consumeChallenge (authSlot a)
  let s := s.modBook book (fun b => { b with persisted := lseq })
  (s.modWork w.id (fun v => { v with commit := some (book, lseq) })).finishOpen w.id .ok []

/-- The authorisation has been read: check 4, then the write-back of a moved region (R219), then the record. -/
def State.gapClearRead (s : State) (w : Work) : State :=
  let b := s.bookAt w.slice
  let a := w.input.flatten
  if b.st != .fencedGap then s.refuse w 2 .state
  else if !s.authorised s.custodians a opGapClear (sha256 (s.gapBlock w.slice)) then s.refuse w 4 (s.custodyFail .auth)
  else if b.moved then (s.takeCut w.slice (wbJobOf w.id)).modWork w.id (fun v => { v with phase := .active 2 })
  else s.clearGap w a

/-! Region moves (R219). -/

/-- The write-backs of a moved region have been issued: the entry into OPEN that waited for them. -/
def State.moveDone (s : State) (w : Work) : State :=
  let st := (s.bookAt w.slice).st
  if s.cutLeft w.slice || st != (if w.opcode == 0x3040 then .fencedGap else .recovering) then s
  else if w.opcode == 0x3040 then s.clearGap w w.input.flatten
  else (s.openBook w.slice).recoveryEnd w .ok

/-- Recoveries of a book under way, at a grain boundary. -/
def State.recoveryGrain (s : State) : State :=
  (s.work.map Work.id).foldl (fun s id =>
    match s.workAt id with
    | none => s
    | some w =>
      if w.activeAt 1 && w.opcode == 0x3020 then s.replayGrain w
      else if w.activeAt 1 && w.opcode == 0x3012 then s.restoreRead w
      else if w.activeAt 2 && (w.opcode == 0x3012 || w.opcode == 0x3020 || w.opcode == 0x3021 || w.opcode == 0x3040) then
        s.moveDone w
      else s) s

end Sys2Proof.Machine
end

