-- ==== Sys2Proof/Machine/Handover.lean ====
section
/-! DEFINITION. Moving a book (R214-R217): ADOPT_PREPARE, HANDOVER, ADOPT. -/

namespace Sys2Proof.Machine
open Sys2Proof

/-! ADOPT_PREPARE (R214). -/

/-- Checks of ADOPT_PREPARE, in the order of the rule (log entry 26). -/
def State.prepareFail (s : State) (w : Work) : Option (Nat × Status) :=
  let out := w.field 0x10 8
  let len := w.field 0x18 4
  firstFail [
    (w.aux == 0 && w.zeroFrom 0x1C 0x40 && decide (32 ≤ len) && !beyond64 out len, (1, .malformed)),
    ((s.bookAt w.slice).st == .none_ && (s.sliceAt w.slice).st == .active, (2, .state)),
    (s.rangeOk w.slice out len true, (3, .access))]

/-- ADOPT_PREPARE begins: it asks for its nonce at priority 4. -/
def State.startPrepare (s : State) (w : Work) : State :=
  match s.prepareFail w with
  | some (k, st) => s.refuse w k st
  | none => (s.modWork w.id (fun v => { v with phase := .active 1 })).askRandom (.nonce w.id) 4 w.slice 16

/-- ADOPT_PREPARE. -/
def execAdoptPrepare (ring : Nat) (s : State) : Host.Outcome State Fault Refusal :=
  .next (s.onStart ring 0x3032 s.startPrepare)

/-- The nonce has arrived: it is stored, and the ticket is written unless the slice has been reset (R294). -/
def State.prepareTicket (s : State) (w : Work) (nonce : Bytes) : State :=
  let s := s.modBook w.slice (fun b => { b with nonce := some nonce })
  let n := { s.nv with bookRecs := tput Book.reset s.nv.bookRecs w.slice (s.bookAt w.slice) }
  let s := ({ s with nv := n } : State).nvPut partHeads (recNonce w.slice)
  if (s.sliceAt w.slice).gen != w.gen then s.finishOpen w.id .ok []
  else
    let o := s.hostWrite (masterJournal w.slice) w.slice .statement (some w.id) (w.field 0x10 8) (s.keys.deviceId ++ nonce)
    if o.2 then o.1.finishOpen w.id .ok [] else o.1.refuse w 3 .access

/-! HANDOVER (R215, R216). -/

/-- Length of a handover statement. -/
def handoverLen (strands : Nat) : Nat := 384 + 32 * strands

/-- Checks of R215: the state charged, and the failure. -/
def State.handoverFail (s : State) (w : Work) : State × Option (Nat × Status) :=
  let b := s.bookAt w.slice
  let x := s.sessionAt w.session
  let out := w.field 0x10 8
  let len := w.field 0x18 4
  let form := w.aux == 0 && w.zeroFrom 0x1C 0x20 && w.zeroFrom 0x40 0x70 && decide (handoverLen b.strands ≤ len) &&
    !beyond64 out len
  if !form then (s, some (1, .malformed))
  else if !(b.accepts && b.wb.isNone && b.hold.isNone) then (s, some (2, .state))
  else
    match s.sessionFail w.session w.slice with
    | some st => (s, some (3, st))
    | none =>
      (s.chargeSession w.session, firstFail [(w.macOk x.key 0x80, (3, .auth)),
        (attrAllows x.attr attrHandover 1 x.slice w.slice, (4, .policy)), (s.rangeOk w.slice out len true, (5, .access))])

/-- HANDOVER is accepted: later work of the book answers STATE. -/
def State.startHandover (s : State) (w : Work) : State :=
  if s.sessionBusy w.session then s
  else
    let r := s.handoverFail w
    match r.2 with
    | some (k, st) => r.1.refuse w k st
    | none =>
      (r.1.modBook w.slice (fun b => { b with handover := some w.id })).modWork w.id (fun v =>
        { v with phase := .active 1, admitted := some s.now })

/-- HANDOVER. -/
def execHandover (ring : Nat) (s : State) : Host.Outcome State Fault Refusal :=
  .next (s.onStart ring 0x3030 s.startHandover)

/-- Steps 2 and 3 of R215 are over: the admitted work of the book has ended and no completion is withheld. -/
def State.quiet (s : State) (w : Work) : Bool :=
  let book := w.slice
  s.brine.entries.all (fun e => e.book != book) &&
    s.work.all (fun v => v.slice != book || v.id == w.id || v.waiting ||
      (!s.withheld book v && (v.isDone || !(v.isTallyOp || v.opcode / 0x1000 == 3)))) &&
    s.applets.cores.all (fun c =>
      match c.2.await with
      | some (b, lseq, true) => b != book || decide (lseq ≤ (s.bookAt b).persisted)
      | _ => true)

/-- Steps 4 and 5: the HANDOVER record commits, the write-back begins. -/
def State.handoverCommit (s : State) (w : Work) : State :=
  let info : RecordInfo :=
    { kind := 0x11, session := w.session, ring := w.ring, flags := 0, digest := sha256 w.desc,
      entries := [bytesAt w.desc 0x20 32], prime := false, reserved := 0 }
  let s := s.commitRecord w.slice info
  let lseq := (s.bookAt w.slice).lseq
  (s.takeCut w.slice (wbJobOf w.id)).modWork w.id (fun v => { v with phase := .active 2, commit := some (w.slice, lseq) })

/-- The handover statement before its signature. -/
def State.handoverBody (s : State) (w : Work) (j : WbJob) : Bytes :=
  let b := s.bookAt w.slice
  leBytes 2 3 ++ leBytes 2 (handoverLen b.strands) ++ leBytes 2 w.slice ++ leBytes 1 b.strands ++ leBytes 1 b.height ++
    s.keys.deviceId ++ leBytes 8 b.uid ++ leBytes 4 b.incarn ++ leBytes 4 b.cap ++ leBytes 8 j.cut ++ leBytes 8 j.grain ++
    leBytes 8 b.sealNo ++ bytesAt w.desc 0x20 32 ++ b.lastSeal ++ saltRoot b.uid b.height b.cap j.root ++ j.root ++
    j.heads.flatten

/-- Step 6: the statement under the identity key, and RELEASED. A refused write leaves the book released (log entry
27). -/
def State.handoverEnd (s : State) (w : Work) (j : WbJob) : State :=
  let body := s.handoverBody w j
  let r := s.signP384 (leNat s.keys.dId) (sha384 body)
  let res := leBytes 8 j.cut ++ leBytes 2 (handoverLen (s.bookAt w.slice).strands)
  let o := r.2.hostWrite (masterJournal w.slice) w.slice .statement none (w.field 0x10 8) (body ++ r.1)
  let s := o.1.modBook w.slice (fun b => { b with wb := none, handover := none })
  (s.bookState w.slice .released).finishOpen w.id (if o.2 then .ok else .access) res

/-- A HANDOVER under way takes its next step. -/
def State.handoverStep (s : State) (w : Work) : State :=
  let book := w.slice
  if w.activeAt 1 then (if s.quiet w then s.handoverCommit w else s)
  else
    match s.wbOf book 0x3030 with
    | none => s
    | some j =>
      if j.phase = 2 then s.ckptPhase2 book j
      else if (s.bookAt book).statable j.cut && s.writerRuns && s.canMaster (masterJournal book) then s.handoverEnd w j
      else s

/-- Handovers under way at a grain boundary. -/
def State.handoverGrain (s : State) : State :=
  (s.work.filter (fun w => w.opcode == 0x3030 && !w.isDone && !w.waiting)).foldl (fun s w => s.handoverStep w) s

/-! ADOPT (R217). -/

/-- Largest handover statement: 64 strands. -/
def handoverMax : Nat := 384 + 32 * 64

/-- Checks 1 and 2 of R217, and the reserved bytes of R188. -/
def State.adoptFail (s : State) (w : Work) : State × Option (Nat × Status) :=
  let b := s.bookAt w.slice
  let x := s.sessionAt w.session
  let src := w.field 0x10 8
  let len := w.field 0x18 4
  if !(w.aux == 0 && w.zeroFrom 0x1C 0x70 && len != 0 && !beyond64 src len) then (s, some (1, .malformed))
  else if !(b.st == .none_ && b.cmd.isNone && b.nonce.isSome) then (s, some (1, .state))
  else
    match s.sessionFail w.session w.slice with
    | some st => (s, some (2, st))
    | none =>
      (s.chargeSession w.session, firstFail [(w.macOk x.key 0x80, (2, .auth)),
        (attrAllows x.attr attrHandover 1 x.slice w.slice, (2, .policy)),
        (decide (416 ≤ len) && decide (len ≤ handoverMax), (3, .malformed)),
        (s.rangeOk w.slice src len false, (3, .access))])

/-- ADOPT begins: its early checks, then the read of the statement (log entry 26). -/
def State.startAdopt (s : State) (w : Work) : State :=
  if s.sessionBusy w.session || !s.canRead (masterJournal w.slice) then s
  else
    let r := s.adoptFail w
    match r.2 with
    | some (k, st) => r.1.refuse w k st
    | none =>
      let o := r.1.hostRead (.work w.id 0) (masterJournal w.slice) w.slice .statement (w.field 0x10 8) (w.field 0x18 4) false
      if o.2 then o.1.modWork w.id (fun v => { v with phase := .reading 1 }) else o.1.refuse w 3 .access

/-- ADOPT. -/
def execAdopt (ring : Nat) (s : State) : Host.Outcome State Fault Refusal := .next (s.onStart ring 0x3031 s.startAdopt)

/-- The trusted source with a DEVICE_ID. -/
def State.trustedSource (s : State) (ident : Bytes) : Option Authority :=
  (s.keys.auth.find? (fun e => decide (2 ≤ e.1) && decide (e.1 ≤ 17) && e.2.occupied && e.2.kind == 3 &&
    e.2.ident == ident)).map Prod.snd

/-- The records of the trusted sources can be read (R474). -/
def State.sourcesOk (s : State) : Bool :=
  s.keys.auth.all (fun e => !(decide (2 ≤ e.1) && decide (e.1 ≤ 17) && e.2.occupied) || s.recordOk partKeys (recAuth e.1))

/-- Checks 3 to 6 on the statement as read. Check 3 names TYPE and LENGTH alone: that SRC_LEN must equal LENGTH, where a longer
buffer could pass, is the model's choice (log entry 69). -/
def State.adoptRefusal (s : State) (book : Nat) (d : Bytes) : Option (Nat × Status) :=
  let b := s.bookAt book
  let n := fieldAt d 6 1
  let stop := 0x120 + 32 * n
  let t := s.trustedSource (bytesAt d 8 16)
  firstFail [
    (fieldAt d 0 2 == 3 && fieldAt d 2 2 == d.length && d.length == handoverLen n, (3, .malformed)),
    (s.sourcesOk, (4, .fault)), (t.isSome, (4, .policy)),
    (verifyP384 ((t.map Authority.pub).getD []) (bytesAt d stop 96) (sha384 (d.take stop)), (4, .auth)),
    (bytesAt d 0x40 16 == s.keys.deviceId && some (bytesAt d 0x50 16) == b.nonce, (5, .policy)),
    (fieldAt d 0x18 8 == b.uid && n == b.strands && fieldAt d 0x24 4 == b.cap && fieldAt d 7 1 == b.height &&
      bytesAt d 0x80 32 == saltRoot b.uid b.height b.cap (bytesAt d 0xA0 128), (6, .policy))]

/-- The book of a statement opens here (R217), its persisted LSEQ the last committed one (R173). -/
def State.adoptBook (s : State) (w : Work) (d r : Bytes) : State :=
  let book := w.slice
  let s := ((s.nextIncarn book).deriveBook book r).nvPut partHeads (recNonce book)
  let root := bytesAt d 0xA0 128
  let lseq := fieldAt d 0x28 8
  let s := s.modBook book (fun b =>
    let heads := (List.range b.strands).map (fun k => bytesAt d (0x120 + 32 * k) 32)
    { b.fresh with
      nonce := none, cmdErr := 0, lseq := lseq, issued := lseq, persisted := lseq, drained := lseq, heads := heads,
      headsIssued := heads, rootVer := nodeVers root, rootMac := nodeMacs root, sealNo := fieldAt d 0x38 8,
      lastSeal := bytesAt d 0x60 32 })
  let info : RecordInfo :=
    { kind := 0x12, session := 0, ring := w.ring, flags := 0, digest := sha256 d,
      entries := [bytesAt d 8 16 ++ bytesAt d 0x20 4 ++ zeros 12], prime := false, reserved := 0 }
  let s := ((s.commitRecord book info).bookState book .open_).checkJournal book
  let l := (s.bookAt book).lseq
  let s := s.modBook book (fun b => { b with persisted := l })
  (s.modWork w.id (fun v => { v with commit := some (book, l) })).finishOpen w.id .ok []

/-- The statement has been read; the book is adopted with the masks of its keys once they have come. -/
def State.adoptWith (s : State) (w : Work) (mask : Option Bytes) : State :=
  let book := w.slice
  let d := w.input.flatten
  let b := s.bookAt book
  if !(b.st == .none_ && b.cmd.isNone && b.nonce.isSome) then s.refuse w 1 .state
  else
    match s.adoptRefusal book d with
    | some (k, st) => s.refuse w k st
    | none =>
      let err := s.createErr book
      if err = 0 then
        match mask with
        | none => (s.modWork w.id (fun v => { v with phase := .active 1 })).askRandom (.adopt w.id) 2 book bookMask
        | some r => s.adoptBook w d r
      else (s.modBook book (fun b => { b with cmdErr := err })).refuse w 7 .state

/-- The statement has been read. -/
def State.adoptRead (s : State) (w : Work) : State := s.adoptWith w none

/-- The masks have come. -/
def State.adoptReady (s : State) (w : Work) (r : Bytes) : State := s.adoptWith w (some r)

end Sys2Proof.Machine
end

