-- ==== Sys2Proof/Machine/Random.lean ====
section
/-! DEFINITION. The random unit (R439-R463): health tests, conditioner, DRBG, release. -/

namespace Sys2Proof.Machine
open Sys2Proof

/-! Health tests (R442). -/

/-- The samples of a block in order: the first sample is bit 7 of byte 0 (R445). -/
def sampleBits (b : Bytes) : List Bool := (b.map (fun x => (List.range 8).map (fun i => x.getMsbD i))).flatten

/-- The repetition count test over samples: run length, last sample, whether it has failed. -/
def repetition : Nat → Bool → Bool → List Bool → Nat × Bool × Bool
  | run, last, failed, [] => (run, last, failed)
  | run, last, failed, x :: t =>
    let n := if run != 0 && x == last then run + 1 else 1
    if n = 41 then repetition 0 x true t else repetition n x failed t

/-- The adaptive proportion test fails on a block. -/
def proportionFails (bs : List Bool) : Bool := decide (795 ≤ (bs.filter (· == bs.headD false)).length)

/-- A block of one source ends (R442, R443): the source after it. -/
def Source.block (x : Source) (b : Bytes) : Source :=
  let bs := sampleBits b
  let r := repetition x.run x.last false bs
  let apt := proportionFails bs
  let y := { x with run := r.1, last := r.2.1 }
  if r.2.2 || apt then { y with passing := false, fails := satAdd 0xFFFF y.fails 1, rct := r.2.2, apt := apt }
  else { y with passing := true, startOk := true }

/-- Number of sources (R439). -/
def sourceCount : Nat := 11

/-- A source is passing (R444). -/
def State.anyPassing (s : State) : Bool := (List.range sourceCount).any (fun k => (s.sourceAt k).passing)

/-- The sources after a block of each ends. -/
def State.blockSources (s : State) : Nat → List Bytes → State
  | _, [] => s
  | k, b :: t => ((s.setSource k ((s.sourceAt k).block b)).blockSources (k + 1) t)

/-- The combined block of R441, none when no source passed. -/
def State.combined (s : State) (samples : List Bytes) : Option Bytes :=
  let ok := (samples.zipIdx.filter (fun p => (s.sourceAt p.2).passing)).map Prod.fst
  if ok.isEmpty then none else some (ok.foldl xorBytes (zeros 128))

/-! Known-answer tests (R457): a test fails only by a fault of the hardware, so each run is a free value; a failed one is
repeated once (log entry 21). -/

/-- Steps of the two tests: one of the conditioner, two of the DRBG. -/
def katSteps : Nat := 3

/-- What steps a consumer has had, as they are counted: a byte each. -/
def stepMark : Bytes := [0]

/-- The steps of a run of the tests have been taken: the results, none while a failed test has still to be repeated. The first
results stand in the last byte of what the consumer has got. -/
def State.katRun (s : State) (x : RngWait) : Option (Bool × Bool) × RngWait :=
  let c := Config.freeBool s.draws
  let d := Config.freeBool (s.draws + 1)
  if x.need = katSteps then
    (if c && d then (some (true, true), x)
     else
      (none, { x with got := [0, 0, BitVec.ofNat 8 (flag c + 2 * flag d)],
                      need := katSteps + (if c then 0 else 1) + (if d then 0 else 2) }))
  else
    let first := ((x.got.drop 2).headD 0).toNat
    (some (bit first 0 || c, bit first 1 || d), x)

/-- A known-answer test has failed twice (R457). -/
def State.katFailed (s : State) (detail : Nat) : State :=
  let s := { s with rng := { s.rng with errKat := true, kat := false } }
  s.level1 12 0x18 0 0xFFFF detail

/-- The results of the known-answer tests are acted on. -/
def State.katDone (s : State) (c d : Bool) : State :=
  let s := if c then s else s.katFailed 1
  if d then s else s.katFailed 2

/-- RNG_BLOCK_END: a block of every source ends (R440-R444); with the start-up test passed (R456) the known-answer tests wait for
their steps at priority 6 (R457, R460). -/
def State.blockEnd (s : State) (samples : List Bytes) : State :=
  if s.rng.started.isNone || s.halted then s
  else
    let s := s.blockSources 0 (samples.take sourceCount)
    let s := match s.combined samples with
      | some b => { s with rng := { s.rng with blocks := s.rng.blocks ++ [b] } }
      | none =>
        let n := 3 + s.rng.blocks.length
        { s with rng := { s.rng with buf := [], callLeft := 0, nonePassing := true, freshNeeded := n } }
    if !s.rng.startup && (List.range sourceCount).all (fun k => (s.sourceAt k).startOk) then
      { s with rng := { s.rng with startup := true } }.askRandom .startTests 6 1024 katSteps
    else s

/-- RNG_BLOCK_END. -/
def execRngBlockEnd (samples : List Bytes) (s : State) : Host.Outcome State Fault Refusal := .next (s.blockEnd samples)

/-! The unit takes one step in a grain (R44). -/

/-- One step of the unit, if it has not taken one in this grain. -/
def State.rngStep (s : State) (f : State → State) : State :=
  if s.rng.started.isNone || s.halted || s.rng.stepAt == some s.now || s.sched.taken.contains .random then s
  else f { s with rng := { s.rng with stepAt := some s.now } }

/-- What a step that gives no output is about to change. -/
def State.rngSaved (s : State) (block : Option Bytes) : RngUndo :=
  let r := s.rng
  { block := block, pool := r.pool, freshNeeded := r.freshNeeded, key := r.key, v := r.v, inst := r.inst, calls := r.calls,
    callLeft := r.callLeft, seededAt := r.seededAt, nonePassing := r.nonePassing, reseeds := r.reseeds,
    overdue := s.sched.overdue.contains 5 }

/-- The step that the unit took in this grain is squashed: its output is never delivered, and what else it did is undone, to be
done again (R35, R459). -/
def State.rngSquash (s : State) : State :=
  let s := { s with rng := { s.rng with given := none } }
  match s.rng.undo with
  | none => s
  | some u =>
    { s with
      rng := { s.rng with
        blocks := u.block.toList ++ s.rng.blocks, pool := u.pool, freshNeeded := max u.freshNeeded s.rng.freshNeeded, key := u.key, v := u.v,
        inst := u.inst, calls := u.calls, callLeft := u.callLeft, seededAt := u.seededAt,
        nonePassing := u.nonePassing || s.rng.nonePassing, reseeds := u.reseeds, undo := none },
      sched := { s.sched with overdue := if u.overdue && !s.sched.overdue.contains 5 then 5 :: s.sched.overdue else s.sched.overdue } }

/-- The fixed conditioning key (R445). -/
def conditionKey : Bytes := (List.range 32).map (BitVec.ofNat 8)

/-- The conditioner output of a combined block (R445). -/
def condition (b : Bytes) : Bytes := cbcMac conditionKey b

/-- One conditioning into the pool (R446). -/
def State.conditioning (s : State) : State :=
  match s.rng.blocks with
  | [] => s
  | b :: rest =>
    if !s.rng.startup then s
    else
      s.rngStep (fun s =>
        let pool := s.rng.pool ++ [condition b]
        { s with rng := { s.rng with blocks := rest, pool := pool.drop (pool.length - 3),
                                     freshNeeded := s.rng.freshNeeded - 1, undo := some (s.rngSaved (some b)) } })

/-- CONDITIONING. -/
def execConditioning (s : State) : Host.Outcome State Fault Refusal := .next s.conditioning

/-! The DRBG: CTR_DRBG of SP 800-90A with AES-256 and no derivation function (R447). -/

/-- V plus 1. -/
def vNext (v : Bytes) : Bytes := beBytes 16 ((beNat v + 1) % 2 ^ 128)

/-- The update function on a key, V and 48 bytes. -/
def drbgUpdate (key v data : Bytes) : Bytes × Bytes :=
  let v1 := vNext v
  let v2 := vNext v1
  let v3 := vNext v2
  let t := xorBytes (aesEnc key v1 ++ aesEnc key v2 ++ aesEnc key v3) data
  (t.take 32, t.drop 32)

/-- `n` output blocks, and V after them. -/
def drbgBlocks (key : Bytes) : Nat → Bytes → Bytes × Bytes
  | 0, v => ([], v)
  | n + 1, v =>
    let v1 := vNext v
    let r := drbgBlocks key n v1
    (aesEnc key v1 ++ r.1, r.2)

/-- A whole generate call of `n` bytes: output, key and V (R462). -/
def drbgGenerate (key v : Bytes) (n : Nat) : Bytes × Bytes × Bytes :=
  let r := drbgBlocks key ((n + 15) / 16) v
  let u := drbgUpdate key r.2 (zeros 48)
  (r.1.take n, u.1, u.2)

/-- The personalisation string of R448. -/
def State.personal (s : State) : Bytes := s.keys.deviceId ++ leBytes 8 s.keys.epoch ++ leBytes 8 s.now ++ zeros 16

/-- No reseed is overdue (R449). -/
def State.seedFresh (s : State) : Bool := decide (s.now < s.rng.seededAt + pound)

/-- Output is released (R450). -/
def State.releasing (s : State) : Bool :=
  s.rng.started.isSome && s.rng.startup && s.rng.kat && s.rng.inst && !s.rng.nonePassing && s.anyPassing && s.seedFresh

/-- The pool holds three entries that a reseed or an instantiation may take. -/
def State.poolFull (s : State) : Bool := s.rng.pool.length == 3 && s.rng.freshNeeded == 0

/-- A reseed or an instantiation is not overdue any longer (R449). -/
def State.reseedMet (s : State) : State :=
  { s with sched := { s.sched with overdue := s.sched.overdue.filter (· != 5) } }

/-- Instantiation (R448, R457). -/
def State.instantiate (s : State) : State :=
  if s.rng.inst || !s.rng.startup || !s.rng.kat || s.rng.errKat || !s.poolFull then s
  else
    s.rngStep (fun s =>
      let u := drbgUpdate (zeros 32) (zeros 16) (xorBytes s.rng.pool.flatten s.personal)
      { s with rng := { s.rng with key := u.1, v := u.2, inst := true, calls := 0, callLeft := 0, seededAt := s.now,
                                   pool := [], nonePassing := false, undo := some (s.rngSaved none) } }.reseedMet)

/-- DRBG_INSTANTIATE. -/
def execDrbgInstantiate (s : State) : Host.Outcome State Fault Refusal := .next s.instantiate

/-- A reseed is due (R448), also after a stop of R444. -/
def State.reseedDue (s : State) : Bool :=
  s.rng.inst && (decide (128 ≤ s.rng.calls) || !s.seedFresh || s.rng.nonePassing)

/-- What the consumer still needs. -/
def RngWait.left (x : RngWait) : Nat := x.need - x.got.length

/-- A reseed waits for its step, ahead of priorities 4 to 6 (R34). -/
def State.reseedWaits (s : State) : Bool := s.reseedDue && s.poolFull && s.anyPassing

/-- A re-masking waits for its mask. -/
def State.remaskWaits (s : State) : Bool := s.rng.waiters.any (fun x => x.prio == 2 && decide (0 < x.left))

/-- The background task to which the calendar gives the step of this grain (R48, R55): in slot 19 the reseed, else the
re-masking; under escalation in slot 18 the task at risk with the earlier deadline. In the other slots the order of R34 holds
alone (log entry 65). -/
def State.rngTask (s : State) : Option Nat :=
  let ready := (if s.reseedWaits then [5] else []) ++ (if s.remaskWaits then [1] else [])
  if s.now % scruple == 19 then ready.head?
  else if s.now % scruple == 18 && s.sched.esc.contains .random then
    let due (t : Nat) : Nat := if t = 5 then s.rng.seededAt + pound else s.taskDeadline t
    (sortBy (fun a b => decide (due a ≤ due b)) (ready.filter (fun t => s.sched.atRisk.contains t))).head?
  else none

/-- The reseed may run: the calendar gives it the step, or it gives none and no consumer above priority 3 waits (R448). -/
def State.reseedSlot (s : State) : Bool :=
  s.rngTask == some 5 || (s.rngTask.isNone && s.rng.waiters.all (fun x => decide (3 ≤ x.prio) || x.left == 0))

/-- Reseed (R448): the call under way ends with its update first. -/
def State.reseed (s : State) : State :=
  if !s.reseedDue || !s.reseedSlot || !s.poolFull || !s.anyPassing then s
  else
    s.rngStep (fun s =>
      let k0 := if s.rng.callLeft == 0 then (s.rng.key, s.rng.v) else drbgUpdate s.rng.key s.rng.v (zeros 48)
      let g := leBytes 8 s.now ++ zeros 40
      let u := drbgUpdate k0.1 k0.2 (xorBytes s.rng.pool.flatten g)
      { s with rng := { s.rng with key := u.1, v := u.2, calls := 0, callLeft := 0, seededAt := s.now, pool := [],
                                   nonePassing := false, reseeds := s.rng.reseeds + 1,
                                   undo := some (s.rngSaved none) } }.reseedMet)

/-- DRBG_RESEED. -/
def execDrbgReseed (s : State) : Host.Outcome State Fault Refusal := .next s.reseed

/-- RESEED_OVERDUE (R449): release stops, RESEED_LATE is set, the miss is handled under R56. -/
def State.reseedOverdue (s : State) : State :=
  if s.rng.inst && !s.seedFresh && !s.sched.overdue.contains 5 then
    let s := { s with rng := { s.rng with errLate := true }, sched := { s.sched with overdue := 5 :: s.sched.overdue } }
    s.missTask 5
  else s

/-- RESEED_OVERDUE. -/
def execReseedOverdue (s : State) : Host.Outcome State Fault Refusal := .next s.reseedOverdue

/-- RNG_STARTUP_SLOW (R456). -/
def State.startupSlow (s : State) : State :=
  match s.rng.started with
  | none => s
  | some g =>
    if s.rng.startup || s.rng.errSlow || decide (s.now < g + pound) then s
    else { s with rng := { s.rng with errSlow := true } }.plogEvent 12 0x0D 0 0xFFFF 0xFFFF 1

/-- RNG_STARTUP_SLOW. -/
def execRngStartupSlow (s : State) : Host.Outcome State Fault Refusal := .next s.startupSlow

/-- Bytes of a generate call (log entry 22). -/
def callBytes : Nat := 4096

/-- One block into the output buffer (R447): a call of 4,096 bytes ends with its update, and is counted then (R448). -/
def State.genBlock (s : State) : State :=
  if !s.releasing || decide (240 < s.rng.buf.length) then s
  else
    let r := s.rng
    let left := if r.callLeft == 0 then callBytes else r.callLeft
    let v := vNext r.v
    let out := aesEnc r.key v
    let u := if left == 16 then drbgUpdate r.key v (zeros 48) else (r.key, v)
    let calls := if left == 16 then r.calls + 1 else r.calls
    { s with rng := { r with key := u.1, v := u.2, callLeft := left - 16, calls := calls, buf := (r.buf ++ out).take 256 } }

/-- What the generate core adds in a grain: 6.25 blocks (R447). -/
def State.genGrain (s : State) : State :=
  (List.range (if s.now % 4 == 0 then 7 else 6)).foldl (fun s _ => s.genBlock) s

/-- The RNG_DATA read of `n` bytes (R453): the answer and the state after it. -/
def State.rngData (s : State) (n : Nat) : Bytes × State :=
  if s.tamper.state = .bittern || decide (s.rng.fifo.length < n) then
    (zeros n, { s with rng := { s.rng with errEmpty := true } })
  else (s.rng.fifo.take n, { s with rng := { s.rng with fifo := s.rng.fifo.drop n } })

/-- RNG_DATA_READ: a read of 4 or 8 bytes at BAR0 0x09_0000. -/
def execRngDataRead (size : Nat) (s : State) : Host.Outcome State Fault Refusal :=
  if s.barUp then
    let r := if s.halted || s.tamper.state == .spent then (zeros size, s) else s.rngData size
    .next (r.2.emit (.barRead 0x090000 r.1))
  else .next (if s.barClosed then s.barRefused 0x090000 else s)

/-- The unit at a life-cycle change (R459): three outputs are to be formed after it. -/
def State.rngLifeCycle (s : State) : State :=
  { s with rng := { s.rng with inst := false, key := [], v := [], buf := [], callLeft := 0, pool := [], fifo := [],
                               fwFifo := [], undo := none, freshNeeded := 3 } }

/-- The unit at a reset of R277 (R459, R463). -/
def State.rngReset (s : State) : State :=
  { s with rng := { s.rng with fifo := [], errEmpty := false, errSlow := false, errKat := false, errLate := false } }

end Sys2Proof.Machine
end

