-- ==== Sys2Proof/Machine/Rebuild.lean ====
section
/-! DEFINITION. Losing a Pan line (R229-R232): the rebuild of a block from the Saltern and the journal. -/

namespace Sys2Proof.Machine
open Sys2Proof

/-- Change a rebuild. -/
def State.modRebuild (s : State) (book block : Nat) (f : Rebuild → Rebuild) : State :=
  { s with pan := { s.pan with
      rebuilds := s.pan.rebuilds.map (fun r => if r.book == book && r.block == block then f r else r) } }

/-- An uncorrectable word in a tally line: the block is lost, the entries with a leg in it are squashed (R230). -/
def State.loseBlock (s : State) (book block : Nat) (metaBad : Bool) : State :=
  match s.blockAt book block with
  | none => s
  | some b =>
    if b.lost then s
    else
      let hits := s.brine.entries.filter (fun e => e.names book block)
      let r : Rebuild :=
        { book := book, block := block, started := false, haveBase := false, recs := [], pos := b.wbPos,
          expect := b.wbLseq + 1, rings := s.ringsOn book block }
      let s := s.modBlock book block (fun b => { b with lost := true })
      let s := { s with
        brine := { s.brine with entries := s.brine.entries.map (fun (e : Entry) => if e.names book block then e.restart else e) },
        pan := { s.pan with rebuilds := s.pan.rebuilds ++ [r] } }
      let s := s.reexecute (hits.map Entry.key)
      if metaBad then s.rebuildFailed r else s

/-- A record's entries with their tally in the block, applied to its records; none when an entry does not follow. -/
def rebuildApply (block kind : Nat) (old : List Tally) : List (Nat × Bytes) → List Tally → Option (List Tally)
  | [], recs => some recs
  | (n, e) :: t, recs =>
    let i := tidIndex (fieldAt e 0 8)
    if i / 4 != block then rebuildApply block kind old t recs
    else if fieldAt e 8 6 != (old.getD (i % 4) Tally.zero).version + 1 then none
    else
      match applyEntry kind n e (recs.getD (i % 4) Tally.zero) with
      | none => none
      | some v => rebuildApply block kind old t (recs.set (i % 4) v)

/-- One record goes into the rebuilt block; none when the rebuild fails. -/
def Rebuild.apply (r : Rebuild) (rec_ : Bytes) : Option Rebuild :=
  (rebuildApply r.block (fieldAt rec_ 0 1) r.recs (tallyEntries rec_) r.recs).map (fun x => { r with recs := x })

/-- The rebuild has come to the last commit: the block is placed (R230). -/
def State.rebuildDone (s : State) (r : Rebuild) : State :=
  (s.dropRebuild r.book r.block).modBlock r.book r.block (fun b => { b with recs := r.recs, lost := false })

/-- Bytes of a frame read: the largest frame, within the region (log entry 28). -/
def rebuildRead (b : Book) (pos : Nat) : Nat := min (frameSize 8) (b.region - pos % b.region)

/-- The rebuild goes on after a record: from staged copies, or by the read of the next frame. -/
def State.rebuildNext (s : State) (book block : Nat) : Nat → State
  | 0 => s
  | n + 1 =>
    match s.rebuildAt book block with
    | none => s
    | some r =>
      let b := s.bookAt book
      let dirty := ((s.blockAt book block).map PanBlock.dirty).getD false
      if r.recs.isEmpty then s.rebuildFailed r
      else if !dirty || b.lseq < r.expect then s.rebuildDone r
      else
        match b.staged.find? (fun x => x.lseq == r.expect) with
        | some x =>
          (match r.apply x.record with
           | none => s.rebuildFailed r
           | some r' => (s.modRebuild book block (fun _ => { r' with expect := r.expect + 1 })).rebuildNext book block n)
        | none =>
          if s.reads.any (fun x => x.kind == .rebuild book block) || !s.canRead (masterSaltern book) then s
          else
            let o := s.hostRead (.rebuild book block) (masterSaltern book) book .saltern (b.jBase + r.pos % b.region)
              (rebuildRead b r.pos) false
            if o.2 then o.1 else o.1.rebuildFailed r

/-- Steps that a rebuild can take at once. -/
def State.rebuildRun (s : State) (book block : Nat) : State :=
  s.rebuildNext book block ((s.bookAt book).staged.length + 2)

/-- PAN_REBUILD: a lost block's rebuild begins with its Saltern image, or goes on. -/
def State.panRebuild (s : State) (book block : Nat) : State :=
  match s.rebuildAt book block, s.blockAt book block with
  | some r, some b =>
    if r.haveBase then s.rebuildRun book block
    else if r.started && (s.loadAt book block).isSome then s
    else if b.wbVer = 0 then
      (s.modRebuild book block (fun r => { r with started := true, haveBase := true, recs := recsOf (zeros 256) })).rebuildRun
        book block
    else if !s.canRead (masterSaltern book) then s
    else
      let s := s.modRebuild book block (fun r => { r with started := true })
      let o := s.startLoad book block 0
      if o.2 then o.1 else o.1.rebuildFailed r
  | _, _ => s

/-- PAN_REBUILD. -/
def execPanRebuild (book block : Nat) (s : State) : Host.Outcome State Fault Refusal := .next (s.panRebuild book block)

/-- A frame read meets R231: failing, a pad marker, or the record's frame. -/
def State.rebuildFrame (s : State) (r : Rebuild) (d : Bytes) : State :=
  let b := s.bookAt r.book
  if fieldAt d 0 1 == 0xFF then
    (s.modRebuild r.book r.block (fun r => { r with pos := (r.pos / b.region + 1) * b.region })).rebuildRun r.book r.block
  else
    let ok := (b.frameFail r.book d).isNone && recLseq d == r.expect &&
      fieldAt d (frameAt d - 16) 8 == r.pos / b.region
    match if ok then r.apply (recordOf d) else none with
    | none => s.rebuildFailed r
    | some r' =>
      (s.modRebuild r.book r.block (fun _ => { r' with pos := r.pos + frameAt d, expect := r.expect + 1 })).rebuildRun
        r.book r.block

/-- REBUILD_FRAME_ARRIVAL. -/
def State.rebuildArrival (s : State) (book block : Nat) (data : Bytes) : State :=
  match s.rebuildAt book block, s.reads.find? (fun x => x.kind == .rebuild book block) with
  | some r, some x =>
    if !x.arrives || data.length != x.len || s.pwr.flush.isSome then s else (s.dropRead x.id).rebuildFrame r data
  | _, _ => s

/-- REBUILD_FRAME_ARRIVAL. -/
def execRebuildFrameArrival (book block : Nat) (data : Bytes) (s : State) : Host.Outcome State Fault Refusal :=
  .next (s.rebuildArrival book block data)

/-- An uncorrectable node line (R232): a clean one is read again when it is next needed; a dirty one or the root is
lost with its book. -/
def State.loseNode (s : State) (book level index : Nat) : State :=
  let root := level == (s.bookAt book).height
  match s.nodeAt book level index with
  | some n =>
    if n.dirty then
      let s := { s with pan := { s.pan with nodeLoss := true, faultBook := book } }
      s.salternFailure book level index
    else s.dropNode book level index
  | none =>
    if root && s.bookExists book then
      let s := { s with pan := { s.pan with nodeLoss := true, faultBook := book } }
      s.salternFailure book level index
    else s

end Sys2Proof.Machine
end

