-- ==== Sys2Proof/Machine/Tamper.lean ====
section
/-! DEFINITION. The tamper monitor (R35, R498-R506): levels, squash and redo, the life-cycle transitions they cause
(R36, R508-R510), and the sensor rows. -/

namespace Sys2Proof.Machine
open Sys2Proof

/-- Place in the order of R20 of a unit code of R584. -/
def placeOfUnit (code : Nat) : Nat :=
  match code with
  | 0 => 0 | 1 => 1 | 2 => 11 | 3 => 10 | 4 => 3 | 5 => 4 | 6 => 5 | 7 => 6 | 8 => 7 | 9 => 8 | 10 => 13 | 11 => 12
  | _ => 9

/-- Place of the tamper monitor, the life-cycle controller, the battery domain. -/
def unitTamper : Nat := 15
def unitLife : Nat := 16
def unitBattery : Nat := 18

/-- What an event of level 2 or higher is entered with. -/
structure TamperEvent where
  source : Nat
  cause : Nat
  unit : Nat
  loc : Nat
  slice : Nat
  detail : Nat
  /-- DETAIL of TAMPER_CAUSE (R525). -/
  num : Nat

def State.tlogTamper (s : State) (level action : Nat) (e : TamperEvent) : State :=
  s.tlogEvent e.unit level e.source action e.loc e.slice e.detail

/-! Ending work at a life-cycle change (R36, R238). -/

/-- Descriptors that need no customer key, no book and no session: they outlast a change to ISSUED (log entry 29). -/
def keyless (opcode : Nat) : Bool :=
  opcode == 0x0000 || opcode == 0x4011 || opcode == 0x4020 || opcode / 16 == 0x501 || opcode / 0x1000 == 8 ||
    opcode / 0x1000 == 9 || (opcode / 0x1000 == 0xA && opcode / 0x100 != 0xA1)

/-- Opcodes that a life-cycle state serves (R518, R523). -/
def servedIn (st : LcState) (opcode : Nat) : Bool :=
  match st with
  | .bittern => opcode == 0x0000 || opcode == 0x4020 || opcode == 0xA010 || opcode == 0xA002
  | .spent => opcode == 0x0000 || opcode == 0x4020
  | _ => keyless opcode

/-- A number above the cores: the source of a posting whose invocation has ended. -/
def noCore : Nat := 32

/-- The posting of an ended invocation runs on without a core (R350). -/
def State.orphan (s : State) (core : Nat) : State :=
  { s with brine := { s.brine with
      entries := s.brine.entries.map (fun e => if e.applet && e.src == core then { e with src := noCore } else e) } }

/-- The image reads of a core are to be discarded, its service call is given up. -/
def State.dropCoreWork (s : State) (core : Nat) : State :=
  { s with
    reads := s.reads.map (fun (r : Read) => if r.kind == ReadKind.image core then { r with discard := true } else r),
    crypto := { s.crypto with
      streams := s.crypto.streams.filter (fun x => (s.workAt x.work).all (fun w => w.ring != appletRing core)) },
    work := s.work.filter (fun w => w.ring != appletRing core) }

/-- An invocation is ended: the core is cleared, its MPU is disabled (R366), its reads are to be discarded, its service
call is given up (R350). -/
def State.clearCore (s : State) (core : Nat) : State :=
  let s := (s.dropCoreWork core).dropBn (fun j => (j.use == 1 || j.use == 3) && j.who == core)
  let s := s.dropRandom (.service core)
  let s := (s.orphan core).modMpu core (fun m => { m with en := false })
  s.setCore core Core.reset

/-- The entries of a book in their commit grain commit, oldest first (R238). -/
def State.commitInK (s : State) (book : Nat) : State :=
  (s.inK book).foldl (fun s _ => s.commitBook book) s

/-- The same for every book. -/
def State.commitStanding (s : State) : State := (s.books.map Prod.fst).foldl State.commitInK s

/-- Every work that the change ends, with its status: TAMPER or STATE and a result of zeros. A TALLY_ADJUST in stage 2 and the
postings in their commit grain commit first (R238), and what an event of this grain had ended is decided by the change (R221). -/
def State.endForChange (s : State) (target : LcState) (keep : Option Nat) (st : Status) : State :=
  let s := (s.finishLanes State.adjustAt2).commitStanding
  let hits := s.work.filter (fun w => !w.isApplet && (s.endedBelow rankChange w || s.inWindow w.id ||
    (!w.isDone && some w.id != keep && !servedIn target w.opcode)))
  let s := s.redecide rankChange (fun _ => true) st []
  let s := s.endEntries (fun _ => true) st [] false
  let s := (s.applets.cores.map Prod.fst).foldl (fun s c => s.clearCore c) s
  let s := s.dropBn (fun _ => true)
  let ends := s.work.filter (fun w => !w.isDone && some w.id != keep && !servedIn target w.opcode)
  let s := ends.foldl (fun s w => (s.releaseUnits w.id).finishRaw w.id st []) s
  let s := { s with work := s.work.filter (fun w => !(w.isApplet && !w.isDone)) }
  let s := ends.foldl (fun s w => s.dropCollect w.id) s
  if st == .tamper then hits.foldl (fun s w => s.fenceRing w.ring 3 w.tag) s else s

/-- The LSEQ and heads a book had committed when it left OPEN (R105, R136). -/
def Book.frozen (b : Book) : Book :=
  let saved := b.st == .recovering || b.st == .fencedGap || (b.st == .fencedIntegrity && b.staged.isEmpty)
  if saved then { b with lseq := b.target, heads := b.savedHeads, headsIssued := b.savedHeads } else b

/-- A book is released by a life-cycle change (R510); its keys are destroyed (R408) and its formed seals can no longer be signed.
One in DELETING goes on with its deletion. -/
def State.releaseForChange (s : State) (book : Nat) (again : Bool) : State :=
  let b := s.bookAt book
  let bare (b : Book) : Book := { b with seals := [], keysHeld := false, keyMask := [], kEnc := [], kTwk := [], kMac := [], kJrn := [] }
  if b.st == .none_ then s
  else if b.st == .deleting then s.modBook book bare
  else
    let prior := if again && b.st == .released then b.prior else b.st
    let s := s.modBook book (fun b =>
      { bare b.frozen with prior := prior, wb := none, handover := none, restored := false, moved := false })
    ((s.bookState book .released).dropPan book).releaseWithheld book

/-! Transitions (R508, R509). -/

/-- The life-cycle record is written by the two-copy method. -/
def State.recordLife (s : State) : State := s.nvPut partSystem recLife

/-- A page that a life-cycle change overwrites with zeros (R408): slots, material and authority entries, the allow-list, and for
SPENT the helper data. -/
def NvPage.wiped (p : NvPage) (spent : Bool) : Bool :=
  (p.part == partKeys && decide (p.lpage < recFamily 0)) || p.part == partAllow ||
    (spent && p.part == partSystem && p.lpage == recHelper)

/-- KEYS and ALLOW, and what waits in the write buffer for them, after step 4 of R408. -/
def Nv.wipe (n : Nv) (spent : Bool) : Nv :=
  let gone (e : WbEntry) : Bool :=
    e.key / 2 ^ 20 == partAllow || (e.key / 2 ^ 20 == partKeys && decide (e.key % 2 ^ 20 < recFamily 0))
  let n := { n with wbuf := n.wbuf.filter (fun e => !gone e), behind := n.behind.filter (fun e => !gone e) }
  let pages := n.pages.map Prod.fst ++ (if spent then n.copy (recKey partSystem recHelper) else [])
  pages.foldl (fun n p =>
    let v := n.page p
    if v.wiped spent then n.writePhys p { v with data := zeros 256, badCw := [] } else n) n

/-- Everything that R408 destroys, and for SPENT the root with its helper data (R509 step 3, R523). -/
def State.destroyKeys (s : State) : State :=
  let k := { s.keys with compact := [], large := [], auth := [], sessions := [], erasePending := true, erasing := true,
                         remaskPos := 0 }
  let k := if s.tamper.state == .spent then
      { k with helper := none, root := none, kSint := [], kStoreD := [], kStoreT := [], kMask := [], dId := [], qId := [] }
    else k
  { s with keys := k, applets := { s.applets with allow := [] }, nv := s.nv.wipe (s.tamper.state == .spent) }

/-- The life-cycle record of step 1 of R509. -/
def State.enterState (s : State) (target : LcState) (cause num : Nat) (tr : Transition) : State :=
  { s with
    tamper := { s.tamper with
      state := target, erasePending := true, cause := cause, detail := num, entryGrain := s.now,
      entryEpoch := s.keys.epoch, summaryDue := target == LcState.bittern,
      summary := if target == LcState.bittern then none else s.tamper.summary, transition := some tr, stage := none },
    keys := { s.keys with deviceIdCopy := if target == LcState.spent then s.keys.deviceId else s.keys.deviceIdCopy } }

/-- Steps 1 to 3 of R509: the record, the end of work, the release of the books, the destruction of keys. `work` is the
command that waits for the end of the transition. -/
def State.changeState (s : State) (target : LcState) (cause num : Nat) (work : Option Nat) (byTamper : Bool) : State :=
  let again := s.tamper.transition.isSome
  let waits := match s.tamper.transition with
    | some t => t.work
    | none => work
  let tr : Transition := { target := target, work := waits, rewritten := again }
  let st : Status := if byTamper then .tamper else .state
  let s := (s.enterState target cause num tr).recordLife.endForChange target waits st
  let s := (s.books.map Prod.fst).foldl (fun s b => s.releaseForChange b again) s
  let s := s.rngLifeCycle.destroyKeys
  if target == LcState.spent then { s with rng := { s.rng with started := none, waiters := [] } } else s

/-- A level-3 or level-4 event changes the state (R504, R506); in HALT only a change to SPENT (R376, R567). -/
def State.severeActs (s : State) (level : Nat) : Bool :=
  match s.tamper.state with
  | .blank => false
  | .spent => false
  | .bittern => level == 4
  | _ => level == 4 || !s.halted

/-- The sensors run: main power is present, or a flush runs from the keep domain; off in SPENT (R523, R567). -/
def State.sensing (s : State) : Bool := s.tamper.state != .spent && (s.pwr.mainOk || s.pwr.flush.isSome)

/-- An event of level 3 or 4 (R504, R506). An event that arrives in reset with main power present stands for one during
start-up steps 1 to 4, which START_UP makes in one: it is held (R567; log entry 36). -/
def State.severe (s : State) (level : Nat) (e : TamperEvent) : State :=
  if !s.sensing then s
  else if s.pwr.flush.isSome then
    let worse := match s.tamper.flushEvent with
      | some (l, _, _) => decide (l < level)
      | none => true
    let s := s.tlogTamper level 5 e
    if worse then { s with tamper := { s.tamper with flushEvent := some (level, e.cause, e.num) } } else s
  else if !s.pwr.starting then
    let h : HeldEvent := { level := level, cause := e.cause, detail := e.num }
    let s := s.tlogTamper level 5 e
    { s with tamper := { s.tamper with held := s.tamper.held ++ [h] } }
  else if s.severeActs level then
    (s.tlogTamper level level e).changeState (if level = 4 then .spent else .bittern) e.cause e.num none true
  else s.tlogTamper level 0 e

/-! Squash and redo (R35, R64, R222-R225). -/

/-- What a squash did: the state, whether a step is redone, whether it ended work, the slice of the first work hit. -/
structure Squashed where
  st : State
  redone : Bool
  ended : Bool
  slice : Nat

def Squashed.none_ (s : State) : Squashed := { st := s, redone := false, ended := false, slice := 0xFFFF }

/-- The slice of two squashes: the first work hit decides. -/
def firstSlice (a b : Nat) : Nat := if a = 0xFFFF then b else a

/-- One after the other. -/
def Squashed.andThen (q : Squashed) (f : State → Squashed) : Squashed :=
  let r := f q.st
  { st := r.st, redone := q.redone || r.redone, ended := q.ended || r.ended, slice := firstSlice q.slice r.slice }

/-- The result of a prime operation that a second level-2 event ends (R64). -/
def primeTamperResult (opcode : Nat) : Bytes := if opcode = 0x1011 then faultResult 0 1 else []

/-- A key that names no entry: a lane whose step was squashed has none left in the grain. -/
def noEntry : Nat × Bool := (0, true)

/-- A second fault has ended ledger work (R243). -/
def State.redoFailed (s : State) (ledger : Bool) : State :=
  if ledger then { s with pan := { s.pan with redoFail := true } } else s

/-- A fault has ended the work in this grain (R221). -/
def State.markFault (s : State) (id : Nat) : State := s.modWork id (fun w => { w with ending := some (s.now, rankFault) })

/-- A fault ends the work. -/
def State.finishFault (s : State) (id : Nat) (st : Status) (res : Bytes) : State := (s.finish id st res).markFault id

/-- The status after a second glitch: the verify of a MAC call answers AUTH for every pair but a match (R349). -/
def Work.glitchStatus (w : Work) : Status :=
  if w.isApplet && (w.opcode == 0x1021 || (w.opcode == 0x5001 && bit w.aux 2)) then .auth else .tamper

/-- A prime operation is squashed: redone once, two grains later, then ended with TAMPER (R64 condition 5). -/
def State.squashPrimeWork (s : State) (w : Work) : Squashed :=
  if w.redone then
    { st := (s.redoFailed (w.opcode == 0x1011)).finishFault w.id w.glitchStatus (primeTamperResult w.opcode), redone := false,
      ended := true, slice := w.slice }
  else
    { st := s.modWork w.id (fun v => { v.late 5 with redone := true, extra := v.extra + 2 }), redone := true, ended := false,
      slice := w.slice }

/-- A redo of ledger work is counted once for its fault (R243). -/
def Squashed.noted (q : Squashed) : Squashed :=
  if q.redone then { q with st := { q.st with pan := { q.st.pan with redos := q.st.pan.redos + 1 } } } else q

/-- The prime operations in lanes that meet a condition. -/
def State.inLanes (s : State) (lane : Nat → Bool) : List Work :=
  s.work.filter (fun w => w.isPrime && w.activeAt 1 && lane w.lane)

/-- A TALLY_ADJUST of these operations is redone: a redo of ledger work. -/
def redoesAdjust (hits : List Work) : Bool := hits.any (fun w => w.opcode == 0x1011 && !w.redone)

/-- Prime operations are squashed. -/
def State.squashPrimes (s : State) (hits : List Work) : Squashed :=
  hits.foldl (fun q w => q.andThen (fun s => s.squashPrimeWork w)) (Squashed.none_ s)

/-- The prime operations in lanes that meet a condition are squashed; the redo of a TALLY_ADJUST is one of ledger work. -/
def State.squashPrime (s : State) (lane : Nat → Bool) : Squashed :=
  let hits := s.inLanes lane
  let q := s.squashPrimes hits
  if redoesAdjust hits then q.noted else q

/-- A second fault ends an entry with the kind of the fault (R222, R223). -/
def State.endFaulted (s : State) (key : Nat × Bool) (st : Status) : State :=
  match s.entryAt key with
  | none => s
  | some e =>
    let s := ((s.redoFailed true).dropEntries (fun x => x.key == key)).endEntry e st (faultResult 0 1) true
    if e.applet then s else s.markFault e.src

/-- Stage V starts again at the next boundary: one grain with 2 slots, two with 4 (R161, R222). -/
def Entry.againV (e : Entry) : Entry := { e with vLeft := if 128 < e.body.length then 3 else 2 }

/-- What a fault squashes: an entry, its steps of stages F, C, R and K, its step of stage V. -/
structure Hit where
  key : Nat × Bool
  lanes : Bool
  verify : Bool

/-- A squashed entry: it gives up its computed records, and when it is redone its stage V too where that was hit. -/
def Entry.hit (e : Entry) (h : Hit) : Entry :=
  let x := if h.lanes || e.redone then e.restart else e
  let x := if h.verify && !e.redone then x.againV else x
  { x with redone := true }

/-- A fault squashes entries: each is redone once under R223, then ended with the kind of the fault (R222). Their dependants
re-execute, those that the fault squashes itself apart (R168). -/
def State.squashHits (s : State) (hits : List Hit) (st : Status) : Squashed :=
  let es := s.brine.entries.filter (fun e => hits.any (fun h => h.key == e.key))
  let ends := (es.filter Entry.redone).map Entry.key
  let left := ends ++ (hits.filter Hit.lanes).map Hit.key
  let s := { s with
    brine := { s.brine with entries := s.brine.entries.map (fun (e : Entry) =>
      match hits.find? (fun (h : Hit) => h.key == e.key) with | some h => e.hit h | none => e) },
    sched := { s.sched with ports := s.sched.ports.map (fun k => if left.contains k then noEntry else k),
                            units := s.sched.units.map (fun k => if left.contains k then noEntry else k) } }
  let s := s.reexecute left
  { st := ends.foldl (fun s k => s.endFaulted k st) s, redone := es.any (fun e => !e.redone), ended := !ends.isEmpty,
    slice := (es.map Entry.slice).headD 0xFFFF }

/-- One entry is squashed. -/
def State.redoStages (s : State) (key : Nat × Bool) (lanes verify : Bool) (st : Status) : Squashed :=
  s.squashHits [{ key := key, lanes := lanes, verify := verify }] st

/-- A fault of the lanes, of the entry or of its commit. -/
def State.redoEntry (s : State) (key : Nat × Bool) (st : Status) : Squashed := s.redoStages key true false st

/-- The holders of the ports or compute units of some lanes: lane `k` has the `k`th of the list. -/
def holdersOf (lane : Nat → Bool) (l : List (Nat × Bool)) : List (Nat × Bool) :=
  (l.zipIdx.filter (fun x => lane x.2)).map Prod.fst

/-- Entries with a leg in one of the posting lanes in this grain, oldest first (R224): the ports and the compute units are given
out oldest first from lane 0 (R162; log entry 30). -/
def State.entriesIn (s : State) (lane : Nat → Bool) : List (Nat × Bool) :=
  let all := holdersOf lane s.sched.ports ++ holdersOf lane s.sched.units
  (s.brine.entries.map Entry.key).filter (fun k => all.contains k)

/-- The entries in the posting lanes are squashed (R224). -/
def State.squashPosting (s : State) (lane : Nat → Bool) : Squashed :=
  (s.squashHits ((s.entriesIn lane).map (fun k => { key := k, lanes := true, verify := false })) .tamper).noted

/-- A fault in the CMAC unit: stage V of the entry is redone once. That the entry does not go back to stage F as well is the
model's reading of R222 and R223, which leave it open (log entry 58). -/
def State.redoVerify (s : State) (e : Entry) (st : Status) : Squashed := s.redoStages e.key false true st

/-- The comparator of the entry at this place among those in stage V, oldest first, glitches (R222, R422). -/
def State.squashVerify (s : State) (index : Nat) : Squashed :=
  match (s.brine.entries.filter (fun e => e.vRes.isNone))[index]? with
  | none => Squashed.none_ s
  | some e => (s.redoVerify e .tamper).noted

/-- The entry is the oldest of its book and stands in its commit grain (R225). -/
def State.committing (s : State) (e : Entry) : Bool :=
  e.stage == .commit && (s.brine.entries.find? (fun x => x.book == e.book)).any (fun x => x.key == e.key)

/-- The current step of every entry is squashed: legs in lanes, stage R, the commit grain, and stage V (R223, R225). -/
def State.squashEntries (s : State) : Squashed :=
  let inLane := s.entriesIn (fun _ => true)
  let hits : List Hit := s.brine.entries.map (fun e =>
    { key := e.key, lanes := inLane.contains e.key || e.stage == .rules || s.committing e, verify := e.vRes.isNone })
  s.squashHits (hits.filter (fun h => h.lanes || h.verify)) .tamper

/-- The commit grain of the oldest entry of a book is squashed (R225). -/
def State.squashCommit (s : State) (book : Nat) : Squashed :=
  match s.brine.entries.find? (fun e => e.book == book) with
  | none => Squashed.none_ s
  | some e => if e.stage == .commit then (s.redoEntry e.key .tamper).noted else Squashed.none_ s

/-- The comparison of an operation glitches: it is made again once, then the operation ends with TAMPER (R422). -/
def State.squashCompare (s : State) (w : Option Work) : Squashed :=
  match w with
  | none => Squashed.none_ s
  | some w =>
    if w.redone then
      { st := (s.releaseUnits w.id).finish w.id w.glitchStatus [], redone := false, ended := true, slice := w.slice }
    else
      { st := s.modWork w.id (fun v => { v with redone := true }), redone := true, ended := false, slice := w.slice }

/-- A stream compares: a GCM tag, or the tag of a verify (R421). -/
def Work.compares (w : Work) : Bool :=
  (w.opcode == 0x5000 && w.aux % 8 == 0 && bit w.aux 3) || (w.opcode == 0x5001 && bit w.aux 2)

/-- The oldest stream of a lane or digest engine that compares. -/
def State.squashStream (s : State) (digest : Bool) (unit : Nat) : Squashed :=
  s.squashCompare (((s.crypto.streams.filter (fun x => x.onDigest == digest && x.unit == some unit)).filterMap
    (fun x => s.workAt x.work)).find? Work.compares)

/-- The check of the first Saltern load of a book is made again once; then the load fails, and what waits for it ends with
TAMPER (R421, R422). -/
def State.squashLoad (s : State) (book : Nat) : Squashed :=
  match s.pan.loads.find? (fun l => l.book == book) with
  | none => Squashed.none_ s
  | some l =>
    if l.redone then { st := s.loadFailed book l.block .tamper, redone := false, ended := true, slice := book }
    else { st := s.modLoad book l.block (fun x => { x with redone := true }), redone := true, ended := false, slice := book }

/-- The journal writer checks frames and statements for the oldest of these of a book: REPLAY, CHECKPOINT_RESTORE, ADOPT. -/
def State.journalCompares (s : State) (book : Nat) : Option Work :=
  s.work.find? (fun w => w.slice == book && [0x3012, 0x3020, 0x3031].contains w.opcode && !w.isDone && !w.waiting)

/-- Firmware checks for the oldest command of the management core that has been routed to it. -/
def State.firmwareCompares (s : State) : Option Work :=
  s.work.find? (fun w => unitOf w.opcode == unitMgmt && !w.isDone && !w.isHeld)

/-- A running big-number engine takes its step again, which costs one step more (R35, R431). -/
def State.squashBn (s : State) (e : Nat) : State :=
  let x := s.bnAt e
  match x.running with
  | none => s
  | some j => s.setBn e (if 0 < x.pause then { x with pause := x.pause + 1 } else { x with running := some { j with cost := j.cost + 1 } })

/-- An Alaing core takes its instruction again (R35, R68). -/
def State.squashCore (s : State) (c : Nat) : State :=
  if (s.coreAt c).mode == .running then s.modCore c (fun x => { x with squash := true }) else s

/-- A unit has a step in this grain. -/
def State.stepping (s : State) (u : UnitId) : Bool := s.sched.served.any (fun e => e.1 == u)

/-- The units whose step is squashed take it again at the next boundary: they begin no other step there (R35, R38). -/
def State.redoSteps (s : State) (p : UnitId → Bool) : Squashed :=
  let us := (s.sched.served.map Prod.fst).filter p
  { st := { s with sched := { s.sched with skip := us ++ s.sched.skip } }, redone := !us.isEmpty, ended := false,
    slice := 0xFFFF }

/-- The unit's own redo of its step: engines, cores and lanes redo in ways of their own. -/
def UnitId.redoesAlone (u : UnitId) : Bool :=
  match u with
  | .posting _ => true
  | .bignum _ => true
  | .alaing _ => true
  | _ => false

/-- The units behind a unit code of R584. -/
def codeUnit (code index : Nat) (u : UnitId) : Bool :=
  match code, u with
  | 0, .prime k => k == index
  | 2, .pan => true
  | 2, .mover => true
  | 3, .keyStore => true
  | 4, .journal => true
  | 5, .digest k => k == index
  | 6, .aes k => k == index
  | 9, .dma k => k == index
  | 10, .nv => true
  | 11, .random => true
  | 12, .mgmt => true
  | _, _ => false

/-- The work of one unit that a squash hits: unit code of R584 and number of the lane, engine or core, or for the Pan and the
journal writer the book whose entry stands in its commit grain, or whose load, frame or statement is checked; `glitch` tells that
a comparator caused it. A unit that has no step has none to redo. -/
def State.squashWork (s : State) (glitch : Bool) (unit index : Nat) : Squashed :=
  match unit with
  | 0 => s.squashPrime (· == index)
  | 1 => if glitch then s.squashVerify index else s.squashPosting (· == index)
  | 2 => if glitch then s.squashLoad index else s.squashCommit index
  | 4 => if glitch then s.squashCompare (s.journalCompares index) else s.squashCommit index
  | 5 => if glitch then s.squashStream true index else Squashed.none_ s
  | 6 => if glitch then s.squashStream false index else Squashed.none_ s
  | 7 => { Squashed.none_ (s.squashBn index) with redone := (s.bnAt index).running.isSome }
  | 8 => { Squashed.none_ (s.squashCore index) with redone := (s.coreAt index).mode == .running }
  | 11 => Squashed.none_ s.rngSquash
  | 12 => if glitch then s.squashCompare s.firmwareCompares else Squashed.none_ s
  | _ => Squashed.none_ s

/-- The step of one unit is squashed (R35), and the unit takes it again. -/
def State.squashUnit (s : State) (glitch : Bool) (unit index : Nat) : Squashed :=
  (s.squashWork glitch unit index).andThen (fun s => s.redoSteps (codeUnit unit index))

/-- Engines and cores take their step again. -/
def State.squashSteps (s : State) : Squashed :=
  let busy := (List.range bnEngines).any (fun e => (s.bnAt e).running.isSome) ||
    (List.range 32).any (fun c => (s.coreAt c).mode == .running)
  let s := (List.range bnEngines).foldl (fun s e => s.squashBn e) s
  let s := (List.range 32).foldl (fun s c => s.squashCore c) s
  let q := s.rngSquash.redoSteps (fun u => !u.redoesAlone)
  { q with redone := busy || q.redone }

/-- The current step of every unit is squashed (R504), in one event (R224). -/
def State.squashAll (s : State) : Squashed :=
  let hits := s.inLanes (fun _ => true)
  let p := s.squashPrimes hits
  let q := p.st.squashEntries
  let e : Squashed := { st := q.st, redone := redoesAdjust hits || q.redone, ended := p.ended || q.ended,
                        slice := firstSlice p.slice q.slice }
  let n := { e.noted with redone := p.redone || q.redone }
  n.andThen State.squashSteps

/-- Level-2 events of the last 5,760 grains (R505). -/
def State.window2 (s : State) : List Nat := s.tamper.window.filter (fun g => decide (s.now < g + pound))

/-- A level-2 event: counted, its step squashed and redone, the sixteenth in the window also level 3 (R504-R506). -/
def State.level2 (s : State) (e : TamperEvent) (squash : State → Squashed) : State :=
  if !s.sensing then s
  else
    let w := s.window2 ++ [s.now]
    let s := { s with tamper := { s.tamper with l2 := satAdd 0xFFFFFFFF s.tamper.l2 1, window := w } }
    if s.pwr.flush.isSome then s.tlogTamper 2 0 e
    else
      let esc := decide (16 ≤ w.length)
      let q := if esc && s.severeActs 3 then Squashed.none_ s else squash s
      let action := if q.ended then 2 else if q.redone then 1 else 0
      let s := q.st.tlogTamper 2 action { e with slice := firstSlice q.slice e.slice }
      if esc then
        s.severe 3 { source := 0x1A, cause := 0x05, unit := unitTamper, loc := 0, slice := 0xFFFF, detail := 16, num := 0 }
      else s

/-- TAMPER_LEVEL2_SQUASH: a unit finds the two wires of its grain line equal (R35, R38), or the two flags of its
comparator (R422); log entry 31. -/
def execTamperLevel2Squash (glitch : Option Bool) (unit index : Nat) (s : State) : Host.Outcome State Fault Refusal :=
  .next (if 12 < unit || !s.sensing then s
    else
      let e : TamperEvent :=
        { source := if glitch.isSome then 0x12 else 0x11, cause := 0, unit := placeOfUnit unit, loc := unit, slice := 0xFFFF,
          detail := if glitch = some true then 3 else 0, num := 0 }
      let s := if glitch.isSome then { s with crypto := { s.crypto with cmpGlitch := s.crypto.cmpGlitch + 1 } } else s
      s.level2 e (fun s => s.squashUnit glitch.isSome unit index))

/-! Sensors (R498). -/

/-- A sensor event. -/
def sensor (source cause loc detail num : Nat) : TamperEvent :=
  { source := source, cause := cause, unit := unitTamper, loc := loc, slice := 0xFFFF, detail := detail, num := num }

/-- GLITCH_DETECTOR_TRIP: detectors 0 to 3 VCORE, 4 and 5 VSRAM, 6 VIO, 7 HOLD. VCORE and VSRAM feed every unit that
takes steps, VIO and HOLD none (log entry 32). From the declaration of a power failure on, the detectors of the main
rails are masked (R554). -/
def execGlitchDetectorTrip (detector : Nat) (s : State) : Host.Outcome State Fault Refusal :=
  .next (if 8 ≤ detector || (detector < 7 && s.pwr.flush.isSome) then s
    else s.level2 (sensor 0x01 0 detector 0 0) (fun s => if detector < 6 then s.squashAll else Squashed.none_ s))

/-- OVERVOLTAGE_TRIP: rail 0 VCORE, 1 VSRAM, 2 HOLD. -/
def execOvervoltageTrip (rail : Nat) (s : State) : Host.Outcome State Fault Refusal :=
  .next (if 3 ≤ rail then s else s.severe 3 (sensor 0x02 0x02 rail 0 rail))

/-- A clock-monitor trip stops the clock; the highest level waits for the relock (R504, R506). -/
def State.stopClock (s : State) (level mhz : Nat) : State :=
  if !s.sensing then s
  else
    let w := match s.tamper.afterRelock with
      | some (l, f) => if level ≤ l then (l, f) else (level, mhz)
      | none => (level, mhz)
    { s with tamper := { s.tamper with clockStopped := true, afterRelock := some w } }

/-- CLOCK_PERIOD_TRIP. -/
def execClockPeriodTrip (s : State) : Host.Outcome State Fault Refusal := .next (s.stopClock 2 0)

/-- CLOCK_FREQUENCY_TRIP: the mean frequency lies outside 5 % of 1.6 GHz. -/
def execClockFrequencyTrip (mhz : Nat) (s : State) : Host.Outcome State Fault Refusal :=
  .next (if 1520 ≤ mhz ∧ mhz ≤ 1680 then s else s.stopClock 3 mhz)

/-- CLOCK_RELOCK: the response proceeds (R504). -/
def execClockRelock (s : State) : Host.Outcome State Fault Refusal :=
  .next (match s.tamper.afterRelock with
    | none => s
    | some (level, mhz) =>
      let s := { s with tamper := { s.tamper with clockStopped := false, afterRelock := none } }
      if level = 2 then s.level2 (sensor 0x03 0 0 0 0) State.squashAll else s.severe 3 (sensor 0x04 0x01 0 mhz 0))

/-- LIGHT_SENSOR_TRIP. -/
def execLightSensorTrip (sensorNo : Nat) (s : State) : Host.Outcome State Fault Refusal :=
  .next (if 64 ≤ sensorNo then s else s.severe 4 (sensor 0x05 0x10 sensorNo 0 sensorNo))

/-- Tj in units of 0.125 °C outside a range in degrees. -/
def outside (tj : BitVec 16) (low high : Int) : Bool := decide (tj.toInt < 8 * low) || decide (8 * high < tj.toInt)

/-- DETAIL of a temperature event: Tj in two's complement over 8 bytes. -/
def tjDetail (tj : BitVec 16) : Nat := (tj.signExtend 64).toNat

/-- TEMPERATURE_GRADE_TRIP: Tj outside the range of the grade (R2). -/
def execTemperatureGradeTrip (sensorNo : Nat) (tj : BitVec 16) (s : State) : Host.Outcome State Fault Refusal :=
  let out := if Config.gradeX then outside tj (-40) 105 else outside tj 0 95
  .next (if sensorNo < 16 && out && s.sensing then s.level1 unitTamper 0x06 sensorNo 0xFFFF (tjDetail tj) else s)

/-- Tj at or beyond a trip threshold, in degrees. R3 has the device respond at the threshold, R498 and R604 beyond it: that
the threshold itself trips is the model's choice (log entry 67). -/
def tripped (tj : BitVec 16) (low high : Int) : Bool := decide (tj.toInt ≤ 8 * low) || decide (8 * high ≤ tj.toInt)

/-- TEMPERATURE_TRIP (R3, R498): Tj at or below -45 °C, or at or above 125 °C. -/
def execTemperatureTrip (sensorNo : Nat) (tj : BitVec 16) (s : State) : Host.Outcome State Fault Refusal :=
  .next (if sensorNo < 16 && tripped tj (-45) 125 then s.severe 3 (sensor 0x07 0x03 sensorNo (tjDetail tj) sensorNo) else s)

/-- One track of the analogue Thorn wall check: its deviation in units of 0.1 %. -/
def State.trackDeviates (s : State) (track dev : Nat) : State :=
  if 200 < dev then s.severe 3 (sensor 0x09 0x04 track dev track)
  else if 80 < dev then s.level1 unitTamper 0x09 track 0xFFFF dev
  else s

/-- SENSOR_CALIBRATION (R499): the check of every track, in one background step of the tamper monitor; a track that the list
does not name shows no deviation (log entry 91). Background task 3 is done. -/
def execSensorCalibration (deviations : List (Nat × Nat)) (s : State) : Host.Outcome State Fault Refusal :=
  .next (if !s.sensing then s
    else
      s.stepOf .tamper background (fun s =>
        (deviations.foldl (fun s d => if d.1 < 256 then s.trackDeviates d.1 d.2 else s) s).taskDone 3))

/-- SUBSTRATE_MESH_FAIL while powered. -/
def execSubstrateMeshFail (mesh : Nat) (s : State) : Host.Outcome State Fault Refusal :=
  .next (if 2 ≤ mesh || !s.pwr.mainOk then s else s.severe 4 (sensor 0x0A 0x12 mesh 0 mesh))

/-! The battery domain (R500-R503). -/

/-- Latch cause bits as BAT_STATUS[2:1] (R580). -/
def latchBits (loop mesh : Bool) : Nat := flag loop + 2 * flag mesh

/-- BATTERY_LOOP_CHECK: the mesh is checked while main power is absent. With main power present a latch that is set is a
level-4 event at once. -/
def State.batteryCheck (s : State) (loopFault meshFault : Bool) : State :=
  let loop := loopFault && s.tamper.loopEn
  let mesh := meshFault && !s.pwr.mainOk
  if !s.tamper.arm || !(loop || mesh) || s.tamper.state == .spent then s
  else
    let t := s.tamper
    let first := !t.latch
    let s := { s with tamper := { t with latch := true, latchLoop := t.latchLoop || loop, latchMesh := t.latchMesh || mesh } }
    if s.pwr.mainOk && first then
      s.severe 4 { source := 0x0B, cause := 0x13, unit := unitBattery, loc := 0, slice := 0xFFFF,
                   detail := latchBits s.tamper.latchLoop s.tamper.latchMesh, num := 0 }
    else s

/-- BATTERY_LOOP_CHECK. -/
def execBatteryLoopCheck (loopFault meshFault : Bool) (s : State) : Host.Outcome State Fault Refusal :=
  .next (s.batteryCheck loopFault meshFault)

/-- VBAT_LOW: below 2.5 V with main power present and ARM set (R503). -/
def execVbatLow (s : State) : Host.Outcome State Fault Refusal :=
  .next (if s.pwr.mainOk && s.tamper.arm && !s.tamper.vbatLow then
    { s.level1 unitBattery 0x0C 0 0xFFFF 2 with tamper := { (s.level1 unitBattery 0x0C 0 0xFFFF 2).tamper with vbatLow := true } }
    else s)

/-- VBAT_RESTORED (R503). -/
def execVbatRestored (s : State) : Host.Outcome State Fault Refusal :=
  .next (if s.pwr.mainOk then { s with tamper := { s.tamper with vbatLow := false } } else s)

def offBatCfg : Nat := 0x070020

/-- A write of BAT_CFG (R502): the check of loop and mesh before ARM is set. -/
def State.batCfg (s : State) (value : Nat) (loopOk meshOk : Bool) : State :=
  if s.tamper.state != .issued then s.plogReg unitBattery 0 0xFFFF offBatCfg
  else
    let loopEn := bit value 1
    if bit value 0 then
      if meshOk && (loopOk || !loopEn) then
        let p : Word := BitVec.ofNat 32 (Config.freeNat s.draws)
        { s with tamper := { s.tamper with arm := true, armRec := true, loopEn := loopEn, pattern := some p, latch := false,
                                           latchLoop := false, latchMesh := false } }.drawn.recordLife
      else
        { s with tamper := { s.tamper with armErr := true } }.plogReg unitBattery 0 0xFFFF offBatCfg
    else
      { s with tamper := { s.tamper with arm := false, armRec := false, loopEn := loopEn, pattern := none, latch := false,
                                         latchLoop := false, latchMesh := false } }.recordLife

/-- BAT_CFG_WRITE. -/
def execBatCfgWrite (value : Nat) (loopOk meshOk : Bool) (s : State) : Host.Outcome State Fault Refusal :=
  .next (s.onReg offBatCfg (fun s => s.batCfg value loopOk meshOk))

end Sys2Proof.Machine
end

