-- ==== Sys2Proof/Machine/Envelopes.lean ====
section
/-! DEFINITION. Nalomon envelopes (R404-R407, R512): SLOT_WRITE, SLOT_ERASE, AUTH_WRITE, AUTH_ERASE, PROVISION. -/

namespace Sys2Proof.Machine
open Sys2Proof

/-- OP codes of R404. -/
def opSlotWrite : Nat := 1
def opSlotErase : Nat := 2
def opAuthWrite : Nat := 3
def opAuthErase : Nat := 4
def opProvisionEnv : Nat := 5

/-! Fields of an envelope (R404). -/

def envOp (d : Bytes) : Nat := fieldAt d 0x06 1
def envKind (d : Bytes) : Nat := fieldAt d 0x07 1
def envCounter (d : Bytes) : Nat := fieldAt d 0x18 8
def envFamily (d : Bytes) : Nat := fieldAt d 0x20 2
def envTarget (d : Bytes) : Nat := fieldAt d 0x22 1
def envIndex (d : Bytes) : Nat := fieldAt d 0x24 2
def envMacSlot (d : Bytes) : Nat := fieldAt d 0x26 2
def envDesc (d : Bytes) : Bytes := bytesAt d 0x28 24
def envEph (d : Bytes) : Bytes := bytesAt d 0x40 96
def envWrapLen (d : Bytes) : Nat := fieldAt d 0xA0 2
def envWrapped (d : Bytes) : Bytes := bytesAt d 0xB0 (envWrapLen d)
/-- What the authenticator covers. -/
def envBody (d : Bytes) : Bytes := d.take (0xB0 + envWrapLen d)
def envAuth (d : Bytes) : Bytes := d.drop (0xB0 + envWrapLen d)
/-- The label of the transport key: DEVICE_ID and COUNTER. -/
def envLabel (d : Bytes) : Bytes := bytesAt d 0x08 24

/-- KIND of an authority entry that suits its index (R403). -/
def authKindOf (index : Nat) : Nat := if index = 0 then 1 else if index = 1 then 2 else if index < 18 then 3 else 4

/-- KIND and CURVE suit an index of the authority table (R403). -/
def authFits (index kind curve : Nat) : Bool :=
  decide (index < 34) && kind == authKindOf index && (curve == 0x11 || (curve == 0x10 && kind == 4))

/-- Bytes of a public key of a curve. -/
def pubLen (curve : Nat) : Nat := if curve = 0x10 then 64 else 96

/-- DESC of a SLOT_WRITE (check 4 of R406). -/
def slotDescOk (target family wrapLen : Nat) (x : Bytes) : Bool :=
  let type := fieldAt x 0 1
  let flags := fieldAt x 1 1
  let attr := BitVec.ofNat 32 (fieldAt x 4 4)
  match typeSize type with
  | none => false
  | some n =>
    typeLarge type == (target == 1) && decide (target < 2) && bit flags 0 && decide (1 ≤ bits flags 3 1) && decide (flags < 16) &&
      fieldAt x 2 2 == family && attr &&& attrReserved == 0 && (!attr.getLsbD attrUnlimited || fieldAt x 0x0A 6 == 0) &&
      (type / 16 == 2 || fieldAt x 0x10 8 == 0) && wrapLen == n + 8

/-- The fields of an envelope agree with its OP (check 4 of R406). -/
def envFormOf (d : Bytes) : Bool :=
  let op := envOp d
  let fam := envFamily d
  let x := envDesc d
  let slotOp := decide (1 ≤ fam) && decide (fam ≤ 255) && decide (envTarget d < 2) && decide (envIndex d < slotCount (envTarget d)) &&
    (if envKind d == 2 then decide (envMacSlot d < 12288) else envMacSlot d == 0)
  let plain := allZero x && envWrapLen d == 0
  let authOp := fam == 0 && envTarget d == 2 && decide (envIndex d < 34) && envMacSlot d == 0
  match op with
  | 1 => slotOp && slotDescOk (envTarget d) fam (envWrapLen d) x && (envKind d == 1 || allZero (envEph d))
  | 2 => slotOp && plain && allZero (envEph d)
  | 3 =>
    authOp && authFits (envIndex d) (fieldAt x 0 1) (fieldAt x 1 1) && allZero (bytesAt x 2 6) &&
      (3 ≤ fieldAt x 0 1 || allZero (bytesAt x 8 16)) && envWrapLen d == pubLen (fieldAt x 1 1) && allZero (envEph d)
  | 4 => authOp && plain && allZero (envEph d)
  | 5 =>
    fam == 0 && envTarget d == 0 && envIndex d == 0 && envMacSlot d == 0 && plain && allZero (envEph d) && envKind d == 1
  | _ => false

/-- Check 4 of R406; AUTHZ is used by authority operations only. -/
def envForm (d : Bytes) (authz : Bool) : Bool :=
  bytesAt d 0 4 == ascii "NLMN" && fieldAt d 4 2 == 1 && (envKind d == 1 || envKind d == 2) && fieldAt d 0x23 1 == 0 &&
    allZero (bytesAt d 0xA2 14) && d.length == 0xB0 + envWrapLen d + (if envKind d == 1 then 96 else 16) && envFormOf d &&
    (!authz || envOp d == 3 || envOp d == 4)

/-- The first failure of AUTH_KIND 0x02 (check 7). A slot without ENVELOPE answers STATE; for one whose CLASSES or SLICE
bars the operation check 7 names no status and R383 names POLICY (log entry 76). -/
def State.envMacFail (s : State) (d : Bytes) (slice : Nat) : Option Status :=
  let k := s.slotAt 0 (envMacSlot d)
  firstFail [
    (k.occupied && k.family == envFamily d && k.attr.getLsbD attrEnvelope && k.type == 0x03 && decide (k.level ≤ 6), .state),
    (attrAllows k.attr attrEnvelope 2 k.slice slice, .policy),
    (!k.bad, .slotBad), (!s.slotExpired k, .expired), (k.attr.getLsbD attrUnlimited || k.uses != 0, .exhausted),
    (cmac k.material (envBody d) == envAuth d, .auth)]

/-- The first failure of AUTH_KIND 0x01 under a public key; STATE when none is installed. -/
def envSigFail (pub : Option Bytes) (d : Bytes) : Option Status :=
  match pub with
  | none => some .state
  | some q => if verifyP384 q (envAuth d) (sha384 (envBody d)) then none else some .auth

/-- PUBLIC of the installed key authority. -/
def State.keyAuthority (s : State) : Option Bytes :=
  if (s.authAt 0).occupied then some (s.authAt 0).pub else none

/-- PUBLIC of entry 0 of the confirmed stage. -/
def State.stagedAuthority (s : State) : Option Bytes :=
  s.tamper.stage.bind (fun l => (l.find? (fun e => e.index == 0)).map StageEntry.pub)

/-- Check 7 of R406. The record of the key authority must be readable (R474). -/
def State.envAuthFail (s : State) (d authz : Bytes) (slice : Nat) : Option Status :=
  let op := envOp d
  if op == opProvisionEnv then envSigFail s.stagedAuthority d
  else if envKind d == 1 && !s.recordOk partKeys (recAuth 0) then some .fault
  else if op == opAuthWrite || op == opAuthErase then
    if envKind d != 1 then some .auth
    else
      match envSigFail s.keyAuthority d with
      | some st => some st
      | none => if s.authorised s.custodians authz opAuthority (sha256 d) then none else some (s.custodyFail .auth)
  else if envKind d == 1 then envSigFail s.keyAuthority d
  else s.envMacFail d slice

/-- Check 8 of R406: the slot may be written. -/
def State.slotTargetOk (s : State) (d : Bytes) : Bool :=
  let k := s.slotAt (envTarget d) (envIndex d)
  let master := envTarget d == 0 && s.books.any (fun b => b.2.st != .none_ && b.2.keySlot == envIndex d)
  (!k.occupied || k.family == envFamily d) && (!master || k.bad)

/-- The transport key (R405). -/
def State.transportKey (s : State) (d : Bytes) : Bytes :=
  if envKind d == 1 then
    let z := ecdh p384 s.envelopeKey (fieldAt (envEph d) 0 48) (fieldAt (envEph d) 48 48)
    kdf ((sha384 (ascii "SKAORA-NALOMON" ++ leBytes 48 z)).take 32) 2 0x03 (envLabel d) 32
  else
    let k := s.slotAt 0 (envMacSlot d)
    kdf k.material (k.level + 1) 0x03 (envLabel d) 32

/-- The material of a SLOT_WRITE; none when check 9 fails. -/
def State.envMaterial (s : State) (d : Bytes) : Option Bytes :=
  let onCurve := envKind d == 2 || p384.on (fieldAt (envEph d) 0 48) (fieldAt (envEph d) 48 48)
  if onCurve then kwUnwrap (s.transportKey d) (envWrapped d) else none

/-- Check 10 of R406 for material. -/
def materialOk (type e : Nat) (m : Bytes) : Bool :=
  let scalar (n : Nat) : Bool := decide (1 ≤ leNat m) && decide (leNat m < n)
  let rsa (w : Nat) : Bool :=
    let f (i : Nat) : Nat := fieldAt m (w * i) w
    let inv (a b n : Nat) : Bool := decide (2 ≤ n) && a * b % n == 1
    e % 2 == 1 && decide (3 ≤ e) && inv e (f 2) (f 0 - 1) && inv e (f 3) (f 1 - 1) && inv (f 1) (f 4) (f 0)
  match type with
  | 0x10 => scalar p256.n
  | 0x11 => scalar p384.n
  | 0x12 => scalar p521.n
  | 0x20 => rsa 128
  | 0x21 => rsa 192
  | 0x22 => rsa 256
  | _ => true

/-- Checks 5 to 11 of R406: the failure, or none. -/
def State.envChecks (s : State) (d authz : Bytes) (slice : Nat) : Option (Nat × Status) :=
  let op := envOp d
  let slotOp := op == opSlotWrite || op == opSlotErase
  let x := envDesc d
  let m := if op == opSlotWrite then s.envMaterial d else some []
  let source := op == opAuthWrite && fieldAt x 0 1 == 3
  firstFail [
    (bytesAt d 8 16 == s.keys.deviceId, (5, Status.policy)),
    (s.recordOk partKeys (recFamily (envFamily d)), (6, .fault)),
    (envCounter d == s.familyAt (envFamily d) + 1, (6, .policy)),
    ((s.envAuthFail d authz slice).isNone, (7, (s.envAuthFail d authz slice).getD .auth)),
    (!slotOp || s.slotTargetOk d, (8, .policy)),
    (m.isSome, (9, .auth)),
    (op != opSlotWrite || materialOk (fieldAt x 0 1) (fieldAt x 0x10 8) (m.getD []), (10, .range)),
    (!source || bytesAt x 8 16 == deviceIdOf (envWrapped d), (10, .policy)),
    (s.holdHealthy, (11, .holdLow))]

/-! Effects (R407). -/

/-- The slot a SLOT_WRITE installs, masked with bytes of the random unit. -/
def State.newSlot (s : State) (d m r : Bytes) : Slot :=
  let x := envDesc d
  let attr := BitVec.ofNat 32 (fieldAt x 4 4)
  let k : Slot :=
    { type := fieldAt x 0 1, occupied := true, level := bits (fieldAt x 1 1) 3 1, family := fieldAt x 2 2, attr := attr,
      slice := fieldAt x 8 2, uses := fieldAt x 0x0A 6, usesRec := fieldAt x 0x0A 6, e := fieldAt x 0x10 8, mac := [],
      stored := if attr.getLsbD attrVolatile then zeros m.length else s.keys.seal (envTarget d) (envIndex d) m,
      masked := xorBytes m r, mask := r, bad := false, epoch := s.keys.epoch, install := 0,
      swapped := 0 }
  { k with mac := slotMac s.keys.kSint (envTarget d) (envIndex d) k m }

/-- An authority entry with its MAC (R403). -/
def State.authEntry (s : State) (index kind curve serial : Nat) (ident pub : Bytes) : Authority :=
  let a : Authority :=
    { kind := kind, curve := curve, occupied := true, serial := serial, ident := fit 16 ident, pub := fit 96 pub, mac := [] }
  { a with mac := (cmac s.keys.kSint (leBytes 1 2 ++ [0] ++ leBytes 2 index ++ a.covered)).take 8 }

/-- The target's new contents: what the last record of R407 commits. -/
def State.envTargetImage (s : State) (d r : Bytes) : RecImage :=
  let x := envDesc d
  match envOp d with
  | 1 => .slot (envTarget d) (envIndex d) (s.newSlot d ((s.envMaterial d).getD []) r)
  | 2 => .slot (envTarget d) (envIndex d) Slot.reset
  | 3 =>
    .auth (envIndex d) (s.authEntry (envIndex d) (fieldAt x 0 1) (fieldAt x 1 1) (envCounter d) (bytesAt x 8 16) (envWrapped d))
  | _ => .auth (envIndex d) Authority.reset

/-- Material as the second record of R407 stores it. -/
def RecImage.storedMaterial (i : RecImage) : Bytes := match i with | .slot _ _ k => k.stored | _ => []

/-- The records of an accepted slot or authority operation in the order of R407: the family counter; the material; the
descriptor or the authority entry. -/
def State.envRecords (s : State) (d r : Bytes) : List (Nat × List RecImage) :=
  let t := envTarget d
  let i := envIndex d
  let img := s.envTargetImage d r
  (recKey partKeys (recFamily (envFamily d)), [.family (envFamily d) (envCounter d)]) ::
    (if t == 2 then [(recKey partKeys (recAuth i), [img])]
     else [(recKey partKeys (recMaterial t i), [.material t i img.storedMaterial]), (recKey partKeys (recSlot t i), [img])])

/-- What acceptance itself does: a use of the MAC key is charged (R386), an authorisation is consumed. -/
def State.envAccepted (s : State) (d authz : Bytes) : State :=
  if envTarget d == 2 then s.consumeChallenge (authSlot authz)
  else if envKind d == 2 then s.chargeSlot 0 (envMacSlot d) else s

/-- The result of an accepted envelope. -/
def envResult (d : Bytes) : Bytes := leBytes 8 (envCounter d) ++ leBytes 1 (envTarget d) ++ [0] ++ leBytes 2 (envIndex d)

/-- An accepted slot or authority operation (R407): it completes when its last record is committed. -/
def State.envCommit (s : State) (w : Work) (d authz r : Bytes) : State :=
  let recs := s.envRecords d r
  ((s.envAccepted d authz).modWork w.id (fun v => { v with phase := .active 3 })).nvSend recs
    { work := w.id, core := none, last := true, ok := envResult d, fail := refusalResult 12 0xFF }

/-! The command (R406). -/

/-- Envelopes are handled one at a time, in the order in which they are presented. -/
def State.envelopeTurn (s : State) (w : Work) : Bool :=
  (s.work.find? (fun v => v.opcode == 0x4010 && !v.isDone)).any (fun v => v.id == w.id)

/-- Check 1, then check 2 and the read of the envelope. -/
def State.startEnvelope (s : State) (w : Work) : State :=
  let src := w.field 0x10 8
  let len := w.field 0x18 4
  let au := w.field 0x20 8
  let an := w.field 0x28 4
  let form := w.aux == 0 && w.zeroFrom 0x1C 0x20 && w.zeroFrom 0x2C 0x40 && decide (192 ≤ len) && decide (len ≤ 1560) &&
    !beyond64 src len && !beyond64 au an
  if !s.envelopeTurn w then s
  else if !form then s.refuse w 1 .malformed
  else if !(s.rangeOk w.slice src len false && s.rangeOk w.slice au an false) then s.refuse w 2 .access
  else if !s.canRead masterMgmt then s
  else
    let o := s.hostRead (.work w.id 0) masterMgmt w.slice .statement src len false
    if o.2 then o.1.modWork w.id (fun v => { v with phase := .reading 1 }) else o.1.refuse w 2 .access

/-- The envelope has been read: its authorisation is read next, where it has the length of one. -/
def State.envelopeRead (s : State) (w : Work) : State :=
  let an := w.field 0x28 4
  if w.readingAt 1 && an == authLen then
    let o := s.hostRead (.work w.id 1) masterMgmt w.slice .statement (w.field 0x20 8) an false
    if o.2 then o.1.modWork w.id (fun v => { v with phase := .reading 2 }) else o.1.refuse w 2 .access
  else s.modWork w.id (fun v => { v with phase := .active 1 })

/-- Check 3: SEALED, or for PROVISION ISSUED with a confirmed stage. -/
def State.envStateOk (s : State) (op : Nat) : Bool :=
  if op == opProvisionEnv then s.tamper.state == .issued && s.tamper.stage.isSome && s.tamper.transition.isNone
  else s.tamper.state == .sealed_

/-- Random bytes that an envelope draws at priority 4 (R34, R452): the mask of the material it installs, 16 bytes at least
(log entry 78). -/
def envDraw (d : Bytes) : Nat := max 16 (envWrapLen d - 8)

/-- The checks from 3 on, the random bytes, and what an accepted envelope does with them; PROVISION begins with the erasure of
R408. -/
def State.runEnvelope (s : State) (w : Work) (accept : State → Bytes → Bytes → Bytes → State) : State :=
  let d := w.input.headD []
  let authz := w.input.getD 1 []
  if !s.envStateOk (envOp d) then s.refuse w 3 .state
  else if !envForm d (w.field 0x28 4 != 0 || w.field 0x20 8 != 0) then s.refuse w 4 .malformed
  else
    match s.envChecks d authz w.slice with
    | some (k, st) => s.refuse w k st
    | none =>
      match s.gotRandom (.envelope w.id) with
      | none => s.askRandom (.envelope w.id) 4 w.slice (envDraw d)
      | some r => accept (s.dropRandom (.envelope w.id)) d authz r

/-- One of the rows of ENVELOPE: it begins the oldest envelope, or runs the one that has been read and has its OP; one
whose OP is unassigned is refused by any of the rows. -/
def State.envelopeRow (s : State) (ring op : Nat) (accept : Work → State → Bytes → Bytes → Bytes → State) : State :=
  match s.oldest ring (fun w => w.opcode == 0x4010 && w.activeAt 1) with
  | some w =>
    let k := envOp (w.input.headD [])
    if k == op || k = 0 || decide (5 < k) then s.runEnvelope w (accept w) else s
  | none => s.onStart ring 0x4010 s.startEnvelope

/-- SLOT_WRITE. -/
def execSlotWrite (ring : Nat) (s : State) : Host.Outcome State Fault Refusal :=
  .next (s.envelopeRow ring opSlotWrite (fun w s d a r => s.envCommit w d a r))
/-- SLOT_ERASE. -/
def execSlotErase (ring : Nat) (s : State) : Host.Outcome State Fault Refusal :=
  .next (s.envelopeRow ring opSlotErase (fun w s d a r => s.envCommit w d a r))
/-- AUTH_WRITE. -/
def execAuthWrite (ring : Nat) (s : State) : Host.Outcome State Fault Refusal :=
  .next (s.envelopeRow ring opAuthWrite (fun w s d a r => s.envCommit w d a r))
/-- AUTH_ERASE. -/
def execAuthErase (ring : Nat) (s : State) : Host.Outcome State Fault Refusal :=
  .next (s.envelopeRow ring opAuthErase (fun w s d a r => s.envCommit w d a r))

/-! PROVISION (R512). -/

/-- Step 1: the erasure of R408. -/
def State.provisionStart (s : State) (w : Work) : State :=
  let s := (s.endForChange .issued (some w.id) .state).destroyKeys.nvPut partSystem recErase
  s.modWork w.id (fun v => { v with phase := .active 2 })

/-- PROVISION. -/
def execProvision (ring : Nat) (s : State) : Host.Outcome State Fault Refusal :=
  .next (s.envelopeRow ring opProvisionEnv (fun w s _ _ _ => s.provisionStart w))

/-- Step 3: one staged entry becomes an authority entry. -/
def State.installStaged (s : State) (serial : Nat) (e : StageEntry) : State :=
  (s.setAuth e.index (s.authEntry e.index e.kind e.curve serial e.ident e.pub)).nvPut partKeys (recAuth e.index)

/-- ISSUED becomes SEALED. -/
def State.toSealed (s : State) : State :=
  if s.tamper.state == .issued then { s with tamper := { s.tamper with state := .sealed_, stage := none } } else s

/-- Steps 2 to 4, once the erasure has ended. -/
def State.provisionCommit (s : State) (w : Work) : State :=
  let d := w.input.headD []
  let c := s.nvNow (recKey partKeys (recFamily 0)) [.family 0 (envCounter d)]
  if !c.2 then c.1.refuse w 12 .fault
  else
    let s := (c.1.tamper.stage.getD []).foldl (fun s e => s.installStaged (envCounter d) e) c.1
    s.toSealed.recordLife.rngLifeCycle.finish w.id .ok (envResult d)

end Sys2Proof.Machine
end

