-- ==== Sys2Proof/Machine/LifeCycle.lean ====
section
/-! DEFINITION. The life cycle (R507-R517) and the statements of Bittern mode (R519-R522). -/

namespace Sys2Proof.Machine
open Sys2Proof

/-- STATE of R507. -/
def lcCode (st : LcState) : Nat :=
  match st with
  | .blank => 0 | .issued => 1 | .sealed_ => 2 | .bittern => 3 | .spent => 4

/-! The end of an erasure (R408, R509). -/

/-- The command that waits for the end of a transition completes (R513). -/
def State.endTransition (s : State) (t : Transition) : State :=
  match t.work with
  | none => s
  | some id => s.finish id (if t.rewritten then .tamper else .ok) (leBytes 1 (lcCode s.tamper.state))

/-- Step 4 of R509, or the rest of PROVISION. -/
def State.eraseComplete (s : State) : State :=
  if !s.keys.erasing then s
  else
    let s := { s with keys := { s.keys with erasing := false, erasePending := false } }.nvPut partSystem recErase
    match s.tamper.transition with
    | some t =>
      let s := { s with tamper := { s.tamper with erasePending := false, transition := none } }.recordLife
      s.endTransition t
    | none =>
      match s.work.find? (fun w => w.opcode == 0x4010 && w.activeAt 2) with
      | none => s
      | some w => s.provisionCommit w

/-- KEY_ERASE_COMPLETE. -/
def execKeyEraseComplete (s : State) : Host.Outcome State Fault Refusal := .next s.eraseComplete

/-! Statements (R519-R522). -/

/-- The book statement before its signature (R520). -/
def State.bookStatement (s : State) (book : Nat) : Bytes :=
  let b := s.bookAt book
  let prior := match b.prior with
    | .none_ => 0 | .open_ => 1 | .recovering => 2 | .fencedIntegrity => 3 | .fencedGap => 4 | .released => 5 | .deleting => 6
  leBytes 2 5 ++ leBytes 2 (256 + 32 * b.strands) ++ leBytes 2 book ++ leBytes 1 b.strands ++ leBytes 1 prior ++
    s.keys.deviceId ++ leBytes 8 b.uid ++ leBytes 4 b.incarn ++ zeros 4 ++ leBytes 8 b.lseq ++ leBytes 8 b.sealNo ++
    leBytes 8 s.tamper.entryGrain ++ fit 32 b.lastSeal ++ saltRoot b.uid b.height b.cap b.rootBytes ++ leBytes 8 b.persisted ++
    zeros 24 ++ fit (32 * b.strands) b.headsIssued.flatten

/-- The counter statement before its signature (R522). -/
def State.counterStatement (s : State) (first : Nat) : Bytes :=
  leBytes 2 6 ++ leBytes 2 0x2080 ++ leBytes 2 first ++ zeros 2 ++ s.keys.deviceId ++ leBytes 8 s.tamper.entryGrain ++
    ((List.range 1024).map (fun i => leBytes 8 (s.counterAt (first + i)).value)).flatten

/-- Books not in NONE, in ascending order. -/
def State.liveBooks (s : State) : List Nat := (s.books.filter (fun b => b.2.st != .none_)).map Prod.fst

/-- The summary statement before its signature (R521). -/
def State.summaryStatement (s : State) : Bytes :=
  let books := sha256 ((s.liveBooks.map s.bookStatement).flatten)
  let counters := sha256 ((List.range 4096).map (fun i => leBytes 8 (s.counterAt i).value)).flatten
  leBytes 2 4 ++ leBytes 2 0x100 ++ [3] ++ leBytes 1 s.tamper.cause ++ leBytes 2 s.tamper.detail ++ s.keys.deviceId ++
    leBytes 8 s.tamper.entryGrain ++ leBytes 8 s.tamper.entryEpoch ++ leBytes 2 s.liveBooks.length ++ zeros 6 ++ books ++
    counters ++ zeros 48

/-- A statement under the identity key (R519). -/
def State.signIdentity (s : State) (body : Bytes) : Bytes × State :=
  let r := s.signP384 (leNat s.keys.dId) (sha384 body)
  (body ++ r.1, r.2)

/-- The summary may be formed: after step 4 of R509, at a release of the random unit, every committed frame issued. -/
def State.summaryReady (s : State) : Bool :=
  s.tamper.state == .bittern && s.tamper.summaryDue && s.tamper.transition.isNone && s.releasing &&
    s.books.all (fun b => b.2.staged.isEmpty)

/-- BITTERN_SUMMARY_FORMED (R521). -/
def execBitternSummaryFormed (s : State) : Host.Outcome State Fault Refusal :=
  .next (if s.summaryReady then
    let r := s.signIdentity s.summaryStatement
    { r.2 with tamper := { r.2.tamper with summary := some r.1, summaryDue := false } }.recordLife
  else s)

/-- Length of the statement that BITTERN_STATEMENT returns. -/
def State.statementLen (s : State) (kind index : Nat) : Nat :=
  match kind with
  | 0 => 256 | 1 => 256 + 32 * (s.bookAt index).strands | _ => 8320

/-- The checks of R519. -/
def State.statementFail (s : State) (w : Work) : Option (Nat × Status) :=
  let out := w.field 0x10 8
  let len := w.field 0x18 4
  let kind := w.field 0x1C 1
  let i := w.field 0x1E 2
  let index := (kind == 0) || (kind == 1 && decide (i < 1024)) || (kind == 2 && i % 1024 == 0 && decide (i < 4096))
  firstFail [
    (w.aux == 0 && w.field 0x1D 1 == 0 && w.zeroFrom 0x20 0x40 && index && !beyond64 out len, (1, .malformed)),
    (s.tamper.state == .bittern && (kind != 1 || s.bookExists i) && (kind != 0 || s.tamper.summary.isSome), (2, .state)),
    (decide (s.statementLen kind i ≤ len), (3, .malformed)),
    (s.rangeOk w.slice out len true, (4, .access))]

/-- BITTERN_STATEMENT: book and counter statements wait for the random unit, which their signature needs; a book statement
waits until every record up to its LSEQ has its frame issued and is folded (R195, R240). -/
def State.bitternBody (s : State) (w : Work) : State :=
  let kind := w.field 0x1C 1
  let i := w.field 0x1E 2
  match s.statementFail w with
  | some (k, st) => s.refuse w k st
  | none =>
    if (kind != 0 && !s.releasing) || (kind == 1 && !(s.bookAt i).staged.isEmpty) || !s.canMaster masterMgmt then s
    else
      let r := if kind == 0 then (s.tamper.summary.getD [], s)
        else s.signIdentity (if kind == 1 then s.bookStatement i else s.counterStatement i)
      let o := r.2.hostWrite masterMgmt w.slice .statement (some w.id) (w.field 0x10 8) r.1
      if o.2 then o.1.finishOpen w.id .ok (leBytes 4 r.1.length) else o.1.refuse w 4 .access

/-- BITTERN_STATEMENT. -/
def execBitternStatement (ring : Nat) (s : State) : Host.Outcome State Fault Refusal :=
  .next (s.onStart ring 0xA010 s.bitternBody)

/-! Challenges (R515). -/

/-- Grains after which a challenge lapses. -/
def challengeLife : Nat := 131072 * pound

/-- The lowest free challenge slot. -/
def State.freeChallenge (s : State) : Option Nat :=
  (List.range 16).find? (fun i => s.tamper.challenges.all (fun e => e.1 != i))

/-- Checks 1 to 4 of R515. -/
def State.challengeFail (s : State) (w : Work) : Option (Nat × Status) :=
  let out := w.field 0x30 8
  let len := w.field 0x38 4
  let op := w.field 0x3C 1
  firstFail [
    (w.aux == 0 && w.zeroFrom 0x3D 0x40 && decide (1 ≤ op) && decide (op ≤ 5) && decide (96 ≤ len) && !beyond64 out len,
      (1, .malformed)),
    (if op == opProvision then s.tamper.state == .issued else s.tamper.state == .sealed_, (2, .state)),
    (s.rangeOk w.slice out len true, (3, .access)),
    (op == opRngTest || s.freeChallenge.isSome, (4, .busy))]

/-- CUST_CHALLENGE begins: it asks for its nonce at priority 4. -/
def State.startChallenge (s : State) (w : Work) : State :=
  match s.challengeFail w with
  | some (k, st) => s.refuse w k st
  | none =>
    (s.modWork w.id (fun v => { v with phase := .active 1, admitted := some s.now })).askRandom (.challenge w.id) 4 w.slice 16

/-- CUST_CHALLENGE. -/
def execCustChallenge (ring : Nat) (s : State) : Host.Outcome State Fault Refusal :=
  .next (s.onStart ring 0xA000 s.startChallenge)

/-- The challenge block of R515. -/
def State.challengeBlock (s : State) (w : Work) (slot : Nat) (nonce : Bytes) : Bytes :=
  ascii "SKAORA-A" ++ leBytes 1 (w.field 0x3C 1) ++ leBytes 1 slot ++ zeros 6 ++ s.keys.deviceId ++ leBytes 8 s.keys.epoch ++
    leBytes 8 s.now ++ fit 16 nonce ++ bytesAt w.desc 0x10 32

/-- The nonce has arrived: the block is written, and held in a slot except for RNG_TEST. -/
def State.issueChallenge (s : State) (w : Work) (nonce : Bytes) : State :=
  let test := w.field 0x3C 1 == opRngTest
  match if test then some 0xFF else s.freeChallenge with
  | none => s.refuse w 4 .busy
  | some slot =>
    let b := s.challengeBlock w slot nonce
    let o := s.hostWrite masterMgmt w.slice .statement (some w.id) (w.field 0x30 8) b
    if !o.2 then o.1.refuse w 3 .access
    else
      let s := if test then o.1
        else { o.1 with tamper := { o.1.tamper with challenges := tins slot b o.1.tamper.challenges } }
      s.finishOpen w.id .ok (leBytes 1 slot)

/-- CHALLENGE_SLOT_LAPSE: 131,072 pounds after the GRAIN of its block. -/
def execChallengeSlotLapse (slot : Nat) (s : State) : Host.Outcome State Fault Refusal :=
  .next (match s.tamper.challenges.find? (fun e => e.1 == slot) with
    | none => s
    | some (_, b) => if fieldAt b 0x28 8 + challengeLife ≤ s.now then s.consumeChallenge slot else s)

/-! LC_STAGE (R511). -/

/-- Entry `i` of a staging list. -/
def stageEntry (d : Bytes) (i : Nat) : StageEntry :=
  let o := 16 + 128 * i
  { index := fieldAt d o 1, kind := fieldAt d (o + 1) 1, curve := fieldAt d (o + 2) 1, ident := bytesAt d (o + 0x10) 16,
    pub := bytesAt d (o + 0x20) 96 }

/-- The entries of a staging list. -/
def stageList (d : Bytes) : List StageEntry := (List.range (fieldAt d 8 2)).map (stageEntry d)

/-- Number of entries a SRC_LEN stands for. -/
def stageCount (len : Nat) : Nat := (len - 16) / 128

/-- Check 1 of LC_STAGE before the list is read. -/
def stageForm (w : Work) : Bool :=
  let n := w.field 0x18 4
  w.aux == 0 && w.zeroFrom 0x28 0x40 && w.field 0x1C 4 == authLen && n == 16 + 128 * stageCount n &&
    decide (3 ≤ stageCount n) && decide (stageCount n ≤ 34) && !beyond64 (w.field 0x10 8) n && !beyond64 (w.field 0x20 8) authLen

/-- No two members of a list are equal. -/
def allDistinct {α : Type} [DecidableEq α] : List α → Bool
  | [] => true
  | a :: t => !t.contains a && allDistinct t

/-- Check 4 of LC_STAGE. -/
def stageFieldsOk (d : Bytes) : Bool :=
  let l := stageList d
  let cust := (l.filter (fun e => e.kind == 4)).map StageEntry.ident
  bytesAt d 0 8 == ascii "SKAORA-P" && allZero (bytesAt d 0x0A 6) && allDistinct (l.map StageEntry.index) &&
    l.all (fun e => authFits e.index e.kind e.curve && (decide (3 ≤ e.kind) || allZero e.ident)) &&
    (List.range l.length).all (fun i => allZero (bytesAt d (16 + 128 * i + 3) 13)) && l.any (fun e => e.index == 0) &&
    cust.any (fun a => cust.any (fun b => a != b))

/-- PUBLIC lies on its curve. -/
def StageEntry.onCurve (e : StageEntry) : Bool :=
  if e.curve = 0x10 then p256.on (fieldAt e.pub 0 32) (fieldAt e.pub 32 32) else p384.on (fieldAt e.pub 0 48) (fieldAt e.pub 48 48)

/-- LC_STAGE begins: checks 1 to 3 and the read of the list. -/
def State.startStage (s : State) (w : Work) : State :=
  let src := w.field 0x10 8
  let len := w.field 0x18 4
  if !stageForm w then s.refuse w 1 .malformed
  else if s.tamper.state != .issued then s.refuse w 2 .state
  else if !(s.rangeOk w.slice src len false && s.rangeOk w.slice (w.field 0x20 8) authLen false) then s.refuse w 3 .access
  else if !s.canRead masterMgmt then s
  else
    let o := s.hostRead (.work w.id 0) masterMgmt w.slice .statement src len false
    if o.2 then o.1.modWork w.id (fun v => { v with phase := .reading 1 }) else o.1.refuse w 3 .access

/-- LC_STAGE. -/
def execLcStage (ring : Nat) (s : State) : Host.Outcome State Fault Refusal := .next (s.onStart ring 0xA001 s.startStage)

/-- The list and the authorisation have been read: the other checks of R511. -/
def State.stageChecks (s : State) (d a : Bytes) : Option (Nat × Status) :=
  let l := stageList d
  firstFail [
    (fieldAt d 8 2 == stageCount d.length, (1, .malformed)),
    (stageFieldsOk d, (4, .malformed)),
    (l.all StageEntry.onCurve, (5, .range)),
    (l.all (fun e => e.kind != 3 || e.ident == deviceIdOf e.pub), (5, .policy)),
    (s.authorised (stageSigners l) a opProvision (sha256 d), (6, .auth))]

/-- Host data of LC_STAGE has arrived: the list first, then the authorisation. -/
def State.stageRead (s : State) (w : Work) : State :=
  if w.readingAt 1 then
    let o := s.hostRead (.work w.id 1) masterMgmt w.slice .statement (w.field 0x20 8) authLen false
    if o.2 then o.1.modWork w.id (fun v => { v with phase := .reading 2 }) else o.1.refuse w 3 .access
  else
    let d := w.input.headD []
    let a := w.input.getD 1 []
    match s.stageChecks d a with
    | some (k, st) => s.refuse w k st
    | none =>
      ({ s with tamper := { s.tamper with stage := some (stageList d) } }.consumeChallenge (authSlot a)).finishOpen w.id .ok []

/-! LC_CHANGE (R508, R513). -/

/-- States that TO names. -/
def lcOfCode (n : Nat) : Option LcState :=
  match n with
  | 1 => some .issued | 3 => some .bittern | 4 => some .spent | _ => none

/-- R508 allows the transition by LC_CHANGE. -/
def lcAllowed (was target : LcState) : Bool :=
  match was, target with
  | .issued, .spent => true
  | .sealed_, .issued => true
  | .sealed_, .bittern => true
  | .sealed_, .spent => true
  | .bittern, .issued => true
  | .bittern, .spent => true
  | _, _ => false

/-- R508 requires custodians for a command in this state. -/
def State.lcCustodians (s : State) : Bool := s.tamper.state == .sealed_

/-- Check 1 of R513. -/
def State.lcForm (s : State) (w : Work) : Bool :=
  w.aux == 0 && w.zeroFrom 0x11 0x18 && w.zeroFrom 0x24 0x28 && w.zeroFrom 0x38 0x40 && (lcOfCode (w.field 0x10 1)).isSome &&
    (if s.lcCustodians then w.field 0x20 4 == authLen && !beyond64 (w.field 0x18 8) authLen
     else w.field 0x20 4 == 0 && w.field 0x18 8 == 0)

/-- The block whose digest a LIFECYCLE authorisation names. -/
def State.lcSubject (s : State) (target : LcState) : Bytes :=
  sha256 (ascii "SKAORA-L" ++ s.keys.deviceId ++ leBytes 1 (lcCode s.tamper.state) ++ leBytes 1 (lcCode target) ++ zeros 6)

/-- CONFIRM is the start of BOOKS_DIGEST of the stored summary (check 4). -/
def State.confirmOk (s : State) (w : Work) : Bool :=
  s.tamper.state != .bittern ||
    (match s.tamper.summary with
     | none => false
     | some b => bytesAt w.desc 0x28 16 == bytesAt b 0x30 16)

/-- Check 2 once more, checks 4 and 5, then the transition. -/
def State.lcCommit (s : State) (w : Work) (target : LcState) : State :=
  match firstFail [(lcAllowed s.tamper.state target, (2, Status.state)), (s.confirmOk w, (4, .policy)),
      (s.holdHealthy, (5, .holdLow))] with
  | some (k, st) => s.refuse w k st
  | none =>
    (s.modWork w.id (fun v => { v with phase := .active 1 })).changeState target 0x20 0 (some w.id) false

/-- LC_CHANGE begins. -/
def State.startLcChange (s : State) (w : Work) : State :=
  match if s.lcForm w then lcOfCode (w.field 0x10 1) else none with
  | none => s.refuse w 1 .malformed
  | some target =>
    if !lcAllowed s.tamper.state target || s.tamper.transition.isSome || s.keys.erasing then s.refuse w 2 .state
    else if !s.lcCustodians then s.lcCommit w target
    else if !s.rangeOk w.slice (w.field 0x18 8) authLen false then s.refuse w 3 .access
    else if !s.canRead masterMgmt then s
    else
      let o := s.hostRead (.work w.id 0) masterMgmt w.slice .statement (w.field 0x18 8) authLen false
      if o.2 then o.1.modWork w.id (fun v => { v with phase := .reading 1 }) else o.1.refuse w 3 .access

/-- LC_CHANGE. -/
def execLcChange (ring : Nat) (s : State) : Host.Outcome State Fault Refusal := .next (s.onStart ring 0xA002 s.startLcChange)

/-- The authorisation of an LC_CHANGE has been read. -/
def State.lcRead (s : State) (w : Work) : State :=
  let a := w.input.headD []
  match lcOfCode (w.field 0x10 1) with
  | none => s.refuse w 1 .malformed
  | some target =>
    if !lcAllowed s.tamper.state target || s.tamper.transition.isSome then s.refuse w 2 .state
    else if !s.authorised s.custodians a opLifeCycle (s.lcSubject target) then s.refuse w 3 (s.custodyFail .auth)
    else
      let t := s.lcCommit w target
      if t.tamper.transition.isSome then t.consumeChallenge (authSlot a) else t

end Sys2Proof.Machine
end

