-- ==== Sys2Proof/Machine/RandomServe.lean ====
section
/-! DEFINITION. The consumers of the random unit (R34, R451-R455): output steps, waits, RANDOM; the test access
(R460-R462). -/

namespace Sys2Proof.Machine
open Sys2Proof

/-- `n` bytes of the ARG area of a core at an offset. -/
def Core.argAt (c : Core) (o n : Nat) : Nat := leNat (memRead c.arg o n)

/-! RANDOM (R454). -/

/-- Checks of R454. -/
def State.randomFail (s : State) (w : Work) : Option (Nat × Status) :=
  let dst := w.field 0x10 8
  let len := w.field 0x18 4
  firstFail [(w.aux == 0 && w.zeroFrom 0x1C 0x40 && !beyond64 dst len, (1, .malformed)),
    (s.tamper.state != .bittern, (2, .state)), (len == 0 || s.rangeOk w.slice dst len true, (3, .access))]

/-- RANDOM begins: it waits at priority 6. -/
def State.randomBody (s : State) (w : Work) : State :=
  let len := w.field 0x18 4
  match s.randomFail w with
  | some (k, st) => s.refuse w k st
  | none =>
    if len = 0 then s.finish w.id .ok []
    else (s.modWork w.id (fun v => { v with phase := .active 1, pos := 0 })).askRandom (.request w.id) 6 w.slice len

/-- RANDOM. -/
def execRandom (ring : Nat) (s : State) : Host.Outcome State Fault Refusal := .next (s.onStart ring 0x8000 s.randomBody)

/-- The result of RANDOM: the bytes written. -/
def randomResult (n : Nat) : Bytes := leBytes 4 n

/-- Bytes of a step go to the buffer of a RANDOM descriptor. -/
def State.giveRequest (s : State) (id : Nat) (b : Bytes) : State :=
  match s.workAt id with
  | none => s.dropRandom (.request id)
  | some w =>
    let n := w.pos + b.length
    let r := s.hostWrite (s.masterStream id) w.slice .stream (some id) (w.field 0x10 8 + w.pos) b
    let s := r.1.modWork id (fun v => { v with pos := n })
    if !r.2 then (s.dropRandom (.request id)).refuseWith w 3 .access (randomResult w.pos)
    else if w.field 0x18 4 ≤ n then (s.dropRandom (.request id)).finish id .ok (randomResult n)
    else s

/-! Output steps (R451). -/

/-- A refill of a FIFO waits: from below 8 bytes until 64 are held (R453). -/
def refill (use : RngUse) (prio now : Nat) (fifo : Bytes) (fill : Bool) : List RngWait :=
  if fifo.length < 8 ∨ (fill ∧ fifo.length < 64) then
    [{ use := use, prio := prio, slice := 1024, need := 64 - fifo.length, got := [], since := now }]
  else []

/-- The refill of RNG_DATA takes its turn as slice 1,024 (R451). -/
def State.fifoWait (s : State) : List RngWait := refill .fifo 6 s.now s.rng.fifo s.rng.fifoFill

/-- The refill of the firmware's port stands before the applets (R451, R453). -/
def State.firmwareWait (s : State) : List RngWait := refill .firmware 5 s.now s.rng.fwFifo s.rng.fwFill

/-- A test takes steps of the unit, and no output (R460). -/
def RngUse.isTest (u : RngUse) : Bool := match u with | .startTests => true | .kat _ => true | .inject _ => true | _ => false

/-- What the consumer does with the bytes needs no host memory, or host memory can be reached (R247); a session whose parent is
being re-derived waits (R400). -/
def State.rngOpen (s : State) (x : RngWait) : Bool :=
  match x.use with
  | .request id => s.canMaster (s.masterStream id)
  | .inject id => s.canMaster (s.masterStream id)
  | .nonce _ => s.canMaster (masterJournal x.slice)
  | .challenge _ => s.canMaster masterMgmt
  | .context id => (s.workAt id).all (fun w => w.opcode == 0x4000 || !s.sessionBusy w.session)
  | _ => true

/-- Bytes reach host memory as a step delivers them. -/
def RngUse.streams (u : RngUse) : Bool := match u with | .request _ => true | _ => false

/-- Consumers that wait and may have the step of this grain. While nothing is released the tests alone can use one. -/
def State.rngWaiting (s : State) : List RngWait :=
  let open_ := s.rng.waiters.filter (fun x => decide (0 < x.left) && (!x.use.streams || s.rngOpen x))
  (s.firmwareWait ++ open_ ++ s.fifoWait).filter (fun x =>
    (s.releasing || x.use.isTest) &&
      match s.rngTask with
      | none => !(s.reseedWaits && decide (3 < x.prio))
      | some t => t == 1 && x.prio == 2)

/-- Place of a slice in the rotation behind the one last served (R50). -/
def State.rngTurn (s : State) (slice : Nat) : Nat := (slice + 1025 - (s.rng.lastSlice + 1)) % 1025

/-- `a` is served before `b`, which was requested later. -/
def State.rngBefore (s : State) (a b : RngWait) : Bool :=
  decide (a.prio < b.prio) || (a.prio == b.prio && (a.prio != 6 || decide (s.rngTurn a.slice ≤ s.rngTurn b.slice)))

/-- The consumer that the next step serves. -/
def State.rngNext (s : State) : Option RngWait :=
  s.rngWaiting.foldl (fun acc x =>
    match acc with
    | none => some x
    | some a => if s.rngBefore a x then some a else some x) none

/-- The output of the test instance. -/
def injectOut (test : Nat) (src : Bytes) (n : Nat) : Bytes :=
  if test = 0 then condition src
  else
    let a := drbgUpdate (zeros 32) (zeros 16) (xorBytes (bytesAt src 0 48) (bytesAt src 48 48))
    let b := drbgUpdate a.1 a.2 (bytesAt src 96 48)
    let g := drbgGenerate b.1 b.2 n
    (drbgGenerate g.2.1 g.2.2 n).1

/-- Steps of an injected test: one conditioning; or an instantiation, a reseed and one step for each 128 bytes of the two calls (log
entry 80). -/
def injectSteps (test n : Nat) : Nat := if test = 0 then 1 else 2 + 2 * ((n + 127) / 128)

/-- The steps of an injected test have been taken: its output is written, and it is logged (R462). -/
def State.injectRun (s : State) (w : Work) : State :=
  let out := injectOut w.aux w.input.flatten (w.field 0x28 4)
  let s := s.plogWork w 0x0D 0 .ok 2
  let r := s.hostWrite (s.masterStream w.id) w.slice .stream (some w.id) (w.field 0x20 8) out
  if r.2 then r.1.finish w.id .ok (randomResult out.length) else r.1.refuse w 4 .access

/-- A work that waits, its consumer gone. -/
def State.forWork (s : State) (use : RngUse) (id : Nat) (f : State → Work → State) : State :=
  let s := s.dropRandom use
  match s.workAt id with
  | some w => f s w
  | none => s

/-- The steps of a run of the known-answer tests have been taken (R457, R461). -/
def State.katRan (s : State) (x : RngWait) : State :=
  let r := s.katRun x
  let s := { s with draws := s.draws + 2 }
  match r.1 with
  | none => { s with rng := { s.rng with waiters := s.rng.waiters.map (fun y => if y.use == x.use then r.2 else y) } }
  | some (c, d) =>
    match x.use with
    | .kat id => (s.katDone c d).forWork x.use id (fun s w => s.finish w.id (if c && d then .ok else .fault) (leBytes 1 (flag c + 2 * flag d)))
    | _ =>
      let s := (s.katDone c d).dropRandom x.use
      { s with rng := { s.rng with kat := c && d } }

/-- What a consumer does with all it asked for; re-masking and the sweep take theirs in commands of their own. -/
def State.rngFull (s : State) (x : RngWait) : State :=
  match x.use with
  | .nonce id => s.forWork x.use id (fun s w => s.prepareTicket w x.got)
  | .challenge id => s.forWork x.use id (fun s w => s.issueChallenge w x.got)
  | .context id => s.forWork x.use id (fun s w => s.contextReady w x.got)
  | .adopt id => s.forWork x.use id (fun s w => s.adoptReady w x.got)
  | .inject id => s.forWork x.use id (fun s w => s.injectRun w)
  | .kat _ => s.katRan x
  | .startTests => s.katRan x
  | .service core =>
    let c := s.coreAt core
    let s := s.modCore core (fun c => { c with output := [(c.argAt 0 4, x.got)] })
    (s.dropRandom x.use).answerCore core (svcStatus .ok false false false) (leBytes 4 (c.argAt 4 4))
  | _ => s

/-- Bytes of a step reach their consumer; a wait counts from the step on (R452). -/
def State.rngGive (s : State) (use : RngUse) (b : Bytes) : State :=
  let since := s.rng.stepAt.getD s.now
  match use with
  | .fifo =>
    let f := (s.rng.fifo ++ b).take 64
    { s with rng := { s.rng with fifo := f, fifoFill := decide (f.length < 64) } }
  | .firmware =>
    let f := (s.rng.fwFifo ++ b).take 64
    { s with rng := { s.rng with fwFifo := f, fwFill := decide (f.length < 64) } }
  | .request id =>
    let ws := s.rng.waiters.map (fun y => if y.use == use then { y with need := y.need - b.length, since := since } else y)
    { s with rng := { s.rng with waiters := ws } }.giveRequest id b
  | _ =>
    let ws := s.rng.waiters.map (fun z => if z.use == use then { z with got := z.got ++ b, since := since } else z)
    { s with rng := { s.rng with waiters := ws } }

/-- Output of `n` bytes is counted in units of 64. -/
def Rng.count (r : Rng) (n : Nat) : Rng :=
  let t := r.releasedRem + n
  { r with released := r.released + BitVec.ofNat 32 (t / 64), releasedRem := t % 64 }

/-- One step of the unit for one consumer (R451): at most 128 bytes of output, in whole blocks, or a step of a test. What it yields
reaches the consumer at the boundary at which the step ends. -/
def State.outputStep (s : State) : State :=
  match s.rngNext with
  | none => s
  | some x =>
    if x.use.isTest then s.rngStep (fun s => { s with rng := { s.rng with given := some (x.use, stepMark) } })
    else
      let blocks := min (min 8 (s.rng.buf.length / 16)) ((x.left + 15) / 16)
      if !s.releasing || blocks = 0 then s
      else
        s.rngStep (fun s =>
          let n := 16 * blocks
          { s with rng := { s.rng with buf := s.rng.buf.drop n, given := some (x.use, (s.rng.buf.take n).take x.left) } })

/-- The slice of a consumer at priority 6, which the rotation has served (R50). -/
def State.rngServed (s : State) (use : RngUse) : Nat :=
  match (s.rng.waiters ++ s.fifoWait).find? (fun x => x.use == use) with
  | some x => if x.prio = 6 then x.slice else s.rng.lastSlice
  | none => s.rng.lastSlice

/-- The end of a step: what it yielded is delivered and counted, and can no longer be squashed (R459); a consumer that has all it
asked for goes on. -/
def State.rngGrain (s : State) : State :=
  let s := match s.rng.given with
    | none => s
    | some (use, b) =>
      let r := { s.rng with given := none, lastSlice := s.rngServed use }
      { s with rng := if use.isTest then r else r.count (16 * ((b.length + 15) / 16)) }.rngGive use b
  let s := { s with rng := { s.rng with undo := none } }
  (s.rng.waiters.filter (fun x => x.left == 0 && s.rngOpen x)).foldl State.rngFull s

/-- RNG_OUTPUT_STEP. -/
def execRngOutputStep (s : State) : Host.Outcome State Fault Refusal := .next s.outputStep

/-! Bounds of the waits (R452). -/

/-- The consumer's wait is bounded (R452). Masks and the steps of tests have no bound. -/
def RngUse.bounded (u : RngUse) : Bool :=
  match u with
  | .bignum _ => true
  | .nonce _ => true
  | .challenge _ => true
  | .envelope _ => true
  | .service _ => true
  | .request _ => true
  | _ => false

/-- A consumer has waited 1 pound. -/
def State.rngLate (s : State) : Option RngWait :=
  s.rng.waiters.find? (fun x => decide (0 < x.left) && x.use.bounded && decide (x.since + pound ≤ s.now))

/-- A formed seal that cannot be signed leaves its book, and its SEAL commands end (R206). -/
def State.endSeal (s : State) (book no : Nat) (st : Status) : State :=
  match (s.bookAt book).seals.find? (fun x => x.no == no) with
  | none => s
  | some x =>
    let s := s.modBook book (fun b => { b with seals := b.seals.filter (fun y => y.no != no) })
    x.works.foldl (fun s id => s.finish id st (leBytes 8 x.no ++ leBytes 8 x.lseq)) s

/-- The job of a serial number ends with NO_ENTROPY (check 6 of R430). -/
def State.bnStarved (s : State) (n : Nat) : State :=
  match s.bnJobsAll.find? (fun y => y.admitted == n) with
  | none => s
  | some j =>
    let s := s.dropBn (fun y => y.admitted == n)
    if j.use = 1 then s.answerCore j.who (svcStatus .noEntropy false false false) (leBytes 4 0)
    else if j.use = 2 then s.endSeal j.who j.no .noEntropy
    else
      match s.workAt j.work with
      | none => s
      | some w =>
        let s := if j.use = 3 then s.clearCore j.who else s
        s.refuse w (if j.use = 3 then 9 else 6) .noEntropy

/-- A consumer ends with NO_ENTROPY. -/
def State.rngTimeout (s : State) : State :=
  match s.rngLate with
  | none => s
  | some x =>
    let s := s.dropRandom x.use
    let s := { s with rng := { s.rng with timeouts := s.rng.timeouts + 1 } }
    match x.use with
    | .bignum j => s.bnStarved j
    | .nonce id => (match s.workAt id with | some w => s.refuse w 4 .noEntropy | none => s)
    | .challenge id => (match s.workAt id with | some w => s.refuse w 5 .noEntropy | none => s)
    | .envelope id => (match s.workAt id with | some w => s.refuse w 12 .noEntropy | none => s)
    | .service core => s.answerCore core (svcStatus .noEntropy false false false) (leBytes 4 0)
    | .request id => (match s.workAt id with | some w => s.finish id .noEntropy (randomResult w.pos) | none => s)
    | _ => s

/-- RNG_WAIT_TIMEOUT. -/
def execRngWaitTimeout (s : State) : Host.Outcome State Fault Refusal := .next s.rngTimeout

/-! Test access (R460-R462). -/

/-- RNG_KAT (R461): the tests wait for their steps at priority 6 (R460). -/
def State.katBody (s : State) (w : Work) : State :=
  if !(w.aux == 0 && w.zeroFrom 0x10 0x40) then s.refuseOpen w .malformed []
  else (s.modWork w.id (fun v => { v with phase := .active 1 })).askRandom (.kat w.id) 6 w.slice katSteps

/-- RNG_KAT. -/
def execRngKat (ring : Nat) (s : State) : Host.Outcome State Fault Refusal := .next (s.onStart ring 0x8010 s.katBody)

/-- Check 1 of RNG_INJECT. -/
def Work.injectForm (w : Work) : Bool :=
  let test := w.aux
  let src := w.field 0x18 4
  let auth := w.field 0x1C 4
  let out := w.field 0x28 4
  decide (test < 2) && w.zeroFrom 0x2C 0x30 && w.zeroFrom 0x38 0x40 &&
    (if test = 0 then src == 128 && out == 16
     else src == 144 && decide (16 ≤ out) && decide (out ≤ 4096) && out % 16 == 0) &&
    !beyond64 (w.field 0x10 8) src && !beyond64 (w.field 0x20 8) out && !beyond64 (w.field 0x30 8) auth

/-- Check 2 of RNG_INJECT. -/
def State.injectState (s : State) (w : Work) : Bool :=
  match s.tamper.state with
  | .issued => w.field 0x1C 4 == 0 && w.field 0x30 8 == 0
  | .sealed_ => w.field 0x1C 4 == authLen
  | _ => false

/-- Check 4 of RNG_INJECT and the read of SRC. -/
def State.injectSrc (s : State) (w : Work) : State :=
  let src := w.field 0x10 8
  let n := w.field 0x18 4
  if !(s.rangeOk w.slice src n false && s.rangeOk w.slice (w.field 0x20 8) (w.field 0x28 4) true) then s.refuse w 4 .access
  else if !s.canRead (s.masterStream w.id) then s
  else
    let r := s.hostRead (.work w.id 1) (s.masterStream w.id) w.slice .stream src n false
    if r.2 then r.1.modWork w.id (fun v => { v with phase := .reading 2 }) else r.1.refuse w 4 .access

/-- RNG_INJECT begins: in SEALED its authorisation is read first. -/
def State.injectBody (s : State) (w : Work) : State :=
  let a := w.field 0x30 8
  if !w.injectForm then s.refuse w 1 .malformed
  else if !s.injectState w then s.refuse w 2 .state
  else if w.field 0x1C 4 = 0 then s.injectSrc w
  else if !s.rangeOk w.slice a authLen false then s.refuse w 4 .access
  else if !s.canRead masterMgmt then s
  else
    let r := s.hostRead (.work w.id 0) masterMgmt w.slice .statement a authLen false
    if r.2 then r.1.modWork w.id (fun v => { v with phase := .reading 1 }) else r.1.refuse w 4 .access

/-- RNG_INJECT. -/
def execRngInject (ring : Nat) (s : State) : Host.Outcome State Fault Refusal := .next (s.onStart ring 0x8011 s.injectBody)

/-- The authorisation of an injection has arrived (check 3). -/
def State.injectAuth (s : State) (w : Work) (a : Bytes) : State :=
  let subject := sha256 (s.keys.deviceId ++ leBytes 8 s.keys.epoch)
  if s.authorised s.custodians a opRngTest subject then s.injectSrc w else s.refuse w 3 (s.custodyFail .auth)

/-- SRC of an injection has arrived: the test waits for its steps at priority 6 (R460). -/
def State.injectWait (s : State) (w : Work) : State :=
  (s.modWork w.id (fun v => { v with phase := .active 1 })).askRandom (.inject w.id) 6 w.slice
    (injectSteps w.aux (w.field 0x28 4))

/-- Host data of RNG_INJECT. -/
def State.injectRead (s : State) (w : Work) (data : Bytes) : State :=
  if w.readingAt 1 then s.injectAuth w data else if w.readingAt 2 then s.injectWait w else s

end Sys2Proof.Machine
end

