-- ==== Sys2Proof/Machine/Applets.lean ====
section
/-! DEFINITION. Applets: images and the allow-list (R352-R360), invocation, loading, budget and end of an invocation
(R361-R368). -/

namespace Sys2Proof.Machine
open Sys2Proof

/-! Kwedor images (R352, R353). -/

def imgCodeLen (b : Bytes) : Nat := fieldAt b 8 4
def imgDataLen (b : Bytes) : Nat := fieldAt b 0x0C 4
def imgEntry (b : Bytes) : Nat := fieldAt b 0x10 4

/-- The image meets R352 and its length is the one laid down. -/
def imageForm (b : Bytes) : Bool :=
  let mask := fieldAt b 6 2
  bytesAt b 0 4 == ascii "KWDR" && fieldAt b 4 2 == 1 && bits mask 15 10 == 0 && !bit mask 0 &&
    imgCodeLen b % 4 == 0 && decide (4 ≤ imgCodeLen b) && decide (imgCodeLen b ≤ 65536) &&
    imgDataLen b % 16 == 0 && decide (imgDataLen b ≤ 32768) && imgEntry b % 4 == 0 && decide (imgEntry b < imgCodeLen b) &&
    allZero (bytesAt b 0x20 32) && b.length == 160 + imgCodeLen b + imgDataLen b

/-- The image digest: everything but the signature. -/
def imageDigest (b : Bytes) : Bytes := sha384 (b.take (b.length - 96))
def imageSig (b : Bytes) : Bytes := b.drop (b.length - 96)

/-- Lengths an image may have. -/
def imageLenOk (n : Nat) : Bool := decide (164 ≤ n) && decide (n ≤ 98464)

/-- The applet authority (R355). -/
def State.appletAuthority (s : State) : Authority := s.authAt 1

/-- Its record can be read (R474). -/
def State.appletAuthorityOk (s : State) : Bool := s.recordOk partKeys (recAuth 1)

/-! The allow-list (R356-R360). -/

/-- An entry is read: one that is TORN or FAULT is logged (R474). -/
def State.readAllow (s : State) (index slice : Nat) : State :=
  if !s.recordOk partAllow index then s.plogEvent 13 0x0C 0 slice 0xFFFF (1 + 256 * 5) else s

/-- Checks 2 and 3 of R359 and R361: the state charged, the failing check. -/
def State.appletSession (s : State) (w : Work) (n : Nat) : State × Option (Nat × Status) :=
  match s.sessionFail w.session w.slice with
  | some st => (s, some (2, st))
  | none =>
    let x := s.sessionAt w.session
    (s.chargeSession w.session, if w.macOk x.key n then none else some (3, .auth))

/-- Check 4 of R359: a slice other than the own needs a key for every slice. -/
def State.allowRight (s : State) (w : Work) (slice index : Nat) : Bool :=
  let x := s.sessionAt w.session
  let e := s.allowEntry index
  attrAllows x.attr attrApplet 2 x.slice w.slice &&
    (x.slice == 0xFFFF || (slice == w.slice && (!e.occupied || e.slice == w.slice)))

/-- ALLOW_ADD begins: checks 1 to 6, then the read of the image. -/
def State.allowAddBody (s : State) (w : Work) : State :=
  let before := s
  let image := w.field 0x10 8
  let len := w.field 0x18 4
  let index := w.field 0x1C 2
  let slice := w.field 0x1E 2
  let form := w.aux == 0 && w.zeroFrom 0x20 0x70 && decide (index < 256) && (decide (slice < 1024) || slice == 0xFFFF) &&
    !beyond64 image len && len != 0
  if !form then s.refuse w 1 .malformed
  else
    match s.appletSession w 0x80 with
    | (s, some (k, st)) => s.refuse w k st
    | (s, none) =>
      let s := s.readAllow index w.slice
      if !s.allowRight w slice index then s.refuse w 4 .policy
      else if !s.appletAuthorityOk then s.refuse w 5 .fault
      else if !(s.appletAuthority.occupied && !(s.allowEntry index).occupied) then s.refuse w 5 .state
      else if !s.rangeOk w.slice image len false then s.refuse w 6 .access
      else if !imageLenOk len then s.refuse w 7 .malformed
      else if !s.canRead masterMgmt then before
      else
        let o := s.hostRead (.work w.id 0) masterMgmt w.slice .image image len false
        if o.2 then o.1.modWork w.id (fun v => { v with phase := .reading 1 }) else o.1.refuse w 6 .access

/-- ALLOW_ADD. -/
def execAllowAdd (ring : Nat) (s : State) : Host.Outcome State Fault Refusal :=
  .next (s.onStart ring 0x7010 (fun w => if s.sessionBusy w.session then s else s.allowAddBody w))

/-- Check 9 of R359: the entry is written as one small record, and the descriptor completes with its commit. -/
def State.writeAllow (s : State) (w : Work) (index : Nat) (a : Allow) (res : Bytes) : State :=
  (s.modWork w.id (fun v => { v with phase := .active 1 })).nvSend [(recKey partAllow index, [.allow index a])]
    { work := w.id, core := none, last := true, ok := res, fail := refusalResult 9 0xFF }

/-- The image of ALLOW_ADD has been read: checks 7 to 9. -/
def State.allowAddRead (s : State) (w : Work) : State :=
  let b := w.input.flatten
  let index := w.field 0x1C 2
  let d := imageDigest b
  if !imageForm b then s.refuse w 7 .malformed
  else if !verifyP384 s.appletAuthority.pub (imageSig b) d then s.refuse w 8 .auth
  else
    let a : Allow :=
      { digest := d, applet := fieldAt b 0x18 8, serial := s.appletAuthority.serial, version := fieldAt b 0x14 4,
        slice := w.field 0x1E 2, occupied := true }
    s.writeAllow w index a (d.take 16)

/-- ALLOW_REMOVE (R359). -/
def State.allowRemoveBody (s : State) (w : Work) : State :=
  let index := w.field 0x10 2
  if !(w.aux == 0 && w.zeroFrom 0x12 0x30 && decide (index < 256)) then s.refuse w 1 .malformed
  else
    match s.appletSession w 0x40 with
    | (s, some (k, st)) => s.refuse w k st
    | (s, none) =>
      let s := s.readAllow index w.slice
      if !s.allowRight w w.slice index then s.refuse w 4 .policy
      else if !(s.allowEntry index).occupied then s.refuse w 5 .state
      else
        s.writeAllow w index Allow.reset (zeros 16)

/-- ALLOW_REMOVE. -/
def execAllowRemove (ring : Nat) (s : State) : Host.Outcome State Fault Refusal :=
  .next (s.onStart ring 0x7011 (fun w => if s.sessionBusy w.session then s else s.allowRemoveBody w))

/-- ALLOW_READ (R360). -/
def State.allowReadBody (s : State) (w : Work) : State :=
  let out := w.field 0x10 8
  let len := w.field 0x18 4
  let index := w.field 0x1C 2
  let e := s.allowEntry index
  let form := w.aux == 0 && w.zeroFrom 0x1E 0x40 && decide (index < 256) && decide (96 ≤ len) && !beyond64 out len
  if !form then s.refuseOpen w .malformed []
  else if !s.rangeOk w.slice out len true then s.refuseOpen w .access []
  else if e.occupied && e.slice != w.slice && e.slice != 0xFFFF then s.refuseOpen w .policy []
  else if !s.canMaster masterMgmt then s
  else
    let r := (s.readAllow index w.slice).hostWrite masterMgmt w.slice .statement (some w.id) out e.bytes
    if r.2 then r.1.finishOpen w.id .ok [] else r.1.refuseOpen w .access []

/-- ALLOW_READ. -/
def execAllowRead (ring : Nat) (s : State) : Host.Outcome State Fault Refusal := .next (s.onStart ring 0x7012 s.allowReadBody)

/-! INVOKE (R361). -/

/-- Check 1. -/
def Work.invokeForm (w : Work) : Bool :=
  let budget := w.field 0x1C 2
  w.aux == 0 && w.zeroFrom 0x38 0x70 && imageLenOk (w.field 0x18 4) && decide (1 ≤ budget) && decide (budget ≤ 4096) &&
    decide (w.field 0x1E 2 < 256) && decide (w.field 0x28 4 ≤ 4096) && decide (w.field 0x2C 4 ≤ 4096) &&
    !beyond64 (w.field 0x10 8) (w.field 0x18 4) && !beyond64 (w.field 0x20 8) (w.field 0x28 4) &&
    !beyond64 (w.field 0x30 8) (w.field 0x2C 4)

/-- Checks 1 to 5; then the invocation waits in the class-2 queue of its slice. -/
def State.invokeBody (s : State) (w : Work) : State :=
  if !w.invokeForm then s.refuse w 1 .malformed
  else
    match s.appletSession w 0x80 with
    | (s, some (k, st)) => s.refuse w k st
    | (s, none) =>
      let x := s.sessionAt w.session
      if !attrAllows x.attr attrInvoke 2 x.slice w.slice then s.refuse w 4 .policy
      else if (s.sliceAt w.slice).coreQuota = 0 then s.refuse w 4 .busy
      else if !(s.rangeOk w.slice (w.field 0x10 8) (w.field 0x18 4) false &&
          s.rangeOk w.slice (w.field 0x20 8) (w.field 0x28 4) false &&
          s.rangeOk w.slice (w.field 0x30 8) (w.field 0x2C 4) true) then s.refuse w 5 .access
      else s.modWork w.id (fun v => { v with phase := .active 1 })

/-- INVOKE. -/
def execInvoke (ring : Nat) (s : State) : Host.Outcome State Fault Refusal :=
  .next (s.onStart ring 0x7000 (fun w => if s.sessionBusy w.session then s else s.invokeBody w))

/-! Assignment and load (R32, R351, R363). -/

/-- Cores. -/
def coreCount : Nat := 32

/-- Cores that a slice holds. -/
def State.coresUsed (s : State) (slice : Nat) : Nat :=
  (s.applets.cores.filter (fun e => match e.2.inv with | some v => v.slice == slice | none => false)).length

/-- The lowest-numbered idle core. -/
def State.idleCore (s : State) : Option Nat := (List.range coreCount).find? (fun c => (s.coreAt c).mode == .idle)

/-- The invocation that is assigned next: the oldest whose slice holds fewer cores than its quota. That the oldest of all
slices comes first is the model's choice (log entry 82). -/
def State.nextInvoke (s : State) : Option Work :=
  s.work.find? (fun w => w.opcode == 0x7000 && w.activeAt 1 && decide (s.coresUsed w.slice < (s.sliceAt w.slice).coreQuota))

/-- A region of a core's MPU (R351). -/
def coreRegion (addr len : Nat) (write : Bool) : Region :=
  if len = 0 then Region.reset
  else { Region.reset with start := addr / 8, stop := (addr + len - 1) / 8, en := true, r := !write, w := write }

/-- Firmware programs the core's MPU (R351). -/
def State.coreMpu (s : State) (core : Nat) (w : Work) : State :=
  let regions : Table Region :=
    [(0, coreRegion (w.field 0x10 8) (w.field 0x18 4) false), (1, coreRegion (w.field 0x20 8) (w.field 0x28 4) false),
      (2, coreRegion (w.field 0x30 8) (w.field 0x2C 4) true)]
  s.modMpu core (fun m => { m with en := true, bufw := false, bufwLive := false, regions := regions })

/-- The invocation of a descriptor. -/
def invocationOf (w : Work) : Invocation :=
  { work := w.id, slice := w.slice, gen := w.gen, session := w.session, image := w.field 0x10 8, imageLen := w.field 0x18 4,
    budget := 480 * w.field 0x1C 2, allow := w.field 0x1E 2, inAddr := w.field 0x20 8, inLen := w.field 0x28 4,
    outCap := w.field 0x2C 4, outAddr := w.field 0x30 8, svcMask := 0, charged := 0, posts := 0, loaded := none }

/-- The load fails: the core is cleared and released, and the invocation refused (R361, R363). -/
def State.loadFail (s : State) (core : Nat) (check : Nat) (st : Status) : State :=
  match ((s.coreAt core).inv).bind (fun v => s.workAt v.work) with
  | none => s.clearCore core
  | some w => (s.clearCore core).refuse w check st

/-- Check 6. -/
def State.entryFail (s : State) (w : Work) : Option (Nat × Status) :=
  let e := s.allowEntry (w.field 0x1E 2)
  firstFail [(s.appletAuthorityOk, (6, .fault)), (s.appletAuthority.occupied && e.occupied, (6, .state)), (e.slice == w.slice || e.slice == 0xFFFF, (6, .policy))]

/-- Assignment: check 6, the MPU, the reads of image and mailbox. A record of ALLOW that cannot be read reads as not
occupied and is logged (R474). -/
def State.assignCore (s : State) : State :=
  let before := s
  match s.nextInvoke, s.idleCore with
  | some w, some c =>
    let index := w.field 0x1E 2
    let s := s.readAllow index w.slice
    match s.entryFail w with
    | some (k, st) => s.refuse w k st
    | none =>
      if !s.canRead c then before
      else
      let s := (s.coreMpu c w).setCore c { Core.reset with mode := .loading, inv := some (invocationOf w) }
      let s := s.modWork w.id (fun v => { v with phase := .active 2, admitted := some s.now })
      let o := s.hostRead (.image c) c w.slice .image (w.field 0x10 8) (w.field 0x18 4) false
      if !o.2 then o.1.loadFail c 7 .access
      else if w.field 0x28 4 = 0 then o.1
      else
        let p := o.1.hostRead (.image c) c w.slice .mailboxRead (w.field 0x20 8) (w.field 0x28 4) false
        if p.2 then p.1 else p.1.loadFail c 7 .access
  | _, _ => s

/-- INVOCATION_CORE_ASSIGN. -/
def execInvocationCoreAssign (s : State) : Host.Outcome State Fault Refusal := .next s.assignCore

/-- The core with image and mailbox in its memories, ready for its first instruction (R327, R363). -/
def Core.load_ (c : Core) (v : Invocation) (image mailbox : Bytes) (mode : CoreMode) : Core :=
  { c with
    mode := mode, inv := some { v with svcMask := fieldAt image 6 2, loaded := some image },
    d := List.replicate 16 imgZero, x := BitVec.ofNat 32 v.inLen :: List.replicate 7 0, f := 0,
    pc := BitVec.ofNat 32 (imgEntry image), code := memWrite [] 0 (bytesAt image 64 (imgCodeLen image)),
    data := memWrite [] 0 (bytesAt image (64 + imgCodeLen image) (imgDataLen image)), mail := memWrite [] 0 mailbox,
    cycle := 0 }

/-- The big-number job of check 9 (R362). -/
def State.imageJob (s : State) (core : Nat) (v : Invocation) (image : Bytes) : BnJob :=
  let q := s.appletAuthority.pub
  let input := leBytes 4 2 ++ fit 96 q ++ imageSig image ++ imageDigest image
  { bnJobOf v.work 3 core v.slice 0x21 none 0 input with no := s.appletAuthority.serial }

/-- The reads have ended: checks 7 and 8; check 9 when the entry's signature is not current (R357). -/
def State.imageLoaded (s : State) (core : Nat) (image mailbox : Bytes) : State :=
  let c := s.coreAt core
  match c.inv with
  | none => s
  | some v =>
    let fits := c.mode == .loading && image.length == v.imageLen && mailbox.length == v.inLen &&
      (s.reads.any (fun (r : Read) => r.kind == ReadKind.image core && !r.discard)) &&
      s.reads.all (fun (r : Read) => r.kind != ReadKind.image core || r.discard || r.arrives)
    if !fits then s
    else
      let s := { s with reads := s.reads.filter (fun (r : Read) => r.kind != ReadKind.image core || r.discard) }
      let e := s.allowEntry v.allow
      if !imageForm image then s.loadFail core 7 .malformed
      else if imageDigest image != e.digest then s.loadFail core 8 .auth
      else if e.serial == s.appletAuthority.serial then s.setCore core (c.load_ v image mailbox .ready)
      else (s.setCore core (c.load_ v image mailbox .verifying)).bnSubmit (s.imageJob core v image)

/-- IMAGE_LOAD_COMPLETE. -/
def execImageLoadComplete (core : Nat) (image mailbox : Bytes) (s : State) : Host.Outcome State Fault Refusal :=
  .next (s.imageLoaded core image mailbox)

/-- The entry's signature has become current; a write that cannot be committed is left to the next load (R362). -/
def State.markCurrent (s : State) (v : Invocation) (serial : Nat) : State :=
  let e := s.allowEntry v.allow
  let d := (v.loaded.map imageDigest).getD []
  if e.occupied && e.digest == d then (s.nvNow (recKey partAllow v.allow) [.allow v.allow { e with serial := serial }]).1 else s

/-- The verification of check 9 has ended. -/
def State.imageVerified (s : State) (core : Nat) : State :=
  match (s.coreAt core).inv, s.bnEngineOf (fun j => j.use == 3 && j.who == core) with
  | some v, some (e, j) =>
    let r := (s.bnRetire e).bnOutcome j
    match r.1 with
    | .verdict true => (r.2.markCurrent v j.no).modCore core (fun c => { c with mode := .ready })
    | _ => r.2.loadFail core 9 .auth
  | _, _ => s

/-- IMAGE_SIGNATURE_VERIFIED. -/
def execImageSignatureVerified (core : Nat) (s : State) : Host.Outcome State Fault Refusal := .next (s.imageVerified core)

/-! The end of an invocation (R345, R365, R366). -/

/-- CAUSE of a trap record. -/
def TrapCause.code (c : TrapCause) : Nat :=
  match c with
  | .invalidDigit => 1 | .overflow => 2 | .mpu => 3 | .illegal => 4 | .budget => 5 | .memory => 6 | .user => 7

/-- Completion status of a trapped invocation (R366). -/
def TrapCause.status (c : TrapCause) : Status :=
  match c with
  | .invalidDigit => .invalidDigit | .overflow => .overflow | .mpu => .access | .illegal => .malformed
  | .budget => .exhausted | .memory => .fault | .user => .policy

/-- The trap record of R345. -/
def trapRecord (cause : TrapCause) (sub core : Nat) (pc insn info : Word) : Bytes :=
  leBytes 1 cause.code ++ leBytes 1 sub ++ leBytes 1 core ++ [0] ++ leBytes 4 pc.toNat ++ leBytes 4 insn.toNat ++
    leBytes 4 info.toNat

/-- The invocation ends with a trap. -/
def State.trapEnd (s : State) (core : Nat) (cause : TrapCause) (sub : Nat) (pc insn info : Word) : State :=
  match (s.coreAt core).inv with
  | none => s
  | some v =>
    let s := { s with applets := { s.applets with traps := s.applets.traps + 1 } }
    (s.clearCore core).finish v.work cause.status (trapRecord cause sub core pc insn info)

/-- The invocation's slice is reset (R68 case 2). -/
def State.sliceGone (s : State) (v : Invocation) : Bool :=
  (s.sliceAt v.slice).st == .resetting || (s.sliceAt v.slice).gen != v.gen

/-- The invocation ends with its slice: its completion is dropped and counted (R289, R366). -/
def State.dropInvocation (s : State) (core : Nat) (v : Invocation) : State :=
  match s.workAt v.work with
  | none => s.clearCore core
  | some w => (s.clearCore core).dropWrites w

/-- The core runs, waits for a service or is about to resume. -/
def Core.executes (c : Core) : Bool := c.mode == .running || c.mode == .waiting || c.mode == .resume || c.mode == .stalled

/-- The budget of the core is used up (R365). -/
def Core.spentBudget (c : Core) : Bool :=
  match c.inv with
  | some v => c.executes && decide (v.budget ≤ v.charged)
  | none => false

/-- BUDGET_TRAP (R365): behind a squash and a reset of the slice in the order of R68. -/
def State.budgetTrap (s : State) (core : Nat) : State :=
  let c := s.coreAt core
  match c.inv with
  | none => s
  | some v =>
    if c.spentBudget && !c.squash && !s.sliceGone v then s.trapEnd core .budget 0 c.pc 0 0 else s

/-- BUDGET_TRAP. -/
def execBudgetTrap (core : Nat) (s : State) : Host.Outcome State Fault Refusal := .next (s.budgetTrap core)

/-- A trap that an instruction raised is delivered (R345). -/
def State.deliverTrap (s : State) (core : Nat) : State :=
  match (s.coreAt core).trapped with
  | none => s
  | some (cause, sub, pc, insn, info) => s.trapEnd core cause sub pc insn info

end Sys2Proof.Machine
end

