-- ==== Sys2Proof/Machine/Alaing.lean ====
section
/-! DEFINITION. The Alaing instructions as commands (R328-R346): each takes one instruction of a running core when the
word at its PC is that instruction (log entry 9). -/

namespace Sys2Proof.Machine
open Sys2Proof

/-- The core takes an instruction in this grain: it runs, no trap of it waits, no squash is pending (R330), its budget is
not used up (R365), the clock runs. -/
def State.coreRuns (s : State) (core : Nat) : Bool :=
  let c := s.coreAt core
  c.mode == .running && c.trapped.isNone && !c.squash && !c.spentBudget && !s.tamper.clockStopped && s.pwr.flush.isNone &&
    decide (core < coreCount)

/-- The core with a trap raised: nothing but V changes (R345, R346). -/
def Core.raise (c : Core) (cause : TrapCause) (sub : Nat) (insn info : Word) (v : Bool) : Core :=
  let c := if v then c.putFlag flagV true else c
  { c with trapped := some (cause, sub, c.pc, insn, info) }

/-- What a core is after an effect. -/
def Core.after (c : Core) (e : Effect) (insn : Word) : Core :=
  match e with
  | .done d cycles => { d with cycle := c.cycle + cycles }
  | .trap cause sub info v => c.raise cause sub insn info v

/-- A running core takes the instruction at its PC for the one with an opcode and a body. -/
def State.alaing (s : State) (core op : Nat) (body : Core → Word → Effect) : State :=
  if !s.coreRuns core then s
  else
    match (s.coreAt core).execute op body with
    | none => s
    | some (e, w) => s.modCore core (fun c => c.after e w)

/-- DADD. -/
def execDadd (core : Nat) (s : State) : Host.Outcome State Fault Refusal := .next (s.alaing core 0x01 alDadd)
/-- DSUB. -/
def execDsub (core : Nat) (s : State) : Host.Outcome State Fault Refusal := .next (s.alaing core 0x02 alDsub)
/-- DCMP. -/
def execDcmp (core : Nat) (s : State) : Host.Outcome State Fault Refusal := .next (s.alaing core 0x03 alDcmp)
/-- DMUL. -/
def execDmul (core : Nat) (s : State) : Host.Outcome State Fault Refusal := .next (s.alaing core 0x04 alDmul)
/-- DDIV. -/
def execDdiv (core : Nat) (s : State) : Host.Outcome State Fault Refusal := .next (s.alaing core 0x05 alDdiv)
/-- DRND. -/
def execDrnd (core : Nat) (s : State) : Host.Outcome State Fault Refusal := .next (s.alaing core 0x06 alDrnd)
/-- DSHF. -/
def execDshf (core : Nat) (s : State) : Host.Outcome State Fault Refusal := .next (s.alaing core 0x07 alDshf)
/-- DNEG. -/
def execDneg (core : Nat) (s : State) : Host.Outcome State Fault Refusal := .next (s.alaing core 0x08 alDneg)
/-- DABS. -/
def execDabs (core : Nat) (s : State) : Host.Outcome State Fault Refusal := .next (s.alaing core 0x09 alDabs)
/-- DMOV. -/
def execDmov (core : Nat) (s : State) : Host.Outcome State Fault Refusal := .next (s.alaing core 0x0A alDmov)
/-- DNRM. -/
def execDnrm (core : Nat) (s : State) : Host.Outcome State Fault Refusal := .next (s.alaing core 0x0B alDnrm)
/-- DVAL. -/
def execDval (core : Nat) (s : State) : Host.Outcome State Fault Refusal := .next (s.alaing core 0x0C alDval)
/-- DTST. -/
def execDtst (core : Nat) (s : State) : Host.Outcome State Fault Refusal := .next (s.alaing core 0x0D alDtst)
/-- DCVB. -/
def execDcvb (core : Nat) (s : State) : Host.Outcome State Fault Refusal := .next (s.alaing core 0x0E alDcvb)
/-- DCVD. -/
def execDcvd (core : Nat) (s : State) : Host.Outcome State Fault Refusal := .next (s.alaing core 0x0F alDcvd)
/-- DLI. -/
def execDli (core : Nat) (s : State) : Host.Outcome State Fault Refusal := .next (s.alaing core 0x10 alDli)
/-- DADDI. -/
def execDaddi (core : Nat) (s : State) : Host.Outcome State Fault Refusal := .next (s.alaing core 0x11 alDaddi)
/-- DCMPI. -/
def execDcmpi (core : Nat) (s : State) : Host.Outcome State Fault Refusal := .next (s.alaing core 0x12 alDcmpi)
/-- DGET. -/
def execDget (core : Nat) (s : State) : Host.Outcome State Fault Refusal := .next (s.alaing core 0x13 alDget)
/-- DPUT. -/
def execDput (core : Nat) (s : State) : Host.Outcome State Fault Refusal := .next (s.alaing core 0x14 alDput)
/-- DSEL. -/
def execDsel (core : Nat) (s : State) : Host.Outcome State Fault Refusal := .next (s.alaing core 0x15 alDsel)
/-- LDD. -/
def execLdd (core : Nat) (s : State) : Host.Outcome State Fault Refusal := .next (s.alaing core 0x18 alLdd)
/-- STD. -/
def execStd (core : Nat) (s : State) : Host.Outcome State Fault Refusal := .next (s.alaing core 0x19 alStd)
/-- LDX. -/
def execLdx (core : Nat) (s : State) : Host.Outcome State Fault Refusal := .next (s.alaing core 0x1A alLdx)
/-- STX. -/
def execStx (core : Nat) (s : State) : Host.Outcome State Fault Refusal := .next (s.alaing core 0x1B alStx)
/-- LDH. -/
def execLdh (core : Nat) (s : State) : Host.Outcome State Fault Refusal := .next (s.alaing core 0x1C alLdh)
/-- STH. -/
def execSth (core : Nat) (s : State) : Host.Outcome State Fault Refusal := .next (s.alaing core 0x1D alSth)
/-- LDB. -/
def execLdb (core : Nat) (s : State) : Host.Outcome State Fault Refusal := .next (s.alaing core 0x1E alLdb)
/-- STB. -/
def execStb (core : Nat) (s : State) : Host.Outcome State Fault Refusal := .next (s.alaing core 0x1F alStb)
/-- XADD. -/
def execXadd (core : Nat) (s : State) : Host.Outcome State Fault Refusal := .next (s.alaing core 0x20 alXadd)
/-- XSUB. -/
def execXsub (core : Nat) (s : State) : Host.Outcome State Fault Refusal := .next (s.alaing core 0x21 alXsub)
/-- XAND. -/
def execXand (core : Nat) (s : State) : Host.Outcome State Fault Refusal := .next (s.alaing core 0x22 alXand)
/-- XOR. -/
def execXor (core : Nat) (s : State) : Host.Outcome State Fault Refusal := .next (s.alaing core 0x23 alXor)
/-- XXOR. -/
def execXxor (core : Nat) (s : State) : Host.Outcome State Fault Refusal := .next (s.alaing core 0x24 alXxor)
/-- XSHL. -/
def execXshl (core : Nat) (s : State) : Host.Outcome State Fault Refusal := .next (s.alaing core 0x25 alXshl)
/-- XSHR. -/
def execXshr (core : Nat) (s : State) : Host.Outcome State Fault Refusal := .next (s.alaing core 0x26 alXshr)
/-- XSAR. -/
def execXsar (core : Nat) (s : State) : Host.Outcome State Fault Refusal := .next (s.alaing core 0x27 alXsar)
/-- XMUL. -/
def execXmul (core : Nat) (s : State) : Host.Outcome State Fault Refusal := .next (s.alaing core 0x28 alXmul)
/-- XCMP. -/
def execXcmp (core : Nat) (s : State) : Host.Outcome State Fault Refusal := .next (s.alaing core 0x29 alXcmp)
/-- XADDI. -/
def execXaddi (core : Nat) (s : State) : Host.Outcome State Fault Refusal := .next (s.alaing core 0x2A alXaddi)
/-- XLI. -/
def execXli (core : Nat) (s : State) : Host.Outcome State Fault Refusal := .next (s.alaing core 0x2B alXli)
/-- XLUI. -/
def execXlui (core : Nat) (s : State) : Host.Outcome State Fault Refusal := .next (s.alaing core 0x2C alXlui)
/-- XORI. -/
def execXori (core : Nat) (s : State) : Host.Outcome State Fault Refusal := .next (s.alaing core 0x2D alXori)
/-- XANDI. -/
def execXandi (core : Nat) (s : State) : Host.Outcome State Fault Refusal := .next (s.alaing core 0x2E alXandi)
/-- XCMPI. -/
def execXcmpi (core : Nat) (s : State) : Host.Outcome State Fault Refusal := .next (s.alaing core 0x2F alXcmpi)
/-- B. -/
def execB (core : Nat) (s : State) : Host.Outcome State Fault Refusal := .next (s.alaing core 0x30 alB)
/-- BL. -/
def execBl (core : Nat) (s : State) : Host.Outcome State Fault Refusal := .next (s.alaing core 0x31 alBl)
/-- BR. -/
def execBr (core : Nat) (s : State) : Host.Outcome State Fault Refusal := .next (s.alaing core 0x32 alBr)
/-- DBNZ. -/
def execDbnz (core : Nat) (s : State) : Host.Outcome State Fault Refusal := .next (s.alaing core 0x33 alDbnz)
/-- NOP. -/
def execAlaingNop (core : Nat) (s : State) : Host.Outcome State Fault Refusal := .next (s.alaing core 0x37 alNop)
/-- SVC. -/
def execSvc (core : Nat) (s : State) : Host.Outcome State Fault Refusal := .next (s.alaing core 0x38 alSvc)
/-- TRAP. -/
def execTrap (core : Nat) (s : State) : Host.Outcome State Fault Refusal := .next (s.alaing core 0x39 alTrap)
/-- SETM. -/
def execSetm (core : Nat) (s : State) : Host.Outcome State Fault Refusal := .next (s.alaing core 0x3A alSetm)
/-- MFF. -/
def execMff (core : Nat) (s : State) : Host.Outcome State Fault Refusal := .next (s.alaing core 0x3B alMff)
/-- MTF. -/
def execMtf (core : Nat) (s : State) : Host.Outcome State Fault Refusal := .next (s.alaing core 0x3C alMtf)

end Sys2Proof.Machine
end

