-- ==== Sys2Proof/Machine/Contactless.lean ====
section
/-! DEFINITION. The contactless reader (R529-R538, R547): the collect, card detection, anticollision, the dialogue with
a custodian card. Frames in `out` are shown without parity and CRC, and blocks of ISO/IEC 14443-4 as the command they
carry (log entry 35). -/

namespace Sys2Proof.Machine
open Sys2Proof

/-- Place of the contactless front end in the order of R20. -/
def unitContactless : Nat := 19

/-- Grains of a millisecond (R9). -/
def msec : Nat := 8000

/-! CL_COLLECT and CL_ABORT (R536-R538). -/

/-- The result of a collect. -/
def clResult (selected accepted rejected : Nat) : Bytes := [selected, accepted, rejected].map (BitVec.ofNat 8)

/-- A refused CL_COLLECT has the result of R537 with no card. -/
def State.refuseCollect (s : State) (w : Work) (check : Nat) (st : Status) : State :=
  s.refuseWith w check st (clResult 0 0 0)

/-- Check 1. -/
def Work.collectForm (w : Work) : Bool :=
  let wait := w.field 0x24 4
  w.aux == 0 && w.zeroFrom 0x34 0x40 && decide (312 ≤ w.field 0x20 4) && decide (1 ≤ wait) && decide (wait ≤ 131072) &&
    (w.field 0x28 8 == 0) == (w.field 0x30 4 == 0) && !beyond64 (w.field 0x10 8) 96 &&
    !beyond64 (w.field 0x18 8) (w.field 0x20 4) && !beyond64 (w.field 0x28 8) (w.field 0x30 4)

/-- A collect that runs: its work and slice. -/
def State.runningCollect (s : State) : Option Work :=
  s.work.find? (fun w => w.opcode == 0xA100 && !w.waiting && !w.isDone)

/-- Checks 1 to 4, then the read of the challenge block. -/
def State.startCollect (s : State) (w : Work) : State :=
  if !w.collectForm then s.refuseCollect w 1 .malformed
  else if !(s.tamper.state == .issued || s.tamper.state == .sealed_) then s.refuseCollect w 2 .state
  else if s.runningCollect.isSome || s.cl.collect.isSome then s.refuseCollect w 3 .busy
  else if !(s.rangeOk w.slice (w.field 0x10 8) 96 false && s.rangeOk w.slice (w.field 0x28 8) (w.field 0x30 4) false &&
      s.rangeOk w.slice (w.field 0x18 8) (w.field 0x20 4) true) then s.refuseCollect w 4 .access
  else if !s.canRead masterMgmt then s
  else
    let o := s.hostRead (.work w.id 0) masterMgmt w.slice .statement (w.field 0x10 8) 96 false
    if o.2 then o.1.modWork w.id (fun v => { v with phase := .reading 1 }) else o.1.refuseCollect w 4 .access

/-- CL_COLLECT. -/
def execClCollect (ring : Nat) (s : State) : Host.Outcome State Fault Refusal := .next (s.onStart ring 0xA100 s.startCollect)

/-- OP of a challenge block, and its GRAIN. -/
def blockOp (b : Bytes) : Nat := fieldAt b 8 1
def blockGrain (b : Bytes) : Nat := fieldAt b 0x28 8

/-- The form of a challenge block (R515). -/
def blockForm (b : Bytes) : Bool :=
  bytesAt b 0 8 == ascii "SKAORA-A" && decide (1 ≤ blockOp b) && decide (blockOp b ≤ 5) && allZero (bytesAt b 0x0A 6) &&
    (if blockOp b == opRngTest then authSlot b == 0xFF else decide (authSlot b < 16))

/-- The first failure of check 5 of R537; a PUBLIC off its curve answers POLICY, as R537 names no RANGE (log entry 35). -/
def State.collectFail (s : State) (b list : Bytes) : Option Status :=
  let l := stageList list
  let prov := blockOp b == opProvision
  firstFail [
    (blockForm b, .malformed),
    (bytesAt b 0x10 16 == s.keys.deviceId && fieldAt b 0x20 8 == s.keys.epoch, .policy),
    (blockOp b == opRngTest || (s.tamper.challenges.find? (fun e => e.1 == authSlot b)).map Prod.snd == some b, .policy),
    (prov == !list.isEmpty, .malformed),
    (!prov || (fieldAt list 8 2 == stageCount list.length && stageFieldsOk list), .malformed),
    (!prov || (l.all StageEntry.onCurve && l.all (fun e => e.kind != 3 || e.ident == deviceIdOf e.pub)), .policy)]

/-- The collect begins (R530): the front end is in PING. -/
def State.beginCollect (s : State) (w : Work) (b list : Bytes) : State :=
  match s.collectFail b list with
  | some st => s.refuseCollect w 5 st
  | none =>
    let c : Collect :=
      { work := w.id, slice := w.slice, since := s.now, wait := w.field 0x24 4, block := b,
        signers := if list.isEmpty then none else some (stageList list), fieldOk := false, measuredAt := s.now,
        lastPing := s.now, pings := none, selected := 0, rejected := 0, sigs := [], dialog := none }
    let s := s.modWork w.id (fun v => { v with phase := .active 1 })
    { s with cl := { s.cl with mode := .ping, collect := some c, cards := 0, sigs := 0, extField := false } }

/-- LIST_LEN may be that of a staging list. -/
def listLenOk (n : Nat) : Bool := n == 16 + 128 * stageCount n && decide (3 ≤ stageCount n) && decide (stageCount n ≤ 34)

/-- The block, and for PROVISION the list, have been read. -/
def State.collectRead (s : State) (w : Work) : State :=
  let b := w.input.headD []
  let n := w.field 0x30 4
  if w.readingAt 1 && n != 0 then
    if !(blockOp b == opProvision && listLenOk n) then
      s.refuseCollect w 5 ((s.collectFail b (zeros 1)).getD .malformed)
    else
      let o := s.hostRead (.work w.id 1) masterMgmt w.slice .statement (w.field 0x28 8) n false
      if o.2 then o.1.modWork w.id (fun v => { v with phase := .reading 2 }) else o.1.refuseCollect w 4 .access
  else s.beginCollect w b (w.input.getD 1 [])

/-- A frame leaves over the antenna. -/
def State.rfOut (s : State) (b : Bytes) : State := s.emit (.rf b)

/-- Commands of ISO/IEC 14443-3. -/
def rfReqa : Bytes := [0x26]
def rfHlta : Bytes := [0x50, 0x00]

/-- The collect ends: a card in the field is halted, the front end is a tag again (R530, R538). -/
def State.endCollect (s : State) (c : Collect) (st : Status) : State :=
  let s := if c.dialog.isSome then s.rfOut rfHlta else s
  let s := { s with cl := { s.cl with mode := .tag, collect := none, extField := false } }
  s.finish c.work st (clResult c.selected c.sigs.length c.rejected)

/-- CL_ABORT (R538). -/
def State.clAbort (s : State) (w : Work) : State :=
  if !(w.aux == 0 && w.zeroFrom 0x10 0x40) then s.refuseOpen w .malformed []
  else
    match s.cl.collect, s.runningCollect with
    | some c, _ =>
      if c.slice = w.slice then (s.endCollect c .auth).finishOpen w.id .ok [] else s.refuseOpen w .state []
    | none, some v =>
      if v.slice = w.slice then (s.finish v.id .auth (clResult 0 0 0)).finishOpen w.id .ok [] else s.refuseOpen w .state []
    | none, none => s.finishOpen w.id .ok []

/-- CL_ABORT. -/
def execClAbort (ring : Nat) (s : State) : Host.Outcome State Fault Refusal := .next (s.onStart ring 0xA101 s.clAbort)

/-- The challenge slot of the block has lapsed (R515, R537). -/
def State.blockLapsed (s : State) (b : Bytes) : Bool :=
  blockOp b != opRngTest && (decide (blockGrain b + challengeLife ≤ s.now) || fieldAt b 0x20 8 != s.keys.epoch)

/-- Both signatures have been accepted: the record waits to be written (R247). -/
def Collect.full (c : Collect) : Bool := decide (2 ≤ c.sigs.length)

/-- CL_COLLECT_WAIT_EXPIRY: WAIT has passed, or the slot has lapsed (check 6). -/
def execClCollectWaitExpiry (s : State) : Host.Outcome State Fault Refusal :=
  .next (match s.cl.collect with
    | none => s
    | some c => if c.full then s else if c.since + c.wait * pound ≤ s.now || s.blockLapsed c.block then s.endCollect c .auth else s)

/-! Field check and pings (R529, R531). -/

/-- Change the running collect. -/
def State.modCollect (s : State) (f : Collect → Collect) : State :=
  { s with cl := { s.cl with collect := s.cl.collect.map f } }

/-- Field, in mA/m, above which the carrier stays off. -/
def fieldLimit : Nat := 150

/-- EXTERNAL_FIELD_CHECK: the measurement of 5 ms before the carrier is switched on has ended; with a field present it
is made again every 10 ms. -/
def execExternalFieldCheck (field : Nat) (s : State) : Host.Outcome State Fault Refusal :=
  .next (match s.cl.collect with
    | none => s
    | some c =>
      let due := c.measuredAt + (if s.cl.extField then 10 * msec else 5 * msec)
      if c.dialog.isSome || c.fieldOk || decide (s.now < due) then s
      else
        let ext := decide (fieldLimit < field)
        let s := s.modCollect (fun c => { c with fieldOk := !ext, measuredAt := s.now })
        { s with cl := { s.cl with extField := ext } })

/-- Detuning: the fall below the baseline in units of 1/1,024 of the baseline. -/
def detuning (base amplitude : Nat) : Nat := if base ≤ amplitude then 0 else (base - amplitude) * 1024 / base

/-- The reader sends REQA for the `n`th time. -/
def State.sendReqa (s : State) (n : Nat) (fresh : Bool) : State :=
  let d : Dialog :=
    { step := .atqa n, level := 1, known := [], branches := [], uid := [], sent := rfReqa, retries := 0, fresh := fresh }
  (s.modCollect (fun c => { c with dialog := some d })).rfOut rfReqa

/-- CARD_PING: a baseline is taken at the first ping and after every 16 pings without detection; otherwise a detuning of
DET_THR or more detects a card. -/
def State.cardPing (s : State) (amplitude : Nat) : State :=
  match s.cl.collect with
  | none => s
  | some c =>
    let due := c.pings.isNone || decide (c.lastPing + s.cl.pingMs * msec ≤ s.now)
    if c.dialog.isSome || !c.fieldOk || !due then s
    else
      let a := amplitude % 1024
      let s := s.modCollect (fun c => { c with fieldOk := false, measuredAt := s.now, lastPing := s.now })
      match c.pings with
      | none => { s with cl := { s.cl with detBase := a, detLast := 0 } }.modCollect (fun c => { c with pings := some 0 })
      | some n =>
        let d := detuning s.cl.detBase a
        let s := { s with cl := { s.cl with detLast := min 1023 d } }
        if s.cl.detThr ≤ d then { s with cl := { s.cl with mode := .reader } }.sendReqa 1 true
        else s.modCollect (fun c => { c with pings := if n + 1 = 16 then none else some (n + 1) })

/-- CARD_PING. -/
def execCardPing (amplitude : Nat) (s : State) : Host.Outcome State Fault Refusal := .next (s.cardPing amplitude)

/-! Cards (R532-R535). -/

/-- Change the dialogue. -/
def State.modDialog (s : State) (f : Dialog → Dialog) : State :=
  s.modCollect (fun c => { c with dialog := c.dialog.map f })

/-- The reader sends a frame and waits for the answer of a step. -/
def State.sendCard (s : State) (step : CardStep) (frame : Bytes) : State :=
  (s.modDialog (fun d => { d with step := step, sent := frame, retries := 0 })).rfOut frame

/-- No card is left: back to PING. -/
def State.toPing (s : State) : State :=
  let s := s.modCollect (fun c => { c with dialog := none, fieldOk := false, measuredAt := s.now, lastPing := s.now })
  { s with cl := { s.cl with mode := .ping } }

/-- Cards that a collect selects at most. -/
def cardLimit : Nat := 8

/-- The card is halted; the remaining ones are resolved, unless 8 have been selected. -/
def State.nextCard (s : State) : State :=
  match s.cl.collect with
  | none => s
  | some c =>
    if cardLimit ≤ c.selected then s.endCollect c .auth else (s.rfOut rfHlta).sendReqa 1 false

/-- The card is rejected. -/
def State.rejectCard (s : State) : State := (s.modCollect (fun c => { c with rejected := c.rejected + 1 })).nextCard

/-- SEL of a cascade level. -/
def selByte (level : Nat) : Byte := BitVec.ofNat 8 (0x91 + 2 * level)

/-- Bits packed into bytes, first bit lowest. -/
def packBits : List Bool → Nat
  | [] => 0
  | b :: t => flag b + 2 * packBits t

/-- ANTICOLLISION with the bits known: NVB counts SEL, NVB and the bits sent. -/
def anticolFrame (level : Nat) (known : List Bool) : Bytes :=
  let n := known.length
  [selByte level, BitVec.ofNat 8 (0x20 + 16 * (n / 8) + n % 8)] ++ leBytes ((n + 7) / 8) (packBits known)

/-- The reader resolves a cascade level from the bits known. -/
def State.resolve (s : State) (level : Nat) (known : List Bool) : State :=
  (s.modDialog (fun d => { d with level := level, known := known })).sendCard .anticol (anticolFrame level known)

/-- Bits of a byte string, each byte from bit 0. -/
def bitsOf (b : Bytes) : List Bool := (b.map (fun x => (List.range 8).map (fun i => x.getLsbD i))).flatten

/-- A frame violation by the card (R547): counted and logged. -/
def State.frameError (s : State) (mode : Nat) : State :=
  { s with cl := { s.cl with frameErr := s.cl.frameErr + 1 } }.plogEvent unitContactless 0x0B 0 0xFFFF 0xFFFF mode

/-- A damaged or missing block: up to 2 retransmissions, then the card is deactivated and rejected. -/
def State.badBlock (s : State) : State :=
  let s := s.frameError 2
  match s.cl.collect.bind Collect.dialog with
  | none => s
  | some d =>
    if d.retries < 2 then (s.modDialog (fun d => { d with retries := d.retries + 1 })).rfOut d.sent else s.rejectCard

/-- The answer to ANTICOLLISION: the bits of UID CLn and BCC as received so far, and the first colliding bit. -/
def State.anticolAnswer (s : State) (d : Dialog) (data : Bytes) (collision : Option Nat) : State :=
  let bs := bitsOf (fit 5 data)
  match collision with
  | some k =>
    if d.known.length ≤ k ∧ k < 32 then
      let s := s.modDialog (fun d => { d with branches := (d.level, bs.take k ++ [false]) :: d.branches })
      s.resolve d.level (bs.take k ++ [true])
    else s.badBlock
  | none =>
    let u := fit 5 data
    let bcc := (u.take 4).foldl (· ^^^ ·) 0
    if data.length == 5 && bcc == u.getD 4 0 && d.known == bs.take d.known.length then
      let part := if u.headD 0 == 0x88 && d.level < 3 then bytesAt u 1 3 else u.take 4
      (s.modDialog (fun d => { d with uid := d.uid ++ part })).sendCard .sak ([selByte d.level, 0x70] ++ u)
    else s.badBlock

/-- RATS with FSDI for 256 bytes. -/
def rfRats : Bytes := [0xE0, 0x80]

/-- SELECT of the custodian application (R534). -/
def apduSelect : Bytes := [0x00, 0xA4, 0x04, 0x00, 0x07, 0xF0, 0x53, 0x4B, 0x43, 0x55, 0x53, 0x54, 0x00]

/-- PSO COMPUTE DIGITAL SIGNATURE over a challenge block (R534). -/
def apduPso (block : Bytes) : Bytes := [0x00, 0x2A, 0x9E, 0x9A, 0x60] ++ fit 96 block ++ [0x00]

/-- SAK: the UID is complete, or the next cascade level follows; a card without ISO/IEC 14443-4 is halted at once. -/
def State.sakAnswer (s : State) (d : Dialog) (data : Bytes) : State :=
  let sak := (data.headD 0).toNat
  if data.length ≠ 1 then s.badBlock
  else if bit sak 2 then (if d.level < 3 then s.resolve (d.level + 1) [] else s.badBlock)
  else
    let s := s.modCollect (fun c => { c with selected := c.selected + 1 })
    let s := { s with cl := { s.cl with cards := s.cl.cards + 1 } }
    if bit sak 5 then s.sendCard .ats rfRats else s.rejectCard

/-- The divisor code of the highest rate up to RATE that the card's TA(1) allows in both directions (R533). -/
def bestRate (ats : Bytes) (rate : Nat) : Nat :=
  let t0 := (ats.getD 1 0).toNat
  let ta := if bit t0 4 then (ats.getD 2 0).toNat else 0
  if 2 ≤ rate && bit ta 1 && bit ta 5 then 2 else if 1 ≤ rate && bit ta 0 && bit ta 4 then 1 else 0

/-- ATS: PPS when a higher rate is possible, else the dialogue of R534. -/
def State.atsAnswer (s : State) (data : Bytes) : State :=
  if data.isEmpty || (data.headD 0).toNat != data.length then s.badBlock
  else
    let r := bestRate data s.cl.rate
    if r = 0 then s.sendCard .selectAid apduSelect
    else s.sendCard .pps [0xD0, 0x11, BitVec.ofNat 8 (5 * r)]

/-- A status word of 9000 alone. -/
def sw9000 : Bytes := [0x90, 0x00]

/-- CARD_ACTIVATION_ANSWER: a card's answer to REQA, ANTICOLLISION, SELECT, RATS, PPS or the SELECT of its application. -/
def State.activation (s : State) (data : Bytes) (collision : Option Nat) : State :=
  match s.cl.collect with
  | none => s
  | some c =>
    match c.dialog with
    | none => s
    | some d =>
      match d.step with
      | .atqa _ => (s.modDialog (fun d => { d with fresh := false })).resolve 1 []
      | .anticol => s.anticolAnswer d data collision
      | .sak => s.sakAnswer d data
      | .ats => s.atsAnswer data
      | .pps => if data == [0xD0] then s.sendCard .selectAid apduSelect else s.badBlock
      | .selectAid => if data == sw9000 then s.sendCard .pso (apduPso c.block) else s.rejectCard
      | .pso => s

/-- CARD_ACTIVATION_ANSWER. -/
def execCardActivationAnswer (data : Bytes) (collision : Option Nat) (s : State) : Host.Outcome State Fault Refusal :=
  .next (s.activation data collision)

/-- CARD_FRAME_TIMEOUT: no answer. REQA is sent up to 3 times; without an ATQA after a detection it was a false one. -/
def State.cardTimeout (s : State) : State :=
  match (s.cl.collect.filter (fun c => !c.full)).bind Collect.dialog with
  | none => s
  | some d =>
    match d.step with
    | .atqa n =>
      if n < 3 then s.sendReqa (n + 1) d.fresh
      else
        let s := if d.fresh then { s with cl := { s.cl with falseDet := s.cl.falseDet + 1 } } else s
        s.toPing
    | _ => s.badBlock

/-- CARD_FRAME_TIMEOUT. -/
def execCardFrameTimeout (s : State) : Host.Outcome State Fault Refusal := .next s.cardTimeout

/-! The signature (R534, R535). -/

/-- The signature of a card answer in the form of R516, by the size of its curve; none when the length fits neither. -/
def cardSig (data : Bytes) : Option (Nat × Bytes) :=
  let two (n : Nat) : Bytes := fit 48 (bytesAt data 16 n).reverse ++ fit 48 (bytesAt data (16 + n) n).reverse
  if bytesAt data (data.length - 2) 2 != sw9000 then none
  else if data.length = 82 then some (0x10, two 32)
  else if data.length = 114 then some (0x11, two 48)
  else none

/-- The signer set of a collect (R514, R537). -/
def State.collectSigners (s : State) (c : Collect) : List Signer :=
  match c.signers with
  | some l => stageSigners l
  | none => s.custodians

/-- The signer whose signature a card answer carries, when R535 accepts it. -/
def State.acceptCard (s : State) (c : Collect) (data : Bytes) : Option (Nat × Bytes × Bytes) :=
  match cardSig data with
  | none => none
  | some (curve, sig) =>
    let id := data.take 16
    match (s.collectSigners c).find? (fun x => x.ident == id && x.curve == curve && x.verifies sig c.block) with
    | none => none
    | some x => if c.sigs.any (fun y => y.2.1 == id) then none else some (x.index, id, sig)

/-- The authorisation record of R516. -/
def authRecord (block : Bytes) (sigs : List (Nat × Bytes × Bytes)) : Bytes :=
  fit 96 block ++ [2] ++ zeros 7 ++ (sigs.map (fun x => leBytes 1 x.1 ++ zeros 7 ++ fit 96 x.2.2)).flatten

/-- Two signatures have been accepted: the record is written. -/
def State.collectDone (s : State) (c : Collect) : State :=
  match s.workAt c.work with
  | none => s.endCollect c .ok
  | some w =>
    let o := s.hostWrite masterMgmt w.slice .statement (some w.id) (w.field 0x18 8) (authRecord c.block c.sigs)
    o.1.endCollect c (if o.2 then .ok else .access)

/-- A record that has waited for the link is written at a grain boundary (R247). -/
def State.collectGrain (s : State) : State :=
  match s.cl.collect with
  | none => s
  | some c => if c.full && s.canMaster masterMgmt then s.collectDone c else s

/-- CARD_ANSWER: the answer to PSO COMPUTE DIGITAL SIGNATURE. -/
def State.cardAnswer (s : State) (data : Bytes) : State :=
  match s.cl.collect with
  | none => s
  | some c =>
    match c.dialog with
    | none => s
    | some d =>
      if d.step != .pso || c.full then s
      else
        match s.acceptCard c data with
        | none => s.rejectCard
        | some x =>
          let c := { c with sigs := c.sigs ++ [x] }
          let s := { s with cl := { s.cl with collect := some c, sigs := c.sigs.length } }
          if c.sigs.length = 2 then (if s.canMaster masterMgmt then s.collectDone c else s) else s.nextCard

/-- CARD_ANSWER. -/
def execCardAnswer (data : Bytes) (s : State) : Host.Outcome State Fault Refusal := .next (s.cardAnswer data)

end Sys2Proof.Machine
end

