-- ==== Sys2Proof/Machine/CryptoOps.lean ====
section
/-! DEFINITION. Cipher, MAC and digest streams (R411, R415-R427): their checks, their steps on the bulk AES lanes and
the digest engines, digest contexts. -/

namespace Sys2Proof.Machine
open Sys2Proof

/-! Keys of streams. -/

/-- The session of a stream descriptor stands (R411): it is open, not bad, not expired. -/
def State.streamSession (s : State) (w : Work) : Option Status :=
  let x := s.sessionAt w.session
  firstFail [(s.sessionHeld w.session w.slice, .state), (!x.slotBad, .slotBad), (!s.sessionExpired x, .expired)]

/-- The key of a handle serves an operation of class 2 with one of the TYPEs. -/
def State.keySuits (s : State) (k : KeySrc) (op : Nat) (types : List Nat) (slice : Nat) : Bool :=
  let v := s.keyView k slice
  types.contains v.type && attrAllows v.attr op 2 v.slice slice

/-- TYPEs of AES keys and of HMAC keys (R417, R420). -/
def aesTypes : List Nat := [0x01, 0x02, 0x03]
def hmacTypes : List Nat := [0x03, 0x04, 0x05]

/-! The fields of the descriptors. -/

/-- MODE, DEC, TLEN of CIPHER (R415). -/
def cipherMode (aux : Nat) : Nat := bits aux 2 0
def cipherDec (aux : Nat) : Bool := bit aux 3
def cipherTlen (aux : Nat) : Nat := bits aux 8 4

/-- Bytes of additional data. -/
def Work.aadLen (w : Work) : Nat := if w.opcode == 0x5000 then w.field 0x2C 4 else 0

/-- Bytes of SRC. -/
def Work.srcLen (w : Work) : Nat := w.field 0x18 4

/-- UNIT is a power of two from 16 to 65,536. -/
def unitOk (n : Nat) : Bool := (List.range 13).any (fun i => n == 2 ^ (i + 4))

/-- SRC_LEN suits the mode (R416). -/
def cipherLenOk (mode len unit : Nat) : Bool :=
  match mode with
  | 2 => decide (0 < len) && len % 16 == 0
  | 3 => decide (16 ≤ len) && (len % unit == 0 || decide (16 ≤ len % unit))
  | _ => true

/-- The form of a CIPHER descriptor (R415, R416). -/
def Work.cipherForm (w : Work) : Bool :=
  let mode := cipherMode w.aux
  let gcm := mode == 0
  let xts := mode == 3
  let tlen := cipherTlen w.aux
  decide (mode < 4) && decide (w.aux < 512) && w.zeroFrom 0x54 0x70 && w.zeroFrom 0x70 0x80 &&
    (if gcm then decide (12 ≤ tlen) && decide (tlen ≤ 16) && w.zeroFrom 0x4C 0x50
     else tlen == 0 && w.zeroFrom 0x2C 0x40) &&
    (if xts then unitOk (w.field 0x50 4) else w.zeroFrom 0x28 0x2C && w.zeroFrom 0x50 0x54) &&
    cipherLenOk mode w.srcLen (w.field 0x50 4) && !beyond64 (w.field 0x10 8) w.srcLen &&
    !beyond64 (w.field 0x20 8) w.srcLen && !beyond64 (w.field 0x30 8) w.aadLen && !beyond64 (w.field 0x38 8) tlen

/-! Streams on their units (R419). -/

def aesLanes : Nat := 8

/-- Contexts of one lane or engine. -/
def unitContexts : Nat := 16

/-- Streams that a unit holds. -/
def State.streamsOn (s : State) (digest : Bool) (unit : Nat) : List Stream :=
  s.crypto.streams.filter (fun x => x.onDigest == digest && x.unit == some unit)

/-- The unit a stream binds to: the one with the fewest streams, ties lowest number (log entry 33). -/
def State.bestUnit (s : State) (digest : Bool) : Option Nat :=
  (List.range (if digest then digestEngines else aesLanes)).foldl (fun acc u =>
    let n := (s.streamsOn digest u).length
    if unitContexts ≤ n then acc
    else
      match acc with
      | none => some u
      | some v => if n < (s.streamsOn digest v).length then some u else acc) none

def State.modStream (s : State) (work : Nat) (f : Stream → Stream) : State :=
  { s with crypto := { s.crypto with streams := s.crypto.streams.map (fun x => if x.work == work then f x else x) } }

def State.streamOf (s : State) (work : Nat) : Option Stream := s.crypto.streams.find? (fun x => x.work == work)

/-- The stream ends: its unit is free, its completion is assembled. -/
def State.streamOut (s : State) (w : Work) (st : Status) (res : Bytes) (open_ : Bool) : State :=
  let s := s.releaseUnits w.id
  if open_ then s.finishOpen w.id st res else s.finish w.id st res

/-- A stream ends for a failed access. -/
def State.streamAccess (s : State) (w : Work) : State :=
  (s.plogWork w 0x01 0 .access 0).streamOut w .access [] true

/-- ALG of a digest opcode or of a MAC stream, as a digest. -/
def Work.digestAlg (w : Work) : Nat := if w.opcode == 0x5001 then bits w.aux 1 0 else bits w.aux 2 0

/-- Bytes of one step: 512 on a lane, 4 blocks on an engine (R44). -/
def Work.stepBytes (w : Work) (digest : Bool) : Nat := if digest then 4 * shaBlock w.digestAlg else 512

/-- A step of the stream can be made: its host memory can be reached (R247), or its data is local. -/
def State.streamOpen (s : State) (w : Work) : Bool := w.isApplet || s.canRead (s.masterStream w.id)

/-- A write of a stream: to host memory, or to the local memory of its core when the call ends (R347). -/
def State.streamWrite (s : State) (w : Work) (addr : Nat) (data : Bytes) : State × Bool :=
  if w.isApplet then (s.modCore (w.ring - 65536) (fun c => { c with output := [(addr, data)] }), true)
  else s.hostWrite (s.masterStream w.id) w.slice .stream (some w.id) addr data

/-- The next step's data: its read is issued, or nothing is left to read. Local data stands. -/
def State.streamNext (s : State) (w : Work) (x : Stream) : State :=
  let aad := w.aadLen
  if decide (x.total ≤ x.pos) || w.isApplet then s.modWork w.id (fun v => { v with phase := .active 1 })
  else
    let inAad := decide (x.pos < aad)
    let addr := if inAad then w.field 0x30 8 + x.pos else w.field 0x10 8 + (x.pos - aad)
    let len := min (w.stepBytes x.onDigest) ((if inAad then aad else x.total) - x.pos)
    let r := s.hostRead (.work w.id 1) (s.masterStream w.id) w.slice .stream addr len false
    if r.2 then r.1.modWork w.id (fun v => { v with phase := .reading 1 }) else r.1.streamAccess w

/-- What a stream reads before its data: a tag to be checked, or a digest context. -/
def Work.preRead (w : Work) : Option (Nat × Nat) :=
  match w.opcode with
  | 0x5000 => if cipherMode w.aux == 0 && cipherDec w.aux then some (w.field 0x38 8, cipherTlen w.aux) else none
  | 0x5001 => if bit w.aux 2 then some (w.field 0x20 8, bits w.aux 13 8) else none
  | 0x5011 => some (w.field 0x20 8, 512)
  | 0x5012 => some (w.field 0x20 8, 512)
  | _ => none

/-- The stream's first step. -/
def State.streamBegin (s : State) (w : Work) (x : Stream) : State :=
  if w.isApplet then s.streamNext w x
  else
  match w.preRead with
  | some (a, n) =>
    let r := s.hostRead (.work w.id 0) (s.masterStream w.id) w.slice .stream a n false
    if r.2 then r.1.modWork w.id (fun v => { v with phase := .reading 2 }) else r.1.streamAccess w
  | none => (s.modWork w.id (fun v => { v with input := [[]] })).streamNext { w with input := [[]] } x

/-- A lane or an engine. -/
def streamUnit (digest : Bool) (unit : Nat) : UnitId := if digest then .digest unit else .aes unit

/-- The rotation of slices in which a pool binds its waiting streams: it takes the place behind those of its units (R50). -/
def poolUnit (digest : Bool) : UnitId := streamUnit digest (if digest then digestEngines else aesLanes)

/-- The streams that meet a condition, in the rotation of slices of a unit, those of one slice oldest first (R50). -/
def State.streamTurn (s : State) (u : UnitId) (p : Stream → Work → Bool) : Option (Stream × Work) :=
  let all := s.crypto.streams.filterMap (fun x => (s.workAt x.work).map (fun w => (x, w)))
  (sortBy (fun a b => decide (s.turnOf u a.2.slice ≤ s.turnOf u b.2.slice)) (all.filter (fun y => p y.1 y.2))).head?

/-- The next waiting stream of a pool binds to a unit with a free context. -/
def State.bindStream (s : State) (digest : Bool) : State :=
  match s.bestUnit digest, s.streamTurn (poolUnit digest) (fun x w => x.onDigest == digest && x.unit.isNone && s.streamOpen w) with
  | some u, some (x, w) =>
    let s := (s.servedSlice (poolUnit digest) w.slice).modStream x.work (fun y => { y with unit := some u })
    s.streamBegin w { x with unit := some u }
  | _, _ => s

/-- The waiting streams bind, at a boundary. -/
def State.bindStreams (s : State) : State :=
  s.crypto.streams.foldl (fun s x => s.bindStream x.onDigest) s

/-- A stream enters its pool, with the keys it has taken. -/
def State.startStream (s : State) (w : Work) (digest : Bool) (key : Bytes) : State :=
  let x : Stream := { work := w.id, onDigest := digest, unit := none, pos := 0, total := w.aadLen + w.srcLen }
  let s := s.modWork w.id (fun v => { v with phase := .active 0, key := key, input := [], admitted := some s.now })
  { s with crypto := { s.crypto with streams := s.crypto.streams ++ [x] } }

/-! CIPHER (R415-R418). -/

/-- A named buffer lies in windows with the permission; a length of 0 is not checked. -/
def State.bufOk (s : State) (slice addr len : Nat) (write : Bool) : Bool := len == 0 || s.rangeOk slice addr len write

/-- The keys of a CIPHER: the charged state and the key material, or the failure. -/
def State.cipherKeys (s : State) (w : Work) : State × Except Status Bytes :=
  let xts := cipherMode w.aux == 3
  match keySrcOf (w.field 0x1C 4) w.session none, keySrcOf (w.field 0x28 4) w.session none with
  | some k1, some k2 =>
    let types := if xts then [0x01, 0x03] else aesTypes
    match s.streamSession w, s.keyFail k1 w.slice, (if xts then s.keyFail k2 w.slice else none) with
    | some st, _, _ => (s, .error st)
    | none, some st, _ => (s, .error st)
    | none, none, some st => (s, .error st)
    | none, none, none =>
      let same := (s.keyView k1 w.slice).type == (s.keyView k2 w.slice).type && k1 != k2
      if !s.keySuits k1 attrCipher types w.slice then (s, .error .policy)
      else if !xts then (s.chargeKey k1, .ok (s.keyView k1 w.slice).key)
      else if !(s.keySuits k2 attrCipher types w.slice && same) then (s, .error .policy)
      else ((s.chargeKey k1).chargeKey k2, .ok ((s.keyView k1 w.slice).key ++ (s.keyView k2 w.slice).key))
  | _, _ => (s, .error .malformed)

/-- CIPHER begins. -/
def State.cipherBody (s : State) (w : Work) : State :=
  let gcm := cipherMode w.aux == 0
  if !w.cipherForm then s.refuseOpen w .malformed []
  else if s.sessionBusy w.session then s
  else
    let r := s.cipherKeys w
    match r.2 with
    | .error st => r.1.refuseOpen w st []
    | .ok key =>
      let s := r.1
      let ok := s.bufOk w.slice (w.field 0x10 8) w.srcLen false && s.bufOk w.slice (w.field 0x20 8) w.srcLen true &&
        s.bufOk w.slice (w.field 0x30 8) w.aadLen false &&
        (!gcm || s.rangeOk w.slice (w.field 0x38 8) (cipherTlen w.aux) (!cipherDec w.aux))
      if !ok then s.refuseOpen w .access [] else s.startStream w false key

/-- CIPHER. -/
def execCipher (ring : Nat) (s : State) : Host.Outcome State Fault Refusal := .next (s.onStart ring 0x5000 s.cipherBody)

/-- Additional data and SRC as read so far. -/
def Work.streamData (w : Work) : Bytes := (w.input.drop 1).flatten

/-- Bytes of DST that `n` bytes of SRC determine: in XTS the last blocks wait for the end of SRC. -/
def Work.outReady (w : Work) (n : Nat) : Nat :=
  let unit := w.field 0x50 4
  let rest := w.srcLen % unit % 16
  if cipherMode w.aux == 3 && rest != 0 && decide (n < w.srcLen) then min n (w.srcLen - rest - 16) else n

/-- Bytes of DST for a prefix of SRC. -/
def Work.cipherOut (w : Work) (src : Bytes) : Bytes :=
  let iv := bytesAt w.desc 0x40 16
  let dec := cipherDec w.aux
  match cipherMode w.aux with
  | 0 => gcmCrypt w.key (iv.take 12) src
  | 1 => aesCtr w.key iv src
  | 2 => if dec then cbcDec w.key iv (pieces 16 src) else cbcEnc w.key iv (pieces 16 src)
  | _ =>
    let n := w.key.length / 2
    let f := if dec then xtsDecUnit (w.key.take n) (w.key.drop n) else xtsEncUnit (w.key.take n) (w.key.drop n)
    xtsUnits f (leNat iv) (pieces (w.field 0x50 4) src)

/-- The GCM tag over what has been read; `src` is SRC. -/
def Work.gcmTagOf (w : Work) (src : Bytes) : Bytes :=
  let aad := w.streamData.take w.aadLen
  let ct := if cipherDec w.aux then src else w.cipherOut src
  (gcmTag w.key (bytesAt w.desc 0x40 12) aad ct).take (cipherTlen w.aux)

/-- The last step of a CIPHER: the tag (R416, R418). -/
def State.cipherEnd (s : State) (w : Work) : State :=
  let src := w.streamData.drop w.aadLen
  if cipherMode w.aux != 0 then s.streamOut w .ok [] true
  else if cipherDec w.aux then
    if w.gcmTagOf src == w.input.headD [] then s.streamOut w .ok [] true
    else
      let r := s.hostWrite (s.masterStream w.id) w.slice .stream (some w.id) (w.field 0x20 8) (zeros w.srcLen)
      if r.2 then r.1.streamOut w .auth [] true else r.1.streamAccess w
  else
    let r := s.hostWrite (s.masterStream w.id) w.slice .stream (some w.id) (w.field 0x38 8) (w.gcmTagOf src)
    if r.2 then r.1.streamOut w .ok [] true else r.1.streamAccess w

/-- The output of a step of a CIPHER that brought SRC from `a` to `b` bytes; the flag tells that it was written. -/
def State.cipherWrite (s : State) (w : Work) (a b : Nat) : State × Bool :=
  let lo := w.outReady a
  let hi := w.outReady b
  if hi ≤ lo then (s, true)
  else
    let src := (w.streamData.drop w.aadLen).take (if hi < b then hi else b)
    s.hostWrite (s.masterStream w.id) w.slice .stream (some w.id) (w.field 0x20 8 + lo) ((w.cipherOut src).drop lo)

/-! MAC (R420). -/

/-- TLEN, ALG and VERIFY of MAC. -/
def macTlen (aux : Nat) : Nat := bits aux 13 8
def macAlg (aux : Nat) : Nat := bits aux 1 0
def macVerifies (aux : Nat) : Bool := bit aux 2

/-- TLEN is in the range of its ALG (R349, R420). -/
def macTlenOk (alg tlen : Nat) : Bool :=
  match alg with
  | 0 => decide (4 ≤ tlen) && decide (tlen ≤ 16)
  | 1 => decide (16 ≤ tlen) && decide (tlen ≤ 32)
  | 2 => decide (16 ≤ tlen) && decide (tlen ≤ 48)
  | _ => false

/-- TYPEs of the key of a MAC ALG. -/
def macTypes (alg : Nat) : List Nat := if alg = 0 then aesTypes else hmacTypes

/-- The MAC of a message, not cut. -/
def macOf (alg : Nat) (key msg : Bytes) : Bytes := if alg = 0 then cmac key msg else hmac alg key msg

/-- The form of a MAC descriptor. -/
def Work.macForm (w : Work) : Bool :=
  macTlenOk (macAlg w.aux) (macTlen w.aux) && bits w.aux 7 3 == 0 && bits w.aux 15 14 == 0 && w.zeroFrom 0x28 0x40 &&
    !beyond64 (w.field 0x10 8) w.srcLen && !beyond64 (w.field 0x20 8) (macTlen w.aux)

/-- MAC begins. -/
def State.macBody (s : State) (w : Work) : State :=
  let alg := macAlg w.aux
  if !w.macForm then s.refuseOpen w .malformed []
  else if s.sessionBusy w.session then s
  else
    match keySrcOf (w.field 0x1C 4) w.session none with
    | none => s.refuseOpen w .malformed []
    | some k =>
      match s.streamSession w, s.keyFail k w.slice with
      | some st, _ => s.refuseOpen w st []
      | none, some st => s.refuseOpen w st []
      | none, none =>
        if !s.keySuits k attrMac (macTypes alg) w.slice then s.refuseOpen w .policy []
        else
          let key := (s.keyView k w.slice).key
          let s := s.chargeKey k
          if !(s.bufOk w.slice (w.field 0x10 8) w.srcLen false &&
              s.rangeOk w.slice (w.field 0x20 8) (macTlen w.aux) (!macVerifies w.aux)) then s.refuseOpen w .access []
          else s.startStream w (alg != 0) key

/-- MAC. -/
def execMac (ring : Nat) (s : State) : Host.Outcome State Fault Refusal := .next (s.onStart ring 0x5001 s.macBody)

/-- The last step of a MAC. -/
def State.macEnd (s : State) (w : Work) : State :=
  let n := macTlen w.aux
  let tag := (macOf (macAlg w.aux) w.key w.streamData).take n
  let res := leBytes 1 n
  if macVerifies w.aux then s.streamOut w (if tag == w.input.headD [] then .ok else .auth) res false
  else
    let r := s.streamWrite w (w.field 0x20 8) tag
    if r.2 then r.1.streamOut w .ok res false else r.1.streamAccess w

/-! Digests (R423-R426). -/

/-- The digest context of R424. -/
structure DigestCtx where
  state : Nat
  length : Nat
  chain : Chain
  buffer : Bytes
deriving DecidableEq, Repr

/-- A fresh digest (R425). -/
def DigestCtx.fresh (alg : Nat) : DigestCtx := { state := 1, length := 0, chain := shaInit alg, buffer := [] }

/-- Words of a chaining value, and bytes of each. -/
def chainShape (alg : Nat) : Nat × Nat := if alg < 2 then (8, 4) else if alg < 4 then (8, 8) else (25, 8)

def chainBytes (alg : Nat) (c : Chain) : Bytes := fit 200 (c.map (leBytes (chainShape alg).2)).flatten

def chainAt (alg : Nat) (b : Bytes) : Chain :=
  let (n, k) := chainShape alg
  (List.range n).map (fun i => fieldAt b (k * i) k)

/-- The 512 bytes of a context. -/
def DigestCtx.bytes (alg : Nat) (c : DigestCtx) : Bytes :=
  ascii "SKDC" ++ leBytes 1 alg ++ leBytes 1 c.state ++ leBytes 2 c.buffer.length ++ leBytes 16 c.length ++ zeros 8 ++
    (if c.state = 2 then zeros 200 else chainBytes alg c.chain) ++ zeros 24 ++ fit 136 c.buffer ++ zeros 120

/-- The context that 512 bytes hold; none when they are not valid for ALG (R424). -/
def digestCtx (alg : Nat) (b : Bytes) : Option DigestCtx :=
  if allZero b then some (DigestCtx.fresh alg)
  else
    let st := fieldAt b 5 1
    let fill := fieldAt b 6 2
    let len := fieldAt b 8 16
    let (n, k) := chainShape alg
    let ok := b.take 4 == ascii "SKDC" && fieldAt b 4 1 == alg && (st == 1 || st == 2) && decide (fill < shaBlock alg) &&
      (st == 2 || len % shaBlock alg == fill) && (st == 1 || (fill == 0 && allZero (bytesAt b 0x20 200))) &&
      allZero (bytesAt b 0x18 8) && allZero (bytesAt b 0xE8 24) && allZero (bytesAt b 0x188 120) &&
      allZero (bytesAt b (0x20 + n * k) (200 - n * k)) && allZero (bytesAt b (0x100 + fill) (136 - fill))
    if !ok then none
    else if st = 2 then some (DigestCtx.fresh alg)
    else some { state := 1, length := len, chain := chainAt alg (bytesAt b 0x20 200), buffer := bytesAt b 0x100 fill }

/-- Data absorbed. -/
def DigestCtx.absorb (alg : Nat) (c : DigestCtx) (d : Bytes) : DigestCtx :=
  let all := c.buffer ++ d
  let n := all.length / shaBlock alg * shaBlock alg
  { state := 1, length := (c.length + d.length) % 2 ^ 128,
    chain := shaAbsorbAll alg c.chain (pieces (shaBlock alg) (all.take n)), buffer := all.drop n }

/-- The digest of what has been absorbed. -/
def DigestCtx.out (alg : Nat) (c : DigestCtx) : Bytes := shaFinish alg c.chain c.buffer c.length

/-- Where OUT stands in a digest descriptor: its address and length; none for DIGEST_UPDATE. -/
def Work.digestOut (w : Work) : Option (Nat × Nat) :=
  match w.opcode with
  | 0x5010 => some (w.field 0x20 8, w.field 0x28 4)
  | 0x5012 => some (w.field 0x28 8, w.field 0x30 4)
  | _ => none

/-- The form of a digest descriptor (R423, R424). -/
def Work.digestForm (w : Work) : Bool :=
  let alg := bits w.aux 2 0
  decide (w.aux < 7) && w.zeroFrom 0x1C 0x20 && !beyond64 (w.field 0x10 8) w.srcLen &&
    (match w.digestOut with
     | some (a, n) => decide (shaSize alg ≤ n) && !beyond64 a n
     | none => true) &&
    (match w.opcode with
     | 0x5010 => w.zeroFrom 0x2C 0x40
     | 0x5011 => w.zeroFrom 0x28 0x40 && w.field 0x20 8 % 64 == 0 && !beyond64 (w.field 0x20 8) 512
     | _ => w.zeroFrom 0x34 0x40 && w.field 0x20 8 % 64 == 0 && !beyond64 (w.field 0x20 8) 512)

/-- An earlier operation of the ring on the same context has not written it (R426). -/
def State.contextBusy (s : State) (w : Work) : Bool :=
  w.opcode != 0x5010 && s.work.any (fun v =>
    v.ring == w.ring && decide (v.id < w.id) && (v.opcode == 0x5011 || v.opcode == 0x5012) && !v.isDone &&
      v.field 0x20 8 == w.field 0x20 8)

/-- A digest opcode begins. -/
def State.digestBody (s : State) (w : Work) : State :=
  if !w.digestForm then s.refuseOpen w .malformed []
  else if s.contextBusy w then s
  else
    let ok := s.bufOk w.slice (w.field 0x10 8) w.srcLen false &&
      (match w.digestOut with | some (a, n) => s.rangeOk w.slice a n true | none => true) &&
      (w.opcode == 0x5010 || (s.rangeOk w.slice (w.field 0x20 8) 512 false && s.rangeOk w.slice (w.field 0x20 8) 512 true))
    if !ok then s.refuseOpen w .access [] else s.startStream w true []

/-- DIGEST. -/
def execDigest (ring : Nat) (s : State) : Host.Outcome State Fault Refusal := .next (s.onStart ring 0x5010 s.digestBody)
/-- DIGEST_UPDATE. -/
def execDigestUpdate (ring : Nat) (s : State) : Host.Outcome State Fault Refusal :=
  .next (s.onStart ring 0x5011 s.digestBody)
/-- DIGEST_FINISH. -/
def execDigestFinish (ring : Nat) (s : State) : Host.Outcome State Fault Refusal :=
  .next (s.onStart ring 0x5012 s.digestBody)

/-- The last step of a digest opcode: the digest, then the context, then the completion (R424, R425). -/
def State.digestEnd (s : State) (w : Work) : State :=
  let alg := w.digestAlg
  match (if w.opcode == 0x5010 then some (DigestCtx.fresh alg) else digestCtx alg (w.input.headD [])) with
  | none => s.streamOut w .malformed [] true
  | some c0 =>
    let c := c0.absorb alg w.streamData
    let r := match w.digestOut with
      | some (a, _) => s.streamWrite w a (c.out alg)
      | none => (s, true)
    let ctx := if w.opcode == 0x5011 then c.bytes alg else { c with state := 2, buffer := [] }.bytes alg
    let q := if !r.2 || w.opcode == 0x5010 then r
      else r.1.streamWrite w (w.field 0x20 8) ctx
    let res := leBytes 4 (shaSize alg) ++ (if w.opcode == 0x5012 then leBytes 8 c.length else [])
    if q.2 then q.1.streamOut w .ok res false else q.1.streamAccess w

/-! Steps. -/

/-- The last step of a stream. -/
def State.streamEnd (s : State) (w : Work) : State :=
  match w.opcode with
  | 0x5000 => s.cipherEnd w
  | 0x5001 => s.macEnd w
  | _ => s.digestEnd w

/-- One step of a stream whose data has come: what it gives is written, and it goes on or ends. -/
def State.streamStep (s : State) (x : Stream) (w : Work) : State :=
  let p := if w.isApplet then min x.total (x.pos + w.stepBytes x.onDigest) else w.streamData.length
  let r := if w.opcode == 0x5000 then s.cipherWrite w (x.pos - w.aadLen) (p - w.aadLen) else (s, true)
  if !r.2 then r.1.streamAccess w
  else
    let s := r.1.modStream x.work (fun y => { y with pos := p })
    if x.total ≤ p then s.streamEnd w else s.streamNext w { x with pos := p }

/-- The stream of a unit whose step is ready, in the rotation of slices. -/
def State.readyStream (s : State) (digest : Bool) (unit : Nat) : Option (Stream × Work) :=
  s.streamTurn (streamUnit digest unit) (fun x w =>
    x.onDigest == digest && x.unit == some unit && w.activeAt 1 && s.streamOpen w)

/-- A grain of one unit. -/
def State.unitGrain (s : State) (digest : Bool) (unit : Nat) : State :=
  if !s.mayStep (streamUnit digest unit) 2 then s
  else
    match s.readyStream digest unit with
    | none => s
    | some (x, w) => (s.servedSlice (streamUnit digest unit) w.slice).streamStep x w

/-- A grain of the bulk AES lanes and the digest engines. -/
def State.streamGrain (s : State) : State :=
  let s := (List.range aesLanes).foldl (fun s u => s.unitGrain false u) s
  (List.range digestEngines).foldl (fun s u => s.unitGrain true u) s |>.bindStreams

/-- Host data of a stream: a tag, a context, or the data of its next step. -/
def State.streamRead (s : State) (w : Work) (data : Bytes) : State :=
  match s.streamOf w.id with
  | none => s
  | some x =>
    if w.readingAt 2 then
      let bad := (w.opcode == 0x5011 || w.opcode == 0x5012) && (digestCtx w.digestAlg data).isNone
      if bad then (s.plogWork w 0x01 0 .malformed 0).streamOut w .malformed [] true
      else (s.modWork w.id (fun v => { v with input := [data] })).streamNext { w with input := [data] } x
    else s.modWork w.id (fun v => { v with input := w.input ++ [data], phase := .active 1 })

end Sys2Proof.Machine
end

