-- ==== Sys2Proof/Machine/NibbleCode.lean ====
section
/-! DEFINITION. The nibble code that protects every 128-bit word (R22, R95-R98). -/

namespace Sys2Proof.Machine
open Sys2Proof

/-- An element of GF(16) (R95). -/
abbrev Gf := BitVec 4

/-- Multiplication by α = 0x2, modulo x^4 + x + 1. -/
def gfDouble (a : Gf) : Gf := if a.msb then (a <<< 1) ^^^ 0x3 else a <<< 1

/-- Multiplication in GF(16). -/
def gfMul (a b : Gf) : Gf :=
  (if b.getLsbD 0 then a else 0) ^^^ (if b.getLsbD 1 then gfDouble a else 0) ^^^
    (if b.getLsbD 2 then gfDouble (gfDouble a) else 0) ^^^
    (if b.getLsbD 3 then gfDouble (gfDouble (gfDouble a)) else 0)

/-- The inverse of a non-zero element: its 14th power. -/
def gfInv (a : Gf) : Gf :=
  let a2 := gfMul a a
  let a4 := gfMul a2 a2
  let a8 := gfMul a4 a4
  gfMul a2 (gfMul a4 a8)

/-- The constant β of R95. -/
def gfBeta : Gf := 0x8

/-- The quadratic form of R95. -/
def quadric (a b : Gf) : Gf := gfMul a a ^^^ gfMul a b ^^^ gfMul gfBeta (gfMul b b)

/-- The coordinates of data nibble `n` (R96). -/
def coordA (n : Nat) : Gf := BitVec.ofNat 4 n
def coordB (n : Nat) : Gf := if n < 16 then 0x2 else 0x4

/-- The column of symbol `n`: data nibbles 0 to 31, then the check nibbles (R96). -/
def column (n : Nat) : List Gf :=
  match n with
  | 32 => [1, 0, 0, 0]
  | 33 => [1, 1, 0, 1]
  | 34 => [1, 0, 1, gfBeta]
  | 35 => [0, 0, 0, 1]
  | _ => [1, coordA n, coordB n, quadric (coordA n) (coordB n)]

/-- Exclusive or of four components. -/
def addCols (s t : List Gf) : List Gf := List.zipWith (· ^^^ ·) s t

/-- A column times a symbol. -/
def scaleCol (e : Gf) (c : List Gf) : List Gf := c.map (gfMul e)

/-- The sums of R97 over symbols numbered from `n`. -/
def sums : Nat → List Gf → List Gf
  | _, [] => [0, 0, 0, 0]
  | n, d :: t => addCols (scaleCol d (column n)) (sums (n + 1) t)

/-- The data nibbles of a word, nibble 0 first (R72). -/
def nibbles (w : Image) : List Gf := (List.range 32).map (fun n => BitVec.ofNat 4 (nib w n))

/-- The check nibbles c0 to c3 of 32 data nibbles (R97). -/
def checkNibbles (d : List Gf) : List Gf :=
  match sums 0 d with
  | [s0, s1, s2, s3] => [s0 ^^^ s1 ^^^ s2, s1, s2, s3 ^^^ s1 ^^^ gfMul gfBeta s2]
  | _ => []

/-- A codeword: 32 data nibbles and 4 check nibbles. -/
def codeword (d : List Gf) : List Gf := d ++ checkNibbles d

/-- The 16 check bits c3 c2 c1 c0 of a word (R96). -/
def checkBits (w : Image) : BitVec 16 :=
  match checkNibbles (nibbles w) with
  | [c0, c1, c2, c3] => c3 ++ c2 ++ c1 ++ c0
  | _ => 0

/-- What the decoder of R98 finds. -/
inductive Decoded where
  | clean
  | corrected (symbol : Nat) (by_ : Gf)
  | uncorrectable
deriving DecidableEq, Repr

/-- The decision of R98 on a syndrome. -/
def locate (s : List Gf) : Decoded :=
  match s with
  | [s0, s1, s2, s3] =>
    if s0 = 0 ∧ s1 = 0 ∧ s2 = 0 ∧ s3 = 0 then .clean
    else if s0 = 0 then (if s1 = 0 ∧ s2 = 0 then .corrected 35 s3 else .uncorrectable)
    else
      let a := gfMul s1 (gfInv s0)
      let b := gfMul s2 (gfInv s0)
      let z := gfMul s3 (gfInv s0)
      if z ≠ quadric a b then .uncorrectable
      else if a = 0 ∧ b = 0 then .corrected 32 s0
      else if a = 1 ∧ b = 0 then .corrected 33 s0
      else if a = 0 ∧ b = 1 then .corrected 34 s0
      else if b = 0x2 then .corrected a.toNat s0
      else if b = 0x4 then .corrected (16 + a.toNat) s0
      else .uncorrectable
  | _ => .uncorrectable

/-- The decoder of R98: the 36 symbols put right, none when the word is uncorrectable. -/
def decodeWord (c : List Gf) : Option (List Gf) :=
  match locate (sums 0 c) with
  | .clean => some c
  | .corrected n e => some (c.set n (c.getD n 0 ^^^ e))
  | .uncorrectable => none

end Sys2Proof.Machine
end

