-- ==== Sys2Proof/Machine/Faults.lean ====
section
/-! DEFINITION. Corrected and uncorrectable words (R23, R24) and what each place makes of an uncorrectable one (R222 to
R232, R333, R467, R474, R483). -/

namespace Sys2Proof.Machine
open Sys2Proof

/-- The state after a redo that is counted. -/
def Squashed.counted (q : Squashed) : State := q.noted.st

/-- The work of a ring with a host tag. -/
def State.tagged (s : State) (ring tag : Nat) : Option Work := s.work.find? (fun w => w.ring == ring && w.tag == tag)

/-- The brine entry of a ring and a host tag; a ring above the submission rings names a core, whose one posting in the
window it is (log entry 8). -/
def State.entryNamed (s : State) (ring tag : Nat) : Option Entry :=
  if 65536 ≤ ring then s.brine.entries.find? (fun e => e.applet && appletRing e.src == ring)
  else (s.tagged ring tag).bind (fun w => s.entryAt (w.id, false))

/-! The nibble code at work (R22, R76 step 1, R97, R98). Every word of State stands for its codeword; an upset adds to
some of its symbols, and the reader decodes what it receives. -/

/-- What an upset adds to a symbol. -/
def upsetAt (u : List (Nat × Nat)) (n : Nat) : Gf :=
  (u.filter (fun e => e.1 == n)).foldl (fun a e => a ^^^ BitVec.ofNat 4 e.2) 0

/-- The 36 symbols that the reader of a word receives. -/
def received (w : Image) (u : List (Nat × Nat)) : List Gf :=
  List.zipWith (· ^^^ ·) (codeword (nibbles w)) ((List.range 36).map (upsetAt u))

/-- The word of 32 data nibbles. -/
def imageOf (d : List Gf) : Image := BitVec.ofNat 128 ((d.take 32).foldl (fun a x => 16 * a + x.toNat) 0)

/-- The decision of R98 on what the reader receives. -/
def examined (w : Image) (u : List (Nat × Nat)) : Decoded := locate (sums 0 (received w u))

/-- The word the reader goes on with: none when it is uncorrectable; three symbols or more may give a wrong one (R98). -/
def reread (w : Image) (u : List (Nat × Nat)) : Option Image := (decodeWord (received w u)).map imageOf

/-- The unit code of R584 of a place. -/
def placeUnit (p : CodePlace) : Nat :=
  match p with
  | .pan _ _ _ => 2
  | .leg _ _ _ => 1
  | .local_ _ _ => 8
  | .session _ _ => 3
  | .slot _ _ _ => 3
  | .mask _ _ _ => 3
  | .store _ _ => 10
  | .buffer _ _ => 10
  | .dreg _ _ => 8
  | .other unit => unit

/-- The four words of a tally record. -/
def Tally.word (t : Tally) (k : Nat) : Image := imageAt t.bytes (16 * k)

/-- One of them replaced. -/
def Tally.withWord (t : Tally) (k : Nat) (w : Image) : Tally := tallyAt (putBytes t.bytes (16 * k) (imageBytes w)) 0

/-- The entry that a place in the window names: entries of a core by its ring number (log entry 8). -/
def State.legAt (s : State) (ring tag leg : Nat) : Option (Entry × Leg) :=
  match s.entryNamed ring tag with
  | none => none
  | some e => (e.legs[leg]?).map (fun l => (e, l))

/-- A 16-byte word of a stretch of bytes, none past its end. -/
def wordIn (b : Bytes) (k : Nat) : Option Image := if 16 * k < b.length then some (imageAt b (16 * k)) else none

/-- The stretch with one word replaced; it keeps its length. -/
def withWordIn (b : Bytes) (k : Nat) (v : Image) : Bytes := (putBytes b (16 * k) (imageBytes v)).take b.length

/-- The key bytes of a session context and its word `w`, two words to each. -/
def Session.bank (x : Session) (w : Nat) : Bytes :=
  match w / 2 with | 0 => x.masked | 1 => x.mask | 2 => x.rcptMasked | _ => x.rcptMask

def Session.withBank (x : Session) (w : Nat) (b : Bytes) : Session :=
  match w / 2 with
  | 0 => { x with masked := b } | 1 => { x with mask := b } | 2 => { x with rcptMasked := b } | _ => { x with rcptMask := b }

/-- The record of a page of a USER partition, numbered partition × 4,096 + page. -/
def pageKey (page : Nat) : Nat := userKey (page / 4096) (page % 4096)

/-- The word that stands at a place. -/
def State.codedWord (s : State) (p : CodePlace) : Option Image :=
  match p with
  | .pan book index word => (s.record book index).map (fun t => t.word word)
  | .leg ring tag leg => (s.legAt ring tag leg).map (fun x => x.2.amount)
  | .local_ core addr => some (imageAt ((s.coreAt core).bytes (addr / 16 * 16) 16) 0)
  | .session h w => wordIn ((s.sessionAt h).bank w) (w % 2)
  | .slot t i w => wordIn (s.slotAt t i).masked w
  | .mask t i w => wordIn (s.slotAt t i).mask w
  | .store p c => wordIn (s.nv.page p).data c
  | .buffer p c => (s.nv.entryOf (pageKey p)).bind (fun e => wordIn e.data c)
  | .dreg core n => (s.coreAt core).d[n]?
  | .other unit => if unit < 13 then some 0 else none

/-- A record of the Pan with one word replaced, clean or dirty as it was. -/
def State.putRecordWord (s : State) (book index word : Nat) (v : Image) : State :=
  { s with pan := { s.pan with blocks := s.pan.blocks.map (fun (b : PanBlock) =>
      if b.book == book && b.index == index / 4 then
        { b with recs := b.recs.modify (index % 4) (fun t => t.withWord word v) }
      else b) } }

/-- Sixteen bytes of the local memory of a core. -/
def Core.storeWord (c : Core) (addr : Nat) (v : Image) : Core :=
  let a := addr / 16 * 16
  match areaOf a with
  | some .code => { c with code := memWrite c.code a (imageBytes v) }
  | some .data => { c with data := memWrite c.data (a - 0x10000) (imageBytes v) }
  | some .mail => { c with mail := memWrite c.mail (a - 0x20000) (imageBytes v) }
  | _ => c

/-- One codeword of the entries of the write buffer for a page. -/
def State.putBuffered (s : State) (key cw : Nat) (v : Image) : State :=
  { s with nv := { s.nv with wbuf := s.nv.wbuf.map (fun e => if e.key == key then { e with data := withWordIn e.data cw v } else e) } }

/-- A word is written back as its reader decoded it. -/
def State.putCoded (s : State) (p : CodePlace) (v : Image) : State :=
  match p with
  | .pan book index word => s.putRecordWord book index word v
  | .leg ring tag leg =>
    match s.legAt ring tag leg with
    | none => s
    | some x => s.modEntry x.1.key (fun e => { e with legs := e.legs.modify leg (fun l => { l with amount := v }) })
  | .local_ core addr => s.modCore core (fun c => c.storeWord addr v)
  | .session h w => s.modSession h (fun x => x.withBank w (withWordIn (x.bank w) (w % 2) v))
  | .slot t i w => s.modSlot t i (fun k => { k with masked := withWordIn k.masked w v })
  | .mask t i w => s.modSlot t i (fun k => { k with mask := withWordIn k.mask w v })
  | .store p c => { s with nv := s.nv.setPage p { s.nv.page p with data := withWordIn (s.nv.page p).data c v } }
  | .buffer p c => s.putBuffered (pageKey p) c v
  | .dreg core n => s.modCore core (fun c => { c with d := c.d.set n v })
  | .other _ => s

/-- A corrected word is counted for its unit (R23); in the non-volatile store NV_CORRECTED counts it too. The decoder
decides (R98): an upset of one symbol gives the word back, one of three or more may give a wrong word, which is then
written back, and where the word is found uncorrectable or without an error nothing is corrected. -/
def State.correctWord (s : State) (p : CodePlace) (u : List (Nat × Nat)) : State :=
  match s.codedWord p with
  | none => s
  | some w =>
    match examined w u, reread w u with
    | .corrected _ _, some v =>
      let s := s.corrected (placeUnit p) 1
      let s := if placeUnit p = 10 then { s with nv := { s.nv with corrected := s.nv.corrected + 1 } } else s
      if v = w then s else s.putCoded p v
    | _, _ => s

/-- CORRECTED_WORD_WRITEBACK. -/
def execCorrectedWordWriteback (place : CodePlace) (upset : List (Nat × Nat)) (s : State) : Host.Outcome State Fault Refusal :=
  .next (s.correctWord place upset)

/-- A TALLY_ADJUST in its lane, or one that waits for it, is redone once, then ends (R223, R238). -/
def State.redoAdjust (s : State) (w : Work) : Squashed :=
  if w.redone then
    { st := (s.redoFailed true).finishFault w.id .fault (faultResult 0 1), redone := false, ended := true, slice := w.slice }
  else
    { st := s.modWork w.id (fun v => { v.late 5 with redone := true, extra := v.extra + 2 }), redone := true, ended := false,
      slice := w.slice }

/-- The cores that run the invocation of a piece of work. -/
def State.coresOf (s : State) (id : Nat) : List Nat :=
  (s.applets.cores.filter (fun c => match c.2.inv with | some v => v.work == id | none => false)).map Prod.fst

/-- Big-number jobs that end with FAULT are counted (R437). -/
def State.bnFaulted (s : State) (p : BnJob → Bool) : State :=
  { s with crypto := { s.crypto with bnFaults := s.crypto.bnFaults + BitVec.ofNat 32 ((s.bnJobsAll.filter p).length) } }

/-- Work other than a posting ends with FAULT, and its units let it go (R24). -/
def State.faultWork (s : State) (w : Work) : State :=
  if w.opcode = 0x3020 then s.endReplay w .fault 0
  else
    let s := (s.coresOf w.id).foldl (fun s c => s.clearCore c) s
    let s := s.dropCollect w.id
    (((s.endWriteBack w).bnFaulted (fun j => j.ofWork w.id)).releaseUnits w.id).finishFault w.id .fault []

/-- A beat or register that carries a piece of work outside the window (R24, R222). A posting that is still held knows no
redo (R238). -/
def State.badBeat (s : State) (w : Work) : State :=
  if w.isDone || (w.isPosting && w.waiting) then s
  else if w.opcode = 0x1011 && (w.activeAt 0 || w.activeAt 1) then (s.redoAdjust w).counted
  else s.faultWork w

/-- The core that a ring number names waits for a service (log entry 8). -/
def State.inCall (s : State) (ring : Nat) : Bool :=
  decide (65536 ≤ ring) && decide (ring < 65536 + 32) &&
    (let c := s.coreAt (ring - 65536); c.mode == .waiting && c.started && c.answer.isNone)

/-- The slice of its invocation. -/
def State.callSlice (s : State) (ring : Nat) : Nat :=
  if s.inCall ring then (((s.coreAt (ring - 65536)).inv.map Invocation.slice)).getD 0xFFFF else 0xFFFF

/-- A beat of its service call: the unit lets the call go, and it ends with FAULT (R24, R368). -/
def State.badCall (s : State) (ring : Nat) : State :=
  if s.inCall ring then
    let core := ring - 65536
    let mine (j : BnJob) : Bool := j.use == 1 && j.who == core
    let s := ((s.bnFaulted mine).dropBn mine).dropRandom (.service core)
    s.answerCore core (svcStatus .fault false false false) []
  else s

/-- The oldest entry of a book, when it stands at its commit (R225). -/
def State.badCommit (s : State) (book : Nat) : State :=
  match s.brine.entries.find? (fun e => e.book == book) with
  | none => s
  | some e => if e.stage == .commit then (s.redoEntry e.key .fault).counted else s

/-- Both copies of a staged record or of an assembled completion have the same bad word: level 3 (R226). -/
def State.bothCopies (s : State) (code slice : Nat) : State :=
  s.severe 3 { source := 0x14, cause := 0x06, unit := placeOfUnit code, loc := code, slice := slice, detail := 0,
               num := code }

/-- A word of the work's output cannot leave (R24, R176): no TLP is emitted for it, and a commit stands (R228). -/
def State.badOutput (s : State) (w : Work) : State :=
  if w.isDone then
    let res := match w.commit with
      | some (_, lseq) => faultResult lseq 2
      | none => []
    (s.modWork w.id (fun v => { v with receipt := none, mailbox := none })).finish w.id .fault res
  else if s.inWindow w.id || w.waiting then s
  else s.faultWork w

/-- The result of a FAULT that a lost session context gives (R228). -/
def Work.lostSession (w : Work) : Bytes := if w.isPosting || w.opcode == 0x1011 then faultResult 0 4 else []

/-- A session context is lost (R24, R222): it is closed, and the descriptors that name it and are not yet admitted
end. -/
def State.loseSession (s : State) (h : Nat) : State :=
  let slice := (s.sessionAt h).slice
  let names (w : Work) : Bool :=
    w.slice == slice && w.session == h && (match opInfo w.opcode with | some i => i.session | none => false)
  let hits := s.work.filter (fun w => w.waiting && names w && w.key.isEmpty)
  let s := s.setSession h Session.reset
  let s := hits.foldl (fun s w => (s.finishRaw w.id .fault w.lostSession).markFault w.id) s
  (hits.filter (fun w => !w.isApplet)).foldl (fun s w => s.fenceRing w.ring 2 w.tag) s

/-- The slot of TARGET and INDEX is the key of a piece of work: its key handle (R393), or the parent of a session. -/
def Work.usesSlot (w : Work) (target index : Nat) : Bool :=
  (match w.opcode with
   | 0x5000 =>
     keySrcOf (w.field 0x1C 4) w.session none == some (.slot target index) ||
       (cipherMode w.aux == 3 && keySrcOf (w.field 0x28 4) w.session none == some (.slot target index))
   | 0x5001 | 0x6000 => keySrcOf (w.field 0x1C 4) w.session none == some (.slot target index)
   | 0x4000 => target == 0 && w.field 0x10 2 == index
   | 0x4010 =>
     let d := w.input.headD []
     target == 0 && fieldAt d 7 1 == 2 && fieldAt d 0x26 2 == index
   | _ => false)

/-- The operation that read the slot ends; the calls of applets name no slot (R369). -/
def State.endSlotUser (s : State) (target index : Nat) (st : Status) : State :=
  match s.work.find? (fun w => !w.isDone && !w.waiting && w.usesSlot target index) with
  | some w =>
    let s := if st = .fault then s.bnFaulted (fun j => j.ofWork w.id) else s
    (s.releaseUnits w.id).finishFault w.id st []
  | none => s

/-- A resident slot is lost (R24): it is loaded again from KEYS, where its MAC is checked (R385) and a VOLATILE key has no material,
and the operation that read it ends. -/
def State.loseSlot (s : State) (target index : Nat) : State :=
  let k := s.slotAt target index
  if !k.occupied then s
  else
    let gone := k.attr.getLsbD attrVolatile || !s.storedOk target index k
    let s := if gone then s.badSlot target index else s
    s.endSlotUser target index (if gone then .slotBad else .fault)

/-- A local word of a core is bad until it is overwritten; the next fetch, load or scrub of it traps (R333). -/
def State.loseLocal (s : State) (core addr : Nat) : State :=
  s.modCore core (fun c => if c.bad.contains (addr / 16) then c else { c with bad := c.bad ++ [addr / 16] })

/-- A codeword of the first page of a record is uncorrectable (R467). -/
def State.loseCodeword (s : State) (key cw : Nat) : State :=
  match s.nv.copy key with
  | [] => s
  | p :: _ => s.badCodeword p cw

/-- A codeword of the write buffer is uncorrectable: the page reads it as R473 lays down for the array (log entry 59). -/
def State.loseBuffered (s : State) (key cw : Nat) : State :=
  { s with nv := { s.nv with wbuf := s.nv.wbuf.map (fun e =>
      if e.key == key && !e.badCw.contains cw then { e with badCw := e.badCw ++ [cw] } else e) } }

/-- An uncorrectable word of the non-volatile store is counted there too (R496). -/
def State.nvUncorr (s : State) (detail : Nat) : State :=
  let s := s.uncorrectable 13 10 0xFFFF detail
  { s with nv := { s.nv with uncorr := s.nv.uncorr + 1 } }

/-- An uncorrectable word is logged, counted as a level-1 event, and acted on by its place (R24). Inside SPENT only what
still exists can fail. -/
def State.uncorrectableWord (s : State) (b : BadWord) : State :=
  match b with
  | .beat ring tag =>
    match s.entryNamed ring tag, s.tagged ring tag with
    | some e, _ => ((s.uncorrectable 8 9 e.slice 0).redoEntry e.key .fault).counted
    | none, none => (s.uncorrectable 8 9 (s.callSlice ring) 0).badCall ring
    | none, some w => (s.uncorrectable 8 9 w.slice 0).badBeat w
  | .brine ring tag =>
    match s.entryNamed ring tag with
    | none => s
    | some e => ((s.uncorrectable 1 1 e.slice 0).redoEntry e.key .fault).counted
  | .verify ring tag =>
    match s.entryNamed ring tag with
    | none => s
    | some e => if e.vRes.isNone then ((s.uncorrectable 1 1 e.slice 0).redoVerify e .fault).counted else s
  | .commit book => (s.uncorrectable 1 1 book 0).badCommit book
  | .panLine book block metaBad => (s.uncorrectable 11 2 book block).loseBlock book block metaBad
  | .panNode book level index => (s.uncorrectable 11 2 book (level * 2 ^ 56 + index)).loseNode book level index
  | .staged book lseq both =>
    if (s.bookAt book).staged.all (fun r => r.lseq != lseq) then s
    else if both then s.bothCopies 4 book
    else s.uncorrectable 3 4 book lseq
  | .completion ring tag both =>
    match s.tagged ring tag with
    | none => s
    | some w =>
      if !w.isDone then s
      else if both then s.bothCopies 9 w.slice
      else s.uncorrectable 8 9 w.slice ring
  | .output ring tag =>
    match s.tagged ring tag with
    | none => s
    | some w => (s.uncorrectable 20 9 w.slice 0).badOutput w
  | .session h => (s.uncorrectable 10 3 (s.sessionAt h).slice h).loseSession h
  | .slot target index => (s.uncorrectable 10 3 (s.slotAt target index).slice index).loseSlot target index
  | .local_ core addr => (s.uncorrectable 7 8 0xFFFF addr).loseLocal core addr
  | .page page cw => (s.nvUncorr page).loseCodeword (pageKey page) cw
  | .allow entry => (s.nvUncorr entry).loseCodeword (recKey partAllow entry) 0
  | .counter n cw => (s.nvUncorr n).loseCodeword (recKey partCounters (n / 4)) (4 * (n % 4) + cw)
  | .buffer page cw => (s.nvUncorr page).loseBuffered (pageKey page) cw
  | .store p cw => (s.nvUncorr p).badCodeword p cw
  | .helper =>
    let s := s.nvUncorr 0
    { s with keys := { s.keys with helper := none } }

/-- UNCORRECTABLE_ERROR: the upset decides, for any word, since the code is linear (R97, R98). -/
def execUncorrectableError (word : BadWord) (upset : List (Nat × Nat)) (s : State) : Host.Outcome State Fault Refusal :=
  .next (if examined 0 upset = .uncorrectable then s.uncorrectableWord word else s)

end Sys2Proof.Machine
end

