-- ==== Sys2Proof/Machine/HostRead.lean ====
section
/-! DEFINITION. Host reads of named buffers: their data, their error completions and their one retry (R248). -/

namespace Sys2Proof.Machine
open Sys2Proof

/-- The work waits for host data. -/
def Work.isReading (w : Work) : Bool := match w.phase with | .reading _ => true | _ => false

/-- The opcodes of R414. -/
def isStream (opcode : Nat) : Bool :=
  opcode == 0x5000 || opcode == 0x5001 || opcode == 0x5010 || opcode == 0x5011 || opcode == 0x5012

/-- Host data goes to the operation that waits for it; `w` holds it as the last part of its input. -/
def State.readData (s : State) (w : Work) (data : Bytes) : State :=
  match w.opcode with
  | 0x3012 | 0x3020 => s.modWork w.id (fun v => { v with phase := .active 1 })
  | 0x3031 => s.adoptRead w
  | 0x3040 => s.gapClearRead w
  | 0x4010 => s.envelopeRead w
  | 0x6000 => s.bnBegin w data
  | 0x7010 => s.allowAddRead w
  | 0x8011 => s.injectRead w data
  | 0x9001 => s.nvStore w
  | 0xA001 => s.stageRead w
  | 0xA002 => s.lcRead w
  | 0xA100 => s.collectRead w
  | _ => s

/-- Data of a work's read has arrived. -/
def State.readArrived (s : State) (w : Work) (data : Bytes) : State :=
  if isStream w.opcode then s.streamRead w data
  else
    let w := { w with input := w.input ++ [data] }
    (s.modWork w.id (fun v => { v with input := w.input })).readData w data

/-- The work that a read belongs to and that waits for it. -/
def State.readWork (s : State) (r : Read) : Option Work :=
  match r.kind with
  | .work id _ => (s.workAt id).filter (fun w => w.isReading)
  | _ => none

/-- The read is one of R248. -/
def Read.named (r : Read) : Bool :=
  match r.kind with
  | .work _ _ => true
  | .failed => true
  | .image _ => r.discard
  | _ => false

/-- The step that the data leads to needs host memory again, which cannot be reached now: the work waits with its data (R247,
R317). -/
def State.dataHeld (s : State) (w : Work) : Bool :=
  let mgmt := !s.canMaster masterMgmt
  let stream := !s.canMaster (s.masterStream w.id)
  match w.opcode with
  | 0x4010 => mgmt && w.readingAt 1 && w.field 0x28 4 == authLen
  | 0x8011 => stream
  | 0xA001 => mgmt && w.readingAt 1
  | 0xA100 => mgmt && w.readingAt 1 && w.field 0x30 4 != 0
  | _ => isStream w.opcode && stream && w.readingAt 2

/-- Data for a named buffer. While requests of the read wait for tags, what arrives answers those sent: the data of the whole
read comes with the last (log entry 74). -/
def State.readCompletion (s : State) (tag : Nat) (data : Bytes) : State :=
  match s.readAt tag with
  | none => s
  | some r =>
    if !r.wait.isEmpty then s.modRead tag (fun x => { x with tags := 0 })
    else if !r.named || r.failedAt.isSome || data.length != r.len then s
    else
      let s := s.dropRead tag
      if r.discard then s
      else
        match s.readWork r with
        | none => s
        | some w => if s.dataHeld w then s.modWork w.id (fun v => { v with arrived := some data }) else s.readArrived w data

/-- The work goes on with its data, when it can. -/
def State.goOn (s : State) (w : Work) : State :=
  match w.arrived with
  | none => s
  | some data =>
    if s.dataHeld w then s else (s.modWork w.id (fun v => { v with arrived := none })).readArrived { w with arrived := none } data

/-- At a boundary, every work whose data waits. -/
def State.arrivedGrain (s : State) : State := s.eachWork (fun w => w.arrived.isSome) State.goOn

/-- HOST_READ_COMPLETION: `tag` is the serial number of the read. -/
def execHostReadCompletion (tag : Nat) (data : Bytes) (s : State) : Host.Outcome State Fault Refusal :=
  .next (s.readCompletion tag data)

/-- An operation whose read failed twice ends with FAULT; what it had done stands. -/
def State.readFault (s : State) (w : Work) : State :=
  match w.opcode with
  | 0x3020 => s.endReplay w .fault 0
  | 0x9001 => s.finish w.id .fault (nvResult 0 0)
  | 0xA100 => s.refuseCollect w 0 .fault
  | _ => if isStream w.opcode then s.streamOut w .fault [] true else s.finishOpen w.id .fault []

/-- The retry of a read fails its check: the operation ends with ACCESS (R267). -/
def State.readAccess (s : State) (w : Work) : State :=
  match w.opcode with
  | 0x3020 => s.endReplay w .access 0
  | 0x9001 => s.finish w.id .access (nvResult 0 0)
  | 0xA100 => s.refuseCollect w 4 .access
  | _ => if isStream w.opcode then s.streamAccess w else s.refuseOpen w .access []

/-- Traffic of a work's read (R315). -/
def Work.readTraffic (w : Work) : Traffic :=
  if isStream w.opcode || w.opcode == 0x6000 || w.opcode == 0x9001 || (w.opcode == 0x8011 && w.readingAt 2) then .stream
  else if w.opcode == 0x7010 then .image
  else .statement

/-- A work's read ends with an error completion, or its retry is due. -/
def State.workRetry (s : State) (r : Read) : State :=
  match s.readWork r with
  | none => s.dropRead r.id
  | some w =>
    match r.failedAt with
    | none =>
      if r.retry then (s.dropRead r.id).readFault w
      else s.modRead r.id (fun x => x.fails s.now)
    | some g =>
      if decide (s.now < g + pound) || !s.canRead r.master then s
      else
        let o := s.rereadNow r w.readTraffic
        if o.2 then o.1 else o.1.readAccess w

/-- An error completion, or the time of a retry, by the kind of the read. -/
def State.readRetry (s : State) (tag : Nat) : State :=
  match s.readAt tag with
  | none => s
  | some r =>
    if r.discard then s.dropRead tag
    else
      match r.kind with
      | .work _ _ => s.workRetry r
      | .failed => s.dropRead tag
      | .image core => (s.dropRead tag).loadFail core 7 .fault
      | .rebuild book block =>
        (match s.rebuildAt book block with
         | none => s.dropRead tag
         | some x => (s.dropRead tag).rebuildFailed x)
      | _ => s

/-- HOST_READ_RETRY: an error completion of the read, or the retry that is due 1 pound later. -/
def execHostReadRetry (tag : Nat) (s : State) : Host.Outcome State Fault Refusal := .next (s.readRetry tag)

end Sys2Proof.Machine
end

