-- ==== Sys2Proof/Machine/Bch.lean ====
section
/-! DEFINITION. The BCH(255,131) code of the helper data (R375): its decoder, which corrects up to 18 bit errors. The manual names
neither the field polynomial nor the order of the bits in a word: those here are PRESUMED (log entry 16). -/

namespace Sys2Proof.Machine
open Sys2Proof

/-- Product by α in GF(2^8) modulo x^8 + x^4 + x^3 + x^2 + 1. -/
def gf8Next (a : Nat) : Nat := if 128 ≤ a then (2 * a) ^^^ 0x11D else 2 * a

/-- Product in GF(2^8). -/
def gf8Mul (a b : Nat) : Nat :=
  (List.range 8).foldl (fun acc i => gf8Next acc ^^^ (if b.testBit (7 - i) then a else 0)) 0

/-- The powers of α from `v` on, `n` of them. -/
def gf8Powers : Nat → Nat → List Nat
  | 0, _ => []
  | n + 1, v => v :: gf8Powers n (gf8Next v)

/-- α^0 to α^254. -/
def gf8Exp : List Nat := gf8Powers 255 1

/-- α^n. -/
def gf8Pow (exp : List Nat) (n : Nat) : Nat := exp.getD (n % 255) 0

/-- The inverse of a non-zero element. -/
def gf8Inv (exp : List Nat) (a : Nat) : Nat := gf8Pow exp (255 - exp.idxOf a)

/-- A polynomial at α^n, its coefficients from that of x^0 on. -/
def gf8Eval (exp : List Nat) (p : List Nat) (n : Nat) : Nat :=
  (p.zipIdx.map (fun x => gf8Mul x.1 (gf8Pow exp (n * x.2)))).foldl (· ^^^ ·) 0

/-- Errors that a word may have (R375). -/
def bchErrors : Nat := 18

/-- The syndromes of a word: its values at α^1 to α^36; bit `i` of the word is the coefficient of x^i. -/
def bchSyndromes (exp : List Nat) (w : List Bool) : List Nat :=
  (List.range (2 * bchErrors)).map (fun j =>
    ((w.zipIdx.filter Prod.fst).map (fun x => gf8Pow exp ((j + 1) * x.2))).foldl (· ^^^ ·) 0)

/-- The state of the Berlekamp-Massey algorithm: locator, the one before its last change, length, distance, discrepancy. -/
structure Massey where
  c : List Nat
  b : List Nat
  l : Nat
  m : Nat
  d : Nat

/-- Sum of two polynomials. -/
def polyAdd : List Nat → List Nat → List Nat
  | [], q => q
  | p, [] => p
  | x :: p, y :: q => (x ^^^ y) :: polyAdd p q

/-- One step of the algorithm, at syndrome `n`. -/
def Massey.step (exp syn : List Nat) (s : Massey) (n : Nat) : Massey :=
  let d := ((List.range (s.l + 1)).map (fun i => gf8Mul (s.c.getD i 0) (syn.getD (n - i) 0))).foldl (· ^^^ ·) 0
  if d = 0 then { s with m := s.m + 1 }
  else
    let f := gf8Mul d (gf8Inv exp s.d)
    let c := polyAdd s.c (List.replicate s.m 0 ++ s.b.map (gf8Mul f))
    if 2 * s.l ≤ n then { c := c, b := s.c, l := n + 1 - s.l, m := 1, d := d } else { s with c := c, m := s.m + 1 }

/-- The code word next to a word of 255 bits; none when it has more errors than the code corrects. -/
def bchDecode (w : List Bool) : Option (List Bool) :=
  let exp := gf8Exp
  let syn := bchSyndromes exp w
  let s := (List.range (2 * bchErrors)).foldl (Massey.step exp syn) { c := [1], b := [1], l := 0, m := 1, d := 1 }
  let hits := (List.range 255).filter (fun i => gf8Eval exp s.c (255 - i) == 0)
  let v := (fit_ w).zipIdx.map (fun x => x.1 != hits.contains x.2)
  if s.l ≤ bchErrors ∧ hits.length = s.l ∧ (bchSyndromes exp v).all (· == 0) then some v else none
where
  /-- A word as 255 bits. -/
  fit_ (w : List Bool) : List Bool := (List.range 255).map (fun i => w.getD i false)

end Sys2Proof.Machine
end

