-- ==== Sys2Proof/Machine/Services.lean ====
section
/-! DEFINITION. Service calls of the Alaing cores (R347-R350, R369, R370) and the end of a big-number job. -/

namespace Sys2Proof.Machine
open Sys2Proof

/-! The call and its checks 1 to 3 (R348). -/

/-- Largest service number (R349). -/
def svcReturn : Nat := 10

/-- Every ARG byte outside the named fields, each an offset and a length, is zero. -/
def Core.argClean (c : Core) (named : List (Nat × Nat)) : Bool :=
  (List.range 80).all (fun o => named.any (fun f => decide (f.1 ≤ o) && decide (o < f.1 + f.2)) || tget 0 c.arg o == 0)

/-- A local buffer lies within the data region or within the mailbox, at a multiple of `align`. -/
def localOk (a n align : Nat) : Bool :=
  n == 0 || (a % align == 0 && ((decide (0x10000 ≤ a) && decide (a + n ≤ 0x18000)) || (decide (0x20000 ≤ a) && decide (a + n ≤ 0x21000))))

/-- The call is answered at once. -/
def State.answerSvc (s : State) (core : Nat) (st : Status) (res : Bytes) : State :=
  s.answerCore core (svcStatus st false false false) res

/-- A call refused at checks 1 to 3 is logged with its core and service number. -/
def State.refuseSvc (s : State) (core check : Nat) (st : Status) : State :=
  let c := s.coreAt core
  let w := c.inv.bind (fun v => s.workAt v.work)
  let e : PEvent :=
    { unit := 7, event := 0x0A, check := check, status := statusCode st, grain := s.now,
      slice := (w.map Work.slice).getD 0xFFFF, ring := (w.map Work.ring).getD 0xFFFF, tag := (w.map Work.tag).getD 0,
      opcode := (w.map Work.opcode).getD 0xFFFF, slot := core, detail := c.call.toNat }
  (s.plog e).answerSvc core st []

/-- Service `n` takes up the call of a core: form (check 2), SVC_MASK (R369), local buffers (check 3), the operation. A
call of an unassigned number ends at check 1. Behind the boundary at which the budget is reached no call is taken up
(R365). -/
def State.onCall (s : State) (core n : Nat) (form buffers : Core → Invocation → Bool) (op : Core → Invocation → State) : State :=
  let c := s.coreAt core
  match c.inv with
  | none => s
  | some v =>
    if !c.calls || c.spentBudget then s
    else if c.call.toNat = 0 || decide (svcReturn < c.call.toNat) then s.refuseSvc core 1 .malformed
    else if c.call.toNat ≠ n then s
    else if !form c v then s.refuseSvc core 2 .malformed
    else if n != svcReturn && !bit v.svcMask n then s.answerSvc core .policy []
    else if !buffers c v then s.refuseSvc core 3 .access
    else op c v

/-- The core's call is under way. -/
def State.svcStarted (s : State) (core : Nat) : State := s.modCore core (fun c => { c with started := true })

/-- Local output of a service, written when the call ends. -/
def State.svcOutput (s : State) (core a : Nat) (b : Bytes) : State := s.modCore core (fun c => { c with output := [(a, b)] })

/-- The work that a service call forms (log entry 8). -/
def State.svcWork (s : State) (core : Nat) (v : Invocation) (desc : Bytes) (opcode aux tag len nslots : Nat) (d : Bool)
    (key : Bytes) (input : List Bytes) : Work :=
  { id := s.nextId, ring := appletRing core, slot := 0, nslots := nslots, slice := v.slice, gen := v.gen,
    opcode := opcode, tag := tag, flagD := d, flagF := false, flagI := false, flagL := true, session := v.session,
    aux := aux, len := len, desc := desc, phase := .held, heldAt := s.now, cover := none, first := false,
    admitted := none, lateConds := [], lane := 0, extra := 0, redone := false, key := key, failed := none,
    input := input, arrived := none, pos := 0, fullSince := none, reserved := 0, ending := none, fenceDone := false, commit := none, receipt := none, mailbox := none, cpl := none }

/-- That work is submitted. -/
def State.svcSubmit (s : State) (core : Nat) (w : Work) : State :=
  ({ s with work := s.work ++ [w], nextId := s.nextId + 1 }).svcStarted core

/-- The key of a service call may serve an operation of a class. -/
def State.keyServes (s : State) (k : KeySrc) (op cls : Nat) (types : List Nat) (slice : Nat) : Bool :=
  let x := s.keyView k slice
  types.contains x.type && attrAllows x.attr op cls x.slice slice

/-! TALLY_READ and POST. -/

/-- SVC_TALLY_READ: a prime operation with L set. -/
def execSvcTallyRead (core : Nat) (s : State) : Host.Outcome State Fault Refusal :=
  .next (s.onCall core 1 (fun c _ => c.argClean [(0, 8), (8, 1)] && decide (c.argAt 8 1 < 4)) (fun _ _ => true)
    (fun c v =>
      let desc := zeros 16 ++ memRead c.arg 0 8 ++ zeros 40
      s.svcSubmit core (s.svcWork core v desc 0x1010 (c.argAt 8 1) 0 16 1 false [] [])))

/-- The descriptor of a POST call (R349). -/
def postDesc (c : Core) (v : Invocation) : Bytes :=
  let aux := c.argAt 4 2
  let slots := if bits aux 3 0 ≤ 3 then 2 else 4
  let payload := if slots = 2 then 96 else 224
  leBytes 2 0x2000 ++ leBytes 1 slots ++ leBytes 1 (1 + 16 * (c.argAt 6 1 % 2)) ++ leBytes 2 v.gen ++ leBytes 2 v.session ++
    leBytes 4 (c.argAt 0x0C 4) ++ leBytes 2 aux ++ leBytes 2 payload ++ c.bytes (c.argAt 0 4) payload ++ zeros 16

/-- Bytes of the payload of a POST call. -/
def postPayload (c : Core) : Nat := if bits (c.argAt 4 2) 3 0 ≤ 3 then 96 else 224

/-- The work of a POST call. -/
def State.svcPostWork (s : State) (core : Nat) (c : Core) (v : Invocation) : Work :=
  let desc := postDesc c v
  { s.svcWork core v desc 0x2000 (c.argAt 4 2) (c.argAt 0x0C 4) (postPayload c) (desc.length / 64) (bit (c.argAt 6 1) 0) []
      [leBytes 4 (c.argAt 8 4)] with flagL := false }

/-- SVC_POST: the work is presented as a posting of the slice (R177). -/
def State.svcPost (s : State) (core : Nat) (c : Core) (v : Invocation) : State :=
  let w := s.svcPostWork core c v
  (s.svcSubmit core { w with phase := .routed }).presentPosting w

/-- SVC_POST. -/
def execSvcPost (core : Nat) (s : State) : Host.Outcome State Fault Refusal :=
  .next (s.onCall core 2
    (fun c _ =>
      let legs := bits (c.argAt 4 2) 3 0
      c.argClean [(0, 7), (8, 8)] && decide (c.argAt 4 2 < 64) && decide (1 ≤ legs) && decide (legs ≤ 8) &&
        decide (c.argAt 6 1 < 2))
    (fun c _ =>
      localOk (c.argAt 0 4) (postPayload c) 16 && (!bit (c.argAt 4 2) 4 || localOk (c.argAt 8 4) 128 16))
    (fun c v => s.svcPost core c v))

/-! DIGEST, MAC, DERIVE. -/

/-- A call enters the pool of the digest engines or of the AES lanes as a stream over local data: the descriptor has the form
of DIGEST or MAC with local addresses (R32, R45). -/
def State.svcStream (s : State) (core : Nat) (w : Work) (digest : Bool) : State :=
  let x : Stream := { work := w.id, onDigest := digest, unit := none, pos := 0, total := w.srcLen }
  let s := s.svcSubmit core { w with phase := .active 0, admitted := some s.now }
  { s with crypto := { s.crypto with streams := s.crypto.streams ++ [x] } }

/-- The stream of a DIGEST call. -/
def State.svcDigestWork (s : State) (core : Nat) (c : Core) (v : Invocation) : Work :=
  let n := c.argAt 8 4
  let desc := zeros 24 ++ leBytes 4 n ++ zeros 4 ++ leBytes 8 (c.argAt 0x0C 4) ++ leBytes 4 (shaSize (c.argAt 0 1)) ++ zeros 20
  s.svcWork core v desc 0x5010 (c.argAt 0 1) 0 0x30 1 false [] [[], c.bytes (c.argAt 4 4) n]

/-- SVC_DIGEST: one complete digest, by a pooled digest engine. -/
def execSvcDigest (core : Nat) (s : State) : Host.Outcome State Fault Refusal :=
  .next (s.onCall core 3 (fun c _ => c.argClean [(0, 1), (4, 12)] && decide (c.argAt 0 1 < 7))
    (fun c _ => localOk (c.argAt 4 4) (c.argAt 8 4) 1 && localOk (c.argAt 0x0C 4) (shaSize (c.argAt 0 1)) 1)
    (fun c v => s.svcStream core (s.svcDigestWork core c v) true))

/-- A MAC call with ALG 0 and up to 64 bytes runs as a prime operation. -/
def svcMacPrime (c : Core) : Bool := c.argAt 1 1 == 0 && decide (c.argAt 0x0C 4 ≤ 64)

/-- The prime work of a MAC call: the first bytes of its descriptor hold the key handle, whose key is taken at its admission
(R63). -/
def State.svcMacWork (s : State) (core : Nat) (c : Core) (v : Invocation) (msg : Bytes) : Work :=
  let tlen := c.argAt 2 1
  let head := leBytes 4 (c.argAt 4 4) ++ zeros 12
  if c.argAt 0 1 = 0 then s.svcWork core v (head ++ msg) 0x1020 tlen 0 msg.length 2 false [] []
  else s.svcWork core v (head ++ fit 16 (c.bytes (c.argAt 0x10 4) tlen) ++ msg) 0x1021 tlen 0 (16 + msg.length) 2 false [] []

/-- The stream of a larger MAC call. -/
def State.svcMacStream (s : State) (core : Nat) (c : Core) (v : Invocation) (key msg : Bytes) : Work :=
  let tlen := c.argAt 2 1
  let verify := c.argAt 0 1 != 0
  let desc := zeros 24 ++ leBytes 4 msg.length ++ leBytes 4 (c.argAt 4 4) ++ leBytes 8 (c.argAt 0x10 4) ++ zeros 24
  s.svcWork core v desc 0x5001 (c.argAt 1 1 + 4 * flag verify + 256 * tlen) 0 0x30 1 false key
    [if verify then c.bytes (c.argAt 0x10 4) tlen else [], msg]

/-- The MAC operation: a prime operation whose key is checked and charged at its admission, or key, charge and a pooled
engine. A slot is no key of an applet (R369): POLICY, the model's reading beside R393 (log entry 75). -/
def State.svcMac (s : State) (core : Nat) (c : Core) (v : Invocation) : State :=
  let alg := c.argAt 1 1
  let msg := c.bytes (c.argAt 8 4) (c.argAt 0x0C 4)
  match keySrcOf (c.argAt 4 4) v.session (some core) with
  | none => s.answerSvc core .malformed []
  | some k =>
    if !k.ofApplet then s.answerSvc core .policy []
    else if svcMacPrime c then s.svcSubmit core (s.svcMacWork core c v msg)
    else
      match s.keyFail k v.slice with
      | some st => s.answerSvc core st []
      | none =>
        if !s.keyServes k attrMac 2 (macTypes alg) v.slice then s.answerSvc core .policy []
        else (s.chargeKey k).svcStream core (s.svcMacStream core c v (s.keyView k v.slice).key msg) (alg != 0)

/-- SVC_MAC. -/
def execSvcMac (core : Nat) (s : State) : Host.Outcome State Fault Refusal :=
  .next (s.onCall core 4
    (fun c _ => c.argClean [(0, 3), (4, 16)] && decide (c.argAt 0 1 < 2) && macTlenOk (c.argAt 1 1) (c.argAt 2 1))
    (fun c _ => localOk (c.argAt 8 4) (c.argAt 0x0C 4) 1 && localOk (c.argAt 0x10 4) (c.argAt 2 1) 1)
    (fun c v =>
      match keySrcOf (c.argAt 4 4) v.session (some core) with
      | some (.session h) => if s.sessionBusy h && !svcMacPrime c then s else s.svcMac core c v
      | _ => s.svcMac core c v))

/-- Handle of KIND 1 (R393). -/
def handleWord (n : Nat) : Nat := 0x10000000 + n

/-- The lowest free handle of an invocation. -/
def Core.freeHandle (c : Core) : Option Nat := (List.range 8).find? (fun n => c.handles.all (fun h => h.num != n))

/-- USES of a derived handle without UNLIMITED: ARG carries none, so it is a free value that R392 allows (log entry 34). -/
def handleUses (draw : Nat) (parent : BitVec 32) (left : Nat) : Nat :=
  let f := Config.freeNat draw
  if parent.getLsbD attrUnlimited then f % (2 ^ 48 - 1) + 1 else f % left + 1

/-- DERIVE: the parent, the session's key or a derived one (R369, log entry 75), is charged one use, then R383, R390 and R392,
then room for a handle. -/
def State.svcDerive (s : State) (core : Nat) (c : Core) (v : Invocation) : State :=
  match keySrcOf (c.argAt 0 4) v.session (some core) with
  | none => s.answerSvc core .malformed []
  | some k =>
    if !k.ofApplet then s.answerSvc core .policy []
    else
    match s.keyFail k v.slice with
    | some st => s.answerSvc core st []
    | none =>
      let s := s.chargeKey k
      let x := s.keyView k v.slice
      let req := BitVec.ofNat 32 (c.argAt 0x0C 4)
      let left := x.uses
      let uses := if req.getLsbD attrUnlimited then 0 else handleUses s.draws x.attr left
      let ok := x.type == 0x03 && attrAllows x.attr attrDerive 2 x.slice v.slice && decide (x.level + 1 ≤ 7) && deriveOk x.attr req left uses
      if !ok then s.answerSvc core .policy []
      else
        match c.freeHandle with
        | none => s.answerSvc core .busy []
        | some n =>
          let h : Handle :=
            { num := n, key := kdf x.key (x.level + 1) 0x03 (c.bytes (c.argAt 4 4) (c.argAt 8 4)) 32,
              attr := deriveAttr x.attr req, level := x.level + 1, uses := uses, epoch := s.keys.epoch }
          let s := s.modCore core (fun y => { y with handles := y.handles ++ [h] })
          (s.answerSvc core .ok (leBytes 4 (handleWord n))).drawn

/-- SVC_DERIVE. -/
def execSvcDerive (core : Nat) (s : State) : Host.Outcome State Fault Refusal :=
  .next (s.onCall core 5
    (fun c _ =>
      c.argClean [(0, 16)] && decide (1 ≤ c.argAt 8 4) && decide (c.argAt 8 4 ≤ 32) &&
        BitVec.ofNat 32 (c.argAt 0x0C 4) &&& attrReserved == 0)
    (fun c _ => localOk (c.argAt 4 4) (c.argAt 8 4) 1)
    (fun c v =>
      match keySrcOf (c.argAt 0 4) v.session (some core) with
      | some (.session h) => if s.sessionBusy h then s else s.svcDerive core c v
      | _ => s.svcDerive core c v))

/-! BIGNUM, RANDOM. -/

/-- The big-number operation: R430 from its key check on, then the queue. -/
def State.svcBignum (s : State) (core : Nat) (c : Core) (v : Invocation) : State :=
  let op := c.argAt 0 2
  let kh := c.argAt 4 4
  let input := c.bytes (c.argAt 8 4) (c.argAt 0x0C 4)
  let type := s.bnType op kh
  match s.bnKeyCheck v.slice op kh with
  | (s, some (_, st)) => s.answerSvc core st []
  | (s, none) =>
    let key := match bnTypes op, bnKey kh with
      | some _, some (t, i) => some (s.slotAt t i).material
      | _, _ => none
    if !(bnInOk op input && decide (bnOutLen op type input ≤ c.argAt 0x14 4)) then s.answerSvc core .malformed []
    else if !bnValid op type (key.getD []) input then s.answerSvc core .range []
    else (s.bnSubmit (bnJobOf v.work 1 core v.slice op key type input)).svcStarted core

/-- SVC_BIGNUM. -/
def execSvcBignum (core : Nat) (s : State) : Host.Outcome State Fault Refusal :=
  .next (s.onCall core 6
    (fun c _ =>
      let op := c.argAt 0 2
      let kh := c.argAt 4 4
      c.argClean [(0, 2), (4, 20)] && bnOpOk op && (kh == 0) == (bnTypes op).isNone &&
        bnLensOk op (s.bnType op kh) (c.argAt 0x0C 4) (c.argAt 0x14 4))
    (fun c _ => localOk (c.argAt 8 4) (c.argAt 0x0C 4) 1 && localOk (c.argAt 0x10 4) (c.argAt 0x14 4) 1)
    (fun c v => s.svcBignum core c v))

/-- SVC_RANDOM: it waits at priority 5. -/
def execSvcRandom (core : Nat) (s : State) : Host.Outcome State Fault Refusal :=
  .next (s.onCall core 7 (fun c _ => c.argClean [(0, 8)] && decide (c.argAt 4 4 ≤ 4096))
    (fun c _ => localOk (c.argAt 0 4) (c.argAt 4 4) 1)
    (fun c v =>
      if c.argAt 4 4 = 0 then s.answerSvc core .ok (leBytes 4 0)
      else (s.askRandom (.service core) 5 v.slice (c.argAt 4 4)).svcStarted core))

/-! NV_READ, NV_WRITE. -/

/-- Form of both services (check 1 of R492). -/
def nvArgOk (c : Core) : Bool :=
  c.argClean [(0, 1), (4, 20)] && decide (c.argAt 0 1 ≤ 63) && decide (1 ≤ c.argAt 8 4) && decide (c.argAt 8 4 ≤ 4096)

/-- Checks 2 to 4, 6 and 7 of R492. -/
def State.svcNvChecks (s : State) (c : Core) (v : Invocation) (write : Bool) : State × Option Status :=
  match s.partFail (c.argAt 0 1) v.slice (c.argAt 4 4) with
  | some (_, st) => (s, some st)
  | none =>
    let r := s.passwordCheck (c.argAt 0 1) write (memRead c.arg 0x10 8)
    (r.1, r.2.map Prod.snd)

/-- SVC_NV_READ: the read of the page is a class-2 step of the store's controller (R44). -/
def execSvcNvRead (core : Nat) (s : State) : Host.Outcome State Fault Refusal :=
  .next (s.onCall core 8 (fun c _ => nvArgOk c) (fun c _ => localOk (c.argAt 0x0C 4) (c.argAt 8 4) 1)
    (fun c v =>
      match s.svcNvChecks c v false with
      | (t, some st) => t.answerSvc core st []
      | (t, none) =>
        if !t.mayReadPage v.slice then s
        else
        let s := t.readsPage v.slice
        let off := c.argAt 4 4
        let key := userKey (c.argAt 0 1) (off / 256)
        let r := s.nv.readPage key
        let s := (s.badRead key).svcOutput core (c.argAt 0x0C 4) (wrapRead r.1 (off % 256) (c.argAt 8 4))
        s.answerSvc core r.2.2 (leBytes 4 (c.argAt 8 4))))

/-- The data of an NV_WRITE call goes into the buffer; without room the call waits. In write-through the call completes with
its page (R480). -/
def State.svcNvStore (s : State) (core : Nat) (c : Core) : State :=
  let off := c.argAt 4 4
  let data := c.bytes (c.argAt 0x0C 4) (c.argAt 8 4)
  let wait : CommitWait :=
    { work := (c.inv.map Invocation.work).getD 0, core := some core, last := true, ok := leBytes 4 data.length, fail := [] }
  match s.bufferWrite (userKey (c.argAt 0 1) (off / 256)) (off % 256) data (if s.nv.wt then [wait] else []) with
  | none => s.svcStarted core
  | some t => if s.nv.wt then t.svcStarted core else t.answerSvc core .ok (leBytes 4 data.length)

/-- SVC_NV_WRITE: takes up a call, or stores the data of one that waited for a buffer entry. -/
def execSvcNvWrite (core : Nat) (s : State) : Host.Outcome State Fault Refusal :=
  let c := s.coreAt core
  if c.mode == .waiting && c.started && c.answer.isNone && c.call == 9 then
    .next (if s.nv.behind.any (fun e => e.sync.any (fun x => x.core == some core)) then s else s.svcNvStore core c)
  else
    .next (s.onCall core 9 (fun c _ => nvArgOk c) (fun c _ => localOk (c.argAt 0x0C 4) (c.argAt 8 4) 1)
      (fun c v =>
        match s.svcNvChecks c v true with
        | (s, some st) => s.answerSvc core st []
        | (s, none) => s.svcNvStore core c))

/-! RETURN (R349, R366, R367). -/

/-- Result of an invocation that returned. -/
def returnResult (n : Nat) (v : Invocation) : Bytes := leBytes 4 n ++ leBytes 4 (v.charged + 1) ++ leBytes 4 v.posts

/-- The first part of the output that fails region 2 of the core's MPU (R367). -/
def State.outputFail (s : State) (core slice addr len : Nat) : Option Nat :=
  let r := (s.mpuAt core).region 2
  ((s.parts core slice addr len).find? (fun p => !(r.holds p.1 && r.w))).map Prod.fst

/-- What the capture of that part holds. -/
def State.outputVerdict (s : State) (core a : Nat) : Verdict :=
  match (s.mpuAt core).regionAt a false with
  | none => .mpu true 0
  | some (k, _) => .mpu false k

/-- The invocation ends: its output goes to the completion writer with its completion. -/
def State.svcReturn (s : State) (core : Nat) (c : Core) (v : Invocation) : State :=
  let n := c.argAt 0 4
  let bytes := c.bytes 0x20000 n
  let bad := if n = 0 then none else s.outputFail core v.slice v.outAddr n
  match bad with
  | some a =>
    let s := s.violation core v.slice a true true (s.outputVerdict core a)
    (s.clearCore core).finishOpen v.work .access []
  | none =>
    let s := s.clearCore core
    let s := if n = 0 then s else s.modWork v.work (fun w => { w with mailbox := some (v.outAddr, bytes) })
    s.finish v.work .ok (returnResult n v)

/-- SVC_RETURN. -/
def execSvcReturn (core : Nat) (s : State) : Host.Outcome State Fault Refusal :=
  .next (s.onCall core 10 (fun c v => c.argClean [(0, 4)] && decide (c.argAt 0 4 ≤ 4096) && decide (c.argAt 0 4 ≤ v.outCap))
    (fun _ _ => true) (fun c v => s.svcReturn core c v))

/-! The end of a call (R347). -/

/-- The commit that the answer waits for has left, and with D is persisted (R172, R177). -/
def State.awaitMet (s : State) (c : Core) : Bool :=
  match c.await with
  | none => true
  | some (b, lseq, d) => decide (lseq ≤ (s.bookAt b).issued) && (!d || decide (lseq ≤ (s.bookAt b).persisted))

/-- The local output of a call: the tag of a prime MAC call stands in its answer. -/
def Core.svcWrites (c : Core) (status : Word) (res : Bytes) : List (Nat × Bytes) :=
  if c.call == 4 && c.argAt 0 1 == 0 && status.toNat % 256 == 0 && c.output.isEmpty then
    [(c.argAt 0x10 4, res.take (c.argAt 2 1))]
  else c.output

/-- RES after a call: a MAC leaves it, the others write it; bytes that no rule lays down are free (log entry 34). -/
def Core.svcRes (c : Core) (draw : Nat) (res : Bytes) : Table Byte :=
  if c.call == 4 then c.res else memWrite [] 0 (res ++ Config.freeBytes draw (32 - res.length))

/-- Outputs, RES and STATUS are written; an uncorrectable local word that is overwritten whole is good again. -/
def Core.endCall (c : Core) (draw : Nat) (status : Word) (res : Bytes) : Core :=
  let c1 := (c.svcWrites status res).foldl (fun c o => c.setBytes o.1 o.2) c
  let c2 := if c.svcZ then c1.putFlag flagZ (status.toNat % 256 == 0) else c1
  { c2 with status := status, res := c.svcRes draw res, mode := .resume, started := false, answer := none, await := none,
            output := [], svcZ := false }

/-- SERVICE_CALL_END. -/
def execServiceCallEnd (core : Nat) (s : State) : Host.Outcome State Fault Refusal :=
  let c := s.coreAt core
  .next (match c.answer with
    | none => s
    | some (status, res) =>
      if c.mode == .waiting && s.awaitMet c then (s.modCore core (fun c => c.endCall s.draws status res)).drawn else s)

/-! BN_JOB_END. -/

/-- A service job has ended: its bytes go to OUT, its status to the core. -/
def State.svcBnEnd (s : State) (core : Nat) (o : BnOutcome) : State :=
  let c := s.coreAt core
  match o with
  | .range => s.answerSvc core .range []
  | .verdict ok => s.answerSvc core (if ok then .ok else .auth) (leBytes 4 0)
  | .out b => (s.svcOutput core (c.argAt 0x10 4) b).answerSvc core .ok (leBytes 4 b.length)

/-- A second mismatch ends a job with FAULT: of a descriptor, of a service call, of a seal that is then not written, or of
an image check (R430, R435; log entry 25). -/
def State.bnFault (s : State) (j : BnJob) : State :=
  let s := { s with crypto := { s.crypto with bnFaults := s.crypto.bnFaults + 1 } }
  match j.use with
  | 0 => (match s.workAt j.work with | some w => s.refuse w 7 .fault | none => s)
  | 1 => s.answerSvc j.who .fault []
  | 2 => s.endSeal j.who j.no .fault
  | _ => s.loadFail j.who 9 .fault

/-- The two computations of a finished job differ: it runs once more with fresh random values, then ends (R435). -/
def State.bnMismatched (s : State) (engine : Nat) (j : BnJob) : Squashed :=
  if j.retries = 0 then
    let need := bnNeed j.op j.keyType
    let k := { j with cost := j.cost + bnCost j.op j.keyType j.input, retries := 1, rand := need == 0 }
    let s := s.setBn engine { s.bnAt engine with running := some k }
    { st := if need = 0 then s else s.askRandom (.bignum j.admitted) 1 j.slice need, redone := true, ended := false, slice := j.slice }
  else { st := (s.bnRetire engine).bnFault j, redone := false, ended := true, slice := j.slice }

/-- A repeat-and-compare mismatch: a level-2 event (R435). -/
def State.bnMismatch (s : State) (engine : Nat) : State :=
  match s.bnFinished engine with
  | none => s
  | some j =>
    if !s.sensing then s
    else
      let e : TamperEvent :=
        { source := 0x13, cause := 0, unit := placeOfUnit 7, loc := engine, slice := j.slice, detail := j.op, num := 0 }
      { s with crypto := { s.crypto with bnMismatch := s.crypto.bnMismatch + 1 } }.level2 e (fun s => s.bnMismatched engine j)

/-- The job of an engine ends (R430): of a descriptor or of a service call. Seals and image checks end with commands of
their own. -/
def State.bnJobEnd (s : State) (engine : Nat) : State :=
  match s.bnFinished engine with
  | none => s
  | some j =>
    if j.use = 0 then
      (match s.workAt j.work with
       | none => s.bnRetire engine
       | some w =>
         if !s.canMaster (s.masterStream w.id) then s
         else let r := (s.bnRetire engine).bnOutcome j; r.2.bnEnd w j r.1)
    else if j.use = 1 then let r := (s.bnRetire engine).bnOutcome j; r.2.svcBnEnd j.who r.1
    else s

/-- BN_JOB_END. -/
def execBnJobEnd (engine : Nat) (mismatch : Bool) (s : State) : Host.Outcome State Fault Refusal :=
  .next (if mismatch then s.bnMismatch engine else s.bnJobEnd engine)

end Sys2Proof.Machine
end

