-- ==== Sys2Proof/Machine/Tag.lean ====
section
/-! DEFINITION. The device as a card (R530, R539-R547): selection, the tag application, its files, passwords, writes from
the field. -/

namespace Sys2Proof.Machine
open Sys2Proof

/-! Field and selection (R530, R539). -/

/-- FIELD_PRESENT: with main power absent the field makes the device a tag, unless the life-cycle state is BLANK. -/
def execFieldPresent (field : Nat) (s : State) : Host.Outcome State Fault Refusal :=
  let cl := { s.cl with field := field }
  .next (if field = 0 then s
    else if s.pwr.mainOk || s.tamper.state == .blank then { s with cl := cl }
    else { s with cl := { cl with mode := .tag } })

/-- The tag answers: mode TAG and a field. -/
def State.tagOn (s : State) : Bool := s.cl.mode == .tag && s.cl.field != 0

/-- The application is deselected: file and passwords go with it (R542). -/
def State.deselect (s : State) : State :=
  { s with cl := { s.cl with app := false, file := none, readOk := false, writeOk := false } }

/-- The tag at another protocol level. -/
def State.tagLevel (s : State) (l : TagLevel) : State := { s with cl := { s.cl with level := l } }

/-- UID CLn with its BCC. -/
def State.uidLevel (s : State) (level : Nat) : Bytes :=
  let u := fit 7 s.cl.uid
  let b := if level = 1 then (0x88 : Byte) :: u.take 3 else u.drop 3
  b ++ [b.foldl (· ^^^ ·) 0]

/-- The ATS of R539. -/
def tagAts : Bytes := [0x05, 0x75, 0x00, 0x80, 0x00]

/-- The level at which the tag resolves a cascade level. -/
def readyLevel (l : TagLevel) : Nat := match l with | .ready1 => 1 | .ready2 => 2 | _ => 0

/-- A frame of the activation: an unexpected one makes the tag idle, as ISO/IEC 14443-3 prescribes. -/
def State.tagFrame (s : State) (f : TagFrame) : State :=
  let l := s.cl.level
  let idle := (if l == .halted then s else s.tagLevel .idle).deselect
  match f with
  | .reqa => if l == .idle then (s.tagLevel .ready1).rfOut [0x44, 0x00] else idle
  | .anticollision n known =>
    let u := s.uidLevel n
    if n != 0 && readyLevel l == n && (bitsOf u).take known.length == known then s.rfOut (u.drop (known.length / 8))
    else idle
  | .select n uid =>
    if n != 0 && readyLevel l == n && uid == (s.uidLevel n).take 4 then
      (if n = 1 then (s.tagLevel .ready2).rfOut [0x04]
       else
         let s := if s.pwr.mainOk then { s with cl := { s.cl with tagSess := s.cl.tagSess + 1 } } else s
         (s.tagLevel .active).rfOut [0x20])
    else idle
  | .rats => if l == .active then (s.tagLevel .protocol).rfOut tagAts else idle
  | .hlta => if l == .active then s.tagLevel .halted else idle

/-- TAG_ANTICOLLISION; once the transport protocol runs, these frames are no commands of it. -/
def execTagAnticollision (frame : TagFrame) (s : State) : Host.Outcome State Fault Refusal :=
  .next (if s.tagOn && s.cl.level != .protocol then s.tagFrame frame else s)

/-! APDUs (R542). -/

/-- A status word. -/
def sw (n : Nat) : Bytes := beBytes 2 n

/-- A status word that the manual does not state: free (log entry 35). -/
def State.swFree (s : State) : State := (s.rfOut (Config.freeBytes s.draws 2)).drawn

/-- The tag takes APDUs. -/
def State.tagTalks (s : State) : Bool := s.tagOn && s.cl.level == .protocol

/-- A command behind the selection of the application. -/
def State.onApp (s : State) (f : State) : State :=
  if !s.tagTalks then s else if !s.cl.app then s.rfOut (sw 0x6986) else f

/-- AID of the tag application (R540). -/
def tagAid : Bytes := [0xF0, 0x53, 0x4B, 0x54, 0x41, 0x47]

/-- TAG_SELECT_APPLICATION. -/
def execTagSelectApplication (aid : Bytes) (s : State) : Host.Outcome State Fault Refusal :=
  .next (if !s.tagTalks then s
    else if aid == tagAid then
      (let t := s.deselect
       { t with cl := { t.cl with app := true } }.rfOut (sw 0x9000))
    else s.swFree)

/-- Files of R540. -/
def fidIdent : Nat := 0x5301
def fidCert : Nat := 0x5302
def fidSummary : Nat := 0x5303
def fidInv : Nat := 0x5304

/-- The file exists: SUMMARY only when one is stored. -/
def State.fileExists (s : State) (fid : Nat) : Bool :=
  fid == fidIdent || fid == fidCert || fid == fidInv || (fid == fidSummary && s.tamper.summary.isSome)

/-- TAG_SELECT_FILE. -/
def execTagSelectFile (fid : Nat) (s : State) : Host.Outcome State Fault Refusal :=
  .next (s.onApp (if s.fileExists fid then { s with cl := { s.cl with file := some fid } }.rfOut (sw 0x9000)
    else s.rfOut (sw 0x6A82)))

/-- HTM_IDENT of this device (R5). -/
def htmIdent : Nat := 0x96405AB1

/-- The file IDENT. -/
def State.identFile (s : State) : Bytes :=
  ascii "SKAORA-O" ++ fit 16 s.keys.deviceId ++ fit 7 s.cl.uid ++ [0] ++ fit 64 s.cl.origin ++ leBytes 1 (lcCode s.tamper.state) ++
    leBytes 1 s.tamper.cause ++ [0, 0] ++ leBytes 4 htmIdent

/-- The answer of a read: data and 9000, or 6B00 past the end. -/
def State.readAnswer (s : State) (file : Bytes) (offset len : Nat) : State :=
  if file.length < offset + len then s.rfOut (sw 0x6B00) else s.rfOut (bytesAt file offset len ++ sw 0x9000)

/-- Inventory pages that a read touches. -/
def invPages (offset len : Nat) : List Nat :=
  (List.range 4).filter (fun p => decide (p * 256 < offset + len) && decide (offset < (p + 1) * 256))

/-- A read of the inventory memory: lock, password, range, pages. -/
def State.readInv (s : State) (offset len : Nat) : State :=
  let p := s.partAt 0
  if p.locked then s.rfOut (sw 0x6983)
  else if !(s.cl.readOk || allZero p.readPw) then s.rfOut (sw 0x6982)
  else if 1024 < offset + len then s.rfOut (sw 0x6B00)
  else
    let pages := invPages offset len
    let s := pages.foldl (fun s k => s.badRead (userKey 0 k)) s
    if pages.any (fun k => (s.nv.readPage (userKey 0 k)).2.2 != .ok) then s.rfOut (sw 0x6581)
    else s.readAnswer ((List.range 4).map (fun k => fit 256 (s.nv.readPage (userKey 0 k)).1)).flatten offset len

/-- Field, in mA/m, that a field-powered read needs (R544). -/
def readField : Nat := 1500

/-- READ_BINARY. A read that runs past the file end answers 6B00. -/
def execReadBinary (offset le : Nat) (s : State) : Host.Outcome State Fault Refusal :=
  .next (if !s.pwr.mainOk && decide (s.cl.field < readField) then s
    else
      s.onApp (match s.cl.file with
        | none => s.swFree
        | some f =>
          if f = fidIdent then s.readAnswer s.identFile offset le
          else if f = fidCert then s.readAnswer s.keys.cert offset le
          else if f = fidSummary then s.readAnswer ((s.tamper.summary.map (fit 256)).getD []) offset le
          else s.readInv offset le))

/-! Writes (R544). -/

/-- Capacitor voltage in mV and field in mA/m that a field-powered write needs. -/
def writeMv : Nat := 2400
def writeField : Nat := 2000

/-- 6985: counted in CL_TAG_NAK. -/
def State.tagNak (s : State) : State :=
  { s with cl := { s.cl with tagNak := s.cl.tagNak + 1 } }.rfOut (sw 0x6985)

/-- What waits for the commit of an UPDATE BINARY. -/
def State.tagWait (s : State) : CommitWait := { work := s.nextId, core := none, last := true, ok := [], fail := [] }

/-- With main power present: as an NV_WRITE with SYNC, answered after the commit. Without room in the buffer the command
waits. -/
def State.updatePowered (s : State) (offset : Nat) (data : Bytes) : State :=
  match s.bufferWrite (userKey 0 (offset / 256)) (offset % 256) data [s.tagWait] with
  | none => s
  | some t => { t with nextId := t.nextId + 1, cl := { t.cl with pendingUpdate := some s.nextId } }

/-- From the field: the page is buffered; PAGE_WRITE makes the new copy and commits it. -/
def State.updateField (s : State) (offset : Nat) (data : Bytes) (capMv field : Nat) : State :=
  if capMv < writeMv || field < writeField then s.tagNak
  else if 64 ≤ s.nv.wbuf.length then s
  else
    let key := userKey 0 (offset / 256)
    let e := userEntry key offset (wrapWrite (s.nv.readPage key).1 (offset % 256) data) [s.tagWait]
    { s with nextId := s.nextId + 1, cl := { s.cl with pendingUpdate := some s.nextId },
             nv := { s.nv with wbuf := (s.nv.wbuf ++ [{ e with frozen := true }]).take 64 } }

/-- UPDATE_BINARY: `capMv` is the voltage of the storage capacitor, `field` the field in mA/m. -/
def execUpdateBinary (offset : Nat) (data : Bytes) (capMv field : Nat) (s : State) : Host.Outcome State Fault Refusal :=
  let p := s.partAt 0
  .next (if s.cl.pendingUpdate.isSome then s
    else
      s.onApp (if s.tamper.state == .spent then s.rfOut (sw 0x6986)
        else if s.cl.file != some fidInv then s.swFree
        else if p.locked then s.rfOut (sw 0x6983)
        else if !(s.cl.writeOk || allZero p.writePw) then s.rfOut (sw 0x6982)
        else if 1024 ≤ offset || 256 < offset % 256 + data.length then s.rfOut (sw 0x6B00)
        else if s.pwr.mainOk then s.updatePowered offset data
        else s.updateField offset data capMv field))

/-! Passwords (R542, R543). -/

/-- The answer to a wrong password: the failures left before the lock. -/
def State.wrongPassword (s : State) : State := s.rfOut (sw (0x63C0 + (8 - (s.partAt 0).fails)))

/-- The failure count as its record holds it while main power is absent. -/
def State.recordFails (s : State) : State :=
  let t := { s with nv := { s.nv with tagFails := (s.partAt 0).fails } }
  if s.nv.tagFails = (s.partAt 0).fails then t else t.nvPut partSystem recTagFails

/-- A password of partition 0 is compared. Without main power the failure count goes into its record before the answer,
and no log runs. -/
def State.comparePassword (s : State) (write : Bool) (password : Bytes) : State :=
  let r := s.passwordCheck 0 write password
  let t := if s.pwr.mainOk then r.1 else { r.1 with logs := s.logs }.recordFails
  match r.2 with
  | none =>
    let cl := if write then { t.cl with writeOk := true } else { t.cl with readOk := true }
    { t with cl := cl }.rfOut (sw 0x9000)
  | some _ => t.wrongPassword

/-- VERIFY. -/
def execVerify (write : Bool) (password : Bytes) (capMv : Nat) (s : State) : Host.Outcome State Fault Refusal :=
  .next (s.onApp (if (s.partAt 0).locked then s.rfOut (sw 0x6983)
    else if !s.pwr.mainOk && decide (capMv < writeMv) then s.tagNak
    else s.comparePassword write password))

/-! Violations and the loss of the field (R545, R547). -/

/-- TAG_FRAME_ERROR: the tag stays silent. -/
def execTagFrameError (s : State) : Host.Outcome State Fault Refusal :=
  .next (if !s.tagOn then s
    else if s.pwr.mainOk then s.frameError 1
    else { s with cl := { s.cl with frameErr := s.cl.frameErr + 1 } })

/-- FIELD_LOSS: the tag forgets its dialogue. Without main power a page that is only buffered keeps its old contents
(R545); with it the write goes on, unanswered. -/
def State.fieldLoss (s : State) : State :=
  let s := (s.deselect).tagLevel .idle
  let wbuf := if s.pwr.mainOk then s.nv.wbuf else []
  let mode := if s.pwr.mainOk then s.cl.mode else .off
  { s with cl := { s.cl with field := 0, pendingUpdate := none, mode := mode }, nv := { s.nv with wbuf := wbuf } }

/-- FIELD_LOSS. -/
def execFieldLoss (s : State) : Host.Outcome State Fault Refusal := .next s.fieldLoss

end Sys2Proof.Machine
end

