-- ==== Sys2Proof/Machine/Power.lean ====
section
/-! DEFINITION. Power (R550-R569): declaration of a power failure, the power-down flush, write-through, start-up, and the
resets of R277. START_UP makes start-up steps 0 to 4 in one (log entry 36). -/

namespace Sys2Proof.Machine
open Sys2Proof

/-! Power failure and the flush (R554-R559). -/

/-- A flush is needed at a power failure: the running mark stands (R554, R565). -/
def State.marked (s : State) : Bool := s.pwr.starting && s.nv.running && !s.halted

/-- The work completes in the drain: its completion is assembled, it stands in its prime lane, or it is an admitted
TALLY_ADJUST that waits (R238, R556). -/
def Work.drains (w : Work) : Bool :=
  w.isDone || (w.isPrime && (w.activeAt 1 || (w.activeAt 0 && w.opcode == 0x1011)))

/-- A load that an admitted TALLY_ADJUST waits for. -/
def State.adjustLoads (s : State) (book block : Nat) : Bool :=
  s.work.any (fun w => w.opcode == 0x1011 && w.slice == book && w.activeAt 0 && tidBlock (w.field 0x10 8) == block)

/-- Steps 1 and 2 of R556: what has not committed ends without completion, and so does what a later event of R221 had ended in
the same grain. Prime operations under way and assembled completions stay for the drain, with the loads that an admitted
TALLY_ADJUST waits for; a checkpoint under way ends and holds no commit back (R238). -/
def State.beginFlush (s : State) : State :=
  let gone (w : Work) : Bool := s.endedBelow rankPower w && !w.isPrimeOp
  let s := (s.dropEntries (fun _ => true)).dropWorkIf gone
  let s := { s with books := tmap Book.reset (fun b => { b with wb := none }) s.books }
  let cl := if s.cl.collect.isSome then { s.cl with collect := none, mode := ClMode.tag } else s.cl
  { s with
    work := s.work.filter Work.drains, reads := s.reads.filter (fun r =>
      match r.kind with | .load b k => s.adjustLoads b k | _ => false), cl := cl, sched := { s.sched with served := [] },
    crypto := { s.crypto with streams := [], bn := [], bnQueue := [] }, applets := { s.applets with cores := [] },
    rng := { s.rng with waiters := [] }, pan := { s.pan with loads := s.pan.loads.filter (fun l => s.adjustLoads l.book l.block), rebuilds := [] },
    nv := { s.nv with commitWaits := [] },
    pwr := { s.pwr with flush := some { since := s.now, step := .drain, cut := false } } }

/-- A frame is still staged. -/
def State.framesLeft (s : State) : Bool := s.books.any (fun e => e.2.staged.any (fun r => !r.issued))

/-- The prime operations of the drain complete both steps: a waiting TALLY_ADJUST takes its lane once its tally is at hand
(R238, R556 step 1). -/
def State.drainGrain (s : State) : State :=
  let s := s.eachWork (fun w => w.isPrime && w.activeAt 0) (fun s w => s.primeEnter w)
  s.finishLanes (fun _ _ => true)

/-- The drain stops (R557): completions not issued are never written. -/
def State.endDrain (s : State) : State :=
  match s.pwr.flush with
  | none => s
  | some f =>
    if f.step != .drain then s
    else
      let s := s.drainGrain
      let cut := s.framesLeft
      { s with work := [], pwr := { s.pwr with flush := some { f with step := .save, cut := cut }, drainCut := cut } }

/-- Every page of the write buffer is written (R478 step 1). -/
def State.flushPages (s : State) : State :=
  (List.range (s.nv.wbuf.length + s.nv.behind.length)).foldl (fun s _ => s.pageWrite) s.commitBuffer

/-- Counters are stored (R478 step 2). -/
def State.storeCounters (s : State) : State := (s.nv.counters.map Prod.fst).foldl (fun s n => s.storeCounter n) s

/-- USES of the slot differ from their record. -/
def Slot.usesDue (k : Slot) : Bool := k.occupied && !k.attr.getLsbD attrUnlimited && k.uses != k.usesRec

/-- The pages of KEYS with such slots. -/
def State.usesPages (s : State) : List Nat :=
  let due (target : Nat) (t : Table Slot) : List Nat :=
    (t.filter (fun e => e.2.usesDue)).map (fun e => recKey partKeys (recSlot target e.1))
  (due 0 s.keys.compact ++ due 1 s.keys.large).dedup

/-- The images of the USES on a page. -/
def State.usesImages (s : State) (key : Nat) : List RecImage :=
  let due (target : Nat) (t : Table Slot) : List RecImage :=
    (t.filter (fun e => e.2.usesDue && recKey partKeys (recSlot target e.1) == key)).map (fun e => .uses target e.1 e.2.uses)
  due 0 s.keys.compact ++ due 1 s.keys.large

/-- USES on a page are recorded. -/
def State.recordUsesPage (s : State) (key : Nat) : State := (s.nvNow key (s.usesImages key)).1

/-- USES of every slot are recorded (R386, R478 step 3). -/
def State.recordUses (s : State) : State := s.usesPages.foldl State.recordUsesPage s

/-- HEADS holds something of the book: its state, or the adoption nonce of one in NONE (R214, R477). -/
def Book.recorded (b : Book) : Bool := b.st != .none_ || b.nonce.isSome

/-- The books as HEADS records them. -/
def State.bookImages (s : State) : Table Book :=
  tmap Book.reset Book.image (s.books.filter (fun e => e.2.recorded))

/-- The physical page that the page write of an entry takes; none when it writes nothing. -/
def State.targetPage (s : State) (e : WbEntry) : Option Nat :=
  match s.nv.copy e.key with
  | p :: _ =>
    if partInPlace (e.key / 2 ^ 20) && s.holdHealthy && !s.nv.wt && s.pwr.starting && !s.nv.due p then some p
    else s.nv.bestSpare (e.key / 2 ^ 20)
  | [] => s.nv.bestSpare (e.key / 2 ^ 20)

/-- The page writes of a grain of the flush: at most one per bank (R465). -/
def State.flushBatch (s : State) : Nat → List Nat → State
  | 0, _ => s
  | k + 1, used =>
    match s.nv.nextPage with
    | none => s
    | some e =>
      match s.targetPage e with
      | some p => if used.contains (bankOf p) then s else s.pageWrite.flushBatch k (bankOf p :: used)
      | none => s.pageWrite.flushBatch k used

/-- The stored value of a counter is not its value. -/
def Counter.storeDue (c : Counter) : Bool := c.stored.any (fun v => v != c.value)

/-- The counter pages that are still to be stored. -/
def State.counterPagesDue (s : State) : List Nat :=
  ((s.nv.counters.filter (fun e => e.2.storeDue)).map (fun e => e.1 / 4)).dedup

/-- The counters of a page are stored. -/
def State.storePage (s : State) (page : Nat) : State :=
  (List.range 4).foldl (fun s k => if (s.counterAt (4 * page + k)).storeDue then s.storeCounter (4 * page + k) else s) s

/-- The first counter pages in distinct banks. -/
def State.bankPages (s : State) : List Nat → List Nat → List Nat
  | _, [] => []
  | used, p :: t =>
    let b := bankOf (((s.nv.copy (recKey partCounters p)).head?).getD 0)
    if used.contains b then s.bankPages used t else p :: s.bankPages (b :: used) t

/-- The end of step 4 of R556: R478 steps 3 and 4, but for the COMMIT of the saved-state record. -/
def State.flushValues (s : State) (f : Flush) : State :=
  let s := (s.nvPut partHeads recGrain).nvPut partSystem recEpoch
  { s with
    keys := { s.keys with epochRec := s.keys.epoch }, nv := { s.nv with saved := s.bookImages, grainSaved := some s.now },
    pwr := { s.pwr with flush := some { f with step := .commit } } }

/-- A grain of step 4 of R556: R478 steps 1 to 4, at most one page per bank in a grain. -/
def State.flushSave (s : State) (f : Flush) : State :=
  if !(s.nv.wbuf.isEmpty && s.nv.behind.isEmpty) then s.commitBuffer.flushBatch 16 []
  else if !s.counterPagesDue.isEmpty then (s.bankPages [] s.counterPagesDue).foldl State.storePage s
  else if !s.usesPages.isEmpty then (s.usesPages.take 16).foldl State.recordUsesPage s
  else s.flushValues f

/-- The device without main power or in reset: what is stored, the battery domain and what stands outside the device
remain (R559, R560). -/
def State.powerDown (s : State) : State :=
  let s := s.putImages (s.hregs.deferred.filterMap (fun d => match d with | .install i => some i | _ => none))
  let r := State.reset
  let blank := s.tamper.state == .blank
  let mode : ClMode := if s.pwr.mainOk || blank then .off else .tag
  let k := s.keys
  let n := s.nv
  let t := s.tamper
  let unload (x : Slot) : Slot := { x with masked := [], mask := [] }
  { r with
    pending := s.pending, out := s.out, nextId := s.nextId, draws := s.draws,
    sched := { r.sched with grain := s.now },
    brine := { r.brine with incarnCtr := s.brine.incarnCtr },
    applets := { r.applets with allow := s.applets.allow },
    keys := { r.keys with
      deviceIdCopy := k.deviceIdCopy, deviceId := k.deviceId, helper := k.helper, cert := k.cert,
      compact := tmap Slot.reset unload k.compact, large := tmap Slot.reset unload k.large,
      auth := k.auth, families := k.families, erasePending := k.erasePending, epoch := k.epoch, epochRec := k.epochRec },
    nv := { r.nv with
      pages := n.pages, maps := n.maps, retired := n.retired, worn := n.worn,
      parts := (n.parts.map (fun e =>
        (e.1, { e.2 with fails := if e.1 == 0 then n.tagFails else 0, locked := false, err := 0 }))).filter
          (fun e => decide (e.2 ≠ UserPart.none_)),
      counters := n.counters, wtMark := n.wtMark, running := n.running, saved := n.saved, bookRecs := n.bookRecs,
      grainRec := n.grainRec, grainSaved := n.grainSaved, scrubPos := n.scrubPos, tagFails := n.tagFails },
    tamper := { r.tamper with
      state := t.state, erasePending := t.erasePending, cause := t.cause, detail := t.detail, entryGrain := t.entryGrain,
      entryEpoch := t.entryEpoch, summaryDue := t.summaryDue, summary := t.summary, flushEvent := t.flushEvent,
      arm := t.arm, armRec := t.armRec, loopEn := t.loopEn, pattern := t.pattern, latch := t.latch,
      latchLoop := t.latchLoop, latchMesh := t.latchMesh },
    cl := { r.cl with mode := mode, uid := s.cl.uid, origin := s.cl.origin, field := s.cl.field },
    pwr := { r.pwr with
      mainOk := s.pwr.mainOk, pwrFail := s.pwr.pwrFail, perst := s.pwr.perst, flushFlag := s.pwr.flushFlag,
      resetCause := s.pwr.resetCause, flushGrains := s.pwr.flushGrains, drainCut := s.pwr.drainCut } }

/-- Step 5 of R556: the COMMIT of the saved-state record, then the keep domain is off. -/
def State.flushCommit (s : State) (f : Flush) : State :=
  let s := s.nvPut partHeads recSaved
  { s with nv := { s.nv with running := false, wtMark := false },
           pwr := { s.pwr with flushFlag := true, flushGrains := (s.now - f.since) % 2 ^ 24 } }.powerDown

/-- A grain of the flush. -/
def State.flushGrain (s : State) : State :=
  match s.pwr.flush with
  | none => s
  | some f =>
    match f.step with
    | .drain => s.drainGrain
    | .save => s.flushSave f
    | .commit => s.flushCommit f

/-- A power failure or a PERST_N assertion while the device runs: a flush, or none before the running mark (R565). -/
def State.declare (s : State) (cause : Nat) : State :=
  let s := { s with pwr := { s.pwr with resetCause := cause } }
  if !s.pwr.starting || s.pwr.flush.isSome then s
  else if s.marked then s.beginFlush
  else s.powerDown

/-- MAIN_RAIL_FAIL: a main rail has stood below its threshold for 8 grains (R550, R554). -/
def execMainRailFail (rail : Nat) (s : State) : Host.Outcome State Fault Refusal :=
  .next (if 6 ≤ rail then s
    else
      let s := { s with pwr := { s.pwr with mainOk := false } }.declare 0
      if s.pwr.starting || s.tamper.state == .blank then s else { s with cl := { s.cl with mode := .tag } })

/-- PWR_FAIL_N_ASSERT. -/
def execPwrFailNAssert (s : State) : Host.Outcome State Fault Refusal :=
  .next ({ s with pwr := { s.pwr with pwrFail := true } }.declare 0)

/-- PERST_N_ASSERT (R554, R557, R560): the link leaves L0, so that the drain stops at once. -/
def execPerstNAssert (s : State) : Host.Outcome State Fault Refusal :=
  let running := s.pwr.starting && s.pwr.flush.isNone
  let s := { s with pwr := { s.pwr with perst := true }, link := { s.link with up := false } }
  .next (if running then (s.declare 1).endDrain else s.endDrain)

/-- The cause that stops the drain holds (R557). -/
def State.cutoffHolds (s : State) (f : Flush) (cause : DrainCause) : Bool :=
  match cause with
  | .allIssued => !s.framesLeft && s.work.isEmpty
  | .linkLost => true
  | .perst => true
  | .tenMs => decide (f.since + 80000 ≤ s.now)
  | .hold mv => decide (mv < 8000)

/-- DRAIN_CUTOFF. -/
def execDrainCutoff (cause : DrainCause) (s : State) : Host.Outcome State Fault Refusal :=
  .next (match s.pwr.flush with
    | none => s
    | some f =>
      if !s.cutoffHolds f cause then s
      else
        let s := match cause with
          | .linkLost => { s with link := { s.link with up := false } }
          | .perst => { s with link := { s.link with up := false }, pwr := { s.pwr with perst := true } }
          | _ => s
        s.endDrain)

/-- Data codewords that a page write changes, in write order (R469, R471). -/
def changedCodewords (p : NvPage) (data : Bytes) (first : Nat) : List Nat :=
  ((List.range 16).map (fun i => (first + i) % 16)).filter (fun k =>
    bytesAt p.data (16 * k) 16 != bytesAt data (16 * k) 16 || p.badCw.contains k)

/-- A page after a write in place that stopped after `k` codeword writes, the next one being under way (R472). -/
def NvPage.interrupted (p : NvPage) (data : Bytes) (first k : Nat) : NvPage :=
  let cws := changedCodewords p data first
  let put (q : NvPage) (c : Nat) : NvPage :=
    { q with data := putBytes (fit 256 q.data) (16 * c) (bytesAt data (16 * c) 16), badCw := q.badCw.filter (· != c) }
  let next := { p with commit := false, seq := (p.seq + 1) % 2 ^ 32, badCw := p.badCw.filter (· != 16) }
  if k = 0 then { p with commit := false }.spoil 16
  else if k ≤ cws.length then
    let c := cws.getD (k - 1) 0
    ((cws.take (k - 1)).foldl put next).spoil c
  else (cws.foldl put next).spoil 16

/-- The page write of an entry is interrupted: a write in place leaves the page TORN, a new copy never becomes valid (R472). -/
def State.tearEntry (s : State) (e : WbEntry) (k : Nat) : State :=
  match s.targetPage e with
  | none => s
  | some p =>
    let v := s.nv.page p
    if (s.nv.copy e.key).contains p then
      (if v.data == e.data && v.outcome == .ok then s else { s with nv := s.nv.writePhys p (v.interrupted e.data e.first k) })
    else
      let torn : NvPage :=
        { NvPage.blank with part := e.key / 2 ^ 20, kind := e.kind, lpage := e.key % 2 ^ 20, seq := s.nv.nextSeq e.key,
                            index := e.index, pages := e.pages, data := (v.interrupted e.data 0 k).data }
      { s with nv := s.nv.writePhys p torn }

/-- The codeword of a counter under way is uncorrectable: the base other than B, so that the old value is read (R485, R486). -/
def State.tearCounter (s : State) (n : Nat) : State :=
  match (s.counterAt n).base with
  | none => s
  | some (isA, _) =>
    match s.nv.copy (recKey partCounters (n / 4)) with
    | [] => s
    | p :: _ => s.badCodeword p (4 * (n % 4) + if isA then 1 else 0)

/-- What the write under way leaves: a page of the buffer, else a counter (R472). -/
def State.tearWrite (s : State) (k : Nat) : State :=
  match s.nv.wbuf with
  | e :: _ => if e.frozen then s.tearEntry e k else s
  | [] =>
    match s.nv.counters.find? (fun e => e.2.storeDue) with
    | some e => if s.pwr.flush.any (fun f => f.step == .save) then s.tearCounter e.1 else s
    | none => s

/-- The values of R477 as write-through has kept them current (R480). -/
def State.throughAll (s : State) : State :=
  let s := s.recordUses
  { s with nv := { s.nv with bookRecs := s.bookImages } }

/-- KEEP_DOMAIN_STOP (R558): HOLD is below 6.0 V. `written` is how many codewords of the page write under way have been
written, none when no page write is under way. -/
def execKeepDomainStop (written : Option Nat) (s : State) : Host.Outcome State Fault Refusal :=
  .next (match s.pwr.flush with
    | none => s
    | some _ =>
      let s := match written with
        | some k => s.tearWrite k
        | none => s
      let s := if s.nv.wt then s.throughAll else s
      { s with pwr := { s.pwr with flushFlag := false } }.powerDown)

/-! Write-through (R480, R481, R564). -/

/-- HOLD becomes weak. -/
def State.enterThrough (s : State) : State :=
  let s := ((s.flushPages.storeCounters.throughAll.nvPut partHeads recGrain).nvPut partSystem recEpoch).nvPut partHeads recWtMark
  { s with keys := { s.keys with epochRec := s.keys.epoch },
           nv := { s.nv with wt := true, wtMark := true, storeDue := [], grainRec := s.now / pound * pound } }

/-- A sample of HOLD (R552, R569). -/
def Power.sample (p : Power) (mv : Nat) : Power :=
  { p with holdMv := mv, holdMin := if p.holdFresh then mv else min p.holdMin mv, holdFresh := false }

/-- HOLD_WEAK: HOLD is below 9.5 V. -/
def execHoldWeak (holdMv : Nat) (s : State) : Host.Outcome State Fault Refusal :=
  .next (if 9500 ≤ holdMv || !s.pwr.starting then s
    else
      let p := s.pwr
      let s := { s with pwr := { p with holdOk := false, holdMin := if p.holdFresh then holdMv else min p.holdMin holdMv,
                                        holdFresh := false } }
      if s.nv.wt || !s.nv.running || s.pwr.flush.isSome then s else s.enterThrough)

/-- WRITE_THROUGH_EXIT: HOLD has stood at 9.8 V or above for 1 pound. -/
def execWriteThroughExit (s : State) : Host.Outcome State Fault Refusal :=
  .next (if !s.pwr.starting then s
    else
      let s := { s with pwr := { s.pwr with holdOk := true } }
      if !s.nv.wt || s.pwr.flush.isSome then s
      else
        let s := s.throughAll.nvPut partHeads recWtMark
        { s with nv := { s.nv with wt := false, wtMark := false } })

/-- HTM_GRAIN is recorded in HEADS once 4,096 pounds have passed (R13). -/
def State.grainRecord (s : State) : State :=
  if !s.sched.running || decide (s.now < s.nv.grainRec + 4096 * pound) then s
  else
    let s := s.nvPut partHeads recGrain
    { s with nv := { s.nv with grainRec := s.now / pound * pound } }

/-- GRAIN_RECORD (R13). -/
def execGrainRecord (s : State) : Host.Outcome State Fault Refusal := .next s.grainRecord

/-! Start-up (R561-R567). -/

/-- A list in pieces of `n`, the last one as long as it is. -/
def chunksAux {α : Type} (n : Nat) : Nat → List α → List (List α)
  | 0, _ => []
  | k + 1, l => if l.isEmpty then [] else l.take n :: chunksAux n k (l.drop n)

def chunks {α : Type} (n : Nat) (l : List α) : List (List α) := chunksAux n l.length l

/-- Bytes of bits, bit 0 of each byte first. -/
def bytesOfBits (l : List Bool) : Bytes :=
  (chunks 8 l).map (fun c => BitVec.ofNat 8 (packBits c))

/-- MAGIC, FORMAT and the zero bytes of the helper data (R375). -/
def helperHeader : Bytes := ascii "SKHD" ++ leBytes 2 1 ++ zeros 2

/-- The root from one reading of the root array (R375): none when a block does not decode, or when the record is no helper data. -/
def rootFrom (helper array : Bytes) : Option Bytes :=
  if bytesAt helper 0 8 != helperHeader then none
  else
  let off := bitsOf (bytesAt helper 8 3570)
  let y := List.zipWith xor (bitsOf (fit 3570 array)) off
  let maj := (chunks 7 y).map (fun c => decide (4 ≤ (c.filter id).length))
  match (chunks 255 maj).mapM bchDecode with
  | none => none
  | some c =>
    let rep := (c.flatten.map (fun b => List.replicate 7 b)).flatten
    some (sha256 (ascii "SKAORA-ROOT" ++ fit 3570 (bytesOfBits (List.zipWith xor off rep))))

/-- What follows the first occurrence of a pattern. -/
def after (p : Bytes) : Bytes → Option Bytes
  | [] => none
  | b :: t => if (b :: t).take p.length == p then some ((b :: t).drop p.length) else after p t

/-- The subject key of a certificate, x then y, little-endian: the P-384 point of its SubjectPublicKeyInfo (R379). -/
def subjectKey (cert : Bytes) : Option Bytes :=
  (after [0x06, 0x05, 0x2B, 0x81, 0x04, 0x00, 0x22, 0x03, 0x62, 0x00, 0x04] cert).map (fun r =>
    (bytesAt r 0 48).reverse ++ (bytesAt r 48 48).reverse)

/-- The public identity key of a root (R377). -/
def identityOf (root : Bytes) : Bytes := pointBytes 48 (p384.mul (identityScalar root) p384.g)

/-- An attempt succeeds (R376): the root. -/
def attemptRoot (helper cert array : Bytes) : Option Bytes :=
  (rootFrom helper array).filter (fun r => subjectKey cert == some (identityOf r))

/-- The readings of the root array, at most three: `array` holds one or several of 4,096 bytes each. -/
def rootReading (array : Bytes) (i : Nat) : Bytes :=
  if 4096 * (i + 1) ≤ array.length then bytesAt array (4096 * i) 4096 else bytesAt array 0 4096

/-- The device keys of a root (R377). -/
def KeyStore.withRoot (k : KeyStore) (root : Bytes) : KeyStore :=
  let q := identityOf root
  { k with root := some root, kSint := deviceKey root "SKAORA-SLOTMAC", kStoreD := deviceKey root "SKAORA-STORE-D",
           kStoreT := deviceKey root "SKAORA-STORE-T", kMask := deviceKey root "SKAORA-MASKSEED",
           dId := leBytes 48 (identityScalar root), qId := q, deviceId := deviceIdOf q }

/-- The keys after reconstruction from the readings of the root array, or HALT (R376). -/
def KeyStore.fromArray (k : KeyStore) (array : Bytes) : KeyStore :=
  match k.helper with
  | none => { k with haltCode := 2, attempts := 0 }
  | some h =>
    match (List.range 3).find? (fun i => (attemptRoot h k.cert (rootReading array i)).isSome) with
    | none => { k with haltCode := 1, attempts := 3 }
    | some i =>
      match attemptRoot h k.cert (rootReading array i) with
      | none => k
      | some root => { k.withRoot root with attempts := i + 1 }

/-- The root array has been read: it is overwritten with zeros and switched off until the next start-up (R374). -/
def KeyStore.rootOff (k : KeyStore) : KeyStore := { k with rootArray := zeros 4096, rootOn := false }

/-- Step 2: the root array is switched on and read before anything is written to it. -/
def KeyStore.reconstruct (k : KeyStore) (array : Bytes) : KeyStore :=
  let on := { k with rootArray := array, rootOn := true }
  (on.fromArray on.rootArray).rootOff

/-- HTM_GRAIN after a start-up (R13). -/
def Nv.resume (n : Nv) : Nat :=
  match n.grainSaved with
  | some g => (g / pound + 1) * pound
  | none => n.grainRec + 4096 * pound

/-- The record of HTM_GRAIN that stands after the start-up: the last multiple of 4,096 pounds (log entry 36). -/
def Nv.lastRecord (n : Nv) : Nat := n.resume / (4096 * pound) * (4096 * pound)

/-- A flush has been lost (R479). -/
def Nv.lost (n : Nv) : Bool := n.running && !n.wtMark

/-- A counter at start-up (R477, R487). -/
def Counter.resume (c : Counter) (lost : Bool) : Counter :=
  match c.stored with
  | none => { c with value := 0 }
  | some v => { c with value := if lost then min counterMax (v + 2 ^ 29) else v }

/-- A slot at start-up (R386): USES resume. -/
def Slot.resume (k : Slot) (saved : Bool) : Slot :=
  let u := if saved then k.usesRec else k.usesRec - 4096
  { k with uses := u, usesRec := u }

/-- A book at start-up (R105): it trusts only what was saved. -/
def Book.resume (b : Book) : Book :=
  let i := b.image
  let i := { i with
    restored := b.st == .fencedGap && b.restored, moved := false, replayed := if b.st == .fencedGap then b.replayed else 0, keysHeld := false, keyMask := [], kEnc := [], kTwk := [], kMac := [], kJrn := [],
    wb := none, hold := none, handover := none, holdExpired := false, wbAccess := false, fullSeen := false,
    wrAccess := false, sealAccess := false, cfgBad := false, cmdErr := 0, frameEnds := [], sealAt := none }
  match b.st with
  | .none_ => { Book.reset with nonce := b.nonce }
  | .released => i
  | .fencedGap => i
  | _ => { i with st := .recovering, target := i.lseq, savedHeads := i.headsIssued }

/-- The books of step 4; a book in DELETING has completed its deletion. -/
def Nv.books (n : Nv) : Table Book :=
  let t := if n.running then n.bookRecs else n.saved
  tmap Book.reset Book.resume (t.filter (fun e => e.2.recorded && e.2.st != .deleting))

/-- Deadlines of the background tasks: one period from the start (R53). -/
def State.startTasks (s : State) : State := (List.range 6).foldl (fun s t => s.setDeadline t (s.now + taskPeriod t)) s

/-- A pending erasure is completed (R408, R509). -/
def State.finishErasure (s : State) : State :=
  if !s.tamper.erasePending && !s.keys.erasePending then s
  else
    let s := s.destroyKeys
    { s with keys := { s.keys with erasing := false, erasePending := false },
             tamper := { s.tamper with erasePending := false } }.recordLife

/-- The scan of step 4: pages that belong to no current copy return to the spares (R470, R479). -/
def Nv.scan (n : Nv) : Nv :=
  (n.pages.filter (fun e => e.2.part != 0 && !(n.copy (recKey e.2.part e.2.lpage)).contains e.1)).foldl
    (fun n e => n.freePage e.1) n

/-- The restore of step 4 and the running mark (R13, R39, R387, R477, R479). -/
def State.restore (s : State) : State :=
  let n := s.nv.scan
  let lost := n.lost
  let k := s.keys
  let slots (t : Table Slot) : Table Slot := tmap Slot.reset (fun x => x.resume (!lost)) t
  let s : State := { s with
    pwr := { s.pwr with flushFlag := false },
    books := n.books, sched := { s.sched with grain := n.resume, running := true, fresh := true },
    keys := { k with compact := slots k.compact, large := slots k.large, epoch := k.epochRec + 1, epochRec := k.epochRec + 1 },
    nv := { n with
      counters := tmap Counter.issued (fun x => x.resume lost) n.counters, flushLost := lost, running := true, saved := [],
      bookRecs := n.books, grainSaved := none, grainRec := n.lastRecord, wtMark := false,
      tagFails := 0 } }.lockReset
  (s.nvPut partSystem recEpoch).nvPut partHeads recSaved

/-- The rest of step 4, once the store is available: the units that start, and write-through while HOLD is weak. -/
def State.startUnits (s : State) : State :=
  let s := { s with
    cl := { s.cl with mode := if s.tamper.state == LcState.blank then ClMode.off else ClMode.tag },
    rng := { s.rng with started := some s.now } }.startTasks
  if s.pwr.holdOk then s else s.enterThrough

/-- Events held until the end of step 4 (R567), and the event of the last flush (R506): the highest level decides. -/
def State.actHeld (s : State) : State :=
  let all := s.tamper.held ++ (match s.tamper.flushEvent with
    | some (l, c, d) => [{ level := l, cause := c, detail := d }]
    | none => [])
  let s := { s with tamper := { s.tamper with held := [], flushEvent := none } }
  let worst := (all.filter (fun h => h.level == 4) ++ all.filter (fun h => h.level != 4)).head?
  match worst with
  | none => s
  | some h =>
    if s.severeActs h.level then
      s.changeState (if h.level = 4 then .spent else .bittern) h.cause h.detail none true
    else s

/-- Step 3: the battery domain (R501, R503): the state with its events, which step 4 acts on. -/
def State.batteryStart (s : State) (vbatLost : Bool) : State :=
  let t := s.tamper
  if vbatLost && t.armRec then
    let s := { s with tamper := { t with
      arm := true, pattern := some (BitVec.ofNat 32 (Config.freeNat s.draws)), latch := Config.freeBool s.draws,
      latchLoop := Config.freeBool (s.draws + 1), latchMesh := Config.freeBool (s.draws + 2) }, draws := s.draws + 3 }
    s.severe 3 { source := 0x0C, cause := 0x08, unit := unitBattery, loc := 0, slice := 0xFFFF, detail := 1, num := 0 }
  else if vbatLost then
    { s with tamper := { t with arm := false, pattern := none, latch := false, latchLoop := false, latchMesh := false } }
  else if t.latch then
    let b := latchBits t.latchLoop t.latchMesh
    s.severe 4 { source := 0x0B, cause := 0x14, unit := unitBattery, loc := 0, slice := 0xFFFF, detail := b, num := b }
  else s

/-- A lost flush is a level-3 event in SEALED and logged elsewhere (R479). -/
def State.lostFlush (s : State) : State :=
  let e : TamperEvent := { source := 0x15, cause := 0x07, unit := 17, loc := 0, slice := 0xFFFF, detail := 0, num := 0 }
  if !s.nv.flushLost then s
  else if s.tamper.state == .sealed_ then s.severe 3 e
  else s.tlogTamper 3 0 e

/-- Main power is present and PERST_N deasserted: step 0. -/
def State.powerUp (s : State) (holdMv : Nat) : State :=
  { s with pwr := { (s.pwr.sample holdMv) with
    mainOk := true, pwrFail := false, perst := false, starting := true, flushed := s.pwr.flushFlag,
    holdOk := decide (9500 ≤ holdMv), startGrains := 0xFFFFFF } }

/-- Steps 3 and 4. -/
def State.stepFour (s : State) (vbatLost : Bool) : State :=
  let s := s.finishErasure.restore
  let s := { s with pwr := { s.pwr with step := 4 } }
  let s := s.startUnits.actHeld
  (s.batteryStart vbatLost).lostFlush

/-- SPENT: no keys, no restore (R523, R564); HTM_GRAIN goes on (log entry 36). -/
def State.startSpent (s : State) : State :=
  let s := s.finishErasure
  { s with
    sched := { s.sched with grain := s.nv.resume, running := true, fresh := true },
    nv := { s.nv with running := false, grainSaved := none, grainRec := s.nv.lastRecord, wtMark := false },
    tamper := { s.tamper with held := [], flushEvent := none },
    cl := { s.cl with mode := .tag }, pwr := { s.pwr with step := 4 } }

/-- HALT: only a level-4 event acts (R567). -/
def State.startHalted (s : State) : State :=
  let worst := s.tamper.held.find? (fun h => h.level == 4)
  let s := { s with tamper := { s.tamper with held := [] }, pwr := { s.pwr with step := 2 }, cl := { s.cl with mode := .off } }
  match worst with
  | none => s
  | some h => s.changeState .spent h.cause h.detail none true

/-- START_UP: `array` holds the readings of the root array, `holdMv` HOLD in mV; `vbatLost` tells that the battery domain
has lost its liveness pattern. -/
def State.startUp (s : State) (array : Bytes) (holdMv : Nat) (vbatLost : Bool) : State :=
  if s.pwr.starting || s.pwr.flush.isSome then s
  else
    let s := (s.flushPages).powerUp holdMv
    if s.tamper.state == .spent then s.startSpent
    else
      let k := if s.tamper.state == .blank then s.keys else s.keys.reconstruct array
      let s := { s with keys := k }
      if s.halted then s.startHalted else s.stepFour vbatLost

/-- START_UP. -/
def execStartUp (array : Bytes) (holdMv : Nat) (vbatLost : Bool) (s : State) : Host.Outcome State Fault Refusal :=
  .next (s.startUp array holdMv vbatLost)

/-- A start-up step is completed: STEP shows the highest. -/
def State.stepDone (s : State) (n : Nat) : State := { s with pwr := { s.pwr with step := max s.pwr.step n } }

/-- LINK_TRAINING_START (R562). -/
def execLinkTrainingStart (s : State) : Host.Outcome State Fault Refusal :=
  .next (if s.pwr.starting && s.pwr.flush.isNone then { s with link := { s.link with training := true } } else s)

/-- LINK_UP: the link enters L0, step 7. -/
def execLinkUp (s : State) : Host.Outcome State Fault Refusal :=
  .next (if s.link.training && s.pwr.starting && s.pwr.flush.isNone then
    { s with link := { s.link with up := true } }.stepDone 7
  else s)

/-- CONFIGURATION_READY: step 8. -/
def execConfigurationReady (s : State) : Host.Outcome State Fault Refusal :=
  .next (if s.pwr.starting && s.pwr.flush.isNone then s.stepDone 8 else s)

/-! The key sweep (R385, R388, R389). -/

/-- The sweep loads the slot: it is occupied, not bad and not expired. -/
def State.sweeps (s : State) (k : Slot) : Bool := k.occupied && !k.bad && !s.slotExpired k

/-- One slot of the sweep: its records and its MAC are checked, its material loaded under a mask. -/
def State.sweepSlot (s : State) (target index : Nat) (r : Bytes) : State :=
  let k := s.slotAt target index
  if s.storedOk target index k then
    let m := s.keys.unseal target index k.stored
    s.setSlot target index { k with masked := xorBytes m (r.take m.length), mask := r.take m.length }
  else s.badSlot target index

/-- What the sweep has before it: TARGET and INDEX of the slots it loads, and as TARGET 3 the books (R385, R391). -/
def State.sweepItems (s : State) : List (Nat × Nat) :=
  (s.keys.compact.filter (fun e => s.sweeps e.2)).map (fun e => (0, e.1)) ++
    (s.keys.large.filter (fun e => s.sweeps e.2)).map (fun e => (1, e.1)) ++
    (s.books.filter (fun e => e.2.st != .none_)).map (fun e => (3, e.1))

/-- Bytes of mask of an item. -/
def sweepBytes (target : Nat) : Nat := if target = 3 then bookMask else slotBytes target

/-- Bytes of mask that the sweep needs. -/
def State.sweepNeed (s : State) : Nat := (s.sweepItems.map (fun e => sweepBytes e.1)).foldl (· + ·) 0

/-- One item of the sweep: a book whose master cannot serve stays without its keys (R385). -/
def State.sweepItem (s : State) (target index : Nat) (r : Bytes) : State :=
  if target = 3 then (if s.masterOk (s.bookAt index).keySlot index then s.deriveBook index r else s)
  else s.sweepSlot target index r

/-- Every item, with the mask that a function gives for its place among the bytes, TARGET and INDEX. -/
def State.sweepAll (mask : Nat → Nat → Nat → Bytes) : List (Nat × Nat) → Nat → State → State
  | [], _, s => s
  | (t, i) :: rest, o, s => State.sweepAll mask rest (o + sweepBytes t) (s.sweepItem t i (mask o t i))

/-- The key sweep (R385): step 6. -/
def State.sweep (s : State) (mask : Nat → Nat → Nat → Bytes) : State :=
  let s := (State.sweepAll mask s.sweepItems 0 s).dropRandom .sweep
  { s with keys := { s.keys with swept := true } }.stepDone 6

/-- The sweep may run: behind step 4, once. -/
def State.sweepDue (s : State) : Bool :=
  s.pwr.starting && s.pwr.flush.isNone && !s.halted && !s.keys.swept && s.tamper.state != .spent && decide (4 ≤ s.pwr.step)

/-- KEY_SWEEP: the masks are drawn at priority 2 (R458); with them the sweep runs. -/
def execKeySweep (s : State) : Host.Outcome State Fault Refusal :=
  .next (if !s.sweepDue then s
    else if s.sweepItems.isEmpty then s.sweep (fun _ _ _ => [])
    else
      match s.gotRandom .sweep with
      | none => s.askRandom .sweep 2 0 s.sweepNeed
      | some r => s.sweep (fun o t _ => bytesAt r o (sweepBytes t)))

/-- The fallback mask (R389); book keys take theirs as TARGET 3 (log entry 79). -/
def State.fallbackMask (s : State) (target index n : Nat) : Bytes :=
  aesCtr s.keys.kMask (leBytes 8 s.now ++ leBytes 1 target ++ leBytes 2 index ++ zeros 5) (zeros n)

/-- The sweep has had no random output for 16 pounds, since its request or, before one, since the unit started (R389). -/
def State.sweepLate (s : State) : Bool :=
  match s.rng.waiters.find? (fun x => x.use == .sweep), s.rng.started with
  | some x, _ => decide (0 < x.left) && decide (x.since + 16 * pound ≤ s.now)
  | none, some g => decide (g + 16 * pound ≤ s.now)
  | none, none => false

/-- KEY_SWEEP_FALLBACK_MASK (R389): the event is logged, with a free DETAIL (log entry 79). -/
def execKeySweepFallbackMask (s : State) : Host.Outcome State Fault Refusal :=
  .next (if s.sweepDue && s.sweepLate then
    let s := s.sweep (fun _ t i => s.fallbackMask t i (sweepBytes t))
    let s := { s with keys := { s.keys with weakMask := true } }
    (s.plogEvent 10 0x0D 0 0xFFFF 0xFFFF (Config.freeNat s.draws)).drawn
  else s)

/-- RINGS_SERVICEABLE: step 9, behind steps 6 and 8. PWR_START holds the measured time: a free value (log entry 36). -/
def execRingsServiceable (s : State) : Host.Outcome State Fault Refusal :=
  .next (if s.pwr.step == 8 && s.pwr.flush.isNone && !s.halted && (s.keys.swept || s.tamper.state == .spent) then
    { s with pwr := { s.pwr with step := 9, startGrains := Config.freeNat s.draws % 0xFFFFFF } }.drawn
  else s)

/-! Resets of the host interface (R277, R560). -/

/-- A PCI Express reset of configuration space; a function-level reset keeps the link and Max_Payload_Size, and no reset
clears AER status (log entry 12). -/
def Link.hostReset (l : Link) (cause : Nat) : Link :=
  { Link.reset with up := cause == 2 && l.up, training := cause == 2 && l.training, aer := l.aer,
                    mps := if cause == 2 then l.mps else Link.reset.mps, resetting := true }

/-- Slices and scheduler counters (R69, R277). -/
def Slice.hostReset (x : Slice) : Slice :=
  { x with lateToken := 0, lateSize := 0, lateResid := 0, lateHold := 0, lateRedo := 0, lateReset := 0, tokForce := 0, tokLeft := 0 }

/-- Resident material of a VOLATILE key is cleared at the next epoch (R387). -/
def Slot.nextEpoch (k : Slot) : Slot := if k.attr.getLsbD attrVolatile then { k with masked := [], mask := [] } else k

/-- A reset of R277 leaves the register whose write waits for the boundary (log entry 61). -/
def Deferred.outlives (d : Deferred) : Bool :=
  match d with
  | .unfence _ => false | .bind _ _ _ => false | .mod_ _ _ _ => false | .mpu _ _ => false
  | _ => true

/-- The registers that a reset of R277 sets or clears (R69, R186, R243, R273, R319, R372, R437, R463, R496, R525, R548,
R569, R590). -/
def State.resetRegs (s : State) (cause : Nat) : State :=
  { s with
    sq := [], cq := [], msix := [], link := s.link.hostReset cause,
    slices := tmap Slice.reset Slice.hostReset s.slices,
    hregs := { s.hregs with ringSel := 0, ringKind := false, winCap := none, deferred := s.hregs.deferred.filter Deferred.outlives },
    mpus := List.replicate 32 Mpu.fw ++ List.replicate 12 Mpu.dma ++ [Mpu.fw],
    sched := { s.sched with tokenOver := false, bgMiss := false, atRisk := [], missed := [], esc := [], sel := 0, rot := [] },
    pan := { s.pan with reloadFail := false, nodeLoss := false, redoFail := false, faultBook := 0, reloads := 0, redos := 0,
                        fences := 0 },
    brine := { s.brine with peak := 0, commits := 0, refused := 0, reexec := 0, held := 0 },
    applets := { s.applets with invokes := 0, traps := 0 },
    crypto := { s.crypto.unsave with bnJobs := 0, bnYields := 0, bnMismatch := 0, bnFaults := 0, cmpGlitch := 0 },
    nv := { s.nv with flushLost := false, corrected := 0, uncorr := 0, torn := 0 },
    tamper := { s.tamper with l1 := 0, l2 := 0, stage := none, challenges := [] },
    cl := { s.cl with frameErr := 0, falseDet := 0, tagSess := 0, tagNak := 0 },
    pwr := { s.pwr with flushed := false, holdMin := 0, holdFresh := true, resetCause := cause },
    tel := { s.tel with errCorr := [], errUncorr := [] } }

/-- A new reset epoch (R387, R401); in write-through it is recorded at once (R477, R480). -/
def State.nextEpoch (s : State) : State :=
  let k := s.keys
  let e := k.epoch + 1
  let slots (t : Table Slot) : Table Slot := tmap Slot.reset Slot.nextEpoch t
  let s := { s with keys := { k with epoch := e, epochRec := if s.nv.wt then e else k.epochRec, compact := slots k.compact,
                                     large := slots k.large } }
  if s.nv.wt then s.nvPut partSystem recEpoch else s

/-- A function-level reset (cause 2), hot reset (3) or link-down reset (4). -/
def State.hostReset (s : State) (cause : Nat) : State :=
  if !s.pwr.starting then s
  else if s.pwr.flush.isSome then (if cause == 4 then { s with link := { s.link with up := false } }.endDrain else s)
  else
    let s := if s.linkOpen then (List.range 12).foldl (fun s i => s.drainAll (32 + i)) s else s
    let live := (s.slices.filter (fun e => e.2.live_)).map Prod.fst
    let s := live.foldl (fun s n => s.startReset n false) s
    ((s.resetRegs cause).rngReset.lockReset).nextEpoch

/-- FUNCTION_LEVEL_RESET. -/
def execFunctionLevelReset (s : State) : Host.Outcome State Fault Refusal := .next (s.hostReset 2)

/-- HOT_RESET. -/
def execHotReset (s : State) : Host.Outcome State Fault Refusal := .next (s.hostReset 3)

/-- LINK_DOWN_RESET. -/
def execLinkDownReset (s : State) : Host.Outcome State Fault Refusal := .next (s.hostReset 4)

/-- FUNCTION_LEVEL_RESET_COMPLETE: requests are served again. -/
def execFunctionLevelResetComplete (s : State) : Host.Outcome State Fault Refusal :=
  .next { s with link := { s.link with resetting := false } }

end Sys2Proof.Machine
end

