-- ==== Sys2Proof/Machine/Windows.lean ====
section
/-! DEFINITION. Windows and master MPUs as host software programs them (R306-R325). -/

namespace Sys2Proof.Machine
open Sys2Proof

/-! Windows. -/

/-- Two windows have a page in common. -/
def Window.overlaps (a b : Window) : Bool := decide (max a.base b.base ≤ min a.limit b.limit)

/-- Two entries of a list meet a relation, the earlier one first. -/
def anyPair {α : Type} (p : α → α → Bool) : List α → Bool
  | [] => false
  | a :: t => t.any (p a) || anyPair p t

/-- ERR of a barrier, 0 on success (R310). -/
def Slice.stagedErr (x : Slice) : Nat :=
  let ws := (x.staged.map Prod.snd).filter Window.en
  (firstFail [(ws.all (fun w => decide (w.base ≤ w.limit)), 1), (!anyPair Window.overlaps ws, 2)]).getD 0

/-- ERR of a barrier is set and logged. -/
def State.barrierErr (s : State) (slice err : Nat) : State :=
  (s.modSlice slice (fun x => { x with winErr := err })).plogReg unitPcie err slice 0x030020

/-- The barrier of a slice at the grain boundary after its GO: steps 1 to 3 of R310. -/
def State.barrier (s : State) (slice : Nat) : State :=
  let x := s.sliceAt slice
  if x.winBusy then s.barrierErr slice 3
  else
    let err := x.stagedErr
    if err != 0 then s.barrierErr slice err
    else s.setSlice slice { x with live := x.staged, winErr := 0, winBusy := true, winEpoch := x.winEpoch + 1 }

/-- A write of WINDOW_BARRIER. -/
def State.barrierWrite (s : State) (value : Nat) : State :=
  let slice := bits value 9 0
  let s := { s with hregs := { s.hregs with barrierSlice := slice } }
  if !bit value 16 then s
  else if (s.sliceAt slice).winBusy then s.barrierErr slice 3
  else (s.modSlice slice (fun x => { x with winErr := 0 })).defer (.barrier slice)

/-- WINDOW_BARRIER. -/
def execWindowBarrier (value : Nat) (s : State) : Host.Outcome State Fault Refusal :=
  .next (s.onReg 0x030020 (fun s => s.barrierWrite value))

/-- BUSY returns to 0 once the old accesses have retired (R310 step 5). -/
def State.barrierEnd (s : State) (slice : Nat) : State :=
  if (s.sliceAt slice).winBusy && s.oldAccessesRetired slice then
    s.modSlice slice (fun x => { x with winBusy := false })
  else s

/-- WINDOW_BARRIER_END. -/
def execWindowBarrierEnd (slice : Nat) (s : State) : Host.Outcome State Fault Refusal := .next (s.barrierEnd slice)

/-- The staged window that WIN_SEL selects. -/
def State.stagedSel (s : State) : Window := tget Window.reset (s.sliceAt s.hregs.winSlice).staged s.hregs.winIndex

/-- Change the staged window that WIN_SEL selects. -/
def State.modStaged (s : State) (f : Window → Window) : State :=
  s.modSlice s.hregs.winSlice (fun x =>
    { x with staged := tput Window.reset x.staged s.hregs.winIndex (f (tget Window.reset x.staged s.hregs.winIndex)) })

/-! MPUs. -/

/-- The selected MPU is programmed by firmware (R313). -/
def mpuFirmware (m : Nat) : Bool := decide (m < 32) || m == 44

/-- ERR of a write to an MPU, logged when it is refused. -/
def State.mpuErr (s : State) (m err offset : Nat) : State :=
  let s := s.modMpu m (fun x => { x with err := err })
  if err = 0 then s else s.plogReg unitDma err 0xFFFF offset

/-- Two regions have an address in common. -/
def Region.overlaps (a b : Region) : Bool := decide (max a.start b.start ≤ min a.stop b.stop)

/-- ERR of an enable, 0 on success (R316). -/
def Mpu.enableErr (m : Mpu) : Nat :=
  let rs := (m.regions.map Prod.snd).filter Region.en
  (firstFail [(!anyPair Region.overlaps rs, 2), (rs.all (fun r => decide (r.start ≤ r.stop)), 3)]).getD 0

/-- Offset of MPU_CTL. -/
def offMpuCtl : Nat := 0x03011C

/-- The MPU becomes disabled: the writes in its buffer leave under the old regions (R316). -/
def State.mpuOff (s : State) (m : Nat) : State :=
  let s := if s.linkOpen then s.drainAll m else s
  (s.modMpu m (fun x => { x with en := false })).mpuErr m 0 offMpuCtl

/-- A change of EN at the grain boundary after its write (R316). -/
def State.mpuEn (s : State) (m : Nat) (en : Bool) : State :=
  let x := s.mpuAt m
  match x.en, en with
  | true, false => s.mpuOff m
  | false, true =>
    let err := x.enableErr
    let s := if err = 0 then s.setMpu m { x with en := true, bufwLive := x.bufw } else s
    s.mpuErr m err offMpuCtl
  | _, _ => s.mpuErr m 0 offMpuCtl

/-- A write of MPU_CTL to the selected MPU (R316, R318). -/
def State.mpuCtl (s : State) (value : Nat) : State :=
  let m := s.hregs.mpuSel
  if 44 < m then s
  else if mpuFirmware m then s.mpuErr m 5 offMpuCtl
  else
    let s := s.modMpu m (fun x => { x with bufw := bit value 1 })
    if (s.mpuAt m).en && !bit value 0 && (m == 36 || m == 37) && s.cq.any (fun e => e.2.enabled) then s.mpuErr m 4 offMpuCtl
    else s.defer (.mpu m (bit value 0))

/-- MPU_DISABLE: a write of MPU_CTL with EN 0. -/
def execMpuDisable (value : Nat) (s : State) : Host.Outcome State Fault Refusal :=
  .next (if bit value 0 then s else s.onReg offMpuCtl (fun s => s.mpuCtl value))

/-- MPU_ENABLE: a write of MPU_CTL with EN 1. -/
def execMpuEnable (value : Nat) (s : State) : Host.Outcome State Fault Refusal :=
  .next (if bit value 0 then s.onReg offMpuCtl (fun s => s.mpuCtl value) else s)

/-- Offset of a region register. -/
def mpuRegOffset (r : MpuReg) : Nat :=
  match r with
  | .start => 0x030108 | .stop => 0x030110 | .attr => 0x030118

/-- A region with one register written. -/
def Region.write (x : Region) (r : MpuReg) (value : Nat) : Region :=
  match r with
  | .start => { x with start := bits value 63 3 }
  | .stop => { x with stop := bits value 63 3 }
  | .attr =>
    { x with en := bit value 0, r := bit value 1, w := bit value 2, ns := bit value 3, ro := bit value 4,
             ido := bit value 5 }

/-- A region register write to the selected MPU and region (R313, R316). -/
def State.mpuRegion (s : State) (r : MpuReg) (value : Nat) : State :=
  let m := s.hregs.mpuSel
  let k := s.hregs.mpuRegion
  if 44 < m then s
  else if mpuFirmware m then s.mpuErr m 5 (mpuRegOffset r)
  else if (s.mpuAt m).en then s.mpuErr m 1 (mpuRegOffset r)
  else
    (s.modMpu m (fun x => { x with regions := tput Region.reset x.regions k ((x.region k).write r value) })).mpuErr m 0
      (mpuRegOffset r)

/-- MPU_REGION_WRITE. -/
def execMpuRegionWrite (reg : MpuReg) (value : Nat) (s : State) : Host.Outcome State Fault Refusal :=
  .next (s.onReg (mpuRegOffset reg) (fun s => s.mpuRegion reg value))

/-- MPU_WRITE_BUFFER_DRAIN (R321). -/
def execMpuWriteBufferDrain (mpu : Nat) (s : State) : Host.Outcome State Fault Refusal :=
  .next (if s.linkOpen then s.drainOne mpu else s)

/-- A write of MPU_CAP_INFO to the selected MPU: it frees the capture; firmware's MPUs take no write (R313, R322). -/
def State.mpuCapFree (s : State) (value : Nat) : State :=
  let m := s.hregs.mpuSel
  if 44 < m then s
  else if mpuFirmware m then s.mpuErr m 5 0x030128
  else if bit value 0 then s.modMpu m (fun x => { x with cap := none })
  else s

/-- IDLE (R316): disabled, and no access checked under the old regions remains; a read that ended with an error completion
has retired (R310 step 4), and its retry has a check point of its own (R306). -/
def State.mpuIdle (s : State) (m : Nat) : Bool :=
  let x := s.mpuAt m
  !x.en && x.wbuf.isEmpty && s.reads.all (fun r => r.master != m || r.failedAt.isSome)

end Sys2Proof.Machine
end

