-- ==== Sys2Proof/Machine/Settle.lean ====
section
/-! DEFINITION. Register writes that take effect at the grain boundary after them (R219, R237, R272, R282, R286, R301, R310,
R316, R488, R490). -/

namespace Sys2Proof.Machine
open Sys2Proof

/-- One register write takes effect. -/
def State.settleOne (s : State) (d : Deferred) : State :=
  match d with
  | .slice n cmd => s.sliceCtl n cmd
  | .quota n r v => s.quotaWrite n r v
  | .dplOff n => s.modSlice n (fun x => if x.dplEn then x else { x with dplOn := false, dplHeld := [] })
  | .unfence ring => s.unfence ring
  | .bind ring v noint => s.modSq ring (fun q => { q with vector := v, noint := noint })
  | .mod_ ring n t => s.modSq ring (fun q => { q with modCount := n, modTime := t })
  | .barrier n => s.barrier n
  | .mpu m en => s.mpuEn m en
  | .jrnl b wait reserve => s.modBook b (fun x => { x with fullWait := wait, adjReserve := reserve })
  | .owner c n => s.ownerWrite c n
  | .part p n => s.partSlice p n
  | .install i => s.install i

/-- The register writes of the grain that ends take effect, in the order in which they were made. -/
def State.settle (s : State) : State :=
  s.hregs.deferred.foldl State.settleOne { s with hregs := { s.hregs with deferred := [] } }

end Sys2Proof.Machine
end

