-- ==== Sys2Proof/Machine/Grain.lean ====
section
/-! DEFINITION. The grain boundary: logs, calendar, hand-back of the Alaing cores, the steps of the units (R43-R68,
R574-R579); the scruple boundary: tokens, risk (R54, R57). -/

namespace Sys2Proof.Machine
open Sys2Proof

/-! Logs (R574, R575, R577, R579). -/

/-- Place of an event in its grain: unit, then ring. -/
def PEvent.before (a b : PEvent) : Bool := decide (a.unit < b.unit) || (a.unit == b.unit && decide (a.ring ≤ b.ring))

/-- Place of an event in its grain: level, highest first, then unit, then WHERE. -/
def TEvent.before (a b : TEvent) : Bool :=
  decide (b.level < a.level) ||
    (a.level == b.level && (decide (a.unit < b.unit) || (a.unit == b.unit && decide (a.loc ≤ b.loc))))

/-- A ring field: a service call names no submission ring (R575). -/
def ringField (ring : Nat) : Nat := if 65536 ≤ ring then 0xFFFF else ring

/-- The entry of R575. -/
def PEvent.entry (e : PEvent) (seq : Nat) : Bytes :=
  leBytes 4 seq ++ leBytes 1 e.event ++ leBytes 1 e.check ++ leBytes 1 e.status ++ [0] ++ leBytes 8 e.grain ++
    leBytes 2 e.slice ++ leBytes 2 (ringField e.ring) ++ leBytes 4 e.tag ++ leBytes 2 e.opcode ++ leBytes 2 e.slot ++
    leBytes 4 e.detail

/-- The entry of R579. -/
def TEvent.entry (e : TEvent) (seq : Nat) : Bytes :=
  leBytes 4 seq ++ leBytes 1 e.level ++ leBytes 1 e.source ++ leBytes 1 e.action ++ [0] ++ leBytes 8 e.grain ++
    leBytes 2 e.loc ++ leBytes 2 e.slice ++ leBytes 8 e.detail ++ zeros 4

/-- The next SEQ: 0 is skipped (R577). -/
def nextSeq (n : Nat) : Nat := if n + 1 = 2 ^ 32 then 1 else n + 1

/-- A SEQ comes after ACK (R577). -/
def afterAck (seq ack : Nat) : Bool :=
  let d := (seq + 2 ^ 32 - ack) % 2 ^ 32
  decide (1 ≤ d) && decide (d < 2 ^ 31)

/-- An entry that is overwritten counts as lost while host software has not consumed it. -/
def lostBy (old : Bytes) (ack : Nat) : Nat :=
  if fieldAt old 0 4 = 0 then 0 else flag (afterAck (fieldAt old 0 4) ack)

/-- Entries of a log in one grain (R574). -/
def logPerGrain : Nat := 4

/-- One event enters the protocol log. -/
def Logs.enterP (l : Logs) (e : PEvent) : Logs :=
  let old := tget [] l.plog l.plogWrite
  { l with plog := tins l.plogWrite (e.entry l.plogSeq) (tdel l.plog l.plogWrite), plogWrite := (l.plogWrite + 1) % 256,
           plogWrap := l.plogWrap || !old.isEmpty, plogSeq := nextSeq l.plogSeq,
           plogLost := satAdd 0xFFFFFFFF l.plogLost (lostBy old l.plogAck) }

/-- One event enters the tamper log. -/
def Logs.enterT (l : Logs) (e : TEvent) : Logs :=
  let old := tget [] l.tlog l.tlogWrite
  { l with tlog := tins l.tlogWrite (e.entry l.tlogSeq) (tdel l.tlog l.tlogWrite), tlogWrite := (l.tlogWrite + 1) % 64,
           tlogWrap := l.tlogWrap || !old.isEmpty, tlogSeq := nextSeq l.tlogSeq,
           tlogLost := satAdd 0xFFFFFFFF l.tlogLost (lostBy old l.tlogAck) }

/-- An event beyond the fourth of its grain takes a SEQ and is lost. -/
def Logs.loseP (l : Logs) : Logs := { l with plogSeq := nextSeq l.plogSeq, plogLost := satAdd 0xFFFFFFFF l.plogLost 1 }
def Logs.loseT (l : Logs) : Logs := { l with tlogSeq := nextSeq l.tlogSeq, tlogLost := satAdd 0xFFFFFFFF l.tlogLost 1 }

/-- The events of the grain that ends, in the order of R574. -/
def Logs.close (l : Logs) : Logs :=
  let ps := sortBy PEvent.before l.ppend
  let ts := sortBy TEvent.before l.tpend
  let l := (ps.take logPerGrain).foldl Logs.enterP { l with ppend := [], tpend := [] }
  let l := (ps.drop logPerGrain).foldl (fun l _ => l.loseP) l
  let l := (ts.take logPerGrain).foldl Logs.enterT l
  (ts.drop logPerGrain).foldl (fun l _ => l.loseT) l

/-! The scruple calendar (R47-R51). -/

/-- The class after a class of the general rotation. -/
def classAfter (c : Nat) : Nat := c % 3 + 1

/-- The general rotation from its pointer, then background (R49). -/
def rotation (pointer : Nat) : List Nat :=
  [pointer, classAfter pointer, classAfter (classAfter pointer), background]

/-- The order of service of a slot (R48). -/
def serviceOrder (slot pointer : Nat) (escalated : Bool) : List Nat :=
  if slot < 16 then 0 :: rotation pointer
  else
    match slot with
    | 16 => [1, 2, 3, background]
    | 17 => [2, 3, 1, background]
    | 18 => if escalated then [background, 3, 1, 2] else [3, 1, 2, background]
    | _ => background :: rotation pointer

/-- The pointer after a class has been served in a slot: slots 16 to 18 do not move it (R49). -/
def pointerAfter (slot pointer cls : Nat) : Nat :=
  if (slot < 16 || slot == 19) && 1 ≤ cls && cls ≤ 3 then classAfter cls else pointer

/-- Work of a class is under way on the management core. -/
def State.classActive (s : State) (c : Nat) : Bool :=
  s.work.any (fun w => unitOf w.opcode == unitMgmt && classOf w.opcode == c && !w.isDone && !w.isHeld)

/-- A prime operation stands in the lane, in its stage 1 or its stage 2 (R30, R52). -/
def State.laneBusy (s : State) (lane : Nat) : Bool :=
  s.work.any (fun w => w.isPrime && w.activeAt 1 && w.lane == lane &&
    (match w.admitted with | some g => decide (s.now ≤ g + 1 + w.extra) | none => false))

/-- A slice holds more lines than its lowered Pan quota (R286). -/
def State.overQuota (s : State) (e : Nat × Slice) : Bool := decide (e.2.panQuota < s.linesHeld e.1)

/-- The class of the jobs of a DMA engine (R25): streams on the last two, the ledger and the rings on the others. -/
def dmaClass (engine : Nat) : Nat := if 10 ≤ engine then 2 else 1

/-- Records to be folded, the engines 0 on taking one each. -/
def State.foldsDue (s : State) : Nat := (s.books.map (fun e => (e.2.staged.filter (fun r => !r.folded)).length)).sum

/-- A class has a step ready on a unit. -/
def State.pendingOn (s : State) (u : UnitId) (c : Nat) : Bool :=
  match u with
  | .prime l => (c == 0 && s.laneBusy l) || (c == background && s.now % scruple == 19 && !s.laneBusy l)
  | .posting l => c == 1 && !(s.entriesIn (· == l)).isEmpty
  | .journal => c == 1 && s.framesLeft
  | .digest e => (c == 1 && decide (e < s.foldsDue)) || (c == 2 && (s.readyStream true e).isSome)
  | .aes l => c == 2 && (s.readyStream false l).isSome
  | .bignum e => c == 3 && (s.bnAt e).running.isSome
  | .alaing k => c == 2 && (s.coreAt k).executes
  | .dma e =>
    (c == dmaClass e && (s.reads.any (fun r => r.master == 32 + e && r.failedAt.isNone) || !(s.mpuAt (32 + e)).wbuf.isEmpty)) ||
      (c == background && (e == 8 || e == 9) && s.pan.blocks.any (fun b => b.dirty && b.book % 2 == e % 2))
  | .nv => (c == 1 && s.nv.wt && s.framesLeft) || (c == 2 && (s.pageDue || !s.readSlices.isEmpty)) || c == background
  | .random =>
    (c == 3 && s.rng.waiters.any (fun x => x.prio == 1)) || (c == 2 && s.rng.waiters.any (fun x => decide (3 < x.prio))) ||
      (c == background && (s.reseedWaits || s.remaskWaits))
  | .mgmt => (c == 1 || c == 2) && s.classActive c
  | .keyStore => c == background && !s.remaskItems.isEmpty
  | .pan => (c == 1 && !s.pan.loads.isEmpty) || (c == background && s.pan.blocks.any PanBlock.dirty)
  | .mover =>
    (c == 1 && !s.pan.loads.isEmpty) ||
      (c == background && (s.pan.blocks.any PanBlock.dirty || s.pan.nodes.any PanNode.dirty || s.slices.any s.overQuota))
  | .tamper => c == background
  | .telemetry => c == background

/-- The units that keep the calendar. -/
def calendarUnits : List UnitId :=
  (List.range 8).map UnitId.prime ++ (List.range 16).map UnitId.posting ++ [.journal] ++
    (List.range digestEngines).map UnitId.digest ++ (List.range aesLanes).map UnitId.aes ++
    (List.range bnEngines).map UnitId.bignum ++ (List.range 32).map UnitId.alaing ++ (List.range 12).map UnitId.dma ++
    [.nv, .random, .mgmt, .keyStore, .pan, .mover, .tamper, .telemetry]

/-- The rotation pointer of a unit. -/
def Sched.pointer (x : Sched) (u : UnitId) : Nat := ((x.rot.find? (fun e => e.1 == u)).map Prod.snd).getD 1

/-- The class that a unit serves in the grain that begins. -/
def State.serves (s : State) (u : UnitId) : Option Nat :=
  (serviceOrder (s.now % scruple) (s.sched.pointer u) (s.sched.esc.contains u)).find? (fun c => s.pendingOn u c)

/-- A slot-19 self-check of a lane that no operation holds (R52). -/
def Sched.laneChecked (x : Sched) (u : UnitId) (c : Nat) : Sched :=
  match u with
  | .prime l => if c == background then { x with laneChecks := tput 0 x.laneChecks l (tget 0 x.laneChecks l + 1) } else x
  | _ => x

/-- One unit chooses its next step. One that takes a squashed step again has chosen it before (R38). -/
def State.serveUnit (s : State) (u : UnitId) : State :=
  if s.sched.taken.contains u then s
  else
    match s.serves u with
    | none => s
    | some c =>
      let p := pointerAfter (s.now % scruple) (s.sched.pointer u) c
      let rot := s.sched.rot.filter (fun e => e.1 != u)
      let x := { s.sched with rot := if p == 1 then rot else (u, p) :: rot, served := (u, c) :: s.sched.served }
      { s with sched := x.laneChecked u c }

/-- Every unit chooses its next step; the units whose step was squashed take that one again. -/
def State.calendar (s : State) : State :=
  let again := s.sched.served.filter (fun e => s.sched.skip.contains e.1)
  calendarUnits.foldl State.serveUnit { s with sched := { s.sched with served := again, taken := s.sched.skip, skip := [] } }

/-! The Alaing cores (R68, R330, R345, R365). -/

/-- The instruction word at the PC; 0 when its word is uncorrectable (R345). -/
def Core.nextWord (c : Core) : Word :=
  if c.bad.contains (c.pc.toNat / 16) then 0 else BitVec.ofNat 32 (leNat (memRead c.code c.pc.toNat 4))

/-- The scrub of slot 19 finds an uncorrectable word (R333). -/
def State.scrubCore (s : State) (core : Nat) : State :=
  let c := s.coreAt core
  match c.bad with
  | [] => s
  | k :: t => s.trapEnd core .memory 3 c.pc c.nextWord (BitVec.ofNat 32 (16 * t.foldl min k))

/-- The grain that ends is charged, a slot-19 stall not. -/
def Core.charge (c : Core) (slot : Nat) : Core :=
  if c.executes && slot != 20 then { c with inv := c.inv.map (fun v => { v with charged := v.charged + 1 }) } else c

/-- How the core goes on in a slot: it stalls in slot 19, else it runs its first or its next instruction. -/
def Core.enter (c : Core) (slot : Nat) : Core :=
  match c.mode with
  | .running => { c with mode := if slot == 19 then CoreMode.stalled else CoreMode.running }
  | .ready => { c with mode := if slot == 19 then CoreMode.ready else CoreMode.running }
  | .resume => { c with mode := if slot == 19 then CoreMode.stalled else CoreMode.running }
  | .stalled => { c with mode := .running }
  | _ => c

/-- A core at a boundary: squash, slice reset, trap, charge, stall, in the order of R68. `ended` is the slot of the grain
that ends. -/
def State.coreBoundary (s : State) (ended core : Nat) : State :=
  let c := s.coreAt core
  match c.inv with
  | none => s
  | some v =>
    let c := if c.squash then { c with squash := false, trapped := none } else c
    let s := s.setCore core c
    if s.sliceGone v then s.dropInvocation core v
    else if c.trapped.isSome then s.deliverTrap core
    else
      let slot := s.now % scruple
      let d := { (c.charge (if ended == 19 then 20 else ended)).enter slot with cycle := 0 }
      let first := c.mode == .ready && d.mode == .running
      let s := s.setCore core d
      let s := if first then { s with applets := { s.applets with invokes := s.applets.invokes + 1 } } else s
      if slot == 19 && !d.spentBudget && d.executes then s.scrubCore core else s

/-- Every core at a boundary. -/
def State.coresGrain (s : State) (ended : Nat) : State :=
  (List.range coreCount).foldl (fun s c => s.coreBoundary ended c) s

/-! The boundary. -/

/-- What each unit may do in one grain (R52, R160, R162, R164). -/
def State.budgets (s : State) : State :=
  { s with sched := { s.sched with
      lanesFree := 8 - (s.work.filter (fun w => s.inStage1 w)).length, primeDone := false, admitLeft := 8, admitDone := false,
      portsLeft := 16, ports := [], units := [], commitsLeft := 6, commitLegs := 16, strandsUsed := [] } }

/-- Rebuilds that have their Saltern image go on. -/
def State.rebuildGrain (s : State) : State :=
  (s.pan.rebuilds.filter Rebuild.haveBase).foldl (fun s r => s.rebuildRun r.book r.block) s

/-- One block above a lowered Pan quota leaves, in a background step of the mover; a slice whose blocks cannot leave does not
hold up the next one (R286). -/
def State.shedBlock (s : State) : State :=
  if s.mayStep .mover background then
    let r := (s.slices.filter s.overQuota).foldl (fun r e => if r.2 then r else r.1.evict e.1) (s, false)
    if r.2 then r.1.takeStep .mover else r.1
  else s

/-- The re-masking pass ends where nothing loaded is left before it. -/
def State.remaskIdle (s : State) : State :=
  if decide (s.taskDeadline 1 ≤ s.now) && s.remaskLeft.isEmpty then s.remaskEnd else s

/-- What ends with the grain: steps of the brine window end, the cores make their checks (R68), then register writes take
effect (R282): a core ends for a reset at the boundary after it (R294). -/
def State.grainEnds (s : State) (ended : Nat) : State := ((s.budgets.brineGrain.flagFences.rngGrain.coresGrain ended).settle).calendar

/-- The steps of the units in the grain that begins. -/
def State.unitSteps (s : State) : State :=
  let s := s.bnGrain.streamGrain
  let s := s.recoveryGrain.handoverGrain.ckptGrain
  let s := s.arrivedGrain.rebuildGrain.genGrain.collectGrain.dplGrain
  s.trim.shedBlock.remaskIdle.tagGrain

/-- Coverage at a boundary that no PRIME_ADMISSION has used, slot 19 included (R59). -/
def State.coverLate (s : State) : State := if s.serviceable && !s.sched.primeDone then s.coverPrimes else s

/-- HTM_GRAIN counts; at the first boundary after its restore it stands, and slot 0 begins (R39, R47). -/
def State.countGrain (s : State) : State :=
  if s.sched.fresh then { s with sched := { s.sched with fresh := false } }
  else { s with sched := { s.sched with grain := (s.sched.grain + 1) % 2 ^ 64 } }

/-- The grain boundary: events of the ended grain enter the logs, HTM_GRAIN counts, every unit chooses its next step. A
record of HTM_GRAIN that is still due is made (R13). A power-down flush takes its own steps instead (R556). -/
def State.grain (s : State) : State :=
  if s.tamper.clockStopped then s
  else
    let s := { s with logs := s.logs.close }
    if !s.sched.running then s
    else if s.pwr.flush.isSome then s.grainRecord.countGrain.flushGrain
    else (s.coverLate.grainRecord.countGrain.grainEnds ((s.now + (if s.sched.fresh then 19 else 0)) % scruple)).unitSteps

/-- GRAIN_BOUNDARY; a track of the Thorn wall that returned the wrong pattern in the grain is a level-4 event (R499). -/
def execGrainBoundary (wall : Option Nat) (s : State) : Host.Outcome State Fault Refusal :=
  .next (match wall with
    | none => s.grain
    | some track =>
      if s.tamper.clockStopped || 256 ≤ track then s.grain else s.grain.severe 4 (sensor 0x08 0x11 track 0 track))

/-! Background tasks (R53-R56). -/

/-- The units of a background task (R53). -/
def taskUnits (task : Nat) : List UnitId :=
  match task with
  | 0 => [.nv]
  | 1 => [.keyStore, .random]
  | 2 => [.pan, .mover, .dma 8, .dma 9]
  | 3 => [.tamper]
  | 4 => [.telemetry]
  | _ => [.random]

/-- The deadlines of the dirty blocks and nodes that a unit writes back, engines 8 and 9 by book (R25). A book whose
write-back a checkpoint hold suspends has none (R120). -/
def State.dirtyDues (s : State) (u : UnitId) : List Nat :=
  let own (book : Nat) : Bool := (match u with | .dma e => book % 2 == e % 2 | _ => true) && !(s.bookAt book).held
  (s.pan.blocks.filter (fun b => b.dirty && own b.book)).map (fun b => b.dirtyAt + taskPeriod 2) ++
    (s.pan.nodes.filter (fun n => n.dirty && own n.book)).map (fun n => n.dirtyAt + taskPeriod 2)

/-- The deadline of the dirty block that became dirty first. -/
def State.dirtyDue (s : State) : Option Nat := (s.dirtyDues .pan).min?

/-- The deadline of a task, when it has work. -/
def State.taskDue (s : State) (task : Nat) : Option Nat :=
  match task with
  | 2 => s.dirtyDue
  | 5 => if s.rng.inst then some (s.rng.seededAt + pound) else none
  | _ => some (s.taskDeadline task)

/-- Steps that a task still needs on a unit: for a large slot 5 of re-masking (R388), and 10 of the random unit for its
mask (R44). -/
def State.taskSteps (s : State) (task : Nat) (u : UnitId) : Nat :=
  match task with
  | 0 => 65536 - s.nv.scrubPos
  | 1 => (s.remaskLeft.map (fun k => if 12288 ≤ k ∧ k < 13312 then (if u == .random then 10 else 5) else 1)).foldl (· + ·) 0
  | 2 => (s.dirtyDues .pan).length
  | _ => 1

/-- Occurrences of slot 19 from now up to a deadline. -/
def slots19 (now due : Nat) : Nat := due / scruple - now / scruple

/-- More steps than half of the slots left, before one of the deadlines, one step for each (R54). -/
def crowded (now : Nat) (dues : List Nat) : Bool :=
  dues.any (fun d => decide (slots19 now d < 2 * (dues.filter (fun x => decide (x ≤ d))).length))

/-- The task is at risk on a unit (R54). -/
def State.riskOn (s : State) (task : Nat) (u : UnitId) : Bool :=
  s.sched.overdue.contains task ||
    (if task == 2 then crowded s.now (s.dirtyDues u)
     else (s.taskDue task).any (fun d => decide (slots19 s.now d < 2 * s.taskSteps task u)))

/-- The units on which a task is at risk. -/
def State.riskUnits (s : State) (task : Nat) : List UnitId := (taskUnits task).filter (fun u => s.riskOn task u)

/-- Risk and escalation as evaluated at a scruple boundary (R54, R55). -/
def State.evaluateRisk (s : State) : State :=
  let tasks := (List.range 6).filter (fun t => !(s.riskUnits t).isEmpty)
  { s with sched := { s.sched with atRisk := tasks, esc := tasks.flatMap s.riskUnits } }

/-- The scruple boundary: tokens (R57), risk (R54), yields of big-number jobs (R432). -/
def State.scrupleBoundary (s : State) : State :=
  if s.now % scruple != 0 || s.sched.lastScruple == some s.now || !s.sched.running || s.tamper.clockStopped ||
      s.pwr.flush.isSome then s
  else
    let slices := tmap Slice.reset (fun x => { x with tokForce := x.tokQuota, tokLeft := x.tokQuota }) s.slices
    let s := { s with slices := slices, sched := { s.sched with lastScruple := some s.now } }
    s.evaluateRisk.bnScruple

/-- SCRUPLE_BOUNDARY. -/
def execScrupleBoundary (s : State) : Host.Outcome State Fault Refusal := .next s.scrupleBoundary

/-- A task meets its deadline unfinished, once in a period (R56). -/
def State.deadlineMiss (s : State) (task : Nat) : State :=
  if !s.sched.running || s.tamper.clockStopped || s.pwr.flush.isSome then s
  else
    match task with
    | 0 | 1 | 3 | 4 =>
      if s.sched.overdue.contains task || decide (s.now < s.taskDeadline task) || s.taskSteps task .keyStore == 0 then s
      else { s with sched := { s.sched with overdue := task :: s.sched.overdue } }.missTask task
    | 2 =>
      (match s.dirtyDue with
       | none => s
       | some d =>
         if s.now < d || d < s.taskDeadline 2 then s else (s.missTask 2).setDeadline 2 (d + 1))
    | 5 => s.reseedOverdue
    | _ => s

/-- BG_DEADLINE_MISS. -/
def execBgDeadlineMiss (task : Nat) (s : State) : Host.Outcome State Fault Refusal := .next (s.deadlineMiss task)

end Sys2Proof.Machine
end

