-- ==== Sys2Proof/Machine/Telemetry.lean ====
section
/-! DEFINITION. Telemetry (R584, R590), the acknowledgement of the logs (R577), the sideband port (R585-R587, R596). -/

namespace Sys2Proof.Machine
open Sys2Proof

/-! Telemetry. -/

/-- The larger and the smaller of two temperatures; a value that does not exist gives way. -/
def tjMax (a b : BitVec 16) : BitVec 16 := if a == tjNone then b else if b == tjNone then a else if a.slt b then b else a
def tjMin (a b : BitVec 16) : BitVec 16 := if a == tjNone then b else if b == tjNone then a else if a.slt b then a else b

/-- The registers after a sample (R590). The energy that a sample stands for is a free value (log entry 37). -/
def Telemetry.sample (t : Telemetry) (now draw : Nat) (tj : List (BitVec 16)) (power holdMv : Nat) : Telemetry :=
  let hi := tj.foldl tjMax tjNone
  let lo := tj.foldl tjMin tjNone
  let p := power % 0x10000
  { t with
    tMax := hi, tMin := lo, power := p, stamp := now, hold := holdMv % 0x10000, peakClr := false, tsens := tj,
    energy := (t.energy + Config.freeNat draw) % 2 ^ 64, peakHigh := if t.peakClr then hi else tjMax t.peakHigh hi,
    peakLow := if t.peakClr then lo else tjMin t.peakLow lo, powerPeak := if t.peakClr then p else max t.powerPeak p }

/-- HOLD as sampled: below 9.5 V it is weak (R552, R480). -/
def State.holdSample (s : State) (mv : Nat) : State :=
  let s := { s with pwr := { s.pwr.sample mv with holdOk := decide (9500 ≤ mv) } }
  if s.pwr.holdOk || s.nv.wt || !s.nv.running then s else s.enterThrough

/-- The 16 sensors are read: a list of another length is cut or filled with values that do not exist. -/
def sensorList (tj : List (BitVec 16)) : List (BitVec 16) := (List.range 16).map (fun i => tj.getD i tjNone)

/-- TELEMETRY_SAMPLE: once per pound (task 4 of R53), a background step of the telemetry unit. -/
def execTelemetrySample (tj : List (BitVec 16)) (power holdMv : Nat) (s : State) : Host.Outcome State Fault Refusal :=
  let due := decide (s.taskDeadline 4 ≤ s.now + pound)
  .next (if !(s.pwr.starting && s.sched.running && s.pwr.flush.isNone && s.tamper.state != .spent && due) then s
    else
      s.stepOf .telemetry background (fun s =>
        let s := { s with tel := s.tel.sample s.now s.draws (sensorList tj) power holdMv }.drawn
        (s.holdSample holdMv).taskDone 4))

/-- Offset of TEL_CTL. -/
def offTelCtl : Nat := 0x0A0020

/-- PEAK_CLR: TEL_CTL.PEAK_CLR is written 1. -/
def execPeakClr (s : State) : Host.Outcome State Fault Refusal :=
  .next (s.onReg offTelCtl (fun s => { s with tel := { s.tel with peakClr := true } }))

/-- The SEQ that host software has consumed (R577). -/
def State.logAck (s : State) (tamper : Bool) (seq : Nat) : State :=
  let v := seq % 2 ^ 32
  { s with logs := if tamper then { s.logs with tlogAck := v } else { s.logs with plogAck := v } }

/-- LOG_ACK_WRITE. -/
def execLogAckWrite (tamper : Bool) (seq : Nat) (s : State) : Host.Outcome State Fault Refusal :=
  .next (s.onReg (if tamper then 0x0A0218 else 0x0A0208) (fun s => s.logAck tamper seq))

/-! The sideband port. -/

/-- The port acknowledges its address (R587). -/
def State.portUp (s : State) : Bool := s.pwr.starting && s.pwr.flush.isNone && (s.halted || decide (4 ≤ s.pwr.step))

/-- A transaction is not acknowledged: a sideband violation, logged (EVENT 0x0E). -/
def State.sbRefuse (s : State) (code : Nat) : State :=
  (s.plogEvent unitMgmt 0x0E 0 0xFFFF 0xFFFF (code % 256)).emit .sidebandNak

/-- A command is answered, in HALT only three of them (R587). -/
def State.sbAnswer (s : State) (code : Nat) (data : Bytes) : State :=
  if !s.portUp || (s.halted && !(code == 0x00 || code == 0x09 || code == 0x0A)) then s.sbRefuse code
  else s.emit (.sideband data)

/-- A temperature: in SPENT none exists. -/
def State.sbTemp (s : State) (code : Nat) (tj : BitVec 16) : State :=
  s.sbAnswer code (leBytes 2 (if s.tamper.state == .spent then tjNone else tj).toNat)

/-- SB_IDENT. -/
def execSbIdent (s : State) : Host.Outcome State Fault Refusal := .next (s.sbAnswer 0x00 (leBytes 4 htmIdent))

/-- HTM_DEVICE_ID as it reads: zero in HALT, the copy of R523 in SPENT (R410). -/
def State.deviceIdShown (s : State) : Bytes :=
  if s.halted then zeros 16 else if s.tamper.state == .spent then s.keys.deviceIdCopy else s.keys.deviceId

/-- SB_DEVICE_ID. -/
def execSbDeviceId (s : State) : Host.Outcome State Fault Refusal := .next (s.sbAnswer 0x01 (fit 16 s.deviceIdShown))

/-- SB_TJ_MAX. -/
def execSbTjMax (s : State) : Host.Outcome State Fault Refusal := .next (s.sbTemp 0x02 s.tel.tMax)

/-- SB_TJ_MIN. -/
def execSbTjMin (s : State) : Host.Outcome State Fault Refusal := .next (s.sbTemp 0x03 s.tel.tMin)

/-- SB_POWER. -/
def execSbPower (s : State) : Host.Outcome State Fault Refusal := .next (s.sbAnswer 0x04 (leBytes 2 s.tel.power))

/-- SB_HOLD. -/
def execSbHold (s : State) : Host.Outcome State Fault Refusal := .next (s.sbAnswer 0x05 (leBytes 2 s.tel.hold))

/-- SB_LC_STATE. -/
def execSbLcState (s : State) : Host.Outcome State Fault Refusal := .next (s.sbAnswer 0x06 (leBytes 1 (lcCode s.tamper.state)))

/-- SB_TAMPER_FLAGS: zero in SPENT. -/
def execSbTamperFlags (s : State) : Host.Outcome State Fault Refusal :=
  let v := if s.tamper.state == .spent then 0
    else min 15 s.window2.length + at_ (flag s.alarm) 5 + at_ (flag s.tamper.latch) 6
  .next (s.sbAnswer 0x07 (leBytes 1 v))

/-- SB_TAMPER_CAUSE. -/
def execSbTamperCause (s : State) : Host.Outcome State Fault Refusal := .next (s.sbAnswer 0x08 (leBytes 1 s.tamper.cause))

/-- SB_STATUS_FLAGS. -/
def execSbStatusFlags (s : State) : Host.Outcome State Fault Refusal :=
  let v := flag s.halted + at_ (flag s.nv.wt) 1 + at_ (flag (s.tamper.state == .bittern)) 2 +
    at_ (flag (s.tamper.state == .spent)) 3 + at_ (flag (s.pwr.step == 9)) 4
  .next (s.sbAnswer 0x09 (leBytes 1 v))

/-- HTM_HALT (R410). -/
def State.haltReg (s : State) : Nat := s.keys.haltCode % 256 + at_ (s.keys.attempts % 4) 8

/-- SB_HALT. -/
def execSbHalt (s : State) : Host.Outcome State Fault Refusal := .next (s.sbAnswer 0x0A (leBytes 2 s.haltReg))

/-- SB_SENSOR_TJ: sensor 0 to 15. -/
def execSbSensorTj (sensor : Nat) (s : State) : Host.Outcome State Fault Refusal :=
  .next (if 16 ≤ sensor then s.sbRefuse (0x10 + sensor) else s.sbTemp (0x10 + sensor) (s.tel.tsens.getD sensor tjNone))

/-- SIDEBAND_VIOLATION. -/
def execSidebandViolation (code : Nat) (s : State) : Host.Outcome State Fault Refusal := .next (s.sbRefuse code)

/-- SMBUS_CLOCK_TIMEOUT (R596): the port releases the bus. A transaction of the model is one command, so that none is
given up here, and none changes the device (R585): log entry 37. -/
def execSmbusClockTimeout (s : State) : Host.Outcome State Fault Refusal := .next s

end Sys2Proof.Machine
end

