-- ==== Sys2Proof/Machine/Registers.lean ====
section
/-! DEFINITION. The BAR0 registers as host software reads and writes them (R5, R11, R14-R17, R252 and the register
tables of the chapters), refused requests, configuration space, the MSI-X table. -/

namespace Sys2Proof.Machine
open Sys2Proof

/-! Reads: the 32-bit word at an offset. -/

/-- The half of a 64-bit register that stands at an offset. -/
def half (v o : Nat) : Nat := if o % 8 = 0 then v % 2 ^ 32 else v / 2 ^ 32 % 2 ^ 32

/-- A bit map from bit numbers. -/
def bitMap (l : List Nat) : Nat := l.foldl (fun m k => m ||| 2 ^ k) 0

/-- A 32-bit word of bytes. -/
def wordAt (b : Bytes) (o : Nat) : Nat := fieldAt b o 4

/-- Occupied slots that are SLOT_BAD. -/
def State.badSlots (s : State) : Nat := ((s.keys.compact ++ s.keys.large).filter (fun e => e.2.bad)).length

/-- PWR_STATUS (R569). -/
def Power.status (p : Power) : Nat :=
  flag p.mainOk + at_ (flag p.holdOk) 1 + at_ (flag p.pwrFail) 2 + at_ (flag p.flushed) 3 + at_ (p.step % 16) 8 +
    at_ (p.resetCause % 8) 16

/-- KEY_STATUS (R410). -/
def State.keyStatus (s : State) : Nat :=
  flag s.keys.swept + at_ (flag s.keys.weakMask) 1 + at_ (flag (s.authAt 0).occupied) 2 + at_ (flag s.keys.erasing) 3 +
    at_ (min s.badSlots 0xFFFF) 16

/-- Global and identity area (R5, R11, R410, R569). -/
def State.readGlobal (s : State) (o : Nat) : Nat :=
  match o with
  | 0x000 => htmIdent
  | 0x004 => s.haltReg
  | 0x008 | 0x00C => half s.now o
  | 0x010 | 0x014 | 0x018 | 0x01C => wordAt s.deviceIdShown (o - 0x10)
  | 0x100 => s.keyStatus
  | 0x104 => s.sessionTotal
  | 0x108 | 0x10C => half s.keys.epoch o
  | 0x200 => s.pwr.status
  | 0x204 => s.pwr.holdMv % 2 ^ 16 + at_ (s.pwr.holdMin % 2 ^ 16) 16
  | 0x208 => s.pwr.flushGrains % 2 ^ 24 + at_ (flag s.pwr.drainCut) 24
  | 0x20C => s.pwr.startGrains % 2 ^ 24
  | _ => 0

/-- STATE of SLICE_STATUS. -/
def SliceState.code (st : SliceState) : Nat :=
  match st with
  | .free => 0 | .active => 1 | .quiescing => 2 | .resetting => 3

/-- SLICE_STATUS (R278). -/
def State.sliceStatus (s : State) (n : Nat) : Nat :=
  let x := s.sliceAt n
  x.st.code + at_ (flag (s.drainedSlice n)) 2 + at_ (flag (s.bookExists n)) 3 + at_ x.err 4 + at_ x.gen 8 +
    at_ (flag x.qref) 16

/-- An entry of the slice table (R278). -/
def State.readSlice (s : State) (n o : Nat) : Nat :=
  let x := s.sliceAt n
  match o with
  | 0x04 => s.sliceStatus n
  | 0x08 => x.pasid
  | 0x0C => x.sqQuota
  | 0x10 => x.cqQuota
  | 0x14 => x.panQuota
  | 0x18 => x.sessQuota + at_ (s.sessionCount n) 16
  | 0x1C => x.tokQuota
  | 0x20 => x.strandQuota + at_ x.coreQuota 8
  | 0x24 => (s.brine.entries.filter (fun e => e.slice == n)).length
  | 0x28 => x.dropped.toNat
  | 0x30 | 0x34 => half (x.dplBase + flag x.dplEn) o
  | 0x38 => x.dplWrite + at_ (flag x.dplOvf) 16 + at_ (flag x.dplPhase) 17 + at_ (flag x.dplAccess) 18
  | 0x3C => x.dplRead
  | _ => 0

/-- RING_STATUS of a submission ring (R273). -/
def Sq.status (q : Sq) : Nat :=
  flag q.halted + at_ q.haltCause 1 + at_ (q.done % 2) 5 + at_ (flag q.dbStale) 8 + at_ (flag q.dbSize) 9 +
    at_ (flag q.dbDisabled) 10 + at_ (flag q.dbReserved) 11 + at_ (q.fetch % 2 ^ 16) 16

/-- The registers of a submission ring (R237, R273). -/
def Sq.read (q : Sq) (o : Nat) : Nat :=
  match o with
  | 0x08 | 0x0C => half q.base o
  | 0x10 => q.sizeLog2 + at_ (flag q.enabled) 8 + at_ (flag q.busy) 9 + at_ q.err 12 + at_ q.slice 16
  | 0x14 => q.cq + at_ q.vector 16 + at_ (flag q.noint) 27
  | 0x18 => q.modCount + at_ q.modTime 8
  | 0x20 | 0x24 => half (q.rcptBase + flag q.rcptEn) o
  | 0x28 => q.tail + at_ (q.done / 2 % 2 ^ 15) 17
  | 0x2C => q.status
  | 0x30 => flag q.fenced + at_ (if q.fenced then q.fenceCause else 0) 4 + at_ (q.fenceHead.getD 0) 16
  | 0x34 => q.fenceTag
  | _ => 0

/-- The registers of a completion ring (R273). -/
def Cq.read (c : Cq) (o : Nat) : Nat :=
  match o with
  | 0x08 | 0x0C => half c.base o
  | 0x10 => c.sizeLog2 + at_ (flag c.enabled) 8 + at_ c.err 12 + at_ c.slice 16
  | 0x28 => c.widx + at_ (flag c.phase) 16
  | 0x2C => at_ (flag c.stalled) 4
  | _ => 0

/-- The ring registers (R273). -/
def State.readRing (s : State) (o : Nat) : Nat :=
  if o = 0 then s.hregs.ringSel + at_ (flag s.hregs.ringKind) 16
  else if s.hregs.ringKind then (s.cqAt s.hregs.ringSel).read o
  else (s.sqAt s.hregs.ringSel).read o

/-- WIN_CAP_INFO (R324). -/
def Capture.winInfo (c : Capture) : Nat :=
  1 + at_ (flag c.write) 1 + at_ (flag c.none_) 2 + at_ c.slice 4 + at_ c.master 16

/-- MPU_CAP_INFO (R325). -/
def Capture.mpuInfo (c : Capture) : Nat :=
  1 + at_ (flag c.write) 1 + at_ (flag c.precise) 2 + at_ (flag c.none_) 3 + at_ c.region 4 + at_ c.slice 8

/-- The window registers (R324). -/
def State.readWindow (s : State) (o : Nat) : Nat :=
  let x := s.sliceAt s.hregs.winSlice
  let w := s.stagedSel
  match o with
  | 0x00 => s.hregs.winSlice + at_ s.hregs.winIndex 16
  | 0x08 | 0x0C => half (w.base * 4096) o
  | 0x10 | 0x14 => half (w.limit * 4096) o
  | 0x18 => flag w.en + at_ (flag w.r) 1 + at_ (flag w.w) 2
  | 0x1C => flag (w != tget Window.reset x.live s.hregs.winIndex) + at_ (flag x.winBusy) 1 + at_ x.winErr 4
  | 0x20 => s.hregs.barrierSlice
  | 0x24 => x.winViol.toNat
  | 0x30 => ((s.hregs.winCap).map Capture.winInfo).getD 0
  | 0x38 | 0x3C => half (((s.hregs.winCap).map Capture.addr).getD 0) o
  | _ => 0

/-- MPU_ATTR (R325). -/
def Region.attr (r : Region) : Nat :=
  flag r.en + at_ (flag r.r) 1 + at_ (flag r.w) 2 + at_ (flag r.ns) 3 + at_ (flag r.ro) 4 + at_ (flag r.ido) 5

/-- The MPU registers (R325). -/
def State.readMpu (s : State) (o : Nat) : Nat :=
  let m := s.hregs.mpuSel
  let x := s.mpuAt m
  let r := x.region s.hregs.mpuRegion
  if 44 < m && o != 0x100 then 0
  else
  match o with
  | 0x100 => m + at_ s.hregs.mpuRegion 8
  | 0x108 | 0x10C => half (8 * r.start) o
  | 0x110 | 0x114 => half (8 * r.stop) o
  | 0x118 => r.attr
  | 0x11C => flag x.en + at_ (flag x.bufw) 1
  | 0x120 => flag (s.mpuIdle m) + at_ (flag (mpuFirmware m)) 1 + at_ x.err 4
  | 0x128 => (x.cap.map Capture.mpuInfo).getD 0
  | 0x130 | 0x134 => half ((x.cap.map Capture.addr).getD 0) o
  | 0x138 => x.viol.toNat
  | _ => 0

/-- The scheduler registers (R69). -/
def State.readSched (s : State) (o : Nat) : Nat :=
  let x := s.sliceAt s.sched.sel
  match o with
  | 0x00 => s.now % 20 + at_ (flag (!s.sched.esc.isEmpty)) 16
  | 0x04 => s.tokenTotal
  | 0x08 => flag s.sched.tokenOver + at_ (flag s.sched.bgMiss) 1
  | 0x10 => bitMap s.sched.atRisk + at_ (bitMap s.sched.missed) 8
  | 0x20 => s.sched.sel
  | 0x24 => x.lateToken.toNat
  | 0x28 => x.lateSize.toNat
  | 0x2C => x.lateResid.toNat
  | 0x30 => x.lateHold.toNat
  | 0x34 => x.lateRedo.toNat
  | 0x38 => x.lateReset.toNat
  | 0x3C => x.tokForce + at_ x.tokLeft 8
  | _ => 0

/-- Units on which a stream runs. -/
def State.streamUnits (s : State) (digest : Bool) : List Nat :=
  (s.crypto.streams.filter (fun x => x.onDigest == digest)).filterMap Stream.unit

/-- The applet and engine registers (R372, R437). -/
def State.readEngines (s : State) (o : Nat) : Nat :=
  match o with
  | 0x100 => bitMap ((s.applets.cores.filter (fun e => e.2.mode != .idle)).map Prod.fst)
  | 0x104 => (s.applets.allow.filter (fun e => (s.allowEntry e.1).occupied)).length + at_ (flag (s.authAt 1).occupied) 9
  | 0x108 => s.applets.invokes.toNat
  | 0x10C => s.applets.traps.toNat
  | 0x200 => bitMap (s.streamUnits false) + at_ (bitMap (s.streamUnits true)) 8
  | 0x204 => bitMap ((s.crypto.bn.filter (fun e => e.2.running.isSome)).map Prod.fst) + at_ (min s.crypto.bnQueue.length 0xFFFF) 16
  | 0x208 => (s.crypto.bn.map (fun e => e.2.saved.length)).foldl (· + ·) 0
  | 0x210 => s.crypto.bnJobs.toNat
  | 0x214 => s.crypto.bnYields.toNat
  | 0x218 => s.crypto.bnMismatch.toNat
  | 0x21C => s.crypto.bnFaults.toNat
  | 0x220 => s.crypto.cmpGlitch.toNat
  | _ => 0

/-- STATE of BOOK_STATUS (R101). -/
def BookState.code (st : BookState) : Nat :=
  match st with
  | .none_ => 0 | .open_ => 1 | .recovering => 2 | .fencedIntegrity => 3 | .fencedGap => 4 | .released => 5 | .deleting => 6

/-- A CHECKPOINT of the book is in phase 1 or 2 (R144). -/
def State.ckptShown (s : State) (b : Book) : Bool :=
  b.wb.any (fun j => decide (j.phase ≤ 2) && (s.workAt j.work).any (fun w => w.opcode == 0x3010))

/-- BOOK_STATUS (R144). -/
def State.bookStatus (s : State) (b : Book) : Nat :=
  b.st.code + at_ (flag b.cmd.isSome) 3 + at_ b.cmdErr 4 + at_ (flag b.hold.isSome) 8 + at_ (flag b.holdExpired) 9 +
    at_ (flag (s.ckptShown b)) 10 + at_ (flag b.wbAccess) 11 + at_ (if b.st == .none_ then 0 else b.height) 16

/-- JRNL_STATUS (R218). -/
def State.jrnlStatus (s : State) (n : Nat) : Nat :=
  let b := s.bookAt n
  let full := s.work.any (fun w => w.slice == n && s.shortOfRoom w)
  flag full + at_ (flag b.fullSeen) 1 + at_ (flag b.wrAccess) 2 + at_ (flag b.sealAccess) 3 + at_ (flag b.cfgBad) 4 +
    at_ (flag b.nonce.isSome) 5

/-- The registers of the selected book (R144, R218). -/
def State.readBook (s : State) (o : Nat) : Nat :=
  let n := s.brine.bookSel
  let b := s.bookAt n
  let live (v : Nat) : Nat := if b.st == .none_ then 0 else v
  match o with
  | 0x00 => n
  | 0x08 => s.bookStatus b
  | 0x0C => b.strands + at_ b.keySlot 16
  | 0x10 | 0x14 => half b.saltBase o
  | 0x18 => b.cap
  | 0x20 | 0x24 => half (if capOk b.cap then saltSize b.cap else 0) o
  | 0x28 | 0x2C => half b.uid o
  | 0x30 | 0x34 => half (live (if b.st == .recovering then b.target else b.lseq)) o
  | 0x38 => live (min (s.dirtyBlocks n) 0xFFFF)
  | 0x3C => live b.incarn
  | 0x40 | 0x44 => half b.jBase o
  | 0x48 => b.jSize + at_ b.fullWait 8 + at_ b.sealLog2 12 + at_ b.adjReserve 16
  | 0x50 | 0x54 => half b.sealBase o
  | 0x58 => s.jrnlStatus n
  | 0x60 | 0x64 => half b.jWrite o
  | 0x68 | 0x6C => half b.issued o
  | 0x70 | 0x74 => half b.persisted o
  | 0x78 | 0x7C => half (max b.drained b.persisted) o
  | 0x80 | 0x84 => half b.target o
  | 0x88 | 0x8C => half b.replayed o
  | 0x90 | 0x94 => half b.sealNo o
  | _ => if 0xA0 ≤ o && o < 0xF0 && b.st == .fencedGap then wordAt (s.gapBlock n) (o - 0xA0) else 0

/-- The Pan, posting and ledger fault registers (R145, R186, R243). -/
def State.readLedger (s : State) (o : Nat) : Nat :=
  match o with
  | 0x100 => s.pan.nodeUnits
  | 0x104 => s.tallyLines - s.panSum
  | 0x108 => s.panSum
  | 0x10C => s.bookSum 1024 (fun b => if b.st == .none_ then 0 else b.cap)
  | 0x120 => s.brine.entries.length + at_ s.brine.peak 16
  | 0x124 => s.brine.commits.toNat
  | 0x128 => s.brine.refused.toNat
  | 0x12C => s.brine.reexec.toNat
  | 0x130 => s.brine.held.toNat
  | 0x140 => flag s.pan.reloadFail + at_ (flag s.pan.nodeLoss) 1 + at_ (flag s.pan.redoFail) 2 + at_ s.pan.faultBook 16
  | 0x144 => s.pan.reloads.toNat
  | 0x148 => s.pan.redos.toNat
  | 0x14C => s.pan.fences.toNat
  | _ => 0

/-- NV_PART_STATUS (R496). -/
def UserPart.status (p : UserPart) : Nat :=
  flag p.locked + at_ (flag (!allZero p.readPw)) 1 + at_ (flag (!allZero p.writePw)) 2 + at_ p.fails 4 + at_ p.err 8

/-- The registers of the non-volatile store (R496). -/
def State.readNv (s : State) (o : Nat) : Nat :=
  let p := s.partAt s.nv.partSel
  let c := s.counterAt s.nv.cntSel
  match o with
  | 0x00 => flag s.nv.wt + at_ (flag s.pwr.holdOk) 1 + at_ (flag s.nv.flushLost) 2 + at_ (flag s.nv.worn) 3 + at_ s.nv.wbuf.length 8
  | 0x10 => s.nv.partSel
  | 0x14 => p.pages + at_ p.slice 16 + at_ (flag p.en) 31
  | 0x18 => p.status
  | 0x20 => s.nv.corrected.toNat
  | 0x24 => s.nv.uncorr.toNat
  | 0x28 => s.nv.torn.toNat
  | 0x30 => (s.nv.pages.map (fun e => e.2.wear)).foldl max 0 / 1024 % 2 ^ 20
  | 0x40 => s.nv.cntSel
  | 0x44 => c.owner
  | 0x48 | 0x4C => half c.value o
  | _ => 0

/-- The tamper and life-cycle registers (R525). -/
def State.readTamper (s : State) (o : Nat) : Nat :=
  let t := s.tamper
  match o with
  | 0x00 => lcCode t.state + at_ (flag t.erasePending) 3 + at_ (flag t.stage.isSome) 4 + at_ t.challenges.length 8 +
      at_ s.custodians.length 16
  | 0x04 => min 15 s.window2.length + at_ (flag s.alarm) 8
  | 0x08 => t.cause + at_ t.detail 16
  | 0x10 | 0x14 => half t.entryGrain o
  | 0x18 => t.l1
  | 0x1C => t.l2
  | 0x20 => flag t.arm + at_ (flag t.loopEn) 1
  | 0x24 => flag t.latch + at_ (flag t.latchLoop) 1 + at_ (flag t.latchMesh) 2 + at_ (flag t.vbatLow) 3 + at_ (flag t.armErr) 4
  | _ => 0

/-- MODE of CL_STATUS (R530). -/
def ClMode.code (m : ClMode) : Nat :=
  match m with
  | .off => 0 | .tag => 1 | .ping => 2 | .reader => 3

/-- The contactless registers (R548). -/
def State.readContactless (s : State) (o : Nat) : Nat :=
  let c := s.cl
  match o with
  | 0x00 => c.pingMs + at_ c.detThr 16 + at_ c.rate 24
  | 0x04 => c.mode.code + at_ (flag c.extField) 2 + at_ (flag c.collect.isSome) 3 + at_ (c.cards % 16) 8 + at_ (c.sigs % 4) 12
  | 0x08 => c.detLast + at_ c.detBase 16
  | 0x10 | 0x14 => half (leNat (c.uid.take 7)) o
  | 0x20 => c.frameErr.toNat
  | 0x24 => c.falseDet.toNat
  | 0x28 => c.tagSess.toNat
  | 0x2C => c.tagNak.toNat
  | _ => 0

/-- RNG_STATUS (R463). -/
def State.rngStatus (s : State) : Nat :=
  let r := s.rng
  flag (decide (8 ≤ r.fifo.length)) + at_ (flag r.startup) 1 + at_ (flag r.kat) 2 + at_ (flag r.inst) 3 +
    at_ (flag s.releasing) 4 + at_ (flag r.nonePassing) 5 + at_ r.fifo.length 8 +
    at_ (bitMap ((List.range sourceCount).filter (fun k => (s.sourceAt k).passing))) 16

/-- The random registers, RNG_DATA apart (R463). -/
def State.readRng (s : State) (o : Nat) : Nat :=
  let r := s.rng
  match o with
  | 0x08 => s.rngStatus
  | 0x0C => flag r.errEmpty + at_ (flag r.errSlow) 1 + at_ (flag r.errKat) 2 + at_ (flag r.errLate) 3
  | 0x10 => r.released.toNat
  | 0x14 => r.reseeds.toNat
  | 0x18 => r.timeouts.toNat
  | _ =>
    if 0x40 ≤ o && o < 0x40 + 4 * sourceCount then
      let x := s.sourceAt ((o - 0x40) / 4)
      x.fails + at_ (flag x.rct) 16 + at_ (flag x.apt) 17
    else 0

/-- Unit codes of R584. -/
def unitCodes : Nat := 13

/-- The telemetry and log registers and the log entries (R575, R579, R590). -/
def State.readTel (s : State) (o : Nat) : Nat :=
  let t := s.tel
  let l := s.logs
  match o with
  | 0x00 => t.tMax.toNat + at_ t.tMin.toNat 16
  | 0x04 => t.peakHigh.toNat + at_ t.peakLow.toNat 16
  | 0x08 => t.power % 2 ^ 16 + at_ (t.powerPeak % 2 ^ 16) 16
  | 0x10 | 0x14 => half t.energy o
  | 0x18 | 0x1C => half t.stamp o
  | 0x200 => l.plogWrite + at_ (flag l.plogWrap) 8
  | 0x204 => l.plogSeq
  | 0x208 => l.plogAck
  | 0x20C => l.plogLost
  | 0x210 => l.tlogWrite + at_ (flag l.tlogWrap) 8
  | 0x214 => l.tlogSeq
  | 0x218 => l.tlogAck
  | 0x21C => l.tlogLost
  | _ =>
    if 0x40 ≤ o && o < 0x80 then (t.tsens.getD ((o - 0x40) / 4) tjNone).toNat
    else if 0x100 ≤ o && o < 0x100 + 4 * unitCodes then tget 0 t.errCorr ((o - 0x100) / 4)
    else if 0x180 ≤ o && o < 0x180 + 4 * unitCodes then tget 0 t.errUncorr ((o - 0x180) / 4)
    else if 0x1000 ≤ o && o < 0x3000 then wordAt (tget [] l.plog ((o - 0x1000) / 32)) (o % 32)
    else if 0x3000 ≤ o && o < 0x3800 then wordAt (tget [] l.tlog ((o - 0x3000) / 32)) (o % 32)
    else 0

/-- The word at an offset, in the BAR0 map of R17. -/
def State.readWord (s : State) (offset : Nat) : Nat :=
  let o := offset % 0x10000
  match offset / 0x10000 with
  | 0x0 => s.readGlobal o
  | 0x1 => s.readSlice (o / 64) (o % 64)
  | 0x2 => s.readRing o
  | 0x3 => if o < 0x100 then s.readWindow o else s.readMpu o
  | 0x4 => if o < 0x100 then s.readSched o else s.readEngines o
  | 0x5 => if o < 0x100 then s.readBook o else s.readLedger o
  | 0x6 => s.readNv o
  | 0x7 => s.readTamper o
  | 0x8 => s.readContactless o
  | 0x9 => s.readRng o
  | 0xA => s.readTel o
  | _ => 0

/-- Offsets that read in HALT (R376) and in SPENT (R523). -/
def State.shows (s : State) (offset : Nat) : Bool :=
  if s.halted then decide (offset < 8)
  else if s.tamper.state != .spent then true
  else decide (offset < 8) || (decide (0x10 ≤ offset) && decide (offset < 0x20)) ||
    (decide (0x010000 ≤ offset) && decide (offset < 0x040000)) || offset == 0x070000 || offset == 0x070008 ||
    offset == 0x070010 || offset == 0x070014

/-- The word that host software reads. -/
def State.wordShown (s : State) (offset : Nat) : Nat := if s.shows offset then s.readWord offset else 0

/-- What a read of a word clears (R15): the RC fields. That PEAK starts again at the entries in use, and not at zero, is the
model's choice between R15 and R186 (log entry 81). -/
def State.readClears (s : State) (offset : Nat) : State :=
  match offset with
  | 0x000204 => { s with pwr := { s.pwr with holdMin := 0, holdFresh := true } }
  | 0x050120 => { s with brine := { s.brine with peak := s.brine.entries.length } }
  | 0x070018 => { s with tamper := { s.tamper with l1 := 0 } }
  | 0x07001C => { s with tamper := { s.tamper with l2 := 0 } }
  | 0x0A020C => { s with logs := { s.logs with plogLost := 0 } }
  | 0x0A021C => { s with logs := { s.logs with tlogLost := 0 } }
  | _ =>
    let o := offset - 0x0A0000
    if 0x0A0100 ≤ offset && o < 0x100 + 4 * unitCodes then
      { s with tel := { s.tel with errCorr := tput 0 s.tel.errCorr ((o - 0x100) / 4) 0 } }
    else if 0x0A0180 ≤ offset && o < 0x180 + 4 * unitCodes then
      { s with tel := { s.tel with errUncorr := tput 0 s.tel.errUncorr ((o - 0x180) / 4) 0 } }
    else s

/-- A read of one word: its value and the state after it. -/
def State.readOne (s : State) (offset : Nat) : Nat × State :=
  if s.shows offset then (s.readWord offset, s.readClears offset) else (0, s)

/-- BAR0 accepts naturally aligned 32-bit and 64-bit accesses within its 2 MiB (R251, R252). -/
def bar0Good (offset size : Nat) : Bool := (size == 4 || size == 8) && offset % size == 0 && decide (offset < 0x200000)

/-- A BAR0 access of a wrong size or alignment is logged; a read of it returns zero (R252). -/
def State.badAccess (s : State) (offset size : Nat) (write : Bool) : State :=
  let s := s.plogEvent unitPcie 0x03 0 0xFFFF 0xFFFF (offset % 2 ^ 32)
  if write then s else s.emit (.barRead offset (zeros size))

/-- A host read of BAR0: two words in address order for 64 bits (R252). -/
def State.readBar0 (s : State) (offset size : Nat) : State :=
  if !bar0Good offset size then s.badAccess offset size false
  else if offset == 0x090000 && s.shows offset then
    let r := s.rngData size
    r.2.emit (.barRead offset r.1)
  else
    let lo := s.readOne offset
    if size == 4 then lo.2.emit (.barRead offset (leBytes 4 lo.1))
    else
      let hi := lo.2.readOne (offset + 4)
      hi.2.emit (.barRead offset (leBytes 4 lo.1 ++ leBytes 4 hi.1))

/-- A read reaches the BARs, or is refused. -/
def State.onBar (s : State) (offset : Nat) (f : State → State) : State :=
  if s.barUp then f s else if s.barClosed then s.barRefused offset else s

/-- A word of BAR4: the MSI-X table, the PBA, zero where the offset is reserved (R251). -/
def State.msixWord (s : State) (offset : Nat) : Nat :=
  let v := s.vectorAt (offset / 16)
  if offset < 0x8000 then
    match offset % 16 / 4 with
    | 0 => v.addr % 2 ^ 32
    | 1 => v.addr / 2 ^ 32
    | 2 => v.data
    | _ => flag v.masked
  else if offset < 0x8100 then
    bitMap ((List.range 32).filter (fun k => (s.vectorAt (8 * (offset - 0x8000) + k)).pending))
  else 0

/-- A host read of BAR4 in aligned words; the base specification leaves the data of another access open (R252, log
entry 12). -/
def State.readMsix (s : State) (offset size : Nat) : State :=
  if bar0Good offset size then
    s.emit (.barOther 4 offset ((List.range (size / 4)).flatMap (fun k => leBytes 4 (s.msixWord (offset + 4 * k)))))
  else s.drawn.emit (.barOther 4 offset (fit size (Config.freeBytes s.draws size)))

/-- RC_REGISTER_READ: a host read of a BAR; RC fields of BAR0 clear, BAR2 reads zero (R251, R259). -/
def execRcRegisterRead (bar offset size : Nat) (s : State) : Host.Outcome State Fault Refusal :=
  .next (s.onBar offset (fun s =>
    match bar with
    | 0 => s.readBar0 offset size
    | 2 => s.emit (.barOther 2 offset (zeros size))
    | _ => s.readMsix offset size))

/-! Writes. -/

/-- A write to a register of the selected book that its state refuses (R144, R218). -/
def State.bookFixed (s : State) (offset : Nat) : State := s.plogBook s.brine.bookSel 0 offset

/-- The configuration of a book changes only in NONE (R144). CREATE takes the fields as they stand when it is accepted: that
a write between the acceptance and OPEN is ignored and logged is the model's choice (log entry 63), with which the sums of
R143 hold at all times. -/
def State.modBookCfg (s : State) (offset : Nat) (f : Book → Book) : State :=
  let b := s.bookAt s.brine.bookSel
  if b.st == .none_ && !b.accepted then s.modBook s.brine.bookSel f else s.bookFixed offset

/-- CFG_BAD after a write of the journal configuration (R201, R218). -/
def Book.cfgChecked (b : Book) : Book :=
  { b with cfgBad := !(decide (16 ≤ b.jSize) && decide (b.jSize ≤ 36) && decide (4 ≤ b.sealLog2) && decide (b.sealLog2 ≤ 12)) }

/-- The journal configuration changes only in NONE and RECOVERING; in RECOVERING a write of the region, whatever its value,
moves the journal (R218, R219). -/
def State.modJrnlCfg (s : State) (offset : Nat) (region : Bool) (f : Book → Book) : State :=
  let b := s.bookAt s.brine.bookSel
  if b.st == .none_ || b.st == .recovering then
    s.setBook s.brine.bookSel { (f b).cfgChecked with moved := b.moved || (b.st == .recovering && region) }
  else s.bookFixed offset

/-- A write of JRNL_CFG: FULL_WAIT and ADJ_RESERVE take effect at the next grain boundary (R219). -/
def State.jrnlCfg (s : State) (value : Nat) : State :=
  let n := s.brine.bookSel
  let t := s.modJrnlCfg 0x050048 true (fun b => { b with jSize := bits value 5 0, sealLog2 := bits value 15 12 })
  if (s.bookAt n).st == .none_ || (s.bookAt n).st == .recovering then t.defer (.jrnl n (bits value 11 8) (bits value 23 16))
  else t

/-- A field of a ring's configuration while the ring is enabled or BUSY (R272). -/
def State.modRing (s : State) (offset : Nat) (fq : Sq → Sq) (fc : Cq → Cq) : State :=
  let n := s.hregs.ringSel
  if s.hregs.ringKind then
    if (s.cqAt n).enabled then s.cqErr n 6 offset else (s.modCq n fc).cqErr n 0 offset
  else if (s.sqAt n).enabled || (s.sqAt n).busy then s.sqErr n 6 offset
  else (s.modSq n fq).sqErr n 0 offset

/-- A write of RING_BIND (R272). -/
def State.ringBind (s : State) (value : Nat) : State :=
  let n := s.hregs.ringSel
  let cq := bits value 15 0
  let s := s.defer (.bind n (bits value 26 16) (bit value 27))
  let q := s.sqAt n
  if cq == q.cq then s.sqErr n 0 0x020014
  else if q.enabled || q.busy then s.sqErr n 6 0x020014
  else (s.modSq n (fun q => { q with cq := cq })).sqErr n 0 0x020014

/-- The 64-bit registers that are written (R144, R218, R273, R278, R324, R325). -/
inductive Wide where
  | ringBase | ringRcpt | winBase | winLimit | mpuStart | mpuEnd | saltBase | uid | jrnlBase | sealBase
  | dplBase (slice : Nat)
deriving DecidableEq, Repr

/-- The 64-bit register at an aligned offset. -/
def wideAt (offset : Nat) : Option Wide :=
  match offset with
  | 0x020008 => some .ringBase
  | 0x020020 => some .ringRcpt
  | 0x030008 => some .winBase
  | 0x030010 => some .winLimit
  | 0x030108 => some .mpuStart
  | 0x030110 => some .mpuEnd
  | 0x050010 => some .saltBase
  | 0x050028 => some .uid
  | 0x050040 => some .jrnlBase
  | 0x050050 => some .sealBase
  | _ => if offset / 0x10000 = 1 ∧ offset % 64 = 0x30 then some (.dplBase (offset % 0x10000 / 64)) else none

/-- A multiple of 4 KiB. -/
def page4k (v : Nat) : Nat := v / 4096 * 4096

/-- A write of a whole 64-bit register. -/
def State.writeWide (s : State) (w : Wide) (offset value : Nat) : State :=
  match w with
  | .ringBase =>
    s.modRing offset (fun q => { q with base := page4k value }) (fun c => { c with base := page4k value })
  | .ringRcpt =>
    if s.hregs.ringKind then s
    else s.modRing offset (fun q => { q with rcptEn := bit value 0, rcptBase := page4k value }) id
  | .winBase => s.modStaged (fun w => { w with base := bits value 63 12 })
  | .winLimit => s.modStaged (fun w => { w with limit := bits value 63 12 })
  | .mpuStart => s.mpuRegion .start value
  | .mpuEnd => s.mpuRegion .stop value
  | .saltBase => s.modBookCfg offset (fun b => { b with saltBase := value / 256 * 256 })
  | .uid => s.modBookCfg offset (fun b => { b with uid := value })
  | .jrnlBase => s.modJrnlCfg offset true (fun b => { b with jBase := page4k value })
  | .sealBase => s.modJrnlCfg offset false (fun b => { b with sealBase := page4k value })
  | .dplBase n => s.dplCtl n value

/-- The word of a slice entry that is written (R278). -/
def State.writeSlice (s : State) (n o value : Nat) : State :=
  match o with
  | 0x00 => s.defer (.slice n (bits value 3 0))
  | 0x04 => if bit value 16 then s.modSlice n (fun x => { x with qref := false }) else s
  | 0x08 => s.pasidWrite n value
  | 0x0C => s.defer (.quota n .sq value)
  | 0x10 => s.defer (.quota n .cq value)
  | 0x14 => s.defer (.quota n .pan value)
  | 0x18 => s.defer (.quota n .sess value)
  | 0x1C => s.tokenWrite n value
  | 0x20 => s.defer (.quota n .limits value)
  | 0x38 => if bit value 18 then s.modSlice n (fun x => { x with dplAccess := false }) else s
  | 0x3C => s.dplConsume n value
  | _ => s

/-- The W1C bits of RING_STATUS (R273). -/
def Sq.clearFlags (q : Sq) (value : Nat) : Sq :=
  { q with dbStale := q.dbStale && !bit value 8, dbSize := q.dbSize && !bit value 9,
           dbDisabled := q.dbDisabled && !bit value 10, dbReserved := q.dbReserved && !bit value 11 }

/-- The word of the ring registers that is written (R237, R273). -/
def State.writeRing (s : State) (o value : Nat) : State :=
  let n := s.hregs.ringSel
  match o with
  | 0x00 => { s with hregs := { s.hregs with ringSel := bits value 15 0, ringKind := bit value 16 } }
  | 0x10 => s.ringCfg value
  | _ =>
    if s.hregs.ringKind then s
    else
      match o with
      | 0x14 => s.ringBind value
      | 0x18 => (s.defer (.mod_ n (bits value 7 0) (bits value 23 8))).sqErr n 0 0x020018
      | 0x2C => s.modSq n (fun q => q.clearFlags value)
      | 0x30 => if bit value 1 then s.defer (.unfence n) else s
      | _ => s

/-- The word of the window and MPU registers that is written (R324, R325). -/
def State.writeAccess (s : State) (o value : Nat) : State :=
  match o with
  | 0x000 => { s with hregs := { s.hregs with winSlice := bits value 9 0, winIndex := bits value 20 16 } }
  | 0x018 => s.modStaged (fun w => { w with en := bit value 0, r := bit value 1, w := bit value 2 })
  | 0x020 => s.barrierWrite value
  | 0x030 => if bit value 0 then { s with hregs := { s.hregs with winCap := none } } else s
  | 0x100 => { s with hregs := { s.hregs with mpuSel := bits value 5 0, mpuRegion := bits value 11 8 } }
  | 0x118 => s.mpuRegion .attr value
  | 0x11C => s.mpuCtl value
  | 0x128 => s.mpuCapFree value
  | _ => s

/-- The word of the scheduler registers that is written (R69). -/
def State.writeSched (s : State) (o value : Nat) : State :=
  match o with
  | 0x08 => { s with sched := { s.sched with
      tokenOver := s.sched.tokenOver && !bit value 0, bgMiss := s.sched.bgMiss && !bit value 1 } }
  | 0x10 => { s with sched := { s.sched with missed := s.sched.missed.filter (fun t => !bit value (8 + t)) } }
  | 0x20 => { s with sched := { s.sched with sel := bits value 9 0 } }
  | _ => s

/-- A write of PAN_CFG (R145). One after which the reservation sum of the slices would exceed the tally lines is refused like
the others: R117 states that the sum never does, and no rule states the refusal (log entry 64). -/
def State.panCfg (s : State) (value : Nat) : State :=
  let v := bits value 4 0
  if 16 < v || !s.liveBooks.isEmpty || decide (262144 < 4096 * v + s.panSum) then s.plogReg unitMgmt 0 0xFFFF 0x050100
  else { s with pan := { s.pan with nodeUnits := v } }

/-- The word of the book, journal, Pan and ledger fault registers that is written (R144, R145, R218, R243). -/
def State.writeBook (s : State) (o value : Nat) : State :=
  let n := s.brine.bookSel
  match o with
  | 0x00 => { s with brine := { s.brine with bookSel := bits value 9 0 } }
  | 0x04 => s.bookCtl (bits value 3 0)
  | 0x08 => s.modBook n (fun b =>
      { b with holdExpired := b.holdExpired && !bit value 9, wbAccess := b.wbAccess && !bit value 11 })
  | 0x0C => s.modBookCfg 0x05000C (fun b => { b with strands := bits value 6 0, keySlot := bits value 29 16 })
  | 0x18 => s.modBookCfg 0x050018 (fun b => { b with cap := bits value 30 0 })
  | 0x48 => s.jrnlCfg value
  | 0x58 => s.modBook n (fun b =>
      { b with fullSeen := b.fullSeen && !bit value 1, wrAccess := b.wrAccess && !bit value 2,
               sealAccess := b.sealAccess && !bit value 3 })
  | 0x100 => s.panCfg value
  | 0x140 => { s with pan := { s.pan with
      reloadFail := s.pan.reloadFail && !bit value 0, nodeLoss := s.pan.nodeLoss && !bit value 1,
      redoFail := s.pan.redoFail && !bit value 2 } }
  | _ => s

/-- The word of the non-volatile store registers that is written (R496). -/
def State.writeNv (s : State) (o value : Nat) : State :=
  match o with
  | 0x00 => if bit value 2 then { s with nv := { s.nv with flushLost := false } } else s
  | 0x04 => if bit value 0 then s.commitBuffer else s
  | 0x10 => { s with nv := { s.nv with partSel := bits value 5 0 } }
  | 0x14 => s.partCfg value
  | 0x40 => { s with nv := { s.nv with cntSel := bits value 11 0 } }
  | 0x44 => s.cntOwner value
  | _ => s

/-- A write of BAT_CFG whose check of loop and mesh is a free value (log entry 38). -/
def State.batCfgFree (s : State) (value : Nat) : State :=
  s.drawn.batCfg value (Config.freeNat s.draws % 2 == 1) (Config.freeNat s.draws / 2 % 2 == 1)

/-- A write of CL_CFG; a PING_MS outside 100 to 500 is ignored and logged (R548). -/
def State.clCfg (s : State) (value : Nat) : State :=
  let ms := bits value 8 0
  let s := { s with cl := { s.cl with detThr := bits value 23 16, rate := bits value 25 24 } }
  if ms < 100 || 500 < ms then s.plogReg 19 0 0xFFFF 0x080000 else { s with cl := { s.cl with pingMs := ms } }

/-- The word of the other registers that is written. -/
def State.writeOther (s : State) (offset value : Nat) : State :=
  match offset with
  | 0x000100 => if bit value 1 then { s with keys := { s.keys with weakMask := false } } else s
  | 0x000200 => if bit value 3 then { s with pwr := { s.pwr with flushed := false } } else s
  | 0x070020 => s.batCfgFree value
  | 0x070024 => if bit value 4 then { s with tamper := { s.tamper with armErr := false } } else s
  | 0x080000 => s.clCfg value
  | 0x09000C => { s with rng := { s.rng with
      errEmpty := s.rng.errEmpty && !bit value 0, errSlow := s.rng.errSlow && !bit value 1,
      errLate := s.rng.errLate && !bit value 3 } }
  | 0x0A0020 => if bit value 0 then { s with tel := { s.tel with peakClr := true } } else s
  | 0x0A0208 => s.logAck false value
  | 0x0A0218 => s.logAck true value
  | _ => s

/-- A write of one 32-bit register. -/
def State.writeWord (s : State) (offset value : Nat) : State :=
  let o := offset % 0x10000
  match offset / 0x10000 with
  | 0x1 => s.writeSlice (o / 64) (o % 64) value
  | 0x2 => s.writeRing o value
  | 0x3 => s.writeAccess o value
  | 0x4 => s.writeSched o value
  | 0x5 => s.writeBook o value
  | 0x6 => s.writeNv o value
  | _ => s.writeOther offset value

/-- A 32-bit write: of a register, or of one half of a 64-bit register, whose other half stands. -/
def State.writeHalf (s : State) (offset value : Nat) : State :=
  let base := offset / 8 * 8
  match wideAt base with
  | none => s.writeWord offset value
  | some w =>
    if offset = base then s.writeWide w offset (value + 2 ^ 32 * s.readWord (base + 4))
    else s.writeWide w offset (s.readWord base + 2 ^ 32 * value)

/-- A host write of BAR0 (R15, R252). -/
def State.writeBar0 (s : State) (offset size value : Nat) : State :=
  if !bar0Good offset size then s.badAccess offset size true
  else if size == 4 then s.onReg offset (fun s => s.writeHalf offset (value % 2 ^ 32))
  else
    match wideAt offset with
    | some w => s.onReg offset (fun s => s.writeWide w offset (value % 2 ^ 64))
    | none =>
      (s.onReg offset (fun s => s.writeHalf offset (value % 2 ^ 32))).onReg (offset + 4)
        (fun s => s.writeHalf (offset + 4) (value / 2 ^ 32 % 2 ^ 32))

/-! Configuration space (R245-R247). -/

/-- A configuration request: served once configuration is ready, else answered with CRS (R246, R277). -/
def State.onCfg (s : State) (f : State → State) : State :=
  if !s.link.up || s.pwr.flush.isSome then s
  else if 8 ≤ s.pwr.step && !s.link.resetting then f s
  else s.emit .crs

/-- A field of Device Control or Device Control 2 (R245); encodings above the largest size supported act as that size
(log entry 12). -/
def Link.write (l : Link) (r : RegTarget) (value : Nat) : Link :=
  match r with
  | .relaxedOrdering => { l with roEn := bit value 0 }
  | .noSnoop => { l with nsEn := bit value 0 }
  | .idoRequest => { l with idoEn := bit value 0 }
  | .maxPayload => { l with mps := 128 * 2 ^ min 2 (bits value 2 0) }
  | .maxReadRequest => { l with mrrs := 128 * 2 ^ min 5 (bits value 2 0) }
  | .tag10 => { l with tag10 := bit value 0 }
  | .msixEnable => { l with msixEn := bit value 0 }
  | .functionMask => { l with funcMask := bit value 0 }
  | .bar0 _ _ => l

/-- Messages that wait are sent once their vectors, MSI-X and the link let them (R247, R271). -/
def State.sendPending (s : State) : State :=
  if s.linkOpen then
    (s.msix.filter (fun e => e.2.pending && !s.silent e.2)).foldl
      (fun s e => (s.setVector e.1 { e.2 with pending := false }).emit (.msix e.2.addr e.2.data)) s
  else s

/-- REGISTER_WRITE: a host write of BAR0, or of a setting of configuration space that R245 and R252 honour. -/
def execRegisterWrite (reg : RegTarget) (value : Nat) (s : State) : Host.Outcome State Fault Refusal :=
  match reg with
  | .bar0 offset size =>
    .next (if s.barUp then s.writeBar0 offset size value else if s.barClosed then s.barRefused offset else s)
  | r => .next (s.onCfg (fun s => State.sendPending { s with link := s.link.write r value }))

/-- The value of a field of configuration space (R4, R8, R245, R251). The encodings of sizes and BAR offsets are those of the
base specification (log entry 12). -/
def Link.read (l : Link) (f : CfgField) : Nat :=
  match f with
  | .vendorId => 0x1F3C
  | .deviceId => 0x9640
  | .revisionId => htmIdent % 256
  | .classCode => 0x108000
  | .interruptPin => 0
  | .maxLinkSpeed => 5
  | .maxLinkWidth => 16
  | .aspm => 0
  | .noSoftReset => 1
  | .pme => 0
  | .maxPayloadSupported => 2
  | .tag10Requester => 1
  | .flr => 1
  | .timeoutRanges => 0xF
  | .timeoutDisable => 1
  | .msi => 0
  | .msixSize => 2047
  | .msixTable => 0x0000 + 4
  | .msixPba => 0x8000 + 4
  | .aer => 1
  | .pasidWidth => 20
  | .executePermission => 0
  | .privilegedMode => 0
  | .ats => 0
  | .pri => 0
  | .sriov => 0
  | .atomicOp => 0
  | .resizableBar => 0
  | .busMaster => flag l.bme
  | .d3hot => if l.d3hot then 3 else 0
  | .pasidEnable => flag l.pasidEn
  | .relaxedOrdering => flag l.roEn
  | .noSnoop => flag l.nsEn
  | .idoRequest => flag l.idoEn
  | .maxPayload => Nat.log2 (l.mps / 128)
  | .maxReadRequest => Nat.log2 (l.mrrs / 128)
  | .tag10Enable => flag l.tag10
  | .msixEnable => flag l.msixEn
  | .functionMask => flag l.funcMask

/-- CONFIG_REQUEST_RETRY (R246): a configuration read. -/
def execConfigRequestRetry (field : CfgField) (s : State) : Host.Outcome State Fault Refusal :=
  .next (s.onCfg (fun s => s.emit (.config field (s.link.read field))))

/-- The bits that hold host traffic (R247). -/
def State.setMaster (s : State) (bme pasidEn d3hot : Bool) : State :=
  State.sendPending { s with link := { s.link with bme := bme, pasidEn := pasidEn, d3hot := d3hot } }

/-- BUS_MASTER_ENABLE_CHANGE: a configuration write of these bits. -/
def execBusMasterEnableChange (bme pasidEn d3hot : Bool) (s : State) : Host.Outcome State Fault Refusal :=
  .next (s.onCfg (fun s => s.setMaster bme pasidEn d3hot))

/-- UNSUPPORTED_BAR_REQUEST (R250). -/
def execUnsupportedBarRequest (offset : Nat) (s : State) : Host.Outcome State Fault Refusal :=
  .next (if s.barUp || s.barClosed then s.barRefused offset else s)

/-- BAR0_BAD_ACCESS (R252). -/
def execBar0BadAccess (offset size : Nat) (write : Bool) (s : State) : Host.Outcome State Fault Refusal :=
  .next (if bar0Good offset size then s else s.onBar offset (fun s => s.badAccess offset size write))

/-- AER bits of the correctable register (PCI Express base specification): receiver error, bad TLP, bad DLLP, REPLAY_NUM
rollover, replay timer timeout. The others are uncorrectable and numbered from 32. -/
def aerBit (n : Nat) : Nat := if n == 0 || n == 6 || n == 7 || n == 8 || n == 12 then n else 32 + n

/-- LINK_PROTOCOL_VIOLATION (R249, R582): recorded in AER and logged; nothing else changes. -/
def execLinkProtocolViolation (bit : Nat) (s : State) : Host.Outcome State Fault Refusal :=
  .next (if !s.pwr.starting || s.pwr.flush.isSome then s
    else
      let aer := if s.link.aer.contains (aerBit bit) then s.link.aer else s.link.aer ++ [aerBit bit]
      { s with link := { s.link with aer := aer } }.plogEvent unitPcie 0x05 0 0xFFFF 0xFFFF bit)

/-! The MSI-X table (R251, R271). -/

/-- One word of a table entry is written. -/
def Vector.write (v : Vector) (word value : Nat) : Vector :=
  match word with
  | 0 => { v with addr := v.addr / 2 ^ 32 * 2 ^ 32 + value / 4 * 4 % 2 ^ 32 }
  | 1 => { v with addr := v.addr % 2 ^ 32 + 2 ^ 32 * (value % 2 ^ 32) }
  | 2 => { v with data := value % 2 ^ 32 }
  | _ => { v with masked := bit value 0 }

/-- A pending message goes out once its vector is unmasked and the link is open. -/
def State.unmasked (s : State) (n : Nat) : State :=
  let e := s.vectorAt n
  if e.pending && !s.silent e && s.linkOpen then (s.setVector n { e with pending := false }).emit (.msix e.addr e.data) else s

/-- A write of a word of BAR4; the PBA is read-only. -/
def State.writeMsix (s : State) (offset value : Nat) : State :=
  if offset % 4 != 0 || decide (0x8000 ≤ offset) then s
  else (s.setVector (offset / 16) ((s.vectorAt (offset / 16)).write (offset % 16 / 4) value)).unmasked (offset / 16)

/-- MSIX_TABLE_WRITE. -/
def execMsixTableWrite (offset value : Nat) (s : State) : Host.Outcome State Fault Refusal :=
  .next (s.onDoorbell offset (fun s => s.writeMsix offset value))

end Sys2Proof.Machine
end

