-- ==== Sys2Proof/Machine/Dispatch.lean ====
section
/-! DEFINITION. The effect of every command: one arm per row of the command table. -/

namespace Sys2Proof.Machine
open Sys2Proof

/-- The effect of a command on everything but the queue. -/
def exec (i : Instr) (s : State) : Host.Outcome State Fault Refusal :=
  match i with
  | .grainBoundary wall => Sys2Proof.Machine.execGrainBoundary wall s
  | .scrupleBoundary => Sys2Proof.Machine.execScrupleBoundary s
  | .bgDeadlineMiss task => Sys2Proof.Machine.execBgDeadlineMiss task s
  | .submissionDoorbell ring value => Sys2Proof.Machine.execSubmissionDoorbell ring value s
  | .journalPersistedDoorbell ring lseq => Sys2Proof.Machine.execJournalPersistedDoorbell ring lseq s
  | .journalDrainedDoorbell ring lseq => Sys2Proof.Machine.execJournalDrainedDoorbell ring lseq s
  | .doorbellWriteCombined offset data => Sys2Proof.Machine.execDoorbellWriteCombined offset data s
  | .fetchReadIssue ring => Sys2Proof.Machine.execFetchReadIssue ring s
  | .descriptorArrival ring data bad => Sys2Proof.Machine.execDescriptorArrival ring data bad s
  | .fetchReadRetry ring index poisoned => Sys2Proof.Machine.execFetchReadRetry ring index poisoned s
  | .primeAdmission => Sys2Proof.Machine.execPrimeAdmission s
  | .nop ring => Sys2Proof.Machine.execNop ring s
  | .counterRead ring => Sys2Proof.Machine.execCounterRead ring s
  | .counterIncr ring => Sys2Proof.Machine.execCounterIncr ring s
  | .tallyRead ring => Sys2Proof.Machine.execTallyRead ring s
  | .tallyAdjust ring => Sys2Proof.Machine.execTallyAdjust ring s
  | .macGen ring => Sys2Proof.Machine.execMacGen ring s
  | .macVerify ring => Sys2Proof.Machine.execMacVerify ring s
  | .compare ring => Sys2Proof.Machine.execCompare ring s
  | .post ring => Sys2Proof.Machine.execPost ring s
  | .tallyOpen ring => Sys2Proof.Machine.execTallyOpen ring s
  | .tallySet ring => Sys2Proof.Machine.execTallySet ring s
  | .tallyClose ring => Sys2Proof.Machine.execTallyClose ring s
  | .postingAdmission => Sys2Proof.Machine.execPostingAdmission s
  | .postingHeldJournalFull ring => Sys2Proof.Machine.execPostingHeldJournalFull ring s
  | .postingCommit book => Sys2Proof.Machine.execPostingCommit book s
  | .completionIssue ring => Sys2Proof.Machine.execCompletionIssue ring s
  | .completionWriteRetry cq => Sys2Proof.Machine.execCompletionWriteRetry cq s
  | .msixTimerExpiry ring => Sys2Proof.Machine.execMsixTimerExpiry ring s
  | .frameWriteIssue book => Sys2Proof.Machine.execFrameWriteIssue book s
  | .headFold book => Sys2Proof.Machine.execHeadFold book s
  | .frameWriteRetry book => Sys2Proof.Machine.execFrameWriteRetry book s
  | .sealFormation book => Sys2Proof.Machine.execSealFormation book s
  | .sealSigned book => Sys2Proof.Machine.execSealSigned book s
  | .sealBook ring => Sys2Proof.Machine.execSeal ring s
  | .checkpoint ring => Sys2Proof.Machine.execCheckpoint ring s
  | .checkpointPhase2 book => Sys2Proof.Machine.execCheckpointPhase2 book s
  | .checkpointRelease ring => Sys2Proof.Machine.execCheckpointRelease ring s
  | .checkpointHoldExpiry book => Sys2Proof.Machine.execCheckpointHoldExpiry book s
  | .checkpointRestore ring => Sys2Proof.Machine.execCheckpointRestore ring s
  | .replay ring => Sys2Proof.Machine.execReplay ring s
  | .replayEnd ring => Sys2Proof.Machine.execReplayEnd ring s
  | .gapClear ring => Sys2Proof.Machine.execGapClear ring s
  | .adoptPrepare ring => Sys2Proof.Machine.execAdoptPrepare ring s
  | .handover ring => Sys2Proof.Machine.execHandover ring s
  | .adopt ring => Sys2Proof.Machine.execAdopt ring s
  | .create => Sys2Proof.Machine.execCreate s
  | .delete => Sys2Proof.Machine.execDelete s
  | .bookCommandExamine book => Sys2Proof.Machine.execBookCommandExamine book s
  | .bookSetupDone book => Sys2Proof.Machine.execBookSetupDone book s
  | .deleteComplete book => Sys2Proof.Machine.execDeleteComplete book s
  | .salternBlockLoaded book block objects => Sys2Proof.Machine.execSalternBlockLoaded book block objects s
  | .salternReadRetry book block => Sys2Proof.Machine.execSalternReadRetry book block s
  | .blockWriteBack book level index => Sys2Proof.Machine.execBlockWriteBack book level index s
  | .writeBackRetry book level index => Sys2Proof.Machine.execWriteBackRetry book level index s
  | .panRebuild book block => Sys2Proof.Machine.execPanRebuild book block s
  | .rebuildFrameArrival book block data => Sys2Proof.Machine.execRebuildFrameArrival book block data s
  | .unfence => Sys2Proof.Machine.execUnfence s
  | .correctedWordWriteback place upset => Sys2Proof.Machine.execCorrectedWordWriteback place upset s
  | .uncorrectableError word upset => Sys2Proof.Machine.execUncorrectableError word upset s
  | .tamperLevel2Squash glitch unit index => Sys2Proof.Machine.execTamperLevel2Squash glitch unit index s
  | .glitchDetectorTrip detector => Sys2Proof.Machine.execGlitchDetectorTrip detector s
  | .overvoltageTrip rail => Sys2Proof.Machine.execOvervoltageTrip rail s
  | .clockPeriodTrip => Sys2Proof.Machine.execClockPeriodTrip s
  | .clockFrequencyTrip mhz => Sys2Proof.Machine.execClockFrequencyTrip mhz s
  | .clockRelock => Sys2Proof.Machine.execClockRelock s
  | .lightSensorTrip sensor => Sys2Proof.Machine.execLightSensorTrip sensor s
  | .temperatureGradeTrip sensor tj => Sys2Proof.Machine.execTemperatureGradeTrip sensor tj s
  | .temperatureTrip sensor tj => Sys2Proof.Machine.execTemperatureTrip sensor tj s
  | .sensorCalibration deviations => Sys2Proof.Machine.execSensorCalibration deviations s
  | .substrateMeshFail mesh => Sys2Proof.Machine.execSubstrateMeshFail mesh s
  | .batteryLoopCheck loopFault meshFault => Sys2Proof.Machine.execBatteryLoopCheck loopFault meshFault s
  | .vbatLow => Sys2Proof.Machine.execVbatLow s
  | .keyEraseComplete => Sys2Proof.Machine.execKeyEraseComplete s
  | .bitternSummaryFormed => Sys2Proof.Machine.execBitternSummaryFormed s
  | .mainRailFail rail => Sys2Proof.Machine.execMainRailFail rail s
  | .pwrFailNAssert => Sys2Proof.Machine.execPwrFailNAssert s
  | .perstNAssert => Sys2Proof.Machine.execPerstNAssert s
  | .drainCutoff cause => Sys2Proof.Machine.execDrainCutoff cause s
  | .keepDomainStop written => Sys2Proof.Machine.execKeepDomainStop written s
  | .startUp array holdMv vbatLost => Sys2Proof.Machine.execStartUp array holdMv vbatLost s
  | .linkTrainingStart => Sys2Proof.Machine.execLinkTrainingStart s
  | .configurationReady => Sys2Proof.Machine.execConfigurationReady s
  | .ringsServiceable => Sys2Proof.Machine.execRingsServiceable s
  | .keySweep => Sys2Proof.Machine.execKeySweep s
  | .keySweepFallbackMask => Sys2Proof.Machine.execKeySweepFallbackMask s
  | .holdWeak holdMv => Sys2Proof.Machine.execHoldWeak holdMv s
  | .writeThroughExit => Sys2Proof.Machine.execWriteThroughExit s
  | .grainRecord => Sys2Proof.Machine.execGrainRecord s
  | .functionLevelReset => Sys2Proof.Machine.execFunctionLevelReset s
  | .hotReset => Sys2Proof.Machine.execHotReset s
  | .linkDownReset => Sys2Proof.Machine.execLinkDownReset s
  | .busMasterEnableChange bme pasidEn d3hot => Sys2Proof.Machine.execBusMasterEnableChange bme pasidEn d3hot s
  | .configRequestRetry field => Sys2Proof.Machine.execConfigRequestRetry field s
  | .unsupportedBarRequest offset => Sys2Proof.Machine.execUnsupportedBarRequest offset s
  | .bar0BadAccess offset size write => Sys2Proof.Machine.execBar0BadAccess offset size write s
  | .linkProtocolViolation bit => Sys2Proof.Machine.execLinkProtocolViolation bit s
  | .hostReadRetry tag => Sys2Proof.Machine.execHostReadRetry tag s
  | .hostReadCompletion tag data => Sys2Proof.Machine.execHostReadCompletion tag data s
  | .registerWrite reg value => Sys2Proof.Machine.execRegisterWrite reg value s
  | .rcRegisterRead bar offset size => Sys2Proof.Machine.execRcRegisterRead bar offset size s
  | .ringEnable value => Sys2Proof.Machine.execRingEnable value s
  | .ringDisable value => Sys2Proof.Machine.execRingDisable value s
  | .ringDisableDone ring => Sys2Proof.Machine.execRingDisableDone ring s
  | .activate slice => Sys2Proof.Machine.execActivate slice s
  | .quiesce slice => Sys2Proof.Machine.execQuiesce slice s
  | .resume slice => Sys2Proof.Machine.execResume slice s
  | .reset slice => Sys2Proof.Machine.execReset slice s
  | .remove slice => Sys2Proof.Machine.execRemove slice s
  | .sliceResetComplete slice => Sys2Proof.Machine.execSliceResetComplete slice s
  | .sliceFree slice => Sys2Proof.Machine.execSliceFree slice s
  | .sliceQuotaWrite slice quota value => Sys2Proof.Machine.execSliceQuotaWrite slice quota value s
  | .tokenQuotaWrite slice value => Sys2Proof.Machine.execTokenQuotaWrite slice value s
  | .slicePasidWrite slice value => Sys2Proof.Machine.execSlicePasidWrite slice value s
  | .dplEnable slice value => Sys2Proof.Machine.execDplEnable slice value s
  | .dplReadWrite slice value => Sys2Proof.Machine.execDplReadWrite slice value s
  | .windowBarrier value => Sys2Proof.Machine.execWindowBarrier value s
  | .windowBarrierEnd slice => Sys2Proof.Machine.execWindowBarrierEnd slice s
  | .mpuDisable value => Sys2Proof.Machine.execMpuDisable value s
  | .mpuEnable value => Sys2Proof.Machine.execMpuEnable value s
  | .mpuRegionWrite reg value => Sys2Proof.Machine.execMpuRegionWrite reg value s
  | .mpuWriteBufferDrain mpu => Sys2Proof.Machine.execMpuWriteBufferDrain mpu s
  | .invoke ring => Sys2Proof.Machine.execInvoke ring s
  | .invocationCoreAssign => Sys2Proof.Machine.execInvocationCoreAssign s
  | .imageLoadComplete core image mailbox => Sys2Proof.Machine.execImageLoadComplete core image mailbox s
  | .imageSignatureVerified core => Sys2Proof.Machine.execImageSignatureVerified core s
  | .budgetTrap core => Sys2Proof.Machine.execBudgetTrap core s
  | .serviceCallEnd core => Sys2Proof.Machine.execServiceCallEnd core s
  | .allowAdd ring => Sys2Proof.Machine.execAllowAdd ring s
  | .allowRemove ring => Sys2Proof.Machine.execAllowRemove ring s
  | .allowRead ring => Sys2Proof.Machine.execAllowRead ring s
  | .svcTallyRead core => Sys2Proof.Machine.execSvcTallyRead core s
  | .svcPost core => Sys2Proof.Machine.execSvcPost core s
  | .svcDigest core => Sys2Proof.Machine.execSvcDigest core s
  | .svcMac core => Sys2Proof.Machine.execSvcMac core s
  | .svcDerive core => Sys2Proof.Machine.execSvcDerive core s
  | .svcBignum core => Sys2Proof.Machine.execSvcBignum core s
  | .svcRandom core => Sys2Proof.Machine.execSvcRandom core s
  | .svcNvRead core => Sys2Proof.Machine.execSvcNvRead core s
  | .svcNvWrite core => Sys2Proof.Machine.execSvcNvWrite core s
  | .svcReturn core => Sys2Proof.Machine.execSvcReturn core s
  | .dadd core => Sys2Proof.Machine.execDadd core s
  | .dsub core => Sys2Proof.Machine.execDsub core s
  | .dcmp core => Sys2Proof.Machine.execDcmp core s
  | .dmul core => Sys2Proof.Machine.execDmul core s
  | .ddiv core => Sys2Proof.Machine.execDdiv core s
  | .drnd core => Sys2Proof.Machine.execDrnd core s
  | .dshf core => Sys2Proof.Machine.execDshf core s
  | .dneg core => Sys2Proof.Machine.execDneg core s
  | .dabs core => Sys2Proof.Machine.execDabs core s
  | .dmov core => Sys2Proof.Machine.execDmov core s
  | .dnrm core => Sys2Proof.Machine.execDnrm core s
  | .dval core => Sys2Proof.Machine.execDval core s
  | .dtst core => Sys2Proof.Machine.execDtst core s
  | .dcvb core => Sys2Proof.Machine.execDcvb core s
  | .dcvd core => Sys2Proof.Machine.execDcvd core s
  | .dli core => Sys2Proof.Machine.execDli core s
  | .daddi core => Sys2Proof.Machine.execDaddi core s
  | .dcmpi core => Sys2Proof.Machine.execDcmpi core s
  | .dget core => Sys2Proof.Machine.execDget core s
  | .dput core => Sys2Proof.Machine.execDput core s
  | .dsel core => Sys2Proof.Machine.execDsel core s
  | .ldd core => Sys2Proof.Machine.execLdd core s
  | .std core => Sys2Proof.Machine.execStd core s
  | .ldx core => Sys2Proof.Machine.execLdx core s
  | .stx core => Sys2Proof.Machine.execStx core s
  | .ldh core => Sys2Proof.Machine.execLdh core s
  | .sth core => Sys2Proof.Machine.execSth core s
  | .ldb core => Sys2Proof.Machine.execLdb core s
  | .stb core => Sys2Proof.Machine.execStb core s
  | .xadd core => Sys2Proof.Machine.execXadd core s
  | .xsub core => Sys2Proof.Machine.execXsub core s
  | .xand core => Sys2Proof.Machine.execXand core s
  | .xor core => Sys2Proof.Machine.execXor core s
  | .xxor core => Sys2Proof.Machine.execXxor core s
  | .xshl core => Sys2Proof.Machine.execXshl core s
  | .xshr core => Sys2Proof.Machine.execXshr core s
  | .xsar core => Sys2Proof.Machine.execXsar core s
  | .xmul core => Sys2Proof.Machine.execXmul core s
  | .xcmp core => Sys2Proof.Machine.execXcmp core s
  | .xaddi core => Sys2Proof.Machine.execXaddi core s
  | .xli core => Sys2Proof.Machine.execXli core s
  | .xlui core => Sys2Proof.Machine.execXlui core s
  | .xori core => Sys2Proof.Machine.execXori core s
  | .xandi core => Sys2Proof.Machine.execXandi core s
  | .xcmpi core => Sys2Proof.Machine.execXcmpi core s
  | .b core => Sys2Proof.Machine.execB core s
  | .bl core => Sys2Proof.Machine.execBl core s
  | .br core => Sys2Proof.Machine.execBr core s
  | .dbnz core => Sys2Proof.Machine.execDbnz core s
  | .alaingNop core => Sys2Proof.Machine.execAlaingNop core s
  | .svc core => Sys2Proof.Machine.execSvc core s
  | .trap core => Sys2Proof.Machine.execTrap core s
  | .setm core => Sys2Proof.Machine.execSetm core s
  | .mff core => Sys2Proof.Machine.execMff core s
  | .mtf core => Sys2Proof.Machine.execMtf core s
  | .sessionOpen ring => Sys2Proof.Machine.execSessionOpen ring s
  | .sessionDerive ring => Sys2Proof.Machine.execSessionDerive ring s
  | .sessionClose ring => Sys2Proof.Machine.execSessionClose ring s
  | .sessionRederivation handle => Sys2Proof.Machine.execSessionRederivation handle s
  | .keyRemask target index => Sys2Proof.Machine.execKeyRemask target index s
  | .slotWrite ring => Sys2Proof.Machine.execSlotWrite ring s
  | .slotErase ring => Sys2Proof.Machine.execSlotErase ring s
  | .authWrite ring => Sys2Proof.Machine.execAuthWrite ring s
  | .authErase ring => Sys2Proof.Machine.execAuthErase ring s
  | .provision ring => Sys2Proof.Machine.execProvision ring s
  | .familyRead ring => Sys2Proof.Machine.execFamilyRead ring s
  | .certRead ring => Sys2Proof.Machine.execCertRead ring s
  | .cipher ring => Sys2Proof.Machine.execCipher ring s
  | .mac ring => Sys2Proof.Machine.execMac ring s
  | .digest ring => Sys2Proof.Machine.execDigest ring s
  | .digestUpdate ring => Sys2Proof.Machine.execDigestUpdate ring s
  | .digestFinish ring => Sys2Proof.Machine.execDigestFinish ring s
  | .modexp ring => Sys2Proof.Machine.execModexp ring s
  | .modmul ring => Sys2Proof.Machine.execModmul ring s
  | .rsaPublic ring => Sys2Proof.Machine.execRsaPublic ring s
  | .rsaPrivate ring => Sys2Proof.Machine.execRsaPrivate ring s
  | .ecdsaSign ring => Sys2Proof.Machine.execEcdsaSign ring s
  | .ecdsaVerify ring => Sys2Proof.Machine.execEcdsaVerify ring s
  | .ecdh ring => Sys2Proof.Machine.execEcdh ring s
  | .x25519 ring => Sys2Proof.Machine.execX25519 ring s
  | .ed25519Sign ring => Sys2Proof.Machine.execEd25519Sign ring s
  | .ed25519Verify ring => Sys2Proof.Machine.execEd25519Verify ring s
  | .bnJobEnd engine mismatch => Sys2Proof.Machine.execBnJobEnd engine mismatch s
  | .random ring => Sys2Proof.Machine.execRandom ring s
  | .rngKat ring => Sys2Proof.Machine.execRngKat ring s
  | .rngInject ring => Sys2Proof.Machine.execRngInject ring s
  | .rngBlockEnd samples => Sys2Proof.Machine.execRngBlockEnd samples s
  | .conditioning => Sys2Proof.Machine.execConditioning s
  | .drbgInstantiate => Sys2Proof.Machine.execDrbgInstantiate s
  | .drbgReseed => Sys2Proof.Machine.execDrbgReseed s
  | .reseedOverdue => Sys2Proof.Machine.execReseedOverdue s
  | .rngOutputStep => Sys2Proof.Machine.execRngOutputStep s
  | .rngStartupSlow => Sys2Proof.Machine.execRngStartupSlow s
  | .rngWaitTimeout => Sys2Proof.Machine.execRngWaitTimeout s
  | .rngDataRead size => Sys2Proof.Machine.execRngDataRead size s
  | .nvRead ring => Sys2Proof.Machine.execNvRead ring s
  | .nvWrite ring => Sys2Proof.Machine.execNvWrite ring s
  | .nvCommit ring => Sys2Proof.Machine.execNvCommit ring s
  | .nvPasswd ring => Sys2Proof.Machine.execNvPasswd ring s
  | .nvCtlCommit => Sys2Proof.Machine.execNvCtlCommit s
  | .writeBufferIdleCommit => Sys2Proof.Machine.execWriteBufferIdleCommit s
  | .pageWrite => Sys2Proof.Machine.execPageWrite s
  | .nvScrubStep corrected bad => Sys2Proof.Machine.execNvScrubStep corrected bad s
  | .counterPeriodicStore counter => Sys2Proof.Machine.execCounterPeriodicStore counter s
  | .nvPartCfgWrite value => Sys2Proof.Machine.execNvPartCfgWrite value s
  | .cntOwnerWrite value => Sys2Proof.Machine.execCntOwnerWrite value s
  | .batCfgWrite value loopOk meshOk => Sys2Proof.Machine.execBatCfgWrite value loopOk meshOk s
  | .custChallenge ring => Sys2Proof.Machine.execCustChallenge ring s
  | .challengeSlotLapse slot => Sys2Proof.Machine.execChallengeSlotLapse slot s
  | .lcStage ring => Sys2Proof.Machine.execLcStage ring s
  | .lcChange ring => Sys2Proof.Machine.execLcChange ring s
  | .bitternStatement ring => Sys2Proof.Machine.execBitternStatement ring s
  | .clCollect ring => Sys2Proof.Machine.execClCollect ring s
  | .clAbort ring => Sys2Proof.Machine.execClAbort ring s
  | .clCollectWaitExpiry => Sys2Proof.Machine.execClCollectWaitExpiry s
  | .externalFieldCheck field => Sys2Proof.Machine.execExternalFieldCheck field s
  | .cardPing amplitude => Sys2Proof.Machine.execCardPing amplitude s
  | .cardAnswer data => Sys2Proof.Machine.execCardAnswer data s
  | .cardFrameTimeout => Sys2Proof.Machine.execCardFrameTimeout s
  | .tagSelectApplication aid => Sys2Proof.Machine.execTagSelectApplication aid s
  | .tagSelectFile fid => Sys2Proof.Machine.execTagSelectFile fid s
  | .readBinary offset le => Sys2Proof.Machine.execReadBinary offset le s
  | .updateBinary offset data capMv field => Sys2Proof.Machine.execUpdateBinary offset data capMv field s
  | .verify write password capMv => Sys2Proof.Machine.execVerify write password capMv s
  | .tagFrameError => Sys2Proof.Machine.execTagFrameError s
  | .fieldLoss => Sys2Proof.Machine.execFieldLoss s
  | .sbIdent => Sys2Proof.Machine.execSbIdent s
  | .sbDeviceId => Sys2Proof.Machine.execSbDeviceId s
  | .sbTjMax => Sys2Proof.Machine.execSbTjMax s
  | .sbTjMin => Sys2Proof.Machine.execSbTjMin s
  | .sbPower => Sys2Proof.Machine.execSbPower s
  | .sbHold => Sys2Proof.Machine.execSbHold s
  | .sbLcState => Sys2Proof.Machine.execSbLcState s
  | .sbTamperFlags => Sys2Proof.Machine.execSbTamperFlags s
  | .sbTamperCause => Sys2Proof.Machine.execSbTamperCause s
  | .sbStatusFlags => Sys2Proof.Machine.execSbStatusFlags s
  | .sbHalt => Sys2Proof.Machine.execSbHalt s
  | .sbSensorTj sensor => Sys2Proof.Machine.execSbSensorTj sensor s
  | .sidebandViolation code => Sys2Proof.Machine.execSidebandViolation code s
  | .smbusClockTimeout => Sys2Proof.Machine.execSmbusClockTimeout s
  | .telemetrySample tj power holdMv => Sys2Proof.Machine.execTelemetrySample tj power holdMv s
  | .peakClr => Sys2Proof.Machine.execPeakClr s
  | .logAckWrite tamper seq => Sys2Proof.Machine.execLogAckWrite tamper seq s
  | .fieldPresent field => Sys2Proof.Machine.execFieldPresent field s
  | .tagAnticollision frame => Sys2Proof.Machine.execTagAnticollision frame s
  | .cardActivationAnswer data collision => Sys2Proof.Machine.execCardActivationAnswer data collision s
  | .msixTableWrite offset value => Sys2Proof.Machine.execMsixTableWrite offset value s
  | .vbatRestored => Sys2Proof.Machine.execVbatRestored s
  | .functionLevelResetComplete => Sys2Proof.Machine.execFunctionLevelResetComplete s
  | .linkUp => Sys2Proof.Machine.execLinkUp s

end Sys2Proof.Machine
end

