-- ==== Sys2Proof/Safety.lean ====
section
/-! DEFINITION. What counts as a safe step, and what every step keeps: the bounds of the device's buffers and the
canonical form of its memories and tables. -/

namespace Sys2Proof.Machine
open Sys2Proof

/-- The command completes: exec answers a next state. -/
def Completes (i : Instr) (s : State) : Prop := ∃ t, exec i s = .next t

/-- The device can take one step. -/
def Safe (s : State) : Prop := ∃ t, step s = .next t

/-- The registers of an Alaing core are 16 and 8 (R326), and its local memories (R41, R332) are in canonical form. -/
structure Core.Wf (c : Core) : Prop where
  code : Twf 0 c.code
  data : Twf 0 c.data
  mail : Twf 0 c.mail
  res : Twf 0 c.res
  arg : Twf 0 c.arg
  d : c.d.length = 16
  x : c.x.length = 8

/-- Every entry of the core table is so. -/
def CoresWf (t : Table Core) : Prop := ∀ e ∈ t, e.2.Wf

/-- Bounds of the random unit: 3 conditioner outputs (R446), also before a step that may be squashed (R459), 64 bytes of
RNG_DATA and of the firmware's port (R453), 256 bytes of output (R447). -/
structure Rng.Bounded (r : Rng) : Prop where
  pool : r.pool.length ≤ 3
  fifo : r.fifo.length ≤ 64
  buf : r.buf.length ≤ 256
  fw : r.fwFifo.length ≤ 64
  undo : ∀ u ∈ r.undo, u.pool.length ≤ 3

/-- What every step keeps. -/
structure Inv (s : State) : Prop where
  /-- There are 45 master MPUs (R313). -/
  mpus : s.mpus.length = 45
  /-- The bounds of the random unit. -/
  rng : s.rng.Bounded
  /-- The brine window holds at most 1,024 entries (R159). -/
  brine : s.brine.entries.length ≤ 1024
  /-- The write buffer of the store holds at most 64 pages (R475). -/
  wbuf : s.nv.wbuf.length ≤ 64
  /-- The registers and local memories of the cores. -/
  cores : CoresWf s.applets.cores
  /-- The tables of rings, slices, books and vectors are in canonical form. -/
  sq : Twf Sq.reset s.sq
  cq : Twf Cq.reset s.cq
  slices : Twf Slice.reset s.slices
  books : Twf Book.reset s.books
  msix : Twf Vector.reset s.msix
  /-- So are the book records of HEADS. -/
  recs : Twf Book.reset s.nv.bookRecs ∧ Twf Book.reset s.nv.saved

/-- No transition leaves SPENT (R523), and none reaches BLANK (R508). -/
def LifeGoesOn (s t : State) : Prop :=
  (s.tamper.state = .spent → t.tamper.state = .spent) ∧ (t.tamper.state = .blank → s.tamper.state = .blank)

/-- What has left the device stays sent: later output follows it. -/
def Sent (s t : State) : Prop := ∃ more, t.out = s.out ++ more

/-! Words of the statements about the Alaing cores. -/

/-- The Alaing instructions as commands (R338 to R344). -/
def alaingCommands : List (Nat → Instr) :=
  [.dadd, .dsub, .dcmp, .dmul, .ddiv, .drnd, .dshf, .dneg, .dabs, .dmov, .dnrm, .dval, .dtst, .dcvb, .dcvd, .dli,
   .daddi, .dcmpi, .dget, .dput, .dsel, .ldd, .std, .ldx, .stx, .ldh, .sth, .ldb, .stb, .xadd, .xsub, .xand, .xor,
   .xxor, .xshl, .xshr, .xsar, .xmul, .xcmp, .xaddi, .xli, .xlui, .xori, .xandi, .xcmpi, .b, .bl, .br, .dbnz,
   .alaingNop, .svc, .trap, .setm, .mff, .mtf]

/-- The core can take the instruction word `w` with OP `op` at its PC: it runs, the fetch is good, the word is legal
(R335) and fits before the boundary (R329). -/
structure Takes (s : State) (core op : Nat) (w : Word) : Prop where
  runs : s.coreRuns core = true
  fetch : fetchSub (s.coreAt core).pc.toNat = none
  good : (s.coreAt core).badAt (s.coreAt core).pc.toNat = false
  word : (s.coreAt core).insnAt (s.coreAt core).pc.toNat = w
  legal : illegalSub w = none
  opcode : fOp w = op
  fits : (s.coreAt core).cycle + fitCycles (s.coreAt core) w ≤ 100

/-- From `f` to `g` the listed flags have the listed values and every other bit is unchanged. -/
def Flags (f g : Word) (l : List (Nat × Bool)) : Prop :=
  (∀ p ∈ l, g.getLsbD p.1 = p.2) ∧ ∀ i, (∀ p ∈ l, p.1 ≠ i) → g.getLsbD i = f.getLsbD i

/-- The command changes nothing but one core, which becomes `c`. -/
def Leaves (i : Instr) (s : State) (core : Nat) (c : Core) : Prop := exec i s = .next (s.setCore core c)

/-- The core goes on behind the instruction, `n` cycles later, with the X and D registers given and the listed flags. -/
def Runs (i : Instr) (s : State) (core n : Nat) (d : List Image) (x : List Word) (l : List (Nat × Bool)) : Prop :=
  ∃ g, Flags (s.coreAt core).f g l ∧
    Leaves i s core { s.coreAt core with
      d := d, x := x, f := g, pc := (s.coreAt core).pc + 4, cycle := (s.coreAt core).cycle + n }

/-- A word for X[A]. -/
def PutsX (i : Instr) (s : State) (core n : Nat) (w v : Word) (l : List (Nat × Bool)) : Prop :=
  Runs i s core n (s.coreAt core).d ((s.coreAt core).x.set (fA w) v) l

/-- A word for D[A]: a valid image of the integer `v`, never a negative zero (R77). -/
def PutsD (i : Instr) (s : State) (core n : Nat) (w : Word) (v : Int) (l : List (Nat × Bool)) : Prop :=
  ∃ r, valid r = true ∧ toInt r = v ∧ signNib r = (if v < 0 then 0xD else 0xC) ∧
    Runs i s core n ((s.coreAt core).d.set (fA w) r) (s.coreAt core).x l

/-- The core raises a trap: nothing of it changes but the flags given. -/
def Traps (i : Instr) (s : State) (core : Nat) (insn : Word) (cause : TrapCause) (sub : Nat) (info : Word)
    (l : List (Nat × Bool)) : Prop :=
  ∃ g, Flags (s.coreAt core).f g l ∧
    Leaves i s core { s.coreAt core with f := g, trapped := some (cause, sub, (s.coreAt core).pc, insn, info) }

/-- A decimal overflow (R337, R346): V is set; with TV a trap, else the core goes on. -/
def Overflows (i : Instr) (s : State) (core n : Nat) (w : Word) : Prop :=
  ((s.coreAt core).f.getLsbD 8 = false → Runs i s core n (s.coreAt core).d (s.coreAt core).x [(2, true)]) ∧
    ((s.coreAt core).f.getLsbD 8 = true → Traps i s core w .overflow 0 0 [(2, true)])

/-- S and Z of a decimal result (R337). -/
def sz (v : Int) : List (Nat × Bool) := [(0, decide (v < 0)), (1, decide (v = 0))]

/-- S and Z of a binary result (R337). -/
def szW (v : Word) : List (Nat × Bool) := [(0, v.msb), (1, v == 0)]

/-- An integer that may leave the range of R78: its word with S, Z and V, or an overflow. -/
def PutsOrOverflows (i : Instr) (s : State) (core n : Nat) (w : Word) (v : Int) : Prop :=
  (v.natAbs < 10 ^ 31 → PutsD i s core n w v (sz v ++ [(2, false)])) ∧ (10 ^ 31 ≤ v.natAbs → Overflows i s core n w)

/-! Words of the statements about work and its completions. -/

/-- The completion of a piece of work is assembled with this status and result (R269). -/
def Ended (t : State) (id : Nat) (st : Status) (res : Bytes) : Prop :=
  ∃ w c, t.workAt id = some w ∧ w.isDone = true ∧ w.cpl = some c ∧ c.status = st ∧ c.result = fit 16 res

/-- From `s` to `t` only the work list changes, and of it only the work `id`. -/
def OnlyWork (s t : State) (id : Nat) : Prop := t = { s with work := t.work } ∧ ∀ k, k ≠ id → t.workAt k = s.workAt k

/-- The command ends a piece of work and changes nothing else. -/
def EndsOnly (i : Instr) (s : State) (id : Nat) (st : Status) (res : Bytes) : Prop :=
  ∃ t, exec i s = .next t ∧ Ended t id st res ∧ OnlyWork s t id

/-- A prime operation of a ring with this opcode stands in stage 2, its checks passed (R30). -/
def PrimeReady (s : State) (ring opcode : Nat) (w : Work) : Prop :=
  s.oldest ring (fun v => v.opcode == opcode && s.stage2 v) = some w ∧ s.workAt w.id = some w ∧ w.failed = none ∧
    ring < 65536

/-- A descriptor of a ring with this opcode is the next to begin (R236). -/
def Starts (s : State) (ring opcode : Nat) (w : Work) : Prop :=
  s.toStart ring opcode = some w ∧ s.workAt w.id = some w ∧ ring < 65536

/-- A piece of work stands in a phase. -/
def At (t : State) (id : Nat) (p : Phase) : Prop := (t.workAt id).map Work.phase = some p

/-- The command sends the read of a named buffer: its work waits for the data at step `n`. The ledger, the store and
the logs are unchanged. -/
def Asks (i : Instr) (s : State) (id n addr len : Nat) : Prop :=
  ∃ t, exec i s = .next t ∧ At t id (.reading n) ∧
    (∃ r ∈ t.reads, r.kind = .work id 0 ∧ r.addr = addr ∧ r.len = len ∧ r.failedAt = none) ∧
    t.books = s.books ∧ t.pan = s.pan ∧ t.nv = s.nv ∧ t.tamper = s.tamper ∧ t.logs = s.logs

/-! Words of the statements about tamper events. -/

/-- A tamper-log event of this grain has been raised, with its level, SOURCE and LOC. -/
def Raised (s t : State) (level source loc : Nat) : Prop :=
  ∃ e more, t.logs.tpend = s.logs.tpend ++ e :: more ∧ e.level = level ∧ e.source = source ∧ e.loc = loc ∧ e.grain = s.now

/-- The monitor is on, no flush runs and the device has started: an event of this level is acted on (R506, R567). -/
def Responds (s : State) (level : Nat) : Prop :=
  s.sensing = true ∧ s.pwr.flush = none ∧ s.pwr.starting = true ∧ s.severeActs level = true

/-- The life-cycle state has changed (R509): the record is written, work and keys are gone, the erasure runs. -/
structure Changed (s t : State) (target : LcState) (cause detail : Nat) : Prop where
  state : t.tamper.state = target
  cause : t.tamper.cause = cause
  detail : t.tamper.detail = detail
  grain : t.tamper.entryGrain = s.now
  pending : t.tamper.erasePending = true
  summary : t.tamper.summaryDue = (target == .bittern)
  erasing : t.keys.erasing = true
  keys : t.keys.compact = [] ∧ t.keys.large = [] ∧ t.keys.sessions = [] ∧ t.keys.auth = []
  window : t.brine.entries = []
  allow : t.applets.allow = []

/-- The books but one are unchanged. -/
def OtherBooks (s t : State) (book : Nat) : Prop := ∀ k, k ≠ book → t.bookAt k = s.bookAt k

/-- The slices but one are unchanged. -/
def OtherSlices (s t : State) (slice : Nat) : Prop := ∀ k, k ≠ slice → t.sliceAt k = s.sliceAt k

/-- One event has been added to those on their way into the protocol log. -/
def Logged (s t : State) (event check detail : Nat) : Prop :=
  ∃ e, t.logs = { s.logs with ppend := s.logs.ppend ++ [e] } ∧ e.event = event ∧ e.check = check ∧ e.detail = detail ∧
    e.grain = s.now

/-- The ledger, keys, store and descriptors are unchanged. -/
def Untouched (s t : State) : Prop :=
  t.books = s.books ∧ t.pan = s.pan ∧ t.keys = s.keys ∧ t.nv = s.nv ∧ t.work = s.work

/-! Words of the statements about service calls. -/

/-- The cores but one are unchanged, and so are ledger, store and descriptors. -/
def OtherCores (s t : State) (core : Nat) : Prop := ∀ k, k ≠ core → t.coreAt k = s.coreAt k

/-- A core stands in a call of service `n`, not yet taken up, which its image may make (R348, R369). -/
structure Calls (s : State) (core n : Nat) (v : Invocation) : Prop where
  inv : (s.coreAt core).inv = some v
  calls : (s.coreAt core).calls = true
  inBudget : (s.coreAt core).spentBudget = false
  number : (s.coreAt core).call.toNat = n
  mask : v.svcMask.testBit n = true

/-- The answer of the core's call stands: its status and its result bytes. -/
def Answered (t : State) (core : Nat) (st : Status) (res : Bytes) : Prop :=
  (t.coreAt core).answer = some (svcStatus st false false false, res)

/-- The command answers the call at once; of the state only that core changes. -/
def AnswersOnly (i : Instr) (s : State) (core : Nat) (st : Status) (res : Bytes) (output : List (Nat × Bytes)) : Prop :=
  ∃ t, exec i s = .next t ∧ Answered t core st res ∧ (t.coreAt core).output = output ∧ OtherCores s t core ∧
    t = { s with applets := { s.applets with cores := t.applets.cores } }

/-- The command submits a piece of work for the call, which is under way. -/
def Submits (i : Instr) (s : State) (core : Nat) (w : Work) : Prop :=
  ∃ t, exec i s = .next t ∧ t.work = s.work ++ [w] ∧ (t.coreAt core).started = true ∧ (t.coreAt core).answer = none ∧
    OtherCores s t core ∧ t.books = s.books

/-- The command puts the call into the pool of the AES lanes or of the digest engines, as a stream over local data. -/
def Pools (i : Instr) (s : State) (core : Nat) (w : Work) (digest : Bool) : Prop :=
  ∃ t x, exec i s = .next t ∧ t.work = s.work ++ [{ w with phase := .active 0, admitted := some s.now }] ∧
    t.crypto.streams = s.crypto.streams ++ [x] ∧ x.work = w.id ∧ x.onDigest = digest ∧ x.unit = none ∧ x.pos = 0 ∧
    x.total = w.srcLen ∧ (t.coreAt core).started = true ∧ (t.coreAt core).answer = none ∧ OtherCores s t core ∧
    t.books = s.books

/-- The Pan holds a record of a book. -/
def Holds (s : State) (book index : Nat) (r : Tally) : Prop :=
  ∃ b, s.blockAt book (index / 4) = some b ∧ b.lost = false ∧ b.recs[index % 4]? = some r

end Sys2Proof.Machine
end

