-- ==== Sys2Proof/Certificates/Slice0/Obligations.lean ====
section
/-! DEFINITION. The statements for the provers. -/

open Sys2Proof Sys2Proof.Machine

/-- A step carries out the command at the front of the queue on the state with the queue's rest; on an empty queue the
block idles (the model's own rules, log entry 2). -/
def Obligations.StepRunsFrontCommand : Prop :=
  ∀ (s : State),
    (∀ (c : Instr) (rest : List Instr), step { s with pending := c :: rest } = exec c { s with pending := rest }) ∧
    (s.pending = [] → step s = .next s)

/-! 11_alaing_engine.md. -/

/-- R343, R337: the binary instructions. -/
def Obligations.BinaryInstructions : Prop :=
  ∀ (s : State) (core : Nat) (w : Word),
    let c := s.coreAt core
    let a := c.xReg (fB w)
    let b := c.xReg (fC w)
    let k := BitVec.ofInt 32 (sImm w)
    let u := BitVec.ofNat 32 (fImm w)
    let n := b.toNat % 32
    (Takes s core 0x20 w →
      PutsX (.xadd core) s core 1 w (a + b) (szW (a + b) ++ [(4, decide (2 ^ 32 ≤ a.toNat + b.toNat))])) ∧
    (Takes s core 0x21 w →
      PutsX (.xsub core) s core 1 w (a - b) (szW (a - b) ++ [(4, decide (a.toNat < b.toNat))])) ∧
    (Takes s core 0x22 w → PutsX (.xand core) s core 1 w (a &&& b) (szW (a &&& b))) ∧
    (Takes s core 0x23 w → PutsX (.xor core) s core 1 w (a ||| b) (szW (a ||| b))) ∧
    (Takes s core 0x24 w → PutsX (.xxor core) s core 1 w (a ^^^ b) (szW (a ^^^ b))) ∧
    (Takes s core 0x25 w → PutsX (.xshl core) s core 1 w (a <<< n) (szW (a <<< n))) ∧
    (Takes s core 0x26 w → PutsX (.xshr core) s core 1 w (a >>> n) (szW (a >>> n))) ∧
    (Takes s core 0x27 w → PutsX (.xsar core) s core 1 w (a.sshiftRight n) (szW (a.sshiftRight n))) ∧
    (Takes s core 0x28 w → PutsX (.xmul core) s core 2 w (a * b) (szW (a * b))) ∧
    (Takes s core 0x2A w →
      PutsX (.xaddi core) s core 1 w (a + k) (szW (a + k) ++ [(4, decide (2 ^ 32 ≤ a.toNat + k.toNat))])) ∧
    (Takes s core 0x2D w → PutsX (.xori core) s core 1 w (a ||| u) (szW (a ||| u))) ∧
    (Takes s core 0x2E w → PutsX (.xandi core) s core 1 w (a &&& u) (szW (a &&& u))) ∧
    (Takes s core 0x2B w → PutsX (.xli core) s core 1 w k []) ∧
    (Takes s core 0x2C w → PutsX (.xlui core) s core 1 w (BitVec.ofNat 32 (fImm w * 2 ^ 14)) []) ∧
    (Takes s core 0x29 w → Runs (.xcmp core) s core 1 c.d c.x
      [(0, decide (a.toInt < b.toInt)), (1, decide (a = b)), (4, decide (a.toNat < b.toNat))]) ∧
    (Takes s core 0x2F w → Runs (.xcmpi core) s core 1 c.d c.x
      [(0, decide (a.toInt < k.toInt)), (1, decide (a = k)), (4, decide (a.toNat < k.toNat))])

/-- R344, R345, R347: the control instructions. -/
def Obligations.ControlInstructions : Prop :=
  ∀ (s : State) (core : Nat) (w : Word),
    let c := s.coreAt core
    let target := c.pc + BitVec.ofInt 32 (4 * sOff w)
    let at_ (pc : Word) (n : Nat) (x : List Word) : Core := { c with x := x, pc := pc, cycle := c.cycle + n }
    (Takes s core 0x30 w → condHolds (fA w) c.f = true → Leaves (.b core) s core (at_ target 2 c.x)) ∧
    (Takes s core 0x30 w → condHolds (fA w) c.f = false → Leaves (.b core) s core (at_ (c.pc + 4) 1 c.x)) ∧
    (Takes s core 0x31 w → Leaves (.bl core) s core (at_ target 2 (c.x.set (fA w) (c.pc + 4)))) ∧
    (Takes s core 0x32 w → (c.xReg (fB w)).toNat % 4 = 0 → (c.xReg (fB w)).toNat < 0x10000 →
      Leaves (.br core) s core (at_ (c.xReg (fB w)) 2 c.x)) ∧
    (Takes s core 0x32 w → ¬ ((c.xReg (fB w)).toNat % 4 = 0 ∧ (c.xReg (fB w)).toNat < 0x10000) →
      ∃ sub, Traps (.br core) s core w .mpu sub (c.xReg (fB w)) []) ∧
    (Takes s core 0x33 w → c.xReg (fA w) ≠ 1 →
      Leaves (.dbnz core) s core (at_ target 2 (c.x.set (fA w) (c.xReg (fA w) - 1)))) ∧
    (Takes s core 0x33 w → c.xReg (fA w) = 1 → Leaves (.dbnz core) s core (at_ (c.pc + 4) 1 (c.x.set (fA w) 0))) ∧
    (Takes s core 0x38 w → Leaves (.svc core) s core { at_ (c.pc + 4) 1 c.x with
      call := BitVec.ofNat 32 (fImm w), mode := .waiting, svcZ := true, started := false, answer := none, output := [] }) ∧
    (Takes s core 0x39 w → Traps (.trap core) s core w .user 0 (BitVec.ofNat 32 (fImm w)) []) ∧
    (Takes s core 0x37 w → Runs (.alaingNop core) s core 1 c.d c.x []) ∧
    (Takes s core 0x3A w → Runs (.setm core) s core 1 c.d c.x [(8, w.getLsbD 0)]) ∧
    (Takes s core 0x3B w → PutsX (.mff core) s core 1 w c.f []) ∧
    (Takes s core 0x3C w → let a := c.xReg (fB w)
      Runs (.mtf core) s core 1 c.d c.x
        [(0, a.getLsbD 0), (1, a.getLsbD 1), (2, a.getLsbD 2), (3, a.getLsbD 3), (4, a.getLsbD 4), (8, a.getLsbD 8)])

/-- R338, R79, R337: decimal sums. R338, R91, R92, R337: conversions. R338, R341, R336, R337: the other decimal
instructions. -/
def Obligations.DecimalSumsAndTests : Prop :=
  (∀ (s : State) (core : Nat) (w : Word),
     let c := s.coreAt core
     let a := c.dReg (fB w)
     let b := c.dReg (fC w)
     (Takes s core 0x01 w → valid a = true → valid b = true → PutsOrOverflows (.dadd core) s core 1 w (toInt a + toInt b)) ∧
     (Takes s core 0x02 w → valid a = true → valid b = true → PutsOrOverflows (.dsub core) s core 1 w (toInt a - toInt b)) ∧
     (Takes s core 0x11 w → valid a = true → PutsOrOverflows (.daddi core) s core 1 w (toInt a + sImm w))) ∧
  ((∀ (s : State) (core : Nat) (w : Word),
      let c := s.coreAt core
      let a := c.dReg (fB w)
      let v := toInt a
      let part (k : Nat) : Word := BitVec.ofInt 32 (v / 2 ^ (32 * k))
      let pair : List Word := (c.x.set (fA w) (part 0)).set (fA w + 1) (part 1)
      let group : List Word := (pair.set (fA w + 2) (part 2)).set (fA w + 3) (part 3)
      let word (k : Nat) : Nat := (c.xReg (fB w + k)).toNat * 2 ^ (32 * k)
      (Takes s core 0x0E w → valid a = true → mWide w = false → -(2 ^ 63 : Int) ≤ v → v < 2 ^ 63 →
        Runs (.dcvb core) s core 4 c.d pair (sz v ++ [(2, false)])) ∧
      (Takes s core 0x0E w → valid a = true → mWide w = false → ¬ (-(2 ^ 63 : Int) ≤ v ∧ v < 2 ^ 63) →
        Overflows (.dcvb core) s core 4 w) ∧
      (Takes s core 0x0E w → valid a = true → mWide w = true →
        Runs (.dcvb core) s core 4 c.d group (sz v ++ [(2, false)])) ∧
      (Takes s core 0x0F w → mWide w = false →
        PutsOrOverflows (.dcvd core) s core 4 w (BitVec.ofNat 64 (word 0 + word 1)).toInt) ∧
      (Takes s core 0x0F w → mWide w = true →
        PutsOrOverflows (.dcvd core) s core 4 w (BitVec.ofNat 128 (word 0 + word 1 + word 2 + word 3)).toInt)) ∧
   (∀ (s : State) (core : Nat) (w : Word),
      let c := s.coreAt core
      let a := c.dReg (fB w)
      let b := c.dReg (fC w)
      let k := sImm w
      (Takes s core 0x03 w → valid a = true → valid b = true → Runs (.dcmp core) s core 1 c.d c.x
        [(0, decide (toInt a < toInt b)), (1, decide (toInt a = toInt b))]) ∧
      (Takes s core 0x08 w → valid a = true → PutsD (.dneg core) s core 1 w (-toInt a) (sz (-toInt a))) ∧
      (Takes s core 0x09 w → valid a = true → PutsD (.dabs core) s core 1 w (toInt a).natAbs (sz (toInt a).natAbs)) ∧
      (Takes s core 0x0A w → Runs (.dmov core) s core 1 (c.d.set (fA w) a) c.x []) ∧
      (Takes s core 0x0B w → valid a = true → PutsD (.dnrm core) s core 1 w (toInt a) (sz (toInt a))) ∧
      (Takes s core 0x0C w → Runs (.dval core) s core 1 c.d c.x [(3, !valid a)]) ∧
      (Takes s core 0x0D w → valid a = true → Runs (.dtst core) s core 1 c.d c.x (sz (toInt a))) ∧
      (Takes s core 0x10 w → PutsD (.dli core) s core 1 w k (sz k)) ∧
      (Takes s core 0x12 w → valid a = true → Runs (.dcmpi core) s core 1 c.d c.x
        [(0, decide (toInt a < k)), (1, decide (toInt a = k))]) ∧
      (Takes s core 0x13 w → PutsX (.dget core) s core 1 w (BitVec.ofNat 32 (nib a (mNibble w))) []) ∧
      (Takes s core 0x14 w → ∃ r, nib r (mNibble w) = (c.xReg (fC w)).toNat % 16 ∧
        (∀ n, n < 32 → n ≠ mNibble w → nib r n = nib a n) ∧
        Runs (.dput core) s core 1 (c.d.set (fA w) r) c.x []) ∧
      (Takes s core 0x15 w →
        Runs (.dsel core) s core 1 (c.d.set (fA w) (if condHolds (mCond w) c.f then a else b)) c.x [])))

/-- R338, R84 to R86, R89, R337, R340: products and quotients. R338, R88, R90, R337: rounding and digit shift; C tells
that digits were lost. -/
def Obligations.DecimalProductsAndRounding : Prop :=
  (∀ (s : State) (core : Nat) (w : Word),
     let c := s.coreAt core
     let a := c.dReg (fB w)
     let b := c.dReg (fC w)
     let into (hi lo : Image) : List Image := (c.d.set (fA w) hi).set (fA w + 1) lo
     (Takes s core 0x04 w → valid a = true → valid b = true → ∃ hi lo, valid hi = true ∧ valid lo = true ∧
       toInt hi * 10 ^ 31 + toInt lo = toInt a * toInt b ∧ signNib hi = (if toInt a * toInt b < 0 then 0xD else 0xC) ∧
       signNib lo = signNib hi ∧
       Runs (.dmul core) s core 8 (into hi lo) c.x (sz (toInt a * toInt b))) ∧
     (Takes s core 0x05 w → valid a = true → (mPair w = true → valid (c.dReg (fB w + 1)) = true) → valid b = true →
       let v := if mPair w then pairInt a (c.dReg (fB w + 1)) else toInt a
       let n := 3 + quotientDigits v.natAbs (magnitude b)
       let up := match mRound w, roundingOf (mMode w) with
         | true, some m => roundsUp m (decide (v < 0) != negative b) (v.natAbs / magnitude b) (v.natAbs % magnitude b) (magnitude b)
         | _, _ => false
       let q := signed (decide (v < 0) != negative b) (v.natAbs / magnitude b + if up then 1 else 0)
       (magnitude b = 0 → Overflows (.ddiv core) s core 3 w) ∧
       (magnitude b ≠ 0 → 10 ^ 31 ≤ q.natAbs → Overflows (.ddiv core) s core n w) ∧
       (magnitude b ≠ 0 → q.natAbs < 10 ^ 31 → ∃ x y, valid x = true ∧ toInt x = q ∧
         signNib x = (if q < 0 then 0xD else 0xC) ∧ valid y = true ∧ toInt y = v.tmod (toInt b) ∧
         signNib y = (if v.tmod (toInt b) < 0 then 0xD else 0xC) ∧
         Runs (.ddiv core) s core n (into x y) c.x (sz (if mPair w then v else q) ++ [(2, false)])))) ∧
  (∀ (s : State) (core : Nat) (w : Word),
     let c := s.coreAt core
     let a := c.dReg (fB w)
     (∀ m, Takes s core 0x06 w → valid a = true → (mPair w = true → valid (c.dReg (fB w + 1)) = true) →
       roundingOf (mMode w) = some m →
       let v := if mPair w then pairInt a (c.dReg (fB w + 1)) else toInt a
       let u := 10 ^ mDigits w
       let q := v.natAbs / u + if roundsUp m (decide (v < 0)) (v.natAbs / u) (v.natAbs % u) u then 1 else 0
       (10 ^ 31 ≤ q → Overflows (.drnd core) s core 2 w) ∧
       (q < 10 ^ 31 → PutsD (.drnd core) s core 2 w (signed (decide (v < 0)) q)
         (sz (signed (decide (v < 0)) q) ++ [(2, false), (4, v.natAbs % u != 0)]))) ∧
     (Takes s core 0x07 w → valid a = true → 0 ≤ mShift w →
       let r := toInt a * 10 ^ (mShift w).natAbs
       (10 ^ 31 ≤ r.natAbs → Overflows (.dshf core) s core 1 w) ∧
       (r.natAbs < 10 ^ 31 → PutsD (.dshf core) s core 1 w r (sz r ++ [(2, false), (4, false)]))) ∧
     (Takes s core 0x07 w → valid a = true → mShift w < 0 →
       let u : Int := 10 ^ (mShift w).natAbs
       PutsD (.dshf core) s core 1 w ((toInt a).tdiv u)
         (sz ((toInt a).tdiv u) ++ [(2, false), (4, decide ((toInt a).tmod u ≠ 0))])))

/-- R342, R331: loads, from an address that the local map allows and that holds no uncorrectable word. R342, R331:
stores outside the CALL word. Every other byte of the local map reads as before. -/
def Obligations.LoadsAndStores : Prop :=
  (∀ (s : State) (core : Nat) (w : Word),
     let c := s.coreAt core
     let a := (c.xReg (fX w) + BitVec.ofInt 32 (sDisp w)).toNat
     let loads (i : Instr) (op n : Nat) (isX : Bool) : Prop := Takes s core op w → accessSub a n false isX = none →
       c.badAt a = false → PutsX i s core 1 w (BitVec.ofNat 32 (leNat (c.bytes a n))) []
     loads (.ldx core) 0x1A 4 true ∧ loads (.ldh core) 0x1C 2 false ∧ loads (.ldb core) 0x1E 1 false ∧
     (Takes s core 0x18 w → accessSub a 16 false false = none → c.badAt a = false →
       Runs (.ldd core) s core 1 (c.d.set (fA w) (BitVec.ofNat 128 (beNat (c.bytes a 16)))) c.x [])) ∧
  (∀ (s : State) (core : Nat) (w : Word),
     let c := s.coreAt core
     let a := (c.xReg (fX w) + BitVec.ofInt 32 (sDisp w)).toNat
     let x := (c.xReg (fA w)).toNat
     let stores (i : Instr) (op : Nat) (isX : Bool) (v : Bytes) : Prop :=
       Takes s core op w → accessSub a v.length true isX = none → a ≠ 0x30000 → ∃ t, Leaves i s core t ∧
         (∀ k, k < v.length → t.byteAt (a + k) = v.getD k 0) ∧
         (∀ b, b < a ∨ a + v.length ≤ b → t.byteAt b = c.byteAt b) ∧
         t.d = c.d ∧ t.x = c.x ∧ t.f = c.f ∧ t.pc = c.pc + 4 ∧ t.cycle = c.cycle + 1 ∧ t.mode = c.mode ∧ t.inv = c.inv ∧ t.trapped = c.trapped
     stores (.std core) 0x19 false (beBytes 16 (c.dReg (fA w)).toNat) ∧ stores (.stx core) 0x1B true (leBytes 4 x) ∧
     stores (.sth core) 0x1D false (leBytes 2 x) ∧ stores (.stb core) 0x1F false (leBytes 1 x))

/-- R335, R345, R346: on a running core with cycles left, a fetch outside the code region or from a misaligned PC raises
the MPU violation trap, and an illegal word that is fetched raises the illegal-instruction trap, whichever instruction the
core is told to take. Nothing else changes. -/
def Obligations.FetchAndIllegalTraps : Prop :=
  ∀ make ∈ alaingCommands, ∀ (s : State) (core : Nat),
    let c := s.coreAt core
    let w := c.insnAt c.pc.toNat
    s.coreRuns core = true → c.cycle < 100 →
    (¬ (c.pc.toNat < 0x10000 ∧ c.pc.toNat % 4 = 0) → ∃ sub, Traps (make core) s core 0 .mpu sub c.pc []) ∧
    (∀ sub, c.pc.toNat < 0x10000 → c.pc.toNat % 4 = 0 → c.badAt c.pc.toNat = false → illegalSub w = some sub →
      Traps (make core) s core w .illegal sub 0 [])

/-- R328, R346: an Alaing command changes nothing but its core, and of that neither code, call results, invocation nor
handles. -/
def Obligations.AlaingFrame : Prop :=
  ∀ make ∈ alaingCommands, ∀ (s : State) (core : Nat), exec (make core) s = .next s ∨ ∃ c, Leaves (make core) s core c ∧
    c.code = (s.coreAt core).code ∧ c.res = (s.coreAt core).res ∧ c.status = (s.coreAt core).status ∧
    c.inv = (s.coreAt core).inv ∧ c.handles = (s.coreAt core).handles

/-! 04_tallies_and_store.md, 05_postings.md, 14_crypto_engines.md, 16_nonvolatile_store.md: prime operations. -/

/-- R489, R179, R412, R414: prime operations that change no ledger and no counter end with their result; nothing but
the work changes. R489, R485: COUNTER_INCR adds one to its counter and to no other. -/
def Obligations.PrimeOperations : Prop :=
  (∀ (s : State) (ring : Nat) (w : Work),
     let n := w.field 0x10 2
     let v := (s.counterAt n).value
     (PrimeReady s ring 0x1000 w → (s.counterAt n).stored ≠ none →
       EndsOnly (.counterRead ring) s w.id .ok (leBytes 8 v ++ counterMac w v)) ∧
     (∀ old, PrimeReady s ring 0x1010 w → (s.bookAt w.slice).postFail = none → s.primeRecord w = some old →
       idFail (s.bookAt w.slice).cap (w.field 0x10 8) old = none →
       EndsOnly (.tallyRead ring) s w.id .ok
         ([imageBytes old.value, imageBytes old.floor, imageBytes old.ceiling, bytesAt old.bytes 0x30 16].getD (w.aux % 4) [])) ∧
     (PrimeReady s ring 0x1020 w → EndsOnly (.macGen ring) s w.id .ok ((cmac w.key (bytesAt w.desc 0x10 w.len)).take w.tlen)) ∧
     (PrimeReady s ring 0x1021 w → EndsOnly (.macVerify ring) s w.id
       (if (cmac w.key (bytesAt w.desc 0x20 (w.len - 16))).take w.tlen = bytesAt w.desc 0x10 w.tlen then .ok else .auth) []) ∧
     (PrimeReady s ring 0x1030 w →
       let same : Bool := decide (bytesAt w.desc 0x10 w.cmpLen = bytesAt w.desc (0x10 + w.cmpLen) w.cmpLen)
       EndsOnly (.compare ring) s w.id (if same then .ok else .auth) [if same then 1 else 0])) ∧
  (∀ (s : State) (ring : Nat) (w : Work),
     let n := w.field 0x10 2
     let v := (s.counterAt n).value
     PrimeReady s ring 0x1001 w → (s.counterAt n).stored ≠ none → v ≠ counterMax →
     ∃ t, exec (.counterIncr ring) s = .next t ∧ Ended t w.id .ok (leBytes 8 (v + 1) ++ counterMac w (v + 1)) ∧
       (t.counterAt n).value = v + 1 ∧ (∀ m, m ≠ n → t.counterAt m = s.counterAt m) ∧ t.books = s.books ∧ t.pan = s.pan)

/-- R182, R183, R184: TALLY_ADJUST changes its tally, takes the next LSEQ and stages its record. -/
def Obligations.TallyAdjustCommits : Prop :=
  ∀ (s : State) (ring : Nat) (w : Work) (old : Tally) (sum : Image),
    let book := w.slice
    let b := s.bookAt book
    let amount := imageAt w.desc 0x20
    let l : Leg := { tid := w.field 0x10 8, amount := amount, expect := w.field 0x18 6, new := Tally.zero }
    PrimeReady s ring 0x1011 w → w.input = [] → b.postFail = none → Holds s book (tidIndex l.tid) old →
    postVerdict b.cap true [(l, old)] = none → adjustBytes ≤ s.roomOf book + w.reserved → s.phase2Dirty w = false →
    decAdd old.value amount = some sum →
    ∃ t, exec (.tallyAdjust ring) s = .next t ∧
      Ended t w.id .ok (leBytes 8 (b.lseq + 1) ++ leBytes 6 (old.version + 1)) ∧
      Holds t book (tidIndex l.tid) { old with value := sum, version := old.version + 1 } ∧
      (t.bookAt book).lseq = b.lseq + 1 ∧ (t.bookAt book).staged.length = b.staged.length + 1 ∧
      (∀ k, k ≠ book → t.bookAt k = s.bookAt k) ∧ t.nv = s.nv ∧ t.keys = s.keys

/-- R59, R60, R63: a boundary admits the covered prime operation that comes first; a token and a lane go. One that stands
alone enters stage 1, the conditions of R63 that hold at admission recorded; only its session is charged, by a COMPARE not
even that. R159, R160, R199: a boundary admits the posting that comes first, when the window and the journal region have
room. One that stands alone, its records on the die, stands in the window, fetched in the same grain, and its journal bytes
are set aside. PRIME_ADMISSION and POSTING_ADMISSION complete under these conditions. -/
def Obligations.Admissions : Prop :=
  (∀ (s : State) (w : Work) (rest : List Work) (g : Nat),
     let c := s.coverPrimes
     s.serviceable = true → s.now % 20 ≠ 19 → s.sched.primeDone = false → s.sched.admitDone = false →
     0 < s.sched.lanesFree → 0 < (s.sliceAt w.slice).tokLeft → c.primeOrder = w :: rest → c.workAt w.id = some w →
     w.ring < 65536 → w.cover = some g → g ≤ s.now → (c.primeRank w).1 < 2 → c.primeBehind w = false →
     ∃ t v, exec .primeAdmission s = .next t ∧ t.workAt w.id = some v ∧ v.admitted = some s.now ∧ v.isHeld = false ∧
       t.sched.primeDone = true ∧ t.sched.lanesFree < s.sched.lanesFree ∧
       (t.sliceAt w.slice).tokLeft < (s.sliceAt w.slice).tokLeft) ∧
  (∀ (s : State) (w : Work) (g : Nat),
     s.serviceable = true → s.now % 20 ≠ 19 → s.sched.primeDone = false → s.sched.admitDone = false →
     0 < s.sched.lanesFree → s.work = [w] → w.phase = .held → w.heldAt < s.now → s.mayBegin w = true →
     w.isPrime = true → w.isTallyOp = false → w.ring < 65536 → w.cover = some g → w.failed = none → w.key = [] →
     s.sessionBusy w.session = false →
     ∃ t v, exec .primeAdmission s = .next t ∧ t.work = [v] ∧ v.id = w.id ∧ v.phase = .active 1 ∧
       v.admitted = some s.now ∧ v.lateConds = (if 0 < w.extraSteps then [2] else []) ++
         (if s.pwr.holdOk && !s.nv.wt then [] else [4]) ++ (if (s.sliceAt w.slice).st == .active then [] else [6]) ∧
       (t.sliceAt w.slice).tokLeft = (s.sliceAt w.slice).tokLeft - 1 ∧ OtherSlices s t w.slice ∧
       t.sched = { s.sched with primeDone := true, lanesFree := s.sched.lanesFree - 1 } ∧
       (∀ h, h ≠ w.session → t.sessionAt h = s.sessionAt h) ∧ (w.opcode = 0x1030 → t.keys = s.keys) ∧
       t.books = s.books ∧ t.pan = s.pan ∧ t.brine = s.brine ∧ t.nv = s.nv) ∧
  (∀ (s : State) (w : Work) (rest : List Work),
     s.serviceable = true → s.sched.admitDone = false → 0 < s.sched.admitLeft → s.heldPostings = w :: rest →
     s.workAt w.id = some w → w.ring < 65536 → s.sessionBusy w.session = false → s.postEarly w = none →
     s.brine.entries.length < 1024 → s.entriesOf w.slice < 256 → s.roomFor w.slice w.recordLegs = true →
     ∃ t v, exec .postingAdmission s = .next t ∧ t.workAt w.id = some v ∧ v.admitted = some s.now ∧ v.isHeld = false ∧
       t.sched.admitDone = true ∧ t.sched.admitLeft < s.sched.admitLeft ∧ s.brine.entries.length < t.brine.peak) ∧
  (∀ (s : State) (w : Work),
     let b := s.bookAt w.slice
     s.serviceable = true → s.sched.admitDone = false → 0 < s.sched.admitLeft → s.work = [w] → w.phase = .held →
     w.heldAt < s.now → w.isPosting = true → w.ring < 65536 → s.brine.entries = [] → s.sessionBusy w.session = false →
     s.postEarly w = none → s.roomFor w.slice w.recordLegs = true → (s.entryOf w).legs.length ≤ s.sched.portsLeft →
     (∀ l ∈ (s.entryOf w).legs, ∃ k, s.blockAt w.slice (tidBlock l.tid) = some k ∧ k.lost = false) →
     ∃ t e, exec .postingAdmission s = .next t ∧ t.brine.entries = [e] ∧ e.src = w.id ∧ e.admitted = s.now ∧
       e.stage = .fetch ∧ e.fetched = true ∧ (t.workAt w.id).map Work.phase = some (.active 1) ∧
       (t.bookAt w.slice).reserved = b.reserved + reservation w.recordLegs ∧ OtherBooks s t w.slice ∧
       t.sched.admitDone = true ∧ t.sched.admitLeft = s.sched.admitLeft - 1 ∧
       t.sched.portsLeft = s.sched.portsLeft - (s.entryOf w).legs.length ∧ t.keys = s.keys ∧ t.nv = s.nv)

/-! 05_postings.md. -/

/-- R152, R115: a posting or tally operation that passes checks 1 to 3 is held for admission; one that does not ends
with the status of the failing check and its number, and one behind a routed posting of its ring stays as it is (R160).
R200: a posting that has waited FULL_WAIT pounds for journal room, still short, ends with JOURNAL_FULL; nothing but the
work changes. -/
def Obligations.PostingsPresented : Prop :=
  (∀ p ∈ [(0x2000, Instr.post), (0x2010, .tallyOpen), (0x2011, .tallySet), (0x2012, .tallyClose)],
     ∀ (s : State) (ring : Nat) (w : Work), Starts s ring p.1 w →
       (s.postFirst w = false → exec (p.2 ring) s = .next s) ∧
       (s.postFirst w = true → s.postEarly w = none →
         exec (p.2 ring) s = .next (s.modWork w.id (fun v => { v with phase := .held, heldAt := s.now }))) ∧
       (∀ k st, s.postFirst w = true → s.postEarly w = some (k, st) → st ≠ .fault → st ≠ .tamper →
         ∃ t, exec (p.2 ring) s = .next t ∧ Ended t w.id st [BitVec.ofNat 8 k, 0xFF] ∧
           t = { s with work := t.work, logs := t.logs })) ∧
  (∀ (s : State) (ring g : Nat) (w : Work),
     s.oldest ring (fun v => v.isHeld && v.isPosting) = some w → s.workAt w.id = some w → ring < 65536 →
     0 < (s.bookAt w.slice).fullWait → s.shortOfRoom w = true → w.fullSince = some g → g + 5760 * (s.bookAt w.slice).fullWait ≤ s.now →
     EndsOnly (.postingHeldJournalFull ring) s w.id .journalFull (zeros 16))

/-- R165, R169, R170: the oldest entry of a book commits: its records hold the new values, the book's LSEQ goes up by
one, the entry leaves the window and its descriptor ends with LSEQ and the versions. -/
def Obligations.PostingCommits : Prop :=
  ∀ (s : State) (book : Nat) (e : Entry) (w : Work),
    let b := s.bookAt book
    s.brine.entries.find? (fun x => x.book == book) = some e → s.mayCommit e = true → e.applet = false →
    s.workAt e.src = some w → w.ring < 65536 →
    e.legs.Pairwise (fun l k => tidIndex l.tid ≠ tidIndex k.tid) →
    (∀ l ∈ e.legs, ∃ old, Holds s book (tidIndex l.tid) old) →
    ∃ t, exec (.postingCommit book) s = .next t ∧
      Ended t e.src .ok (leBytes 8 (b.lseq + 1) ++ (match e.kind with
        | .post => e.legs.map (fun l => BitVec.ofNat 8 l.new.version)
        | _ => (e.legs.map (fun l => leBytes 6 l.new.version)).flatten)) ∧
      (∀ l ∈ e.legs, Holds t book (tidIndex l.tid) l.new) ∧ (t.bookAt book).lseq = b.lseq + 1 ∧
      (t.bookAt book).staged.length = b.staged.length + 1 ∧ (∀ x ∈ t.brine.entries, x.key ≠ e.key) ∧
      t.brine.commits = s.brine.commits + 1 ∧ t.sched.commitsLeft = s.sched.commitsLeft - 1 ∧
      (∀ k, k ≠ book → t.bookAt k = s.bookAt k) ∧ t.nv = s.nv ∧ t.keys = s.keys

/-! 06_journal.md. -/

/-- R195, R197, R201: the next frame of a book is written behind the last one, behind a pad where the region ends; a frame
that the window check refuses stalls the journal instead, a pad that was written counted, and a stalled one is tried
again after one pound. FRAME_WRITE_ISSUE and FRAME_WRITE_RETRY complete under these conditions. -/
def Obligations.JournalFrames : Prop :=
  ∀ (s : State) (book : Nat) (r : Staged),
    let b := s.bookAt book
    let n := r.record.length + 32
    let pos := b.jWrite + b.padFrom b.jWrite n
    let padOk := (s.hostWrite (masterJournal book) book .frame none (b.jBase + b.jWrite % b.region)
      (b.padMarker b.jWrite)).2
    let written (t : State) : Prop := (t.bookAt book).issued = r.lseq ∧ (t.bookAt book).jWrite = pos + n ∧
      (t.bookAt book).frameEnds = b.frameEnds ++ [(r.lseq, pos + n)] ∧ (t.bookAt book).jStall = none ∧
      (b.st = .open_ → (∀ k, k ≠ book → t.bookAt k = s.bookAt k) ∧ t.brine = s.brine ∧ t.pan = s.pan)
    b.nextFrame = some r →
      (s.frameDue book r = true → b.jStall = none → (s.writeFrame book r).2 = true →
        ∃ t, exec (.frameWriteIssue book) s = .next t ∧ written t) ∧
      (∀ g, s.frameDue book r = true → b.jStall = some g → g + 5760 ≤ s.now → (s.writeFrame book r).2 = true →
        ∃ t, exec (.frameWriteRetry book) s = .next t ∧ written t) ∧
      (s.frameDue book r = true → b.jStall = none → (s.writeFrame book r).2 = false →
        ∃ t, exec (.frameWriteIssue book) s = .next t ∧ (t.bookAt book).jStall = some s.now ∧
          (t.bookAt book).wrAccess = true ∧ (t.bookAt book).jWrite = (if padOk then pos else b.jWrite) ∧
          (t.bookAt book).staged.map Staged.record = b.staged.map Staged.record) ∧
      (s.frameDue book r = false → exec (.frameWriteIssue book) s = .next s)

/-- R194, R48: while a digest engine may make a class-1 step, or in a flush, the oldest record not yet folded goes into the
head of its strand; no other head, no other book and nothing but the books and the step changes. R202, R203, R205: SEAL is
accepted; at a boundary with a cause a seal of the heads is formed, its place and its signing job set, the commands it
serves bound to it. R204 to R206, R240: the oldest seal, signed when its job has ended, or unsigned, is written to its place
once its records have been issued; it leaves the book and the commands it serves end, with ACCESS where the write is
refused. HEAD_FOLD, SEAL, SEAL_FORMATION and SEAL_SIGNED complete under these conditions. -/
def Obligations.HeadFoldsAndSeals : Prop :=
  (∀ (s : State) (book : Nat) (r : Staged),
     let b := s.bookAt book
     let steps : Prop := s.pwr.flush.isSome = true ∨ ∃ e, e < 12 ∧ s.mayStep (.digest e) 1 = true
     b.staged.find? (fun x => !x.folded) = some r →
     (steps → ∃ t, exec (.headFold book) s = .next t ∧ t = { s with books := t.books, sched := t.sched } ∧
       (s.pwr.flush.isSome = true → t.sched = s.sched) ∧
       (t.bookAt book).heads = b.heads.set (r.lseq % b.strands) (sha256 (b.heads.getD (r.lseq % b.strands) [] ++ r.record)) ∧
       (t.bookAt book).lseq = b.lseq ∧ (∀ x ∈ (t.bookAt book).staged, x.lseq = r.lseq → x.folded = true) ∧
       OtherBooks s t book) ∧
     (¬ steps → exec (.headFold book) s = .next s)) ∧
  (∀ (s : State) (book : Nat),
     let b := s.bookAt book
     (∀ ring w, Starts s ring 0x3000 w → w.aux = 0 → w.zeroFrom 0x10 0x40 = true → (s.bookAt w.slice).accepts = true →
       exec (.sealBook ring) s = .next (s.modWork w.id (fun v => { v with phase := .active 1, admitted := some s.now }))) ∧
     (∀ cause, s.sealCause book = some cause →
       ∃ t x j, exec (.sealFormation book) s = .next t ∧ (t.bookAt book).seals.getLast? = some x ∧
         x.no = b.sealNo + 1 ∧ x.lseq = b.lseq ∧ x.grain = s.now ∧ x.cause = cause ∧ x.prev = b.lastSeal ∧ x.sign = true ∧
         x.heads = b.headsAt b.lseq ∧ x.addr = b.sealBase + 256 * ((b.sealNo + 1) % 2 ^ b.sealLog2) ∧
         x.works = (s.sealWorks book).map Work.id ∧
         x.digest = sha256 (ascii "SKAORA-S" ++ leBytes 8 b.uid ++ leBytes 8 b.lseq ++ leBytes 8 (b.sealNo + 1) ++ b.lastSeal ++
           (b.headsAt b.lseq).flatten) ∧
         (t.bookAt book).sealNo = b.sealNo + 1 ∧ (t.bookAt book).lastSeal = x.digest ∧ (t.bookAt book).sinceSeal = 0 ∧
         (t.bookAt book).heads = b.heads ∧ t.crypto.bnQueue.getLast? = some j ∧ j.ofSeal book x.no = true ∧ j.op = 0x20 ∧
         (∀ w ∈ s.sealWorks book, At t w.id (.active 2)) ∧ OtherBooks s t book) ∧
     (∀ x u sig, b.seals.head? = some x → b.statable x.lseq = true → s.writerRuns = true →
       s.canMaster (masterJournal book) = true →
       (x.sign = false ∧ u = s ∧ sig = zeros 96) ∨ (x.sign = true ∧ ∃ e j, s.bnEngineOf (fun j => j.ofSeal book x.no) = some (e, j) ∧
         (s.bnRetire e).signBook book (s.sealBody book x) = (sig, u)) →
       let o := u.hostWrite (masterJournal book) book .seal none x.addr (s.sealBody book x ++ sig)
       ∃ t, exec (.sealSigned book) s = .next t ∧ t.out = o.1.out ∧ (∀ y ∈ (t.bookAt book).seals, y.no ≠ x.no) ∧
         (t.bookAt book).sealAccess = (b.sealAccess || !o.2) ∧
         (∀ id ∈ x.works, ∀ w, s.workAt id = some w → w.ring < 65536 →
           Ended t id (if o.2 then .ok else .access) (leBytes 8 x.no ++ leBytes 8 x.lseq)) ∧
         (t.bookAt book).lseq = b.lseq ∧ (t.bookAt book).heads = b.heads ∧ OtherBooks s t book))

/-! 04_tallies_and_store.md: books and checkpoints. -/

/-- R103, R104, R144: CREATE and DELETE of the selected book set BUSY; the examination refuses them with their CMD_ERR, or
accepts them: a CREATE takes the next incarnation (R100), a DELETE puts the book into DELETING, a hold in force standing
(R139). A set-up asks for the masks of the book keys (R388) and then opens the book with the four keys of its master, an
LSEQ of zero and genesis heads; where the master can no longer give them it is refused with 6. The end of a deletion leaves
NONE, the configuration kept. CREATE, DELETE, BOOK_COMMAND_EXAMINE, BOOK_SETUP_DONE and DELETE_COMPLETE complete under these
conditions. -/
def Obligations.BookCommands : Prop :=
  ∀ (s : State) (book : Nat),
    let b := s.bookAt book
    let sel := s.brine.bookSel
    let k := s.slotAt 0 b.keySlot
    let asked (c : BookCmd) : State := s.modBook sel (fun x => { x with cmd := some c, accepted := false, cmdErr := 0 })
    let refused (i : Instr) (err : Nat) : Prop := ∃ t, exec i s = .next t ∧ (t.bookAt book).cmd = none ∧
      (t.bookAt book).cmdErr = err ∧ (t.bookAt book).st = b.st ∧ OtherBooks s t book ∧ t.keys = s.keys ∧ t.nv = s.nv
    (s.regWritable 0x050004 = true → (s.bookAt sel).cmd = none → exec .create s = .next (asked .create)) ∧
    (s.regWritable 0x050004 = true → (s.bookAt sel).cmd = none → exec .delete s = .next (asked .delete)) ∧
    (b.cmd = some .create → b.accepted = false → s.createErr book = 0 →
      ∃ t, exec (.bookCommandExamine book) s = .next t ∧ t.brine = { s.brine with incarnCtr := s.brine.incarnCtr + 1 } ∧
        t.bookAt book = { b with incarn := s.brine.incarnCtr + 1, accepted := true } ∧ OtherBooks s t book ∧
        t.pan = s.pan ∧ t.keys = s.keys ∧ t.work = s.work) ∧
    (b.cmd = some .create → b.accepted = false → s.createErr book ≠ 0 →
      refused (.bookCommandExamine book) (s.createErr book)) ∧
    (b.cmd = some .delete → b.accepted = false → b.st = .none_ ∨ b.st = .deleting → refused (.bookCommandExamine book) 1) ∧
    (b.cmd = some .delete → b.accepted = false → b.st ≠ .none_ → b.st ≠ .deleting →
      ∃ t, exec (.bookCommandExamine book) s = .next t ∧ (t.bookAt book).st = .deleting ∧
        (t.bookAt book).accepted = true ∧ (t.bookAt book).hold = b.hold ∧ (t.bookAt book).wb = none) ∧
    (b.cmd = some .create → b.accepted = true → s.masterOk b.keySlot book = false → refused (.bookSetupDone book) 6) ∧
    (b.cmd = some .create → b.accepted = true → s.masterOk b.keySlot book = true → s.gotRandom (.bookKeys book) = none →
      exec (.bookSetupDone book) s = .next (s.askRandom (.bookKeys book) 2 book 128)) ∧
    (∀ r, b.cmd = some .create → b.accepted = true → s.masterOk b.keySlot book = true → s.gotRandom (.bookKeys book) = some r →
      ∃ t, exec (.bookSetupDone book) s = .next t ∧ (t.bookAt book).st = .open_ ∧ (t.bookAt book).cmd = none ∧
        (t.bookAt book).lseq = 0 ∧ (t.bookAt book).incarn = b.incarn ∧ (t.bookAt book).keysHeld = true ∧
        (t.bookAt book).keyMask = r ∧ (t.bookAt book).encKey = bookKey k b.uid "SALT-ENC" ∧
        (t.bookAt book).twkKey = bookKey k b.uid "SALT-TWK" ∧ (t.bookAt book).macKey = bookKey k b.uid "SALT-MAC" ∧
        (t.bookAt book).jrnKey = bookKey k b.uid "JRNL-MAC" ∧
        (t.bookAt book).heads = genesisHeads b.uid b.incarn b.strands ∧ OtherBooks s t book) ∧
    (b.st = .deleting → b.staged = [] → b.seals = [] → s.workLeft book = false →
      ∃ t, exec (.deleteComplete book) s = .next t ∧ (t.bookAt book).st = .none_ ∧ (t.bookAt book).keysHeld = false ∧
        (t.bookAt book).cmd = none ∧ (t.bookAt book).cap = b.cap ∧ (∀ x ∈ t.pan.blocks, x.book ≠ book) ∧ OtherBooks s t book)

/-- R137, R138: CHECKPOINT begins with the dirty blocks of its book as its fixed set, or waits behind another write-back or a
hold. Phase 1 makes another pass while more than 64 blocks are dirty, up to 8; then, the earlier postings gone, phase 2 takes
the cut, and ends with the root. R138 to R140, R240: the signed statement is written once the frames up to the cut have been
issued; the command ends, with ACCESS where the write is refused, and its hold begins; that of a muted one (R294) is not
written and no completion is made. R139: a hold ends by command, not once a HANDOVER has been accepted (R215), or after
4,096 pounds. CHECKPOINT, CHECKPOINT_PHASE2, CHECKPOINT_RELEASE and CHECKPOINT_HOLD_EXPIRY complete under these conditions. -/
def Obligations.Checkpoints : Prop :=
  ∀ (s : State) (book : Nat),
    let b := s.bookAt book
    let marked (t : State) (n : Nat) : Prop := ∀ k p, s.blockAt n k = some p → t.blockAt n k = some { p with cut := p.dirty }
    (∀ ring w, Starts s ring 0x3010 w → w.ckptForm (s.bookAt w.slice).strands = true → (s.bookAt w.slice).accepts = true →
      ((s.bookAt w.slice).wb = none → (s.bookAt w.slice).hold = none →
        s.rangeOk w.slice (w.field 0x10 8) (w.field 0x18 4) true = true →
        ∃ t j, exec (.checkpoint ring) s = .next t ∧ (t.bookAt w.slice).wb = some j ∧ j.work = w.id ∧ j.phase = 1 ∧
          j.hold = bit (w.field 0x1C 4) 0 ∧ At t w.id (.active 1) ∧ marked t w.slice ∧ OtherBooks s t w.slice ∧
          t = { s with books := t.books, pan := t.pan, work := t.work }) ∧
      ((s.bookAt w.slice).wb ≠ none ∨ (s.bookAt w.slice).hold ≠ none →
        ∃ t, exec (.checkpoint ring) s = .next t ∧ At t w.id (.active 0) ∧ OnlyWork s t w.id)) ∧
    (∀ j, s.wbOf book 0x3010 = some j → s.cutLeft book = false →
      (j.phase = 1 → 64 < s.dirtyBlocks book → j.passes + 1 < 8 →
        ∃ t, exec (.checkpointPhase2 book) s = .next t ∧ marked t book ∧
          t.bookAt book = { b with wb := some { j with passes := j.passes + 1 } } ∧ OtherBooks s t book ∧
          t = { s with books := t.books, pan := t.pan }) ∧
      (j.phase = 1 → ¬ (64 < s.dirtyBlocks book ∧ j.passes + 1 < 8) → s.earlierPostings book j = false →
        ∃ t k, exec (.checkpointPhase2 book) s = .next t ∧ (t.bookAt book).wb = some k ∧ k.work = j.work ∧ k.phase = 2 ∧
          k.cut = b.lseq ∧ k.heads = b.headsAt b.lseq ∧ k.grain = s.now ∧ marked t book ∧ OtherBooks s t book ∧
          t = { s with books := t.books, pan := t.pan }) ∧
      (j.phase = 2 → exec (.checkpointPhase2 book) s =
        .next (s.setBook book { b with wb := some { j with phase := 3, root := b.rootBytes, ended := s.now } }))) ∧
    (∀ j w, s.wbOf book 0x3010 = some j → j.phase = 3 → s.workAt j.work = some w → w.ring < 65536 →
      (∀ u sig, j.mute = false → b.statable j.cut = true → s.writerRuns = true → s.canMaster (masterJournal book) = true →
        s.signBook book (s.ckptBody book j) = (sig, u) →
        let o := u.hostWrite (masterJournal book) book .statement none (w.field 0x10 8) (s.ckptBody book j ++ sig)
        ∃ t, exec (.checkpointPhase2 book) s = .next t ∧ t.out = o.1.out ∧
          Ended t w.id (if o.2 then .ok else .access) (leBytes 8 j.cut ++ leBytes 2 (336 + 32 * b.strands)) ∧
          (t.bookAt book).wb = none ∧ (t.bookAt book).hold = (if o.2 && j.hold then some j.ended else b.hold) ∧
          OtherBooks s t book) ∧
      (j.mute = true → ∃ t, exec (.checkpointPhase2 book) s = .next t ∧ t.out = s.out ∧ t.workAt w.id = none ∧
        t.bookAt book = { b with wb := none } ∧ OtherBooks s t book)) ∧
    (∀ ring w, Starts s ring 0x3011 w → w.aux = 0 → w.zeroFrom 0x10 0x40 = true →
      ((s.bookAt w.slice).handover = none →
        ∃ t res, exec (.checkpointRelease ring) s = .next t ∧ Ended t w.id .ok res ∧ (t.bookAt w.slice).hold = none ∧
          OtherBooks s t w.slice ∧ t = { s with books := t.books, work := t.work, draws := t.draws }) ∧
      ((s.bookAt w.slice).handover ≠ none →
        ∃ t res, exec (.checkpointRelease ring) s = .next t ∧ Ended t w.id .state res ∧ t.books = s.books)) ∧
    (∀ g, b.hold = some g → g + 4096 * 5760 ≤ s.now → exec (.checkpointHoldExpiry book) s =
      .next (s.modBook book (fun x => { x with hold := none, holdExpired := true })))

/-! 06_journal.md: recovery and handover. -/

/-- R142, R208, R211, R212: CHECKPOINT_RESTORE and GAP_CLEAR read their buffer; REPLAY begins, and reads the head of the
frame at its place; REPLAY_END opens the book at its target, or fences it with GAP. -/
def Obligations.Recovery : Prop :=
  ∀ (s : State) (ring : Nat) (w : Work),
    let b := s.bookAt w.slice
    let addr := w.field 0x10 8
    let len := w.field 0x18 4
    let good (m : Nat) : Prop := w.aux = 0 ∧ w.zeroFrom 0x1C 0x40 = true ∧ addr + len ≤ 2 ^ 64 ∧
      s.rangeOk w.slice addr len false = true ∧ s.canRead m = true ∧
      (s.hostRead (.work w.id 0) m w.slice .statement addr len false).2 = true
    (Starts s ring 0x3012 w → good (masterJournal w.slice) → b.st = .recovering ∨ b.st = .fencedIntegrity →
      b.keysHeld = true → len = 336 + 32 * b.strands → Asks (.checkpointRestore ring) s w.id 1 addr len) ∧
    (Starts s ring 0x3020 w → w.aux = 0 → w.zeroFrom 0x1C 0x40 = true → addr + len ≤ 2 ^ 64 →
      s.rangeOk w.slice addr len false = true → b.st = .recovering → len ≠ 0 → len % 32 = 0 →
      s.work.any (fun v => v.replaying w.slice) = false →
      exec (.replay ring) s = .next (s.modWork w.id (fun v => { v with phase := .active 1 }))) ∧
    (s.workAt w.id = some w → b.replayed < b.target → w.pos < len → w.input = [] →
      s.canRead (masterJournal w.slice) = true →
      (s.hostRead (.work w.id 0) (masterJournal w.slice) w.slice .statement (addr + w.pos) 32 false).2 = true →
      let t := (s.replayFrame w).1
      At t w.id (.reading 1) ∧ (∃ r ∈ t.reads, r.kind = .work w.id 0 ∧ r.addr = addr + w.pos ∧ r.len = 32) ∧
        t.books = s.books ∧ t.pan = s.pan) ∧
    (Starts s ring 0x3040 w → good 44 → b.st = .fencedGap → b.restored = true → b.wb = none → len = 312 →
      Asks (.gapClear ring) s w.id 1 addr len) ∧
    (Starts s ring 0x3021 w → w.aux = 0 → w.zeroFrom 0x10 0x40 = true → b.st = .recovering →
      s.work.any (fun v => v.replaying w.slice) = false → b.wb = none →
      (b.replayed < b.target → ∃ t, exec (.replayEnd ring) s = .next t ∧ (t.bookAt w.slice).st = .fencedGap ∧
        Ended t w.id .gap (leBytes 8 b.replayed ++ leBytes 4 w.pos ++ [0])) ∧
      (b.restored = true → b.target ≤ b.replayed → b.heads = b.savedHeads → b.moved = false →
        ∃ t, exec (.replayEnd ring) s = .next t ∧ (t.bookAt w.slice).st = .open_ ∧ (t.bookAt w.slice).lseq = b.lseq ∧
          (t.bookAt w.slice).issued = b.lseq ∧ Ended t w.id .ok (leBytes 8 b.replayed ++ leBytes 4 w.pos ++ [0]) ∧
          OtherBooks s t w.slice))

/-- R214, R215, R217: ADOPT_PREPARE asks for its nonce; an accepted HANDOVER closes the book to later work; ADOPT reads
its statement. -/
def Obligations.MovingBooks : Prop :=
  ∀ (s : State) (ring : Nat) (w : Work),
    let addr := w.field 0x10 8
    let len := w.field 0x18 4
    (Starts s ring 0x3032 w → s.prepareFail w = none → ∃ t, exec (.adoptPrepare ring) s = .next t ∧
      At t w.id (.active 1) ∧ (∃ x ∈ t.rng.waiters, x.use = .nonce w.id) ∧ t = { s with work := t.work, rng := t.rng }) ∧
    (Starts s ring 0x3030 w → s.sessionBusy w.session = false → (s.handoverFail w).2 = none →
      ∃ t, exec (.handover ring) s = .next t ∧ (t.bookAt w.slice).handover = some w.id ∧ At t w.id (.active 1) ∧
        OtherBooks s t w.slice ∧ t = { s with books := t.books, work := t.work, keys := t.keys } ∧
        (t.bookAt w.slice).accepts = false) ∧
    (Starts s ring 0x3031 w → s.sessionBusy w.session = false → s.canRead (masterJournal w.slice) = true →
      (s.adoptFail w).2 = none →
      ((s.adoptFail w).1.hostRead (.work w.id 0) (masterJournal w.slice) w.slice .statement addr len false).2 = true →
      Asks (.adopt ring) s w.id 1 addr len)

/-! 04_tallies_and_store.md, 07_faults_and_order.md: the Pan and the Saltern. -/

/-- R121, R132, R136: the read of a block whose parent is on the die places it, decrypted, when its MAC fits; one that does not
fit fences its book. R134: a read of a load that fails is sent again after one pound. R121, R135: a write-back, class-1 work
for a fixed set, else a background step of the mover (R51, R53), writes the block sealed under the next version; the block is
clean, its parent's entry takes version and MAC. One that the window check refuses is noted and tried again after one pound.
SALTERN_BLOCK_LOADED, SALTERN_READ_RETRY, BLOCK_WRITE_BACK and WRITE_BACK_RETRY complete under these conditions. -/
def Obligations.PanAndSaltern : Prop :=
  ∀ (s : State) (book block : Nat),
    let b := s.bookAt book
    let m := masterSaltern book
    (∀ l d v mac, s.loadAt book block = some l → l.failedAt = none → l.levels = [0] → d.length = 256 → s.pwr.flush = none →
      (s.reads.filter (fun r => r.ofLoad book block)).all Read.arrives = true → s.pan.nodes.length ≤ s.nodeRoom →
      s.parentEntry book 0 block = some (v, mac) → v ≠ 0 →
      (b.objMac 0 block v d = mac → s.blockAt book block = none →
        ∃ t p, exec (.salternBlockLoaded book block [d]) s = .next t ∧ t.blockAt book block = some p ∧
          p.recs = recsOf (b.openBlock block v d) ∧ p.dirty = false ∧ p.wbVer = v ∧ t.loadAt book block = none ∧
          t = { s with pan := t.pan, reads := t.reads }) ∧
      (b.objMac 0 block v d ≠ mac → s.rebuildAt book block = none → b.st = .open_ →
        ∃ t, exec (.salternBlockLoaded book block [d]) s = .next t ∧ (t.bookAt book).st = .fencedIntegrity ∧
          t.loadAt book block = none)) ∧
    (∀ l, s.loadAt book block = some l → l.failedAt = none → l.retried = false → s.rebuildAt book block = none →
      ∃ t, exec (.salternReadRetry book block) s = .next t ∧
        t.loadAt book block = some { l with failedAt := some s.now } ∧ t.books = s.books ∧ t.work = s.work) ∧
    (∀ l g, s.loadAt book block = some l → l.failedAt = some g → g + 5760 ≤ s.now → s.canRead m = true →
      (s.loadReads book block true l.levels).2 = true →
      ∃ t, exec (.salternReadRetry book block) s = .next t ∧
        t.loadAt book block = some { l with failedAt := none, retried := true } ∧ t.books = s.books ∧ t.work = s.work) ∧
    (∀ p v mac u, s.blockAt book block = some p → p.dirty = true → p.lost = false → b.mayWriteBack p.cut = true →
      s.parentEntry book 0 block = some (v, mac) → s.canMaster m = true → s.pan.nodes.length ≤ s.nodeRoom →
      (b.wb.isSome = true ∧ u = s) ∨ (b.wb = none ∧ s.mayStep .mover background = true ∧ u = s.takeStep .mover) →
      let d := b.sealBlock block (v + 1) p.bytes
      let o := u.hostWrite m book .saltern none (b.saltBase + 256 * block) d
      let clean (i : Instr) : Prop := ∃ t q, exec i s = .next t ∧ t.blockAt book block = some q ∧ q.recs = p.recs ∧
        q.dirty = false ∧ q.wbVer = v + 1 ∧ q.wbRefused = none ∧ t.out = o.1.out ∧ OtherBooks s t book ∧
        (b.rootVer.length = 8 → b.rootMac.length = 8 →
          (∀ n, s.nodeAt book 1 (block / 8) = some n → n.ver.length = 8 ∧ n.mac.length = 8) →
          t.parentEntry book 0 block = some (v + 1, b.objMac 0 block (v + 1) d)) ∧
        ∀ k, k ≠ block → t.blockAt book k = s.blockAt book k
      let held (i : Instr) : Prop := ∃ t, exec i s = .next t ∧ (t.bookAt book).wbAccess = true ∧
        t.blockAt book block = some { p with wbRefused := some s.now } ∧ OtherBooks s t book
      (p.wbRefused = none → o.2 = true → clean (.blockWriteBack book 0 block)) ∧
      (p.wbRefused = none → o.2 = false → held (.blockWriteBack book 0 block)) ∧
      (∀ g, p.wbRefused = some g → g + 5760 ≤ s.now → o.2 = true → clean (.writeBackRetry book 0 block)) ∧
      (∀ g, p.wbRefused = some g → g + 5760 ≤ s.now → o.2 = false → held (.writeBackRetry book 0 block))) ∧
    (b.wb = none → s.mayStep .mover background = false → s.pan.nodes.length ≤ s.nodeRoom →
      exec (.blockWriteBack book 0 block) s = .next s ∧ exec (.writeBackRetry book 0 block) s = .next s)

/-- R23, R24, R98, R230, R237, R333: a word with one bad symbol reads right again and is counted for its unit; a bad tally
line loses its block, which is rebuilt from its Saltern image and the journal; a bad local word of a core is remembered;
an upset that the code corrects or does not see is no uncorrectable error. UNFENCE clears the fence of a ring at the next
boundary, where what has been fetched before is marked. -/
def Obligations.FaultsAndRebuilds : Prop :=
  ∀ (s : State) (book block : Nat),
    let b := s.bookAt book
    (∀ p w n e, s.codedWord p = some w → n < 36 → 0 < e → e < 16 →
      ∃ t, exec (.correctedWordWriteback p [(n, e)]) s = .next t ∧
        tget 0 t.tel.errCorr (placeUnit p) = min 0xFFFFFFFF (tget 0 s.tel.errCorr (placeUnit p) + 1) ∧
        (∀ k, k ≠ placeUnit p → tget 0 t.tel.errCorr k = tget 0 s.tel.errCorr k) ∧ t = { s with tel := t.tel, nv := t.nv } ∧
        t.nv = (if placeUnit p = 10 then { s.nv with corrected := s.nv.corrected + 1 } else s.nv)) ∧
    (∀ bad upset, examined 0 upset ≠ .uncorrectable → exec (.uncorrectableError bad upset) s = .next s) ∧
    (∀ p upset, s.blockAt book block = some p → p.lost = false → examined 0 upset = .uncorrectable →
      ∃ t q, exec (.uncorrectableError (.panLine book block false) upset) s = .next t ∧ t.blockAt book block = some q ∧ q.lost = true ∧ (t.rebuildAt book block).isSome ∧
      (∀ e ∈ t.brine.entries, e.book = book → e.legs.any (fun l => tidBlock l.tid == block) = true → e.fetched = false) ∧
      t.books = s.books ∧ t.nv = s.nv) ∧
    (∀ core addr upset, examined 0 upset = .uncorrectable →
      ∃ t, exec (.uncorrectableError (.local_ core addr) upset) s = .next t ∧
      (t.coreAt core).bad.contains (addr / 16) = true ∧ (∀ k, k ≠ core → t.coreAt k = s.coreAt k) ∧ t.books = s.books) ∧
    (∀ p r, s.blockAt book block = some p → s.rebuildAt book block = some r → r.haveBase = false → r.started = false →
      p.wbVer ≠ 0 → s.canRead (masterSaltern book) = true →
      ((s.modRebuild book block (fun r => { r with started := true })).startLoad book block 0).2 = true →
      ∃ t q, exec (.panRebuild book block) s = .next t ∧ t.rebuildAt book block = some q ∧ q.started = true ∧
        (t.loadAt book block).isSome ∧ t.books = s.books) ∧
    (∀ p r x d q, s.blockAt book block = some p → s.rebuildAt book block = some r →
      s.reads.find? (fun y => y.kind == .rebuild book block) = some x → x.arrives = true → d.length = x.len →
      s.pwr.flush = none →
      fieldAt d 0 1 ≠ 0xFF → b.frameFail book d = none → recLseq d = r.expect →
      fieldAt d (frameAt d - 16) 8 = r.pos / b.region → r.apply (recordOf d) = some q → q.recs ≠ [] → b.lseq = r.expect →
      ∃ t k, exec (.rebuildFrameArrival book block d) s = .next t ∧ t.blockAt book block = some k ∧ k.recs = q.recs ∧
        k.lost = false ∧ t.rebuildAt book block = none ∧ t.pan.reloads = s.pan.reloads + 1 ∧ t.books = s.books) ∧
    (s.regWritable 0x020030 = true → s.hregs.ringKind = false →
      exec .unfence s = .next (s.defer (.unfence s.hregs.ringSel))) ∧
    (∀ ring, let t := s.settleOne (.unfence ring)
      ((s.sqAt ring).fenced = true → t.sqAt ring = { s.sqAt ring with fenced := false } ∧
        (∀ k, k ≠ ring → t.sqAt k = s.sqAt k) ∧ (∀ r ∈ t.fetchReads ring, r.preUnfence = true) ∧ t.work = s.work ∧
        t.books = s.books) ∧
      ((s.sqAt ring).fenced = false → t = s))

/-! 17_tamper_and_lifecycle.md. -/

/-- R498, R500, R504, R506, R509: events of level 3 and 4 change the life-cycle state. A calibration is one background step of
the tamper monitor (log entry 65). -/
def Obligations.SevereTrips : Prop :=
  ∀ (s : State),
    (Responds s 3 →
      (∀ rail, rail < 3 → ∃ t, exec (.overvoltageTrip rail) s = .next t ∧ Changed s t .bittern 0x02 rail ∧ Raised s t 3 0x02 rail) ∧
      (∀ n tj, n < 16 → tj.toInt < -360 ∨ 1000 < tj.toInt → ∃ t, exec (.temperatureTrip n tj) s = .next t ∧
        Changed s t .bittern 0x03 n ∧ Raised s t 3 0x07 n) ∧
      (∀ track dev, s.mayStep .tamper background = true → track < 256 → 200 < dev →
        ∃ t, exec (.sensorCalibration [(track, dev)]) s = .next t ∧
        Changed s t .bittern 0x04 track ∧ Raised s t 3 0x09 track) ∧
      (∀ mhz, s.tamper.afterRelock = some (3, mhz) → ∃ t, exec .clockRelock s = .next t ∧ Changed s t .bittern 0x01 0 ∧
        t.tamper.clockStopped = false ∧ Raised s t 3 0x04 0)) ∧
    (Responds s 4 →
      (∀ n, n < 64 → ∃ t, exec (.lightSensorTrip n) s = .next t ∧ Changed s t .spent 0x10 n ∧ Raised s t 4 0x05 n) ∧
      (∀ mesh, mesh < 2 → s.pwr.mainOk = true → ∃ t, exec (.substrateMeshFail mesh) s = .next t ∧
        Changed s t .spent 0x12 mesh ∧ Raised s t 4 0x0A mesh) ∧
      (∀ mf, s.pwr.mainOk = true → s.tamper.arm = true → s.tamper.loopEn = true → s.tamper.latch = false →
        ∃ t, exec (.batteryLoopCheck true mf) s = .next t ∧ Changed s t .spent 0x13 0 ∧ t.tamper.latch = true ∧
          t.tamper.latchLoop = true))

/-- R35, R422, R498, R499, R503 to R505: events of level 1 are counted and logged; those of level 2 are counted,
logged and squash a step, a comparator glitch among them; a clock trip stops the clock until the relock. A calibration
is one background step of the tamper monitor (log entry 65). R501, R502: the battery latch while main power is absent, and
BAT_CFG in ISSUED. -/
def Obligations.LowTripsAndBattery : Prop :=
  (∀ (s : State),
     let counted1 (t : State) : Prop := t.tamper.l1 = min 0xFFFFFFFF (s.tamper.l1 + 1)
     let counted2 (t : State) : Prop := t.tamper.l2 = min 0xFFFFFFFF (s.tamper.l2 + 1) ∧ t.tamper.window = s.window2 ++ [s.now]
     let stopped (level mhz : Nat) : State :=
       { s with tamper := { s.tamper with clockStopped := true, afterRelock := some (level, mhz) } }
     (∀ n tj, n < 16 → s.sensing = true → tj.toInt < -320 ∨ 840 < tj.toInt →
       ∃ t, exec (.temperatureGradeTrip n tj) s = .next t ∧ Raised s t 1 0x06 n ∧ counted1 t ∧
         t.tamper.state = s.tamper.state ∧ t = { s with tamper := t.tamper, logs := t.logs }) ∧
     (∀ l, s.sensing = true → (∀ d ∈ l, d.2 ≤ 80) →
       (s.mayStep .tamper background = true → ∃ t, exec (.sensorCalibration l) s = .next t ∧
         t.sched.overdue.contains 3 = false ∧ t = { s with sched := t.sched }) ∧
       (s.mayStep .tamper background = false → exec (.sensorCalibration l) s = .next s)) ∧
     (∀ n, n < 8 → s.sensing = true → n < 7 → s.pwr.flush = none → s.window2.length < 15 →
       ∃ t, exec (.glitchDetectorTrip n) s = .next t ∧ Raised s t 2 0x01 n ∧ counted2 t ∧
         (n < 6 → ∀ c, c < 32 → (s.coreAt c).mode = .running → (t.coreAt c).squash = true)) ∧
     (∀ n, n < 6 → Responds s 3 → 15 ≤ s.window2.length → ∃ t, exec (.glitchDetectorTrip n) s = .next t ∧
       Changed s t .bittern 0x05 0 ∧ Raised s t 2 0x01 n) ∧
     (∀ unit i, unit ≤ 12 → s.sensing = true → s.pwr.flush = none → s.window2.length < 15 →
       (∃ t, exec (.tamperLevel2Squash none unit i) s = .next t ∧ Raised s t 2 0x11 unit ∧ counted2 t ∧
         (unit = 8 → (s.coreAt i).mode = .running → (t.coreAt i).squash = true)) ∧
       ∀ flags, ∃ t, exec (.tamperLevel2Squash (some flags) unit i) s = .next t ∧ Raised s t 2 0x12 unit ∧ counted2 t ∧
         t.crypto.cmpGlitch = s.crypto.cmpGlitch + 1) ∧
     (s.sensing = true → s.tamper.afterRelock = none → exec .clockPeriodTrip s = .next (stopped 2 0) ∧
       ∀ mhz, mhz < 1520 ∨ 1680 < mhz → exec (.clockFrequencyTrip mhz) s = .next (stopped 3 mhz)) ∧
     (∀ m, s.sensing = true → s.pwr.flush = none → s.window2.length < 15 → s.tamper.afterRelock = some (2, m) →
       ∃ t, exec .clockRelock s = .next t ∧ t.tamper.clockStopped = false ∧ t.tamper.afterRelock = none ∧ counted2 t ∧
         Raised s t 2 0x03 0) ∧
     (s.pwr.mainOk = true → s.tamper.arm = true → s.tamper.vbatLow = false → s.tamper.state ≠ .spent →
       ∃ t, exec .vbatLow s = .next t ∧ t.tamper.vbatLow = true ∧ counted1 t ∧ Raised s t 1 0x0C 0) ∧
     (s.pwr.mainOk = true → exec .vbatRestored s = .next { s with tamper := { s.tamper with vbatLow := false } })) ∧
  (∀ (s : State),
     (∀ loopFault, s.tamper.arm = true → s.tamper.state ≠ .spent → s.pwr.mainOk = false →
       ∃ t, exec (.batteryLoopCheck loopFault true) s = .next t ∧ t.tamper.latch = true ∧ t.tamper.latchMesh = true ∧
         t.tamper.state = s.tamper.state ∧ t = { s with tamper := t.tamper }) ∧
     (s.regWritable 0x070020 = true → s.tamper.state = .issued → ∀ value,
       (value.testBit 0 = true → ∃ t, exec (.batCfgWrite value true true) s = .next t ∧ t.tamper.arm = true ∧
         t.tamper.armRec = true ∧ t.tamper.loopEn = value.testBit 1 ∧ t.tamper.pattern.isSome ∧ t.tamper.latch = false ∧
         t.tamper.latchLoop = false ∧ t.tamper.latchMesh = false ∧ t.tamper.state = .issued) ∧
       (∀ loopOk, value.testBit 0 = true → ∃ t, exec (.batCfgWrite value loopOk false) s = .next t ∧ t.tamper.armErr = true ∧
         t.tamper.arm = s.tamper.arm) ∧
       (∀ loopOk meshOk, value.testBit 0 = false → ∃ t, exec (.batCfgWrite value loopOk meshOk) s = .next t ∧
         t.tamper.arm = false ∧ t.tamper.armRec = false ∧ t.tamper.pattern = none ∧ t.tamper.latch = false)))

/-- R408, R509, R511, R513, R515, R519, R521: life-cycle commands. -/
def Obligations.LifeCycleCommands : Prop :=
  ∀ (s : State) (ring : Nat) (w : Work),
    (∀ tr id v, s.keys.erasing = true → s.tamper.transition = some tr → tr.work = some id → tr.rewritten = false →
      s.workAt id = some v → v.ring < 65536 → ∃ t, exec .keyEraseComplete s = .next t ∧ t.keys.erasing = false ∧
        t.keys.erasePending = false ∧ t.tamper.erasePending = false ∧ t.tamper.transition = none ∧
        t.tamper.state = s.tamper.state ∧ Ended t id .ok (leBytes 1 (lcCode s.tamper.state))) ∧
    (Starts s ring 0xA000 w → s.challengeFail w = none → ∃ t, exec (.custChallenge ring) s = .next t ∧
      At t w.id (.active 1) ∧ (∃ x ∈ t.rng.waiters, x.use = .challenge w.id) ∧ t = { s with work := t.work, rng := t.rng }) ∧
    (∀ slot b, s.tamper.challenges.find? (fun e => e.1 == slot) = some (slot, b) →
      fieldAt b 0x28 8 + 131072 * 5760 ≤ s.now → ∃ t, exec (.challengeSlotLapse slot) s = .next t ∧
        (∀ e ∈ t.tamper.challenges, e.1 ≠ slot) ∧ (∀ e ∈ s.tamper.challenges, e.1 ≠ slot → e ∈ t.tamper.challenges) ∧
        t = { s with tamper := t.tamper }) ∧
    (Starts s ring 0xA001 w → stageForm w = true → s.tamper.state = .issued → s.canRead 44 = true →
      s.rangeOk w.slice (w.field 0x10 8) (w.field 0x18 4) false = true → s.rangeOk w.slice (w.field 0x20 8) 312 false = true →
      (s.hostRead (.work w.id 0) 44 w.slice .statement (w.field 0x10 8) (w.field 0x18 4) false).2 = true →
      Asks (.lcStage ring) s w.id 1 (w.field 0x10 8) (w.field 0x18 4)) ∧
    (∀ target, Starts s ring 0xA002 w → s.lcForm w = true → lcOfCode (w.field 0x10 1) = some target →
      lcAllowed s.tamper.state target = true → s.tamper.transition = none → s.keys.erasing = false →
      (s.tamper.state ≠ .sealed_ → s.confirmOk w = true → s.holdHealthy = true →
        ∃ t, exec (.lcChange ring) s = .next t ∧ Changed s t target 0x20 0 ∧
          t.tamper.transition = some { target := target, work := some w.id, rewritten := false }) ∧
      (s.tamper.state = .sealed_ → s.rangeOk w.slice (w.field 0x18 8) 312 false = true → s.canRead 44 = true →
        (s.hostRead (.work w.id 0) 44 w.slice .statement (w.field 0x18 8) 312 false).2 = true →
        Asks (.lcChange ring) s w.id 1 (w.field 0x18 8) 312)) ∧
    (s.summaryReady = true → ∃ t sig, exec .bitternSummaryFormed s = .next t ∧
      t.tamper.summary = some (s.summaryStatement ++ sig) ∧ t.tamper.summaryDue = false ∧ t.tamper.state = .bittern ∧
      t.books = s.books ∧ t.keys = s.keys) ∧
    (∀ b, Starts s ring 0xA010 w → s.statementFail w = none → w.field 0x1C 1 = 0 → s.tamper.summary = some b →
      s.canMaster 44 = true → (s.hostWrite 44 w.slice .statement (some w.id) (w.field 0x10 8) b).2 = true →
      ∃ t x, exec (.bitternStatement ring) s = .next t ∧ Ended t w.id .ok (leBytes 4 b.length ++ x) ∧
        t.out = (s.hostWrite 44 w.slice .statement (some w.id) (w.field 0x10 8) b).1.out ∧ t.books = s.books)

/-! 19_power_and_startup.md. -/

/-- R554 to R557, R560, R565: a power failure behind the running mark begins the drain of the flush, a PERST_N
assertion its save; before the mark the device only stops. The drain ends by its cut-off, where prime operations under
way still complete. R475, R478, R479, R558: the
keep domain stops a flush that is not committed; what is stored and the battery domain remain. -/
def Obligations.PowerFailures : Prop :=
  (∀ (s : State),
     let idle : Prop := ∀ w ∈ s.work, w.isPrime = true → w.isDone = true
     let flushing (t : State) (step : FlushStep) (cause : Nat) : Prop :=
       (∃ f, t.pwr.flush = some f ∧ f.step = step ∧ f.since = s.now) ∧ t.pwr.resetCause = cause ∧ t.brine.entries = []
     let kept (t : State) : Prop := (idle → t.reads = []) ∧ t.keys = s.keys ∧ t.nv = { s.nv with commitWaits := [] } ∧
       ∀ k, (t.bookAt k).staged = (s.bookAt k).staged ∧ (t.bookAt k).lseq = (s.bookAt k).lseq
     (s.marked = true → s.pwr.flush = none →
       (∀ rail, rail < 6 → ∃ t, exec (.mainRailFail rail) s = .next t ∧ flushing t .drain 0 ∧ kept t ∧ t.pwr.mainOk = false) ∧
       (∃ t, exec .pwrFailNAssert s = .next t ∧ flushing t .drain 0 ∧ kept t ∧ t.pwr.pwrFail = true) ∧
       (∃ t, exec .perstNAssert s = .next t ∧ flushing t .save 1 ∧ t.pwr.perst = true ∧ t.link.up = false ∧ t.work = [] ∧
         (idle → kept t))) ∧
     (s.pwr.starting = true → s.marked = false → s.pwr.flush = none → ∀ rail, rail < 6 →
       ∃ t, exec (.mainRailFail rail) s = .next t ∧ t.pwr.starting = false ∧ t.pwr.flush = none ∧ t.pwr.step = 0 ∧
         t.work = [] ∧ t.books = [] ∧ t.keys.root = none ∧ t.nv.saved = s.nv.saved ∧ t.tamper.state = s.tamper.state) ∧
     (∀ f cause, s.pwr.flush = some f → f.step = .drain → s.cutoffHolds f cause = true →
       ∃ t, exec (.drainCutoff cause) s = .next t ∧ t.pwr.flush = some { f with step := .save, cut := t.framesLeft } ∧
         t.pwr.drainCut = t.framesLeft ∧ t.work = [] ∧ (idle → t.books = s.books ∧ t.keys = s.keys ∧ t.nv = s.nv))) ∧
  (∀ (s : State) (f : Flush) (written : Option Nat), s.pwr.flush = some f →
     ∃ t, exec (.keepDomainStop written) s = .next t ∧ t.pwr.flush = none ∧ t.pwr.starting = false ∧
       t.pwr.flushFlag = false ∧ t.work = [] ∧ t.books = [] ∧ t.nv.wbuf = [] ∧ t.keys.root = none ∧ t.now = s.now ∧
       t.nv.running = s.nv.running ∧ t.nv.saved = s.nv.saved ∧
       t.tamper.state = s.tamper.state ∧ t.tamper.latch = s.tamper.latch ∧ t.tamper.arm = s.tamper.arm ∧
       t.out = s.out ∧ (written = none → t.nv.counters = s.nv.counters) ∧ (s.nv.wt = false → t.nv.bookRecs = s.nv.bookRecs) ∧
       (written = none → s.nv.wt = false → t.nv.pages = s.nv.pages ∧ t.nv.maps = s.nv.maps))

/-- R13, R480, R552, R564: HOLD below 9.5 V enters write-through, which stores what the keep domain holds; the exit ends
it; HTM_GRAIN is recorded every 4,096 pounds. -/
def Obligations.WriteThrough : Prop :=
  ∀ (s : State),
    (∀ mv, mv < 9500 → s.pwr.starting = true → s.nv.wt = false → s.nv.running = true → s.pwr.flush = none →
      ∃ t, exec (.holdWeak mv) s = .next t ∧ t.nv.wt = true ∧ t.nv.wtMark = true ∧ t.nv.wbuf = [] ∧ t.nv.behind = [] ∧
        t.nv.storeDue = [] ∧
        t.pwr.holdOk = false ∧ t.nv.grainRec = s.now / 5760 * 5760 ∧ t.keys.epochRec = s.keys.epoch ∧
        t.keys.epoch = s.keys.epoch ∧ t.now = s.now) ∧
    (s.pwr.starting = true → s.nv.wt = true → s.pwr.flush = none →
      ∃ t, exec .writeThroughExit s = .next t ∧ t.nv.wt = false ∧ t.nv.wtMark = false ∧ t.pwr.holdOk = true ∧
        t.nv.bookRecs = s.bookImages ∧ t.nv.counters = s.nv.counters ∧ t.books = s.books ∧ t.work = s.work) ∧
    (s.sched.running = true → s.nv.grainRec + 4096 * 5760 ≤ s.now →
      ∃ t, exec .grainRecord s = .next t ∧ t.nv.grainRec = s.now / 5760 * 5760 ∧ t.nv.counters = s.nv.counters ∧
        t.nv.bookRecs = s.nv.bookRecs ∧ t.nv.saved = s.nv.saved ∧ t.nv.wbuf.length = s.nv.wbuf.length ∧
        t = { s with nv := t.nv, sched := t.sched, logs := t.logs })

/-- R13, R374, R376, R387, R477, R523, R561 to R564, R567: START_UP makes steps 0 to 4 at once (log entry 36): it restores the
books and the grain, begins a reset epoch and leaves the root array zero and off; where the root does not come, it halts, in
SPENT nothing but the grain is restored. R385, R389, R458: the key sweep asks for its masks, runs with them, or after 16 pounds
under the fallback mask, which is logged. LINK_TRAINING_START, LINK_UP, CONFIGURATION_READY and RINGS_SERVICEABLE are the
steps that follow. -/
def Obligations.StartUp : Prop :=
  ∀ (s : State) (array : Bytes) (mv : Nat) (lost : Bool),
    let up : Prop := s.pwr.starting = true ∧ s.pwr.flush = none
    let root : Prop := s.pwr.starting = false ∧ s.pwr.flush = none ∧ s.tamper.state ≠ .spent ∧ s.tamper.state ≠ .blank
    let code := (s.keys.reconstruct array).haltCode
    (root → code = 0 → ∃ t, exec (.startUp array mv lost) s = .next t ∧ t.pwr.starting = true ∧ t.pwr.step = 4 ∧
      t.now = s.nv.resume ∧ t.sched.running = true ∧ t.nv.running = true ∧ t.keys.epoch = s.keys.epochRec + 1 ∧
      t.keys.rootArray = zeros 4096 ∧ t.keys.rootOn = false ∧
      (s.tamper.held = [] → s.tamper.flushEvent = none → s.tamper.latch = false → s.nv.lost = false → 9500 ≤ mv →
        lost = false → t.books = s.nv.books ∧ t.tamper.state = s.tamper.state ∧ t.nv.wt = s.nv.wt)) ∧
    (root → code ≠ 0 → (∀ h ∈ s.tamper.held, h.level ≠ 4) → ∃ t, exec (.startUp array mv lost) s = .next t ∧
      t.pwr.step = 2 ∧ t.halted = true ∧ t.tamper.state = s.tamper.state ∧ t.cl.mode = .off ∧
      t.keys.rootArray = zeros 4096 ∧ t.keys.rootOn = false ∧ (s.work = [] → t.books = s.books)) ∧
    (s.pwr.starting = false → s.pwr.flush = none → s.tamper.state = .spent →
      ∃ t, exec (.startUp array mv lost) s = .next t ∧ t.pwr.step = 4 ∧ t.pwr.starting = true ∧ t.tamper.state = .spent ∧
        t.now = s.nv.resume ∧ t.nv.running = false ∧ t.cl.mode = .tag ∧ (s.work = [] → t.books = s.books)) ∧
    (up → exec .linkTrainingStart s = .next { s with link := { s.link with training := true } }) ∧
    (up → s.link.training = true → exec .linkUp s =
      .next { s with link := { s.link with up := true }, pwr := { s.pwr with step := max s.pwr.step 7 } }) ∧
    (up → exec .configurationReady s = .next { s with pwr := { s.pwr with step := max s.pwr.step 8 } }) ∧
    (s.sweepDue = true → s.sweepItems = [] ∨ s.gotRandom .sweep ≠ none → ∃ t, exec .keySweep s = .next t ∧
      t.keys.swept = true ∧ t.pwr.step = max s.pwr.step 6 ∧ t.keys.weakMask = s.keys.weakMask ∧ t.work = s.work ∧
      t.now = s.now ∧ ∀ k, (t.bookAt k).st = (s.bookAt k).st ∧ (t.bookAt k).lseq = (s.bookAt k).lseq) ∧
    (s.sweepDue = true → s.sweepItems ≠ [] → s.gotRandom .sweep = none →
      exec .keySweep s = .next (s.askRandom .sweep 2 0 s.sweepNeed)) ∧
    (s.sweepDue = true → s.sweepLate = true → ∃ t, exec .keySweepFallbackMask s = .next t ∧ t.keys.swept = true ∧
      t.pwr.step = max s.pwr.step 6 ∧ t.keys.weakMask = true ∧ t.work = s.work ∧ (∃ e ∈ t.logs.ppend, e.event = 0x0D) ∧
      t.rng = { s.rng with waiters := t.rng.waiters }) ∧
    (s.pwr.step = 8 → s.pwr.flush = none → s.halted = false → s.keys.swept = true →
      ∃ t, exec .ringsServiceable s = .next t ∧ t.serviceable = true ∧ t = { s with pwr := t.pwr, draws := t.draws })

/-- R69, R277, R387, R401, R525, R560: a function-level, hot or link-down reset returns rings, completion rings, vectors
and configuration space to their reset values and begins a new reset epoch; the ledger, the store and the life cycle
stand. -/
def Obligations.HostResets : Prop :=
  ∀ (s : State), s.pwr.starting = true → s.pwr.flush = none →
    (∀ p ∈ [(2, Instr.functionLevelReset), (3, .hotReset), (4, .linkDownReset)],
      ∃ t, exec p.2 s = .next t ∧ t.sq = [] ∧ t.cq = [] ∧ t.msix = [] ∧ t.link.resetting = true ∧ t.link.bme = false ∧
        t.link.up = (p.1 == 2 && s.link.up) ∧ t.link.aer = s.link.aer ∧ t.pwr.resetCause = p.1 ∧
        t.keys.epoch = s.keys.epoch + 1 ∧ t.tamper.l1 = 0 ∧ t.tamper.l2 = 0 ∧ t.tamper.challenges = [] ∧
        t.tamper.state = s.tamper.state ∧ t.now = s.now ∧ t.nv.counters = s.nv.counters ∧
        (s.nv.wt = false → t.nv.pages = s.nv.pages ∧ t.nv.maps = s.nv.maps) ∧
        ∀ k, (t.bookAt k).st = (s.bookAt k).st ∧ (t.bookAt k).lseq = (s.bookAt k).lseq ∧
          (t.bookAt k).heads = (s.bookAt k).heads) ∧
    exec .functionLevelResetComplete s = .next { s with link := { s.link with resetting := false } }

/-! 01_architecture.md, 08_rings_and_doorbells.md: registers, configuration space and requests. -/

/-- R15, R245, R273, R324, R496: writes of selectors, of bits that clear by writing one, and of the settings of
configuration space; reads return the word and clear what a read clears. R8, R246, R247, R249 to R252, R259, R277, R582:
reads of configuration space, of the doorbell pages and of the MSI-X table; requests of configuration space and of the BARs
that the device does not serve, link errors, the bits that open the link, the MSI-X table. The encodings of the settings and
the MSI-X bits are those of the PCI Express base specification (log entry 12). -/
def Obligations.RegisterAccess : Prop :=
  (∀ (s : State),
     let cfg : Prop := s.link.up = true ∧ s.pwr.flush = none ∧ 8 ≤ s.pwr.step ∧ s.link.resetting = false
     let set (r : RegTarget) (v : Nat) (l : Link) : Prop := exec (.registerWrite r v) s = .next (State.sendPending { s with link := l })
     let put (o v : Nat) (t : State) : Prop := exec (.registerWrite (.bar0 o 4) v) s = .next t
     let gives (o : Nat) (d : Bytes) (t : State) : Prop :=
       exec (.rcRegisterRead 0 o 4) s = .next { t with out := s.out ++ [.barRead o d] }
     (cfg → ∀ v, set .relaxedOrdering v { s.link with roEn := v.testBit 0 } ∧ set .noSnoop v { s.link with nsEn := v.testBit 0 } ∧
       set .idoRequest v { s.link with idoEn := v.testBit 0 } ∧ set .tag10 v { s.link with tag10 := v.testBit 0 } ∧
       set .msixEnable v { s.link with msixEn := v.testBit 0 } ∧ set .functionMask v { s.link with funcMask := v.testBit 0 } ∧
       (v ≤ 2 → set .maxPayload v { s.link with mps := 128 * 2 ^ v }) ∧
       (v ≤ 5 → set .maxReadRequest v { s.link with mrrs := 128 * 2 ^ v })) ∧
     (s.barUp = true → s.halted = false → s.tamper.state ≠ .spent → ∀ v, v < 2 ^ 32 →
       put 0x020000 v { s with hregs := { s.hregs with ringSel := v % 65536, ringKind := v.testBit 16 } } ∧
       put 0x030000 v { s with hregs := { s.hregs with winSlice := v % 1024, winIndex := v / 65536 % 32 } } ∧
       put 0x030100 v { s with hregs := { s.hregs with mpuSel := v % 64, mpuRegion := v / 256 % 16 } } ∧
       put 0x050000 v { s with brine := { s.brine with bookSel := v % 1024 } } ∧
       put 0x060010 v { s with nv := { s.nv with partSel := v % 64 } } ∧
       put 0x060040 v { s with nv := { s.nv with cntSel := v % 4096 } } ∧
       put 0x030030 v (if v.testBit 0 then { s with hregs := { s.hregs with winCap := none } } else s) ∧
       put 0x060000 v (if v.testBit 2 then { s with nv := { s.nv with flushLost := false } } else s) ∧
       (s.hregs.ringKind = false → put 0x020018 v ((s.defer (.mod_ s.hregs.ringSel (v % 256) (v / 256 % 65536))).modSq
         s.hregs.ringSel (fun q => { q with err := 0 }))) ∧
       put 0x070024 v (if v.testBit 4 then { s with tamper := { s.tamper with armErr := false } } else s)) ∧
     (s.barUp = true → s.halted = false → s.tamper.state ≠ .spent →
       gives 0x070018 (leBytes 4 s.tamper.l1) { s with tamper := { s.tamper with l1 := 0 } } ∧
       gives 0x07001C (leBytes 4 s.tamper.l2) { s with tamper := { s.tamper with l2 := 0 } } ∧
       gives 0x0A020C (leBytes 4 s.logs.plogLost) { s with logs := { s.logs with plogLost := 0 } } ∧
       (∀ u, u ≤ 12 → gives (0x0A0100 + 4 * u) (leBytes 4 (tget 0 s.tel.errCorr u))
         { s with tel := { s.tel with errCorr := tput 0 s.tel.errCorr u 0 } }) ∧
       gives 0x000008 (leBytes 4 (s.now % 2 ^ 32)) s ∧ gives 0x000000 (leBytes 4 htmIdent) s)) ∧
  (∀ (s : State),
     (s.link.up = true → s.pwr.flush = none → s.pwr.step < 8 ∨ s.link.resetting = true →
       ∀ f, exec (.configRequestRetry f) s = .next { s with out := s.out ++ [.crs] }) ∧
     (s.link.up = true → s.pwr.flush = none → 8 ≤ s.pwr.step → s.link.resetting = false →
       let shows (f : CfgField) (v : Nat) : Prop :=
         exec (.configRequestRetry f) s = .next { s with out := s.out ++ [.config f v] }
       shows .vendorId 0x1F3C ∧ shows .deviceId 0x9640 ∧ shows .revisionId 0xB1 ∧ shows .classCode 0x108000 ∧
       shows .interruptPin 0 ∧ shows .tag10Requester 1 ∧ shows .flr 1 ∧ shows .busMaster (flag s.link.bme) ∧
       shows .pasidEnable (flag s.link.pasidEn) ∧ shows .idoRequest (flag s.link.idoEn)) ∧
     (s.barUp = true → ∀ offset size,
       exec (.rcRegisterRead 2 offset size) s = .next { s with out := s.out ++ [.barOther 2 offset (zeros size)] }) ∧
     (s.barUp = true → ∀ n, n < 2048 →
       exec (.rcRegisterRead 4 (16 * n + 8) 4) s =
         .next { s with out := s.out ++ [.barOther 4 (16 * n + 8) (leBytes 4 (s.vectorAt n).data)] }) ∧
     (s.link.up = true → s.pwr.flush = none → 8 ≤ s.pwr.step → s.link.resetting = false → ∀ bme pasidEn d3hot,
       ∃ t, exec (.busMasterEnableChange bme pasidEn d3hot) s = .next t ∧
         t.link = { s.link with bme := bme, pasidEn := pasidEn, d3hot := d3hot } ∧ Untouched s t ∧ t.sq = s.sq ∧
         (bme = false ∨ pasidEn = false ∨ d3hot = true → t.out = s.out ∧ t.msix = s.msix)) ∧
     (s.barUp = true ∨ s.barClosed = true → ∀ offset, ∃ t, exec (.unsupportedBarRequest offset) s = .next t ∧
       t.out = s.out ++ [.unsupported] ∧ t.link.aer.contains 52 = true ∧ Logged s t 0x03 0 (offset % 2 ^ 32) ∧
       t = { s with out := t.out, link := t.link, logs := t.logs }) ∧
     (s.barUp = true → ∀ offset size, bar0Good offset size = false → ∀ write,
       ∃ t, exec (.bar0BadAccess offset size write) s = .next t ∧ Logged s t 0x03 0 (offset % 2 ^ 32) ∧
         t.out = s.out ++ (if write then [] else [.barRead offset (zeros size)]) ∧ t = { s with out := t.out, logs := t.logs }) ∧
     (s.pwr.starting = true → s.pwr.flush = none → ∀ bit, ∃ t, exec (.linkProtocolViolation bit) s = .next t ∧
       Logged s t 0x05 0 bit ∧ t.link.aer.contains (aerBit bit) = true ∧ (∀ a ∈ s.link.aer, a ∈ t.link.aer) ∧
       t = { s with link := { s.link with aer := t.link.aer }, logs := t.logs }) ∧
     (s.barUp = true → s.halted = false → ∀ offset value, offset % 4 = 0 → offset < 0x8000 →
       let n := offset / 16
       let v := s.vectorAt n
       (v.pending = false → exec (.msixTableWrite offset value) s = .next (s.setVector n (v.write (offset % 16 / 4) value))) ∧
       (offset % 16 = 12 → v.pending = true → value.testBit 0 = false → s.linkOpen = true → s.link.msixEn = true →
         s.link.funcMask = false →
         exec (.msixTableWrite offset value) s =
           .next { s.setVector n { v with masked := false, pending := false } with out := s.out ++ [.msix v.addr v.data] })))

/-! 09_slices.md. -/

/-- R281 to R294, R312: the commands of a slice. Each waits for the next grain boundary, where it takes effect. -/
def Obligations.SliceCommands : Prop :=
  ∀ (s : State) (n : Nat),
    let x := s.sliceAt n
    let live : Prop := x.st = .active ∨ x.st = .quiescing
    let effect (cmd : Nat) : State := s.settleOne (.slice n cmd)
    let gone (t : State) : Prop := (∀ e ∈ t.brine.entries, e.slice = n → e.stands = true) ∧
      (∀ w ∈ t.work, w.slice = n → w.waiting = true → t.standsAt w.id = true) ∧ OtherSlices s t n ∧ t.keys = s.keys ∧
      ∀ k, (t.bookAt k).st = (s.bookAt k).st ∧ (t.bookAt k).lseq = (s.bookAt k).lseq
    let refused (cmd err : Nat) : Prop := Logged s (effect cmd) 0x04 err (sliceOff n 0) ∧
      (effect cmd).sliceAt n = { x with err := err } ∧ OtherSlices s (effect cmd) n ∧ Untouched s (effect cmd)
    (s.regWritable (sliceOff n 0) = true →
      exec (.activate n) s = .next (s.defer (.slice n 1)) ∧ exec (.quiesce n) s = .next (s.defer (.slice n 2)) ∧
      exec (.resume n) s = .next (s.defer (.slice n 3)) ∧ exec (.reset n) s = .next (s.defer (.slice n 4)) ∧
      exec (.remove n) s = .next (s.defer (.slice n 5))) ∧
    (x.st = .free → s.activateErr n = 0 → let t := effect 1
      (t.sliceAt n).st = .active ∧ (t.sliceAt n).gen = (x.gen + 1) % 256 ∧ (t.sliceAt n).err = 0 ∧
        (t.sliceAt n).pasid = x.pasid ∧ OtherSlices s t n ∧ Untouched s t) ∧
    (x.st ≠ .free → refused 1 1) ∧
    (x.st = .active → effect 2 = s.setSlice n { x with st := .quiescing, err := 0 }) ∧
    (x.st ≠ .active → refused 2 1) ∧
    (x.st = .quiescing → let t := effect 3
      (t.sliceAt n).st = .active ∧ (t.sliceAt n).gen = x.gen ∧ OtherSlices s t n ∧ Untouched s t) ∧
    (live → let t := effect 4
      (t.sliceAt n).st = .resetting ∧ (t.sliceAt n).gen = (x.gen + 1) % 256 ∧ (t.sliceAt n).removing = false ∧ gone t) ∧
    (live → s.bookExists n = false → (s.bookAt n).accepted = false → let t := effect 5
      (t.sliceAt n).st = .resetting ∧ (t.sliceAt n).removing = true ∧ gone t) ∧
    (live → s.bookExists n = true → refused 5 2) ∧
    (x.st = .resetting → x.retiring = false → s.oldWorkGone n = true →
      (x.removing = false → ∃ t, exec (.sliceResetComplete n) s = .next t ∧ (t.sliceAt n).st = .active ∧
        OtherSlices s t n ∧ Untouched s t) ∧
      (x.removing = true → ∃ t, exec (.sliceResetComplete n) s = .next t ∧ (t.sliceAt n).st = .resetting ∧
        (t.sliceAt n).retiring = true ∧ (t.sliceAt n).dplEn = false ∧ (∀ e ∈ (t.sliceAt n).live, e.2.en = false) ∧
        (Twf Window.reset x.live → ∀ k, tget Window.reset (t.sliceAt n).live k =
          { tget Window.reset x.live k with en := false }) ∧
        (∀ e ∈ t.sq, e.2.slice ≠ n) ∧ (∀ e ∈ t.cq, e.2.slice ≠ n) ∧
        (∀ e ∈ t.keys.sessions, e.2.isOpen = true → e.2.slice ≠ n) ∧ OtherSlices s t n ∧ t.books = s.books)) ∧
    (x.retiring = true → s.oldAccessesRetired n = true →
      exec (.sliceFree n) s = .next (s.setSlice n { x with st := .free, removing := false, retiring := false }))

/-- R58, R279, R285, R286, R300, R301: quotas, PASID and the dirty-page log of a slice. A quota takes effect at the next grain
boundary, and so does a cleared EN of the log, unless it has been set again; the log in use keeps its base (log entry 73). -/
def Obligations.SliceRegisters : Prop :=
  ∀ (s : State) (n v : Nat),
    let x := s.sliceAt n
    let writable (o : Nat) : Prop := s.regWritable (sliceOff n o) = true
    let becomes (i : Instr) (y : Slice) : Prop := exec i s = .next (s.setSlice n y)
    let logs (t : State) (o : Nat) (y : Slice) : Prop := t.sliceAt n = y ∧ Logged s t 0x04 0 (sliceOff n o) ∧
      OtherSlices s t n ∧ Untouched s t
    let logged (i : Instr) (o : Nat) (y : Slice) : Prop := ∃ t, exec i s = .next t ∧ logs t o y
    let quota (r : QuotaReg) : State := s.settleOne (.quota n r v)
    (writable 0x0C → ∀ r, exec (.sliceQuotaWrite n r v) s = .next (s.defer (.quota n r v))) ∧
    (v ≤ 65536 → quota .sq = s.setSlice n { x with sqQuota := v } ∧ quota .cq = s.setSlice n { x with cqQuota := v }) ∧
    (65536 < v → v < 2 ^ 17 → logs (quota .sq) 0x0C { x with qref := true } ∧
      logs (quota .cq) 0x10 { x with qref := true }) ∧
    (v < 2 ^ 19 → v % 4 ≠ 0 → logs (quota .pan) 0x14 { x with qref := true }) ∧
    (v % 4 = 0 → v ≤ s.tallyLines → s.tallyLines < 2 ^ 19 → x.st = .free → (s.bookAt n).counts = false →
      quota .pan = s.setSlice n { x with panQuota := v }) ∧
    (v ≤ 8192 → x.st = .free → quota .sess = s.setSlice n { x with sessQuota := v }) ∧
    (v % 128 ≤ 64 → v / 256 % 64 ≤ 32 → v < 2 ^ 14 →
      (quota .limits).sliceAt n = { x with strandQuota := v % 128, coreQuota := v / 256 % 64 } ∧
        OtherSlices s (quota .limits) n ∧ Untouched s (quota .limits)) ∧
    (writable 0x1C →
      (v ≤ 128 → x.st ≠ .active → becomes (.tokenQuotaWrite n v) { x with tokQuota := v }) ∧
      (128 < v → v < 256 → ∃ t, exec (.tokenQuotaWrite n v) s = .next t ∧ t.sched.tokenOver = true ∧
        t.slices = s.slices ∧ Logged s t 0x04 0 (sliceOff n 0x1C) ∧ Untouched s t)) ∧
    (writable 0x08 → v < 2 ^ 20 →
      (x.st = .free → becomes (.slicePasidWrite n v) { x with pasid := v }) ∧
      (x.st ≠ .free → logged (.slicePasidWrite n v) 0x08 x)) ∧
    (writable 0x30 → v < 2 ^ 64 →
      let y : Slice := { x with dplBase := v / 4096 * 4096 }
      (v.testBit 0 = false → exec (.dplEnable n v) s = .next ((s.setSlice n { y with dplEn := false }).defer (.dplOff n))) ∧
      (v.testBit 0 = true → x.dplEn = true → becomes (.dplEnable n v) y) ∧
      (v.testBit 0 = true → x.dplEn = false → s.rangeOk n (v / 4096 * 4096) 0x80000 true = true → becomes (.dplEnable n v)
        { y with dplEn := true, dplOn := true, dplRing := v / 4096 * 4096, dplHeld := [], dplWrite := x.dplRead,
                 dplPhase := true, dplOvf := false, dplFilter := [] }) ∧
      (v.testBit 0 = true → x.dplEn = false → s.rangeOk n (v / 4096 * 4096) 0x80000 true = false →
        logged (.dplEnable n v) 0x30 { y with dplAccess := true })) ∧
    (s.settleOne (.dplOff n) = s.setSlice n (if x.dplEn then x else { x with dplOn := false, dplHeld := [] })) ∧
    (writable 0x3C → v < 65536 → becomes (.dplReadWrite n v) { x with dplRead := v, dplFilter := [] })

/-! 10_access_control.md. -/

/-- R309, R310, R313, R314, R316, R321, R325: the window barrier and the programming of the master MPUs. GO and a change of EN
take effect at the next grain boundary. -/
def Obligations.AccessControl : Prop :=
  ∀ (s : State) (n : Nat),
    let m := s.hregs.mpuSel
    let x := s.mpuAt m
    let others (t : State) (m : Nat) : Prop := (∀ k, k ≠ m → t.mpuAt k = s.mpuAt k) ∧ Untouched s t
    let y := s.sliceAt n
    let selected : State := { s with hregs := { s.hregs with barrierSlice := n } }
    let barred (t : State) (err : Nat) : Prop := t.sliceAt n = { y with winErr := err } ∧
      Logged s t 0x04 err 0x030020 ∧ OtherSlices s t n ∧ Untouched s t
    (n < 1024 → s.regWritable 0x030020 = true →
      (y.winBusy = false → exec (.windowBarrier (n + 65536)) s =
        .next ((selected.setSlice n { y with winErr := 0 }).defer (.barrier n))) ∧
      (y.winBusy = true → ∃ t, exec (.windowBarrier (n + 65536)) s = .next t ∧ barred t 3) ∧
      exec (.windowBarrier n) s = .next selected) ∧
    (y.winBusy = false → y.stagedErr = 0 → s.settleOne (.barrier n) =
      s.setSlice n { y with live := y.staged, winErr := 0, winBusy := true, winEpoch := y.winEpoch + 1 }) ∧
    (y.winBusy = true ∨ y.stagedErr ≠ 0 → barred (s.settleOne (.barrier n)) (if y.winBusy then 3 else y.stagedErr)) ∧
    ((s.sliceAt n).winBusy = true → s.oldAccessesRetired n = true →
      exec (.windowBarrierEnd n) s = .next (s.setSlice n { s.sliceAt n with winBusy := false })) ∧
    (s.mpus.length = 45 → 32 ≤ m → m < 44 → (∀ o, 0x030108 ≤ o → o ≤ 0x03011C → s.regWritable o = true) →
      let buffers (v : Nat) : State := s.modMpu m (fun z => { z with bufw := v.testBit 1 })
      (∀ v, v.testBit 0 = false → x.en = true → s.cq.any (fun e => e.2.enabled) = false ∨ (m ≠ 36 ∧ m ≠ 37) →
        exec (.mpuDisable v) s = .next ((buffers v).defer (.mpu m false))) ∧
      (∀ v, v.testBit 0 = false → x.en = true → s.cq.any (fun e => e.2.enabled) = true → m = 36 ∨ m = 37 →
        ∃ t, exec (.mpuDisable v) s = .next t ∧ t.mpuAt m = { x with bufw := v.testBit 1, err := 4 } ∧ others t m) ∧
      (∀ v, v.testBit 0 = true → exec (.mpuEnable v) s = .next ((buffers v).defer (.mpu m true))) ∧
      (∀ r v, x.en = false → ∃ t, exec (.mpuRegionWrite r v) s = .next t ∧
        (t.mpuAt m).region s.hregs.mpuRegion = (x.region s.hregs.mpuRegion).write r v ∧ (t.mpuAt m).en = false ∧
        (∀ k, k ≠ s.hregs.mpuRegion → (t.mpuAt m).region k = x.region k) ∧ others t m) ∧
      (∀ r v, x.en = true → ∃ t, exec (.mpuRegionWrite r v) s = .next t ∧ t.mpuAt m = { x with err := 1 } ∧ others t m)) ∧
    (∀ k, s.mpus.length = 45 → 32 ≤ k → k < 44 →
      let z := s.mpuAt k
      let on := s.settleOne (.mpu k true)
      let off := s.settleOne (.mpu k false)
      (z.en = true → (off.mpuAt k).en = false ∧ (off.mpuAt k).err = 0 ∧ (off.mpuAt k).bufw = z.bufw ∧
        (off.mpuAt k).regions = z.regions ∧ (∀ j, (off.bookAt j).st = (s.bookAt j).st) ∧ off.keys = s.keys) ∧
      (z.en = false → z.enableErr = 0 →
        on.mpuAt k = { z with en := true, bufwLive := z.bufw, err := 0 } ∧ others on k) ∧
      (z.en = false → z.enableErr ≠ 0 → on.mpuAt k = { z with err := z.enableErr } ∧
        Logged s on 0x04 z.enableErr 0x03011C ∧ others on k)) ∧
    (∀ k b rest, k < s.mpus.length → s.linkOpen = true → (s.mpuAt k).wbuf = b :: rest → b.work = none →
      let o := (s.modMpu k (fun y => { y with wbuf := rest })).writeNow k b.slice b.kind false b.addr b.data
      ∃ t, exec (.mpuWriteBufferDrain k) s = .next t ∧ (t.mpuAt k).wbuf = rest ∧ t.out = o.1.out ∧ Untouched s t)

/-! 08_rings_and_doorbells.md: host reads. -/

/-- R248: the data of a read reaches the work that waits for it; a first error completion is retried after one pound, a
second one ends the operation with FAULT and fences its ring. -/
def Obligations.HostReads : Prop :=
  ∀ (s : State) (tag : Nat) (r : Read) (w : Work) (part : Nat),
    s.readAt tag = some r → r.kind = .work w.id part → s.workAt w.id = some w → w.isReading = true → r.discard = false →
    (∀ data, r.failedAt = none → r.wait = [] → data.length = r.len → w.opcode = 0x3012 ∨ w.opcode = 0x3020 →
      ∃ t, exec (.hostReadCompletion tag data) s = .next t ∧ t.readAt tag = none ∧
        t.workAt w.id = some { w with input := w.input ++ [data], phase := .active 1 } ∧
        t = { s with reads := t.reads, work := t.work }) ∧
    (r.failedAt = none → r.retry = false →
      exec (.hostReadRetry tag) s = .next (s.modRead tag (fun x => { x with failedAt := some s.now, tags := 0, wait := [] }))) ∧
    (∀ g, r.failedAt = some g → g + 5760 ≤ s.now → s.canRead r.master = true →
      let u := s.fwRegion r.master r.addr r.len
      (u.readTlps r.master r.slice w.readTraffic (u.parts r.master r.slice r.addr r.len)).2 = none →
      ∃ t x, exec (.hostReadRetry tag) s = .next t ∧ t.readAt tag = some x ∧ x.retry = true ∧ x.failedAt = none ∧
        x.kind = r.kind ∧ x.addr = r.addr ∧ x.len = r.len ∧ t.workAt w.id = some w ∧ t.books = s.books) ∧
    (r.failedAt = none → r.retry = true → w.ring < 65536 → s.brine.entries = [] →
      w.opcode ∈ [0x3031, 0x3040, 0x4010, 0x6000, 0x7010, 0x8011, 0xA001, 0xA002] →
      ∃ t x, exec (.hostReadRetry tag) s = .next t ∧ Ended t w.id .fault x ∧ (t.sqAt w.ring).fenced = true ∧
        t.readAt tag = none ∧ t.books = s.books)

/-! 12_applets.md. -/

/-- R355 to R360, R474: ALLOW_ADD reads its image, ALLOW_REMOVE sends the emptied entry to the store, with whose commit it
completes (R469, R475; PAGE_WRITE), ALLOW_READ writes the entry as it reads. R327, R357, R361 to R363, R365, R366: an invocation
is taken up, assigned to a core, loaded, verified where the entry's signature is not current, and ends with its budget. -/
def Obligations.Invocations : Prop :=
  (∀ (s : State) (ring : Nat) (w : Work),
     let c := s.chargeSession w.session
     let x := s.sessionAt w.session
     let n := w.field 0x1C 2
     let addr := w.field 0x10 8
     let len := w.field 0x18 4
     let keyed (k : Nat) : Prop := s.sessionBusy w.session = false ∧ s.sessionFail w.session w.slice = none ∧
       w.macOk x.key k = true
     (Starts s ring 0x7010 w → keyed 0x80 → w.aux = 0 → w.zeroFrom 0x20 0x70 = true → n < 256 →
       w.field 0x1E 2 < 1024 ∨ w.field 0x1E 2 = 0xFFFF → addr + len ≤ 2 ^ 64 → imageLenOk len = true →
       c.allowRight w (w.field 0x1E 2) n = true → s.appletAuthorityOk = true → s.appletAuthority.occupied = true →
       (s.allowEntry n).occupied = false → s.rangeOk w.slice addr len false = true → s.canRead masterMgmt = true →
       ((c.readAllow n w.slice).hostRead (.work w.id 0) masterMgmt w.slice .image addr len false).2 = true →
       ∃ t, exec (.allowAdd ring) s = .next t ∧ At t w.id (.reading 1) ∧
         (∃ r ∈ t.reads, r.kind = .work w.id 0 ∧ r.addr = addr ∧ r.len = len) ∧ t.applets = s.applets ∧ t.books = s.books) ∧
     (Starts s ring 0x7011 w → keyed 0x40 → w.aux = 0 → w.zeroFrom 0x12 0x30 = true → w.field 0x10 2 < 256 →
       c.allowRight w w.slice (w.field 0x10 2) = true → (s.allowEntry (w.field 0x10 2)).occupied = true →
       ∃ t e, exec (.allowRemove ring) s = .next t ∧ At t w.id (.active 1) ∧ e ∈ t.nv.wbuf ++ t.nv.behind ∧
         e.key = recKey partAllow (w.field 0x10 2) ∧ e.img = [.allow (w.field 0x10 2) Allow.reset] ∧ e.frozen = true ∧
         e.sync = [{ work := w.id, core := none, last := true, ok := zeros 16, fail := refusalResult 9 0xFF }] ∧
         t.applets = s.applets ∧ t.books = s.books ∧ t.nv.pages = s.nv.pages) ∧
     (Starts s ring 0x7012 w → w.aux = 0 → w.zeroFrom 0x1E 0x40 = true → n < 256 → 96 ≤ len → addr + len ≤ 2 ^ 64 →
       s.rangeOk w.slice addr len true = true →
       (s.allowEntry n).occupied = false ∨ (s.allowEntry n).slice = w.slice ∨ (s.allowEntry n).slice = 0xFFFF →
       s.canMaster masterMgmt = true →
       let o := (s.readAllow n w.slice).hostWrite masterMgmt w.slice .statement (some w.id) addr (s.allowEntry n).bytes
       o.2 = true → ∃ t z, exec (.allowRead ring) s = .next t ∧ Ended t w.id .ok z ∧ t.out = o.1.out ∧
         t.applets = s.applets ∧ t.books = s.books ∧ t.keys = s.keys)) ∧
  (∀ (s : State) (ring : Nat) (w : Work),
     (Starts s ring 0x7000 w → s.sessionBusy w.session = false → s.sessionFail w.session w.slice = none →
       w.macOk (s.sessionAt w.session).key 0x80 = true → w.invokeForm = true →
       attrAllows (s.sessionAt w.session).attr attrInvoke 2 (s.sessionAt w.session).slice w.slice = true →
       (s.sliceAt w.slice).coreQuota ≠ 0 → s.rangeOk w.slice (w.field 0x10 8) (w.field 0x18 4) false = true →
       s.rangeOk w.slice (w.field 0x20 8) (w.field 0x28 4) false = true →
       s.rangeOk w.slice (w.field 0x30 8) (w.field 0x2C 4) true = true →
       exec (.invoke ring) s = .next ((s.chargeSession w.session).modWork w.id (fun v => { v with phase := .active 1 }))) ∧
     (∀ c, s.nextInvoke = some w → s.workAt w.id = some w → s.idleCore = some c → s.entryFail w = none →
       s.canRead c = true → w.field 0x28 4 = 0 →
       let p := ((s.coreMpu c w).setCore c { Core.reset with mode := .loading, inv := some (invocationOf w) }).modWork w.id
         (fun v => { v with phase := .active 2, admitted := some s.now })
       (p.hostRead (.image c) c w.slice .image (w.field 0x10 8) (w.field 0x18 4) false).2 = true →
       ∃ t, exec .invocationCoreAssign s = .next t ∧ (t.coreAt c).mode = .loading ∧
         (t.coreAt c).inv = some (invocationOf w) ∧ At t w.id (.active 2) ∧ OtherCores s t c ∧ t.books = s.books ∧
         ∃ r ∈ t.reads, r.kind = .image c ∧ r.addr = w.field 0x10 8 ∧ r.len = w.field 0x18 4) ∧
     (∀ core v image mailbox, (s.coreAt core).mode = .loading → (s.coreAt core).inv = some v →
       image.length = v.imageLen → mailbox.length = v.inLen → s.reads.any (fun r => r.kind == .image core && !r.discard) = true →
       s.reads.all (fun r => r.kind != .image core || r.discard || r.arrives) = true → imageForm image = true →
       imageDigest image = (s.allowEntry v.allow).digest →
       ((s.allowEntry v.allow).serial = s.appletAuthority.serial →
         ∃ t, exec (.imageLoadComplete core image mailbox) s = .next t ∧ (t.coreAt core).mode = .ready ∧
           (t.coreAt core).pc = BitVec.ofNat 32 (imgEntry image) ∧ (t.coreAt core).d = List.replicate 16 imgZero ∧
           (t.coreAt core).x = BitVec.ofNat 32 v.inLen :: List.replicate 7 0 ∧ (t.coreAt core).f = 0 ∧
           (∀ i, i < imgCodeLen image → tget 0 (t.coreAt core).code i = image.getD (64 + i) 0) ∧
           (∀ i, i < imgDataLen image → tget 0 (t.coreAt core).data i = image.getD (64 + imgCodeLen image + i) 0) ∧
           (∀ i, i < mailbox.length → tget 0 (t.coreAt core).mail i = mailbox.getD i 0) ∧ OtherCores s t core ∧ Untouched s t) ∧
       ((s.allowEntry v.allow).serial ≠ s.appletAuthority.serial →
         ∃ t j, exec (.imageLoadComplete core image mailbox) s = .next t ∧ (t.coreAt core).mode = .verifying ∧
           t.crypto.bnQueue = s.crypto.bnQueue ++ [j] ∧ j.use = 3 ∧ j.who = core ∧ j.op = 0x21 ∧ OtherCores s t core ∧
           Untouched s t)) ∧
     (∀ core v e j, (s.coreAt core).inv = some v → s.bnEngineOf (fun y => y.use == 3 && y.who == core) = some (e, j) →
       (((s.bnRetire e).bnOutcome j).1 = .verdict true → ∃ t, exec (.imageSignatureVerified core) s = .next t ∧
         (t.coreAt core).mode = .ready ∧ t.bnAt e = (s.bnRetire e).bnAt e ∧ OtherCores s t core ∧ t.books = s.books) ∧
       (((s.bnRetire e).bnOutcome j).1 = .verdict false → ∀ u, s.workAt v.work = some u → u.ring < 65536 →
         ∃ t, exec (.imageSignatureVerified core) s = .next t ∧ Ended t u.id .auth [9, 0xFF] ∧
           t.coreAt core = Core.reset ∧ OtherCores s t core ∧ t.books = s.books)) ∧
     (∀ core v u, (s.coreAt core).inv = some v → (s.coreAt core).spentBudget = true → (s.coreAt core).squash = false →
       s.sliceGone v = false → s.workAt v.work = some u → u.ring < 65536 →
       ∃ t, exec (.budgetTrap core) s = .next t ∧
         Ended t u.id .exhausted (trapRecord .budget 0 core (s.coreAt core).pc 0 0) ∧ t.coreAt core = Core.reset ∧
         t.applets.traps = s.applets.traps + 1 ∧ OtherCores s t core ∧ t.books = s.books ∧ t.keys = s.keys))

/-- R32, R45, R347 to R350, R369: service calls that are answered at once, those that enter the pool of an engine, and their
refusals. -/
def Obligations.ServiceAnswers : Prop :=
  ∀ (s : State) (core : Nat) (v : Invocation),
    let c := s.coreAt core
    let arg (o n : Nat) : Nat := c.argAt o n
    let quiet (t : State) : Prop := OtherCores s t core ∧ t.books = s.books ∧ t.work = s.work
    (∀ i ∈ [Instr.svcTallyRead core, .svcPost core, .svcDigest core, .svcMac core, .svcDerive core, .svcBignum core,
        .svcRandom core, .svcNvRead core, .svcNvWrite core, .svcReturn core], c.inv = some v → c.calls = true → c.spentBudget = false →
      c.call.toNat = 0 ∨ 10 < c.call.toNat →
      ∃ t, exec i s = .next t ∧ Answered t core .malformed [] ∧ Logged s t 0x0A 1 c.call.toNat ∧ quiet t) ∧
    (Calls s core 3 v → c.argClean [(0, 1), (4, 12)] = true → arg 0 1 < 7 → localOk (arg 4 4) (arg 8 4) 1 = true →
      localOk (arg 0x0C 4) (shaSize (arg 0 1)) 1 = true →
      Pools (.svcDigest core) s core (s.svcDigestWork core c v) true) ∧
    (Calls s core 7 v → c.argClean [(0, 8)] = true → arg 4 4 ≤ 4096 → localOk (arg 0 4) (arg 4 4) 1 = true →
      (arg 4 4 = 0 → AnswersOnly (.svcRandom core) s core .ok (leBytes 4 0) c.output) ∧
      (arg 4 4 ≠ 0 → ∃ t, exec (.svcRandom core) s = .next t ∧ (t.coreAt core).started = true ∧
        (∃ x ∈ t.rng.waiters, x.use = .service core) ∧ quiet t)) ∧
    (∀ k, Calls s core 4 v → c.argClean [(0, 3), (4, 16)] = true → arg 0 1 < 2 → macTlenOk (arg 1 1) (arg 2 1) = true →
      localOk (arg 8 4) (arg 0x0C 4) 1 = true → localOk (arg 0x10 4) (arg 2 1) 1 = true →
      keySrcOf (arg 4 4) v.session (some core) = some k →
      let key := (s.keyView k v.slice).key
      let msg := c.bytes (arg 8 4) (arg 0x0C 4)
      (k.ofApplet = false → AnswersOnly (.svcMac core) s core .policy [] c.output) ∧
      (k.ofApplet = true → svcMacPrime c = true → Submits (.svcMac core) s core (s.svcMacWork core c v msg)) ∧
      (k.ofApplet = true → svcMacPrime c = false → (∀ h, k = .session h → s.sessionBusy h = false) →
        s.keyFail k v.slice = none → s.keyServes k attrMac 2 (macTypes (arg 1 1)) v.slice = true →
        Pools (.svcMac core) s core ((s.chargeKey k).svcMacStream core c v key msg) (arg 1 1 != 0))) ∧
    (∀ k n, Calls s core 5 v → c.argClean [(0, 16)] = true → 1 ≤ arg 8 4 → arg 8 4 ≤ 32 →
      BitVec.ofNat 32 (arg 0x0C 4) &&& attrReserved = 0 → localOk (arg 4 4) (arg 8 4) 1 = true →
      keySrcOf (arg 0 4) v.session (some core) = some k → k.ofApplet = true →
      (∀ h, k = .session h → s.sessionBusy h = false) → s.keyFail k v.slice = none →
      let x := (s.chargeKey k).keyView k v.slice
      let req := BitVec.ofNat 32 (arg 0x0C 4)
      x.type = 0x03 → attrAllows x.attr attrDerive 2 x.slice v.slice = true → x.level < 7 →
      req.getLsbD attrUnlimited = true → deriveOk x.attr req x.uses 0 = true → c.freeHandle = some n →
      ∃ t, exec (.svcDerive core) s = .next t ∧ Answered t core .ok (leBytes 4 (0x10000000 + n)) ∧
        (∃ h ∈ (t.coreAt core).handles, h.num = n ∧ h.level = x.level + 1 ∧ h.attr = deriveAttr x.attr req ∧
          h.key = kdf x.key (x.level + 1) 0x03 (c.bytes (arg 4 4) (arg 8 4)) 32) ∧ quiet t)

/-- R177, R347 to R350, R366, R367, R369, R492: service calls that run operations, and the return. R430, R435: a
finished big-number job answers; one whose two computations differ runs once more, then ends with FAULT. -/
def Obligations.ServiceOperations : Prop :=
  ∀ (s : State) (core : Nat) (v : Invocation),
    let c := s.coreAt core
    let arg (o n : Nat) : Nat := c.argAt o n
    let key := userKey (arg 0 1) (arg 4 4 / 256)
    (Calls s core 1 v → c.argClean [(0, 8), (8, 1)] = true → arg 8 1 < 4 →
      Submits (.svcTallyRead core) s core (s.svcWork core v (zeros 16 ++ memRead c.arg 0 8 ++ zeros 40) 0x1010 (arg 8 1) 0 16 1
        false [] [])) ∧
    (Calls s core 2 v → c.argClean [(0, 7), (8, 8)] = true → arg 4 2 < 64 → 1 ≤ arg 4 2 % 16 → arg 4 2 % 16 ≤ 8 →
      arg 6 1 < 2 → localOk (arg 0 4) (postPayload c) 16 = true → (arg 4 2).testBit 4 = false ∨ localOk (arg 8 4) 128 16 = true →
      s.workAt s.nextId = none → s.postEarly (s.svcPostWork core c v) = none →
      Submits (.svcPost core) s core (s.svcPostWork core c v)) ∧
    (Calls s core 6 v → c.argClean [(0, 2), (4, 20)] = true → bnOpOk (arg 0 2) = true → bnTypes (arg 0 2) = none →
      arg 4 4 = 0 → bnLensOk (arg 0 2) 0 (arg 0x0C 4) (arg 0x14 4) = true → localOk (arg 8 4) (arg 0x0C 4) 1 = true →
      localOk (arg 0x10 4) (arg 0x14 4) 1 = true →
      let b := c.bytes (arg 8 4) (arg 0x0C 4)
      bnInOk (arg 0 2) b = true → bnOutLen (arg 0 2) 0 b ≤ arg 0x14 4 →
      (bnValid (arg 0 2) 0 [] b = true → ∃ t j, exec (.svcBignum core) s = .next t ∧ (t.coreAt core).started = true ∧
        t.crypto.bnQueue = s.crypto.bnQueue ++ [j] ∧ j.use = 1 ∧ j.who = core ∧ j.op = arg 0 2 ∧ j.input = b ∧
        OtherCores s t core ∧ Untouched s t) ∧
      (bnValid (arg 0 2) 0 [] b = false → AnswersOnly (.svcBignum core) s core .range [] c.output)) ∧
    (Calls s core 8 v → nvArgOk c = true → localOk (arg 0x0C 4) (arg 8 4) 1 = true → (s.svcNvChecks c v false).2 = none →
      let u := (s.svcNvChecks c v false).1
      (u.mayReadPage v.slice = false → exec (.svcNvRead core) s = .next s) ∧
      (u.mayReadPage v.slice = true → ∃ t, exec (.svcNvRead core) s = .next t ∧ Answered t core (s.nv.readPage key).2.2 (leBytes 4 (arg 8 4)) ∧
        (t.coreAt core).output = [(arg 0x0C 4, wrapRead (s.nv.readPage key).1 (arg 4 4 % 256) (arg 8 4))] ∧
        OtherCores s t core ∧ t.books = s.books ∧ t.nv.pages = s.nv.pages ∧ t.nv.maps = s.nv.maps ∧ t.nv.wbuf = s.nv.wbuf)) ∧
    (Calls s core 9 v → nvArgOk c = true → localOk (arg 0x0C 4) (arg 8 4) 1 = true → (s.svcNvChecks c v true).2 = none →
      s.nv.wt = false → (∀ e ∈ s.nv.wbuf, e.key ≠ key) → s.nv.wbuf.length < 64 →
      ∃ t, exec (.svcNvWrite core) s = .next t ∧ Answered t core .ok (leBytes 4 (arg 8 4)) ∧
        (t.nv.readPage key).1 = fit 256 (wrapWrite (s.nv.readPage key).1 (arg 4 4 % 256) (c.bytes (arg 0x0C 4) (arg 8 4))) ∧
        t.nv.pages = s.nv.pages ∧ t.nv.maps = s.nv.maps ∧ OtherCores s t core ∧ t.books = s.books) ∧
    (∀ w, c.inv = some v → c.calls = true → c.spentBudget = false → c.call.toNat = 10 → c.argClean [(0, 4)] = true → arg 0 4 ≤ 4096 → arg 0 4 ≤ v.outCap →
      arg 0 4 = 0 ∨ s.outputFail core v.slice v.outAddr (arg 0 4) = none → s.workAt v.work = some w → w.ring < 65536 →
      ∃ t u, exec (.svcReturn core) s = .next t ∧
        Ended t v.work .ok (leBytes 4 (arg 0 4) ++ leBytes 4 (v.charged + 1) ++ leBytes 4 v.posts) ∧ t.workAt v.work = some u ∧
        (arg 0 4 ≠ 0 → u.mailbox = some (v.outAddr, c.bytes 0x20000 (arg 0 4))) ∧ t.coreAt core = Core.reset ∧
        OtherCores s t core ∧ t.books = s.books) ∧
    (∀ status res, c.answer = some (status, res) → c.mode = .waiting → s.awaitMet c = true →
      ∃ t, exec (.serviceCallEnd core) s = .next t ∧ (t.coreAt core).mode = .resume ∧ (t.coreAt core).status = status ∧
        (t.coreAt core).answer = none ∧ (t.coreAt core).pc = c.pc ∧ (t.coreAt core).d = c.d ∧ (t.coreAt core).x = c.x ∧
        (c.svcZ = true → (t.coreAt core).f.getLsbD 1 = decide (status.toNat % 256 = 0)) ∧
        (c.svcZ = false → (t.coreAt core).f = c.f) ∧
        (c.call ≠ 4 → ∀ i, i < res.length → tget 0 (t.coreAt core).res i = res.getD i 0) ∧
        OtherCores s t core ∧ Untouched s t) ∧
    (∀ e j, s.bnFinished e = some j →
      let o := ((s.bnRetire e).bnOutcome j).1
      (∀ b, j.use = 1 → (s.coreAt j.who).mode = .waiting → (s.coreAt j.who).answer = none → o = .out b →
        ∃ t, exec (.bnJobEnd e false) s = .next t ∧ Answered t j.who .ok (leBytes 4 b.length) ∧ t.bnAt e = (s.bnRetire e).bnAt e ∧
          (t.coreAt j.who).output = [((s.coreAt j.who).argAt 0x10 4, b)] ∧ Untouched s t) ∧
      (∀ w ok, j.use = 0 → s.workAt j.work = some w → w.ring < 65536 → s.canMaster (s.masterStream w.id) = true →
        o = .verdict ok →
        ∃ t, exec (.bnJobEnd e false) s = .next t ∧
          Ended t w.id (if ok then .ok else .auth) (zeros 4 ++ leBytes 4 j.cost ++ leBytes 1 j.retries) ∧
          t.bnAt e = (s.bnRetire e).bnAt e ∧ t.crypto.bnJobs = s.crypto.bnJobs + 1 ∧ t.books = s.books ∧ t.keys = s.keys) ∧
      (s.sensing = true → s.pwr.flush = none → s.window2.length < 15 → j.retries = 0 →
        ∃ t k, exec (.bnJobEnd e true) s = .next t ∧ (t.bnAt e).running = some k ∧ k.retries = 1 ∧ k.done = j.done ∧
          k.cost = j.cost + bnCost j.op j.keyType j.input ∧ t.crypto.bnMismatch = s.crypto.bnMismatch + 1 ∧
          Raised s t 2 0x13 e ∧ Untouched s t) ∧
      (s.sensing = true → s.pwr.flush = none → s.window2.length < 15 → j.retries ≠ 0 → j.use = 1 →
        (s.coreAt j.who).mode = .waiting → (s.coreAt j.who).answer = none →
        ∃ t, exec (.bnJobEnd e true) s = .next t ∧ Answered t j.who .fault [] ∧ t.bnAt e = (s.bnRetire e).bnAt e ∧
          (t.coreAt j.who).output = (s.coreAt j.who).output ∧ t.crypto.bnMismatch = s.crypto.bnMismatch + 1 ∧
          t.crypto.bnFaults = s.crypto.bnFaults + 1 ∧ Raised s t 2 0x13 e ∧ Untouched s t))

/-! 13_keys.md. -/

/-- R388, R392, R396, R398 to R400: a session that can be opened or derived draws its masks, and the context stands once they have
come; a session is closed, and is derived again with fresh masks in a background step of the key store. -/
def Obligations.Sessions : Prop :=
  ∀ (s : State) (ring : Nat) (w : Work),
    let attr := BitVec.ofNat 32 (w.field 0x20 4)
    let uses := w.field 0x24 6
    let x := s.sessionAt w.session
    let others (t : State) (h : Nat) : Prop := (∀ k, k ≠ h → t.sessionAt k = s.sessionAt k) ∧ t.books = s.books
    let draws (i : Instr) : Prop := ∃ t, exec i s = .next t ∧ At t w.id (.active 1) ∧
      (∃ y ∈ t.rng.waiters, y.use = .context w.id) ∧ t.keys = s.keys ∧ t.books = s.books ∧ t.logs = s.logs
    let opened (t : State) (r : Bytes) (h level : Nat) (parentAttr : BitVec 32) (labels : List Bytes) (key : Bytes) : Prop :=
      ∃ y, t.sessionAt h = y ∧
        Ended t w.id .ok (leBytes 2 h ++ leBytes 1 level ++ leBytes 1 (flag y.hasRcpt)) ∧ y.isOpen = true ∧
        y.slice = w.slice ∧ y.level = level ∧ y.labels = labels ∧ y.attr = deriveAttr parentAttr attr ∧
        y.epoch = s.keys.epoch ∧ y.mask = r.take 32 ∧ y.masked = xorBytes key (r.take 32) ∧
        (attr.getLsbD attrUnlimited = false → y.uses = uses) ∧ t.books = s.books
    (∀ idx r h, w.aux = 0 → w.labelsOk = true → w.zeroFrom 0x19 0x20 = true →
      w.zeroFrom 0x2A 0x30 = true → w.zeroFrom 0xB0 0xF0 = true → attr &&& attrReserved = 0 →
      w.field 0x10 4 = 0x20000000 + idx → idx < 12288 → s.slotFail 0 idx = none →
      let k := s.slotAt 0 idx
      let n := w.field 0x14 1
      let labels := (List.range n).map (fun j => bytesAt w.desc (0x30 + 32 * j) (w.field (0x15 + j) 1))
      k.type = 0x03 → w.macOk k.material 0x100 = true → attrAllows k.attr attrDerive 2 k.slice w.slice = true →
      k.level + n ≤ 7 → deriveOk k.attr attr ((s.chargeSlot 0 idx).slotAt 0 idx).uses uses = true →
      s.sessionRoom w.slice = true → s.freeHandle 8192 0 = some h →
      (Starts s ring 0x4000 w → draws (.sessionOpen ring)) ∧
      (s.workAt w.id = some w → w.ring < 65536 → w.opcode = 0x4000 →
        opened (s.contextReady w r) r h (k.level + n) k.attr labels (derivePath k.material k.level labels))) ∧
    (∀ r h, w.aux = 0 → w.zeroFrom 0x11 0x20 = true →
      w.zeroFrom 0x2A 0x30 = true → w.zeroFrom 0x50 0x70 = true → attr &&& attrReserved = 0 →
      let n := w.field 0x10 1
      let label := bytesAt w.desc 0x30 n
      1 ≤ n → n ≤ 32 → allZero ((bytesAt w.desc 0x30 32).drop n) = true → s.sessionFail w.session w.slice = none →
      w.macOk x.key 0x80 = true → attrAllows x.attr attrDerive 2 x.slice w.slice = true → x.level < 7 →
      deriveOk x.attr attr ((s.chargeSession w.session).sessionAt w.session).uses uses = true →
      s.sessionRoom w.slice = true → s.freeHandle 8192 0 = some h →
      (Starts s ring 0x4002 w → s.sessionBusy w.session = false → draws (.sessionDerive ring)) ∧
      (s.workAt w.id = some w → w.ring < 65536 → w.opcode = 0x4002 →
        opened (s.contextReady w r) r h (x.level + 1) x.attr (x.labels ++ [label]) (kdf x.key (x.level + 1) 0x03 label 32))) ∧
    (Starts s ring 0x4001 w → s.sessionBusy w.session = false → w.aux = 0 → w.zeroFrom 0x10 0x30 = true →
      s.sessionHeld w.session w.slice = true → x.slotBad = false → w.macOk x.key 0x40 = true →
      ∃ t, exec (.sessionClose ring) s = .next t ∧ Ended t w.id .ok [] ∧ t.sessionAt w.session = Session.reset ∧
        others t w.session ∧ t.nv = s.nv) ∧
    (∀ h, let y := s.sessionAt h
      let k := s.slotAt 0 y.parent
      y.isOpen = true → y.slotBad = false → s.sessionExpired y = false →
      (k.bad = true → ∃ t, exec (.sessionRederivation h) s = .next t ∧ (t.sessionAt h).slotBad = true ∧
        (t.sessionAt h).masked = [] ∧ (t.sessionAt h).mask = [] ∧ others t h ∧ t.work = s.work) ∧
      (k.bad = false → s.gotRandom (.rederive h) = none → ∃ t, exec (.sessionRederivation h) s = .next t ∧
        (∃ z ∈ t.rng.waiters, z.use = .rederive h) ∧ t = { s with rng := t.rng }) ∧
      (∀ r, k.bad = false → s.gotRandom (.rederive h) = some r → s.mayStep .keyStore background = false →
        exec (.sessionRederivation h) s = .next s) ∧
      (∀ r, k.bad = false → s.gotRandom (.rederive h) = some r → s.mayStep .keyStore background = true →
        ∃ t, exec (.sessionRederivation h) s = .next t ∧ (t.sessionAt h).mask = r.take 32 ∧
          (t.sessionAt h).masked = xorBytes (derivePath k.material k.level y.labels) (r.take 32) ∧
          (t.sessionAt h).busyUntil = s.now + 4 ∧ (t.sessionAt h).attr = y.attr ∧ (t.sessionAt h).uses = y.uses ∧
          others t h ∧ t.work = s.work))

/-- R379, R385, R388, R402: re-masking of slots, 256 bytes in each background step of the key store, with the check of the slot
MAC in the last; family counters and the certificate, FAULT where their record cannot be read (R474). -/
def Obligations.KeyUpkeep : Prop :=
  ∀ (s : State) (ring : Nat) (w : Work),
    (∀ target index, target < 2 →
      let k := s.slotAt target index
      let other (t : State) : Prop := (∀ j, j ≠ index → t.slotAt target j = s.slotAt target j) ∧
        t.books = s.books ∧ t.work = s.work
      k.occupied = true → k.bad = false → k.masked ≠ [] →
      (s.gotRandom (.remask target index) = none → ∃ t, exec (.keyRemask target index) s = .next t ∧
        (∃ x ∈ t.rng.waiters, x.use = .remask target index) ∧ t = { s with rng := t.rng }) ∧
      (∀ r, s.gotRandom (.remask target index) = some r →
        let y := k.exchange r k.swapped
        let z := { y with swapped := 0 }
        let u := s.setSlot target index z
        (s.mayStep .keyStore background = false → exec (.keyRemask target index) s = .next s) ∧
        (s.mayStep .keyStore background = true → k.swapped + 256 < slotBytes target →
          ∃ t, exec (.keyRemask target index) s = .next t ∧ t.slotAt target index = y ∧ other t ∧ t.tamper = s.tamper) ∧
        (s.mayStep .keyStore background = true → slotBytes target ≤ k.swapped + 256 → u.slotIntact target index = true →
          ∃ t, exec (.keyRemask target index) s = .next t ∧ t.slotAt target index = z ∧
            s.gotRandom (.remask target index) ≠ t.gotRandom (.remask target index) ∧ other t ∧ t.tamper = s.tamper) ∧
        (s.mayStep .keyStore background = true → slotBytes target ≤ k.swapped + 256 → u.slotIntact target index = false →
          s.tamper.state ≠ .spent → ∃ t, exec (.keyRemask target index) s = .next t ∧
            t.slotAt target index = { z with bad := true, masked := [], mask := [] } ∧ other t ∧ Raised s t 1 0x17 index))) ∧
    (Starts s ring 0x4011 w → w.aux = 0 → w.zeroFrom 0x12 0x20 = true → w.field 0x10 2 ≤ 255 →
      (s.recordOk partKeys (recFamily (w.field 0x10 2)) = true →
        ∃ t z, exec (.familyRead ring) s = .next t ∧ Ended t w.id .ok (leBytes 8 (s.familyAt (w.field 0x10 2)) ++ z) ∧
          t.keys = s.keys ∧ t.books = s.books ∧ t.logs = s.logs) ∧
      (s.recordOk partKeys (recFamily (w.field 0x10 2)) = false →
        ∃ t z, exec (.familyRead ring) s = .next t ∧ Ended t w.id .fault z ∧ t.keys = s.keys ∧ t.books = s.books)) ∧
    (Starts s ring 0x4020 w → w.aux = 0 → w.zeroFrom 0x1C 0x40 = true → s.keys.cert.length ≤ w.field 0x18 4 →
      w.field 0x10 8 + w.field 0x18 4 ≤ 2 ^ 64 → s.tamper.state ≠ .blank → s.recordOk partSystem recCert = true →
      s.rangeOk w.slice (w.field 0x10 8) (w.field 0x18 4) true = true → s.canMaster masterMgmt = true →
      let o := s.hostWrite masterMgmt w.slice .statement (some w.id) (w.field 0x10 8) s.keys.cert
      ∃ t z, exec (.certRead ring) s = .next t ∧
        Ended t w.id (if o.2 then .ok else .access) (leBytes 2 s.keys.cert.length ++ z) ∧ t.out = o.1.out ∧
        t.keys = s.keys ∧ t.books = s.books)

/-- R403, R404, R406 to R408, R452, R512: envelopes: the read of the one whose turn it is, the random bytes it draws, the records an
accepted one writes, in their order, and their taking effect. -/
def Obligations.Envelopes : Prop :=
  ∀ (s : State) (ring : Nat) (w : Work),
    let src := w.field 0x10 8
    let len := w.field 0x18 4
    let rows : List (Nat × Instr) :=
      [(1, .slotWrite ring), (2, .slotErase ring), (3, .authWrite ring), (4, .authErase ring), (5, .provision ring)]
    let queue (t : State) : List WbEntry := t.nv.wbuf ++ t.nv.behind
    (∀ i ∈ rows.map Prod.snd,
      Starts s ring 0x4010 w → s.oldest ring (fun v => v.opcode == 0x4010 && v.activeAt 1) = none →
      s.envelopeTurn w = true → w.aux = 0 →
      w.zeroFrom 0x1C 0x20 = true → w.zeroFrom 0x2C 0x40 = true → 192 ≤ len → len ≤ 1560 → src + len ≤ 2 ^ 64 →
      w.field 0x20 8 + w.field 0x28 4 ≤ 2 ^ 64 →
      s.rangeOk w.slice src len false = true → s.rangeOk w.slice (w.field 0x20 8) (w.field 0x28 4) false = true →
      s.canRead masterMgmt = true → (s.hostRead (.work w.id 0) masterMgmt w.slice .statement src len false).2 = true →
      Asks i s w.id 1 src len) ∧
    (∀ d rest, s.oldest ring (fun v => v.opcode == 0x4010 && v.activeAt 1) = some w → s.workAt w.id = some w →
      ring < 65536 → w.input = d :: rest → s.envStateOk (envOp d) = true →
      envForm d (w.field 0x28 4 != 0 || w.field 0x20 8 != 0) = true →
      s.envChecks d (w.input.getD 1 []) w.slice = none →
      let a := w.input.getD 1 []
      let x := envDesc d
      let m := (s.envMaterial d).getD []
      let target := envTarget d
      let index := envIndex d
      (∀ p ∈ rows, envOp d = p.1 → s.gotRandom (.envelope w.id) = none → ∃ t, exec p.2 s = .next t ∧
        (∃ y ∈ t.rng.waiters, y.use = .envelope w.id) ∧ t = { s with rng := t.rng }) ∧
      (∀ r, s.gotRandom (.envelope w.id) = some r →
        let u := (s.dropRandom (.envelope w.id)).envAccepted d a
        let sends (i : Instr) (more : List RecImage → Prop) : Prop := ∃ t imgs, exec i s = .next t ∧
          At t w.id (.active 3) ∧ ((queue t).drop (queue u).length).flatMap WbEntry.img = .family (envFamily d) (envCounter d) :: imgs ∧
          more imgs ∧ (∃ e, (queue t).getLast? = some e ∧ e.sync = [⟨w.id, none, true, leBytes 8 (envCounter d) ++
            leBytes 1 target ++ [0] ++ leBytes 2 index, refusalResult 12 0xFF⟩]) ∧
          (∀ f, t.familyAt f = s.familyAt f) ∧ t.keys.auth = s.keys.auth ∧ t.books = s.books ∧
          t.tamper.state = s.tamper.state ∧ t.tamper.challenges = u.tamper.challenges
        (envOp d = 1 → sends (.slotWrite ring) (fun l => ∃ k, l = [.material target index k.stored, .slot target index k] ∧
          k.occupied = true ∧ k.type = fieldAt x 0 1 ∧ k.family = fieldAt x 2 2 ∧ k.slice = fieldAt x 8 2 ∧
          k.attr = BitVec.ofNat 32 (fieldAt x 4 4) ∧ k.uses = fieldAt x 0x0A 6 ∧ k.bad = false ∧ k.mask = r ∧
          k.masked = xorBytes m r ∧ k.mac = slotMac s.keys.kSint target index k m ∧
          k.stored = (if k.attr.getLsbD attrVolatile then zeros m.length else s.keys.seal target index m) ∧
          k.epoch = s.keys.epoch)) ∧
        (envOp d = 2 → sends (.slotErase ring) (fun l => l = [.material target index [], .slot target index Slot.reset])) ∧
        (envOp d = 3 → sends (.authWrite ring) (fun l => ∃ z, l = [.auth index z] ∧
          z.occupied = true ∧ z.kind = fieldAt x 0 1 ∧ z.curve = fieldAt x 1 1 ∧ z.serial = envCounter d ∧
          z.ident = bytesAt x 8 16 ∧ z.pub = fit 96 (envWrapped d) ∧ ∀ e ∈ u.tamper.challenges, e.1 ≠ authSlot a)) ∧
        (envOp d = 4 → sends (.authErase ring) (fun l => l = [.auth index Authority.reset] ∧
          ∀ e ∈ u.tamper.challenges, e.1 ≠ authSlot a)) ∧
        (envOp d = 5 → ∃ t, exec (.provision ring) s = .next t ∧ At t w.id (.active 2) ∧ t.keys.compact = [] ∧
          t.keys.large = [] ∧ t.keys.sessions = [] ∧ t.keys.auth = [] ∧ t.applets.allow = [] ∧ t.keys.erasing = true ∧
          t.keys.erasePending = true ∧ t.tamper.state = s.tamper.state ∧ t.tamper.stage = s.tamper.stage))) ∧
    (∀ f n, ((s.commitImage (.family f n)).familyAt f = n) ∧
      ∀ g, g ≠ f → (s.commitImage (.family f n)).familyAt g = s.familyAt g) ∧
    (∀ target index k, target < 2 →
      (s.commitImage (.slot target index k)).slotAt target index = s.slotAt target index ∧
      let t := s.settleOne (.install (.slot target index k))
      t.slotAt target index = { k with install := (s.slotAt target index).install + 1 } ∧
      (∀ j, j ≠ index → t.slotAt target j = s.slotAt target j) ∧ t.books = s.books) ∧
    (∀ index z, (s.commitImage (.auth index z)).authAt index = s.authAt index ∧
      (s.settleOne (.install (.auth index z))).authAt index = z) ∧
    (∀ e ok, s.workAt w.id = some w → w.ring < 65536 → e.img = [] → e.sync = [⟨w.id, none, true, ok, refusalResult 12 0xFF⟩] →
      Ended (s.entryDone e true) w.id .ok ok)

/-! 14_crypto_engines.md. -/

/-- R43, R50, R411, R415, R419, R420, R423, R424: a cipher, MAC or digest that passes its checks takes its keys and enters its
pool; the pool's next stream binds to the unit with the fewest streams (that choice is log entry 33) and reads its first data.
A digest engine that has its step of the grain and all its data writes the digest, that of a service call into the core's
local memory. -/
def Obligations.Streams : Prop :=
  ∀ (s : State) (ring : Nat) (w : Work),
    let m := s.masterStream w.id
    let n := w.field 0x18 4
    let first := match w.preRead with
      | some (a, k) => (a, k, 2)
      | none => if w.aadLen = 0 then (w.field 0x10 8, n, 1) else (w.field 0x30 8, w.aadLen, 1)
    let len (digest : Bool) : Nat := if first.2.2 = 2 then first.2.1 else min (w.stepBytes digest) first.2.1
    let enters (i : Instr) (digest : Bool) (key : Bytes) : Prop :=
      ∃ t, exec i s = .next t ∧ At t w.id (.active 0) ∧ (t.workAt w.id).map Work.key = some key ∧ t.books = s.books ∧
        t.reads = s.reads ∧
        ∃ x, t.crypto.streams = s.crypto.streams ++ [x] ∧ x.work = w.id ∧ x.onDigest = digest ∧ x.unit = none ∧ x.pos = 0 ∧
          x.total = w.aadLen + n
    (∀ key, Starts s ring 0x5000 w → w.cipherForm = true → s.sessionBusy w.session = false →
      (s.cipherKeys w).2 = .ok key → s.bufOk w.slice (w.field 0x10 8) n false = true →
      s.bufOk w.slice (w.field 0x20 8) n true = true → s.bufOk w.slice (w.field 0x30 8) w.aadLen false = true →
      cipherMode w.aux ≠ 0 ∨ s.rangeOk w.slice (w.field 0x38 8) (cipherTlen w.aux) (!cipherDec w.aux) = true →
      enters (.cipher ring) false key) ∧
    (∀ k, Starts s ring 0x5001 w → w.macForm = true → s.sessionBusy w.session = false →
      keySrcOf (w.field 0x1C 4) w.session none = some k → s.streamSession w = none → s.keyFail k w.slice = none →
      s.keySuits k attrMac (macTypes (macAlg w.aux)) w.slice = true → s.bufOk w.slice (w.field 0x10 8) n false = true →
      s.rangeOk w.slice (w.field 0x20 8) (macTlen w.aux) (!macVerifies w.aux) = true →
      enters (.mac ring) (macAlg w.aux != 0) (s.keyView k w.slice).key) ∧
    (∀ p ∈ [(0x5010, Instr.digest ring), (0x5011, .digestUpdate ring), (0x5012, .digestFinish ring)],
      Starts s ring p.1 w → w.digestForm = true → s.contextBusy w = false → s.bufOk w.slice (w.field 0x10 8) n false = true →
      (∀ a k, w.digestOut = some (a, k) → s.rangeOk w.slice a k true = true) →
      (p.1 ≠ 0x5010 → s.rangeOk w.slice (w.field 0x20 8) 512 false = true ∧
        s.rangeOk w.slice (w.field 0x20 8) 512 true = true) → enters p.2 true []) ∧
    (∀ digest u x, s.bestUnit digest = some u →
      s.streamTurn (poolUnit digest) (fun y v => y.onDigest == digest && y.unit.isNone && s.streamOpen v) = some (x, w) →
      s.workAt w.id = some w → x.work = w.id → w.ring < 65536 → x.pos = 0 → x.total = w.aadLen + n → 0 < first.2.1 →
      (s.hostRead (.work w.id 0) m w.slice .stream first.1 (len digest) false).2 = true →
      ∃ t, s.bindStream digest = t ∧ At t w.id (.reading first.2.2) ∧ t.books = s.books ∧
        (∃ r ∈ t.reads, r.addr = first.1 ∧ r.len = len digest ∧ r.failedAt = none) ∧
        ∃ y ∈ t.crypto.streams, y.work = w.id ∧ y.unit = some u) ∧
    (∀ u x, s.readyStream true u = some (x, w) → s.mayStep (.digest u) 2 = true → w.opcode = 0x5010 →
      s.workAt w.id = some w → x.work = w.id →
      let d := ((DigestCtx.fresh w.digestAlg).absorb w.digestAlg w.streamData).out w.digestAlg
      let o := s.hostWrite m w.slice .stream (some w.id) (w.field 0x20 8) d
      (w.ring < 65536 → x.total ≤ w.streamData.length → o.2 = true →
        ∃ t, s.unitGrain true u = t ∧ Ended t w.id .ok (leBytes 4 (shaSize w.digestAlg)) ∧ t.out = o.1.out ∧
          (∀ y ∈ t.crypto.streams, y.work ≠ w.id) ∧ t.books = s.books) ∧
      (∀ core, w.ring = 65536 + core → (s.coreAt core).mode = .waiting → (s.coreAt core).answer = none →
        x.total ≤ x.pos + 4 * shaBlock w.digestAlg →
        ∃ t late, s.unitGrain true u = t ∧
          (t.coreAt core).answer = some (svcStatus .ok late w.redone false, fit 16 (leBytes 4 (shaSize w.digestAlg))) ∧
          (t.coreAt core).output = [(w.field 0x20 8, d)] ∧ t.workAt w.id = none ∧
          (∀ y ∈ t.crypto.streams, y.work ≠ w.id) ∧ OtherCores s t core ∧ t.books = s.books))

/-- R428, R430, R432: a BIGNUM descriptor of each OP charges its key and reads its input; a valid input joins the queue. -/
def Obligations.BigNumbers : Prop :=
  ∀ (s : State) (ring : Nat) (w : Work),
    let addr := w.field 0x10 8
    let n := w.field 0x18 4
    let c := s.bnKeyCheck w.slice w.aux (w.field 0x1C 4)
    (∀ p ∈ [(0x01, Instr.modexp ring), (0x02, .modmul ring), (0x10, .rsaPublic ring), (0x11, .rsaPrivate ring),
        (0x20, .ecdsaSign ring), (0x21, .ecdsaVerify ring), (0x22, .ecdh ring), (0x30, .x25519 ring),
        (0x31, .ed25519Sign ring), (0x32, .ed25519Verify ring)],
      s.oldest ring (fun v => v.isRouted && v.opcode == 0x6000 && (v.aux == p.1 || !bnOpOk v.aux)) = some w →
      s.workAt w.id = some w → ring < 65536 → s.mayBegin w = true → w.aux = p.1 → s.bnForm w = true → c.2 = none →
      s.rangeOk w.slice addr n false = true →
      bnInLays w.aux = true ∨ s.rangeOk w.slice (w.field 0x20 8) (w.field 0x28 4) true = true →
      0 < n → s.canRead (s.masterStream w.id) = true →
      (c.1.hostRead (.work w.id 0) (s.masterStream w.id) w.slice .stream addr n false).2 = true →
      ∃ t, exec p.2 s = .next t ∧ At t w.id (.reading 1) ∧
        (∃ r ∈ t.reads, r.kind = .work w.id 0 ∧ r.addr = addr ∧ r.len = n) ∧ t.keys = c.1.keys ∧
        t.crypto = { s.crypto with dmaJobs := t.crypto.dmaJobs } ∧ t.books = s.books) ∧
    (∀ tag r data, s.readAt tag = some r → r.kind = .work w.id 0 → s.workAt w.id = some w → w.opcode = 0x6000 →
      w.isReading = true → r.arrives = true → r.discard = false → data.length = r.len → bnTypes w.aux = none →
      (bnInLays w.aux = true → s.rangeOk w.slice (w.field 0x20 8) (w.field 0x28 4) true = true) →
      bnInOk w.aux data = true → bnOutLen w.aux 0 data ≤ w.field 0x28 4 → bnValid w.aux 0 [] data = true →
      ∃ t j, exec (.hostReadCompletion tag data) s = .next t ∧ At t w.id (.active 1) ∧
        t.crypto.bnQueue = s.crypto.bnQueue ++ [j] ∧ j.work = w.id ∧ j.use = 0 ∧ j.op = w.aux ∧ j.input = data ∧
        j.cost = bnCost w.aux 0 data ∧ t.readAt tag = none ∧ t.books = s.books ∧ t.keys = s.keys) ∧
    (s.oldest ring (fun v => v.isRouted && v.opcode == 0x6000 && (v.aux == 0x31 || !bnOpOk v.aux)) = some w →
      s.workAt w.id = some w → ring < 65536 → s.mayBegin w = true → w.aux = 0x31 → s.bnForm w = true → c.2 = none →
      n = 0 → s.rangeOk w.slice (w.field 0x20 8) (w.field 0x28 4) true = true →
      ∃ t j, exec (.ed25519Sign ring) s = .next t ∧ At t w.id (.active 1) ∧ t.crypto.bnQueue = s.crypto.bnQueue ++ [j] ∧
        j.work = w.id ∧ j.op = 0x31 ∧ j.input = [] ∧ t.books = s.books)

/-! 15_random.md. -/

/-- R440 to R450, R453, R456, R460: the blocks of the sources, which end the start-up test and let the known-answer tests wait for
their steps, the conditioner, the DRBG and RNG_DATA. -/
def Obligations.RandomUnit : Prop :=
  ∀ (s : State),
    let r := s.rng
    let steps : Prop := r.started.isSome = true ∧ s.halted = false ∧ r.stepAt ≠ some s.now ∧
      s.sched.taken.contains .random = false
    let only (t : State) : Prop := t = { s with rng := t.rng }
    (∀ samples, samples.length = 11 → r.started.isSome = true → s.halted = false →
      let src (k : Nat) : Source := (s.sourceAt k).block (samples.getD k [])
      let good := (List.range 11).filter (fun k => (src k).passing)
      ∃ t, exec (.rngBlockEnd samples) s = .next t ∧ only t ∧ (∀ k, k < 11 → t.sourceAt k = src k) ∧
        (good ≠ [] → t.rng.blocks = r.blocks ++ [(good.map (fun k => samples.getD k [])).foldl xorBytes (zeros 128)]) ∧
        (good = [] → t.rng.blocks = r.blocks ∧ t.rng.nonePassing = true ∧ t.rng.buf = [] ∧
          t.rng.freshNeeded = 3 + r.blocks.length) ∧
        (r.startup = false → (∀ k, k < 11 → (src k).startOk = true) → t.rng.startup = true ∧
          ∃ x ∈ t.rng.waiters, x.use = .startTests)) ∧
    (∀ b rest, steps → r.startup = true → r.blocks = b :: rest →
      ∃ t, exec .conditioning s = .next t ∧ only t ∧ t.rng.blocks = rest ∧
        t.rng.pool = (r.pool ++ [condition b]).drop (r.pool.length - 2) ∧ t.rng.stepAt = some s.now) ∧
    (steps → r.inst = false → r.startup = true → r.kat = true → r.errKat = false → s.poolFull = true →
      let u := drbgUpdate (zeros 32) (zeros 16) (xorBytes r.pool.flatten s.personal)
      ∃ t, exec .drbgInstantiate s = .next t ∧ t = { s with rng := t.rng, sched := t.sched } ∧
        t.sched.overdue.contains 5 = false ∧ t.rng.key = u.1 ∧ t.rng.v = u.2 ∧ t.rng.inst = true ∧
        t.rng.pool = [] ∧ t.rng.seededAt = s.now ∧ t.rng.calls = 0) ∧
    (steps → s.reseedDue = true → s.reseedSlot = true → s.poolFull = true → s.anyPassing = true →
      let k := if r.callLeft = 0 then (r.key, r.v) else drbgUpdate r.key r.v (zeros 48)
      let u := drbgUpdate k.1 k.2 (xorBytes r.pool.flatten (leBytes 8 s.now ++ zeros 40))
      ∃ t, exec .drbgReseed s = .next t ∧ t.rng.key = u.1 ∧ t.rng.v = u.2 ∧ t.rng.pool = [] ∧ t.rng.calls = 0 ∧
        t.rng.seededAt = s.now ∧ t.rng.reseeds = r.reseeds + 1 ∧ t.sched.overdue.contains 5 = false ∧
        t = { s with rng := t.rng, sched := t.sched }) ∧
    (r.inst = true → r.seededAt + 5760 ≤ s.now → s.sched.overdue.contains 5 = false →
      ∃ t, exec .reseedOverdue s = .next t ∧ t.rng.errLate = true ∧ t.sched.overdue.contains 5 = true ∧
        t.sched.bgMiss = true ∧ Logged s t 0x09 0 5 ∧ t = { s with rng := t.rng, sched := t.sched, logs := t.logs }) ∧
    (∀ g, r.started = some g → r.startup = false → r.errSlow = false → g + 5760 ≤ s.now →
      ∃ t, exec .rngStartupSlow s = .next t ∧ t.rng = { r with errSlow := true } ∧ Logged s t 0x0D 0 1 ∧
        t = { s with rng := t.rng, logs := t.logs }) ∧
    (∀ n, s.barUp = true → s.halted = false → s.tamper.state ≠ .spent →
      (s.tamper.state ≠ .bittern → n ≤ r.fifo.length → exec (.rngDataRead n) s =
        .next { s with rng := { r with fifo := r.fifo.drop n }, out := s.out ++ [.barRead 0x090000 (r.fifo.take n)] }) ∧
      (s.tamper.state = .bittern ∨ r.fifo.length < n → exec (.rngDataRead n) s =
        .next { s with rng := { r with errEmpty := true }, out := s.out ++ [.barRead 0x090000 (zeros n)] }))

/-- R44, R447, R451 to R454, R457, R460 to R462: consumers wait for output steps, get what a step yields at the boundary at which it
ends, or end with NO_ENTROPY; RANDOM; the test access, whose tests wait for steps of their own. The outcomes of the known-answer
tests are free values (log entry 21). -/
def Obligations.RandomService : Prop :=
  ∀ (s : State) (ring : Nat) (w : Work),
    let free : Prop := s.halted = false ∧ s.rng.stepAt ≠ some s.now ∧ s.sched.taken.contains .random = false ∧
      s.rng.started.isSome = true
    (Starts s ring 0x8000 w → s.randomFail w = none →
      (w.field 0x18 4 = 0 → EndsOnly (.random ring) s w.id .ok []) ∧
      (w.field 0x18 4 ≠ 0 → ∃ t, exec (.random ring) s = .next t ∧ At t w.id (.active 1) ∧
        (∃ x ∈ t.rng.waiters, x.use = .request w.id) ∧ t = { s with work := t.work, rng := t.rng })) ∧
    (Starts s ring 0x8010 w → w.aux = 0 → w.zeroFrom 0x10 0x40 = true → ∃ t, exec (.rngKat ring) s = .next t ∧
      At t w.id (.active 1) ∧ (∃ x ∈ t.rng.waiters, x.use = .kat w.id) ∧ t = { s with work := t.work, rng := t.rng }) ∧
    (∀ x, x.use = .kat w.id → s.workAt w.id = some w → w.ring < 65536 → s.brine.entries = [] →
      let t := s.katRan x
      (x.need = 3 → ∀ c d, (s.katRun x).1 = some (c, d) → c = true ∧ d = true) ∧
      (∀ c d, (s.katRun x).1 = some (c, d) →
        Ended t w.id (if c && d then .ok else .fault) (leBytes 1 (flag c + 2 * flag d)) ∧
        (c = false ∨ d = false → t.rng.errKat = true ∧ t.rng.kat = false) ∧ (∀ y ∈ t.rng.waiters, y.use ≠ .kat w.id) ∧
        t.books = s.books ∧ t.keys = s.keys) ∧
      ((s.katRun x).1 = none → t = { s with rng := t.rng, draws := t.draws })) ∧
    (Starts s ring 0x8011 w → w.injectForm = true → s.injectState w = true →
      (w.field 0x1C 4 = 0 → s.rangeOk w.slice (w.field 0x10 8) (w.field 0x18 4) false = true →
        s.rangeOk w.slice (w.field 0x20 8) (w.field 0x28 4) true = true → s.canRead (s.masterStream w.id) = true →
        (s.hostRead (.work w.id 1) (s.masterStream w.id) w.slice .stream (w.field 0x10 8) (w.field 0x18 4) false).2 = true →
        ∃ t, exec (.rngInject ring) s = .next t ∧ At t w.id (.reading 2) ∧
          (∃ r ∈ t.reads, r.kind = .work w.id 1 ∧ r.addr = w.field 0x10 8 ∧ r.len = w.field 0x18 4) ∧
          t.books = s.books ∧ t.rng = s.rng) ∧
      (w.field 0x1C 4 ≠ 0 → s.rangeOk w.slice (w.field 0x30 8) 312 false = true → s.canRead masterMgmt = true →
        (s.hostRead (.work w.id 0) masterMgmt w.slice .statement (w.field 0x30 8) 312 false).2 = true →
        Asks (.rngInject ring) s w.id 1 (w.field 0x30 8) 312)) ∧
    (∀ x, s.rngNext = some x → free →
      (x.use.isTest = true → ∃ t, exec .rngOutputStep s = .next t ∧
        t = { s with rng := { s.rng with stepAt := some s.now, given := some (x.use, [0]) } }) ∧
      (x.use.isTest = false → s.releasing = true → 16 ≤ s.rng.buf.length → 0 < x.left →
        let n := 16 * min (min 8 (s.rng.buf.length / 16)) ((x.left + 15) / 16)
        ∃ t, exec .rngOutputStep s = .next t ∧
          t = { s with rng := { s.rng with
                stepAt := some s.now, buf := s.rng.buf.drop n, given := some (x.use, (s.rng.buf.take n).take x.left) } })) ∧
    (∀ b, s.rng.given = some (.fifo, b) → (∀ y ∈ s.rng.waiters, 0 < y.left) →
      ∃ t, s.rngGrain = t ∧ t.rng.fifo = (s.rng.fifo ++ b).take 64 ∧ t.rng.given = none ∧ t = { s with rng := t.rng }) ∧
    (∀ b target index x, s.rng.given = some (.remask target index, b) →
      s.rng.waiters.find? (fun y => y.use == .remask target index) = some x →
      (∀ y ∈ s.rng.waiters, 0 < y.left ∧ (y.use = .remask target index → b.length < y.left)) →
      ∃ t y, s.rngGrain = t ∧ t.rng.waiters.find? (fun y => y.use == .remask target index) = some y ∧ y.got = x.got ++ b ∧
        y.since = s.rng.stepAt.getD s.now ∧ t.rng.given = none ∧ t = { s with rng := t.rng }) ∧
    (∀ x, s.rngLate = some x →
      (x.use = .request w.id → s.workAt w.id = some w → w.ring < 65536 → ∃ t, exec .rngWaitTimeout s = .next t ∧
        Ended t w.id .noEntropy (leBytes 4 w.pos) ∧ (∀ y ∈ t.rng.waiters, y.use ≠ x.use) ∧
        t.rng.timeouts = s.rng.timeouts + 1 ∧ t = { s with work := t.work, rng := t.rng }) ∧
      (x.use = .envelope w.id → s.workAt w.id = some w → w.ring < 65536 → ∃ t, exec .rngWaitTimeout s = .next t ∧
        Ended t w.id .noEntropy [12, 0xFF] ∧ (∀ y ∈ t.rng.waiters, y.use ≠ x.use) ∧
        t.rng.timeouts = s.rng.timeouts + 1 ∧ t.keys = s.keys ∧ t.nv = s.nv) ∧
      (∀ core, x.use = .service core → (s.coreAt core).mode = .waiting → (s.coreAt core).answer = none →
        ∃ t, exec .rngWaitTimeout s = .next t ∧ Answered t core .noEntropy (leBytes 4 0) ∧ OtherCores s t core ∧
          (∀ y ∈ t.rng.waiters, y.use ≠ x.use) ∧ Untouched s t))

/-! 16_nonvolatile_store.md. -/

/-- R471, R473, R475, R476, R480, R491, R492, R494: the commands on USER partitions and the write buffer; in write-through the data
of a write wait for their page. R44, R48, R50: the store's controller reads or writes one page in a grain that the calendar gives to
class 2, a read in the rotation of the slices. -/
def Obligations.StoreCommands : Prop :=
  ∀ (s : State) (ring : Nat) (w : Work),
    let part := w.field 0x10 1
    let off := w.field 0x14 4
    let len := w.field 0x20 4
    let addr := w.field 0x18 8
    let key := userKey part (off / 256)
    let frozen := { s with nv := { s.nv with wbuf := s.nv.wbuf.map (fun e => { e with frozen := true }),
                                             behind := s.nv.behind.map (fun e => { e with frozen := true }) } }
    let queue (t : State) : List WbEntry := t.nv.wbuf ++ t.nv.behind
    let array (t : State) : Prop := t.nv.pages = s.nv.pages ∧ t.nv.maps = s.nv.maps
    (Starts s ring 0x9000 w → nvForm w false = true → (s.nvChecks w false).2 = none →
      let u := (s.nvChecks w false).1
      (u.mayReadPage w.slice = false ∨ u.canMaster (s.masterStream w.id) = false → exec (.nvRead ring) s = .next s) ∧
      (u.canMaster (s.masterStream w.id) = true → u.mayReadPage w.slice = true →
        (s.nv.readPage key).2.2 ≠ .fault ∨ s.brine.entries = [] →
        let o := ((u.readsPage w.slice).badRead key).hostWrite (s.masterStream w.id) w.slice .stream (some w.id) addr
          (wrapRead (s.nv.readPage key).1 (off % 256) len)
        ∃ t, exec (.nvRead ring) s = .next t ∧ t.out = o.1.out ∧ t.books = s.books ∧ array t ∧
          t.nv.wbuf = s.nv.wbuf ∧ t.sched.taken.contains .nv = true ∧ (o.2 = true → Ended t w.id (s.nv.readPage key).2.2
            (leBytes 4 len ++ leBytes 4 (s.nv.readPage key).2.1)) ∧ (o.2 = false → ∃ x, Ended t w.id .access x))) ∧
    (Starts s ring 0x9001 w → s.oldest ring (fun v => v.opcode == 0x9001 && v.activeAt 1) = none → nvForm w true = true →
      (s.nvChecks w true).2 = none → s.canRead (s.masterStream w.id) = true →
      ((s.nvChecks w true).1.hostRead (.work w.id 0) (s.masterStream w.id) w.slice .stream addr len false).2 = true →
      ∃ t, exec (.nvWrite ring) s = .next t ∧ At t w.id (.reading 1) ∧ t.nv.wbuf = s.nv.wbuf ∧ t.books = s.books ∧
        ∃ r ∈ t.reads, r.kind = .work w.id 0 ∧ r.addr = addr ∧ r.len = len) ∧
    (s.oldest ring (fun v => v.opcode == 0x9001 && v.activeAt 1) = some w → s.workAt w.id = some w → ring < 65536 →
      (∀ e ∈ s.nv.wbuf, e.key ≠ key) → s.nv.wbuf.length < 64 ∨ s.nv.wt = true →
      ∃ t, exec (.nvWrite ring) s = .next t ∧
        (t.nv.readPage key).1 = fit 256 (wrapWrite (s.nv.readPage key).1 (off % 256) (fit len w.input.flatten)) ∧
        array t ∧ t.books = s.books ∧
        (s.nv.wt = false → w.aux ≠ 1 → Ended t w.id .ok (leBytes 4 len ++ zeros 4)) ∧
        (s.nv.wt = true ∨ w.aux = 1 → At t w.id (.active 2) ∧ ∃ e ∈ queue t, e.key = key ∧
          e.sync = [⟨w.id, none, true, leBytes 4 len ++ leBytes 4 0, leBytes 4 0 ++ leBytes 4 0⟩])) ∧
    (Starts s ring 0x9002 w → w.aux = 0 → w.zeroFrom 0x10 0x40 = true →
      (queue s = [] → ∃ t, exec (.nvCommit ring) s = .next t ∧ Ended t w.id .ok [] ∧ t = { s with work := t.work }) ∧
      (queue s ≠ [] → ∃ t, exec (.nvCommit ring) s = .next t ∧ At t w.id (.active 1) ∧ queue t = queue frozen ∧
        (w.id, (queue s).length) ∈ t.nv.commitWaits ∧ t = { s with work := t.work, nv := t.nv } ∧ array t)) ∧
    (Starts s ring 0x9003 w → w.aux = 0 → w.zeroFrom 0x12 0x18 = true → w.zeroFrom 0x30 0x40 = true → part ≤ 63 →
      let sel := w.field 0x11 1
      sel ≠ 0 → sel < 4 → s.partFail part w.slice 0 = none →
      let c := s.passwordCheck part true (bytesAt w.desc 0x28 8)
      let p := c.1.storeView.partAt part
      c.2 = none → ∃ t, exec (.nvPasswd ring) s = .next t ∧ At t w.id (.active 1) ∧
        ((queue t).drop (queue s).length).flatMap WbEntry.img = [.passwords part
          (if sel.testBit 0 then bytesAt w.desc 0x18 8 else p.readPw) (if sel.testBit 1 then bytesAt w.desc 0x20 8 else p.writePw)] ∧
        (∃ e, (queue t).getLast? = some e ∧ e.sync = [⟨w.id, none, true, leBytes 4 0 ++ leBytes 4 0, leBytes 4 0 ++ leBytes 4 0⟩]) ∧
        (∀ k, t.partAt k = c.1.partAt k) ∧ array t ∧ t.books = s.books) ∧
    (∀ k r p, (s.commitImage (.passwords k r p)).partAt k = { s.partAt k with readPw := r, writePw := p } ∧
      ∀ j, j ≠ k → (s.commitImage (.passwords k r p)).partAt j = s.partAt j) ∧
    (s.regWritable 0x060004 = true → exec .nvCtlCommit s = .next frozen) ∧
    (s.nv.lastWrite + 480 ≤ s.now → exec .writeBufferIdleCommit s = .next frozen) ∧
    (∀ e, s.nv.nextPage = some e →
      (s.pwr.starting = true → s.mayStep .nv 2 = false → exec .pageWrite s = .next s) ∧
      (s.pwr.starting = false ∨ s.mayStep .nv 2 = true →
        let u := if s.pwr.starting then s.takeStep .nv else s
        (u.writeEntry e).2 = true → s.nv.commitWaits = [] → e.img = [.user] → e.index = 0 →
        (e.sync = [] → ∃ t, exec .pageWrite s = .next t ∧
          (queue t).map (fun x => (x.key, x.data)) = ((queue s).map (fun x => (x.key, x.data))).tail ∧
          (∀ q, (t.nv.copy e.key).head? = some q → (t.nv.page q).data = e.data) ∧
          (∀ k, k ≠ e.key → t.nv.copy k = s.nv.copy k) ∧ t.work = s.work ∧ t.books = s.books) ∧
        (∀ ok fail, e.sync = [⟨w.id, none, true, ok, fail⟩] → s.workAt w.id = some w → w.ring < 65536 →
          ∃ t, exec .pageWrite s = .next t ∧ (∀ q, (t.nv.copy e.key).head? = some q → (t.nv.page q).data = e.data) ∧
            Ended t w.id .ok ok ∧ t.books = s.books)))

/-- R474, R485, R487, R488, R490, R495: counters, partitions and the scrub, which takes the background steps of the store's
controller behind the stores of counters (R51). A counter or a partition changes hands at the grain boundary after the write. -/
def Obligations.StoreUpkeep : Prop :=
  ∀ (s : State),
    let others (t : State) (key : Nat) : Prop := ∀ k, k ≠ key → t.nv.copy k = s.nv.copy k
    (∀ n, s.nv.storeDue.any (fun x => x.1 == n) = true →
      (s.mayStep .nv background = false → exec (.counterPeriodicStore n) s = .next s) ∧
      (s.mayStep .nv background = true → ∃ t, exec (.counterPeriodicStore n) s = .next t ∧
        (∀ x ∈ t.nv.storeDue, x.1 ≠ n) ∧ (t.counterAt n).value = (s.counterAt n).value ∧
        (∀ k, k ≠ n → t.counterAt k = s.counterAt k) ∧ others t (recKey partCounters (n / 4)) ∧ t.books = s.books ∧
        let c := s.counterAt n
        (c.stored = some c.value → t.counterAt n = c) ∧
        (∀ isA b, c.base = some (isA, b) → c.stored ≠ some c.value →
          let w : CntWord := { v := c.value, epoch := (b.epoch + 1) % 2 ^ 32, ok := true }
          t.counterAt n = (if isA then { c with baseB := w } else { c with baseA := w }) ∧
          (c.bankA.epoch ≠ w.epoch → c.bankB.epoch ≠ w.epoch → (t.counterAt n).stored = some c.value)))) ∧
    (s.regWritable 0x060044 = true → ∀ v, exec (.cntOwnerWrite v) s = .next (s.defer (.owner s.nv.cntSel (v % 65536)))) ∧
    (∀ n owner, ∃ t, s.settleOne (.owner n owner) = t ∧ t.counterAt n = { s.counterAt n with owner := owner } ∧
      (∀ k, k ≠ n → t.counterAt k = s.counterAt k) ∧ others t (recKey partCounters recOwners) ∧ t.books = s.books ∧
      t.work = s.work) ∧
    (∀ k slice, ∃ t, s.settleOne (.part k slice) = t ∧ t.partAt k = { s.partAt k with slice := slice } ∧
      (∀ j, j ≠ k → t.partAt j = s.partAt j) ∧ others t (recKey partSystem recUserTable) ∧ t.books = s.books ∧
      t.work = s.work) ∧
    (s.regWritable 0x060014 = true → s.nv.partSel ≠ 0 → ∀ v, v < 2 ^ 32 →
      let k := s.nv.partSel
      let p := s.partAt k
      let pages := v % 8192
      let slice := v / 65536 % 1024
      let after (t : State) : Prop := (∀ j, j ≠ k → t.partAt j = s.partAt j) ∧ t.books = s.books ∧ t.work = s.work
      let hands (t : State) : Prop := t.hregs.deferred = s.hregs.deferred ++ [.part k slice]
      let sets (x : UserPart) : Prop := ∃ t, exec (.nvPartCfgWrite v) s = .next t ∧ t.partAt k = x ∧ hands t ∧ after t ∧
        others t (recKey partSystem recUserTable)
      (p.en = false → v.testBit 31 = true → 1 ≤ pages → pages ≤ 4096 → s.userPages + pages ≤ 36864 →
        sets { p with en := true, pages := pages, err := 0 }) ∧
      (p.en = true → v.testBit 31 = true → pages = p.pages → sets { p with err := 0 }) ∧
      (p.en = false → v.testBit 31 = false → sets { p with pages := pages, err := 0 }) ∧
      (p.en = false → v.testBit 31 = true → pages = 0 ∨ 4096 < pages ∨ 36864 < s.userPages + pages →
        ∃ t, exec (.nvPartCfgWrite v) s = .next t ∧ t.partAt k = { p with err := 1 } ∧ after t ∧ Logged s t 0x04 1 0x060014) ∧
      (p.en = true → v.testBit 31 = true → pages ≠ p.pages → ∃ t, exec (.nvPartCfgWrite v) s = .next t ∧
        t.partAt k = { p with err := 2 } ∧ after t ∧ Logged s t 0x04 2 0x060014) ∧
      (p.en = true → v.testBit 31 = false → ∃ t, exec (.nvPartCfgWrite v) s = .next t ∧
        t.partAt k = { UserPart.none_ with pages := pages, slice := p.slice } ∧ hands t ∧ after t ∧
        (∀ page, page < 2 ^ 20 → t.nv.copy (userKey k page) = []) ∧
        ∀ key, key / 2 ^ 20 ≠ partUser k → key ≠ recKey partSystem recUserTable → t.nv.copy key = s.nv.copy key)) ∧
    (s.mayStep .nv background = false ∨ s.nv.storeDue ≠ [] → ∀ corrected bad, exec (.nvScrubStep corrected bad) s = .next s) ∧
    (s.mayStep .nv background = true → s.nv.storeDue = [] → ∀ corrected bad, ∃ t, exec (.nvScrubStep corrected bad) s = .next t ∧
      t.nv.scrubPos = (s.nv.scrubPos + 1) % 65536 ∧
      t.nv.corrected = s.nv.corrected + BitVec.ofNat 32 corrected.length ∧
      t.nv.uncorr = s.nv.uncorr + BitVec.ofNat 32 bad.length ∧ t.nv.maps = s.nv.maps ∧ t.books = s.books ∧ t.work = s.work ∧
      (bad = [] → t.nv.counters = s.nv.counters ∧ t.tamper = s.tamper ∧
        (corrected = [] ∨ s.holdHealthy = false → t.nv.pages = s.nv.pages) ∧
        (corrected ≠ [] → s.holdHealthy = true → (t.nv.page s.nv.scrubPos).badCw =
          (s.nv.page s.nv.scrubPos).badCw.filter (fun k => !corrected.contains k))))

/-! 18_contactless.md. -/

/-- R529 to R538, R547: the collect, its field checks and pings, and the dialogue with a custodian card. -/
def Obligations.Collects : Prop :=
  ∀ (s : State) (ring : Nat) (w : Work) (c : Collect),
    let still (t : State) : Prop := t.books = s.books ∧ t.keys = s.keys ∧ t.nv = s.nv
    let sends (t : State) (frame : Bytes) : Prop := t.out = s.out ++ [.rf frame] ∧ still t
    (Starts s ring 0xA100 w → w.collectForm = true → s.tamper.state = .issued ∨ s.tamper.state = .sealed_ →
      s.runningCollect = none → s.cl.collect = none → s.rangeOk w.slice (w.field 0x10 8) 96 false = true →
      s.rangeOk w.slice (w.field 0x28 8) (w.field 0x30 4) false = true →
      s.rangeOk w.slice (w.field 0x18 8) (w.field 0x20 4) true = true → s.canRead masterMgmt = true →
      (s.hostRead (.work w.id 0) masterMgmt w.slice .statement (w.field 0x10 8) 96 false).2 = true →
      Asks (.clCollect ring) s w.id 1 (w.field 0x10 8) 96) ∧
    (Starts s ring 0xA101 w → w.aux = 0 → w.zeroFrom 0x10 0x40 = true →
      (s.cl.collect = none → s.runningCollect = none → ∃ t x, exec (.clAbort ring) s = .next t ∧ Ended t w.id .ok x ∧
        t.cl = s.cl ∧ still t) ∧
      (∀ v, s.cl.collect = some c → c.slice = w.slice → s.workAt c.work = some v → v.ring < 65536 → c.work ≠ w.id →
        ∃ t x, exec (.clAbort ring) s = .next t ∧ Ended t w.id .ok x ∧ t.cl.collect = none ∧ t.cl.mode = .tag ∧
          Ended t c.work .auth (clResult c.selected c.sigs.length c.rejected) ∧ still t)) ∧
    (s.cl.collect = some c → ∀ v, s.workAt c.work = some v → v.ring < 65536 →
      (c.sigs.length < 2 → c.since + c.wait * 5760 ≤ s.now → ∃ t, exec .clCollectWaitExpiry s = .next t ∧
        t.cl.collect = none ∧ t.cl.mode = .tag ∧ Ended t c.work .auth (clResult c.selected c.sigs.length c.rejected) ∧
        still t) ∧
      (∀ field, c.dialog = none → c.fieldOk = false → c.measuredAt + (if s.cl.extField then 80000 else 40000) ≤ s.now →
        ∃ t, exec (.externalFieldCheck field) s = .next t ∧
          t.cl.collect = some { c with fieldOk := decide (field ≤ 150), measuredAt := s.now } ∧
          t.cl.extField = decide (150 < field) ∧ t = { s with cl := t.cl }) ∧
      (∀ a, c.dialog = none → c.fieldOk = true → a < 1024 →
        (c.pings = none → ∃ t, exec (.cardPing a) s = .next t ∧ t.cl.detBase = a ∧
          t.cl.collect = some { c with fieldOk := false, measuredAt := s.now, lastPing := s.now, pings := some 0 } ∧
          t = { s with cl := t.cl }) ∧
        (∀ k, c.pings = some k → c.lastPing + s.cl.pingMs * 8000 ≤ s.now → s.cl.detThr ≤ detuning s.cl.detBase a →
          ∃ t d, exec (.cardPing a) s = .next t ∧ t.cl.mode = .reader ∧ t.cl.collect.bind Collect.dialog = some d ∧
            d.step = .atqa 1 ∧ d.fresh = true ∧ sends t [0x26]) ∧
        (∀ k, c.pings = some k → c.lastPing + s.cl.pingMs * 8000 ≤ s.now → detuning s.cl.detBase a < s.cl.detThr →
          ∃ t, exec (.cardPing a) s = .next t ∧ t.cl.mode = s.cl.mode ∧ t.cl.collect = some { c with
            fieldOk := false, measuredAt := s.now, lastPing := s.now, pings := if k + 1 = 16 then none else some (k + 1) } ∧
            t = { s with cl := t.cl })) ∧
      (∀ d, c.dialog = some d →
        (∀ k, d.step = .atqa k → ∃ t, exec (.cardActivationAnswer [0x04, 0x00] none) s = .next t ∧
          (t.cl.collect.bind Collect.dialog).map Dialog.step = some .anticol ∧ sends t (anticolFrame 1 [])) ∧
        (d.step = .ats → ∀ data, data ≠ [] → (data.headD 0).toNat = data.length → bestRate data s.cl.rate = 0 →
          ∃ t, exec (.cardActivationAnswer data none) s = .next t ∧
            (t.cl.collect.bind Collect.dialog).map Dialog.step = some .selectAid ∧ sends t apduSelect) ∧
        (d.step = .selectAid → ∃ t, exec (.cardActivationAnswer [0x90, 0x00] none) s = .next t ∧
          (t.cl.collect.bind Collect.dialog).map Dialog.step = some .pso ∧ sends t (apduPso c.block)) ∧
        (∀ k, c.sigs.length < 2 → d.step = .atqa k → k < 3 → ∃ t, exec .cardFrameTimeout s = .next t ∧
          (t.cl.collect.bind Collect.dialog).map Dialog.step = some (.atqa (k + 1)) ∧ sends t [0x26]) ∧
        (∀ k, c.sigs.length < 2 → d.step = .atqa k → 3 ≤ k → ∃ t, exec .cardFrameTimeout s = .next t ∧ t.cl.mode = .ping ∧
          (t.cl.collect.bind Collect.dialog) = none ∧ t.cl.falseDet = s.cl.falseDet + (if d.fresh then 1 else 0) ∧
          t = { s with cl := t.cl }) ∧
        (∀ data x, d.step = .pso → c.sigs = [] → c.selected < 8 → s.acceptCard c data = some x →
          ∃ t e, exec (.cardAnswer data) s = .next t ∧ t.cl.collect = some e ∧ e.sigs = [x] ∧ t.cl.sigs = 1 ∧
            e.rejected = c.rejected ∧ t.out = s.out ++ [.rf rfHlta, .rf rfReqa] ∧ still t) ∧
        (∀ data x y, d.step = .pso → c.sigs = [y] → s.acceptCard c data = some x → s.canMaster masterMgmt = true →
          let o := s.hostWrite masterMgmt v.slice .statement (some v.id) (v.field 0x18 8) (authRecord c.block [y, x])
          ∃ t, exec (.cardAnswer data) s = .next t ∧ t.cl.collect = none ∧ t.cl.mode = .tag ∧
            Ended t c.work (if o.2 then .ok else .access) (clResult c.selected 2 c.rejected) ∧
            t.out = o.1.out ++ [.rf rfHlta] ∧ t.books = s.books)))

/-- R530, R539 to R547: the device as a tag. -/
def Obligations.TagAnswers : Prop :=
  ∀ (s : State),
    let p := s.partAt 0
    let talks : Prop := s.cl.mode = .tag ∧ s.cl.field ≠ 0 ∧ s.cl.level = .protocol
    let answers (i : Instr) (c : Contactless) (a : Bytes) : Prop :=
      exec i s = .next { s with cl := c, out := s.out ++ [.rf a] }
    (∀ field, field ≠ 0 →
      (s.pwr.mainOk = true ∨ s.tamper.state = .blank →
        exec (.fieldPresent field) s = .next { s with cl := { s.cl with field := field } }) ∧
      (s.pwr.mainOk = false → s.tamper.state ≠ .blank →
        exec (.fieldPresent field) s = .next { s with cl := { s.cl with field := field, mode := .tag } })) ∧
    (∃ t, exec .fieldLoss s = .next t ∧ t.cl.field = 0 ∧ t.cl.level = .idle ∧ t.cl.app = false ∧ t.cl.file = none ∧
      t.cl.readOk = false ∧ t.cl.writeOk = false ∧ t.cl.pendingUpdate = none ∧ t.nv.pages = s.nv.pages ∧ t.nv.maps = s.nv.maps ∧
      (s.pwr.mainOk = true → t.nv = s.nv ∧ t.cl.mode = s.cl.mode) ∧ (s.pwr.mainOk = false → t.nv.wbuf = [] ∧ t.cl.mode = .off) ∧
      t.books = s.books ∧ t.out = s.out) ∧
    (s.cl.mode = .tag → s.cl.field ≠ 0 →
      (s.cl.level = .idle → answers (.tagAnticollision .reqa) { s.cl with level := .ready1 } [0x44, 0x00]) ∧
      (s.cl.level = .ready1 → answers (.tagAnticollision (.anticollision 1 [])) s.cl (s.uidLevel 1) ∧
        answers (.tagAnticollision (.select 1 ((s.uidLevel 1).take 4))) { s.cl with level := .ready2 } [0x04]) ∧
      (s.cl.level = .active → answers (.tagAnticollision .rats) { s.cl with level := .protocol } tagAts ∧
        exec (.tagAnticollision .hlta) s = .next { s with cl := { s.cl with level := .halted } }) ∧
      (s.pwr.mainOk = true → ∃ t, exec .tagFrameError s = .next t ∧ t.cl = { s.cl with frameErr := s.cl.frameErr + 1 } ∧
        Logged s t 0x0B 0 1 ∧ t = { s with cl := t.cl, logs := t.logs })) ∧
    (talks →
      answers (.tagSelectApplication tagAid) { s.cl with app := true, file := none, readOk := false, writeOk := false }
        [0x90, 0x00] ∧
      (s.cl.app = true → ∀ fid,
        (s.fileExists fid = true → answers (.tagSelectFile fid) { s.cl with file := some fid } [0x90, 0x00]) ∧
        (s.fileExists fid = false → answers (.tagSelectFile fid) s.cl [0x6A, 0x82])) ∧
      (s.cl.app = true → s.pwr.mainOk = true ∨ 1500 ≤ s.cl.field → ∀ o n,
        (s.cl.file = some 0x5301 → o + n ≤ s.identFile.length →
          answers (.readBinary o n) s.cl (bytesAt s.identFile o n ++ [0x90, 0x00])) ∧
        (s.cl.file = some 0x5302 → s.keys.cert.length < o + n → answers (.readBinary o n) s.cl [0x6B, 0x00])) ∧
      (s.cl.app = true → s.pwr.mainOk = true → s.tamper.state ≠ .spent → s.cl.file = some 0x5304 → s.cl.pendingUpdate = none →
        p.locked = false → s.cl.writeOk = true → s.nv.wt = false → s.nv.wbuf.length < 64 → ∀ o data mv field,
        let key := userKey 0 (o / 256)
        o < 1024 → o % 256 + data.length ≤ 256 → (∀ e ∈ s.nv.wbuf, e.key ≠ key) →
        ∃ t, exec (.updateBinary o data mv field) s = .next t ∧ t.cl.pendingUpdate = some s.nextId ∧
          (t.nv.readPage key).1 = fit 256 (wrapWrite (s.nv.readPage key).1 (o % 256) data) ∧ t.nv.pages = s.nv.pages ∧
          t.nv.maps = s.nv.maps ∧ t.out = s.out ∧ t.books = s.books ∧ t.work = s.work) ∧
      (s.cl.app = true → s.cl.pendingUpdate = none → p.locked = true → s.tamper.state ≠ .spent → s.cl.file = some 0x5304 →
        ∀ o data mv field, answers (.updateBinary o data mv field) s.cl [0x69, 0x83]) ∧
      (s.cl.app = true → p.locked = true → ∀ write pw mv, answers (.verify write pw mv) s.cl [0x69, 0x83]) ∧
      (s.cl.app = true → p.locked = false → s.pwr.mainOk = true → ∀ pw mv,
        (allZero p.readPw = true ∨ pw = p.readPw → ∃ t, exec (.verify false pw mv) s = .next t ∧
          t.cl = { s.cl with readOk := true } ∧ t.partAt 0 = { p with fails := 0 } ∧ t.out = s.out ++ [.rf [0x90, 0x00]] ∧
          t.books = s.books) ∧
        (allZero p.readPw = false → pw ≠ p.readPw → p.fails < 8 → ∃ t, exec (.verify false pw mv) s = .next t ∧
          t.cl = s.cl ∧ t.partAt 0 = { p with fails := p.fails + 1, locked := decide (7 ≤ p.fails) } ∧
          t.out = s.out ++ [.rf [0x63, BitVec.ofNat 8 (0xC0 + (7 - p.fails))]] ∧ t.books = s.books)))

/-! 20_errors_and_telemetry.md. -/

/-- R577, R584, R585, R587, R590, R596: the sideband port, the telemetry sample, the acknowledgement of the logs. -/
def Obligations.SidebandAndTelemetry : Prop :=
  ∀ (s : State),
    let refuses (i : Instr) (code : Nat) : Prop := ∃ t, exec i s = .next t ∧ t.out = s.out ++ [.sidebandNak] ∧
      Logged s t 0x0E 0 code ∧ t = { s with out := t.out, logs := t.logs }
    let shows (i : Instr) (code : Nat) (data : Bytes) : Prop :=
      (s.portUp = true → s.halted = false ∨ code ∈ [0x00, 0x09, 0x0A] →
        exec i s = .next { s with out := s.out ++ [.sideband data] }) ∧
      (s.portUp = false ∨ (s.halted = true ∧ code ∉ [0x00, 0x09, 0x0A]) → refuses i code)
    let temp (x : BitVec 16) : Bytes := leBytes 2 (if s.tamper.state = .spent then 0x8000 else x).toNat
    shows .sbIdent 0x00 [0xB1, 0x5A, 0x40, 0x96] ∧ shows .sbDeviceId 0x01 (fit 16 s.deviceIdShown) ∧
    shows .sbTjMax 0x02 (temp s.tel.tMax) ∧ shows .sbTjMin 0x03 (temp s.tel.tMin) ∧
    shows .sbPower 0x04 (leBytes 2 s.tel.power) ∧ shows .sbHold 0x05 (leBytes 2 s.tel.hold) ∧
    shows .sbLcState 0x06 [BitVec.ofNat 8 (lcCode s.tamper.state)] ∧
    (∃ v : Byte, shows .sbTamperFlags 0x07 [v] ∧ (s.tamper.state = .spent → v = 0) ∧ (s.tamper.state ≠ .spent →
      v.toNat % 32 = min 15 s.window2.length ∧ v.getLsbD 5 = s.alarm ∧ v.getLsbD 6 = s.tamper.latch ∧ v.getLsbD 7 = false)) ∧
    shows .sbTamperCause 0x08 [BitVec.ofNat 8 s.tamper.cause] ∧
    (∃ v : Byte, shows .sbStatusFlags 0x09 [v] ∧ v.getLsbD 0 = s.halted ∧ v.getLsbD 1 = s.nv.wt ∧
      v.getLsbD 2 = decide (s.tamper.state = .bittern) ∧ v.getLsbD 3 = decide (s.tamper.state = .spent) ∧
      v.getLsbD 4 = decide (s.pwr.step = 9) ∧ v.toNat < 32) ∧
    shows .sbHalt 0x0A [BitVec.ofNat 8 s.keys.haltCode, BitVec.ofNat 8 (s.keys.attempts % 4)] ∧
    (∀ k, (k < 16 → shows (.sbSensorTj k) (0x10 + k) (temp (s.tel.tsens.getD k 0x8000))) ∧
      (16 ≤ k → refuses (.sbSensorTj k) ((0x10 + k) % 256))) ∧
    (∀ code, refuses (.sidebandViolation code) (code % 256)) ∧ exec .smbusClockTimeout s = .next s ∧
    (∀ tj power mv, s.pwr.starting = true → s.sched.running = true → s.pwr.flush = none → s.tamper.state ≠ .spent →
      s.taskDeadline 4 ≤ s.now + 5760 → power < 65536 → 9500 ≤ mv → mv < 65536 → s.mayStep .telemetry background = true →
      ∃ t, exec (.telemetrySample tj power mv) s = .next t ∧
        t = { s with tel := t.tel, pwr := t.pwr, sched := t.sched, draws := t.draws } ∧
        t.tel.stamp = s.now ∧ t.tel.tsens = sensorList tj ∧ t.tel.power = power ∧ t.tel.hold = mv ∧ t.tel.peakClr = false ∧
        t.tel.powerPeak = (if s.tel.peakClr then power else max s.tel.powerPeak power) ∧
        t.tel.tMax ∈ sensorList tj ∧ t.tel.tMin ∈ sensorList tj ∧ ∀ x ∈ sensorList tj, x ≠ 0x8000 →
          x.toInt ≤ t.tel.tMax.toInt ∧ t.tel.tMin.toInt ≤ x.toInt) ∧
    (s.regWritable 0x0A0020 = true → exec .peakClr s = .next { s with tel := { s.tel with peakClr := true } }) ∧
    (s.regWritable 0x0A0208 = true → ∀ seq,
      exec (.logAckWrite false seq) s = .next { s with logs := { s.logs with plogAck := seq % 2 ^ 32 } }) ∧
    (s.regWritable 0x0A0218 = true → ∀ seq,
      exec (.logAckWrite true seq) s = .next { s with logs := { s.logs with tlogAck := seq % 2 ^ 32 } })

/-! 02_grain_and_classes.md. -/

/-- R39, R43, R52, R556, R566, R574, R575, R577: the grain boundary, which counts HTM_GRAIN but at the first one after its
restore, ends the steps of the brine window and of the random unit, makes the fences of F descriptors, lets the cores check and
the register writes of the grain take effect, and gives the units their steps, a lane that holds no operation its check in slot
19; its logs, the steps of a flush; R345, R365: a running core at the boundary; R498, R499: a track of the Thorn wall that returned
the wrong pattern. -/
def Obligations.GrainBoundary : Prop :=
  ∀ (s : State),
    (s.tamper.clockStopped = true → ∀ wall, exec (.grainBoundary wall) s = .next s) ∧
    (s.tamper.clockStopped = false → s.sched.running = true → s.pwr.flush = none →
      let now := if s.sched.fresh then s.now else (s.now + 1) % 2 ^ 64
      let ended := (s.now + (if s.sched.fresh then 19 else 0)) % 20
      let u := ({ s with logs := s.logs.close } : State).coverLate.grainRecord.countGrain.budgets
      let v := (u.brineGrain.flagFences.rngGrain.coresGrain ended).settle
      ∃ t, exec (.grainBoundary none) s = .next t ∧ t = v.calendar.unitSteps ∧
        t.sched.grain = now ∧ (v.sched.skip = [] → ∀ l, l < 8 → tget 0 t.sched.laneChecks l =
          tget 0 s.sched.laneChecks l + (if now % 20 = 19 ∧ v.laneBusy l = false then 1 else 0))) ∧
    (s.tamper.clockStopped = false → s.sched.running = false →
      ∃ t, exec (.grainBoundary none) s = .next t ∧ t = { s with logs := t.logs } ∧ t.logs.ppend = [] ∧ t.logs.tpend = [] ∧
        (s.logs.ppend = [] → s.logs.tpend = [] → t = s) ∧
        (∀ e, s.logs.ppend = [e] → s.logs.tpend = [] → t.logs.plogWrite = (s.logs.plogWrite + 1) % 256 ∧
          t.logs.plogSeq = nextSeq s.logs.plogSeq ∧ tget [] t.logs.plog s.logs.plogWrite = e.entry s.logs.plogSeq ∧
          (∀ k, k ≠ s.logs.plogWrite → tget [] t.logs.plog k = tget [] s.logs.plog k) ∧ t.logs.tlog = s.logs.tlog) ∧
        (∀ e, s.logs.ppend = [] → s.logs.tpend = [e] → t.logs.tlogWrite = (s.logs.tlogWrite + 1) % 64 ∧
          t.logs.tlogSeq = nextSeq s.logs.tlogSeq ∧ tget [] t.logs.tlog s.logs.tlogWrite = e.entry s.logs.tlogSeq ∧
          (∀ k, k ≠ s.logs.tlogWrite → tget [] t.logs.tlog k = tget [] s.logs.tlog k) ∧ t.logs.plog = s.logs.plog)) ∧
    (∀ f, s.tamper.clockStopped = false → s.sched.running = true → s.sched.fresh = false → s.pwr.flush = some f →
      let u := ({ s with logs := s.logs.close } : State).grainRecord.countGrain
      let done : Prop := u.nv.wbuf = [] ∧ u.nv.behind = [] ∧ u.counterPagesDue = [] ∧ u.usesPages = []
      (f.step = .save → done → ∃ t, exec (.grainBoundary none) s = .next t ∧ t.pwr.flush = some { f with step := .commit } ∧
        t.nv.grainSaved = some ((s.now + 1) % 2 ^ 64) ∧ t.nv.saved = s.bookImages ∧ t.keys.epochRec = s.keys.epoch ∧
        t.work = s.work) ∧
      (f.step = .save → ¬done → ∃ t, exec (.grainBoundary none) s = .next t ∧ t.pwr.flush = some f ∧
        t.nv.grainSaved = s.nv.grainSaved ∧ t.books = s.books) ∧
      (f.step = .commit → ∃ t, exec (.grainBoundary none) s = .next t ∧ t.pwr.flush = none ∧ t.pwr.starting = false ∧
        t.pwr.flushFlag = true ∧ t.nv.running = false ∧ t.nv.wtMark = false ∧ t.nv.saved = s.nv.saved ∧
        (∀ key, key ≠ recKey partHeads recGrain → key ≠ recKey partHeads recSaved → t.nv.copy key = s.nv.copy key) ∧
        t.nv.counters = s.nv.counters ∧ t.tamper.state = s.tamper.state ∧ t.work = [])) ∧
    (∀ track, track < 256 → s.tamper.clockStopped = false → Responds s.grain 4 →
      ∃ t, exec (.grainBoundary (some track)) s = .next t ∧ Changed s.grain t .spent 0x11 track ∧
        Raised s.grain t 4 0x08 track) ∧
    (∀ core ended v, let c := s.coreAt core
      c.inv = some v → c.mode = .running → c.squash = false → c.trapped = none → s.sliceGone v = false → ended < 19 →
      s.now % 20 ≠ 19 → (s.coreBoundary ended core).coreAt core =
        { c with cycle := 0, inv := some { v with charged := v.charged + 1 } })

/-- R54 to R57: the scruple boundary refills the tokens, evaluates the risk and escalates the units at risk; a task that misses its deadline is
marked and logged. -/
def Obligations.ScruplesAndDeadlines : Prop :=
  ∀ (s : State), s.sched.running = true → s.tamper.clockStopped = false → s.pwr.flush = none →
    (s.now % 20 = 0 → s.sched.lastScruple ≠ some s.now → Twf Slice.reset s.slices →
      ∃ t, exec .scrupleBoundary s = .next t ∧ t.sched.lastScruple = some s.now ∧
        (∀ k, (t.sliceAt k).tokLeft = (s.sliceAt k).tokQuota ∧ (t.sliceAt k).tokForce = (s.sliceAt k).tokQuota ∧
          (t.sliceAt k).tokQuota = (s.sliceAt k).tokQuota) ∧
        (∀ k, k < 6 → (k ∈ t.sched.atRisk ↔ s.riskUnits k ≠ [])) ∧
        (∀ u, u ∈ t.sched.esc ↔ ∃ k, k < 6 ∧ u ∈ s.riskUnits k) ∧ t.books = s.books ∧ t.nv = s.nv) ∧
    (s.now % 20 ≠ 0 → exec .scrupleBoundary s = .next s) ∧
    (∀ task ∈ [0, 3, 4], s.sched.overdue.contains task = false → s.taskDeadline task ≤ s.now → s.taskSteps task .keyStore ≠ 0 →
      ∃ t, exec (.bgDeadlineMiss task) s = .next t ∧ task ∈ t.sched.overdue ∧ task ∈ t.sched.missed ∧
        t.sched.bgMiss = true ∧ Logged s t 0x09 0 task ∧ t = { s with sched := t.sched, logs := t.logs }) ∧
    (s.sched.overdue.contains 1 = false → s.taskDeadline 1 ≤ s.now → s.taskSteps 1 .keyStore ≠ 0 → s.tamper.state ≠ .spent →
      ∃ t, exec (.bgDeadlineMiss 1) s = .next t ∧ 1 ∈ t.sched.missed ∧ t.sched.bgMiss = true ∧ Raised s t 1 0x19 0)

/-! 08_rings_and_doorbells.md. -/

/-- R173, R198, R258 to R260: the doorbells of an answering device. -/
def Obligations.Doorbells : Prop :=
  ∀ (s : State), s.barUp = true → s.halted = false → ∀ (ring : Nat),
    let q := s.sqAt ring
    let b := s.bookAt q.slice
    let dbs : List (Nat × (Nat → Instr)) :=
      [(0, .submissionDoorbell ring), (8, .journalPersistedDoorbell ring), (0x10, .journalDrainedDoorbell ring)]
    let ignored (i : Instr) (q' : Sq) (detail : Nat) : Prop := ∃ t, exec i s = .next t ∧ t.sqAt ring = q' ∧
      (∀ k, k ≠ ring → t.sqAt k = s.sqAt k) ∧ Logged s t 0x02 0 detail ∧ t = { s with sq := t.sq, logs := t.logs }
    (q.enabled = true → q.busy = false →
      (∀ v, v / 65536 % 256 = (s.sliceAt q.slice).gen → (s.sliceAt q.slice).st = .active → ∃ t,
        exec (.submissionDoorbell ring v) s = .next t ∧ t.sqAt ring = { q with tail := v % 65536 } ∧
        (∀ k, k ≠ ring → t.sqAt k = s.sqAt k) ∧ t = { s with sq := t.sq }) ∧
      (∀ v, v / 65536 % 256 ≠ (s.sliceAt q.slice).gen ∨ (s.sliceAt q.slice).st ≠ .active →
        ignored (.submissionDoorbell ring v) { q with dbStale := true } 8) ∧
      (∀ n, b.st = .open_ →
        (b.persisted < n → n ≤ b.issued → ∃ t, exec (.journalPersistedDoorbell ring n) s = .next t ∧
          (t.bookAt q.slice).persisted = n ∧ (t.bookAt q.slice).drained = b.drained ∧
          (t.bookAt q.slice).lseq = b.lseq ∧ (∀ e, (t.bookAt q.slice).frameEnds.head? = some e → max b.drained n < e.1) ∧
          OtherBooks s t q.slice ∧ t = { s with books := t.books }) ∧
        (b.persisted < n → b.issued < n → ∃ t, exec (.journalPersistedDoorbell ring n) s = .next t ∧
          (t.bookAt q.slice).persisted = b.issued ∧ Logged s t 0x08 0 (n % 2 ^ 32) ∧ OtherBooks s t q.slice ∧
          t = { s with books := t.books, logs := t.logs }) ∧
        (n ≤ b.persisted → exec (.journalPersistedDoorbell ring n) s = .next s) ∧
        (max b.drained b.persisted < n → n ≤ b.issued → ∃ t, exec (.journalDrainedDoorbell ring n) s = .next t ∧
          (t.bookAt q.slice).drained = n ∧ (t.bookAt q.slice).persisted = b.persisted ∧
          (∀ e, (t.bookAt q.slice).frameEnds.head? = some e → n < e.1) ∧ OtherBooks s t q.slice ∧
          t = { s with books := t.books }) ∧
        (n ≤ max b.drained b.persisted → exec (.journalDrainedDoorbell ring n) s = .next s)) ∧
      (∀ n, b.st ≠ .open_ → ∀ make ∈ [Instr.journalPersistedDoorbell ring, Instr.journalDrainedDoorbell ring],
        ∃ t, exec (make n) s = .next t ∧ Logged s t 0x08 0 (n % 2 ^ 32) ∧ t = { s with logs := t.logs })) ∧
    (q.enabled = false ∨ q.busy = true → ∀ p ∈ dbs, ∀ v, ignored (p.2 v) { q with dbDisabled := true } (10 + 65536 * p.1)) ∧
    (∀ off data, off < 4096 → data.length < 8 ∨ (data.length = 8 ∧ off % 8 ≠ 0) →
      ignored (.doorbellWriteCombined (4096 * ring + off) data) { q with dbSize := true } (9 + 65536 * off)) ∧
    (∀ off data, off < 4096 → 0x18 ≤ off → off % 8 = 0 → data.length = 8 →
      ignored (.doorbellWriteCombined (4096 * ring + off) data) { q with dbReserved := true } (11 + 65536 * off)) ∧
    (∀ p ∈ dbs, ∀ data, data.length = 8 → ∃ t, exec (.doorbellWriteCombined (4096 * ring + p.1) data) s = .next t ∧
      exec (p.2 (leNat data)) s = .next t) ∧
    (∀ off data, off % 8 = 0 → data.length = 16 → ∃ t u, exec (.doorbellWriteCombined off (data.take 8)) s = .next t ∧
      exec (.doorbellWriteCombined (off + 8) (data.drop 8)) t = .next u ∧
      exec (.doorbellWriteCombined off data) s = .next u)

/-- R208, R234, R257, R261, R263, R265, R268: fetching. A read goes out from the fetch index when the ring has its turn in the
rotation of its engine; a whole descriptor that arrives is refused at its first failing check or goes to its class; a failed
read is repeated once, then the ring halts, and what was read behind it is not used. -/
def Obligations.Fetching : Prop :=
  ∀ (s : State) (ring : Nat),
    let q := s.sqAt ring
    let n := s.fetchRoom ring
    let read := s.hostRead (.fetch ring) (masterFetch ring) q.slice .fetch (q.base + 64 * q.fetch) (64 * n) false
    let halts (i : Instr) (cause : Nat) (left : List Read) : Prop := ∃ t, exec i s = .next t ∧ (t.sqAt ring).halted = true ∧
      (t.sqAt ring).haltCause = cause ∧ (t.sqAt ring).fetch = q.fetch ∧ (∀ k, k ≠ ring → t.sqAt k = s.sqAt k) ∧
      t.fetchReads ring = left ∧ t.work = s.work ∧ t.books = s.books
    (n = 0 ∨ s.fetchTurn ring = false → exec (.fetchReadIssue ring) s = .next s) ∧
    (n ≠ 0 → s.fetchTurn ring = true → read.2 = true → ∃ t, exec (.fetchReadIssue ring) s = .next t ∧
      t.sqAt ring = { q with fetch := (q.fetch + n) % q.size, need := 0 } ∧ (∀ k, k ≠ ring → t.sqAt k = s.sqAt k) ∧
      (∃ r ∈ t.reads, r.kind = .fetch ring ∧ r.addr = q.base + 64 * q.fetch ∧ r.len = 64 * n ∧ r.failedAt = none) ∧
      t.out = read.1.out ∧ t.work = s.work ∧ t.books = s.books) ∧
    (n ≠ 0 → s.fetchTurn ring = true → read.2 = false → halts (.fetchReadIssue ring) 3 (s.fetchReads ring)) ∧
    (∀ r index poisoned, (s.fetchReads ring)[index]? = some r → r.discard = false →
      (r.failedAt = none → r.retry = false → ∃ t, exec (.fetchReadRetry ring index poisoned) s = .next t ∧
        (t.fetchReads ring)[index]? = some (r.fails s.now) ∧ Logged s t 0x07 0 163 ∧
        t = { s with reads := t.reads, logs := t.logs }) ∧
      (r.failedAt = none → r.retry = true → ((s.fetchReads ring).map Read.id).Nodup →
        halts (.fetchReadRetry ring index poisoned) (if poisoned then 2 else 1) ((s.fetchReads ring).take index ++
          ((s.fetchReads ring).drop (index + 1)).map (fun x => { x with discard := true }))) ∧
      (∀ g, r.failedAt = some g → g + 5760 ≤ s.now → s.canRead r.master = true →
        let u := s.fwRegion r.master r.addr r.len
        let o := u.readTlps r.master r.slice .fetch (u.parts r.master r.slice r.addr r.len)
        o.2 = none → ∃ t, exec (.fetchReadRetry ring index poisoned) s = .next t ∧
          (t.fetchReads ring)[index]?.map (fun x => (x.id, x.retry, x.failedAt)) = some (r.id, true, none) ∧
          t.out = u.out ++ o.1.take (u.tagsFor o.1.length) ∧ t.sqAt ring = q ∧ t.work = s.work ∧ t.books = s.books)) ∧
    (∀ r data, (s.fetchReads ring).head? = some r → r.arrives = true → r.discard = false →
      r.preUnfence = false → s.pwr.flush = none → q.carry = [] → data.length = 64 → r.len = 64 → fieldAt data 2 1 = 1 →
      ring < 65536 → (∀ w ∈ s.work, w.id ≠ s.nextId) →
      let slot := (r.addr - q.base) / 64
      let w := s.newWork ring slot 1 data
      let fail := headerFail q.size (s.sliceAt q.slice).gen w
      slot < q.size →
      let i := Instr.descriptorArrival ring data []
      let after (t : State) : Prop := t.reads = s.reads.filter (fun x => x.id != r.id) ∧ t.books = s.books ∧ t.nextId = s.nextId + 1
      (q.fenced = true → ∃ t, exec i s = .next t ∧ after t ∧ Ended t s.nextId .fenced [BitVec.ofNat 8 q.fenceCause]) ∧
      (∀ k st, q.fenced = false → fail = some (k, st) → ∃ t d, exec i s = .next t ∧ after t ∧ Logged s t 0x01 k d ∧
        Ended t s.nextId st (if ((opInfo w.opcode).map OpInfo.listed).getD false then [1, 0xFF]
          else if w.opcode = 0x3020 then (s.bookAt w.slice).replayResult 0 0 else [BitVec.ofNat 8 k])) ∧
      (q.fenced = false → fail = none → s.opcodeRuns w.opcode = false → ∃ t d, exec i s = .next t ∧ after t ∧
        Logged s t 0x01 0 d ∧ Ended t s.nextId .state []) ∧
      (q.fenced = false → fail = none → s.opcodeRuns w.opcode = true → ∃ t, exec i s = .next t ∧ after t ∧
        t.work = s.work ++ [if classOf w.opcode = 0 then { w with phase := .held } else w] ∧ t.logs = s.logs)) ∧
    (∀ w, Starts s ring 0x0000 w → EndsOnly (.nop ring) s w.id .ok [])

/-- R28, R172, R234, R236, R268, R271, R274, R289: the completion of the oldest descriptor of a ring is written, dropped or
stalls; the boundary fences the rings of the F descriptors that have failed; the moderation timer sends the ring's message. -/
def Obligations.Completions : Prop :=
  ∀ (s : State) (ring : Nat) (w : Work) (c : Cpl),
    let q := s.sqAt ring
    let x := s.cqAt q.cq
    let head := (w.slot + w.nslots) % 2 ^ q.sizeLog2
    let late := c.late || !(s.lateAtEnd w).isEmpty
    let o := s.hostWrite (masterCq q.cq) w.slice .completion none (x.base + 32 * x.widx) (entryOf w c head x.phase late)
    (s.work.find? (fun v => v.ring == ring) = some w → w.cpl = some c → w.isDone = true → s.drainedWork w.id = true →
      ((s.sliceAt w.slice).gen = w.gen → s.commitReady w = true → x.stalled = false →
        s.canMaster (masterCq q.cq) = true → w.receipt = none → w.mailbox = none →
        (o.2 = true → ∃ t, exec (.completionIssue ring) s = .next t ∧ t.workAt w.id = none ∧ (t.sqAt ring).done = head ∧
          (t.cqAt q.cq).widx = (if x.widx + 1 = 2 ^ x.sizeLog2 then 0 else x.widx + 1) ∧
          (t.cqAt q.cq).phase = (if x.widx + 1 = 2 ^ x.sizeLog2 then !x.phase else x.phase) ∧
          (∀ k, k ≠ q.cq → t.cqAt k = s.cqAt k) ∧ (w.flagI = false → t.out = o.1.out) ∧ t.nv = s.nv ∧
          (w.flagF = false → t.books = s.books) ∧
          (w.flagFails = true → (t.sqAt ring).fenced = true)) ∧
        (o.2 = false → ∃ t, exec (.completionIssue ring) s = .next t ∧ (t.cqAt q.cq).stalled = true ∧
          (t.cqAt q.cq).stallAt = s.now ∧ (t.cqAt q.cq).widx = x.widx ∧ (t.sqAt ring).done = q.done ∧ t.books = s.books)) ∧
      ((s.sliceAt w.slice).gen ≠ w.gen → w.commit = none → ∃ t, exec (.completionIssue ring) s = .next t ∧
        t.workAt w.id = none ∧ (∀ k, k ≠ w.id → t.workAt k = s.workAt k) ∧ t.out = s.out ∧
        (t.sliceAt w.slice).dropped = (s.sliceAt w.slice).dropped + BitVec.ofNat 32 w.writes ∧ t.books = s.books)) ∧
    (∀ v ∈ s.work, v.flagFails = true → (s.flagFences.sqAt v.ring).fenced = true) ∧
    (∀ cq, let y := s.cqAt cq
      y.stalled = true → y.stallAt + 5760 ≤ s.now → s.canMaster (masterCq cq) = true →
      ∃ t, exec (.completionWriteRetry cq) s = .next t ∧
        exec (.completionIssue y.stallRing) (s.setCq cq { y with stalled := false }) = .next t) ∧
    (∀ g, q.modSince = some g → q.modTime ≠ 0 → g + q.modTime ≤ s.now → q.noint = false → s.linkOpen = true →
      let e := s.vectorAt q.vector
      ∃ t, exec (.msixTimerExpiry ring) s = .next t ∧ t.sqAt ring = { q with modSeen := 0, modSince := none } ∧
        (s.silent e = false → t.out = s.out ++ [.msix e.addr e.data] ∧ t.msix = s.msix) ∧
        (s.silent e = true → t.out = s.out ∧ t.vectorAt q.vector = { e with pending := true }) ∧ t.work = s.work ∧
        t.books = s.books)

/-- R272: a ring is enabled when its checks pass, else ERR names the first that fails; a submission ring is BUSY until it
has drained, and a completion ring with submission rings bound to it stays enabled. -/
def Obligations.RingConfiguration : Prop :=
  ∀ (s : State) (value : Nat), s.regWritable 0x020010 = true →
    let k := s.hregs.ringSel
    let q := s.sqAt k
    let c := s.cqAt k
    let size := value % 32
    let slice := value / 65536 % 1024
    let othersSq (t : State) : Prop := ∀ j, j ≠ k → t.sqAt j = s.sqAt j
    let othersCq (t : State) : Prop := ∀ j, j ≠ k → t.cqAt j = s.cqAt j
    (value.testBit 8 = true → s.hregs.ringKind = false → q.enabled = false → q.busy = false →
      let q' := { q with sizeLog2 := size, slice := slice }
      let err := (s.setSq k q').sqEnableErr k
      ∃ t, exec (.ringEnable value) s = .next t ∧ othersSq t ∧
        (err = 0 → t.sqAt k = ({ q' with err := 0 } : Sq).started ∧ t = { s with sq := t.sq }) ∧
        (err ≠ 0 → t.sqAt k = { q' with err := err } ∧ Logged s t 0x04 err 0x020010 ∧
          t = { s with sq := t.sq, logs := t.logs })) ∧
    (value.testBit 8 = true → s.hregs.ringKind = true → c.enabled = false →
      let c' := { c with sizeLog2 := size, slice := slice }
      let err := (s.setCq k c').cqEnableErr k
      ∃ t, exec (.ringEnable value) s = .next t ∧ othersCq t ∧
        (err = 0 → (t.cqAt k).enabled = true ∧ (t.cqAt k).widx = 0 ∧ (t.cqAt k).phase = true ∧ (t.cqAt k).err = 0 ∧
          (t.cqAt k).sizeLog2 = size ∧ (t.cqAt k).slice = slice ∧ t = { s with cq := t.cq }) ∧
        (err ≠ 0 → t.cqAt k = { c' with err := err } ∧ Logged s t 0x04 err 0x020010 ∧
          t = { s with cq := t.cq, logs := t.logs })) ∧
    (value.testBit 8 = false → s.hregs.ringKind = false → q.enabled = true → q.busy = false → size = q.sizeLog2 →
      slice = q.slice → ∃ t, exec (.ringDisable value) s = .next t ∧ t.sqAt k = { q with busy := true, carry := [], err := 0 } ∧
        othersSq t ∧ (∀ r ∈ t.fetchReads k, r.discard = true) ∧ t = { s with sq := t.sq, reads := t.reads }) ∧
    (value.testBit 8 = false → s.hregs.ringKind = true → c.enabled = true → size = c.sizeLog2 → slice = c.slice →
      ∃ t, exec (.ringDisable value) s = .next t ∧ othersCq t ∧ t.sq = s.sq ∧
        (s.cqBound k = true → t.cqAt k = { c with err := 7 } ∧ Logged s t 0x04 7 0x020010) ∧
        (s.cqBound k = false → t.cqAt k = { c with enabled := false, err := 0 })) ∧
    (∀ ring, (s.sqAt ring).busy = true → (∀ w ∈ s.work, w.ring ≠ ring) → s.fetchReads ring = [] →
      ∃ t, exec (.ringDisableDone ring) s = .next t ∧ t.sqAt ring = { s.sqAt ring with busy := false, enabled := false } ∧
        (∀ j, j ≠ ring → t.sqAt j = s.sqAt j) ∧ t = { s with sq := t.sq })

/-! The whole device. -/

/-- From every state, every step keeps the bounds of the buffers and the canonical form of every table. -/
def Obligations.StepKeepsInvariant : Prop :=
  ∀ (s t : State), Inv s → step s = .next t → Inv t

/-- R508, R523: no step leaves SPENT, and none reaches BLANK. -/
def Obligations.NoStepLeavesSpent : Prop :=
  ∀ (s t : State), step s = .next t → LifeGoesOn s t

/-- Every command answers a next state, whatever the state; the queue is left as it is, and what has been sent stays sent
(the model's own rules, log entries 2 to 4). -/
def Obligations.EveryCommandAnswers : Prop :=
  ∀ (i : Instr) (s : State), ∃ t, exec i s = .next t ∧ t.pending = s.pending ∧ Sent s t

/-! 03_tally_word.md. -/

/-- R72, R74 to R78: a valid word stands for an integer of the range of R78, the largest of which has nines in all 31
digits; every integer of the range has exactly one image with sign 0xC or 0xD that is no negative zero. -/
def Obligations.TallyWords : Prop :=
  (∀ r, valid r = true → -(10 ^ 31 - 1 : Int) ≤ toInt r ∧ toInt r ≤ 10 ^ 31 - 1) ∧
  (valid 0x9999999999999999999999999999999C = true ∧ toInt 0x9999999999999999999999999999999C = 10 ^ 31 - 1) ∧
  (∀ v : Int, v.natAbs < 10 ^ 31 → ∃ r, valid r = true ∧ toInt r = v ∧ signNib r = (if v < 0 then 0xD else 0xC) ∧
    ∀ x, valid x = true → toInt x = v → signNib x = (if v < 0 then 0xD else 0xC) → x = r)

/-- R95 to R98: the check nibbles of a word let the decoder find and correct every error of one symbol, and every error of
two symbols is uncorrectable. -/
def Obligations.NibbleCode : Prop :=
  ∀ (d : List Gf), d.length = 32 →
    let c := codeword d
    let hit (c : List Gf) (n : Nat) (e : Gf) : List Gf := c.set n (c.getD n 0 ^^^ e)
    locate (sums 0 c) = .clean ∧ decodeWord c = some c ∧
    (∀ n e, n < 36 → e ≠ 0 → locate (sums 0 (hit c n e)) = .corrected n e ∧ decodeWord (hit c n e) = some c) ∧
    (∀ n m e f, n < 36 → m < 36 → n ≠ m → e ≠ 0 → f ≠ 0 → decodeWord (hit (hit c n e) m f) = none)

/-! State.reset. -/

/-- R287, R482, R590, R606: what the device holds when power has just been applied to it as shipped; the invariant of every
step holds of it. -/
def Obligations.ResetState : Prop :=
  let s := State.reset
  Inv s ∧ s.pending = [] ∧ s.out = [] ∧ s.work = [] ∧ s.reads = [] ∧ s.tamper.state = .issued ∧ s.tamper.arm = false ∧
  (∀ e, (s.authAt e).occupied = false) ∧ (∀ target index, s.slotAt target index = Slot.reset ∧ Slot.reset.occupied = false) ∧
  (∀ n, (s.counterAt n).value = 0 ∧ (s.counterAt n).stored = some 0 ∧ (s.counterAt n).baseA = { v := 0, epoch := 1, ok := true } ∧
    (s.counterAt n).baseB = { v := 0, epoch := 0, ok := true } ∧ (s.counterAt n).owner = 0xFFFF) ∧
  (∀ n, (s.sliceAt n).st = .free ∧ (s.sliceAt n).gen = 0 ∧ (s.bookAt n).st = .none_ ∧ (s.sqAt n).enabled = false ∧
    (s.cqAt n).enabled = false) ∧
  s.tel.tMax = 0x8000 ∧ s.tel.tMin = 0x8000
end

