-- ==== Sys2Proof/Laws/Tables.lean ====
section
/-! SUPPORT. Laws of tables and byte memories: read after write, writes elsewhere, canonical form. -/

namespace Sys2Proof.Machine
open Sys2Proof

variable {α : Type}

@[simp] theorem tget_nil (d : α) (k : Nat) : tget d [] k = d := rfl

theorem twf_nil (d : α) : Twf d ([] : Table α) := ⟨List.Pairwise.nil, by intro e he; cases he⟩

theorem mem_tins {k : Nat} {v : α} {t : Table α} {e : Nat × α} (h : e ∈ tins k v t) : e = (k, v) ∨ e ∈ t := by
  induction t with
  | nil => exact .inl (List.mem_singleton.mp h)
  | cons x t ih =>
    obtain ⟨j, w⟩ := x
    simp only [tins] at h
    split at h
    · cases h with
      | head => exact .inl rfl
      | tail _ h => exact .inr h
    · split at h
      · cases h with
        | head => exact .inl rfl
        | tail _ h => exact .inr (List.mem_cons_of_mem _ h)
      · cases h with
        | head => exact .inr (List.mem_cons_self ..)
        | tail _ h => exact (ih h).imp id (List.mem_cons_of_mem _)

theorem tins_pairwise {k : Nat} {v : α} {t : Table α} (h : (t.map Prod.fst).Pairwise (· < ·)) :
    ((tins k v t).map Prod.fst).Pairwise (· < ·) := by
  induction t with
  | nil => simp [tins]
  | cons x t ih =>
    obtain ⟨j, w⟩ := x
    simp only [List.map_cons, List.pairwise_cons] at h
    simp only [tins]
    split
    · next hk =>
      simp only [List.map_cons, List.pairwise_cons, List.mem_cons]
      exact ⟨fun a ha => ha.elim (fun e => e ▸ hk) (fun m => hk.trans (h.1 a m)), h.1, h.2⟩
    · next hk =>
      split
      · next he =>
        have he : k = j := by simpa using he
        simp only [List.map_cons, List.pairwise_cons]
        exact ⟨he ▸ h.1, h.2⟩
      · next he =>
        have he : k ≠ j := by simpa using he
        simp only [List.map_cons, List.pairwise_cons]
        refine ⟨fun a ha => ?_, ih h.2⟩
        obtain ⟨e, hm, rfl⟩ := List.mem_map.mp ha
        rcases mem_tins hm with rfl | hm
        · omega
        · exact h.1 _ (List.mem_map_of_mem hm)

theorem twf_tdel {d : α} {t : Table α} (k : Nat) (h : Twf d t) : Twf d (tdel t k) :=
  ⟨h.1.sublist (List.filter_sublist.map _), fun e he => h.2 e (List.mem_filter.mp he).1⟩

/-- Setting an entry keeps the canonical form. -/
theorem twf_tput [DecidableEq α] {d : α} {t : Table α} (k : Nat) (v : α) (h : Twf d t) : Twf d (tput d t k v) := by
  unfold tput
  split
  · exact twf_tdel k h
  · next hv =>
    refine ⟨tins_pairwise h.1, fun e he => ?_⟩
    rcases mem_tins he with rfl | he
    · exact hv
    · exact h.2 e he

theorem twf_filter {d : α} {t : Table α} (p : Nat × α → Bool) (h : Twf d t) : Twf d (t.filter p) :=
  ⟨h.1.sublist (List.filter_sublist.map _), fun e he => h.2 e (List.mem_filter.mp he).1⟩

/-- Changing the listed entries keeps the canonical form. -/
theorem twf_tmap [DecidableEq α] {d : α} {t : Table α} (f : α → α) (h : Twf d t) : Twf d (tmap d f t) := by
  refine ⟨?_, fun e he => by simpa using (List.mem_filter.mp he).2⟩
  have : ((t.map (fun e => (e.1, f e.2))).map Prod.fst) = t.map Prod.fst := by simp [Function.comp_def]
  exact (this ▸ h.1).sublist (List.filter_sublist.map _)

theorem mem_tput [DecidableEq α] {d : α} {t : Table α} {k : Nat} {v : α} {e : Nat × α} (h : e ∈ tput d t k v) :
    e = (k, v) ∨ e ∈ t := by
  unfold tput at h
  split at h
  · exact .inr (List.mem_filter.mp h).1
  · exact mem_tins h

theorem mem_tmap [DecidableEq α] {d : α} {t : Table α} {f : α → α} {e : Nat × α} (h : e ∈ tmap d f t) :
    ∃ x ∈ t, e = (x.1, f x.2) := by
  obtain ⟨x, hx, rfl⟩ := List.mem_map.mp (List.mem_filter.mp h).1
  exact ⟨x, hx, rfl⟩

/-- An entry read is listed or the default. -/
theorem tget_mem (d : α) (t : Table α) (k : Nat) : tget d t k = d ∨ ∃ e ∈ t, tget d t k = e.2 := by
  induction t with
  | nil => exact .inl rfl
  | cons x t ih =>
    obtain ⟨j, w⟩ := x
    simp only [tget]
    split
    · exact .inr ⟨(j, w), List.mem_cons_self .., rfl⟩
    · exact ih.imp id (fun ⟨e, he, h⟩ => ⟨e, List.mem_cons_of_mem _ he, h⟩)

theorem tget_of_not_mem {d : α} {t : Table α} {k : Nat} (h : k ∉ t.map Prod.fst) : tget d t k = d := by
  induction t with
  | nil => rfl
  | cons x t ih =>
    obtain ⟨j, w⟩ := x
    simp only [List.map_cons, List.mem_cons, not_or] at h
    simp only [tget]
    rw [if_neg (by simpa using fun e : j = k => h.1 e.symm)]
    exact ih h.2

theorem tget_tins_same (d : α) (k : Nat) (v : α) (t : Table α) : tget d (tins k v t) k = v := by
  induction t with
  | nil => simp [tins, tget]
  | cons x t ih =>
    obtain ⟨j, w⟩ := x
    simp only [tins]
    split
    · simp [tget]
    · split
      · simp [tget]
      · next hk =>
        rw [tget, if_neg (fun e => hk (by rw [eq_of_beq e]; exact beq_self_eq_true _))]
        exact ih

theorem tget_tins_other (d : α) {k a : Nat} (v : α) (t : Table α) (h : a ≠ k) : tget d (tins k v t) a = tget d t a := by
  induction t with
  | nil => simp [tins, tget, h.symm]
  | cons x t ih =>
    obtain ⟨j, w⟩ := x
    simp only [tins]
    split
    · simp [tget, h.symm]
    · split
      · next hj =>
        have hj : k = j := by simpa using hj
        subst hj
        simp [tget, h.symm]
      · simp only [tget, ih]

theorem tget_tdel_same (d : α) (k : Nat) (t : Table α) : tget d (tdel t k) k = d :=
  tget_of_not_mem (by
    intro h
    obtain ⟨e, he, rfl⟩ := List.mem_map.mp h
    simp [tdel] at he)

theorem tget_tdel_other (d : α) {k a : Nat} (t : Table α) (h : a ≠ k) : tget d (tdel t k) a = tget d t a := by
  induction t with
  | nil => rfl
  | cons x t ih =>
    obtain ⟨j, w⟩ := x
    unfold tdel at ih ⊢
    by_cases hj : j = k
    · have ha : (k == a) = false := by simpa using h.symm
      simp [tget, hj, ih, ha]
    · simp [tget, hj, ih]

/-- Read after write. -/
@[simp] theorem tget_tput_same [DecidableEq α] (d : α) (t : Table α) (k : Nat) (v : α) : tget d (tput d t k v) k = v := by
  unfold tput
  split
  · next h => rw [tget_tdel_same, h]
  · exact tget_tins_same d k v t

/-- A write leaves every other entry alone. -/
theorem tget_tput_other [DecidableEq α] (d : α) (t : Table α) {k a : Nat} (v : α) (h : a ≠ k) :
    tget d (tput d t k v) a = tget d t a := by
  unfold tput
  split
  · exact tget_tdel_other d t h
  · exact tget_tins_other d v t h

/-- Writing bytes keeps the canonical form of a memory. -/
theorem twf_memWrite {m : Table Byte} (a : Nat) (b : Bytes) (h : Twf 0 m) : Twf 0 (memWrite m a b) := by
  induction b generalizing m a with
  | nil => exact h
  | cons x b ih => exact ih _ (twf_tput a x h)

/-- A write of bytes leaves every byte outside them alone. -/
theorem memWrite_other {m : Table Byte} {a x : Nat} (b : Bytes) (h : x < a ∨ a + b.length ≤ x) :
    tget 0 (memWrite m a b) x = tget 0 m x := by
  induction b generalizing m a with
  | nil => rfl
  | cons y b ih =>
    simp only [List.length_cons] at h
    rw [memWrite, ih (by omega), tget_tput_other _ _ _ (by omega)]

/-- A write of bytes is read back. -/
theorem memWrite_same {m : Table Byte} {a i : Nat} (b : Bytes) (h : i < b.length) :
    tget 0 (memWrite m a b) (a + i) = b.getD i 0 := by
  induction b generalizing m a i with
  | nil => simp at h
  | cons y b ih =>
    rw [memWrite]
    cases i with
    | zero => rw [memWrite_other b (by omega)]; simp
    | succ i => rw [show a + (i + 1) = a + 1 + i by omega, ih (by simpa using h)]; simp

end Sys2Proof.Machine
end

