-- ==== Sys2Proof/Laws/AlaingSteps.lean ====
section
/-! SUPPORT. What an Alaing command does to its core when the core takes the instruction, and the flags. -/

namespace Sys2Proof.Machine
open Sys2Proof

/-- A core that takes an instruction becomes what the instruction's effect leaves. -/
theorem Takes.leaves {s : State} {core op : Nat} {w : Word} (h : Takes s core op w) (body : Core → Word → Effect) :
    s.alaing core op body = s.setCore core ((s.coreAt core).after (body (s.coreAt core) w) w) := by
  have hx : (s.coreAt core).execute op body = some (body (s.coreAt core) w, w) := by
    unfold Core.execute
    simp only [h.fetch, h.good, h.word, h.legal, h.opcode, grainCycles, h.fits]
    simp
  unfold State.alaing
  simp [h.runs, hx, State.modCore]

theorem putFlag_bit (f : Word) (n : Nat) (v : Bool) (i : Nat) (hn : n < 32) :
    (Machine.putFlag f n v).getLsbD i = if i = n then v else f.getLsbD i := by
  unfold Machine.putFlag
  by_cases hi : i < 32
  · cases v <;> by_cases h : i = n <;> simp [h, hi, hn]
  · have h1 : i ≠ n := by omega
    simp [BitVec.getLsbD_of_ge, h1, Nat.le_of_not_lt hi]

theorem flags_nil (f : Word) : Flags f f [] := ⟨fun p h => by simp at h, fun _ _ => rfl⟩

/-- One more flag is set. -/
theorem flags_put {f g : Word} {l : List (Nat × Bool)} (h : Flags f g l) (n : Nat) (v : Bool) (hn : n < 32)
    (hl : ∀ p ∈ l, p.1 ≠ n) : Flags f (Machine.putFlag g n v) ((n, v) :: l) := by
  refine ⟨fun p hp => ?_, fun i hi => ?_⟩
  · rw [putFlag_bit _ _ _ _ hn]
    rcases List.mem_cons.mp hp with rfl | hp
    · simp
    · rw [if_neg (hl p hp), h.1 p hp]
  · have h1 : n ≠ i := hi (n, v) List.mem_cons_self
    rw [putFlag_bit _ _ _ _ hn, if_neg h1.symm, h.2 i fun p hp => hi p (List.mem_cons_of_mem _ hp)]

/-- The order of the list says nothing. -/
theorem flags_perm {f g : Word} {l m : List (Nat × Bool)} (h : Flags f g l) (e : ∀ p, p ∈ l ↔ p ∈ m) : Flags f g m :=
  ⟨fun p hp => h.1 p ((e p).mpr hp), fun i hi => h.2 i fun p hp => hi p ((e p).mp hp)⟩

end Sys2Proof.Machine
end

