-- ==== Sys2Proof/Laws/CoreWf.lean ====
section
/-! SUPPORT. An Alaing core keeps its register files and the canonical form of its memories (R41, R326, R332). -/

namespace Sys2Proof.Machine
open Sys2Proof

/-- What is the same is so too. -/
theorem Core.Wf.keep {c d : Core} (h : c.Wf) (h1 : d.code = c.code) (h2 : d.data = c.data) (h3 : d.mail = c.mail)
    (h4 : d.res = c.res) (h5 : d.arg = c.arg) (h6 : d.d.length = c.d.length) (h7 : d.x.length = c.x.length) : d.Wf :=
  ⟨h1 ▸ h.code, h2 ▸ h.data, h3 ▸ h.mail, h4 ▸ h.res, h5 ▸ h.arg, h6.trans h.d, h7.trans h.x⟩

theorem Core.reset_wf : Core.reset.Wf := ⟨twf_nil _, twf_nil _, twf_nil _, twf_nil _, twf_nil _, rfl, rfl⟩

theorem State.coreAt_wf {s : State} (h : CoresWf s.applets.cores) (c : Nat) : (s.coreAt c).Wf := by
  rcases tget_mem Core.reset s.applets.cores c with e | ⟨x, hx, e⟩
  · exact (congrArg Core.Wf e).mpr Core.reset_wf
  · exact (congrArg Core.Wf e).mpr (h x hx)

/-- An effect leaves a core of that kind. -/
def Effect.Wf : Effect → Prop
  | .done d _ => d.Wf
  | .trap .. => True

variable {c : Core}

theorem Core.setD_wf (h : c.Wf) (n : Nat) (v : Image) : (c.setD n v).Wf := h.keep rfl rfl rfl rfl rfl (by simp [setD]) rfl
theorem Core.setX_wf (h : c.Wf) (n : Nat) (v : Word) : (c.setX n v).Wf := h.keep rfl rfl rfl rfl rfl rfl (by simp [setX])
theorem Core.putFlag_wf (h : c.Wf) (n : Nat) (v : Bool) : (c.putFlag n v).Wf := h.keep rfl rfl rfl rfl rfl rfl rfl
theorem Core.flagsOf_wf (h : c.Wf) (v : Int) : (c.flagsOf v).Wf := putFlag_wf (putFlag_wf h _ _) _ _
theorem Core.flagsOfWord_wf (h : c.Wf) (v : Word) : (c.flagsOfWord v).Wf := putFlag_wf (putFlag_wf h _ _) _ _
theorem Core.flagsCompare_wf (h : c.Wf) (a b : Int) : (c.flagsCompare a b).Wf := putFlag_wf (putFlag_wf h _ _) _ _
theorem Core.startCall_wf (h : c.Wf) (n : Word) (v : Bool) : (c.startCall n v).Wf := h.keep rfl rfl rfl rfl rfl rfl rfl

theorem Core.setXGroup_wf (h : c.Wf) (r n v : Nat) : (c.setXGroup r n v).Wf := by
  induction n generalizing c r v with
  | zero => exact h
  | succ n ih => exact ih (setX_wf h _ _) _ _

theorem Core.setByte_wf (h : c.Wf) (a : Nat) (v : Byte) : (c.setByte a v).Wf := by
  unfold Core.setByte
  split
  · exact ⟨h.code, twf_tput _ _ h.data, h.mail, h.res, h.arg, h.d, h.x⟩
  · exact ⟨h.code, h.data, twf_tput _ _ h.mail, h.res, h.arg, h.d, h.x⟩
  · split
    · exact ⟨h.code, h.data, h.mail, h.res, twf_tput _ _ h.arg, h.d, h.x⟩
    · exact h
  · exact h

/-- A write to the local memories keeps their canonical form. -/
theorem Core.setBytes_wf (h : c.Wf) (a : Nat) (b : Bytes) : (c.setBytes a b).Wf := by
  induction b generalizing c a with
  | nil => exact h
  | cons v t ih => exact ih (setByte_wf h _ _) _

theorem Core.goOn_wf (h : c.Wf) (n : Nat) : (c.goOn n).Wf := h.keep rfl rfl rfl rfl rfl rfl rfl

theorem Core.overflow_wf (h : c.Wf) (n : Nat) : (c.overflow n).Wf := by
  unfold Core.overflow
  split
  · trivial
  · exact goOn_wf (putFlag_wf h _ _) _

theorem Core.putWord_wf (h : c.Wf) (d : Nat) (r : Option Image) (n : Nat) : (c.putWord d r n).Wf := by
  unfold Core.putWord
  split
  · exact overflow_wf h _
  · exact goOn_wf (putFlag_wf (flagsOf_wf (setD_wf h _ _) _) _ _) _

theorem Core.putPlain_wf (h : c.Wf) (d : Nat) (v : Image) : (c.putPlain d v).Wf := goOn_wf (flagsOf_wf (setD_wf h _ _) _) _

theorem Core.withTwo_wf (w : Word) {k : Image → Image → Effect} (hk : ∀ a b, (k a b).Wf) : (c.withTwo w k).Wf := by
  unfold Core.withTwo
  repeat' split
  · trivial
  · trivial
  · exact hk _ _

theorem Core.withOne_wf (w : Word) {k : Image → Effect} (hk : ∀ a, (k a).Wf) : (c.withOne w k).Wf := by
  unfold Core.withOne
  split
  · trivial
  · exact hk _

theorem Core.withPair_wf (w : Word) {k : Int → Effect} (hk : ∀ a, (k a).Wf) : (c.withPair w k).Wf := by
  unfold Core.withPair
  repeat' split
  · trivial
  · trivial
  · exact hk _
  · exact hk _

theorem Core.load_wf (w : Word) (n : Nat) (x : Bool) {k : Bytes → Effect} (hk : ∀ b, (k b).Wf) : (c.load w n x k).Wf := by
  unfold Core.load
  dsimp only
  repeat' split
  · trivial
  · trivial
  · exact hk _

theorem Core.store_wf (h : c.Wf) (w : Word) (v : Bytes) (x : Bool) : (c.store w v x).Wf := by
  unfold Core.store
  dsimp only
  split
  · trivial
  · split
    · exact startCall_wf h _ _
    · refine goOn_wf ?_ _
      split
      · exact (setBytes_wf h _ _).keep rfl rfl rfl rfl rfl rfl rfl
      · exact setBytes_wf h _ _

theorem Core.putX_wf (h : c.Wf) (w v : Word) (n : Nat) : (c.putX w v n).Wf := goOn_wf (flagsOfWord_wf (setX_wf h _ _) _) _
theorem Core.compareX_wf (h : c.Wf) (a b : Word) : (c.compareX a b).Wf := goOn_wf (flagsCompare_wf (putFlag_wf h _ _) _ _) _

theorem alDadd_wf (h : c.Wf) (w : Word) : (alDadd c w).Wf := Core.withTwo_wf w (fun _ _ => Core.putWord_wf h _ _ _)

theorem alDsub_wf (h : c.Wf) (w : Word) : (alDsub c w).Wf := Core.withTwo_wf w (fun _ _ => Core.putWord_wf h _ _ _)

theorem alDcmp_wf (h : c.Wf) (w : Word) : (alDcmp c w).Wf :=
  Core.withTwo_wf w (fun _ _ => Core.goOn_wf (Core.flagsCompare_wf h _ _) _)

theorem alDmul_wf (h : c.Wf) (w : Word) : (alDmul c w).Wf :=
  Core.withTwo_wf w (fun _ _ => Core.goOn_wf (Core.flagsOf_wf (Core.setD_wf (Core.setD_wf h _ _) _ _) _) _)

theorem alDdiv_wf (h : c.Wf) (w : Word) : (alDdiv c w).Wf := by
  refine Core.withPair_wf w (fun a => ?_)
  dsimp only
  split
  · trivial
  · split
    · exact Core.overflow_wf h _
    · exact Core.goOn_wf (Core.putFlag_wf (Core.flagsOf_wf (Core.setD_wf (Core.setD_wf h _ _) _ _) _) _ _) _

theorem alDrnd_wf (h : c.Wf) (w : Word) : (alDrnd c w).Wf := by
  refine Core.withPair_wf w (fun a => ?_)
  dsimp only
  split
  · exact Core.overflow_wf h _
  · exact Core.putWord_wf (Core.putFlag_wf h _ _) _ _ _

theorem alDshf_wf (h : c.Wf) (w : Word) : (alDshf c w).Wf := by
  refine Core.withOne_wf w (fun a => ?_)
  dsimp only
  split
  · exact Core.overflow_wf h _
  · exact Core.putWord_wf (Core.putFlag_wf h _ _) _ _ _

theorem alDneg_wf (h : c.Wf) (w : Word) : (alDneg c w).Wf := Core.withOne_wf w (fun _ => Core.putPlain_wf h _ _)

theorem alDabs_wf (h : c.Wf) (w : Word) : (alDabs c w).Wf := Core.withOne_wf w (fun _ => Core.putPlain_wf h _ _)

theorem alDmov_wf (h : c.Wf) (w : Word) : (alDmov c w).Wf := Core.goOn_wf (Core.setD_wf h _ _) _

theorem alDnrm_wf (h : c.Wf) (w : Word) : (alDnrm c w).Wf := Core.withOne_wf w (fun _ => Core.putPlain_wf h _ _)

theorem alDval_wf (h : c.Wf) (w : Word) : (alDval c w).Wf := Core.goOn_wf (Core.putFlag_wf h _ _) _

theorem alDtst_wf (h : c.Wf) (w : Word) : (alDtst c w).Wf :=
  Core.withOne_wf w (fun _ => Core.goOn_wf (Core.flagsOf_wf h _) _)

theorem alDcvb_wf (h : c.Wf) (w : Word) : (alDcvb c w).Wf := by
  refine Core.withOne_wf w (fun a => ?_)
  dsimp only
  have hp : ∀ {d : Core}, d.Wf → (((d.flagsOf (toInt a)).putFlag flagV false).goOn 4).Wf :=
    fun hd => Core.goOn_wf (Core.putFlag_wf (Core.flagsOf_wf hd _) _ _) _
  split
  · exact hp (Core.setXGroup_wf h _ _ _)
  · split
    · exact Core.overflow_wf h _
    · exact hp (Core.setXGroup_wf h _ _ _)

theorem alDcvd_wf (h : c.Wf) (w : Word) : (alDcvd c w).Wf := Core.putWord_wf h _ _ _

theorem alDli_wf (h : c.Wf) (w : Word) : (alDli c w).Wf := Core.putPlain_wf h _ _

theorem alDaddi_wf (h : c.Wf) (w : Word) : (alDaddi c w).Wf := Core.withOne_wf w (fun _ => Core.putWord_wf h _ _ _)

theorem alDcmpi_wf (h : c.Wf) (w : Word) : (alDcmpi c w).Wf :=
  Core.withOne_wf w (fun _ => Core.goOn_wf (Core.flagsCompare_wf h _ _) _)

theorem alDget_wf (h : c.Wf) (w : Word) : (alDget c w).Wf := Core.goOn_wf (Core.setX_wf h _ _) _

theorem alDput_wf (h : c.Wf) (w : Word) : (alDput c w).Wf := Core.goOn_wf (Core.setD_wf h _ _) _

theorem alDsel_wf (h : c.Wf) (w : Word) : (alDsel c w).Wf := Core.goOn_wf (Core.setD_wf h _ _) _

theorem alLdd_wf (h : c.Wf) (w : Word) : (alLdd c w).Wf :=
  Core.load_wf w _ _ (fun _ => Core.goOn_wf (Core.setD_wf h _ _) _)

theorem alStd_wf (h : c.Wf) (w : Word) : (alStd c w).Wf := Core.store_wf h w _ _

theorem alLdx_wf (h : c.Wf) (w : Word) : (alLdx c w).Wf :=
  Core.load_wf w _ _ (fun _ => Core.goOn_wf (Core.setX_wf h _ _) _)

theorem alStx_wf (h : c.Wf) (w : Word) : (alStx c w).Wf := Core.store_wf h w _ _

theorem alLdh_wf (h : c.Wf) (w : Word) : (alLdh c w).Wf :=
  Core.load_wf w _ _ (fun _ => Core.goOn_wf (Core.setX_wf h _ _) _)

theorem alSth_wf (h : c.Wf) (w : Word) : (alSth c w).Wf := Core.store_wf h w _ _

theorem alLdb_wf (h : c.Wf) (w : Word) : (alLdb c w).Wf :=
  Core.load_wf w _ _ (fun _ => Core.goOn_wf (Core.setX_wf h _ _) _)

theorem alStb_wf (h : c.Wf) (w : Word) : (alStb c w).Wf := Core.store_wf h w _ _

theorem alXadd_wf (h : c.Wf) (w : Word) : (alXadd c w).Wf := Core.putX_wf (Core.putFlag_wf h _ _) _ _ _

theorem alXsub_wf (h : c.Wf) (w : Word) : (alXsub c w).Wf := Core.putX_wf (Core.putFlag_wf h _ _) _ _ _

theorem alXand_wf (h : c.Wf) (w : Word) : (alXand c w).Wf := Core.putX_wf h _ _ _

theorem alXor_wf (h : c.Wf) (w : Word) : (alXor c w).Wf := Core.putX_wf h _ _ _

theorem alXxor_wf (h : c.Wf) (w : Word) : (alXxor c w).Wf := Core.putX_wf h _ _ _

theorem alXshl_wf (h : c.Wf) (w : Word) : (alXshl c w).Wf := Core.putX_wf h _ _ _

theorem alXshr_wf (h : c.Wf) (w : Word) : (alXshr c w).Wf := Core.putX_wf h _ _ _

theorem alXsar_wf (h : c.Wf) (w : Word) : (alXsar c w).Wf := Core.putX_wf h _ _ _

theorem alXmul_wf (h : c.Wf) (w : Word) : (alXmul c w).Wf := Core.putX_wf h _ _ _

theorem alXcmp_wf (h : c.Wf) (w : Word) : (alXcmp c w).Wf := Core.compareX_wf h _ _

theorem alXaddi_wf (h : c.Wf) (w : Word) : (alXaddi c w).Wf := Core.putX_wf (Core.putFlag_wf h _ _) _ _ _

theorem alXli_wf (h : c.Wf) (w : Word) : (alXli c w).Wf := Core.goOn_wf (Core.setX_wf h _ _) _

theorem alXlui_wf (h : c.Wf) (w : Word) : (alXlui c w).Wf := Core.goOn_wf (Core.setX_wf h _ _) _

theorem alXori_wf (h : c.Wf) (w : Word) : (alXori c w).Wf := Core.putX_wf h _ _ _

theorem alXandi_wf (h : c.Wf) (w : Word) : (alXandi c w).Wf := Core.putX_wf h _ _ _

theorem alXcmpi_wf (h : c.Wf) (w : Word) : (alXcmpi c w).Wf := Core.compareX_wf h _ _

theorem alB_wf (h : c.Wf) (w : Word) : (alB c w).Wf := by
  unfold alB
  split
  · exact h.keep rfl rfl rfl rfl rfl rfl rfl
  · exact Core.goOn_wf h _

theorem alBl_wf (h : c.Wf) (w : Word) : (alBl c w).Wf := (Core.setX_wf h _ _).keep rfl rfl rfl rfl rfl rfl rfl

theorem alBr_wf (h : c.Wf) (w : Word) : (alBr c w).Wf := by
  unfold alBr
  split
  · trivial
  · exact h.keep rfl rfl rfl rfl rfl rfl rfl

theorem alDbnz_wf (h : c.Wf) (w : Word) : (alDbnz c w).Wf := by
  unfold alDbnz
  dsimp only
  split
  · exact Core.goOn_wf (Core.setX_wf h _ _) _
  · exact (Core.setX_wf h _ _).keep rfl rfl rfl rfl rfl rfl rfl

theorem alNop_wf (h : c.Wf) (w : Word) : (alNop c w).Wf := Core.goOn_wf h _

theorem alSvc_wf (h : c.Wf) (w : Word) : (alSvc c w).Wf := Core.startCall_wf h _ _

theorem alTrap_wf (w : Word) : (alTrap c w).Wf := trivial

theorem alSetm_wf (h : c.Wf) (w : Word) : (alSetm c w).Wf := Core.goOn_wf (Core.putFlag_wf h _ _) _

theorem alMff_wf (h : c.Wf) (w : Word) : (alMff c w).Wf := Core.goOn_wf (Core.setX_wf h _ _) _

theorem alMtf_wf (h : c.Wf) (w : Word) : (alMtf c w).Wf := by
  unfold alMtf
  refine Core.goOn_wf ?_ _
  exact h.keep rfl rfl rfl rfl rfl rfl rfl

/-- What an instruction leaves of its core. -/
theorem Core.after_wf (h : c.Wf) {e : Effect} (he : e.Wf) (w : Word) : (c.after e w).Wf := by
  unfold Core.after
  split
  · exact Core.Wf.keep he rfl rfl rfl rfl rfl rfl rfl
  · unfold Core.raise
    dsimp only
    split
    · exact (Core.putFlag_wf h flagV true).keep rfl rfl rfl rfl rfl rfl rfl
    · exact h.keep rfl rfl rfl rfl rfl rfl rfl

theorem Core.execute_wf {op : Nat} {body : Core → Word → Effect} (hb : ∀ w, (body c w).Wf) {e : Effect} {w : Word}
    (he : c.execute op body = some (e, w)) : e.Wf := by
  unfold Core.execute at he
  dsimp only at he
  repeat' split at he
  all_goals first | cases he | skip
  all_goals first | trivial | exact hb _

theorem Core.loaded_wf (h : c.Wf) (v : Invocation) (image mailbox : Bytes) (m : CoreMode) :
    (c.load_ v image mailbox m).Wf :=
  ⟨twf_memWrite _ _ (twf_nil _), twf_memWrite _ _ (twf_nil _), twf_memWrite _ _ (twf_nil _), h.res, h.arg, by simp [load_],
    by simp [load_]⟩

theorem Core.endCall_wf (h : c.Wf) (n : Nat) (st : Word) (res : Bytes) : (c.endCall n st res).Wf := by
  have h1 : ((c.svcWrites st res).foldl (fun c o => c.setBytes o.1 o.2) c).Wf := by
    generalize c.svcWrites st res = l
    revert c
    induction l with
    | nil => exact fun h => h
    | cons o l ih => exact fun h => ih (Core.setBytes_wf h _ _)
  have hr : Twf 0 (c.svcRes n res) := by
    unfold Core.svcRes
    split
    · exact h.res
    · exact twf_memWrite _ _ (twf_nil _)
  unfold Core.endCall
  dsimp only
  split
  · have h2 := Core.putFlag_wf h1 flagZ (st.toNat % 256 == 0)
    exact ⟨h2.code, h2.data, h2.mail, hr, h2.arg, h2.d, h2.x⟩
  · exact ⟨h1.code, h1.data, h1.mail, hr, h1.arg, h1.d, h1.x⟩

end Sys2Proof.Machine
end

