-- ==== Sys2Proof/Laws/Keeps.lean ====
section
/-! SUPPORT. The relation `Keeps s t`: `t` comes after `s` and keeps what `s` keeps. It is reflexive and transitive;
every operation of the machine stands in it (the files Laws/Keeps….lean). -/

namespace Sys2Proof.Machine
open Sys2Proof

set_option Elab.async false

/-- The books, and the book records of HEADS, are in canonical form. -/
abbrev BooksWf (s : State) : Prop :=
  Twf Book.reset s.books ∧ Twf Book.reset s.nv.bookRecs ∧ Twf Book.reset s.nv.saved

/-- `t` comes after `s`: the queue is untouched, output is only added, serial numbers and draws go on, the life cycle
goes on, and each part of `Inv` that holds of `s` holds of `t`. -/
structure Keeps (s t : State) : Prop where
  queue : t.pending = s.pending
  sent : Sent s t
  serial : s.nextId ≤ t.nextId
  draws : s.draws ≤ t.draws
  life : LifeGoesOn s t
  incarn : s.brine.incarnCtr ≤ t.brine.incarnCtr
  mpus : s.mpus.length = 45 → t.mpus.length = 45
  rng : s.rng.Bounded → t.rng.Bounded
  brine : s.brine.entries.length ≤ 1024 → t.brine.entries.length ≤ 1024
  wbuf : s.nv.wbuf.length ≤ 64 → t.nv.wbuf.length ≤ 64
  cores : CoresWf s.applets.cores → CoresWf t.applets.cores
  sq : Twf Sq.reset s.sq → Twf Sq.reset t.sq
  cq : Twf Cq.reset s.cq → Twf Cq.reset t.cq
  slices : Twf Slice.reset s.slices → Twf Slice.reset t.slices
  books : BooksWf s → BooksWf t
  msix : Twf Vector.reset s.msix → Twf Vector.reset t.msix

theorem Sent.refl (s : State) : Sent s s := ⟨[], (List.append_nil _).symm⟩

theorem Keeps.refl (s : State) : Keeps s s :=
  ⟨rfl, Sent.refl s, le_rfl, le_rfl, ⟨id, id⟩, le_rfl, id, id, id, id, id, id, id, id, id, id⟩

theorem Keeps.trans {a b c : State} (h : Keeps a b) (k : Keeps b c) : Keeps a c where
  queue := k.queue.trans h.queue
  sent := by
    obtain ⟨x, hx⟩ := h.sent
    obtain ⟨y, hy⟩ := k.sent
    exact ⟨x ++ y, by rw [hy, hx, List.append_assoc]⟩
  serial := h.serial.trans k.serial
  draws := h.draws.trans k.draws
  life := ⟨k.life.1 ∘ h.life.1, h.life.2 ∘ k.life.2⟩
  incarn := h.incarn.trans k.incarn
  mpus := k.mpus ∘ h.mpus
  rng := k.rng ∘ h.rng
  brine := k.brine ∘ h.brine
  wbuf := k.wbuf ∘ h.wbuf
  cores := k.cores ∘ h.cores
  sq := k.sq ∘ h.sq
  cq := k.cq ∘ h.cq
  slices := k.slices ∘ h.slices
  books := k.books ∘ h.books
  msix := k.msix ∘ h.msix

/-- The invariant goes along. -/
theorem Keeps.inv {s t : State} (h : Keeps s t) (i : Inv s) : Inv t :=
  ⟨h.mpus i.mpus, h.rng i.rng, h.brine i.brine, h.wbuf i.wbuf, h.cores i.cores, h.sq i.sq, h.cq i.cq,
    h.slices i.slices, (h.books ⟨i.books, i.recs⟩).1, h.msix i.msix, (h.books ⟨i.books, i.recs⟩).2⟩

/-- A record update of a state that keeps. -/
theorem Keeps.upd {s0 s : State} {o : List Out} {n d : Nat} {wk : List Work} {rd : List Read} {sq : Table Sq}
    {cq : Table Cq} {sl : Table Slice} {bk : Table Book} {mp : List Mpu} {ms : Table Vector} {li : Link} {hr : HostRegs}
    {lo : Logs} {sc : Sched} {pa : Pan} {br : Brine} {ap : Applets} {ke : KeyStore} {cr : Crypto} {rn : Rng} {nv : Nv}
    {ta : Tamper} {cl : Contactless} {pw : Power} {te : Telemetry} (h : Keeps s0 s)
    (h1 : ∃ more, o = s.out ++ more := by
      first | exact ⟨[], (List.append_nil _).symm⟩ | exact ⟨_, rfl⟩)
    (h2 : s.nextId ≤ n := by first | exact Nat.le_refl _ | exact Nat.le_add_right _ _)
    (h3 : s.draws ≤ d := by first | exact Nat.le_refl _ | exact Nat.le_add_right _ _)
    (h4 : (s.tamper.state = .spent → ta.state = .spent) ∧ (ta.state = .blank → s.tamper.state = .blank) := by
      exact ⟨fun h => h, fun h => h⟩)
    (h5 : s.brine.incarnCtr ≤ br.incarnCtr := by first | exact Nat.le_refl _ | exact Nat.le_add_right _ _)
    (h6 : s.mpus.length = 45 → mp.length = 45 := by exact fun h => h)
    (h7 : s.rng.Bounded → rn.Bounded := by
      first
        | exact fun h => h
        | exact fun h => ⟨
            by first
              | exact h.pool
              | exact (List.length_nil (α := _)).le.trans (Nat.zero_le _)
              | (simp only [List.length_drop]; omega),
            by first
              | exact h.fifo
              | exact (List.length_nil (α := _)).le.trans (Nat.zero_le _)
              | exact List.length_take_le _ _
              | (rw [List.length_drop]; exact (Nat.sub_le _ _).trans h.fifo),
            by first
              | exact h.buf
              | exact (List.length_nil (α := _)).le.trans (Nat.zero_le _)
              | exact List.length_take_le _ _
              | (rw [List.length_drop]; exact (Nat.sub_le _ _).trans h.buf),
            by first
              | exact h.fw
              | exact (List.length_nil (α := _)).le.trans (Nat.zero_le _)
              | exact List.length_take_le _ _
              | (rw [List.length_drop]; exact (Nat.sub_le _ _).trans h.fw),
            by first
              | exact h.undo
              | exact fun _ hu => absurd hu (Option.not_mem_none _)
              | (intro _ hu; have e := Option.mem_some_iff.mp hu; subst e; exact h.pool)⟩)
    (h8 : s.brine.entries.length ≤ 1024 → br.entries.length ≤ 1024 := by
      first
        | exact fun h => h
        | exact fun h => (List.length_filter_le _ _).trans h
        | exact fun h => (Nat.le_of_eq (List.length_map _)).trans h)
    (h9 : s.nv.wbuf.length ≤ 64 → nv.wbuf.length ≤ 64 := by
      first
        | exact fun h => h
        | exact fun h => (List.length_filter_le _ _).trans h
        | exact fun h => (Nat.le_of_eq (List.length_map _)).trans h
        | exact fun _ => List.length_take_le _ _)
    (h10 : CoresWf s.applets.cores → CoresWf ap.cores := by first | exact fun h => h | exact fun _ _ h => nomatch h)
    (h11 : Twf Sq.reset s.sq → Twf Sq.reset sq := by
      first | exact fun h => h | exact twf_tput _ _ | exact twf_filter _ | exact fun _ => twf_nil _)
    (h12 : Twf Cq.reset s.cq → Twf Cq.reset cq := by
      first | exact fun h => h | exact twf_tput _ _ | exact twf_filter _ | exact fun _ => twf_nil _)
    (h13 : Twf Slice.reset s.slices → Twf Slice.reset sl := by
      first | exact fun h => h | exact twf_tput _ _ | exact twf_tmap _)
    (h14 : BooksWf s → Twf Book.reset bk := by first | exact fun h => h.1 | exact fun h => twf_tput _ _ h.1)
    (h15 : Twf Vector.reset s.msix → Twf Vector.reset ms := by
      first | exact fun h => h | exact twf_tput _ _ | exact fun _ => twf_nil _)
    (h16 : BooksWf s → Twf Book.reset nv.bookRecs ∧ Twf Book.reset nv.saved := by
      first | exact fun h => h.2 | exact fun h => ⟨twf_tput _ _ h.2.1, h.2.2⟩) :
    Keeps s0 ⟨s.pending, o, n, d, wk, rd, sq, cq, sl, bk, mp, ms, li, hr, lo, sc, pa, br, ap, ke, cr, rn, nv, ta, cl,
      pw, te⟩ :=
  h.trans ⟨rfl, h1, h2, h3, h4, h5, h6, h7, h8, h9, h10, h11, h12, h13, fun k => ⟨h14 k, h16 k⟩, h15⟩

/-- A record update of parts that `Keeps` says nothing about. -/
theorem Keeps.plain {s0 s : State} {wk : List Work} {rd : List Read} {li : Link} {hr : HostRegs} {lo : Logs} {sc : Sched}
    {pa : Pan} {ke : KeyStore} {cr : Crypto} {cl : Contactless} {pw : Power} {te : Telemetry} (h : Keeps s0 s) :
    Keeps s0 ⟨s.pending, s.out, s.nextId, s.draws, wk, rd, s.sq, s.cq, s.slices, s.books, s.mpus, s.msix, li, hr, lo,
      sc, pa, s.brine, s.applets, ke, cr, s.rng, s.nv, s.tamper, cl, pw, te⟩ :=
  h.trans ⟨rfl, Sent.refl s, le_rfl, le_rfl, ⟨id, id⟩, le_rfl, id, id, id, id, id, id, id, id, id, id⟩

/-- The works that wait for a commit of the write buffer are listed anew. -/
theorem Keeps.plainNv {s0 s : State} {l : List (Nat × Nat)} (h : Keeps s0 s) :
    Keeps s0 { s with nv := { s.nv with commitWaits := l } } := h.upd

theorem Keeps.fst {α : Type} {s0 t : State} {p : State × α} {a : α} (h : Keeps s0 p.1) (e : p = (t, a)) : Keeps s0 t := by
  subst e
  exact h

theorem Keeps.snd {α : Type} {s0 t : State} {p : α × State} {a : α} (h : Keeps s0 p.2) (e : p = (a, t)) : Keeps s0 t := by
  subst e
  exact h

theorem Keeps.ite {s0 a b : State} {c : Prop} [Decidable c] (ha : Keeps s0 a) (hb : Keeps s0 b) :
    Keeps s0 (if c then a else b) := by
  split <;> assumption

theorem Keeps.foldl {α : Type} {s0 s : State} {f : State → α → State} {l : List α} (h : Keeps s0 s)
    (hf : ∀ t x, Keeps s0 t → Keeps s0 (f t x)) : Keeps s0 (l.foldl f s) := by
  induction l generalizing s with
  | nil => exact h
  | cons x l ih => exact ih (hf s x h)

/-- A fold over something that holds a state. -/
theorem Keeps.foldlOn {α β : Type} (st : β → State) {s0 : State} {b : β} {f : β → α → β} {l : List α}
    (h : Keeps s0 (st b)) (hf : ∀ b x, Keeps s0 (st b) → Keeps s0 (st (f b x))) : Keeps s0 (st (l.foldl f b)) := by
  induction l generalizing b with
  | nil => exact h
  | cons x l ih => exact ih (hf b x h)

/-- An outcome that keeps. -/
def KeepsO (s0 : State) (o : Host.Outcome State Fault Refusal) : Prop := ∀ t, o = .next t → Keeps s0 t

theorem KeepsO.next {s0 t : State} (h : Keeps s0 t) : KeepsO s0 (.next t) := by
  intro u hu
  cases hu
  exact h

theorem KeepsO.ite {s0 : State} {a b : Host.Outcome State Fault Refusal} {c : Prop} [Decidable c] (ha : KeepsO s0 a)
    (hb : KeepsO s0 b) : KeepsO s0 (if c then a else b) := by
  split <;> assumption

/-- An optional state that keeps. -/
def KeepsOpt (s0 : State) (o : Option State) : Prop := ∀ t, o = some t → Keeps s0 t

theorem KeepsOpt.some {s0 t : State} (h : Keeps s0 t) : KeepsOpt s0 (some t) := by
  intro u hu
  cases hu
  exact h

theorem KeepsOpt.none {s0 : State} : KeepsOpt s0 none := by
  intro u hu
  cases hu

end Sys2Proof.Machine
end

