-- ==== Sys2Proof/Laws/KeepsOps.lean ====
section
/-! SUPPORT. The operations of Machine/Ops.lean keep what `Keeps` says. -/

namespace Sys2Proof.Machine
open Sys2Proof

set_option Elab.async false

theorem State.setSq_keeps {s0 : State} (s : State) (r : Nat) (v : Sq) (h : Keeps s0 s) :
    Keeps s0 (State.setSq s r v) := by
  unfold State.setSq
  repeat' first
    | with_reducible assumption
    | with_reducible refine Keeps.upd ?_

theorem State.modSq_keeps {s0 : State} (s : State) (r : Nat) (f : Sq → Sq) (h : Keeps s0 s) :
    Keeps s0 (State.modSq s r f) := by
  unfold State.modSq
  repeat' first
    | with_reducible assumption
    | with_reducible apply State.setSq_keeps

theorem State.setCq_keeps {s0 : State} (s : State) (c : Nat) (v : Cq) (h : Keeps s0 s) :
    Keeps s0 (State.setCq s c v) := by
  unfold State.setCq
  repeat' first
    | with_reducible assumption
    | with_reducible refine Keeps.upd ?_

theorem State.modCq_keeps {s0 : State} (s : State) (c : Nat) (f : Cq → Cq) (h : Keeps s0 s) :
    Keeps s0 (State.modCq s c f) := by
  unfold State.modCq
  repeat' first
    | with_reducible assumption
    | with_reducible apply State.setCq_keeps

theorem State.setSlice_keeps {s0 : State} (s : State) (n : Nat) (v : Slice) (h : Keeps s0 s) :
    Keeps s0 (State.setSlice s n v) := by
  unfold State.setSlice
  repeat' first
    | with_reducible assumption
    | with_reducible refine Keeps.upd ?_

theorem State.modSlice_keeps {s0 : State} (s : State) (n : Nat) (f : Slice → Slice) (h : Keeps s0 s) :
    Keeps s0 (State.modSlice s n f) := by
  unfold State.modSlice
  repeat' first
    | with_reducible assumption
    | with_reducible apply State.setSlice_keeps

theorem State.setBook_keeps {s0 : State} (s : State) (b : Nat) (v : Book) (h : Keeps s0 s) :
    Keeps s0 (State.setBook s b v) := by
  unfold State.setBook
  repeat' first
    | with_reducible assumption
    | with_reducible refine Keeps.upd ?_

theorem State.modBook_keeps {s0 : State} (s : State) (b : Nat) (f : Book → Book) (h : Keeps s0 s) :
    Keeps s0 (State.modBook s b f) := by
  unfold State.modBook
  repeat' first
    | with_reducible assumption
    | with_reducible apply State.setBook_keeps

theorem State.setVector_keeps {s0 : State} (s : State) (v : Nat) (e : Vector) (h : Keeps s0 s) :
    Keeps s0 (State.setVector s v e) := by
  unfold State.setVector
  repeat' first
    | with_reducible assumption
    | with_reducible refine Keeps.upd ?_

theorem State.setMpu_keeps {s0 : State} (s : State) (m : Nat) (v : Mpu) (h : Keeps s0 s) :
    Keeps s0 (s.setMpu m v) := by
  unfold State.setMpu
  exact h.upd (h6 := by simp)

theorem State.modMpu_keeps {s0 : State} (s : State) (m : Nat) (f : Mpu → Mpu) (h : Keeps s0 s) :
    Keeps s0 (State.modMpu s m f) := by
  unfold State.modMpu
  repeat' first
    | with_reducible assumption
    | with_reducible apply State.setMpu_keeps

/-- A core whose memories are canonical is put in place. -/
theorem State.setCore_keeps {s0 : State} (s : State) (c : Nat) (v : Core) (h : Keeps s0 s)
    (hv : CoresWf s.applets.cores → v.Wf) : Keeps s0 (s.setCore c v) := by
  unfold State.setCore
  refine h.upd (h10 := fun k e he => ?_)
  rcases mem_tput he with rfl | he
  · exact hv k
  · exact k e he

/-- A core is changed by a function that keeps its memories canonical. -/
theorem State.modCore_keeps {s0 : State} (s : State) (c : Nat) (f : Core → Core) (h : Keeps s0 s)
    (hf : ∀ c : Core, c.Wf → (f c).Wf) : Keeps s0 (s.modCore c f) :=
  State.setCore_keeps s c _ h (fun k => hf _ (State.coreAt_wf k c))

theorem State.setAllow_keeps {s0 : State} (s : State) (e : Nat) (v : Allow) (h : Keeps s0 s) :
    Keeps s0 (State.setAllow s e v) := by
  unfold State.setAllow
  try dsimp only
  repeat' first
    | with_reducible assumption
    | with_reducible refine Keeps.upd ?_

theorem State.setSlot_keeps {s0 : State} (s : State) (target : Nat) (index : Nat) (v : Slot) (h : Keeps s0 s) :
    Keeps s0 (State.setSlot s target index v) := by
  unfold State.setSlot
  try dsimp only
  repeat' first
    | with_reducible assumption
    | with_reducible apply Keeps.ite
    | with_reducible refine Keeps.plain ?_

theorem State.modSlot_keeps {s0 : State} (s : State) (target : Nat) (index : Nat) (f : Slot → Slot) (h : Keeps s0 s) :
    Keeps s0 (State.modSlot s target index f) := by
  unfold State.modSlot
  repeat' first
    | with_reducible assumption
    | with_reducible apply State.setSlot_keeps

theorem State.setSession_keeps {s0 : State} (s : State) (hh : Nat) (v : Session) (h : Keeps s0 s) :
    Keeps s0 (State.setSession s hh v) := by
  unfold State.setSession
  try dsimp only
  repeat' first
    | with_reducible assumption
    | with_reducible refine Keeps.plain ?_

theorem State.modSession_keeps {s0 : State} (s : State) (hh : Nat) (f : Session → Session) (h : Keeps s0 s) :
    Keeps s0 (State.modSession s hh f) := by
  unfold State.modSession
  repeat' first
    | with_reducible assumption
    | with_reducible apply State.setSession_keeps

theorem State.setAuth_keeps {s0 : State} (s : State) (e : Nat) (v : Authority) (h : Keeps s0 s) :
    Keeps s0 (State.setAuth s e v) := by
  unfold State.setAuth
  try dsimp only
  repeat' first
    | with_reducible assumption
    | with_reducible refine Keeps.plain ?_

theorem State.setFamily_keeps {s0 : State} (s : State) (f : Nat) (v : Nat) (h : Keeps s0 s) :
    Keeps s0 (State.setFamily s f v) := by
  unfold State.setFamily
  try dsimp only
  repeat' first
    | with_reducible assumption
    | with_reducible refine Keeps.plain ?_

theorem State.setPart_keeps {s0 : State} (s : State) (p : Nat) (v : UserPart) (h : Keeps s0 s) :
    Keeps s0 (State.setPart s p v) := by
  unfold State.setPart
  try dsimp only
  repeat' first
    | with_reducible assumption
    | with_reducible refine Keeps.upd ?_

theorem State.modPart_keeps {s0 : State} (s : State) (p : Nat) (f : UserPart → UserPart) (h : Keeps s0 s) :
    Keeps s0 (State.modPart s p f) := by
  unfold State.modPart
  repeat' first
    | with_reducible assumption
    | with_reducible apply State.setPart_keeps

theorem State.setCounter_keeps {s0 : State} (s : State) (n : Nat) (v : Counter) (h : Keeps s0 s) :
    Keeps s0 (State.setCounter s n v) := by
  unfold State.setCounter
  try dsimp only
  repeat' first
    | with_reducible assumption
    | with_reducible refine Keeps.upd ?_

theorem State.modCounter_keeps {s0 : State} (s : State) (n : Nat) (f : Counter → Counter) (h : Keeps s0 s) :
    Keeps s0 (State.modCounter s n f) := by
  unfold State.modCounter
  repeat' first
    | with_reducible assumption
    | with_reducible apply State.setCounter_keeps

theorem State.setBn_keeps {s0 : State} (s : State) (e : Nat) (v : BnEngine) (h : Keeps s0 s) :
    Keeps s0 (State.setBn s e v) := by
  unfold State.setBn
  try dsimp only
  repeat' first
    | with_reducible assumption
    | with_reducible refine Keeps.plain ?_

theorem State.setSource_keeps {s0 : State} (s : State) (k : Nat) (v : Source) (h : Keeps s0 s) :
    Keeps s0 (State.setSource s k v) := by
  unfold State.setSource
  try dsimp only
  repeat' first
    | with_reducible assumption
    | with_reducible refine Keeps.upd ?_

theorem State.plog_keeps {s0 : State} (s : State) (e : PEvent) (h : Keeps s0 s) :
    Keeps s0 (State.plog s e) := by
  unfold State.plog
  try dsimp only
  repeat' first
    | with_reducible assumption
    | with_reducible refine Keeps.plain ?_

theorem State.plogEvent_keeps {s0 : State} (s : State) (unit : Nat) (event : Nat) (check : Nat) (slice : Nat) (ring :
      Nat) (detail : Nat) (h : Keeps s0 s) :
    Keeps s0 (State.plogEvent s unit event check slice ring detail) := by
  unfold State.plogEvent
  repeat' first
    | with_reducible assumption
    | with_reducible apply State.plog_keeps

theorem State.plogReg_keeps {s0 : State} (s : State) (unit : Nat) (err : Nat) (slice : Nat) (offset : Nat) (h : Keeps
      s0 s) :
    Keeps s0 (State.plogReg s unit err slice offset) := by
  unfold State.plogReg
  repeat' first
    | with_reducible assumption
    | with_reducible apply State.plogEvent_keeps

theorem State.plogWork_keeps {s0 : State} (s : State) (w : Work) (event : Nat) (check : Nat) (st : Status) (detail :
      Nat) (h : Keeps s0 s) :
    Keeps s0 (State.plogWork s w event check st detail) := by
  unfold State.plogWork
  repeat' first
    | with_reducible assumption
    | with_reducible apply State.plog_keeps

theorem State.tlogEvent_keeps {s0 : State} (s : State) (unit : Nat) (level : Nat) (source : Nat) (action : Nat) (loc
      : Nat) (slice : Nat) (detail : Nat) (h : Keeps s0 s) :
    Keeps s0 (State.tlogEvent s unit level source action loc slice detail) := by
  unfold State.tlogEvent
  try dsimp only
  repeat' first
    | with_reducible assumption
    | with_reducible refine Keeps.plain ?_

theorem State.level1_keeps {s0 : State} (s : State) (unit : Nat) (source : Nat) (loc : Nat) (slice : Nat) (detail :
      Nat) (h : Keeps s0 s) :
    Keeps s0 (State.level1 s unit source loc slice detail) := by
  unfold State.level1
  try dsimp only
  repeat' first
    | with_reducible assumption
    | with_reducible apply State.tlogEvent_keeps
    | with_reducible apply Keeps.ite
    | with_reducible refine Keeps.upd ?_

theorem State.uncorrectable_keeps {s0 : State} (s : State) (unit : Nat) (code : Nat) (slice : Nat) (detail : Nat) (h
      : Keeps s0 s) :
    Keeps s0 (State.uncorrectable s unit code slice detail) := by
  unfold State.uncorrectable
  try dsimp only
  repeat' first
    | with_reducible assumption
    | with_reducible apply State.level1_keeps
    | with_reducible refine Keeps.plain ?_

theorem State.missTask_keeps {s0 : State} (s : State) (task : Nat) (h : Keeps s0 s) :
    Keeps s0 (State.missTask s task) := by
  unfold State.missTask
  try dsimp only
  repeat' first
    | with_reducible assumption
    | with_reducible apply State.level1_keeps
    | with_reducible apply State.plogEvent_keeps
    | with_reducible apply Keeps.ite
    | with_reducible refine Keeps.plain ?_

theorem State.setDeadline_keeps {s0 : State} (s : State) (task : Nat) (d : Nat) (h : Keeps s0 s) :
    Keeps s0 (State.setDeadline s task d) := by
  unfold State.setDeadline
  try dsimp only
  repeat' first
    | with_reducible assumption
    | with_reducible refine Keeps.plain ?_

theorem State.taskDone_keeps {s0 : State} (s : State) (task : Nat) (h : Keeps s0 s) :
    Keeps s0 (State.taskDone s task) := by
  unfold State.taskDone
  try dsimp only
  repeat' first
    | with_reducible assumption
    | with_reducible apply State.setDeadline_keeps
    | with_reducible apply Keeps.ite
    | with_reducible refine Keeps.plain ?_

theorem State.takeStep_keeps {s0 : State} (s : State) (u : UnitId) (h : Keeps s0 s) :
    Keeps s0 (State.takeStep s u) := by
  unfold State.takeStep
  try dsimp only
  repeat' first
    | with_reducible assumption
    | with_reducible refine Keeps.plain ?_

theorem State.stepOf_keeps {s0 : State} (s : State) (u : UnitId) (cls : Nat) (f : State → State) (h : Keeps s0
      s) (hf : ∀ y0, Keeps s0 y0 → Keeps s0 (f y0)) :
    Keeps s0 (State.stepOf s u cls f) := by
  unfold State.stepOf
  try dsimp only
  repeat' first
    | with_reducible assumption
    | with_reducible apply State.takeStep_keeps
    | with_reducible apply hf
    | with_reducible apply Keeps.ite

theorem State.servedSlice_keeps {s0 : State} (s : State) (u : UnitId) (slice : Nat) (h : Keeps s0 s) :
    Keeps s0 (State.servedSlice s u slice) := by
  unfold State.servedSlice
  try dsimp only
  repeat' first
    | with_reducible assumption
    | with_reducible refine Keeps.plain ?_

theorem State.drawn_keeps {s0 : State} (s : State) (h : Keeps s0 s) :
    Keeps s0 (State.drawn s) := by
  unfold State.drawn
  repeat' first
    | with_reducible assumption
    | with_reducible refine Keeps.upd ?_

theorem State.modWork_keeps {s0 : State} (s : State) (id : Nat) (f : Work → Work) (h : Keeps s0 s) :
    Keeps s0 (State.modWork s id f) := by
  unfold State.modWork
  repeat' first
    | with_reducible assumption
    | with_reducible refine Keeps.plain ?_

theorem State.dropWork_keeps {s0 : State} (s : State) (id : Nat) (h : Keeps s0 s) :
    Keeps s0 (State.dropWork s id) := by
  unfold State.dropWork
  repeat' first
    | with_reducible assumption
    | with_reducible refine Keeps.plain ?_

theorem State.dropWorkIf_keeps {s0 : State} (s : State) (p : Work → Bool) (h : Keeps s0 s) :
    Keeps s0 (State.dropWorkIf s p) := by
  unfold State.dropWorkIf
  try dsimp only
  repeat' first
    | with_reducible assumption
    | with_reducible refine Keeps.plain ?_

theorem reexecAux_length (bad : List (Nat × Bool)) (l : List Entry) : (reexecAux bad l).1.length = l.length := by
  induction l generalizing bad with
  | nil => rfl
  | cons e t ih =>
    simp only [reexecAux]
    split <;> simp [ih]

theorem State.reexecute_keeps {s0 : State} (s : State) (bad : List (Nat × Bool)) (h : Keeps s0 s) :
    Keeps s0 (State.reexecute s bad) :=
  h.upd (h8 := fun k => (Nat.le_of_eq (reexecAux_length bad _)).trans k)

theorem State.standInK_keeps {s0 : State} (s : State) (book : Nat) (h : Keeps s0 s) :
    Keeps s0 (State.standInK s book) := by
  unfold State.standInK
  try dsimp only
  repeat' first
    | with_reducible assumption
    | with_reducible apply Keeps.ite
    | split
    | with_reducible refine Keeps.upd ?_

theorem State.dropEntries_keeps {s0 : State} (s : State) (p : Entry → Bool) (h : Keeps s0 s) :
    Keeps s0 (State.dropEntries s p) := by
  unfold State.dropEntries
  try dsimp only
  repeat' first
    | with_reducible assumption
    | with_reducible apply State.modBook_keeps
    | with_reducible apply State.reexecute_keeps
    | with_reducible apply Keeps.foldl
    | with_reducible refine Keeps.upd ?_
    | intro _

theorem State.countLate_keeps {s0 : State} (s : State) (slice : Nat) (conds : List Nat) (h : Keeps s0 s) :
    Keeps s0 (State.countLate s slice conds) := by
  unfold State.countLate
  repeat' first
    | with_reducible assumption
    | with_reducible apply State.modSlice_keeps
    | split

theorem State.answerCore_keeps {s0 : State} (s : State) (core : Nat) (status : Word) (res : Bytes) (h : Keeps s0 s) :
    Keeps s0 (State.answerCore s core status res) := by
  unfold State.answerCore
  repeat' first
    | with_reducible assumption
    | with_reducible apply State.modCore_keeps
    | intro (c : Core) (hc : Core.Wf c)
    | exact hc.keep rfl rfl rfl rfl rfl rfl rfl
    | split

theorem State.finishRaw_keeps {s0 : State} (s : State) (id : Nat) (st : Status) (res : Bytes) (h : Keeps s0 s) :
    Keeps s0 (State.finishRaw s id st res) := by
  unfold State.finishRaw
  try dsimp only
  repeat' first
    | with_reducible assumption
    | with_reducible apply State.answerCore_keeps
    | with_reducible apply State.countLate_keeps
    | with_reducible apply State.dropWork_keeps
    | with_reducible apply State.modWork_keeps
    | with_reducible apply Keeps.ite
    | split

theorem State.redecide_keeps {s0 : State} (s : State) (rank : Nat) (p : Work → Bool) (st : Status) (res : Bytes)
      (h : Keeps s0 s) :
    Keeps s0 (State.redecide s rank p st res) := by
  unfold State.redecide
  try dsimp only
  repeat' first
    | with_reducible assumption
    | with_reducible apply Keeps.ite
    | split
    | with_reducible refine Keeps.plain ?_

theorem State.refence_keeps {s0 : State} (s : State) (ring cause tag : Nat) (h : Keeps s0 s) :
    Keeps s0 (State.refence s ring cause tag) := by
  unfold State.refence
  try dsimp only
  repeat' first
    | with_reducible assumption
    | with_reducible apply State.modSq_keeps
    | with_reducible apply State.redecide_keeps
    | with_reducible apply Keeps.ite

theorem State.fenceRing_keeps {s0 : State} (s : State) (ring cause tag : Nat) (h : Keeps s0 s) :
    Keeps s0 (State.fenceRing s ring cause tag) := by
  unfold State.fenceRing
  try dsimp only
  repeat' first
    | with_reducible assumption
    | with_reducible apply State.dropEntries_keeps
    | with_reducible apply State.modSq_keeps
    | with_reducible apply State.refence_keeps
    | with_reducible apply Keeps.ite
    | split
    | with_reducible refine Keeps.plain ?_

theorem State.finish_keeps {s0 : State} (s : State) (id : Nat) (st : Status) (res : Bytes) (h : Keeps s0 s) :
    Keeps s0 (State.finish s id st res) := by
  unfold State.finish
  try dsimp only
  repeat' first
    | with_reducible assumption
    | with_reducible apply State.finishRaw_keeps
    | with_reducible apply State.fenceRing_keeps
    | with_reducible apply Keeps.ite
    | split

theorem State.flagFence_keeps {s0 : State} (s : State) (w : Work) (h : Keeps s0 s) :
    Keeps s0 (State.flagFence s w) := by
  unfold State.flagFence
  try dsimp only
  repeat' first
    | with_reducible assumption
    | with_reducible apply State.fenceRing_keeps
    | with_reducible apply State.modWork_keeps

theorem State.flagFences_keeps {s0 : State} (s : State) (h : Keeps s0 s) :
    Keeps s0 (State.flagFences s) := by
  unfold State.flagFences
  try dsimp only
  repeat' first
    | with_reducible assumption
    | with_reducible apply State.flagFence_keeps
    | with_reducible apply Keeps.foldl

theorem State.restatus_keeps {s0 : State} (s : State) (id : Nat) (st : Status) (h : Keeps s0 s) :
    Keeps s0 (State.restatus s id st) := by
  unfold State.restatus
  repeat' first
    | with_reducible assumption
    | with_reducible apply State.finish_keeps
    | split

theorem State.refuseLeg_keeps {s0 : State} (s : State) (w : Work) (check : Nat) (leg : Nat) (st : Status) (h : Keeps
      s0 s) :
    Keeps s0 (State.refuseLeg s w check leg st) := by
  unfold State.refuseLeg
  try dsimp only
  repeat' first
    | with_reducible assumption
    | with_reducible apply State.plogWork_keeps
    | with_reducible apply State.finish_keeps
    | with_reducible apply Keeps.ite

theorem State.refuse_keeps {s0 : State} (s : State) (w : Work) (check : Nat) (st : Status) (h : Keeps s0 s) :
    Keeps s0 (State.refuse s w check st) := by
  unfold State.refuse
  repeat' first
    | with_reducible assumption
    | with_reducible apply State.refuseLeg_keeps

theorem State.refuseWith_keeps {s0 : State} (s : State) (w : Work) (check : Nat) (st : Status) (res : Bytes) (h :
      Keeps s0 s) :
    Keeps s0 (State.refuseWith s w check st res) := by
  unfold State.refuseWith
  try dsimp only
  repeat' first
    | with_reducible assumption
    | with_reducible apply State.plogWork_keeps
    | with_reducible apply State.finish_keeps
    | with_reducible apply Keeps.ite

theorem State.finishOpen_keeps {s0 : State} (s : State) (id : Nat) (st : Status) (known : Bytes) (h : Keeps s0 s) :
    Keeps s0 (State.finishOpen s id st known) := by
  unfold State.finishOpen
  repeat' first
    | with_reducible assumption
    | with_reducible apply State.drawn_keeps
    | with_reducible apply State.finish_keeps

theorem State.refuseOpen_keeps {s0 : State} (s : State) (w : Work) (st : Status) (known : Bytes) (h : Keeps s0 s) :
    Keeps s0 (State.refuseOpen s w st known) := by
  unfold State.refuseOpen
  try dsimp only
  repeat' first
    | with_reducible assumption
    | with_reducible apply State.plogWork_keeps
    | with_reducible apply State.finishOpen_keeps
    | with_reducible apply Keeps.ite

theorem State.onStart_keeps {s0 : State} (s : State) (ring : Nat) (opcode : Nat) (f : Work → State) (h : Keeps s0 s)
      (hf : ∀ y0, Keeps s0 (f y0)) :
    Keeps s0 (State.onStart s ring opcode f) := by
  unfold State.onStart
  repeat' first
    | with_reducible assumption
    | with_reducible apply hf
    | split

theorem State.askRandom_keeps {s0 : State} (s : State) (use : RngUse) (prio : Nat) (slice : Nat) (need : Nat) (h :
      Keeps s0 s) :
    Keeps s0 (State.askRandom s use prio slice need) := by
  unfold State.askRandom
  try dsimp only
  repeat' first
    | with_reducible assumption
    | with_reducible apply Keeps.ite
    | with_reducible refine Keeps.upd ?_

theorem State.dropRandom_keeps {s0 : State} (s : State) (use : RngUse) (h : Keeps s0 s) :
    Keeps s0 (State.dropRandom s use) := by
  unfold State.dropRandom
  try dsimp only
  repeat' first
    | with_reducible assumption
    | with_reducible refine Keeps.upd ?_

theorem State.barRefused_keeps {s0 : State} (s : State) (offset : Nat) (h : Keeps s0 s) :
    Keeps s0 (State.barRefused s offset) := by
  unfold State.barRefused
  try dsimp only
  repeat' first
    | with_reducible assumption
    | with_reducible apply State.plogEvent_keeps
    | with_reducible refine Keeps.upd ?_

theorem State.onReg_keeps {s0 : State} (s : State) (offset : Nat) (f : State → State) (h : Keeps s0 s) (hf : ∀ y0,
      Keeps s0 y0 → Keeps s0 (f y0)) :
    Keeps s0 (State.onReg s offset f) := by
  unfold State.onReg
  repeat' first
    | with_reducible assumption
    | with_reducible apply hf
    | with_reducible apply State.barRefused_keeps
    | with_reducible apply Keeps.ite

theorem State.defer_keeps {s0 : State} (s : State) (d : Deferred) (h : Keeps s0 s) :
    Keeps s0 (State.defer s d) := by
  unfold State.defer
  try dsimp only
  repeat' first
    | with_reducible assumption
    | with_reducible refine Keeps.plain ?_

end Sys2Proof.Machine
end

