-- ==== Sys2Proof/Laws/KeepsAlaing.lean ====
section
/-! SUPPORT. The operations of Machine/Alaing.lean keep what `Keeps` says. -/

namespace Sys2Proof.Machine
open Sys2Proof

set_option Elab.async false

/-- An instruction of a core keeps. -/
theorem State.alaing_keeps {s0 : State} (s : State) (core op : Nat) (body : Core → Word → Effect) (h : Keeps s0 s)
    (hb : ∀ {c : Core}, c.Wf → ∀ w, (body c w).Wf) : Keeps s0 (State.alaing s core op body) := by
  unfold State.alaing
  refine Keeps.ite h ?_
  split
  · exact h
  · next e w he =>
    refine h.trans (State.setCore_keeps _ _ _ (Keeps.refl _) (fun k => ?_))
    have hc := State.coreAt_wf k core
    exact Core.after_wf hc (Core.execute_wf (hb hc) he) w

theorem execDadd_keeps {s0 : State} (core : Nat) (s : State) (h : Keeps s0 s) :
    KeepsO s0 (execDadd core s) := by
  unfold execDadd
  repeat' first
    | with_reducible assumption
    | with_reducible apply State.alaing_keeps
    | exact fun hc w => alDadd_wf hc w
    | with_reducible apply KeepsO.next

theorem execDsub_keeps {s0 : State} (core : Nat) (s : State) (h : Keeps s0 s) :
    KeepsO s0 (execDsub core s) := by
  unfold execDsub
  repeat' first
    | with_reducible assumption
    | with_reducible apply State.alaing_keeps
    | exact fun hc w => alDsub_wf hc w
    | with_reducible apply KeepsO.next

theorem execDcmp_keeps {s0 : State} (core : Nat) (s : State) (h : Keeps s0 s) :
    KeepsO s0 (execDcmp core s) := by
  unfold execDcmp
  repeat' first
    | with_reducible assumption
    | with_reducible apply State.alaing_keeps
    | exact fun hc w => alDcmp_wf hc w
    | with_reducible apply KeepsO.next

theorem execDmul_keeps {s0 : State} (core : Nat) (s : State) (h : Keeps s0 s) :
    KeepsO s0 (execDmul core s) := by
  unfold execDmul
  repeat' first
    | with_reducible assumption
    | with_reducible apply State.alaing_keeps
    | exact fun hc w => alDmul_wf hc w
    | with_reducible apply KeepsO.next

theorem execDdiv_keeps {s0 : State} (core : Nat) (s : State) (h : Keeps s0 s) :
    KeepsO s0 (execDdiv core s) := by
  unfold execDdiv
  repeat' first
    | with_reducible assumption
    | with_reducible apply State.alaing_keeps
    | exact fun hc w => alDdiv_wf hc w
    | with_reducible apply KeepsO.next

theorem execDrnd_keeps {s0 : State} (core : Nat) (s : State) (h : Keeps s0 s) :
    KeepsO s0 (execDrnd core s) := by
  unfold execDrnd
  repeat' first
    | with_reducible assumption
    | with_reducible apply State.alaing_keeps
    | exact fun hc w => alDrnd_wf hc w
    | with_reducible apply KeepsO.next

theorem execDshf_keeps {s0 : State} (core : Nat) (s : State) (h : Keeps s0 s) :
    KeepsO s0 (execDshf core s) := by
  unfold execDshf
  repeat' first
    | with_reducible assumption
    | with_reducible apply State.alaing_keeps
    | exact fun hc w => alDshf_wf hc w
    | with_reducible apply KeepsO.next

theorem execDneg_keeps {s0 : State} (core : Nat) (s : State) (h : Keeps s0 s) :
    KeepsO s0 (execDneg core s) := by
  unfold execDneg
  repeat' first
    | with_reducible assumption
    | with_reducible apply State.alaing_keeps
    | exact fun hc w => alDneg_wf hc w
    | with_reducible apply KeepsO.next

theorem execDabs_keeps {s0 : State} (core : Nat) (s : State) (h : Keeps s0 s) :
    KeepsO s0 (execDabs core s) := by
  unfold execDabs
  repeat' first
    | with_reducible assumption
    | with_reducible apply State.alaing_keeps
    | exact fun hc w => alDabs_wf hc w
    | with_reducible apply KeepsO.next

theorem execDmov_keeps {s0 : State} (core : Nat) (s : State) (h : Keeps s0 s) :
    KeepsO s0 (execDmov core s) := by
  unfold execDmov
  repeat' first
    | with_reducible assumption
    | with_reducible apply State.alaing_keeps
    | exact fun hc w => alDmov_wf hc w
    | with_reducible apply KeepsO.next

theorem execDnrm_keeps {s0 : State} (core : Nat) (s : State) (h : Keeps s0 s) :
    KeepsO s0 (execDnrm core s) := by
  unfold execDnrm
  repeat' first
    | with_reducible assumption
    | with_reducible apply State.alaing_keeps
    | exact fun hc w => alDnrm_wf hc w
    | with_reducible apply KeepsO.next

theorem execDval_keeps {s0 : State} (core : Nat) (s : State) (h : Keeps s0 s) :
    KeepsO s0 (execDval core s) := by
  unfold execDval
  repeat' first
    | with_reducible assumption
    | with_reducible apply State.alaing_keeps
    | exact fun hc w => alDval_wf hc w
    | with_reducible apply KeepsO.next

theorem execDtst_keeps {s0 : State} (core : Nat) (s : State) (h : Keeps s0 s) :
    KeepsO s0 (execDtst core s) := by
  unfold execDtst
  repeat' first
    | with_reducible assumption
    | with_reducible apply State.alaing_keeps
    | exact fun hc w => alDtst_wf hc w
    | with_reducible apply KeepsO.next

theorem execDcvb_keeps {s0 : State} (core : Nat) (s : State) (h : Keeps s0 s) :
    KeepsO s0 (execDcvb core s) := by
  unfold execDcvb
  repeat' first
    | with_reducible assumption
    | with_reducible apply State.alaing_keeps
    | exact fun hc w => alDcvb_wf hc w
    | with_reducible apply KeepsO.next

theorem execDcvd_keeps {s0 : State} (core : Nat) (s : State) (h : Keeps s0 s) :
    KeepsO s0 (execDcvd core s) := by
  unfold execDcvd
  repeat' first
    | with_reducible assumption
    | with_reducible apply State.alaing_keeps
    | exact fun hc w => alDcvd_wf hc w
    | with_reducible apply KeepsO.next

theorem execDli_keeps {s0 : State} (core : Nat) (s : State) (h : Keeps s0 s) :
    KeepsO s0 (execDli core s) := by
  unfold execDli
  repeat' first
    | with_reducible assumption
    | with_reducible apply State.alaing_keeps
    | exact fun hc w => alDli_wf hc w
    | with_reducible apply KeepsO.next

theorem execDaddi_keeps {s0 : State} (core : Nat) (s : State) (h : Keeps s0 s) :
    KeepsO s0 (execDaddi core s) := by
  unfold execDaddi
  repeat' first
    | with_reducible assumption
    | with_reducible apply State.alaing_keeps
    | exact fun hc w => alDaddi_wf hc w
    | with_reducible apply KeepsO.next

theorem execDcmpi_keeps {s0 : State} (core : Nat) (s : State) (h : Keeps s0 s) :
    KeepsO s0 (execDcmpi core s) := by
  unfold execDcmpi
  repeat' first
    | with_reducible assumption
    | with_reducible apply State.alaing_keeps
    | exact fun hc w => alDcmpi_wf hc w
    | with_reducible apply KeepsO.next

theorem execDget_keeps {s0 : State} (core : Nat) (s : State) (h : Keeps s0 s) :
    KeepsO s0 (execDget core s) := by
  unfold execDget
  repeat' first
    | with_reducible assumption
    | with_reducible apply State.alaing_keeps
    | exact fun hc w => alDget_wf hc w
    | with_reducible apply KeepsO.next

theorem execDput_keeps {s0 : State} (core : Nat) (s : State) (h : Keeps s0 s) :
    KeepsO s0 (execDput core s) := by
  unfold execDput
  repeat' first
    | with_reducible assumption
    | with_reducible apply State.alaing_keeps
    | exact fun hc w => alDput_wf hc w
    | with_reducible apply KeepsO.next

theorem execDsel_keeps {s0 : State} (core : Nat) (s : State) (h : Keeps s0 s) :
    KeepsO s0 (execDsel core s) := by
  unfold execDsel
  repeat' first
    | with_reducible assumption
    | with_reducible apply State.alaing_keeps
    | exact fun hc w => alDsel_wf hc w
    | with_reducible apply KeepsO.next

theorem execLdd_keeps {s0 : State} (core : Nat) (s : State) (h : Keeps s0 s) :
    KeepsO s0 (execLdd core s) := by
  unfold execLdd
  repeat' first
    | with_reducible assumption
    | with_reducible apply State.alaing_keeps
    | exact fun hc w => alLdd_wf hc w
    | with_reducible apply KeepsO.next

theorem execStd_keeps {s0 : State} (core : Nat) (s : State) (h : Keeps s0 s) :
    KeepsO s0 (execStd core s) := by
  unfold execStd
  repeat' first
    | with_reducible assumption
    | with_reducible apply State.alaing_keeps
    | exact fun hc w => alStd_wf hc w
    | with_reducible apply KeepsO.next

theorem execLdx_keeps {s0 : State} (core : Nat) (s : State) (h : Keeps s0 s) :
    KeepsO s0 (execLdx core s) := by
  unfold execLdx
  repeat' first
    | with_reducible assumption
    | with_reducible apply State.alaing_keeps
    | exact fun hc w => alLdx_wf hc w
    | with_reducible apply KeepsO.next

theorem execStx_keeps {s0 : State} (core : Nat) (s : State) (h : Keeps s0 s) :
    KeepsO s0 (execStx core s) := by
  unfold execStx
  repeat' first
    | with_reducible assumption
    | with_reducible apply State.alaing_keeps
    | exact fun hc w => alStx_wf hc w
    | with_reducible apply KeepsO.next

theorem execLdh_keeps {s0 : State} (core : Nat) (s : State) (h : Keeps s0 s) :
    KeepsO s0 (execLdh core s) := by
  unfold execLdh
  repeat' first
    | with_reducible assumption
    | with_reducible apply State.alaing_keeps
    | exact fun hc w => alLdh_wf hc w
    | with_reducible apply KeepsO.next

theorem execSth_keeps {s0 : State} (core : Nat) (s : State) (h : Keeps s0 s) :
    KeepsO s0 (execSth core s) := by
  unfold execSth
  repeat' first
    | with_reducible assumption
    | with_reducible apply State.alaing_keeps
    | exact fun hc w => alSth_wf hc w
    | with_reducible apply KeepsO.next

theorem execLdb_keeps {s0 : State} (core : Nat) (s : State) (h : Keeps s0 s) :
    KeepsO s0 (execLdb core s) := by
  unfold execLdb
  repeat' first
    | with_reducible assumption
    | with_reducible apply State.alaing_keeps
    | exact fun hc w => alLdb_wf hc w
    | with_reducible apply KeepsO.next

theorem execStb_keeps {s0 : State} (core : Nat) (s : State) (h : Keeps s0 s) :
    KeepsO s0 (execStb core s) := by
  unfold execStb
  repeat' first
    | with_reducible assumption
    | with_reducible apply State.alaing_keeps
    | exact fun hc w => alStb_wf hc w
    | with_reducible apply KeepsO.next

theorem execXadd_keeps {s0 : State} (core : Nat) (s : State) (h : Keeps s0 s) :
    KeepsO s0 (execXadd core s) := by
  unfold execXadd
  repeat' first
    | with_reducible assumption
    | with_reducible apply State.alaing_keeps
    | exact fun hc w => alXadd_wf hc w
    | with_reducible apply KeepsO.next

theorem execXsub_keeps {s0 : State} (core : Nat) (s : State) (h : Keeps s0 s) :
    KeepsO s0 (execXsub core s) := by
  unfold execXsub
  repeat' first
    | with_reducible assumption
    | with_reducible apply State.alaing_keeps
    | exact fun hc w => alXsub_wf hc w
    | with_reducible apply KeepsO.next

theorem execXand_keeps {s0 : State} (core : Nat) (s : State) (h : Keeps s0 s) :
    KeepsO s0 (execXand core s) := by
  unfold execXand
  repeat' first
    | with_reducible assumption
    | with_reducible apply State.alaing_keeps
    | exact fun hc w => alXand_wf hc w
    | with_reducible apply KeepsO.next

theorem execXor_keeps {s0 : State} (core : Nat) (s : State) (h : Keeps s0 s) :
    KeepsO s0 (execXor core s) := by
  unfold execXor
  repeat' first
    | with_reducible assumption
    | with_reducible apply State.alaing_keeps
    | exact fun hc w => alXor_wf hc w
    | with_reducible apply KeepsO.next

theorem execXxor_keeps {s0 : State} (core : Nat) (s : State) (h : Keeps s0 s) :
    KeepsO s0 (execXxor core s) := by
  unfold execXxor
  repeat' first
    | with_reducible assumption
    | with_reducible apply State.alaing_keeps
    | exact fun hc w => alXxor_wf hc w
    | with_reducible apply KeepsO.next

theorem execXshl_keeps {s0 : State} (core : Nat) (s : State) (h : Keeps s0 s) :
    KeepsO s0 (execXshl core s) := by
  unfold execXshl
  repeat' first
    | with_reducible assumption
    | with_reducible apply State.alaing_keeps
    | exact fun hc w => alXshl_wf hc w
    | with_reducible apply KeepsO.next

theorem execXshr_keeps {s0 : State} (core : Nat) (s : State) (h : Keeps s0 s) :
    KeepsO s0 (execXshr core s) := by
  unfold execXshr
  repeat' first
    | with_reducible assumption
    | with_reducible apply State.alaing_keeps
    | exact fun hc w => alXshr_wf hc w
    | with_reducible apply KeepsO.next

theorem execXsar_keeps {s0 : State} (core : Nat) (s : State) (h : Keeps s0 s) :
    KeepsO s0 (execXsar core s) := by
  unfold execXsar
  repeat' first
    | with_reducible assumption
    | with_reducible apply State.alaing_keeps
    | exact fun hc w => alXsar_wf hc w
    | with_reducible apply KeepsO.next

theorem execXmul_keeps {s0 : State} (core : Nat) (s : State) (h : Keeps s0 s) :
    KeepsO s0 (execXmul core s) := by
  unfold execXmul
  repeat' first
    | with_reducible assumption
    | with_reducible apply State.alaing_keeps
    | exact fun hc w => alXmul_wf hc w
    | with_reducible apply KeepsO.next

theorem execXcmp_keeps {s0 : State} (core : Nat) (s : State) (h : Keeps s0 s) :
    KeepsO s0 (execXcmp core s) := by
  unfold execXcmp
  repeat' first
    | with_reducible assumption
    | with_reducible apply State.alaing_keeps
    | exact fun hc w => alXcmp_wf hc w
    | with_reducible apply KeepsO.next

theorem execXaddi_keeps {s0 : State} (core : Nat) (s : State) (h : Keeps s0 s) :
    KeepsO s0 (execXaddi core s) := by
  unfold execXaddi
  repeat' first
    | with_reducible assumption
    | with_reducible apply State.alaing_keeps
    | exact fun hc w => alXaddi_wf hc w
    | with_reducible apply KeepsO.next

theorem execXli_keeps {s0 : State} (core : Nat) (s : State) (h : Keeps s0 s) :
    KeepsO s0 (execXli core s) := by
  unfold execXli
  repeat' first
    | with_reducible assumption
    | with_reducible apply State.alaing_keeps
    | exact fun hc w => alXli_wf hc w
    | with_reducible apply KeepsO.next

theorem execXlui_keeps {s0 : State} (core : Nat) (s : State) (h : Keeps s0 s) :
    KeepsO s0 (execXlui core s) := by
  unfold execXlui
  repeat' first
    | with_reducible assumption
    | with_reducible apply State.alaing_keeps
    | exact fun hc w => alXlui_wf hc w
    | with_reducible apply KeepsO.next

theorem execXori_keeps {s0 : State} (core : Nat) (s : State) (h : Keeps s0 s) :
    KeepsO s0 (execXori core s) := by
  unfold execXori
  repeat' first
    | with_reducible assumption
    | with_reducible apply State.alaing_keeps
    | exact fun hc w => alXori_wf hc w
    | with_reducible apply KeepsO.next

theorem execXandi_keeps {s0 : State} (core : Nat) (s : State) (h : Keeps s0 s) :
    KeepsO s0 (execXandi core s) := by
  unfold execXandi
  repeat' first
    | with_reducible assumption
    | with_reducible apply State.alaing_keeps
    | exact fun hc w => alXandi_wf hc w
    | with_reducible apply KeepsO.next

theorem execXcmpi_keeps {s0 : State} (core : Nat) (s : State) (h : Keeps s0 s) :
    KeepsO s0 (execXcmpi core s) := by
  unfold execXcmpi
  repeat' first
    | with_reducible assumption
    | with_reducible apply State.alaing_keeps
    | exact fun hc w => alXcmpi_wf hc w
    | with_reducible apply KeepsO.next

theorem execB_keeps {s0 : State} (core : Nat) (s : State) (h : Keeps s0 s) :
    KeepsO s0 (execB core s) := by
  unfold execB
  repeat' first
    | with_reducible assumption
    | with_reducible apply State.alaing_keeps
    | exact fun hc w => alB_wf hc w
    | with_reducible apply KeepsO.next

theorem execBl_keeps {s0 : State} (core : Nat) (s : State) (h : Keeps s0 s) :
    KeepsO s0 (execBl core s) := by
  unfold execBl
  repeat' first
    | with_reducible assumption
    | with_reducible apply State.alaing_keeps
    | exact fun hc w => alBl_wf hc w
    | with_reducible apply KeepsO.next

theorem execBr_keeps {s0 : State} (core : Nat) (s : State) (h : Keeps s0 s) :
    KeepsO s0 (execBr core s) := by
  unfold execBr
  repeat' first
    | with_reducible assumption
    | with_reducible apply State.alaing_keeps
    | exact fun hc w => alBr_wf hc w
    | with_reducible apply KeepsO.next

theorem execDbnz_keeps {s0 : State} (core : Nat) (s : State) (h : Keeps s0 s) :
    KeepsO s0 (execDbnz core s) := by
  unfold execDbnz
  repeat' first
    | with_reducible assumption
    | with_reducible apply State.alaing_keeps
    | exact fun hc w => alDbnz_wf hc w
    | with_reducible apply KeepsO.next

theorem execAlaingNop_keeps {s0 : State} (core : Nat) (s : State) (h : Keeps s0 s) :
    KeepsO s0 (execAlaingNop core s) := by
  unfold execAlaingNop
  repeat' first
    | with_reducible assumption
    | with_reducible apply State.alaing_keeps
    | exact fun hc w => alNop_wf hc w
    | with_reducible apply KeepsO.next

theorem execSvc_keeps {s0 : State} (core : Nat) (s : State) (h : Keeps s0 s) :
    KeepsO s0 (execSvc core s) := by
  unfold execSvc
  repeat' first
    | with_reducible assumption
    | with_reducible apply State.alaing_keeps
    | exact fun hc w => alSvc_wf hc w
    | with_reducible apply KeepsO.next

theorem execTrap_keeps {s0 : State} (core : Nat) (s : State) (h : Keeps s0 s) :
    KeepsO s0 (execTrap core s) := by
  unfold execTrap
  repeat' first
    | with_reducible assumption
    | with_reducible apply State.alaing_keeps
    | exact fun hc w => alTrap_wf w
    | with_reducible apply KeepsO.next

theorem execSetm_keeps {s0 : State} (core : Nat) (s : State) (h : Keeps s0 s) :
    KeepsO s0 (execSetm core s) := by
  unfold execSetm
  repeat' first
    | with_reducible assumption
    | with_reducible apply State.alaing_keeps
    | exact fun hc w => alSetm_wf hc w
    | with_reducible apply KeepsO.next

theorem execMff_keeps {s0 : State} (core : Nat) (s : State) (h : Keeps s0 s) :
    KeepsO s0 (execMff core s) := by
  unfold execMff
  repeat' first
    | with_reducible assumption
    | with_reducible apply State.alaing_keeps
    | exact fun hc w => alMff_wf hc w
    | with_reducible apply KeepsO.next

theorem execMtf_keeps {s0 : State} (core : Nat) (s : State) (h : Keeps s0 s) :
    KeepsO s0 (execMtf core s) := by
  unfold execMtf
  repeat' first
    | with_reducible assumption
    | with_reducible apply State.alaing_keeps
    | exact fun hc w => alMtf_wf hc w
    | with_reducible apply KeepsO.next

end Sys2Proof.Machine
end

