-- ==== Sys2Proof/Laws/KeepsHostAccess.lean ====
section
/-! SUPPORT. The operations of Machine/HostAccess.lean keep what `Keeps` says. -/

namespace Sys2Proof.Machine
open Sys2Proof

set_option Elab.async false

theorem State.assignDma_keeps {s0 : State} (s : State) (master job : Nat) (h : Keeps s0 s) :
    Keeps s0 (State.assignDma s master job) := by
  unfold State.assignDma
  try dsimp only
  repeat' first
    | with_reducible assumption
    | with_reducible apply Keeps.ite
    | split
    | with_reducible refine Keeps.plain ?_
    | intro _

theorem State.dropBn_keeps {s0 : State} (s : State) (p : BnJob → Bool) (h : Keeps s0 s) :
    Keeps s0 (State.dropBn s p) := by
  unfold State.dropBn
  try dsimp only
  repeat' first
    | with_reducible assumption
    | with_reducible apply Keeps.ite
    | split
    | with_reducible refine Keeps.upd ?_
    | intro _

theorem State.releaseUnits_keeps {s0 : State} (s : State) (id : Nat) (h : Keeps s0 s) :
    Keeps s0 (State.releaseUnits s id) := by
  unfold State.releaseUnits
  try dsimp only
  repeat' first
    | with_reducible assumption
    | with_reducible apply State.dropBn_keeps
    | with_reducible refine Keeps.upd ?_
    | intro _

theorem State.violation_keeps {s0 : State} (s : State) (master : Nat) (slice : Nat) (a : Nat) (write : Bool) (precise
      : Bool) (v : Verdict) (h : Keeps s0 s) :
    Keeps s0 (State.violation s master slice a write precise v) := by
  unfold State.violation
  try dsimp only
  repeat' first
    | with_reducible assumption
    | with_reducible apply State.modMpu_keeps
    | with_reducible apply State.plogEvent_keeps
    | with_reducible apply State.modSlice_keeps
    | split
    | with_reducible refine Keeps.plain ?_

theorem State.emit_keeps {s0 : State} (s : State) (o : Out) (h : Keeps s0 s) :
    Keeps s0 (State.emit s o) := by
  unfold State.emit
  repeat' first
    | with_reducible assumption
    | with_reducible refine Keeps.upd ?_

theorem State.emitWrite_keeps {s0 : State} (s : State) (master : Nat) (slice : Nat) (a : Nat) (attr : Attr) (t :
      Traffic) (data : Bytes) (h : Keeps s0 s) :
    Keeps s0 (State.emitWrite s master slice a attr t data) := by
  unfold State.emitWrite
  try dsimp only
  repeat' first
    | with_reducible assumption
    | with_reducible refine Keeps.upd ?_

theorem State.fwRegion_keeps {s0 : State} (s : State) (master : Nat) (addr : Nat) (len : Nat) (h : Keeps s0 s) :
    Keeps s0 (State.fwRegion s master addr len) := by
  unfold State.fwRegion
  try dsimp only
  repeat' first
    | with_reducible assumption
    | with_reducible apply State.modMpu_keeps
    | with_reducible apply Keeps.ite

theorem State.writeParts_keeps {s0 : State} (s : State) (master : Nat) (slice : Nat) (t : Traffic) (precise : Bool)
    (base : Nat) (data : Bytes) (ps : List (Nat × Nat)) (h : Keeps s0 s) :
    Keeps s0 (State.writeParts s master slice t precise base data ps).1 := by
  induction ps generalizing s with
  | nil => exact h
  | cons p ps ih =>
    unfold State.writeParts
    split
    · exact ih _ (State.emitWrite_keeps _ _ _ _ _ _ _ h)
    · exact State.violation_keeps _ _ _ _ _ _ _ h

theorem State.rawWrite_keeps {s0 : State} (s : State) (master : Nat) (slice : Nat) (t : Traffic) (precise : Bool)
      (addr : Nat) (data : Bytes) (h : Keeps s0 s) :
    Keeps s0 (State.rawWrite s master slice t precise addr data).1 := by
  unfold State.rawWrite
  try dsimp only
  repeat' first
    | with_reducible assumption
    | with_reducible apply State.fwRegion_keeps
    | with_reducible apply State.writeParts_keeps

theorem State.dplStop_keeps {s0 : State} (s : State) (slice : Nat) (access : Bool) (h : Keeps s0 s) :
    Keeps s0 (State.dplStop s slice access) := by
  unfold State.dplStop
  try dsimp only
  repeat' first
    | with_reducible assumption
    | with_reducible apply State.modSlice_keeps
    | with_reducible apply State.plogEvent_keeps

theorem State.dplEntry_keeps {s0 : State} (s : State) (slice source page : Nat) (h : Keeps s0 s) :
    Keeps s0 (State.dplEntry s slice source page) := by
  unfold State.dplEntry
  try dsimp only
  repeat' first
    | with_reducible assumption
    | with_reducible apply State.dplStop_keeps
    | with_reducible apply State.modSlice_keeps
    | with_reducible apply State.rawWrite_keeps
    | with_reducible apply Keeps.ite
    | split
    | intro _

theorem State.dplPage_keeps {s0 : State} (s : State) (slice : Nat) (t : Traffic) (page : Nat) (h : Keeps s0 s) :
    Keeps s0 (State.dplPage s slice t page) := by
  unfold State.dplPage
  try dsimp only
  repeat' first
    | with_reducible assumption
    | with_reducible apply State.dplEntry_keeps
    | with_reducible apply State.modSlice_keeps
    | with_reducible apply Keeps.ite
    | split
    | intro _

theorem State.dplHeldWrite_keeps {s0 : State} (s : State) (slice : Nat) (h : Keeps s0 s) :
    Keeps s0 (State.dplHeldWrite s slice) := by
  unfold State.dplHeldWrite
  try dsimp only
  repeat' first
    | with_reducible assumption
    | with_reducible apply State.dplEntry_keeps
    | with_reducible apply State.modSlice_keeps
    | with_reducible apply Keeps.foldl
    | intro _

theorem State.dplGrain_keeps {s0 : State} (s : State) (h : Keeps s0 s) : Keeps s0 (State.dplGrain s) :=
  h.foldl (fun _ _ ht => Keeps.ite (State.dplHeldWrite_keeps _ _ ht) ht)

theorem State.dplNote_keeps {s0 : State} (s : State) (slice : Nat) (t : Traffic) (addr : Nat) (len : Nat) (h : Keeps
      s0 s) :
    Keeps s0 (State.dplNote s slice t addr len) := by
  unfold State.dplNote
  repeat' first
    | with_reducible assumption
    | with_reducible apply State.dplPage_keeps
    | with_reducible apply Keeps.ite
    | with_reducible apply Keeps.foldl
    | intro _

theorem State.writeNow_keeps {s0 : State} (s : State) (master : Nat) (slice : Nat) (t : Traffic) (precise : Bool)
      (addr : Nat) (data : Bytes) (h : Keeps s0 s) :
    Keeps s0 (State.writeNow s master slice t precise addr data).1 := by
  unfold State.writeNow
  try dsimp only
  repeat' first
    | with_reducible assumption
    | with_reducible apply State.rawWrite_keeps
    | with_reducible apply State.dplNote_keeps

theorem State.drainOne_keeps {s0 : State} (s : State) (master : Nat) (h : Keeps s0 s) :
    Keeps s0 (State.drainOne s master) := by
  unfold State.drainOne
  try dsimp only
  repeat' first
    | with_reducible assumption
    | with_reducible apply State.modMpu_keeps
    | with_reducible apply State.releaseUnits_keeps
    | with_reducible apply State.restatus_keeps
    | with_reducible apply State.writeNow_keeps
    | with_reducible apply Keeps.ite
    | split
    | intro _

theorem State.drainAll_keeps {s0 : State} (s : State) (master : Nat) (h : Keeps s0 s) :
    Keeps s0 (State.drainAll s master) := by
  unfold State.drainAll
  repeat' first
    | with_reducible assumption
    | with_reducible apply State.drainOne_keeps
    | with_reducible apply Keeps.foldl
    | intro _

theorem State.hostWrite_keeps {s0 : State} (s : State) (master slice : Nat) (t : Traffic) (work : Option Nat)
      (addr : Nat) (data : Bytes) (h : Keeps s0 s) :
    Keeps s0 (State.hostWrite s master slice t work addr data).1 := by
  unfold State.hostWrite
  try dsimp only
  repeat' first
    | with_reducible assumption
    | with_reducible apply State.assignDma_keeps
    | with_reducible apply State.drainAll_keeps
    | with_reducible apply State.drainOne_keeps
    | with_reducible apply State.modMpu_keeps
    | with_reducible apply State.writeNow_keeps
    | with_reducible apply Keeps.ite
    | split
    | with_reducible refine Keeps.plain ?_
    | intro _

theorem State.writeChecked_keeps {s0 : State} (s : State) (master slice : Nat) (t : Traffic) (addr : Nat) (data
      : Bytes) (h : Keeps s0 s) :
    Keeps s0 (State.writeChecked s master slice t addr data) := by
  unfold State.writeChecked
  try dsimp only
  repeat' first
    | with_reducible assumption
    | with_reducible apply State.dplNote_keeps
    | with_reducible apply State.emitWrite_keeps
    | with_reducible apply State.reset_keeps
    | with_reducible apply Keeps.foldl
    | intro _

theorem State.addRead_keeps {s0 : State} (s : State) (kind : ReadKind) (master slice addr len : Nat) (retry :
      Bool) (tlps : List Out) (h : Keeps s0 s) :
    Keeps s0 (State.addRead s kind master slice addr len retry tlps) := by
  unfold State.addRead
  try dsimp only
  repeat' first
    | with_reducible assumption
    | with_reducible refine Keeps.upd ?_

theorem State.hostRead_keeps {s0 : State} (s : State) (kind : ReadKind) (master slice : Nat) (t : Traffic) (addr
      len : Nat) (retry : Bool) (h : Keeps s0 s) :
    Keeps s0 (State.hostRead s kind master slice t addr len retry).1 := by
  unfold State.hostRead
  try dsimp only
  repeat' first
    | with_reducible assumption
    | (refine Keeps.fst ?_ (by assumption))
    | with_reducible apply State.addRead_keeps
    | with_reducible apply State.assignDma_keeps
    | with_reducible apply State.fwRegion_keeps
    | with_reducible apply State.violation_keeps
    | with_reducible apply Keeps.ite
    | split

theorem State.dropRead_keeps {s0 : State} (s : State) (id : Nat) (h : Keeps s0 s) :
    Keeps s0 (State.dropRead s id) := by
  unfold State.dropRead
  repeat' first
    | with_reducible assumption
    | with_reducible refine Keeps.plain ?_

theorem State.modRead_keeps {s0 : State} (s : State) (id : Nat) (f : Read → Read) (h : Keeps s0 s) :
    Keeps s0 (State.modRead s id f) := by
  unfold State.modRead
  repeat' first
    | with_reducible assumption
    | with_reducible refine Keeps.plain ?_

theorem State.orphanReads_keeps {s0 : State} (s : State) (p : Read → Bool) (h : Keeps s0 s) :
    Keeps s0 (State.orphanReads s p) := by
  unfold State.orphanReads
  try dsimp only
  repeat' first
    | with_reducible assumption
    | with_reducible apply Keeps.ite
    | split
    | with_reducible refine Keeps.plain ?_
    | intro _

theorem State.rereadNow_keeps {s0 : State} (s : State) (r : Read) (t : Traffic) (h : Keeps s0 s) :
    Keeps s0 (State.rereadNow s r t).1 := by
  unfold State.rereadNow
  try dsimp only
  repeat' first
    | with_reducible assumption
    | (refine Keeps.fst ?_ (by assumption))
    | with_reducible apply State.addRead_keeps
    | with_reducible apply State.dropRead_keeps
    | with_reducible apply State.fwRegion_keeps
    | with_reducible apply State.modRead_keeps
    | with_reducible apply State.violation_keeps
    | with_reducible apply Keeps.ite
    | split
    | with_reducible refine Keeps.upd ?_
    | intro _

theorem State.sendWaiting_keeps {s0 : State} (s : State) (id : Nat) (h : Keeps s0 s) :
    Keeps s0 (State.sendWaiting s id) := by
  unfold State.sendWaiting
  try dsimp only
  repeat' first
    | with_reducible assumption
    | with_reducible apply State.modRead_keeps
    | split
    | with_reducible refine Keeps.upd ?_
    | intro _

theorem State.tagGrain_keeps {s0 : State} (s : State) (h : Keeps s0 s) :
    Keeps s0 (State.tagGrain s) := by
  unfold State.tagGrain
  try dsimp only
  repeat' first
    | with_reducible assumption
    | with_reducible apply State.sendWaiting_keeps
    | with_reducible apply Keeps.foldl
    | with_reducible apply Keeps.ite
    | split
    | intro _

end Sys2Proof.Machine
end

