-- ==== Sys2Proof/Laws/NvSame.lean ====
section
/-! SUPPORT. What the page operations of Machine/Nv.lean leave of the store: the write buffer and the records of the books. -/

namespace Sys2Proof.Machine
open Sys2Proof

set_option Elab.async false

/-- What `Keeps` says of the store is the same in both. -/
structure Nv.Same (n m : Nv) : Prop where
  wbuf : m.wbuf = n.wbuf
  recs : m.bookRecs = n.bookRecs
  saved : m.saved = n.saved

theorem Nv.Same.refl (n : Nv) : Nv.Same n n := ⟨rfl, rfl, rfl⟩

theorem Nv.Same.trans {a b c : Nv} (h : Nv.Same a b) (k : Nv.Same b c) : Nv.Same a c :=
  ⟨k.wbuf.trans h.wbuf, k.recs.trans h.recs, k.saved.trans h.saved⟩

theorem Keeps.same {s0 s : State} {n : Nv} (h : Keeps s0 s) (k : Nv.Same s.nv n) : Keeps s0 { s with nv := n } :=
  h.upd (h9 := fun x => by rw [k.wbuf]; exact x) (h16 := fun x => by rw [k.recs, k.saved]; exact x.2)

theorem Nv.setPage_same (n : Nv) (p : Nat) (v : NvPage) : Nv.Same n (n.setPage p v) := ⟨rfl, rfl, rfl⟩

theorem Nv.freePage_same (n : Nv) (p : Nat) : Nv.Same n (n.freePage p) := Nv.setPage_same _ _ _

theorem Nv.setCopy_same (n : Nv) (k : Nat) (l : List Nat) : Nv.Same n (n.setCopy k l) := ⟨rfl, rfl, rfl⟩

theorem Nv.foldl_same {α : Type} (f : Nv → α → Nv) (hf : ∀ m x, Nv.Same m (f m x)) (l : List α) (n : Nv) :
    Nv.Same n (l.foldl f n) := by
  induction l generalizing n with
  | nil => exact .refl n
  | cons x l ih => exact (hf n x).trans (ih _)

theorem Nv.adopt_same (n : Nv) (key p : Nat) (rest : List Nat) : Nv.Same n (n.adopt key p rest) :=
  (Nv.foldl_same _ Nv.freePage_same _ n).trans (Nv.setCopy_same _ _ _)

theorem Nv.writePhys_same (n : Nv) (p : Nat) (v : NvPage) : Nv.Same n (n.writePhys p v) := by
  unfold Nv.writePhys
  dsimp only
  split <;> exact ⟨rfl, rfl, rfl⟩

end Sys2Proof.Machine
end

