-- ==== Sys2Proof/Laws/KeepsNv.lean ====
section
/-! SUPPORT. The operations of Machine/Nv.lean keep what `Keeps` says. -/

namespace Sys2Proof.Machine
open Sys2Proof

set_option Elab.async false

theorem State.putImage_keeps {s0 : State} (s : State) (i : RecImage) (h : Keeps s0 s) :
    Keeps s0 (State.putImage s i) := by
  unfold State.putImage
  split
  · exact h
  · exact State.modSlot_keeps _ _ _ _ h
  · exact State.modSlot_keeps _ _ _ _ h
  · exact State.setSlot_keeps _ _ _ _ h
  · exact State.setAuth_keeps _ _ _ h
  · exact State.setFamily_keeps _ _ _ h
  · exact State.setAllow_keeps _ _ _ h
  · exact State.modPart_keeps _ _ _ h

theorem State.putImages_keeps {s0 : State} (s : State) (l : List RecImage) (h : Keeps s0 s) :
    Keeps s0 (State.putImages s l) :=
  h.foldl (fun _ _ => State.putImage_keeps _ _)

theorem State.storeView_keeps {s0 : State} (s : State) (h : Keeps s0 s) : Keeps s0 (State.storeView s) :=
  State.putImages_keeps _ _ (State.putImages_keeps _ _ h)

theorem State.noSpare_keeps {s0 : State} (s : State) (part : Nat) (h : Keeps s0 s) :
    Keeps s0 (State.noSpare s part) := by
  unfold State.noSpare
  repeat' first
    | with_reducible assumption
    | with_reducible apply State.plogEvent_keeps

theorem State.newCopy_same (s : State) (e : WbEntry) : Nv.Same s.nv (s.newCopy e).1.nv := by
  unfold State.newCopy
  dsimp only
  split
  · exact .refl _
  · split
    · exact Nv.writePhys_same _ _ _
    · split
      · exact Nv.foldl_same _ Nv.freePage_same _ _
      · exact (Nv.adopt_same _ _ _ _).trans (Nv.writePhys_same _ _ _)

theorem State.newCopy_keeps {s0 : State} (s : State) (e : WbEntry) (h : Keeps s0 s) :
    Keeps s0 (State.newCopy s e).1 := by
  unfold State.newCopy
  dsimp only
  split
  · exact State.noSpare_keeps _ _ h
  · split
    · exact h.same (Nv.writePhys_same _ _ _)
    · split
      · exact h.same (Nv.foldl_same _ Nv.freePage_same _ _)
      · exact h.same ((Nv.adopt_same _ _ _ _).trans (Nv.writePhys_same _ _ _))

theorem State.writeEntry_same (s : State) (e : WbEntry) : Nv.Same s.nv (s.writeEntry e).1.nv := by
  unfold State.writeEntry
  dsimp only
  repeat' split
  all_goals first
    | exact State.newCopy_same _ _
    | exact .refl _
    | exact Nv.writePhys_same _ _ _

theorem State.writeEntry_keeps {s0 : State} (s : State) (e : WbEntry) (h : Keeps s0 s) :
    Keeps s0 (State.writeEntry s e).1 := by
  unfold State.writeEntry
  dsimp only
  repeat' split
  all_goals first
    | exact State.newCopy_keeps _ _ h
    | exact h
    | exact h.same (Nv.writePhys_same _ _ _)

theorem State.commitBuffer_keeps {s0 : State} (s : State) (h : Keeps s0 s) :
    Keeps s0 (State.commitBuffer s) := by
  unfold State.commitBuffer
  exact h.upd (h9 := fun k => (Nat.le_of_eq (List.length_map _)).trans k)

theorem State.bufferBehind_keeps {s0 : State} (s : State) (e : WbEntry) (h : Keeps s0 s) :
    Keeps s0 (State.bufferBehind s e) :=
  h.upd

theorem State.bufferIn_keeps {s0 : State} (s : State) (e : WbEntry) (h : Keeps s0 s) :
    Keeps s0 (State.bufferIn s e) := by
  have hk : Keeps s0 { s with nv := { s.nv with wbuf := (s.nv.wbuf ++ [e]).take 64, lastWrite := s.now } } :=
    h.upd (h9 := fun _ => List.length_take_le _ _)
  exact Keeps.ite (Keeps.ite (State.commitBuffer_keeps _ hk) hk) (State.bufferBehind_keeps _ _ h)

theorem State.bufferNext_keeps {s0 : State} (s : State) (h : Keeps s0 s) : Keeps s0 (State.bufferNext s) := by
  unfold State.bufferNext
  split
  · exact h
  · next e rest _ =>
    have hk : Keeps s0 { s with nv := { s.nv with wbuf := (s.nv.wbuf ++ [e]).take 64, behind := rest, lastWrite := s.now } } :=
      h.upd (h9 := fun _ => List.length_take_le _ _)
    exact Keeps.ite (Keeps.ite (State.commitBuffer_keeps _ hk) hk) h

theorem State.commitImage_keeps {s0 : State} (s : State) (i : RecImage) (h : Keeps s0 s) :
    Keeps s0 (State.commitImage s i) := by
  unfold State.commitImage
  split
  · exact State.defer_keeps _ _ h
  · exact State.defer_keeps _ _ h
  · exact State.putImage_keeps _ _ h

theorem State.tagWritten_keeps {s0 : State} (s : State) (sync : List CommitWait) (ok : Bool) (h : Keeps s0 s) :
    Keeps s0 (State.tagWritten s sync ok) := by
  unfold State.tagWritten
  split
  · exact h
  · exact Keeps.ite h (State.drawn_keeps _ h.upd)

theorem State.unsent_keeps {s0 : State} (s : State) (work : Nat) (h : Keeps s0 s) : Keeps s0 (State.unsent s work) :=
  h.upd (h9 := fun k => (List.length_filter_le _ _).trans k)

theorem State.waitDone_keeps {s0 : State} (s : State) (w : CommitWait) (ok : Bool) (h : Keeps s0 s) :
    Keeps s0 (State.waitDone s w ok) := by
  unfold State.waitDone
  split
  · exact Keeps.ite (State.answerCore_keeps _ _ _ _ h) h
  · exact Keeps.ite (State.unsent_keeps _ _ (State.finish_keeps _ _ _ _ h)) (Keeps.ite (State.finish_keeps _ _ _ _ h) h)

theorem State.entryDone_keeps {s0 : State} (s : State) (e : WbEntry) (ok : Bool) (h : Keeps s0 s) :
    Keeps s0 (State.entryDone s e ok) := by
  unfold State.entryDone
  refine State.tagWritten_keeps _ _ _ (Keeps.foldl ?_ (fun _ _ => State.waitDone_keeps _ _ _))
  exact Keeps.ite (h.foldl (fun _ _ => State.commitImage_keeps _ _)) h

theorem State.popPage_keeps {s0 : State} (s : State) (h : Keeps s0 s) : Keeps s0 (State.popPage s) := by
  unfold State.popPage
  split
  · next e rest he =>
    exact State.bufferNext_keeps _ (h.upd (h9 := fun k => by rw [he] at k; exact (Nat.le_succ _).trans k))
  · exact h.upd

theorem State.pageWrite_keeps {s0 : State} (s : State) (h : Keeps s0 s) : Keeps s0 (State.pageWrite s) := by
  unfold State.pageWrite
  split
  · exact h
  · exact State.entryDone_keeps _ _ _ (Keeps.foldl (Keeps.plainNv (State.popPage_keeps _ (State.writeEntry_keeps _ _ h)))
      (fun _ _ => State.finish_keeps _ _ _ _))

theorem State.nvNow_keeps {s0 : State} (s : State) (key : Nat) (img : List RecImage) (h : Keeps s0 s) :
    Keeps s0 (State.nvNow s key img).1 := by
  unfold State.nvNow
  have hr := Keeps.foldlOn (fun r : State × Bool => r.1) (s0 := s0) (b := (s.commitBuffer.takeStep .nv, true))
    (f := fun r (e : WbEntry) => if r.2 then r.1.writeEntry e else r) (l := s.recordEntries key img [])
    (State.takeStep_keeps _ _ (State.commitBuffer_keeps _ h)) (fun b x hb => by
      split
      · exact State.writeEntry_keeps _ _ hb
      · exact hb)
  dsimp only
  split
  · exact hr.foldl (fun _ _ => State.commitImage_keeps _ _)
  · exact hr

theorem State.nvPut_keeps {s0 : State} (s : State) (part : Nat) (rec : Nat) (h : Keeps s0 s) :
    Keeps s0 (State.nvPut s part rec) := by
  unfold State.nvPut
  exact State.nvNow_keeps _ _ _ h

theorem State.nvSend_keeps {s0 : State} (s : State) (recs : List (Nat × List RecImage)) (sync : CommitWait)
    (h : Keeps s0 s) : Keeps s0 (State.nvSend s recs sync) :=
  (State.commitBuffer_keeps _ h).foldl (fun _ _ ht => ht.foldl (fun _ _ => State.bufferIn_keeps _ _))

theorem State.nvLazy_keeps {s0 : State} (s : State) (key : Nat) (img : RecImage) (h : Keeps s0 s) :
    Keeps s0 (State.nvLazy s key img) := by
  unfold State.nvLazy
  refine Keeps.ite (State.nvNow_keeps _ _ _ h) (h.foldl (fun t e ht => Keeps.ite ?_ (State.bufferIn_keeps _ _ ht)))
  exact ht.upd (h9 := fun k => (Nat.le_of_eq (List.length_map _)).trans k)

theorem State.badRead_keeps {s0 : State} (s : State) (key : Nat) (h : Keeps s0 s) :
    Keeps s0 (State.badRead s key) := by
  unfold State.badRead
  try dsimp only
  repeat' first
    | with_reducible assumption
    | with_reducible apply State.uncorrectable_keeps
    | with_reducible apply Keeps.foldl
    | split
    | with_reducible refine Keeps.upd ?_
    | intro _

theorem State.bufferWrite_keeps {s0 : State} (s : State) (key o : Nat) (data : Bytes) (sync : List CommitWait)
    (h : Keeps s0 s) (t : State) (ht : s.bufferWrite key o data sync = some t) : Keeps s0 t := by
  unfold State.bufferWrite at ht
  dsimp only at ht
  split at ht
  · exact Option.some.inj ht ▸ State.bufferBehind_keeps _ _ h
  · split at ht
    · exact Option.some.inj ht ▸ h.upd (h9 := fun k => (Nat.le_of_eq (List.length_map _)).trans k)
    · split at ht
      · cases ht
      · exact Option.some.inj ht ▸ State.bufferIn_keeps _ _ h

theorem execPageWrite_keeps {s0 : State} (s : State) (h : Keeps s0 s) :
    KeepsO s0 (execPageWrite s) := by
  unfold execPageWrite
  try dsimp only
  repeat' first
    | with_reducible refine KeepsO.next ?_
    | with_reducible apply KeepsO.ite
    | with_reducible assumption
    | with_reducible apply State.pageWrite_keeps
    | with_reducible apply State.stepOf_keeps
    | with_reducible apply Keeps.ite

theorem execNvCtlCommit_keeps {s0 : State} (s : State) (h : Keeps s0 s) :
    KeepsO s0 (execNvCtlCommit s) := by
  unfold execNvCtlCommit
  repeat' first
    | with_reducible assumption
    | with_reducible apply State.onReg_keeps
    | with_reducible apply State.commitBuffer_keeps
    | with_reducible apply KeepsO.next

theorem execWriteBufferIdleCommit_keeps {s0 : State} (s : State) (h : Keeps s0 s) :
    KeepsO s0 (execWriteBufferIdleCommit s) := by
  unfold execWriteBufferIdleCommit
  repeat' first
    | with_reducible assumption
    | with_reducible apply State.commitBuffer_keeps
    | with_reducible apply KeepsO.next
    | with_reducible apply Keeps.ite

theorem State.passwordFailed_keeps {s0 : State} (s : State) (part : Nat) (h : Keeps s0 s) :
    Keeps s0 (State.passwordFailed s part) := by
  unfold State.passwordFailed
  try dsimp only
  repeat' first
    | with_reducible assumption
    | with_reducible apply State.modPart_keeps
    | with_reducible apply State.plogEvent_keeps
    | with_reducible apply Keeps.ite

theorem State.passwordCheck_keeps {s0 : State} (s : State) (part : Nat) (write : Bool) (given : Bytes) (h : Keeps s0
      s) :
    Keeps s0 (State.passwordCheck s part write given).1 := by
  unfold State.passwordCheck
  try dsimp only
  repeat' first
    | with_reducible assumption
    | with_reducible apply State.modPart_keeps
    | with_reducible apply State.passwordFailed_keeps
    | split

theorem State.nvChecks_keeps {s0 : State} (s : State) (w : Work) (write : Bool) (h : Keeps s0 s) :
    Keeps s0 (State.nvChecks s w write).1 := by
  unfold State.nvChecks
  try dsimp only
  repeat' first
    | with_reducible assumption
    | with_reducible apply State.passwordCheck_keeps
    | split

theorem State.readsPage_keeps {s0 : State} (s : State) (slice : Nat) (h : Keeps s0 s) :
    Keeps s0 (State.readsPage s slice) :=
  State.takeStep_keeps _ _ (State.servedSlice_keeps _ _ _ h)

theorem State.nvReadBody_keeps {s0 : State} (s : State) (w : Work) (h : Keeps s0 s) :
    Keeps s0 (State.nvReadBody s w) := by
  unfold State.nvReadBody
  try dsimp only
  repeat' first
    | with_reducible assumption
    | (refine Keeps.fst ?_ (by assumption))
    | with_reducible apply State.badRead_keeps
    | with_reducible apply State.finish_keeps
    | with_reducible apply State.hostWrite_keeps
    | with_reducible apply State.nvChecks_keeps
    | with_reducible apply State.readsPage_keeps
    | with_reducible apply State.refuse_keeps
    | with_reducible apply Keeps.ite
    | split

theorem execNvRead_keeps {s0 : State} (ring : Nat) (s : State) (h : Keeps s0 s) :
    KeepsO s0 (execNvRead ring s) := by
  unfold execNvRead
  repeat' first
    | with_reducible assumption
    | with_reducible apply State.onStart_keeps
    | with_reducible apply State.nvReadBody_keeps
    | with_reducible apply KeepsO.next
    | intro _

theorem State.nvStore_keeps {s0 : State} (s : State) (w : Work) (h : Keeps s0 s) :
    Keeps s0 (State.nvStore s w) := by
  unfold State.nvStore
  dsimp only
  split
  · exact State.modWork_keeps _ _ _ h
  · next t e =>
    have ht := State.bufferWrite_keeps _ _ _ _ _ h _ e
    exact Keeps.ite (State.modWork_keeps _ _ _ ht) (State.finish_keeps _ _ _ _ ht)

theorem State.nvWriteBody_keeps {s0 : State} (s : State) (w : Work) (h : Keeps s0 s) :
    Keeps s0 (State.nvWriteBody s w) := by
  unfold State.nvWriteBody
  try dsimp only
  repeat' first
    | with_reducible assumption
    | (refine Keeps.fst ?_ (by assumption))
    | with_reducible apply State.refuse_keeps
    | with_reducible apply State.nvChecks_keeps
    | with_reducible apply State.hostRead_keeps
    | with_reducible apply State.modWork_keeps
    | with_reducible apply State.finish_keeps
    | with_reducible apply Keeps.ite
    | split

theorem execNvWrite_keeps {s0 : State} (ring : Nat) (s : State) (h : Keeps s0 s) :
    KeepsO s0 (execNvWrite ring s) := by
  unfold execNvWrite
  repeat' first
    | with_reducible assumption
    | with_reducible apply State.nvStore_keeps
    | with_reducible apply State.onStart_keeps
    | with_reducible apply State.nvWriteBody_keeps
    | with_reducible apply KeepsO.next
    | split
    | intro _

theorem State.nvCommitBody_keeps {s0 : State} (s : State) (w : Work) (h : Keeps s0 s) :
    Keeps s0 (State.nvCommitBody s w) := by
  unfold State.nvCommitBody
  try dsimp only
  repeat' first
    | with_reducible assumption
    | with_reducible apply State.refuseOpen_keeps
    | with_reducible apply State.commitBuffer_keeps
    | with_reducible apply State.finish_keeps
    | with_reducible apply State.modWork_keeps
    | with_reducible apply Keeps.ite
    | with_reducible refine Keeps.upd ?_

theorem execNvCommit_keeps {s0 : State} (ring : Nat) (s : State) (h : Keeps s0 s) :
    KeepsO s0 (execNvCommit ring s) := by
  unfold execNvCommit
  repeat' first
    | with_reducible assumption
    | with_reducible apply State.onStart_keeps
    | with_reducible apply State.nvCommitBody_keeps
    | with_reducible apply KeepsO.next
    | intro _

theorem State.nvPasswdBody_keeps {s0 : State} (s : State) (w : Work) (h : Keeps s0 s) :
    Keeps s0 (State.nvPasswdBody s w) := by
  unfold State.nvPasswdBody
  dsimp only
  refine Keeps.ite (State.refuse_keeps _ _ _ _ h) ?_
  split
  · exact State.refuse_keeps _ _ _ _ h
  · split
    · next e => exact State.refuse_keeps _ _ _ _ (Keeps.fst (State.passwordCheck_keeps _ _ _ _ h) e)
    · next e =>
      exact State.nvSend_keeps _ _ _ (State.modWork_keeps _ _ _ (Keeps.fst (State.passwordCheck_keeps _ _ _ _ h) e))

theorem execNvPasswd_keeps {s0 : State} (ring : Nat) (s : State) (h : Keeps s0 s) :
    KeepsO s0 (execNvPasswd ring s) := by
  unfold execNvPasswd
  repeat' first
    | with_reducible assumption
    | with_reducible apply State.onStart_keeps
    | with_reducible apply State.nvPasswdBody_keeps
    | with_reducible apply KeepsO.next
    | intro _

theorem State.erasePart_keeps {s0 : State} (s : State) (part : Nat) (h : Keeps s0 s) :
    Keeps s0 (State.erasePart s part) := by
  unfold State.erasePart
  dsimp only
  have hk : ∀ (l : List (Nat × List Nat)) (n : Nv), Nv.Same n (l.foldl (fun n e =>
      (e.2.foldl Nv.freePage n).setCopy e.1 []) n) := fun l n => Nv.foldl_same _ (fun m x =>
        (Nv.foldl_same _ Nv.freePage_same _ m).trans (Nv.setCopy_same _ _ _)) l n
  refine h.upd (h9 := fun k => ?_) (h16 := fun x => ?_)
  · rw [(hk _ _).wbuf]
    exact (List.length_filter_le _ _).trans k
  · rw [(hk _ _).recs, (hk _ _).saved]
    exact x.2

theorem State.partCfg_keeps {s0 : State} (s : State) (value : Nat) (h : Keeps s0 s) :
    Keeps s0 (State.partCfg s value) := by
  unfold State.partCfg
  try dsimp only
  repeat' first
    | with_reducible assumption
    | with_reducible apply State.defer_keeps
    | with_reducible apply State.erasePart_keeps
    | with_reducible apply State.modPart_keeps
    | with_reducible apply State.nvPut_keeps
    | with_reducible apply State.plogReg_keeps
    | with_reducible apply State.refuse_keeps
    | with_reducible apply State.setPart_keeps
    | with_reducible apply Keeps.ite

theorem execNvPartCfgWrite_keeps {s0 : State} (value : Nat) (s : State) (h : Keeps s0 s) :
    KeepsO s0 (execNvPartCfgWrite value s) := by
  unfold execNvPartCfgWrite
  repeat' first
    | with_reducible assumption
    | with_reducible apply State.onReg_keeps
    | with_reducible apply State.partCfg_keeps
    | with_reducible apply KeepsO.next
    | intro _

theorem State.lockReset_keeps {s0 : State} (s : State) (h : Keeps s0 s) :
    Keeps s0 (State.lockReset s) := by
  unfold State.lockReset
  try dsimp only
  repeat' first
    | with_reducible assumption
    | with_reducible refine Keeps.upd ?_

theorem State.writeCounter_keeps {s0 : State} (s : State) (n : Nat) (h : Keeps s0 s) :
    Keeps s0 (State.writeCounter s n) := by
  unfold State.writeCounter
  dsimp only
  split
  · exact h
  · exact Keeps.ite (State.newCopy_keeps _ _ h) (h.same (Nv.writePhys_same _ _ _))

theorem State.incrCounter_keeps {s0 : State} (s : State) (n : Nat) (h : Keeps s0 s) :
    Keeps s0 (State.incrCounter s n) := by
  unfold State.incrCounter
  exact Keeps.ite (State.writeCounter_keeps _ _ (State.setCounter_keeps _ _ _ h))
    (Keeps.ite (State.setCounter_keeps _ _ _ h).upd (State.setCounter_keeps _ _ _ h))

theorem State.storeCounter_keeps {s0 : State} (s : State) (n : Nat) (h : Keeps s0 s) :
    Keeps s0 (State.storeCounter s n) := by
  unfold State.storeCounter
  try dsimp only
  repeat' first
    | with_reducible assumption
    | with_reducible apply State.setCounter_keeps
    | with_reducible apply State.writeCounter_keeps
    | with_reducible apply Keeps.ite
    | split

theorem execCounterPeriodicStore_keeps {s0 : State} (counter : Nat) (s : State) (h : Keeps s0 s) :
    KeepsO s0 (execCounterPeriodicStore counter s) :=
  .next (Keeps.ite (State.stepOf_keeps _ _ _ _ h (fun _ ht => (State.storeCounter_keeps _ _ ht).upd)) h)

theorem State.ownerWrite_keeps {s0 : State} (s : State) (counter slice : Nat) (h : Keeps s0 s) :
    Keeps s0 (State.ownerWrite s counter slice) := by
  unfold State.ownerWrite
  try dsimp only
  repeat' first
    | with_reducible assumption
    | with_reducible apply State.modCounter_keeps
    | with_reducible apply State.nvPut_keeps

theorem State.partSlice_keeps {s0 : State} (s : State) (part slice : Nat) (h : Keeps s0 s) :
    Keeps s0 (State.partSlice s part slice) := by
  unfold State.partSlice
  try dsimp only
  repeat' first
    | with_reducible assumption
    | with_reducible apply State.modPart_keeps
    | with_reducible apply State.nvPut_keeps

theorem State.cntOwner_keeps {s0 : State} (s : State) (value : Nat) (h : Keeps s0 s) :
    Keeps s0 (State.cntOwner s value) := by
  unfold State.cntOwner
  try dsimp only
  repeat' first
    | with_reducible assumption
    | with_reducible apply State.defer_keeps

theorem execCntOwnerWrite_keeps {s0 : State} (value : Nat) (s : State) (h : Keeps s0 s) :
    KeepsO s0 (execCntOwnerWrite value s) := by
  unfold execCntOwnerWrite
  repeat' first
    | with_reducible assumption
    | with_reducible apply State.onReg_keeps
    | with_reducible apply State.cntOwner_keeps
    | with_reducible apply KeepsO.next
    | intro _

theorem State.loseCounter_keeps {s0 : State} (s : State) (n cw : Nat) (h : Keeps s0 s) :
    Keeps s0 (State.loseCounter s n cw) := by
  unfold State.loseCounter
  try dsimp only
  repeat' first
    | with_reducible assumption
    | with_reducible apply State.modCounter_keeps
    | split
    | intro _

theorem State.badCodeword_keeps {s0 : State} (s : State) (phys : Nat) (cw : Nat) (h : Keeps s0 s) :
    Keeps s0 (State.badCodeword s phys cw) := by
  unfold State.badCodeword
  have hk := h.same (Nv.setPage_same s.nv phys ((s.nv.page phys).spoil cw))
  exact Keeps.ite (State.loseCounter_keeps _ _ _ hk) (Keeps.ite hk.plain hk)

theorem State.corrected_keeps {s0 : State} (s : State) (code : Nat) (n : Nat) (h : Keeps s0 s) :
    Keeps s0 (State.corrected s code n) := by
  unfold State.corrected
  try dsimp only
  repeat' first
    | with_reducible assumption
    | with_reducible refine Keeps.plain ?_

theorem State.scrubWrite_keeps {s0 : State} (s : State) (p : Nat) (cws : List Nat) (h : Keeps s0 s) :
    Keeps s0 (State.scrubWrite s p cws) :=
  h.same (Nv.writePhys_same _ _ _)

theorem State.scrubbed_keeps {s0 : State} (s : State) (p : Nat) (corrected : Nat) (bad : Nat) (h : Keeps s0 s) :
    Keeps s0 (State.scrubbed s p corrected bad) := by
  unfold State.scrubbed
  try dsimp only
  repeat' first
    | with_reducible assumption
    | with_reducible refine Keeps.upd ?_

theorem State.scrubStep_keeps {s0 : State} (s : State) (corrected bad : List Nat) (h : Keeps s0 s) :
    Keeps s0 (State.scrubStep s corrected bad) := by
  unfold State.scrubStep
  try dsimp only
  repeat' first
    | with_reducible assumption
    | with_reducible apply State.badCodeword_keeps
    | with_reducible apply State.corrected_keeps
    | with_reducible apply State.scrubWrite_keeps
    | with_reducible apply State.scrubbed_keeps
    | with_reducible apply State.taskDone_keeps
    | with_reducible apply State.uncorrectable_keeps
    | with_reducible apply Keeps.foldl
    | with_reducible apply Keeps.ite
    | split
    | intro _

theorem execNvScrubStep_keeps {s0 : State} (corrected bad : List Nat) (s : State) (h : Keeps s0 s) :
    KeepsO s0 (execNvScrubStep corrected bad s) := by
  unfold execNvScrubStep
  try dsimp only
  repeat' first
    | with_reducible refine KeepsO.next ?_
    | with_reducible apply KeepsO.ite
    | with_reducible assumption
    | with_reducible apply State.corrected_keeps
    | with_reducible apply State.scrubStep_keeps
    | with_reducible apply State.stepOf_keeps
    | with_reducible apply Keeps.ite
    | split
    | intro _

end Sys2Proof.Machine
end

