-- ==== Sys2Proof/Laws/KeepsKeys.lean ====
section
/-! SUPPORT. The operations of Machine/Keys.lean keep what `Keeps` says. -/

namespace Sys2Proof.Machine
open Sys2Proof

set_option Elab.async false

theorem State.chargeSlot_keeps {s0 : State} (s : State) (target index : Nat) (h : Keeps s0 s) :
    Keeps s0 (State.chargeSlot s target index) := by
  unfold State.chargeSlot
  try dsimp only
  repeat' first
    | with_reducible assumption
    | with_reducible apply State.nvLazy_keeps
    | with_reducible apply State.setSlot_keeps
    | with_reducible apply Keeps.ite

theorem State.badSlot_keeps {s0 : State} (s : State) (target : Nat) (index : Nat) (h : Keeps s0 s) :
    Keeps s0 (State.badSlot s target index) := by
  unfold State.badSlot
  try dsimp only
  repeat' first
    | with_reducible assumption
    | with_reducible apply State.modSlot_keeps
    | with_reducible apply State.level1_keeps

theorem State.endDescendants_keeps {s0 : State} (s : State) (index install : Nat) (h : Keeps s0 s) :
    Keeps s0 (State.endDescendants s index install) := by
  unfold State.endDescendants
  try dsimp only
  repeat' first
    | with_reducible assumption
    | with_reducible apply State.install_keeps
    | with_reducible apply Keeps.ite
    | split
    | with_reducible refine Keeps.plain ?_

theorem State.install_keeps {s0 : State} (s : State) (i : RecImage) (h : Keeps s0 s) :
    Keeps s0 (State.install s i) := by
  unfold State.install
  try dsimp only
  repeat' first
    | with_reducible assumption
    | with_reducible apply State.endDescendants_keeps
    | with_reducible apply State.putImage_keeps
    | with_reducible apply State.setSlot_keeps
    | with_reducible apply Keeps.ite
    | split

theorem State.chargeSession_keeps {s0 : State} (s : State) (hh : Nat) (h : Keeps s0 s) :
    Keeps s0 (State.chargeSession s hh) := by
  unfold State.chargeSession
  repeat' first
    | with_reducible assumption
    | with_reducible apply State.modSession_keeps

theorem State.maskSession_keeps {s0 : State} (s : State) (h : Nat) (key r : Bytes) (hk : Keeps s0 s) :
    Keeps s0 (State.maskSession s h key r) := by
  unfold State.maskSession
  try dsimp only
  repeat' first
    | with_reducible assumption
    | with_reducible apply State.drawn_keeps
    | with_reducible apply State.setSession_keeps

theorem State.openSession_keeps {s0 : State} (s : State) (w : Work) (parent install : Nat) (labels : List Bytes)
      (level : Nat) (attr : BitVec 32) (uses : Nat) (key mask : Bytes) (h : Keeps s0 s) :
    Keeps s0 (State.openSession s w parent install labels level attr uses key mask) := by
  unfold State.openSession
  try dsimp only
  repeat' first
    | with_reducible assumption
    | with_reducible apply State.finish_keeps
    | with_reducible apply State.install_keeps
    | with_reducible apply State.maskSession_keeps
    | with_reducible apply State.refuse_keeps
    | with_reducible apply State.setSession_keeps
    | with_reducible apply Keeps.ite
    | split

theorem State.drawContext_keeps {s0 : State} (s : State) (w : Work) (h : Keeps s0 s) :
    Keeps s0 (State.drawContext s w) := by
  unfold State.drawContext
  try dsimp only
  repeat' first
    | with_reducible assumption
    | with_reducible apply State.askRandom_keeps
    | with_reducible apply State.modWork_keeps

theorem State.sessionOpenWith_keeps {s0 : State} (s : State) (w : Work) (mask : Option Bytes) (h : Keeps s0 s) :
    Keeps s0 (State.sessionOpenWith s w mask) := by
  unfold State.sessionOpenWith
  try dsimp only
  repeat' first
    | with_reducible assumption
    | with_reducible apply State.chargeSlot_keeps
    | with_reducible apply State.drawContext_keeps
    | with_reducible apply State.install_keeps
    | with_reducible apply State.openSession_keeps
    | with_reducible apply State.refuse_keeps
    | with_reducible apply Keeps.ite
    | split

theorem State.sessionOpenBody_keeps {s0 : State} (s : State) (w : Work) (h : Keeps s0 s) :
    Keeps s0 (State.sessionOpenBody s w) := by
  unfold State.sessionOpenBody
  try dsimp only
  repeat' first
    | with_reducible assumption
    | with_reducible apply State.sessionOpenWith_keeps

theorem execSessionOpen_keeps {s0 : State} (ring : Nat) (s : State) (h : Keeps s0 s) :
    KeepsO s0 (execSessionOpen ring s) := by
  unfold execSessionOpen
  repeat' first
    | with_reducible assumption
    | with_reducible apply State.onStart_keeps
    | with_reducible apply State.sessionOpenBody_keeps
    | with_reducible apply KeepsO.next
    | intro _

theorem State.sessionDeriveWith_keeps {s0 : State} (s : State) (w : Work) (mask : Option Bytes) (h : Keeps s0 s)
      :
    Keeps s0 (State.sessionDeriveWith s w mask) := by
  unfold State.sessionDeriveWith
  try dsimp only
  repeat' first
    | with_reducible assumption
    | with_reducible apply State.chargeSession_keeps
    | with_reducible apply State.drawContext_keeps
    | with_reducible apply State.openSession_keeps
    | with_reducible apply State.refuse_keeps
    | with_reducible apply Keeps.ite
    | split

theorem State.sessionDeriveBody_keeps {s0 : State} (s : State) (w : Work) (h : Keeps s0 s) :
    Keeps s0 (State.sessionDeriveBody s w) := by
  unfold State.sessionDeriveBody
  try dsimp only
  repeat' first
    | with_reducible assumption
    | with_reducible apply State.sessionDeriveWith_keeps

theorem State.contextReady_keeps {s0 : State} (s : State) (w : Work) (r : Bytes) (h : Keeps s0 s) :
    Keeps s0 (State.contextReady s w r) := by
  unfold State.contextReady
  try dsimp only
  repeat' first
    | with_reducible assumption
    | with_reducible apply State.sessionDeriveWith_keeps
    | with_reducible apply State.sessionOpenWith_keeps
    | with_reducible apply Keeps.ite

theorem execSessionDerive_keeps {s0 : State} (ring : Nat) (s : State) (h : Keeps s0 s) :
    KeepsO s0 (execSessionDerive ring s) := by
  unfold execSessionDerive
  repeat' first
    | with_reducible assumption
    | with_reducible apply State.onStart_keeps
    | with_reducible apply State.sessionDeriveBody_keeps
    | with_reducible apply KeepsO.next
    | with_reducible apply Keeps.ite
    | intro _

theorem State.sessionCloseBody_keeps {s0 : State} (s : State) (w : Work) (h : Keeps s0 s) :
    Keeps s0 (State.sessionCloseBody s w) := by
  unfold State.sessionCloseBody
  repeat' first
    | with_reducible assumption
    | with_reducible apply State.refuse_keeps
    | with_reducible apply State.finish_keeps
    | with_reducible apply State.setSession_keeps
    | with_reducible apply Keeps.ite

theorem execSessionClose_keeps {s0 : State} (ring : Nat) (s : State) (h : Keeps s0 s) :
    KeepsO s0 (execSessionClose ring s) := by
  unfold execSessionClose
  repeat' first
    | with_reducible assumption
    | with_reducible apply State.onStart_keeps
    | with_reducible apply State.sessionCloseBody_keeps
    | with_reducible apply KeepsO.next
    | with_reducible apply Keeps.ite
    | intro _

theorem State.remaskEnd_keeps {s0 : State} (s : State) (h : Keeps s0 s) :
    Keeps s0 (State.remaskEnd s) := by
  unfold State.remaskEnd
  try dsimp only
  repeat' first
    | with_reducible assumption
    | with_reducible apply State.taskDone_keeps
    | with_reducible apply Keeps.ite
    | with_reducible refine Keeps.plain ?_

theorem State.remasked_keeps {s0 : State} (s : State) (place : Nat) (h : Keeps s0 s) :
    Keeps s0 (State.remasked s place) := by
  unfold State.remasked
  try dsimp only
  repeat' first
    | with_reducible assumption
    | with_reducible apply State.remaskEnd_keeps
    | with_reducible apply Keeps.ite
    | with_reducible refine Keeps.plain ?_

theorem State.rederive_keeps {s0 : State} (s : State) (h : Nat) (hk : Keeps s0 s) :
    Keeps s0 (State.rederive s h) := by
  unfold State.rederive
  try dsimp only
  repeat' first
    | with_reducible assumption
    | with_reducible apply State.askRandom_keeps
    | with_reducible apply State.dropRandom_keeps
    | with_reducible apply State.maskSession_keeps
    | with_reducible apply State.modSession_keeps
    | with_reducible apply State.remasked_keeps
    | with_reducible apply State.setSession_keeps
    | with_reducible apply State.stepOf_keeps
    | with_reducible apply Keeps.ite
    | split
    | intro _

theorem execSessionRederivation_keeps {s0 : State} (handle : Nat) (s : State) (h : Keeps s0 s) :
    KeepsO s0 (execSessionRederivation handle s) := by
  unfold execSessionRederivation
  try dsimp only
  repeat' first
    | with_reducible refine KeepsO.next ?_
    | with_reducible apply KeepsO.ite
    | with_reducible assumption
    | with_reducible apply State.rederive_keeps

theorem State.remask_keeps {s0 : State} (s : State) (target index : Nat) (h : Keeps s0 s) :
    Keeps s0 (State.remask s target index) := by
  unfold State.remask
  try dsimp only
  repeat' first
    | with_reducible assumption
    | with_reducible apply State.askRandom_keeps
    | with_reducible apply State.badSlot_keeps
    | with_reducible apply State.dropRandom_keeps
    | with_reducible apply State.modSlot_keeps
    | with_reducible apply State.remasked_keeps
    | with_reducible apply State.setSlot_keeps
    | with_reducible apply State.stepOf_keeps
    | with_reducible apply Keeps.ite
    | split
    | intro _

theorem execKeyRemask_keeps {s0 : State} (target index : Nat) (s : State) (h : Keeps s0 s) :
    KeepsO s0 (execKeyRemask target index s) := by
  unfold execKeyRemask
  try dsimp only
  repeat' first
    | with_reducible refine KeepsO.next ?_
    | with_reducible apply KeepsO.ite
    | with_reducible assumption
    | with_reducible apply State.remask_keeps

theorem State.familyReadBody_keeps {s0 : State} (s : State) (w : Work) (h : Keeps s0 s) :
    Keeps s0 (State.familyReadBody s w) := by
  unfold State.familyReadBody
  try dsimp only
  repeat' first
    | with_reducible assumption
    | with_reducible apply State.refuseOpen_keeps
    | with_reducible apply State.finishOpen_keeps
    | with_reducible apply Keeps.ite

theorem execFamilyRead_keeps {s0 : State} (ring : Nat) (s : State) (h : Keeps s0 s) :
    KeepsO s0 (execFamilyRead ring s) := by
  unfold execFamilyRead
  repeat' first
    | with_reducible assumption
    | with_reducible apply State.onStart_keeps
    | with_reducible apply State.familyReadBody_keeps
    | with_reducible apply KeepsO.next
    | intro _

theorem State.certReadBody_keeps {s0 : State} (s : State) (w : Work) (h : Keeps s0 s) :
    Keeps s0 (State.certReadBody s w) := by
  unfold State.certReadBody
  try dsimp only
  repeat' first
    | with_reducible assumption
    | with_reducible apply State.refuseOpen_keeps
    | with_reducible apply State.hostWrite_keeps
    | with_reducible apply State.finishOpen_keeps
    | with_reducible apply Keeps.ite

theorem execCertRead_keeps {s0 : State} (ring : Nat) (s : State) (h : Keeps s0 s) :
    KeepsO s0 (execCertRead ring s) := by
  unfold execCertRead
  repeat' first
    | with_reducible assumption
    | with_reducible apply State.onStart_keeps
    | with_reducible apply State.certReadBody_keeps
    | with_reducible apply KeepsO.next
    | intro _

theorem State.chargeKey_keeps {s0 : State} (s : State) (k : KeySrc) (h : Keeps s0 s) :
    Keeps s0 (State.chargeKey s k) := by
  unfold State.chargeKey
  repeat' first
    | with_reducible assumption
    | with_reducible apply State.chargeSession_keeps
    | with_reducible apply State.chargeSlot_keeps
    | with_reducible apply State.modCore_keeps
    | split
    | exact fun c hc => hc.keep rfl rfl rfl rfl rfl rfl rfl

theorem State.signP384_keeps {s0 : State} (s : State) (d : Nat) (digest : Bytes) (h : Keeps s0 s) :
    Keeps s0 (State.signP384 s d digest).2 := by
  unfold State.signP384
  try dsimp only
  repeat' first
    | with_reducible assumption
    | with_reducible apply State.drawn_keeps

end Sys2Proof.Machine
end

