-- ==== Sys2Proof/Laws/KeepsBigNum.lean ====
section
/-! SUPPORT. The operations of Machine/BigNum.lean keep what `Keeps` says. -/

namespace Sys2Proof.Machine
open Sys2Proof

set_option Elab.async false

theorem State.bnSubmit_keeps {s0 : State} (s : State) (j : BnJob) (h : Keeps s0 s) :
    Keeps s0 (State.bnSubmit s j) := by
  unfold State.bnSubmit
  try dsimp only
  repeat' first
    | with_reducible assumption
    | with_reducible apply State.askRandom_keeps
    | with_reducible apply Keeps.ite
    | with_reducible refine Keeps.upd ?_

theorem State.bnSupplied_keeps {s0 : State} (s : State) (n : Nat) (h : Keeps s0 s) : Keeps s0 (State.bnSupplied s n) := by
  unfold State.bnSupplied
  exact h.plain

theorem State.bnRandom_keeps {s0 : State} (s : State) (h : Keeps s0 s) :
    Keeps s0 (State.bnRandom s) := by
  unfold State.bnRandom
  try dsimp only
  repeat' first
    | with_reducible assumption
    | with_reducible apply State.dropRandom_keeps
    | with_reducible apply State.bnSupplied_keeps
    | with_reducible apply Keeps.foldl
    | split
    | with_reducible refine Keeps.plain ?_
    | intro _

theorem State.bnUnqueue_keeps {s0 : State} (s : State) (j : BnJob) (h : Keeps s0 s) :
    Keeps s0 (State.bnUnqueue s j) := by
  unfold State.bnUnqueue
  try dsimp only
  repeat' first
    | with_reducible assumption
    | with_reducible refine Keeps.plain ?_

theorem State.bnChoose_keeps {s0 : State} (s : State) (e : Nat) (h : Keeps s0 s) :
    Keeps s0 (State.bnChoose s e) := by
  unfold State.bnChoose
  try dsimp only
  repeat' first
    | with_reducible assumption
    | with_reducible apply State.setBn_keeps
    | with_reducible apply State.bnUnqueue_keeps
    | with_reducible apply Keeps.ite
    | split

theorem State.bnGrain_keeps {s0 : State} (s : State) (h : Keeps s0 s) :
    Keeps s0 (State.bnGrain s) := by
  unfold State.bnGrain
  try dsimp only
  repeat' first
    | with_reducible assumption
    | with_reducible apply State.setBn_keeps
    | with_reducible apply State.bnRandom_keeps
    | with_reducible apply State.bnChoose_keeps
    | with_reducible apply Keeps.foldl
    | intro _

theorem State.bnYield_keeps {s0 : State} (s : State) (w : BnJob) (h : Keeps s0 s) :
    Keeps s0 (State.bnYield s w) := by
  unfold State.bnYield
  try dsimp only
  repeat' first
    | with_reducible assumption
    | (refine Keeps.fst ?_ (by assumption))
    | with_reducible apply State.bnUnqueue_keeps
    | with_reducible apply State.drawn_keeps
    | with_reducible apply State.setBn_keeps
    | split
    | with_reducible refine Keeps.plain ?_

theorem State.bnScruple_keeps {s0 : State} (s : State) (h : Keeps s0 s) :
    Keeps s0 (State.bnScruple s) := by
  unfold State.bnScruple
  repeat' first
    | with_reducible assumption
    | with_reducible apply State.bnYield_keeps
    | with_reducible apply Keeps.foldl

theorem State.bnRetire_keeps {s0 : State} (s : State) (e : Nat) (h : Keeps s0 s) :
    Keeps s0 (State.bnRetire s e) := by
  unfold State.bnRetire
  try dsimp only
  repeat' first
    | with_reducible assumption
    | with_reducible apply State.bnChoose_keeps
    | with_reducible apply State.setBn_keeps
    | with_reducible refine Keeps.plain ?_

theorem State.bnOutcome_keeps {s0 : State} (s : State) (j : BnJob) (h : Keeps s0 s) :
    Keeps s0 (State.bnOutcome s j).2 := by
  unfold State.bnOutcome
  try dsimp only
  repeat' first
    | with_reducible assumption
    | with_reducible apply State.drawn_keeps

theorem State.bnKeyCheck_keeps {s0 : State} (s : State) (slice : Nat) (op : Nat) (kh : Nat) (h : Keeps s0 s) :
    Keeps s0 (State.bnKeyCheck s slice op kh).1 := by
  unfold State.bnKeyCheck
  try dsimp only
  repeat' first
    | with_reducible assumption
    | with_reducible apply State.chargeSlot_keeps
    | split

theorem State.bnBegin_keeps {s0 : State} (s : State) (w : Work) (input : Bytes) (h : Keeps s0 s) :
    Keeps s0 (State.bnBegin s w input) := by
  unfold State.bnBegin
  try dsimp only
  repeat' first
    | with_reducible assumption
    | with_reducible apply State.refuse_keeps
    | with_reducible apply State.modWork_keeps
    | with_reducible apply State.bnSubmit_keeps
    | with_reducible apply Keeps.ite

theorem State.bnStart_keeps {s0 : State} (s : State) (w : Work) (h : Keeps s0 s) :
    Keeps s0 (State.bnStart s w) := by
  unfold State.bnStart
  try dsimp only
  repeat' first
    | with_reducible assumption
    | with_reducible apply State.refuse_keeps
    | with_reducible apply State.bnKeyCheck_keeps
    | with_reducible apply State.bnBegin_keeps
    | with_reducible apply State.hostRead_keeps
    | with_reducible apply State.modWork_keeps
    | with_reducible apply Keeps.ite
    | split

theorem State.bnRow_keeps {s0 : State} (s : State) (ring : Nat) (op : Nat) (h : Keeps s0 s) :
    Keeps s0 (State.bnRow s ring op) := by
  unfold State.bnRow
  repeat' first
    | with_reducible assumption
    | with_reducible apply State.bnStart_keeps
    | with_reducible apply Keeps.ite
    | split

theorem execModexp_keeps {s0 : State} (ring : Nat) (s : State) (h : Keeps s0 s) :
    KeepsO s0 (execModexp ring s) := by
  unfold execModexp
  repeat' first
    | with_reducible assumption
    | with_reducible apply State.bnRow_keeps
    | with_reducible apply KeepsO.next

theorem execModmul_keeps {s0 : State} (ring : Nat) (s : State) (h : Keeps s0 s) :
    KeepsO s0 (execModmul ring s) := by
  unfold execModmul
  repeat' first
    | with_reducible assumption
    | with_reducible apply State.bnRow_keeps
    | with_reducible apply KeepsO.next

theorem execRsaPublic_keeps {s0 : State} (ring : Nat) (s : State) (h : Keeps s0 s) :
    KeepsO s0 (execRsaPublic ring s) := by
  unfold execRsaPublic
  repeat' first
    | with_reducible assumption
    | with_reducible apply State.bnRow_keeps
    | with_reducible apply KeepsO.next

theorem execRsaPrivate_keeps {s0 : State} (ring : Nat) (s : State) (h : Keeps s0 s) :
    KeepsO s0 (execRsaPrivate ring s) := by
  unfold execRsaPrivate
  repeat' first
    | with_reducible assumption
    | with_reducible apply State.bnRow_keeps
    | with_reducible apply KeepsO.next

theorem execEcdsaSign_keeps {s0 : State} (ring : Nat) (s : State) (h : Keeps s0 s) :
    KeepsO s0 (execEcdsaSign ring s) := by
  unfold execEcdsaSign
  repeat' first
    | with_reducible assumption
    | with_reducible apply State.bnRow_keeps
    | with_reducible apply KeepsO.next

theorem execEcdsaVerify_keeps {s0 : State} (ring : Nat) (s : State) (h : Keeps s0 s) :
    KeepsO s0 (execEcdsaVerify ring s) := by
  unfold execEcdsaVerify
  repeat' first
    | with_reducible assumption
    | with_reducible apply State.bnRow_keeps
    | with_reducible apply KeepsO.next

theorem execEcdh_keeps {s0 : State} (ring : Nat) (s : State) (h : Keeps s0 s) :
    KeepsO s0 (execEcdh ring s) := by
  unfold execEcdh
  repeat' first
    | with_reducible assumption
    | with_reducible apply State.bnRow_keeps
    | with_reducible apply KeepsO.next

theorem execX25519_keeps {s0 : State} (ring : Nat) (s : State) (h : Keeps s0 s) :
    KeepsO s0 (execX25519 ring s) := by
  unfold execX25519
  repeat' first
    | with_reducible assumption
    | with_reducible apply State.bnRow_keeps
    | with_reducible apply KeepsO.next

theorem execEd25519Sign_keeps {s0 : State} (ring : Nat) (s : State) (h : Keeps s0 s) :
    KeepsO s0 (execEd25519Sign ring s) := by
  unfold execEd25519Sign
  repeat' first
    | with_reducible assumption
    | with_reducible apply State.bnRow_keeps
    | with_reducible apply KeepsO.next

theorem execEd25519Verify_keeps {s0 : State} (ring : Nat) (s : State) (h : Keeps s0 s) :
    KeepsO s0 (execEd25519Verify ring s) := by
  unfold execEd25519Verify
  repeat' first
    | with_reducible assumption
    | with_reducible apply State.bnRow_keeps
    | with_reducible apply KeepsO.next

theorem State.bnEnd_keeps {s0 : State} (s : State) (w : Work) (j : BnJob) (o : BnOutcome) (h : Keeps s0 s) :
    Keeps s0 (State.bnEnd s w j o) := by
  unfold State.bnEnd
  try dsimp only
  repeat' first
    | with_reducible assumption
    | with_reducible apply State.refuse_keeps
    | with_reducible apply State.finish_keeps
    | with_reducible apply State.hostWrite_keeps
    | with_reducible apply Keeps.ite
    | split

end Sys2Proof.Machine
end

