-- ==== Sys2Proof/Laws/KeepsRings.lean ====
section
/-! SUPPORT. The operations of Machine/Rings.lean keep what `Keeps` says. -/

namespace Sys2Proof.Machine
open Sys2Proof

set_option Elab.async false

theorem State.modFetch_keeps {s0 : State} (s : State) (ring : Nat) (f : Read → Read) (h : Keeps s0 s) :
    Keeps s0 (State.modFetch s ring f) := by
  unfold State.modFetch
  repeat' first
    | with_reducible assumption
    | with_reducible refine Keeps.plain ?_

theorem State.plogHeld_keeps {s0 : State} (s : State) (rule : Nat) (slice : Nat) (ring : Nat) (h : Keeps s0 s) :
    Keeps s0 (State.plogHeld s rule slice ring) := by
  unfold State.plogHeld
  repeat' first
    | with_reducible assumption
    | with_reducible apply State.plogEvent_keeps

theorem State.haltRing_keeps {s0 : State} (s : State) (ring cause first : Nat) (h : Keeps s0 s) :
    Keeps s0 (State.haltRing s ring cause first) := by
  unfold State.haltRing
  try dsimp only
  repeat' first
    | with_reducible assumption
    | with_reducible apply State.modFetch_keeps
    | with_reducible apply State.modSq_keeps
    | with_reducible apply State.plogHeld_keeps

theorem State.fetchServed_keeps {s0 : State} (s : State) (ring : Nat) (h : Keeps s0 s) :
    Keeps s0 (State.fetchServed s ring) := by
  unfold State.fetchServed
  try dsimp only
  repeat' first
    | with_reducible assumption
    | with_reducible refine Keeps.plain ?_

theorem State.fetchRead_keeps {s0 : State} (s : State) (ring : Nat) (h : Keeps s0 s) :
    Keeps s0 (State.fetchRead s ring) := by
  unfold State.fetchRead
  try dsimp only
  repeat' first
    | with_reducible assumption
    | with_reducible apply State.fetchServed_keeps
    | with_reducible apply State.haltRing_keeps
    | with_reducible apply State.hostRead_keeps
    | with_reducible apply State.modSq_keeps
    | with_reducible apply Keeps.ite

theorem execFetchReadIssue_keeps {s0 : State} (ring : Nat) (s : State) (h : Keeps s0 s) :
    KeepsO s0 (execFetchReadIssue ring s) := by
  unfold execFetchReadIssue
  repeat' first
    | with_reducible assumption
    | with_reducible apply State.fetchRead_keeps
    | with_reducible apply KeepsO.next

theorem State.fetchRetry_keeps {s0 : State} (s : State) (ring index : Nat) (poisoned : Bool) (h : Keeps s0 s) :
    Keeps s0 (State.fetchRetry s ring index poisoned) := by
  unfold State.fetchRetry
  split
  · exact h
  · refine Keeps.ite (State.dropRead_keeps _ _ h) ?_
    split
    · exact Keeps.ite (State.haltRing_keeps _ _ _ _ (State.dropRead_keeps _ _ h))
        (State.plogHeld_keeps _ _ _ _ (State.modRead_keeps _ _ _ h))
    · have o := fun r => State.rereadNow_keeps s r .fetch h
      exact Keeps.ite h (Keeps.ite (o _) (State.haltRing_keeps _ _ _ _ (o _)))

theorem execFetchReadRetry_keeps {s0 : State} (ring index : Nat) (poisoned : Bool) (s : State) (h : Keeps s0 s)
      :
    KeepsO s0 (execFetchReadRetry ring index poisoned s) := by
  unfold execFetchReadRetry
  try dsimp only
  repeat' first
    | with_reducible refine KeepsO.next ?_
    | with_reducible apply KeepsO.ite
    | with_reducible assumption
    | with_reducible apply State.fetchRetry_keeps

theorem State.addWork_keeps {s0 : State} (s : State) (w : Work) (h : Keeps s0 s) :
    Keeps s0 (State.addWork s w) := by
  unfold State.addWork
  repeat' first
    | with_reducible assumption
    | with_reducible refine Keeps.upd ?_

theorem State.addDone_keeps {s0 : State} (s : State) (w : Work) (st : Status) (res : Bytes) (h : Keeps s0 s) :
    Keeps s0 (State.addDone s w st res) := by
  unfold State.addDone
  repeat' first
    | with_reducible assumption
    | with_reducible apply State.finish_keeps
    | with_reducible apply State.addWork_keeps

theorem State.refuseHeader_keeps {s0 : State} (s : State) (w : Work) (check : Nat) (st : Status) (h : Keeps s0 s) :
    Keeps s0 (State.refuseHeader s w check st) := by
  unfold State.refuseHeader
  try dsimp only
  repeat' first
    | with_reducible assumption
    | with_reducible apply State.plogWork_keeps
    | with_reducible apply State.addDone_keeps

theorem State.route_keeps {s0 : State} (s : State) (w : Work) (h : Keeps s0 s) :
    Keeps s0 (State.route s w) := by
  unfold State.route
  repeat' first
    | with_reducible assumption
    | with_reducible apply State.refuseHeader_keeps
    | with_reducible apply State.addDone_keeps
    | with_reducible apply State.plogWork_keeps
    | with_reducible apply State.addWork_keeps
    | with_reducible apply Keeps.ite
    | split

theorem State.faultDescriptor_keeps {s0 : State} (s : State) (w : Work) (header : Bool) (h : Keeps s0 s) :
    Keeps s0 (State.faultDescriptor s w header) := by
  unfold State.faultDescriptor
  repeat' first
    | with_reducible assumption
    | with_reducible apply State.addDone_keeps

theorem State.rereadFrom_keeps {s0 : State} (s : State) (ring : Nat) (slot : Nat) (h : Keeps s0 s) :
    Keeps s0 (State.rereadFrom s ring slot) := by
  unfold State.rereadFrom
  try dsimp only
  repeat' first
    | with_reducible assumption
    | with_reducible apply State.modSq_keeps
    | with_reducible apply State.modFetch_keeps

theorem State.partRead_keeps {s0 : State} (s : State) (ring : Nat) (slot : Nat) (need : Nat) (data : Bytes) (h :
      Keeps s0 s) :
    Keeps s0 (State.partRead s ring slot need data) := by
  unfold State.partRead
  repeat' first
    | with_reducible assumption
    | with_reducible apply State.modSq_keeps
    | with_reducible apply Keeps.ite

theorem State.presentOne_keeps {s0 : State} (s : State) (ring : Nat) (slot : Nat) (n : Nat) (d : Bytes) (pre : Bool)
      (h : Keeps s0 s) :
    Keeps s0 (State.presentOne s ring slot n d pre) := by
  unfold State.presentOne
  try dsimp only
  repeat' first
    | with_reducible assumption
    | with_reducible apply State.modSq_keeps
    | with_reducible apply State.addDone_keeps
    | with_reducible apply State.route_keeps
    | with_reducible apply Keeps.ite

theorem State.skipRest_keeps {s0 : State} (s : State) (ring slot n have_ : Nat) (h : Keeps s0 s) :
    Keeps s0 (State.skipRest s ring slot n have_) := by
  unfold State.skipRest
  try dsimp only
  repeat' first
    | with_reducible assumption
    | with_reducible apply State.modFetch_keeps
    | with_reducible apply State.modSq_keeps
    | with_reducible apply Keeps.ite
    | split
    | intro _

theorem State.present_keeps {s0 : State} (s : State) (ring : Nat) (pre : Bool) (fuel slot : Nat) (data : Bytes)
    (bad : List Nat) (h : Keeps s0 s) : Keeps s0 (State.present s ring pre fuel slot data bad) := by
  induction fuel generalizing s slot data bad with
  | zero => exact h
  | succ n ih =>
    unfold State.present
    dsimp only
    refine Keeps.ite h (Keeps.ite ?_ (Keeps.ite (State.partRead_keeps _ _ _ _ _ h) (ih _ _ _ _ ?_)))
    · have hu := State.uncorrectable_keeps s unitDma 9 (s.sqAt ring).slice 0 h
      exact Keeps.ite (ih _ _ _ _ (State.skipRest_keeps _ _ _ _ _ (State.faultDescriptor_keeps _ _ _ (State.modSq_keeps _ _ _ hu))))
        (State.rereadFrom_keeps _ _ _ hu)
    · exact State.presentOne_keeps _ _ _ _ _ _ h

theorem State.arrival_keeps {s0 : State} (s : State) (ring : Nat) (data : Bytes) (bad : List Nat) (h : Keeps s0 s) :
    Keeps s0 (State.arrival s ring data bad) := by
  unfold State.arrival
  try dsimp only
  repeat' first
    | with_reducible assumption
    | with_reducible apply State.dropRead_keeps
    | with_reducible apply State.modSq_keeps
    | with_reducible apply State.present_keeps
    | with_reducible apply Keeps.ite
    | split

theorem execDescriptorArrival_keeps {s0 : State} (ring : Nat) (data : Bytes) (bad : List Nat) (s : State) (h : Keeps
      s0 s) :
    KeepsO s0 (execDescriptorArrival ring data bad s) := by
  unfold execDescriptorArrival
  repeat' first
    | with_reducible assumption
    | with_reducible apply State.arrival_keeps
    | with_reducible apply KeepsO.next

theorem execNop_keeps {s0 : State} (ring : Nat) (s : State) (h : Keeps s0 s) :
    KeepsO s0 (execNop ring s) := by
  unfold execNop
  repeat' first
    | with_reducible assumption
    | with_reducible apply State.onStart_keeps
    | with_reducible apply State.finish_keeps
    | with_reducible apply KeepsO.next
    | intro _

theorem State.message_keeps {s0 : State} (s : State) (v : Nat) (h : Keeps s0 s) :
    Keeps s0 (State.message s v) := by
  unfold State.message
  try dsimp only
  repeat' first
    | with_reducible assumption
    | with_reducible apply State.setVector_keeps
    | with_reducible apply State.emit_keeps
    | with_reducible apply Keeps.ite

theorem State.ringMessage_keeps {s0 : State} (s : State) (ring : Nat) (h : Keeps s0 s) :
    Keeps s0 (State.ringMessage s ring) := by
  unfold State.ringMessage
  try dsimp only
  repeat' first
    | with_reducible assumption
    | with_reducible apply State.message_keeps
    | with_reducible apply State.modSq_keeps

theorem State.moderate_keeps {s0 : State} (s : State) (ring : Nat) (h : Keeps s0 s) :
    Keeps s0 (State.moderate s ring) := by
  unfold State.moderate
  try dsimp only
  repeat' first
    | with_reducible assumption
    | with_reducible apply State.modSq_keeps
    | with_reducible apply State.ringMessage_keeps
    | with_reducible apply Keeps.ite

theorem State.timer_keeps {s0 : State} (s : State) (ring : Nat) (h : Keeps s0 s) :
    Keeps s0 (State.timer s ring) := by
  unfold State.timer
  try dsimp only
  repeat' first
    | with_reducible assumption
    | with_reducible apply State.ringMessage_keeps
    | with_reducible apply Keeps.ite
    | split

theorem execMsixTimerExpiry_keeps {s0 : State} (ring : Nat) (s : State) (h : Keeps s0 s) :
    KeepsO s0 (execMsixTimerExpiry ring s) := by
  unfold execMsixTimerExpiry
  repeat' first
    | with_reducible assumption
    | with_reducible apply State.timer_keeps
    | with_reducible apply KeepsO.next

theorem State.countDropped_keeps {s0 : State} (s : State) (slice n : Nat) (h : Keeps s0 s) :
    Keeps s0 (State.countDropped s slice n) := by
  unfold State.countDropped
  try dsimp only
  repeat' first
    | with_reducible assumption
    | with_reducible apply State.modSlice_keeps

theorem State.dropWrites_keeps {s0 : State} (s : State) (w : Work) (h : Keeps s0 s) :
    Keeps s0 (State.dropWrites s w) := by
  unfold State.dropWrites
  try dsimp only
  repeat' first
    | with_reducible assumption
    | with_reducible apply State.countDropped_keeps
    | with_reducible apply State.countLate_keeps
    | with_reducible apply State.dropWork_keeps

theorem State.stall_keeps {s0 : State} (s : State) (cq : Nat) (ring : Nat) (slice : Nat) (h : Keeps s0 s) :
    Keeps s0 (State.stall s cq ring slice) := by
  unfold State.stall
  try dsimp only
  repeat' first
    | with_reducible assumption
    | with_reducible apply State.modCq_keeps
    | with_reducible apply State.plogHeld_keeps

theorem State.issued_keeps {s0 : State} (s : State) (w : Work) (c : Cpl) (head : Nat) (h : Keeps s0 s) :
    Keeps s0 (State.issued s w c head) := by
  unfold State.issued
  try dsimp only
  repeat' first
    | with_reducible assumption
    | with_reducible apply State.countLate_keeps
    | with_reducible apply State.dropWork_keeps
    | with_reducible apply State.modSq_keeps
    | with_reducible apply State.modCq_keeps
    | with_reducible apply State.moderate_keeps
    | with_reducible apply State.fenceRing_keeps
    | with_reducible apply Keeps.ite

theorem State.issueWrites_keeps {s0 : State} (s : State) (w : Work) (c : Cpl) (h : Keeps s0 s) :
    Keeps s0 (State.issueWrites s w c) := by
  unfold State.issueWrites
  try dsimp only
  repeat' first
    | with_reducible assumption
    | with_reducible apply State.modWork_keeps
    | with_reducible apply State.writeChecked_keeps
    | with_reducible apply State.hostWrite_keeps
    | with_reducible apply State.stall_keeps
    | with_reducible apply State.issued_keeps
    | with_reducible apply Keeps.ite
    | split

theorem State.issueCpl_keeps {s0 : State} (s : State) (ring : Nat) (h : Keeps s0 s) :
    Keeps s0 (State.issueCpl s ring) := by
  unfold State.issueCpl
  try dsimp only
  repeat' first
    | with_reducible assumption
    | with_reducible apply State.dropWrites_keeps
    | with_reducible apply State.issueWrites_keeps
    | with_reducible apply Keeps.ite
    | split

theorem execCompletionIssue_keeps {s0 : State} (ring : Nat) (s : State) (h : Keeps s0 s) :
    KeepsO s0 (execCompletionIssue ring s) := by
  unfold execCompletionIssue
  repeat' first
    | with_reducible assumption
    | with_reducible apply State.issueCpl_keeps
    | with_reducible apply KeepsO.next

theorem State.cqRetry_keeps {s0 : State} (s : State) (cq : Nat) (h : Keeps s0 s) :
    Keeps s0 (State.cqRetry s cq) := by
  unfold State.cqRetry
  try dsimp only
  repeat' first
    | with_reducible assumption
    | with_reducible apply State.issueCpl_keeps
    | with_reducible apply State.modCq_keeps
    | with_reducible apply Keeps.ite

theorem execCompletionWriteRetry_keeps {s0 : State} (cq : Nat) (s : State) (h : Keeps s0 s) :
    KeepsO s0 (execCompletionWriteRetry cq s) := by
  unfold execCompletionWriteRetry
  repeat' first
    | with_reducible assumption
    | with_reducible apply State.cqRetry_keeps
    | with_reducible apply KeepsO.next

theorem State.sqErr_keeps {s0 : State} (s : State) (ring : Nat) (err : Nat) (offset : Nat) (h : Keeps s0 s) :
    Keeps s0 (State.sqErr s ring err offset) := by
  unfold State.sqErr
  try dsimp only
  repeat' first
    | with_reducible assumption
    | with_reducible apply State.modSq_keeps
    | with_reducible apply State.plogEvent_keeps
    | with_reducible apply Keeps.ite

theorem State.cqErr_keeps {s0 : State} (s : State) (cq : Nat) (err : Nat) (offset : Nat) (h : Keeps s0 s) :
    Keeps s0 (State.cqErr s cq err offset) := by
  unfold State.cqErr
  try dsimp only
  repeat' first
    | with_reducible assumption
    | with_reducible apply State.modCq_keeps
    | with_reducible apply State.plogEvent_keeps
    | with_reducible apply Keeps.ite

theorem State.sqDisable_keeps {s0 : State} (s : State) (ring : Nat) (h : Keeps s0 s) :
    Keeps s0 (State.sqDisable s ring) := by
  unfold State.sqDisable
  try dsimp only
  repeat' first
    | with_reducible assumption
    | with_reducible apply State.modSq_keeps
    | with_reducible apply State.modFetch_keeps

theorem State.sqCfg_keeps {s0 : State} (s : State) (ring : Nat) (value : Nat) (h : Keeps s0 s) :
    Keeps s0 (State.sqCfg s ring value) := by
  unfold State.sqCfg
  try dsimp only
  repeat' first
    | with_reducible assumption
    | with_reducible apply State.sqDisable_keeps
    | with_reducible apply State.sqErr_keeps
    | with_reducible apply State.modSq_keeps
    | with_reducible apply Keeps.ite

theorem State.cqCfg_keeps {s0 : State} (s : State) (cq : Nat) (value : Nat) (h : Keeps s0 s) :
    Keeps s0 (State.cqCfg s cq value) := by
  unfold State.cqCfg
  try dsimp only
  repeat' first
    | with_reducible assumption
    | with_reducible apply State.cqErr_keeps
    | with_reducible apply State.modCq_keeps
    | with_reducible apply Keeps.ite

theorem State.ringCfg_keeps {s0 : State} (s : State) (value : Nat) (h : Keeps s0 s) :
    Keeps s0 (State.ringCfg s value) := by
  unfold State.ringCfg
  repeat' first
    | with_reducible assumption
    | with_reducible apply State.cqCfg_keeps
    | with_reducible apply State.sqCfg_keeps
    | with_reducible apply Keeps.ite

theorem execRingEnable_keeps {s0 : State} (value : Nat) (s : State) (h : Keeps s0 s) :
    KeepsO s0 (execRingEnable value s) := by
  unfold execRingEnable
  repeat' first
    | with_reducible assumption
    | with_reducible apply State.onReg_keeps
    | with_reducible apply State.ringCfg_keeps
    | with_reducible apply KeepsO.next
    | with_reducible apply Keeps.ite
    | intro _

theorem execRingDisable_keeps {s0 : State} (value : Nat) (s : State) (h : Keeps s0 s) :
    KeepsO s0 (execRingDisable value s) := by
  unfold execRingDisable
  repeat' first
    | with_reducible assumption
    | with_reducible apply State.onReg_keeps
    | with_reducible apply State.ringCfg_keeps
    | with_reducible apply KeepsO.next
    | with_reducible apply Keeps.ite
    | intro _

theorem State.disableDone_keeps {s0 : State} (s : State) (ring : Nat) (h : Keeps s0 s) :
    Keeps s0 (State.disableDone s ring) := by
  unfold State.disableDone
  repeat' first
    | with_reducible assumption
    | with_reducible apply State.modSq_keeps
    | with_reducible apply Keeps.ite

theorem execRingDisableDone_keeps {s0 : State} (ring : Nat) (s : State) (h : Keeps s0 s) :
    KeepsO s0 (execRingDisableDone ring s) := by
  unfold execRingDisableDone
  repeat' first
    | with_reducible assumption
    | with_reducible apply State.disableDone_keeps
    | with_reducible apply KeepsO.next

theorem State.unfence_keeps {s0 : State} (s : State) (ring : Nat) (h : Keeps s0 s) :
    Keeps s0 (State.unfence s ring) := by
  unfold State.unfence
  try dsimp only
  repeat' first
    | with_reducible assumption
    | with_reducible apply State.modFetch_keeps
    | with_reducible apply State.modSq_keeps
    | with_reducible apply Keeps.ite

theorem execUnfence_keeps {s0 : State} (s : State) (h : Keeps s0 s) :
    KeepsO s0 (execUnfence s) := by
  unfold execUnfence
  try dsimp only
  repeat' first
    | with_reducible refine KeepsO.next ?_
    | with_reducible apply KeepsO.ite
    | with_reducible assumption
    | with_reducible apply State.defer_keeps
    | with_reducible apply State.onReg_keeps
    | with_reducible apply State.unfence_keeps
    | with_reducible apply Keeps.ite
    | split
    | intro _

end Sys2Proof.Machine
end

