-- ==== Sys2Proof/Laws/KeepsFencing.lean ====
section
/-! SUPPORT. The operations of Machine/Fencing.lean keep what `Keeps` says. -/

namespace Sys2Proof.Machine
open Sys2Proof

set_option Elab.async false

theorem State.recordBook_keeps {s0 : State} (s : State) (book : Nat) (h : Keeps s0 s) :
    Keeps s0 (State.recordBook s book) := by
  unfold State.recordBook
  try dsimp only
  repeat' first
    | with_reducible assumption
    | with_reducible apply State.nvPut_keeps
    | with_reducible refine Keeps.upd ?_

theorem State.bookState_keeps {s0 : State} (s : State) (book : Nat) (st : BookState) (h : Keeps s0 s) :
    Keeps s0 (State.bookState s book st) := by
  unfold State.bookState
  repeat' first
    | with_reducible assumption
    | with_reducible apply State.recordBook_keeps
    | with_reducible apply State.modBook_keeps

theorem State.endEntry_keeps {s0 : State} (s : State) (e : Entry) (st : Status) (res : Bytes) (fence : Bool) (h :
      Keeps s0 s) :
    Keeps s0 (State.endEntry s e st res fence) := by
  unfold State.endEntry
  try dsimp only
  repeat' first
    | with_reducible assumption
    | with_reducible apply State.answerCore_keeps
    | with_reducible apply State.modWork_keeps
    | with_reducible apply State.finish_keeps
    | with_reducible apply State.finishRaw_keeps
    | with_reducible apply Keeps.ite

theorem State.endEntries_keeps {s0 : State} (s : State) (p : Entry → Bool) (st : Status) (res : Bytes) (fence : Bool)
      (h : Keeps s0 s) :
    Keeps s0 (State.endEntries s p st res fence) := by
  unfold State.endEntries
  try dsimp only
  repeat' first
    | with_reducible assumption
    | with_reducible apply State.endEntry_keeps
    | with_reducible apply State.dropEntries_keeps
    | with_reducible apply Keeps.foldl
    | intro _

theorem State.eachWork_keeps {s0 : State} (s : State) (p : Work → Bool) (f : State → Work → State) (h : Keeps s0 s)
      (hf : ∀ y0 y1, Keeps s0 y0 → Keeps s0 (f y0 y1)) :
    Keeps s0 (State.eachWork s p f) := by
  unfold State.eachWork
  repeat' first
    | with_reducible assumption
    | with_reducible apply Keeps.foldl

theorem Core.released_wf {c : Core} (h : c.Wf) (book i p : Nat) : (c.released book i p).Wf := by
  unfold Core.released
  repeat' split
  all_goals first | exact h | exact h.keep rfl rfl rfl rfl rfl rfl rfl

theorem State.releaseCalls_keeps {s0 : State} (s : State) (book : Nat) (h : Keeps s0 s) :
    Keeps s0 (State.releaseCalls s book) := by
  unfold State.releaseCalls
  refine h.upd (h10 := fun k e he => ?_)
  have he' : e ∈ tmap Core.reset (fun x => Core.released x book _ _) s.applets.cores := he
  obtain ⟨x, hx, rfl⟩ := mem_tmap he'
  exact Core.released_wf (k x hx) _ _ _

theorem State.releaseWithheld_keeps {s0 : State} (s : State) (book : Nat) (h : Keeps s0 s) :
    Keeps s0 (State.releaseWithheld s book) := by
  unfold State.releaseWithheld
  try dsimp only
  repeat' first
    | with_reducible assumption
    | with_reducible apply State.fenceRing_keeps
    | with_reducible apply State.finishRaw_keeps
    | with_reducible apply State.modWork_keeps
    | with_reducible apply State.releaseCalls_keeps
    | with_reducible apply Keeps.foldl
    | with_reducible refine Keeps.plain ?_
    | intro _

theorem State.markEnding_keeps {s0 : State} (s : State) (rank : Nat) (ids : List Nat) (h : Keeps s0 s) :
    Keeps s0 (State.markEnding s rank ids) := by
  unfold State.markEnding
  try dsimp only
  repeat' first
    | with_reducible assumption
    | with_reducible apply Keeps.ite
    | split
    | with_reducible refine Keeps.plain ?_

theorem State.endBookWork_keeps {s0 : State} (s : State) (book : Nat) (st : Status) (h : Keeps s0 s) :
    Keeps s0 (State.endBookWork s book st) := by
  unfold State.endBookWork
  try dsimp only
  repeat' first
    | with_reducible assumption
    | with_reducible apply State.eachWork_keeps
    | with_reducible apply State.endEntries_keeps
    | with_reducible apply State.finishRaw_keeps
    | with_reducible apply State.markEnding_keeps
    | with_reducible apply State.plogWork_keeps
    | with_reducible apply State.redecide_keeps
    | with_reducible apply Keeps.ite
    | split
    | intro _

theorem State.endCheckpoints_keeps {s0 : State} (s : State) (book : Nat) (st : Status) (h : Keeps s0 s) :
    Keeps s0 (State.endCheckpoints s book st) := by
  unfold State.endCheckpoints
  try dsimp only
  repeat' first
    | with_reducible assumption
    | with_reducible apply State.eachWork_keeps
    | with_reducible apply State.finishRaw_keeps
    | with_reducible apply State.modBook_keeps
    | intro _

theorem State.dropLoads_keeps {s0 : State} (s : State) (book : Nat) (h : Keeps s0 s) :
    Keeps s0 (State.dropLoads s book) := by
  unfold State.dropLoads
  try dsimp only
  repeat' first
    | with_reducible assumption
    | with_reducible apply State.orphanReads_keeps
    | with_reducible refine Keeps.plain ?_

theorem State.fenceIntegrity_keeps {s0 : State} (s : State) (book : Nat) (h : Keeps s0 s) :
    Keeps s0 (State.fenceIntegrity s book) := by
  unfold State.fenceIntegrity
  try dsimp only
  repeat' first
    | with_reducible assumption
    | with_reducible apply State.bookState_keeps
    | with_reducible apply State.dropLoads_keeps
    | with_reducible apply State.endBookWork_keeps
    | with_reducible apply State.endCheckpoints_keeps
    | with_reducible apply State.modBook_keeps
    | with_reducible apply State.releaseWithheld_keeps
    | with_reducible apply State.standInK_keeps
    | with_reducible apply Keeps.ite

theorem State.salternFailure_keeps {s0 : State} (s : State) (book : Nat) (level : Nat) (index : Nat) (h : Keeps s0 s)
      :
    Keeps s0 (State.salternFailure s book level index) := by
  unfold State.salternFailure
  repeat' first
    | with_reducible assumption
    | with_reducible apply State.fenceIntegrity_keeps
    | with_reducible apply State.level1_keeps

end Sys2Proof.Machine
end

