-- ==== Sys2Proof/Laws/KeepsSlices.lean ====
section
/-! SUPPORT. The operations of Machine/Slices.lean keep what `Keeps` says. -/

namespace Sys2Proof.Machine
open Sys2Proof

set_option Elab.async false

theorem State.dropCollect_keeps {s0 : State} (s : State) (id : Nat) (h : Keeps s0 s) :
    Keeps s0 (State.dropCollect s id) := by
  unfold State.dropCollect
  try dsimp only
  repeat' first
    | with_reducible assumption
    | with_reducible apply Keeps.ite
    | split
    | with_reducible refine Keeps.plain ?_

theorem State.abandon_keeps {s0 : State} (s : State) (w : Work) (h : Keeps s0 s) :
    Keeps s0 (State.abandon s w) := by
  unfold State.abandon
  repeat' first
    | with_reducible assumption
    | with_reducible apply State.dropWork_keeps
    | with_reducible apply State.dropCollect_keeps
    | with_reducible apply State.releaseUnits_keeps

theorem State.endWriteBack_keeps {s0 : State} (s : State) (w : Work) (h : Keeps s0 s) :
    Keeps s0 (State.endWriteBack s w) := by
  unfold State.endWriteBack
  try dsimp only
  repeat' first
    | with_reducible assumption
    | with_reducible apply State.modBook_keeps

theorem State.muteCheckpoint_keeps {s0 : State} (s : State) (w : Work) (h : Keeps s0 s) :
    KeepsOpt s0 (State.muteCheckpoint s w) := by
  unfold State.muteCheckpoint
  repeat' first
    | with_reducible assumption
    | with_reducible apply State.modBook_keeps
    | with_reducible apply KeepsOpt.some
    | with_reducible apply KeepsOpt.none
    | split

theorem State.resetWork_keeps {s0 : State} (s : State) (w : Work) (h : Keeps s0 s) :
    Keeps s0 (State.resetWork s w) := by
  unfold State.resetWork
  repeat' first
    | with_reducible assumption
    | exact State.muteCheckpoint_keeps _ _ (by assumption) _ (by assumption)
    | with_reducible apply State.dropWrites_keeps
    | with_reducible apply State.dropWork_keeps
    | with_reducible apply State.abandon_keeps
    | with_reducible apply State.endWriteBack_keeps
    | with_reducible apply Keeps.ite
    | split

theorem State.discardFetch_keeps {s0 : State} (s : State) (slice : Nat) (h : Keeps s0 s) :
    Keeps s0 (State.discardFetch s slice) := by
  unfold State.discardFetch
  repeat' first
    | with_reducible assumption
    | with_reducible apply State.modFetch_keeps
    | with_reducible apply State.modSq_keeps
    | with_reducible apply Keeps.foldl
    | intro _

theorem State.startReset_keeps {s0 : State} (s : State) (slice : Nat) (remove : Bool) (h : Keeps s0 s) :
    Keeps s0 (State.startReset s slice remove) := by
  unfold State.startReset
  try dsimp only
  repeat' first
    | with_reducible assumption
    | with_reducible apply State.discardFetch_keeps
    | with_reducible apply State.dropEntries_keeps
    | with_reducible apply State.modBook_keeps
    | with_reducible apply State.modSlice_keeps
    | with_reducible apply State.resetWork_keeps
    | with_reducible apply State.standInK_keeps
    | with_reducible apply Keeps.foldl

theorem State.plogSlice_keeps {s0 : State} (s : State) (slice : Nat) (o : Nat) (err : Nat) (h : Keeps s0 s) :
    Keeps s0 (State.plogSlice s slice o err) := by
  unfold State.plogSlice
  repeat' first
    | with_reducible assumption
    | with_reducible apply State.plogReg_keeps

theorem State.quotaRefused_keeps {s0 : State} (s : State) (slice : Nat) (o : Nat) (h : Keeps s0 s) :
    Keeps s0 (State.quotaRefused s slice o) := by
  unfold State.quotaRefused
  repeat' first
    | with_reducible assumption
    | with_reducible apply State.plogSlice_keeps
    | with_reducible apply State.modSlice_keeps

theorem State.quotaWrite_keeps {s0 : State} (s : State) (slice : Nat) (r : QuotaReg) (value : Nat) (h : Keeps s0 s) :
    Keeps s0 (State.quotaWrite s slice r value) := by
  unfold State.quotaWrite
  try dsimp only
  repeat' first
    | with_reducible assumption
    | with_reducible apply State.quotaRefused_keeps
    | with_reducible apply State.setSlice_keeps
    | with_reducible apply State.modSlice_keeps
    | with_reducible apply Keeps.ite
    | split

theorem execSliceQuotaWrite_keeps {s0 : State} (slice : Nat) (quota : QuotaReg) (value : Nat) (s : State) (h :
      Keeps s0 s) :
    KeepsO s0 (execSliceQuotaWrite slice quota value s) := by
  unfold execSliceQuotaWrite
  try dsimp only
  repeat' first
    | with_reducible refine KeepsO.next ?_
    | with_reducible apply KeepsO.ite
    | with_reducible assumption
    | with_reducible apply State.defer_keeps
    | with_reducible apply State.onReg_keeps
    | intro _

theorem State.tokenRefused_keeps {s0 : State} (s : State) (slice : Nat) (h : Keeps s0 s) :
    Keeps s0 (State.tokenRefused s slice) := by
  unfold State.tokenRefused
  try dsimp only
  repeat' first
    | with_reducible assumption
    | with_reducible apply State.plogSlice_keeps
    | with_reducible refine Keeps.plain ?_

theorem State.tokenWrite_keeps {s0 : State} (s : State) (slice : Nat) (value : Nat) (h : Keeps s0 s) :
    Keeps s0 (State.tokenWrite s slice value) := by
  unfold State.tokenWrite
  try dsimp only
  repeat' first
    | with_reducible assumption
    | with_reducible apply State.tokenRefused_keeps
    | with_reducible apply State.setSlice_keeps
    | with_reducible apply Keeps.ite

theorem execTokenQuotaWrite_keeps {s0 : State} (slice : Nat) (value : Nat) (s : State) (h : Keeps s0 s) :
    KeepsO s0 (execTokenQuotaWrite slice value s) := by
  unfold execTokenQuotaWrite
  repeat' first
    | with_reducible assumption
    | with_reducible apply State.onReg_keeps
    | with_reducible apply State.tokenWrite_keeps
    | with_reducible apply KeepsO.next
    | intro _

theorem State.tokensIn_keeps {s0 : State} (s : State) (slice : Nat) (h : Keeps s0 s) :
    Keeps s0 (State.tokensIn s slice) := by
  unfold State.tokensIn
  repeat' first
    | with_reducible assumption
    | with_reducible apply State.tokenRefused_keeps
    | with_reducible apply State.modSlice_keeps
    | with_reducible apply Keeps.ite

theorem State.pasidWrite_keeps {s0 : State} (s : State) (slice : Nat) (value : Nat) (h : Keeps s0 s) :
    Keeps s0 (State.pasidWrite s slice value) := by
  unfold State.pasidWrite
  repeat' first
    | with_reducible assumption
    | with_reducible apply State.modSlice_keeps
    | with_reducible apply State.plogSlice_keeps
    | with_reducible apply Keeps.ite

theorem execSlicePasidWrite_keeps {s0 : State} (slice : Nat) (value : Nat) (s : State) (h : Keeps s0 s) :
    KeepsO s0 (execSlicePasidWrite slice value s) := by
  unfold execSlicePasidWrite
  repeat' first
    | with_reducible assumption
    | with_reducible apply State.onReg_keeps
    | with_reducible apply State.pasidWrite_keeps
    | with_reducible apply KeepsO.next
    | intro _

theorem State.sliceErr_keeps {s0 : State} (s : State) (slice : Nat) (err : Nat) (h : Keeps s0 s) :
    Keeps s0 (State.sliceErr s slice err) := by
  unfold State.sliceErr
  repeat' first
    | with_reducible assumption
    | with_reducible apply State.plogSlice_keeps
    | with_reducible apply State.modSlice_keeps

theorem State.sliceActivate_keeps {s0 : State} (s : State) (slice : Nat) (h : Keeps s0 s) :
    Keeps s0 (State.sliceActivate s slice) := by
  unfold State.sliceActivate
  try dsimp only
  repeat' first
    | with_reducible assumption
    | with_reducible apply State.sliceErr_keeps
    | with_reducible apply State.tokensIn_keeps
    | with_reducible apply State.modSlice_keeps
    | with_reducible apply Keeps.ite

theorem execActivate_keeps {s0 : State} (slice : Nat) (s : State) (h : Keeps s0 s) :
    KeepsO s0 (execActivate slice s) := by
  unfold execActivate
  try dsimp only
  repeat' first
    | with_reducible refine KeepsO.next ?_
    | with_reducible apply KeepsO.ite
    | with_reducible assumption
    | with_reducible apply State.defer_keeps
    | with_reducible apply State.onReg_keeps
    | intro _

theorem State.sliceQuiesce_keeps {s0 : State} (s : State) (slice : Nat) (h : Keeps s0 s) :
    Keeps s0 (State.sliceQuiesce s slice) := by
  unfold State.sliceQuiesce
  repeat' first
    | with_reducible assumption
    | with_reducible apply State.sliceErr_keeps
    | with_reducible apply State.modSlice_keeps
    | with_reducible apply Keeps.ite

theorem execQuiesce_keeps {s0 : State} (slice : Nat) (s : State) (h : Keeps s0 s) :
    KeepsO s0 (execQuiesce slice s) := by
  unfold execQuiesce
  try dsimp only
  repeat' first
    | with_reducible refine KeepsO.next ?_
    | with_reducible apply KeepsO.ite
    | with_reducible assumption
    | with_reducible apply State.defer_keeps
    | with_reducible apply State.onReg_keeps
    | intro _

theorem State.sliceResume_keeps {s0 : State} (s : State) (slice : Nat) (h : Keeps s0 s) :
    Keeps s0 (State.sliceResume s slice) := by
  unfold State.sliceResume
  repeat' first
    | with_reducible assumption
    | with_reducible apply State.sliceErr_keeps
    | with_reducible apply State.tokensIn_keeps
    | with_reducible apply State.modSlice_keeps
    | with_reducible apply Keeps.ite

theorem execResume_keeps {s0 : State} (slice : Nat) (s : State) (h : Keeps s0 s) :
    KeepsO s0 (execResume slice s) := by
  unfold execResume
  try dsimp only
  repeat' first
    | with_reducible refine KeepsO.next ?_
    | with_reducible apply KeepsO.ite
    | with_reducible assumption
    | with_reducible apply State.defer_keeps
    | with_reducible apply State.onReg_keeps
    | intro _

theorem State.sliceReset_keeps {s0 : State} (s : State) (slice : Nat) (h : Keeps s0 s) :
    Keeps s0 (State.sliceReset s slice) := by
  unfold State.sliceReset
  try dsimp only
  repeat' first
    | with_reducible assumption
    | with_reducible apply State.modSlice_keeps
    | with_reducible apply State.sliceErr_keeps
    | with_reducible apply State.startReset_keeps
    | with_reducible apply Keeps.ite

theorem execReset_keeps {s0 : State} (slice : Nat) (s : State) (h : Keeps s0 s) :
    KeepsO s0 (execReset slice s) := by
  unfold execReset
  try dsimp only
  repeat' first
    | with_reducible refine KeepsO.next ?_
    | with_reducible apply KeepsO.ite
    | with_reducible assumption
    | with_reducible apply State.defer_keeps
    | with_reducible apply State.onReg_keeps
    | intro _

theorem State.sliceRemove_keeps {s0 : State} (s : State) (slice : Nat) (h : Keeps s0 s) :
    Keeps s0 (State.sliceRemove s slice) := by
  unfold State.sliceRemove
  try dsimp only
  repeat' first
    | with_reducible assumption
    | with_reducible apply State.modSlice_keeps
    | with_reducible apply State.sliceErr_keeps
    | with_reducible apply State.startReset_keeps
    | with_reducible apply Keeps.ite

theorem execRemove_keeps {s0 : State} (slice : Nat) (s : State) (h : Keeps s0 s) :
    KeepsO s0 (execRemove slice s) := by
  unfold execRemove
  try dsimp only
  repeat' first
    | with_reducible refine KeepsO.next ?_
    | with_reducible apply KeepsO.ite
    | with_reducible assumption
    | with_reducible apply State.defer_keeps
    | with_reducible apply State.onReg_keeps
    | intro _

theorem State.sliceCtl_keeps {s0 : State} (s : State) (slice : Nat) (cmd : Nat) (h : Keeps s0 s) :
    Keeps s0 (State.sliceCtl s slice cmd) := by
  unfold State.sliceCtl
  repeat' first
    | with_reducible assumption
    | with_reducible apply State.sliceActivate_keeps
    | with_reducible apply State.sliceQuiesce_keeps
    | with_reducible apply State.sliceResume_keeps
    | with_reducible apply State.sliceReset_keeps
    | with_reducible apply State.sliceRemove_keeps
    | with_reducible apply State.sliceErr_keeps
    | split

theorem State.removeSlice_keeps {s0 : State} (s : State) (slice : Nat) (h : Keeps s0 s) :
    Keeps s0 (State.removeSlice s slice) := by
  unfold State.removeSlice
  try dsimp only
  repeat' first
    | with_reducible assumption
    | with_reducible apply State.modSlice_keeps
    | with_reducible refine Keeps.upd ?_

theorem State.resetDone_keeps {s0 : State} (s : State) (slice : Nat) (h : Keeps s0 s) :
    Keeps s0 (State.resetDone s slice) := by
  unfold State.resetDone
  try dsimp only
  repeat' first
    | with_reducible assumption
    | with_reducible apply State.modSq_keeps
    | with_reducible apply State.removeSlice_keeps
    | with_reducible apply State.tokensIn_keeps
    | with_reducible apply State.modSlice_keeps
    | with_reducible apply Keeps.ite
    | with_reducible apply Keeps.foldl
    | intro _

theorem execSliceResetComplete_keeps {s0 : State} (slice : Nat) (s : State) (h : Keeps s0 s) :
    KeepsO s0 (execSliceResetComplete slice s) := by
  unfold execSliceResetComplete
  repeat' first
    | with_reducible assumption
    | with_reducible apply State.resetDone_keeps
    | with_reducible apply KeepsO.next

theorem State.sliceFree_keeps {s0 : State} (s : State) (slice : Nat) (h : Keeps s0 s) :
    Keeps s0 (State.sliceFree s slice) := by
  unfold State.sliceFree
  repeat' first
    | with_reducible assumption
    | with_reducible apply State.modSlice_keeps
    | with_reducible apply Keeps.ite

theorem execSliceFree_keeps {s0 : State} (slice : Nat) (s : State) (h : Keeps s0 s) :
    KeepsO s0 (execSliceFree slice s) := by
  unfold execSliceFree
  repeat' first
    | with_reducible assumption
    | with_reducible apply State.sliceFree_keeps
    | with_reducible apply KeepsO.next

theorem State.dplCtl_keeps {s0 : State} (s : State) (slice value : Nat) (h : Keeps s0 s) :
    Keeps s0 (State.dplCtl s slice value) := by
  unfold State.dplCtl
  try dsimp only
  repeat' first
    | with_reducible assumption
    | with_reducible apply State.defer_keeps
    | with_reducible apply State.plogSlice_keeps
    | with_reducible apply State.setSlice_keeps
    | with_reducible apply Keeps.ite

theorem execDplEnable_keeps {s0 : State} (slice : Nat) (value : Nat) (s : State) (h : Keeps s0 s) :
    KeepsO s0 (execDplEnable slice value s) := by
  unfold execDplEnable
  repeat' first
    | with_reducible assumption
    | with_reducible apply State.onReg_keeps
    | with_reducible apply State.dplCtl_keeps
    | with_reducible apply KeepsO.next
    | intro _

theorem State.dplConsume_keeps {s0 : State} (s : State) (slice : Nat) (value : Nat) (h : Keeps s0 s) :
    Keeps s0 (State.dplConsume s slice value) := by
  unfold State.dplConsume
  repeat' first
    | with_reducible assumption
    | with_reducible apply State.modSlice_keeps

theorem execDplReadWrite_keeps {s0 : State} (slice : Nat) (value : Nat) (s : State) (h : Keeps s0 s) :
    KeepsO s0 (execDplReadWrite slice value s) := by
  unfold execDplReadWrite
  repeat' first
    | with_reducible assumption
    | with_reducible apply State.onReg_keeps
    | with_reducible apply State.dplConsume_keeps
    | with_reducible apply KeepsO.next
    | intro _

end Sys2Proof.Machine
end

