-- ==== Sys2Proof/Laws/KeepsJournal.lean ====
section
/-! SUPPORT. The operations of Machine/Journal.lean keep what `Keeps` says. -/

namespace Sys2Proof.Machine
open Sys2Proof

set_option Elab.async false

theorem State.checkJournal_keeps {s0 : State} (s : State) (book : Nat) (h : Keeps s0 s) :
    Keeps s0 (State.checkJournal s book) := by
  unfold State.checkJournal
  try dsimp only
  repeat' first
    | with_reducible assumption
    | with_reducible apply State.modBook_keeps

theorem State.commitRecord_keeps {s0 : State} (s : State) (book : Nat) (r : RecordInfo) (h : Keeps s0 s) :
    Keeps s0 (State.commitRecord s book r) := by
  unfold State.commitRecord
  try dsimp only
  repeat' first
    | with_reducible assumption
    | with_reducible apply State.modBook_keeps

theorem State.throughBook_keeps {s0 : State} (s : State) (book : Nat) (h : Keeps s0 s) :
    Keeps s0 (State.throughBook s book) := by
  unfold State.throughBook
  try dsimp only
  repeat' first
    | with_reducible assumption
    | with_reducible apply State.nvPut_keeps
    | with_reducible apply Keeps.ite
    | with_reducible refine Keeps.upd ?_

theorem State.journalStall_keeps {s0 : State} (s : State) (book : Nat) (h : Keeps s0 s) :
    Keeps s0 (State.journalStall s book) := by
  unfold State.journalStall
  try dsimp only
  repeat' first
    | with_reducible assumption
    | with_reducible apply State.modBook_keeps
    | with_reducible apply State.plogEvent_keeps

theorem State.writeFrame_keeps {s0 : State} (s : State) (book : Nat) (r : Staged) (h : Keeps s0 s) :
    Keeps s0 (State.writeFrame s book r).1 := by
  unfold State.writeFrame
  try dsimp only
  repeat' first
    | with_reducible assumption
    | with_reducible apply State.hostWrite_keeps
    | with_reducible apply State.modBook_keeps
    | with_reducible apply Keeps.ite
    | split

theorem State.frameIssued_keeps {s0 : State} (s : State) (book : Nat) (r : Staged) (h : Keeps s0 s) :
    Keeps s0 (State.frameIssued s book r) := by
  unfold State.frameIssued
  try dsimp only
  repeat' first
    | with_reducible assumption
    | with_reducible apply State.issued_keeps
    | with_reducible apply State.modBook_keeps
    | with_reducible apply State.releaseWithheld_keeps
    | with_reducible apply State.throughBook_keeps
    | with_reducible apply Keeps.ite

theorem State.issueFrame_keeps {s0 : State} (s : State) (book : Nat) (h : Keeps s0 s) :
    Keeps s0 (State.issueFrame s book) := by
  unfold State.issueFrame
  try dsimp only
  repeat' first
    | with_reducible assumption
    | with_reducible apply State.writeFrame_keeps
    | with_reducible apply State.frameIssued_keeps
    | with_reducible apply State.journalStall_keeps
    | with_reducible apply Keeps.ite
    | split

theorem execFrameWriteIssue_keeps {s0 : State} (book : Nat) (s : State) (h : Keeps s0 s) :
    KeepsO s0 (execFrameWriteIssue book s) := by
  unfold execFrameWriteIssue
  repeat' first
    | with_reducible assumption
    | with_reducible apply State.issueFrame_keeps
    | with_reducible apply KeepsO.next
    | with_reducible apply Keeps.ite

theorem execFrameWriteRetry_keeps {s0 : State} (book : Nat) (s : State) (h : Keeps s0 s) :
    KeepsO s0 (execFrameWriteRetry book s) := by
  unfold execFrameWriteRetry
  repeat' first
    | with_reducible assumption
    | with_reducible apply State.issueFrame_keeps
    | with_reducible apply KeepsO.next
    | with_reducible apply Keeps.ite
    | split

theorem State.foldOn_keeps {s0 : State} (s : State) (book : Nat) (h : Keeps s0 s) :
    Keeps s0 (State.foldOn s book) := by
  unfold State.foldOn
  try dsimp only
  repeat' first
    | with_reducible assumption
    | with_reducible apply State.modBook_keeps
    | with_reducible apply State.takeStep_keeps
    | with_reducible apply Keeps.ite
    | split

theorem execHeadFold_keeps {s0 : State} (book : Nat) (s : State) (h : Keeps s0 s) :
    KeepsO s0 (execHeadFold book s) := by
  unfold execHeadFold
  try dsimp only
  repeat' first
    | with_reducible refine KeepsO.next ?_
    | with_reducible apply KeepsO.ite
    | with_reducible assumption
    | with_reducible apply State.foldOn_keeps

theorem State.unsignOlder_keeps {s0 : State} (s : State) (book : Nat) (h : Keeps s0 s) :
    Keeps s0 (State.unsignOlder s book) := by
  unfold State.unsignOlder
  try dsimp only
  repeat' first
    | with_reducible assumption
    | with_reducible apply State.modBook_keeps
    | with_reducible apply State.dropBn_keeps
    | with_reducible apply Keeps.foldl
    | intro _

theorem State.formSeal_keeps {s0 : State} (s : State) (book : Nat) (h : Keeps s0 s) :
    Keeps s0 (State.formSeal s book) := by
  unfold State.formSeal
  try dsimp only
  repeat' first
    | with_reducible assumption
    | with_reducible apply State.unsignOlder_keeps
    | with_reducible apply State.setBook_keeps
    | with_reducible apply State.modWork_keeps
    | with_reducible apply State.bnSubmit_keeps
    | with_reducible apply Keeps.foldl
    | split
    | intro _

theorem execSealFormation_keeps {s0 : State} (book : Nat) (s : State) (h : Keeps s0 s) :
    KeepsO s0 (execSealFormation book s) := by
  unfold execSealFormation
  repeat' first
    | with_reducible assumption
    | with_reducible apply State.formSeal_keeps
    | with_reducible apply KeepsO.next

theorem State.signBook_keeps {s0 : State} (s : State) (book : Nat) (body : Bytes) (h : Keeps s0 s) :
    Keeps s0 (State.signBook s book body).2 := by
  unfold State.signBook
  try dsimp only
  repeat' first
    | with_reducible assumption
    | with_reducible apply State.signP384_keeps

theorem State.writeSeal_keeps {s0 : State} (s : State) (book : Nat) (x : Seal) (h : Keeps s0 s) :
    Keeps s0 (State.writeSeal s book x) := by
  unfold State.writeSeal
  extract_lets body r o t u
  have hr : Keeps s0 r.2 := by
    show Keeps s0 (if _ then _ else _ : Bytes × State).2
    split
    · exact State.signBook_keeps _ _ _ h
    · exact h
  have ho : Keeps s0 o.1 := State.hostWrite_keeps _ _ _ _ _ _ _ hr
  have ht : Keeps s0 t := Keeps.ite ho (State.plogEvent_keeps _ _ _ _ _ _ _ (State.modBook_keeps _ _ _ ho))
  have hu : Keeps s0 u := State.modBook_keeps _ _ _ ht
  exact Keeps.foldl hu (fun _ _ k => State.finish_keeps _ _ _ _ k)

theorem State.sealSigned_keeps {s0 : State} (s : State) (book : Nat) (h : Keeps s0 s) :
    Keeps s0 (State.sealSigned s book) := by
  unfold State.sealSigned
  repeat' first
    | with_reducible assumption
    | with_reducible apply State.writeSeal_keeps
    | with_reducible apply State.bnRetire_keeps
    | with_reducible apply Keeps.ite
    | split

theorem execSealSigned_keeps {s0 : State} (book : Nat) (s : State) (h : Keeps s0 s) :
    KeepsO s0 (execSealSigned book s) := by
  unfold execSealSigned
  repeat' first
    | with_reducible assumption
    | with_reducible apply State.sealSigned_keeps
    | with_reducible apply KeepsO.next

theorem State.sealBody__keeps {s0 : State} (s : State) (w : Work) (h : Keeps s0 s) :
    Keeps s0 (State.sealBody_ s w) := by
  unfold State.sealBody_
  repeat' first
    | with_reducible assumption
    | with_reducible apply State.refuse_keeps
    | with_reducible apply State.modWork_keeps
    | with_reducible apply Keeps.ite

theorem execSeal_keeps {s0 : State} (ring : Nat) (s : State) (h : Keeps s0 s) :
    KeepsO s0 (execSeal ring s) := by
  unfold execSeal
  repeat' first
    | with_reducible assumption
    | with_reducible apply State.onStart_keeps
    | with_reducible apply State.sealBody__keeps
    | with_reducible apply KeepsO.next
    | intro _

end Sys2Proof.Machine
end

