-- ==== Sys2Proof/Laws/KeepsSaltern.lean ====
section
/-! SUPPORT. The operations of Machine/Saltern.lean keep what `Keeps` says. -/

namespace Sys2Proof.Machine
open Sys2Proof

set_option Elab.async false

theorem State.modBlock_keeps {s0 : State} (s : State) (book : Nat) (block : Nat) (f : PanBlock → PanBlock) (h : Keeps
      s0 s) :
    Keeps s0 (State.modBlock s book block f) := by
  unfold State.modBlock
  try dsimp only
  repeat' first
    | with_reducible assumption
    | with_reducible refine Keeps.plain ?_

theorem State.dropBlock_keeps {s0 : State} (s : State) (book : Nat) (block : Nat) (h : Keeps s0 s) :
    Keeps s0 (State.dropBlock s book block) := by
  unfold State.dropBlock
  try dsimp only
  repeat' first
    | with_reducible assumption
    | with_reducible refine Keeps.plain ?_

theorem State.modNode_keeps {s0 : State} (s : State) (book : Nat) (level : Nat) (index : Nat) (f : PanNode → PanNode)
      (h : Keeps s0 s) :
    Keeps s0 (State.modNode s book level index f) := by
  unfold State.modNode
  try dsimp only
  repeat' first
    | with_reducible assumption
    | with_reducible refine Keeps.plain ?_

theorem State.dropNode_keeps {s0 : State} (s : State) (book : Nat) (level : Nat) (index : Nat) (h : Keeps s0 s) :
    Keeps s0 (State.dropNode s book level index) := by
  unfold State.dropNode
  try dsimp only
  repeat' first
    | with_reducible assumption
    | with_reducible refine Keeps.plain ?_

theorem State.tick_keeps {s0 : State} (s : State) (h : Keeps s0 s) :
    Keeps s0 (State.tick s) := by
  unfold State.tick
  try dsimp only
  repeat' first
    | with_reducible assumption
    | with_reducible refine Keeps.plain ?_

theorem State.touchBlock_keeps {s0 : State} (s : State) (book : Nat) (block : Nat) (h : Keeps s0 s) :
    Keeps s0 (State.touchBlock s book block) := by
  unfold State.touchBlock
  repeat' first
    | with_reducible assumption
    | with_reducible apply State.modBlock_keeps
    | with_reducible apply State.tick_keeps

theorem State.touchNode_keeps {s0 : State} (s : State) (book level index : Nat) (h : Keeps s0 s) :
    Keeps s0 (State.touchNode s book level index) := by
  unfold State.touchNode
  try dsimp only
  repeat' first
    | with_reducible assumption
    | with_reducible apply State.modNode_keeps
    | with_reducible apply State.tick_keeps
    | with_reducible refine Keeps.plain ?_
    | intro _

theorem State.putNode_keeps {s0 : State} (s : State) (book : Nat) (level : Nat) (index : Nat) (d : Bytes) (h : Keeps
      s0 s) :
    Keeps s0 (State.putNode s book level index d) := by
  unfold State.putNode
  try dsimp only
  repeat' first
    | with_reducible assumption
    | with_reducible apply State.tick_keeps
    | with_reducible apply Keeps.ite
    | with_reducible refine Keeps.plain ?_

theorem State.placeBlock_keeps {s0 : State} (s : State) (book : Nat) (block : Nat) (ver : Nat) (plain : Bytes) (h :
      Keeps s0 s) :
    Keeps s0 (State.placeBlock s book block ver plain) := by
  unfold State.placeBlock
  try dsimp only
  repeat' first
    | with_reducible assumption
    | with_reducible apply State.tick_keeps
    | split
    | with_reducible refine Keeps.plain ?_

theorem State.setRecord_keeps {s0 : State} (s : State) (book : Nat) (index : Nat) (t : Tally) (h : Keeps s0 s) :
    Keeps s0 (State.setRecord s book index t) := by
  unfold State.setRecord
  repeat' first
    | with_reducible assumption
    | with_reducible apply State.modBlock_keeps

theorem State.dropLoad_keeps {s0 : State} (s : State) (book : Nat) (block : Nat) (h : Keeps s0 s) :
    Keeps s0 (State.dropLoad s book block) := by
  unfold State.dropLoad
  try dsimp only
  repeat' first
    | with_reducible assumption
    | with_reducible refine Keeps.plain ?_

theorem State.dropLoadReads_keeps {s0 : State} (s : State) (book : Nat) (block : Nat) (h : Keeps s0 s) :
    Keeps s0 (State.dropLoadReads s book block) := by
  unfold State.dropLoadReads
  repeat' first
    | with_reducible assumption
    | with_reducible refine Keeps.plain ?_

theorem State.giveUpReads_keeps {s0 : State} (s : State) (book block : Nat) (h : Keeps s0 s) :
    Keeps s0 (State.giveUpReads s book block) := by
  unfold State.giveUpReads
  try dsimp only
  repeat' first
    | with_reducible assumption
    | with_reducible apply State.orphanReads_keeps
    | intro _

theorem State.loadReadFailed_keeps {s0 : State} (s : State) (book block : Nat) (h : Keeps s0 s) :
    Keeps s0 (State.loadReadFailed s book block) := by
  unfold State.loadReadFailed
  try dsimp only
  repeat' first
    | with_reducible assumption
    | with_reducible apply State.dropRead_keeps
    | with_reducible apply State.giveUpReads_keeps
    | split
    | intro _

theorem State.plogSaltern_keeps {s0 : State} (s : State) (rule : Nat) (book : Nat) (h : Keeps s0 s) :
    Keeps s0 (State.plogSaltern s rule book) := by
  unfold State.plogSaltern
  repeat' first
    | with_reducible assumption
    | with_reducible apply State.plogEvent_keeps

theorem State.loadReads_keeps {s0 : State} (s : State) (book block : Nat) (retry : Bool) (l : List Nat) (h : Keeps s0 s) :
    Keeps s0 (State.loadReads s book block retry l).1 := by
  induction l generalizing s with
  | nil => exact h
  | cons n l ih =>
    unfold State.loadReads
    dsimp only
    split
    · exact ih _ (State.hostRead_keeps _ _ _ _ _ _ _ _ h)
    · exact State.hostRead_keeps _ _ _ _ _ _ _ _ h

theorem State.startLoad_keeps {s0 : State} (s : State) (book block low : Nat) (h : Keeps s0 s) :
    Keeps s0 (State.startLoad s book block low).1 := by
  unfold State.startLoad
  try dsimp only
  repeat' first
    | with_reducible assumption
    | with_reducible apply State.giveUpReads_keeps
    | with_reducible apply State.loadReads_keeps
    | with_reducible apply State.plogSaltern_keeps
    | with_reducible apply Keeps.ite
    | split
    | with_reducible refine Keeps.plain ?_

theorem State.touchAbove_keeps {s0 : State} (s : State) (book block low : Nat) (h : Keeps s0 s) :
    Keeps s0 (State.touchAbove s book block low) := by
  unfold State.touchAbove
  try dsimp only
  repeat' first
    | with_reducible assumption
    | with_reducible apply State.touchNode_keeps

theorem State.awaitNode_keeps {s0 : State} (s : State) (book block low : Nat) (h : Keeps s0 s) :
    Keeps s0 (State.awaitNode s book block low) := by
  unfold State.awaitNode
  try dsimp only
  repeat' first
    | with_reducible assumption
    | with_reducible apply State.modNode_keeps
    | with_reducible apply Keeps.ite
    | split
    | with_reducible refine Keeps.plain ?_
    | intro _

theorem State.zeroNodes_keeps {s0 : State} (s : State) (book block low : Nat) (h : Keeps s0 s) :
    Keeps s0 (State.zeroNodes s book block low) := by
  unfold State.zeroNodes
  try dsimp only
  repeat' first
    | with_reducible assumption
    | with_reducible apply State.awaitNode_keeps
    | with_reducible apply State.putNode_keeps
    | with_reducible apply Keeps.foldl
    | intro _

theorem State.setEntry_keeps {s0 : State} (s : State) (book level index ver : Nat) (mac : Bytes) (h : Keeps s0
      s) :
    Keeps s0 (State.setEntry s book level index ver mac) := by
  unfold State.setEntry
  try dsimp only
  repeat' first
    | with_reducible assumption
    | with_reducible apply State.modNode_keeps
    | with_reducible apply State.setBook_keeps
    | with_reducible apply State.touchNode_keeps
    | with_reducible apply Keeps.ite
    | split
    | with_reducible refine Keeps.plain ?_
    | intro _

theorem State.holdWriteBack_keeps {s0 : State} (s : State) (book level index : Nat) (h : Keeps s0 s) :
    Keeps s0 (State.holdWriteBack s book level index) := by
  unfold State.holdWriteBack
  try dsimp only
  repeat' first
    | with_reducible assumption
    | with_reducible apply State.modBlock_keeps
    | with_reducible apply State.modNode_keeps
    | with_reducible apply Keeps.ite
    | split
    | with_reducible refine Keeps.plain ?_
    | intro _

theorem State.needParent_keeps {s0 : State} (s : State) (book level index : Nat) (h : Keeps s0 s) :
    Keeps s0 (State.needParent s book level index) := by
  unfold State.needParent
  try dsimp only
  repeat' first
    | with_reducible assumption
    | with_reducible apply State.holdWriteBack_keeps
    | with_reducible apply State.startLoad_keeps
    | with_reducible apply State.touchAbove_keeps
    | with_reducible apply State.zeroNodes_keeps
    | with_reducible apply Keeps.ite
    | split

theorem State.wrote_keeps {s0 : State} (s : State) (book : Nat) (level : Nat) (index : Nat) (ver : Nat) (mac : Bytes)
      (h : Keeps s0 s) :
    Keeps s0 (State.wrote s book level index ver mac) := by
  unfold State.wrote
  try dsimp only
  repeat' first
    | with_reducible assumption
    | with_reducible apply State.modBlock_keeps
    | with_reducible apply State.modNode_keeps
    | with_reducible apply State.setEntry_keeps
    | with_reducible apply Keeps.ite

theorem State.writeBackRefused_keeps {s0 : State} (s : State) (book level index : Nat) (h : Keeps s0 s) :
    Keeps s0 (State.writeBackRefused s book level index) := by
  unfold State.writeBackRefused
  try dsimp only
  repeat' first
    | with_reducible assumption
    | with_reducible apply State.holdWriteBack_keeps
    | with_reducible apply State.modBook_keeps
    | with_reducible apply State.plogSaltern_keeps
    | with_reducible refine Keeps.plain ?_
    | intro _

theorem State.writeBack_keeps {s0 : State} (s : State) (book : Nat) (level : Nat) (index : Nat) (h : Keeps s0 s) :
    Keeps s0 (State.writeBack s book level index).1 := by
  unfold State.writeBack
  try dsimp only
  repeat' first
    | with_reducible assumption
    | with_reducible apply State.hostWrite_keeps
    | with_reducible apply State.wrote_keeps
    | with_reducible apply State.writeBackRefused_keeps
    | split

theorem State.doWriteBack_keeps {s0 : State} (s : State) (book : Nat) (level : Nat) (index : Nat) (h : Keeps s0 s) :
    Keeps s0 (State.doWriteBack s book level index) := by
  unfold State.doWriteBack
  repeat' first
    | with_reducible assumption
    | with_reducible apply State.writeBack_keeps
    | with_reducible apply State.needParent_keeps
    | with_reducible apply Keeps.ite

theorem State.stepWriteBack_keeps {s0 : State} (s : State) (book level index : Nat) (h : Keeps s0 s) :
    Keeps s0 (State.stepWriteBack s book level index) := by
  unfold State.stepWriteBack
  try dsimp only
  repeat' first
    | with_reducible assumption
    | with_reducible apply State.doWriteBack_keeps
    | with_reducible apply State.stepOf_keeps
    | with_reducible apply Keeps.ite
    | split
    | intro _

theorem State.evict_keeps {s0 : State} (s : State) (book : Nat) (h : Keeps s0 s) :
    Keeps s0 (State.evict s book).1 := by
  unfold State.evict
  try dsimp only
  repeat' first
    | with_reducible assumption
    | with_reducible apply State.dropBlock_keeps
    | with_reducible apply State.writeBack_keeps
    | with_reducible apply State.needParent_keeps
    | split

theorem State.makeRoom_keeps {s0 : State} (s : State) (book : Nat) (h : Keeps s0 s) :
    Keeps s0 (State.makeRoom s book).1 := by
  unfold State.makeRoom
  repeat' first
    | with_reducible assumption
    | with_reducible apply State.evict_keeps
    | split

theorem State.lookup_keeps {s0 : State} (s : State) (book block : Nat) (h : Keeps s0 s) :
    Keeps s0 (State.lookup s book block).1 := by
  unfold State.lookup
  try dsimp only
  repeat' first
    | with_reducible assumption
    | with_reducible apply State.makeRoom_keeps
    | with_reducible apply State.placeBlock_keeps
    | with_reducible apply State.startLoad_keeps
    | with_reducible apply State.touchAbove_keeps
    | with_reducible apply State.touchBlock_keeps
    | with_reducible apply Keeps.ite
    | split

theorem State.endWaiters_keeps {s0 : State} (s : State) (book : Nat) (block : Nat) (st : Status) (h : Keeps s0 s) :
    Keeps s0 (State.endWaiters s book block st) := by
  unfold State.endWaiters
  try dsimp only
  repeat' first
    | with_reducible assumption
    | with_reducible apply State.dropEntries_keeps
    | with_reducible apply State.endEntry_keeps
    | with_reducible apply State.eachWork_keeps
    | with_reducible apply State.finish_keeps
    | with_reducible apply Keeps.foldl
    | intro _

theorem State.dropRebuild_keeps {s0 : State} (s : State) (book block : Nat) (h : Keeps s0 s) :
    Keeps s0 (State.dropRebuild s book block) := by
  unfold State.dropRebuild
  try dsimp only
  repeat' first
    | with_reducible assumption
    | with_reducible apply State.orphanReads_keeps
    | with_reducible refine Keeps.plain ?_
    | intro _

theorem State.rebuildFailed_keeps {s0 : State} (s : State) (r : Rebuild) (h : Keeps s0 s) :
    Keeps s0 (State.rebuildFailed s r) := by
  unfold State.rebuildFailed
  try dsimp only
  repeat' first
    | with_reducible assumption
    | with_reducible apply State.dropRebuild_keeps
    | with_reducible apply State.fenceRing_keeps
    | with_reducible apply State.salternFailure_keeps
    | with_reducible apply Keeps.foldl
    | with_reducible refine Keeps.plain ?_
    | intro _

theorem State.loadBad_keeps {s0 : State} (s : State) (book : Nat) (block : Nat) (level : Nat) (h : Keeps s0 s) :
    Keeps s0 (State.loadBad s book block level) := by
  unfold State.loadBad
  try dsimp only
  repeat' first
    | with_reducible assumption
    | with_reducible apply State.dropLoad_keeps
    | with_reducible apply State.rebuildFailed_keeps
    | with_reducible apply State.salternFailure_keeps
    | with_reducible apply State.endWaiters_keeps
    | split

theorem State.verifyPath_keeps {s0 : State} (s : State) (book block low : Nat) (l : List (Nat × Bytes)) (h : Keeps s0 s) :
    Keeps s0 (State.verifyPath s book block low l) := by
  induction l generalizing s with
  | nil => exact State.awaitNode_keeps _ _ _ _ (State.dropLoad_keeps _ _ _ h)
  | cons x l ih =>
    obtain ⟨n, d⟩ := x
    unfold State.verifyPath
    dsimp only
    have hd := State.dropLoad_keeps s book block h
    refine Keeps.ite (ih _ (State.touchNode_keeps _ _ _ _ h)) ?_
    split
    · exact hd
    · refine Keeps.ite (Keeps.ite (State.placeBlock_keeps _ _ _ _ _ hd) (State.zeroNodes_keeps _ _ _ _ hd)) ?_
      refine Keeps.ite (State.loadBad_keeps _ _ _ _ h) (Keeps.ite (State.placeBlock_keeps _ _ _ _ _ hd) ?_)
      exact ih _ (State.putNode_keeps _ _ _ _ _ h)

theorem State.modLoad_keeps {s0 : State} (s : State) (book : Nat) (block : Nat) (f : Load → Load) (h : Keeps s0 s) :
    Keeps s0 (State.modLoad s book block f) := by
  unfold State.modLoad
  try dsimp only
  repeat' first
    | with_reducible assumption
    | with_reducible refine Keeps.plain ?_

theorem State.loadFailed_keeps {s0 : State} (s : State) (book block : Nat) (st : Status) (h : Keeps s0 s) :
    Keeps s0 (State.loadFailed s book block st) := by
  unfold State.loadFailed
  try dsimp only
  repeat' first
    | with_reducible assumption
    | with_reducible apply State.dropLoad_keeps
    | with_reducible apply State.endWaiters_keeps
    | with_reducible apply State.giveUpReads_keeps
    | with_reducible apply State.holdWriteBack_keeps
    | with_reducible apply State.rebuildFailed_keeps
    | with_reducible apply Keeps.ite
    | split
    | intro _

theorem State.loadRetry_keeps {s0 : State} (s : State) (book block : Nat) (h : Keeps s0 s) :
    Keeps s0 (State.loadRetry s book block) := by
  unfold State.loadRetry
  try dsimp only
  repeat' first
    | with_reducible assumption
    | with_reducible apply State.loadFailed_keeps
    | with_reducible apply State.loadReadFailed_keeps
    | with_reducible apply State.loadReads_keeps
    | with_reducible apply State.modLoad_keeps
    | with_reducible apply State.plogSaltern_keeps
    | with_reducible apply Keeps.ite
    | split
    | intro _

theorem execSalternReadRetry_keeps {s0 : State} (book : Nat) (block : Nat) (s : State) (h : Keeps s0 s) :
    KeepsO s0 (execSalternReadRetry book block s) := by
  unfold execSalternReadRetry
  repeat' first
    | with_reducible assumption
    | with_reducible apply State.loadRetry_keeps
    | with_reducible apply KeepsO.next

theorem State.trimNode_keeps {s0 : State} (s : State) (n : PanNode) (h : Keeps s0 s) :
    Keeps s0 (State.trimNode s n) := by
  unfold State.trimNode
  try dsimp only
  repeat' first
    | with_reducible assumption
    | with_reducible apply State.dropNode_keeps
    | with_reducible apply State.needParent_keeps
    | with_reducible apply State.writeBack_keeps
    | with_reducible apply Keeps.ite
    | split

theorem State.trim_keeps {s0 : State} (s : State) (h : Keeps s0 s) :
    Keeps s0 (State.trim s) := by
  unfold State.trim
  try dsimp only
  repeat' first
    | with_reducible assumption
    | with_reducible apply State.trimNode_keeps
    | with_reducible apply Keeps.foldl
    | intro _

theorem execBlockWriteBack_keeps {s0 : State} (book level index : Nat) (s : State) (h : Keeps s0 s) :
    KeepsO s0 (execBlockWriteBack book level index s) := by
  unfold execBlockWriteBack
  try dsimp only
  repeat' first
    | with_reducible refine KeepsO.next ?_
    | with_reducible apply KeepsO.ite
    | with_reducible assumption
    | with_reducible apply State.stepWriteBack_keeps
    | with_reducible apply State.trim_keeps
    | with_reducible apply Keeps.ite
    | split

theorem execWriteBackRetry_keeps {s0 : State} (book level index : Nat) (s : State) (h : Keeps s0 s) :
    KeepsO s0 (execWriteBackRetry book level index s) := by
  unfold execWriteBackRetry
  try dsimp only
  repeat' first
    | with_reducible refine KeepsO.next ?_
    | with_reducible apply KeepsO.ite
    | with_reducible assumption
    | with_reducible apply State.stepWriteBack_keeps
    | with_reducible apply State.trim_keeps
    | with_reducible apply Keeps.ite
    | split

theorem State.blockLoaded_keeps {s0 : State} (s : State) (book block : Nat) (objects : List Bytes) (h : Keeps s0
      s) :
    Keeps s0 (State.blockLoaded s book block objects) := by
  unfold State.blockLoaded
  try dsimp only
  repeat' first
    | with_reducible assumption
    | with_reducible apply State.dropLoadReads_keeps
    | with_reducible apply State.trim_keeps
    | with_reducible apply State.verifyPath_keeps
    | with_reducible apply Keeps.ite
    | split

theorem execSalternBlockLoaded_keeps {s0 : State} (book : Nat) (block : Nat) (objects : List Bytes) (s : State) (h :
      Keeps s0 s) :
    KeepsO s0 (execSalternBlockLoaded book block objects s) := by
  unfold execSalternBlockLoaded
  repeat' first
    | with_reducible assumption
    | with_reducible apply State.blockLoaded_keeps
    | with_reducible apply KeepsO.next

theorem State.dropPan_keeps {s0 : State} (s : State) (book : Nat) (h : Keeps s0 s) :
    Keeps s0 (State.dropPan s book) := by
  unfold State.dropPan
  try dsimp only
  repeat' first
    | with_reducible assumption
    | with_reducible apply State.dropLoads_keeps
    | with_reducible refine Keeps.plain ?_

end Sys2Proof.Machine
end

