-- ==== Sys2Proof/Laws/KeepsPostings.lean ====
section
/-! SUPPORT. The operations of Machine/Postings.lean keep what `Keeps` says. -/

namespace Sys2Proof.Machine
open Sys2Proof

set_option Elab.async false

theorem State.presentPosting_keeps {s0 : State} (s : State) (w : Work) (h : Keeps s0 s) :
    Keeps s0 (State.presentPosting s w) := by
  unfold State.presentPosting
  repeat' first
    | with_reducible assumption
    | with_reducible apply State.refuse_keeps
    | with_reducible apply State.modWork_keeps
    | split

theorem State.onPosting_keeps {s0 : State} (s : State) (ring opcode : Nat) (h : Keeps s0 s) :
    Keeps s0 (State.onPosting s ring opcode) := by
  unfold State.onPosting
  try dsimp only
  repeat' first
    | with_reducible assumption
    | with_reducible apply State.onStart_keeps
    | with_reducible apply State.presentPosting_keeps
    | with_reducible apply Keeps.ite
    | split
    | intro _

theorem execPost_keeps {s0 : State} (ring : Nat) (s : State) (h : Keeps s0 s) :
    KeepsO s0 (execPost ring s) := by
  unfold execPost
  try dsimp only
  repeat' first
    | with_reducible refine KeepsO.next ?_
    | with_reducible apply KeepsO.ite
    | with_reducible assumption
    | with_reducible apply State.onPosting_keeps

theorem execTallyOpen_keeps {s0 : State} (ring : Nat) (s : State) (h : Keeps s0 s) :
    KeepsO s0 (execTallyOpen ring s) := by
  unfold execTallyOpen
  try dsimp only
  repeat' first
    | with_reducible refine KeepsO.next ?_
    | with_reducible apply KeepsO.ite
    | with_reducible assumption
    | with_reducible apply State.onPosting_keeps

theorem execTallySet_keeps {s0 : State} (ring : Nat) (s : State) (h : Keeps s0 s) :
    KeepsO s0 (execTallySet ring s) := by
  unfold execTallySet
  try dsimp only
  repeat' first
    | with_reducible refine KeepsO.next ?_
    | with_reducible apply KeepsO.ite
    | with_reducible assumption
    | with_reducible apply State.onPosting_keeps

theorem execTallyClose_keeps {s0 : State} (ring : Nat) (s : State) (h : Keeps s0 s) :
    KeepsO s0 (execTallyClose ring s) := by
  unfold execTallyClose
  try dsimp only
  repeat' first
    | with_reducible refine KeepsO.next ?_
    | with_reducible apply KeepsO.ite
    | with_reducible assumption
    | with_reducible apply State.onPosting_keeps

theorem State.noteFull_keeps {s0 : State} (s : State) (w : Work) (full : Bool) (h : Keeps s0 s) :
    Keeps s0 (State.noteFull s w full) := by
  unfold State.noteFull
  try dsimp only
  repeat' first
    | with_reducible assumption
    | with_reducible apply State.modWork_keeps
    | with_reducible apply State.modBook_keeps
    | with_reducible apply Keeps.ite

theorem State.admitEntry_keeps {s0 : State} (s : State) (w : Work) (h : Keeps s0 s)
    (hl : s.brine.entries.length < 1024) : Keeps s0 (State.admitEntry s w) := by
  unfold State.admitEntry
  extract_lets e t n u1 u2 u
  have ht : Keeps s0 t := State.modBook_keeps _ _ _ h
  have hu : Keeps s0 u := by
    refine ht.upd (h8 := fun _ => ?_)
    show (s.brine.entries ++ [e]).length ≤ 1024
    simp only [List.length_append, List.length_singleton]
    omega
  exact Keeps.ite (State.dropWork_keeps _ _ hu) (State.modWork_keeps _ _ _ hu)

theorem admitOne_keeps {s0 : State} (a : Admitting) (w : Work) (h : Keeps s0 a.st) : Keeps s0 (admitOne a w).st := by
  unfold admitOne
  extract_lets s stays hold
  have hn : ∀ b, Keeps s0 (s.noteFull w b) := fun b => State.noteFull_keeps s w b h
  have hs : Keeps s0 stays := hn _
  split
  · exact hs
  · split
    · exact hs
    · split
      · exact State.refuse_keeps _ _ _ _ h
      · split
        · exact hs
        · next hl =>
          repeat' split
          · exact hs
          · exact hn true
          · exact State.admitEntry_keeps _ _ h (Nat.lt_of_not_le hl)

theorem State.modEntry_keeps {s0 : State} (s : State) (key : Nat × Bool) (f : Entry → Entry) (h : Keeps s0 s) :
    Keeps s0 (State.modEntry s key f) := by
  unfold State.modEntry
  try dsimp only
  repeat' first
    | with_reducible assumption
    | with_reducible refine Keeps.upd ?_

theorem State.fetchLeg_keeps {s0 : State} (s : State) (e : Entry) (earlier : List Entry) (l : Leg) (h : Keeps s0 s) :
    Keeps s0 (State.fetchLeg s e earlier l).1 := by
  unfold State.fetchLeg
  repeat' first
    | with_reducible assumption
    | with_reducible apply State.lookup_keeps
    | split

theorem State.fetchLegs_keeps {s0 : State} (s : State) (e : Entry) (earlier : List Entry) (i : Nat) (l : List Leg)
    (h : Keeps s0 s) : Keeps s0 (State.fetchLegs s e earlier i l).st := by
  induction l generalizing s i with
  | nil => exact h
  | cons x l ih =>
    have hr := State.fetchLeg_keeps s e earlier x h
    unfold State.fetchLegs
    split
    · exact ih _ _ h
    · dsimp only
      split
      · exact hr
      · exact ih _ _ hr
      · exact ih _ _ hr

theorem State.logEntry_keeps {s0 : State} (s : State) (e : Entry) (check : Nat) (st : Status) (h : Keeps s0 s) :
    Keeps s0 (State.logEntry s e check st) := by
  unfold State.logEntry
  try dsimp only
  repeat' first
    | with_reducible assumption
    | with_reducible apply State.plog_keeps
    | with_reducible apply State.plogWork_keeps
    | with_reducible apply Keeps.ite
    | split

theorem State.refuseEntry_keeps {s0 : State} (s : State) (e : Entry) (check leg : Nat) (st : Status) (h : Keeps
      s0 s) :
    Keeps s0 (State.refuseEntry s e check leg st) := by
  unfold State.refuseEntry
  try dsimp only
  repeat' first
    | with_reducible assumption
    | with_reducible apply State.dropEntries_keeps
    | with_reducible apply State.endEntry_keeps
    | with_reducible apply State.logEntry_keeps
    | with_reducible apply Keeps.ite
    | split
    | with_reducible refine Keeps.upd ?_
    | intro _

theorem State.fetchEntry_keeps {s0 : State} (s : State) (e : Entry) (h : Keeps s0 s) :
    Keeps s0 (State.fetchEntry s e) := by
  unfold State.fetchEntry
  try dsimp only
  repeat' first
    | with_reducible assumption
    | with_reducible apply State.fetchLegs_keeps
    | with_reducible apply State.endEntry_keeps
    | with_reducible apply State.dropEntries_keeps
    | with_reducible apply State.modEntry_keeps
    | with_reducible apply Keeps.ite
    | split
    | with_reducible refine Keeps.plain ?_

theorem State.fetchWaiting_keeps {s0 : State} (s : State) (h : Keeps s0 s) :
    Keeps s0 (State.fetchWaiting s) := by
  unfold State.fetchWaiting
  refine Keeps.foldl h fun t k ht => ?_
  split
  · exact Keeps.ite (State.fetchEntry_keeps _ _ ht) ht
  · exact ht

theorem State.admitPostings_keeps {s0 : State} (s : State) (h : Keeps s0 s) : Keeps s0 (State.admitPostings s) := by
  unfold State.admitPostings
  extract_lets a u1 u2 t
  have ha : Keeps s0 a.st := Keeps.foldlOn Admitting.st h (fun b w k => admitOne_keeps b w k)
  exact State.fetchWaiting_keeps t (Keeps.ite ha.upd ha)

theorem execPostingAdmission_keeps {s0 : State} (s : State) (h : Keeps s0 s) :
    KeepsO s0 (execPostingAdmission s) := by
  unfold execPostingAdmission
  try dsimp only
  repeat' first
    | with_reducible assumption
    | with_reducible apply State.admitPostings_keeps
    | with_reducible apply KeepsO.next
    | with_reducible apply Keeps.ite
    | with_reducible refine Keeps.plain ?_

theorem State.heldFull_keeps {s0 : State} (s : State) (ring : Nat) (h : Keeps s0 s) :
    Keeps s0 (State.heldFull s ring) := by
  unfold State.heldFull
  try dsimp only
  repeat' first
    | with_reducible assumption
    | with_reducible apply State.finish_keeps
    | with_reducible apply Keeps.ite
    | split

theorem execPostingHeldJournalFull_keeps {s0 : State} (ring : Nat) (s : State) (h : Keeps s0 s) :
    KeepsO s0 (execPostingHeldJournalFull ring s) := by
  unfold execPostingHeldJournalFull
  repeat' first
    | with_reducible assumption
    | with_reducible apply State.heldFull_keeps
    | with_reducible apply KeepsO.next

theorem State.endVerify_keeps {s0 : State} (s : State) (e : Entry) (h : Keeps s0 s) :
    Keeps s0 (State.endVerify s e) := by
  unfold State.endVerify
  try dsimp only
  repeat' first
    | with_reducible assumption
    | (refine Keeps.fst ?_ (by assumption))
    | with_reducible apply State.chargeSession_keeps
    | with_reducible apply State.modEntry_keeps
    | with_reducible apply State.violation_keeps
    | with_reducible apply Keeps.ite
    | split
    | intro _

theorem computeEntry_keeps {s0 : State} (c : Computing) (e : Entry) (h : Keeps s0 c.st) :
    Keeps s0 (computeEntry c e).st := by
  unfold computeEntry
  extract_lets s olds deps d lost cap sc t
  have ht : Keeps s0 t := Keeps.plain h
  repeat' split
  · exact State.modEntry_keeps _ _ _ h
  · exact h
  · exact State.modEntry_keeps _ _ _ ht

theorem State.verifyStep_keeps {s0 : State} (s : State) (e : Entry) (h : Keeps s0 s) :
    Keeps s0 (State.verifyStep s e) := by
  unfold State.verifyStep
  try dsimp only
  repeat' first
    | with_reducible assumption
    | with_reducible apply State.modEntry_keeps
    | with_reducible apply State.endVerify_keeps
    | with_reducible apply Keeps.ite

theorem boundaryEntry_keeps {s0 : State} (c : Computing) (key : Nat × Bool) (h : Keeps s0 c.st) :
    Keeps s0 (boundaryEntry c key).st := by
  unfold boundaryEntry
  split
  · exact h
  · next e0 _ =>
    have hv := State.verifyStep_keeps c.st e0 h
    dsimp only
    repeat' split
    · exact hv
    · exact computeEntry_keeps _ _ hv
    · exact State.fetchEntry_keeps _ _ hv
    · exact State.modEntry_keeps _ _ _ hv
    · exact hv
    · exact State.refuseEntry_keeps _ _ _ _ _ hv
    · exact State.modEntry_keeps _ _ _ hv
    · exact hv

theorem State.brineGrain_keeps {s0 : State} (s : State) (h : Keeps s0 s) : Keeps s0 (State.brineGrain s) :=
  Keeps.foldlOn Computing.st h (fun c k hc => boundaryEntry_keeps c k hc)

theorem State.snapReads_keeps {s0 : State} (s : State) (book : Nat) (index : Nat) (admitted : Nat) (old : Tally) (h :
      Keeps s0 s) :
    Keeps s0 (State.snapReads s book index admitted old) := by
  unfold State.snapReads
  try dsimp only
  repeat' first
    | with_reducible assumption
    | with_reducible refine Keeps.plain ?_

theorem State.commitLegs_keeps {s0 : State} (s : State) (e : Entry) (h : Keeps s0 s) :
    Keeps s0 (State.commitLegs s e) := by
  unfold State.commitLegs
  try dsimp only
  repeat' first
    | with_reducible assumption
    | with_reducible apply State.setRecord_keeps
    | with_reducible apply State.snapReads_keeps
    | with_reducible apply Keeps.foldl
    | intro _

theorem State.commitOutcome_keeps {s0 : State} (s : State) (e : Entry) (lseq : Nat) (h : Keeps s0 s) :
    Keeps s0 (State.commitOutcome s e lseq) := by
  unfold State.commitOutcome
  try dsimp only
  repeat' first
    | with_reducible assumption
    | with_reducible apply State.modCore_keeps
    | with_reducible apply State.answerCore_keeps
    | with_reducible apply State.modWork_keeps
    | with_reducible apply State.finish_keeps
    | with_reducible apply Keeps.ite
    | split
    | exact fun c hc => hc.keep rfl rfl rfl rfl rfl rfl rfl

theorem State.commitEntry_keeps {s0 : State} (s : State) (e : Entry) (h : Keeps s0 s) :
    Keeps s0 (State.commitEntry s e) := by
  unfold State.commitEntry
  refine State.commitOutcome_keeps _ _ _ ((State.commitRecord_keeps _ _ _ (State.commitLegs_keeps _ _ h)).upd (h8 := ?_))
  intro k
  rw [List.length_map]
  exact (List.length_filter_le _ _).trans k

theorem State.commitBook_keeps {s0 : State} (s : State) (book : Nat) (h : Keeps s0 s) :
    Keeps s0 (State.commitBook s book) := by
  unfold State.commitBook
  repeat' first
    | with_reducible assumption
    | with_reducible apply State.commitEntry_keeps
    | with_reducible apply Keeps.ite
    | split

theorem execPostingCommit_keeps {s0 : State} (book : Nat) (s : State) (h : Keeps s0 s) :
    KeepsO s0 (execPostingCommit book s) := by
  unfold execPostingCommit
  repeat' first
    | with_reducible assumption
    | with_reducible apply State.commitBook_keeps
    | with_reducible apply KeepsO.next

end Sys2Proof.Machine
end

