-- ==== Sys2Proof/Laws/KeepsPrime.lean ====
section
/-! SUPPORT. The operations of Machine/Prime.lean keep what `Keeps` says. -/

namespace Sys2Proof.Machine
open Sys2Proof

set_option Elab.async false

theorem State.primeEarly_keeps {s0 : State} (s : State) (w : Work) (h : Keeps s0 s) :
    Keeps s0 (State.primeEarly s w).1 := by
  unfold State.primeEarly
  try dsimp only
  repeat' first
    | with_reducible assumption
    | with_reducible apply State.chargeSession_keeps
    | with_reducible apply Keeps.ite
    | split

theorem State.callEarly_keeps {s0 : State} (s : State) (w : Work) (k : KeySrc) (h : Keeps s0 s) :
    Keeps s0 (State.callEarly s w k).1 := by
  unfold State.callEarly
  try dsimp only
  repeat' first
    | with_reducible assumption
    | with_reducible apply State.chargeKey_keeps
    | split

theorem State.primeTally_keeps {s0 : State} (s : State) (w : Work) (admitted : Nat) (h : Keeps s0 s) :
    Keeps s0 (State.primeTally s w admitted).1 := by
  unfold State.primeTally
  repeat' first
    | with_reducible assumption
    | with_reducible apply State.lookup_keeps
    | split

theorem State.primeRun_keeps {s0 : State} (s : State) (w : Work) (h : Keeps s0 s) :
    Keeps s0 (State.primeRun s w) := by
  unfold State.primeRun
  try dsimp only
  repeat' first
    | with_reducible assumption
    | with_reducible apply State.modWork_keeps

theorem State.primeWait_keeps {s0 : State} (s : State) (w : Work) (h : Keeps s0 s) :
    Keeps s0 (State.primeWait s w) := by
  unfold State.primeWait
  try dsimp only
  repeat' first
    | with_reducible assumption
    | with_reducible apply State.modWork_keeps

theorem State.primeTake_keeps {s0 : State} (s : State) (w : Work) (h : Keeps s0 s) :
    Keeps s0 (State.primeTake s w).1.1 := by
  unfold State.primeTake
  split
  · exact State.callEarly_keeps _ _ _ h
  · exact State.primeEarly_keeps _ _ h

theorem State.primeEnter_keeps {s0 : State} (s : State) (w : Work) (h : Keeps s0 s) :
    Keeps s0 (State.primeEnter s w) := by
  unfold State.primeEnter
  refine Keeps.ite (State.primeWait_keeps _ _ h) ?_
  extract_lets a known r key t u
  have hr : Keeps s0 r.1 := by
    show Keeps s0 (if _ then _ else _ : State × Option (Nat × Status)).1
    split
    · exact h
    · exact State.primeTake_keeps _ _ h
  have ht : Keeps s0 t := State.modWork_keeps _ _ _ hr
  have hu : Keeps s0 u.1 := State.primeTally_keeps _ _ _ ht
  refine Keeps.ite (State.primeRun_keeps _ _ ht) ?_
  split
  · exact State.primeRun_keeps _ _ hu
  · exact State.primeWait_keeps _ _ hu
  · exact State.primeRun_keeps _ _ (State.modWork_keeps _ _ _ hu)

theorem State.coverPrimes_keeps {s0 : State} (s : State) (h : Keeps s0 s) :
    Keeps s0 (State.coverPrimes s) := by
  unfold State.coverPrimes
  try dsimp only
  repeat' first
    | with_reducible assumption
    | with_reducible apply State.modWork_keeps
    | with_reducible apply Keeps.ite
    | with_reducible apply Keeps.foldl
    | intro _

theorem State.admitPrime_keeps {s0 : State} (s : State) (w : Work) (h : Keeps s0 s) :
    Keeps s0 (State.admitPrime s w) := by
  unfold State.admitPrime
  try dsimp only
  repeat' first
    | with_reducible assumption
    | with_reducible apply State.modSlice_keeps
    | with_reducible apply State.modWork_keeps
    | with_reducible apply State.primeEnter_keeps
    | split
    | with_reducible refine Keeps.plain ?_

theorem presentPrime_keeps {s0 : State} (p : Presenting) (w : Work) (h : Keeps s0 p.st) :
    Keeps s0 (presentPrime p w).st := by
  unfold presentPrime
  extract_lets s clash keys
  repeat' split
  · exact h
  · exact State.modWork_keeps _ _ _ h
  · exact State.admitPrime_keeps _ _ h

theorem resumePrime_keeps {s0 : State} (p : Presenting) (w : Work) (h : Keeps s0 p.st) :
    Keeps s0 (resumePrime p w).st := by
  unfold resumePrime
  extract_lets s clash t runs
  have ht : Keeps s0 t := State.primeEnter_keeps _ _ h
  split
  · exact h
  · split
    · exact ht.plain
    · exact ht

theorem State.primeAdmission_keeps {s0 : State} (s : State) (h : Keeps s0 s) : Keeps s0 (State.primeAdmission s) := by
  unfold State.primeAdmission
  refine Keeps.ite h ?_
  extract_lets t order covered p waiting q r
  have on : ∀ (a : Presenting) (l : List Work), Keeps s0 a.st → Keeps s0 (l.foldl presentPrime a).st :=
    fun a l k => Keeps.foldlOn Presenting.st k (fun b w k => presentPrime_keeps b w k)
  have hq : Keeps s0 q.st := Keeps.foldlOn Presenting.st (on _ _ (State.coverPrimes_keeps _ h))
    (fun b w k => resumePrime_keeps b w k)
  exact (on q _ hq).plain

theorem execPrimeAdmission_keeps {s0 : State} (s : State) (h : Keeps s0 s) :
    KeepsO s0 (execPrimeAdmission s) := by
  unfold execPrimeAdmission
  repeat' first
    | with_reducible assumption
    | with_reducible apply State.primeAdmission_keeps
    | with_reducible apply KeepsO.next

theorem State.primeEnd_keeps {s0 : State} (s : State) (w : Work) (f : Work → State) (h : Keeps s0 s) (hf : ∀ y0,
      Keeps s0 (f y0)) :
    Keeps s0 (State.primeEnd s w f) := by
  unfold State.primeEnd
  try dsimp only
  repeat' first
    | with_reducible assumption
    | (refine Keeps.fst ?_ (by assumption))
    | with_reducible apply State.refuse_keeps
    | with_reducible apply State.refuseWith_keeps
    | with_reducible apply hf
    | with_reducible apply Keeps.ite
    | split

theorem State.onPrime_keeps {s0 : State} (s : State) (ring opcode : Nat) (f : Work → State) (h : Keeps s0 s) (hf
      : ∀ y0, Keeps s0 (f y0)) :
    Keeps s0 (State.onPrime s ring opcode f) := by
  unfold State.onPrime
  try dsimp only
  repeat' first
    | with_reducible assumption
    | with_reducible apply State.primeEnd_keeps
    | with_reducible apply hf
    | split

theorem State.counterOp_keeps {s0 : State} (s : State) (w : Work) (incr : Bool) (h : Keeps s0 s) :
    Keeps s0 (State.counterOp s w incr) := by
  unfold State.counterOp
  try dsimp only
  repeat' first
    | with_reducible assumption
    | with_reducible apply State.refuse_keeps
    | with_reducible apply State.incrCounter_keeps
    | with_reducible apply State.finish_keeps
    | with_reducible apply Keeps.ite

theorem execCounterRead_keeps {s0 : State} (ring : Nat) (s : State) (h : Keeps s0 s) :
    KeepsO s0 (execCounterRead ring s) := by
  unfold execCounterRead
  repeat' first
    | with_reducible assumption
    | with_reducible apply State.onPrime_keeps
    | with_reducible apply State.counterOp_keeps
    | with_reducible apply KeepsO.next
    | intro _

theorem execCounterIncr_keeps {s0 : State} (ring : Nat) (s : State) (h : Keeps s0 s) :
    KeepsO s0 (execCounterIncr ring s) := by
  unfold execCounterIncr
  repeat' first
    | with_reducible assumption
    | with_reducible apply State.onPrime_keeps
    | with_reducible apply State.counterOp_keeps
    | with_reducible apply KeepsO.next
    | intro _

theorem State.primeBook_keeps {s0 : State} (s : State) (w : Work) (f : Tally → State) (h : Keeps s0 s) (hf : ∀ y0,
      Keeps s0 (f y0)) :
    Keeps s0 (State.primeBook s w f) := by
  unfold State.primeBook
  repeat' first
    | with_reducible assumption
    | with_reducible apply hf
    | with_reducible apply State.refuse_keeps
    | with_reducible apply State.primeWait_keeps
    | split

theorem State.tallyReadOp_keeps {s0 : State} (s : State) (w : Work) (h : Keeps s0 s) :
    Keeps s0 (State.tallyReadOp s w) := by
  unfold State.tallyReadOp
  repeat' first
    | with_reducible assumption
    | with_reducible apply State.primeBook_keeps
    | with_reducible apply State.refuseLeg_keeps
    | with_reducible apply State.finish_keeps
    | split
    | intro _

theorem execTallyRead_keeps {s0 : State} (ring : Nat) (s : State) (h : Keeps s0 s) :
    KeepsO s0 (execTallyRead ring s) := by
  unfold execTallyRead
  repeat' first
    | with_reducible assumption
    | with_reducible apply State.onPrime_keeps
    | with_reducible apply State.tallyReadOp_keeps
    | with_reducible apply KeepsO.next
    | intro _

theorem State.tallyAdjustOp_keeps {s0 : State} (s : State) (w : Work) (h : Keeps s0 s) :
    Keeps s0 (State.tallyAdjustOp s w) := by
  unfold State.tallyAdjustOp
  try dsimp only
  repeat' first
    | with_reducible assumption
    | (refine Keeps.fst ?_ (by assumption))
    | with_reducible apply State.commitRecord_keeps
    | with_reducible apply State.finish_keeps
    | with_reducible apply State.modWork_keeps
    | with_reducible apply State.primeBook_keeps
    | with_reducible apply State.primeWait_keeps
    | with_reducible apply State.refuse_keeps
    | with_reducible apply State.refuseLeg_keeps
    | with_reducible apply State.setRecord_keeps
    | with_reducible apply Keeps.ite
    | split
    | intro _

theorem execTallyAdjust_keeps {s0 : State} (ring : Nat) (s : State) (h : Keeps s0 s) :
    KeepsO s0 (execTallyAdjust ring s) := by
  unfold execTallyAdjust
  repeat' first
    | with_reducible assumption
    | with_reducible apply State.onPrime_keeps
    | with_reducible apply State.tallyAdjustOp_keeps
    | with_reducible apply KeepsO.next
    | intro _

theorem State.macGenOp_keeps {s0 : State} (s : State) (w : Work) (h : Keeps s0 s) :
    Keeps s0 (State.macGenOp s w) := by
  unfold State.macGenOp
  try dsimp only
  repeat' first
    | with_reducible assumption
    | with_reducible apply State.finish_keeps

theorem execMacGen_keeps {s0 : State} (ring : Nat) (s : State) (h : Keeps s0 s) :
    KeepsO s0 (execMacGen ring s) :=
  KeepsO.next (State.onPrime_keeps _ _ _ _ h fun _ => State.macGenOp_keeps _ _ h)

theorem State.macVerifyOp_keeps {s0 : State} (s : State) (w : Work) (h : Keeps s0 s) :
    Keeps s0 (State.macVerifyOp s w) := by
  unfold State.macVerifyOp
  try dsimp only
  repeat' first
    | with_reducible assumption
    | with_reducible apply State.finish_keeps

theorem execMacVerify_keeps {s0 : State} (ring : Nat) (s : State) (h : Keeps s0 s) :
    KeepsO s0 (execMacVerify ring s) :=
  KeepsO.next (State.onPrime_keeps _ _ _ _ h fun _ => State.macVerifyOp_keeps _ _ h)

theorem State.compareOp_keeps {s0 : State} (s : State) (w : Work) (h : Keeps s0 s) :
    Keeps s0 (State.compareOp s w) := by
  unfold State.compareOp
  try dsimp only
  repeat' first
    | with_reducible assumption
    | with_reducible apply State.finish_keeps

theorem execCompare_keeps {s0 : State} (ring : Nat) (s : State) (h : Keeps s0 s) :
    KeepsO s0 (execCompare ring s) :=
  KeepsO.next (State.onPrime_keeps _ _ _ _ h fun _ => State.compareOp_keeps _ _ h)

theorem State.primeOp_keeps {s0 : State} (s : State) (w : Work) (h : Keeps s0 s) :
    Keeps s0 (State.primeOp s w) := by
  unfold State.primeOp
  try dsimp only
  repeat' first
    | with_reducible assumption
    | with_reducible apply State.compareOp_keeps
    | with_reducible apply State.counterOp_keeps
    | with_reducible apply State.macGenOp_keeps
    | with_reducible apply State.macVerifyOp_keeps
    | with_reducible apply State.tallyAdjustOp_keeps
    | with_reducible apply State.tallyReadOp_keeps
    | split

theorem State.finishLanes_keeps {s0 : State} (s : State) (p : State → Work → Bool) (h : Keeps s0 s) :
    Keeps s0 (State.finishLanes s p) := by
  unfold State.finishLanes
  refine Keeps.foldl h fun t w ht => Keeps.ite (State.primeEnd_keeps _ _ _ ht fun v => ?_) ht
  exact State.primeOp_keeps _ _ ht

end Sys2Proof.Machine
end

