-- ==== Sys2Proof/Laws/KeepsRandom.lean ====
section
/-! SUPPORT. The operations of Machine/Random.lean keep what `Keeps` says. -/

namespace Sys2Proof.Machine
open Sys2Proof

set_option Elab.async false

theorem State.blockSources_keeps {s0 : State} (s : State) (k : Nat) (l : List Bytes) (h : Keeps s0 s) :
    Keeps s0 (State.blockSources s k l) := by
  induction l generalizing s k with
  | nil => exact h
  | cons b t ih => exact ih _ _ (State.setSource_keeps _ _ _ h)

theorem State.katFailed_keeps {s0 : State} (s : State) (detail : Nat) (h : Keeps s0 s) :
    Keeps s0 (State.katFailed s detail) := by
  unfold State.katFailed
  try dsimp only
  repeat' first
    | with_reducible assumption
    | with_reducible apply State.level1_keeps
    | with_reducible refine Keeps.upd ?_

theorem State.katDone_keeps {s0 : State} (s : State) (c d : Bool) (h : Keeps s0 s) :
    Keeps s0 (State.katDone s c d) := by
  unfold State.katDone
  try dsimp only
  repeat' first
    | with_reducible assumption
    | with_reducible apply State.katFailed_keeps
    | with_reducible apply Keeps.ite
    | split

theorem State.blockEnd_keeps {s0 : State} (s : State) (samples : List Bytes) (h : Keeps s0 s) :
    Keeps s0 (State.blockEnd s samples) := by
  unfold State.blockEnd
  try dsimp only
  repeat' first
    | with_reducible assumption
    | with_reducible apply State.askRandom_keeps
    | with_reducible apply State.blockSources_keeps
    | with_reducible apply Keeps.ite
    | split
    | with_reducible refine Keeps.upd ?_
    | intro _

theorem execRngBlockEnd_keeps {s0 : State} (samples : List Bytes) (s : State) (h : Keeps s0 s) :
    KeepsO s0 (execRngBlockEnd samples s) := by
  unfold execRngBlockEnd
  repeat' first
    | with_reducible assumption
    | with_reducible apply State.blockEnd_keeps
    | with_reducible apply KeepsO.next

theorem State.rngStep_keeps {s0 : State} (s : State) (f : State → State) (h : Keeps s0 s) (hf : ∀ y0, Keeps s0 y0 →
      Keeps s0 (f y0)) :
    Keeps s0 (State.rngStep s f) := by
  unfold State.rngStep
  try dsimp only
  repeat' first
    | with_reducible assumption
    | with_reducible apply hf
    | with_reducible apply Keeps.ite
    | with_reducible refine Keeps.upd ?_

theorem State.rngSquash_keeps {s0 : State} (s : State) (h : Keeps s0 s) :
    Keeps s0 (State.rngSquash s) := by
  unfold State.rngSquash
  dsimp only
  split
  · exact h.upd
  · rename_i u hu
    exact h.upd (h7 := fun k => ⟨k.undo u hu, k.fifo, k.buf, k.fw, fun _ e => nomatch e⟩)

theorem State.conditioning_keeps {s0 : State} (s : State) (h : Keeps s0 s) :
    Keeps s0 (State.conditioning s) := by
  unfold State.conditioning
  split
  · exact h
  · refine Keeps.ite h (State.rngStep_keeps _ _ h fun t ht => ?_)
    exact ht.upd

theorem execConditioning_keeps {s0 : State} (s : State) (h : Keeps s0 s) :
    KeepsO s0 (execConditioning s) := by
  unfold execConditioning
  repeat' first
    | with_reducible assumption
    | with_reducible apply State.conditioning_keeps
    | with_reducible apply KeepsO.next

theorem State.reseedMet_keeps {s0 : State} (s : State) (h : Keeps s0 s) :
    Keeps s0 (State.reseedMet s) := by
  unfold State.reseedMet
  try dsimp only
  repeat' first
    | with_reducible assumption
    | with_reducible refine Keeps.plain ?_

theorem State.instantiate_keeps {s0 : State} (s : State) (h : Keeps s0 s) :
    Keeps s0 (State.instantiate s) := by
  unfold State.instantiate
  refine Keeps.ite h (State.rngStep_keeps _ _ h fun t ht => State.reseedMet_keeps _ ?_)
  exact ht.upd

theorem execDrbgInstantiate_keeps {s0 : State} (s : State) (h : Keeps s0 s) :
    KeepsO s0 (execDrbgInstantiate s) := by
  unfold execDrbgInstantiate
  repeat' first
    | with_reducible assumption
    | with_reducible apply State.instantiate_keeps
    | with_reducible apply KeepsO.next

theorem State.reseed_keeps {s0 : State} (s : State) (h : Keeps s0 s) :
    Keeps s0 (State.reseed s) := by
  unfold State.reseed
  refine Keeps.ite h (State.rngStep_keeps _ _ h fun t ht => State.reseedMet_keeps _ ?_)
  exact ht.upd

theorem execDrbgReseed_keeps {s0 : State} (s : State) (h : Keeps s0 s) :
    KeepsO s0 (execDrbgReseed s) := by
  unfold execDrbgReseed
  repeat' first
    | with_reducible assumption
    | with_reducible apply State.reseed_keeps
    | with_reducible apply KeepsO.next

theorem State.reseedOverdue_keeps {s0 : State} (s : State) (h : Keeps s0 s) :
    Keeps s0 (State.reseedOverdue s) := by
  unfold State.reseedOverdue
  try dsimp only
  repeat' first
    | with_reducible assumption
    | with_reducible apply State.missTask_keeps
    | with_reducible apply Keeps.ite
    | with_reducible refine Keeps.upd ?_

theorem execReseedOverdue_keeps {s0 : State} (s : State) (h : Keeps s0 s) :
    KeepsO s0 (execReseedOverdue s) := by
  unfold execReseedOverdue
  repeat' first
    | with_reducible assumption
    | with_reducible apply State.reseedOverdue_keeps
    | with_reducible apply KeepsO.next

theorem State.startupSlow_keeps {s0 : State} (s : State) (h : Keeps s0 s) :
    Keeps s0 (State.startupSlow s) := by
  unfold State.startupSlow
  try dsimp only
  repeat' first
    | with_reducible assumption
    | with_reducible apply State.plogEvent_keeps
    | with_reducible apply Keeps.ite
    | split
    | with_reducible refine Keeps.upd ?_

theorem execRngStartupSlow_keeps {s0 : State} (s : State) (h : Keeps s0 s) :
    KeepsO s0 (execRngStartupSlow s) := by
  unfold execRngStartupSlow
  repeat' first
    | with_reducible assumption
    | with_reducible apply State.startupSlow_keeps
    | with_reducible apply KeepsO.next

theorem State.genBlock_keeps {s0 : State} (s : State) (h : Keeps s0 s) :
    Keeps s0 (State.genBlock s) := by
  unfold State.genBlock
  try dsimp only
  repeat' first
    | with_reducible assumption
    | with_reducible apply Keeps.ite
    | with_reducible refine Keeps.upd ?_

theorem State.genGrain_keeps {s0 : State} (s : State) (h : Keeps s0 s) :
    Keeps s0 (State.genGrain s) := by
  unfold State.genGrain
  repeat' first
    | with_reducible assumption
    | with_reducible apply State.genBlock_keeps
    | with_reducible apply Keeps.foldl
    | intro _

theorem State.rngData_keeps {s0 : State} (s : State) (n : Nat) (h : Keeps s0 s) :
    Keeps s0 (State.rngData s n).2 := by
  unfold State.rngData
  try dsimp only
  repeat' first
    | with_reducible assumption
    | split
    | with_reducible refine Keeps.upd ?_

theorem execRngDataRead_keeps {s0 : State} (size : Nat) (s : State) (h : Keeps s0 s) :
    KeepsO s0 (execRngDataRead size s) := by
  unfold execRngDataRead
  dsimp only
  split
  · refine KeepsO.next (State.emit_keeps _ _ ?_)
    split
    · exact h
    · exact State.rngData_keeps _ _ h
  · exact KeepsO.next (Keeps.ite (State.barRefused_keeps _ _ h) h)

theorem State.rngLifeCycle_keeps {s0 : State} (s : State) (h : Keeps s0 s) :
    Keeps s0 (State.rngLifeCycle s) := by
  unfold State.rngLifeCycle
  try dsimp only
  repeat' first
    | with_reducible assumption
    | with_reducible refine Keeps.upd ?_

theorem State.rngReset_keeps {s0 : State} (s : State) (h : Keeps s0 s) :
    Keeps s0 (State.rngReset s) := by
  unfold State.rngReset
  try dsimp only
  repeat' first
    | with_reducible assumption
    | with_reducible refine Keeps.upd ?_

end Sys2Proof.Machine
end

