-- ==== Sys2Proof/Laws/KeepsTamper.lean ====
section
/-! SUPPORT. The operations of Machine/Tamper.lean keep what `Keeps` says. -/

namespace Sys2Proof.Machine
open Sys2Proof

set_option Elab.async false

theorem State.tlogTamper_keeps {s0 : State} (s : State) (level : Nat) (action : Nat) (e : TamperEvent) (h : Keeps s0
      s) :
    Keeps s0 (State.tlogTamper s level action e) := by
  unfold State.tlogTamper
  repeat' first
    | with_reducible assumption
    | with_reducible apply State.tlogEvent_keeps

theorem State.orphan_keeps {s0 : State} (s : State) (core : Nat) (h : Keeps s0 s) :
    Keeps s0 (State.orphan s core) := by
  unfold State.orphan
  try dsimp only
  repeat' first
    | with_reducible assumption
    | with_reducible apply Keeps.ite
    | with_reducible refine Keeps.upd ?_

theorem State.dropCoreWork_keeps {s0 : State} (s : State) (core : Nat) (h : Keeps s0 s) :
    Keeps s0 (State.dropCoreWork s core) := by
  unfold State.dropCoreWork
  repeat' first
    | with_reducible assumption
    | with_reducible refine Keeps.plain ?_

theorem State.clearCore_keeps {s0 : State} (s : State) (core : Nat) (h : Keeps s0 s) :
    Keeps s0 (State.clearCore s core) := by
  unfold State.clearCore
  try dsimp only
  repeat' first
    | with_reducible assumption
    | with_reducible apply State.dropBn_keeps
    | with_reducible apply State.dropCoreWork_keeps
    | with_reducible apply State.dropRandom_keeps
    | with_reducible apply State.modMpu_keeps
    | with_reducible apply State.orphan_keeps
    | with_reducible apply State.setCore_keeps
    | exact fun _ => Core.reset_wf

theorem State.commitInK_keeps {s0 : State} (s : State) (book : Nat) (h : Keeps s0 s) :
    Keeps s0 (State.commitInK s book) := by
  unfold State.commitInK
  try dsimp only
  repeat' first
    | with_reducible assumption
    | with_reducible apply State.commitBook_keeps
    | with_reducible apply Keeps.foldl
    | intro _

theorem State.commitStanding_keeps {s0 : State} (s : State) (h : Keeps s0 s) :
    Keeps s0 (State.commitStanding s) := by
  unfold State.commitStanding
  try dsimp only
  repeat' first
    | with_reducible assumption
    | with_reducible apply State.commitInK_keeps
    | with_reducible apply Keeps.foldl
    | intro _

theorem State.endForChange_keeps {s0 : State} (s : State) (target : LcState) (keep : Option Nat) (st : Status)
      (h : Keeps s0 s) :
    Keeps s0 (State.endForChange s target keep st) := by
  unfold State.endForChange
  try dsimp only
  repeat' first
    | with_reducible assumption
    | with_reducible apply State.clearCore_keeps
    | with_reducible apply State.commitStanding_keeps
    | with_reducible apply State.dropBn_keeps
    | with_reducible apply State.dropCollect_keeps
    | with_reducible apply State.endEntries_keeps
    | with_reducible apply State.fenceRing_keeps
    | with_reducible apply State.finishLanes_keeps
    | with_reducible apply State.finishRaw_keeps
    | with_reducible apply State.redecide_keeps
    | with_reducible apply State.releaseUnits_keeps
    | with_reducible apply Keeps.foldl
    | with_reducible apply Keeps.ite
    | split
    | with_reducible refine Keeps.plain ?_
    | intro _

theorem State.releaseForChange_keeps {s0 : State} (s : State) (book : Nat) (again : Bool) (h : Keeps s0 s) :
    Keeps s0 (State.releaseForChange s book again) := by
  unfold State.releaseForChange
  try dsimp only
  repeat' first
    | with_reducible assumption
    | with_reducible apply State.modBook_keeps
    | with_reducible apply State.releaseWithheld_keeps
    | with_reducible apply State.dropPan_keeps
    | with_reducible apply State.bookState_keeps
    | with_reducible apply Keeps.ite

theorem State.recordLife_keeps {s0 : State} (s : State) (h : Keeps s0 s) :
    Keeps s0 (State.recordLife s) := by
  unfold State.recordLife
  repeat' first
    | with_reducible assumption
    | with_reducible apply State.nvPut_keeps

theorem Nv.wipe_keeps {s0 s : State} (spent : Bool) (h : Keeps s0 s) : Keeps s0 { s with nv := s.nv.wipe spent } := by
  unfold Nv.wipe
  extract_lets gone n pages
  have hn : Keeps s0 { s with nv := n } := h.upd (h9 := fun k => (List.length_filter_le _ _).trans k)
  refine hn.same (Nv.foldl_same _ (fun m p => ?_) pages n)
  dsimp only
  split
  · exact Nv.writePhys_same _ _ _
  · exact Nv.Same.refl _

theorem State.destroyKeys_keeps {s0 : State} (s : State) (h : Keeps s0 s) :
    Keeps s0 (State.destroyKeys s) :=
  (Nv.wipe_keeps _ h).upd

/-- The record of a transition that R508 allows keeps. -/
theorem State.enterState_keeps {s0 : State} (s : State) (target : LcState) (cause num : Nat) (tr : Transition)
    (h : Keeps s0 s) (hs : s.tamper.state ≠ .spent) (ht : target ≠ .blank) :
    Keeps s0 (State.enterState s target cause num tr) :=
  h.upd (h4 := ⟨fun k => absurd k hs, fun k => absurd k ht⟩)

/-- A transition that R508 allows keeps. -/
theorem State.changeState_keeps {s0 : State} (s : State) (target : LcState) (cause num : Nat) (work : Option Nat)
    (byTamper : Bool) (h : Keeps s0 s) (hs : s.tamper.state ≠ .spent) (ht : target ≠ .blank) :
    Keeps s0 (State.changeState s target cause num work byTamper) := by
  unfold State.changeState
  extract_lets ag waits tr st s1 s2 s3
  have h1 : Keeps s0 s1 := State.endForChange_keeps _ _ _ _ (State.recordLife_keeps _ (State.enterState_keeps _ _ _ _ _ h hs ht))
  have h2 : Keeps s0 s2 := Keeps.foldl h1 (fun t x k => State.releaseForChange_keeps _ _ _ k)
  have h3 : Keeps s0 s3 := State.destroyKeys_keeps _ (State.rngLifeCycle_keeps _ h2)
  exact Keeps.ite h3.upd h3

theorem State.severeActs_ne {s : State} {level : Nat} (h : s.severeActs level = true) : s.tamper.state ≠ .spent := by
  intro e
  simp [State.severeActs, e] at h

theorem State.severe_keeps {s0 : State} (s : State) (level : Nat) (e : TamperEvent) (h : Keeps s0 s) :
    Keeps s0 (State.severe s level e) := by
  unfold State.severe
  refine Keeps.ite h ?_
  split
  · exact Keeps.ite (State.tlogTamper_keeps _ _ _ _ h).upd (State.tlogTamper_keeps _ _ _ _ h)
  · refine Keeps.ite (State.tlogTamper_keeps _ _ _ _ h).upd ?_
    split
    · next ha =>
      refine State.changeState_keeps _ _ _ _ _ _ (State.tlogTamper_keeps _ _ _ _ h) ?_ ?_
      · exact State.severeActs_ne ha
      · split <;> decide
    · exact State.tlogTamper_keeps _ _ _ _ h

theorem Squashed.none__keeps {s0 : State} (s : State) (h : Keeps s0 s) :
    Keeps s0 (Squashed.none_ s).st := by
  unfold Squashed.none_
  try dsimp only
  repeat' first
    | with_reducible assumption

theorem Squashed.andThen_keeps {s0 : State} {q : Squashed} {f : State → Squashed} (h : Keeps s0 q.st)
    (hf : ∀ t, Keeps s0 t → Keeps s0 (f t).st) : Keeps s0 (q.andThen f).st := hf _ h

/-- One squash after the other keeps. -/
theorem Squashed.foldl_keeps {α : Type} {s0 : State} {f : α → State → Squashed} (l : List α) {q : Squashed}
    (h : Keeps s0 q.st) (hf : ∀ x t, Keeps s0 t → Keeps s0 (f x t).st) :
    Keeps s0 (l.foldl (fun q x => q.andThen (f x)) q).st :=
  Keeps.foldlOn Squashed.st h (fun _ x hb => hf x _ hb)

theorem State.redoFailed_keeps {s0 : State} (s : State) (ledger : Bool) (h : Keeps s0 s) :
    Keeps s0 (State.redoFailed s ledger) := by
  unfold State.redoFailed
  try dsimp only
  repeat' first
    | with_reducible assumption
    | with_reducible apply Keeps.ite
    | split
    | with_reducible refine Keeps.plain ?_

theorem State.markFault_keeps {s0 : State} (s : State) (id : Nat) (h : Keeps s0 s) :
    Keeps s0 (State.markFault s id) := by
  unfold State.markFault
  try dsimp only
  repeat' first
    | with_reducible assumption
    | with_reducible apply State.modWork_keeps

theorem State.finishFault_keeps {s0 : State} (s : State) (id : Nat) (st : Status) (res : Bytes) (h : Keeps s0 s)
      :
    Keeps s0 (State.finishFault s id st res) := by
  unfold State.finishFault
  try dsimp only
  repeat' first
    | with_reducible assumption
    | with_reducible apply State.finish_keeps
    | with_reducible apply State.markFault_keeps

theorem State.squashPrimeWork_keeps {s0 : State} (s : State) (w : Work) (h : Keeps s0 s) :
    Keeps s0 (State.squashPrimeWork s w).st := by
  unfold State.squashPrimeWork
  try dsimp only
  repeat' first
    | with_reducible assumption
    | with_reducible apply State.finishFault_keeps
    | with_reducible apply State.modWork_keeps
    | with_reducible apply State.redoFailed_keeps
    | with_reducible apply Keeps.ite
    | split

theorem Squashed.noted_keeps {s0 : State} (q : Squashed) (h : Keeps s0 q.st) : Keeps s0 q.noted.st := by
  unfold Squashed.noted
  split
  · exact Keeps.plain h
  · exact h

theorem State.squashPrimes_keeps {s0 : State} (s : State) (hits : List Work) (h : Keeps s0 s) :
    Keeps s0 (State.squashPrimes s hits).st :=
  Squashed.foldl_keeps (f := fun w s => s.squashPrimeWork w) hits (q := Squashed.none_ s) h
    fun w t ht => State.squashPrimeWork_keeps t w ht

theorem State.squashPrime_keeps {s0 : State} (s : State) (lane : Nat → Bool) (h : Keeps s0 s) :
    Keeps s0 (State.squashPrime s lane).st := by
  unfold State.squashPrime
  extract_lets hits q
  have hq : Keeps s0 q.st := State.squashPrimes_keeps _ _ h
  split
  · exact Squashed.noted_keeps _ hq
  · exact hq

theorem State.endFaulted_keeps {s0 : State} (s : State) (key : Nat × Bool) (st : Status) (h : Keeps s0 s) :
    Keeps s0 (State.endFaulted s key st) := by
  unfold State.endFaulted
  split
  · exact h
  · rename_i e _
    have hu := State.endEntry_keeps (s0 := s0) _ e st (faultResult 0 1) true
      (State.dropEntries_keeps _ (fun x => x.key == key) (State.redoFailed_keeps _ true h))
    exact Keeps.ite hu (State.markFault_keeps _ _ hu)

theorem State.squashHits_keeps {s0 : State} (s : State) (hits : List Hit) (st : Status) (h : Keeps s0 s) :
    Keeps s0 (State.squashHits s hits st).st := by
  unfold State.squashHits
  extract_lets es ends left b sc t u
  have ht : Keeps s0 t := h.upd
  exact Keeps.foldl (State.reexecute_keeps _ _ ht) fun v k hv => State.endFaulted_keeps v k st hv

theorem State.redoStages_keeps {s0 : State} (s : State) (key : Nat × Bool) (lanes verify : Bool) (st : Status)
    (h : Keeps s0 s) : Keeps s0 (State.redoStages s key lanes verify st).st := State.squashHits_keeps _ _ _ h

theorem State.redoEntry_keeps {s0 : State} (s : State) (key : Nat × Bool) (st : Status) (h : Keeps s0 s) :
    Keeps s0 (State.redoEntry s key st).st := State.redoStages_keeps _ _ _ _ _ h

theorem State.squashPosting_keeps {s0 : State} (s : State) (lane : Nat → Bool) (h : Keeps s0 s) :
    Keeps s0 (State.squashPosting s lane).st := Squashed.noted_keeps _ (State.squashHits_keeps _ _ _ h)

theorem State.redoVerify_keeps {s0 : State} (s : State) (e : Entry) (st : Status) (h : Keeps s0 s) :
    Keeps s0 (State.redoVerify s e st).st := State.redoStages_keeps _ _ _ _ _ h

theorem State.squashVerify_keeps {s0 : State} (s : State) (index : Nat) (h : Keeps s0 s) :
    Keeps s0 (State.squashVerify s index).st := by
  unfold State.squashVerify
  split
  · exact h
  · exact Squashed.noted_keeps _ (State.redoVerify_keeps _ _ _ h)

theorem State.squashEntries_keeps {s0 : State} (s : State) (h : Keeps s0 s) : Keeps s0 (State.squashEntries s).st :=
  State.squashHits_keeps _ _ _ h

theorem State.squashCommit_keeps {s0 : State} (s : State) (book : Nat) (h : Keeps s0 s) :
    Keeps s0 (State.squashCommit s book).st := by
  unfold State.squashCommit
  split
  · exact h
  · split
    · exact Squashed.noted_keeps _ (State.redoEntry_keeps _ _ _ h)
    · exact h

theorem State.squashCompare_keeps {s0 : State} (s : State) (w : Option Work) (h : Keeps s0 s) :
    Keeps s0 (State.squashCompare s w).st := by
  unfold State.squashCompare
  split
  · exact h
  · split
    · exact State.finish_keeps _ _ _ _ (State.releaseUnits_keeps _ _ h)
    · exact State.modWork_keeps _ _ _ h

theorem State.squashStream_keeps {s0 : State} (s : State) (digest : Bool) (unit : Nat) (h : Keeps s0 s) :
    Keeps s0 (State.squashStream s digest unit).st := State.squashCompare_keeps _ _ h

theorem State.squashLoad_keeps {s0 : State} (s : State) (book : Nat) (h : Keeps s0 s) :
    Keeps s0 (State.squashLoad s book).st := by
  unfold State.squashLoad
  split
  · exact h
  · split
    · exact State.loadFailed_keeps _ _ _ _ h
    · exact State.modLoad_keeps _ _ _ _ h

theorem State.squashBn_keeps {s0 : State} (s : State) (e : Nat) (h : Keeps s0 s) :
    Keeps s0 (State.squashBn s e) := by
  unfold State.squashBn
  dsimp only
  split
  · exact h
  · exact State.setBn_keeps _ _ _ h

theorem State.squashCore_keeps {s0 : State} (s : State) (c : Nat) (h : Keeps s0 s) :
    Keeps s0 (State.squashCore s c) := by
  unfold State.squashCore
  repeat' first
    | with_reducible assumption
    | with_reducible apply State.modCore_keeps
    | with_reducible apply Keeps.ite
    | exact fun c hc => hc.keep rfl rfl rfl rfl rfl rfl rfl

theorem State.redoSteps_keeps {s0 : State} (s : State) (p : UnitId → Bool) (h : Keeps s0 s) :
    Keeps s0 (State.redoSteps s p).st := by
  unfold State.redoSteps
  try dsimp only
  repeat' first
    | with_reducible assumption
    | with_reducible refine Keeps.plain ?_

theorem State.squashWork_keeps {s0 : State} (s : State) (glitch : Bool) (unit index : Nat) (h : Keeps s0 s) :
    Keeps s0 (State.squashWork s glitch unit index).st := by
  unfold State.squashWork
  split
  · exact State.squashPrime_keeps _ _ h
  · split
    · exact State.squashVerify_keeps _ _ h
    · exact State.squashPosting_keeps _ _ h
  · split
    · exact State.squashLoad_keeps _ _ h
    · exact State.squashCommit_keeps _ _ h
  · split
    · exact State.squashCompare_keeps _ _ h
    · exact State.squashCommit_keeps _ _ h
  · split
    · exact State.squashStream_keeps _ _ _ h
    · exact h
  · split
    · exact State.squashStream_keeps _ _ _ h
    · exact h
  · exact State.squashBn_keeps _ _ h
  · exact State.squashCore_keeps _ _ h
  · exact State.rngSquash_keeps _ h
  · split
    · exact State.squashCompare_keeps _ _ h
    · exact h
  · exact h

theorem State.squashUnit_keeps {s0 : State} (s : State) (glitch : Bool) (unit index : Nat) (h : Keeps s0 s) :
    Keeps s0 (State.squashUnit s glitch unit index).st :=
  Squashed.andThen_keeps (State.squashWork_keeps _ _ _ _ h) fun _ ht => State.redoSteps_keeps _ _ ht

theorem State.squashSteps_keeps {s0 : State} (s : State) (h : Keeps s0 s) : Keeps s0 (State.squashSteps s).st := by
  unfold State.squashSteps
  generalize List.range bnEngines = l
  generalize List.range 32 = m
  have h1 := Keeps.foldl (f := fun s e => State.squashBn s e) (l := l) h (fun t e k => State.squashBn_keeps t e k)
  have h2 := Keeps.foldl (f := fun s c => State.squashCore s c) (l := m) h1 (fun t e k => State.squashCore_keeps t e k)
  exact State.redoSteps_keeps _ (fun u => !u.redoesAlone) (State.rngSquash_keeps _ h2)

theorem State.squashAll_keeps {s0 : State} (s : State) (h : Keeps s0 s) : Keeps s0 (State.squashAll s).st := by
  unfold State.squashAll
  extract_lets hits p q e n
  have he : Keeps s0 e.st := State.squashEntries_keeps _ (State.squashPrimes_keeps _ _ h)
  exact Squashed.andThen_keeps (Squashed.noted_keeps _ he) fun t ht => State.squashSteps_keeps t ht

theorem State.level2_keeps {s0 : State} (s : State) (e : TamperEvent) (squash : State → Squashed) (h : Keeps s0 s)
    (hsquash : ∀ t, Keeps s0 t → Keeps s0 (squash t).st) : Keeps s0 (State.level2 s e squash) := by
  unfold State.level2
  extract_lets w u s1 esc q action s2
  have h1 : Keeps s0 s1 := h.upd
  have hq : Keeps s0 q.st := by
    show Keeps s0 (if _ then _ else _ : Squashed).st
    split
    · exact h1
    · exact hsquash _ h1
  have h2 : Keeps s0 s2 := State.tlogTamper_keeps _ _ _ _ hq
  exact Keeps.ite h (Keeps.ite (State.tlogTamper_keeps _ _ _ _ h1) (Keeps.ite (State.severe_keeps _ _ _ h2) h2))

theorem execTamperLevel2Squash_keeps {s0 : State} (glitch : Option Bool) (unit : Nat) (index : Nat) (s : State)
    (h : Keeps s0 s) : KeepsO s0 (execTamperLevel2Squash glitch unit index s) := by
  unfold execTamperLevel2Squash
  refine KeepsO.next (Keeps.ite h ?_)
  extract_lets e c t
  have ht : Keeps s0 t := Keeps.ite h.upd h
  exact State.level2_keeps _ _ _ ht (fun _ k => State.squashUnit_keeps _ _ _ _ k)

theorem execGlitchDetectorTrip_keeps {s0 : State} (detector : Nat) (s : State) (h : Keeps s0 s) :
    KeepsO s0 (execGlitchDetectorTrip detector s) := by
  refine KeepsO.next (Keeps.ite h (State.level2_keeps _ _ _ h (fun t k => ?_)))
  split
  · exact State.squashAll_keeps _ k
  · exact k

theorem execOvervoltageTrip_keeps {s0 : State} (rail : Nat) (s : State) (h : Keeps s0 s) :
    KeepsO s0 (execOvervoltageTrip rail s) := by
  unfold execOvervoltageTrip
  repeat' first
    | with_reducible assumption
    | with_reducible apply State.severe_keeps
    | with_reducible apply KeepsO.next
    | with_reducible apply Keeps.ite

theorem State.stopClock_keeps {s0 : State} (s : State) (level : Nat) (mhz : Nat) (h : Keeps s0 s) :
    Keeps s0 (State.stopClock s level mhz) := by
  unfold State.stopClock
  try dsimp only
  repeat' first
    | with_reducible assumption
    | with_reducible apply Keeps.ite
    | split
    | with_reducible refine Keeps.upd ?_

theorem execClockPeriodTrip_keeps {s0 : State} (s : State) (h : Keeps s0 s) :
    KeepsO s0 (execClockPeriodTrip s) := by
  unfold execClockPeriodTrip
  repeat' first
    | with_reducible assumption
    | with_reducible apply State.stopClock_keeps
    | with_reducible apply KeepsO.next

theorem execClockFrequencyTrip_keeps {s0 : State} (mhz : Nat) (s : State) (h : Keeps s0 s) :
    KeepsO s0 (execClockFrequencyTrip mhz s) := by
  unfold execClockFrequencyTrip
  repeat' first
    | with_reducible assumption
    | with_reducible apply State.stopClock_keeps
    | with_reducible apply KeepsO.next
    | with_reducible apply Keeps.ite

theorem execClockRelock_keeps {s0 : State} (s : State) (h : Keeps s0 s) : KeepsO s0 (execClockRelock s) := by
  refine KeepsO.next ?_
  split
  · exact h
  · exact Keeps.ite (State.level2_keeps _ _ _ h.upd (fun _ k => State.squashAll_keeps _ k)) (State.severe_keeps _ _ _ h.upd)

theorem execLightSensorTrip_keeps {s0 : State} (sensorNo : Nat) (s : State) (h : Keeps s0 s) :
    KeepsO s0 (execLightSensorTrip sensorNo s) := by
  unfold execLightSensorTrip
  repeat' first
    | with_reducible assumption
    | with_reducible apply State.severe_keeps
    | with_reducible apply KeepsO.next
    | with_reducible apply Keeps.ite

theorem execTemperatureGradeTrip_keeps {s0 : State} (sensorNo : Nat) (tj : BitVec 16) (s : State) (h : Keeps s0 s) :
    KeepsO s0 (execTemperatureGradeTrip sensorNo tj s) := by
  unfold execTemperatureGradeTrip
  try dsimp only
  repeat' first
    | with_reducible assumption
    | with_reducible apply State.level1_keeps
    | with_reducible apply KeepsO.next
    | with_reducible apply Keeps.ite

theorem execTemperatureTrip_keeps {s0 : State} (sensorNo : Nat) (tj : BitVec 16) (s : State) (h : Keeps s0 s) :
    KeepsO s0 (execTemperatureTrip sensorNo tj s) := by
  unfold execTemperatureTrip
  repeat' first
    | with_reducible assumption
    | with_reducible apply State.severe_keeps
    | with_reducible apply KeepsO.next
    | with_reducible apply Keeps.ite

theorem State.trackDeviates_keeps {s0 : State} (s : State) (track : Nat) (dev : Nat) (h : Keeps s0 s) :
    Keeps s0 (State.trackDeviates s track dev) := by
  unfold State.trackDeviates
  repeat' first
    | with_reducible assumption
    | with_reducible apply State.severe_keeps
    | with_reducible apply State.level1_keeps
    | with_reducible apply Keeps.ite

theorem execSensorCalibration_keeps {s0 : State} (deviations : List (Nat × Nat)) (s : State) (h : Keeps s0 s) :
    KeepsO s0 (execSensorCalibration deviations s) := by
  refine KeepsO.next (Keeps.ite h (State.stepOf_keeps _ _ _ _ h fun t ht => State.taskDone_keeps _ _ ?_))
  exact Keeps.foldl ht fun u d k => Keeps.ite (State.trackDeviates_keeps _ _ _ k) k

theorem execSubstrateMeshFail_keeps {s0 : State} (mesh : Nat) (s : State) (h : Keeps s0 s) :
    KeepsO s0 (execSubstrateMeshFail mesh s) := by
  unfold execSubstrateMeshFail
  repeat' first
    | with_reducible assumption
    | with_reducible apply State.severe_keeps
    | with_reducible apply KeepsO.next
    | with_reducible apply Keeps.ite

theorem State.batteryCheck_keeps {s0 : State} (s : State) (loopFault : Bool) (meshFault : Bool) (h : Keeps s0 s) :
    Keeps s0 (State.batteryCheck s loopFault meshFault) := by
  unfold State.batteryCheck
  try dsimp only
  repeat' first
    | with_reducible assumption
    | with_reducible apply State.severe_keeps
    | with_reducible apply Keeps.ite
    | with_reducible refine Keeps.upd ?_

theorem execBatteryLoopCheck_keeps {s0 : State} (loopFault : Bool) (meshFault : Bool) (s : State) (h : Keeps s0 s) :
    KeepsO s0 (execBatteryLoopCheck loopFault meshFault s) := by
  unfold execBatteryLoopCheck
  repeat' first
    | with_reducible assumption
    | with_reducible apply State.batteryCheck_keeps
    | with_reducible apply KeepsO.next

theorem execVbatLow_keeps {s0 : State} (s : State) (h : Keeps s0 s) :
    KeepsO s0 (execVbatLow s) := by
  unfold execVbatLow
  try dsimp only
  repeat' first
    | with_reducible assumption
    | with_reducible apply State.level1_keeps
    | with_reducible apply KeepsO.next
    | with_reducible apply Keeps.ite
    | with_reducible refine Keeps.upd ?_

theorem execVbatRestored_keeps {s0 : State} (s : State) (h : Keeps s0 s) :
    KeepsO s0 (execVbatRestored s) := by
  unfold execVbatRestored
  try dsimp only
  repeat' first
    | with_reducible assumption
    | with_reducible apply KeepsO.next
    | with_reducible apply Keeps.ite
    | with_reducible refine Keeps.upd ?_

theorem State.batCfg_keeps {s0 : State} (s : State) (value : Nat) (loopOk : Bool) (meshOk : Bool) (h : Keeps s0 s) :
    Keeps s0 (State.batCfg s value loopOk meshOk) := by
  unfold State.batCfg
  try dsimp only
  repeat' first
    | with_reducible assumption
    | with_reducible apply State.plogReg_keeps
    | with_reducible apply State.recordLife_keeps
    | with_reducible apply State.drawn_keeps
    | with_reducible apply Keeps.ite
    | with_reducible refine Keeps.upd ?_

theorem execBatCfgWrite_keeps {s0 : State} (value : Nat) (loopOk : Bool) (meshOk : Bool) (s : State) (h : Keeps s0 s)
      :
    KeepsO s0 (execBatCfgWrite value loopOk meshOk s) := by
  unfold execBatCfgWrite
  repeat' first
    | with_reducible assumption
    | with_reducible apply State.onReg_keeps
    | with_reducible apply State.batCfg_keeps
    | with_reducible apply KeepsO.next
    | intro _

end Sys2Proof.Machine
end

