-- ==== Sys2Proof/Laws/KeepsApplets.lean ====
section
/-! SUPPORT. The operations of Machine/Applets.lean keep what `Keeps` says. -/

namespace Sys2Proof.Machine
open Sys2Proof

set_option Elab.async false

theorem State.readAllow_keeps {s0 : State} (s : State) (index slice : Nat) (h : Keeps s0 s) :
    Keeps s0 (State.readAllow s index slice) := by
  unfold State.readAllow
  try dsimp only
  repeat' first
    | with_reducible assumption
    | with_reducible apply State.plogEvent_keeps
    | with_reducible apply Keeps.ite
    | split

theorem State.appletSession_keeps {s0 : State} (s : State) (w : Work) (n : Nat) (h : Keeps s0 s) :
    Keeps s0 (State.appletSession s w n).1 := by
  unfold State.appletSession
  try dsimp only
  repeat' first
    | with_reducible assumption
    | with_reducible apply State.chargeSession_keeps
    | split

theorem State.allowAddBody_keeps {s0 : State} (s : State) (w : Work) (h : Keeps s0 s) :
    Keeps s0 (State.allowAddBody s w) := by
  unfold State.allowAddBody
  try dsimp only
  repeat' first
    | with_reducible assumption
    | (refine Keeps.fst ?_ (by assumption))
    | with_reducible apply State.appletSession_keeps
    | with_reducible apply State.hostRead_keeps
    | with_reducible apply State.modWork_keeps
    | with_reducible apply State.readAllow_keeps
    | with_reducible apply State.refuse_keeps
    | with_reducible apply Keeps.ite
    | split
    | intro _

theorem execAllowAdd_keeps {s0 : State} (ring : Nat) (s : State) (h : Keeps s0 s) :
    KeepsO s0 (execAllowAdd ring s) := by
  unfold execAllowAdd
  repeat' first
    | with_reducible assumption
    | with_reducible apply State.onStart_keeps
    | with_reducible apply State.allowAddBody_keeps
    | with_reducible apply KeepsO.next
    | with_reducible apply Keeps.ite
    | intro _

theorem State.writeAllow_keeps {s0 : State} (s : State) (w : Work) (index : Nat) (a : Allow) (res : Bytes) (h :
      Keeps s0 s) :
    Keeps s0 (State.writeAllow s w index a res) := by
  unfold State.writeAllow
  try dsimp only
  repeat' first
    | with_reducible assumption
    | with_reducible apply State.modWork_keeps
    | with_reducible apply State.nvSend_keeps
    | intro _

theorem State.allowAddRead_keeps {s0 : State} (s : State) (w : Work) (h : Keeps s0 s) :
    Keeps s0 (State.allowAddRead s w) := by
  unfold State.allowAddRead
  try dsimp only
  repeat' first
    | with_reducible assumption
    | with_reducible apply State.refuse_keeps
    | with_reducible apply State.writeAllow_keeps
    | with_reducible apply Keeps.ite
    | split

theorem State.allowRemoveBody_keeps {s0 : State} (s : State) (w : Work) (h : Keeps s0 s) :
    Keeps s0 (State.allowRemoveBody s w) := by
  unfold State.allowRemoveBody
  try dsimp only
  repeat' first
    | with_reducible assumption
    | (refine Keeps.fst ?_ (by assumption))
    | with_reducible apply State.appletSession_keeps
    | with_reducible apply State.readAllow_keeps
    | with_reducible apply State.refuse_keeps
    | with_reducible apply State.writeAllow_keeps
    | with_reducible apply Keeps.ite
    | split

theorem execAllowRemove_keeps {s0 : State} (ring : Nat) (s : State) (h : Keeps s0 s) :
    KeepsO s0 (execAllowRemove ring s) := by
  unfold execAllowRemove
  repeat' first
    | with_reducible assumption
    | with_reducible apply State.onStart_keeps
    | with_reducible apply State.allowRemoveBody_keeps
    | with_reducible apply KeepsO.next
    | with_reducible apply Keeps.ite
    | intro _

theorem State.allowReadBody_keeps {s0 : State} (s : State) (w : Work) (h : Keeps s0 s) :
    Keeps s0 (State.allowReadBody s w) := by
  unfold State.allowReadBody
  try dsimp only
  repeat' first
    | with_reducible assumption
    | with_reducible apply State.finishOpen_keeps
    | with_reducible apply State.hostWrite_keeps
    | with_reducible apply State.readAllow_keeps
    | with_reducible apply State.refuseOpen_keeps
    | with_reducible apply Keeps.ite
    | split

theorem execAllowRead_keeps {s0 : State} (ring : Nat) (s : State) (h : Keeps s0 s) :
    KeepsO s0 (execAllowRead ring s) := by
  unfold execAllowRead
  repeat' first
    | with_reducible assumption
    | with_reducible apply State.onStart_keeps
    | with_reducible apply State.allowReadBody_keeps
    | with_reducible apply KeepsO.next
    | intro _

theorem State.invokeBody_keeps {s0 : State} (s : State) (w : Work) (h : Keeps s0 s) :
    Keeps s0 (State.invokeBody s w) := by
  unfold State.invokeBody
  try dsimp only
  repeat' first
    | with_reducible assumption
    | (refine Keeps.fst ?_ (by assumption))
    | with_reducible apply State.refuse_keeps
    | with_reducible apply State.appletSession_keeps
    | with_reducible apply State.modWork_keeps
    | with_reducible apply Keeps.ite
    | split

theorem execInvoke_keeps {s0 : State} (ring : Nat) (s : State) (h : Keeps s0 s) :
    KeepsO s0 (execInvoke ring s) := by
  unfold execInvoke
  repeat' first
    | with_reducible assumption
    | with_reducible apply State.onStart_keeps
    | with_reducible apply State.invokeBody_keeps
    | with_reducible apply KeepsO.next
    | with_reducible apply Keeps.ite
    | intro _

theorem State.coreMpu_keeps {s0 : State} (s : State) (core : Nat) (w : Work) (h : Keeps s0 s) :
    Keeps s0 (State.coreMpu s core w) := by
  unfold State.coreMpu
  try dsimp only
  repeat' first
    | with_reducible assumption
    | with_reducible apply State.modMpu_keeps

theorem State.loadFail_keeps {s0 : State} (s : State) (core : Nat) (check : Nat) (st : Status) (h : Keeps s0 s) :
    Keeps s0 (State.loadFail s core check st) := by
  unfold State.loadFail
  repeat' first
    | with_reducible assumption
    | with_reducible apply State.clearCore_keeps
    | with_reducible apply State.refuse_keeps
    | split

theorem State.assignCore_keeps {s0 : State} (s : State) (h : Keeps s0 s) :
    Keeps s0 (State.assignCore s) := by
  unfold State.assignCore
  extract_lets before
  split
  · rename_i w c _ _
    extract_lets index t u v o p
    have ht : Keeps s0 t := State.readAllow_keeps _ _ _ h
    split
    · exact State.refuse_keeps _ _ _ _ ht
    · have hu : Keeps s0 u := State.setCore_keeps _ _ _ (State.coreMpu_keeps _ _ _ ht) fun _ => Core.reset_wf.keep rfl rfl rfl rfl rfl rfl rfl
      have hv : Keeps s0 v := State.modWork_keeps _ _ _ hu
      have ho : Keeps s0 o.1 := State.hostRead_keeps _ _ _ _ _ _ _ _ hv
      have hp : Keeps s0 p.1 := State.hostRead_keeps _ _ _ _ _ _ _ _ ho
      exact Keeps.ite h (Keeps.ite (State.loadFail_keeps _ _ _ _ ho)
        (Keeps.ite ho (Keeps.ite hp (State.loadFail_keeps _ _ _ _ hp))))
  · exact h

theorem execInvocationCoreAssign_keeps {s0 : State} (s : State) (h : Keeps s0 s) :
    KeepsO s0 (execInvocationCoreAssign s) := by
  unfold execInvocationCoreAssign
  repeat' first
    | with_reducible assumption
    | with_reducible apply State.assignCore_keeps
    | with_reducible apply KeepsO.next

theorem State.imageLoaded_keeps {s0 : State} (s : State) (core : Nat) (image : Bytes) (mailbox : Bytes) (h : Keeps s0
      s) :
    Keeps s0 (State.imageLoaded s core image mailbox) := by
  unfold State.imageLoaded
  try dsimp only
  repeat' first
    | with_reducible assumption
    | exact fun k => Core.loaded_wf (State.coreAt_wf k core) _ _ _ _
    | with_reducible apply State.loadFail_keeps
    | with_reducible apply State.setCore_keeps
    | with_reducible apply State.bnSubmit_keeps
    | with_reducible apply Keeps.ite
    | split
    | with_reducible refine Keeps.plain ?_

theorem execImageLoadComplete_keeps {s0 : State} (core : Nat) (image : Bytes) (mailbox : Bytes) (s : State) (h :
      Keeps s0 s) :
    KeepsO s0 (execImageLoadComplete core image mailbox s) := by
  unfold execImageLoadComplete
  repeat' first
    | with_reducible assumption
    | with_reducible apply State.imageLoaded_keeps
    | with_reducible apply KeepsO.next

theorem State.markCurrent_keeps {s0 : State} (s : State) (v : Invocation) (serial : Nat) (h : Keeps s0 s) :
    Keeps s0 (State.markCurrent s v serial) := by
  unfold State.markCurrent
  try dsimp only
  repeat' first
    | with_reducible assumption
    | with_reducible apply State.nvNow_keeps
    | with_reducible apply Keeps.ite
    | split

theorem State.imageVerified_keeps {s0 : State} (s : State) (core : Nat) (h : Keeps s0 s) :
    Keeps s0 (State.imageVerified s core) := by
  unfold State.imageVerified
  try dsimp only
  repeat' first
    | with_reducible assumption
    | with_reducible apply State.bnOutcome_keeps
    | with_reducible apply State.bnRetire_keeps
    | with_reducible apply State.modCore_keeps
    | with_reducible apply State.markCurrent_keeps
    | with_reducible apply State.loadFail_keeps
    | split
    | exact fun c hc => hc.keep rfl rfl rfl rfl rfl rfl rfl

theorem execImageSignatureVerified_keeps {s0 : State} (core : Nat) (s : State) (h : Keeps s0 s) :
    KeepsO s0 (execImageSignatureVerified core s) := by
  unfold execImageSignatureVerified
  repeat' first
    | with_reducible assumption
    | with_reducible apply State.imageVerified_keeps
    | with_reducible apply KeepsO.next

theorem State.trapEnd_keeps {s0 : State} (s : State) (core : Nat) (cause : TrapCause) (sub : Nat) (pc : Word) (insn :
      Word) (info : Word) (h : Keeps s0 s) :
    Keeps s0 (State.trapEnd s core cause sub pc insn info) := by
  unfold State.trapEnd
  try dsimp only
  repeat' first
    | with_reducible assumption
    | with_reducible apply State.finish_keeps
    | with_reducible apply State.clearCore_keeps
    | split
    | with_reducible refine Keeps.upd ?_

theorem State.dropInvocation_keeps {s0 : State} (s : State) (core : Nat) (v : Invocation) (h : Keeps s0 s) :
    Keeps s0 (State.dropInvocation s core v) := by
  unfold State.dropInvocation
  repeat' first
    | with_reducible assumption
    | with_reducible apply State.clearCore_keeps
    | with_reducible apply State.dropWrites_keeps
    | split

theorem State.budgetTrap_keeps {s0 : State} (s : State) (core : Nat) (h : Keeps s0 s) :
    Keeps s0 (State.budgetTrap s core) := by
  unfold State.budgetTrap
  try dsimp only
  repeat' first
    | with_reducible assumption
    | with_reducible apply State.trapEnd_keeps
    | with_reducible apply Keeps.ite
    | split

theorem execBudgetTrap_keeps {s0 : State} (core : Nat) (s : State) (h : Keeps s0 s) :
    KeepsO s0 (execBudgetTrap core s) := by
  unfold execBudgetTrap
  repeat' first
    | with_reducible assumption
    | with_reducible apply State.budgetTrap_keeps
    | with_reducible apply KeepsO.next

theorem State.deliverTrap_keeps {s0 : State} (s : State) (core : Nat) (h : Keeps s0 s) :
    Keeps s0 (State.deliverTrap s core) := by
  unfold State.deliverTrap
  repeat' first
    | with_reducible assumption
    | with_reducible apply State.trapEnd_keeps
    | split

end Sys2Proof.Machine
end

