-- ==== Sys2Proof/Laws/KeepsBooks.lean ====
section
/-! SUPPORT. The operations of Machine/Books.lean keep what `Keeps` says. -/

namespace Sys2Proof.Machine
open Sys2Proof

set_option Elab.async false

theorem State.plogBook_keeps {s0 : State} (s : State) (book : Nat) (err : Nat) (offset : Nat) (h : Keeps s0 s) :
    Keeps s0 (State.plogBook s book err offset) := by
  unfold State.plogBook
  repeat' first
    | with_reducible assumption
    | with_reducible apply State.plogReg_keeps

theorem State.bookCtl_keeps {s0 : State} (s : State) (cmd : Nat) (h : Keeps s0 s) :
    Keeps s0 (State.bookCtl s cmd) := by
  unfold State.bookCtl
  try dsimp only
  repeat' first
    | with_reducible assumption
    | with_reducible apply State.modBook_keeps
    | with_reducible apply State.plogBook_keeps
    | with_reducible apply Keeps.ite
    | split

theorem execCreate_keeps {s0 : State} (s : State) (h : Keeps s0 s) :
    KeepsO s0 (execCreate s) := by
  unfold execCreate
  repeat' first
    | with_reducible assumption
    | with_reducible apply State.onReg_keeps
    | with_reducible apply State.bookCtl_keeps
    | with_reducible apply KeepsO.next
    | intro _

theorem execDelete_keeps {s0 : State} (s : State) (h : Keeps s0 s) :
    KeepsO s0 (execDelete s) := by
  unfold execDelete
  repeat' first
    | with_reducible assumption
    | with_reducible apply State.onReg_keeps
    | with_reducible apply State.bookCtl_keeps
    | with_reducible apply KeepsO.next
    | intro _

theorem State.deriveBook_keeps {s0 : State} (s : State) (book : Nat) (r : Bytes) (h : Keeps s0 s) :
    Keeps s0 (State.deriveBook s book r) := by
  unfold State.deriveBook
  try dsimp only
  repeat' first
    | with_reducible assumption
    | with_reducible apply State.chargeSlot_keeps
    | with_reducible apply State.setBook_keeps
    | with_reducible apply Keeps.foldl
    | intro _

theorem State.bookRefused_keeps {s0 : State} (s : State) (book : Nat) (err : Nat) (h : Keeps s0 s) :
    Keeps s0 (State.bookRefused s book err) := by
  unfold State.bookRefused
  repeat' first
    | with_reducible assumption
    | with_reducible apply State.plogBook_keeps
    | with_reducible apply State.modBook_keeps

theorem State.nextIncarn_keeps {s0 : State} (s : State) (book : Nat) (h : Keeps s0 s) :
    Keeps s0 (State.nextIncarn s book) := by
  unfold State.nextIncarn
  try dsimp only
  repeat' first
    | with_reducible assumption
    | with_reducible apply State.nvPut_keeps
    | with_reducible apply State.modBook_keeps
    | with_reducible refine Keeps.upd ?_

theorem State.setupBook_keeps {s0 : State} (s : State) (book : Nat) (r : Bytes) (h : Keeps s0 s) :
    Keeps s0 (State.setupBook s book r) := by
  unfold State.setupBook
  try dsimp only
  repeat' first
    | with_reducible assumption
    | with_reducible apply State.bookState_keeps
    | with_reducible apply State.checkJournal_keeps
    | with_reducible apply State.deriveBook_keeps
    | with_reducible apply State.modBook_keeps

theorem execBookSetupDone_keeps {s0 : State} (book : Nat) (s : State) (h : Keeps s0 s) :
    KeepsO s0 (execBookSetupDone book s) := by
  unfold execBookSetupDone
  try dsimp only
  repeat' first
    | with_reducible refine KeepsO.next ?_
    | with_reducible apply KeepsO.ite
    | with_reducible assumption
    | with_reducible apply State.askRandom_keeps
    | with_reducible apply State.bookRefused_keeps
    | with_reducible apply State.dropRandom_keeps
    | with_reducible apply State.setupBook_keeps
    | with_reducible apply Keeps.ite
    | split

theorem State.endSeals_keeps {s0 : State} (s : State) (book : Nat) (h : Keeps s0 s) :
    Keeps s0 (State.endSeals s book) := by
  unfold State.endSeals
  repeat' first
    | with_reducible assumption
    | with_reducible apply State.eachWork_keeps
    | with_reducible apply State.refuse_keeps
    | intro _

theorem State.startDelete_keeps {s0 : State} (s : State) (book : Nat) (h : Keeps s0 s) :
    Keeps s0 (State.startDelete s book) := by
  unfold State.startDelete
  try dsimp only
  repeat' first
    | with_reducible assumption
    | with_reducible apply State.bookState_keeps
    | with_reducible apply State.dropLoads_keeps
    | with_reducible apply State.endBookWork_keeps
    | with_reducible apply State.endCheckpoints_keeps
    | with_reducible apply State.endSeals_keeps
    | with_reducible apply State.modBook_keeps
    | with_reducible apply State.releaseWithheld_keeps
    | with_reducible apply State.standInK_keeps
    | with_reducible apply Keeps.ite

theorem State.examineBook_keeps {s0 : State} (s : State) (book : Nat) (h : Keeps s0 s) :
    Keeps s0 (State.examineBook s book) := by
  unfold State.examineBook
  try dsimp only
  repeat' first
    | with_reducible assumption
    | with_reducible apply State.bookRefused_keeps
    | with_reducible apply State.modBook_keeps
    | with_reducible apply State.nextIncarn_keeps
    | with_reducible apply State.startDelete_keeps
    | with_reducible apply Keeps.ite
    | split

theorem execBookCommandExamine_keeps {s0 : State} (book : Nat) (s : State) (h : Keeps s0 s) :
    KeepsO s0 (execBookCommandExamine book s) := by
  unfold execBookCommandExamine
  repeat' first
    | with_reducible assumption
    | with_reducible apply State.examineBook_keeps
    | with_reducible apply KeepsO.next

theorem State.eraseBook_keeps {s0 : State} (s : State) (book : Nat) (h : Keeps s0 s) :
    Keeps s0 (State.eraseBook s book) := by
  unfold State.eraseBook
  try dsimp only
  repeat' first
    | with_reducible assumption
    | with_reducible apply State.dropPan_keeps
    | with_reducible apply State.modBook_keeps
    | with_reducible apply State.recordBook_keeps

theorem execDeleteComplete_keeps {s0 : State} (book : Nat) (s : State) (h : Keeps s0 s) :
    KeepsO s0 (execDeleteComplete book s) := by
  unfold execDeleteComplete
  try dsimp only
  repeat' first
    | with_reducible assumption
    | with_reducible apply State.eraseBook_keeps
    | with_reducible apply KeepsO.next
    | with_reducible apply Keeps.ite

end Sys2Proof.Machine
end

