-- ==== Sys2Proof/Laws/KeepsCheckpoint.lean ====
section
/-! SUPPORT. The operations of Machine/Checkpoint.lean keep what `Keeps` says. -/

namespace Sys2Proof.Machine
open Sys2Proof

set_option Elab.async false

theorem State.markCut_keeps {s0 : State} (s : State) (book : Nat) (h : Keeps s0 s) :
    Keeps s0 (State.markCut s book) := by
  unfold State.markCut
  try dsimp only
  repeat' first
    | with_reducible assumption
    | with_reducible refine Keeps.plain ?_

theorem State.takeCut_keeps {s0 : State} (s : State) (book : Nat) (j : WbJob) (h : Keeps s0 s) :
    Keeps s0 (State.takeCut s book j) := by
  unfold State.takeCut
  try dsimp only
  repeat' first
    | with_reducible assumption
    | with_reducible apply State.modBook_keeps
    | with_reducible apply State.markCut_keeps

theorem State.startCheckpoint_keeps {s0 : State} (s : State) (w : Work) (h : Keeps s0 s) :
    Keeps s0 (State.startCheckpoint s w) := by
  unfold State.startCheckpoint
  try dsimp only
  repeat' first
    | with_reducible assumption
    | with_reducible apply State.refuse_keeps
    | with_reducible apply State.modBook_keeps
    | with_reducible apply State.modWork_keeps
    | with_reducible apply State.markCut_keeps
    | with_reducible apply Keeps.ite

theorem execCheckpoint_keeps {s0 : State} (ring : Nat) (s : State) (h : Keeps s0 s) :
    KeepsO s0 (execCheckpoint ring s) := by
  unfold execCheckpoint
  repeat' first
    | with_reducible assumption
    | with_reducible apply State.onStart_keeps
    | with_reducible apply State.startCheckpoint_keeps
    | with_reducible apply KeepsO.next
    | intro _

theorem State.ckptGrain_keeps {s0 : State} (s : State) (h : Keeps s0 s) :
    Keeps s0 (State.ckptGrain s) := by
  unfold State.ckptGrain
  try dsimp only
  repeat' first
    | with_reducible assumption
    | with_reducible apply State.startCheckpoint_keeps
    | with_reducible apply Keeps.foldl

theorem State.ckptPhase1_keeps {s0 : State} (s : State) (book : Nat) (j : WbJob) (h : Keeps s0 s) :
    Keeps s0 (State.ckptPhase1 s book j) := by
  unfold State.ckptPhase1
  repeat' first
    | with_reducible assumption
    | with_reducible apply State.markCut_keeps
    | with_reducible apply State.modBook_keeps
    | with_reducible apply State.takeCut_keeps
    | with_reducible apply Keeps.ite

theorem State.ckptPhase2_keeps {s0 : State} (s : State) (book : Nat) (j : WbJob) (h : Keeps s0 s) :
    Keeps s0 (State.ckptPhase2 s book j) := by
  unfold State.ckptPhase2
  repeat' first
    | with_reducible assumption
    | with_reducible apply State.modBook_keeps
    | with_reducible apply Keeps.ite

theorem State.ckptStatement_keeps {s0 : State} (s : State) (book : Nat) (j : WbJob) (w : Work) (h : Keeps s0 s) :
    Keeps s0 (State.ckptStatement s book j w) := by
  unfold State.ckptStatement
  try dsimp only
  repeat' first
    | with_reducible assumption
    | with_reducible apply State.signBook_keeps
    | with_reducible apply State.hostWrite_keeps
    | with_reducible apply State.modBook_keeps
    | with_reducible apply State.finish_keeps

theorem State.ckptPhase3_keeps {s0 : State} (s : State) (book : Nat) (j : WbJob) (h : Keeps s0 s) :
    Keeps s0 (State.ckptPhase3 s book j) := by
  unfold State.ckptPhase3
  try dsimp only
  repeat' first
    | with_reducible assumption
    | with_reducible apply State.ckptStatement_keeps
    | with_reducible apply State.countDropped_keeps
    | with_reducible apply State.dropWork_keeps
    | with_reducible apply State.modBook_keeps
    | with_reducible apply Keeps.ite
    | split

theorem State.ckptStep_keeps {s0 : State} (s : State) (book : Nat) (h : Keeps s0 s) :
    Keeps s0 (State.ckptStep s book) := by
  unfold State.ckptStep
  repeat' first
    | with_reducible assumption
    | with_reducible apply State.ckptPhase1_keeps
    | with_reducible apply State.ckptPhase2_keeps
    | with_reducible apply State.ckptPhase3_keeps
    | split

theorem execCheckpointPhase2_keeps {s0 : State} (book : Nat) (s : State) (h : Keeps s0 s) :
    KeepsO s0 (execCheckpointPhase2 book s) := by
  unfold execCheckpointPhase2
  repeat' first
    | with_reducible assumption
    | with_reducible apply State.ckptStep_keeps
    | with_reducible apply KeepsO.next

theorem State.releaseHold_keeps {s0 : State} (s : State) (w : Work) (h : Keeps s0 s) :
    Keeps s0 (State.releaseHold s w) := by
  unfold State.releaseHold
  repeat' first
    | with_reducible assumption
    | with_reducible apply State.refuseOpen_keeps
    | with_reducible apply State.finishOpen_keeps
    | with_reducible apply State.modBook_keeps
    | with_reducible apply Keeps.ite

theorem execCheckpointRelease_keeps {s0 : State} (ring : Nat) (s : State) (h : Keeps s0 s) :
    KeepsO s0 (execCheckpointRelease ring s) := by
  unfold execCheckpointRelease
  repeat' first
    | with_reducible assumption
    | with_reducible apply State.onStart_keeps
    | with_reducible apply State.releaseHold_keeps
    | with_reducible apply KeepsO.next
    | intro _

theorem execCheckpointHoldExpiry_keeps {s0 : State} (book : Nat) (s : State) (h : Keeps s0 s) :
    KeepsO s0 (execCheckpointHoldExpiry book s) := by
  unfold execCheckpointHoldExpiry
  repeat' first
    | with_reducible assumption
    | with_reducible apply State.modBook_keeps
    | with_reducible apply KeepsO.next
    | with_reducible apply Keeps.ite
    | split

theorem State.endMove_keeps {s0 : State} (s : State) (book : Nat) (h : Keeps s0 s) :
    Keeps s0 (State.endMove s book) := by
  unfold State.endMove
  try dsimp only
  repeat' first
    | with_reducible assumption
    | with_reducible apply State.modBook_keeps
    | with_reducible refine Keeps.plain ?_

theorem State.openBook_keeps {s0 : State} (s : State) (book : Nat) (h : Keeps s0 s) :
    Keeps s0 (State.openBook s book) := by
  unfold State.openBook
  try dsimp only
  repeat' first
    | with_reducible assumption
    | with_reducible apply State.endMove_keeps
    | with_reducible apply State.checkJournal_keeps
    | with_reducible apply State.bookState_keeps
    | with_reducible apply State.modBook_keeps
    | with_reducible apply Keeps.ite

theorem State.recoveryEnd_keeps {s0 : State} (s : State) (w : Work) (st : Status) (h : Keeps s0 s) :
    Keeps s0 (State.recoveryEnd s w st) := by
  unfold State.recoveryEnd
  repeat' first
    | with_reducible assumption
    | with_reducible apply State.finish_keeps
    | with_reducible apply State.finishOpen_keeps
    | with_reducible apply Keeps.ite

theorem State.replayBroken_keeps {s0 : State} (s : State) (book : Nat) (detail : Nat) (h : Keeps s0 s) :
    Keeps s0 (State.replayBroken s book detail) := by
  unfold State.replayBroken
  repeat' first
    | with_reducible assumption
    | with_reducible apply State.fenceIntegrity_keeps
    | with_reducible apply State.level1_keeps

theorem State.reachTarget_keeps {s0 : State} (s : State) (w : Work) (h : Keeps s0 s) :
    Keeps s0 (State.reachTarget s w) := by
  unfold State.reachTarget
  try dsimp only
  repeat' first
    | with_reducible assumption
    | with_reducible apply State.replayBroken_keeps
    | with_reducible apply State.recoveryEnd_keeps
    | with_reducible apply State.modWork_keeps
    | with_reducible apply State.takeCut_keeps
    | with_reducible apply State.openBook_keeps
    | with_reducible apply Keeps.ite

theorem State.startRestore_keeps {s0 : State} (s : State) (w : Work) (h : Keeps s0 s) :
    Keeps s0 (State.startRestore s w) := by
  unfold State.startRestore
  try dsimp only
  repeat' first
    | with_reducible assumption
    | with_reducible apply State.refuse_keeps
    | with_reducible apply State.hostRead_keeps
    | with_reducible apply State.modWork_keeps
    | with_reducible apply Keeps.ite
    | split

theorem execCheckpointRestore_keeps {s0 : State} (ring : Nat) (s : State) (h : Keeps s0 s) :
    KeepsO s0 (execCheckpointRestore ring s) := by
  unfold execCheckpointRestore
  repeat' first
    | with_reducible assumption
    | with_reducible apply State.onStart_keeps
    | with_reducible apply State.startRestore_keeps
    | with_reducible apply KeepsO.next
    | intro _

theorem State.restoreTo_keeps {s0 : State} (s : State) (book : Nat) (d : Bytes) (h : Keeps s0 s) :
    Keeps s0 (State.restoreTo s book d) := by
  unfold State.restoreTo
  try dsimp only
  repeat' first
    | with_reducible assumption
    | with_reducible apply State.dropPan_keeps
    | with_reducible apply State.modBook_keeps
    | with_reducible apply State.bookState_keeps

theorem State.restoreRead_keeps {s0 : State} (s : State) (w : Work) (h : Keeps s0 s) :
    Keeps s0 (State.restoreRead s w) := by
  unfold State.restoreRead
  try dsimp only
  repeat' first
    | with_reducible assumption
    | with_reducible apply State.refuse_keeps
    | with_reducible apply State.restoreTo_keeps
    | with_reducible apply State.reachTarget_keeps
    | with_reducible apply State.finishOpen_keeps
    | with_reducible apply Keeps.ite
    | split

end Sys2Proof.Machine
end

