-- ==== Sys2Proof/Laws/KeepsContactless.lean ====
section
/-! SUPPORT. The operations of Machine/Contactless.lean keep what `Keeps` says. -/

namespace Sys2Proof.Machine
open Sys2Proof

set_option Elab.async false

theorem State.refuseCollect_keeps {s0 : State} (s : State) (w : Work) (check : Nat) (st : Status) (h : Keeps s0 s) :
    Keeps s0 (State.refuseCollect s w check st) := by
  unfold State.refuseCollect
  repeat' first
    | with_reducible assumption
    | with_reducible apply State.refuseWith_keeps

theorem State.startCollect_keeps {s0 : State} (s : State) (w : Work) (h : Keeps s0 s) :
    Keeps s0 (State.startCollect s w) := by
  unfold State.startCollect
  try dsimp only
  repeat' first
    | with_reducible assumption
    | with_reducible apply State.refuseCollect_keeps
    | with_reducible apply State.hostRead_keeps
    | with_reducible apply State.modWork_keeps
    | with_reducible apply Keeps.ite

theorem execClCollect_keeps {s0 : State} (ring : Nat) (s : State) (h : Keeps s0 s) :
    KeepsO s0 (execClCollect ring s) := by
  unfold execClCollect
  repeat' first
    | with_reducible assumption
    | with_reducible apply State.onStart_keeps
    | with_reducible apply State.startCollect_keeps
    | with_reducible apply KeepsO.next
    | intro _

theorem State.beginCollect_keeps {s0 : State} (s : State) (w : Work) (b : Bytes) (list : Bytes) (h : Keeps s0 s) :
    Keeps s0 (State.beginCollect s w b list) := by
  unfold State.beginCollect
  try dsimp only
  repeat' first
    | with_reducible assumption
    | with_reducible apply State.refuseCollect_keeps
    | with_reducible apply State.modWork_keeps
    | split
    | with_reducible refine Keeps.plain ?_

theorem State.collectRead_keeps {s0 : State} (s : State) (w : Work) (h : Keeps s0 s) :
    Keeps s0 (State.collectRead s w) := by
  unfold State.collectRead
  try dsimp only
  repeat' first
    | with_reducible assumption
    | with_reducible apply State.refuseCollect_keeps
    | with_reducible apply State.hostRead_keeps
    | with_reducible apply State.modWork_keeps
    | with_reducible apply State.beginCollect_keeps
    | with_reducible apply Keeps.ite

theorem State.rfOut_keeps {s0 : State} (s : State) (b : Bytes) (h : Keeps s0 s) :
    Keeps s0 (State.rfOut s b) := by
  unfold State.rfOut
  repeat' first
    | with_reducible assumption
    | with_reducible apply State.emit_keeps

theorem State.endCollect_keeps {s0 : State} (s : State) (c : Collect) (st : Status) (h : Keeps s0 s) :
    Keeps s0 (State.endCollect s c st) := by
  unfold State.endCollect
  try dsimp only
  repeat' first
    | with_reducible assumption
    | with_reducible apply State.rfOut_keeps
    | with_reducible apply State.finish_keeps
    | with_reducible apply Keeps.ite
    | with_reducible refine Keeps.plain ?_

theorem State.clAbort_keeps {s0 : State} (s : State) (w : Work) (h : Keeps s0 s) :
    Keeps s0 (State.clAbort s w) := by
  unfold State.clAbort
  repeat' first
    | with_reducible assumption
    | with_reducible apply State.refuseOpen_keeps
    | with_reducible apply State.finishOpen_keeps
    | with_reducible apply State.endCollect_keeps
    | with_reducible apply State.finish_keeps
    | with_reducible apply Keeps.ite
    | split

theorem execClAbort_keeps {s0 : State} (ring : Nat) (s : State) (h : Keeps s0 s) :
    KeepsO s0 (execClAbort ring s) := by
  unfold execClAbort
  repeat' first
    | with_reducible assumption
    | with_reducible apply State.onStart_keeps
    | with_reducible apply State.clAbort_keeps
    | with_reducible apply KeepsO.next
    | intro _

theorem execClCollectWaitExpiry_keeps {s0 : State} (s : State) (h : Keeps s0 s) :
    KeepsO s0 (execClCollectWaitExpiry s) := by
  unfold execClCollectWaitExpiry
  repeat' first
    | with_reducible assumption
    | with_reducible apply State.endCollect_keeps
    | with_reducible apply KeepsO.next
    | with_reducible apply Keeps.ite
    | split

theorem State.modCollect_keeps {s0 : State} (s : State) (f : Collect → Collect) (h : Keeps s0 s) :
    Keeps s0 (State.modCollect s f) := by
  unfold State.modCollect
  try dsimp only
  repeat' first
    | with_reducible assumption
    | with_reducible refine Keeps.plain ?_

theorem execExternalFieldCheck_keeps {s0 : State} (field : Nat) (s : State) (h : Keeps s0 s) :
    KeepsO s0 (execExternalFieldCheck field s) := by
  unfold execExternalFieldCheck
  try dsimp only
  repeat' first
    | with_reducible assumption
    | with_reducible apply State.modCollect_keeps
    | with_reducible apply KeepsO.next
    | with_reducible apply Keeps.ite
    | split
    | with_reducible refine Keeps.plain ?_

theorem State.sendReqa_keeps {s0 : State} (s : State) (n : Nat) (fresh : Bool) (h : Keeps s0 s) :
    Keeps s0 (State.sendReqa s n fresh) := by
  unfold State.sendReqa
  try dsimp only
  repeat' first
    | with_reducible assumption
    | with_reducible apply State.rfOut_keeps
    | with_reducible apply State.modCollect_keeps

theorem State.cardPing_keeps {s0 : State} (s : State) (amplitude : Nat) (h : Keeps s0 s) :
    Keeps s0 (State.cardPing s amplitude) := by
  unfold State.cardPing
  try dsimp only
  repeat' first
    | with_reducible assumption
    | with_reducible apply State.modCollect_keeps
    | with_reducible apply State.sendReqa_keeps
    | with_reducible apply Keeps.ite
    | split
    | with_reducible refine Keeps.plain ?_

theorem execCardPing_keeps {s0 : State} (amplitude : Nat) (s : State) (h : Keeps s0 s) :
    KeepsO s0 (execCardPing amplitude s) := by
  unfold execCardPing
  repeat' first
    | with_reducible assumption
    | with_reducible apply State.cardPing_keeps
    | with_reducible apply KeepsO.next

theorem State.modDialog_keeps {s0 : State} (s : State) (f : Dialog → Dialog) (h : Keeps s0 s) :
    Keeps s0 (State.modDialog s f) := by
  unfold State.modDialog
  repeat' first
    | with_reducible assumption
    | with_reducible apply State.modCollect_keeps

theorem State.sendCard_keeps {s0 : State} (s : State) (step : CardStep) (frame : Bytes) (h : Keeps s0 s) :
    Keeps s0 (State.sendCard s step frame) := by
  unfold State.sendCard
  repeat' first
    | with_reducible assumption
    | with_reducible apply State.rfOut_keeps
    | with_reducible apply State.modDialog_keeps

theorem State.toPing_keeps {s0 : State} (s : State) (h : Keeps s0 s) :
    Keeps s0 (State.toPing s) := by
  unfold State.toPing
  try dsimp only
  repeat' first
    | with_reducible assumption
    | with_reducible apply State.modCollect_keeps
    | with_reducible refine Keeps.plain ?_

theorem State.nextCard_keeps {s0 : State} (s : State) (h : Keeps s0 s) :
    Keeps s0 (State.nextCard s) := by
  unfold State.nextCard
  repeat' first
    | with_reducible assumption
    | with_reducible apply State.endCollect_keeps
    | with_reducible apply State.sendReqa_keeps
    | with_reducible apply State.rfOut_keeps
    | with_reducible apply Keeps.ite
    | split

theorem State.rejectCard_keeps {s0 : State} (s : State) (h : Keeps s0 s) :
    Keeps s0 (State.rejectCard s) := by
  unfold State.rejectCard
  repeat' first
    | with_reducible assumption
    | with_reducible apply State.nextCard_keeps
    | with_reducible apply State.modCollect_keeps

theorem State.resolve_keeps {s0 : State} (s : State) (level : Nat) (known : List Bool) (h : Keeps s0 s) :
    Keeps s0 (State.resolve s level known) := by
  unfold State.resolve
  repeat' first
    | with_reducible assumption
    | with_reducible apply State.sendCard_keeps
    | with_reducible apply State.modDialog_keeps

theorem State.frameError_keeps {s0 : State} (s : State) (mode : Nat) (h : Keeps s0 s) :
    Keeps s0 (State.frameError s mode) := by
  unfold State.frameError
  try dsimp only
  repeat' first
    | with_reducible assumption
    | with_reducible apply State.plogEvent_keeps
    | with_reducible refine Keeps.plain ?_

theorem State.badBlock_keeps {s0 : State} (s : State) (h : Keeps s0 s) :
    Keeps s0 (State.badBlock s) := by
  unfold State.badBlock
  try dsimp only
  repeat' first
    | with_reducible assumption
    | with_reducible apply State.frameError_keeps
    | with_reducible apply State.rfOut_keeps
    | with_reducible apply State.modDialog_keeps
    | with_reducible apply State.rejectCard_keeps
    | with_reducible apply Keeps.ite
    | split

theorem State.anticolAnswer_keeps {s0 : State} (s : State) (d : Dialog) (data : Bytes) (collision : Option Nat) (h :
      Keeps s0 s) :
    Keeps s0 (State.anticolAnswer s d data collision) := by
  unfold State.anticolAnswer
  try dsimp only
  repeat' first
    | with_reducible assumption
    | with_reducible apply State.modDialog_keeps
    | with_reducible apply State.resolve_keeps
    | with_reducible apply State.badBlock_keeps
    | with_reducible apply State.sendCard_keeps
    | with_reducible apply Keeps.ite
    | split

theorem State.sakAnswer_keeps {s0 : State} (s : State) (d : Dialog) (data : Bytes) (h : Keeps s0 s) :
    Keeps s0 (State.sakAnswer s d data) := by
  unfold State.sakAnswer
  try dsimp only
  repeat' first
    | with_reducible assumption
    | with_reducible apply State.badBlock_keeps
    | with_reducible apply State.resolve_keeps
    | with_reducible apply State.modCollect_keeps
    | with_reducible apply State.sendCard_keeps
    | with_reducible apply State.rejectCard_keeps
    | with_reducible apply Keeps.ite
    | with_reducible refine Keeps.plain ?_

theorem State.atsAnswer_keeps {s0 : State} (s : State) (data : Bytes) (h : Keeps s0 s) :
    Keeps s0 (State.atsAnswer s data) := by
  unfold State.atsAnswer
  try dsimp only
  repeat' first
    | with_reducible assumption
    | with_reducible apply State.badBlock_keeps
    | with_reducible apply State.sendCard_keeps
    | with_reducible apply Keeps.ite

theorem State.activation_keeps {s0 : State} (s : State) (data : Bytes) (collision : Option Nat) (h : Keeps s0 s) :
    Keeps s0 (State.activation s data collision) := by
  unfold State.activation
  repeat' first
    | with_reducible assumption
    | with_reducible apply State.resolve_keeps
    | with_reducible apply State.modDialog_keeps
    | with_reducible apply State.anticolAnswer_keeps
    | with_reducible apply State.sakAnswer_keeps
    | with_reducible apply State.atsAnswer_keeps
    | with_reducible apply State.sendCard_keeps
    | with_reducible apply State.badBlock_keeps
    | with_reducible apply State.rejectCard_keeps
    | with_reducible apply Keeps.ite
    | split

theorem execCardActivationAnswer_keeps {s0 : State} (data : Bytes) (collision : Option Nat) (s : State) (h : Keeps s0
      s) :
    KeepsO s0 (execCardActivationAnswer data collision s) := by
  unfold execCardActivationAnswer
  repeat' first
    | with_reducible assumption
    | with_reducible apply State.activation_keeps
    | with_reducible apply KeepsO.next

theorem State.cardTimeout_keeps {s0 : State} (s : State) (h : Keeps s0 s) :
    Keeps s0 (State.cardTimeout s) := by
  unfold State.cardTimeout
  try dsimp only
  repeat' first
    | with_reducible assumption
    | with_reducible apply State.sendReqa_keeps
    | with_reducible apply State.toPing_keeps
    | with_reducible apply State.badBlock_keeps
    | with_reducible apply Keeps.ite
    | split
    | with_reducible refine Keeps.plain ?_

theorem execCardFrameTimeout_keeps {s0 : State} (s : State) (h : Keeps s0 s) :
    KeepsO s0 (execCardFrameTimeout s) := by
  unfold execCardFrameTimeout
  repeat' first
    | with_reducible assumption
    | with_reducible apply State.cardTimeout_keeps
    | with_reducible apply KeepsO.next

theorem State.collectDone_keeps {s0 : State} (s : State) (c : Collect) (h : Keeps s0 s) :
    Keeps s0 (State.collectDone s c) := by
  unfold State.collectDone
  try dsimp only
  repeat' first
    | with_reducible assumption
    | with_reducible apply State.endCollect_keeps
    | with_reducible apply State.hostWrite_keeps
    | split

theorem State.collectGrain_keeps {s0 : State} (s : State) (h : Keeps s0 s) :
    Keeps s0 (State.collectGrain s) := by
  unfold State.collectGrain
  repeat' first
    | with_reducible assumption
    | with_reducible apply State.collectDone_keeps
    | with_reducible apply Keeps.ite
    | split

theorem State.cardAnswer_keeps {s0 : State} (s : State) (data : Bytes) (h : Keeps s0 s) :
    Keeps s0 (State.cardAnswer s data) := by
  unfold State.cardAnswer
  try dsimp only
  repeat' first
    | with_reducible assumption
    | with_reducible apply State.rejectCard_keeps
    | with_reducible apply State.collectDone_keeps
    | with_reducible apply State.nextCard_keeps
    | with_reducible apply Keeps.ite
    | split
    | with_reducible refine Keeps.plain ?_

theorem execCardAnswer_keeps {s0 : State} (data : Bytes) (s : State) (h : Keeps s0 s) :
    KeepsO s0 (execCardAnswer data s) := by
  unfold execCardAnswer
  repeat' first
    | with_reducible assumption
    | with_reducible apply State.cardAnswer_keeps
    | with_reducible apply KeepsO.next

end Sys2Proof.Machine
end

