-- ==== Sys2Proof/Laws/KeepsCryptoOps.lean ====
section
/-! SUPPORT. The operations of Machine/CryptoOps.lean keep what `Keeps` says. -/

namespace Sys2Proof.Machine
open Sys2Proof

set_option Elab.async false

theorem State.modStream_keeps {s0 : State} (s : State) (work : Nat) (f : Stream → Stream) (h : Keeps s0 s) :
    Keeps s0 (State.modStream s work f) := by
  unfold State.modStream
  try dsimp only
  repeat' first
    | with_reducible assumption
    | with_reducible refine Keeps.plain ?_

theorem State.streamOut_keeps {s0 : State} (s : State) (w : Work) (st : Status) (res : Bytes) (open_ : Bool) (h :
      Keeps s0 s) :
    Keeps s0 (State.streamOut s w st res open_) := by
  unfold State.streamOut
  try dsimp only
  repeat' first
    | with_reducible assumption
    | with_reducible apply State.releaseUnits_keeps
    | with_reducible apply State.finishOpen_keeps
    | with_reducible apply State.finish_keeps
    | with_reducible apply Keeps.ite

theorem State.streamAccess_keeps {s0 : State} (s : State) (w : Work) (h : Keeps s0 s) :
    Keeps s0 (State.streamAccess s w) := by
  unfold State.streamAccess
  repeat' first
    | with_reducible assumption
    | with_reducible apply State.streamOut_keeps
    | with_reducible apply State.plogWork_keeps

theorem State.streamWrite_keeps {s0 : State} (s : State) (w : Work) (addr : Nat) (data : Bytes) (h : Keeps s0 s) :
    Keeps s0 (State.streamWrite s w addr data).1 := by
  unfold State.streamWrite
  split
  · dsimp only
    refine State.modCore_keeps _ _ _ h ?_
    exact fun c hc => hc.keep rfl rfl rfl rfl rfl rfl rfl
  · exact State.hostWrite_keeps _ _ _ _ _ _ _ h

theorem State.streamNext_keeps {s0 : State} (s : State) (w : Work) (x : Stream) (h : Keeps s0 s) :
    Keeps s0 (State.streamNext s w x) := by
  unfold State.streamNext
  try dsimp only
  repeat' first
    | with_reducible assumption
    | with_reducible apply State.modWork_keeps
    | with_reducible apply State.hostRead_keeps
    | with_reducible apply State.streamAccess_keeps
    | with_reducible apply Keeps.ite

theorem State.streamBegin_keeps {s0 : State} (s : State) (w : Work) (x : Stream) (h : Keeps s0 s) :
    Keeps s0 (State.streamBegin s w x) := by
  unfold State.streamBegin
  try dsimp only
  repeat' first
    | with_reducible assumption
    | with_reducible apply State.hostRead_keeps
    | with_reducible apply State.modWork_keeps
    | with_reducible apply State.streamAccess_keeps
    | with_reducible apply State.streamNext_keeps
    | with_reducible apply Keeps.ite
    | split

theorem State.bindStream_keeps {s0 : State} (s : State) (digest : Bool) (h : Keeps s0 s) :
    Keeps s0 (State.bindStream s digest) := by
  unfold State.bindStream
  try dsimp only
  repeat' first
    | with_reducible assumption
    | with_reducible apply State.modStream_keeps
    | with_reducible apply State.servedSlice_keeps
    | with_reducible apply State.streamBegin_keeps
    | split

theorem State.bindStreams_keeps {s0 : State} (s : State) (h : Keeps s0 s) :
    Keeps s0 (State.bindStreams s) := by
  unfold State.bindStreams
  try dsimp only
  repeat' first
    | with_reducible assumption
    | with_reducible apply State.bindStream_keeps
    | with_reducible apply Keeps.foldl
    | intro _

theorem State.startStream_keeps {s0 : State} (s : State) (w : Work) (digest : Bool) (key : Bytes) (h : Keeps s0 s) :
    Keeps s0 (State.startStream s w digest key) := by
  unfold State.startStream
  try dsimp only
  repeat' first
    | with_reducible assumption
    | with_reducible apply State.modWork_keeps
    | with_reducible apply State.bindStream_keeps
    | with_reducible refine Keeps.plain ?_

theorem State.cipherKeys_keeps {s0 : State} (s : State) (w : Work) (h : Keeps s0 s) :
    Keeps s0 (State.cipherKeys s w).1 := by
  unfold State.cipherKeys
  try dsimp only
  repeat' first
    | with_reducible assumption
    | with_reducible apply State.chargeKey_keeps
    | split

theorem State.cipherBody_keeps {s0 : State} (s : State) (w : Work) (h : Keeps s0 s) :
    Keeps s0 (State.cipherBody s w) := by
  unfold State.cipherBody
  try dsimp only
  repeat' first
    | with_reducible assumption
    | with_reducible apply State.refuseOpen_keeps
    | with_reducible apply State.cipherKeys_keeps
    | with_reducible apply State.startStream_keeps
    | with_reducible apply Keeps.ite
    | split

theorem execCipher_keeps {s0 : State} (ring : Nat) (s : State) (h : Keeps s0 s) :
    KeepsO s0 (execCipher ring s) := by
  unfold execCipher
  repeat' first
    | with_reducible assumption
    | with_reducible apply State.onStart_keeps
    | with_reducible apply State.cipherBody_keeps
    | with_reducible apply KeepsO.next
    | intro _

theorem State.cipherEnd_keeps {s0 : State} (s : State) (w : Work) (h : Keeps s0 s) :
    Keeps s0 (State.cipherEnd s w) := by
  unfold State.cipherEnd
  try dsimp only
  repeat' first
    | with_reducible assumption
    | with_reducible apply State.streamOut_keeps
    | with_reducible apply State.hostWrite_keeps
    | with_reducible apply State.streamAccess_keeps
    | with_reducible apply Keeps.ite

theorem State.cipherWrite_keeps {s0 : State} (s : State) (w : Work) (a : Nat) (b : Nat) (h : Keeps s0 s) :
    Keeps s0 (State.cipherWrite s w a b).1 := by
  unfold State.cipherWrite
  try dsimp only
  repeat' first
    | with_reducible assumption
    | with_reducible apply State.hostWrite_keeps
    | split

theorem State.macBody_keeps {s0 : State} (s : State) (w : Work) (h : Keeps s0 s) :
    Keeps s0 (State.macBody s w) := by
  unfold State.macBody
  try dsimp only
  repeat' first
    | with_reducible assumption
    | with_reducible apply State.refuseOpen_keeps
    | with_reducible apply State.chargeKey_keeps
    | with_reducible apply State.startStream_keeps
    | with_reducible apply Keeps.ite
    | split

theorem execMac_keeps {s0 : State} (ring : Nat) (s : State) (h : Keeps s0 s) :
    KeepsO s0 (execMac ring s) := by
  unfold execMac
  repeat' first
    | with_reducible assumption
    | with_reducible apply State.onStart_keeps
    | with_reducible apply State.macBody_keeps
    | with_reducible apply KeepsO.next
    | intro _

theorem State.macEnd_keeps {s0 : State} (s : State) (w : Work) (h : Keeps s0 s) :
    Keeps s0 (State.macEnd s w) := by
  unfold State.macEnd
  try dsimp only
  repeat' first
    | with_reducible assumption
    | with_reducible apply State.streamAccess_keeps
    | with_reducible apply State.streamOut_keeps
    | with_reducible apply State.streamWrite_keeps
    | with_reducible apply Keeps.ite

theorem State.digestBody_keeps {s0 : State} (s : State) (w : Work) (h : Keeps s0 s) :
    Keeps s0 (State.digestBody s w) := by
  unfold State.digestBody
  try dsimp only
  repeat' first
    | with_reducible assumption
    | with_reducible apply State.refuseOpen_keeps
    | with_reducible apply State.startStream_keeps
    | with_reducible apply Keeps.ite

theorem execDigest_keeps {s0 : State} (ring : Nat) (s : State) (h : Keeps s0 s) :
    KeepsO s0 (execDigest ring s) := by
  unfold execDigest
  repeat' first
    | with_reducible assumption
    | with_reducible apply State.onStart_keeps
    | with_reducible apply State.digestBody_keeps
    | with_reducible apply KeepsO.next
    | intro _

theorem execDigestUpdate_keeps {s0 : State} (ring : Nat) (s : State) (h : Keeps s0 s) :
    KeepsO s0 (execDigestUpdate ring s) := by
  unfold execDigestUpdate
  repeat' first
    | with_reducible assumption
    | with_reducible apply State.onStart_keeps
    | with_reducible apply State.digestBody_keeps
    | with_reducible apply KeepsO.next
    | intro _

theorem execDigestFinish_keeps {s0 : State} (ring : Nat) (s : State) (h : Keeps s0 s) :
    KeepsO s0 (execDigestFinish ring s) := by
  unfold execDigestFinish
  repeat' first
    | with_reducible assumption
    | with_reducible apply State.onStart_keeps
    | with_reducible apply State.digestBody_keeps
    | with_reducible apply KeepsO.next
    | intro _

theorem State.digestEnd_keeps {s0 : State} (s : State) (w : Work) (h : Keeps s0 s) :
    Keeps s0 (State.digestEnd s w) := by
  unfold State.digestEnd
  try dsimp only
  repeat' first
    | with_reducible assumption
    | (refine Keeps.fst ?_ (by assumption))
    | with_reducible apply State.streamAccess_keeps
    | with_reducible apply State.streamOut_keeps
    | with_reducible apply State.streamWrite_keeps
    | with_reducible apply Keeps.ite
    | split

theorem State.streamEnd_keeps {s0 : State} (s : State) (w : Work) (h : Keeps s0 s) :
    Keeps s0 (State.streamEnd s w) := by
  unfold State.streamEnd
  repeat' first
    | with_reducible assumption
    | with_reducible apply State.cipherEnd_keeps
    | with_reducible apply State.macEnd_keeps
    | with_reducible apply State.digestEnd_keeps
    | split

theorem State.streamStep_keeps {s0 : State} (s : State) (x : Stream) (w : Work) (h : Keeps s0 s) :
    Keeps s0 (State.streamStep s x w) := by
  unfold State.streamStep
  extract_lets p r t
  have hr : Keeps s0 r.1 := by
    show Keeps s0 (if _ then _ else _ : State × Bool).1
    split
    · exact State.cipherWrite_keeps _ _ _ _ h
    · exact h
  have ht : Keeps s0 t := State.modStream_keeps _ _ _ hr
  exact Keeps.ite (State.streamAccess_keeps _ _ hr) (Keeps.ite (State.streamEnd_keeps _ _ ht) (State.streamNext_keeps _ _ _ ht))

theorem State.unitGrain_keeps {s0 : State} (s : State) (digest : Bool) (unit : Nat) (h : Keeps s0 s) :
    Keeps s0 (State.unitGrain s digest unit) := by
  unfold State.unitGrain
  try dsimp only
  repeat' first
    | with_reducible assumption
    | (refine Keeps.fst ?_ (by assumption))
    | with_reducible apply State.servedSlice_keeps
    | with_reducible apply State.streamStep_keeps
    | with_reducible apply Keeps.ite
    | split

theorem State.streamGrain_keeps {s0 : State} (s : State) (h : Keeps s0 s) :
    Keeps s0 (State.streamGrain s) := by
  unfold State.streamGrain
  try dsimp only
  repeat' first
    | with_reducible assumption
    | with_reducible apply State.unitGrain_keeps
    | with_reducible apply State.bindStreams_keeps
    | with_reducible apply Keeps.foldl
    | intro _

theorem State.streamRead_keeps {s0 : State} (s : State) (w : Work) (data : Bytes) (h : Keeps s0 s) :
    Keeps s0 (State.streamRead s w data) := by
  unfold State.streamRead
  try dsimp only
  repeat' first
    | with_reducible assumption
    | with_reducible apply State.streamOut_keeps
    | with_reducible apply State.plogWork_keeps
    | with_reducible apply State.streamNext_keeps
    | with_reducible apply State.modWork_keeps
    | with_reducible apply Keeps.ite
    | split

end Sys2Proof.Machine
end

