-- ==== Sys2Proof/Laws/KeepsCustody.lean ====
section
/-! SUPPORT. The operations of Machine/Custody.lean keep what `Keeps` says. -/

namespace Sys2Proof.Machine
open Sys2Proof

set_option Elab.async false

theorem State.consumeChallenge_keeps {s0 : State} (s : State) (slot : Nat) (h : Keeps s0 s) :
    Keeps s0 (State.consumeChallenge s slot) := by
  unfold State.consumeChallenge
  try dsimp only
  repeat' first
    | with_reducible assumption
    | with_reducible refine Keeps.upd ?_

end Sys2Proof.Machine
end

