-- ==== Sys2Proof/Laws/KeepsDoorbells.lean ====
section
/-! SUPPORT. The operations of Machine/Doorbells.lean keep what `Keeps` says. -/

namespace Sys2Proof.Machine
open Sys2Proof

set_option Elab.async false

theorem State.dbIgnored_keeps {s0 : State} (s : State) (ring : Nat) (off : Nat) (f : DbFlag) (h : Keeps s0 s) :
    Keeps s0 (State.dbIgnored s ring off f) := by
  unfold State.dbIgnored
  try dsimp only
  repeat' first
    | with_reducible assumption
    | with_reducible apply State.modSq_keeps
    | with_reducible apply State.plogEvent_keeps

theorem State.submit_keeps {s0 : State} (s : State) (ring : Nat) (value : Nat) (h : Keeps s0 s) :
    Keeps s0 (State.submit s ring value) := by
  unfold State.submit
  try dsimp only
  repeat' first
    | with_reducible assumption
    | with_reducible apply State.dbIgnored_keeps
    | with_reducible apply State.modSq_keeps
    | with_reducible apply Keeps.ite

theorem State.plogJournalDb_keeps {s0 : State} (s : State) (slice : Nat) (lseq : Nat) (h : Keeps s0 s) :
    Keeps s0 (State.plogJournalDb s slice lseq) := by
  unfold State.plogJournalDb
  repeat' first
    | with_reducible assumption
    | with_reducible apply State.plogEvent_keeps

theorem State.persistedDb_keeps {s0 : State} (s : State) (slice : Nat) (lseq : Nat) (h : Keeps s0 s) :
    Keeps s0 (State.persistedDb s slice lseq) := by
  unfold State.persistedDb
  try dsimp only
  repeat' first
    | with_reducible assumption
    | with_reducible apply State.plogJournalDb_keeps
    | with_reducible apply State.setBook_keeps
    | with_reducible apply Keeps.ite

theorem State.drainedDb_keeps {s0 : State} (s : State) (slice : Nat) (lseq : Nat) (h : Keeps s0 s) :
    Keeps s0 (State.drainedDb s slice lseq) := by
  unfold State.drainedDb
  try dsimp only
  repeat' first
    | with_reducible assumption
    | with_reducible apply State.plogJournalDb_keeps
    | with_reducible apply State.setBook_keeps
    | with_reducible apply Keeps.ite

theorem State.doorbell_keeps {s0 : State} (s : State) (ring : Nat) (off : Nat) (size : Nat) (value : Nat) (h : Keeps
      s0 s) :
    Keeps s0 (State.doorbell s ring off size value) := by
  unfold State.doorbell
  try dsimp only
  repeat' first
    | with_reducible assumption
    | with_reducible apply State.dbIgnored_keeps
    | with_reducible apply State.submit_keeps
    | with_reducible apply State.persistedDb_keeps
    | with_reducible apply State.drainedDb_keeps
    | with_reducible apply Keeps.ite

theorem State.onDoorbell_keeps {s0 : State} (s : State) (offset : Nat) (f : State → State) (h : Keeps s0 s) (hf : ∀
      y0, Keeps s0 y0 → Keeps s0 (f y0)) :
    Keeps s0 (State.onDoorbell s offset f) := by
  unfold State.onDoorbell
  repeat' first
    | with_reducible assumption
    | with_reducible apply hf
    | with_reducible apply State.barRefused_keeps
    | with_reducible apply Keeps.ite

theorem execSubmissionDoorbell_keeps {s0 : State} (ring : Nat) (value : Nat) (s : State) (h : Keeps s0 s) :
    KeepsO s0 (execSubmissionDoorbell ring value s) := by
  unfold execSubmissionDoorbell
  repeat' first
    | with_reducible assumption
    | with_reducible apply State.onDoorbell_keeps
    | with_reducible apply State.doorbell_keeps
    | with_reducible apply KeepsO.next
    | intro _

theorem execJournalPersistedDoorbell_keeps {s0 : State} (ring : Nat) (lseq : Nat) (s : State) (h : Keeps s0 s) :
    KeepsO s0 (execJournalPersistedDoorbell ring lseq s) := by
  unfold execJournalPersistedDoorbell
  repeat' first
    | with_reducible assumption
    | with_reducible apply State.onDoorbell_keeps
    | with_reducible apply State.doorbell_keeps
    | with_reducible apply KeepsO.next
    | intro _

theorem execJournalDrainedDoorbell_keeps {s0 : State} (ring : Nat) (lseq : Nat) (s : State) (h : Keeps s0 s) :
    KeepsO s0 (execJournalDrainedDoorbell ring lseq s) := by
  unfold execJournalDrainedDoorbell
  repeat' first
    | with_reducible assumption
    | with_reducible apply State.onDoorbell_keeps
    | with_reducible apply State.doorbell_keeps
    | with_reducible apply KeepsO.next
    | intro _

theorem State.doorbellTlp_keeps {s0 : State} (s : State) (fuel off : Nat) (data : Bytes) (h : Keeps s0 s) :
    Keeps s0 (State.doorbellTlp s fuel off data) := by
  induction fuel generalizing s off data with
  | zero => exact h
  | succ n ih =>
    unfold State.doorbellTlp
    split
    · exact h
    · exact ih _ _ _ (State.doorbell_keeps _ _ _ _ _ h)

theorem execDoorbellWriteCombined_keeps {s0 : State} (offset : Nat) (data : Bytes) (s : State) (h : Keeps s0 s) :
    KeepsO s0 (execDoorbellWriteCombined offset data s) := by
  unfold execDoorbellWriteCombined
  repeat' first
    | with_reducible assumption
    | with_reducible apply State.onDoorbell_keeps
    | with_reducible apply State.doorbell_keeps
    | with_reducible apply State.doorbellTlp_keeps
    | with_reducible apply KeepsO.next
    | with_reducible apply Keeps.ite
    | intro _

end Sys2Proof.Machine
end

