-- ==== Sys2Proof/Laws/KeepsEnvelopes.lean ====
section
/-! SUPPORT. The operations of Machine/Envelopes.lean keep what `Keeps` says. -/

namespace Sys2Proof.Machine
open Sys2Proof

set_option Elab.async false

theorem State.envAccepted_keeps {s0 : State} (s : State) (d authz : Bytes) (h : Keeps s0 s) :
    Keeps s0 (State.envAccepted s d authz) := by
  unfold State.envAccepted
  try dsimp only
  repeat' first
    | with_reducible assumption
    | with_reducible apply State.chargeSlot_keeps
    | with_reducible apply State.consumeChallenge_keeps
    | with_reducible apply Keeps.ite
    | split

theorem State.envCommit_keeps {s0 : State} (s : State) (w : Work) (d authz r : Bytes) (h : Keeps s0 s) :
    Keeps s0 (State.envCommit s w d authz r) := by
  unfold State.envCommit
  try dsimp only
  repeat' first
    | with_reducible assumption
    | with_reducible apply State.envAccepted_keeps
    | with_reducible apply State.modWork_keeps
    | with_reducible apply State.nvSend_keeps
    | intro _

theorem State.startEnvelope_keeps {s0 : State} (s : State) (w : Work) (h : Keeps s0 s) :
    Keeps s0 (State.startEnvelope s w) := by
  unfold State.startEnvelope
  try dsimp only
  repeat' first
    | with_reducible assumption
    | with_reducible apply State.refuse_keeps
    | with_reducible apply State.hostRead_keeps
    | with_reducible apply State.modWork_keeps
    | with_reducible apply Keeps.ite

theorem State.envelopeRead_keeps {s0 : State} (s : State) (w : Work) (h : Keeps s0 s) :
    Keeps s0 (State.envelopeRead s w) := by
  unfold State.envelopeRead
  try dsimp only
  repeat' first
    | with_reducible assumption
    | with_reducible apply State.hostRead_keeps
    | with_reducible apply State.modWork_keeps
    | with_reducible apply State.refuse_keeps
    | with_reducible apply Keeps.ite

theorem State.runEnvelope_keeps {s0 : State} (s : State) (w : Work) (accept : State → Bytes → Bytes → Bytes →
      State) (h : Keeps s0 s) (hf : ∀ y0 y1 y2 y3, Keeps s0 y0 → Keeps s0 (accept y0 y1 y2 y3)) :
    Keeps s0 (State.runEnvelope s w accept) := by
  unfold State.runEnvelope
  try dsimp only
  repeat' first
    | with_reducible assumption
    | (refine Keeps.fst ?_ (by assumption))
    | with_reducible apply State.askRandom_keeps
    | with_reducible apply State.dropRandom_keeps
    | with_reducible apply State.refuse_keeps
    | with_reducible apply hf
    | with_reducible apply Keeps.ite
    | split

theorem State.envelopeRow_keeps {s0 : State} (s : State) (ring op : Nat) (accept : Work → State → Bytes → Bytes
      → Bytes → State) (h : Keeps s0 s) (hf : ∀ y0 y1 y2 y3 y4, Keeps s0 y1 → Keeps s0 (accept y0 y1 y2 y3 y4))
      :
    Keeps s0 (State.envelopeRow s ring op accept) := by
  unfold State.envelopeRow
  try dsimp only
  repeat' first
    | with_reducible assumption
    | with_reducible apply State.onStart_keeps
    | with_reducible apply State.runEnvelope_keeps
    | with_reducible apply State.startEnvelope_keeps
    | with_reducible apply hf
    | with_reducible apply Keeps.ite
    | split
    | intro _

theorem execSlotWrite_keeps {s0 : State} (ring : Nat) (s : State) (h : Keeps s0 s) :
    KeepsO s0 (execSlotWrite ring s) := by
  unfold execSlotWrite
  try dsimp only
  repeat' first
    | with_reducible refine KeepsO.next ?_
    | with_reducible apply KeepsO.ite
    | with_reducible assumption
    | with_reducible apply State.envCommit_keeps
    | with_reducible apply State.envelopeRow_keeps
    | intro _

theorem execSlotErase_keeps {s0 : State} (ring : Nat) (s : State) (h : Keeps s0 s) :
    KeepsO s0 (execSlotErase ring s) := by
  unfold execSlotErase
  try dsimp only
  repeat' first
    | with_reducible refine KeepsO.next ?_
    | with_reducible apply KeepsO.ite
    | with_reducible assumption
    | with_reducible apply State.envCommit_keeps
    | with_reducible apply State.envelopeRow_keeps
    | intro _

theorem execAuthWrite_keeps {s0 : State} (ring : Nat) (s : State) (h : Keeps s0 s) :
    KeepsO s0 (execAuthWrite ring s) := by
  unfold execAuthWrite
  try dsimp only
  repeat' first
    | with_reducible refine KeepsO.next ?_
    | with_reducible apply KeepsO.ite
    | with_reducible assumption
    | with_reducible apply State.envCommit_keeps
    | with_reducible apply State.envelopeRow_keeps
    | intro _

theorem execAuthErase_keeps {s0 : State} (ring : Nat) (s : State) (h : Keeps s0 s) :
    KeepsO s0 (execAuthErase ring s) := by
  unfold execAuthErase
  try dsimp only
  repeat' first
    | with_reducible refine KeepsO.next ?_
    | with_reducible apply KeepsO.ite
    | with_reducible assumption
    | with_reducible apply State.envCommit_keeps
    | with_reducible apply State.envelopeRow_keeps
    | intro _

theorem State.provisionStart_keeps {s0 : State} (s : State) (w : Work) (h : Keeps s0 s) :
    Keeps s0 (State.provisionStart s w) := by
  unfold State.provisionStart
  try dsimp only
  repeat' first
    | with_reducible assumption
    | with_reducible apply State.nvPut_keeps
    | with_reducible apply State.destroyKeys_keeps
    | with_reducible apply State.endForChange_keeps
    | with_reducible apply State.modWork_keeps

theorem execProvision_keeps {s0 : State} (ring : Nat) (s : State) (h : Keeps s0 s) :
    KeepsO s0 (execProvision ring s) := by
  unfold execProvision
  try dsimp only
  repeat' first
    | with_reducible refine KeepsO.next ?_
    | with_reducible apply KeepsO.ite
    | with_reducible assumption
    | with_reducible apply State.envelopeRow_keeps
    | with_reducible apply State.provisionStart_keeps
    | intro _

theorem State.installStaged_keeps {s0 : State} (s : State) (serial : Nat) (e : StageEntry) (h : Keeps s0 s) :
    Keeps s0 (State.installStaged s serial e) := by
  unfold State.installStaged
  repeat' first
    | with_reducible assumption
    | with_reducible apply State.nvPut_keeps
    | with_reducible apply State.setAuth_keeps

theorem State.toSealed_keeps {s0 : State} (s : State) (h : Keeps s0 s) : Keeps s0 (State.toSealed s) := by
  unfold State.toSealed
  split
  · next hi =>
    have hi : s.tamper.state = .issued := by simpa using hi
    exact h.upd (h4 := ⟨fun k => LcState.noConfusion (hi.symm.trans k), fun k => LcState.noConfusion k⟩)
  · exact h

theorem State.provisionCommit_keeps {s0 : State} (s : State) (w : Work) (h : Keeps s0 s) :
    Keeps s0 (State.provisionCommit s w) := by
  unfold State.provisionCommit
  try dsimp only
  repeat' first
    | with_reducible assumption
    | with_reducible apply State.finish_keeps
    | with_reducible apply State.installStaged_keeps
    | with_reducible apply State.nvNow_keeps
    | with_reducible apply State.recordLife_keeps
    | with_reducible apply State.refuse_keeps
    | with_reducible apply State.rngLifeCycle_keeps
    | with_reducible apply State.toSealed_keeps
    | with_reducible apply Keeps.foldl
    | with_reducible apply Keeps.ite
    | split
    | intro _

end Sys2Proof.Machine
end

