-- ==== Sys2Proof/Laws/KeepsRebuild.lean ====
section
/-! SUPPORT. The operations of Machine/Rebuild.lean keep what `Keeps` says. -/

namespace Sys2Proof.Machine
open Sys2Proof

set_option Elab.async false

theorem State.modRebuild_keeps {s0 : State} (s : State) (book : Nat) (block : Nat) (f : Rebuild → Rebuild) (h : Keeps
      s0 s) :
    Keeps s0 (State.modRebuild s book block f) := by
  unfold State.modRebuild
  try dsimp only
  repeat' first
    | with_reducible assumption
    | with_reducible refine Keeps.plain ?_

theorem State.loseBlock_keeps {s0 : State} (s : State) (book : Nat) (block : Nat) (metaBad : Bool) (h : Keeps s0 s) :
    Keeps s0 (State.loseBlock s book block metaBad) := by
  unfold State.loseBlock
  try dsimp only
  repeat' first
    | with_reducible assumption
    | with_reducible apply State.modBlock_keeps
    | with_reducible apply State.reexecute_keeps
    | with_reducible apply State.rebuildFailed_keeps
    | with_reducible apply Keeps.ite
    | split
    | with_reducible refine Keeps.upd ?_

theorem State.rebuildDone_keeps {s0 : State} (s : State) (r : Rebuild) (h : Keeps s0 s) :
    Keeps s0 (State.rebuildDone s r) := by
  unfold State.rebuildDone
  repeat' first
    | with_reducible assumption
    | with_reducible apply State.modBlock_keeps
    | with_reducible apply State.dropRebuild_keeps

theorem State.rebuildNext_keeps {s0 : State} (s : State) (book block n : Nat) (h : Keeps s0 s) :
    Keeps s0 (State.rebuildNext s book block n) := by
  induction n generalizing s with
  | zero => exact h
  | succ n ih =>
    unfold State.rebuildNext
    split
    · exact h
    · next r _ =>
      extract_lets b dirty
      have ho : ∀ a n, Keeps s0 (s.hostRead (.rebuild book block) (masterSaltern book) book .saltern a n false).1 :=
        fun _ _ => State.hostRead_keeps _ _ _ _ _ _ _ _ h
      refine Keeps.ite (State.rebuildFailed_keeps _ _ h) (Keeps.ite (State.rebuildDone_keeps _ _ h) ?_)
      split
      · split
        · exact State.rebuildFailed_keeps _ _ h
        · exact ih _ (State.modRebuild_keeps _ _ _ _ h)
      · exact Keeps.ite h (Keeps.ite (ho _ _) (State.rebuildFailed_keeps _ _ (ho _ _)))

theorem State.rebuildRun_keeps {s0 : State} (s : State) (book : Nat) (block : Nat) (h : Keeps s0 s) :
    Keeps s0 (State.rebuildRun s book block) := by
  unfold State.rebuildRun
  repeat' first
    | with_reducible assumption
    | with_reducible apply State.rebuildNext_keeps

theorem State.panRebuild_keeps {s0 : State} (s : State) (book : Nat) (block : Nat) (h : Keeps s0 s) :
    Keeps s0 (State.panRebuild s book block) := by
  unfold State.panRebuild
  try dsimp only
  repeat' first
    | with_reducible assumption
    | with_reducible apply State.rebuildRun_keeps
    | with_reducible apply State.modRebuild_keeps
    | with_reducible apply State.startLoad_keeps
    | with_reducible apply State.rebuildFailed_keeps
    | with_reducible apply Keeps.ite
    | split

theorem execPanRebuild_keeps {s0 : State} (book : Nat) (block : Nat) (s : State) (h : Keeps s0 s) :
    KeepsO s0 (execPanRebuild book block s) := by
  unfold execPanRebuild
  repeat' first
    | with_reducible assumption
    | with_reducible apply State.panRebuild_keeps
    | with_reducible apply KeepsO.next

theorem State.rebuildFrame_keeps {s0 : State} (s : State) (r : Rebuild) (d : Bytes) (h : Keeps s0 s) :
    Keeps s0 (State.rebuildFrame s r d) := by
  unfold State.rebuildFrame
  try dsimp only
  repeat' first
    | with_reducible assumption
    | with_reducible apply State.rebuildRun_keeps
    | with_reducible apply State.modRebuild_keeps
    | with_reducible apply State.rebuildFailed_keeps
    | with_reducible apply Keeps.ite
    | split

theorem State.rebuildArrival_keeps {s0 : State} (s : State) (book : Nat) (block : Nat) (data : Bytes) (h : Keeps s0
      s) :
    Keeps s0 (State.rebuildArrival s book block data) := by
  unfold State.rebuildArrival
  repeat' first
    | with_reducible assumption
    | with_reducible apply State.rebuildFrame_keeps
    | with_reducible apply State.dropRead_keeps
    | with_reducible apply Keeps.ite
    | split

theorem execRebuildFrameArrival_keeps {s0 : State} (book : Nat) (block : Nat) (data : Bytes) (s : State) (h : Keeps
      s0 s) :
    KeepsO s0 (execRebuildFrameArrival book block data s) := by
  unfold execRebuildFrameArrival
  repeat' first
    | with_reducible assumption
    | with_reducible apply State.rebuildArrival_keeps
    | with_reducible apply KeepsO.next

theorem State.loseNode_keeps {s0 : State} (s : State) (book : Nat) (level : Nat) (index : Nat) (h : Keeps s0 s) :
    Keeps s0 (State.loseNode s book level index) := by
  unfold State.loseNode
  try dsimp only
  repeat' first
    | with_reducible assumption
    | with_reducible apply State.salternFailure_keeps
    | with_reducible apply State.dropNode_keeps
    | with_reducible apply Keeps.ite
    | split
    | with_reducible refine Keeps.plain ?_

end Sys2Proof.Machine
end

