-- ==== Sys2Proof/Laws/KeepsReplay.lean ====
section
/-! SUPPORT. The operations of Machine/Replay.lean keep what `Keeps` says. -/

namespace Sys2Proof.Machine
open Sys2Proof

set_option Elab.async false

theorem State.replayFetch_keeps {s0 : State} (s : State) (book : Nat) (l : List (Nat × Bytes)) (h : Keeps s0 s) :
    Keeps s0 (State.replayFetch s book l).1 := by
  induction l generalizing s with
  | nil => exact h
  | cons x l ih =>
    have hr := State.lookup_keeps s book (tidBlock (fieldAt x.2 0 8)) h
    unfold State.replayFetch
    dsimp only
    split
    · exact hr
    · exact ih _ hr
    · exact ih _ hr

theorem State.applyRecord_keeps {s0 : State} (s : State) (book : Nat) (r : Bytes) (h : Keeps s0 s) :
    Keeps s0 (State.applyRecord s book r).1 := by
  unfold State.applyRecord
  try dsimp only
  repeat' first
    | with_reducible assumption
    | with_reducible apply State.replayFetch_keeps
    | with_reducible apply State.setRecord_keeps
    | with_reducible apply State.modBook_keeps
    | with_reducible apply Keeps.foldl
    | split
    | intro _

theorem State.endReplay_keeps {s0 : State} (s : State) (w : Work) (st : Status) (check : Nat) (h : Keeps s0 s) :
    Keeps s0 (State.endReplay s w st check) := by
  unfold State.endReplay
  try dsimp only
  repeat' first
    | with_reducible assumption
    | with_reducible apply State.plogWork_keeps
    | with_reducible apply State.finish_keeps
    | with_reducible apply Keeps.ite

theorem State.replayRead_keeps {s0 : State} (s : State) (w : Work) (n : Nat) (h : Keeps s0 s) :
    Keeps s0 (State.replayRead s w n) := by
  unfold State.replayRead
  try dsimp only
  repeat' first
    | with_reducible assumption
    | with_reducible apply State.endReplay_keeps
    | with_reducible apply State.hostRead_keeps
    | with_reducible apply State.modWork_keeps
    | with_reducible apply Keeps.ite

theorem State.replayReached_keeps {s0 : State} (s : State) (w : Work) (h : Keeps s0 s) :
    Keeps s0 (State.replayReached s w) := by
  unfold State.replayReached
  try dsimp only
  repeat' first
    | with_reducible assumption
    | with_reducible apply State.endReplay_keeps
    | with_reducible apply State.reachTarget_keeps
    | with_reducible apply Keeps.ite

theorem Keeps.iteFst {α : Type} {s0 : State} {a b : State × α} {c : Prop} [Decidable c] (ha : Keeps s0 a.1)
    (hb : Keeps s0 b.1) : Keeps s0 (if c then a else b).1 := by
  split <;> assumption

theorem State.replayFrame_keeps {s0 : State} (s : State) (w : Work) (h : Keeps s0 s) :
    Keeps s0 (State.replayFrame s w).1 := by
  unfold State.replayFrame
  extract_lets book b d left skip r
  have hm : ∀ n, Keeps s0 (skip n).1 := fun n => State.modWork_keeps s w.id (fun v => v.pass n) h
  have he : ∀ st k, Keeps s0 (s.endReplay w st k) := fun st k => State.endReplay_keeps _ _ _ _ h
  have hd : ∀ n, Keeps s0 (s.replayRead w n) := fun n => State.replayRead_keeps _ _ _ h
  have hr : Keeps s0 r.1 := State.applyRecord_keeps _ _ _ h
  clear_value r skip
  refine Keeps.iteFst (State.replayReached_keeps _ _ h) (Keeps.iteFst (he _ _) (Keeps.iteFst (hd _) (Keeps.iteFst (hm _)
    (Keeps.iteFst (hm _) (Keeps.iteFst (he _ _) (Keeps.iteFst (hd _) ?_))))))
  split
  · exact he _ _
  · refine Keeps.iteFst (he _ _) (Keeps.iteFst (he _ _) (Keeps.iteFst h ?_))
    split
    · exact State.modWork_keeps _ _ _ hr.plain
    · exact hr
    · exact State.replayBroken_keeps _ _ _ (State.endReplay_keeps _ _ _ _ hr)
    · exact State.endReplay_keeps _ _ _ _ hr

theorem State.replayFrames_keeps {s0 : State} (s : State) (id n : Nat) (h : Keeps s0 s) :
    Keeps s0 (State.replayFrames s id n) := by
  induction n generalizing s with
  | zero => exact h
  | succ n ih =>
    unfold State.replayFrames
    split
    · exact h
    · next w _ =>
      have hr := State.replayFrame_keeps s w h
      exact Keeps.ite (ih _ hr) hr

theorem State.replayGrain_keeps {s0 : State} (s : State) (w : Work) (h : Keeps s0 s) :
    Keeps s0 (State.replayGrain s w) := by
  unfold State.replayGrain
  try dsimp only
  repeat' first
    | with_reducible assumption
    | with_reducible apply State.endReplay_keeps
    | with_reducible apply State.replayFrames_keeps
    | with_reducible apply Keeps.ite

theorem State.startReplay_keeps {s0 : State} (s : State) (w : Work) (h : Keeps s0 s) :
    Keeps s0 (State.startReplay s w) := by
  unfold State.startReplay
  try dsimp only
  repeat' first
    | with_reducible assumption
    | with_reducible apply State.endReplay_keeps
    | with_reducible apply State.hostRead_keeps
    | with_reducible apply State.modWork_keeps
    | with_reducible apply Keeps.ite

theorem execReplay_keeps {s0 : State} (ring : Nat) (s : State) (h : Keeps s0 s) :
    KeepsO s0 (execReplay ring s) := by
  unfold execReplay
  repeat' first
    | with_reducible assumption
    | with_reducible apply State.onStart_keeps
    | with_reducible apply State.startReplay_keeps
    | with_reducible apply KeepsO.next
    | intro _

theorem State.fenceGap_keeps {s0 : State} (s : State) (book : Nat) (h : Keeps s0 s) :
    Keeps s0 (State.fenceGap s book) := by
  unfold State.fenceGap
  repeat' first
    | with_reducible assumption
    | with_reducible apply State.endBookWork_keeps
    | with_reducible apply State.bookState_keeps

theorem State.endOfReplay_keeps {s0 : State} (s : State) (w : Work) (h : Keeps s0 s) :
    Keeps s0 (State.endOfReplay s w) := by
  unfold State.endOfReplay
  try dsimp only
  repeat' first
    | with_reducible assumption
    | with_reducible apply State.endReplay_keeps
    | with_reducible apply State.fenceGap_keeps
    | with_reducible apply State.replayReached_keeps
    | with_reducible apply Keeps.ite

theorem execReplayEnd_keeps {s0 : State} (ring : Nat) (s : State) (h : Keeps s0 s) :
    KeepsO s0 (execReplayEnd ring s) := by
  unfold execReplayEnd
  repeat' first
    | with_reducible assumption
    | with_reducible apply State.onStart_keeps
    | with_reducible apply State.endOfReplay_keeps
    | with_reducible apply KeepsO.next
    | intro _

theorem State.startGapClear_keeps {s0 : State} (s : State) (w : Work) (h : Keeps s0 s) :
    Keeps s0 (State.startGapClear s w) := by
  unfold State.startGapClear
  try dsimp only
  repeat' first
    | with_reducible assumption
    | with_reducible apply State.refuse_keeps
    | with_reducible apply State.hostRead_keeps
    | with_reducible apply State.modWork_keeps
    | with_reducible apply Keeps.ite
    | split

theorem execGapClear_keeps {s0 : State} (ring : Nat) (s : State) (h : Keeps s0 s) :
    KeepsO s0 (execGapClear ring s) := by
  unfold execGapClear
  repeat' first
    | with_reducible assumption
    | with_reducible apply State.onStart_keeps
    | with_reducible apply State.startGapClear_keeps
    | with_reducible apply KeepsO.next
    | intro _

theorem State.clearGap_keeps {s0 : State} (s : State) (w : Work) (a : Bytes) (h : Keeps s0 s) :
    Keeps s0 (State.clearGap s w a) := by
  unfold State.clearGap
  try dsimp only
  repeat' first
    | with_reducible assumption
    | with_reducible apply State.endMove_keeps
    | with_reducible apply State.modBook_keeps
    | with_reducible apply State.checkJournal_keeps
    | with_reducible apply State.bookState_keeps
    | with_reducible apply State.commitRecord_keeps
    | with_reducible apply State.consumeChallenge_keeps
    | with_reducible apply State.finishOpen_keeps
    | with_reducible apply State.modWork_keeps
    | with_reducible apply Keeps.ite

theorem State.gapClearRead_keeps {s0 : State} (s : State) (w : Work) (h : Keeps s0 s) :
    Keeps s0 (State.gapClearRead s w) := by
  unfold State.gapClearRead
  try dsimp only
  repeat' first
    | with_reducible assumption
    | with_reducible apply State.refuse_keeps
    | with_reducible apply State.modWork_keeps
    | with_reducible apply State.takeCut_keeps
    | with_reducible apply State.clearGap_keeps
    | with_reducible apply Keeps.ite

theorem State.moveDone_keeps {s0 : State} (s : State) (w : Work) (h : Keeps s0 s) :
    Keeps s0 (State.moveDone s w) := by
  unfold State.moveDone
  repeat' first
    | with_reducible assumption
    | with_reducible apply State.clearGap_keeps
    | with_reducible apply State.recoveryEnd_keeps
    | with_reducible apply State.openBook_keeps
    | with_reducible apply Keeps.ite

theorem State.recoveryGrain_keeps {s0 : State} (s : State) (h : Keeps s0 s) : Keeps s0 (State.recoveryGrain s) := by
  unfold State.recoveryGrain
  refine Keeps.foldl h (fun t id k => ?_)
  split
  · exact k
  · refine Keeps.ite (State.replayGrain_keeps _ _ k) (Keeps.ite (State.restoreRead_keeps _ _ k) ?_)
    exact Keeps.ite (State.moveDone_keeps _ _ k) k

end Sys2Proof.Machine
end

