-- ==== Sys2Proof/Laws/KeepsFaults.lean ====
section
/-! SUPPORT. The operations of Machine/Faults.lean keep what `Keeps` says. -/

namespace Sys2Proof.Machine
open Sys2Proof

set_option Elab.async false

theorem Squashed.counted_keeps {s0 : State} (q : Squashed) (h : Keeps s0 q.st) : Keeps s0 (Squashed.counted q) :=
  Squashed.noted_keeps q h

theorem State.putRecordWord_keeps {s0 : State} (s : State) (book index word : Nat) (v : Image) (h : Keeps s0 s)
      :
    Keeps s0 (State.putRecordWord s book index word v) := by
  unfold State.putRecordWord
  try dsimp only
  repeat' first
    | with_reducible assumption
    | with_reducible apply Keeps.ite
    | split
    | with_reducible refine Keeps.plain ?_

theorem State.putBuffered_keeps {s0 : State} (s : State) (key cw : Nat) (v : Image) (h : Keeps s0 s) :
    Keeps s0 (State.putBuffered s key cw v) := by
  unfold State.putBuffered
  try dsimp only
  repeat' first
    | with_reducible assumption
    | with_reducible apply Keeps.ite
    | split
    | with_reducible refine Keeps.upd ?_
    | intro _

theorem Core.storeWord_wf {c : Core} (h : c.Wf) (addr : Nat) (v : Image) : (c.storeWord addr v).Wf := by
  unfold Core.storeWord
  dsimp only
  split
  · exact ⟨twf_memWrite _ _ h.code, h.data, h.mail, h.res, h.arg, h.d, h.x⟩
  · exact ⟨h.code, twf_memWrite _ _ h.data, h.mail, h.res, h.arg, h.d, h.x⟩
  · exact ⟨h.code, h.data, twf_memWrite _ _ h.mail, h.res, h.arg, h.d, h.x⟩
  · exact h

theorem State.putCoded_keeps {s0 : State} (s : State) (p : CodePlace) (v : Image) (h : Keeps s0 s) :
    Keeps s0 (State.putCoded s p v) := by
  unfold State.putCoded
  split
  · exact State.putRecordWord_keeps _ _ _ _ _ h
  · split
    · exact h
    · exact State.modEntry_keeps _ _ _ h
  · exact State.modCore_keeps _ _ _ h fun c hc => Core.storeWord_wf hc _ _
  · exact State.modSession_keeps _ _ _ h
  · exact State.modSlot_keeps _ _ _ _ h
  · exact State.modSlot_keeps _ _ _ _ h
  · exact h.same (Nv.setPage_same _ _ _)
  · exact State.putBuffered_keeps _ _ _ _ h
  · exact State.modCore_keeps _ _ _ h fun c hc => ⟨hc.code, hc.data, hc.mail, hc.res, hc.arg, by simpa using hc.d, hc.x⟩
  · exact h

theorem State.correctWord_keeps {s0 : State} (s : State) (p : CodePlace) (u : List (Nat × Nat)) (h : Keeps s0 s)
      :
    Keeps s0 (State.correctWord s p u) := by
  unfold State.correctWord
  try dsimp only
  repeat' first
    | with_reducible assumption
    | with_reducible apply State.corrected_keeps
    | with_reducible apply State.putCoded_keeps
    | with_reducible apply Keeps.ite
    | split
    | with_reducible refine Keeps.upd ?_

theorem execCorrectedWordWriteback_keeps {s0 : State} (place : CodePlace) (upset : List (Nat × Nat)) (s : State)
      (h : Keeps s0 s) :
    KeepsO s0 (execCorrectedWordWriteback place upset s) := by
  unfold execCorrectedWordWriteback
  try dsimp only
  repeat' first
    | with_reducible refine KeepsO.next ?_
    | with_reducible apply KeepsO.ite
    | with_reducible assumption
    | with_reducible apply State.correctWord_keeps

theorem State.redoAdjust_keeps {s0 : State} (s : State) (w : Work) (h : Keeps s0 s) :
    Keeps s0 (State.redoAdjust s w).st := by
  unfold State.redoAdjust
  split
  · exact State.finishFault_keeps _ _ _ _ (State.redoFailed_keeps _ _ h)
  · exact State.modWork_keeps _ _ _ h

theorem State.bnFaulted_keeps {s0 : State} (s : State) (p : BnJob → Bool) (h : Keeps s0 s) :
    Keeps s0 (State.bnFaulted s p) := by
  unfold State.bnFaulted
  try dsimp only
  repeat' first
    | with_reducible assumption
    | with_reducible refine Keeps.plain ?_

theorem State.faultWork_keeps {s0 : State} (s : State) (w : Work) (h : Keeps s0 s) :
    Keeps s0 (State.faultWork s w) := by
  unfold State.faultWork
  try dsimp only
  repeat' first
    | with_reducible assumption
    | with_reducible apply State.bnFaulted_keeps
    | with_reducible apply State.clearCore_keeps
    | with_reducible apply State.dropCollect_keeps
    | with_reducible apply State.endReplay_keeps
    | with_reducible apply State.endWriteBack_keeps
    | with_reducible apply State.finishFault_keeps
    | with_reducible apply State.releaseUnits_keeps
    | with_reducible apply Keeps.foldl
    | with_reducible apply Keeps.ite
    | split
    | intro _

theorem State.badBeat_keeps {s0 : State} (s : State) (w : Work) (h : Keeps s0 s) :
    Keeps s0 (State.badBeat s w) := by
  unfold State.badBeat
  repeat' first
    | with_reducible assumption
    | with_reducible apply State.redoEntry_keeps
    | with_reducible apply State.redoAdjust_keeps
    | with_reducible apply Squashed.counted_keeps
    | with_reducible apply State.faultWork_keeps
    | with_reducible apply Keeps.ite

theorem State.badCall_keeps {s0 : State} (s : State) (ring : Nat) (h : Keeps s0 s) :
    Keeps s0 (State.badCall s ring) := by
  unfold State.badCall
  try dsimp only
  repeat' first
    | with_reducible assumption
    | with_reducible apply State.answerCore_keeps
    | with_reducible apply State.bnFaulted_keeps
    | with_reducible apply State.dropBn_keeps
    | with_reducible apply State.dropRandom_keeps
    | with_reducible apply Keeps.ite
    | split

theorem State.badCommit_keeps {s0 : State} (s : State) (book : Nat) (h : Keeps s0 s) :
    Keeps s0 (State.badCommit s book) := by
  unfold State.badCommit
  repeat' first
    | with_reducible assumption
    | with_reducible apply State.redoEntry_keeps
    | with_reducible apply Squashed.counted_keeps
    | with_reducible apply Keeps.ite
    | split

theorem State.bothCopies_keeps {s0 : State} (s : State) (code : Nat) (slice : Nat) (h : Keeps s0 s) :
    Keeps s0 (State.bothCopies s code slice) := by
  unfold State.bothCopies
  repeat' first
    | with_reducible assumption
    | with_reducible apply State.severe_keeps

theorem State.badOutput_keeps {s0 : State} (s : State) (w : Work) (h : Keeps s0 s) :
    Keeps s0 (State.badOutput s w) := by
  unfold State.badOutput
  try dsimp only
  repeat' first
    | with_reducible assumption
    | with_reducible apply State.finish_keeps
    | with_reducible apply State.modWork_keeps
    | with_reducible apply State.faultWork_keeps
    | with_reducible apply Keeps.ite

theorem State.loseSession_keeps {s0 : State} (s : State) (x : Nat) (h : Keeps s0 s) :
    Keeps s0 (State.loseSession s x) := by
  unfold State.loseSession
  try dsimp only
  repeat' first
    | with_reducible assumption
    | with_reducible apply State.fenceRing_keeps
    | with_reducible apply State.finishRaw_keeps
    | with_reducible apply State.markFault_keeps
    | with_reducible apply State.setSession_keeps
    | with_reducible apply Keeps.foldl
    | split
    | intro _

theorem State.endSlotUser_keeps {s0 : State} (s : State) (target index : Nat) (st : Status) (h : Keeps s0 s) :
    Keeps s0 (State.endSlotUser s target index st) := by
  unfold State.endSlotUser
  try dsimp only
  repeat' first
    | with_reducible assumption
    | with_reducible apply State.bnFaulted_keeps
    | with_reducible apply State.finishFault_keeps
    | with_reducible apply State.releaseUnits_keeps
    | with_reducible apply Keeps.ite
    | split
    | intro _

theorem State.loseSlot_keeps {s0 : State} (s : State) (target index : Nat) (h : Keeps s0 s) :
    Keeps s0 (State.loseSlot s target index) := by
  unfold State.loseSlot
  try dsimp only
  repeat' first
    | with_reducible assumption
    | with_reducible apply State.badSlot_keeps
    | with_reducible apply State.endSlotUser_keeps
    | with_reducible apply Keeps.ite
    | split

theorem State.loseLocal_keeps {s0 : State} (s : State) (core : Nat) (addr : Nat) (h : Keeps s0 s) :
    Keeps s0 (State.loseLocal s core addr) := by
  unfold State.loseLocal
  repeat' first
    | with_reducible assumption
    | with_reducible apply State.modCore_keeps
    | intro (c : Core) (hc : Core.Wf c)
    | exact hc.keep rfl rfl rfl rfl rfl rfl rfl
    | split

theorem State.loseCodeword_keeps {s0 : State} (s : State) (key cw : Nat) (h : Keeps s0 s) :
    Keeps s0 (State.loseCodeword s key cw) := by
  unfold State.loseCodeword
  try dsimp only
  repeat' first
    | with_reducible assumption
    | with_reducible apply State.badCodeword_keeps
    | split

theorem State.loseBuffered_keeps {s0 : State} (s : State) (key cw : Nat) (h : Keeps s0 s) :
    Keeps s0 (State.loseBuffered s key cw) := by
  unfold State.loseBuffered
  try dsimp only
  repeat' first
    | with_reducible assumption
    | with_reducible apply Keeps.ite
    | split
    | with_reducible refine Keeps.upd ?_

theorem State.nvUncorr_keeps {s0 : State} (s : State) (detail : Nat) (h : Keeps s0 s) :
    Keeps s0 (State.nvUncorr s detail) := by
  unfold State.nvUncorr
  try dsimp only
  repeat' first
    | with_reducible assumption
    | with_reducible apply State.uncorrectable_keeps
    | with_reducible refine Keeps.upd ?_

theorem State.uncorrectableWord_keeps {s0 : State} (s : State) (b : BadWord) (h : Keeps s0 s) :
    Keeps s0 (State.uncorrectableWord s b) := by
  unfold State.uncorrectableWord
  try dsimp only
  repeat' first
    | with_reducible assumption
    | with_reducible apply Squashed.counted_keeps
    | with_reducible apply State.badBeat_keeps
    | with_reducible apply State.badCall_keeps
    | with_reducible apply State.badCodeword_keeps
    | with_reducible apply State.badCommit_keeps
    | with_reducible apply State.badOutput_keeps
    | with_reducible apply State.bothCopies_keeps
    | with_reducible apply State.loseBlock_keeps
    | with_reducible apply State.loseBuffered_keeps
    | with_reducible apply State.loseCodeword_keeps
    | with_reducible apply State.loseLocal_keeps
    | with_reducible apply State.loseNode_keeps
    | with_reducible apply State.loseSession_keeps
    | with_reducible apply State.loseSlot_keeps
    | with_reducible apply State.nvUncorr_keeps
    | with_reducible apply State.redoEntry_keeps
    | with_reducible apply State.redoVerify_keeps
    | with_reducible apply State.uncorrectable_keeps
    | with_reducible apply Keeps.ite
    | split
    | with_reducible refine Keeps.plain ?_
    | intro _

theorem execUncorrectableError_keeps {s0 : State} (word : BadWord) (upset : List (Nat × Nat)) (s : State) (h :
      Keeps s0 s) :
    KeepsO s0 (execUncorrectableError word upset s) := by
  unfold execUncorrectableError
  try dsimp only
  repeat' first
    | with_reducible refine KeepsO.next ?_
    | with_reducible apply KeepsO.ite
    | with_reducible assumption
    | with_reducible apply State.uncorrectable_keeps
    | with_reducible apply State.uncorrectableWord_keeps
    | with_reducible apply Keeps.ite

end Sys2Proof.Machine
end

