-- ==== Sys2Proof/Laws/KeepsHandover.lean ====
section
/-! SUPPORT. The operations of Machine/Handover.lean keep what `Keeps` says. -/

namespace Sys2Proof.Machine
open Sys2Proof

set_option Elab.async false

theorem State.startPrepare_keeps {s0 : State} (s : State) (w : Work) (h : Keeps s0 s) :
    Keeps s0 (State.startPrepare s w) := by
  unfold State.startPrepare
  repeat' first
    | with_reducible assumption
    | with_reducible apply State.refuse_keeps
    | with_reducible apply State.askRandom_keeps
    | with_reducible apply State.modWork_keeps
    | split

theorem execAdoptPrepare_keeps {s0 : State} (ring : Nat) (s : State) (h : Keeps s0 s) :
    KeepsO s0 (execAdoptPrepare ring s) := by
  unfold execAdoptPrepare
  repeat' first
    | with_reducible assumption
    | with_reducible apply State.onStart_keeps
    | with_reducible apply State.startPrepare_keeps
    | with_reducible apply KeepsO.next
    | intro _

theorem State.prepareTicket_keeps {s0 : State} (s : State) (w : Work) (nonce : Bytes) (h : Keeps s0 s) :
    Keeps s0 (State.prepareTicket s w nonce) := by
  unfold State.prepareTicket
  try dsimp only
  repeat' first
    | with_reducible assumption
    | with_reducible apply State.finishOpen_keeps
    | with_reducible apply State.hostWrite_keeps
    | with_reducible apply State.modBook_keeps
    | with_reducible apply State.nvPut_keeps
    | with_reducible apply State.refuse_keeps
    | with_reducible apply Keeps.ite
    | split
    | with_reducible refine Keeps.upd ?_
    | intro _

theorem State.handoverFail_keeps {s0 : State} (s : State) (w : Work) (h : Keeps s0 s) :
    Keeps s0 (State.handoverFail s w).1 := by
  unfold State.handoverFail
  try dsimp only
  repeat' first
    | with_reducible assumption
    | with_reducible apply State.chargeSession_keeps
    | split

theorem State.startHandover_keeps {s0 : State} (s : State) (w : Work) (h : Keeps s0 s) :
    Keeps s0 (State.startHandover s w) := by
  unfold State.startHandover
  try dsimp only
  repeat' first
    | with_reducible assumption
    | with_reducible apply State.handoverFail_keeps
    | with_reducible apply State.refuse_keeps
    | with_reducible apply State.modWork_keeps
    | with_reducible apply State.modBook_keeps
    | with_reducible apply Keeps.ite
    | split

theorem execHandover_keeps {s0 : State} (ring : Nat) (s : State) (h : Keeps s0 s) :
    KeepsO s0 (execHandover ring s) := by
  unfold execHandover
  repeat' first
    | with_reducible assumption
    | with_reducible apply State.onStart_keeps
    | with_reducible apply State.startHandover_keeps
    | with_reducible apply KeepsO.next
    | intro _

theorem State.handoverCommit_keeps {s0 : State} (s : State) (w : Work) (h : Keeps s0 s) :
    Keeps s0 (State.handoverCommit s w) := by
  unfold State.handoverCommit
  try dsimp only
  repeat' first
    | with_reducible assumption
    | with_reducible apply State.commitRecord_keeps
    | with_reducible apply State.modWork_keeps
    | with_reducible apply State.takeCut_keeps

theorem State.handoverEnd_keeps {s0 : State} (s : State) (w : Work) (j : WbJob) (h : Keeps s0 s) :
    Keeps s0 (State.handoverEnd s w j) := by
  unfold State.handoverEnd
  try dsimp only
  repeat' first
    | with_reducible assumption
    | with_reducible apply State.signP384_keeps
    | with_reducible apply State.hostWrite_keeps
    | with_reducible apply State.modBook_keeps
    | with_reducible apply State.finishOpen_keeps
    | with_reducible apply State.bookState_keeps

theorem State.handoverStep_keeps {s0 : State} (s : State) (w : Work) (h : Keeps s0 s) :
    Keeps s0 (State.handoverStep s w) := by
  unfold State.handoverStep
  try dsimp only
  repeat' first
    | with_reducible assumption
    | with_reducible apply State.handoverCommit_keeps
    | with_reducible apply State.ckptPhase2_keeps
    | with_reducible apply State.handoverEnd_keeps
    | with_reducible apply Keeps.ite
    | split

theorem State.handoverGrain_keeps {s0 : State} (s : State) (h : Keeps s0 s) :
    Keeps s0 (State.handoverGrain s) := by
  unfold State.handoverGrain
  repeat' first
    | with_reducible assumption
    | with_reducible apply State.handoverStep_keeps
    | with_reducible apply Keeps.foldl

theorem State.adoptFail_keeps {s0 : State} (s : State) (w : Work) (h : Keeps s0 s) :
    Keeps s0 (State.adoptFail s w).1 := by
  unfold State.adoptFail
  try dsimp only
  repeat' first
    | with_reducible assumption
    | with_reducible apply State.chargeSession_keeps
    | split

theorem State.startAdopt_keeps {s0 : State} (s : State) (w : Work) (h : Keeps s0 s) :
    Keeps s0 (State.startAdopt s w) := by
  unfold State.startAdopt
  try dsimp only
  repeat' first
    | with_reducible assumption
    | with_reducible apply State.adoptFail_keeps
    | with_reducible apply State.refuse_keeps
    | with_reducible apply State.hostRead_keeps
    | with_reducible apply State.modWork_keeps
    | with_reducible apply Keeps.ite
    | split

theorem execAdopt_keeps {s0 : State} (ring : Nat) (s : State) (h : Keeps s0 s) :
    KeepsO s0 (execAdopt ring s) := by
  unfold execAdopt
  repeat' first
    | with_reducible assumption
    | with_reducible apply State.onStart_keeps
    | with_reducible apply State.startAdopt_keeps
    | with_reducible apply KeepsO.next
    | intro _

theorem State.adoptBook_keeps {s0 : State} (s : State) (w : Work) (d r : Bytes) (h : Keeps s0 s) :
    Keeps s0 (State.adoptBook s w d r) := by
  unfold State.adoptBook
  extract_lets book t root lseq u info v l x
  have ht : Keeps s0 t := State.nvPut_keeps _ _ _ (State.deriveBook_keeps _ _ _ (State.nextIncarn_keeps _ _ h))
  have hv : Keeps s0 v :=
    State.checkJournal_keeps _ _ (State.bookState_keeps _ _ _ (State.commitRecord_keeps _ _ _ (State.modBook_keeps _ _ _ ht)))
  exact State.finishOpen_keeps _ _ _ _ (State.modWork_keeps _ _ _ (State.modBook_keeps _ _ _ hv))

theorem State.adoptWith_keeps {s0 : State} (s : State) (w : Work) (mask : Option Bytes) (h : Keeps s0 s) :
    Keeps s0 (State.adoptWith s w mask) := by
  unfold State.adoptWith
  try dsimp only
  repeat' first
    | with_reducible assumption
    | (refine Keeps.fst ?_ (by assumption))
    | with_reducible apply State.adoptBook_keeps
    | with_reducible apply State.askRandom_keeps
    | with_reducible apply State.modBook_keeps
    | with_reducible apply State.modWork_keeps
    | with_reducible apply State.refuse_keeps
    | with_reducible apply Keeps.ite
    | split
    | intro _

theorem State.adoptRead_keeps {s0 : State} (s : State) (w : Work) (h : Keeps s0 s) :
    Keeps s0 (State.adoptRead s w) := by
  unfold State.adoptRead
  try dsimp only
  repeat' first
    | with_reducible assumption
    | with_reducible apply State.adoptWith_keeps

theorem State.adoptReady_keeps {s0 : State} (s : State) (w : Work) (r : Bytes) (h : Keeps s0 s) :
    Keeps s0 (State.adoptReady s w r) := by
  unfold State.adoptReady
  try dsimp only
  repeat' first
    | with_reducible assumption
    | with_reducible apply State.adoptWith_keeps

end Sys2Proof.Machine
end

