-- ==== Sys2Proof/Laws/KeepsLifeCycle.lean ====
section
/-! SUPPORT. The operations of Machine/LifeCycle.lean keep what `Keeps` says. -/

namespace Sys2Proof.Machine
open Sys2Proof

set_option Elab.async false

theorem State.endTransition_keeps {s0 : State} (s : State) (t : Transition) (h : Keeps s0 s) :
    Keeps s0 (State.endTransition s t) := by
  unfold State.endTransition
  repeat' first
    | with_reducible assumption
    | with_reducible apply State.finish_keeps
    | split

theorem State.eraseComplete_keeps {s0 : State} (s : State) (h : Keeps s0 s) :
    Keeps s0 (State.eraseComplete s) := by
  unfold State.eraseComplete
  try dsimp only
  repeat' first
    | with_reducible assumption
    | with_reducible apply State.nvPut_keeps
    | with_reducible apply State.recordLife_keeps
    | with_reducible apply State.endTransition_keeps
    | with_reducible apply State.provisionCommit_keeps
    | with_reducible apply Keeps.ite
    | split
    | with_reducible refine Keeps.plain ?_
    | with_reducible refine Keeps.upd ?_

theorem execKeyEraseComplete_keeps {s0 : State} (s : State) (h : Keeps s0 s) :
    KeepsO s0 (execKeyEraseComplete s) := by
  unfold execKeyEraseComplete
  repeat' first
    | with_reducible assumption
    | with_reducible apply State.eraseComplete_keeps
    | with_reducible apply KeepsO.next

theorem State.signIdentity_keeps {s0 : State} (s : State) (body : Bytes) (h : Keeps s0 s) :
    Keeps s0 (State.signIdentity s body).2 := by
  unfold State.signIdentity
  try dsimp only
  repeat' first
    | with_reducible assumption
    | with_reducible apply State.signP384_keeps

theorem execBitternSummaryFormed_keeps {s0 : State} (s : State) (h : Keeps s0 s) :
    KeepsO s0 (execBitternSummaryFormed s) := by
  unfold execBitternSummaryFormed
  try dsimp only
  repeat' first
    | with_reducible assumption
    | with_reducible apply State.signIdentity_keeps
    | with_reducible apply State.recordLife_keeps
    | with_reducible apply KeepsO.next
    | with_reducible apply Keeps.ite
    | with_reducible refine Keeps.upd ?_

theorem State.bitternBody_keeps {s0 : State} (s : State) (w : Work) (h : Keeps s0 s) :
    Keeps s0 (State.bitternBody s w) := by
  unfold State.bitternBody
  try dsimp only
  repeat' first
    | with_reducible assumption
    | with_reducible apply State.refuse_keeps
    | with_reducible apply State.signIdentity_keeps
    | with_reducible apply State.hostWrite_keeps
    | with_reducible apply State.finishOpen_keeps
    | with_reducible apply Keeps.ite
    | split

theorem execBitternStatement_keeps {s0 : State} (ring : Nat) (s : State) (h : Keeps s0 s) :
    KeepsO s0 (execBitternStatement ring s) := by
  unfold execBitternStatement
  repeat' first
    | with_reducible assumption
    | with_reducible apply State.onStart_keeps
    | with_reducible apply State.bitternBody_keeps
    | with_reducible apply KeepsO.next
    | intro _

theorem State.startChallenge_keeps {s0 : State} (s : State) (w : Work) (h : Keeps s0 s) :
    Keeps s0 (State.startChallenge s w) := by
  unfold State.startChallenge
  repeat' first
    | with_reducible assumption
    | with_reducible apply State.refuse_keeps
    | with_reducible apply State.askRandom_keeps
    | with_reducible apply State.modWork_keeps
    | split

theorem execCustChallenge_keeps {s0 : State} (ring : Nat) (s : State) (h : Keeps s0 s) :
    KeepsO s0 (execCustChallenge ring s) := by
  unfold execCustChallenge
  repeat' first
    | with_reducible assumption
    | with_reducible apply State.onStart_keeps
    | with_reducible apply State.startChallenge_keeps
    | with_reducible apply KeepsO.next
    | intro _

theorem State.issueChallenge_keeps {s0 : State} (s : State) (w : Work) (nonce : Bytes) (h : Keeps s0 s) :
    Keeps s0 (State.issueChallenge s w nonce) := by
  unfold State.issueChallenge
  try dsimp only
  repeat' first
    | with_reducible assumption
    | with_reducible apply State.refuse_keeps
    | with_reducible apply State.hostWrite_keeps
    | with_reducible apply State.finishOpen_keeps
    | with_reducible apply Keeps.ite
    | split
    | with_reducible refine Keeps.upd ?_

theorem execChallengeSlotLapse_keeps {s0 : State} (slot : Nat) (s : State) (h : Keeps s0 s) :
    KeepsO s0 (execChallengeSlotLapse slot s) := by
  unfold execChallengeSlotLapse
  repeat' first
    | with_reducible assumption
    | with_reducible apply State.consumeChallenge_keeps
    | with_reducible apply KeepsO.next
    | with_reducible apply Keeps.ite
    | split

theorem State.startStage_keeps {s0 : State} (s : State) (w : Work) (h : Keeps s0 s) :
    Keeps s0 (State.startStage s w) := by
  unfold State.startStage
  try dsimp only
  repeat' first
    | with_reducible assumption
    | with_reducible apply State.refuse_keeps
    | with_reducible apply State.hostRead_keeps
    | with_reducible apply State.modWork_keeps
    | with_reducible apply Keeps.ite

theorem execLcStage_keeps {s0 : State} (ring : Nat) (s : State) (h : Keeps s0 s) :
    KeepsO s0 (execLcStage ring s) := by
  unfold execLcStage
  repeat' first
    | with_reducible assumption
    | with_reducible apply State.onStart_keeps
    | with_reducible apply State.startStage_keeps
    | with_reducible apply KeepsO.next
    | intro _

theorem State.stageRead_keeps {s0 : State} (s : State) (w : Work) (h : Keeps s0 s) :
    Keeps s0 (State.stageRead s w) := by
  unfold State.stageRead
  try dsimp only
  repeat' first
    | with_reducible assumption
    | with_reducible apply State.hostRead_keeps
    | with_reducible apply State.modWork_keeps
    | with_reducible apply State.refuse_keeps
    | with_reducible apply State.finishOpen_keeps
    | with_reducible apply State.consumeChallenge_keeps
    | with_reducible apply Keeps.ite
    | split
    | with_reducible refine Keeps.upd ?_

theorem lcAllowed_spec {was target : LcState} (h : lcAllowed was target = true) : was ≠ .spent ∧ target ≠ .blank := by
  revert h
  cases was <;> cases target <;> decide

theorem State.lcCommit_keeps {s0 : State} (s : State) (w : Work) (target : LcState) (h : Keeps s0 s) :
    Keeps s0 (State.lcCommit s w target) := by
  unfold State.lcCommit
  split
  · exact State.refuse_keeps _ _ _ _ h
  · next hf =>
    have ha : lcAllowed s.tamper.state target = true := by
      by_contra hn
      simp [firstFail, hn] at hf
    exact State.changeState_keeps _ _ _ _ _ _ (State.modWork_keeps _ _ _ h) (lcAllowed_spec ha).1 (lcAllowed_spec ha).2

theorem State.startLcChange_keeps {s0 : State} (s : State) (w : Work) (h : Keeps s0 s) :
    Keeps s0 (State.startLcChange s w) := by
  unfold State.startLcChange
  try dsimp only
  repeat' first
    | with_reducible assumption
    | with_reducible apply State.refuse_keeps
    | with_reducible apply State.lcCommit_keeps
    | with_reducible apply State.hostRead_keeps
    | with_reducible apply State.modWork_keeps
    | with_reducible apply Keeps.ite
    | split

theorem execLcChange_keeps {s0 : State} (ring : Nat) (s : State) (h : Keeps s0 s) :
    KeepsO s0 (execLcChange ring s) := by
  unfold execLcChange
  repeat' first
    | with_reducible assumption
    | with_reducible apply State.onStart_keeps
    | with_reducible apply State.startLcChange_keeps
    | with_reducible apply KeepsO.next
    | intro _

theorem State.lcRead_keeps {s0 : State} (s : State) (w : Work) (h : Keeps s0 s) :
    Keeps s0 (State.lcRead s w) := by
  unfold State.lcRead
  try dsimp only
  repeat' first
    | with_reducible assumption
    | with_reducible apply State.refuse_keeps
    | with_reducible apply State.lcCommit_keeps
    | with_reducible apply State.consumeChallenge_keeps
    | with_reducible apply Keeps.ite
    | split

end Sys2Proof.Machine
end

