-- ==== Sys2Proof/Laws/KeepsRandomServe.lean ====
section
/-! SUPPORT. The operations of Machine/RandomServe.lean keep what `Keeps` says. -/

namespace Sys2Proof.Machine
open Sys2Proof

set_option Elab.async false

theorem State.randomBody_keeps {s0 : State} (s : State) (w : Work) (h : Keeps s0 s) :
    Keeps s0 (State.randomBody s w) := by
  unfold State.randomBody
  try dsimp only
  repeat' first
    | with_reducible assumption
    | with_reducible apply State.refuse_keeps
    | with_reducible apply State.finish_keeps
    | with_reducible apply State.askRandom_keeps
    | with_reducible apply State.modWork_keeps
    | with_reducible apply Keeps.ite
    | split

theorem execRandom_keeps {s0 : State} (ring : Nat) (s : State) (h : Keeps s0 s) :
    KeepsO s0 (execRandom ring s) := by
  unfold execRandom
  repeat' first
    | with_reducible assumption
    | with_reducible apply State.onStart_keeps
    | with_reducible apply State.randomBody_keeps
    | with_reducible apply KeepsO.next
    | intro _

theorem State.giveRequest_keeps {s0 : State} (s : State) (id : Nat) (b : Bytes) (h : Keeps s0 s) :
    Keeps s0 (State.giveRequest s id b) := by
  unfold State.giveRequest
  try dsimp only
  repeat' first
    | with_reducible assumption
    | with_reducible apply State.dropRandom_keeps
    | with_reducible apply State.hostWrite_keeps
    | with_reducible apply State.modWork_keeps
    | with_reducible apply State.refuseWith_keeps
    | with_reducible apply State.finish_keeps
    | with_reducible apply Keeps.ite
    | split

theorem State.injectRun_keeps {s0 : State} (s : State) (w : Work) (h : Keeps s0 s) :
    Keeps s0 (State.injectRun s w) := by
  unfold State.injectRun
  try dsimp only
  repeat' first
    | with_reducible assumption
    | with_reducible apply State.finish_keeps
    | with_reducible apply State.hostWrite_keeps
    | with_reducible apply State.plogWork_keeps
    | with_reducible apply State.refuse_keeps
    | with_reducible apply Keeps.ite
    | split

theorem State.forWork_keeps {s0 : State} (s : State) (use : RngUse) (id : Nat) (f : State → Work → State) (h :
      Keeps s0 s) (hf : ∀ y0 y1, Keeps s0 y0 → Keeps s0 (f y0 y1)) :
    Keeps s0 (State.forWork s use id f) := by
  unfold State.forWork
  try dsimp only
  repeat' first
    | with_reducible assumption
    | with_reducible apply State.dropRandom_keeps
    | with_reducible apply hf
    | split

theorem State.katRan_keeps {s0 : State} (s : State) (x : RngWait) (h : Keeps s0 s) :
    Keeps s0 (State.katRan s x) := by
  unfold State.katRan
  try dsimp only
  repeat' first
    | with_reducible assumption
    | (refine Keeps.fst ?_ (by assumption))
    | with_reducible apply State.dropRandom_keeps
    | with_reducible apply State.finish_keeps
    | with_reducible apply State.forWork_keeps
    | with_reducible apply State.katDone_keeps
    | with_reducible apply Keeps.ite
    | split
    | with_reducible refine Keeps.upd ?_
    | intro _

theorem State.rngFull_keeps {s0 : State} (s : State) (x : RngWait) (h : Keeps s0 s) :
    Keeps s0 (State.rngFull s x) := by
  unfold State.rngFull
  split
  · exact State.forWork_keeps _ _ _ _ h fun t w k => State.prepareTicket_keeps _ _ _ k
  · exact State.forWork_keeps _ _ _ _ h fun t w k => State.issueChallenge_keeps _ _ _ k
  · exact State.forWork_keeps _ _ _ _ h fun t w k => State.contextReady_keeps _ _ _ k
  · exact State.forWork_keeps _ _ _ _ h fun t w k => State.adoptReady_keeps _ _ _ k
  · exact State.forWork_keeps _ _ _ _ h fun t w k => State.injectRun_keeps _ _ k
  · exact State.katRan_keeps _ _ h
  · exact State.katRan_keeps _ _ h
  · exact State.answerCore_keeps _ _ _ _ (State.dropRandom_keeps _ _
      (State.modCore_keeps _ _ _ h fun c hc => hc.keep rfl rfl rfl rfl rfl rfl rfl))
  · exact h

theorem State.rngGive_keeps {s0 : State} (s : State) (use : RngUse) (b : Bytes) (h : Keeps s0 s) :
    Keeps s0 (State.rngGive s use b) := by
  unfold State.rngGive
  try dsimp only
  repeat' first
    | with_reducible assumption
    | with_reducible apply State.giveRequest_keeps
    | with_reducible apply Keeps.ite
    | split
    | with_reducible refine Keeps.upd ?_
    | intro _

theorem Rng.count_bounded {r : Rng} (h : r.Bounded) (n : Nat) : (r.count n).Bounded :=
  ⟨h.pool, h.fifo, h.buf, h.fw, h.undo⟩

theorem State.outputStep_keeps {s0 : State} (s : State) (h : Keeps s0 s) : Keeps s0 (State.outputStep s) := by
  unfold State.outputStep
  split
  · exact h
  · refine Keeps.ite (State.rngStep_keeps _ _ h fun t k => k.upd) (Keeps.ite h (State.rngStep_keeps _ _ h fun t k => ?_))
    exact k.upd

theorem State.rngGrain_keeps {s0 : State} (s : State) (h : Keeps s0 s) :
    Keeps s0 (State.rngGrain s) := by
  unfold State.rngGrain
  refine Keeps.foldl (Keeps.upd ?_) fun t x k => State.rngFull_keeps t x k
  split
  · exact h
  · rename_i use b _
    refine State.rngGive_keeps _ _ _ (h.upd (h7 := fun k => ?_))
    have hr : Rng.Bounded { s.rng with given := none, lastSlice := s.rngServed use } := ⟨k.pool, k.fifo, k.buf, k.fw, k.undo⟩
    split
    · exact hr
    · exact Rng.count_bounded hr _

theorem execRngOutputStep_keeps {s0 : State} (s : State) (h : Keeps s0 s) :
    KeepsO s0 (execRngOutputStep s) := by
  unfold execRngOutputStep
  repeat' first
    | with_reducible assumption
    | with_reducible apply State.outputStep_keeps
    | with_reducible apply KeepsO.next

theorem State.endSeal_keeps {s0 : State} (s : State) (book no : Nat) (st : Status) (h : Keeps s0 s) :
    Keeps s0 (State.endSeal s book no st) := by
  unfold State.endSeal
  try dsimp only
  repeat' first
    | with_reducible assumption
    | with_reducible apply State.finish_keeps
    | with_reducible apply State.modBook_keeps
    | with_reducible apply Keeps.foldl
    | split
    | intro _

theorem State.bnStarved_keeps {s0 : State} (s : State) (n : Nat) (h : Keeps s0 s) :
    Keeps s0 (State.bnStarved s n) := by
  unfold State.bnStarved
  try dsimp only
  repeat' first
    | with_reducible assumption
    | with_reducible apply State.answerCore_keeps
    | with_reducible apply State.clearCore_keeps
    | with_reducible apply State.dropBn_keeps
    | with_reducible apply State.endSeal_keeps
    | with_reducible apply State.refuse_keeps
    | with_reducible apply Keeps.ite
    | split
    | intro _

theorem State.rngTimeout_keeps {s0 : State} (s : State) (h : Keeps s0 s) :
    Keeps s0 (State.rngTimeout s) := by
  unfold State.rngTimeout
  try dsimp only
  repeat' first
    | with_reducible assumption
    | with_reducible apply State.dropRandom_keeps
    | with_reducible apply State.bnStarved_keeps
    | with_reducible apply State.refuse_keeps
    | with_reducible apply State.answerCore_keeps
    | with_reducible apply State.finish_keeps
    | split
    | with_reducible refine Keeps.upd ?_

theorem execRngWaitTimeout_keeps {s0 : State} (s : State) (h : Keeps s0 s) :
    KeepsO s0 (execRngWaitTimeout s) := by
  unfold execRngWaitTimeout
  repeat' first
    | with_reducible assumption
    | with_reducible apply State.rngTimeout_keeps
    | with_reducible apply KeepsO.next

theorem State.katBody_keeps {s0 : State} (s : State) (w : Work) (h : Keeps s0 s) :
    Keeps s0 (State.katBody s w) := by
  unfold State.katBody
  try dsimp only
  repeat' first
    | with_reducible assumption
    | with_reducible apply State.askRandom_keeps
    | with_reducible apply State.modWork_keeps
    | with_reducible apply State.refuseOpen_keeps
    | with_reducible apply Keeps.ite
    | split
    | intro _

theorem execRngKat_keeps {s0 : State} (ring : Nat) (s : State) (h : Keeps s0 s) :
    KeepsO s0 (execRngKat ring s) := by
  unfold execRngKat
  repeat' first
    | with_reducible assumption
    | with_reducible apply State.onStart_keeps
    | with_reducible apply State.katBody_keeps
    | with_reducible apply KeepsO.next
    | intro _

theorem State.injectSrc_keeps {s0 : State} (s : State) (w : Work) (h : Keeps s0 s) :
    Keeps s0 (State.injectSrc s w) := by
  unfold State.injectSrc
  try dsimp only
  repeat' first
    | with_reducible assumption
    | with_reducible apply State.refuse_keeps
    | with_reducible apply State.hostRead_keeps
    | with_reducible apply State.modWork_keeps
    | with_reducible apply Keeps.ite

theorem State.injectBody_keeps {s0 : State} (s : State) (w : Work) (h : Keeps s0 s) :
    Keeps s0 (State.injectBody s w) := by
  unfold State.injectBody
  try dsimp only
  repeat' first
    | with_reducible assumption
    | with_reducible apply State.refuse_keeps
    | with_reducible apply State.injectSrc_keeps
    | with_reducible apply State.hostRead_keeps
    | with_reducible apply State.modWork_keeps
    | with_reducible apply Keeps.ite

theorem execRngInject_keeps {s0 : State} (ring : Nat) (s : State) (h : Keeps s0 s) :
    KeepsO s0 (execRngInject ring s) := by
  unfold execRngInject
  repeat' first
    | with_reducible assumption
    | with_reducible apply State.onStart_keeps
    | with_reducible apply State.injectBody_keeps
    | with_reducible apply KeepsO.next
    | intro _

theorem State.injectAuth_keeps {s0 : State} (s : State) (w : Work) (a : Bytes) (h : Keeps s0 s) :
    Keeps s0 (State.injectAuth s w a) := by
  unfold State.injectAuth
  try dsimp only
  repeat' first
    | with_reducible assumption
    | with_reducible apply State.injectSrc_keeps
    | with_reducible apply State.refuse_keeps
    | with_reducible apply Keeps.ite

theorem State.injectWait_keeps {s0 : State} (s : State) (w : Work) (h : Keeps s0 s) :
    Keeps s0 (State.injectWait s w) := by
  unfold State.injectWait
  try dsimp only
  repeat' first
    | with_reducible assumption
    | with_reducible apply State.askRandom_keeps
    | with_reducible apply State.modWork_keeps
    | intro _

theorem State.injectRead_keeps {s0 : State} (s : State) (w : Work) (data : Bytes) (h : Keeps s0 s) :
    Keeps s0 (State.injectRead s w data) := by
  unfold State.injectRead
  try dsimp only
  repeat' first
    | with_reducible assumption
    | with_reducible apply State.injectAuth_keeps
    | with_reducible apply State.injectWait_keeps
    | with_reducible apply Keeps.ite
    | split

end Sys2Proof.Machine
end

