-- ==== Sys2Proof/Laws/KeepsHostRead.lean ====
section
/-! SUPPORT. The operations of Machine/HostRead.lean keep what `Keeps` says. -/

namespace Sys2Proof.Machine
open Sys2Proof

set_option Elab.async false

theorem State.readData_keeps {s0 : State} (s : State) (w : Work) (data : Bytes) (h : Keeps s0 s) :
    Keeps s0 (State.readData s w data) := by
  unfold State.readData
  repeat' first
    | with_reducible assumption
    | with_reducible apply State.modWork_keeps
    | with_reducible apply State.adoptRead_keeps
    | with_reducible apply State.gapClearRead_keeps
    | with_reducible apply State.envelopeRead_keeps
    | with_reducible apply State.bnBegin_keeps
    | with_reducible apply State.allowAddRead_keeps
    | with_reducible apply State.injectRead_keeps
    | with_reducible apply State.nvStore_keeps
    | with_reducible apply State.stageRead_keeps
    | with_reducible apply State.lcRead_keeps
    | with_reducible apply State.collectRead_keeps
    | split

theorem State.readArrived_keeps {s0 : State} (s : State) (w : Work) (data : Bytes) (h : Keeps s0 s) :
    Keeps s0 (State.readArrived s w data) := by
  unfold State.readArrived
  try dsimp only
  repeat' first
    | with_reducible assumption
    | with_reducible apply State.streamRead_keeps
    | with_reducible apply State.readData_keeps
    | with_reducible apply State.modWork_keeps
    | with_reducible apply Keeps.ite

theorem State.readCompletion_keeps {s0 : State} (s : State) (tag : Nat) (data : Bytes) (h : Keeps s0 s) :
    Keeps s0 (State.readCompletion s tag data) := by
  unfold State.readCompletion
  try dsimp only
  repeat' first
    | with_reducible assumption
    | with_reducible apply State.dropRead_keeps
    | with_reducible apply State.modRead_keeps
    | with_reducible apply State.modWork_keeps
    | with_reducible apply State.readArrived_keeps
    | with_reducible apply Keeps.ite
    | split

theorem State.goOn_keeps {s0 : State} (s : State) (w : Work) (h : Keeps s0 s) :
    Keeps s0 (State.goOn s w) := by
  unfold State.goOn
  try dsimp only
  repeat' first
    | with_reducible assumption
    | with_reducible apply State.modWork_keeps
    | with_reducible apply State.readArrived_keeps
    | with_reducible apply Keeps.ite
    | split

theorem State.arrivedGrain_keeps {s0 : State} (s : State) (h : Keeps s0 s) :
    Keeps s0 (State.arrivedGrain s) := by
  unfold State.arrivedGrain
  try dsimp only
  repeat' first
    | with_reducible assumption
    | with_reducible apply State.eachWork_keeps
    | with_reducible apply State.goOn_keeps

theorem execHostReadCompletion_keeps {s0 : State} (tag : Nat) (data : Bytes) (s : State) (h : Keeps s0 s) :
    KeepsO s0 (execHostReadCompletion tag data s) := by
  unfold execHostReadCompletion
  repeat' first
    | with_reducible assumption
    | with_reducible apply State.readCompletion_keeps
    | with_reducible apply KeepsO.next

theorem State.readFault_keeps {s0 : State} (s : State) (w : Work) (h : Keeps s0 s) :
    Keeps s0 (State.readFault s w) := by
  unfold State.readFault
  repeat' first
    | with_reducible assumption
    | with_reducible apply State.endReplay_keeps
    | with_reducible apply State.finish_keeps
    | with_reducible apply State.refuseCollect_keeps
    | with_reducible apply State.streamOut_keeps
    | with_reducible apply State.finishOpen_keeps
    | with_reducible apply Keeps.ite
    | split

theorem State.readAccess_keeps {s0 : State} (s : State) (w : Work) (h : Keeps s0 s) :
    Keeps s0 (State.readAccess s w) := by
  unfold State.readAccess
  repeat' first
    | with_reducible assumption
    | with_reducible apply State.endReplay_keeps
    | with_reducible apply State.finish_keeps
    | with_reducible apply State.refuseCollect_keeps
    | with_reducible apply State.streamAccess_keeps
    | with_reducible apply State.refuseOpen_keeps
    | with_reducible apply Keeps.ite
    | split

theorem State.workRetry_keeps {s0 : State} (s : State) (r : Read) (h : Keeps s0 s) :
    Keeps s0 (State.workRetry s r) := by
  unfold State.workRetry
  try dsimp only
  repeat' first
    | with_reducible assumption
    | with_reducible apply State.dropRead_keeps
    | with_reducible apply State.modRead_keeps
    | with_reducible apply State.readAccess_keeps
    | with_reducible apply State.readFault_keeps
    | with_reducible apply State.rereadNow_keeps
    | with_reducible apply Keeps.ite
    | split

theorem State.readRetry_keeps {s0 : State} (s : State) (tag : Nat) (h : Keeps s0 s) :
    Keeps s0 (State.readRetry s tag) := by
  unfold State.readRetry
  repeat' first
    | with_reducible assumption
    | with_reducible apply State.dropRead_keeps
    | with_reducible apply State.workRetry_keeps
    | with_reducible apply State.loadFail_keeps
    | with_reducible apply State.rebuildFailed_keeps
    | with_reducible apply Keeps.ite
    | split

theorem execHostReadRetry_keeps {s0 : State} (tag : Nat) (s : State) (h : Keeps s0 s) :
    KeepsO s0 (execHostReadRetry tag s) := by
  unfold execHostReadRetry
  repeat' first
    | with_reducible assumption
    | with_reducible apply State.readRetry_keeps
    | with_reducible apply KeepsO.next

end Sys2Proof.Machine
end

