-- ==== Sys2Proof/Laws/KeepsPower.lean ====
section
/-! SUPPORT. The operations of Machine/Power.lean keep what `Keeps` says. -/

namespace Sys2Proof.Machine
open Sys2Proof

set_option Elab.async false

theorem State.beginFlush_keeps {s0 : State} (s : State) (h : Keeps s0 s) : Keeps s0 (State.beginFlush s) := by
  unfold State.beginFlush
  extract_lets gone t u cl
  have ht : Keeps s0 t := State.dropWorkIf_keeps _ _ (State.dropEntries_keeps _ _ h)
  have hu : Keeps s0 u := ht.upd (h14 := fun k => twf_tmap _ k.1)
  exact hu.upd

theorem State.drainGrain_keeps {s0 : State} (s : State) (h : Keeps s0 s) :
    Keeps s0 (State.drainGrain s) := by
  unfold State.drainGrain
  try dsimp only
  repeat' first
    | with_reducible assumption
    | with_reducible apply State.eachWork_keeps
    | with_reducible apply State.finishLanes_keeps
    | with_reducible apply State.primeEnter_keeps

theorem State.endDrain_keeps {s0 : State} (s : State) (h : Keeps s0 s) :
    Keeps s0 (State.endDrain s) := by
  unfold State.endDrain
  try dsimp only
  repeat' first
    | with_reducible assumption
    | with_reducible apply State.drainGrain_keeps
    | with_reducible apply Keeps.ite
    | split
    | with_reducible refine Keeps.plain ?_

theorem State.flushPages_keeps {s0 : State} (s : State) (h : Keeps s0 s) :
    Keeps s0 (State.flushPages s) := by
  unfold State.flushPages
  repeat' first
    | with_reducible assumption
    | with_reducible apply State.pageWrite_keeps
    | with_reducible apply State.commitBuffer_keeps
    | with_reducible apply Keeps.foldl
    | intro _

theorem State.storeCounters_keeps {s0 : State} (s : State) (h : Keeps s0 s) :
    Keeps s0 (State.storeCounters s) := by
  unfold State.storeCounters
  repeat' first
    | with_reducible assumption
    | with_reducible apply State.storeCounter_keeps
    | with_reducible apply Keeps.foldl

theorem State.recordUsesPage_keeps {s0 : State} (s : State) (key : Nat) (h : Keeps s0 s) :
    Keeps s0 (State.recordUsesPage s key) := by
  unfold State.recordUsesPage
  try dsimp only
  repeat' first
    | with_reducible assumption
    | with_reducible apply State.nvNow_keeps

theorem State.recordUses_keeps {s0 : State} (s : State) (h : Keeps s0 s) :
    Keeps s0 (State.recordUses s) := by
  unfold State.recordUses
  try dsimp only
  repeat' first
    | with_reducible assumption
    | with_reducible apply State.recordUsesPage_keeps
    | with_reducible apply Keeps.foldl
    | intro _

theorem State.storePage_keeps {s0 : State} (s : State) (page : Nat) (h : Keeps s0 s) :
    Keeps s0 (State.storePage s page) :=
  Keeps.foldl h fun _ _ k => Keeps.ite (State.storeCounter_keeps _ _ k) k

theorem State.flushValues_keeps {s0 : State} (s : State) (f : Flush) (h : Keeps s0 s) :
    Keeps s0 (State.flushValues s f) := by
  have ht := State.nvPut_keeps _ partSystem recEpoch (State.nvPut_keeps _ partHeads recGrain h)
  unfold State.flushValues
  generalize (s.nvPut partHeads recGrain).nvPut partSystem recEpoch = t at ht ⊢
  have hw : ∀ u : State, Twf Book.reset u.books → Twf Book.reset u.bookImages := fun u k => twf_tmap _ (twf_filter _ k)
  exact ht.upd (h16 := fun k => ⟨k.2.1, hw _ k.1⟩)

theorem State.bookImages_wf {s : State} (h : Twf Book.reset s.books) : Twf Book.reset s.bookImages :=
  twf_tmap _ (twf_filter _ h)

theorem State.flushBatch_keeps {s0 : State} (s : State) (k : Nat) (used : List Nat) (h : Keeps s0 s) :
    Keeps s0 (State.flushBatch s k used) := by
  induction k generalizing s used with
  | zero => exact h
  | succ k ih =>
    unfold State.flushBatch
    split
    · exact h
    · split
      · exact Keeps.ite h (ih _ _ (State.pageWrite_keeps _ h))
      · exact ih _ _ (State.pageWrite_keeps _ h)

theorem State.flushSave_keeps {s0 : State} (s : State) (f : Flush) (h : Keeps s0 s) : Keeps s0 (State.flushSave s f) := by
  unfold State.flushSave
  refine Keeps.ite (State.flushBatch_keeps _ _ _ (State.commitBuffer_keeps _ h)) (Keeps.ite ?_ (Keeps.ite ?_ ?_))
  · exact Keeps.foldl h fun _ _ k => State.storePage_keeps _ _ k
  · exact Keeps.foldl h fun _ _ k => State.recordUsesPage_keeps _ _ k
  · exact State.flushValues_keeps _ _ h

theorem State.powerDown_keeps {s0 : State} (s : State) (h : Keeps s0 s) : Keeps s0 (State.powerDown s) := by
  unfold State.powerDown
  extract_lets t r blank mode k n u unload
  have ht : Keeps s0 t := State.putImages_keeps _ _ h
  exact ht.upd (h6 := fun _ => by decide) (h7 := fun _ => ⟨by decide, by decide, by decide, by decide, fun _ hu => nomatch hu⟩)
    (h8 := fun _ => Nat.zero_le _) (h9 := fun _ => Nat.zero_le _) (h10 := fun _ _ h => nomatch h) (h11 := fun _ => twf_nil _)
    (h12 := fun _ => twf_nil _) (h13 := fun _ => twf_nil _) (h14 := fun _ => twf_nil _) (h15 := fun _ => twf_nil _)

theorem State.flushCommit_keeps {s0 : State} (s : State) (f : Flush) (h : Keeps s0 s) :
    Keeps s0 (State.flushCommit s f) := by
  unfold State.flushCommit
  try dsimp only
  repeat' first
    | with_reducible assumption
    | with_reducible apply State.nvPut_keeps
    | with_reducible apply State.powerDown_keeps
    | with_reducible refine Keeps.upd ?_

theorem State.flushGrain_keeps {s0 : State} (s : State) (h : Keeps s0 s) :
    Keeps s0 (State.flushGrain s) := by
  unfold State.flushGrain
  try dsimp only
  repeat' first
    | with_reducible assumption
    | with_reducible apply State.drainGrain_keeps
    | with_reducible apply State.flushCommit_keeps
    | with_reducible apply State.flushSave_keeps
    | split

theorem State.declare_keeps {s0 : State} (s : State) (cause : Nat) (h : Keeps s0 s) :
    Keeps s0 (State.declare s cause) := by
  unfold State.declare
  try dsimp only
  repeat' first
    | with_reducible assumption
    | with_reducible apply State.beginFlush_keeps
    | with_reducible apply State.powerDown_keeps
    | with_reducible apply Keeps.ite
    | with_reducible refine Keeps.plain ?_

theorem execMainRailFail_keeps {s0 : State} (rail : Nat) (s : State) (h : Keeps s0 s) :
    KeepsO s0 (execMainRailFail rail s) := by
  unfold execMainRailFail
  try dsimp only
  repeat' first
    | with_reducible assumption
    | with_reducible apply State.declare_keeps
    | with_reducible apply KeepsO.next
    | with_reducible apply Keeps.ite
    | with_reducible refine Keeps.plain ?_

theorem execPwrFailNAssert_keeps {s0 : State} (s : State) (h : Keeps s0 s) :
    KeepsO s0 (execPwrFailNAssert s) := by
  unfold execPwrFailNAssert
  try dsimp only
  repeat' first
    | with_reducible assumption
    | with_reducible apply State.declare_keeps
    | with_reducible apply KeepsO.next
    | with_reducible refine Keeps.plain ?_

theorem execPerstNAssert_keeps {s0 : State} (s : State) (h : Keeps s0 s) :
    KeepsO s0 (execPerstNAssert s) := by
  unfold execPerstNAssert
  try dsimp only
  repeat' first
    | with_reducible assumption
    | with_reducible apply State.endDrain_keeps
    | with_reducible apply State.declare_keeps
    | with_reducible apply KeepsO.next
    | with_reducible apply Keeps.ite
    | with_reducible refine Keeps.plain ?_

theorem execDrainCutoff_keeps {s0 : State} (cause : DrainCause) (s : State) (h : Keeps s0 s) :
    KeepsO s0 (execDrainCutoff cause s) := by
  unfold execDrainCutoff
  try dsimp only
  repeat' first
    | with_reducible assumption
    | with_reducible apply State.endDrain_keeps
    | with_reducible apply KeepsO.next
    | with_reducible apply Keeps.ite
    | split
    | with_reducible refine Keeps.plain ?_

theorem State.tearEntry_keeps {s0 : State} (s : State) (e : WbEntry) (k : Nat) (h : Keeps s0 s) :
    Keeps s0 (State.tearEntry s e k) := by
  unfold State.tearEntry
  split
  · exact h
  · exact Keeps.ite (Keeps.ite h (h.same (Nv.writePhys_same _ _ _))) (h.same (Nv.writePhys_same _ _ _))

theorem State.tearCounter_keeps {s0 : State} (s : State) (n : Nat) (h : Keeps s0 s) :
    Keeps s0 (State.tearCounter s n) := by
  unfold State.tearCounter
  try dsimp only
  repeat' first
    | with_reducible assumption
    | (refine Keeps.fst ?_ (by assumption))
    | with_reducible apply State.badCodeword_keeps
    | with_reducible apply Keeps.ite
    | split

theorem State.tearWrite_keeps {s0 : State} (s : State) (k : Nat) (h : Keeps s0 s) :
    Keeps s0 (State.tearWrite s k) := by
  unfold State.tearWrite
  try dsimp only
  repeat' first
    | with_reducible assumption
    | with_reducible apply State.tearCounter_keeps
    | with_reducible apply State.tearEntry_keeps
    | with_reducible apply Keeps.ite
    | split
    | intro _

theorem State.throughAll_keeps {s0 : State} (s : State) (h : Keeps s0 s) : Keeps s0 (State.throughAll s) := by
  have ht := State.recordUses_keeps _ h
  unfold State.throughAll
  generalize s.recordUses = t at ht ⊢
  exact ht.upd (h16 := fun k => ⟨State.bookImages_wf k.1, k.2.2⟩)

theorem execKeepDomainStop_keeps {s0 : State} (written : Option Nat) (s : State) (h : Keeps s0 s) :
    KeepsO s0 (execKeepDomainStop written s) := by
  unfold execKeepDomainStop
  try dsimp only
  repeat' first
    | with_reducible refine KeepsO.next ?_
    | with_reducible apply KeepsO.ite
    | with_reducible assumption
    | with_reducible apply State.powerDown_keeps
    | with_reducible apply State.tearWrite_keeps
    | with_reducible apply State.throughAll_keeps
    | with_reducible apply Keeps.ite
    | split
    | with_reducible refine Keeps.plain ?_

theorem State.enterThrough_keeps {s0 : State} (s : State) (h : Keeps s0 s) :
    Keeps s0 (State.enterThrough s) := by
  unfold State.enterThrough
  try dsimp only
  repeat' first
    | with_reducible assumption
    | with_reducible apply State.nvPut_keeps
    | with_reducible apply State.throughAll_keeps
    | with_reducible apply State.storeCounters_keeps
    | with_reducible apply State.flushPages_keeps
    | with_reducible refine Keeps.upd ?_

theorem execHoldWeak_keeps {s0 : State} (holdMv : Nat) (s : State) (h : Keeps s0 s) :
    KeepsO s0 (execHoldWeak holdMv s) := by
  unfold execHoldWeak
  try dsimp only
  repeat' first
    | with_reducible assumption
    | with_reducible apply State.enterThrough_keeps
    | with_reducible apply KeepsO.next
    | with_reducible apply Keeps.ite
    | with_reducible refine Keeps.plain ?_

theorem execWriteThroughExit_keeps {s0 : State} (s : State) (h : Keeps s0 s) :
    KeepsO s0 (execWriteThroughExit s) := by
  unfold execWriteThroughExit
  try dsimp only
  repeat' first
    | with_reducible assumption
    | with_reducible apply State.nvPut_keeps
    | with_reducible apply State.throughAll_keeps
    | with_reducible apply KeepsO.next
    | with_reducible apply Keeps.ite
    | with_reducible refine Keeps.plain ?_
    | with_reducible refine Keeps.upd ?_

theorem State.grainRecord_keeps {s0 : State} (s : State) (h : Keeps s0 s) :
    Keeps s0 (State.grainRecord s) := by
  unfold State.grainRecord
  try dsimp only
  repeat' first
    | with_reducible assumption
    | with_reducible apply State.nvPut_keeps
    | with_reducible apply Keeps.ite
    | split
    | with_reducible refine Keeps.upd ?_

theorem execGrainRecord_keeps {s0 : State} (s : State) (h : Keeps s0 s) :
    KeepsO s0 (execGrainRecord s) := by
  unfold execGrainRecord
  try dsimp only
  repeat' first
    | with_reducible refine KeepsO.next ?_
    | with_reducible apply KeepsO.ite
    | with_reducible assumption
    | with_reducible apply State.grainRecord_keeps

theorem State.startTasks_keeps {s0 : State} (s : State) (h : Keeps s0 s) :
    Keeps s0 (State.startTasks s) := by
  unfold State.startTasks
  repeat' first
    | with_reducible assumption
    | with_reducible apply State.setDeadline_keeps
    | with_reducible apply Keeps.foldl
    | intro _

theorem State.finishErasure_keeps {s0 : State} (s : State) (h : Keeps s0 s) :
    Keeps s0 (State.finishErasure s) := by
  unfold State.finishErasure
  try dsimp only
  repeat' first
    | with_reducible assumption
    | with_reducible apply State.destroyKeys_keeps
    | with_reducible apply State.recordLife_keeps
    | with_reducible apply Keeps.ite
    | with_reducible refine Keeps.upd ?_

theorem Nv.books_wf {n : Nv} (h : Twf Book.reset n.bookRecs ∧ Twf Book.reset n.saved) : Twf Book.reset n.books := by
  unfold Nv.books
  dsimp only
  refine twf_tmap _ (twf_filter _ ?_)
  split
  · exact h.1
  · exact h.2

theorem State.restore_keeps {s0 : State} (s : State) (h : Keeps s0 s) : Keeps s0 (State.restore s) := by
  unfold State.restore
  extract_lets n lost k slots t
  have hn : Keeps s0 { s with nv := n } := h.same (Nv.foldl_same _ (fun _ _ => Nv.freePage_same _ _) _ _)
  refine State.nvPut_keeps _ _ _ (State.nvPut_keeps _ _ _ (State.lockReset_keeps _ ?_))
  exact hn.upd (h14 := fun k => Nv.books_wf k.2) (h16 := fun k => ⟨Nv.books_wf k.2, twf_nil _⟩)

theorem State.startUnits_keeps {s0 : State} (s : State) (h : Keeps s0 s) :
    Keeps s0 (State.startUnits s) := by
  unfold State.startUnits
  try dsimp only
  repeat' first
    | with_reducible assumption
    | with_reducible apply State.startTasks_keeps
    | with_reducible apply State.enterThrough_keeps
    | with_reducible apply Keeps.ite
    | with_reducible refine Keeps.upd ?_

theorem State.actHeld_keeps {s0 : State} (s : State) (h : Keeps s0 s) : Keeps s0 (State.actHeld s) := by
  have ht : Keeps s0 { s with tamper := { s.tamper with held := [], flushEvent := none } } := h.upd
  unfold State.actHeld
  dsimp only
  split
  · exact ht
  · split
    · next ha =>
      refine State.changeState_keeps _ _ _ _ _ _ ht (State.severeActs_ne ha) ?_
      split <;> decide
    · exact ht

theorem State.batteryStart_keeps {s0 : State} (s : State) (vbatLost : Bool) (h : Keeps s0 s) :
    Keeps s0 (State.batteryStart s vbatLost) := by
  unfold State.batteryStart
  try dsimp only
  repeat' first
    | with_reducible assumption
    | with_reducible apply State.severe_keeps
    | with_reducible apply Keeps.ite
    | with_reducible refine Keeps.upd ?_

theorem State.lostFlush_keeps {s0 : State} (s : State) (h : Keeps s0 s) :
    Keeps s0 (State.lostFlush s) := by
  unfold State.lostFlush
  try dsimp only
  repeat' first
    | with_reducible assumption
    | with_reducible apply State.severe_keeps
    | with_reducible apply State.tlogTamper_keeps
    | with_reducible apply Keeps.ite

theorem State.powerUp_keeps {s0 : State} (s : State) (holdMv : Nat) (h : Keeps s0 s) :
    Keeps s0 (State.powerUp s holdMv) := by
  unfold State.powerUp
  try dsimp only
  repeat' first
    | with_reducible assumption
    | with_reducible refine Keeps.plain ?_

theorem State.stepFour_keeps {s0 : State} (s : State) (vbatLost : Bool) (h : Keeps s0 s) :
    Keeps s0 (State.stepFour s vbatLost) := by
  unfold State.stepFour
  try dsimp only
  repeat' first
    | with_reducible assumption
    | with_reducible apply State.restore_keeps
    | with_reducible apply State.finishErasure_keeps
    | with_reducible apply State.actHeld_keeps
    | with_reducible apply State.startUnits_keeps
    | with_reducible apply State.lostFlush_keeps
    | with_reducible apply State.batteryStart_keeps
    | with_reducible refine Keeps.plain ?_

theorem State.startSpent_keeps {s0 : State} (s : State) (h : Keeps s0 s) :
    Keeps s0 (State.startSpent s) := by
  unfold State.startSpent
  try dsimp only
  repeat' first
    | with_reducible assumption
    | with_reducible apply State.finishErasure_keeps
    | with_reducible refine Keeps.upd ?_

theorem State.startHalted_keeps {s0 : State} (s : State) (h : Keeps s0 s) (hs : s.tamper.state ≠ .spent) :
    Keeps s0 (State.startHalted s) := by
  have ht : Keeps s0 { s with
      tamper := { s.tamper with held := [] }, pwr := { s.pwr with step := 2 }, cl := { s.cl with mode := .off } } := h.upd
  unfold State.startHalted
  dsimp only
  split
  · exact ht
  · exact State.changeState_keeps _ _ _ _ _ _ ht hs (by decide)

theorem State.startUp_keeps {s0 : State} (s : State) (array : Bytes) (holdMv : Nat) (vbatLost : Bool) (h : Keeps s0 s) :
    Keeps s0 (State.startUp s array holdMv vbatLost) := by
  have ht := State.powerUp_keeps _ holdMv (State.flushPages_keeps _ h)
  unfold State.startUp
  generalize s.flushPages.powerUp holdMv = t at ht ⊢
  refine Keeps.ite h ?_
  dsimp only
  split
  · exact State.startSpent_keeps _ ht
  · next hs =>
    refine Keeps.ite (State.startHalted_keeps _ ht.plain ?_) (State.stepFour_keeps _ _ ht.plain)
    simpa using hs

theorem execStartUp_keeps {s0 : State} (array : Bytes) (holdMv : Nat) (vbatLost : Bool) (s : State) (h : Keeps s0 s) :
    KeepsO s0 (execStartUp array holdMv vbatLost s) := by
  unfold execStartUp
  repeat' first
    | with_reducible assumption
    | with_reducible apply State.startUp_keeps
    | with_reducible apply KeepsO.next

theorem State.stepDone_keeps {s0 : State} (s : State) (n : Nat) (h : Keeps s0 s) :
    Keeps s0 (State.stepDone s n) := by
  unfold State.stepDone
  try dsimp only
  repeat' first
    | with_reducible assumption
    | with_reducible refine Keeps.plain ?_

theorem execLinkTrainingStart_keeps {s0 : State} (s : State) (h : Keeps s0 s) :
    KeepsO s0 (execLinkTrainingStart s) := by
  unfold execLinkTrainingStart
  try dsimp only
  repeat' first
    | with_reducible assumption
    | with_reducible apply KeepsO.next
    | with_reducible apply Keeps.ite
    | with_reducible refine Keeps.plain ?_

theorem execLinkUp_keeps {s0 : State} (s : State) (h : Keeps s0 s) :
    KeepsO s0 (execLinkUp s) := by
  unfold execLinkUp
  try dsimp only
  repeat' first
    | with_reducible assumption
    | with_reducible apply State.stepDone_keeps
    | with_reducible apply KeepsO.next
    | with_reducible apply Keeps.ite
    | with_reducible refine Keeps.plain ?_

theorem execConfigurationReady_keeps {s0 : State} (s : State) (h : Keeps s0 s) :
    KeepsO s0 (execConfigurationReady s) := by
  unfold execConfigurationReady
  repeat' first
    | with_reducible assumption
    | with_reducible apply State.stepDone_keeps
    | with_reducible apply KeepsO.next
    | with_reducible apply Keeps.ite

theorem State.sweepSlot_keeps {s0 : State} (s : State) (target index : Nat) (r : Bytes) (h : Keeps s0 s) :
    Keeps s0 (State.sweepSlot s target index r) := by
  unfold State.sweepSlot
  try dsimp only
  repeat' first
    | with_reducible assumption
    | with_reducible apply State.badSlot_keeps
    | with_reducible apply State.setSlot_keeps
    | with_reducible apply Keeps.ite
    | split

theorem State.sweepItem_keeps {s0 : State} (s : State) (target index : Nat) (r : Bytes) (h : Keeps s0 s) :
    Keeps s0 (State.sweepItem s target index r) := by
  unfold State.sweepItem
  try dsimp only
  repeat' first
    | with_reducible assumption
    | with_reducible apply State.deriveBook_keeps
    | with_reducible apply State.sweepSlot_keeps
    | with_reducible apply Keeps.ite
    | split

theorem State.sweepAll_keeps {s0 : State} (mask : Nat → Nat → Nat → Bytes) (l : List (Nat × Nat)) (o : Nat) (s : State)
    (h : Keeps s0 s) : Keeps s0 (State.sweepAll mask l o s) := by
  induction l generalizing o s with
  | nil => exact h
  | cons x l ih => exact ih _ _ (State.sweepItem_keeps _ _ _ _ h)

theorem State.sweep_keeps {s0 : State} (s : State) (mask : Nat → Nat → Nat → Bytes) (h : Keeps s0 s) :
    Keeps s0 (State.sweep s mask) :=
  State.stepDone_keeps _ _ (State.dropRandom_keeps _ _ (State.sweepAll_keeps _ _ _ _ h)).plain

theorem execKeySweep_keeps {s0 : State} (s : State) (h : Keeps s0 s) :
    KeepsO s0 (execKeySweep s) := by
  unfold execKeySweep
  try dsimp only
  repeat' first
    | with_reducible refine KeepsO.next ?_
    | with_reducible apply KeepsO.ite
    | with_reducible assumption
    | with_reducible apply State.askRandom_keeps
    | with_reducible apply State.sweep_keeps
    | with_reducible apply Keeps.ite
    | split
    | intro _

theorem execKeySweepFallbackMask_keeps {s0 : State} (s : State) (h : Keeps s0 s) :
    KeepsO s0 (execKeySweepFallbackMask s) := by
  unfold execKeySweepFallbackMask
  try dsimp only
  repeat' first
    | with_reducible refine KeepsO.next ?_
    | with_reducible apply KeepsO.ite
    | with_reducible assumption
    | with_reducible apply State.drawn_keeps
    | with_reducible apply State.plogEvent_keeps
    | with_reducible apply State.sweep_keeps
    | with_reducible apply Keeps.ite
    | split
    | with_reducible refine Keeps.plain ?_
    | intro _

theorem execRingsServiceable_keeps {s0 : State} (s : State) (h : Keeps s0 s) :
    KeepsO s0 (execRingsServiceable s) := by
  unfold execRingsServiceable
  try dsimp only
  repeat' first
    | with_reducible assumption
    | with_reducible apply State.drawn_keeps
    | with_reducible apply KeepsO.next
    | with_reducible apply Keeps.ite
    | with_reducible refine Keeps.plain ?_

theorem State.resetRegs_keeps {s0 : State} (s : State) (cause : Nat) (h : Keeps s0 s) :
    Keeps s0 (State.resetRegs s cause) :=
  h.upd (h6 := fun _ => by simp)

theorem State.nextEpoch_keeps {s0 : State} (s : State) (h : Keeps s0 s) :
    Keeps s0 (State.nextEpoch s) := by
  unfold State.nextEpoch
  try dsimp only
  split
  all_goals
    repeat' first
      | with_reducible assumption
      | with_reducible apply State.nvPut_keeps
      | with_reducible refine Keeps.plain ?_

theorem State.hostReset_keeps {s0 : State} (s : State) (cause : Nat) (h : Keeps s0 s) :
    Keeps s0 (State.hostReset s cause) := by
  unfold State.hostReset
  try dsimp only
  repeat' first
    | with_reducible assumption
    | with_reducible apply State.endDrain_keeps
    | with_reducible apply State.drainAll_keeps
    | with_reducible apply State.startReset_keeps
    | with_reducible apply State.nextEpoch_keeps
    | with_reducible apply State.lockReset_keeps
    | with_reducible apply State.rngReset_keeps
    | with_reducible apply State.resetRegs_keeps
    | with_reducible apply Keeps.ite
    | with_reducible apply Keeps.foldl
    | with_reducible refine Keeps.plain ?_
    | intro _

theorem execFunctionLevelReset_keeps {s0 : State} (s : State) (h : Keeps s0 s) :
    KeepsO s0 (execFunctionLevelReset s) := by
  unfold execFunctionLevelReset
  repeat' first
    | with_reducible assumption
    | with_reducible apply State.hostReset_keeps
    | with_reducible apply KeepsO.next

theorem execHotReset_keeps {s0 : State} (s : State) (h : Keeps s0 s) :
    KeepsO s0 (execHotReset s) := by
  unfold execHotReset
  repeat' first
    | with_reducible assumption
    | with_reducible apply State.hostReset_keeps
    | with_reducible apply KeepsO.next

theorem execLinkDownReset_keeps {s0 : State} (s : State) (h : Keeps s0 s) :
    KeepsO s0 (execLinkDownReset s) := by
  unfold execLinkDownReset
  repeat' first
    | with_reducible assumption
    | with_reducible apply State.hostReset_keeps
    | with_reducible apply KeepsO.next

theorem execFunctionLevelResetComplete_keeps {s0 : State} (s : State) (h : Keeps s0 s) :
    KeepsO s0 (execFunctionLevelResetComplete s) := by
  unfold execFunctionLevelResetComplete
  try dsimp only
  repeat' first
    | with_reducible assumption
    | with_reducible apply KeepsO.next
    | with_reducible refine Keeps.plain ?_

end Sys2Proof.Machine
end

