-- ==== Sys2Proof/Laws/KeepsWindows.lean ====
section
/-! SUPPORT. The operations of Machine/Windows.lean keep what `Keeps` says. -/

namespace Sys2Proof.Machine
open Sys2Proof

set_option Elab.async false

theorem State.barrierErr_keeps {s0 : State} (s : State) (slice : Nat) (err : Nat) (h : Keeps s0 s) :
    Keeps s0 (State.barrierErr s slice err) := by
  unfold State.barrierErr
  repeat' first
    | with_reducible assumption
    | with_reducible apply State.plogReg_keeps
    | with_reducible apply State.modSlice_keeps

theorem State.barrier_keeps {s0 : State} (s : State) (slice : Nat) (h : Keeps s0 s) :
    Keeps s0 (State.barrier s slice) := by
  unfold State.barrier
  try dsimp only
  repeat' first
    | with_reducible assumption
    | with_reducible apply State.barrierErr_keeps
    | with_reducible apply State.setSlice_keeps
    | with_reducible apply Keeps.ite

theorem State.barrierWrite_keeps {s0 : State} (s : State) (value : Nat) (h : Keeps s0 s) :
    Keeps s0 (State.barrierWrite s value) := by
  unfold State.barrierWrite
  try dsimp only
  repeat' first
    | with_reducible assumption
    | with_reducible apply State.barrier_keeps
    | with_reducible apply State.barrierErr_keeps
    | with_reducible apply State.defer_keeps
    | with_reducible apply State.modSlice_keeps
    | with_reducible apply Keeps.ite
    | split
    | with_reducible refine Keeps.plain ?_

theorem execWindowBarrier_keeps {s0 : State} (value : Nat) (s : State) (h : Keeps s0 s) :
    KeepsO s0 (execWindowBarrier value s) := by
  unfold execWindowBarrier
  repeat' first
    | with_reducible assumption
    | with_reducible apply State.onReg_keeps
    | with_reducible apply State.barrierWrite_keeps
    | with_reducible apply KeepsO.next
    | intro _

theorem State.barrierEnd_keeps {s0 : State} (s : State) (slice : Nat) (h : Keeps s0 s) :
    Keeps s0 (State.barrierEnd s slice) := by
  unfold State.barrierEnd
  repeat' first
    | with_reducible assumption
    | with_reducible apply State.modSlice_keeps
    | with_reducible apply Keeps.ite

theorem execWindowBarrierEnd_keeps {s0 : State} (slice : Nat) (s : State) (h : Keeps s0 s) :
    KeepsO s0 (execWindowBarrierEnd slice s) := by
  unfold execWindowBarrierEnd
  repeat' first
    | with_reducible assumption
    | with_reducible apply State.barrierEnd_keeps
    | with_reducible apply KeepsO.next

theorem State.modStaged_keeps {s0 : State} (s : State) (f : Window → Window) (h : Keeps s0 s) :
    Keeps s0 (State.modStaged s f) := by
  unfold State.modStaged
  repeat' first
    | with_reducible assumption
    | with_reducible apply State.modSlice_keeps

theorem State.mpuErr_keeps {s0 : State} (s : State) (m : Nat) (err : Nat) (offset : Nat) (h : Keeps s0 s) :
    Keeps s0 (State.mpuErr s m err offset) := by
  unfold State.mpuErr
  try dsimp only
  repeat' first
    | with_reducible assumption
    | with_reducible apply State.modMpu_keeps
    | with_reducible apply State.plogReg_keeps
    | with_reducible apply Keeps.ite

theorem State.mpuOff_keeps {s0 : State} (s : State) (m : Nat) (h : Keeps s0 s) :
    Keeps s0 (State.mpuOff s m) := by
  unfold State.mpuOff
  try dsimp only
  repeat' first
    | with_reducible assumption
    | with_reducible apply State.drainAll_keeps
    | with_reducible apply State.mpuErr_keeps
    | with_reducible apply State.modMpu_keeps
    | with_reducible apply Keeps.ite

theorem State.mpuEn_keeps {s0 : State} (s : State) (m : Nat) (en : Bool) (h : Keeps s0 s) :
    Keeps s0 (State.mpuEn s m en) := by
  unfold State.mpuEn
  try dsimp only
  repeat' first
    | with_reducible assumption
    | with_reducible apply State.mpuErr_keeps
    | with_reducible apply State.mpuOff_keeps
    | with_reducible apply State.setMpu_keeps
    | with_reducible apply Keeps.ite
    | split

theorem State.mpuCtl_keeps {s0 : State} (s : State) (value : Nat) (h : Keeps s0 s) :
    Keeps s0 (State.mpuCtl s value) := by
  unfold State.mpuCtl
  try dsimp only
  repeat' first
    | with_reducible assumption
    | with_reducible apply State.defer_keeps
    | with_reducible apply State.modMpu_keeps
    | with_reducible apply State.mpuErr_keeps
    | with_reducible apply Keeps.ite

theorem execMpuDisable_keeps {s0 : State} (value : Nat) (s : State) (h : Keeps s0 s) :
    KeepsO s0 (execMpuDisable value s) := by
  unfold execMpuDisable
  repeat' first
    | with_reducible assumption
    | with_reducible apply State.onReg_keeps
    | with_reducible apply State.mpuCtl_keeps
    | with_reducible apply KeepsO.next
    | with_reducible apply Keeps.ite
    | intro _

theorem execMpuEnable_keeps {s0 : State} (value : Nat) (s : State) (h : Keeps s0 s) :
    KeepsO s0 (execMpuEnable value s) := by
  unfold execMpuEnable
  repeat' first
    | with_reducible assumption
    | with_reducible apply State.onReg_keeps
    | with_reducible apply State.mpuCtl_keeps
    | with_reducible apply KeepsO.next
    | with_reducible apply Keeps.ite
    | intro _

theorem State.mpuRegion_keeps {s0 : State} (s : State) (r : MpuReg) (value : Nat) (h : Keeps s0 s) :
    Keeps s0 (State.mpuRegion s r value) := by
  unfold State.mpuRegion
  try dsimp only
  repeat' first
    | with_reducible assumption
    | with_reducible apply State.mpuErr_keeps
    | with_reducible apply State.modMpu_keeps
    | with_reducible apply Keeps.ite

theorem execMpuRegionWrite_keeps {s0 : State} (reg : MpuReg) (value : Nat) (s : State) (h : Keeps s0 s) :
    KeepsO s0 (execMpuRegionWrite reg value s) := by
  unfold execMpuRegionWrite
  repeat' first
    | with_reducible assumption
    | with_reducible apply State.onReg_keeps
    | with_reducible apply State.mpuRegion_keeps
    | with_reducible apply KeepsO.next
    | intro _

theorem execMpuWriteBufferDrain_keeps {s0 : State} (mpu : Nat) (s : State) (h : Keeps s0 s) :
    KeepsO s0 (execMpuWriteBufferDrain mpu s) := by
  unfold execMpuWriteBufferDrain
  repeat' first
    | with_reducible assumption
    | with_reducible apply State.drainOne_keeps
    | with_reducible apply KeepsO.next
    | with_reducible apply Keeps.ite

theorem State.mpuCapFree_keeps {s0 : State} (s : State) (value : Nat) (h : Keeps s0 s) :
    Keeps s0 (State.mpuCapFree s value) := by
  unfold State.mpuCapFree
  try dsimp only
  repeat' first
    | with_reducible assumption
    | with_reducible apply State.modMpu_keeps
    | with_reducible apply State.mpuErr_keeps
    | with_reducible apply Keeps.ite

end Sys2Proof.Machine
end

