-- ==== Sys2Proof/Laws/KeepsSettle.lean ====
section
/-! SUPPORT. The operations of Machine/Settle.lean keep what `Keeps` says. -/

namespace Sys2Proof.Machine
open Sys2Proof

set_option Elab.async false

theorem State.settleOne_keeps {s0 : State} (s : State) (d : Deferred) (h : Keeps s0 s) :
    Keeps s0 (State.settleOne s d) := by
  unfold State.settleOne
  split
  · exact State.sliceCtl_keeps _ _ _ h
  · exact State.quotaWrite_keeps _ _ _ _ h
  · exact State.modSlice_keeps _ _ _ h
  · exact State.unfence_keeps _ _ h
  · exact State.modSq_keeps _ _ _ h
  · exact State.modSq_keeps _ _ _ h
  · exact State.barrier_keeps _ _ h
  · exact State.mpuEn_keeps _ _ _ h
  · exact State.modBook_keeps _ _ _ h
  · exact State.ownerWrite_keeps _ _ _ h
  · exact State.partSlice_keeps _ _ _ h
  · exact State.install_keeps _ _ h

theorem State.settle_keeps {s0 : State} (s : State) (h : Keeps s0 s) : Keeps s0 (State.settle s) :=
  Keeps.foldl h.plain fun t d k => State.settleOne_keeps t d k

end Sys2Proof.Machine
end

