-- ==== Sys2Proof/Laws/KeepsGrain.lean ====
section
/-! SUPPORT. The operations of Machine/Grain.lean keep what `Keeps` says. -/

namespace Sys2Proof.Machine
open Sys2Proof

set_option Elab.async false

theorem State.serveUnit_keeps {s0 : State} (s : State) (u : UnitId) (h : Keeps s0 s) :
    Keeps s0 (State.serveUnit s u) := by
  unfold State.serveUnit
  try dsimp only
  repeat' first
    | with_reducible assumption
    | split
    | with_reducible refine Keeps.plain ?_

theorem State.calendar_keeps {s0 : State} (s : State) (h : Keeps s0 s) :
    Keeps s0 (State.calendar s) := by
  unfold State.calendar
  try dsimp only
  repeat' first
    | with_reducible assumption
    | with_reducible apply State.serveUnit_keeps
    | with_reducible apply Keeps.foldl
    | with_reducible refine Keeps.plain ?_

theorem State.scrubCore_keeps {s0 : State} (s : State) (core : Nat) (h : Keeps s0 s) :
    Keeps s0 (State.scrubCore s core) := by
  unfold State.scrubCore
  try dsimp only
  repeat' first
    | with_reducible assumption
    | with_reducible apply State.trapEnd_keeps
    | split

theorem Core.charge_wf {c : Core} (h : c.Wf) (n : Nat) : (c.charge n).Wf := by
  unfold Core.charge
  split
  · exact h.keep rfl rfl rfl rfl rfl rfl rfl
  · exact h

theorem Core.enter_wf {c : Core} (h : c.Wf) (n : Nat) : (c.enter n).Wf := by
  unfold Core.enter
  split <;> first | exact h | exact h.keep rfl rfl rfl rfl rfl rfl rfl

theorem State.coreBoundary_keeps {s0 : State} (s : State) (ended core : Nat) (h : Keeps s0 s) :
    Keeps s0 (State.coreBoundary s ended core) := by
  unfold State.coreBoundary
  extract_lets c0 c1 s1 slot en d first s2 ap s3
  split
  · exact h
  · next v _ =>
    have w1 : CoresWf s.applets.cores → c1.Wf := fun k => by
      have w0 : c0.Wf := State.coreAt_wf k core
      show (if _ then _ else _ : Core).Wf
      split
      · exact w0.keep rfl rfl rfl rfl rfl rfl rfl
      · exact w0
    have h1 : Keeps s0 s1 := State.setCore_keeps _ _ _ h w1
    have w2 : CoresWf s1.applets.cores → d.Wf := fun k => by
      have e : s1.coreAt core = c1 := tget_tput_same _ _ _ _
      exact (Core.enter_wf (Core.charge_wf (e ▸ State.coreAt_wf k core) _) _).keep rfl rfl rfl rfl rfl rfl rfl
    have h2 : Keeps s0 s2 := State.setCore_keeps _ _ _ h1 w2
    have h3 : Keeps s0 s3 := Keeps.ite h2.upd h2
    exact Keeps.ite (State.dropInvocation_keeps _ _ _ h1) (Keeps.ite (State.deliverTrap_keeps _ _ h1)
      (Keeps.ite (State.scrubCore_keeps _ _ h3) h3))

theorem State.coresGrain_keeps {s0 : State} (s : State) (ended : Nat) (h : Keeps s0 s) :
    Keeps s0 (State.coresGrain s ended) := by
  unfold State.coresGrain
  repeat' first
    | with_reducible assumption
    | with_reducible apply State.coreBoundary_keeps
    | with_reducible apply Keeps.foldl
    | intro _

theorem State.budgets_keeps {s0 : State} (s : State) (h : Keeps s0 s) :
    Keeps s0 (State.budgets s) := by
  unfold State.budgets
  try dsimp only
  repeat' first
    | with_reducible assumption
    | with_reducible refine Keeps.plain ?_

theorem State.rebuildGrain_keeps {s0 : State} (s : State) (h : Keeps s0 s) :
    Keeps s0 (State.rebuildGrain s) := by
  unfold State.rebuildGrain
  repeat' first
    | with_reducible assumption
    | with_reducible apply State.rebuildRun_keeps
    | with_reducible apply Keeps.foldl
    | intro _

theorem State.shedBlock_keeps {s0 : State} (s : State) (h : Keeps s0 s) :
    Keeps s0 (State.shedBlock s) := by
  unfold State.shedBlock
  refine Keeps.ite ?_ h
  extract_lets r
  have hr : Keeps s0 r.1 := Keeps.foldlOn Prod.fst h fun b e k => by
    split
    · exact k
    · exact State.evict_keeps _ _ k
  exact Keeps.ite (State.takeStep_keeps _ _ hr) hr

theorem State.remaskIdle_keeps {s0 : State} (s : State) (h : Keeps s0 s) :
    Keeps s0 (State.remaskIdle s) := by
  unfold State.remaskIdle
  repeat' first
    | with_reducible assumption
    | with_reducible apply State.remaskEnd_keeps
    | with_reducible apply Keeps.ite

theorem State.grainEnds_keeps {s0 : State} (s : State) (ended : Nat) (h : Keeps s0 s) :
    Keeps s0 (State.grainEnds s ended) := by
  unfold State.grainEnds
  try dsimp only
  repeat' first
    | with_reducible assumption
    | with_reducible apply State.brineGrain_keeps
    | with_reducible apply State.budgets_keeps
    | with_reducible apply State.calendar_keeps
    | with_reducible apply State.coresGrain_keeps
    | with_reducible apply State.flagFences_keeps
    | with_reducible apply State.rngGrain_keeps
    | with_reducible apply State.settle_keeps

theorem State.unitSteps_keeps {s0 : State} (s : State) (h : Keeps s0 s) :
    Keeps s0 (State.unitSteps s) := by
  unfold State.unitSteps
  try dsimp only
  repeat' first
    | with_reducible assumption
    | with_reducible apply State.arrivedGrain_keeps
    | with_reducible apply State.bnGrain_keeps
    | with_reducible apply State.ckptGrain_keeps
    | with_reducible apply State.collectGrain_keeps
    | with_reducible apply State.dplGrain_keeps
    | with_reducible apply State.genGrain_keeps
    | with_reducible apply State.handoverGrain_keeps
    | with_reducible apply State.rebuildGrain_keeps
    | with_reducible apply State.recoveryGrain_keeps
    | with_reducible apply State.remaskIdle_keeps
    | with_reducible apply State.shedBlock_keeps
    | with_reducible apply State.streamGrain_keeps
    | with_reducible apply State.tagGrain_keeps
    | with_reducible apply State.trim_keeps

theorem State.coverLate_keeps {s0 : State} (s : State) (h : Keeps s0 s) :
    Keeps s0 (State.coverLate s) := by
  unfold State.coverLate
  try dsimp only
  repeat' first
    | with_reducible assumption
    | with_reducible apply State.coverPrimes_keeps
    | with_reducible apply Keeps.ite

theorem State.countGrain_keeps {s0 : State} (s : State) (h : Keeps s0 s) :
    Keeps s0 (State.countGrain s) := by
  unfold State.countGrain
  try dsimp only
  repeat' first
    | with_reducible assumption
    | with_reducible apply State.grain_keeps
    | with_reducible apply Keeps.ite
    | split
    | with_reducible refine Keeps.plain ?_

theorem State.grain_keeps {s0 : State} (s : State) (h : Keeps s0 s) :
    Keeps s0 (State.grain s) := by
  unfold State.grain
  try dsimp only
  repeat' first
    | with_reducible assumption
    | with_reducible apply State.countGrain_keeps
    | with_reducible apply State.coverLate_keeps
    | with_reducible apply State.flushGrain_keeps
    | with_reducible apply State.grainEnds_keeps
    | with_reducible apply State.grainRecord_keeps
    | with_reducible apply State.unitSteps_keeps
    | with_reducible apply Keeps.ite
    | split
    | with_reducible refine Keeps.plain ?_

theorem execGrainBoundary_keeps {s0 : State} (wall : Option Nat) (s : State) (h : Keeps s0 s) :
    KeepsO s0 (execGrainBoundary wall s) := by
  unfold execGrainBoundary
  refine KeepsO.next ?_
  split
  · exact State.grain_keeps _ h
  · exact Keeps.ite (State.grain_keeps _ h) (State.severe_keeps _ _ _ (State.grain_keeps _ h))

theorem State.evaluateRisk_keeps {s0 : State} (s : State) (h : Keeps s0 s) :
    Keeps s0 (State.evaluateRisk s) := by
  unfold State.evaluateRisk
  try dsimp only
  repeat' first
    | with_reducible assumption
    | with_reducible refine Keeps.plain ?_

theorem State.scrupleBoundary_keeps {s0 : State} (s : State) (h : Keeps s0 s) :
    Keeps s0 (State.scrupleBoundary s) := by
  unfold State.scrupleBoundary
  try dsimp only
  repeat' first
    | with_reducible assumption
    | with_reducible apply State.bnScruple_keeps
    | with_reducible apply State.evaluateRisk_keeps
    | with_reducible apply Keeps.ite
    | with_reducible refine Keeps.upd ?_

theorem execScrupleBoundary_keeps {s0 : State} (s : State) (h : Keeps s0 s) :
    KeepsO s0 (execScrupleBoundary s) := by
  unfold execScrupleBoundary
  repeat' first
    | with_reducible assumption
    | with_reducible apply State.scrupleBoundary_keeps
    | with_reducible apply KeepsO.next

theorem State.deadlineMiss_keeps {s0 : State} (s : State) (task : Nat) (h : Keeps s0 s) :
    Keeps s0 (State.deadlineMiss s task) := by
  unfold State.deadlineMiss
  try dsimp only
  repeat' first
    | with_reducible assumption
    | with_reducible apply State.missTask_keeps
    | with_reducible apply State.setDeadline_keeps
    | with_reducible apply State.reseedOverdue_keeps
    | with_reducible apply Keeps.ite
    | split
    | with_reducible refine Keeps.plain ?_

theorem execBgDeadlineMiss_keeps {s0 : State} (task : Nat) (s : State) (h : Keeps s0 s) :
    KeepsO s0 (execBgDeadlineMiss task s) := by
  unfold execBgDeadlineMiss
  repeat' first
    | with_reducible assumption
    | with_reducible apply State.deadlineMiss_keeps
    | with_reducible apply KeepsO.next

end Sys2Proof.Machine
end

