-- ==== Sys2Proof/Laws/KeepsTelemetry.lean ====
section
/-! SUPPORT. The operations of Machine/Telemetry.lean keep what `Keeps` says. -/

namespace Sys2Proof.Machine
open Sys2Proof

set_option Elab.async false

theorem State.holdSample_keeps {s0 : State} (s : State) (mv : Nat) (h : Keeps s0 s) :
    Keeps s0 (State.holdSample s mv) := by
  unfold State.holdSample
  try dsimp only
  repeat' first
    | with_reducible assumption
    | with_reducible apply State.enterThrough_keeps
    | with_reducible apply Keeps.ite
    | with_reducible refine Keeps.plain ?_

theorem execTelemetrySample_keeps {s0 : State} (tj : List (BitVec 16)) (power holdMv : Nat) (s : State) (h :
      Keeps s0 s) :
    KeepsO s0 (execTelemetrySample tj power holdMv s) := by
  unfold execTelemetrySample
  try dsimp only
  repeat' first
    | with_reducible refine KeepsO.next ?_
    | with_reducible apply KeepsO.ite
    | with_reducible assumption
    | with_reducible apply State.drawn_keeps
    | with_reducible apply State.holdSample_keeps
    | with_reducible apply State.stepOf_keeps
    | with_reducible apply State.taskDone_keeps
    | with_reducible apply Keeps.ite
    | split
    | with_reducible refine Keeps.plain ?_
    | intro _

theorem execPeakClr_keeps {s0 : State} (s : State) (h : Keeps s0 s) :
    KeepsO s0 (execPeakClr s) := by
  unfold execPeakClr
  try dsimp only
  repeat' first
    | with_reducible assumption
    | with_reducible apply State.onReg_keeps
    | with_reducible apply KeepsO.next
    | with_reducible refine Keeps.plain ?_
    | intro _

theorem State.logAck_keeps {s0 : State} (s : State) (tamper : Bool) (seq : Nat) (h : Keeps s0 s) :
    Keeps s0 (State.logAck s tamper seq) := by
  unfold State.logAck
  try dsimp only
  repeat' first
    | with_reducible assumption
    | with_reducible refine Keeps.plain ?_

theorem execLogAckWrite_keeps {s0 : State} (tamper : Bool) (seq : Nat) (s : State) (h : Keeps s0 s) :
    KeepsO s0 (execLogAckWrite tamper seq s) := by
  unfold execLogAckWrite
  repeat' first
    | with_reducible assumption
    | with_reducible apply State.onReg_keeps
    | with_reducible apply State.logAck_keeps
    | with_reducible apply KeepsO.next
    | intro _

theorem State.sbRefuse_keeps {s0 : State} (s : State) (code : Nat) (h : Keeps s0 s) :
    Keeps s0 (State.sbRefuse s code) := by
  unfold State.sbRefuse
  repeat' first
    | with_reducible assumption
    | with_reducible apply State.emit_keeps
    | with_reducible apply State.plogEvent_keeps

theorem State.sbAnswer_keeps {s0 : State} (s : State) (code : Nat) (data : Bytes) (h : Keeps s0 s) :
    Keeps s0 (State.sbAnswer s code data) := by
  unfold State.sbAnswer
  repeat' first
    | with_reducible assumption
    | with_reducible apply State.sbRefuse_keeps
    | with_reducible apply State.emit_keeps
    | with_reducible apply Keeps.ite

theorem State.sbTemp_keeps {s0 : State} (s : State) (code : Nat) (tj : BitVec 16) (h : Keeps s0 s) :
    Keeps s0 (State.sbTemp s code tj) := by
  unfold State.sbTemp
  repeat' first
    | with_reducible assumption
    | with_reducible apply State.sbAnswer_keeps

theorem execSbIdent_keeps {s0 : State} (s : State) (h : Keeps s0 s) :
    KeepsO s0 (execSbIdent s) := by
  unfold execSbIdent
  repeat' first
    | with_reducible assumption
    | with_reducible apply State.sbAnswer_keeps
    | with_reducible apply KeepsO.next

theorem execSbDeviceId_keeps {s0 : State} (s : State) (h : Keeps s0 s) :
    KeepsO s0 (execSbDeviceId s) := by
  unfold execSbDeviceId
  repeat' first
    | with_reducible assumption
    | with_reducible apply State.sbAnswer_keeps
    | with_reducible apply KeepsO.next

theorem execSbTjMax_keeps {s0 : State} (s : State) (h : Keeps s0 s) :
    KeepsO s0 (execSbTjMax s) := by
  unfold execSbTjMax
  repeat' first
    | with_reducible assumption
    | with_reducible apply State.sbTemp_keeps
    | with_reducible apply KeepsO.next

theorem execSbTjMin_keeps {s0 : State} (s : State) (h : Keeps s0 s) :
    KeepsO s0 (execSbTjMin s) := by
  unfold execSbTjMin
  repeat' first
    | with_reducible assumption
    | with_reducible apply State.sbTemp_keeps
    | with_reducible apply KeepsO.next

theorem execSbPower_keeps {s0 : State} (s : State) (h : Keeps s0 s) :
    KeepsO s0 (execSbPower s) := by
  unfold execSbPower
  repeat' first
    | with_reducible assumption
    | with_reducible apply State.sbAnswer_keeps
    | with_reducible apply KeepsO.next

theorem execSbHold_keeps {s0 : State} (s : State) (h : Keeps s0 s) :
    KeepsO s0 (execSbHold s) := by
  unfold execSbHold
  repeat' first
    | with_reducible assumption
    | with_reducible apply State.sbAnswer_keeps
    | with_reducible apply KeepsO.next

theorem execSbLcState_keeps {s0 : State} (s : State) (h : Keeps s0 s) :
    KeepsO s0 (execSbLcState s) := by
  unfold execSbLcState
  repeat' first
    | with_reducible assumption
    | with_reducible apply State.sbAnswer_keeps
    | with_reducible apply KeepsO.next

theorem execSbTamperFlags_keeps {s0 : State} (s : State) (h : Keeps s0 s) :
    KeepsO s0 (execSbTamperFlags s) := by
  unfold execSbTamperFlags
  try dsimp only
  repeat' first
    | with_reducible assumption
    | with_reducible apply State.sbAnswer_keeps
    | with_reducible apply KeepsO.next

theorem execSbTamperCause_keeps {s0 : State} (s : State) (h : Keeps s0 s) :
    KeepsO s0 (execSbTamperCause s) := by
  unfold execSbTamperCause
  repeat' first
    | with_reducible assumption
    | with_reducible apply State.sbAnswer_keeps
    | with_reducible apply KeepsO.next

theorem execSbStatusFlags_keeps {s0 : State} (s : State) (h : Keeps s0 s) :
    KeepsO s0 (execSbStatusFlags s) := by
  unfold execSbStatusFlags
  try dsimp only
  repeat' first
    | with_reducible assumption
    | with_reducible apply State.sbAnswer_keeps
    | with_reducible apply KeepsO.next

theorem execSbHalt_keeps {s0 : State} (s : State) (h : Keeps s0 s) :
    KeepsO s0 (execSbHalt s) := by
  unfold execSbHalt
  repeat' first
    | with_reducible assumption
    | with_reducible apply State.sbAnswer_keeps
    | with_reducible apply KeepsO.next

theorem execSbSensorTj_keeps {s0 : State} (sensor : Nat) (s : State) (h : Keeps s0 s) :
    KeepsO s0 (execSbSensorTj sensor s) := by
  unfold execSbSensorTj
  repeat' first
    | with_reducible assumption
    | with_reducible apply State.sbRefuse_keeps
    | with_reducible apply State.sbTemp_keeps
    | with_reducible apply KeepsO.next
    | with_reducible apply Keeps.ite

theorem execSidebandViolation_keeps {s0 : State} (code : Nat) (s : State) (h : Keeps s0 s) :
    KeepsO s0 (execSidebandViolation code s) := by
  unfold execSidebandViolation
  repeat' first
    | with_reducible assumption
    | with_reducible apply State.sbRefuse_keeps
    | with_reducible apply KeepsO.next

theorem execSmbusClockTimeout_keeps {s0 : State} (s : State) (h : Keeps s0 s) :
    KeepsO s0 (execSmbusClockTimeout s) := by
  unfold execSmbusClockTimeout
  repeat' first
    | with_reducible assumption
    | with_reducible apply KeepsO.next

end Sys2Proof.Machine
end

