-- ==== Sys2Proof/Laws/KeepsRegisters.lean ====
section
/-! SUPPORT. The operations of Machine/Registers.lean keep what `Keeps` says. -/

namespace Sys2Proof.Machine
open Sys2Proof

set_option Elab.async false

theorem State.readClears_keeps {s0 : State} (s : State) (offset : Nat) (h : Keeps s0 s) :
    Keeps s0 (State.readClears s offset) := by
  unfold State.readClears
  try dsimp only
  repeat' first
    | with_reducible assumption
    | with_reducible apply Keeps.ite
    | split
    | with_reducible refine Keeps.plain ?_
    | with_reducible refine Keeps.upd ?_

theorem State.readOne_keeps {s0 : State} (s : State) (offset : Nat) (h : Keeps s0 s) :
    Keeps s0 (State.readOne s offset).2 := by
  unfold State.readOne
  repeat' first
    | with_reducible assumption
    | with_reducible apply State.readClears_keeps
    | split

theorem State.badAccess_keeps {s0 : State} (s : State) (offset : Nat) (size : Nat) (write : Bool) (h : Keeps s0 s) :
    Keeps s0 (State.badAccess s offset size write) := by
  unfold State.badAccess
  try dsimp only
  repeat' first
    | with_reducible assumption
    | with_reducible apply State.plogEvent_keeps
    | with_reducible apply State.emit_keeps
    | with_reducible apply Keeps.ite

theorem State.readBar0_keeps {s0 : State} (s : State) (offset : Nat) (size : Nat) (h : Keeps s0 s) :
    Keeps s0 (State.readBar0 s offset size) := by
  unfold State.readBar0
  try dsimp only
  repeat' first
    | with_reducible assumption
    | with_reducible apply State.badAccess_keeps
    | with_reducible apply State.rngData_keeps
    | with_reducible apply State.emit_keeps
    | with_reducible apply State.readOne_keeps
    | with_reducible apply Keeps.ite

theorem State.onBar_keeps {s0 : State} (s : State) (offset : Nat) (f : State → State) (h : Keeps s0 s) (hf : ∀ y0,
      Keeps s0 y0 → Keeps s0 (f y0)) :
    Keeps s0 (State.onBar s offset f) := by
  unfold State.onBar
  repeat' first
    | with_reducible assumption
    | with_reducible apply hf
    | with_reducible apply State.barRefused_keeps
    | with_reducible apply Keeps.ite

theorem State.readMsix_keeps {s0 : State} (s : State) (offset size : Nat) (h : Keeps s0 s) :
    Keeps s0 (State.readMsix s offset size) := by
  unfold State.readMsix
  try dsimp only
  repeat' first
    | with_reducible assumption
    | with_reducible apply State.drawn_keeps
    | with_reducible apply State.emit_keeps
    | with_reducible apply Keeps.ite

theorem execRcRegisterRead_keeps {s0 : State} (bar offset size : Nat) (s : State) (h : Keeps s0 s) :
    KeepsO s0 (execRcRegisterRead bar offset size s) := by
  unfold execRcRegisterRead
  try dsimp only
  repeat' first
    | with_reducible refine KeepsO.next ?_
    | with_reducible apply KeepsO.ite
    | with_reducible assumption
    | with_reducible apply State.emit_keeps
    | with_reducible apply State.onBar_keeps
    | with_reducible apply State.readBar0_keeps
    | with_reducible apply State.readMsix_keeps
    | split
    | intro _

theorem State.bookFixed_keeps {s0 : State} (s : State) (offset : Nat) (h : Keeps s0 s) :
    Keeps s0 (State.bookFixed s offset) := by
  unfold State.bookFixed
  repeat' first
    | with_reducible assumption
    | with_reducible apply State.plogBook_keeps

theorem State.modBookCfg_keeps {s0 : State} (s : State) (offset : Nat) (f : Book → Book) (h : Keeps s0 s) :
    Keeps s0 (State.modBookCfg s offset f) := by
  unfold State.modBookCfg
  repeat' first
    | with_reducible assumption
    | with_reducible apply State.modBook_keeps
    | with_reducible apply State.bookFixed_keeps
    | with_reducible apply Keeps.ite

theorem State.modJrnlCfg_keeps {s0 : State} (s : State) (offset : Nat) (region : Bool) (f : Book → Book) (h :
      Keeps s0 s) :
    Keeps s0 (State.modJrnlCfg s offset region f) := by
  unfold State.modJrnlCfg
  try dsimp only
  repeat' first
    | with_reducible assumption
    | with_reducible apply Squashed.none__keeps
    | with_reducible apply State.bookFixed_keeps
    | with_reducible apply State.setBook_keeps
    | with_reducible apply Keeps.ite

theorem State.jrnlCfg_keeps {s0 : State} (s : State) (value : Nat) (h : Keeps s0 s) :
    Keeps s0 (State.jrnlCfg s value) := by
  unfold State.jrnlCfg
  try dsimp only
  repeat' first
    | with_reducible assumption
    | with_reducible apply Squashed.none__keeps
    | with_reducible apply State.defer_keeps
    | with_reducible apply State.modJrnlCfg_keeps
    | with_reducible apply Keeps.ite

theorem State.modRing_keeps {s0 : State} (s : State) (offset : Nat) (fq : Sq → Sq) (fc : Cq → Cq) (h : Keeps s0 s) :
    Keeps s0 (State.modRing s offset fq fc) := by
  unfold State.modRing
  try dsimp only
  repeat' first
    | with_reducible assumption
    | with_reducible apply State.cqErr_keeps
    | with_reducible apply State.modCq_keeps
    | with_reducible apply State.sqErr_keeps
    | with_reducible apply State.modSq_keeps
    | with_reducible apply Keeps.ite

theorem State.ringBind_keeps {s0 : State} (s : State) (value : Nat) (h : Keeps s0 s) :
    Keeps s0 (State.ringBind s value) := by
  unfold State.ringBind
  try dsimp only
  repeat' first
    | with_reducible assumption
    | with_reducible apply State.defer_keeps
    | with_reducible apply State.modSq_keeps
    | with_reducible apply State.sqErr_keeps
    | with_reducible apply Keeps.ite

theorem State.writeWide_keeps {s0 : State} (s : State) (w : Wide) (offset value : Nat) (h : Keeps s0 s) :
    Keeps s0 (State.writeWide s w offset value) := by
  unfold State.writeWide
  try dsimp only
  repeat' first
    | with_reducible assumption
    | with_reducible apply State.dplCtl_keeps
    | with_reducible apply State.modBookCfg_keeps
    | with_reducible apply State.modJrnlCfg_keeps
    | with_reducible apply State.modRing_keeps
    | with_reducible apply State.modStaged_keeps
    | with_reducible apply State.mpuRegion_keeps
    | with_reducible apply Keeps.ite
    | split

theorem State.writeSlice_keeps {s0 : State} (s : State) (n o value : Nat) (h : Keeps s0 s) :
    Keeps s0 (State.writeSlice s n o value) := by
  unfold State.writeSlice
  try dsimp only
  repeat' first
    | with_reducible assumption
    | with_reducible apply State.defer_keeps
    | with_reducible apply State.dplConsume_keeps
    | with_reducible apply State.modSlice_keeps
    | with_reducible apply State.pasidWrite_keeps
    | with_reducible apply State.tokenWrite_keeps
    | with_reducible apply Keeps.ite
    | split

theorem State.writeRing_keeps {s0 : State} (s : State) (o value : Nat) (h : Keeps s0 s) :
    Keeps s0 (State.writeRing s o value) := by
  unfold State.writeRing
  try dsimp only
  repeat' first
    | with_reducible assumption
    | with_reducible apply State.defer_keeps
    | with_reducible apply State.modSq_keeps
    | with_reducible apply State.ringBind_keeps
    | with_reducible apply State.ringCfg_keeps
    | with_reducible apply State.sqErr_keeps
    | with_reducible apply State.unfence_keeps
    | with_reducible apply Keeps.ite
    | split
    | with_reducible refine Keeps.plain ?_

theorem State.writeAccess_keeps {s0 : State} (s : State) (o value : Nat) (h : Keeps s0 s) :
    Keeps s0 (State.writeAccess s o value) := by
  unfold State.writeAccess
  try dsimp only
  repeat' first
    | with_reducible assumption
    | with_reducible apply State.barrierWrite_keeps
    | with_reducible apply State.modStaged_keeps
    | with_reducible apply State.mpuCapFree_keeps
    | with_reducible apply State.mpuCtl_keeps
    | with_reducible apply State.mpuRegion_keeps
    | with_reducible apply Keeps.ite
    | split
    | with_reducible refine Keeps.plain ?_

theorem State.writeSched_keeps {s0 : State} (s : State) (o : Nat) (value : Nat) (h : Keeps s0 s) :
    Keeps s0 (State.writeSched s o value) := by
  unfold State.writeSched
  try dsimp only
  repeat' first
    | with_reducible assumption
    | split
    | with_reducible refine Keeps.plain ?_

theorem State.panCfg_keeps {s0 : State} (s : State) (value : Nat) (h : Keeps s0 s) :
    Keeps s0 (State.panCfg s value) := by
  unfold State.panCfg
  try dsimp only
  repeat' first
    | with_reducible assumption
    | with_reducible apply State.plogReg_keeps
    | with_reducible apply Keeps.ite
    | with_reducible refine Keeps.plain ?_

theorem State.writeBook_keeps {s0 : State} (s : State) (o value : Nat) (h : Keeps s0 s) :
    Keeps s0 (State.writeBook s o value) := by
  unfold State.writeBook
  try dsimp only
  repeat' first
    | with_reducible assumption
    | with_reducible apply State.bookCtl_keeps
    | with_reducible apply State.jrnlCfg_keeps
    | with_reducible apply State.modBook_keeps
    | with_reducible apply State.modBookCfg_keeps
    | with_reducible apply State.panCfg_keeps
    | split
    | with_reducible refine Keeps.upd ?_

theorem State.writeNv_keeps {s0 : State} (s : State) (o : Nat) (value : Nat) (h : Keeps s0 s) :
    Keeps s0 (State.writeNv s o value) := by
  unfold State.writeNv
  try dsimp only
  repeat' first
    | with_reducible assumption
    | with_reducible apply State.commitBuffer_keeps
    | with_reducible apply State.partCfg_keeps
    | with_reducible apply State.cntOwner_keeps
    | with_reducible apply Keeps.ite
    | split
    | with_reducible refine Keeps.upd ?_

theorem State.batCfgFree_keeps {s0 : State} (s : State) (value : Nat) (h : Keeps s0 s) :
    Keeps s0 (State.batCfgFree s value) := by
  unfold State.batCfgFree
  repeat' first
    | with_reducible assumption
    | with_reducible apply State.batCfg_keeps
    | with_reducible apply State.drawn_keeps

theorem State.clCfg_keeps {s0 : State} (s : State) (value : Nat) (h : Keeps s0 s) :
    Keeps s0 (State.clCfg s value) := by
  unfold State.clCfg
  try dsimp only
  repeat' first
    | with_reducible assumption
    | with_reducible apply State.plogReg_keeps
    | with_reducible apply Keeps.ite
    | with_reducible refine Keeps.plain ?_

theorem State.writeOther_keeps {s0 : State} (s : State) (offset : Nat) (value : Nat) (h : Keeps s0 s) :
    Keeps s0 (State.writeOther s offset value) := by
  unfold State.writeOther
  try dsimp only
  repeat' first
    | with_reducible assumption
    | with_reducible apply State.batCfgFree_keeps
    | with_reducible apply State.clCfg_keeps
    | with_reducible apply State.logAck_keeps
    | with_reducible apply Keeps.ite
    | split
    | with_reducible refine Keeps.plain ?_
    | with_reducible refine Keeps.upd ?_

theorem State.writeWord_keeps {s0 : State} (s : State) (offset : Nat) (value : Nat) (h : Keeps s0 s) :
    Keeps s0 (State.writeWord s offset value) := by
  unfold State.writeWord
  try dsimp only
  repeat' first
    | with_reducible assumption
    | with_reducible apply State.writeSlice_keeps
    | with_reducible apply State.writeRing_keeps
    | with_reducible apply State.writeAccess_keeps
    | with_reducible apply State.writeSched_keeps
    | with_reducible apply State.writeBook_keeps
    | with_reducible apply State.writeNv_keeps
    | with_reducible apply State.writeOther_keeps
    | split

theorem State.writeHalf_keeps {s0 : State} (s : State) (offset : Nat) (value : Nat) (h : Keeps s0 s) :
    Keeps s0 (State.writeHalf s offset value) := by
  unfold State.writeHalf
  try dsimp only
  repeat' first
    | with_reducible assumption
    | with_reducible apply State.writeWord_keeps
    | with_reducible apply State.writeWide_keeps
    | with_reducible apply Keeps.ite
    | split

theorem State.writeBar0_keeps {s0 : State} (s : State) (offset : Nat) (size : Nat) (value : Nat) (h : Keeps s0 s) :
    Keeps s0 (State.writeBar0 s offset size value) := by
  unfold State.writeBar0
  repeat' first
    | with_reducible assumption
    | with_reducible apply State.badAccess_keeps
    | with_reducible apply State.onReg_keeps
    | with_reducible apply State.writeHalf_keeps
    | with_reducible apply State.writeWide_keeps
    | with_reducible apply Keeps.ite
    | split
    | intro _

theorem State.onCfg_keeps {s0 : State} (s : State) (f : State → State) (h : Keeps s0 s) (hf : ∀ y0, Keeps s0 y0 →
      Keeps s0 (f y0)) :
    Keeps s0 (State.onCfg s f) := by
  unfold State.onCfg
  repeat' first
    | with_reducible assumption
    | with_reducible apply hf
    | with_reducible apply State.emit_keeps
    | with_reducible apply Keeps.ite

theorem State.sendPending_keeps {s0 : State} (s : State) (h : Keeps s0 s) :
    Keeps s0 (State.sendPending s) := by
  unfold State.sendPending
  try dsimp only
  repeat' first
    | with_reducible assumption
    | with_reducible apply State.emit_keeps
    | with_reducible apply State.setVector_keeps
    | with_reducible apply Keeps.foldl
    | with_reducible apply Keeps.ite
    | split
    | intro _

theorem execRegisterWrite_keeps {s0 : State} (reg : RegTarget) (value : Nat) (s : State) (h : Keeps s0 s) :
    KeepsO s0 (execRegisterWrite reg value s) := by
  unfold execRegisterWrite
  try dsimp only
  repeat' first
    | with_reducible refine KeepsO.next ?_
    | with_reducible apply KeepsO.ite
    | with_reducible assumption
    | with_reducible apply State.barRefused_keeps
    | with_reducible apply State.onCfg_keeps
    | with_reducible apply State.sendPending_keeps
    | with_reducible apply State.writeBar0_keeps
    | with_reducible apply Keeps.ite
    | split
    | with_reducible refine Keeps.plain ?_
    | intro _

theorem execConfigRequestRetry_keeps {s0 : State} (field : CfgField) (s : State) (h : Keeps s0 s) :
    KeepsO s0 (execConfigRequestRetry field s) := by
  unfold execConfigRequestRetry
  try dsimp only
  repeat' first
    | with_reducible refine KeepsO.next ?_
    | with_reducible apply KeepsO.ite
    | with_reducible assumption
    | with_reducible apply State.emit_keeps
    | with_reducible apply State.onCfg_keeps
    | intro _

theorem State.setMaster_keeps {s0 : State} (s : State) (bme : Bool) (pasidEn : Bool) (d3hot : Bool) (h : Keeps s0 s) :
    Keeps s0 (State.setMaster s bme pasidEn d3hot) := by
  unfold State.setMaster
  try dsimp only
  repeat' first
    | with_reducible assumption
    | with_reducible apply State.sendPending_keeps
    | with_reducible apply Keeps.ite
    | with_reducible refine Keeps.plain ?_

theorem execBusMasterEnableChange_keeps {s0 : State} (bme : Bool) (pasidEn : Bool) (d3hot : Bool) (s : State) (h :
      Keeps s0 s) :
    KeepsO s0 (execBusMasterEnableChange bme pasidEn d3hot s) := by
  unfold execBusMasterEnableChange
  repeat' first
    | with_reducible assumption
    | with_reducible apply State.onCfg_keeps
    | with_reducible apply State.setMaster_keeps
    | with_reducible apply KeepsO.next
    | intro _

theorem execUnsupportedBarRequest_keeps {s0 : State} (offset : Nat) (s : State) (h : Keeps s0 s) :
    KeepsO s0 (execUnsupportedBarRequest offset s) := by
  unfold execUnsupportedBarRequest
  repeat' first
    | with_reducible assumption
    | with_reducible apply State.barRefused_keeps
    | with_reducible apply KeepsO.next
    | with_reducible apply Keeps.ite

theorem execBar0BadAccess_keeps {s0 : State} (offset : Nat) (size : Nat) (write : Bool) (s : State) (h : Keeps s0 s) :
    KeepsO s0 (execBar0BadAccess offset size write s) := by
  unfold execBar0BadAccess
  repeat' first
    | with_reducible assumption
    | with_reducible apply State.onBar_keeps
    | with_reducible apply State.badAccess_keeps
    | with_reducible apply KeepsO.next
    | with_reducible apply Keeps.ite
    | intro _

theorem execLinkProtocolViolation_keeps {s0 : State} (bit : Nat) (s : State) (h : Keeps s0 s) :
    KeepsO s0 (execLinkProtocolViolation bit s) := by
  unfold execLinkProtocolViolation
  try dsimp only
  repeat' first
    | with_reducible assumption
    | with_reducible apply State.plogEvent_keeps
    | with_reducible apply KeepsO.next
    | with_reducible apply Keeps.ite
    | with_reducible refine Keeps.plain ?_

theorem State.unmasked_keeps {s0 : State} (s : State) (n : Nat) (h : Keeps s0 s) :
    Keeps s0 (State.unmasked s n) := by
  unfold State.unmasked
  try dsimp only
  repeat' first
    | with_reducible assumption
    | with_reducible apply State.emit_keeps
    | with_reducible apply State.setVector_keeps
    | with_reducible apply Keeps.ite

theorem State.writeMsix_keeps {s0 : State} (s : State) (offset : Nat) (value : Nat) (h : Keeps s0 s) :
    Keeps s0 (State.writeMsix s offset value) := by
  unfold State.writeMsix
  repeat' first
    | with_reducible assumption
    | with_reducible apply State.unmasked_keeps
    | with_reducible apply State.setVector_keeps
    | with_reducible apply Keeps.ite

theorem execMsixTableWrite_keeps {s0 : State} (offset : Nat) (value : Nat) (s : State) (h : Keeps s0 s) :
    KeepsO s0 (execMsixTableWrite offset value s) := by
  unfold execMsixTableWrite
  repeat' first
    | with_reducible assumption
    | with_reducible apply State.onDoorbell_keeps
    | with_reducible apply State.writeMsix_keeps
    | with_reducible apply KeepsO.next
    | intro _

end Sys2Proof.Machine
end

