-- ==== Sys2Proof/Laws/KeepsServices.lean ====
section
/-! SUPPORT. The operations of Machine/Services.lean keep what `Keeps` says. -/

namespace Sys2Proof.Machine
open Sys2Proof

set_option Elab.async false

theorem State.answerSvc_keeps {s0 : State} (s : State) (core : Nat) (st : Status) (res : Bytes) (h : Keeps s0 s) :
    Keeps s0 (State.answerSvc s core st res) := by
  unfold State.answerSvc
  repeat' first
    | with_reducible assumption
    | with_reducible apply State.answerCore_keeps

theorem State.refuseSvc_keeps {s0 : State} (s : State) (core : Nat) (check : Nat) (st : Status) (h : Keeps s0 s) :
    Keeps s0 (State.refuseSvc s core check st) := by
  unfold State.refuseSvc
  try dsimp only
  repeat' first
    | with_reducible assumption
    | with_reducible apply State.answerSvc_keeps
    | with_reducible apply State.plog_keeps

theorem State.onCall_keeps {s0 : State} (s : State) (core : Nat) (n : Nat) (form : Core → Invocation → Bool) (buffers
      : Core → Invocation → Bool) (op : Core → Invocation → State) (h : Keeps s0 s) (hop : ∀ y0 y1, Keeps s0 (op y0
      y1)) :
    Keeps s0 (State.onCall s core n form buffers op) := by
  unfold State.onCall
  try dsimp only
  repeat' first
    | with_reducible assumption
    | with_reducible apply hop
    | with_reducible apply State.refuseSvc_keeps
    | with_reducible apply State.answerSvc_keeps
    | with_reducible apply Keeps.ite
    | split

theorem State.svcStarted_keeps {s0 : State} (s : State) (core : Nat) (h : Keeps s0 s) :
    Keeps s0 (State.svcStarted s core) := by
  unfold State.svcStarted
  repeat' first
    | with_reducible assumption
    | with_reducible apply State.modCore_keeps
    | exact fun c hc => hc.keep rfl rfl rfl rfl rfl rfl rfl

theorem State.svcOutput_keeps {s0 : State} (s : State) (core : Nat) (a : Nat) (b : Bytes) (h : Keeps s0 s) :
    Keeps s0 (State.svcOutput s core a b) := by
  unfold State.svcOutput
  repeat' first
    | with_reducible assumption
    | with_reducible apply State.modCore_keeps
    | exact fun c hc => hc.keep rfl rfl rfl rfl rfl rfl rfl

theorem State.svcSubmit_keeps {s0 : State} (s : State) (core : Nat) (w : Work) (h : Keeps s0 s) :
    Keeps s0 (State.svcSubmit s core w) := by
  unfold State.svcSubmit
  repeat' first
    | with_reducible assumption
    | with_reducible apply State.svcStarted_keeps
    | with_reducible refine Keeps.upd ?_

theorem execSvcTallyRead_keeps {s0 : State} (core : Nat) (s : State) (h : Keeps s0 s) :
    KeepsO s0 (execSvcTallyRead core s) := by
  unfold execSvcTallyRead
  try dsimp only
  repeat' first
    | with_reducible assumption
    | with_reducible apply State.onCall_keeps
    | with_reducible apply State.svcSubmit_keeps
    | with_reducible apply KeepsO.next
    | intro _

theorem State.svcPost_keeps {s0 : State} (s : State) (core : Nat) (c : Core) (v : Invocation) (h : Keeps s0 s) :
    Keeps s0 (State.svcPost s core c v) := by
  unfold State.svcPost
  try dsimp only
  repeat' first
    | with_reducible assumption
    | with_reducible apply State.presentPosting_keeps
    | with_reducible apply State.svcSubmit_keeps

theorem execSvcPost_keeps {s0 : State} (core : Nat) (s : State) (h : Keeps s0 s) :
    KeepsO s0 (execSvcPost core s) := by
  unfold execSvcPost
  try dsimp only
  repeat' first
    | with_reducible assumption
    | with_reducible apply State.onCall_keeps
    | with_reducible apply State.svcPost_keeps
    | with_reducible apply KeepsO.next
    | intro _

theorem State.svcStream_keeps {s0 : State} (s : State) (core : Nat) (w : Work) (digest : Bool) (h : Keeps s0 s)
      :
    Keeps s0 (State.svcStream s core w digest) := by
  unfold State.svcStream
  try dsimp only
  repeat' first
    | with_reducible assumption
    | with_reducible apply State.svcSubmit_keeps
    | with_reducible refine Keeps.plain ?_

theorem execSvcDigest_keeps {s0 : State} (core : Nat) (s : State) (h : Keeps s0 s) :
    KeepsO s0 (execSvcDigest core s) := by
  unfold execSvcDigest
  try dsimp only
  repeat' first
    | with_reducible refine KeepsO.next ?_
    | with_reducible apply KeepsO.ite
    | with_reducible assumption
    | with_reducible apply State.onCall_keeps
    | with_reducible apply State.svcStream_keeps
    | intro _

theorem State.svcMac_keeps {s0 : State} (s : State) (core : Nat) (c : Core) (v : Invocation) (h : Keeps s0 s) :
    Keeps s0 (State.svcMac s core c v) := by
  unfold State.svcMac
  try dsimp only
  repeat' first
    | with_reducible assumption
    | with_reducible apply State.answerSvc_keeps
    | with_reducible apply State.chargeKey_keeps
    | with_reducible apply State.svcStream_keeps
    | with_reducible apply State.svcSubmit_keeps
    | with_reducible apply Keeps.ite
    | split

theorem execSvcMac_keeps {s0 : State} (core : Nat) (s : State) (h : Keeps s0 s) :
    KeepsO s0 (execSvcMac core s) := by
  unfold execSvcMac
  repeat' first
    | with_reducible assumption
    | with_reducible apply State.onCall_keeps
    | with_reducible apply State.svcMac_keeps
    | with_reducible apply KeepsO.next
    | with_reducible apply Keeps.ite
    | split
    | intro _

theorem State.svcDerive_keeps {s0 : State} (s : State) (core : Nat) (c : Core) (v : Invocation) (h : Keeps s0 s) :
    Keeps s0 (State.svcDerive s core c v) := by
  unfold State.svcDerive
  try dsimp only
  repeat' first
    | with_reducible assumption
    | with_reducible apply State.answerSvc_keeps
    | with_reducible apply State.chargeKey_keeps
    | with_reducible apply State.modCore_keeps
    | with_reducible apply State.drawn_keeps
    | with_reducible apply Keeps.ite
    | split
    | exact fun c hc => hc.keep rfl rfl rfl rfl rfl rfl rfl

theorem execSvcDerive_keeps {s0 : State} (core : Nat) (s : State) (h : Keeps s0 s) :
    KeepsO s0 (execSvcDerive core s) := by
  unfold execSvcDerive
  repeat' first
    | with_reducible assumption
    | with_reducible apply State.onCall_keeps
    | with_reducible apply State.svcDerive_keeps
    | with_reducible apply KeepsO.next
    | with_reducible apply Keeps.ite
    | split
    | intro _

theorem State.svcBignum_keeps {s0 : State} (s : State) (core : Nat) (c : Core) (v : Invocation) (h : Keeps s0 s) :
    Keeps s0 (State.svcBignum s core c v) := by
  unfold State.svcBignum
  try dsimp only
  repeat' first
    | with_reducible assumption
    | (refine Keeps.fst ?_ (by assumption))
    | with_reducible apply State.bnKeyCheck_keeps
    | with_reducible apply State.answerSvc_keeps
    | with_reducible apply State.svcStarted_keeps
    | with_reducible apply State.bnSubmit_keeps
    | with_reducible apply Keeps.ite
    | split

theorem execSvcBignum_keeps {s0 : State} (core : Nat) (s : State) (h : Keeps s0 s) :
    KeepsO s0 (execSvcBignum core s) := by
  unfold execSvcBignum
  try dsimp only
  repeat' first
    | with_reducible assumption
    | with_reducible apply State.onCall_keeps
    | with_reducible apply State.svcBignum_keeps
    | with_reducible apply KeepsO.next
    | intro _

theorem execSvcRandom_keeps {s0 : State} (core : Nat) (s : State) (h : Keeps s0 s) :
    KeepsO s0 (execSvcRandom core s) := by
  unfold execSvcRandom
  repeat' first
    | with_reducible assumption
    | with_reducible apply State.onCall_keeps
    | with_reducible apply State.answerSvc_keeps
    | with_reducible apply State.svcStarted_keeps
    | with_reducible apply State.askRandom_keeps
    | with_reducible apply KeepsO.next
    | with_reducible apply Keeps.ite
    | intro _

theorem State.svcNvChecks_keeps {s0 : State} (s : State) (c : Core) (v : Invocation) (write : Bool) (h : Keeps s0 s) :
    Keeps s0 (State.svcNvChecks s c v write).1 := by
  unfold State.svcNvChecks
  try dsimp only
  repeat' first
    | with_reducible assumption
    | with_reducible apply State.passwordCheck_keeps
    | split

theorem execSvcNvRead_keeps {s0 : State} (core : Nat) (s : State) (h : Keeps s0 s) :
    KeepsO s0 (execSvcNvRead core s) := by
  unfold execSvcNvRead
  try dsimp only
  repeat' first
    | with_reducible refine KeepsO.next ?_
    | with_reducible apply KeepsO.ite
    | with_reducible assumption
    | (refine Keeps.fst ?_ (by assumption))
    | with_reducible apply State.answerSvc_keeps
    | with_reducible apply State.badRead_keeps
    | with_reducible apply State.onCall_keeps
    | with_reducible apply State.readsPage_keeps
    | with_reducible apply State.svcNvChecks_keeps
    | with_reducible apply State.svcOutput_keeps
    | with_reducible apply Keeps.ite
    | split
    | intro _

theorem State.svcNvStore_keeps {s0 : State} (s : State) (core : Nat) (c : Core) (h : Keeps s0 s) :
    Keeps s0 (State.svcNvStore s core c) := by
  unfold State.svcNvStore
  extract_lets off data wait
  split
  · exact State.svcStarted_keeps _ _ h
  · rename_i t e
    have ht : Keeps s0 t := State.bufferWrite_keeps _ _ _ _ _ h _ e
    exact Keeps.ite (State.svcStarted_keeps _ _ ht) (State.answerSvc_keeps _ _ _ _ ht)

theorem execSvcNvWrite_keeps {s0 : State} (core : Nat) (s : State) (h : Keeps s0 s) :
    KeepsO s0 (execSvcNvWrite core s) := by
  unfold execSvcNvWrite
  try dsimp only
  repeat' first
    | with_reducible assumption
    | (refine Keeps.fst ?_ (by assumption))
    | with_reducible apply State.svcNvStore_keeps
    | with_reducible apply State.onCall_keeps
    | with_reducible apply State.svcNvChecks_keeps
    | with_reducible apply State.answerSvc_keeps
    | with_reducible apply KeepsO.next
    | with_reducible apply KeepsO.ite
    | split
    | intro _

theorem State.svcReturn_keeps {s0 : State} (s : State) (core : Nat) (c : Core) (v : Invocation) (h : Keeps s0 s) :
    Keeps s0 (State.svcReturn s core c v) := by
  unfold State.svcReturn
  try dsimp only
  repeat' first
    | with_reducible assumption
    | with_reducible apply State.violation_keeps
    | with_reducible apply State.finishOpen_keeps
    | with_reducible apply State.clearCore_keeps
    | with_reducible apply State.modWork_keeps
    | with_reducible apply State.finish_keeps
    | with_reducible apply Keeps.ite
    | split

theorem execSvcReturn_keeps {s0 : State} (core : Nat) (s : State) (h : Keeps s0 s) :
    KeepsO s0 (execSvcReturn core s) := by
  unfold execSvcReturn
  repeat' first
    | with_reducible assumption
    | with_reducible apply State.onCall_keeps
    | with_reducible apply State.svcReturn_keeps
    | with_reducible apply KeepsO.next
    | intro _

theorem execServiceCallEnd_keeps {s0 : State} (core : Nat) (s : State) (h : Keeps s0 s) :
    KeepsO s0 (execServiceCallEnd core s) := by
  refine KeepsO.next ?_
  split
  · exact h
  · exact Keeps.ite (State.drawn_keeps _ (State.modCore_keeps _ _ _ h (fun _ k => Core.endCall_wf k _ _ _))) h

theorem State.svcBnEnd_keeps {s0 : State} (s : State) (core : Nat) (o : BnOutcome) (h : Keeps s0 s) :
    Keeps s0 (State.svcBnEnd s core o) := by
  unfold State.svcBnEnd
  try dsimp only
  repeat' first
    | with_reducible assumption
    | with_reducible apply State.answerSvc_keeps
    | with_reducible apply State.svcOutput_keeps
    | split

theorem State.bnFault_keeps {s0 : State} (s : State) (j : BnJob) (h : Keeps s0 s) :
    Keeps s0 (State.bnFault s j) := by
  unfold State.bnFault
  extract_lets b t
  have ht : Keeps s0 t := Keeps.plain h
  split
  · split
    · exact State.refuse_keeps _ _ _ _ ht
    · exact ht
  · exact State.answerSvc_keeps _ _ _ _ ht
  · exact State.endSeal_keeps _ _ _ _ ht
  · exact State.loadFail_keeps _ _ _ _ ht

theorem State.bnMismatched_keeps {s0 : State} (s : State) (engine : Nat) (j : BnJob) (h : Keeps s0 s) :
    Keeps s0 (State.bnMismatched s engine j).st := by
  unfold State.bnMismatched
  split
  · exact Keeps.ite (State.setBn_keeps _ _ _ h) (State.askRandom_keeps _ _ _ _ _ (State.setBn_keeps _ _ _ h))
  · exact State.bnFault_keeps _ _ (State.bnRetire_keeps _ _ h)

theorem State.bnMismatch_keeps {s0 : State} (s : State) (engine : Nat) (h : Keeps s0 s) :
    Keeps s0 (State.bnMismatch s engine) := by
  unfold State.bnMismatch
  split
  · exact h
  · exact Keeps.ite h (State.level2_keeps _ _ _ h.upd (fun _ k => State.bnMismatched_keeps _ _ _ k))

theorem State.bnJobEnd_keeps {s0 : State} (s : State) (engine : Nat) (h : Keeps s0 s) :
    Keeps s0 (State.bnJobEnd s engine) := by
  unfold State.bnJobEnd
  try dsimp only
  repeat' first
    | with_reducible assumption
    | with_reducible apply State.bnRetire_keeps
    | with_reducible apply State.bnOutcome_keeps
    | with_reducible apply State.bnEnd_keeps
    | with_reducible apply State.svcBnEnd_keeps
    | with_reducible apply Keeps.ite
    | split

theorem execBnJobEnd_keeps {s0 : State} (engine : Nat) (mismatch : Bool) (s : State) (h : Keeps s0 s) :
    KeepsO s0 (execBnJobEnd engine mismatch s) :=
  KeepsO.next (Keeps.ite (State.bnMismatch_keeps _ _ h) (State.bnJobEnd_keeps _ _ h))

end Sys2Proof.Machine
end

