-- ==== Sys2Proof/Laws/KeepsTag.lean ====
section
/-! SUPPORT. The operations of Machine/Tag.lean keep what `Keeps` says. -/

namespace Sys2Proof.Machine
open Sys2Proof

set_option Elab.async false

theorem execFieldPresent_keeps {s0 : State} (field : Nat) (s : State) (h : Keeps s0 s) :
    KeepsO s0 (execFieldPresent field s) := by
  unfold execFieldPresent
  try dsimp only
  repeat' first
    | with_reducible assumption
    | with_reducible apply KeepsO.next
    | with_reducible apply Keeps.ite
    | with_reducible refine Keeps.plain ?_

theorem State.deselect_keeps {s0 : State} (s : State) (h : Keeps s0 s) :
    Keeps s0 (State.deselect s) := by
  unfold State.deselect
  try dsimp only
  repeat' first
    | with_reducible assumption
    | with_reducible refine Keeps.plain ?_

theorem State.tagLevel_keeps {s0 : State} (s : State) (l : TagLevel) (h : Keeps s0 s) :
    Keeps s0 (State.tagLevel s l) := by
  unfold State.tagLevel
  try dsimp only
  repeat' first
    | with_reducible assumption
    | with_reducible refine Keeps.plain ?_

theorem State.tagFrame_keeps {s0 : State} (s : State) (f : TagFrame) (h : Keeps s0 s) :
    Keeps s0 (State.tagFrame s f) := by
  unfold State.tagFrame
  try dsimp only
  repeat' first
    | with_reducible assumption
    | with_reducible apply State.deselect_keeps
    | with_reducible apply State.tagLevel_keeps
    | with_reducible apply State.rfOut_keeps
    | with_reducible apply Keeps.ite
    | split
    | with_reducible refine Keeps.plain ?_

theorem execTagAnticollision_keeps {s0 : State} (frame : TagFrame) (s : State) (h : Keeps s0 s) :
    KeepsO s0 (execTagAnticollision frame s) := by
  unfold execTagAnticollision
  repeat' first
    | with_reducible assumption
    | with_reducible apply State.tagFrame_keeps
    | with_reducible apply KeepsO.next
    | with_reducible apply Keeps.ite

theorem State.swFree_keeps {s0 : State} (s : State) (h : Keeps s0 s) :
    Keeps s0 (State.swFree s) := by
  unfold State.swFree
  repeat' first
    | with_reducible assumption
    | with_reducible apply State.drawn_keeps
    | with_reducible apply State.rfOut_keeps

theorem State.onApp_keeps {s0 : State} (s : State) (f : State) (h : Keeps s0 s) (h1 : Keeps s0 f) :
    Keeps s0 (State.onApp s f) := by
  unfold State.onApp
  repeat' first
    | with_reducible assumption
    | with_reducible apply State.rfOut_keeps
    | with_reducible apply Keeps.ite

theorem execTagSelectApplication_keeps {s0 : State} (aid : Bytes) (s : State) (h : Keeps s0 s) :
    KeepsO s0 (execTagSelectApplication aid s) := by
  unfold execTagSelectApplication
  try dsimp only
  repeat' first
    | with_reducible assumption
    | with_reducible apply State.deselect_keeps
    | with_reducible apply State.rfOut_keeps
    | with_reducible apply State.swFree_keeps
    | with_reducible apply KeepsO.next
    | with_reducible apply Keeps.ite
    | with_reducible refine Keeps.plain ?_

theorem execTagSelectFile_keeps {s0 : State} (fid : Nat) (s : State) (h : Keeps s0 s) :
    KeepsO s0 (execTagSelectFile fid s) := by
  unfold execTagSelectFile
  try dsimp only
  repeat' first
    | with_reducible assumption
    | with_reducible apply State.onApp_keeps
    | with_reducible apply State.rfOut_keeps
    | with_reducible apply KeepsO.next
    | with_reducible apply Keeps.ite
    | with_reducible refine Keeps.plain ?_

theorem State.readAnswer_keeps {s0 : State} (s : State) (file : Bytes) (offset : Nat) (len : Nat) (h : Keeps s0 s) :
    Keeps s0 (State.readAnswer s file offset len) := by
  unfold State.readAnswer
  repeat' first
    | with_reducible assumption
    | with_reducible apply State.rfOut_keeps
    | with_reducible apply Keeps.ite

theorem State.readInv_keeps {s0 : State} (s : State) (offset : Nat) (len : Nat) (h : Keeps s0 s) :
    Keeps s0 (State.readInv s offset len) := by
  unfold State.readInv
  try dsimp only
  repeat' first
    | with_reducible assumption
    | with_reducible apply State.rfOut_keeps
    | with_reducible apply State.badRead_keeps
    | with_reducible apply State.readAnswer_keeps
    | with_reducible apply Keeps.ite
    | with_reducible apply Keeps.foldl
    | intro _

theorem execReadBinary_keeps {s0 : State} (offset : Nat) (le : Nat) (s : State) (h : Keeps s0 s) :
    KeepsO s0 (execReadBinary offset le s) := by
  unfold execReadBinary
  repeat' first
    | with_reducible assumption
    | with_reducible apply State.onApp_keeps
    | with_reducible apply State.swFree_keeps
    | with_reducible apply State.readAnswer_keeps
    | with_reducible apply State.readInv_keeps
    | with_reducible apply KeepsO.next
    | with_reducible apply Keeps.ite
    | split

theorem State.tagNak_keeps {s0 : State} (s : State) (h : Keeps s0 s) :
    Keeps s0 (State.tagNak s) := by
  unfold State.tagNak
  try dsimp only
  repeat' first
    | with_reducible assumption
    | with_reducible apply State.rfOut_keeps
    | with_reducible refine Keeps.plain ?_

theorem State.updatePowered_keeps {s0 : State} (s : State) (offset : Nat) (data : Bytes) (h : Keeps s0 s) :
    Keeps s0 (State.updatePowered s offset data) := by
  unfold State.updatePowered
  split
  · exact h
  · rename_i t e
    exact (State.bufferWrite_keeps _ _ _ _ _ h _ e).upd

theorem State.updateField_keeps {s0 : State} (s : State) (offset : Nat) (data : Bytes) (capMv field : Nat)
    (h : Keeps s0 s) : Keeps s0 (State.updateField s offset data capMv field) :=
  Keeps.ite (State.tagNak_keeps _ h) (Keeps.ite h h.upd)

theorem execUpdateBinary_keeps {s0 : State} (offset : Nat) (data : Bytes) (capMv : Nat) (field : Nat) (s : State) (h
      : Keeps s0 s) :
    KeepsO s0 (execUpdateBinary offset data capMv field s) := by
  unfold execUpdateBinary
  try dsimp only
  repeat' first
    | with_reducible assumption
    | with_reducible apply State.onApp_keeps
    | with_reducible apply State.rfOut_keeps
    | with_reducible apply State.swFree_keeps
    | with_reducible apply State.updatePowered_keeps
    | with_reducible apply State.updateField_keeps
    | with_reducible apply KeepsO.next
    | with_reducible apply Keeps.ite

theorem State.wrongPassword_keeps {s0 : State} (s : State) (h : Keeps s0 s) :
    Keeps s0 (State.wrongPassword s) := by
  unfold State.wrongPassword
  repeat' first
    | with_reducible assumption
    | with_reducible apply State.rfOut_keeps

theorem State.recordFails_keeps {s0 : State} (s : State) (h : Keeps s0 s) :
    Keeps s0 (State.recordFails s) := by
  unfold State.recordFails
  try dsimp only
  repeat' first
    | with_reducible assumption
    | with_reducible apply State.nvPut_keeps
    | with_reducible apply Keeps.ite
    | split
    | with_reducible refine Keeps.upd ?_

theorem State.comparePassword_keeps {s0 : State} (s : State) (write : Bool) (password : Bytes) (h : Keeps s0 s) :
    Keeps s0 (State.comparePassword s write password) := by
  unfold State.comparePassword
  try dsimp only
  repeat' first
    | with_reducible assumption
    | with_reducible apply State.passwordCheck_keeps
    | with_reducible apply State.recordFails_keeps
    | with_reducible apply State.rfOut_keeps
    | with_reducible apply State.wrongPassword_keeps
    | with_reducible apply Keeps.ite
    | split
    | with_reducible refine Keeps.plain ?_

theorem execVerify_keeps {s0 : State} (write : Bool) (password : Bytes) (capMv : Nat) (s : State) (h : Keeps s0 s) :
    KeepsO s0 (execVerify write password capMv s) := by
  unfold execVerify
  repeat' first
    | with_reducible assumption
    | with_reducible apply State.onApp_keeps
    | with_reducible apply State.rfOut_keeps
    | with_reducible apply State.tagNak_keeps
    | with_reducible apply State.comparePassword_keeps
    | with_reducible apply KeepsO.next
    | with_reducible apply Keeps.ite

theorem execTagFrameError_keeps {s0 : State} (s : State) (h : Keeps s0 s) :
    KeepsO s0 (execTagFrameError s) := by
  unfold execTagFrameError
  try dsimp only
  repeat' first
    | with_reducible assumption
    | with_reducible apply State.frameError_keeps
    | with_reducible apply KeepsO.next
    | with_reducible apply Keeps.ite
    | with_reducible refine Keeps.plain ?_

theorem State.fieldLoss_keeps {s0 : State} (s : State) (h : Keeps s0 s) : Keeps s0 (State.fieldLoss s) := by
  unfold State.fieldLoss
  refine (State.tagLevel_keeps _ _ (State.deselect_keeps _ h)).upd (h9 := fun k => ?_)
  dsimp only
  split
  · exact k
  · exact Nat.zero_le _

theorem execFieldLoss_keeps {s0 : State} (s : State) (h : Keeps s0 s) :
    KeepsO s0 (execFieldLoss s) := by
  unfold execFieldLoss
  repeat' first
    | with_reducible assumption
    | with_reducible apply State.fieldLoss_keeps
    | with_reducible apply KeepsO.next

end Sys2Proof.Machine
end

