-- ==== Sys2Proof/Laws/State.lean ====
section
/-! SUPPORT. What each named update of the state leaves as it is, field by field, and what it makes of its own entry. -/

namespace Sys2Proof.Machine
open Sys2Proof

variable (s : State)

/-! setSq -/

@[simp] theorem State.setSq_pending (r : Nat) (v : Sq) : (s.setSq r v).pending = s.pending := rfl
@[simp] theorem State.setSq_out (r : Nat) (v : Sq) : (s.setSq r v).out = s.out := rfl
@[simp] theorem State.setSq_nextId (r : Nat) (v : Sq) : (s.setSq r v).nextId = s.nextId := rfl
@[simp] theorem State.setSq_draws (r : Nat) (v : Sq) : (s.setSq r v).draws = s.draws := rfl
@[simp] theorem State.setSq_work (r : Nat) (v : Sq) : (s.setSq r v).work = s.work := rfl
@[simp] theorem State.setSq_reads (r : Nat) (v : Sq) : (s.setSq r v).reads = s.reads := rfl
@[simp] theorem State.setSq_cq (r : Nat) (v : Sq) : (s.setSq r v).cq = s.cq := rfl
@[simp] theorem State.setSq_slices (r : Nat) (v : Sq) : (s.setSq r v).slices = s.slices := rfl
@[simp] theorem State.setSq_books (r : Nat) (v : Sq) : (s.setSq r v).books = s.books := rfl
@[simp] theorem State.setSq_mpus (r : Nat) (v : Sq) : (s.setSq r v).mpus = s.mpus := rfl
@[simp] theorem State.setSq_msix (r : Nat) (v : Sq) : (s.setSq r v).msix = s.msix := rfl
@[simp] theorem State.setSq_link (r : Nat) (v : Sq) : (s.setSq r v).link = s.link := rfl
@[simp] theorem State.setSq_hregs (r : Nat) (v : Sq) : (s.setSq r v).hregs = s.hregs := rfl
@[simp] theorem State.setSq_logs (r : Nat) (v : Sq) : (s.setSq r v).logs = s.logs := rfl
@[simp] theorem State.setSq_sched (r : Nat) (v : Sq) : (s.setSq r v).sched = s.sched := rfl
@[simp] theorem State.setSq_pan (r : Nat) (v : Sq) : (s.setSq r v).pan = s.pan := rfl
@[simp] theorem State.setSq_brine (r : Nat) (v : Sq) : (s.setSq r v).brine = s.brine := rfl
@[simp] theorem State.setSq_applets (r : Nat) (v : Sq) : (s.setSq r v).applets = s.applets := rfl
@[simp] theorem State.setSq_keys (r : Nat) (v : Sq) : (s.setSq r v).keys = s.keys := rfl
@[simp] theorem State.setSq_crypto (r : Nat) (v : Sq) : (s.setSq r v).crypto = s.crypto := rfl
@[simp] theorem State.setSq_rng (r : Nat) (v : Sq) : (s.setSq r v).rng = s.rng := rfl
@[simp] theorem State.setSq_nv (r : Nat) (v : Sq) : (s.setSq r v).nv = s.nv := rfl
@[simp] theorem State.setSq_tamper (r : Nat) (v : Sq) : (s.setSq r v).tamper = s.tamper := rfl
@[simp] theorem State.setSq_cl (r : Nat) (v : Sq) : (s.setSq r v).cl = s.cl := rfl
@[simp] theorem State.setSq_pwr (r : Nat) (v : Sq) : (s.setSq r v).pwr = s.pwr := rfl
@[simp] theorem State.setSq_tel (r : Nat) (v : Sq) : (s.setSq r v).tel = s.tel := rfl

/-! modSq -/

@[simp] theorem State.modSq_pending (r : Nat) (f : Sq → Sq) : (s.modSq r f).pending = s.pending := rfl
@[simp] theorem State.modSq_out (r : Nat) (f : Sq → Sq) : (s.modSq r f).out = s.out := rfl
@[simp] theorem State.modSq_nextId (r : Nat) (f : Sq → Sq) : (s.modSq r f).nextId = s.nextId := rfl
@[simp] theorem State.modSq_draws (r : Nat) (f : Sq → Sq) : (s.modSq r f).draws = s.draws := rfl
@[simp] theorem State.modSq_work (r : Nat) (f : Sq → Sq) : (s.modSq r f).work = s.work := rfl
@[simp] theorem State.modSq_reads (r : Nat) (f : Sq → Sq) : (s.modSq r f).reads = s.reads := rfl
@[simp] theorem State.modSq_cq (r : Nat) (f : Sq → Sq) : (s.modSq r f).cq = s.cq := rfl
@[simp] theorem State.modSq_slices (r : Nat) (f : Sq → Sq) : (s.modSq r f).slices = s.slices := rfl
@[simp] theorem State.modSq_books (r : Nat) (f : Sq → Sq) : (s.modSq r f).books = s.books := rfl
@[simp] theorem State.modSq_mpus (r : Nat) (f : Sq → Sq) : (s.modSq r f).mpus = s.mpus := rfl
@[simp] theorem State.modSq_msix (r : Nat) (f : Sq → Sq) : (s.modSq r f).msix = s.msix := rfl
@[simp] theorem State.modSq_link (r : Nat) (f : Sq → Sq) : (s.modSq r f).link = s.link := rfl
@[simp] theorem State.modSq_hregs (r : Nat) (f : Sq → Sq) : (s.modSq r f).hregs = s.hregs := rfl
@[simp] theorem State.modSq_logs (r : Nat) (f : Sq → Sq) : (s.modSq r f).logs = s.logs := rfl
@[simp] theorem State.modSq_sched (r : Nat) (f : Sq → Sq) : (s.modSq r f).sched = s.sched := rfl
@[simp] theorem State.modSq_pan (r : Nat) (f : Sq → Sq) : (s.modSq r f).pan = s.pan := rfl
@[simp] theorem State.modSq_brine (r : Nat) (f : Sq → Sq) : (s.modSq r f).brine = s.brine := rfl
@[simp] theorem State.modSq_applets (r : Nat) (f : Sq → Sq) : (s.modSq r f).applets = s.applets := rfl
@[simp] theorem State.modSq_keys (r : Nat) (f : Sq → Sq) : (s.modSq r f).keys = s.keys := rfl
@[simp] theorem State.modSq_crypto (r : Nat) (f : Sq → Sq) : (s.modSq r f).crypto = s.crypto := rfl
@[simp] theorem State.modSq_rng (r : Nat) (f : Sq → Sq) : (s.modSq r f).rng = s.rng := rfl
@[simp] theorem State.modSq_nv (r : Nat) (f : Sq → Sq) : (s.modSq r f).nv = s.nv := rfl
@[simp] theorem State.modSq_tamper (r : Nat) (f : Sq → Sq) : (s.modSq r f).tamper = s.tamper := rfl
@[simp] theorem State.modSq_cl (r : Nat) (f : Sq → Sq) : (s.modSq r f).cl = s.cl := rfl
@[simp] theorem State.modSq_pwr (r : Nat) (f : Sq → Sq) : (s.modSq r f).pwr = s.pwr := rfl
@[simp] theorem State.modSq_tel (r : Nat) (f : Sq → Sq) : (s.modSq r f).tel = s.tel := rfl

/-! setCq -/

@[simp] theorem State.setCq_pending (c : Nat) (v : Cq) : (s.setCq c v).pending = s.pending := rfl
@[simp] theorem State.setCq_out (c : Nat) (v : Cq) : (s.setCq c v).out = s.out := rfl
@[simp] theorem State.setCq_nextId (c : Nat) (v : Cq) : (s.setCq c v).nextId = s.nextId := rfl
@[simp] theorem State.setCq_draws (c : Nat) (v : Cq) : (s.setCq c v).draws = s.draws := rfl
@[simp] theorem State.setCq_work (c : Nat) (v : Cq) : (s.setCq c v).work = s.work := rfl
@[simp] theorem State.setCq_reads (c : Nat) (v : Cq) : (s.setCq c v).reads = s.reads := rfl
@[simp] theorem State.setCq_sq (c : Nat) (v : Cq) : (s.setCq c v).sq = s.sq := rfl
@[simp] theorem State.setCq_slices (c : Nat) (v : Cq) : (s.setCq c v).slices = s.slices := rfl
@[simp] theorem State.setCq_books (c : Nat) (v : Cq) : (s.setCq c v).books = s.books := rfl
@[simp] theorem State.setCq_mpus (c : Nat) (v : Cq) : (s.setCq c v).mpus = s.mpus := rfl
@[simp] theorem State.setCq_msix (c : Nat) (v : Cq) : (s.setCq c v).msix = s.msix := rfl
@[simp] theorem State.setCq_link (c : Nat) (v : Cq) : (s.setCq c v).link = s.link := rfl
@[simp] theorem State.setCq_hregs (c : Nat) (v : Cq) : (s.setCq c v).hregs = s.hregs := rfl
@[simp] theorem State.setCq_logs (c : Nat) (v : Cq) : (s.setCq c v).logs = s.logs := rfl
@[simp] theorem State.setCq_sched (c : Nat) (v : Cq) : (s.setCq c v).sched = s.sched := rfl
@[simp] theorem State.setCq_pan (c : Nat) (v : Cq) : (s.setCq c v).pan = s.pan := rfl
@[simp] theorem State.setCq_brine (c : Nat) (v : Cq) : (s.setCq c v).brine = s.brine := rfl
@[simp] theorem State.setCq_applets (c : Nat) (v : Cq) : (s.setCq c v).applets = s.applets := rfl
@[simp] theorem State.setCq_keys (c : Nat) (v : Cq) : (s.setCq c v).keys = s.keys := rfl
@[simp] theorem State.setCq_crypto (c : Nat) (v : Cq) : (s.setCq c v).crypto = s.crypto := rfl
@[simp] theorem State.setCq_rng (c : Nat) (v : Cq) : (s.setCq c v).rng = s.rng := rfl
@[simp] theorem State.setCq_nv (c : Nat) (v : Cq) : (s.setCq c v).nv = s.nv := rfl
@[simp] theorem State.setCq_tamper (c : Nat) (v : Cq) : (s.setCq c v).tamper = s.tamper := rfl
@[simp] theorem State.setCq_cl (c : Nat) (v : Cq) : (s.setCq c v).cl = s.cl := rfl
@[simp] theorem State.setCq_pwr (c : Nat) (v : Cq) : (s.setCq c v).pwr = s.pwr := rfl
@[simp] theorem State.setCq_tel (c : Nat) (v : Cq) : (s.setCq c v).tel = s.tel := rfl

/-! modCq -/

@[simp] theorem State.modCq_pending (c : Nat) (f : Cq → Cq) : (s.modCq c f).pending = s.pending := rfl
@[simp] theorem State.modCq_out (c : Nat) (f : Cq → Cq) : (s.modCq c f).out = s.out := rfl
@[simp] theorem State.modCq_nextId (c : Nat) (f : Cq → Cq) : (s.modCq c f).nextId = s.nextId := rfl
@[simp] theorem State.modCq_draws (c : Nat) (f : Cq → Cq) : (s.modCq c f).draws = s.draws := rfl
@[simp] theorem State.modCq_work (c : Nat) (f : Cq → Cq) : (s.modCq c f).work = s.work := rfl
@[simp] theorem State.modCq_reads (c : Nat) (f : Cq → Cq) : (s.modCq c f).reads = s.reads := rfl
@[simp] theorem State.modCq_sq (c : Nat) (f : Cq → Cq) : (s.modCq c f).sq = s.sq := rfl
@[simp] theorem State.modCq_slices (c : Nat) (f : Cq → Cq) : (s.modCq c f).slices = s.slices := rfl
@[simp] theorem State.modCq_books (c : Nat) (f : Cq → Cq) : (s.modCq c f).books = s.books := rfl
@[simp] theorem State.modCq_mpus (c : Nat) (f : Cq → Cq) : (s.modCq c f).mpus = s.mpus := rfl
@[simp] theorem State.modCq_msix (c : Nat) (f : Cq → Cq) : (s.modCq c f).msix = s.msix := rfl
@[simp] theorem State.modCq_link (c : Nat) (f : Cq → Cq) : (s.modCq c f).link = s.link := rfl
@[simp] theorem State.modCq_hregs (c : Nat) (f : Cq → Cq) : (s.modCq c f).hregs = s.hregs := rfl
@[simp] theorem State.modCq_logs (c : Nat) (f : Cq → Cq) : (s.modCq c f).logs = s.logs := rfl
@[simp] theorem State.modCq_sched (c : Nat) (f : Cq → Cq) : (s.modCq c f).sched = s.sched := rfl
@[simp] theorem State.modCq_pan (c : Nat) (f : Cq → Cq) : (s.modCq c f).pan = s.pan := rfl
@[simp] theorem State.modCq_brine (c : Nat) (f : Cq → Cq) : (s.modCq c f).brine = s.brine := rfl
@[simp] theorem State.modCq_applets (c : Nat) (f : Cq → Cq) : (s.modCq c f).applets = s.applets := rfl
@[simp] theorem State.modCq_keys (c : Nat) (f : Cq → Cq) : (s.modCq c f).keys = s.keys := rfl
@[simp] theorem State.modCq_crypto (c : Nat) (f : Cq → Cq) : (s.modCq c f).crypto = s.crypto := rfl
@[simp] theorem State.modCq_rng (c : Nat) (f : Cq → Cq) : (s.modCq c f).rng = s.rng := rfl
@[simp] theorem State.modCq_nv (c : Nat) (f : Cq → Cq) : (s.modCq c f).nv = s.nv := rfl
@[simp] theorem State.modCq_tamper (c : Nat) (f : Cq → Cq) : (s.modCq c f).tamper = s.tamper := rfl
@[simp] theorem State.modCq_cl (c : Nat) (f : Cq → Cq) : (s.modCq c f).cl = s.cl := rfl
@[simp] theorem State.modCq_pwr (c : Nat) (f : Cq → Cq) : (s.modCq c f).pwr = s.pwr := rfl
@[simp] theorem State.modCq_tel (c : Nat) (f : Cq → Cq) : (s.modCq c f).tel = s.tel := rfl

/-! setSlice -/

@[simp] theorem State.setSlice_pending (n : Nat) (v : Slice) : (s.setSlice n v).pending = s.pending := rfl
@[simp] theorem State.setSlice_out (n : Nat) (v : Slice) : (s.setSlice n v).out = s.out := rfl
@[simp] theorem State.setSlice_nextId (n : Nat) (v : Slice) : (s.setSlice n v).nextId = s.nextId := rfl
@[simp] theorem State.setSlice_draws (n : Nat) (v : Slice) : (s.setSlice n v).draws = s.draws := rfl
@[simp] theorem State.setSlice_work (n : Nat) (v : Slice) : (s.setSlice n v).work = s.work := rfl
@[simp] theorem State.setSlice_reads (n : Nat) (v : Slice) : (s.setSlice n v).reads = s.reads := rfl
@[simp] theorem State.setSlice_sq (n : Nat) (v : Slice) : (s.setSlice n v).sq = s.sq := rfl
@[simp] theorem State.setSlice_cq (n : Nat) (v : Slice) : (s.setSlice n v).cq = s.cq := rfl
@[simp] theorem State.setSlice_books (n : Nat) (v : Slice) : (s.setSlice n v).books = s.books := rfl
@[simp] theorem State.setSlice_mpus (n : Nat) (v : Slice) : (s.setSlice n v).mpus = s.mpus := rfl
@[simp] theorem State.setSlice_msix (n : Nat) (v : Slice) : (s.setSlice n v).msix = s.msix := rfl
@[simp] theorem State.setSlice_link (n : Nat) (v : Slice) : (s.setSlice n v).link = s.link := rfl
@[simp] theorem State.setSlice_hregs (n : Nat) (v : Slice) : (s.setSlice n v).hregs = s.hregs := rfl
@[simp] theorem State.setSlice_logs (n : Nat) (v : Slice) : (s.setSlice n v).logs = s.logs := rfl
@[simp] theorem State.setSlice_sched (n : Nat) (v : Slice) : (s.setSlice n v).sched = s.sched := rfl
@[simp] theorem State.setSlice_pan (n : Nat) (v : Slice) : (s.setSlice n v).pan = s.pan := rfl
@[simp] theorem State.setSlice_brine (n : Nat) (v : Slice) : (s.setSlice n v).brine = s.brine := rfl
@[simp] theorem State.setSlice_applets (n : Nat) (v : Slice) : (s.setSlice n v).applets = s.applets := rfl
@[simp] theorem State.setSlice_keys (n : Nat) (v : Slice) : (s.setSlice n v).keys = s.keys := rfl
@[simp] theorem State.setSlice_crypto (n : Nat) (v : Slice) : (s.setSlice n v).crypto = s.crypto := rfl
@[simp] theorem State.setSlice_rng (n : Nat) (v : Slice) : (s.setSlice n v).rng = s.rng := rfl
@[simp] theorem State.setSlice_nv (n : Nat) (v : Slice) : (s.setSlice n v).nv = s.nv := rfl
@[simp] theorem State.setSlice_tamper (n : Nat) (v : Slice) : (s.setSlice n v).tamper = s.tamper := rfl
@[simp] theorem State.setSlice_cl (n : Nat) (v : Slice) : (s.setSlice n v).cl = s.cl := rfl
@[simp] theorem State.setSlice_pwr (n : Nat) (v : Slice) : (s.setSlice n v).pwr = s.pwr := rfl
@[simp] theorem State.setSlice_tel (n : Nat) (v : Slice) : (s.setSlice n v).tel = s.tel := rfl

/-! modSlice -/

@[simp] theorem State.modSlice_pending (n : Nat) (f : Slice → Slice) : (s.modSlice n f).pending = s.pending := rfl
@[simp] theorem State.modSlice_out (n : Nat) (f : Slice → Slice) : (s.modSlice n f).out = s.out := rfl
@[simp] theorem State.modSlice_nextId (n : Nat) (f : Slice → Slice) : (s.modSlice n f).nextId = s.nextId := rfl
@[simp] theorem State.modSlice_draws (n : Nat) (f : Slice → Slice) : (s.modSlice n f).draws = s.draws := rfl
@[simp] theorem State.modSlice_work (n : Nat) (f : Slice → Slice) : (s.modSlice n f).work = s.work := rfl
@[simp] theorem State.modSlice_reads (n : Nat) (f : Slice → Slice) : (s.modSlice n f).reads = s.reads := rfl
@[simp] theorem State.modSlice_sq (n : Nat) (f : Slice → Slice) : (s.modSlice n f).sq = s.sq := rfl
@[simp] theorem State.modSlice_cq (n : Nat) (f : Slice → Slice) : (s.modSlice n f).cq = s.cq := rfl
@[simp] theorem State.modSlice_books (n : Nat) (f : Slice → Slice) : (s.modSlice n f).books = s.books := rfl
@[simp] theorem State.modSlice_mpus (n : Nat) (f : Slice → Slice) : (s.modSlice n f).mpus = s.mpus := rfl
@[simp] theorem State.modSlice_msix (n : Nat) (f : Slice → Slice) : (s.modSlice n f).msix = s.msix := rfl
@[simp] theorem State.modSlice_link (n : Nat) (f : Slice → Slice) : (s.modSlice n f).link = s.link := rfl
@[simp] theorem State.modSlice_hregs (n : Nat) (f : Slice → Slice) : (s.modSlice n f).hregs = s.hregs := rfl
@[simp] theorem State.modSlice_logs (n : Nat) (f : Slice → Slice) : (s.modSlice n f).logs = s.logs := rfl
@[simp] theorem State.modSlice_sched (n : Nat) (f : Slice → Slice) : (s.modSlice n f).sched = s.sched := rfl
@[simp] theorem State.modSlice_pan (n : Nat) (f : Slice → Slice) : (s.modSlice n f).pan = s.pan := rfl
@[simp] theorem State.modSlice_brine (n : Nat) (f : Slice → Slice) : (s.modSlice n f).brine = s.brine := rfl
@[simp] theorem State.modSlice_applets (n : Nat) (f : Slice → Slice) : (s.modSlice n f).applets = s.applets := rfl
@[simp] theorem State.modSlice_keys (n : Nat) (f : Slice → Slice) : (s.modSlice n f).keys = s.keys := rfl
@[simp] theorem State.modSlice_crypto (n : Nat) (f : Slice → Slice) : (s.modSlice n f).crypto = s.crypto := rfl
@[simp] theorem State.modSlice_rng (n : Nat) (f : Slice → Slice) : (s.modSlice n f).rng = s.rng := rfl
@[simp] theorem State.modSlice_nv (n : Nat) (f : Slice → Slice) : (s.modSlice n f).nv = s.nv := rfl
@[simp] theorem State.modSlice_tamper (n : Nat) (f : Slice → Slice) : (s.modSlice n f).tamper = s.tamper := rfl
@[simp] theorem State.modSlice_cl (n : Nat) (f : Slice → Slice) : (s.modSlice n f).cl = s.cl := rfl
@[simp] theorem State.modSlice_pwr (n : Nat) (f : Slice → Slice) : (s.modSlice n f).pwr = s.pwr := rfl
@[simp] theorem State.modSlice_tel (n : Nat) (f : Slice → Slice) : (s.modSlice n f).tel = s.tel := rfl

/-! setBook -/

@[simp] theorem State.setBook_pending (b : Nat) (v : Book) : (s.setBook b v).pending = s.pending := rfl
@[simp] theorem State.setBook_out (b : Nat) (v : Book) : (s.setBook b v).out = s.out := rfl
@[simp] theorem State.setBook_nextId (b : Nat) (v : Book) : (s.setBook b v).nextId = s.nextId := rfl
@[simp] theorem State.setBook_draws (b : Nat) (v : Book) : (s.setBook b v).draws = s.draws := rfl
@[simp] theorem State.setBook_work (b : Nat) (v : Book) : (s.setBook b v).work = s.work := rfl
@[simp] theorem State.setBook_reads (b : Nat) (v : Book) : (s.setBook b v).reads = s.reads := rfl
@[simp] theorem State.setBook_sq (b : Nat) (v : Book) : (s.setBook b v).sq = s.sq := rfl
@[simp] theorem State.setBook_cq (b : Nat) (v : Book) : (s.setBook b v).cq = s.cq := rfl
@[simp] theorem State.setBook_slices (b : Nat) (v : Book) : (s.setBook b v).slices = s.slices := rfl
@[simp] theorem State.setBook_mpus (b : Nat) (v : Book) : (s.setBook b v).mpus = s.mpus := rfl
@[simp] theorem State.setBook_msix (b : Nat) (v : Book) : (s.setBook b v).msix = s.msix := rfl
@[simp] theorem State.setBook_link (b : Nat) (v : Book) : (s.setBook b v).link = s.link := rfl
@[simp] theorem State.setBook_hregs (b : Nat) (v : Book) : (s.setBook b v).hregs = s.hregs := rfl
@[simp] theorem State.setBook_logs (b : Nat) (v : Book) : (s.setBook b v).logs = s.logs := rfl
@[simp] theorem State.setBook_sched (b : Nat) (v : Book) : (s.setBook b v).sched = s.sched := rfl
@[simp] theorem State.setBook_pan (b : Nat) (v : Book) : (s.setBook b v).pan = s.pan := rfl
@[simp] theorem State.setBook_brine (b : Nat) (v : Book) : (s.setBook b v).brine = s.brine := rfl
@[simp] theorem State.setBook_applets (b : Nat) (v : Book) : (s.setBook b v).applets = s.applets := rfl
@[simp] theorem State.setBook_keys (b : Nat) (v : Book) : (s.setBook b v).keys = s.keys := rfl
@[simp] theorem State.setBook_crypto (b : Nat) (v : Book) : (s.setBook b v).crypto = s.crypto := rfl
@[simp] theorem State.setBook_rng (b : Nat) (v : Book) : (s.setBook b v).rng = s.rng := rfl
@[simp] theorem State.setBook_nv (b : Nat) (v : Book) : (s.setBook b v).nv = s.nv := rfl
@[simp] theorem State.setBook_tamper (b : Nat) (v : Book) : (s.setBook b v).tamper = s.tamper := rfl
@[simp] theorem State.setBook_cl (b : Nat) (v : Book) : (s.setBook b v).cl = s.cl := rfl
@[simp] theorem State.setBook_pwr (b : Nat) (v : Book) : (s.setBook b v).pwr = s.pwr := rfl
@[simp] theorem State.setBook_tel (b : Nat) (v : Book) : (s.setBook b v).tel = s.tel := rfl

/-! modBook -/

@[simp] theorem State.modBook_pending (b : Nat) (f : Book → Book) : (s.modBook b f).pending = s.pending := rfl
@[simp] theorem State.modBook_out (b : Nat) (f : Book → Book) : (s.modBook b f).out = s.out := rfl
@[simp] theorem State.modBook_nextId (b : Nat) (f : Book → Book) : (s.modBook b f).nextId = s.nextId := rfl
@[simp] theorem State.modBook_draws (b : Nat) (f : Book → Book) : (s.modBook b f).draws = s.draws := rfl
@[simp] theorem State.modBook_work (b : Nat) (f : Book → Book) : (s.modBook b f).work = s.work := rfl
@[simp] theorem State.modBook_reads (b : Nat) (f : Book → Book) : (s.modBook b f).reads = s.reads := rfl
@[simp] theorem State.modBook_sq (b : Nat) (f : Book → Book) : (s.modBook b f).sq = s.sq := rfl
@[simp] theorem State.modBook_cq (b : Nat) (f : Book → Book) : (s.modBook b f).cq = s.cq := rfl
@[simp] theorem State.modBook_slices (b : Nat) (f : Book → Book) : (s.modBook b f).slices = s.slices := rfl
@[simp] theorem State.modBook_mpus (b : Nat) (f : Book → Book) : (s.modBook b f).mpus = s.mpus := rfl
@[simp] theorem State.modBook_msix (b : Nat) (f : Book → Book) : (s.modBook b f).msix = s.msix := rfl
@[simp] theorem State.modBook_link (b : Nat) (f : Book → Book) : (s.modBook b f).link = s.link := rfl
@[simp] theorem State.modBook_hregs (b : Nat) (f : Book → Book) : (s.modBook b f).hregs = s.hregs := rfl
@[simp] theorem State.modBook_logs (b : Nat) (f : Book → Book) : (s.modBook b f).logs = s.logs := rfl
@[simp] theorem State.modBook_sched (b : Nat) (f : Book → Book) : (s.modBook b f).sched = s.sched := rfl
@[simp] theorem State.modBook_pan (b : Nat) (f : Book → Book) : (s.modBook b f).pan = s.pan := rfl
@[simp] theorem State.modBook_brine (b : Nat) (f : Book → Book) : (s.modBook b f).brine = s.brine := rfl
@[simp] theorem State.modBook_applets (b : Nat) (f : Book → Book) : (s.modBook b f).applets = s.applets := rfl
@[simp] theorem State.modBook_keys (b : Nat) (f : Book → Book) : (s.modBook b f).keys = s.keys := rfl
@[simp] theorem State.modBook_crypto (b : Nat) (f : Book → Book) : (s.modBook b f).crypto = s.crypto := rfl
@[simp] theorem State.modBook_rng (b : Nat) (f : Book → Book) : (s.modBook b f).rng = s.rng := rfl
@[simp] theorem State.modBook_nv (b : Nat) (f : Book → Book) : (s.modBook b f).nv = s.nv := rfl
@[simp] theorem State.modBook_tamper (b : Nat) (f : Book → Book) : (s.modBook b f).tamper = s.tamper := rfl
@[simp] theorem State.modBook_cl (b : Nat) (f : Book → Book) : (s.modBook b f).cl = s.cl := rfl
@[simp] theorem State.modBook_pwr (b : Nat) (f : Book → Book) : (s.modBook b f).pwr = s.pwr := rfl
@[simp] theorem State.modBook_tel (b : Nat) (f : Book → Book) : (s.modBook b f).tel = s.tel := rfl

/-! setVector -/

@[simp] theorem State.setVector_pending (n : Nat) (v : Vector) : (s.setVector n v).pending = s.pending := rfl
@[simp] theorem State.setVector_out (n : Nat) (v : Vector) : (s.setVector n v).out = s.out := rfl
@[simp] theorem State.setVector_nextId (n : Nat) (v : Vector) : (s.setVector n v).nextId = s.nextId := rfl
@[simp] theorem State.setVector_draws (n : Nat) (v : Vector) : (s.setVector n v).draws = s.draws := rfl
@[simp] theorem State.setVector_work (n : Nat) (v : Vector) : (s.setVector n v).work = s.work := rfl
@[simp] theorem State.setVector_reads (n : Nat) (v : Vector) : (s.setVector n v).reads = s.reads := rfl
@[simp] theorem State.setVector_sq (n : Nat) (v : Vector) : (s.setVector n v).sq = s.sq := rfl
@[simp] theorem State.setVector_cq (n : Nat) (v : Vector) : (s.setVector n v).cq = s.cq := rfl
@[simp] theorem State.setVector_slices (n : Nat) (v : Vector) : (s.setVector n v).slices = s.slices := rfl
@[simp] theorem State.setVector_books (n : Nat) (v : Vector) : (s.setVector n v).books = s.books := rfl
@[simp] theorem State.setVector_mpus (n : Nat) (v : Vector) : (s.setVector n v).mpus = s.mpus := rfl
@[simp] theorem State.setVector_link (n : Nat) (v : Vector) : (s.setVector n v).link = s.link := rfl
@[simp] theorem State.setVector_hregs (n : Nat) (v : Vector) : (s.setVector n v).hregs = s.hregs := rfl
@[simp] theorem State.setVector_logs (n : Nat) (v : Vector) : (s.setVector n v).logs = s.logs := rfl
@[simp] theorem State.setVector_sched (n : Nat) (v : Vector) : (s.setVector n v).sched = s.sched := rfl
@[simp] theorem State.setVector_pan (n : Nat) (v : Vector) : (s.setVector n v).pan = s.pan := rfl
@[simp] theorem State.setVector_brine (n : Nat) (v : Vector) : (s.setVector n v).brine = s.brine := rfl
@[simp] theorem State.setVector_applets (n : Nat) (v : Vector) : (s.setVector n v).applets = s.applets := rfl
@[simp] theorem State.setVector_keys (n : Nat) (v : Vector) : (s.setVector n v).keys = s.keys := rfl
@[simp] theorem State.setVector_crypto (n : Nat) (v : Vector) : (s.setVector n v).crypto = s.crypto := rfl
@[simp] theorem State.setVector_rng (n : Nat) (v : Vector) : (s.setVector n v).rng = s.rng := rfl
@[simp] theorem State.setVector_nv (n : Nat) (v : Vector) : (s.setVector n v).nv = s.nv := rfl
@[simp] theorem State.setVector_tamper (n : Nat) (v : Vector) : (s.setVector n v).tamper = s.tamper := rfl
@[simp] theorem State.setVector_cl (n : Nat) (v : Vector) : (s.setVector n v).cl = s.cl := rfl
@[simp] theorem State.setVector_pwr (n : Nat) (v : Vector) : (s.setVector n v).pwr = s.pwr := rfl
@[simp] theorem State.setVector_tel (n : Nat) (v : Vector) : (s.setVector n v).tel = s.tel := rfl

/-! setMpu -/

@[simp] theorem State.setMpu_pending (m : Nat) (v : Mpu) : (s.setMpu m v).pending = s.pending := rfl
@[simp] theorem State.setMpu_out (m : Nat) (v : Mpu) : (s.setMpu m v).out = s.out := rfl
@[simp] theorem State.setMpu_nextId (m : Nat) (v : Mpu) : (s.setMpu m v).nextId = s.nextId := rfl
@[simp] theorem State.setMpu_draws (m : Nat) (v : Mpu) : (s.setMpu m v).draws = s.draws := rfl
@[simp] theorem State.setMpu_work (m : Nat) (v : Mpu) : (s.setMpu m v).work = s.work := rfl
@[simp] theorem State.setMpu_reads (m : Nat) (v : Mpu) : (s.setMpu m v).reads = s.reads := rfl
@[simp] theorem State.setMpu_sq (m : Nat) (v : Mpu) : (s.setMpu m v).sq = s.sq := rfl
@[simp] theorem State.setMpu_cq (m : Nat) (v : Mpu) : (s.setMpu m v).cq = s.cq := rfl
@[simp] theorem State.setMpu_slices (m : Nat) (v : Mpu) : (s.setMpu m v).slices = s.slices := rfl
@[simp] theorem State.setMpu_books (m : Nat) (v : Mpu) : (s.setMpu m v).books = s.books := rfl
@[simp] theorem State.setMpu_msix (m : Nat) (v : Mpu) : (s.setMpu m v).msix = s.msix := rfl
@[simp] theorem State.setMpu_link (m : Nat) (v : Mpu) : (s.setMpu m v).link = s.link := rfl
@[simp] theorem State.setMpu_hregs (m : Nat) (v : Mpu) : (s.setMpu m v).hregs = s.hregs := rfl
@[simp] theorem State.setMpu_logs (m : Nat) (v : Mpu) : (s.setMpu m v).logs = s.logs := rfl
@[simp] theorem State.setMpu_sched (m : Nat) (v : Mpu) : (s.setMpu m v).sched = s.sched := rfl
@[simp] theorem State.setMpu_pan (m : Nat) (v : Mpu) : (s.setMpu m v).pan = s.pan := rfl
@[simp] theorem State.setMpu_brine (m : Nat) (v : Mpu) : (s.setMpu m v).brine = s.brine := rfl
@[simp] theorem State.setMpu_applets (m : Nat) (v : Mpu) : (s.setMpu m v).applets = s.applets := rfl
@[simp] theorem State.setMpu_keys (m : Nat) (v : Mpu) : (s.setMpu m v).keys = s.keys := rfl
@[simp] theorem State.setMpu_crypto (m : Nat) (v : Mpu) : (s.setMpu m v).crypto = s.crypto := rfl
@[simp] theorem State.setMpu_rng (m : Nat) (v : Mpu) : (s.setMpu m v).rng = s.rng := rfl
@[simp] theorem State.setMpu_nv (m : Nat) (v : Mpu) : (s.setMpu m v).nv = s.nv := rfl
@[simp] theorem State.setMpu_tamper (m : Nat) (v : Mpu) : (s.setMpu m v).tamper = s.tamper := rfl
@[simp] theorem State.setMpu_cl (m : Nat) (v : Mpu) : (s.setMpu m v).cl = s.cl := rfl
@[simp] theorem State.setMpu_pwr (m : Nat) (v : Mpu) : (s.setMpu m v).pwr = s.pwr := rfl
@[simp] theorem State.setMpu_tel (m : Nat) (v : Mpu) : (s.setMpu m v).tel = s.tel := rfl

/-! modMpu -/

@[simp] theorem State.modMpu_pending (m : Nat) (f : Mpu → Mpu) : (s.modMpu m f).pending = s.pending := rfl
@[simp] theorem State.modMpu_out (m : Nat) (f : Mpu → Mpu) : (s.modMpu m f).out = s.out := rfl
@[simp] theorem State.modMpu_nextId (m : Nat) (f : Mpu → Mpu) : (s.modMpu m f).nextId = s.nextId := rfl
@[simp] theorem State.modMpu_draws (m : Nat) (f : Mpu → Mpu) : (s.modMpu m f).draws = s.draws := rfl
@[simp] theorem State.modMpu_work (m : Nat) (f : Mpu → Mpu) : (s.modMpu m f).work = s.work := rfl
@[simp] theorem State.modMpu_reads (m : Nat) (f : Mpu → Mpu) : (s.modMpu m f).reads = s.reads := rfl
@[simp] theorem State.modMpu_sq (m : Nat) (f : Mpu → Mpu) : (s.modMpu m f).sq = s.sq := rfl
@[simp] theorem State.modMpu_cq (m : Nat) (f : Mpu → Mpu) : (s.modMpu m f).cq = s.cq := rfl
@[simp] theorem State.modMpu_slices (m : Nat) (f : Mpu → Mpu) : (s.modMpu m f).slices = s.slices := rfl
@[simp] theorem State.modMpu_books (m : Nat) (f : Mpu → Mpu) : (s.modMpu m f).books = s.books := rfl
@[simp] theorem State.modMpu_msix (m : Nat) (f : Mpu → Mpu) : (s.modMpu m f).msix = s.msix := rfl
@[simp] theorem State.modMpu_link (m : Nat) (f : Mpu → Mpu) : (s.modMpu m f).link = s.link := rfl
@[simp] theorem State.modMpu_hregs (m : Nat) (f : Mpu → Mpu) : (s.modMpu m f).hregs = s.hregs := rfl
@[simp] theorem State.modMpu_logs (m : Nat) (f : Mpu → Mpu) : (s.modMpu m f).logs = s.logs := rfl
@[simp] theorem State.modMpu_sched (m : Nat) (f : Mpu → Mpu) : (s.modMpu m f).sched = s.sched := rfl
@[simp] theorem State.modMpu_pan (m : Nat) (f : Mpu → Mpu) : (s.modMpu m f).pan = s.pan := rfl
@[simp] theorem State.modMpu_brine (m : Nat) (f : Mpu → Mpu) : (s.modMpu m f).brine = s.brine := rfl
@[simp] theorem State.modMpu_applets (m : Nat) (f : Mpu → Mpu) : (s.modMpu m f).applets = s.applets := rfl
@[simp] theorem State.modMpu_keys (m : Nat) (f : Mpu → Mpu) : (s.modMpu m f).keys = s.keys := rfl
@[simp] theorem State.modMpu_crypto (m : Nat) (f : Mpu → Mpu) : (s.modMpu m f).crypto = s.crypto := rfl
@[simp] theorem State.modMpu_rng (m : Nat) (f : Mpu → Mpu) : (s.modMpu m f).rng = s.rng := rfl
@[simp] theorem State.modMpu_nv (m : Nat) (f : Mpu → Mpu) : (s.modMpu m f).nv = s.nv := rfl
@[simp] theorem State.modMpu_tamper (m : Nat) (f : Mpu → Mpu) : (s.modMpu m f).tamper = s.tamper := rfl
@[simp] theorem State.modMpu_cl (m : Nat) (f : Mpu → Mpu) : (s.modMpu m f).cl = s.cl := rfl
@[simp] theorem State.modMpu_pwr (m : Nat) (f : Mpu → Mpu) : (s.modMpu m f).pwr = s.pwr := rfl
@[simp] theorem State.modMpu_tel (m : Nat) (f : Mpu → Mpu) : (s.modMpu m f).tel = s.tel := rfl

/-! setCore -/

@[simp] theorem State.setCore_pending (c : Nat) (v : Core) : (s.setCore c v).pending = s.pending := rfl
@[simp] theorem State.setCore_out (c : Nat) (v : Core) : (s.setCore c v).out = s.out := rfl
@[simp] theorem State.setCore_nextId (c : Nat) (v : Core) : (s.setCore c v).nextId = s.nextId := rfl
@[simp] theorem State.setCore_draws (c : Nat) (v : Core) : (s.setCore c v).draws = s.draws := rfl
@[simp] theorem State.setCore_work (c : Nat) (v : Core) : (s.setCore c v).work = s.work := rfl
@[simp] theorem State.setCore_reads (c : Nat) (v : Core) : (s.setCore c v).reads = s.reads := rfl
@[simp] theorem State.setCore_sq (c : Nat) (v : Core) : (s.setCore c v).sq = s.sq := rfl
@[simp] theorem State.setCore_cq (c : Nat) (v : Core) : (s.setCore c v).cq = s.cq := rfl
@[simp] theorem State.setCore_slices (c : Nat) (v : Core) : (s.setCore c v).slices = s.slices := rfl
@[simp] theorem State.setCore_books (c : Nat) (v : Core) : (s.setCore c v).books = s.books := rfl
@[simp] theorem State.setCore_mpus (c : Nat) (v : Core) : (s.setCore c v).mpus = s.mpus := rfl
@[simp] theorem State.setCore_msix (c : Nat) (v : Core) : (s.setCore c v).msix = s.msix := rfl
@[simp] theorem State.setCore_link (c : Nat) (v : Core) : (s.setCore c v).link = s.link := rfl
@[simp] theorem State.setCore_hregs (c : Nat) (v : Core) : (s.setCore c v).hregs = s.hregs := rfl
@[simp] theorem State.setCore_logs (c : Nat) (v : Core) : (s.setCore c v).logs = s.logs := rfl
@[simp] theorem State.setCore_sched (c : Nat) (v : Core) : (s.setCore c v).sched = s.sched := rfl
@[simp] theorem State.setCore_pan (c : Nat) (v : Core) : (s.setCore c v).pan = s.pan := rfl
@[simp] theorem State.setCore_brine (c : Nat) (v : Core) : (s.setCore c v).brine = s.brine := rfl
@[simp] theorem State.setCore_keys (c : Nat) (v : Core) : (s.setCore c v).keys = s.keys := rfl
@[simp] theorem State.setCore_crypto (c : Nat) (v : Core) : (s.setCore c v).crypto = s.crypto := rfl
@[simp] theorem State.setCore_rng (c : Nat) (v : Core) : (s.setCore c v).rng = s.rng := rfl
@[simp] theorem State.setCore_nv (c : Nat) (v : Core) : (s.setCore c v).nv = s.nv := rfl
@[simp] theorem State.setCore_tamper (c : Nat) (v : Core) : (s.setCore c v).tamper = s.tamper := rfl
@[simp] theorem State.setCore_cl (c : Nat) (v : Core) : (s.setCore c v).cl = s.cl := rfl
@[simp] theorem State.setCore_pwr (c : Nat) (v : Core) : (s.setCore c v).pwr = s.pwr := rfl
@[simp] theorem State.setCore_tel (c : Nat) (v : Core) : (s.setCore c v).tel = s.tel := rfl
@[simp] theorem State.setCore_applets_allow (c : Nat) (v : Core) : (s.setCore c v).applets.allow = s.applets.allow := rfl

/-! modCore -/

@[simp] theorem State.modCore_pending (c : Nat) (f : Core → Core) : (s.modCore c f).pending = s.pending := rfl
@[simp] theorem State.modCore_out (c : Nat) (f : Core → Core) : (s.modCore c f).out = s.out := rfl
@[simp] theorem State.modCore_nextId (c : Nat) (f : Core → Core) : (s.modCore c f).nextId = s.nextId := rfl
@[simp] theorem State.modCore_draws (c : Nat) (f : Core → Core) : (s.modCore c f).draws = s.draws := rfl
@[simp] theorem State.modCore_work (c : Nat) (f : Core → Core) : (s.modCore c f).work = s.work := rfl
@[simp] theorem State.modCore_reads (c : Nat) (f : Core → Core) : (s.modCore c f).reads = s.reads := rfl
@[simp] theorem State.modCore_sq (c : Nat) (f : Core → Core) : (s.modCore c f).sq = s.sq := rfl
@[simp] theorem State.modCore_cq (c : Nat) (f : Core → Core) : (s.modCore c f).cq = s.cq := rfl
@[simp] theorem State.modCore_slices (c : Nat) (f : Core → Core) : (s.modCore c f).slices = s.slices := rfl
@[simp] theorem State.modCore_books (c : Nat) (f : Core → Core) : (s.modCore c f).books = s.books := rfl
@[simp] theorem State.modCore_mpus (c : Nat) (f : Core → Core) : (s.modCore c f).mpus = s.mpus := rfl
@[simp] theorem State.modCore_msix (c : Nat) (f : Core → Core) : (s.modCore c f).msix = s.msix := rfl
@[simp] theorem State.modCore_link (c : Nat) (f : Core → Core) : (s.modCore c f).link = s.link := rfl
@[simp] theorem State.modCore_hregs (c : Nat) (f : Core → Core) : (s.modCore c f).hregs = s.hregs := rfl
@[simp] theorem State.modCore_logs (c : Nat) (f : Core → Core) : (s.modCore c f).logs = s.logs := rfl
@[simp] theorem State.modCore_sched (c : Nat) (f : Core → Core) : (s.modCore c f).sched = s.sched := rfl
@[simp] theorem State.modCore_pan (c : Nat) (f : Core → Core) : (s.modCore c f).pan = s.pan := rfl
@[simp] theorem State.modCore_brine (c : Nat) (f : Core → Core) : (s.modCore c f).brine = s.brine := rfl
@[simp] theorem State.modCore_keys (c : Nat) (f : Core → Core) : (s.modCore c f).keys = s.keys := rfl
@[simp] theorem State.modCore_crypto (c : Nat) (f : Core → Core) : (s.modCore c f).crypto = s.crypto := rfl
@[simp] theorem State.modCore_rng (c : Nat) (f : Core → Core) : (s.modCore c f).rng = s.rng := rfl
@[simp] theorem State.modCore_nv (c : Nat) (f : Core → Core) : (s.modCore c f).nv = s.nv := rfl
@[simp] theorem State.modCore_tamper (c : Nat) (f : Core → Core) : (s.modCore c f).tamper = s.tamper := rfl
@[simp] theorem State.modCore_cl (c : Nat) (f : Core → Core) : (s.modCore c f).cl = s.cl := rfl
@[simp] theorem State.modCore_pwr (c : Nat) (f : Core → Core) : (s.modCore c f).pwr = s.pwr := rfl
@[simp] theorem State.modCore_tel (c : Nat) (f : Core → Core) : (s.modCore c f).tel = s.tel := rfl
@[simp] theorem State.modCore_applets_allow (c : Nat) (f : Core → Core) : (s.modCore c f).applets.allow = s.applets.allow := rfl

/-! setAllow -/

@[simp] theorem State.setAllow_pending (e : Nat) (v : Allow) : (s.setAllow e v).pending = s.pending := rfl
@[simp] theorem State.setAllow_out (e : Nat) (v : Allow) : (s.setAllow e v).out = s.out := rfl
@[simp] theorem State.setAllow_nextId (e : Nat) (v : Allow) : (s.setAllow e v).nextId = s.nextId := rfl
@[simp] theorem State.setAllow_draws (e : Nat) (v : Allow) : (s.setAllow e v).draws = s.draws := rfl
@[simp] theorem State.setAllow_work (e : Nat) (v : Allow) : (s.setAllow e v).work = s.work := rfl
@[simp] theorem State.setAllow_reads (e : Nat) (v : Allow) : (s.setAllow e v).reads = s.reads := rfl
@[simp] theorem State.setAllow_sq (e : Nat) (v : Allow) : (s.setAllow e v).sq = s.sq := rfl
@[simp] theorem State.setAllow_cq (e : Nat) (v : Allow) : (s.setAllow e v).cq = s.cq := rfl
@[simp] theorem State.setAllow_slices (e : Nat) (v : Allow) : (s.setAllow e v).slices = s.slices := rfl
@[simp] theorem State.setAllow_books (e : Nat) (v : Allow) : (s.setAllow e v).books = s.books := rfl
@[simp] theorem State.setAllow_mpus (e : Nat) (v : Allow) : (s.setAllow e v).mpus = s.mpus := rfl
@[simp] theorem State.setAllow_msix (e : Nat) (v : Allow) : (s.setAllow e v).msix = s.msix := rfl
@[simp] theorem State.setAllow_link (e : Nat) (v : Allow) : (s.setAllow e v).link = s.link := rfl
@[simp] theorem State.setAllow_hregs (e : Nat) (v : Allow) : (s.setAllow e v).hregs = s.hregs := rfl
@[simp] theorem State.setAllow_logs (e : Nat) (v : Allow) : (s.setAllow e v).logs = s.logs := rfl
@[simp] theorem State.setAllow_sched (e : Nat) (v : Allow) : (s.setAllow e v).sched = s.sched := rfl
@[simp] theorem State.setAllow_pan (e : Nat) (v : Allow) : (s.setAllow e v).pan = s.pan := rfl
@[simp] theorem State.setAllow_brine (e : Nat) (v : Allow) : (s.setAllow e v).brine = s.brine := rfl
@[simp] theorem State.setAllow_keys (e : Nat) (v : Allow) : (s.setAllow e v).keys = s.keys := rfl
@[simp] theorem State.setAllow_crypto (e : Nat) (v : Allow) : (s.setAllow e v).crypto = s.crypto := rfl
@[simp] theorem State.setAllow_rng (e : Nat) (v : Allow) : (s.setAllow e v).rng = s.rng := rfl
@[simp] theorem State.setAllow_nv (e : Nat) (v : Allow) : (s.setAllow e v).nv = s.nv := rfl
@[simp] theorem State.setAllow_tamper (e : Nat) (v : Allow) : (s.setAllow e v).tamper = s.tamper := rfl
@[simp] theorem State.setAllow_cl (e : Nat) (v : Allow) : (s.setAllow e v).cl = s.cl := rfl
@[simp] theorem State.setAllow_pwr (e : Nat) (v : Allow) : (s.setAllow e v).pwr = s.pwr := rfl
@[simp] theorem State.setAllow_tel (e : Nat) (v : Allow) : (s.setAllow e v).tel = s.tel := rfl
@[simp] theorem State.setAllow_applets_cores (e : Nat) (v : Allow) : (s.setAllow e v).applets.cores = s.applets.cores := rfl

/-! setSlot -/

@[simp] theorem State.setSlot_pending (k i : Nat) (v : Slot) : (s.setSlot k i v).pending = s.pending := by unfold State.setSlot; split <;> rfl
@[simp] theorem State.setSlot_out (k i : Nat) (v : Slot) : (s.setSlot k i v).out = s.out := by unfold State.setSlot; split <;> rfl
@[simp] theorem State.setSlot_nextId (k i : Nat) (v : Slot) : (s.setSlot k i v).nextId = s.nextId := by unfold State.setSlot; split <;> rfl
@[simp] theorem State.setSlot_draws (k i : Nat) (v : Slot) : (s.setSlot k i v).draws = s.draws := by unfold State.setSlot; split <;> rfl
@[simp] theorem State.setSlot_work (k i : Nat) (v : Slot) : (s.setSlot k i v).work = s.work := by unfold State.setSlot; split <;> rfl
@[simp] theorem State.setSlot_reads (k i : Nat) (v : Slot) : (s.setSlot k i v).reads = s.reads := by unfold State.setSlot; split <;> rfl
@[simp] theorem State.setSlot_sq (k i : Nat) (v : Slot) : (s.setSlot k i v).sq = s.sq := by unfold State.setSlot; split <;> rfl
@[simp] theorem State.setSlot_cq (k i : Nat) (v : Slot) : (s.setSlot k i v).cq = s.cq := by unfold State.setSlot; split <;> rfl
@[simp] theorem State.setSlot_slices (k i : Nat) (v : Slot) : (s.setSlot k i v).slices = s.slices := by unfold State.setSlot; split <;> rfl
@[simp] theorem State.setSlot_books (k i : Nat) (v : Slot) : (s.setSlot k i v).books = s.books := by unfold State.setSlot; split <;> rfl
@[simp] theorem State.setSlot_mpus (k i : Nat) (v : Slot) : (s.setSlot k i v).mpus = s.mpus := by unfold State.setSlot; split <;> rfl
@[simp] theorem State.setSlot_msix (k i : Nat) (v : Slot) : (s.setSlot k i v).msix = s.msix := by unfold State.setSlot; split <;> rfl
@[simp] theorem State.setSlot_link (k i : Nat) (v : Slot) : (s.setSlot k i v).link = s.link := by unfold State.setSlot; split <;> rfl
@[simp] theorem State.setSlot_hregs (k i : Nat) (v : Slot) : (s.setSlot k i v).hregs = s.hregs := by unfold State.setSlot; split <;> rfl
@[simp] theorem State.setSlot_logs (k i : Nat) (v : Slot) : (s.setSlot k i v).logs = s.logs := by unfold State.setSlot; split <;> rfl
@[simp] theorem State.setSlot_sched (k i : Nat) (v : Slot) : (s.setSlot k i v).sched = s.sched := by unfold State.setSlot; split <;> rfl
@[simp] theorem State.setSlot_pan (k i : Nat) (v : Slot) : (s.setSlot k i v).pan = s.pan := by unfold State.setSlot; split <;> rfl
@[simp] theorem State.setSlot_brine (k i : Nat) (v : Slot) : (s.setSlot k i v).brine = s.brine := by unfold State.setSlot; split <;> rfl
@[simp] theorem State.setSlot_applets (k i : Nat) (v : Slot) : (s.setSlot k i v).applets = s.applets := by unfold State.setSlot; split <;> rfl
@[simp] theorem State.setSlot_crypto (k i : Nat) (v : Slot) : (s.setSlot k i v).crypto = s.crypto := by unfold State.setSlot; split <;> rfl
@[simp] theorem State.setSlot_rng (k i : Nat) (v : Slot) : (s.setSlot k i v).rng = s.rng := by unfold State.setSlot; split <;> rfl
@[simp] theorem State.setSlot_nv (k i : Nat) (v : Slot) : (s.setSlot k i v).nv = s.nv := by unfold State.setSlot; split <;> rfl
@[simp] theorem State.setSlot_tamper (k i : Nat) (v : Slot) : (s.setSlot k i v).tamper = s.tamper := by unfold State.setSlot; split <;> rfl
@[simp] theorem State.setSlot_cl (k i : Nat) (v : Slot) : (s.setSlot k i v).cl = s.cl := by unfold State.setSlot; split <;> rfl
@[simp] theorem State.setSlot_pwr (k i : Nat) (v : Slot) : (s.setSlot k i v).pwr = s.pwr := by unfold State.setSlot; split <;> rfl
@[simp] theorem State.setSlot_tel (k i : Nat) (v : Slot) : (s.setSlot k i v).tel = s.tel := by unfold State.setSlot; split <;> rfl

/-! modSlot -/

@[simp] theorem State.modSlot_pending (k i : Nat) (f : Slot → Slot) : (s.modSlot k i f).pending = s.pending := by unfold State.modSlot State.setSlot; split <;> rfl
@[simp] theorem State.modSlot_out (k i : Nat) (f : Slot → Slot) : (s.modSlot k i f).out = s.out := by unfold State.modSlot State.setSlot; split <;> rfl
@[simp] theorem State.modSlot_nextId (k i : Nat) (f : Slot → Slot) : (s.modSlot k i f).nextId = s.nextId := by unfold State.modSlot State.setSlot; split <;> rfl
@[simp] theorem State.modSlot_draws (k i : Nat) (f : Slot → Slot) : (s.modSlot k i f).draws = s.draws := by unfold State.modSlot State.setSlot; split <;> rfl
@[simp] theorem State.modSlot_work (k i : Nat) (f : Slot → Slot) : (s.modSlot k i f).work = s.work := by unfold State.modSlot State.setSlot; split <;> rfl
@[simp] theorem State.modSlot_reads (k i : Nat) (f : Slot → Slot) : (s.modSlot k i f).reads = s.reads := by unfold State.modSlot State.setSlot; split <;> rfl
@[simp] theorem State.modSlot_sq (k i : Nat) (f : Slot → Slot) : (s.modSlot k i f).sq = s.sq := by unfold State.modSlot State.setSlot; split <;> rfl
@[simp] theorem State.modSlot_cq (k i : Nat) (f : Slot → Slot) : (s.modSlot k i f).cq = s.cq := by unfold State.modSlot State.setSlot; split <;> rfl
@[simp] theorem State.modSlot_slices (k i : Nat) (f : Slot → Slot) : (s.modSlot k i f).slices = s.slices := by unfold State.modSlot State.setSlot; split <;> rfl
@[simp] theorem State.modSlot_books (k i : Nat) (f : Slot → Slot) : (s.modSlot k i f).books = s.books := by unfold State.modSlot State.setSlot; split <;> rfl
@[simp] theorem State.modSlot_mpus (k i : Nat) (f : Slot → Slot) : (s.modSlot k i f).mpus = s.mpus := by unfold State.modSlot State.setSlot; split <;> rfl
@[simp] theorem State.modSlot_msix (k i : Nat) (f : Slot → Slot) : (s.modSlot k i f).msix = s.msix := by unfold State.modSlot State.setSlot; split <;> rfl
@[simp] theorem State.modSlot_link (k i : Nat) (f : Slot → Slot) : (s.modSlot k i f).link = s.link := by unfold State.modSlot State.setSlot; split <;> rfl
@[simp] theorem State.modSlot_hregs (k i : Nat) (f : Slot → Slot) : (s.modSlot k i f).hregs = s.hregs := by unfold State.modSlot State.setSlot; split <;> rfl
@[simp] theorem State.modSlot_logs (k i : Nat) (f : Slot → Slot) : (s.modSlot k i f).logs = s.logs := by unfold State.modSlot State.setSlot; split <;> rfl
@[simp] theorem State.modSlot_sched (k i : Nat) (f : Slot → Slot) : (s.modSlot k i f).sched = s.sched := by unfold State.modSlot State.setSlot; split <;> rfl
@[simp] theorem State.modSlot_pan (k i : Nat) (f : Slot → Slot) : (s.modSlot k i f).pan = s.pan := by unfold State.modSlot State.setSlot; split <;> rfl
@[simp] theorem State.modSlot_brine (k i : Nat) (f : Slot → Slot) : (s.modSlot k i f).brine = s.brine := by unfold State.modSlot State.setSlot; split <;> rfl
@[simp] theorem State.modSlot_applets (k i : Nat) (f : Slot → Slot) : (s.modSlot k i f).applets = s.applets := by unfold State.modSlot State.setSlot; split <;> rfl
@[simp] theorem State.modSlot_crypto (k i : Nat) (f : Slot → Slot) : (s.modSlot k i f).crypto = s.crypto := by unfold State.modSlot State.setSlot; split <;> rfl
@[simp] theorem State.modSlot_rng (k i : Nat) (f : Slot → Slot) : (s.modSlot k i f).rng = s.rng := by unfold State.modSlot State.setSlot; split <;> rfl
@[simp] theorem State.modSlot_nv (k i : Nat) (f : Slot → Slot) : (s.modSlot k i f).nv = s.nv := by unfold State.modSlot State.setSlot; split <;> rfl
@[simp] theorem State.modSlot_tamper (k i : Nat) (f : Slot → Slot) : (s.modSlot k i f).tamper = s.tamper := by unfold State.modSlot State.setSlot; split <;> rfl
@[simp] theorem State.modSlot_cl (k i : Nat) (f : Slot → Slot) : (s.modSlot k i f).cl = s.cl := by unfold State.modSlot State.setSlot; split <;> rfl
@[simp] theorem State.modSlot_pwr (k i : Nat) (f : Slot → Slot) : (s.modSlot k i f).pwr = s.pwr := by unfold State.modSlot State.setSlot; split <;> rfl
@[simp] theorem State.modSlot_tel (k i : Nat) (f : Slot → Slot) : (s.modSlot k i f).tel = s.tel := by unfold State.modSlot State.setSlot; split <;> rfl

/-! setSession -/

@[simp] theorem State.setSession_pending (n : Nat) (v : Session) : (s.setSession n v).pending = s.pending := rfl
@[simp] theorem State.setSession_out (n : Nat) (v : Session) : (s.setSession n v).out = s.out := rfl
@[simp] theorem State.setSession_nextId (n : Nat) (v : Session) : (s.setSession n v).nextId = s.nextId := rfl
@[simp] theorem State.setSession_draws (n : Nat) (v : Session) : (s.setSession n v).draws = s.draws := rfl
@[simp] theorem State.setSession_work (n : Nat) (v : Session) : (s.setSession n v).work = s.work := rfl
@[simp] theorem State.setSession_reads (n : Nat) (v : Session) : (s.setSession n v).reads = s.reads := rfl
@[simp] theorem State.setSession_sq (n : Nat) (v : Session) : (s.setSession n v).sq = s.sq := rfl
@[simp] theorem State.setSession_cq (n : Nat) (v : Session) : (s.setSession n v).cq = s.cq := rfl
@[simp] theorem State.setSession_slices (n : Nat) (v : Session) : (s.setSession n v).slices = s.slices := rfl
@[simp] theorem State.setSession_books (n : Nat) (v : Session) : (s.setSession n v).books = s.books := rfl
@[simp] theorem State.setSession_mpus (n : Nat) (v : Session) : (s.setSession n v).mpus = s.mpus := rfl
@[simp] theorem State.setSession_msix (n : Nat) (v : Session) : (s.setSession n v).msix = s.msix := rfl
@[simp] theorem State.setSession_link (n : Nat) (v : Session) : (s.setSession n v).link = s.link := rfl
@[simp] theorem State.setSession_hregs (n : Nat) (v : Session) : (s.setSession n v).hregs = s.hregs := rfl
@[simp] theorem State.setSession_logs (n : Nat) (v : Session) : (s.setSession n v).logs = s.logs := rfl
@[simp] theorem State.setSession_sched (n : Nat) (v : Session) : (s.setSession n v).sched = s.sched := rfl
@[simp] theorem State.setSession_pan (n : Nat) (v : Session) : (s.setSession n v).pan = s.pan := rfl
@[simp] theorem State.setSession_brine (n : Nat) (v : Session) : (s.setSession n v).brine = s.brine := rfl
@[simp] theorem State.setSession_applets (n : Nat) (v : Session) : (s.setSession n v).applets = s.applets := rfl
@[simp] theorem State.setSession_crypto (n : Nat) (v : Session) : (s.setSession n v).crypto = s.crypto := rfl
@[simp] theorem State.setSession_rng (n : Nat) (v : Session) : (s.setSession n v).rng = s.rng := rfl
@[simp] theorem State.setSession_nv (n : Nat) (v : Session) : (s.setSession n v).nv = s.nv := rfl
@[simp] theorem State.setSession_tamper (n : Nat) (v : Session) : (s.setSession n v).tamper = s.tamper := rfl
@[simp] theorem State.setSession_cl (n : Nat) (v : Session) : (s.setSession n v).cl = s.cl := rfl
@[simp] theorem State.setSession_pwr (n : Nat) (v : Session) : (s.setSession n v).pwr = s.pwr := rfl
@[simp] theorem State.setSession_tel (n : Nat) (v : Session) : (s.setSession n v).tel = s.tel := rfl
@[simp] theorem State.setSession_keys_rootArray (n : Nat) (v : Session) : (s.setSession n v).keys.rootArray = s.keys.rootArray := rfl
@[simp] theorem State.setSession_keys_rootOn (n : Nat) (v : Session) : (s.setSession n v).keys.rootOn = s.keys.rootOn := rfl
@[simp] theorem State.setSession_keys_compact (n : Nat) (v : Session) : (s.setSession n v).keys.compact = s.keys.compact := rfl
@[simp] theorem State.setSession_keys_large (n : Nat) (v : Session) : (s.setSession n v).keys.large = s.keys.large := rfl
@[simp] theorem State.setSession_keys_auth (n : Nat) (v : Session) : (s.setSession n v).keys.auth = s.keys.auth := rfl
@[simp] theorem State.setSession_keys_families (n : Nat) (v : Session) : (s.setSession n v).keys.families = s.keys.families := rfl

/-! modSession -/

@[simp] theorem State.modSession_pending (n : Nat) (f : Session → Session) : (s.modSession n f).pending = s.pending := rfl
@[simp] theorem State.modSession_out (n : Nat) (f : Session → Session) : (s.modSession n f).out = s.out := rfl
@[simp] theorem State.modSession_nextId (n : Nat) (f : Session → Session) : (s.modSession n f).nextId = s.nextId := rfl
@[simp] theorem State.modSession_draws (n : Nat) (f : Session → Session) : (s.modSession n f).draws = s.draws := rfl
@[simp] theorem State.modSession_work (n : Nat) (f : Session → Session) : (s.modSession n f).work = s.work := rfl
@[simp] theorem State.modSession_reads (n : Nat) (f : Session → Session) : (s.modSession n f).reads = s.reads := rfl
@[simp] theorem State.modSession_sq (n : Nat) (f : Session → Session) : (s.modSession n f).sq = s.sq := rfl
@[simp] theorem State.modSession_cq (n : Nat) (f : Session → Session) : (s.modSession n f).cq = s.cq := rfl
@[simp] theorem State.modSession_slices (n : Nat) (f : Session → Session) : (s.modSession n f).slices = s.slices := rfl
@[simp] theorem State.modSession_books (n : Nat) (f : Session → Session) : (s.modSession n f).books = s.books := rfl
@[simp] theorem State.modSession_mpus (n : Nat) (f : Session → Session) : (s.modSession n f).mpus = s.mpus := rfl
@[simp] theorem State.modSession_msix (n : Nat) (f : Session → Session) : (s.modSession n f).msix = s.msix := rfl
@[simp] theorem State.modSession_link (n : Nat) (f : Session → Session) : (s.modSession n f).link = s.link := rfl
@[simp] theorem State.modSession_hregs (n : Nat) (f : Session → Session) : (s.modSession n f).hregs = s.hregs := rfl
@[simp] theorem State.modSession_logs (n : Nat) (f : Session → Session) : (s.modSession n f).logs = s.logs := rfl
@[simp] theorem State.modSession_sched (n : Nat) (f : Session → Session) : (s.modSession n f).sched = s.sched := rfl
@[simp] theorem State.modSession_pan (n : Nat) (f : Session → Session) : (s.modSession n f).pan = s.pan := rfl
@[simp] theorem State.modSession_brine (n : Nat) (f : Session → Session) : (s.modSession n f).brine = s.brine := rfl
@[simp] theorem State.modSession_applets (n : Nat) (f : Session → Session) : (s.modSession n f).applets = s.applets := rfl
@[simp] theorem State.modSession_crypto (n : Nat) (f : Session → Session) : (s.modSession n f).crypto = s.crypto := rfl
@[simp] theorem State.modSession_rng (n : Nat) (f : Session → Session) : (s.modSession n f).rng = s.rng := rfl
@[simp] theorem State.modSession_nv (n : Nat) (f : Session → Session) : (s.modSession n f).nv = s.nv := rfl
@[simp] theorem State.modSession_tamper (n : Nat) (f : Session → Session) : (s.modSession n f).tamper = s.tamper := rfl
@[simp] theorem State.modSession_cl (n : Nat) (f : Session → Session) : (s.modSession n f).cl = s.cl := rfl
@[simp] theorem State.modSession_pwr (n : Nat) (f : Session → Session) : (s.modSession n f).pwr = s.pwr := rfl
@[simp] theorem State.modSession_tel (n : Nat) (f : Session → Session) : (s.modSession n f).tel = s.tel := rfl

/-! setAuth -/

@[simp] theorem State.setAuth_pending (e : Nat) (v : Authority) : (s.setAuth e v).pending = s.pending := rfl
@[simp] theorem State.setAuth_out (e : Nat) (v : Authority) : (s.setAuth e v).out = s.out := rfl
@[simp] theorem State.setAuth_nextId (e : Nat) (v : Authority) : (s.setAuth e v).nextId = s.nextId := rfl
@[simp] theorem State.setAuth_draws (e : Nat) (v : Authority) : (s.setAuth e v).draws = s.draws := rfl
@[simp] theorem State.setAuth_work (e : Nat) (v : Authority) : (s.setAuth e v).work = s.work := rfl
@[simp] theorem State.setAuth_reads (e : Nat) (v : Authority) : (s.setAuth e v).reads = s.reads := rfl
@[simp] theorem State.setAuth_sq (e : Nat) (v : Authority) : (s.setAuth e v).sq = s.sq := rfl
@[simp] theorem State.setAuth_cq (e : Nat) (v : Authority) : (s.setAuth e v).cq = s.cq := rfl
@[simp] theorem State.setAuth_slices (e : Nat) (v : Authority) : (s.setAuth e v).slices = s.slices := rfl
@[simp] theorem State.setAuth_books (e : Nat) (v : Authority) : (s.setAuth e v).books = s.books := rfl
@[simp] theorem State.setAuth_mpus (e : Nat) (v : Authority) : (s.setAuth e v).mpus = s.mpus := rfl
@[simp] theorem State.setAuth_msix (e : Nat) (v : Authority) : (s.setAuth e v).msix = s.msix := rfl
@[simp] theorem State.setAuth_link (e : Nat) (v : Authority) : (s.setAuth e v).link = s.link := rfl
@[simp] theorem State.setAuth_hregs (e : Nat) (v : Authority) : (s.setAuth e v).hregs = s.hregs := rfl
@[simp] theorem State.setAuth_logs (e : Nat) (v : Authority) : (s.setAuth e v).logs = s.logs := rfl
@[simp] theorem State.setAuth_sched (e : Nat) (v : Authority) : (s.setAuth e v).sched = s.sched := rfl
@[simp] theorem State.setAuth_pan (e : Nat) (v : Authority) : (s.setAuth e v).pan = s.pan := rfl
@[simp] theorem State.setAuth_brine (e : Nat) (v : Authority) : (s.setAuth e v).brine = s.brine := rfl
@[simp] theorem State.setAuth_applets (e : Nat) (v : Authority) : (s.setAuth e v).applets = s.applets := rfl
@[simp] theorem State.setAuth_crypto (e : Nat) (v : Authority) : (s.setAuth e v).crypto = s.crypto := rfl
@[simp] theorem State.setAuth_rng (e : Nat) (v : Authority) : (s.setAuth e v).rng = s.rng := rfl
@[simp] theorem State.setAuth_nv (e : Nat) (v : Authority) : (s.setAuth e v).nv = s.nv := rfl
@[simp] theorem State.setAuth_tamper (e : Nat) (v : Authority) : (s.setAuth e v).tamper = s.tamper := rfl
@[simp] theorem State.setAuth_cl (e : Nat) (v : Authority) : (s.setAuth e v).cl = s.cl := rfl
@[simp] theorem State.setAuth_pwr (e : Nat) (v : Authority) : (s.setAuth e v).pwr = s.pwr := rfl
@[simp] theorem State.setAuth_tel (e : Nat) (v : Authority) : (s.setAuth e v).tel = s.tel := rfl
@[simp] theorem State.setAuth_keys_rootArray (e : Nat) (v : Authority) : (s.setAuth e v).keys.rootArray = s.keys.rootArray := rfl
@[simp] theorem State.setAuth_keys_rootOn (e : Nat) (v : Authority) : (s.setAuth e v).keys.rootOn = s.keys.rootOn := rfl
@[simp] theorem State.setAuth_keys_compact (e : Nat) (v : Authority) : (s.setAuth e v).keys.compact = s.keys.compact := rfl
@[simp] theorem State.setAuth_keys_large (e : Nat) (v : Authority) : (s.setAuth e v).keys.large = s.keys.large := rfl
@[simp] theorem State.setAuth_keys_sessions (e : Nat) (v : Authority) : (s.setAuth e v).keys.sessions = s.keys.sessions := rfl
@[simp] theorem State.setAuth_keys_families (e : Nat) (v : Authority) : (s.setAuth e v).keys.families = s.keys.families := rfl

/-! setFamily -/

@[simp] theorem State.setFamily_pending (n v : Nat) : (s.setFamily n v).pending = s.pending := rfl
@[simp] theorem State.setFamily_out (n v : Nat) : (s.setFamily n v).out = s.out := rfl
@[simp] theorem State.setFamily_nextId (n v : Nat) : (s.setFamily n v).nextId = s.nextId := rfl
@[simp] theorem State.setFamily_draws (n v : Nat) : (s.setFamily n v).draws = s.draws := rfl
@[simp] theorem State.setFamily_work (n v : Nat) : (s.setFamily n v).work = s.work := rfl
@[simp] theorem State.setFamily_reads (n v : Nat) : (s.setFamily n v).reads = s.reads := rfl
@[simp] theorem State.setFamily_sq (n v : Nat) : (s.setFamily n v).sq = s.sq := rfl
@[simp] theorem State.setFamily_cq (n v : Nat) : (s.setFamily n v).cq = s.cq := rfl
@[simp] theorem State.setFamily_slices (n v : Nat) : (s.setFamily n v).slices = s.slices := rfl
@[simp] theorem State.setFamily_books (n v : Nat) : (s.setFamily n v).books = s.books := rfl
@[simp] theorem State.setFamily_mpus (n v : Nat) : (s.setFamily n v).mpus = s.mpus := rfl
@[simp] theorem State.setFamily_msix (n v : Nat) : (s.setFamily n v).msix = s.msix := rfl
@[simp] theorem State.setFamily_link (n v : Nat) : (s.setFamily n v).link = s.link := rfl
@[simp] theorem State.setFamily_hregs (n v : Nat) : (s.setFamily n v).hregs = s.hregs := rfl
@[simp] theorem State.setFamily_logs (n v : Nat) : (s.setFamily n v).logs = s.logs := rfl
@[simp] theorem State.setFamily_sched (n v : Nat) : (s.setFamily n v).sched = s.sched := rfl
@[simp] theorem State.setFamily_pan (n v : Nat) : (s.setFamily n v).pan = s.pan := rfl
@[simp] theorem State.setFamily_brine (n v : Nat) : (s.setFamily n v).brine = s.brine := rfl
@[simp] theorem State.setFamily_applets (n v : Nat) : (s.setFamily n v).applets = s.applets := rfl
@[simp] theorem State.setFamily_crypto (n v : Nat) : (s.setFamily n v).crypto = s.crypto := rfl
@[simp] theorem State.setFamily_rng (n v : Nat) : (s.setFamily n v).rng = s.rng := rfl
@[simp] theorem State.setFamily_nv (n v : Nat) : (s.setFamily n v).nv = s.nv := rfl
@[simp] theorem State.setFamily_tamper (n v : Nat) : (s.setFamily n v).tamper = s.tamper := rfl
@[simp] theorem State.setFamily_cl (n v : Nat) : (s.setFamily n v).cl = s.cl := rfl
@[simp] theorem State.setFamily_pwr (n v : Nat) : (s.setFamily n v).pwr = s.pwr := rfl
@[simp] theorem State.setFamily_tel (n v : Nat) : (s.setFamily n v).tel = s.tel := rfl

/-! setPart -/

@[simp] theorem State.setPart_pending (p : Nat) (v : UserPart) : (s.setPart p v).pending = s.pending := rfl
@[simp] theorem State.setPart_out (p : Nat) (v : UserPart) : (s.setPart p v).out = s.out := rfl
@[simp] theorem State.setPart_nextId (p : Nat) (v : UserPart) : (s.setPart p v).nextId = s.nextId := rfl
@[simp] theorem State.setPart_draws (p : Nat) (v : UserPart) : (s.setPart p v).draws = s.draws := rfl
@[simp] theorem State.setPart_work (p : Nat) (v : UserPart) : (s.setPart p v).work = s.work := rfl
@[simp] theorem State.setPart_reads (p : Nat) (v : UserPart) : (s.setPart p v).reads = s.reads := rfl
@[simp] theorem State.setPart_sq (p : Nat) (v : UserPart) : (s.setPart p v).sq = s.sq := rfl
@[simp] theorem State.setPart_cq (p : Nat) (v : UserPart) : (s.setPart p v).cq = s.cq := rfl
@[simp] theorem State.setPart_slices (p : Nat) (v : UserPart) : (s.setPart p v).slices = s.slices := rfl
@[simp] theorem State.setPart_books (p : Nat) (v : UserPart) : (s.setPart p v).books = s.books := rfl
@[simp] theorem State.setPart_mpus (p : Nat) (v : UserPart) : (s.setPart p v).mpus = s.mpus := rfl
@[simp] theorem State.setPart_msix (p : Nat) (v : UserPart) : (s.setPart p v).msix = s.msix := rfl
@[simp] theorem State.setPart_link (p : Nat) (v : UserPart) : (s.setPart p v).link = s.link := rfl
@[simp] theorem State.setPart_hregs (p : Nat) (v : UserPart) : (s.setPart p v).hregs = s.hregs := rfl
@[simp] theorem State.setPart_logs (p : Nat) (v : UserPart) : (s.setPart p v).logs = s.logs := rfl
@[simp] theorem State.setPart_sched (p : Nat) (v : UserPart) : (s.setPart p v).sched = s.sched := rfl
@[simp] theorem State.setPart_pan (p : Nat) (v : UserPart) : (s.setPart p v).pan = s.pan := rfl
@[simp] theorem State.setPart_brine (p : Nat) (v : UserPart) : (s.setPart p v).brine = s.brine := rfl
@[simp] theorem State.setPart_applets (p : Nat) (v : UserPart) : (s.setPart p v).applets = s.applets := rfl
@[simp] theorem State.setPart_keys (p : Nat) (v : UserPart) : (s.setPart p v).keys = s.keys := rfl
@[simp] theorem State.setPart_crypto (p : Nat) (v : UserPart) : (s.setPart p v).crypto = s.crypto := rfl
@[simp] theorem State.setPart_rng (p : Nat) (v : UserPart) : (s.setPart p v).rng = s.rng := rfl
@[simp] theorem State.setPart_tamper (p : Nat) (v : UserPart) : (s.setPart p v).tamper = s.tamper := rfl
@[simp] theorem State.setPart_cl (p : Nat) (v : UserPart) : (s.setPart p v).cl = s.cl := rfl
@[simp] theorem State.setPart_pwr (p : Nat) (v : UserPart) : (s.setPart p v).pwr = s.pwr := rfl
@[simp] theorem State.setPart_tel (p : Nat) (v : UserPart) : (s.setPart p v).tel = s.tel := rfl
@[simp] theorem State.setPart_nv_pages (p : Nat) (v : UserPart) : (s.setPart p v).nv.pages = s.nv.pages := rfl
@[simp] theorem State.setPart_nv_maps (p : Nat) (v : UserPart) : (s.setPart p v).nv.maps = s.nv.maps := rfl
@[simp] theorem State.setPart_nv_wbuf (p : Nat) (v : UserPart) : (s.setPart p v).nv.wbuf = s.nv.wbuf := rfl
@[simp] theorem State.setPart_nv_behind (p : Nat) (v : UserPart) : (s.setPart p v).nv.behind = s.nv.behind := rfl
@[simp] theorem State.setPart_nv_counters (p : Nat) (v : UserPart) : (s.setPart p v).nv.counters = s.nv.counters := rfl
@[simp] theorem State.setPart_nv_wt (p : Nat) (v : UserPart) : (s.setPart p v).nv.wt = s.nv.wt := rfl

/-! modPart -/

@[simp] theorem State.modPart_pending (p : Nat) (f : UserPart → UserPart) : (s.modPart p f).pending = s.pending := rfl
@[simp] theorem State.modPart_out (p : Nat) (f : UserPart → UserPart) : (s.modPart p f).out = s.out := rfl
@[simp] theorem State.modPart_nextId (p : Nat) (f : UserPart → UserPart) : (s.modPart p f).nextId = s.nextId := rfl
@[simp] theorem State.modPart_draws (p : Nat) (f : UserPart → UserPart) : (s.modPart p f).draws = s.draws := rfl
@[simp] theorem State.modPart_work (p : Nat) (f : UserPart → UserPart) : (s.modPart p f).work = s.work := rfl
@[simp] theorem State.modPart_reads (p : Nat) (f : UserPart → UserPart) : (s.modPart p f).reads = s.reads := rfl
@[simp] theorem State.modPart_sq (p : Nat) (f : UserPart → UserPart) : (s.modPart p f).sq = s.sq := rfl
@[simp] theorem State.modPart_cq (p : Nat) (f : UserPart → UserPart) : (s.modPart p f).cq = s.cq := rfl
@[simp] theorem State.modPart_slices (p : Nat) (f : UserPart → UserPart) : (s.modPart p f).slices = s.slices := rfl
@[simp] theorem State.modPart_books (p : Nat) (f : UserPart → UserPart) : (s.modPart p f).books = s.books := rfl
@[simp] theorem State.modPart_mpus (p : Nat) (f : UserPart → UserPart) : (s.modPart p f).mpus = s.mpus := rfl
@[simp] theorem State.modPart_msix (p : Nat) (f : UserPart → UserPart) : (s.modPart p f).msix = s.msix := rfl
@[simp] theorem State.modPart_link (p : Nat) (f : UserPart → UserPart) : (s.modPart p f).link = s.link := rfl
@[simp] theorem State.modPart_hregs (p : Nat) (f : UserPart → UserPart) : (s.modPart p f).hregs = s.hregs := rfl
@[simp] theorem State.modPart_logs (p : Nat) (f : UserPart → UserPart) : (s.modPart p f).logs = s.logs := rfl
@[simp] theorem State.modPart_sched (p : Nat) (f : UserPart → UserPart) : (s.modPart p f).sched = s.sched := rfl
@[simp] theorem State.modPart_pan (p : Nat) (f : UserPart → UserPart) : (s.modPart p f).pan = s.pan := rfl
@[simp] theorem State.modPart_brine (p : Nat) (f : UserPart → UserPart) : (s.modPart p f).brine = s.brine := rfl
@[simp] theorem State.modPart_applets (p : Nat) (f : UserPart → UserPart) : (s.modPart p f).applets = s.applets := rfl
@[simp] theorem State.modPart_keys (p : Nat) (f : UserPart → UserPart) : (s.modPart p f).keys = s.keys := rfl
@[simp] theorem State.modPart_crypto (p : Nat) (f : UserPart → UserPart) : (s.modPart p f).crypto = s.crypto := rfl
@[simp] theorem State.modPart_rng (p : Nat) (f : UserPart → UserPart) : (s.modPart p f).rng = s.rng := rfl
@[simp] theorem State.modPart_tamper (p : Nat) (f : UserPart → UserPart) : (s.modPart p f).tamper = s.tamper := rfl
@[simp] theorem State.modPart_cl (p : Nat) (f : UserPart → UserPart) : (s.modPart p f).cl = s.cl := rfl
@[simp] theorem State.modPart_pwr (p : Nat) (f : UserPart → UserPart) : (s.modPart p f).pwr = s.pwr := rfl
@[simp] theorem State.modPart_tel (p : Nat) (f : UserPart → UserPart) : (s.modPart p f).tel = s.tel := rfl
@[simp] theorem State.modPart_nv_pages (p : Nat) (f : UserPart → UserPart) : (s.modPart p f).nv.pages = s.nv.pages := rfl
@[simp] theorem State.modPart_nv_maps (p : Nat) (f : UserPart → UserPart) : (s.modPart p f).nv.maps = s.nv.maps := rfl
@[simp] theorem State.modPart_nv_wbuf (p : Nat) (f : UserPart → UserPart) : (s.modPart p f).nv.wbuf = s.nv.wbuf := rfl
@[simp] theorem State.modPart_nv_behind (p : Nat) (f : UserPart → UserPart) : (s.modPart p f).nv.behind = s.nv.behind := rfl
@[simp] theorem State.modPart_nv_counters (p : Nat) (f : UserPart → UserPart) : (s.modPart p f).nv.counters = s.nv.counters := rfl
@[simp] theorem State.modPart_nv_wt (p : Nat) (f : UserPart → UserPart) : (s.modPart p f).nv.wt = s.nv.wt := rfl

/-! setCounter -/

@[simp] theorem State.setCounter_pending (n : Nat) (v : Counter) : (s.setCounter n v).pending = s.pending := rfl
@[simp] theorem State.setCounter_out (n : Nat) (v : Counter) : (s.setCounter n v).out = s.out := rfl
@[simp] theorem State.setCounter_nextId (n : Nat) (v : Counter) : (s.setCounter n v).nextId = s.nextId := rfl
@[simp] theorem State.setCounter_draws (n : Nat) (v : Counter) : (s.setCounter n v).draws = s.draws := rfl
@[simp] theorem State.setCounter_work (n : Nat) (v : Counter) : (s.setCounter n v).work = s.work := rfl
@[simp] theorem State.setCounter_reads (n : Nat) (v : Counter) : (s.setCounter n v).reads = s.reads := rfl
@[simp] theorem State.setCounter_sq (n : Nat) (v : Counter) : (s.setCounter n v).sq = s.sq := rfl
@[simp] theorem State.setCounter_cq (n : Nat) (v : Counter) : (s.setCounter n v).cq = s.cq := rfl
@[simp] theorem State.setCounter_slices (n : Nat) (v : Counter) : (s.setCounter n v).slices = s.slices := rfl
@[simp] theorem State.setCounter_books (n : Nat) (v : Counter) : (s.setCounter n v).books = s.books := rfl
@[simp] theorem State.setCounter_mpus (n : Nat) (v : Counter) : (s.setCounter n v).mpus = s.mpus := rfl
@[simp] theorem State.setCounter_msix (n : Nat) (v : Counter) : (s.setCounter n v).msix = s.msix := rfl
@[simp] theorem State.setCounter_link (n : Nat) (v : Counter) : (s.setCounter n v).link = s.link := rfl
@[simp] theorem State.setCounter_hregs (n : Nat) (v : Counter) : (s.setCounter n v).hregs = s.hregs := rfl
@[simp] theorem State.setCounter_logs (n : Nat) (v : Counter) : (s.setCounter n v).logs = s.logs := rfl
@[simp] theorem State.setCounter_sched (n : Nat) (v : Counter) : (s.setCounter n v).sched = s.sched := rfl
@[simp] theorem State.setCounter_pan (n : Nat) (v : Counter) : (s.setCounter n v).pan = s.pan := rfl
@[simp] theorem State.setCounter_brine (n : Nat) (v : Counter) : (s.setCounter n v).brine = s.brine := rfl
@[simp] theorem State.setCounter_applets (n : Nat) (v : Counter) : (s.setCounter n v).applets = s.applets := rfl
@[simp] theorem State.setCounter_keys (n : Nat) (v : Counter) : (s.setCounter n v).keys = s.keys := rfl
@[simp] theorem State.setCounter_crypto (n : Nat) (v : Counter) : (s.setCounter n v).crypto = s.crypto := rfl
@[simp] theorem State.setCounter_rng (n : Nat) (v : Counter) : (s.setCounter n v).rng = s.rng := rfl
@[simp] theorem State.setCounter_tamper (n : Nat) (v : Counter) : (s.setCounter n v).tamper = s.tamper := rfl
@[simp] theorem State.setCounter_cl (n : Nat) (v : Counter) : (s.setCounter n v).cl = s.cl := rfl
@[simp] theorem State.setCounter_pwr (n : Nat) (v : Counter) : (s.setCounter n v).pwr = s.pwr := rfl
@[simp] theorem State.setCounter_tel (n : Nat) (v : Counter) : (s.setCounter n v).tel = s.tel := rfl
@[simp] theorem State.setCounter_nv_pages (n : Nat) (v : Counter) : (s.setCounter n v).nv.pages = s.nv.pages := rfl
@[simp] theorem State.setCounter_nv_maps (n : Nat) (v : Counter) : (s.setCounter n v).nv.maps = s.nv.maps := rfl
@[simp] theorem State.setCounter_nv_wbuf (n : Nat) (v : Counter) : (s.setCounter n v).nv.wbuf = s.nv.wbuf := rfl
@[simp] theorem State.setCounter_nv_behind (n : Nat) (v : Counter) : (s.setCounter n v).nv.behind = s.nv.behind := rfl
@[simp] theorem State.setCounter_nv_parts (n : Nat) (v : Counter) : (s.setCounter n v).nv.parts = s.nv.parts := rfl
@[simp] theorem State.setCounter_nv_wt (n : Nat) (v : Counter) : (s.setCounter n v).nv.wt = s.nv.wt := rfl

/-! modCounter -/

@[simp] theorem State.modCounter_pending (n : Nat) (f : Counter → Counter) : (s.modCounter n f).pending = s.pending := rfl
@[simp] theorem State.modCounter_out (n : Nat) (f : Counter → Counter) : (s.modCounter n f).out = s.out := rfl
@[simp] theorem State.modCounter_nextId (n : Nat) (f : Counter → Counter) : (s.modCounter n f).nextId = s.nextId := rfl
@[simp] theorem State.modCounter_draws (n : Nat) (f : Counter → Counter) : (s.modCounter n f).draws = s.draws := rfl
@[simp] theorem State.modCounter_work (n : Nat) (f : Counter → Counter) : (s.modCounter n f).work = s.work := rfl
@[simp] theorem State.modCounter_reads (n : Nat) (f : Counter → Counter) : (s.modCounter n f).reads = s.reads := rfl
@[simp] theorem State.modCounter_sq (n : Nat) (f : Counter → Counter) : (s.modCounter n f).sq = s.sq := rfl
@[simp] theorem State.modCounter_cq (n : Nat) (f : Counter → Counter) : (s.modCounter n f).cq = s.cq := rfl
@[simp] theorem State.modCounter_slices (n : Nat) (f : Counter → Counter) : (s.modCounter n f).slices = s.slices := rfl
@[simp] theorem State.modCounter_books (n : Nat) (f : Counter → Counter) : (s.modCounter n f).books = s.books := rfl
@[simp] theorem State.modCounter_mpus (n : Nat) (f : Counter → Counter) : (s.modCounter n f).mpus = s.mpus := rfl
@[simp] theorem State.modCounter_msix (n : Nat) (f : Counter → Counter) : (s.modCounter n f).msix = s.msix := rfl
@[simp] theorem State.modCounter_link (n : Nat) (f : Counter → Counter) : (s.modCounter n f).link = s.link := rfl
@[simp] theorem State.modCounter_hregs (n : Nat) (f : Counter → Counter) : (s.modCounter n f).hregs = s.hregs := rfl
@[simp] theorem State.modCounter_logs (n : Nat) (f : Counter → Counter) : (s.modCounter n f).logs = s.logs := rfl
@[simp] theorem State.modCounter_sched (n : Nat) (f : Counter → Counter) : (s.modCounter n f).sched = s.sched := rfl
@[simp] theorem State.modCounter_pan (n : Nat) (f : Counter → Counter) : (s.modCounter n f).pan = s.pan := rfl
@[simp] theorem State.modCounter_brine (n : Nat) (f : Counter → Counter) : (s.modCounter n f).brine = s.brine := rfl
@[simp] theorem State.modCounter_applets (n : Nat) (f : Counter → Counter) : (s.modCounter n f).applets = s.applets := rfl
@[simp] theorem State.modCounter_keys (n : Nat) (f : Counter → Counter) : (s.modCounter n f).keys = s.keys := rfl
@[simp] theorem State.modCounter_crypto (n : Nat) (f : Counter → Counter) : (s.modCounter n f).crypto = s.crypto := rfl
@[simp] theorem State.modCounter_rng (n : Nat) (f : Counter → Counter) : (s.modCounter n f).rng = s.rng := rfl
@[simp] theorem State.modCounter_tamper (n : Nat) (f : Counter → Counter) : (s.modCounter n f).tamper = s.tamper := rfl
@[simp] theorem State.modCounter_cl (n : Nat) (f : Counter → Counter) : (s.modCounter n f).cl = s.cl := rfl
@[simp] theorem State.modCounter_pwr (n : Nat) (f : Counter → Counter) : (s.modCounter n f).pwr = s.pwr := rfl
@[simp] theorem State.modCounter_tel (n : Nat) (f : Counter → Counter) : (s.modCounter n f).tel = s.tel := rfl
@[simp] theorem State.modCounter_nv_pages (n : Nat) (f : Counter → Counter) : (s.modCounter n f).nv.pages = s.nv.pages := rfl
@[simp] theorem State.modCounter_nv_maps (n : Nat) (f : Counter → Counter) : (s.modCounter n f).nv.maps = s.nv.maps := rfl
@[simp] theorem State.modCounter_nv_wbuf (n : Nat) (f : Counter → Counter) : (s.modCounter n f).nv.wbuf = s.nv.wbuf := rfl
@[simp] theorem State.modCounter_nv_behind (n : Nat) (f : Counter → Counter) : (s.modCounter n f).nv.behind = s.nv.behind := rfl
@[simp] theorem State.modCounter_nv_parts (n : Nat) (f : Counter → Counter) : (s.modCounter n f).nv.parts = s.nv.parts := rfl
@[simp] theorem State.modCounter_nv_wt (n : Nat) (f : Counter → Counter) : (s.modCounter n f).nv.wt = s.nv.wt := rfl

/-! setBn -/

@[simp] theorem State.setBn_pending (e : Nat) (v : BnEngine) : (s.setBn e v).pending = s.pending := rfl
@[simp] theorem State.setBn_out (e : Nat) (v : BnEngine) : (s.setBn e v).out = s.out := rfl
@[simp] theorem State.setBn_nextId (e : Nat) (v : BnEngine) : (s.setBn e v).nextId = s.nextId := rfl
@[simp] theorem State.setBn_draws (e : Nat) (v : BnEngine) : (s.setBn e v).draws = s.draws := rfl
@[simp] theorem State.setBn_work (e : Nat) (v : BnEngine) : (s.setBn e v).work = s.work := rfl
@[simp] theorem State.setBn_reads (e : Nat) (v : BnEngine) : (s.setBn e v).reads = s.reads := rfl
@[simp] theorem State.setBn_sq (e : Nat) (v : BnEngine) : (s.setBn e v).sq = s.sq := rfl
@[simp] theorem State.setBn_cq (e : Nat) (v : BnEngine) : (s.setBn e v).cq = s.cq := rfl
@[simp] theorem State.setBn_slices (e : Nat) (v : BnEngine) : (s.setBn e v).slices = s.slices := rfl
@[simp] theorem State.setBn_books (e : Nat) (v : BnEngine) : (s.setBn e v).books = s.books := rfl
@[simp] theorem State.setBn_mpus (e : Nat) (v : BnEngine) : (s.setBn e v).mpus = s.mpus := rfl
@[simp] theorem State.setBn_msix (e : Nat) (v : BnEngine) : (s.setBn e v).msix = s.msix := rfl
@[simp] theorem State.setBn_link (e : Nat) (v : BnEngine) : (s.setBn e v).link = s.link := rfl
@[simp] theorem State.setBn_hregs (e : Nat) (v : BnEngine) : (s.setBn e v).hregs = s.hregs := rfl
@[simp] theorem State.setBn_logs (e : Nat) (v : BnEngine) : (s.setBn e v).logs = s.logs := rfl
@[simp] theorem State.setBn_sched (e : Nat) (v : BnEngine) : (s.setBn e v).sched = s.sched := rfl
@[simp] theorem State.setBn_pan (e : Nat) (v : BnEngine) : (s.setBn e v).pan = s.pan := rfl
@[simp] theorem State.setBn_brine (e : Nat) (v : BnEngine) : (s.setBn e v).brine = s.brine := rfl
@[simp] theorem State.setBn_applets (e : Nat) (v : BnEngine) : (s.setBn e v).applets = s.applets := rfl
@[simp] theorem State.setBn_keys (e : Nat) (v : BnEngine) : (s.setBn e v).keys = s.keys := rfl
@[simp] theorem State.setBn_rng (e : Nat) (v : BnEngine) : (s.setBn e v).rng = s.rng := rfl
@[simp] theorem State.setBn_nv (e : Nat) (v : BnEngine) : (s.setBn e v).nv = s.nv := rfl
@[simp] theorem State.setBn_tamper (e : Nat) (v : BnEngine) : (s.setBn e v).tamper = s.tamper := rfl
@[simp] theorem State.setBn_cl (e : Nat) (v : BnEngine) : (s.setBn e v).cl = s.cl := rfl
@[simp] theorem State.setBn_pwr (e : Nat) (v : BnEngine) : (s.setBn e v).pwr = s.pwr := rfl
@[simp] theorem State.setBn_tel (e : Nat) (v : BnEngine) : (s.setBn e v).tel = s.tel := rfl

/-! setSource -/

@[simp] theorem State.setSource_pending (n : Nat) (v : Source) : (s.setSource n v).pending = s.pending := rfl
@[simp] theorem State.setSource_out (n : Nat) (v : Source) : (s.setSource n v).out = s.out := rfl
@[simp] theorem State.setSource_nextId (n : Nat) (v : Source) : (s.setSource n v).nextId = s.nextId := rfl
@[simp] theorem State.setSource_draws (n : Nat) (v : Source) : (s.setSource n v).draws = s.draws := rfl
@[simp] theorem State.setSource_work (n : Nat) (v : Source) : (s.setSource n v).work = s.work := rfl
@[simp] theorem State.setSource_reads (n : Nat) (v : Source) : (s.setSource n v).reads = s.reads := rfl
@[simp] theorem State.setSource_sq (n : Nat) (v : Source) : (s.setSource n v).sq = s.sq := rfl
@[simp] theorem State.setSource_cq (n : Nat) (v : Source) : (s.setSource n v).cq = s.cq := rfl
@[simp] theorem State.setSource_slices (n : Nat) (v : Source) : (s.setSource n v).slices = s.slices := rfl
@[simp] theorem State.setSource_books (n : Nat) (v : Source) : (s.setSource n v).books = s.books := rfl
@[simp] theorem State.setSource_mpus (n : Nat) (v : Source) : (s.setSource n v).mpus = s.mpus := rfl
@[simp] theorem State.setSource_msix (n : Nat) (v : Source) : (s.setSource n v).msix = s.msix := rfl
@[simp] theorem State.setSource_link (n : Nat) (v : Source) : (s.setSource n v).link = s.link := rfl
@[simp] theorem State.setSource_hregs (n : Nat) (v : Source) : (s.setSource n v).hregs = s.hregs := rfl
@[simp] theorem State.setSource_logs (n : Nat) (v : Source) : (s.setSource n v).logs = s.logs := rfl
@[simp] theorem State.setSource_sched (n : Nat) (v : Source) : (s.setSource n v).sched = s.sched := rfl
@[simp] theorem State.setSource_pan (n : Nat) (v : Source) : (s.setSource n v).pan = s.pan := rfl
@[simp] theorem State.setSource_brine (n : Nat) (v : Source) : (s.setSource n v).brine = s.brine := rfl
@[simp] theorem State.setSource_applets (n : Nat) (v : Source) : (s.setSource n v).applets = s.applets := rfl
@[simp] theorem State.setSource_keys (n : Nat) (v : Source) : (s.setSource n v).keys = s.keys := rfl
@[simp] theorem State.setSource_crypto (n : Nat) (v : Source) : (s.setSource n v).crypto = s.crypto := rfl
@[simp] theorem State.setSource_nv (n : Nat) (v : Source) : (s.setSource n v).nv = s.nv := rfl
@[simp] theorem State.setSource_tamper (n : Nat) (v : Source) : (s.setSource n v).tamper = s.tamper := rfl
@[simp] theorem State.setSource_cl (n : Nat) (v : Source) : (s.setSource n v).cl = s.cl := rfl
@[simp] theorem State.setSource_pwr (n : Nat) (v : Source) : (s.setSource n v).pwr = s.pwr := rfl
@[simp] theorem State.setSource_tel (n : Nat) (v : Source) : (s.setSource n v).tel = s.tel := rfl

/-! plog -/

@[simp] theorem State.plog_pending (e : PEvent) : (s.plog e).pending = s.pending := rfl
@[simp] theorem State.plog_out (e : PEvent) : (s.plog e).out = s.out := rfl
@[simp] theorem State.plog_nextId (e : PEvent) : (s.plog e).nextId = s.nextId := rfl
@[simp] theorem State.plog_draws (e : PEvent) : (s.plog e).draws = s.draws := rfl
@[simp] theorem State.plog_work (e : PEvent) : (s.plog e).work = s.work := rfl
@[simp] theorem State.plog_reads (e : PEvent) : (s.plog e).reads = s.reads := rfl
@[simp] theorem State.plog_sq (e : PEvent) : (s.plog e).sq = s.sq := rfl
@[simp] theorem State.plog_cq (e : PEvent) : (s.plog e).cq = s.cq := rfl
@[simp] theorem State.plog_slices (e : PEvent) : (s.plog e).slices = s.slices := rfl
@[simp] theorem State.plog_books (e : PEvent) : (s.plog e).books = s.books := rfl
@[simp] theorem State.plog_mpus (e : PEvent) : (s.plog e).mpus = s.mpus := rfl
@[simp] theorem State.plog_msix (e : PEvent) : (s.plog e).msix = s.msix := rfl
@[simp] theorem State.plog_link (e : PEvent) : (s.plog e).link = s.link := rfl
@[simp] theorem State.plog_hregs (e : PEvent) : (s.plog e).hregs = s.hregs := rfl
@[simp] theorem State.plog_sched (e : PEvent) : (s.plog e).sched = s.sched := rfl
@[simp] theorem State.plog_pan (e : PEvent) : (s.plog e).pan = s.pan := rfl
@[simp] theorem State.plog_brine (e : PEvent) : (s.plog e).brine = s.brine := rfl
@[simp] theorem State.plog_applets (e : PEvent) : (s.plog e).applets = s.applets := rfl
@[simp] theorem State.plog_keys (e : PEvent) : (s.plog e).keys = s.keys := rfl
@[simp] theorem State.plog_crypto (e : PEvent) : (s.plog e).crypto = s.crypto := rfl
@[simp] theorem State.plog_rng (e : PEvent) : (s.plog e).rng = s.rng := rfl
@[simp] theorem State.plog_nv (e : PEvent) : (s.plog e).nv = s.nv := rfl
@[simp] theorem State.plog_tamper (e : PEvent) : (s.plog e).tamper = s.tamper := rfl
@[simp] theorem State.plog_cl (e : PEvent) : (s.plog e).cl = s.cl := rfl
@[simp] theorem State.plog_pwr (e : PEvent) : (s.plog e).pwr = s.pwr := rfl
@[simp] theorem State.plog_tel (e : PEvent) : (s.plog e).tel = s.tel := rfl

/-! drawn -/

@[simp] theorem State.drawn_pending : (s.drawn).pending = s.pending := rfl
@[simp] theorem State.drawn_out : (s.drawn).out = s.out := rfl
@[simp] theorem State.drawn_nextId : (s.drawn).nextId = s.nextId := rfl
@[simp] theorem State.drawn_work : (s.drawn).work = s.work := rfl
@[simp] theorem State.drawn_reads : (s.drawn).reads = s.reads := rfl
@[simp] theorem State.drawn_sq : (s.drawn).sq = s.sq := rfl
@[simp] theorem State.drawn_cq : (s.drawn).cq = s.cq := rfl
@[simp] theorem State.drawn_slices : (s.drawn).slices = s.slices := rfl
@[simp] theorem State.drawn_books : (s.drawn).books = s.books := rfl
@[simp] theorem State.drawn_mpus : (s.drawn).mpus = s.mpus := rfl
@[simp] theorem State.drawn_msix : (s.drawn).msix = s.msix := rfl
@[simp] theorem State.drawn_link : (s.drawn).link = s.link := rfl
@[simp] theorem State.drawn_hregs : (s.drawn).hregs = s.hregs := rfl
@[simp] theorem State.drawn_logs : (s.drawn).logs = s.logs := rfl
@[simp] theorem State.drawn_sched : (s.drawn).sched = s.sched := rfl
@[simp] theorem State.drawn_pan : (s.drawn).pan = s.pan := rfl
@[simp] theorem State.drawn_brine : (s.drawn).brine = s.brine := rfl
@[simp] theorem State.drawn_applets : (s.drawn).applets = s.applets := rfl
@[simp] theorem State.drawn_keys : (s.drawn).keys = s.keys := rfl
@[simp] theorem State.drawn_crypto : (s.drawn).crypto = s.crypto := rfl
@[simp] theorem State.drawn_rng : (s.drawn).rng = s.rng := rfl
@[simp] theorem State.drawn_nv : (s.drawn).nv = s.nv := rfl
@[simp] theorem State.drawn_tamper : (s.drawn).tamper = s.tamper := rfl
@[simp] theorem State.drawn_cl : (s.drawn).cl = s.cl := rfl
@[simp] theorem State.drawn_pwr : (s.drawn).pwr = s.pwr := rfl
@[simp] theorem State.drawn_tel : (s.drawn).tel = s.tel := rfl

/-! modWork -/

@[simp] theorem State.modWork_pending (id : Nat) (f : Work → Work) : (s.modWork id f).pending = s.pending := rfl
@[simp] theorem State.modWork_out (id : Nat) (f : Work → Work) : (s.modWork id f).out = s.out := rfl
@[simp] theorem State.modWork_nextId (id : Nat) (f : Work → Work) : (s.modWork id f).nextId = s.nextId := rfl
@[simp] theorem State.modWork_draws (id : Nat) (f : Work → Work) : (s.modWork id f).draws = s.draws := rfl
@[simp] theorem State.modWork_reads (id : Nat) (f : Work → Work) : (s.modWork id f).reads = s.reads := rfl
@[simp] theorem State.modWork_sq (id : Nat) (f : Work → Work) : (s.modWork id f).sq = s.sq := rfl
@[simp] theorem State.modWork_cq (id : Nat) (f : Work → Work) : (s.modWork id f).cq = s.cq := rfl
@[simp] theorem State.modWork_slices (id : Nat) (f : Work → Work) : (s.modWork id f).slices = s.slices := rfl
@[simp] theorem State.modWork_books (id : Nat) (f : Work → Work) : (s.modWork id f).books = s.books := rfl
@[simp] theorem State.modWork_mpus (id : Nat) (f : Work → Work) : (s.modWork id f).mpus = s.mpus := rfl
@[simp] theorem State.modWork_msix (id : Nat) (f : Work → Work) : (s.modWork id f).msix = s.msix := rfl
@[simp] theorem State.modWork_link (id : Nat) (f : Work → Work) : (s.modWork id f).link = s.link := rfl
@[simp] theorem State.modWork_hregs (id : Nat) (f : Work → Work) : (s.modWork id f).hregs = s.hregs := rfl
@[simp] theorem State.modWork_logs (id : Nat) (f : Work → Work) : (s.modWork id f).logs = s.logs := rfl
@[simp] theorem State.modWork_sched (id : Nat) (f : Work → Work) : (s.modWork id f).sched = s.sched := rfl
@[simp] theorem State.modWork_pan (id : Nat) (f : Work → Work) : (s.modWork id f).pan = s.pan := rfl
@[simp] theorem State.modWork_brine (id : Nat) (f : Work → Work) : (s.modWork id f).brine = s.brine := rfl
@[simp] theorem State.modWork_applets (id : Nat) (f : Work → Work) : (s.modWork id f).applets = s.applets := rfl
@[simp] theorem State.modWork_keys (id : Nat) (f : Work → Work) : (s.modWork id f).keys = s.keys := rfl
@[simp] theorem State.modWork_crypto (id : Nat) (f : Work → Work) : (s.modWork id f).crypto = s.crypto := rfl
@[simp] theorem State.modWork_rng (id : Nat) (f : Work → Work) : (s.modWork id f).rng = s.rng := rfl
@[simp] theorem State.modWork_nv (id : Nat) (f : Work → Work) : (s.modWork id f).nv = s.nv := rfl
@[simp] theorem State.modWork_tamper (id : Nat) (f : Work → Work) : (s.modWork id f).tamper = s.tamper := rfl
@[simp] theorem State.modWork_cl (id : Nat) (f : Work → Work) : (s.modWork id f).cl = s.cl := rfl
@[simp] theorem State.modWork_pwr (id : Nat) (f : Work → Work) : (s.modWork id f).pwr = s.pwr := rfl
@[simp] theorem State.modWork_tel (id : Nat) (f : Work → Work) : (s.modWork id f).tel = s.tel := rfl

/-! dropWork -/

@[simp] theorem State.dropWork_pending (id : Nat) : (s.dropWork id).pending = s.pending := rfl
@[simp] theorem State.dropWork_out (id : Nat) : (s.dropWork id).out = s.out := rfl
@[simp] theorem State.dropWork_nextId (id : Nat) : (s.dropWork id).nextId = s.nextId := rfl
@[simp] theorem State.dropWork_draws (id : Nat) : (s.dropWork id).draws = s.draws := rfl
@[simp] theorem State.dropWork_reads (id : Nat) : (s.dropWork id).reads = s.reads := rfl
@[simp] theorem State.dropWork_sq (id : Nat) : (s.dropWork id).sq = s.sq := rfl
@[simp] theorem State.dropWork_cq (id : Nat) : (s.dropWork id).cq = s.cq := rfl
@[simp] theorem State.dropWork_slices (id : Nat) : (s.dropWork id).slices = s.slices := rfl
@[simp] theorem State.dropWork_books (id : Nat) : (s.dropWork id).books = s.books := rfl
@[simp] theorem State.dropWork_mpus (id : Nat) : (s.dropWork id).mpus = s.mpus := rfl
@[simp] theorem State.dropWork_msix (id : Nat) : (s.dropWork id).msix = s.msix := rfl
@[simp] theorem State.dropWork_link (id : Nat) : (s.dropWork id).link = s.link := rfl
@[simp] theorem State.dropWork_hregs (id : Nat) : (s.dropWork id).hregs = s.hregs := rfl
@[simp] theorem State.dropWork_logs (id : Nat) : (s.dropWork id).logs = s.logs := rfl
@[simp] theorem State.dropWork_sched (id : Nat) : (s.dropWork id).sched = s.sched := rfl
@[simp] theorem State.dropWork_pan (id : Nat) : (s.dropWork id).pan = s.pan := rfl
@[simp] theorem State.dropWork_brine (id : Nat) : (s.dropWork id).brine = s.brine := rfl
@[simp] theorem State.dropWork_applets (id : Nat) : (s.dropWork id).applets = s.applets := rfl
@[simp] theorem State.dropWork_keys (id : Nat) : (s.dropWork id).keys = s.keys := rfl
@[simp] theorem State.dropWork_crypto (id : Nat) : (s.dropWork id).crypto = s.crypto := rfl
@[simp] theorem State.dropWork_rng (id : Nat) : (s.dropWork id).rng = s.rng := rfl
@[simp] theorem State.dropWork_nv (id : Nat) : (s.dropWork id).nv = s.nv := rfl
@[simp] theorem State.dropWork_tamper (id : Nat) : (s.dropWork id).tamper = s.tamper := rfl
@[simp] theorem State.dropWork_cl (id : Nat) : (s.dropWork id).cl = s.cl := rfl
@[simp] theorem State.dropWork_pwr (id : Nat) : (s.dropWork id).pwr = s.pwr := rfl
@[simp] theorem State.dropWork_tel (id : Nat) : (s.dropWork id).tel = s.tel := rfl

/-! Read after write. -/

@[simp] theorem State.setSq_same (k : Nat) (v : Sq) : (s.setSq k v).sqAt k = v := tget_tput_same ..
theorem State.setSq_other {k j : Nat} (v : Sq) (h : j ≠ k) : (s.setSq k v).sqAt j = s.sqAt j := tget_tput_other _ _ _ h
@[simp] theorem State.setCq_same (k : Nat) (v : Cq) : (s.setCq k v).cqAt k = v := tget_tput_same ..
theorem State.setCq_other {k j : Nat} (v : Cq) (h : j ≠ k) : (s.setCq k v).cqAt j = s.cqAt j := tget_tput_other _ _ _ h
@[simp] theorem State.setSlice_same (k : Nat) (v : Slice) : (s.setSlice k v).sliceAt k = v := tget_tput_same ..
theorem State.setSlice_other {k j : Nat} (v : Slice) (h : j ≠ k) : (s.setSlice k v).sliceAt j = s.sliceAt j := tget_tput_other _ _ _ h
@[simp] theorem State.setBook_same (k : Nat) (v : Book) : (s.setBook k v).bookAt k = v := tget_tput_same ..
theorem State.setBook_other {k j : Nat} (v : Book) (h : j ≠ k) : (s.setBook k v).bookAt j = s.bookAt j := tget_tput_other _ _ _ h
@[simp] theorem State.setVector_same (k : Nat) (v : Vector) : (s.setVector k v).vectorAt k = v := tget_tput_same ..
theorem State.setVector_other {k j : Nat} (v : Vector) (h : j ≠ k) : (s.setVector k v).vectorAt j = s.vectorAt j := tget_tput_other _ _ _ h
@[simp] theorem State.setCore_same (k : Nat) (v : Core) : (s.setCore k v).coreAt k = v := tget_tput_same ..
theorem State.setCore_other {k j : Nat} (v : Core) (h : j ≠ k) : (s.setCore k v).coreAt j = s.coreAt j := tget_tput_other _ _ _ h
@[simp] theorem State.setAllow_same (k : Nat) (v : Allow) : (s.setAllow k v).allowAt k = v := tget_tput_same ..
theorem State.setAllow_other {k j : Nat} (v : Allow) (h : j ≠ k) : (s.setAllow k v).allowAt j = s.allowAt j := tget_tput_other _ _ _ h
@[simp] theorem State.setSession_same (k : Nat) (v : Session) : (s.setSession k v).sessionAt k = v := tget_tput_same ..
theorem State.setSession_other {k j : Nat} (v : Session) (h : j ≠ k) : (s.setSession k v).sessionAt j = s.sessionAt j := tget_tput_other _ _ _ h
@[simp] theorem State.setAuth_same (k : Nat) (v : Authority) : (s.setAuth k v).authAt k = v := tget_tput_same ..
theorem State.setAuth_other {k j : Nat} (v : Authority) (h : j ≠ k) : (s.setAuth k v).authAt j = s.authAt j := tget_tput_other _ _ _ h
@[simp] theorem State.setPart_same (k : Nat) (v : UserPart) : (s.setPart k v).partAt k = v := tget_tput_same ..
theorem State.setPart_other {k j : Nat} (v : UserPart) (h : j ≠ k) : (s.setPart k v).partAt j = s.partAt j := tget_tput_other _ _ _ h
@[simp] theorem State.setCounter_same (k : Nat) (v : Counter) : (s.setCounter k v).counterAt k = v := tget_tput_same ..
theorem State.setCounter_other {k j : Nat} (v : Counter) (h : j ≠ k) : (s.setCounter k v).counterAt j = s.counterAt j := tget_tput_other _ _ _ h
@[simp] theorem State.setBn_same (k : Nat) (v : BnEngine) : (s.setBn k v).bnAt k = v := tget_tput_same ..
theorem State.setBn_other {k j : Nat} (v : BnEngine) (h : j ≠ k) : (s.setBn k v).bnAt j = s.bnAt j := tget_tput_other _ _ _ h
@[simp] theorem State.setSource_same (k : Nat) (v : Source) : (s.setSource k v).sourceAt k = v := tget_tput_same ..
theorem State.setSource_other {k j : Nat} (v : Source) (h : j ≠ k) : (s.setSource k v).sourceAt j = s.sourceAt j := tget_tput_other _ _ _ h

/-! takeStep -/

@[simp] theorem State.takeStep_pending (u : UnitId) : (s.takeStep u).pending = s.pending := rfl
@[simp] theorem State.takeStep_out (u : UnitId) : (s.takeStep u).out = s.out := rfl
@[simp] theorem State.takeStep_nextId (u : UnitId) : (s.takeStep u).nextId = s.nextId := rfl
@[simp] theorem State.takeStep_draws (u : UnitId) : (s.takeStep u).draws = s.draws := rfl
@[simp] theorem State.takeStep_work (u : UnitId) : (s.takeStep u).work = s.work := rfl
@[simp] theorem State.takeStep_reads (u : UnitId) : (s.takeStep u).reads = s.reads := rfl
@[simp] theorem State.takeStep_sq (u : UnitId) : (s.takeStep u).sq = s.sq := rfl
@[simp] theorem State.takeStep_cq (u : UnitId) : (s.takeStep u).cq = s.cq := rfl
@[simp] theorem State.takeStep_slices (u : UnitId) : (s.takeStep u).slices = s.slices := rfl
@[simp] theorem State.takeStep_books (u : UnitId) : (s.takeStep u).books = s.books := rfl
@[simp] theorem State.takeStep_mpus (u : UnitId) : (s.takeStep u).mpus = s.mpus := rfl
@[simp] theorem State.takeStep_msix (u : UnitId) : (s.takeStep u).msix = s.msix := rfl
@[simp] theorem State.takeStep_link (u : UnitId) : (s.takeStep u).link = s.link := rfl
@[simp] theorem State.takeStep_hregs (u : UnitId) : (s.takeStep u).hregs = s.hregs := rfl
@[simp] theorem State.takeStep_logs (u : UnitId) : (s.takeStep u).logs = s.logs := rfl
@[simp] theorem State.takeStep_pan (u : UnitId) : (s.takeStep u).pan = s.pan := rfl
@[simp] theorem State.takeStep_brine (u : UnitId) : (s.takeStep u).brine = s.brine := rfl
@[simp] theorem State.takeStep_applets (u : UnitId) : (s.takeStep u).applets = s.applets := rfl
@[simp] theorem State.takeStep_keys (u : UnitId) : (s.takeStep u).keys = s.keys := rfl
@[simp] theorem State.takeStep_crypto (u : UnitId) : (s.takeStep u).crypto = s.crypto := rfl
@[simp] theorem State.takeStep_rng (u : UnitId) : (s.takeStep u).rng = s.rng := rfl
@[simp] theorem State.takeStep_nv (u : UnitId) : (s.takeStep u).nv = s.nv := rfl
@[simp] theorem State.takeStep_tamper (u : UnitId) : (s.takeStep u).tamper = s.tamper := rfl
@[simp] theorem State.takeStep_cl (u : UnitId) : (s.takeStep u).cl = s.cl := rfl
@[simp] theorem State.takeStep_pwr (u : UnitId) : (s.takeStep u).pwr = s.pwr := rfl
@[simp] theorem State.takeStep_tel (u : UnitId) : (s.takeStep u).tel = s.tel := rfl

/-! servedSlice -/

@[simp] theorem State.servedSlice_pending (u : UnitId) (n : Nat) : (s.servedSlice u n).pending = s.pending := rfl
@[simp] theorem State.servedSlice_out (u : UnitId) (n : Nat) : (s.servedSlice u n).out = s.out := rfl
@[simp] theorem State.servedSlice_nextId (u : UnitId) (n : Nat) : (s.servedSlice u n).nextId = s.nextId := rfl
@[simp] theorem State.servedSlice_draws (u : UnitId) (n : Nat) : (s.servedSlice u n).draws = s.draws := rfl
@[simp] theorem State.servedSlice_work (u : UnitId) (n : Nat) : (s.servedSlice u n).work = s.work := rfl
@[simp] theorem State.servedSlice_reads (u : UnitId) (n : Nat) : (s.servedSlice u n).reads = s.reads := rfl
@[simp] theorem State.servedSlice_sq (u : UnitId) (n : Nat) : (s.servedSlice u n).sq = s.sq := rfl
@[simp] theorem State.servedSlice_cq (u : UnitId) (n : Nat) : (s.servedSlice u n).cq = s.cq := rfl
@[simp] theorem State.servedSlice_slices (u : UnitId) (n : Nat) : (s.servedSlice u n).slices = s.slices := rfl
@[simp] theorem State.servedSlice_books (u : UnitId) (n : Nat) : (s.servedSlice u n).books = s.books := rfl
@[simp] theorem State.servedSlice_mpus (u : UnitId) (n : Nat) : (s.servedSlice u n).mpus = s.mpus := rfl
@[simp] theorem State.servedSlice_msix (u : UnitId) (n : Nat) : (s.servedSlice u n).msix = s.msix := rfl
@[simp] theorem State.servedSlice_link (u : UnitId) (n : Nat) : (s.servedSlice u n).link = s.link := rfl
@[simp] theorem State.servedSlice_hregs (u : UnitId) (n : Nat) : (s.servedSlice u n).hregs = s.hregs := rfl
@[simp] theorem State.servedSlice_logs (u : UnitId) (n : Nat) : (s.servedSlice u n).logs = s.logs := rfl
@[simp] theorem State.servedSlice_pan (u : UnitId) (n : Nat) : (s.servedSlice u n).pan = s.pan := rfl
@[simp] theorem State.servedSlice_brine (u : UnitId) (n : Nat) : (s.servedSlice u n).brine = s.brine := rfl
@[simp] theorem State.servedSlice_applets (u : UnitId) (n : Nat) : (s.servedSlice u n).applets = s.applets := rfl
@[simp] theorem State.servedSlice_keys (u : UnitId) (n : Nat) : (s.servedSlice u n).keys = s.keys := rfl
@[simp] theorem State.servedSlice_crypto (u : UnitId) (n : Nat) : (s.servedSlice u n).crypto = s.crypto := rfl
@[simp] theorem State.servedSlice_rng (u : UnitId) (n : Nat) : (s.servedSlice u n).rng = s.rng := rfl
@[simp] theorem State.servedSlice_nv (u : UnitId) (n : Nat) : (s.servedSlice u n).nv = s.nv := rfl
@[simp] theorem State.servedSlice_tamper (u : UnitId) (n : Nat) : (s.servedSlice u n).tamper = s.tamper := rfl
@[simp] theorem State.servedSlice_cl (u : UnitId) (n : Nat) : (s.servedSlice u n).cl = s.cl := rfl
@[simp] theorem State.servedSlice_pwr (u : UnitId) (n : Nat) : (s.servedSlice u n).pwr = s.pwr := rfl
@[simp] theorem State.servedSlice_tel (u : UnitId) (n : Nat) : (s.servedSlice u n).tel = s.tel := rfl

/-! defer -/

@[simp] theorem State.defer_pending (d : Deferred) : (s.defer d).pending = s.pending := rfl
@[simp] theorem State.defer_out (d : Deferred) : (s.defer d).out = s.out := rfl
@[simp] theorem State.defer_nextId (d : Deferred) : (s.defer d).nextId = s.nextId := rfl
@[simp] theorem State.defer_draws (d : Deferred) : (s.defer d).draws = s.draws := rfl
@[simp] theorem State.defer_work (d : Deferred) : (s.defer d).work = s.work := rfl
@[simp] theorem State.defer_reads (d : Deferred) : (s.defer d).reads = s.reads := rfl
@[simp] theorem State.defer_sq (d : Deferred) : (s.defer d).sq = s.sq := rfl
@[simp] theorem State.defer_cq (d : Deferred) : (s.defer d).cq = s.cq := rfl
@[simp] theorem State.defer_slices (d : Deferred) : (s.defer d).slices = s.slices := rfl
@[simp] theorem State.defer_books (d : Deferred) : (s.defer d).books = s.books := rfl
@[simp] theorem State.defer_mpus (d : Deferred) : (s.defer d).mpus = s.mpus := rfl
@[simp] theorem State.defer_msix (d : Deferred) : (s.defer d).msix = s.msix := rfl
@[simp] theorem State.defer_link (d : Deferred) : (s.defer d).link = s.link := rfl
@[simp] theorem State.defer_logs (d : Deferred) : (s.defer d).logs = s.logs := rfl
@[simp] theorem State.defer_sched (d : Deferred) : (s.defer d).sched = s.sched := rfl
@[simp] theorem State.defer_pan (d : Deferred) : (s.defer d).pan = s.pan := rfl
@[simp] theorem State.defer_brine (d : Deferred) : (s.defer d).brine = s.brine := rfl
@[simp] theorem State.defer_applets (d : Deferred) : (s.defer d).applets = s.applets := rfl
@[simp] theorem State.defer_keys (d : Deferred) : (s.defer d).keys = s.keys := rfl
@[simp] theorem State.defer_crypto (d : Deferred) : (s.defer d).crypto = s.crypto := rfl
@[simp] theorem State.defer_rng (d : Deferred) : (s.defer d).rng = s.rng := rfl
@[simp] theorem State.defer_nv (d : Deferred) : (s.defer d).nv = s.nv := rfl
@[simp] theorem State.defer_tamper (d : Deferred) : (s.defer d).tamper = s.tamper := rfl
@[simp] theorem State.defer_cl (d : Deferred) : (s.defer d).cl = s.cl := rfl
@[simp] theorem State.defer_pwr (d : Deferred) : (s.defer d).pwr = s.pwr := rfl
@[simp] theorem State.defer_tel (d : Deferred) : (s.defer d).tel = s.tel := rfl

@[simp] theorem State.takeStep_taken (u : UnitId) : (s.takeStep u).sched.taken = u :: s.sched.taken := rfl
@[simp] theorem State.defer_deferred (d : Deferred) : (s.defer d).hregs.deferred = s.hregs.deferred ++ [d] := rfl

end Sys2Proof.Machine
end

