-- ==== Sys2Proof/Laws/Work.lean ====
section
/-! SUPPORT. What the shared operations on descriptors, logs and registers do, said once. -/

namespace Sys2Proof.Machine
open Sys2Proof

theorem find_id_map (l : List Work) (f : Work → Work) (id k : Nat) (hf : ∀ w, (f w).id = w.id) :
    (l.map (fun w => if w.id == id then f w else w)).find? (fun w => w.id == k) =
      (l.find? (fun w => w.id == k)).map (fun w => if w.id == id then f w else w) := by
  rw [List.find?_map]
  congr 1
  congr 1
  funext w
  simp only [Function.comp]
  split <;> simp [hf]

/-- Changing one piece of work leaves the others. -/
theorem State.workAt_modWork (s : State) (id k : Nat) (f : Work → Work) (hf : ∀ w, (f w).id = w.id) :
    (s.modWork id f).workAt k = if k = id then (s.workAt k).map f else s.workAt k := by
  unfold State.workAt State.modWork
  dsimp only
  rw [find_id_map _ _ _ _ hf]
  split
  · next h =>
    subst h
    refine Option.map_congr ?_
    intro w hw
    simp [List.find?_some hw]
  · next h =>
    cases hw : s.work.find? (fun w => w.id == k) with
    | none => rfl
    | some w =>
      have : w.id = k := by simpa using List.find?_some hw
      simp [this, h]

/-- The work found has the serial number asked for. -/
theorem State.workAt_id {s : State} {id : Nat} {w : Work} (h : s.workAt id = some w) : w.id = id := by
  simpa using List.find?_some h

/-- A completion that fences nothing: the work holds it, and nothing else changes. -/
theorem State.finish_ends {s : State} {id : Nat} {w : Work} {st : Status} (res : Bytes) (hw : s.workAt id = some w)
    (hr : w.ring < 65536) (hf : st ≠ .fault) (ht : st ≠ .tamper) :
    Ended (s.finish id st res) id st res ∧ OnlyWork s (s.finish id st res) id := by
  have ha : w.isApplet = false := by simpa [Work.isApplet] using hr
  let late (v : Work) : Work := { v with lateConds := s.lateAtEnd w }
  have e : s.finish id st res = s.modWork id (fun v => (late v).done st res) := by
    cases st <;> simp_all [State.finish, State.finishRaw, late]
  have hd : ∀ v : Work, ((late v).done st res).id = v.id := fun _ => rfl
  rw [e]
  refine ⟨⟨(late w).done st res, (late w).cplOf st res, ?_, rfl, rfl, rfl, rfl⟩, rfl, fun k hk => ?_⟩
  · rw [State.workAt_modWork _ _ _ _ hd, if_pos rfl, hw]; rfl
  · rw [State.workAt_modWork _ _ _ _ hd, if_neg hk]

/-- The opcode's work begins. -/
theorem State.onStart_of {s : State} {ring opcode : Nat} {w : Work} (h : s.toStart ring opcode = some w)
    (f : Work → State) : s.onStart ring opcode f = f w := by
  simp only [State.onStart, h]

/-- A register write that is taken. -/
theorem State.onReg_of {s : State} {offset : Nat} (h : s.regWritable offset = true) (f : State → State) :
    s.onReg offset f = f s := by
  simp [State.onReg, h]

/-- One event is on its way into the protocol log. -/
theorem State.plogEvent_logged (s : State) (unit event check slice ring detail : Nat) :
    Logged s (s.plogEvent unit event check slice ring detail) event check detail := ⟨_, rfl, rfl, rfl, rfl, rfl⟩

theorem State.plogWork_logged (s : State) (w : Work) (event check : Nat) (st : Status) (detail : Nat) :
    Logged s (s.plogWork w event check st detail) event check detail := ⟨_, rfl, rfl, rfl, rfl, rfl⟩

/-- A level-1 event outside SPENT is on its way into the tamper log. -/
theorem State.level1_raised {s : State} (h : s.tamper.state ≠ .spent) (unit source loc slice detail : Nat) :
    Raised s (s.level1 unit source loc slice detail) 1 source loc := by
  simp only [State.level1, h, if_false]
  exact ⟨_, [], rfl, rfl, rfl, rfl, rfl⟩

end Sys2Proof.Machine
end

