-- ==== Sys2Proof/WellFormed.lean ====
section
/-! DEFINITION. Which commands a sender can form: ring, book, core, slice and sensor numbers within the device's
limits (R20, R99, R261, R278, R313, R326, R498), data of the length its carrier has. -/

namespace Sys2Proof

/-- A place of a codeword within the device's limits. -/
def CodePlace.wf (p : CodePlace) : Bool :=
  match p with
  | .pan book index word => decide (book < 1024) && decide (index < 2 ^ 32) && decide (word < 4)
  | .leg _ _ l => decide (l < 8)
  | .local_ core _ => decide (core < 32)
  | .session h w => decide (h < 8192) && decide (w < 8)
  | .slot t i w => decide (t < 2) && decide (i < 12288) && decide (w < 80)
  | .mask t i w => decide (t < 2) && decide (i < 12288) && decide (w < 80)
  | .store p c => decide (p < 65536) && decide (c < 16)
  | .buffer p c => decide (p < 64 * 4096) && decide (c < 16)
  | .dreg core n => decide (core < 32) && decide (n < 16)
  | .other unit => decide (unit < 13)

/-- Symbols of a codeword and what was added to each (R96, R98). -/
def upsetWf (u : List (Nat × Nat)) : Bool := u.all (fun e => decide (e.1 < 36) && decide (e.2 < 16))

/-- A command within the device's limits. -/
def Instr.wf (i : Instr) : Bool :=
  match i with
  | .grainBoundary wall => wall.all (fun t => decide (t < 256))
  | .scrupleBoundary => true
  | .bgDeadlineMiss task => decide (task < 6)
  | .submissionDoorbell ring value => decide (ring < 65536) && decide (value < 2 ^ 64)
  | .journalPersistedDoorbell ring lseq => decide (ring < 65536) && decide (lseq < 2 ^ 64)
  | .journalDrainedDoorbell ring lseq => decide (ring < 65536) && decide (lseq < 2 ^ 64)
  | .doorbellWriteCombined _ data => decide (1 ≤ data.length)
  | .fetchReadIssue ring => decide (ring < 65536)
  | .descriptorArrival ring _ _ => decide (ring < 65536)
  | .fetchReadRetry ring _ _ => decide (ring < 65536)
  | .primeAdmission => true
  | .nop ring => decide (ring < 65536)
  | .counterRead ring => decide (ring < 65536)
  | .counterIncr ring => decide (ring < 65536)
  | .tallyRead ring => decide (ring < 65536)
  | .tallyAdjust ring => decide (ring < 65536)
  | .macGen ring => decide (ring < 65536)
  | .macVerify ring => decide (ring < 65536)
  | .compare ring => decide (ring < 65536)
  | .post ring => decide (ring < 65536)
  | .tallyOpen ring => decide (ring < 65536)
  | .tallySet ring => decide (ring < 65536)
  | .tallyClose ring => decide (ring < 65536)
  | .postingAdmission => true
  | .postingHeldJournalFull ring => decide (ring < 65536)
  | .postingCommit book => decide (book < 1024)
  | .completionIssue ring => decide (ring < 65536)
  | .completionWriteRetry cq => decide (cq < 65536)
  | .msixTimerExpiry ring => decide (ring < 65536)
  | .frameWriteIssue book => decide (book < 1024)
  | .headFold book => decide (book < 1024)
  | .frameWriteRetry book => decide (book < 1024)
  | .sealFormation book => decide (book < 1024)
  | .sealSigned book => decide (book < 1024)
  | .sealBook ring => decide (ring < 65536)
  | .checkpoint ring => decide (ring < 65536)
  | .checkpointPhase2 book => decide (book < 1024)
  | .checkpointRelease ring => decide (ring < 65536)
  | .checkpointHoldExpiry book => decide (book < 1024)
  | .checkpointRestore ring => decide (ring < 65536)
  | .replay ring => decide (ring < 65536)
  | .replayEnd ring => decide (ring < 65536)
  | .gapClear ring => decide (ring < 65536)
  | .adoptPrepare ring => decide (ring < 65536)
  | .handover ring => decide (ring < 65536)
  | .adopt ring => decide (ring < 65536)
  | .create => true
  | .delete => true
  | .bookCommandExamine book => decide (book < 1024)
  | .bookSetupDone book => decide (book < 1024)
  | .deleteComplete book => decide (book < 1024)
  | .salternBlockLoaded book block _ => decide (book < 1024) && decide (block < 2 ^ 30)
  | .salternReadRetry book block => decide (book < 1024) && decide (block < 2 ^ 30)
  | .blockWriteBack book _ _ => decide (book < 1024)
  | .writeBackRetry book _ _ => decide (book < 1024)
  | .panRebuild book block => decide (book < 1024) && decide (block < 2 ^ 30)
  | .rebuildFrameArrival book block _ => decide (book < 1024) && decide (block < 2 ^ 30)
  | .unfence => true
  | .correctedWordWriteback place upset => place.wf && upsetWf upset
  | .uncorrectableError _ upset => upsetWf upset
  | .tamperLevel2Squash _ unit _ => decide (unit < 13)
  | .glitchDetectorTrip detector => decide (detector < 8)
  | .overvoltageTrip rail => decide (rail < 3)
  | .clockPeriodTrip => true
  | .clockFrequencyTrip _ => true
  | .clockRelock => true
  | .lightSensorTrip sensor => decide (sensor < 64)
  | .temperatureGradeTrip sensor _ => decide (sensor < 16)
  | .temperatureTrip sensor _ => decide (sensor < 16)
  | .sensorCalibration deviations => deviations.all (fun d => decide (d.1 < 256))
  | .substrateMeshFail mesh => decide (mesh < 2)
  | .batteryLoopCheck _ _ => true
  | .vbatLow => true
  | .keyEraseComplete => true
  | .bitternSummaryFormed => true
  | .mainRailFail rail => decide (rail < 6)
  | .pwrFailNAssert => true
  | .perstNAssert => true
  | .drainCutoff _ => true
  | .keepDomainStop _ => true
  | .startUp _ _ _ => true
  | .linkTrainingStart => true
  | .configurationReady => true
  | .ringsServiceable => true
  | .keySweep => true
  | .keySweepFallbackMask => true
  | .holdWeak _ => true
  | .writeThroughExit => true
  | .grainRecord => true
  | .functionLevelReset => true
  | .hotReset => true
  | .linkDownReset => true
  | .busMasterEnableChange _ _ _ => true
  | .configRequestRetry _ => true
  | .unsupportedBarRequest _ => true
  | .bar0BadAccess _ _ _ => true
  | .linkProtocolViolation _ => true
  | .hostReadRetry _ => true
  | .hostReadCompletion _ _ => true
  | .registerWrite _ _ => true
  | .rcRegisterRead bar _ _ => bar == 0 || bar == 2 || bar == 4
  | .ringEnable _ => true
  | .ringDisable _ => true
  | .ringDisableDone ring => decide (ring < 65536)
  | .activate slice => decide (slice < 1024)
  | .quiesce slice => decide (slice < 1024)
  | .resume slice => decide (slice < 1024)
  | .reset slice => decide (slice < 1024)
  | .remove slice => decide (slice < 1024)
  | .sliceResetComplete slice => decide (slice < 1024)
  | .sliceFree slice => decide (slice < 1024)
  | .sliceQuotaWrite slice _ _ => decide (slice < 1024)
  | .tokenQuotaWrite slice _ => decide (slice < 1024)
  | .slicePasidWrite slice _ => decide (slice < 1024)
  | .dplEnable slice _ => decide (slice < 1024)
  | .dplReadWrite slice _ => decide (slice < 1024)
  | .windowBarrier _ => true
  | .windowBarrierEnd slice => decide (slice < 1024)
  | .mpuDisable _ => true
  | .mpuEnable _ => true
  | .mpuRegionWrite _ _ => true
  | .mpuWriteBufferDrain mpu => decide (mpu < 45)
  | .invoke ring => decide (ring < 65536)
  | .invocationCoreAssign => true
  | .imageLoadComplete core _ _ => decide (core < 32)
  | .imageSignatureVerified core => decide (core < 32)
  | .budgetTrap core => decide (core < 32)
  | .serviceCallEnd core => decide (core < 32)
  | .allowAdd ring => decide (ring < 65536)
  | .allowRemove ring => decide (ring < 65536)
  | .allowRead ring => decide (ring < 65536)
  | .svcTallyRead core => decide (core < 32)
  | .svcPost core => decide (core < 32)
  | .svcDigest core => decide (core < 32)
  | .svcMac core => decide (core < 32)
  | .svcDerive core => decide (core < 32)
  | .svcBignum core => decide (core < 32)
  | .svcRandom core => decide (core < 32)
  | .svcNvRead core => decide (core < 32)
  | .svcNvWrite core => decide (core < 32)
  | .svcReturn core => decide (core < 32)
  | .dadd core => decide (core < 32)
  | .dsub core => decide (core < 32)
  | .dcmp core => decide (core < 32)
  | .dmul core => decide (core < 32)
  | .ddiv core => decide (core < 32)
  | .drnd core => decide (core < 32)
  | .dshf core => decide (core < 32)
  | .dneg core => decide (core < 32)
  | .dabs core => decide (core < 32)
  | .dmov core => decide (core < 32)
  | .dnrm core => decide (core < 32)
  | .dval core => decide (core < 32)
  | .dtst core => decide (core < 32)
  | .dcvb core => decide (core < 32)
  | .dcvd core => decide (core < 32)
  | .dli core => decide (core < 32)
  | .daddi core => decide (core < 32)
  | .dcmpi core => decide (core < 32)
  | .dget core => decide (core < 32)
  | .dput core => decide (core < 32)
  | .dsel core => decide (core < 32)
  | .ldd core => decide (core < 32)
  | .std core => decide (core < 32)
  | .ldx core => decide (core < 32)
  | .stx core => decide (core < 32)
  | .ldh core => decide (core < 32)
  | .sth core => decide (core < 32)
  | .ldb core => decide (core < 32)
  | .stb core => decide (core < 32)
  | .xadd core => decide (core < 32)
  | .xsub core => decide (core < 32)
  | .xand core => decide (core < 32)
  | .xor core => decide (core < 32)
  | .xxor core => decide (core < 32)
  | .xshl core => decide (core < 32)
  | .xshr core => decide (core < 32)
  | .xsar core => decide (core < 32)
  | .xmul core => decide (core < 32)
  | .xcmp core => decide (core < 32)
  | .xaddi core => decide (core < 32)
  | .xli core => decide (core < 32)
  | .xlui core => decide (core < 32)
  | .xori core => decide (core < 32)
  | .xandi core => decide (core < 32)
  | .xcmpi core => decide (core < 32)
  | .b core => decide (core < 32)
  | .bl core => decide (core < 32)
  | .br core => decide (core < 32)
  | .dbnz core => decide (core < 32)
  | .alaingNop core => decide (core < 32)
  | .svc core => decide (core < 32)
  | .trap core => decide (core < 32)
  | .setm core => decide (core < 32)
  | .mff core => decide (core < 32)
  | .mtf core => decide (core < 32)
  | .sessionOpen ring => decide (ring < 65536)
  | .sessionDerive ring => decide (ring < 65536)
  | .sessionClose ring => decide (ring < 65536)
  | .sessionRederivation handle => decide (handle < 8192)
  | .keyRemask target index => decide (target < 2) && decide (index < 12288)
  | .slotWrite ring => decide (ring < 65536)
  | .slotErase ring => decide (ring < 65536)
  | .authWrite ring => decide (ring < 65536)
  | .authErase ring => decide (ring < 65536)
  | .provision ring => decide (ring < 65536)
  | .familyRead ring => decide (ring < 65536)
  | .certRead ring => decide (ring < 65536)
  | .cipher ring => decide (ring < 65536)
  | .mac ring => decide (ring < 65536)
  | .digest ring => decide (ring < 65536)
  | .digestUpdate ring => decide (ring < 65536)
  | .digestFinish ring => decide (ring < 65536)
  | .modexp ring => decide (ring < 65536)
  | .modmul ring => decide (ring < 65536)
  | .rsaPublic ring => decide (ring < 65536)
  | .rsaPrivate ring => decide (ring < 65536)
  | .ecdsaSign ring => decide (ring < 65536)
  | .ecdsaVerify ring => decide (ring < 65536)
  | .ecdh ring => decide (ring < 65536)
  | .x25519 ring => decide (ring < 65536)
  | .ed25519Sign ring => decide (ring < 65536)
  | .ed25519Verify ring => decide (ring < 65536)
  | .bnJobEnd engine _ => decide (engine < 16)
  | .random ring => decide (ring < 65536)
  | .rngKat ring => decide (ring < 65536)
  | .rngInject ring => decide (ring < 65536)
  | .rngBlockEnd samples => samples.length == 11 && samples.all (fun b => b.length == 128)
  | .conditioning => true
  | .drbgInstantiate => true
  | .drbgReseed => true
  | .reseedOverdue => true
  | .rngOutputStep => true
  | .rngStartupSlow => true
  | .rngWaitTimeout => true
  | .rngDataRead size => decide (size < 9)
  | .nvRead ring => decide (ring < 65536)
  | .nvWrite ring => decide (ring < 65536)
  | .nvCommit ring => decide (ring < 65536)
  | .nvPasswd ring => decide (ring < 65536)
  | .nvCtlCommit => true
  | .writeBufferIdleCommit => true
  | .pageWrite => true
  | .nvScrubStep corrected bad => (corrected ++ bad).all (fun c => decide (c < 17))
  | .counterPeriodicStore counter => decide (counter < 4096)
  | .nvPartCfgWrite _ => true
  | .cntOwnerWrite _ => true
  | .batCfgWrite _ _ _ => true
  | .custChallenge ring => decide (ring < 65536)
  | .challengeSlotLapse slot => decide (slot < 16)
  | .lcStage ring => decide (ring < 65536)
  | .lcChange ring => decide (ring < 65536)
  | .bitternStatement ring => decide (ring < 65536)
  | .clCollect ring => decide (ring < 65536)
  | .clAbort ring => decide (ring < 65536)
  | .clCollectWaitExpiry => true
  | .externalFieldCheck _ => true
  | .cardPing _ => true
  | .cardAnswer _ => true
  | .cardFrameTimeout => true
  | .tagSelectApplication _ => true
  | .tagSelectFile fid => decide (fid < 65536)
  | .readBinary offset le => decide (offset < 32768) && decide (le < 257)
  | .updateBinary offset data _ _ => decide (offset < 32768) && decide (1 ≤ data.length) && decide (data.length ≤ 64)
  | .verify _ password _ => password.length == 8
  | .tagFrameError => true
  | .fieldLoss => true
  | .sbIdent => true
  | .sbDeviceId => true
  | .sbTjMax => true
  | .sbTjMin => true
  | .sbPower => true
  | .sbHold => true
  | .sbLcState => true
  | .sbTamperFlags => true
  | .sbTamperCause => true
  | .sbStatusFlags => true
  | .sbHalt => true
  | .sbSensorTj sensor => decide (sensor < 16)
  | .sidebandViolation _ => true
  | .smbusClockTimeout => true
  | .telemetrySample tj power holdMv => decide (power < 2 ^ 16) && decide (holdMv < 2 ^ 16) && tj.length == 16
  | .peakClr => true
  | .logAckWrite _ seq => decide (seq < 2 ^ 32)
  | .fieldPresent _ => true
  | .tagAnticollision _ => true
  | .cardActivationAnswer _ _ => true
  | .msixTableWrite _ _ => true
  | .vbatRestored => true
  | .functionLevelResetComplete => true
  | .linkUp => true

end Sys2Proof
end

