-- ==== Sys2Proof/Tests/Slice0.lean ====
section
/-! SUPPORT. The model's own tests: ill-formed commands that `Instr.wf` refuses, single steps with results from the
manual, and for every obligation states that meet its hypotheses. -/

namespace Sys2Proof.Tests
open Sys2Proof Sys2Proof.Machine

set_option Elab.async false

/-! Small states. -/

/-- An invocation with 10 grains of budget that may call every service. -/
def tInv : Invocation :=
  { work := 1, slice := 0, gen := 1, session := 0, image := 0, imageLen := 0, budget := 10, allow := 0, inAddr := 0,
    inLen := 0, outCap := 0, outAddr := 0, svcMask := 0xFFFF, charged := 0, posts := 0, loaded := none }

/-- An Alaing word from OP, A, B, C and M (R334). -/
def tWord (op a b c m : Nat) : Word := BitVec.ofNat 32 (op * 2 ^ 26 + a * 2 ^ 22 + b * 2 ^ 18 + c * 2 ^ 14 + m)

/-- Core 0 runs with the word at address 0 and the registers given. -/
def tCore (w : Word) (d : List Image) (x : List Word) (f : Word) : Core :=
  { Core.reset with
    mode := .running, inv := some tInv, d := d ++ List.replicate (16 - d.length) imgZero,
    x := x ++ List.replicate (8 - x.length) 0, f := f, code := (List.range 4).map (fun i => (i, w.extractLsb' (8 * i) 8)) }

def tAl (w : Word) (d : List Image) (x : List Word) (f : Word) : State :=
  { State.reset with applets := { State.reset.applets with cores := [(0, tCore w d x f)] } }

/-- +5, -7 and the largest image. -/
def tFive : Image := 0x5C
def tMinus7 : Image := 0x7D
def tMax : Image := 0x9999999999999999999999999999999C

theorem takes_of {s : State} {op : Nat} {w : Word}
    (h : (s.coreRuns 0 && (fetchSub (s.coreAt 0).pc.toNat).isNone && !(s.coreAt 0).badAt (s.coreAt 0).pc.toNat &&
      ((s.coreAt 0).insnAt (s.coreAt 0).pc.toNat == w) && (illegalSub w).isNone && (fOp w == op) &&
      decide ((s.coreAt 0).cycle + fitCycles (s.coreAt 0) w ≤ 100)) = true) : Takes s 0 op w := by
  simp only [Bool.and_eq_true, Option.isNone_iff_eq_none, Bool.not_eq_true', beq_iff_eq, decide_eq_true_eq] at h
  obtain ⟨⟨⟨⟨⟨⟨a, b⟩, c⟩, d⟩, e⟩, f⟩, g⟩ := h
  exact ⟨a, b, c, d, e, f, g⟩

theorem witness_BinaryInstructions :
    (∀ op ∈ [0x20, 0x21, 0x22, 0x23, 0x24, 0x25, 0x26, 0x27, 0x28],
      Takes (tAl (tWord op 1 2 3 0) [] [0, 0, 0xFFFFFFFF, 0x80000001] 0) 0 op (tWord op 1 2 3 0)) ∧
    (∀ op ∈ [0x2A, 0x2D, 0x2E], Takes (tAl (tWord op 7 7 15 0x3FFF) [] [] 0) 0 op (tWord op 7 7 15 0x3FFF)) ∧
    (∀ op ∈ [0x2B, 0x2C], Takes (tAl (tWord op 7 0 15 0x3FFF) [] [] 0) 0 op (tWord op 7 0 15 0x3FFF)) ∧
    Takes (tAl (tWord 0x29 0 7 0 0) [] [] 0) 0 0x29 (tWord 0x29 0 7 0 0) ∧
    Takes (tAl (tWord 0x2F 0 7 15 0x3FFF) [] [] 0) 0 0x2F (tWord 0x2F 0 7 15 0x3FFF) := by
  refine ⟨?_, ?_, ?_, takes_of (by decide +kernel), takes_of (by decide +kernel)⟩ <;>
    (intro op h; fin_cases h <;> exact takes_of (by decide +kernel))

/-! Commands beyond the limits of the device, one for each check of `Instr.wf`. -/

theorem test_ill_formed_1 :
    ([.bgDeadlineMiss, .mainRailFail] : List (Nat → Instr)).all (fun c => !(c 6).wf) = true := by decide +kernel

theorem test_ill_formed_2 :
    ([.fetchReadIssue, .nop, .counterRead, .counterIncr, .tallyRead, .tallyAdjust, .macGen, .macVerify, .compare,
     .post, .tallyOpen, .tallySet, .tallyClose, .postingHeldJournalFull, .completionIssue,
     .completionWriteRetry, .msixTimerExpiry, .sealBook, .checkpoint, .checkpointRelease, .checkpointRestore,
     .replay, .replayEnd, .gapClear, .adoptPrepare, .handover, .adopt, .ringDisableDone, .invoke, .allowAdd,
     .allowRemove, .allowRead, .sessionOpen, .sessionDerive, .sessionClose, .slotWrite, .slotErase, .authWrite,
     .authErase, .provision] : List (Nat → Instr)).all (fun c => !(c 65536).wf) = true := by decide +kernel

theorem test_ill_formed_3 :
    ([.familyRead, .certRead, .cipher, .mac, .digest, .digestUpdate, .digestFinish, .modexp, .modmul, .rsaPublic,
     .rsaPrivate, .ecdsaSign, .ecdsaVerify, .ecdh, .x25519, .ed25519Sign, .ed25519Verify, .random, .rngKat,
     .rngInject, .nvRead, .nvWrite, .nvCommit, .nvPasswd, .custChallenge, .lcStage, .lcChange,
     .bitternStatement, .clCollect, .clAbort, .tagSelectFile] : List (Nat → Instr)).all (fun c => !(c 65536).wf) = true := by decide +kernel

theorem test_ill_formed_4 :
    ([.postingCommit, .frameWriteIssue, .headFold, .frameWriteRetry, .sealFormation, .sealSigned,
     .checkpointPhase2, .checkpointHoldExpiry, .bookCommandExamine, .bookSetupDone, .deleteComplete, .activate,
     .quiesce, .resume, .reset, .remove, .sliceResetComplete, .sliceFree, .windowBarrierEnd] : List (Nat → Instr)).all (fun c => !(c 1024).wf) = true := by decide +kernel

theorem test_ill_formed_5 :
    ([(fun c => .correctedWordWriteback (.other c) [])] : List (Nat → Instr)).all (fun c => !(c 13).wf) = true := by
  decide +kernel

theorem test_ill_formed_6 :
    ([.glitchDetectorTrip] : List (Nat → Instr)).all (fun c => !(c 8).wf) = true := by decide +kernel

theorem test_ill_formed_7 :
    ([.overvoltageTrip] : List (Nat → Instr)).all (fun c => !(c 3).wf) = true := by decide +kernel

theorem test_ill_formed_8 :
    ([.lightSensorTrip] : List (Nat → Instr)).all (fun c => !(c 64).wf) = true := by decide +kernel

theorem test_ill_formed_9 :
    ([.substrateMeshFail] : List (Nat → Instr)).all (fun c => !(c 2).wf) = true := by decide +kernel

theorem test_ill_formed_10 :
    ([.mpuWriteBufferDrain] : List (Nat → Instr)).all (fun c => !(c 45).wf) = true := by decide +kernel

theorem test_ill_formed_11 :
    ([.imageSignatureVerified, .budgetTrap, .serviceCallEnd, .svcTallyRead, .svcPost, .svcDigest, .svcMac,
     .svcDerive, .svcBignum, .svcRandom, .svcNvRead, .svcNvWrite, .svcReturn, .dadd, .dsub, .dcmp, .dmul, .ddiv,
     .drnd, .dshf, .dneg, .dabs, .dmov, .dnrm, .dval, .dtst, .dcvb, .dcvd, .dli, .daddi, .dcmpi, .dget, .dput,
     .dsel, .ldd, .std, .ldx, .stx, .ldh, .sth] : List (Nat → Instr)).all (fun c => !(c 32).wf) = true := by decide +kernel

theorem test_ill_formed_12 :
    ([.ldb, .stb, .xadd, .xsub, .xand, .xor, .xxor, .xshl, .xshr, .xsar, .xmul, .xcmp, .xaddi, .xli, .xlui,
     .xori, .xandi, .xcmpi, .b, .bl, .br, .dbnz, .alaingNop, .svc, .trap, .setm, .mff, .mtf] : List (Nat → Instr)).all (fun c => !(c 32).wf) = true := by decide +kernel

theorem test_ill_formed_13 :
    ([.sessionRederivation] : List (Nat → Instr)).all (fun c => !(c 8192).wf) = true := by decide +kernel

theorem test_ill_formed_14 :
    ([(.bnJobEnd · true), .challengeSlotLapse, .sbSensorTj] : List (Nat → Instr)).all (fun c => !(c 16).wf) = true := by decide +kernel

theorem test_ill_formed_15 :
    ([.rngDataRead] : List (Nat → Instr)).all (fun c => !(c 9).wf) = true := by decide +kernel

theorem test_ill_formed_16 :
    ([.counterPeriodicStore] : List (Nat → Instr)).all (fun c => !(c 4096).wf) = true := by decide +kernel

theorem test_ill_formed_terms_1 :
    ([.submissionDoorbell 65536 0, .submissionDoorbell 0 (2 ^ 64), .journalPersistedDoorbell 65536 0,
   .journalPersistedDoorbell 0 (2 ^ 64), .journalDrainedDoorbell 65536 0, .journalDrainedDoorbell 0 (2 ^ 64),
   .descriptorArrival 65536 [] [], .fetchReadRetry 65536 0 false, .salternBlockLoaded 1024 0 [],
   .salternBlockLoaded 0 (2 ^ 30) [], .salternReadRetry 1024 0, .salternReadRetry 0 (2 ^ 30),
   .blockWriteBack 1024 0 0, .writeBackRetry 1024 0 0, .panRebuild 1024 0, .panRebuild 0 (2 ^ 30),
   .rebuildFrameArrival 1024 0 [], .rebuildFrameArrival 0 (2 ^ 30) [], .tamperLevel2Squash none 13 0, .tamperLevel2Squash (some true) 13 0,
   .grainBoundary (some 256),
   .temperatureGradeTrip 16 0, .temperatureTrip 16 0, .sliceQuotaWrite 1024 .sq 0, .tokenQuotaWrite 1024 0,
   .slicePasidWrite 1024 0, .dplEnable 1024 0, .dplReadWrite 1024 0, .imageLoadComplete 32 [] []] : List Instr).all (fun i => !i.wf) = true := by decide +kernel

theorem test_ill_formed_terms_2 :
    ([.keyRemask 2 0, .keyRemask 0 12288, .readBinary 32768 0, .readBinary 0 257, .logAckWrite false (2 ^ 32),
   .doorbellWriteCombined 0 [], .rngBlockEnd (List.replicate 10 (List.replicate 128 0)),
   .rngBlockEnd (List.replicate 11 []), .nvScrubStep [17] [], .nvScrubStep [] [17], .updateBinary 32768 [0] 0 0,
   .updateBinary 0 [] 0 0, .updateBinary 0 (List.replicate 65 0) 0 0, .verify false [] 0,
   .sensorCalibration [(256, 0)], .telemetrySample (List.replicate 16 0) (2 ^ 16) 0,
   .telemetrySample (List.replicate 16 0) 0 (2 ^ 16), .telemetrySample [] 0 0] : List Instr).all (fun i => !i.wf) = true := by decide +kernel

theorem test_well_formed_at_the_limits :
    [.submissionDoorbell 65535 (2 ^ 64 - 1), .postingCommit 1023, .dadd 31, .sessionRederivation 8191, .keyRemask 1 12287,
      .counterPeriodicStore 4095, .readBinary 32767 256, .updateBinary 32767 (List.replicate 64 0) 0 0].all Instr.wf = true := by
  decide +kernel

theorem witness_ControlInstructions :
    (∀ a ∈ [0, 1, 12], Takes (tAl (tWord 0x30 a 15 15 0x3FFF) [] [] 0) 0 0x30 (tWord 0x30 a 15 15 0x3FFF)) ∧
    condHolds 0 0 = true ∧ condHolds 1 0 = false ∧
    Takes (tAl (tWord 0x31 7 0 0 4) [] [] 0) 0 0x31 (tWord 0x31 7 0 0 4) ∧
    (∀ x ∈ [(0xFFFC : Word), 0x10000, 2], Takes (tAl (tWord 0x32 0 1 0 0) [] [0, x] 0) 0 0x32 (tWord 0x32 0 1 0 0)) ∧
    (∀ x ∈ [(0 : Word), 1], Takes (tAl (tWord 0x33 1 0 0 4) [] [0, x] 0) 0 0x33 (tWord 0x33 1 0 0 4)) ∧
    (∀ op ∈ [0x38, 0x39], Takes (tAl (tWord op 0 0 15 0x3FFF) [] [] 0) 0 op (tWord op 0 0 15 0x3FFF)) ∧
    Takes (tAl (tWord 0x37 0 0 0 0) [] [] 0) 0 0x37 (tWord 0x37 0 0 0 0) ∧
    Takes (tAl (tWord 0x3A 0 0 0 1) [] [] 0) 0 0x3A (tWord 0x3A 0 0 0 1) ∧
    Takes (tAl (tWord 0x3B 7 0 0 0) [] [] 0x11F) 0 0x3B (tWord 0x3B 7 0 0 0) ∧
    Takes (tAl (tWord 0x3C 0 7 0 0) [] [] 0) 0 0x3C (tWord 0x3C 0 7 0 0) := by
  refine ⟨?_, by decide, by decide, takes_of (by decide +kernel), ?_, ?_, ?_, takes_of (by decide +kernel),
    takes_of (by decide +kernel), takes_of (by decide +kernel), takes_of (by decide +kernel)⟩ <;>
    (intro x h; fin_cases h <;> exact takes_of (by decide +kernel))

/-- Operands for the decimal instructions: D0 = +5, D1 = -7, D2 the largest word, D3 = +0. -/
def tD : List Image := [tFive, tMinus7, tMax, 0xC]

theorem witness_DecimalSumsAndTests :
    tD.all valid = true ∧
    (∀ op ∈ [0x01, 0x02], ∀ b ∈ [0, 2], Takes (tAl (tWord op 15 b 1 0) tD [] 0) 0 op (tWord op 15 b 1 0)) ∧
    Takes (tAl (tWord 0x11 15 2 15 0x3FFF) tD [] 0) 0 0x11 (tWord 0x11 15 2 15 0x3FFF) ∧
    (∀ b ∈ [0, 2], ∀ m ∈ [0, 1], Takes (tAl (tWord 0x0E 4 b 0 m) tD [] 0) 0 0x0E (tWord 0x0E 4 b 0 m)) ∧
    (9223372036854775807 : Int) < toInt tMax ∧
    (∀ m ∈ [0, 1], Takes (tAl (tWord 0x0F 15 4 0 m) [] [] 0) 0 0x0F (tWord 0x0F 15 4 0 m)) ∧
    Takes (tAl (tWord 0x03 0 0 1 0) tD [] 0) 0 0x03 (tWord 0x03 0 0 1 0) ∧
    (∀ op ∈ [0x08, 0x09, 0x0A, 0x0B], Takes (tAl (tWord op 15 1 0 0) tD [] 0) 0 op (tWord op 15 1 0 0)) ∧
    (∀ op ∈ [0x0C, 0x0D], Takes (tAl (tWord op 0 1 0 0) tD [] 0) 0 op (tWord op 0 1 0 0)) ∧
    Takes (tAl (tWord 0x10 15 0 8 0) tD [] 0) 0 0x10 (tWord 0x10 15 0 8 0) ∧
    Takes (tAl (tWord 0x12 0 1 8 0) tD [] 0) 0 0x12 (tWord 0x12 0 1 8 0) ∧
    Takes (tAl (tWord 0x13 7 1 0 31) tD [] 0) 0 0x13 (tWord 0x13 7 1 0 31) ∧
    Takes (tAl (tWord 0x14 15 1 7 31) tD [] 0) 0 0x14 (tWord 0x14 15 1 7 31) ∧
    Takes (tAl (tWord 0x15 15 1 2 12) tD [] 0) 0 0x15 (tWord 0x15 15 1 2 12) := by
  refine ⟨by decide +kernel, ?_, takes_of (by decide +kernel), ?_, by decide +kernel, ?_, takes_of (by decide +kernel), ?_,
    ?_, takes_of (by decide +kernel), takes_of (by decide +kernel), takes_of (by decide +kernel),
    takes_of (by decide +kernel), takes_of (by decide +kernel)⟩ <;> intro x h <;> fin_cases h <;>
    first | exact takes_of (by decide +kernel) | (intro y k; fin_cases k <;> exact takes_of (by decide +kernel))

/-- For DDIV and DRND of a pair: P is bit 13 of M, RD bit 12, the mode bits 11 to 9. -/
theorem witness_DecimalProductsAndRounding :
    Takes (tAl (tWord 0x04 14 0 1 0) tD [] 0) 0 0x04 (tWord 0x04 14 0 1 0) ∧
    (∀ c ∈ [1, 3], ∀ m ∈ [0, 2 ^ 12, 2 ^ 13], Takes (tAl (tWord 0x05 14 2 c m) tD [] 0) 0 0x05 (tWord 0x05 14 2 c m)) ∧
    magnitude 0xC = 0 ∧ magnitude tMinus7 ≠ 0 ∧ 10 ^ 31 ≤ (pairInt tMax 0xC / 7).natAbs ∧
    (∀ m ∈ [0, 30, 2 ^ 13, 2 ^ 13 + 61], Takes (tAl (tWord 0x06 15 2 0 m) tD [] 0) 0 0x06 (tWord 0x06 15 2 0 m)) ∧
    roundingOf 0 ≠ none ∧ 10 ^ 31 ≤ (pairInt tMax 0xC).natAbs ∧
    (∀ m ∈ [0, 30, 63, 34], Takes (tAl (tWord 0x07 15 2 0 m) tD [] 0) 0 0x07 (tWord 0x07 15 2 0 m)) ∧
    mShift 30 = 30 ∧ mShift 34 = -30 ∧ 10 ^ 31 ≤ (toInt tMax * 10 ^ 30).natAbs := by
  refine ⟨takes_of (by decide +kernel), ?_, by decide +kernel, by decide +kernel, by decide +kernel, ?_, by decide,
    by decide +kernel, ?_, by decide, by decide, by decide +kernel⟩ <;> intro x h <;> fin_cases h <;>
    first | exact takes_of (by decide +kernel) | (intro y k; fin_cases k <;> exact takes_of (by decide +kernel))

theorem witness_LoadsAndStores :
    (∀ p ∈ [(0x18, 16), (0x1A, 4), (0x1C, 2), (0x1E, 1), (0x19, 16), (0x1B, 4), (0x1D, 2), (0x1F, 1)],
      Takes (tAl (tWord p.1 7 0 2 0) [] [] 0) 0 p.1 (tWord p.1 7 0 2 0) ∧
      accessSub 0x10000 p.2 false (p.2 == 4) = none ∧ accessSub 0x10000 p.2 true (p.2 == 4) = none) := by
  intro x h; fin_cases h <;> exact ⟨takes_of (by decide +kernel), by decide +kernel, by decide +kernel⟩

theorem witness_FetchAndIllegalTraps :
    let s := tAl (tWord 0x16 0 0 0 0) [] [] 0
    let far := s.setCore 0 { s.coreAt 0 with pc := 0x10000 }
    s.coreRuns 0 = true ∧ (s.coreAt 0).cycle < 100 ∧ illegalSub (tWord 0x16 0 0 0 0) = some 1 ∧
      illegalSub (tWord 0x20 8 0 0 0) = some 3 ∧ far.coreRuns 0 = true ∧ ¬ ((far.coreAt 0).pc.toNat < 0x10000) := by
  decide +kernel

/-! The worked examples of the manual. -/

/-- The state after a command, seen through `f`. -/
def tStep {α : Type} (i : Instr) (s : State) (f : State → α) : Option α :=
  match exec i s with
  | .next t => some (f t)
  | _ => none

/-- R89: rows +25, +35, -25, -5 of the table, modes half-even to ceiling. -/
theorem test_drnd_table :
    ([0x25C, 0x35C, 0x25D, 0x5D].map (fun d => [0, 1, 2, 3, 4].map (fun m =>
      tStep (.drnd 0) (tAl (tWord 0x06 1 0 0 (m * 512 + 1)) [d] [] 0) (fun t => (t.coreAt 0).dReg 1)))) =
      [[0x2C, 0x3C, 0x2C, 0x2C, 0x3C], [0x4C, 0x4C, 0x3C, 0x3C, 0x4C], [0x2D, 0x3D, 0x2D, 0x3D, 0x2D],
        [0xC, 0x1D, 0xC, 0x1D, 0xC]].map (List.map some) := by decide +kernel

/-- R89: 1 250 075 times 375, and its rounding by 4 digits. -/
theorem test_dmul_interest :
    tStep (.dmul 0) (tAl (tWord 0x04 2 0 1 0) [0x1250075C, 0x375C] [] 0) (fun t => ((t.coreAt 0).dReg 2, (t.coreAt 0).dReg 3)) =
      some (0xC, 0x468778125C) ∧
    tStep (.drnd 0) (tAl (tWord 0x06 1 0 0 4) [0x468778125C] [] 0) (fun t => (t.coreAt 0).dReg 1) = some 0x46878C := by
  decide +kernel

/-- R92: -9 876 543 210 to binary and back. -/
theorem test_dcvb_example :
    tStep (.dcvb 0) (tAl (tWord 0x0E 0 0 0 0) [0x9876543210D] [] 0) (fun t => ((t.coreAt 0).xReg 0, (t.coreAt 0).xReg 1)) =
      some (0xB34FE916, 0xFFFFFFFD) ∧
    tStep (.dcvd 0) (tAl (tWord 0x0F 0 0 0 0) [] [0xB34FE916, 0xFFFFFFFD] 0) (fun t => (t.coreAt 0).dReg 0) =
      some 0x9876543210D := by decide +kernel

/-- R98: the check bits of +0, and the nibble put right in +1 250 075. -/
theorem test_nibble_code :
    checkBits 0xC = 0xC581 ∧ checkBits 0 = 0 ∧
    (let c := codeword (nibbles 0x1250075C)
     (nibbles 0x1250075C).getD 29 0 = 7 ∧ locate (sums 0 (c.set 29 3)) = .corrected 29 4 ∧ decodeWord (c.set 29 3) = some c) := by
  decide +kernel

/-! Vectors of the standards that the manual cites. -/

/-- FIPS 197, appendix C.3, and its inverse. -/
theorem test_aes256 :
    let k := (List.range 32).map (BitVec.ofNat 8)
    let p := (List.range 16).map (fun i => BitVec.ofNat 8 (17 * i))
    let c := beBytes 16 0x8ea2b7ca516745bfeafc49904b496089
    aesEnc k p = c ∧ aesDec k c = p := by decide +kernel

/-- RFC 4493, example 2. -/
theorem test_cmac :
    cmac (beBytes 16 0x2b7e151628aed2a6abf7158809cf4f3c) (beBytes 16 0x6bc1bee22e409f96e93d7e117393172a) =
      beBytes 16 0x070a16b46b4d4144f79bdd9dd04a287c := by decide +kernel

/-- FIPS 180-4 on "abc". -/
theorem test_sha256 : sha256 (ascii "abc") =
    beBytes 32 0xba7816bf8f01cfea414140de5dae2223b00361a396177a9cb410ff61f20015ad := by decide +kernel

/-! A device that runs: slice 0 active with one window over all of host memory, ring 0 and completion ring 0 enabled. -/

def tRegion : Region := { Region.reset with start := 0, stop := 2 ^ 61 - 1, en := true, r := true, w := true }
def tMpu : Mpu := { Mpu.fw with en := true, regions := [(0, tRegion)] }
def tSlice : Slice :=
  { Slice.reset with
    st := .active, gen := 1, sqQuota := 8, cqQuota := 8, panQuota := 16, sessQuota := 4, tokQuota := 8, tokLeft := 8,
    live := [(0, { en := true, r := true, w := true, base := 0, limit := 2 ^ 52 - 1 })] }
def tSq : Sq := { Sq.reset with enabled := true, base := 0x10000, vector := 0, noint := false }
def tCq : Cq := { Cq.reset with enabled := true, base := 0x20000, phase := true }

/-- An open session of slice 0 with 5 uses left. -/
def tSession : Session := { Session.reset with isOpen := true, attr := 0xFFFF, uses := 5, masked := zeros 32, mask := zeros 32 }

def tRun : State :=
  { State.reset with
    nextId := 100, sq := [(0, tSq)], cq := [(0, tCq)], slices := [(0, tSlice)], mpus := List.replicate 45 tMpu,
    link := { Link.reset with bme := true, pasidEn := true, up := true, msixEn := true },
    sched := { Sched.reset with grain := 60000, running := true, lanesFree := 8, admitLeft := 8, portsLeft := 16,
                                commitsLeft := 6, commitLegs := 16,
                                served := [(.nv, 2), (.nv, background), (.keyStore, background), (.telemetry, background),
                                  (.tamper, background), (.mover, background), (.digest 0, 2), (.digest 1, 1), (.mgmt, 2)] },
    keys := { State.reset.keys with sessions := [(0, tSession)] },
    nv := { Nv.reset with running := true },
    pwr := { Power.reset with perst := false, step := 9, starting := true, holdOk := true } }

/-- A descriptor of ring 0, slice 0, with the given bytes, that stands in a phase. -/
def tW (opcode nslots aux len : Nat) (ph : Phase) (fields : List (Nat × Bytes)) : Work :=
  { id := 5, ring := 0, slot := 0, nslots := nslots, slice := 0, gen := 1, opcode := opcode, tag := 7, flagD := false,
    flagF := false, flagI := false, flagL := false, session := 0, aux := aux, len := len,
    desc := fields.foldl (fun d f => putBytes d f.1 f.2) (zeros (64 * nslots)), phase := ph, heldAt := 0, cover := none,
    first := false, admitted := none, lateConds := [], lane := 0, extra := 0, redone := false, key := [], failed := none,
    input := [], arrived := none, pos := 0, fullSince := none, reserved := 0, ending := none, fenceDone := false, commit := none, receipt := none, mailbox := none, cpl := none }

/-- The running device with one descriptor. -/
def tOn (s : State) (w : Work) : State := { s with work := [w] }

/-- A consumer of random output. -/
def tWait (use : RngUse) (need : Nat) (got : Bytes) : RngWait :=
  { use := use, prio := 4, slice := 0, need := need, got := got, since := 0 }
/-- The running device whose consumer has got zeros. -/
def tGot (s : State) (use : RngUse) (n : Nat) : State := { s with rng := { s.rng with waiters := [tWait use n (zeros n)] } }

theorem starts_of {s : State} {opcode : Nat} {w : Work}
    (h : (s.toStart 0 opcode == some w && s.workAt w.id == some w) = true) : Starts s 0 opcode w := by
  simp only [Bool.and_eq_true, beq_iff_eq] at h
  exact ⟨h.1, h.2, by decide⟩

theorem ready_of {s : State} {opcode : Nat} {w : Work}
    (h : (s.oldest 0 (fun v => v.opcode == opcode && s.stage2 v) == some w && s.workAt w.id == some w &&
      (w.failed == none)) = true) : PrimeReady s 0 opcode w := by
  simp only [Bool.and_eq_true, beq_iff_eq] at h
  exact ⟨h.1.1, h.1.2, h.2, by decide⟩

/-- An open tally of value +5 with index 0, and a book that holds it. -/
def tTally : Tally := { value := tFive, floor := 0xC, ceiling := tMax, tid := 0, version := 1, attr := 0xB }
def tBook : Book :=
  { Book.reset with
    st := .open_, cap := 8, uid := 9, incarn := 1, heads := [zeros 32], headsIssued := [zeros 32], keysHeld := true,
    kEnc := zeros 32, kTwk := zeros 32, kMac := zeros 32, kJrn := zeros 32, jBase := 0x100, sealBase := 0x200 }
def tBlock (recs : List Tally) : PanBlock :=
  { book := 0, index := 0, recs := recs, dirty := false, dirtyAt := 0, wbVer := 0, wbLseq := 0, wbPos := 0, stamp := 0,
    wbRefused := none, cut := false, lost := false }
def tLedger : State :=
  { tRun with books := [(0, tBook)],
              pan := { Pan.reset with blocks := [tBlock [tTally, Tally.zero, Tally.zero, Tally.zero]] } }

/-- A prime operation in stage 2. -/
def tPrime (opcode aux len : Nat) (fields : List (Nat × Bytes)) : Work :=
  { tW opcode 1 aux len (.active 1) fields with admitted := some 59998 }

theorem witness_PrimeOperations :
    (∀ op ∈ [0x1000, 0x1001, 0x1010, 0x1020, 0x1021, 0x1030],
      PrimeReady (tOn tLedger (tPrime op 0 0 [])) 0 op (tPrime op 0 0 [])) ∧
    (tLedger.counterAt 0).stored ≠ none ∧ (tLedger.counterAt 0).value ≠ counterMax ∧ (tLedger.bookAt 0).postFail = none ∧
    tLedger.primeRecord (tPrime 0x1010 0 0 []) = some tTally ∧ idFail 8 0 tTally = none := by
  refine ⟨?_, by decide +kernel, by decide +kernel, by decide +kernel, by decide +kernel, by decide +kernel⟩
  intro op h; fin_cases h <;> exact ready_of (by decide +kernel)

theorem witness_TallyAdjustCommits :
    let w := tPrime 0x1011 0 0 [(0x20, imageBytes tFive)]
    let l : Leg := { tid := w.field 0x10 8, amount := imageAt w.desc 0x20, expect := w.field 0x18 6, new := Tally.zero }
    let s := tOn tLedger w
    PrimeReady s 0 0x1011 w ∧ w.input = [] ∧ (s.bookAt 0).postFail = none ∧ Holds s 0 (tidIndex l.tid) tTally ∧
      postVerdict 8 true [(l, tTally)] = none ∧ adjustBytes ≤ s.roomOf 0 + w.reserved ∧ s.phase2Dirty w = false ∧
      decAdd tFive tFive = some 0x10C := by
  refine ⟨ready_of (by decide +kernel), rfl, by decide +kernel, ⟨_, rfl, rfl, rfl⟩, by decide +kernel, by decide +kernel,
    by decide +kernel⟩

theorem witness_Admissions_any :
    (let w := { tW 0x1030 1 1 2 .held [] with cover := some 60000 }
     let s := tOn tRun w
     let c := s.coverPrimes
     s.serviceable = true ∧ s.now % 20 ≠ 19 ∧ s.sched.primeDone = false ∧ s.sched.admitDone = false ∧
       0 < s.sched.lanesFree ∧ 0 < (s.sliceAt 0).tokLeft ∧ c.primeOrder = [w] ∧ c.workAt 5 = some w ∧ 60000 ≤ s.now ∧
       (c.primeRank w).1 < 2 ∧ c.primeBehind w = false) ∧
    (let w := tW 0x2000 2 1 0x60 .held []
     let s := tOn tLedger w
     s.serviceable = true ∧ s.sched.admitDone = false ∧ 0 < s.sched.admitLeft ∧ s.heldPostings = [w] ∧ s.workAt 5 = some w ∧
       s.sessionBusy 0 = false ∧ s.postEarly w = none ∧ s.brine.entries.length < 1024 ∧ s.entriesOf 0 < 256 ∧
       s.roomFor 0 w.recordLegs = true) := by decide +kernel

theorem witness_Admissions :
    (let w := { tW 0x1030 1 1 2 .held [] with cover := some 60000 }
     let s := tOn tRun w
     s.serviceable = true ∧ s.now % 20 ≠ 19 ∧ s.sched.primeDone = false ∧ s.sched.admitDone = false ∧
       0 < s.sched.lanesFree ∧ w.heldAt < s.now ∧ s.mayBegin w = true ∧ w.failed = none ∧
       w.key = [] ∧ w.primeForm = true ∧ s.sessionFail 0 0 = none) ∧
    (let w := tW 0x2000 2 1 0x60 .held []
     let s := tOn tLedger w
     s.serviceable = true ∧ s.sched.admitDone = false ∧ 0 < s.sched.admitLeft ∧ w.isPosting = true ∧ s.brine.entries = [] ∧
       s.sessionBusy 0 = false ∧ s.postEarly w = none ∧ s.roomFor 0 w.recordLegs = true ∧
       (s.entryOf w).legs.length ≤ s.sched.portsLeft) ∧
    (∀ l ∈ ((tOn tLedger (tW 0x2000 2 1 0x60 .held [])).entryOf (tW 0x2000 2 1 0x60 .held [])).legs, tidIndex l.tid < 32 ∧
      ∃ k, tLedger.blockAt 0 (tidBlock l.tid) = some k ∧ k.lost = false) := by
  refine ⟨by decide +kernel, by decide +kernel, ?_⟩
  intro l h
  have : l ∈ [{ tid := 0, amount := 0, expect := 0, new := Tally.zero : Leg }] := by
    have e : ((tOn tLedger (tW 0x2000 2 1 0x60 .held [])).entryOf (tW 0x2000 2 1 0x60 .held [])).legs =
      [{ tid := 0, amount := 0, expect := 0, new := Tally.zero }] := by decide +kernel
    exact e ▸ h
  obtain rfl := List.mem_singleton.mp this
  exact ⟨by decide, _, rfl, rfl⟩

theorem witness_PostingsPresented :
    (∀ op ∈ [0x2000, 0x2010, 0x2011, 0x2012],
      (let w := tW op 2 (if op = 0x2000 then 1 else 0) 0x60 .routed []
       Starts (tOn tLedger w) 0 op w ∧ (tOn tLedger w).postFirst w = true ∧ (tOn tLedger w).postEarly w = none) ∧
      (let w := tW op 2 1 0x60 .routed [(0x6C, [1])]
       Starts (tOn tRun w) 0 op w ∧ (tOn tRun w).postFirst w = true ∧ (tOn tRun w).postEarly w = some (1, .malformed)) ∧
      (let w := tW op 2 1 0x60 .routed []
       let s := { tLedger with work := [{ tW (if op = 0x2000 then 0x2010 else 0x2000) 2 1 0x60 .routed [] with id := 4 }, w] }
       Starts s 0 op w ∧ s.postFirst w = false)) ∧
    (let w := { tW 0x2000 2 1 0x60 .held [] with fullSince := some (60000 - 5760) }
     let s : State := { tOn tLedger w with books := [(0, { tBook with fullWait := 1, reserved := 2 ^ 60 })] }
     s.oldest 0 (fun v => v.isHeld && v.isPosting) = some w ∧ s.workAt 5 = some w ∧ 0 < (s.bookAt 0).fullWait ∧
       s.shortOfRoom w = true ∧ 60000 - 5760 + 5760 * (s.bookAt 0).fullWait ≤ s.now) := by
  refine ⟨?_, by decide +kernel⟩
  intro op h
  fin_cases h <;> exact ⟨⟨starts_of (by decide +kernel), by decide +kernel⟩, ⟨starts_of (by decide +kernel), by decide +kernel⟩,
    starts_of (by decide +kernel), by decide +kernel⟩

/-- An entry of the brine window at stage K: +5 to the tally of `tLedger`. -/
def tEntry : Entry :=
  { (tOn tLedger (tW 0x2000 2 1 0x60 (.active 1) [])).entryOf (tW 0x2000 2 1 0x60 (.active 1) []) with
    stage := .commit, legs := [{ tid := 0, amount := tFive, expect := 0, got := true, new := { tTally with value := 0x10C, version := 2 } }] }
def tCommit : State :=
  { tOn tLedger (tW 0x2000 2 1 0x60 (.active 1) []) with brine := { Brine.reset with entries := [tEntry] } }

theorem witness_PostingCommits :
    tCommit.brine.entries.find? (fun x => x.book == 0) = some tEntry ∧ tCommit.mayCommit tEntry = true ∧
    tEntry.applet = false ∧ (tCommit.workAt tEntry.src).isSome ∧ tEntry.legs.length = 1 ∧ Holds tCommit 0 (tidIndex 0) tTally := by
  refine ⟨by decide +kernel, by decide +kernel, rfl, by decide +kernel, rfl, ⟨_, rfl, rfl, rfl⟩⟩

/-- A record of one leg that waits to be written, and the book with it. -/
def tRecord : Staged :=
  { lseq := 1, record := zeros 96, mac := zeros 16, grain := 59990, prime := false, reserved := 160, issued := false, folded := false }
def tStaged (b : Book) : State := { tRun with books := [(0, { b with lseq := 1, staged := [tRecord] })] }

theorem witness_JournalFrames :
    (let s := tStaged tBook
     (s.bookAt 0).nextFrame = some tRecord ∧ s.frameDue 0 tRecord = true ∧ (s.bookAt 0).jStall = none ∧ (s.writeFrame 0 tRecord).2 = true) ∧
    (let s := tStaged { tBook with jStall := some (60000 - 5760) }
     (s.bookAt 0).nextFrame = some tRecord ∧ s.frameDue 0 tRecord = true ∧ (s.bookAt 0).jStall = some (60000 - 5760) ∧
       (s.writeFrame 0 tRecord).2 = true) ∧
    (let s := { tStaged tBook with slices := [(0, { tSlice with live := [] })] }
     (s.bookAt 0).nextFrame = some tRecord ∧ s.frameDue 0 tRecord = true ∧ (s.bookAt 0).jStall = none ∧
       (s.writeFrame 0 tRecord).2 = false) ∧
    (let s : State := { tStaged tBook with sched := { tRun.sched with grain := tRecord.grain } }
     (s.bookAt 0).nextFrame = some tRecord ∧ s.frameDue 0 tRecord = false) := by
  decide +kernel

def tSeal : Seal :=
  { no := 1, lseq := 0, grain := 59990, cause := 1, prev := zeros 32, digest := zeros 32, heads := [zeros 32], sign := false, works := [],
    addr := 0x200, since := 1 }

theorem witness_HeadFoldsAndSeals :
    (((tStaged tBook).bookAt 0).staged.find? (fun x => !x.folded) = some tRecord ∧
      (tStaged tBook).mayStep (.digest 1) 1 = true ∧
      (let s : State := { tStaged tBook with pwr := { tRun.pwr with flush := some { since := 0, step := .drain, cut := false } } }
       s.pwr.flush.isSome = true ∧ (s.bookAt 0).staged.find? (fun x => !x.folded) = some tRecord) ∧
      (let s : State := { tStaged tBook with sched := { tRun.sched with served := [] } }
       s.pwr.flush.isSome = false ∧ (∀ e ∈ List.range 12, s.mayStep (.digest e) 1 = false) ∧
         (s.bookAt 0).staged.find? (fun x => !x.folded) = some tRecord)) ∧
    (let w := tW 0x3000 1 0 0x30 .routed []
     Starts (tOn tLedger w) 0 0x3000 w ∧ w.zeroFrom 0x10 0x40 = true ∧ ((tOn tLedger w).bookAt 0).accepts = true) ∧
    (tStaged { tBook with sinceSeal := 1 }).sealCause 0 ≠ none ∧
    (let s := { tRun with books := [(0, { tBook with seals := [tSeal] })] }
     (s.bookAt 0).seals.head? = some tSeal ∧ (s.bookAt 0).statable 0 = true ∧ s.writerRuns = true ∧
       s.canMaster (masterJournal 0) = true) ∧
    (let j : BnJob := { work := 0, use := 2, who := 0, no := 1, slice := 0, op := 0x20, key := none, keyType := 0, e := 0,
                        input := [], cost := 1, done := 1, admitted := 0, since := 0, retries := 0, rand := true, mask := [] }
     let x := { tSeal with sign := true }
     let s := { tRun with books := [(0, { tBook with seals := [x] })], crypto := { tRun.crypto with bn := [(0, { BnEngine.reset with running := some j })] } }
     (s.bookAt 0).seals.head? = some x ∧ (s.bookAt 0).statable 0 = true ∧ s.writerRuns = true ∧ s.canMaster (masterJournal 0) = true ∧
       s.bnEngineOf (fun j => j.ofSeal 0 1) = some (0, j)) := by
  refine ⟨by decide +kernel, ⟨starts_of (by decide +kernel), by decide +kernel⟩, by decide +kernel, by decide +kernel,
    by decide +kernel⟩

/-- A slot that may be a book's master key, and a slice that may create a book with it. -/
def tMaster : Slot := { Slot.reset with type := 3, occupied := true, attr := 0xFFFFFFFF, slice := 0xFFFF, masked := zeros 32, mask := zeros 32 }
def tCreate (b : Book) : State :=
  { tRun with books := [(0, b)], keys := { tRun.keys with compact := [(0, tMaster)] },
              slices := [(0, { tSlice with panQuota := 32, strandQuota := 4 })] }

theorem witness_BookCommands :
    (tCreate Book.reset).regWritable 0x050004 = true ∧ ((tCreate Book.reset).bookAt 0).cmd = none ∧
    (tCreate { Book.reset with cmd := some .create, cap := 8 }).createErr 0 = 0 ∧
    (tCreate { Book.reset with cmd := some .create, cap := 0 }).createErr 0 ≠ 0 ∧
    ((tCreate { tBook with cmd := some .delete }).bookAt 0).st ≠ .none_ ∧
    ((tCreate { Book.reset with cmd := some .delete, cap := 8 }).bookAt 0).st = .none_ ∧
    (let s := tCreate { Book.reset with cmd := some .create, accepted := true, cap := 8 }
     s.masterOk 0 0 = true ∧ s.gotRandom (.bookKeys 0) = none ∧ (tGot s (.bookKeys 0) 128).masterOk 0 0 = true ∧
       (tGot s (.bookKeys 0) 128).gotRandom (.bookKeys 0) = some (zeros 128)) ∧
    (tCreate { Book.reset with cmd := some .create, accepted := true, cap := 8, keySlot := 5 }).masterOk 5 0 = false ∧
    ((tCreate { tBook with cmd := some .delete, st := .deleting }).bookAt 0).st = .deleting ∧
    (let b := (tCreate { tBook with st := .deleting }).bookAt 0
     b.st = .deleting ∧ b.staged = [] ∧ b.seals = [] ∧ (tCreate { tBook with st := .deleting }).workLeft 0 = false) := by
  decide +kernel

/-- A checkpoint that is under way. -/
def tJob (phase : Nat) : WbJob :=
  { work := 5, phase := phase, passes := 7, hold := true, cut := 0, heads := [zeros 32], grain := 59990, mute := false, root := zeros 64, ended := 59995 }
def tCkpt (b : Book) (w : Work) : State := { tOn tLedger w with books := [(0, b)] }
/-- A book in a state, and one descriptor. -/
def tBookIn (b : Book) (w : Work) : State := { tOn tRun w with books := [(0, b)] }
def tCkptW : Work := tW 0x3010 1 0 0x30 (.active 1) [(0x18, leBytes 4 400), (0x1C, [1])]

theorem witness_Checkpoints :
    (let w := tW 0x3010 1 0 0x30 .routed [(0x18, leBytes 4 400), (0x1C, [1])]
     let s := tOn tLedger w
     Starts s 0 0x3010 w ∧ (w.ckptForm 1 && (s.bookAt 0).accepts && (s.bookAt 0).wb.isNone && (s.bookAt 0).hold.isNone &&
       s.rangeOk 0 0 400 true) = true) ∧
    (∀ b ∈ [{ tBook with wb := some (tJob 1) }, { tBook with hold := some 0 }],
     let w := tW 0x3010 1 0 0x30 .routed [(0x18, leBytes 4 400), (0x1C, [1])]
     let s := tBookIn b w
     Starts s 0 0x3010 w ∧ w.ckptForm 1 = true ∧ b.strands = 1 ∧ b.accepts = true ∧ (b.wb.isSome || b.hold.isSome) = true) ∧
    (let j := { tJob 1 with passes := 0 }
     let s : State := { tCkpt { tBook with wb := some j } tCkptW with
       pan := { Pan.reset with blocks := (List.range 65).map (fun k => { tBlock [] with index := k, dirty := true }) } }
     s.wbOf 0 0x3010 = some j ∧ s.cutLeft 0 = false ∧ 64 < s.dirtyBlocks 0 ∧ j.passes + 1 < 8) ∧
    (let j := { tJob 3 with mute := true }
     (tCkpt { tBook with wb := some j } tCkptW).wbOf 0 0x3010 = some j) ∧
    (∀ p ∈ [1, 2], let s := tCkpt { tBook with wb := some (tJob p) } tCkptW
      s.wbOf 0 0x3010 = some (tJob p) ∧ s.cutLeft 0 = false ∧ ¬ (64 < s.dirtyBlocks 0 ∧ (tJob p).passes + 1 < 8) ∧
        s.earlierPostings 0 (tJob p) = false) ∧
    (let s := tCkpt { tBook with wb := some (tJob 3) } tCkptW
     s.wbOf 0 0x3010 = some (tJob 3) ∧ s.workAt 5 = some tCkptW ∧ (s.bookAt 0).statable 0 = true ∧ s.writerRuns = true ∧
       s.canMaster (masterJournal 0) = true) ∧
    (let w := tW 0x3011 1 0 0x30 .routed []
     Starts (tOn tLedger w) 0 0x3011 w ∧ (w.zeroFrom 0x10 0x40 && ((tOn tLedger w).bookAt 0).handover.isNone) = true ∧
       Starts (tBookIn { tBook with handover := some 4 } w) 0 0x3011 w) ∧
    (let s : State := { tLedger with books := [(0, { tBook with hold := some 1 })], sched := { tLedger.sched with grain := 1 + 4096 * 5760 } }
     (s.bookAt 0).hold = some 1 ∧ 1 + 4096 * 5760 ≤ s.now) := by
  refine ⟨⟨starts_of (by decide +kernel), by decide +kernel⟩, ?_, by decide +kernel, by decide +kernel, ?_, by decide +kernel,
    ⟨starts_of (by decide +kernel), by decide +kernel, starts_of (by decide +kernel)⟩, by decide +kernel⟩
  · intro b h; fin_cases h <;> exact ⟨starts_of (by decide +kernel), by decide +kernel⟩
  · intro p h; fin_cases h <;> decide +kernel

/-- A descriptor that names a buffer of `len` bytes at 0x1000. -/
def tBuf (op len : Nat) : Work := tW op 1 0 0x30 .routed [(0x10, leBytes 8 0x1000), (0x18, leBytes 4 len)]

theorem witness_Recovery :
    (∀ p ∈ [(0x3012, 368, { tBook with st := .recovering }), (0x3012, 368, { tBook with st := .fencedIntegrity }),
        (0x3020, 32, { tBook with st := .recovering }), (0x3040, 312, { tBook with st := .fencedGap })],
      let w := tBuf p.1 p.2.1
      let s := tBookIn p.2.2 w
      Starts s 0 p.1 w ∧ (w.zeroFrom 0x1C 0x40 && s.rangeOk 0 0x1000 p.2.1 false && s.canRead (masterJournal 0) &&
        s.canRead 44 && (s.hostRead (.work 5 0) (masterJournal 0) 0 .statement 0x1000 p.2.1 false).2 &&
        (s.hostRead (.work 5 0) 44 0 .statement 0x1000 p.2.1 false).2 && !s.work.any (fun v => v.replaying 0)) = true) ∧
    (let w := { tBuf 0x3020 128 with phase := .active 1, pos := 32 }
     let s := tBookIn { tBook with st := .recovering, target := 1 } w
     s.workAt 5 = some w ∧ (s.bookAt 0).replayed < (s.bookAt 0).target ∧ w.pos < 128 ∧ s.canRead (masterJournal 0) = true ∧
       (s.hostRead (.work 5 0) (masterJournal 0) 0 .statement (0x1000 + 32) 32 false).2 = true) ∧
    (∀ b ∈ [{ tBook with st := .recovering, target := 1 },
        { tBook with st := .recovering, restored := true, savedHeads := [zeros 32] }],
      let w := tW 0x3021 1 0 0x30 .routed []
      let s := tBookIn b w
      Starts s 0 0x3021 w ∧ w.zeroFrom 0x10 0x40 = true ∧ s.work.any (fun v => v.replaying 0) = false ∧ b.wb = none ∧
        (b.replayed < b.target ∨ b.restored = true ∧ b.target ≤ b.replayed ∧ b.heads = b.savedHeads ∧ b.moved = false)) := by
  refine ⟨?_, by decide +kernel, ?_⟩
  · intro p h; fin_cases h <;> exact ⟨starts_of (by decide +kernel), by decide +kernel⟩
  · intro b h; fin_cases h <;> exact ⟨starts_of (by decide +kernel), by decide +kernel⟩

/-- Descriptors of 128 bytes that end with the MAC of `tSession` over the bytes before it. -/
def tHandover : Work :=
  { tW 0x3030 2 0 0x60 .routed [] with desc := [0, 0, 0, 0, 0, 0, 0, 0, 0, 0, 0, 0, 0, 0, 0, 0, 0, 16, 0, 0, 0, 0, 0, 0, 0, 4, 0, 0, 0, 0, 0, 0, 0, 0, 0, 0, 0, 0, 0, 0, 0, 0, 0, 0, 0, 0, 0, 0,
   0, 0, 0, 0, 0, 0, 0, 0, 0, 0, 0, 0, 0, 0, 0, 0, 0, 0, 0, 0, 0, 0, 0, 0, 0, 0, 0, 0, 0, 0, 0, 0,
   0, 0, 0, 0, 0, 0, 0, 0, 0, 0, 0, 0, 0, 0, 0, 0, 0, 0, 0, 0, 0, 0, 0, 0, 0, 0, 0, 0, 0, 0, 0, 0,
   131, 14, 104, 20, 216, 100, 5, 41, 141, 155, 151, 54, 213, 75, 226, 228] }
def tAdopt : Work :=
  { tW 0x3031 2 0 0x60 .routed [] with desc := [0, 0, 0, 0, 0, 0, 0, 0, 0, 0, 0, 0, 0, 0, 0, 0, 0, 16, 0, 0, 0, 0, 0, 0, 160, 1, 0, 0, 0, 0, 0, 0, 0, 0, 0, 0, 0, 0, 0, 0, 0, 0, 0, 0, 0, 0, 0, 0,
   0, 0, 0, 0, 0, 0, 0, 0, 0, 0, 0, 0, 0, 0, 0, 0, 0, 0, 0, 0, 0, 0, 0, 0, 0, 0, 0, 0, 0, 0, 0, 0,
   0, 0, 0, 0, 0, 0, 0, 0, 0, 0, 0, 0, 0, 0, 0, 0, 0, 0, 0, 0, 0, 0, 0, 0, 0, 0, 0, 0, 0, 0, 0, 0,
   91, 103, 27, 49, 189, 96, 44, 125, 70, 73, 114, 65, 68, 237, 122, 9] }
def tRights (b : Book) (w : Work) : State :=
  { tBookIn b w with keys := { tRun.keys with sessions := [(0, { tSession with attr := 0xFFFFFFFF })] } }

set_option maxRecDepth 100000 in
theorem witness_MovingBooks :
    (let w := tBuf 0x3032 32
     Starts (tOn tRun w) 0 0x3032 w ∧ (tOn tRun w).prepareFail w = none) ∧
    (let w := tHandover
     let s := tRights tBook w
     Starts s 0 0x3030 w ∧ (!s.sessionBusy 0 && (s.handoverFail w).2.isNone) = true) ∧
    (let w := tAdopt
     let s := tRights { Book.reset with nonce := some (zeros 32) } w
     Starts s 0 0x3031 w ∧ (!s.sessionBusy 0 && s.canRead (masterJournal 0) && (s.adoptFail w).2.isNone &&
       ((s.adoptFail w).1.hostRead (.work 5 0) (masterJournal 0) 0 .statement 0x1000 416 false).2) = true) := by
  refine ⟨⟨starts_of (by decide +kernel), by decide +kernel⟩, ⟨starts_of (by decide +kernel), by decide +kernel⟩,
    starts_of (by decide +kernel), by decide +kernel⟩

/-- A read under way. -/
def tRead (kind : ReadKind) (len : Nat) : Read :=
  { id := 3, kind := kind, slice := 0, master := masterSaltern 0, addr := 0, len := len, epoch := 0, retry := false, failedAt := none, preUnfence := false, discard := false,
    tags := 1, wait := [] }
/-- A load of block 0 of a book without nodes. -/
def tLoad : Load := { book := 0, block := 0, levels := [0], trusted := 1, failedAt := none, retried := false, redone := false }
def tLoading (b : Book) (l : Load) : State :=
  { tRun with books := [(0, b)], pan := { Pan.reset with loads := [l] } }
def tVer : Book := { tBook with rootVer := [1, 0, 0, 0, 0, 0, 0, 0] }

set_option maxRecDepth 100000 in
theorem witness_PanAndSaltern :
    (let s := tLoading { tVer with rootMac := [tVer.objMac 0 0 1 (zeros 256)] } tLoad
     s.loadAt 0 0 = some tLoad ∧ s.pwr.flush = none ∧ s.pan.nodes.length ≤ s.nodeRoom ∧
       s.parentEntry 0 0 0 = some (1, (s.bookAt 0).objMac 0 0 1 (zeros 256)) ∧ s.blockAt 0 0 = none) ∧
    (let s : State := { tLoading { tVer with rootMac := [tVer.objMac 0 0 1 (zeros 256)] } tLoad with reads := [{ tRead (.load 0 0) 256 with tags := 0 }] }
     s.reads.filter (fun r => r.ofLoad 0 0) = s.reads ∧ s.reads.all Read.arrives = true ∧ s.rebuildAt 0 0 = none ∧
       tLoad.retried = false) ∧
    (let s := tLoading { tVer with rootMac := [[]] } tLoad
     s.loadAt 0 0 = some tLoad ∧ s.parentEntry 0 0 0 = some (1, []) ∧ (s.bookAt 0).objMac 0 0 1 (zeros 256) ≠ [] ∧
       s.rebuildAt 0 0 = none ∧ (s.bookAt 0).st = .open_) ∧
    (let l := { tLoad with failedAt := some (60000 - 5760) }
     let s := tLoading tVer l
     s.loadAt 0 0 = some l ∧ s.canRead (masterSaltern 0) = true ∧ (s.loadReads 0 0 true l.levels).2 = true) ∧
    (∀ p ∈ [({ tBlock [tTally] with dirty := true }, (none : Option WbJob)), ({ tBlock [tTally] with dirty := true }, some (tJob 1)),
        ({ tBlock [tTally] with dirty := true, wbRefused := some (60000 - 5760) }, none)].map (fun p => (p.1, { tVer with wb := p.2 })),
      let b := p.2
      let p := p.1
      let s : State := { tLedger with books := [(0, b)], pan := { Pan.reset with blocks := [p] } }
      s.blockAt 0 0 = some p ∧ (s.bookAt 0).mayWriteBack p.cut = true ∧ s.mayStep .mover background = true ∧ s.parentEntry 0 0 0 = some (1, zeros 8) ∧
        s.canMaster (masterSaltern 0) = true ∧
        (s.hostWrite (masterSaltern 0) 0 .saltern none 0 ((s.bookAt 0).sealBlock 0 2 p.bytes)).2 = true) ∧
    (∀ refused ∈ [none, some (60000 - 5760)],
     let p := { tBlock [tTally] with dirty := true, wbRefused := refused }
     let s : State := { tLedger with books := [(0, tVer)], pan := { Pan.reset with blocks := [p] }, slices := [(0, { tSlice with live := [] })] }
     s.blockAt 0 0 = some p ∧ (s.bookAt 0).mayWriteBack p.cut = true ∧ s.mayStep .mover background = true ∧ s.parentEntry 0 0 0 = some (1, zeros 8) ∧
       ((s.takeStep .mover).hostWrite (masterSaltern 0) 0 .saltern none 0 (zeros 256)).2 = false) ∧
    (tLedger.takeStep .mover).mayStep .mover background = false := by
  refine ⟨⟨by decide +kernel, by decide +kernel, by decide +kernel, by decide +kernel⟩, by decide +kernel, by decide +kernel,
    by decide +kernel, ?_, ?_, by decide +kernel⟩
  · intro p h; fin_cases h <;> decide +kernel
  · intro p h; fin_cases h <;> decide +kernel

/-- A rebuild of block 0 that has its image, and the one frame it needs: a record of one leg at LSEQ 1. -/
def tRebuild (base : Bool) : Rebuild :=
  { book := 0, block := 0, started := base, haveBase := base, recs := [tTally, Tally.zero, Tally.zero, Tally.zero], pos := 0, expect := 1, rings := [] }
def tPut (n : Nat) (l : List (Nat × Bytes)) : Bytes := l.foldl (fun d f => putBytes d f.1 f.2) (zeros n)
def tFrame : Bytes :=
  tPut 128 [(0, [1, 1]), (8, [1]), (0x1E, [96]), (0x48, [2]), (0x5F, [0x5C]), (0x60, leBytes 16 0xbaf7386fb452eb24c1c3664a74626897)]
def tLost (base : Bool) : State :=
  { tLedger with books := [(0, { tVer with lseq := 1, jSize := 16 })], reads := [tRead (.rebuild 0 0) 128],
                 pan := { Pan.reset with rebuilds := [tRebuild base],
                                         blocks := [{ tBlock [tTally] with dirty := true, lost := true, wbVer := 1 }] } }

theorem witness_FaultsAndRebuilds :
    ((tLedger.codedWord (.other 12)).isSome = true ∧ (tLedger.codedWord (.pan 0 0 0)).isSome = true) ∧
    (examined 0 [(0, 1), (1, 1)] = .uncorrectable ∧ examined 0 [] ≠ .uncorrectable ∧ examined 0 [(3, 7)] ≠ .uncorrectable) ∧
    (∃ p, tLedger.blockAt 0 0 = some p ∧ p.lost = false) ∧
    (let s := tLost false
     ∃ p r, s.blockAt 0 0 = some p ∧ s.rebuildAt 0 0 = some r ∧ r.haveBase = false ∧ r.started = false ∧ p.wbVer ≠ 0 ∧
       s.canRead (masterSaltern 0) = true ∧
       ((s.modRebuild 0 0 (fun r => { r with started := true })).startLoad 0 0 0).2 = true) ∧
    (let s := tLost true
     ∃ p r x q, s.blockAt 0 0 = some p ∧ s.rebuildAt 0 0 = some r ∧
      s.reads.find? (fun y => y.kind == .rebuild 0 0) = some x ∧ x.arrives = true ∧ tFrame.length = x.len ∧ s.pwr.flush = none ∧
      fieldAt tFrame 0 1 ≠ 0xFF ∧ (s.bookAt 0).frameFail 0 tFrame = none ∧ recLseq tFrame = r.expect ∧
      fieldAt tFrame (frameAt tFrame - 16) 8 = r.pos / (s.bookAt 0).region ∧ r.apply (recordOf tFrame) = some q ∧
      q.recs ≠ [] ∧ (s.bookAt 0).lseq = r.expect) ∧
    tRun.regWritable 0x020030 = true ∧ tRun.hregs.ringKind = false ∧
    (let s : State := { tRun with sq := [(0, { tSq with fenced := true })], reads := [tRead (.fetch 0) 64] }
     (s.sqAt 0).fenced = true ∧ (s.fetchReads 0).length = 1) := by
  refine ⟨by decide +kernel, by decide +kernel, ⟨_, rfl, rfl⟩, ⟨_, _, rfl, rfl, rfl, rfl, by decide, by decide +kernel, by decide +kernel⟩,
    ⟨_, tRebuild true, _, { tRebuild true with recs := [{ tTally with value := 0x10C, version := 2 }, Tally.zero, Tally.zero, Tally.zero] },
      rfl, rfl, rfl, by decide +kernel, by decide +kernel, rfl, by decide +kernel, by decide +kernel, by decide +kernel, by decide +kernel,
      by decide +kernel, by decide +kernel, rfl⟩, by decide +kernel, by decide +kernel, by decide +kernel⟩

/-! Tamper. -/

def tTamper (x : Tamper) : State := { tRun with tamper := x }

theorem witness_SevereTrips :
    (∀ level ∈ [3, 4], Responds tRun level) ∧ tRun.mayStep .tamper background = true ∧ Responds (tTamper { tRun.tamper with afterRelock := some (3, 1700) }) 3 ∧
    (let s := tTamper { tRun.tamper with arm := true, loopEn := true }
     Responds s 4 ∧ s.pwr.mainOk = true ∧ s.tamper.arm = true ∧ s.tamper.loopEn = true ∧ s.tamper.latch = false) := by
  refine ⟨fun l h => ?_, by decide +kernel, ⟨by decide +kernel, rfl, rfl, by decide +kernel⟩,
    ⟨by decide +kernel, rfl, rfl, by decide +kernel⟩, by decide +kernel⟩
  fin_cases h <;> exact ⟨by decide +kernel, rfl, rfl, by decide +kernel⟩

theorem witness_LowTripsAndBattery :
    (tRun.sensing = true ∧ tRun.pwr.flush = none ∧ tRun.window2.length < 15 ∧ tRun.tamper.afterRelock = none) ∧
    (tRun.mayStep .tamper background = true ∧ (tRun.takeStep .tamper).mayStep .tamper background = false ∧
      (tRun.takeStep .tamper).sensing = true) ∧
    (let s := tTamper { tRun.tamper with window := List.replicate 15 tRun.now }
     Responds s 3 ∧ 15 ≤ s.window2.length) ∧
    (let s := tTamper { tRun.tamper with clockStopped := true, afterRelock := some (2, 0) }
     s.sensing = true ∧ s.pwr.flush = none ∧ s.window2.length < 15 ∧ s.tamper.afterRelock = some (2, 0)) ∧
    (let s := tTamper { tRun.tamper with arm := true }
     s.pwr.mainOk = true ∧ s.tamper.arm = true ∧ s.tamper.vbatLow = false ∧ s.tamper.state ≠ .spent) ∧
    (let s := { tTamper { tRun.tamper with arm := true } with pwr := { tRun.pwr with mainOk := false } }
     s.tamper.arm = true ∧ s.tamper.state ≠ .spent ∧ s.pwr.mainOk = false) ∧
    (let s := tTamper { tRun.tamper with state := .issued }
     s.regWritable 0x070020 = true ∧ s.tamper.state = .issued) := by
  refine ⟨by decide +kernel, by decide +kernel, ⟨⟨by decide +kernel, rfl, rfl, by decide +kernel⟩, by decide +kernel⟩,
    by decide +kernel, by decide +kernel, by decide +kernel, by decide +kernel⟩

/-- A generator that releases, from one passing source. -/
def tReleasing : Rng :=
  { Rng.reset with started := some 0, startup := true, kat := true, inst := true, seededAt := 60000,
                   sources := [(0, { Source.reset with passing := true, startOk := true })] }
/-- In BITTERN or ISSUED, with a change to ISSUED under way. -/
def tamperIn (st : LcState) : State :=
  tTamper { Tamper.reset with state := st, transition := some { target := .issued, work := some 5, rewritten := false } }

theorem witness_LifeCycleCommands :
    (let s : State := { tamperIn .issued with work := [tW 0xA002 1 0 0x30 (.active 1) []],
                                              keys := { tRun.keys with erasing := true } }
     s.keys.erasing = true ∧ s.tamper.transition = some { target := .issued, work := some 5, rewritten := false } ∧
       (s.workAt 5).isSome = true) ∧
    (let w := tW 0xA000 1 0 0x30 .routed [(0x30, leBytes 8 0x1000), (0x38, leBytes 4 96), (0x3C, [1])]
     let s := tOn tRun w
     Starts s 0 0xA000 w ∧ s.challengeFail w = none) ∧
    (let s := tTamper { tRun.tamper with challenges := [(3, zeros 96)] }
     let s : State := { s with sched := { s.sched with grain := 131072 * 5760 } }
     s.tamper.challenges.find? (fun e => e.1 == 3) = some (3, zeros 96) ∧ fieldAt (zeros 96) 0x28 8 + 131072 * 5760 ≤ s.now) ∧
    (let w := tW 0xA001 1 0 0x30 .routed
       [(0x10, leBytes 8 0x1000), (0x18, leBytes 4 400), (0x1C, leBytes 4 312), (0x20, leBytes 8 0x2000)]
     let s := tOn (tTamper Tamper.reset) w
     Starts s 0 0xA001 w ∧ stageForm w = true ∧ s.tamper.state = .issued ∧ s.canRead 44 = true ∧
       s.rangeOk 0 0x1000 400 false = true ∧ s.rangeOk 0 0x2000 312 false = true ∧
       (s.hostRead (.work 5 0) 44 0 .statement 0x1000 400 false).2 = true) ∧
    (let w := tW 0xA002 1 0 0x30 .routed [(0x10, [4])]
     let s := tOn (tTamper Tamper.reset) w
     Starts s 0 0xA002 w ∧ s.lcForm w = true ∧ lcOfCode (w.field 0x10 1) = some .spent ∧
       lcAllowed .issued .spent = true ∧ s.tamper.transition = none ∧ s.keys.erasing = false ∧ s.confirmOk w = true ∧
       s.holdHealthy = true) ∧
    (let w := tW 0xA002 1 0 0x30 .routed [(0x10, [3]), (0x18, leBytes 8 0x2000), (0x20, leBytes 4 312)]
     let s := tOn (tTamper { Tamper.reset with state := .sealed_ }) w
     Starts s 0 0xA002 w ∧ s.lcForm w = true ∧ lcOfCode (w.field 0x10 1) = some .bittern ∧
       s.tamper.state = .sealed_ ∧ s.rangeOk 0 0x2000 312 false = true ∧ s.canRead 44 = true ∧
       (s.hostRead (.work 5 0) 44 0 .statement 0x2000 312 false).2 = true) ∧
    (let s : State := { tTamper { Tamper.reset with state := .bittern, summaryDue := true } with rng := tReleasing }
     s.summaryReady = true) ∧
    (let w := tW 0xA010 1 0 0x30 .routed [(0x10, leBytes 8 0x1000), (0x18, leBytes 4 256)]
     let s := tOn (tTamper { Tamper.reset with state := .bittern, summary := some (zeros 256) }) w
     Starts s 0 0xA010 w ∧ s.statementFail w = none ∧ w.field 0x1C 1 = 0 ∧ s.tamper.summary = some (zeros 256) ∧
       s.canMaster 44 = true ∧ (s.hostWrite 44 0 .statement (some 5) 0x1000 (zeros 256)).2 = true) := by
  refine ⟨by decide +kernel, ⟨starts_of (by decide +kernel), by decide +kernel⟩, by decide +kernel,
    ⟨starts_of (by decide +kernel), by decide +kernel⟩, ⟨starts_of (by decide +kernel), by decide +kernel⟩,
    ⟨starts_of (by decide +kernel), by decide +kernel⟩, by decide +kernel,
    ⟨starts_of (by decide +kernel), by decide +kernel⟩⟩

/-! Power and start-up. -/

def tFlush (step : FlushStep) : State :=
  { tRun with pwr := { tRun.pwr with flush := some { since := 0, step := step, cut := false } } }

theorem witness_PowerFailures :
    (tRun.marked = true ∧ tRun.pwr.flush = none ∧ tRun.work = []) ∧
    (let s : State := { State.reset with pwr := { Power.reset with starting := true } }
     s.pwr.starting = true ∧ s.marked = false ∧ s.pwr.flush = none) ∧
    (∀ c ∈ [DrainCause.allIssued, .linkLost, .perst, .hold 7999],
      (tFlush .drain).cutoffHolds { since := 0, step := .drain, cut := false } c = true) ∧
    (tFlush .save).pwr.flush = some { since := 0, step := .save, cut := false } := by
  refine ⟨by decide +kernel, by decide +kernel, ?_, rfl⟩
  intro c h; fin_cases h <;> decide +kernel

theorem witness_WriteThrough :
    (tRun.pwr.starting = true ∧ tRun.nv.wt = false ∧ tRun.nv.running = true ∧ tRun.pwr.flush = none) ∧
    (let s : State := { tRun with nv := { tRun.nv with wt := true, wtMark := true } }
     s.pwr.starting = true ∧ s.nv.wt = true ∧ s.pwr.flush = none) ∧
    (let s : State := { tRun with sched := { tRun.sched with grain := 4096 * 5760 } }
     s.sched.running = true ∧ s.nv.grainRec + 4096 * 5760 ≤ s.now) := by decide +kernel

theorem bytesAt_append {a b : Bytes} {n : Nat} (h : a.length = n) : bytesAt (a ++ b) 0 n = a ∧ bytesAt (a ++ b) n b.length = b := by
  subst h
  simp [bytesAt, fit, zeros]

/-- A certificate that carries the public key of a root. -/
def tCert (root : Bytes) : Bytes :=
  [0x06, 0x05, 0x2B, 0x81, 0x04, 0x00, 0x22, 0x03, 0x62, 0x00, 0x04] ++
    (((identityOf root).take 48).reverse ++ ((identityOf root).drop 48).reverse)
def tColdX (k : KeyStore) : State := { State.reset with keys := k }

/-- Whatever the code of R375 is: from a reading that decodes, with the certificate of its root, the device starts. -/
theorem witness_StartUp_root (h array root : Bytes) (hr : rootFrom h array = some root) (ha : array.length = 4096) :
    let s := tColdX { KeyStore.reset with helper := some h, cert := tCert root }
    s.pwr.starting = false ∧ s.pwr.flush = none ∧ s.tamper.state ≠ .spent ∧ s.tamper.state ≠ .blank ∧
      (s.keys.reconstruct array).haltCode = 0 := by
  obtain ⟨a, b, e, la, lb⟩ : ∃ a b, identityOf root = a ++ b ∧ a.length = 48 ∧ b.length = 48 := by
    unfold identityOf
    generalize p384.mul (identityScalar root) p384.g = p
    match p with
    | none => exact ⟨zeros 48, zeros 48, rfl, rfl, rfl⟩
    | some (x, y) => exact ⟨leBytes 48 x, leBytes 48 y, rfl, rfl, rfl⟩
  have hc : tCert root = [0x06, 0x05, 0x2B, 0x81, 0x04, 0x00, 0x22, 0x03, 0x62, 0x00, 0x04] ++ (a.reverse ++ b.reverse) := by
    rw [tCert, e, ← la, List.take_left, List.drop_left]
  have hk : subjectKey (tCert root) = some (identityOf root) := by
    have h2 := bytesAt_append (a := a.reverse) (b := b.reverse) (n := 48) (by simpa using la)
    rw [List.length_reverse, lb] at h2
    rw [hc, e]
    simp [subjectKey, after, h2]
  have hx : rootReading array 0 = array := by
    rw [rootReading, if_pos (by omega)]
    simp [bytesAt, fit, zeros, ha, List.take_of_length_le]
  have hy : attemptRoot h (tCert root) array = some root := by simp [attemptRoot, hr, hk]
  refine ⟨rfl, rfl, nofun, nofun, ?_⟩
  simp [tColdX, KeyStore.reconstruct, KeyStore.fromArray, KeyStore.rootOff, List.range_succ, hx, hy, KeyStore.withRoot, KeyStore.reset]

theorem witness_StartUp :
    (let s := tColdX { KeyStore.reset with helper := none }
     s.pwr.starting = false ∧ s.pwr.flush = none ∧ s.tamper.state ≠ .spent ∧ s.tamper.state ≠ .blank ∧
       (s.keys.reconstruct []).haltCode ≠ 0 ∧ s.tamper.held = [] ∧ s.work = []) ∧
    (tTamper { Tamper.reset with state := .spent }).tamper.state = .spent ∧
    (tRun.pwr.starting = true ∧ tRun.pwr.flush = none ∧
      (let s : State := { tRun with link := { tRun.link with training := true } }
       s.link.training = true)) ∧
    (tRun.sweepDue = true ∧ tRun.sweepItems = []) ∧
    (tLedger.sweepDue = true ∧ tLedger.sweepItems ≠ [] ∧ tLedger.gotRandom .sweep = none) ∧
    (let s := tGot tLedger .sweep tLedger.sweepNeed
     s.sweepDue = true ∧ s.sweepItems ≠ [] ∧ s.gotRandom .sweep ≠ none) ∧
    (let s : State := { tRun with rng := { Rng.reset with started := some 0 }, sched := { tRun.sched with grain := 16 * 5760 } }
     s.sweepDue = true ∧ s.sweepLate = true) ∧
    (let s : State := { tRun with pwr := { tRun.pwr with step := 8 }, keys := { tRun.keys with swept := true } }
     s.pwr.step = 8 ∧ s.pwr.flush = none ∧ s.halted = false ∧ s.keys.swept = true) := by decide +kernel

theorem witness_RegisterAccess :
    (tRun.link.up = true ∧ tRun.pwr.flush = none ∧ 8 ≤ tRun.pwr.step ∧ tRun.link.resetting = false) ∧
    (tRun.barUp = true ∧ tRun.halted = false ∧ tRun.tamper.state ≠ .spent ∧ tRun.linkOpen = true) ∧
    (let s : State := { tRun with pwr := { tRun.pwr with step := 7 } }
     s.link.up = true ∧ s.pwr.flush = none ∧ s.pwr.step < 8) ∧
    bar0Good 2 4 = false ∧ (tRun.link.msixEn = true ∧ tRun.link.funcMask = false) ∧
    (let s := tRun.setVector 3 { Vector.reset with pending := true }
     (s.vectorAt 3).pending = true ∧ (s.vectorAt 3).write 3 0 = { Vector.reset with pending := true, masked := false }) := by
  decide +kernel

/-! Applets and service calls. -/

/-- A descriptor whose last 16 of `n` bytes are `mac`. -/
def tMacd (w : Work) (n mac : Nat) : Work := { w with desc := putBytes w.desc (n - 16) (leBytes 16 mac) }
def tAuth : Authority := { Authority.reset with occupied := true, serial := 4 }
def tAllow : Allow := { Allow.reset with occupied := true, serial := 4 }
/-- The running device with an applet authority, a session with every right and the descriptor. -/
def tHost (w : Work) : State :=
  { tOn tRun w with keys := { tRun.keys with sessions := [(0, { tSession with attr := 0xFFFFFFFF })], auth := [(1, tAuth)] },
                    slices := [(0, { tSlice with coreQuota := 1 })], applets := { tRun.applets with allow := [(1, tAllow)] } }

/-- An image of one word and no data, and its digest. -/
def tImage : Bytes :=
  tPut 164 [(0, ascii "KWDR"), (4, [1]), (8, [4])]
def tCoreIn (m : CoreMode) (v : Invocation) : Core := { Core.reset with mode := m, inv := some v }
def tLoadingCore (serial : Nat) : State :=
  { tRun with reads := [tRead (.image 0) 164], keys := { tRun.keys with auth := [(1, tAuth)] },
              applets := { tRun.applets with cores := [(0, tCoreIn .loading { tInv with imageLen := 164 })],
                                             allow := [(0, { tAllow with digest := imageDigest tImage, serial := serial })] } }
/-- ECDSA_VERIFY on P-384 of a zero hash with the key G and the signature (r, r) where r is the x of G, or (0, r). -/
def tVerify (good : Bool) : Bytes :=
  [2] ++ zeros 3 ++ leBytes 48 p384.gx ++ leBytes 48 p384.gy ++ leBytes 48 (if good then p384.gx % p384.n else 0) ++
    leBytes 48 (p384.gx % p384.n) ++ zeros 48
def tBnJob (use : Nat) (good : Bool) : BnJob :=
  { work := 5, use := use, who := 0, no := 0, slice := 0, op := 0x21, key := none, keyType := 0, e := 0, input := tVerify good,
    cost := 3200, done := 3200, admitted := 0, since := 0, retries := 0, rand := true, mask := [] }
def tVerifying (good : Bool) : State :=
  { tRun with work := [tW 0x7000 2 0 0x60 (.active 2) []], crypto := { tRun.crypto with bn := [(0, { BnEngine.reset with running := some (tBnJob 3 good) })] },
              applets := { tRun.applets with cores := [(0, tCoreIn .verifying { tInv with work := 5 })] } }

theorem witness_Invocations_allow :
    (let w := tMacd (tW 0x7010 2 0 0x60 .routed [(0x10, leBytes 8 0x1000), (0x18, leBytes 4 164)]) 0x80 0xfc3a8479d83c3fdae212eec8f4d509e2
     let s := tHost w
     Starts s 0 0x7010 w ∧ s.sessionBusy 0 = false ∧ s.sessionFail 0 0 = none ∧ w.macOk (s.sessionAt 0).key 0x80 = true ∧
       w.zeroFrom 0x20 0x70 = true ∧ imageLenOk 164 = true ∧ (s.chargeSession 0).allowRight w 0 0 = true ∧
       s.appletAuthorityOk = true ∧ s.appletAuthority.occupied = true ∧ (s.allowEntry 0).occupied = false ∧
       s.rangeOk 0 0x1000 164 false = true ∧ s.canRead masterMgmt = true ∧
       (((s.chargeSession 0).readAllow 0 0).hostRead (.work 5 0) masterMgmt 0 .image 0x1000 164 false).2 = true) ∧
    (let w := tMacd (tW 0x7011 1 0 0x30 .routed [(0x10, leBytes 2 1)]) 0x40 0x90a3af384b646fd53dbe527ccee60379
     let s := tHost w
     Starts s 0 0x7011 w ∧ s.sessionBusy 0 = false ∧ s.sessionFail 0 0 = none ∧ w.macOk (s.sessionAt 0).key 0x40 = true ∧
       w.zeroFrom 0x12 0x30 = true ∧ (s.chargeSession 0).allowRight w 0 1 = true ∧ (s.allowEntry 1).occupied = true) ∧
    (let w := tW 0x7012 1 0 0x30 .routed [(0x10, leBytes 8 0x1000), (0x18, leBytes 4 96), (0x1C, leBytes 2 1)]
     let s := tHost w
     Starts s 0 0x7012 w ∧ w.zeroFrom 0x1E 0x40 = true ∧ s.rangeOk 0 0x1000 96 true = true ∧ (s.allowEntry 1).slice = 0 ∧
       s.canMaster masterMgmt = true ∧
       ((s.readAllow 1 0).hostWrite masterMgmt 0 .statement (some 5) 0x1000 (s.allowEntry 1).bytes).2 = true) := by
  refine ⟨⟨starts_of (by decide +kernel), by decide +kernel⟩, ⟨starts_of (by decide +kernel), by decide +kernel⟩,
    ⟨starts_of (by decide +kernel), by decide +kernel⟩⟩

def tInvoke (ph : Phase) : Work :=
  { tMacd (tW 0x7000 2 0 0x60 .routed [(0x10, leBytes 8 0x1000), (0x18, leBytes 4 164), (0x1C, leBytes 2 1),
      (0x1E, leBytes 2 1)]) 0x80 0x6861bf8de1a82192ebc66d92aca051f9 with phase := ph }

theorem witness_Invocations :
    (let w := tInvoke .routed
     let s := tHost w
     Starts s 0 0x7000 w ∧ s.sessionBusy 0 = false ∧ s.sessionFail 0 0 = none ∧ w.macOk (s.sessionAt 0).key 0x80 = true ∧
       w.invokeForm = true ∧ attrAllows (s.sessionAt 0).attr attrInvoke 2 (s.sessionAt 0).slice 0 = true ∧
       (s.sliceAt 0).coreQuota ≠ 0 ∧ s.rangeOk 0 0x1000 164 false = true ∧ s.rangeOk 0 0 0 false = true ∧
       s.rangeOk 0 0 0 true = true) ∧
    (let w := tInvoke (.active 1)
     let s := tHost w
     s.nextInvoke = some w ∧ s.workAt 5 = some w ∧ s.idleCore = some 0 ∧ s.entryFail w = none ∧
       s.canRead 0 = true ∧ w.field 0x28 4 = 0 ∧
       ((((s.coreMpu 0 w).setCore 0 { Core.reset with mode := .loading, inv := some (invocationOf w) }).modWork 5
         (fun v => { v with phase := .active 2, admitted := some s.now })).hostRead (.image 0) 0 0 .image 0x1000 164 false).2 = true) ∧
    (∀ serial ∈ [4, 5], let s := tLoadingCore serial
     (s.coreAt 0).mode = .loading ∧ (s.coreAt 0).inv = some { tInv with imageLen := 164 } ∧ tImage.length = 164 ∧
       s.reads.any (fun r => r.kind == .image 0 && !r.discard) = true ∧
       s.reads.all (fun r => r.kind != .image 0 || r.discard || r.arrives) = true ∧ imageForm tImage = true ∧
       imageDigest tImage = (s.allowEntry 0).digest ∧ (s.allowEntry 0).serial = serial ∧ s.appletAuthority.serial = 4) ∧
    (∀ good, let s := tVerifying good
     (s.coreAt 0).inv = some { tInv with work := 5 } ∧ s.bnEngineOf (fun y => y.use == 3 && y.who == 0) = some (0, tBnJob 3 good) ∧
       ((s.bnRetire 0).bnOutcome (tBnJob 3 good)).1 = .verdict good) ∧
    (let s : State := { tRun with work := [tW 0x7000 2 0 0x60 (.active 2) []],
                                  applets := { tRun.applets with cores := [(0, tCoreIn .running { tInv with work := 5, charged := 10 })] } }
     (s.coreAt 0).spentBudget = true ∧ (s.coreAt 0).squash = false ∧ s.sliceGone { tInv with work := 5, charged := 10 } = false ∧
       (s.workAt 5).isSome = true) := by
  refine ⟨⟨starts_of (by decide +kernel), by decide +kernel⟩, by decide +kernel, ?_, ?_, by decide +kernel⟩
  · intro n h
    have e : ∀ k, ((tLoadingCore k).allowEntry 0).digest = imageDigest tImage := fun _ => rfl
    simp only [e]
    fin_cases h <;> decide +kernel
  · intro good; cases good <;> exact ⟨by decide +kernel, by decide +kernel, by decide +kernel⟩

/-- Core 0 of a tally device waits in call `n` with the argument block `arg` and the mailbox bytes `mail`. -/
def tCallCore (n : Nat) (arg mail : Bytes) : Core :=
  { Core.reset with mode := .waiting, inv := some { tInv with outCap := 64 }, call := BitVec.ofNat 32 n, arg := memWrite [] 0 arg, mail := memWrite [] 0 mail }
def tCall (n : Nat) (arg mail : Bytes) : State :=
  { tLedger with applets := { tRun.applets with cores := [(0, tCallCore n arg mail)] }, work := [tW 0x7000 2 0 0x60 (.active 2) []] ,
                 keys := { tRun.keys with sessions := [(0, { tSession with attr := 0xFFFFFFFF })] },
                 nv := { tRun.nv with parts := [(0, UserPart.tag), (1, { UserPart.tag with slice := 0 })] } }

theorem calls_of {s : State} {n : Nat} {v : Invocation}
    (h : ((s.coreAt 0).inv == some v && (s.coreAt 0).calls && !(s.coreAt 0).spentBudget && ((s.coreAt 0).call.toNat == n) && v.svcMask.testBit n) = true) :
    Calls s 0 n v := by
  simp only [Bool.and_eq_true, beq_iff_eq, Bool.not_eq_true'] at h
  exact ⟨h.1.1.1.1, h.1.1.1.2, h.1.1.2, h.1.2, h.2⟩

def tCaller : Invocation := { tInv with outCap := 64 }

theorem witness_ServiceAnswers :
    (∀ n ∈ [0, 11], let c := (tCall n [] []).coreAt 0
     c.inv = some tCaller ∧ c.calls = true ∧ (c.call.toNat = 0 ∨ 10 < c.call.toNat)) ∧
    (let s := tCall 3 ([6, 0, 0, 0] ++ leBytes 4 0x20000 ++ leBytes 4 3 ++ leBytes 4 0x10000) [1, 2, 3]
     let c := s.coreAt 0
     Calls s 0 3 tCaller ∧ c.argClean [(0, 1), (4, 12)] = true ∧ c.argAt 0 1 = 6 ∧ localOk 0x20000 3 1 = true ∧
       localOk 0x10000 (shaSize 6) 1 = true) ∧
    (∀ len ∈ [0, 4096], let s := tCall 7 (leBytes 4 0x20000 ++ leBytes 4 len) []
     let c := s.coreAt 0
     Calls s 0 7 tCaller ∧ c.argClean [(0, 8)] = true ∧ c.argAt 4 4 = len ∧ localOk (c.argAt 0 4) len 1 = true) ∧
    (∀ p ∈ [(0, 0, 64), (0, 0, 65), (1, 0, 65)], let s := tCall 4 ([BitVec.ofNat 8 p.1, 0, 16, 0] ++ leBytes 4 0 ++ leBytes 4 0x10000 ++ leBytes 4 p.2.2 ++ leBytes 4 0x20000) []
     let c := s.coreAt 0
     Calls s 0 4 tCaller ∧ c.argClean [(0, 3), (4, 16)] = true ∧ macTlenOk 0 16 = true ∧ localOk (c.argAt 8 4) (c.argAt 0x0C 4) 1 = true ∧
       localOk (c.argAt 0x10 4) 16 1 = true ∧ keySrcOf (c.argAt 4 4) 0 (some 0) = some (.session 0) ∧
       (KeySrc.session 0).ofApplet = true ∧ s.sessionBusy 0 = false ∧
       s.keyFail (.session 0) 0 = none ∧ s.keyServes (.session 0) attrMac (if svcMacPrime c then 0 else 2) (macTypes 0) 0 = true ∧
       svcMacPrime c = decide (p.2.2 ≤ 64) ∧ c.argAt 0 1 = p.1) ∧
    (let s := tCall 4 ([0, 0, 16, 0] ++ leBytes 4 0x20000000 ++ leBytes 4 0x10000 ++ leBytes 4 64 ++ leBytes 4 0x20000) []
     let c := s.coreAt 0
     Calls s 0 4 tCaller ∧ c.argClean [(0, 3), (4, 16)] = true ∧ macTlenOk 0 16 = true ∧ localOk (c.argAt 8 4) (c.argAt 0x0C 4) 1 = true ∧
       localOk (c.argAt 0x10 4) 16 1 = true ∧ keySrcOf (c.argAt 4 4) 0 (some 0) = some (.slot 0 0) ∧ (KeySrc.slot 0 0).ofApplet = false) ∧
    (let s := tCall 5 (leBytes 4 0 ++ leBytes 4 0x10000 ++ leBytes 4 32 ++ leBytes 4 0x00400001) []
     let c := s.coreAt 0
     Calls s 0 5 tCaller ∧ c.argClean [(0, 16)] = true ∧ c.argAt 8 4 = 32 ∧ BitVec.ofNat 32 (c.argAt 0x0C 4) &&& attrReserved = 0 ∧
       localOk 0x10000 32 1 = true ∧ keySrcOf (c.argAt 0 4) 0 (some 0) = some (.session 0) ∧ s.sessionBusy 0 = false ∧
       s.keyFail (.session 0) 0 = none ∧ c.freeHandle = some 0 ∧
       (let x := (s.chargeKey (.session 0)).keyView (.session 0) 0
        let req := BitVec.ofNat 32 (c.argAt 0x0C 4)
        x.type = 0x03 ∧ attrAllows x.attr attrDerive 2 x.slice 0 = true ∧ x.level < 7 ∧ req.getLsbD attrUnlimited = true ∧
          deriveOk x.attr req x.uses 0 = true)) := by
  refine ⟨?_, ⟨calls_of (by decide +kernel), by decide +kernel⟩, ?_, ?_, ⟨calls_of (by decide +kernel), by decide +kernel⟩,
    calls_of (by decide +kernel), by decide +kernel⟩
  · intro n h; fin_cases h <;> decide +kernel
  · intro n h; fin_cases h <;> exact ⟨calls_of (by decide +kernel), by decide +kernel⟩
  · intro p h; fin_cases h <;> exact ⟨calls_of (by decide +kernel), by decide +kernel⟩

/-- MODMUL modulo 3 of 2 and 2, or modulo 4. -/
def tModMul (m : Nat) : Bytes := leBytes 4 1 ++ leBytes 4 0 ++ leBytes 1 m ++ [2, 2]

theorem witness_ServiceOperations :
    (let s := tCall 1 (leBytes 8 0 ++ [3]) []
     Calls s 0 1 tCaller ∧ (s.coreAt 0).argClean [(0, 8), (8, 1)] = true ∧ (s.coreAt 0).argAt 8 1 = 3) ∧
    (let s := tCall 2 (leBytes 4 0x10000 ++ leBytes 2 0x11 ++ [1, 0] ++ leBytes 4 0x20000) []
     let c := s.coreAt 0
     Calls s 0 2 tCaller ∧ c.argClean [(0, 7), (8, 8)] = true ∧ c.argAt 4 2 = 0x11 ∧ c.argAt 6 1 = 1 ∧
       localOk (c.argAt 0 4) (postPayload c) 16 = true ∧ localOk (c.argAt 8 4) 128 16 = true ∧ s.workAt s.nextId = none ∧
       s.postEarly (s.svcPostWork 0 c tCaller) = none) ∧
    (∀ good : Bool, let b := tModMul (if good then 3 else 4)
     let s := tCall 6 (leBytes 2 2 ++ zeros 2 ++ leBytes 4 0 ++ leBytes 4 0x20000 ++ leBytes 4 11 ++ leBytes 4 0x10000 ++ leBytes 4 1) b
     let c := s.coreAt 0
     Calls s 0 6 tCaller ∧ c.argClean [(0, 2), (4, 20)] = true ∧ bnOpOk 2 = true ∧ bnTypes 2 = none ∧
       c.argAt 4 4 = 0 ∧ bnLensOk (c.argAt 0 2) 0 (c.argAt 0x0C 4) (c.argAt 0x14 4) = true ∧ localOk (c.argAt 8 4) (c.argAt 0x0C 4) 1 = true ∧
       localOk (c.argAt 0x10 4) (c.argAt 0x14 4) 1 = true ∧ c.bytes (c.argAt 8 4) (c.argAt 0x0C 4) = b ∧ bnInOk 2 b = true ∧
       bnOutLen 2 0 b ≤ c.argAt 0x14 4 ∧ bnValid 2 0 [] b = good) ∧
    (∀ p ∈ [(8, false), (9, true)],
     let s := tCall p.1 ([1, 0, 0, 0] ++ leBytes 4 1023 ++ leBytes 4 4096 ++ leBytes 4 0x20000) []
     let c := s.coreAt 0
     Calls s 0 p.1 tCaller ∧ nvArgOk c = true ∧ localOk (c.argAt 0x0C 4) (c.argAt 8 4) 1 = true ∧
       (s.svcNvChecks c tCaller p.2).2 = none ∧ s.nv.wt = false ∧ s.nv.wbuf = [] ∧ (s.svcNvChecks c tCaller false).1.mayReadPage 0 = true ∧
       (let t : State := { s with sched := { s.sched with taken := [.nv] } }
        (t.svcNvChecks c tCaller false).1.mayReadPage 0 = false ∧ (t.svcNvChecks c tCaller p.2).2 = none)) ∧
    (∀ n ∈ [0, 64], let s := { tCall 10 (leBytes 4 n) [] with mpus := tRun.mpus.set 0 { tMpu with regions := [(2, tRegion)] } }
     let c := s.coreAt 0
     c.inv = some { tCaller with work := 1 } ∧ c.calls = true ∧ c.call.toNat = 10 ∧ c.argClean [(0, 4)] = true ∧ c.argAt 0 4 = n ∧
       n ≤ tCaller.outCap ∧ s.outputFail 0 0 0 n = none) ∧
    (let s : State := { tCall 3 [] [] with applets := { tRun.applets with cores := [(0, { tCallCore 3 [] [] with answer := some (0, []) })] } }
     let c := s.coreAt 0
     c.answer = some (0, []) ∧ c.mode = .waiting ∧ s.awaitMet c = true) ∧
    (let j : BnJob := { tBnJob 1 true with op := 2, input := tModMul 3 }
     let s : State := { tCall 6 [] [] with crypto := { tRun.crypto with bn := [(0, { BnEngine.reset with running := some j })] } }
     s.bnFinished 0 = some j ∧ (s.coreAt 0).mode = .waiting ∧ (s.coreAt 0).answer = none ∧ ((s.bnRetire 0).bnOutcome j).1 = .out [1]) ∧
    (∀ good, let j := tBnJob 0 good
     let s : State := { tOn tRun (tW 0x4021 1 0 0x30 (.active 1) []) with crypto := { tRun.crypto with bn := [(0, { BnEngine.reset with running := some j })] } }
     s.bnFinished 0 = some j ∧ (s.workAt 5).isSome = true ∧ s.canMaster (s.masterStream 5) = true ∧
       ((s.bnRetire 0).bnOutcome j).1 = .verdict good) ∧
    (∀ n ∈ [0, 1], let j : BnJob := { tBnJob 1 true with op := 2, input := tModMul 3, retries := n }
     let s : State := { tCall 6 [] [] with crypto := { tRun.crypto with bn := [(0, { BnEngine.reset with running := some j })] } }
     s.bnFinished 0 = some j ∧ s.sensing = true ∧ s.pwr.flush = none ∧ s.window2.length < 15 ∧ j.retries = n ∧ j.use = 1 ∧
       (s.coreAt 0).mode = .waiting ∧ (s.coreAt 0).answer = none) := by
  refine ⟨⟨calls_of (by decide +kernel), by decide +kernel⟩, ⟨calls_of (by decide +kernel), by decide +kernel⟩, ?_, ?_, ?_,
    by decide +kernel, by decide +kernel, ?_, ?_⟩
  · intro n; cases n <;> exact ⟨calls_of (by decide +kernel), by decide +kernel⟩
  · intro p h; fin_cases h <;> exact ⟨calls_of (by decide +kernel), by decide +kernel⟩
  · intro n h; fin_cases h <;> decide +kernel
  · intro n; cases n <;> decide +kernel
  · intro n h; fin_cases h <;> decide +kernel

/-! Keys and envelopes. -/

def tKey : Slot :=
  { Slot.reset with type := 3, occupied := true, family := 1, attr := 0x007FFFFF, slice := 0xFFFF, masked := zeros 32, mask := zeros 32, uses := 0 }
def tKeys (w : Work) (k : Slot) (x : Session) : State :=
  { tOn tRun w with keys := { tRun.keys with compact := [(0, k)], sessions := [(0, x)], kSint := zeros 32 } }
def tLoadW : Work := tW 0 1 0 0 .held []
def tFull : Session := { tSession with attr := 0x007FFFFF }

theorem witness_Sessions :
    (let w := tMacd (tW 0x4000 4 0 0xE0 .routed [(0x10, leBytes 4 0x20000000), (0x14, [4, 32, 32, 32, 32]), (0x20, leBytes 4 0x100), (0x24, leBytes 6 9)]) 0x100 0x7ed644ddd5fe5b007590eef67e8b9540
     let s := tKeys w { tKey with level := 3 } Session.reset
     let attr := BitVec.ofNat 32 (w.field 0x20 4)
     Starts s 0 0x4000 w ∧ w.labelsOk = true ∧ w.zeroFrom 0x19 0x20 = true ∧ w.zeroFrom 0x2A 0x30 = true ∧
       w.zeroFrom 0xB0 0xF0 = true ∧ attr &&& attrReserved = 0 ∧ w.field 0x10 4 = 0x20000000 + 0 ∧ s.slotFail 0 0 = none ∧
       (let k := s.slotAt 0 0
        k.type = 0x03 ∧ w.macOk k.material 0x100 = true ∧ attrAllows k.attr attrDerive 2 k.slice 0 = true ∧ k.level + w.field 0x14 1 ≤ 7 ∧
          deriveOk k.attr attr ((s.chargeSlot 0 0).slotAt 0 0).uses (w.field 0x24 6) = true) ∧
       s.sessionRoom 0 = true ∧ s.freeHandle 8192 0 = some 0) ∧
    (let w := tMacd (tW 0x4002 2 0 0x60 .routed [(0x10, [32]), (0x20, leBytes 4 0x100), (0x24, leBytes 6 9)]) 0x80 0x19844f9baca7e6672ee0bfa7abb1e18f
     let s := tKeys w tKey { tFull with level := 6 }
     let x := s.sessionAt 0
     let attr := BitVec.ofNat 32 (w.field 0x20 4)
     Starts s 0 0x4002 w ∧ s.sessionBusy 0 = false ∧ w.zeroFrom 0x11 0x20 = true ∧ w.zeroFrom 0x2A 0x30 = true ∧
       w.zeroFrom 0x50 0x70 = true ∧ attr &&& attrReserved = 0 ∧ w.field 0x10 1 = 32 ∧ s.sessionFail 0 0 = none ∧
       w.macOk x.key 0x80 = true ∧ attrAllows x.attr attrDerive 2 x.slice 0 = true ∧ x.level < 7 ∧
       deriveOk x.attr attr ((s.chargeSession 0).sessionAt 0).uses (w.field 0x24 6) = true ∧ s.sessionRoom 0 = true ∧
       s.freeHandle 8192 0 = some 1) ∧
    (let w := tMacd (tW 0x4001 1 0 0x30 .routed []) 0x40 0x598ad0771eab60fac9a9849a2bb78799
     let s := tKeys w tKey tFull
     Starts s 0 0x4001 w ∧ s.sessionBusy 0 = false ∧ w.zeroFrom 0x10 0x30 = true ∧ s.sessionHeld 0 0 = true ∧
       (s.sessionAt 0).slotBad = false ∧ w.macOk (s.sessionAt 0).key 0x40 = true) ∧
    (∀ bad, let s := tKeys tLoadW { tKey with bad := bad } tFull
     let y := s.sessionAt 0
     y.isOpen = true ∧ y.slotBad = false ∧ s.sessionExpired y = false ∧ (s.slotAt 0 y.parent).bad = bad ∧
       s.gotRandom (.rederive 0) = none ∧ (tGot s (.rederive 0) 32).gotRandom (.rederive 0) = some (zeros 32) ∧
       (tGot s (.rederive 0) 32).mayStep .keyStore background = true ∧
       ((tGot s (.rederive 0) 32).takeStep .keyStore).gotRandom (.rederive 0) = some (zeros 32) ∧
       ((tGot s (.rederive 0) 32).takeStep .keyStore).mayStep .keyStore background = false) := by
  refine ⟨⟨starts_of (by decide +kernel), by decide +kernel⟩, ⟨starts_of (by decide +kernel), by decide +kernel⟩,
    ⟨starts_of (by decide +kernel), by decide +kernel⟩, ?_⟩
  intro b; cases b <;> decide +kernel

/-- A device whose record of a key cannot be read. -/
def tUnread (s : State) (key : Nat) : State :=
  { s with nv := { s.nv with maps := [(key, [7])], pages := [(7, { NvPage.shipped 7 with badCw := [0] })] } }
/-- A large slot of which nothing has been exchanged. -/
def tLarge : State :=
  let s := tKeys tLoadW tKey tFull
  { s with keys := { s.keys with large := [(0, { tKey with masked := zeros 1280, mask := zeros 1280 })] } }

theorem witness_KeyUpkeep :
    (let s := tKeys tLoadW tKey tFull
     (s.slotAt 0 0).occupied = true ∧ (s.slotAt 0 0).bad = false ∧ (s.slotAt 0 0).masked ≠ [] ∧
       s.gotRandom (.remask 0 0) = none) ∧
    (∀ good : Bool, let s := tGot (tKeys tLoadW { tKey with mac := leBytes 8 (if good then 0x75fc46c2d183f7c1 else 0) } tFull) (.remask 0 0) 64
     let k := s.slotAt 0 0
     s.gotRandom (.remask 0 0) = some (zeros 64) ∧ slotBytes 0 ≤ k.swapped + 256 ∧
       (s.setSlot 0 0 { k.exchange (zeros 64) k.swapped with swapped := 0 }).slotIntact 0 0 = good ∧ s.tamper.state ≠ .spent ∧
       s.mayStep .keyStore background = true ∧ (s.takeStep .keyStore).mayStep .keyStore background = false ∧
       (s.takeStep .keyStore).gotRandom (.remask 0 0) = some (zeros 64)) ∧
    (let s := tGot tLarge (.remask 1 0) 1280
     let k := s.slotAt 1 0
     k.occupied = true ∧ k.bad = false ∧ k.masked ≠ [] ∧ s.gotRandom (.remask 1 0) = some (zeros 1280) ∧
       s.mayStep .keyStore background = true ∧ k.swapped + 256 < slotBytes 1) ∧
    (let w := tW 0x4011 1 0 0x30 .routed [(0x10, leBytes 2 255)]
     let s := tOn tRun w
     Starts s 0 0x4011 w ∧ w.zeroFrom 0x12 0x20 = true ∧ s.recordOk partKeys (recFamily 255) = true ∧
       (tUnread s (recKey partKeys (recFamily 255))).recordOk partKeys (recFamily 255) = false ∧
       Starts (tUnread s (recKey partKeys (recFamily 255))) 0 0x4011 w) ∧
    (let w := tW 0x4020 1 0 0x30 .routed [(0x10, leBytes 8 0x1000), (0x18, leBytes 4 4)]
     let s : State := { tOn tRun w with keys := { tRun.keys with cert := [1, 2, 3, 4] } }
     Starts s 0 0x4020 w ∧ w.zeroFrom 0x1C 0x40 = true ∧ s.keys.cert.length ≤ 4 ∧ s.tamper.state ≠ .blank ∧
       s.recordOk partSystem recCert = true ∧
       s.rangeOk 0 0x1000 4 true = true ∧ s.canMaster masterMgmt = true) := by
  refine ⟨by decide +kernel, ?_, by decide +kernel, ⟨starts_of (by decide +kernel), by decide +kernel, by decide +kernel,
    by decide +kernel, starts_of (by decide +kernel)⟩, starts_of (by decide +kernel), by decide +kernel⟩
  intro b; cases b <;> decide +kernel

/-- An envelope: the fields of its header, its descriptor, its wrapped bytes and its authenticator. -/
def tEnv (op kind counter family target index : Nat) (x wrapped auth : Bytes) : Bytes :=
  tPut 0xB0 [(0, ascii "NLMN"), (4, [1]), (6, leBytes 1 op), (7, leBytes 1 kind), (0x18, leBytes 8 counter), (0x20, leBytes 2 family),
    (0x22, leBytes 1 target), (0x24, leBytes 2 index), (0x28, x), (0xA0, leBytes 2 wrapped.length)] ++ wrapped ++ auth
/-- A point and a signature (z, z), in bytes. -/
def tPoint (x y : Nat) : Bytes := leBytes 48 x ++ leBytes 48 y
def tSig (z : Nat) : Bytes := leBytes 48 z ++ leBytes 48 z
/-- The authorisation of OP 4 over a subject, formed in a grain, signed (z, z) by custodians 18 and 19. -/
def tTwo (subject grain z : Nat) : Bytes :=
  tPut 96 [(0, ascii "SKAORA-A"), (8, [4]), (0x28, leBytes 8 grain), (0x40, leBytes 32 subject)] ++ [2] ++ zeros 7 ++
    ([18] ++ zeros 7 ++ tSig z) ++ ([19] ++ zeros 7 ++ tSig z)
def tCustodian (pub : Bytes) (i : Byte) : Authority :=
  { Authority.reset with occupied := true, kind := 4, curve := 0x11, ident := List.replicate 16 i, pub := pub }
def tEnvW (d a : Bytes) : Work :=
  { tW 0x4010 1 0 0x30 (.active 1) [(0x28, leBytes 4 a.length)] with input := [d, a] }
def tEnvOn (st : LcState) (auth : Table Authority) (w : Work) (a : Bytes) : State :=
  { tKeys w tKey tFull with
    keys := { tRun.keys with compact := [(0, { tKey with attr := 0x007FFFFF, type := 3 })], auth := auth },
    tamper := { Tamper.reset with state := st, challenges := if a.isEmpty then [] else [(0, a.take 96)],
                                  stage := some [{ index := 0, kind := 1, curve := 0x11, ident := [], pub := (tget Authority.reset auth 0).pub }] } }

/-- What `Envelopes` asks of an accepted envelope. -/
def tAccepted (s : State) (w : Work) (d a : Bytes) (op : Nat) : Bool :=
  s.oldest 0 (fun v => v.opcode == 0x4010 && v.activeAt 1) == some w && s.workAt 5 == some w && s.envStateOk op &&
    envForm d (w.field 0x28 4 != 0 || w.field 0x20 8 != 0) && s.envChecks d a w.slice == none && envOp d == op

/-- Those states have no random bytes yet; with them the envelope stands as before. -/
theorem tAccepted_tGot (s : State) (n : Nat) (w : Work) (d a : Bytes) (op : Nat) :
    tAccepted (tGot s (.envelope 5) n) w d a op = tAccepted s w d a op ∧
      (n = 64 → (tGot s (.envelope 5) n).gotRandom (.envelope 5) = some (zeros 64)) := by
  refine ⟨rfl, ?_⟩
  rintro rfl
  rfl

theorem witness_Envelopes_random (st : LcState) (auth : Table Authority) (w : Work) (a : Bytes) :
    (tEnvOn st auth w a).gotRandom (.envelope 5) = none := rfl

theorem witness_Envelopes_end :
    let w := tW 0x4010 1 0 0x30 (.active 3) []
    (tOn tRun w).workAt 5 = some w ∧ w.ring < 65536 := by decide +kernel

def tSlotEnv (write : Bool) : Bytes :=
  if write then tEnv 1 2 1 1 0 5 [3, 3, 1, 0] (leBytes 40 0xd92e623dfe74466250d16f6409696882d79df3b35b3fa215419948d098d9547468de2a5ac68f6bcb) [] else tEnv 2 2 1 1 0 5 [] [] []

theorem witness_Envelopes_read :
    let w := tW 0x4010 1 0 0x30 .routed [(0x10, leBytes 8 0x1000), (0x18, leBytes 4 1560)]
    let s := tOn tRun w
    Starts s 0 0x4010 w ∧ s.oldest 0 (fun v => v.opcode == 0x4010 && v.activeAt 1) = none ∧
      s.envelopeTurn w = true ∧ w.zeroFrom 0x1C 0x20 = true ∧
      w.zeroFrom 0x2C 0x40 = true ∧ s.rangeOk 0 0x1000 1560 false = true ∧ s.rangeOk 0 0 0 false = true ∧
      s.canRead masterMgmt = true ∧ (s.hostRead (.work 5 0) masterMgmt 0 .statement 0x1000 1560 false).2 = true :=
  ⟨starts_of (by decide +kernel), by decide +kernel⟩

set_option maxRecDepth 100000 in
theorem witness_Envelopes_slot :
    (let d := tSlotEnv true ++ leBytes 16 (0xea866a042da525442640075f8d3838d6)
     tAccepted (tEnvOn .sealed_ [] (tEnvW d []) []) (tEnvW d []) d [] 1 = true) ∧
    (let d := tSlotEnv false ++ leBytes 16 (0x247b382751ec0a5441d1a972589b6a5a)
     tAccepted (tEnvOn .sealed_ [] (tEnvW d []) []) (tEnvW d []) d [] 2 = true) := by decide +kernel

set_option maxRecDepth 100000 in
theorem witness_Envelopes_authority :
    (let d := tEnv 3 1 1 0 2 18 [4, 0x11] (zeros 96) (tSig 0x536d730c31cac5c551502e55ae7fe7c2414bc562797f61bcc028badeee2a0f83e46d729f4d3803a831b15e088151f7d6)
     let a := tTwo 0xcccef6953f9fd16bb784516636dcd28235f04b496766cf61f3d5be49de4c01ca 11 0x7efc1325176c374afe71084f17ea87420792836913e38d0405b5c8ac9e1a58d4c257ed06421199cbd7f793a9ad1e5a83
     let c := tCustodian (tPoint 0x968af393760458cd7a4d0613e34d44f47e5d781325c9073863907d0a01c18382cd96d7b1963bd4145742d66080e6071 0xb8fb22c7cf92fa4bc578ed4ff748f940c3fd84e2300dd1e1432db2a22493b3589957d2f3e92d4fec6f06846558ac978b)
     let s := tEnvOn .sealed_ [(0, { Authority.reset with occupied := true, pub := tPoint 0xcb4fe8ed22d2406d7e4c89384f21651555e93208224c88a80e680f2d75008abec103ea16f7b63bf4ea83dd76b2d49f99 0xfb18bdd8dcc1e30e7c88d222383714a74eb626e2476da6868c01430a2daca0a2bde3291b1d4252074dfa3febfc2ae1c1 }), (18, c 1), (19, c 2)] (tEnvW d a) a
     tAccepted s (tEnvW d a) d a 3 = true) ∧
    (let d := tEnv 4 1 1 0 2 33 [] [] (tSig 0xa5bf2889ddc2b1d470f948e1e2f348522c0743bba6b08a54f5658472254ae0201e1fe78772f9ed7fe5f4cc25b4e2daee)
     let a := tTwo 0x3f7ec3ac8281c3e8332cf1aedf8bc9168d56fe4b59eaebbb830db6c31832a465 0 0xb4dbe90f4389de4fa972c94371f6391c7e4003237d0a4c7a0933073c813d14bbe2954a8fc1dde94e83d9ed8d4b25880e
     let c := tCustodian (tPoint 0x64c1b7f1051b409a6fef6e08a43359d289c5fdb1bb22e73a953effd02af81e8274c6a48e8b10b17b9adcdb9b6811cf09 0xf1b5b1d270ae44068cde4ea85f3b56dd71654b02d8b9f19c161bf4994ec19bdf0482a79f68d63dd8279d2c896af295ee)
     let s := tEnvOn .sealed_ [(0, { Authority.reset with occupied := true, pub := tPoint 0x25984c7d2079275fc897c661f1cd5b9e030590fa49bb2076d256bc41348ab7749f5bfebd82cb9953787f561502386be1 0x2b35d4ae5786c78761b2c81b2f1883439738c0a23148c3addcda1828f6bbf8c3c422420e3103f3975f858dc0c5cd7919 }), (18, c 1), (19, c 2)] (tEnvW d a) a
     tAccepted s (tEnvW d a) d a 4 = true) ∧
    (let d := tEnv 5 1 2 0 0 0 [] [] (tSig 0x129ab035738a8ba1ea8d23f20441770076b486095b03003bc1d39f2395f9fb79f7edd5df4a82c4a334762ae67d83806e)
     let s := tEnvOn .issued [(0, { Authority.reset with pub := tPoint 0x3bb5213f13d87c6b8074ad73127bfa7620cb72cf363fb21774ea6a30cf5f01c8f0a180dc9ce2a97f8cbc0901a42b234c 0xfc7696c1f986f7ff6d2e7345f5ae3a240da2f6d5b4a22a27c9ae00864b38d693d10277104a4c468ec04d5757897ac850 })] (tEnvW d []) []
     tAccepted { s with keys := { s.keys with families := [(0, 2 - 1)] } } (tEnvW d []) d [] 5 = true) := by decide +kernel

/-! The crypto engines and the random unit. -/

def tRng (r : Rng) : State := { tRun with rng := r }

/-- A stream that waits in its pool. -/
def tStream (digest : Bool) (total : Nat) : Stream := { work := 5, onDigest := digest, unit := none, pos := 0, total := total }
def tStreams (s : State) (xs : List Stream) : State := { s with crypto := { s.crypto with streams := xs } }
/-- CIPHER in GCM, decrypting, with 16 bytes of additional data. -/
def tCipher (ph : Phase) : Work :=
  tW 0x5000 2 0x0C8 0x60 ph
    [(0x10, leBytes 8 0x1000), (0x18, leBytes 4 1024), (0x20, leBytes 8 0x2000), (0x30, leBytes 8 0x3000), (0x38, leBytes 8 0x4000), (0x2C, leBytes 4 16)]
/-- SVC_DIGEST of "abc" whose result goes to 0x10000: its stream, bound to engine 0. -/
def tCallDigest : State :=
  let s := tCall 3 ([6, 0, 0, 0] ++ leBytes 4 0x20000 ++ leBytes 4 3 ++ leBytes 4 0x10000) [1, 2, 3]
  match exec (.svcDigest 0) s with
  | .next t => t.bindStream true
  | _ => s

theorem witness_Streams :
    (let w := tCipher .routed
     let s := tKeys w tKey tFull
     Starts s 0 0x5000 w ∧ w.cipherForm = true ∧ s.sessionBusy 0 = false ∧ (s.cipherKeys w).2 = .ok (zeros 32) ∧
       s.bufOk 0 0x1000 1024 false = true ∧ s.bufOk 0 0x2000 1024 true = true ∧ s.bufOk 0 0x3000 16 false = true ∧
       s.rangeOk 0 0x4000 (cipherTlen w.aux) (!cipherDec w.aux) = true) ∧
    (∀ alg ∈ [0, 1], let w := tW 0x5001 1 (alg + 16 * 256) 0x30 .routed [(0x10, leBytes 8 0x1000), (0x18, leBytes 4 1024), (0x20, leBytes 8 0x2000)]
     let s := tKeys w tKey tFull
     Starts s 0 0x5001 w ∧ w.macForm = true ∧ s.sessionBusy 0 = false ∧ keySrcOf (w.field 0x1C 4) 0 none = some (.session 0) ∧
       s.streamSession w = none ∧ s.keyFail (.session 0) 0 = none ∧ s.keySuits (.session 0) attrMac (macTypes (macAlg w.aux)) 0 = true ∧
       s.bufOk 0 0x1000 1024 false = true ∧ s.rangeOk 0 0x2000 16 (!macVerifies w.aux) = true) ∧
    (∀ p ∈ [0x5010, 0x5011, 0x5012],
     let w := tW p 1 6 0x30 .routed ([(0x10, leBytes 8 0x1000), (0x18, leBytes 4 1024), (0x20, leBytes 8 0x2000)] ++
       (if p = 0x5010 then [(0x28, leBytes 4 64)] else if p = 0x5011 then [] else [(0x28, leBytes 8 0x3000), (0x30, leBytes 4 64)]))
     let s := tKeys w tKey tFull
     Starts s 0 p w ∧ w.digestForm = true ∧ s.contextBusy w = false ∧ s.bufOk 0 0x1000 1024 false = true ∧
       (w.digestOut.all (fun o => s.rangeOk 0 o.1 o.2 true)) = true ∧ s.rangeOk 0 0x2000 512 false = true ∧
       s.rangeOk 0 0x2000 512 true = true) ∧
    (let w := tCipher (.active 0)
     let s := tStreams (tKeys w tKey tFull) [tStream false 1040]
     s.bestUnit false = some 0 ∧
       s.streamTurn (poolUnit false) (fun y v => y.onDigest == false && y.unit.isNone && s.streamOpen v) = some (tStream false 1040, w) ∧
       s.workAt 5 = some w ∧ w.aadLen = 16 ∧ w.preRead = some (0x4000, 12) ∧
       (s.hostRead (.work 5 0) (s.masterStream 5) 0 .stream 0x4000 12 false).2 = true) ∧
    (let w := tW 0x5010 1 6 0x30 (.active 0) [(0x10, leBytes 8 0x1000), (0x18, leBytes 4 1024), (0x20, leBytes 8 0x2000), (0x28, leBytes 4 64)]
     let s := tStreams (tKeys w tKey tFull) [tStream true 1024]
     s.bestUnit true = some 0 ∧
       s.streamTurn (poolUnit true) (fun y v => y.onDigest == true && y.unit.isNone && s.streamOpen v) = some (tStream true 1024, w) ∧
       s.workAt 5 = some w ∧ w.aadLen = 0 ∧ w.preRead = none ∧
       (s.hostRead (.work 5 0) (s.masterStream 5) 0 .stream 0x1000 (min (w.stepBytes true) 1024) false).2 = true) ∧
    (let w := { tW 0x5010 1 1 0x30 (.active 1) [(0x18, leBytes 4 3), (0x20, leBytes 8 0x2000)] with input := [[], ascii "abc"] }
     let x : Stream := { tStream true 3 with unit := some 0, pos := 3 }
     let s := tStreams (tKeys w tKey tFull) [x]
     s.readyStream true 0 = some (x, w) ∧ s.mayStep (.digest 0) 2 = true ∧ s.workAt 5 = some w ∧ x.total ≤ w.streamData.length ∧
       (s.hostWrite (s.masterStream 5) 0 .stream (some 5) 0x2000
         (((DigestCtx.fresh w.digestAlg).absorb w.digestAlg w.streamData).out w.digestAlg)).2 = true) ∧
    (let s := tCallDigest
     (s.readyStream true 0).any (fun p => p.2.opcode == 0x5010 && s.workAt p.2.id == some p.2 && p.1.work == p.2.id &&
       p.2.ring == 65536 + 0 && decide (p.1.total ≤ p.1.pos + 4 * shaBlock p.2.digestAlg)) = true ∧
       s.mayStep (.digest 0) 2 = true ∧ (s.coreAt 0).mode = .waiting ∧ (s.coreAt 0).answer = none) := by
  refine ⟨⟨starts_of (by decide +kernel), by decide +kernel⟩, ?_, ?_, by decide +kernel, by decide +kernel, by decide +kernel,
    by decide +kernel⟩
  · intro n h; fin_cases h <;> exact ⟨starts_of (by decide +kernel), by decide +kernel⟩
  · intro n h; fin_cases h <;> exact ⟨starts_of (by decide +kernel), by decide +kernel⟩

/-- A BIGNUM descriptor: operation, key handle, bytes of input and output. -/
def tBig (ph : Phase) (op kh n m : Nat) : Work :=
  tW 0x6000 1 op 0x30 ph [(0x10, leBytes 8 0x1000), (0x18, leBytes 4 n), (0x1C, leBytes 4 kh), (0x20, leBytes 8 0x2000), (0x28, leBytes 4 m)]
def tBigOn (w : Work) (type : Nat) : State :=
  let s := tOn tRun w
  { s with keys := { s.keys with compact := [(0, { tKey with type := type })], large := [(0, { tKey with type := type })] } }

theorem witness_BigNumbers :
    (∀ p ∈ [(0x01, 0, 0, 11, 1), (0x02, 0, 0, 11, 1), (0x10, 0, 0, 137, 64), (0x11, 0x20, 0x30000000, 256, 256),
        (0x20, 0x10, 0x20000000, 16, 64), (0x21, 0, 0, 148, 0), (0x22, 0x10, 0x20000000, 64, 32),
        (0x30, 0x13, 0x20000000, 32, 32), (0x31, 0x14, 0x20000000, 1, 64), (0x32, 0, 0, 97, 0)],
      let w := tBig .routed p.1 p.2.2.1 p.2.2.2.1 p.2.2.2.2
      let s := tBigOn w p.2.1
      let c := s.bnKeyCheck 0 p.1 p.2.2.1
      (s.oldest 0 (fun v => v.isRouted && v.opcode == 0x6000 && (v.aux == p.1 || !bnOpOk v.aux)) == some w && s.workAt 5 == some w &&
        s.mayBegin w && s.bnForm w && c.2.isNone && s.rangeOk 0 0x1000 p.2.2.2.1 false && s.rangeOk 0 0x2000 p.2.2.2.2 true &&
        s.canRead (s.masterStream 5) && (c.1.hostRead (.work 5 0) (s.masterStream 5) 0 .stream 0x1000 p.2.2.2.1 false).2) = true) ∧
    (let w := tBig (.reading 1) 2 0 11 1
     let r : Read := { tRead (.work 5 0) 11 with master := 42 }
     let s := { tBigOn w 0 with reads := [r] }
     s.readAt 3 = some r ∧ s.workAt 5 = some w ∧ w.isReading = true ∧ r.arrives = true ∧ r.discard = false ∧
       s.rangeOk 0 0x2000 1 true = true ∧ (tModMul 3).length = r.len ∧ bnTypes 2 = none ∧
       bnInOk 2 (tModMul 3) = true ∧ bnOutLen 2 0 (tModMul 3) ≤ w.field 0x28 4 ∧ bnValid 2 0 [] (tModMul 3) = true) ∧
    (let w := tBig .routed 0x31 0x20000000 0 64
     let s := tBigOn w 0x14
     s.oldest 0 (fun v => v.isRouted && v.opcode == 0x6000 && (v.aux == 0x31 || !bnOpOk v.aux)) = some w ∧ s.workAt 5 = some w ∧
       s.mayBegin w = true ∧ s.bnForm w = true ∧ (s.bnKeyCheck 0 0x31 0x20000000).2 = none ∧ s.rangeOk 0 0x2000 64 true = true) := by
  refine ⟨?_, by decide +kernel, by decide +kernel⟩
  intro p h; fin_cases h <;> decide +kernel

def tPool : Rng := { tReleasing with pool := [zeros 16, zeros 16, zeros 16], blocks := [zeros 128], fifo := zeros 64, buf := zeros 256 }

theorem witness_RandomUnit :
    (let s := tRng tPool
     s.rng.started.isSome = true ∧ s.halted = false ∧ s.rng.stepAt ≠ some s.now ∧
       s.sched.taken.contains .random = false ∧ s.rng.startup = true ∧ s.rng.blocks = [zeros 128] ∧
       s.barUp = true ∧ s.tamper.state ≠ .spent ∧ s.tamper.state ≠ .bittern ∧ 64 ≤ s.rng.fifo.length) ∧
    (let s := tRng { Rng.reset with started := some 0 }
     s.rng.startup = false ∧ (List.range 11).all (fun k => ((s.sourceAt k).block (List.replicate 128 0x55)).startOk) = true ∧
       (List.range 11).all (fun k => ((s.sourceAt k).block (List.replicate 128 0x55)).passing) = true ∧
       (List.range 11).all (fun k => !((s.sourceAt k).block (zeros 128)).passing) = true) ∧
    (let s := tRng { tPool with inst := false }
     s.rng.inst = false ∧ s.rng.kat = true ∧ s.rng.errKat = false ∧ s.poolFull = true) ∧
    (let s := tRng { tPool with calls := 128 }
     s.reseedDue = true ∧ s.reseedSlot = true ∧ s.poolFull = true ∧ s.anyPassing = true) ∧
    (let s := tRng { tPool with seededAt := 60000 - 5760 }
     s.rng.inst = true ∧ s.rng.seededAt + 5760 ≤ s.now ∧ s.sched.overdue.contains 5 = false) ∧
    (let s := tRng { Rng.reset with started := some (60000 - 5760) }
     s.rng.startup = false ∧ s.rng.errSlow = false ∧ (60000 - 5760) + 5760 ≤ s.now) := by decide +kernel

theorem witness_RandomService :
    (∀ n ∈ [0, 1], let w := tW 0x8000 1 0 0x30 .routed [(0x10, leBytes 8 0x1000), (0x18, leBytes 4 n)]
     Starts (tOn tRun w) 0 0x8000 w ∧ (tOn tRun w).randomFail w = none ∧ w.field 0x18 4 = n) ∧
    (let w := tW 0x8010 1 0 0x30 .routed []
     let s := { tRng tPool with work := [w] }
     Starts s 0 0x8010 w ∧ w.zeroFrom 0x10 0x40 = true ∧ s.rng.started.isSome = true ∧ s.halted = false ∧
       s.rng.stepAt ≠ some s.now ∧ s.sched.taken.contains .random = false ∧ s.brine.entries = []) ∧
    (∀ p ∈ [(LcState.issued, 0), (.sealed_, 312)],
     let w := tW 0x8011 1 0 0x30 .routed ([(0x10, leBytes 8 0x1000), (0x18, leBytes 4 128), (0x1C, leBytes 4 p.2), (0x20, leBytes 8 0x2000), (0x28, leBytes 4 16)])
     let s := tOn (tTamper { Tamper.reset with state := p.1 }) w
     Starts s 0 0x8011 w ∧ w.injectForm = true ∧ s.injectState w = true ∧ w.field 0x1C 4 = p.2 ∧ s.rangeOk 0 0x1000 128 false = true ∧
       s.rangeOk 0 0x2000 16 true = true ∧ s.canRead (s.masterStream 5) = true ∧ s.rangeOk 0 0 312 false = true ∧
       (s.hostRead (.work 5 1) (s.masterStream 5) 0 .stream 0x1000 128 false).2 = true ∧ s.canRead masterMgmt = true ∧
       (s.hostRead (.work 5 0) masterMgmt 0 .statement 0 312 false).2 = true) ∧
    (∀ use ∈ [RngUse.fifo, .remask 0 0, .kat 5],
     let s := tRng { tPool with fifo := [], fwFifo := zeros 64, waiters := if use = .fifo then [] else [tWait use 64 []] }
     ∃ x, s.rngNext = some x ∧ x.use = use ∧ (use.isTest = true ∨ s.releasing = true ∧ 16 ≤ s.rng.buf.length ∧ 0 < x.left) ∧
       s.halted = false ∧ s.rng.stepAt ≠ some s.now ∧ s.sched.taken.contains .random = false ∧ s.rng.started.isSome = true) ∧
    (let s := tOn (tRng tPool) (tW 0x8010 1 0 0x30 (.active 1) [])
     (s.workAt 5).isSome = true ∧ s.brine.entries = [] ∧ (tWait (.kat 5) 3 []).need = 3 ∧
       (s.katRun { tWait (.kat 5) 6 [0, 0, 3] with prio := 6 }).1 = some (true, true)) ∧
    (let s := tRng { tPool with given := some (.fifo, zeros 64) }
     s.rng.given = some (.fifo, zeros 64) ∧ s.rng.waiters = []) ∧
    (let s := tRng { tPool with given := some (.remask 0 0, zeros 32), waiters := [tWait (.remask 0 0) 64 []] }
     s.rng.given = some (.remask 0 0, zeros 32) ∧ s.rng.waiters.find? (fun y => y.use == .remask 0 0) = some (tWait (.remask 0 0) 64 []) ∧
       (zeros 32).length < (tWait (.remask 0 0) 64 []).left) ∧
    (let x := { tWait (.request 5) 16 [] with since := 60000 - 5760 }
     let s := { tRng { tPool with waiters := [x] } with work := [tW 0x8000 1 0 0x30 (.active 1) []] }
     s.rngLate = some x ∧ (s.workAt 5).isSome = true) ∧
    (let x := { tWait (.service 0) 16 [] with since := 60000 - 5760 }
     let s0 := tCall 7 [] []
     let s := { s0 with rng := { tPool with waiters := [x] } }
     s.rngLate = some x ∧ (s.coreAt 0).mode = .waiting ∧ (s.coreAt 0).answer = none) ∧
    (let x := { tWait (.envelope 5) 64 [] with since := 60000 - 5760 }
     let s := { tRng { tPool with waiters := [x] } with work := [tW 0x4010 1 0 0x30 (.active 1) []] }
     s.rngLate = some x ∧ (s.workAt 5).isSome = true) := by
  refine ⟨?_, ⟨starts_of (by decide +kernel), by decide +kernel⟩, ?_, ?_, ⟨by decide +kernel, rfl, rfl, rfl⟩, by decide +kernel,
    by decide +kernel, by decide +kernel, by decide +kernel, by decide +kernel⟩
  · intro n h; fin_cases h <;> exact ⟨starts_of (by decide +kernel), by decide +kernel⟩
  · intro n h; fin_cases h <;> exact ⟨starts_of (by decide +kernel), by decide +kernel⟩
  · intro n h; fin_cases h <;> exact ⟨_, rfl, by decide +kernel⟩

/-! The store. -/

/-- A partition of slice 0, 4 pages. -/
def tNv (w : Work) (buf : List WbEntry) : State :=
  { tOn tRun w with nv := { tRun.nv with parts := [(0, UserPart.tag), (1, { UserPart.tag with slice := 0 })], wbuf := buf } }
def tNvW (ph : Phase) (op aux len : Nat) : Work :=
  tW op 1 aux 0x30 ph [(0x10, [1]), (0x14, leBytes 4 1023), (0x18, leBytes 8 0x1000), (0x20, leBytes 4 len)]
def tPage (frozen : Bool) (sync : List CommitWait) : WbEntry := { userEntry (userKey 1 0) 0 (zeros 256) sync with frozen := frozen }

theorem witness_StoreCommands :
    (let w := tNvW .routed 0x9000 0 4096
     let s := tNv w []
     Starts s 0 0x9000 w ∧ nvForm w false = true ∧ (s.nvChecks w false).2 = none ∧
       (s.nvChecks w false).1.canMaster (s.masterStream 5) = true ∧ (s.nvChecks w false).1.mayReadPage 0 = true ∧
       (s.nv.readPage (userKey 1 3)).2.2 ≠ .fault ∧ s.brine.entries = [] ∧
       (let t := s.takeStep .nv
        (t.nvChecks w false).1.mayReadPage 0 = false ∧ t.toStart 0 0x9000 = some w ∧ (t.nvChecks w false).2 = none)) ∧
    (let w := tNvW .routed 0x9001 1 1
     let s := tNv w []
     Starts s 0 0x9001 w ∧ s.oldest 0 (fun v => v.opcode == 0x9001 && v.activeAt 1) = none ∧ nvForm w true = true ∧
       (s.nvChecks w true).2 = none ∧ s.canRead (s.masterStream 5) = true ∧
       ((s.nvChecks w true).1.hostRead (.work 5 0) (s.masterStream 5) 0 .stream 0x1000 1 false).2 = true) ∧
    (let w := tNvW (.active 1) 0x9001 1 1
     let s := tNv w []
     s.oldest 0 (fun v => v.opcode == 0x9001 && v.activeAt 1) = some w ∧ s.workAt 5 = some w ∧ s.nv.wt = false ∧
       s.nv.wbuf = [] ∧ s.nv.lastWrite + 480 ≤ s.now ∧ s.regWritable 0x060004 = true ∧
       (let t : State := { s with nv := { s.nv with wt := true } }
        t.oldest 0 (fun v => v.opcode == 0x9001 && v.activeAt 1) = some w ∧ t.nv.wt = true)) ∧
    (∀ n ∈ [0, 1], let w := tW 0x9002 1 0 0x30 .routed []
     let s := tNv w (List.replicate n (tPage false []))
     Starts s 0 0x9002 w ∧ w.zeroFrom 0x10 0x40 = true ∧ (s.nv.wbuf ++ s.nv.behind).length = n) ∧
    (let w := tW 0x9003 1 0 0x30 .routed [(0x10, [1, 3])]
     let s := tNv w []
     Starts s 0 0x9003 w ∧ w.zeroFrom 0x12 0x18 = true ∧ w.zeroFrom 0x30 0x40 = true ∧ w.field 0x11 1 = 3 ∧
       s.partFail 1 0 0 = none ∧ (s.passwordCheck 1 true (bytesAt w.desc 0x28 8)).2 = none) ∧
    (∀ sync ∈ [[], [{ work := 5, core := none, last := true, ok := [], fail := [] : CommitWait }]], ∀ up,
     let s0 := tNv (tNvW (.active 2) 0x9001 1 1) [tPage true sync]
     let s : State := { s0 with pwr := { s0.pwr with starting := up } }
     let e := tPage true sync
     s.nv.nextPage = some e ∧ e.img = [.user] ∧ e.index = 0 ∧ e.sync = sync ∧ s.nv.commitWaits = [] ∧ s.workAt 5 = some (tNvW (.active 2) 0x9001 1 1) ∧
       (up = true → s.mayStep .nv 2 = true ∧ (s.takeStep .nv).mayStep .nv 2 = false) ∧
       ((if s.pwr.starting then s.takeStep .nv else s).writeEntry e).2 = true) := by
  refine ⟨⟨starts_of (by decide +kernel), by decide +kernel⟩, ⟨starts_of (by decide +kernel), by decide +kernel⟩,
    by decide +kernel, ?_, ⟨starts_of (by decide +kernel), by decide +kernel⟩, ?_⟩
  · intro n h; fin_cases h <;> exact ⟨starts_of (by decide +kernel), by decide +kernel⟩
  · intro n h b; cases b <;> fin_cases h <;> decide +kernel

def tCounter (v : Nat) : State :=
  { tRun with nv := { tRun.nv with storeDue := [(7, 0)], counters := [(7, { Counter.issued with value := v })] } }

theorem witness_StoreUpkeep :
    (∀ v ∈ [0, 9], let s := tCounter v
     let c := s.counterAt 7
     s.nv.storeDue.any (fun x => x.1 == 7) = true ∧ (v = 0 → c.stored = some c.value) ∧
       (v = 9 → c.stored ≠ some c.value ∧ c.base = some (true, c.baseA) ∧ c.bankA.epoch ≠ 2 ∧ c.bankB.epoch ≠ 2) ∧
       s.mayStep .nv background = true ∧ (s.takeStep .nv).mayStep .nv background = false ∧
       (s.takeStep .nv).nv.storeDue.any (fun x => x.1 == 7) = true) ∧
    (tRun.regWritable 0x060044 = true ∧ tRun.regWritable 0x060014 = true ∧ tRun.mayStep .nv background = true ∧
      (tRun.takeStep .nv).mayStep .nv background = false ∧ tRun.nv.storeDue = [] ∧ (tCounter 9).nv.storeDue ≠ [] ∧ tRun.holdHealthy = true ∧
      ({ tRun with pwr := { tRun.pwr with holdOk := false } } : State).holdHealthy = false) ∧
    (let s : State := { tRun with nv := { tRun.nv with partSel := 1 } }
     (s.partAt 1).en = false ∧ (0x80000001 : Nat).testBit 31 = true ∧ s.userPages + 1 ≤ 36864 ∧ 4096 < 0x80001001 % 8192 ∧
       0x80000000 % 8192 = 0) ∧
    (let s : State := { tNv (tNvW .held 0 0 0) [] with nv := { (tNv (tNvW .held 0 0 0) []).nv with partSel := 1 } }
     (s.partAt 1).en = true ∧ 0x80000001 % 8192 ≠ (s.partAt 1).pages ∧ (0 : Nat).testBit 31 = false) := by
  refine ⟨?_, by decide +kernel, by decide +kernel, by decide +kernel⟩
  intro n h; fin_cases h <;> decide +kernel

/-! Contactless. -/

def tCollect : Collect :=
  { work := 5, slice := 0, since := 0, wait := 1, block := (tTwo 0xcccef6953f9fd16bb784516636dcd28235f04b496766cf61f3d5be49de4c01ca 11 0).take 96, signers := none, fieldOk := true,
    measuredAt := 0, lastPing := 58400, pings := none, selected := 7, rejected := 0, sigs := [], dialog := none }
def tDialog (step : CardStep) : Dialog :=
  { step := step, level := 1, known := [], branches := [], uid := [], sent := [], retries := 0, fresh := true }
/-- A device in ISSUED with a collect and two custodians of the same key. -/
def tCl (c : Collect) : State :=
  let a := tCustodian (tPoint 0x968af393760458cd7a4d0613e34d44f47e5d781325c9073863907d0a01c18382cd96d7b1963bd4145742d66080e6071 0xb8fb22c7cf92fa4bc578ed4ff748f940c3fd84e2300dd1e1432db2a22493b3589957d2f3e92d4fec6f06846558ac978b)
  let s := tOn tRun (tW 0xA100 1 0 0x30 (.active 1) [(0x18, leBytes 8 0x1000), (0x20, leBytes 4 312)])
  { s with cl := { s.cl with collect := some c, detBase := 500 }, keys := { s.keys with auth := [(18, a 1), (19, a 2)] },
           sched := { s.sched with grain := 10000000 } }
/-- What a card with an identifier answers: its signature in big-endian order. -/
def tAnswer (i : Byte) : Bytes := List.replicate 16 i ++ beBytes 48 0x7efc1325176c374afe71084f17ea87420792836913e38d0405b5c8ac9e1a58d4c257ed06421199cbd7f793a9ad1e5a83 ++ beBytes 48 0x7efc1325176c374afe71084f17ea87420792836913e38d0405b5c8ac9e1a58d4c257ed06421199cbd7f793a9ad1e5a83 ++ [0x90, 0x00]

theorem witness_Collects :
    (let w := tW 0xA100 1 0 0x30 .routed [(0x10, leBytes 8 0x1000), (0x18, leBytes 8 0x2000), (0x20, leBytes 4 312), (0x24, leBytes 4 131072)]
     let s := tOn tRun w
     Starts s 0 0xA100 w ∧ w.collectForm = true ∧ s.tamper.state = .issued ∧ s.runningCollect = none ∧ s.cl.collect = none ∧
       s.rangeOk 0 0x1000 96 false = true ∧ s.rangeOk 0 0 0 false = true ∧ s.rangeOk 0 0x2000 312 true = true ∧
       s.canRead masterMgmt = true ∧ (s.hostRead (.work 5 0) masterMgmt 0 .statement 0x1000 96 false).2 = true) ∧
    (let w := tW 0xA101 1 0 0x30 .routed []
     let s := tOn tRun w
     Starts s 0 0xA101 w ∧ w.zeroFrom 0x10 0x40 = true ∧ s.cl.collect = none ∧ s.runningCollect = none) ∧
    (let w := { tW 0xA101 1 0 0x30 .routed [] with id := 6 }
     let s := { tCl tCollect with work := (tCl tCollect).work ++ [w] }
     Starts s 0 0xA101 w ∧ w.zeroFrom 0x10 0x40 = true ∧ s.cl.collect = some tCollect ∧ (s.workAt 5).isSome = true ∧ tCollect.work ≠ 6) ∧
    (let s := tCl tCollect
     s.cl.collect = some tCollect ∧ (s.workAt 5).isSome = true ∧ tCollect.sigs.length < 2 ∧ tCollect.since + tCollect.wait * 5760 ≤ s.now ∧
       tCollect.dialog = none ∧ tCollect.fieldOk = true ∧ tCollect.pings = none) ∧
    (let c := { tCollect with fieldOk := false }
     (tCl c).cl.collect = some c ∧ c.dialog = none ∧ c.fieldOk = false ∧ c.measuredAt + 40000 ≤ (tCl c).now) ∧
    (let c := { tCollect with pings := some 15 }
     let s := tCl c
     s.cl.collect = some c ∧ c.lastPing + s.cl.pingMs * 8000 ≤ s.now ∧ s.cl.detThr ≤ detuning s.cl.detBase 0 ∧
       detuning s.cl.detBase 500 < s.cl.detThr) ∧
    (∀ step ∈ [CardStep.atqa 1, .atqa 3, .ats, .selectAid, .pso],
      let c := { tCollect with dialog := some (tDialog step) }
      (tCl c).cl.collect = some c ∧ c.dialog = some (tDialog step) ∧ (tDialog step).step = step) ∧
    bestRate [0x02, 0x00] 2 = 0 ∧
    (let c := { tCollect with dialog := some (tDialog .pso) }
     ((tCl c).acceptCard c (tAnswer 1)).isSome = true) ∧
    (let c := { tCollect with dialog := some (tDialog .pso), sigs := [(18, List.replicate 16 1, [])] }
     ((tCl c).acceptCard c (tAnswer 2)).isSome = true ∧ (tCl c).canMaster masterMgmt = true) := by
  refine ⟨⟨starts_of (by decide +kernel), by decide +kernel⟩, ⟨starts_of (by decide +kernel), by decide +kernel⟩,
    ⟨starts_of (by decide +kernel), by decide +kernel⟩, by decide +kernel, by decide +kernel, by decide +kernel, ?_,
    by decide +kernel, by decide +kernel, by decide +kernel⟩
  intro n h; fin_cases h <;> decide +kernel

/-- The tag at a level, with the application and a file selected, and a partition that is locked or not. -/
def tTag (level : TagLevel) (main : Bool) (file : Option Nat) (locked : Bool) (pw : Bytes) : State :=
  { tRun with pwr := { tRun.pwr with mainOk := main }, nv := { tRun.nv with parts := [(0, { UserPart.tag with locked := locked, readPw := pw, fails := 7 })] },
              cl := { tRun.cl with mode := .tag, field := 1500, level := level, app := true, file := file, writeOk := true } }

theorem witness_Tag :
    (∀ main, (tTag .idle main none false (zeros 8)).pwr.mainOk = main ∧ (tTag .idle main none false (zeros 8)).tamper.state ≠ .blank) ∧
    (∀ l ∈ [TagLevel.idle, .ready1, .active], let s := tTag l true none false (zeros 8)
     s.cl.mode = .tag ∧ s.cl.field ≠ 0 ∧ s.cl.level = l ∧ s.pwr.mainOk = true) ∧
    (∀ main, ∀ f ∈ [0x5301, 0x5302, 0x5304], let s := tTag .protocol main (some f) false (zeros 8)
     s.cl.mode = .tag ∧ s.cl.field ≠ 0 ∧ s.cl.level = .protocol ∧ s.cl.app = true ∧ s.cl.file = some f ∧
       (s.pwr.mainOk = true ∨ 1500 ≤ s.cl.field) ∧ s.fileExists f = true ∧ s.fileExists 0x5305 = false ∧ 103 + 1 ≤ s.identFile.length ∧
       s.tamper.state ≠ .spent ∧ s.cl.pendingUpdate = none ∧ (s.partAt 0).locked = false ∧ s.cl.writeOk = true ∧ s.nv.wt = false ∧
       s.nv.wbuf.length < 64 ∧ allZero (s.partAt 0).readPw = true) ∧
    (let s := tTag .protocol true (some 0x5304) true [1, 2, 3, 4, 5, 6, 7, 8]
     s.cl.app = true ∧ s.cl.pendingUpdate = none ∧ (s.partAt 0).locked = true) ∧
    (let s := tTag .protocol true (some 0x5304) false [1, 2, 3, 4, 5, 6, 7, 8]
     (s.partAt 0).locked = false ∧ allZero (s.partAt 0).readPw = false ∧ zeros 8 ≠ (s.partAt 0).readPw ∧ (s.partAt 0).fails < 8) ∧
    (let s : State := { tTag .protocol true (some 0x5302) false (zeros 8) with keys := { tRun.keys with cert := [1] } }
     s.cl.file = some 0x5302 ∧ s.keys.cert.length < 0 + 2) := by
  refine ⟨by decide +kernel, ?_, ?_, by decide +kernel, by decide +kernel, by decide +kernel⟩
  · intro n h; fin_cases h <;> decide +kernel
  · intro m n h; cases m <;> fin_cases h <;> decide +kernel

/-! Telemetry, time, rings. -/

theorem witness_SidebandAndTelemetry :
    (tRun.portUp = true ∧ tRun.halted = false ∧ tRun.tamper.state ≠ .spent) ∧
    (let s : State := { State.reset with pwr := { Power.reset with starting := true, step := 2 }, keys := { KeyStore.reset with haltCode := 1 } }
     s.portUp = true ∧ s.halted = true) ∧ State.reset.portUp = false ∧
    (let s : State := { tRun with sched := { tRun.sched with deadline := [(4, 60000 + 5760)] } }
     s.pwr.starting = true ∧ s.sched.running = true ∧ s.pwr.flush = none ∧ s.taskDeadline 4 ≤ s.now + 5760 ∧
       s.mayStep .telemetry background = true) ∧
    tRun.regWritable 0x0A0020 = true ∧ tRun.regWritable 0x0A0208 = true ∧ tRun.regWritable 0x0A0218 = true := by decide +kernel

def tStopped : State := { tRun with sched := { tRun.sched with running := false } }

theorem witness_GrainBoundary :
    (tTamper { Tamper.reset with clockStopped := true }).tamper.clockStopped = true ∧
    (tRun.tamper.clockStopped = false ∧ tRun.sched.running = true ∧ tRun.pwr.flush = none) ∧
    (tStopped.tamper.clockStopped = false ∧ tStopped.sched.running = false ∧ tStopped.logs.ppend = [] ∧ tStopped.logs.tpend = []) ∧
    (∃ e, (tStopped.noSpare 3).logs.ppend = [e] ∧ (tStopped.noSpare 3).logs.tpend = []) ∧
    (let s := tStopped.tlogTamper 1 0 { source := 1, cause := 0, unit := 0, loc := 0, slice := 0, detail := 0, num := 0 }
     ∃ e, s.logs.ppend = [] ∧ s.logs.tpend = [e]) ∧
    (∀ step ∈ [FlushStep.save, .commit], (tFlush step).pwr.flush = some { since := 0, step := step, cut := false } ∧
      (tFlush step).tamper.clockStopped = false ∧ (tFlush step).sched.running = true ∧ (tFlush step).sched.fresh = false) ∧
    (let u := ({ tFlush .save with logs := (tFlush .save).logs.close } : State).grainRecord.countGrain
     u.nv.wbuf = [] ∧ u.nv.behind = [] ∧ u.counterPagesDue = [] ∧ u.usesPages = []) ∧
    (let s : State := { tFlush .save with nv := { tRun.nv with wbuf := [tPage true []] } }
     s.pwr.flush = some { since := 0, step := .save, cut := false } ∧ s.tamper.clockStopped = false ∧ s.sched.running = true ∧
       s.sched.fresh = false ∧ ({ s with logs := s.logs.close } : State).grainRecord.countGrain.nv.wbuf ≠ []) ∧
    (tRun.tamper.clockStopped = false ∧ Responds tRun.grain 4) ∧
    (let s : State := { tRun with applets := { tRun.applets with cores := [(0, tCoreIn .running tInv)] } }
     let c := s.coreAt 0
     c.inv = some tInv ∧ c.mode = .running ∧ c.squash = false ∧ c.trapped = none ∧ s.sliceGone tInv = false ∧ s.now % 20 ≠ 19) := by
  refine ⟨rfl, by decide +kernel, by decide +kernel, ⟨_, rfl, rfl⟩, ⟨_, rfl, rfl⟩, ?_, by decide +kernel, by decide +kernel,
    ⟨rfl, by decide +kernel, by decide +kernel, by decide +kernel, by decide +kernel⟩, by decide +kernel⟩
  intro n h; fin_cases h <;> decide +kernel

def tDue (task : Nat) : State :=
  let s := tKeys tLoadW tKey tFull
  { s with sched := { s.sched with deadline := [(task, 60000)] } }

theorem witness_ScruplesAndDeadlines :
    (tRun.sched.running = true ∧ tRun.tamper.clockStopped = false ∧ tRun.pwr.flush = none ∧ tRun.now % 20 = 0 ∧
      tRun.sched.lastScruple ≠ some tRun.now) ∧ Twf Slice.reset tRun.slices ∧
    ({ tRun with sched := { tRun.sched with grain := 60001 } } : State).now % 20 ≠ 0 ∧
    (∀ task ∈ [0, 1, 3, 4], let s := tDue task
     s.sched.overdue.contains task = false ∧ s.taskDeadline task ≤ s.now ∧ s.taskSteps task .keyStore ≠ 0 ∧ s.tamper.state ≠ .spent) := by
  refine ⟨by decide +kernel, ⟨by decide +kernel, by
    intro e h
    obtain rfl := List.mem_singleton.mp h
    decide +kernel⟩, by decide +kernel, ?_⟩
  intro n h; fin_cases h <;> decide +kernel

theorem witness_Doorbells :
    (tRun.barUp = true ∧ tRun.halted = false) ∧
    ((tRun.sqAt 0).enabled = true ∧ (tRun.sqAt 0).busy = false ∧ (0x10001 / 65536 % 256 = (tRun.sliceAt 0).gen) ∧
      (tRun.sliceAt 0).st = .active ∧ 0x20001 / 65536 % 256 ≠ (tRun.sliceAt 0).gen) ∧
    (let s : State := { tRun with books := [(0, { tBook with issued := 5, persisted := 3, drained := 2, lseq := 5 })] }
     let b := s.bookAt 0
     b.st = .open_ ∧ b.persisted < 5 ∧ 5 ≤ b.issued ∧ b.issued < 6 ∧ 3 ≤ b.persisted ∧ max b.drained b.persisted < 4 ∧
       3 ≤ max b.drained b.persisted) ∧
    (tRun.bookAt 0).st ≠ .open_ ∧ (tRun.sqAt 1).enabled = false := by decide +kernel

/-- Ring 0 with one slot ahead of its fetch index, and a read of it in flight. -/
def tFetch (rs : List Read) (live : Bool) : State :=
  { tRun with sq := [(0, { tSq with tail := 1 })], reads := rs, slices := [(0, if live then tSlice else { tSlice with live := [] })] }
def tFetchRead : Read := { tRead (.fetch 0) 64 with addr := 0x10000, master := masterFetch 0 }
/-- A descriptor of slot 0: opcode, class, generation, length. -/
def tDesc (op cls gen len : Nat) : Bytes := tPut 64 [(0, leBytes 2 op), (2, [1]), (3, leBytes 1 cls), (4, leBytes 1 gen), (0xE, leBytes 2 len)]

theorem witness_Fetching :
    (let s := tFetch [] true
     s.fetchRoom 0 = 1 ∧ s.fetchTurn 0 = true ∧ (s.hostRead (.fetch 0) (masterFetch 0) 0 .fetch 0x10000 64 false).2 = true) ∧
    tRun.fetchRoom 0 = 0 ∧
    (let s := tFetch [] false
     s.fetchRoom 0 = 1 ∧ s.fetchTurn 0 = true ∧ (s.hostRead (.fetch 0) (masterFetch 0) 0 .fetch 0x10000 64 false).2 = false) ∧
    (∀ retry, let r := { tFetchRead with retry := retry }
     let s := tFetch [{ r with id := 2 }, r, { r with id := 4 }] true
     (s.fetchReads 0)[1]? = some r ∧ r.discard = false ∧ r.failedAt = none ∧ ((s.fetchReads 0).map Read.id).Nodup) ∧
    (let r := { tFetchRead with failedAt := some (60000 - 5760) }
     let s := tFetch [r] true
     (s.fetchReads 0)[0]? = some r ∧ r.discard = false ∧ (60000 - 5760) + 5760 ≤ s.now ∧ s.canRead r.master = true ∧
       (let u := s.fwRegion r.master r.addr r.len
        (u.readTlps r.master 0 .fetch (u.parts r.master 0 r.addr r.len)).2 = none)) ∧
    (∀ p ∈ [(0x8000, 2, 1, none, true), (0x8000, 2, 2, some (2, Status.stale), true), (0xFFFF, 0, 1, some (3, .malformed), true)],
     let s := tFetch [tFetchRead] true
     let d := tDesc p.1 p.2.1 p.2.2.1 16
     (s.fetchReads 0).head? = some tFetchRead ∧ tFetchRead.failedAt = none ∧ tFetchRead.preUnfence = false ∧ s.pwr.flush = none ∧ (s.sqAt 0).carry = [] ∧
       d.length = 64 ∧ fieldAt d 2 1 = 1 ∧ (tFetchRead.addr - (s.sqAt 0).base) / 64 < (s.sqAt 0).size ∧ (s.sqAt 0).fenced = false ∧
       headerFail (s.sqAt 0).size (s.sliceAt 0).gen (s.newWork 0 0 1 d) = p.2.2.2.1 ∧ s.opcodeRuns p.1 = true) ∧
    (let s := { tFetch [tFetchRead] true with tamper := { Tamper.reset with state := .bittern } }
     headerFail (s.sqAt 0).size (s.sliceAt 0).gen (s.newWork 0 0 1 (tDesc 0x8000 2 1 16)) = none ∧ s.opcodeRuns 0x8000 = false) ∧
    ({ tSq with fenced := true } : Sq).fenced = true ∧
    Starts (tOn tRun (tW 0 1 0 0 .routed [])) 0 0 (tW 0 1 0 0 .routed []) := by
  refine ⟨by decide +kernel, by decide +kernel, by decide +kernel, ?_, by decide +kernel, ?_, by decide +kernel, rfl, starts_of (by decide +kernel)⟩
  · intro b; cases b <;> decide +kernel
  · intro n h; fin_cases h <;> decide +kernel

def tCpl (st : Status) : Cpl :=
  { status := st, result := [], late := false, redo := false, rcpt := false, opcode := 0x8000, tag := 7 }
def tDoneW : Work := { tW 0x8000 1 0 0x30 .done [] with cpl := some (tCpl .ok) }

theorem witness_Completions :
    (let s := tOn tRun tDoneW
     s.work.find? (fun v => v.ring == 0) = some tDoneW ∧ tDoneW.isDone = true ∧ s.drainedWork 5 = true ∧
       (s.sliceAt 0).gen = tDoneW.gen ∧ s.commitReady tDoneW = true ∧ (s.cqAt 0).stalled = false ∧ s.canMaster (masterCq 0) = true ∧
       (s.hostWrite (masterCq 0) 0 .completion none 0x20000 (entryOf tDoneW (tCpl .ok) 1 true false)).2 = true) ∧
    (let s : State := { tOn tRun tDoneW with slices := [(0, { tSlice with live := [] })] }
     (s.hostWrite (masterCq 0) 0 .completion none 0x20000 (entryOf tDoneW (tCpl .ok) 1 true false)).2 = false) ∧
    (let s : State := { tOn tRun tDoneW with slices := [(0, { tSlice with gen := 2 })] }
     (s.sliceAt 0).gen ≠ tDoneW.gen ∧ tDoneW.commit = none) ∧
    (let w := { tDoneW with flagF := true, cpl := some (tCpl .fault) }
     w ∈ (tOn tRun w).work ∧ w.flagFails = true) ∧
    (let s : State := { tOn tRun tDoneW with cq := [(0, { tCq with stalled := true, stallAt := 60000 - 5760 })] }
     (s.cqAt 0).stalled = true ∧ (s.cqAt 0).stallAt + 5760 ≤ s.now ∧ s.canMaster (masterCq 0) = true) ∧
    (∀ masked, let s0 : State := { tRun with sq := [(0, { tSq with modSince := some 59000, modTime := 1000 })] }
     let s := s0.setVector 0 { Vector.reset with masked := masked, addr := 0x1000 }
     (s.sqAt 0).modSince = some 59000 ∧ (s.sqAt 0).modTime ≠ 0 ∧ 59000 + (s.sqAt 0).modTime ≤ s.now ∧ (s.sqAt 0).noint = false ∧
       s.linkOpen = true ∧ s.silent (s.vectorAt (s.sqAt 0).vector) = masked) := by
  refine ⟨by decide +kernel, by decide +kernel, by decide +kernel, by decide +kernel, by decide +kernel, ?_⟩
  intro b; cases b <;> decide +kernel

/-- RING_SEL names a ring that is not enabled, or ring 0. -/
def tSel (kind : Bool) (k : Nat) : State :=
  { tRun with hregs := { tRun.hregs with ringSel := k, ringKind := kind }, sq := [(0, tSq), (1, { Sq.reset with base := 0x30000 })] }

theorem witness_RingConfiguration :
    (tSel false 1).regWritable 0x020010 = true ∧
    (let s := tSel false 1
     (0x106 : Nat).testBit 8 = true ∧ (s.sqAt 1).enabled = false ∧ (s.sqAt 1).busy = false ∧
       (s.setSq 1 { s.sqAt 1 with sizeLog2 := 6, slice := 0 }).sqEnableErr 1 = 0 ∧
       (s.setSq 1 { s.sqAt 1 with sizeLog2 := 5, slice := 0 }).sqEnableErr 1 ≠ 0) ∧
    (let s := tSel true 1
     (s.cqAt 1).enabled = false ∧ (s.setCq 1 { s.cqAt 1 with sizeLog2 := 16, slice := 0 }).cqEnableErr 1 = 0 ∧
       (s.setCq 1 { s.cqAt 1 with sizeLog2 := 17, slice := 0 }).cqEnableErr 1 ≠ 0) ∧
    (let s := tSel false 0
     ((s.sqAt 0).sizeLog2 : Nat).testBit 8 = false ∧ (s.sqAt 0).enabled = true ∧ (s.sqAt 0).busy = false ∧ (s.sqAt 0).slice = 0) ∧
    (let s := tSel true 0
     ((s.cqAt 0).sizeLog2 : Nat).testBit 8 = false ∧ (s.cqAt 0).enabled = true ∧ (s.cqAt 0).slice = 0 ∧ s.cqBound 0 = true ∧
       ({ s with sq := [] } : State).cqBound 0 = false) ∧
    (let s : State := { tRun with sq := [(0, { tSq with busy := true })] }
     (s.sqAt 0).busy = true ∧ s.work = [] ∧ s.fetchReads 0 = []) := by decide +kernel

/-! The host side: resets, slices, windows, master MPUs, reads. -/

theorem witness_HostResets : tRun.pwr.starting = true ∧ tRun.pwr.flush = none := by decide +kernel

def tSliceIn (x : Slice) : State := { tRun with slices := [(0, x)], sq := [], cq := [] }

theorem witness_SliceCommands :
    (∀ st ∈ [SliceState.free, .active, .quiescing], let s := tSliceIn { tSlice with st := st }
     s.regWritable (sliceOff 0 0) = true ∧ (s.sliceAt 0).st = st ∧ s.activateErr 0 = 0 ∧ s.bookExists 0 = false ∧ (s.bookAt 0).accepted = false) ∧
    ({ tLedger with sq := [] } : State).bookExists 0 = true ∧
    (∀ removing, let s := tSliceIn { tSlice with st := .resetting, removing := removing }
     (s.sliceAt 0).st = .resetting ∧ (s.sliceAt 0).retiring = false ∧ s.oldWorkGone 0 = true ∧ (s.sliceAt 0).removing = removing) ∧
    (let s := tSliceIn { tSlice with st := .resetting, removing := true, retiring := true }
     (s.sliceAt 0).retiring = true ∧ s.oldAccessesRetired 0 = true) ∧
    Twf Window.reset tSlice.live := by
  refine ⟨?_, by decide +kernel, ?_, by decide +kernel, by decide +kernel, by
    intro e h
    obtain rfl := List.mem_singleton.mp h
    decide +kernel⟩
  · intro n h; fin_cases h <;> decide +kernel
  · intro b; cases b <;> decide +kernel

theorem witness_SliceRegisters :
    (∀ o ∈ [0x08, 0x0C, 0x1C, 0x30, 0x3C], tRun.regWritable (sliceOff 0 o) = true) ∧
    (let s := tSliceIn { tSlice with st := .free }
     (s.sliceAt 0).st = .free ∧ (s.bookAt 0).counts = false ∧ s.tallyLines < 2 ^ 19) ∧ (tRun.sliceAt 0).st ≠ .free ∧
    (let s := tSliceIn { tSlice with dplEn := true, dplOn := true }
     (s.sliceAt 0).dplEn = true ∧ s.regWritable (sliceOff 0 0x30) = true) ∧ (tSliceIn { tSlice with st := .quiescing }).regWritable (sliceOff 0 0x1C) = true ∧
    ((tRun.sliceAt 0).dplEn = false ∧ (1 : Nat).testBit 0 = true ∧ tRun.rangeOk 0 0 0x80000 true = true ∧
      ({ tRun with slices := [(0, { tSlice with live := [] })] } : State).rangeOk 0 0 0x80000 true = false) := by
  refine ⟨?_, by decide +kernel, by decide +kernel, by decide +kernel, by decide +kernel, by decide +kernel⟩
  intro n h; fin_cases h <;> decide +kernel

def tMpuSel (m : Nat) (x : Mpu) : State :=
  { tRun with hregs := { tRun.hregs with mpuSel := m }, mpus := tRun.mpus.set m x, cq := [] }
def tBad : Region := { tRegion with start := 1, stop := 0 }

theorem witness_AccessControl :
    (tRun.regWritable 0x030020 = true ∧ (tRun.sliceAt 0).winBusy = false ∧ (tRun.sliceAt 0).stagedErr = 0) ∧
    (let s := tSliceIn { tSlice with staged := [(0, { en := true, r := true, w := true, base := 1, limit := 0 })] }
     (s.sliceAt 0).stagedErr ≠ 0) ∧
    (let s := tSliceIn { tSlice with winBusy := true }
     (s.sliceAt 0).winBusy = true ∧ s.oldAccessesRetired 0 = true) ∧
    (∀ m ∈ [32, 36, 43], ∀ en, let s := tMpuSel m { tMpu with en := en }
     s.mpus.length = 45 ∧ s.hregs.mpuSel = m ∧ (s.mpuAt m).en = en ∧ (s.mpuAt m).enableErr = 0 ∧ (s.bookAt 0).st = .none_ ∧
       s.cq.any (fun e => e.2.enabled) = false ∧ tRun.cq.any (fun e => e.2.enabled) = true) ∧
    (∀ o, 0x030108 ≤ o → o ≤ 0x03011C → (tMpuSel 36 tMpu).regWritable o = true) ∧
    (let s := tMpuSel 32 { tMpu with en := false, regions := [(0, tBad)] }
     (s.mpuAt 32).enableErr ≠ 0) ∧
    (let b : BufWrite := { slice := 0, work := none, addr := 0x1000, kind := .stream, data := [1] }
     let s := tMpuSel 40 { tMpu with bufwLive := true, wbuf := [b] }
     40 < s.mpus.length ∧ s.linkOpen = true ∧ (s.mpuAt 40).wbuf = [b] ∧ b.work = none) := by
  refine ⟨by decide +kernel, by decide +kernel, by decide +kernel, ?_, fun _ _ _ => rfl, by decide +kernel, by decide +kernel⟩
  intro n h b; cases b <;> fin_cases h <;> decide +kernel

def tReader (op : Nat) (r : Read) : State := { tOn tRun (tW op 1 0 0x30 (.reading 1) []) with reads := [r] }

theorem witness_HostReads :
    (let r := { tRead (.work 5 0) 368 with master := masterJournal 0 }
     let s := tReader 0x3012 r
     s.readAt 3 = some r ∧ r.kind = .work 5 0 ∧ s.workAt 5 = some (tW 0x3012 1 0 0x30 (.reading 1) []) ∧
       (tW 0x3012 1 0 0x30 (.reading 1) []).isReading = true ∧ r.discard = false ∧ r.failedAt = none ∧ r.retry = false) ∧
    (let r := { tRead (.work 5 0) 312 with master := 42, failedAt := some (60000 - 5760) }
     let s := tReader 0x8011 r
     s.readAt 3 = some r ∧ (60000 - 5760) + 5760 ≤ s.now ∧ s.canRead r.master = true ∧
       (let u := s.fwRegion r.master r.addr r.len
        (u.readTlps r.master 0 (tW 0x8011 1 0 0x30 (.reading 1) []).readTraffic (u.parts r.master 0 r.addr r.len)).2 = none)) ∧
    (∀ op ∈ [0x3031, 0x3040, 0x4010, 0x6000, 0x7010, 0x8011, 0xA001, 0xA002],
     let r := { tRead (.work 5 0) 312 with retry := true }
     let s := tReader op r
     s.readAt 3 = some r ∧ (s.workAt 5).isSome = true ∧ s.brine.entries = []) := by
  refine ⟨by decide +kernel, by decide +kernel, ?_⟩
  intro n h; fin_cases h <;> decide +kernel

/-! The whole device, the tally word, the nibble code. -/

theorem witness_StepKeepsInvariant :
    Inv State.reset ∧ (∃ t, step State.reset = .next t) ∧
      (∃ t, step { State.reset with pending := [.mainRailFail 0] } = .next t) := by
  refine ⟨⟨by decide, ⟨by decide, by decide, by decide, by decide, by decide⟩, by decide, by decide, ?_, ?_, ?_, ?_, ?_, ?_, ?_, ?_⟩, ⟨_, rfl⟩, ⟨_, rfl⟩⟩
  · intro e h; cases h
  all_goals exact ⟨.nil, by intro e h; cases h⟩

theorem witness_TallyWords : valid tFive = true ∧ toInt tFive = 5 ∧ toInt tMinus7 = -7 ∧ (-7 : Int).natAbs < 10 ^ 31 := by
  decide +kernel

theorem witness_NibbleCode : (List.replicate 32 (0 : Gf)).length = 32 := rfl

end Sys2Proof.Tests
end

section
/-! SUPPORT. The tally word (R72 to R78): packing of decimal digits, the image of a sign and a magnitude, and the one
normalised image of an integer. -/

namespace Sys2Proof.Machine
open Sys2Proof

/-! Packed decimal digits: `pack` and `unpack` undo each other on decimal nibbles. -/

theorem pack_lt (k m : Nat) : pack k m < 16 ^ k := by
  induction k generalizing m with
  | zero => exact Nat.one_pos
  | succ k ih =>
    have h := ih (m / 10)
    rw [pack, Nat.pow_succ]
    omega

theorem digitsOk_pack (k m : Nat) : digitsOk k (pack k m) = true := by
  induction k generalizing m with
  | zero => rfl
  | succ k ih =>
    have hlow : (m % 10 + 16 * pack k (m / 10)) % 16 = m % 10 := by omega
    have hhigh : (m % 10 + 16 * pack k (m / 10)) / 16 = pack k (m / 10) := by omega
    have hdigit : m % 10 < 10 := Nat.mod_lt _ (by omega)
    simp [pack, digitsOk, hlow, hhigh, ih, hdigit]

theorem unpack_pack {k m : Nat} (h : m < 10 ^ k) : unpack k (pack k m) = m := by
  induction k generalizing m with
  | zero => rw [Nat.lt_one_iff.mp h]; rfl
  | succ k ih =>
    have hlow : (m % 10 + 16 * pack k (m / 10)) % 16 = m % 10 := by omega
    have hhigh : (m % 10 + 16 * pack k (m / 10)) / 16 = pack k (m / 10) := by omega
    rw [pack, unpack, hlow, hhigh, ih (Nat.div_lt_of_lt_mul (by rwa [Nat.pow_succ, Nat.mul_comm] at h))]
    omega

theorem unpack_lt {k v : Nat} (h : digitsOk k v = true) : unpack k v < 10 ^ k := by
  induction k generalizing v with
  | zero => exact Nat.one_pos
  | succ k ih =>
    rw [digitsOk, Bool.and_eq_true, decide_eq_true_eq] at h
    have hhigh := ih h.2
    rw [unpack, Nat.pow_succ]
    omega

theorem pack_unpack {k v : Nat} (h : digitsOk k v = true) (hv : v < 16 ^ k) : pack k (unpack k v) = v := by
  induction k generalizing v with
  | zero => exact (Nat.lt_one_iff.mp hv).symm
  | succ k ih =>
    rw [digitsOk, Bool.and_eq_true, decide_eq_true_eq] at h
    have hhigh := ih h.2 (Nat.div_lt_of_lt_mul (by rwa [Nat.pow_succ, Nat.mul_comm] at hv))
    have hmod : (v % 16 + 10 * unpack k (v / 16)) % 10 = v % 16 := by omega
    have hdiv : (v % 16 + 10 * unpack k (v / 16)) / 10 = unpack k (v / 16) := by omega
    rw [unpack, pack, hmod, hdiv, hhigh]
    omega

/-! Integers of a sign and a magnitude. -/

theorem toInt_eq_signed (w : Image) : toInt w = signed (negative w) (magnitude w) := rfl

@[simp] theorem natAbs_signed (neg : Bool) (m : Nat) : (signed neg m).natAbs = m := by
  cases neg <;> simp [signed]

@[simp] theorem natAbs_toInt (w : Image) : (toInt w).natAbs = magnitude w := natAbs_signed _ _

theorem signed_neg_iff (neg : Bool) (m : Nat) : signed neg m < 0 ↔ neg = true ∧ m ≠ 0 := by
  cases neg <;> simp [signed]
  omega

/-- An integer is its magnitude with its sign. -/
theorem signed_natAbs (v : Int) : signed (decide (v < 0)) v.natAbs = v := by
  by_cases h : v < 0
  · rw [signed, if_pos (decide_eq_true h)]
    omega
  · rw [signed, if_neg (by rwa [decide_eq_true_eq])]
    omega

/-! A valid word. -/

theorem valid_iff (w : Image) : valid w = true ↔ signOk w = true ∧ digitsOk 31 (w.toNat / 16) = true := by
  rw [valid, Bool.and_eq_true]

theorem magnitude_lt {w : Image} (h : valid w = true) : magnitude w < tallyLimit := unpack_lt ((valid_iff w).mp h).2

/-- Magnitude and sign nibble make out a valid word. -/
theorem image_ext {x y : Image} (hx : valid x = true) (hy : valid y = true) (hm : magnitude x = magnitude y)
    (hs : signNib x = signNib y) : x = y := by
  have digits {w : Image} (hw : valid w = true) : w.toNat / 16 = pack 31 (magnitude w) :=
    (pack_unpack ((valid_iff w).mp hw).2 (Nat.div_lt_of_lt_mul w.isLt)).symm
  have hdiv : x.toNat / 16 = y.toNat / 16 := by rw [digits hx, digits hy, hm]
  have hmod : x.toNat % 16 = y.toNat % 16 := hs
  exact BitVec.eq_of_toNat_eq (by omega)

/-! The word of a sign and a magnitude. -/

/-- The digits of `m` with the sign code of R74, a negative zero included: what `mkImage` and `pairOf` build. -/
def signedImage (neg : Bool) (m : Nat) : Image := BitVec.ofNat 128 (16 * pack 31 m + if neg then 0xD else 0xC)

theorem mkImage_eq (neg : Bool) (m : Nat) : mkImage neg m = signedImage (neg && m != 0) m := rfl

theorem pairOf_eq (v : Int) : pairOf v =
    (signedImage (decide (v < 0)) (v.natAbs / tallyLimit), signedImage (decide (v < 0)) (v.natAbs % tallyLimit)) := rfl

theorem signedImage_toNat (neg : Bool) (m : Nat) :
    (signedImage neg m).toNat = 16 * pack 31 m + if neg then 0xD else 0xC := by
  have h : pack 31 m < 16 ^ 31 := pack_lt 31 m
  rw [signedImage, BitVec.toNat_ofNat]
  split <;> omega

@[simp] theorem signNib_signedImage (neg : Bool) (m : Nat) : signNib (signedImage neg m) = if neg then 0xD else 0xC := by
  rw [signNib, signedImage_toNat]
  split <;> omega

@[simp] theorem negative_signedImage (neg : Bool) (m : Nat) : negative (signedImage neg m) = neg := by
  cases neg <;> simp [negative]

theorem signedImage_digits (neg : Bool) (m : Nat) : (signedImage neg m).toNat / 16 = pack 31 m := by
  rw [signedImage_toNat]
  split <;> omega

@[simp] theorem valid_signedImage (neg : Bool) (m : Nat) : valid (signedImage neg m) = true := by
  refine (valid_iff _).mpr ⟨?_, ?_⟩
  · cases neg <;> simp [signOk]
  · rw [signedImage_digits]
    exact digitsOk_pack 31 m

theorem toInt_signedImage (neg : Bool) {m : Nat} (h : m < tallyLimit) : toInt (signedImage neg m) = signed neg m := by
  rw [toInt_eq_signed, negative_signedImage, magnitude, signedImage_digits, unpack_pack h]

/-! The normalised image of an integer (R77). -/

/-- The word is valid, stands for the integer and carries its sign, never a negative zero. -/
structure IsImage (r : Image) (v : Int) : Prop where
  valid : valid r = true
  value : toInt r = v
  sign : signNib r = if v < 0 then 0xD else 0xC

theorem IsImage.unique {x y : Image} {v : Int} (hx : IsImage x v) (hy : IsImage y v) : x = y := by
  refine image_ext hx.valid hy.valid ?_ (hx.sign.trans hy.sign.symm)
  rw [← natAbs_toInt, ← natAbs_toInt, hx.value, hy.value]

theorem mkImage_isImage (neg : Bool) {m : Nat} (h : m < tallyLimit) : IsImage (mkImage neg m) (signed neg m) := by
  refine ⟨by simp [mkImage_eq], ?_, ?_⟩
  · rw [mkImage_eq, toInt_signedImage _ h]
    cases neg <;> by_cases hm : m = 0 <;> simp [signed, hm]
  · rw [mkImage_eq, signNib_signedImage]
    simp only [signed_neg_iff, Bool.and_eq_true, bne_iff_ne]

theorem ofInt_of_lt {v : Int} (h : v.natAbs < 10 ^ 31) :
    ofInt v = some (mkImage (decide (v < 0)) v.natAbs) ∧ IsImage (mkImage (decide (v < 0)) v.natAbs) v := by
  refine ⟨if_pos h, ?_⟩
  have hi := mkImage_isImage (decide (v < 0)) h
  rwa [signed_natAbs] at hi

theorem ofInt_of_ge {v : Int} (h : 10 ^ 31 ≤ v.natAbs) : ofInt v = none := if_neg (Nat.not_lt.mpr h)

/-- Both words of a pair are valid and carry its sign (R84). -/
theorem pairOf_words (v : Int) : valid (pairOf v).1 = true ∧ valid (pairOf v).2 = true ∧
    signNib (pairOf v).1 = (if v < 0 then 0xD else 0xC) ∧ signNib (pairOf v).2 = signNib (pairOf v).1 := by
  simp [pairOf_eq]

/-- The two words of a pair stand for its high and its low half (R84). -/
theorem pairOf_toInt {v : Int} (h : v.natAbs < tallyLimit * tallyLimit) :
    toInt (pairOf v).1 * 10 ^ 31 + toInt (pairOf v).2 = v := by
  have hlim : (10 : Int) ^ 31 = (tallyLimit : Nat) := by simp [tallyLimit]
  have hpos : 0 < tallyLimit := by decide
  have hsplit : tallyLimit * (v.natAbs / tallyLimit) + v.natAbs % tallyLimit = v.natAbs := Nat.div_add_mod _ _
  rw [pairOf_eq, toInt_signedImage _ (Nat.div_lt_of_lt_mul h), toInt_signedImage _ (Nat.mod_lt _ hpos), hlim]
  conv_rhs => rw [← signed_natAbs v, ← hsplit]
  cases decide (v < 0) <;> simp only [signed] <;> push_cast <;> ring

/-- Settles O58: the digits of a valid word make a magnitude below 10^31, and `mkImage` builds the one normalised image
of each integer of the range. -/
theorem tallyWords : Obligations.TallyWords := by
  unfold Obligations.TallyWords
  refine ⟨fun r hr => ?_, by decide, fun v hv => ?_⟩
  · have hm : magnitude r < 10 ^ 31 := magnitude_lt hr
    rw [← natAbs_toInt] at hm
    omega
  · obtain ⟨-, hi⟩ := ofInt_of_lt hv
    exact ⟨_, hi.valid, hi.value, hi.sign, fun x h1 h2 h3 => IsImage.unique ⟨h1, h2, h3⟩ hi⟩

end Sys2Proof.Machine
end

section
/-! SUPPORT. What a decimal instruction of an Alaing core does to the core, from the value of its effect (R337, R338). -/

namespace Sys2Proof.Machine
open Sys2Proof

/-! Flags (R337). -/

/-- One more flag is set, behind the others. -/
theorem Flags.put {f g : Word} {l : List (Nat × Bool)} (h : Flags f g l) (n : Nat) (v : Bool) (hn : n < 32)
    (hl : ∀ p ∈ l, p.1 ≠ n) : Flags f (Machine.putFlag g n v) (l ++ [(n, v)]) :=
  flags_perm (flags_put h n v hn hl) (fun p => by simp [or_comm])

theorem flags_one (f : Word) (n : Nat) (v : Bool) (hn : n < 32) : Flags f (Machine.putFlag f n v) [(n, v)] :=
  (flags_nil f).put n v hn (by simp)

/-- S and Z of two truth values. -/
theorem flags_SZ (f : Word) (a b : Bool) :
    Flags f (Machine.putFlag (Machine.putFlag f flagS a) flagZ b) [(0, a), (1, b)] :=
  (flags_one f flagS a (by decide)).put flagZ b (by decide) (by simp [flagS, flagZ])

theorem flagsOf_flags (c : Core) (v : Int) : Flags c.f (c.flagsOf v).f (sz v) := flags_SZ c.f _ _

theorem flagsOfV_flags (c : Core) (v : Int) : Flags c.f ((c.flagsOf v).putFlag flagV false).f (sz v ++ [(2, false)]) :=
  (flagsOf_flags c v).put flagV false (by decide) (by simp [sz, flagV])

/-- S, Z and V of a result after C (R338). -/
theorem flagsOfV_putC_flags (c : Core) (lost : Bool) (v : Int) :
    Flags c.f (((c.putFlag flagC lost).flagsOf v).putFlag flagV false).f (sz v ++ [(2, false), (4, lost)]) := by
  have hC : Flags c.f (c.putFlag flagC lost).f [(4, lost)] := flags_one c.f flagC lost (by decide)
  have hS := hC.put flagS (decide (v < 0)) (by decide) (by simp [flagS])
  have hZ := hS.put flagZ (decide (v = 0)) (by decide) (by simp [flagS, flagZ])
  have hV := hZ.put flagV false (by decide) (by simp [flagS, flagZ, flagV])
  refine flags_perm hV (fun p => ?_)
  simp only [sz, flagS, flagZ, flagV, List.mem_append, List.mem_cons, List.not_mem_nil, or_false]
  tauto

/-! Operands that are valid pass their check (R75, R338). -/

theorem Core.withOne_valid {c : Core} {w : Word} (h : valid (c.dReg (fB w)) = true) (k : Image → Effect) :
    c.withOne w k = k (c.dReg (fB w)) := by
  simp [Core.withOne, h]

theorem Core.withTwo_valid {c : Core} {w : Word} (hb : valid (c.dReg (fB w)) = true) (hc : valid (c.dReg (fC w)) = true)
    (k : Image → Image → Effect) : c.withTwo w k = k (c.dReg (fB w)) (c.dReg (fC w)) := by
  simp [Core.withTwo, hb, hc]

/-- The value of the operand from B: a word, or with P a pair. -/
def Core.pairValue (c : Core) (w : Word) : Int :=
  if mPair w then pairInt (c.dReg (fB w)) (c.dReg (fB w + 1)) else toInt (c.dReg (fB w))

theorem Core.withPair_valid {c : Core} {w : Word} (hb : valid (c.dReg (fB w)) = true)
    (hp : mPair w = true → valid (c.dReg (fB w + 1)) = true) (k : Int → Effect) :
    c.withPair w k = k (c.pairValue w) := by
  by_cases h : mPair w = true
  · simp [Core.withPair, Core.pairValue, hb, h, hp h]
  · simp [Core.withPair, Core.pairValue, hb, h]

/-! From the effect of the instruction taken to the words of the statements. In each, `exec i s` is the step of the
instruction with opcode `op` and the given body. -/

section
variable {i : Instr} {s : State} {core op : Nat} {w : Word} {body : Core → Word → Effect}

theorem Takes.leaves_after (h : Takes s core op w) (hi : exec i s = .next (s.alaing core op body)) :
    Leaves i s core ((s.coreAt core).after (body (s.coreAt core) w) w) := by
  rw [Leaves, hi, h.leaves]

/-- An effect that goes on with other registers and flags. -/
theorem Takes.goesOn (h : Takes s core op w) (hi : exec i s = .next (s.alaing core op body)) {f : Word} {n : Nat}
    {ds : List Image} {xs : List Word} {l : List (Nat × Bool)} (hf : Flags (s.coreAt core).f f l)
    (he : body (s.coreAt core) w = ({ s.coreAt core with d := ds, x := xs, f := f } : Core).goOn n) :
    Runs i s core n ds xs l := by
  have hl := h.leaves_after hi
  rw [he] at hl
  exact ⟨f, hf, hl⟩

/-- An effect that is a decimal overflow. -/
theorem Takes.overflows (h : Takes s core op w) (hi : exec i s = .next (s.alaing core op body)) {n : Nat}
    (he : body (s.coreAt core) w = (s.coreAt core).overflow n) : Overflows i s core n w := by
  have hV := flags_one (s.coreAt core).f flagV true (by decide)
  have hl := h.leaves_after hi
  rw [he, Core.overflow, Core.trapsOverflow, flagTV] at hl
  refine ⟨fun hTV => ?_, fun hTV => ?_⟩ <;> rw [hTV] at hl <;> exact ⟨_, hV, hl⟩

/-- An effect that puts the image of `v` into D[A]. -/
theorem Takes.putsD (h : Takes s core op w) (hi : exec i s = .next (s.alaing core op body)) {r : Image} {v : Int}
    (hr : IsImage r v) {f : Word} {n : Nat} {l : List (Nat × Bool)} (hf : Flags (s.coreAt core).f f l)
    (he : body (s.coreAt core) w = ({ (s.coreAt core).setD (fA w) r with f := f } : Core).goOn n) :
    PutsD i s core n w v l :=
  ⟨r, hr.valid, hr.value, hr.sign, h.goesOn hi hf he⟩

/-- A word result with S and Z. -/
theorem Takes.putsPlain (h : Takes s core op w) (hi : exec i s = .next (s.alaing core op body)) {r : Image} {v : Int}
    (hr : IsImage r v) (he : body (s.coreAt core) w = (s.coreAt core).putPlain (fA w) r) :
    PutsD i s core 1 w v (sz v) := by
  refine h.putsD hi hr (flagsOf_flags _ v) (he.trans ?_)
  rw [Core.putPlain, hr.value]
  rfl

/-- A word result with S, Z and V, or an overflow. -/
theorem Takes.putsOrOverflows (h : Takes s core op w) (hi : exec i s = .next (s.alaing core op body)) {v : Int} {n : Nat}
    (he : body (s.coreAt core) w = (s.coreAt core).putWord (fA w) (ofInt v) n) : PutsOrOverflows i s core n w v := by
  refine ⟨fun hv => ?_, fun hv => ?_⟩
  · obtain ⟨hofInt, hr⟩ := ofInt_of_lt hv
    refine h.putsD hi hr (flagsOfV_flags _ v) (he.trans ?_)
    rw [hofInt, Core.putWord, hr.value]
    rfl
  · exact h.overflows hi (by rw [he, ofInt_of_ge hv]; rfl)

end

end Sys2Proof.Machine
end

section
/-! SUPPORT. Sums, conversions, moves and tests of an Alaing core (R338, R91, R92, R341). -/

namespace Sys2Proof.Machine
open Sys2Proof

/-! The immediate of an instruction (R334, R339). -/

theorem sImm_lt (w : Word) : (sImm w).natAbs < 10 ^ 31 := by
  have h : fImm w < 2 ^ 18 := Nat.mod_lt _ (by decide)
  rw [sImm, sext]
  split <;> omega

theorem immImage_isImage (w : Word) : IsImage (immImage w) (sImm w) := (ofInt_of_lt (sImm_lt w)).2

/-! Sign, magnitude and normalisation. -/

theorem negated_isImage {a : Image} (h : valid a = true) :
    IsImage (mkImage (decide (0 < toInt a)) (magnitude a)) (-toInt a) := by
  have hi := (ofInt_of_lt (v := -toInt a) (by rw [Int.natAbs_neg, natAbs_toInt]; exact magnitude_lt h)).2
  simpa only [Int.natAbs_neg, natAbs_toInt, Int.neg_neg_iff_pos] using hi

theorem absolute_isImage {a : Image} (h : valid a = true) : IsImage (mkImage false (magnitude a)) (toInt a).natAbs := by
  rw [natAbs_toInt]
  exact mkImage_isImage false (magnitude_lt h)

theorem normal_isImage {a : Image} (h : valid a = true) : IsImage (normal a) (toInt a) :=
  mkImage_isImage (negative a) (magnitude_lt h)

/-! Binary integers over a group of X registers (R91, R92, R326). -/

/-- Bits above a field do not reach it. -/
theorem emod_ediv_emod (v : Int) {a b c : Int} (ha : 0 < a) : v % (a * (b * c)) / a % b = v / a % b := by
  have hsplit : v % (a * (b * c)) = v + a * (b * -(c * (v / (a * (b * c))))) := by
    rw [Int.emod_def]
    ring
  rw [hsplit, Int.add_mul_ediv_left _ _ ha.ne', Int.add_mul_emod_self_left]

/-- The 32-bit word at position `k` of the two's-complement form of `v`. -/
theorem word_of_ofInt {n : Nat} (k : Nat) (v : Int) (hk : 32 * k + 32 ≤ n) :
    BitVec.ofNat 32 ((BitVec.ofInt n v).toNat / 2 ^ (32 * k)) = BitVec.ofInt 32 (v / 2 ^ (32 * k)) := by
  obtain ⟨e, rfl⟩ := Nat.exists_eq_add_of_le hk
  have hcast (v : Int) (m : Nat) : ((v % (2 ^ m : Nat)).toNat : Int) = v % 2 ^ m := by
    rw [Int.toNat_of_nonneg (Int.emod_nonneg _ (by positivity)), Nat.cast_pow, Nat.cast_ofNat]
  apply BitVec.eq_of_toNat_eq
  rw [BitVec.toNat_ofNat, BitVec.toNat_ofInt, BitVec.toNat_ofInt]
  refine Int.ofNat_inj.mp ?_
  rw [Int.natCast_mod, Int.natCast_div, hcast, hcast, Nat.cast_pow, Nat.cast_pow, Nat.cast_ofNat, pow_add, pow_add, mul_assoc]
  exact emod_ediv_emod v (by positivity)

/-- Words 0 and 1 of `v` in two X registers. -/
theorem setXGroup_two (c : Core) (r : Nat) (v : Int) : c.setXGroup r 2 (BitVec.ofInt 64 v).toNat =
    { c with x := (c.x.set r (BitVec.ofInt 32 (v / 2 ^ (32 * 0)))).set (r + 1) (BitVec.ofInt 32 (v / 2 ^ (32 * 1))) } := by
  rw [← word_of_ofInt (n := 64) 0 v (by decide), ← word_of_ofInt (n := 64) 1 v (by decide), Nat.mul_zero, Nat.pow_zero,
    Nat.div_one]
  rfl

/-- Words 0 to 3 of `v` in four X registers. -/
theorem setXGroup_four (c : Core) (r : Nat) (v : Int) : c.setXGroup r 4 (BitVec.ofInt 128 v).toNat =
    { c with x := (((c.x.set r (BitVec.ofInt 32 (v / 2 ^ (32 * 0)))).set (r + 1) (BitVec.ofInt 32 (v / 2 ^ (32 * 1)))).set
      (r + 2) (BitVec.ofInt 32 (v / 2 ^ (32 * 2)))).set (r + 3) (BitVec.ofInt 32 (v / 2 ^ (32 * 3))) } := by
  simp only [← word_of_ofInt (n := 128) 0 v (by decide), ← word_of_ofInt (n := 128) 1 v (by decide),
    ← word_of_ofInt (n := 128) 2 v (by decide), ← word_of_ofInt (n := 128) 3 v (by decide), Core.setXGroup, Core.setX,
    Nat.div_div_eq_div_mul, ← Nat.pow_add, Nat.add_assoc, Nat.reduceMul, Nat.reduceAdd, Nat.pow_zero, Nat.div_one]

theorem xGroup_two (c : Core) (r : Nat) :
    c.xGroup r 2 = (c.xReg r).toNat * 2 ^ (32 * 0) + (c.xReg (r + 1)).toNat * 2 ^ (32 * 1) := by
  simp only [Core.xGroup]
  omega

theorem xGroup_four (c : Core) (r : Nat) :
    c.xGroup r 4 = (c.xReg r).toNat * 2 ^ (32 * 0) + (c.xReg (r + 1)).toNat * 2 ^ (32 * 1) +
      (c.xReg (r + 2)).toNat * 2 ^ (32 * 2) + (c.xReg (r + 3)).toNat * 2 ^ (32 * 3) := by
  simp only [Core.xGroup, Nat.add_assoc, Nat.reduceAdd]
  omega

/-! One nibble of a word replaced (R338). -/

/-- The digit of weight `u` of `x` replaced: the parts below and above it stay. -/
theorem splice_eq (x u k : Nat) :
    x - x / u % 16 * u + k % 16 * u = x % u + (x / (u * 16) * 16 + k % 16) * u := by
  have hlow : u * (x / u) + x % u = x := Nat.div_add_mod x u
  have hhigh : 16 * (x / u / 16) + x / u % 16 = x / u := Nat.div_add_mod (x / u) 16
  rw [← Nat.div_div_eq_div_mul, Nat.sub_eq_of_eq_add (c := x % u + x / u / 16 * 16 * u)]
  · ring
  · conv_lhs => rw [← hlow, ← hhigh]
    ring

/-- The new word from the weight of its nibble up, and below it. -/
theorem splice_parts (x k : Nat) {u : Nat} (hu : 0 < u) :
    (x - x / u % 16 * u + k % 16 * u) / u = x / (u * 16) * 16 + k % 16 ∧
      (x - x / u % 16 * u + k % 16 * u) % u = x % u := by
  rw [splice_eq, Nat.add_mul_div_right _ _ hu, Nat.div_eq_of_lt (Nat.mod_lt x hu), Nat.zero_add, Nat.add_mul_mod_self_right,
    Nat.mod_mod]
  exact ⟨rfl, rfl⟩

theorem splice_above (x k : Nat) {u : Nat} (hu : 0 < u) :
    (x - x / u % 16 * u + k % 16 * u) / (u * 16) = x / (u * 16) := by
  rw [← Nat.div_div_eq_div_mul, (splice_parts x k hu).1]
  omega

theorem setNib_toNat (v : Image) {n : Nat} (k : Nat) (hn : n < 32) : (setNib v n k).toNat =
    v.toNat - nib v n * 2 ^ (4 * (31 - n)) + k % 16 * 2 ^ (4 * (31 - n)) := by
  have hsize : 2 ^ 128 = 2 ^ (4 * n) * (2 ^ (4 * (31 - n)) * 16) := by
    rw [show 16 = 2 ^ 4 from rfl, ← Nat.pow_add, ← Nat.pow_add]
    congr 1
    omega
  rw [setNib, BitVec.toNat_ofNat, Nat.mod_eq_of_lt]
  rw [hsize, ← Nat.div_lt_iff_lt_mul (by positivity)]
  refine (splice_above v.toNat k (by positivity)).trans_lt ?_
  rw [Nat.div_lt_iff_lt_mul (by positivity), ← hsize]
  exact v.isLt

theorem nib_setNib_same (v : Image) {n : Nat} (k : Nat) (hn : n < 32) : nib (setNib v n k) n = k % 16 := by
  rw [nib, setNib_toNat v k hn]
  exact (congrArg (· % 16) (splice_parts v.toNat k (by positivity)).1).trans (by omega)

/-- A digit below the weight `u` is one of the part below it. -/
theorem digit_of_low (x a b : Nat) : x % (a * (16 * b)) / a % 16 = x / a % 16 := by
  rw [Nat.mod_mul_right_div_self, Nat.mod_mod_of_dvd _ (Nat.dvd_mul_right 16 b)]

/-- The weight of a nibble that stands above another one. -/
theorem weight_above {p q : Nat} (h : p < q) : 2 ^ (4 * q) = 2 ^ (4 * p) * (16 * 2 ^ (4 * (q - p - 1))) := by
  rw [show 16 = 2 ^ 4 from rfl, ← Nat.pow_add, ← Nat.pow_add]
  congr 1
  omega

theorem nib_setNib_other (v : Image) {n m : Nat} (k : Nat) (hn : n < 32) (hm : m < 32) (h : m ≠ n) :
    nib (setNib v n k) m = nib v m := by
  rw [nib, setNib_toNat v k hn]
  simp only [nib]
  rcases Nat.lt_or_gt_of_ne h with hlt | hgt
  · have habove := splice_above v.toNat k (u := 2 ^ (4 * (31 - n))) (by positivity)
    rw [weight_above (show 31 - n < 31 - m by omega), ← mul_assoc, ← Nat.div_div_eq_div_mul, habove, Nat.div_div_eq_div_mul]
  · have hlow := (splice_parts v.toNat k (u := 2 ^ (4 * (31 - n))) (by positivity)).2
    have hw := weight_above (show 31 - m < 31 - n by omega)
    rw [← digit_of_low _ _ (2 ^ (4 * (31 - n - (31 - m) - 1))), ← hw, hlow, hw, digit_of_low]

theorem mNibble_lt (w : Word) : mNibble w < 32 := Nat.mod_lt _ (by decide)

/-! The effect of DCVB and DCVD in each case (R91, R92). -/

theorem alDcvb_narrow {c : Core} {w : Word} (ha : valid (c.dReg (fB w)) = true) (hw : mWide w = false)
    (h : -(2 ^ 63 : Int) ≤ toInt (c.dReg (fB w)) ∧ toInt (c.dReg (fB w)) < 2 ^ 63) :
    alDcvb c w = (((c.setXGroup (fA w) 2 (BitVec.ofInt 64 (toInt (c.dReg (fB w)))).toNat).flagsOf
      (toInt (c.dReg (fB w)))).putFlag flagV false).goOn 4 := by
  simp only [alDcvb, Core.withOne_valid ha, hw, toBinary64, if_pos h]
  rfl

theorem alDcvb_overflow {c : Core} {w : Word} (ha : valid (c.dReg (fB w)) = true) (hw : mWide w = false)
    (h : ¬ (-(2 ^ 63 : Int) ≤ toInt (c.dReg (fB w)) ∧ toInt (c.dReg (fB w)) < 2 ^ 63)) : alDcvb c w = c.overflow 4 := by
  simp only [alDcvb, Core.withOne_valid ha, hw, toBinary64, if_neg h]
  rfl

theorem alDcvb_wide {c : Core} {w : Word} (ha : valid (c.dReg (fB w)) = true) (hw : mWide w = true) :
    alDcvb c w = (((c.setXGroup (fA w) 4 (BitVec.ofInt 128 (toInt (c.dReg (fB w)))).toNat).flagsOf
      (toInt (c.dReg (fB w)))).putFlag flagV false).goOn 4 := by
  simp only [alDcvb, Core.withOne_valid ha, hw, toBinary128, if_true]

theorem alDcvd_narrow {c : Core} {w : Word} (hw : mWide w = false) :
    alDcvd c w = c.putWord (fA w) (ofInt (BitVec.ofNat 64 (c.xGroup (fB w) 2)).toInt) 4 := by
  rw [alDcvd, hw]
  rfl

theorem alDcvd_wide {c : Core} {w : Word} (hw : mWide w = true) :
    alDcvd c w = c.putWord (fA w) (ofInt (BitVec.ofNat 128 (c.xGroup (fB w) 4)).toInt) 4 := by
  rw [alDcvd, hw]
  rfl

/-- Settles O4: each instruction's effect on valid operands is a word result, a register write or a flag write. -/
theorem decimalSumsAndTests : Obligations.DecimalSumsAndTests := by
  unfold Obligations.DecimalSumsAndTests
  refine ⟨fun s core w => ⟨?dadd, ?dsub, ?daddi⟩,
    fun s core w => ⟨?dcvbNarrow, ?dcvbOverflow, ?dcvbWide, ?dcvdNarrow, ?dcvdWide⟩,
    fun s core w => ⟨?dcmp, ?dneg, ?dabs, ?dmov, ?dnrm, ?dval, ?dtst, ?dli, ?dcmpi, ?dget, ?dput, ?dsel⟩⟩
  case dadd => exact fun h ha hb => h.putsOrOverflows rfl (Core.withTwo_valid ha hb _)
  case dsub => exact fun h ha hb => h.putsOrOverflows rfl (Core.withTwo_valid ha hb _)
  case daddi =>
    intro h ha
    refine h.putsOrOverflows rfl ((Core.withOne_valid ha _).trans ?_)
    rw [decAdd, (immImage_isImage w).value]
  case dcvbNarrow =>
    intro h ha hw hlow hhigh
    refine h.goesOn rfl (flagsOfV_flags _ _) ((alDcvb_narrow ha hw ⟨hlow, hhigh⟩).trans ?_)
    rw [setXGroup_two]
    rfl
  case dcvbOverflow => exact fun h ha hw hout => h.overflows rfl (alDcvb_overflow ha hw hout)
  case dcvbWide =>
    intro h ha hw
    refine h.goesOn rfl (flagsOfV_flags _ _) ((alDcvb_wide ha hw).trans ?_)
    rw [setXGroup_four]
    rfl
  case dcvdNarrow =>
    intro h hw
    refine h.putsOrOverflows rfl ((alDcvd_narrow hw).trans ?_)
    rw [xGroup_two]
    rfl
  case dcvdWide =>
    intro h hw
    refine h.putsOrOverflows rfl ((alDcvd_wide hw).trans ?_)
    rw [xGroup_four]
    rfl
  case dcmp => exact fun h ha hb => h.goesOn rfl (flags_SZ _ _ _) (Core.withTwo_valid ha hb _)
  case dneg => exact fun h ha => h.putsPlain rfl (negated_isImage ha) (Core.withOne_valid ha _)
  case dabs => exact fun h ha => h.putsPlain rfl (absolute_isImage ha) (Core.withOne_valid ha _)
  case dmov => exact fun h => h.goesOn rfl (flags_nil _) rfl
  case dnrm => exact fun h ha => h.putsPlain rfl (normal_isImage ha) (Core.withOne_valid ha _)
  case dval => exact fun h => h.goesOn rfl (flags_one _ flagI _ (by decide)) rfl
  case dtst => exact fun h ha => h.goesOn rfl (flagsOf_flags _ _) (Core.withOne_valid ha _)
  case dli => exact fun h => h.putsPlain rfl (immImage_isImage w) rfl
  case dcmpi => exact fun h ha => h.goesOn rfl (flags_SZ _ _ _) (Core.withOne_valid ha _)
  case dget => exact fun h => h.goesOn rfl (flags_nil _) rfl
  case dput =>
    exact fun h => ⟨_, nib_setNib_same _ _ (mNibble_lt w), fun n hn hne => nib_setNib_other _ _ (mNibble_lt w) hn hne,
      h.goesOn rfl (flags_nil _) rfl⟩
  case dsel => exact fun h => h.goesOn rfl (flags_nil _) rfl

end Sys2Proof.Machine
end

section
/-! SUPPORT. Products, quotients, rounding and digit shift of an Alaing core (R84 to R90, R338, R340). -/

namespace Sys2Proof.Machine
open Sys2Proof

/-! Truncated division of a sign and a magnitude (R85, R88, R90). -/

theorem tdiv_signed (neg : Bool) (m u : Nat) : (signed neg m).tdiv u = signed neg (m / u) := by
  cases neg <;> simp [signed, Int.neg_tdiv]

theorem tmod_signed (neg : Bool) (m u : Nat) : (signed neg m).tmod u = signed neg (m % u) := by
  cases neg
  · exact (Int.ofNat_tmod m u).symm
  · exact (Int.neg_tmod _ _).trans (congrArg _ (Int.ofNat_tmod m u).symm)

theorem tmod_signed_right (v : Int) (neg : Bool) (u : Nat) : v.tmod (signed neg u) = v.tmod u := by
  cases neg <;> simp [signed, Int.tmod_neg]

theorem signed_mul (neg : Bool) (m u : Nat) : signed neg m * u = signed neg (m * u) := by
  cases neg <;> simp [signed]

/-- The remainder has the sign of the dividend, whatever the sign of the divisor (R85). -/
theorem tmod_toInt (v : Int) (b : Image) : v.tmod (toInt b) = signed (decide (v < 0)) (v.natAbs % magnitude b) := by
  rw [toInt_eq_signed, tmod_signed_right, ← tmod_signed, signed_natAbs]

theorem increment_if (q : Nat) (up : Bool) : (if up then q + 1 else q) = q + if up then 1 else 0 := by
  cases up <;> rfl

/-! Multiply (R84). -/

theorem product_lt {a b : Image} (ha : valid a = true) (hb : valid b = true) :
    (toInt a * toInt b).natAbs < tallyLimit * tallyLimit := by
  rw [Int.natAbs_mul, natAbs_toInt, natAbs_toInt]
  exact Nat.mul_lt_mul'' (magnitude_lt ha) (magnitude_lt hb)

/-! Divide (R85, R86, R89). -/

/-- A divide increments its quotient: never without a rounding mode (R89). -/
def quotientUp (mode : Option Rounding) (neg : Bool) (q r u : Nat) : Bool :=
  match mode with
  | none => false
  | some m => roundsUp m neg q r u

/-- The quotient of a divide before the check of its range. -/
def quotient (mode : Option Rounding) (a : Int) (b : Image) : Int :=
  let neg := decide (a < 0) != negative b
  let q := a.natAbs / magnitude b
  signed neg (q + if quotientUp mode neg q (a.natAbs % magnitude b) (magnitude b) then 1 else 0)

theorem decDiv_zero (mode : Option Rounding) (a : Int) {b : Image} (h : magnitude b = 0) : decDiv mode a b = none :=
  if_pos h

/-- Quotient and remainder, when both are in range. -/
theorem decDiv_nonzero (mode : Option Rounding) (a : Int) {b : Image} (h : magnitude b ≠ 0) : decDiv mode a b =
    (ofInt (quotient mode a b)).bind fun x => (ofInt (a.tmod (toInt b))).map fun y => (x, y) := by
  have both (p q : Option Image) : (match p, q with | some x, some y => some (x, y) | _, _ => none) =
      p.bind fun x => q.map fun y => (x, y) := by
    cases p <;> cases q <;> rfl
  rw [tmod_toInt, quotient, ← increment_if, ← both, decDiv, if_neg h]
  rfl

theorem decDiv_overflow {mode : Option Rounding} {a : Int} {b : Image} (h : magnitude b ≠ 0)
    (hq : 10 ^ 31 ≤ (quotient mode a b).natAbs) : decDiv mode a b = none := by
  rw [decDiv_nonzero mode a h, ofInt_of_ge hq]
  rfl

theorem decDiv_some {mode : Option Rounding} {a : Int} {b : Image} (hb : valid b = true) (h : magnitude b ≠ 0)
    (hq : (quotient mode a b).natAbs < 10 ^ 31) : ∃ x y, decDiv mode a b = some (x, y) ∧
      IsImage x (quotient mode a b) ∧ IsImage y (a.tmod (toInt b)) := by
  have hr : (a.tmod (toInt b)).natAbs < 10 ^ 31 := by
    rw [tmod_toInt, natAbs_signed]
    exact (Nat.mod_lt _ (Nat.pos_of_ne_zero h)).trans (magnitude_lt hb)
  obtain ⟨hx, hxi⟩ := ofInt_of_lt hq
  obtain ⟨hy, hyi⟩ := ofInt_of_lt hr
  refine ⟨_, _, ?_, hxi, hyi⟩
  rw [decDiv_nonzero mode a h, hx, hy]
  rfl

/-- The rounding mode of a DDIV word; none without RD (R339). -/
def divMode (w : Word) : Option Rounding := if mRound w then roundingOf (mMode w) else none

/-- DDIV on valid operands that ends without a quotient. -/
theorem alDdiv_none {c : Core} {w : Word} (ha : valid (c.dReg (fB w)) = true)
    (hp : mPair w = true → valid (c.dReg (fB w + 1)) = true) (hb : valid (c.dReg (fC w)) = true)
    (h : decDiv (divMode w) (c.pairValue w) (c.dReg (fC w)) = none) : alDdiv c w = c.overflow
      (if magnitude (c.dReg (fC w)) = 0 then 3
        else 3 + quotientDigits (c.pairValue w).natAbs (magnitude (c.dReg (fC w)))) := by
  rw [divMode] at h
  rw [alDdiv, Core.withPair_valid ha hp]
  simp [hb, h]

/-- DDIV on valid operands that delivers a quotient and a remainder. -/
theorem alDdiv_some {c : Core} {w : Word} (ha : valid (c.dReg (fB w)) = true)
    (hp : mPair w = true → valid (c.dReg (fB w + 1)) = true) (hb : valid (c.dReg (fC w)) = true) {x y : Image}
    (h : decDiv (divMode w) (c.pairValue w) (c.dReg (fC w)) = some (x, y)) : alDdiv c w =
      (((((c.setD (fA w) x).setD (fA w + 1) y).flagsOf (if mPair w then c.pairValue w else toInt x)).putFlag flagV
        false)).goOn (3 + quotientDigits (c.pairValue w).natAbs (magnitude (c.dReg (fC w)))) := by
  rw [divMode] at h
  rw [alDdiv, Core.withPair_valid ha hp]
  simp [hb, h]

section
variable {s : State} {core : Nat} {w : Word} (h : Takes s core 0x05 w)
  (ha : valid ((s.coreAt core).dReg (fB w)) = true) (hp : mPair w = true → valid ((s.coreAt core).dReg (fB w + 1)) = true)
  (hb : valid ((s.coreAt core).dReg (fC w)) = true)
include h ha hp hb

theorem Takes.ddiv_zero (h0 : magnitude ((s.coreAt core).dReg (fC w)) = 0) : Overflows (.ddiv core) s core 3 w :=
  h.overflows rfl ((alDdiv_none ha hp hb (decDiv_zero _ _ h0)).trans (by rw [if_pos h0]))

theorem Takes.ddiv_overflows (h0 : magnitude ((s.coreAt core).dReg (fC w)) ≠ 0)
    (hq : 10 ^ 31 ≤ (quotient (divMode w) ((s.coreAt core).pairValue w) ((s.coreAt core).dReg (fC w))).natAbs) :
    Overflows (.ddiv core) s core
      (3 + quotientDigits ((s.coreAt core).pairValue w).natAbs (magnitude ((s.coreAt core).dReg (fC w)))) w :=
  h.overflows rfl ((alDdiv_none ha hp hb (decDiv_overflow h0 hq)).trans (by rw [if_neg h0]))

/-- Quotient and remainder of a DDIV in its register pair (R85, R337). -/
theorem Takes.ddiv_divides (h0 : magnitude ((s.coreAt core).dReg (fC w)) ≠ 0)
    (hq : (quotient (divMode w) ((s.coreAt core).pairValue w) ((s.coreAt core).dReg (fC w))).natAbs < 10 ^ 31) :
    ∃ x y, IsImage x (quotient (divMode w) ((s.coreAt core).pairValue w) ((s.coreAt core).dReg (fC w))) ∧
      IsImage y (((s.coreAt core).pairValue w).tmod (toInt ((s.coreAt core).dReg (fC w)))) ∧
      Runs (.ddiv core) s core
        (3 + quotientDigits ((s.coreAt core).pairValue w).natAbs (magnitude ((s.coreAt core).dReg (fC w))))
        (((s.coreAt core).d.set (fA w) x).set (fA w + 1) y) (s.coreAt core).x
        (sz (if mPair w then (s.coreAt core).pairValue w else toInt x) ++ [(2, false)]) := by
  obtain ⟨x, y, hxy, hx, hy⟩ := decDiv_some hb h0 hq
  exact ⟨x, y, hx, hy, h.goesOn rfl (flagsOfV_flags _ _) (alDdiv_some ha hp hb hxy)⟩

end

/-! Round and digit shift (R88, R90): a word with S, Z, V and C, or an overflow. -/

/-- What DRND and DSHF make of a result, none on overflow, and of what was lost. -/
def Core.putLossy (c : Core) (d : Nat) (r : Option Image × Bool) (cycles : Nat) : Effect :=
  match r.1 with
  | none => c.overflow cycles
  | some v => (c.putFlag flagC r.2).putWord d (some v) cycles

theorem Takes.putsLossy {i : Instr} {s : State} {core op : Nat} {w : Word} {body : Core → Word → Effect}
    (h : Takes s core op w) (hi : exec i s = .next (s.alaing core op body)) {v : Int} {lost : Bool} {n : Nat}
    (he : body (s.coreAt core) w = (s.coreAt core).putLossy (fA w) (ofInt v, lost) n) :
    (10 ^ 31 ≤ v.natAbs → Overflows i s core n w) ∧
      (v.natAbs < 10 ^ 31 → PutsD i s core n w v (sz v ++ [(2, false), (4, lost)])) := by
  refine ⟨fun hv => ?_, fun hv => ?_⟩
  · exact h.overflows hi (by rw [he, ofInt_of_ge hv]; rfl)
  · obtain ⟨hofInt, hr⟩ := ofInt_of_lt hv
    refine h.putsD hi hr (flagsOfV_putC_flags _ lost v) (he.trans ?_)
    simp only [hofInt, Core.putLossy, Core.putWord, hr.value]
    rfl

theorem alDrnd_eq {c : Core} {w : Word} {m : Rounding} (ha : valid (c.dReg (fB w)) = true)
    (hp : mPair w = true → valid (c.dReg (fB w + 1)) = true) (hm : roundingOf (mMode w) = some m) :
    alDrnd c w = c.putLossy (fA w) (decRound m (mDigits w) (c.pairValue w)) 2 := by
  rw [alDrnd, Core.withPair_valid ha hp, hm]
  rfl

theorem alDshf_eq {c : Core} {w : Word} (ha : valid (c.dReg (fB w)) = true) :
    alDshf c w = c.putLossy (fA w) (decShift (mShift w) (c.dReg (fB w))) 1 := by
  rw [alDshf, Core.withOne_valid ha]
  rfl

theorem decRound_eq (m : Rounding) (k : Nat) (v : Int) : decRound m k v =
    (ofInt (signed (decide (v < 0)) (v.natAbs / 10 ^ k +
      if roundsUp m (decide (v < 0)) (v.natAbs / 10 ^ k) (v.natAbs % 10 ^ k) (10 ^ k) then 1 else 0)),
      v.natAbs % 10 ^ k != 0) := by
  rw [← increment_if]
  rfl

theorem ten_pow_cast (k : Nat) : (10 : Int) ^ k = (10 ^ k : Nat) := by rw [Nat.cast_pow, Nat.cast_ofNat]

theorem decShift_left {k : Int} (hk : 0 ≤ k) (a : Image) : decShift k a = (ofInt (toInt a * 10 ^ k.natAbs), false) := by
  rw [decShift, if_pos hk, ten_pow_cast, toInt_eq_signed, signed_mul]

theorem decShift_right {k : Int} (hk : k < 0) (a : Image) : decShift k a =
    (ofInt ((toInt a).tdiv (10 ^ k.natAbs)), decide ((toInt a).tmod (10 ^ k.natAbs) ≠ 0)) := by
  have hlost : (toInt a).tmod (10 ^ k.natAbs : Nat) ≠ 0 ↔ magnitude a % 10 ^ k.natAbs ≠ 0 := by
    rw [← Int.natAbs_ne_zero, toInt_eq_signed, tmod_signed, natAbs_signed]
  rw [decShift, if_neg (Int.not_le.mpr hk), ten_pow_cast, decide_eq_decide.mpr hlost, toInt_eq_signed, tdiv_signed,
    decide_not]
  rfl

/-- A right shift never overflows (R90). -/
theorem tdiv_toInt_lt {a : Image} (ha : valid a = true) (k : Nat) : ((toInt a).tdiv (10 ^ k)).natAbs < 10 ^ 31 := by
  rw [ten_pow_cast, toInt_eq_signed, tdiv_signed, natAbs_signed]
  exact (Nat.div_le_self _ _).trans_lt (magnitude_lt ha)

/-- Settles O5: DMUL splits the exact product, DDIV and DRND are `decDiv` and `decRound` on the value of a word or a pair,
DSHF is a product with or a truncated quotient by a power of ten. -/
theorem decimalProductsAndRounding : Obligations.DecimalProductsAndRounding := by
  unfold Obligations.DecimalProductsAndRounding
  refine ⟨?products, ?rounding⟩
  case products =>
    intro s core w c a b into
    refine ⟨?dmul, ?ddiv⟩
    case dmul =>
      intro h ha hb
      obtain ⟨hhi, hlo, hsign, hsame⟩ := pairOf_words (toInt a * toInt b)
      exact ⟨_, _, hhi, hlo, pairOf_toInt (product_lt ha hb), hsign, hsame,
        h.goesOn rfl (flagsOf_flags _ _) (Core.withTwo_valid ha hb _)⟩
    case ddiv =>
      intro h ha hp hb v n up q
      have hup : up = quotientUp (divMode w) (decide (v < 0) != negative b) (v.natAbs / magnitude b)
          (v.natAbs % magnitude b) (magnitude b) := by
        simp only [up, divMode]
        cases mRound w <;> cases roundingOf (mMode w) <;> rfl
      have hq : q = quotient (divMode w) (c.pairValue w) b := by
        simp only [q, hup]
        rfl
      refine ⟨h.ddiv_zero ha hp hb, fun h0 hbig => h.ddiv_overflows ha hp hb h0 (hq ▸ hbig), fun h0 hfit => ?_⟩
      obtain ⟨x, y, hx, hy, hruns⟩ := h.ddiv_divides ha hp hb h0 (hq ▸ hfit)
      rw [hx.value, ← hq] at hruns
      rw [← hq] at hx
      exact ⟨x, y, hx.valid, hx.value, hx.sign, hy.valid, hy.value, hy.sign, hruns⟩
  case rounding =>
    intro s core w c a
    refine ⟨?drnd, ?dshfLeft, ?dshfRight⟩
    case drnd =>
      intro m h ha hp hm v u q
      have he := (alDrnd_eq ha hp hm).trans (congrArg (Core.putLossy _ _ · 2) (decRound_eq m (mDigits w) v))
      have hputs := h.putsLossy (i := .drnd core) rfl he
      rwa [natAbs_signed] at hputs
    case dshfLeft =>
      exact fun h ha hk => h.putsLossy rfl ((alDshf_eq ha).trans (by rw [decShift_left hk]))
    case dshfRight =>
      exact fun h ha hk => (h.putsLossy rfl ((alDshf_eq ha).trans (by rw [decShift_right hk]))).2 (tdiv_toInt_lt ha _)

end Sys2Proof.Machine
end

section
/-! SUPPORT. Binary sums, logic, shifts, products, compares and immediates of an Alaing core (R337, R343). -/

namespace Sys2Proof.Machine
open Sys2Proof

/-! S and Z of a binary result, and S, Z and C of a sum, a difference or a compare (R337). -/

theorem flagsOfWord_flags (c : Core) (v : Word) : Flags c.f (c.flagsOfWord v).f (szW v) := flags_SZ c.f _ _

/-- C is set before S and Z. -/
theorem flags_C_SZ (f : Word) (carry a b : Bool) :
    Flags f (Machine.putFlag (Machine.putFlag (Machine.putFlag f flagC carry) flagS a) flagZ b)
      [(0, a), (1, b), (4, carry)] := by
  have hC : Flags f (Machine.putFlag f flagC carry) [(4, carry)] := flags_one f flagC carry (by decide)
  have hS := hC.put flagS a (by decide) (by simp [flagS])
  have hZ := hS.put flagZ b (by decide) (by simp [flagS, flagZ])
  refine flags_perm hZ (fun p => ?_)
  simp only [flagS, flagZ, List.mem_append, List.mem_cons, List.not_mem_nil, or_false]
  tauto

/-! From the effect of a binary instruction to the words of the statements. -/

section
variable {i : Instr} {s : State} {core op : Nat} {w : Word} {body : Core → Word → Effect}

/-- A binary result with S and Z. -/
theorem Takes.putsX (h : Takes s core op w) (hi : exec i s = .next (s.alaing core op body)) {v : Word} {n : Nat}
    (he : body (s.coreAt core) w = (s.coreAt core).putX w v n) : PutsX i s core n w v (szW v) :=
  h.goesOn hi (flagsOfWord_flags _ v) he

/-- A binary result with S, Z and C. -/
theorem Takes.putsX_carry (h : Takes s core op w) (hi : exec i s = .next (s.alaing core op body)) {v : Word}
    {carry : Bool} {n : Nat} (he : body (s.coreAt core) w = ((s.coreAt core).putFlag flagC carry).putX w v n) :
    PutsX i s core n w v (szW v ++ [(4, carry)]) :=
  h.goesOn hi (flags_C_SZ _ carry _ _) he

/-- A word for X[A], the flags unchanged. -/
theorem Takes.putsX_plain (h : Takes s core op w) (hi : exec i s = .next (s.alaing core op body)) {v : Word} {n : Nat}
    (he : body (s.coreAt core) w = ((s.coreAt core).setX (fA w) v).goOn n) : PutsX i s core n w v [] :=
  h.goesOn hi (flags_nil _) he

/-- A compare: S as signed numbers, C as unsigned ones. -/
theorem Takes.comparesX (h : Takes s core op w) (hi : exec i s = .next (s.alaing core op body)) {a b : Word}
    (he : body (s.coreAt core) w = (s.coreAt core).compareX a b) :
    Runs i s core 1 (s.coreAt core).d (s.coreAt core).x
      [(0, decide (a.toInt < b.toInt)), (1, decide (a = b)), (4, decide (a.toNat < b.toNat))] := by
  rw [← decide_eq_decide.mpr (BitVec.toInt_inj (x := a) (y := b))]
  exact h.goesOn hi (flags_C_SZ _ (borrowOf a b) _ _) he

end

/-- The upper immediate of XLUI (R343). -/
theorem uImmW_shiftLeft (w : Word) (n : Nat) : uImmW w <<< n = BitVec.ofNat 32 (fImm w * 2 ^ n) := by
  apply BitVec.eq_of_toNat_eq
  simp [uImmW, Nat.shiftLeft_eq]

/-- Settles O2: each instruction's effect is a result with S and Z, with or without C, a plain register write, or a
compare. -/
theorem binaryInstructions : Obligations.BinaryInstructions := by
  unfold Obligations.BinaryInstructions
  intro s core w
  refine ⟨?xadd, ?xsub, ?xand, ?xor, ?xxor, ?xshl, ?xshr, ?xsar, ?xmul, ?xaddi, ?xori, ?xandi, ?xli,
    ?xlui, ?xcmp, ?xcmpi⟩
  case xadd => exact fun h => h.putsX_carry rfl rfl
  case xsub => exact fun h => h.putsX_carry rfl rfl
  case xand => exact fun h => h.putsX rfl rfl
  case xor => exact fun h => h.putsX rfl rfl
  case xxor => exact fun h => h.putsX rfl rfl
  case xshl => exact fun h => h.putsX rfl rfl
  case xshr => exact fun h => h.putsX rfl rfl
  case xsar => exact fun h => h.putsX rfl rfl
  case xmul => exact fun h => h.putsX rfl rfl
  case xaddi => exact fun h => h.putsX_carry rfl rfl
  case xori => exact fun h => h.putsX rfl rfl
  case xandi => exact fun h => h.putsX rfl rfl
  case xli => exact fun h => h.putsX_plain rfl rfl
  case xlui => exact fun h => h.putsX_plain rfl (by rw [← uImmW_shiftLeft]; rfl)
  case xcmp => exact fun h => h.comparesX rfl rfl
  case xcmpi => exact fun h => h.comparesX rfl rfl

end Sys2Proof.Machine
end

section
/-! SUPPORT. The upkeep of the non-volatile store: what a write of a record's pages leaves of the store, the stores of
counters, the configuration of USER partitions and the scrub (R470, R474, R485, R487, R488, R490, R495). -/

namespace Sys2Proof.Machine
open Sys2Proof

/-! Writing pages. -/

/-- The page maps differ in the records `recs` alone; partitions and counters stand as they were. -/
structure Nv.Rewrites (recs : Nat → Prop) (n m : Nv) : Prop where
  copy : ∀ k, ¬ recs k → m.copy k = n.copy k
  parts : m.parts = n.parts
  counters : m.counters = n.counters

section
variable {recs : Nat → Prop} {n m l : Nv}

theorem Nv.Rewrites.refl (n : Nv) : Nv.Rewrites recs n n := ⟨fun _ _ => rfl, rfl, rfl⟩

theorem Nv.Rewrites.trans (h : Nv.Rewrites recs n m) (k : Nv.Rewrites recs m l) : Nv.Rewrites recs n l :=
  ⟨fun i hi => (k.copy i hi).trans (h.copy i hi), k.parts.trans h.parts, k.counters.trans h.counters⟩

theorem Nv.Rewrites.foldl {α : Type} {f : Nv → α → Nv} {xs : List α}
    (hf : ∀ m, ∀ x ∈ xs, Nv.Rewrites recs m (f m x)) : Nv.Rewrites recs n (xs.foldl f n) :=
  List.foldlRecOn xs f (motive := Nv.Rewrites recs n) (.refl n) fun m h x hx => h.trans (hf m x hx)

/-- An entry of a table with defaults of its own for each key, elsewhere than at the write. -/
theorem tget_tput_elsewhere {α : Type} [DecidableEq α] (d e : α) (t : Table α) {k a : Nat} (v : α) (h : a ≠ k) :
    tget d (tput e t k v) a = tget d t a := by
  unfold tput
  split
  · exact tget_tdel_other d t h
  · exact tget_tins_other d v t h

@[simp] theorem Nv.setCopy_copy_same (n : Nv) (key : Nat) (l : List Nat) : (n.setCopy key l).copy key = l :=
  tget_tput_same ..

theorem Nv.setCopy_copy_other (n : Nv) {key k : Nat} (l : List Nat) (h : k ≠ key) :
    (n.setCopy key l).copy k = n.copy k :=
  tget_tput_elsewhere _ _ _ _ h

theorem Nv.setCopy_rewrites (n : Nv) {key : Nat} (l : List Nat) (h : recs key) :
    Nv.Rewrites recs n (n.setCopy key l) :=
  ⟨fun _ hk => Nv.setCopy_copy_other n l fun e => hk (e ▸ h), rfl, rfl⟩

theorem Nv.freePage_rewrites (n : Nv) (p : Nat) : Nv.Rewrites recs n (n.freePage p) := ⟨fun _ _ => rfl, rfl, rfl⟩

theorem Nv.adopt_rewrites (n : Nv) {key : Nat} (p : Nat) (rest : List Nat) (h : recs key) :
    Nv.Rewrites recs n (n.adopt key p rest) :=
  (Nv.Rewrites.foldl fun m q _ => m.freePage_rewrites q).trans (Nv.setCopy_rewrites _ _ h)

/-- A write of a physical page changes its entry of the array, and may retire it (R495). -/
theorem Nv.writePhys_eq (n : Nv) (p : Nat) (v : NvPage) : ∃ retired worn,
    n.writePhys p v =
      { n.setPage p { v with wear := satAdd 0xFFFFFFFF (n.page p).wear 1 } with retired := retired, worn := worn } := by
  unfold Nv.writePhys
  dsimp only
  split
  · exact ⟨_, _, rfl⟩
  · exact ⟨_, _, rfl⟩

theorem Nv.writePhys_rewrites (n : Nv) (p : Nat) (v : NvPage) : Nv.Rewrites recs n (n.writePhys p v) := by
  obtain ⟨retired, worn, h⟩ := n.writePhys_eq p v
  rw [h]
  exact ⟨fun _ _ => rfl, rfl, rfl⟩

@[simp] theorem Nv.setPage_page_same (n : Nv) (p : Nat) (v : NvPage) : (n.setPage p v).page p = v := tget_tput_same ..

/-- A page that has been written has the bad codewords of what was written. -/
theorem Nv.writePhys_badCw (n : Nv) (p : Nat) (v : NvPage) : ((n.writePhys p v).page p).badCw = v.badCw := by
  obtain ⟨retired, worn, h⟩ := n.writePhys_eq p v
  rw [h]
  have held := n.setPage_page_same p { v with wear := satAdd 0xFFFFFFFF (n.page p).wear 1 }
  exact (congrArg NvPage.badCw held).trans rfl

end

/-- Records of `recs` may have been rewritten; partitions, counters, books, work and waiting register writes stand. -/
structure State.Rewrites (recs : Nat → Prop) (s t : State) : Prop where
  nv : Nv.Rewrites recs s.nv t.nv
  hregs : t.hregs = s.hregs
  books : t.books = s.books
  work : t.work = s.work

section
variable {recs : Nat → Prop} {s t u : State}

theorem State.Rewrites.refl (s : State) : State.Rewrites recs s s := ⟨.refl _, rfl, rfl, rfl⟩

theorem State.Rewrites.trans (h : State.Rewrites recs s t) (k : State.Rewrites recs t u) : State.Rewrites recs s u :=
  ⟨h.nv.trans k.nv, k.hregs.trans h.hregs, k.books.trans h.books, k.work.trans h.work⟩

/-- Only the store has changed. -/
theorem State.Rewrites.ofNv {n : Nv} (h : Nv.Rewrites recs s.nv n) : State.Rewrites recs s { s with nv := n } :=
  ⟨h, rfl, rfl, rfl⟩

theorem State.Rewrites.counterAt (h : State.Rewrites recs s t) (k : Nat) : t.counterAt k = s.counterAt k :=
  congrArg (tget Counter.issued · k) h.nv.counters

theorem State.Rewrites.partAt (h : State.Rewrites recs s t) (k : Nat) : t.partAt k = s.partAt k :=
  congrArg (tget UserPart.none_ · k) h.nv.parts

/-- One page of a new copy: without a spare only the log changes. -/
theorem State.newCopy_rewrites (s : State) {e : WbEntry} (h : recs e.key) :
    State.Rewrites recs s (s.newCopy e).1 := by
  unfold State.newCopy
  dsimp only
  split
  · exact ⟨.refl _, rfl, rfl, rfl⟩
  · split
    · exact .ofNv (Nv.writePhys_rewrites ..)
    · split
      · exact .ofNv (Nv.Rewrites.foldl fun m p _ => m.freePage_rewrites p)
      · exact .ofNv ((Nv.adopt_rewrites _ _ _ h).trans (Nv.writePhys_rewrites ..))

theorem State.writeEntry_rewrites (s : State) {e : WbEntry} (h : recs e.key) :
    State.Rewrites recs s (s.writeEntry e).1 := by
  unfold State.writeEntry
  split
  · exact s.newCopy_rewrites h
  · split
    · split
      · exact .refl s
      · exact s.newCopy_rewrites h
    · dsimp only
      split
      · exact .refl s
      · split
        · exact s.newCopy_rewrites h
        · exact .ofNv (Nv.writePhys_rewrites ..)

theorem State.recordEntries_key {s : State} {key : Nat} {img : List RecImage} {sync : List CommitWait} {e : WbEntry}
    (h : e ∈ s.recordEntries key img sync) : e.key = key := by
  obtain ⟨i, -, rfl⟩ := List.mem_map.mp h
  rfl

/-- A record written in the command itself, without an image (log entry 23). -/
theorem State.nvPut_rewrites (s : State) (part rec : Nat) :
    State.Rewrites (· = recKey part rec) s (s.nvPut part rec) := by
  have begun : State.Rewrites (· = recKey part rec) s (s.commitBuffer.takeStep .nv) :=
    ⟨⟨fun _ _ => rfl, rfl, rfl⟩, rfl, rfl, rfl⟩
  have written := List.foldlRecOn (s.recordEntries (recKey part rec) [] [])
    (fun (r : State × Bool) e => if r.2 then r.1.writeEntry e else r) (b := (s.commitBuffer.takeStep .nv, true))
    (motive := fun r => State.Rewrites (· = recKey part rec) s r.1) begun (fun r h e he => by
      split
      · exact h.trans (r.1.writeEntry_rewrites (State.recordEntries_key he))
      · exact h)
  unfold State.nvPut State.nvNow
  dsimp only
  split
  · exact written
  · exact written

end

/-! A unit's step. -/

theorem State.stepOf_served {s : State} {u : UnitId} {cls : Nat} (h : s.mayStep u cls = true) (f : State → State) :
    s.stepOf u cls f = f (s.takeStep u) := if_pos h

theorem State.stepOf_unserved {s : State} {u : UnitId} {cls : Nat} (h : s.mayStep u cls = false) (f : State → State) :
    s.stepOf u cls f = s := if_neg (by simp [h])

/-! The stores of counters (R483, R485, R487). -/

/-- The base codeword that a store writes over the base `b`. -/
def CntWord.next (b : CntWord) (v : Nat) : CntWord := { v := v, epoch := (b.epoch + 1) % 2 ^ 32, ok := true }

/-- An epoch is not the one after the next. -/
theorem epoch_ne_next_next (e : Nat) : (e == ((e + 1) % 2 ^ 32 + 1) % 2 ^ 32) = false := by
  rw [beq_eq_false_iff_ne]
  omega

/-- The base is the codeword that it names, and is correctable. -/
theorem Counter.base_eq {c : Counter} {isA : Bool} {b : CntWord} (h : c.base = some (isA, b)) :
    b = (if isA then c.baseA else c.baseB) ∧ b.ok = true := by
  unfold Counter.base at h
  split at h
  · next hok =>
    rw [Bool.and_eq_true] at hok
    split at h
    · cases h; exact ⟨rfl, hok.1⟩
    · cases h; exact ⟨rfl, hok.2⟩
  · split at h
    · next hA => cases h; exact ⟨rfl, hA⟩
    · split at h
      · next hB => cases h; exact ⟨rfl, hB⟩
      · cases h

theorem Counter.store_of_stored {c : Counter} {v : Nat} (h : c.stored = some v) : c.store v = c := by
  unfold Counter.store
  split
  · rfl
  · exact if_pos h

theorem Counter.store_of_base {c : Counter} {v : Nat} {isA : Bool} {b : CntWord} (hb : c.base = some (isA, b))
    (hv : c.stored ≠ some v) :
    c.store v = if isA then { c with baseB := b.next v } else { c with baseA := b.next v } := by
  unfold Counter.store
  rw [hb]
  exact if_neg hv

/-- A store writes at most one base. -/
theorem Counter.store_cases (c : Counter) (v : Nat) :
    c.store v = c ∨ (∃ w, c.store v = { c with baseA := w }) ∨ ∃ w, c.store v = { c with baseB := w } := by
  unfold Counter.store
  split
  · exact .inl rfl
  · split
    · exact .inl rfl
    · dsimp only
      split
      · exact .inr (.inr ⟨_, rfl⟩)
      · exact .inr (.inl ⟨_, rfl⟩)

theorem Counter.store_value (c : Counter) (v : Nat) : (c.store v).value = c.value := by
  obtain h | ⟨w, h⟩ | ⟨w, h⟩ := c.store_cases v <;> rw [h]

theorem Counter.bank_store (c : Counter) (v epoch : Nat) : (c.store v).bank epoch = c.bank epoch := by
  obtain h | ⟨w, h⟩ | ⟨w, h⟩ := c.store_cases v <;> rw [h] <;> rfl

/-- After a store the codeword written is the base. -/
theorem Counter.base_store {c : Counter} {v : Nat} {isA : Bool} {b : CntWord} (hb : c.base = some (isA, b))
    (hv : c.stored ≠ some v) : (c.store v).base = some (!isA, b.next v) := by
  obtain ⟨he, hok⟩ := Counter.base_eq hb
  rw [Counter.store_of_base hb hv]
  cases isA with
  | true =>
    rw [if_pos rfl] at he
    subst he
    simp only [Counter.base, CntWord.next, hok, epoch_ne_next_next, Bool.and_true, Bool.false_eq_true, if_true,
      if_false, Bool.not_true]
  | false =>
    rw [if_neg Bool.false_ne_true] at he
    subst he
    simp [Counter.base, CntWord.next, hok]

/-- Neither bank copy counts for an epoch that is not its own. -/
theorem Counter.bank_none {c : Counter} {epoch : Nat} (hA : c.bankA.epoch ≠ epoch) (hB : c.bankB.epoch ≠ epoch) :
    c.bank epoch = none := by
  simp [Counter.bank, hA, hB]

/-- After a store the stored value is the value stored. -/
theorem Counter.stored_store {c : Counter} {v : Nat} {isA : Bool} {b : CntWord} (hb : c.base = some (isA, b))
    (hv : c.stored ≠ some v) (hA : c.bankA.epoch ≠ (b.next v).epoch) (hB : c.bankB.epoch ≠ (b.next v).epoch) :
    (c.store v).stored = some v := by
  have hk : (c.store v).bank (b.next v).epoch = none := (c.bank_store v _).trans (Counter.bank_none hA hB)
  simp only [Counter.stored, Counter.base_store hb hv, Option.map_some, hk]
  rfl

theorem State.writeCounter_rewrites (s : State) (n : Nat) :
    State.Rewrites (· = recKey partCounters (n / 4)) s (s.writeCounter n) := by
  unfold State.writeCounter
  dsimp only
  split
  · exact .refl s
  · split
    · exact s.newCopy_rewrites rfl
    · exact .ofNv (Nv.writePhys_rewrites ..)

/-- A store of a counter writes its new codewords, or finds the value stored. -/
theorem State.storeCounter_cases (s : State) (n : Nat) :
    (s.counterAt n).stored = some (s.counterAt n).value ∧ s.storeCounter n = s ∨
      State.Rewrites (· = recKey partCounters (n / 4)) (s.setCounter n ((s.counterAt n).store (s.counterAt n).value))
        (s.storeCounter n) := by
  unfold State.storeCounter
  dsimp only
  split
  · next h => exact .inl ⟨h, rfl⟩
  · exact .inr (State.writeCounter_rewrites _ n)

theorem State.storeCounter_same (s : State) (n : Nat) :
    (s.storeCounter n).counterAt n = (s.counterAt n).store (s.counterAt n).value := by
  obtain ⟨hv, h⟩ | h := s.storeCounter_cases n
  · rw [h, Counter.store_of_stored hv]
  · rw [h.counterAt, State.setCounter_same]

theorem State.storeCounter_other (s : State) {n k : Nat} (hk : k ≠ n) :
    (s.storeCounter n).counterAt k = s.counterAt k := by
  obtain ⟨-, h⟩ | h := s.storeCounter_cases n
  · rw [h]
  · rw [h.counterAt, State.setCounter_other _ _ hk]

theorem State.storeCounter_copy (s : State) {n key : Nat} (hk : key ≠ recKey partCounters (n / 4)) :
    (s.storeCounter n).nv.copy key = s.nv.copy key := by
  obtain ⟨-, h⟩ | h := s.storeCounter_cases n
  · rw [h]
  · exact h.nv.copy key hk

theorem State.storeCounter_books (s : State) (n : Nat) : (s.storeCounter n).books = s.books := by
  obtain ⟨-, h⟩ | h := s.storeCounter_cases n
  · rw [h]
  · exact h.books

/-- The periodic store of a counter: what is due is done once. -/
def State.storedOnce (s : State) (n : Nat) : State :=
  let t := s.storeCounter n
  { t with nv := { t.nv with storeDue := t.nv.storeDue.filter (fun x => x.1 != n) } }

theorem exec_counterPeriodicStore {s : State} {n : Nat} (h : s.nv.storeDue.any (fun x => x.1 == n) = true) :
    exec (.counterPeriodicStore n) s = .next (s.stepOf .nv background (fun s => s.storedOnce n)) :=
  congrArg Host.Outcome.next (if_pos h)

/-! Owners of counters and slices of partitions (R488, R490). -/

theorem exec_cntOwnerWrite {s : State} (h : s.regWritable 0x060044 = true) (v : Nat) :
    exec (.cntOwnerWrite v) s = .next (s.defer (.owner s.nv.cntSel (v % 65536))) :=
  congrArg Host.Outcome.next (State.onReg_of h _)

theorem State.settleOne_owner (s : State) (n owner : Nat) :
    State.Rewrites (· = recKey partCounters recOwners) (s.modCounter n (fun c => { c with owner := owner }))
      (s.settleOne (.owner n owner)) :=
  State.nvPut_rewrites _ _ _

theorem State.settleOne_part (s : State) (k slice : Nat) :
    State.Rewrites (· = recKey partSystem recUserTable) (s.modPart k (fun p => { p with slice := slice }))
      (s.settleOne (.part k slice)) :=
  State.nvPut_rewrites _ _ _

/-! NV_PART_CFG (R490). -/

/-- A partition gets its fields and the table of partitions is written; its slice changes at the boundary. -/
def State.putPart (s : State) (k slice : Nat) (p : UserPart) : State :=
  ((s.setPart k p).nvPut partSystem recUserTable).defer (.part k slice)

/-- A write of NV_PART_CFG is refused: ERR and the protocol log show why. -/
def State.refusePart (s : State) (k err : Nat) : State :=
  (s.modPart k (fun p => { p with err := err })).plogReg 13 err 0xFFFF 0x060014

theorem State.nvPut_setPart (s : State) (k : Nat) (p : UserPart) :
    State.Rewrites (· = recKey partSystem recUserTable) (s.setPart k p)
      ((s.setPart k p).nvPut partSystem recUserTable) :=
  State.nvPut_rewrites _ _ _

section
variable (s : State) (k slice : Nat) (p : UserPart)

theorem State.putPart_same : (s.putPart k slice p).partAt k = p :=
  ((s.nvPut_setPart k p).partAt k).trans (State.setPart_same ..)

theorem State.putPart_other {j : Nat} (h : j ≠ k) : (s.putPart k slice p).partAt j = s.partAt j :=
  ((s.nvPut_setPart k p).partAt j).trans (State.setPart_other _ p h)

theorem State.putPart_deferred : (s.putPart k slice p).hregs.deferred = s.hregs.deferred ++ [.part k slice] :=
  congrArg (fun r : HostRegs => r.deferred ++ [.part k slice]) (s.nvPut_setPart k p).hregs

theorem State.putPart_books : (s.putPart k slice p).books = s.books := (s.nvPut_setPart k p).books

theorem State.putPart_work : (s.putPart k slice p).work = s.work := (s.nvPut_setPart k p).work

theorem State.putPart_copy {key : Nat} (h : key ≠ recKey partSystem recUserTable) :
    (s.putPart k slice p).nv.copy key = s.nv.copy key := (s.nvPut_setPart k p).nv.copy key h

end

/-- A record loses its copy, whose pages are spares again. -/
def Nv.dropCopy (n : Nv) (e : Nat × List Nat) : Nv := (e.2.foldl Nv.freePage n).setCopy e.1 []

theorem Nv.dropCopy_rewrites {recs : Nat → Prop} (n : Nv) {e : Nat × List Nat} (h : recs e.1) :
    Nv.Rewrites recs n (n.dropCopy e) :=
  (Nv.Rewrites.foldl fun m q _ => m.freePage_rewrites q).trans (Nv.setCopy_rewrites _ _ h)

/-- The records listed have no copy any more, and one without a copy gets none. -/
theorem Nv.dropCopies_copy (n : Nv) (l : List (Nat × List Nat)) {key : Nat}
    (h : key ∈ l.map Prod.fst ∨ n.copy key = []) : (l.foldl Nv.dropCopy n).copy key = [] := by
  induction l generalizing n with
  | nil => exact h.resolve_left List.not_mem_nil
  | cons e l ih =>
    refine ih _ ?_
    by_cases he : key = e.1
    · subst he
      exact .inr (Nv.setCopy_copy_same ..)
    · have hd : (n.dropCopy e).copy key = n.copy key :=
        (n.dropCopy_rewrites (recs := (· = e.1)) rfl).copy key he
      rw [hd]
      simpa [he] using h

/-- The store without the page writes of a partition that wait. -/
def Nv.withoutWrites (n : Nv) (part : Nat) : Nv :=
  { n with wbuf := n.wbuf.filter (fun e => !(e.key / 2 ^ 20 == partUser part)),
           behind := n.behind.filter (fun e => !(e.key / 2 ^ 20 == partUser part)) }

theorem State.erasePart_nv (s : State) (part : Nat) :
    (s.erasePart part).nv =
      (s.nv.maps.filter (fun e => e.1 / 2 ^ 20 == partUser part)).foldl Nv.dropCopy (s.nv.withoutWrites part) := rfl

theorem State.erasePart_rewrites (s : State) (part : Nat) :
    State.Rewrites (fun key => key / 2 ^ 20 = partUser part) s (s.erasePart part) := by
  have without : Nv.Rewrites (fun key => key / 2 ^ 20 = partUser part) s.nv (s.nv.withoutWrites part) :=
    ⟨fun _ _ => rfl, rfl, rfl⟩
  exact ⟨without.trans (Nv.Rewrites.foldl fun m e he => m.dropCopy_rewrites (eq_of_beq (List.mem_filter.mp he).2)),
    rfl, rfl, rfl⟩

theorem userKey_part {part page : Nat} (h : page < 2 ^ 20) : userKey part page / 2 ^ 20 = partUser part := by
  unfold userKey recKey
  omega

/-- No page of a USER partition has a place in the map as shipped (log entry 77). -/
theorem shippedMap_user {part key : Nat} (h : key / 2 ^ 20 = partUser part) : shippedMap key = [] := by
  have h1 : partUser part ≠ 1 := by unfold partUser; omega
  have h3 : partUser part ≠ 3 := by unfold partUser; omega
  unfold shippedMap
  dsimp only
  rw [h, if_neg h1, if_neg (fun e => h3 e.1), if_neg (fun e => h3 e.1)]

/-- The contents of an erased partition are gone. -/
theorem State.erasePart_copy (s : State) {part key : Nat} (h : key / 2 ^ 20 = partUser part) :
    (s.erasePart part).nv.copy key = [] := by
  rw [State.erasePart_nv]
  refine Nv.dropCopies_copy _ _ ?_
  by_cases hm : key ∈ s.nv.maps.map Prod.fst
  · obtain ⟨e, he, rfl⟩ := List.mem_map.mp hm
    exact .inl (List.mem_map_of_mem (List.mem_filter.mpr ⟨he, beq_iff_eq.mpr h⟩))
  · exact .inr ((tget_of_not_mem hm).trans (shippedMap_user h))

theorem userKey_ne_userTable {part page : Nat} (h : page < 2 ^ 20) :
    userKey part page ≠ recKey partSystem recUserTable := by
  unfold userKey recKey partUser partSystem recUserTable
  omega

theorem exec_nvPartCfgWrite {s : State} (h : s.regWritable 0x060014 = true) (v : Nat) :
    exec (.nvPartCfgWrite v) s = .next (s.partCfg v) :=
  congrArg Host.Outcome.next (State.onReg_of h _)

theorem bits_12_0 (v : Nat) : bits v 12 0 = v % 8192 := by simp [bits]

theorem bits_25_16 (v : Nat) : bits v 25 16 = v / 65536 % 1024 := rfl

/-- A write of NV_PART_CFG to an enabled partition: EN 1 keeps its size, EN 0 erases it. -/
theorem State.partCfg_enabled {s : State} (hk : s.nv.partSel ≠ 0) (hp : (s.partAt s.nv.partSel).en = true) (v : Nat) :
    s.partCfg v =
      if v.testBit 31 = true then
        if v % 8192 = (s.partAt s.nv.partSel).pages then
          s.putPart s.nv.partSel (v / 65536 % 1024) { s.partAt s.nv.partSel with err := 0 }
        else s.refusePart s.nv.partSel 2
      else
        (s.erasePart s.nv.partSel).putPart s.nv.partSel (v / 65536 % 1024)
          { UserPart.none_ with pages := v % 8192, slice := (s.partAt s.nv.partSel).slice } := by
  unfold State.partCfg bit
  rw [bits_12_0, bits_25_16]
  by_cases hb : v.testBit 31 = true
  · simp [hk, hp, hb, State.putPart, State.refusePart]
  · simp [hk, hp, hb, State.putPart]

/-- A write of NV_PART_CFG to a partition that is not enabled: EN 1 enables it when its pages are to be had. -/
theorem State.partCfg_disabled {s : State} (hk : s.nv.partSel ≠ 0) (hp : (s.partAt s.nv.partSel).en = false)
    (v : Nat) : s.partCfg v =
      if v.testBit 31 = true then
        if v % 8192 = 0 ∨ 4096 < v % 8192 ∨ 36864 < s.userPages + v % 8192 then s.refusePart s.nv.partSel 1
        else
          s.putPart s.nv.partSel (v / 65536 % 1024)
            { s.partAt s.nv.partSel with en := true, pages := v % 8192, err := 0 }
      else
        s.putPart s.nv.partSel (v / 65536 % 1024) { s.partAt s.nv.partSel with pages := v % 8192, err := 0 } := by
  unfold State.partCfg bit
  rw [bits_12_0, bits_25_16]
  by_cases hb : v.testBit 31 = true
  · simp [hk, hp, hb, State.putPart, State.refusePart]
  · simp [hk, hp, hb, State.putPart]

/-- What a write of NV_PART_CFG that is refused does. -/
theorem State.refusePart_refuses {i : Instr} {s : State} {k err : Nat} (h : exec i s = .next (s.refusePart k err)) :
    ∃ t, exec i s = .next t ∧ t.partAt k = { s.partAt k with err := err } ∧
      ((∀ j, j ≠ k → t.partAt j = s.partAt j) ∧ t.books = s.books ∧ t.work = s.work) ∧
      Logged s t 0x04 err 0x060014 :=
  ⟨_, h, State.setPart_same .., ⟨fun _ hj => State.setPart_other _ _ hj, rfl, rfl⟩, _, rfl, rfl, rfl, rfl, rfl⟩

/-- What a write of NV_PART_CFG that sets the fields of a partition does. -/
theorem State.putPart_sets {i : Instr} {s : State} {k slice : Nat} {p : UserPart}
    (h : exec i s = .next (s.putPart k slice p)) :
    ∃ t, exec i s = .next t ∧ t.partAt k = p ∧ t.hregs.deferred = s.hregs.deferred ++ [.part k slice] ∧
      ((∀ j, j ≠ k → t.partAt j = s.partAt j) ∧ t.books = s.books ∧ t.work = s.work) ∧
      ∀ key, key ≠ recKey partSystem recUserTable → t.nv.copy key = s.nv.copy key :=
  ⟨_, h, s.putPart_same k slice p, s.putPart_deferred k slice p,
    ⟨fun _ hj => s.putPart_other k slice p hj, s.putPart_books k slice p, s.putPart_work k slice p⟩,
    fun _ hkey => s.putPart_copy k slice p hkey⟩

/-- What a write of NV_PART_CFG that takes EN from a partition does: besides, the contents are gone. -/
theorem State.putPart_erased {i : Instr} {s : State} {k slice : Nat} {p : UserPart}
    (h : exec i s = .next ((s.erasePart k).putPart k slice p)) :
    ∃ t, exec i s = .next t ∧ t.partAt k = p ∧ t.hregs.deferred = s.hregs.deferred ++ [.part k slice] ∧
      ((∀ j, j ≠ k → t.partAt j = s.partAt j) ∧ t.books = s.books ∧ t.work = s.work) ∧
      (∀ page, page < 2 ^ 20 → t.nv.copy (userKey k page) = []) ∧
      ∀ key, key / 2 ^ 20 ≠ partUser k → key ≠ recKey partSystem recUserTable → t.nv.copy key = s.nv.copy key := by
  have erased := s.erasePart_rewrites k
  refine ⟨_, h, State.putPart_same .., ?_, ⟨fun j hj => ?_, ?_, ?_⟩, fun page hpage => ?_, fun key hpart htable => ?_⟩
  · rw [State.putPart_deferred, erased.hregs]
  · rw [State.putPart_other _ _ _ _ hj, erased.partAt]
  · rw [State.putPart_books, erased.books]
  · rw [State.putPart_work, erased.work]
  · rw [State.putPart_copy _ _ _ _ (userKey_ne_userTable hpage), s.erasePart_copy (userKey_part hpage)]
  · rw [State.putPart_copy _ _ _ _ htable, erased.nv.copy key hpart]

/-! The scrub (R474, R495). -/

theorem State.taskDone_eq (s : State) (task : Nat) : ∃ sched, s.taskDone task = { s with sched := sched } := by
  unfold State.taskDone
  dsimp only
  split
  · exact ⟨_, rfl⟩
  · split
    · exact ⟨_, rfl⟩
    · exact ⟨_, rfl⟩

theorem State.uncorrectable_eq (s : State) (unit code slice detail : Nat) : ∃ logs tamper tel,
    s.uncorrectable unit code slice detail = { s with logs := logs, tamper := tamper, tel := tel } := by
  unfold State.uncorrectable State.level1
  dsimp only
  split
  · exact ⟨_, _, _, rfl⟩
  · exact ⟨_, _, _, rfl⟩

/-- What a scrub leaves: the page maps, the counts of NV_CORRECTED and NV_UNCORR up to now, books and work. -/
structure State.ScrubLeaves (s t : State) : Prop where
  maps : t.nv.maps = s.nv.maps
  corrected : t.nv.corrected = s.nv.corrected
  uncorr : t.nv.uncorr = s.nv.uncorr
  books : t.books = s.books
  work : t.work = s.work

theorem State.ScrubLeaves.trans {s t u : State} (h : State.ScrubLeaves s t) (k : State.ScrubLeaves t u) :
    State.ScrubLeaves s u :=
  ⟨k.maps.trans h.maps, k.corrected.trans h.corrected, k.uncorr.trans h.uncorr, k.books.trans h.books,
    k.work.trans h.work⟩

theorem State.scrubWrite_leaves (s : State) (p : Nat) (cws : List Nat) :
    State.ScrubLeaves s (s.scrubWrite p cws) := by
  obtain ⟨retired, worn, h⟩ :=
    s.nv.writePhys_eq p { s.nv.page p with badCw := (s.nv.page p).badCw.filter (fun k => !cws.contains k) }
  unfold State.scrubWrite
  dsimp only
  rw [h]
  exact ⟨rfl, rfl, rfl, rfl, rfl⟩

theorem State.uncorrectable_leaves (s : State) (unit code slice detail : Nat) :
    State.ScrubLeaves s (s.uncorrectable unit code slice detail) := by
  obtain ⟨logs, tamper, tel, h⟩ := s.uncorrectable_eq unit code slice detail
  rw [h]
  exact ⟨rfl, rfl, rfl, rfl, rfl⟩

theorem State.badCodeword_leaves (s : State) (phys cw : Nat) : State.ScrubLeaves s (s.badCodeword phys cw) := by
  unfold State.badCodeword
  dsimp only
  split
  · exact ⟨rfl, rfl, rfl, rfl, rfl⟩
  · split
    · exact ⟨rfl, rfl, rfl, rfl, rfl⟩
    · exact ⟨rfl, rfl, rfl, rfl, rfl⟩

/-- The page of a scrub step once its corrected codewords are rewritten, while HOLD is healthy, and counted. -/
def State.scrubMended (s : State) (cws : List Nat) : State :=
  (if cws.isEmpty || !s.holdHealthy then s else s.scrubWrite s.nv.scrubPos cws).corrected 10 cws.length

theorem State.scrubMended_leaves (s : State) (cws : List Nat) : State.ScrubLeaves s (s.scrubMended cws) := by
  unfold State.scrubMended
  split
  · exact ⟨rfl, rfl, rfl, rfl, rfl⟩
  · exact (s.scrubWrite_leaves _ cws).trans ⟨rfl, rfl, rfl, rfl, rfl⟩

theorem State.scrubMended_tamper (s : State) (cws : List Nat) : (s.scrubMended cws).tamper = s.tamper := by
  unfold State.scrubMended
  split
  · rfl
  · rfl

theorem State.scrubMended_counters (s : State) (cws : List Nat) :
    (s.scrubMended cws).nv.counters = s.nv.counters := by
  unfold State.scrubMended
  split
  · rfl
  · exact (Nv.writePhys_rewrites (recs := fun _ => False) ..).counters

theorem State.scrubMended_pages {s : State} {cws : List Nat} (h : cws = [] ∨ s.holdHealthy = false) :
    (s.scrubMended cws).nv.pages = s.nv.pages := by
  unfold State.scrubMended
  rw [if_pos (by simpa using h)]
  rfl

theorem State.scrubMended_badCw {s : State} {cws : List Nat} (hc : cws ≠ []) (hh : s.holdHealthy = true) :
    ((s.scrubMended cws).nv.page s.nv.scrubPos).badCw =
      (s.nv.page s.nv.scrubPos).badCw.filter (fun k => !cws.contains k) := by
  unfold State.scrubMended
  rw [if_neg (by simp [hc, hh])]
  exact Nv.writePhys_badCw ..

/-- The codewords of a page that a scrub step finds uncorrectable. -/
def State.scrubLost (s : State) (p : Nat) (bad : List Nat) : State :=
  bad.foldl (fun s cw => (s.badCodeword p cw).uncorrectable 13 10 0xFFFF p) s

theorem State.scrubLost_leaves (s : State) (p : Nat) (bad : List Nat) : State.ScrubLeaves s (s.scrubLost p bad) :=
  List.foldlRecOn bad _ (motive := State.ScrubLeaves s) ⟨rfl, rfl, rfl, rfl, rfl⟩ fun t h cw _ =>
    h.trans ((t.badCodeword_leaves p cw).trans (State.uncorrectable_leaves ..))

theorem State.scrubbed_scrubPos (s : State) (p corrected bad : Nat) :
    (s.scrubbed p corrected bad).nv.scrubPos = (p + 1) % 65536 := rfl

theorem State.scrubbed_page (s : State) (p corrected bad q : Nat) :
    (s.scrubbed p corrected bad).nv.page q = s.nv.page q := rfl

/-- A scrub step, but for the calendar, which the end of a pass moves on. -/
theorem State.scrubStep_eq (s : State) (cws bad : List Nat) : ∃ sched, s.scrubStep cws bad =
    { ((s.scrubMended cws).scrubLost s.nv.scrubPos bad).scrubbed s.nv.scrubPos cws.length bad.length with
      sched := sched } := by
  unfold State.scrubStep
  dsimp only
  split
  · exact State.taskDone_eq _ 0
  · exact ⟨_, rfl⟩

theorem exec_nvScrubStep {s : State} (h : s.nv.storeDue = []) (cws bad : List Nat) :
    exec (.nvScrubStep cws bad) s = .next (s.stepOf .nv background (fun s => s.scrubStep cws bad)) :=
  congrArg Host.Outcome.next (if_neg (by simp [h]))

theorem exec_nvScrubStep_stands {s : State} (h : s.mayStep .nv background = false ∨ s.nv.storeDue ≠ [])
    (cws bad : List Nat) : exec (.nvScrubStep cws bad) s = .next s := by
  by_cases hd : s.nv.storeDue = []
  · rw [exec_nvScrubStep hd, State.stepOf_unserved (h.resolve_right (not_not_intro hd))]
  · exact congrArg Host.Outcome.next (if_pos (by simp [hd]))

/-- Settles O45: each command is an operation named above, and the rules of that operation answer. -/
theorem storeUpkeep : Obligations.StoreUpkeep := by
  unfold Obligations.StoreUpkeep
  intro s
  refine ⟨?periodic, fun h v => exec_cntOwnerWrite h v, ?owner, ?slice, ?configure,
    fun h cws bad => exec_nvScrubStep_stands h cws bad, ?scrub⟩
  case periodic =>
    refine fun n hdue => ⟨fun hm => ?_, fun hm => ⟨(s.takeStep .nv).storedOnce n, ?_, ?_, ?_, ?_, ?_, ?_, ?_, ?_⟩⟩
    · rw [exec_counterPeriodicStore hdue, State.stepOf_unserved hm]
    · rw [exec_counterPeriodicStore hdue, State.stepOf_served hm]
    · exact fun x hx => bne_iff_ne.mp (List.mem_filter.mp hx).2
    · exact (congrArg Counter.value ((s.takeStep .nv).storeCounter_same n)).trans (Counter.store_value _ _)
    · exact fun k hk => (s.takeStep .nv).storeCounter_other hk
    · exact fun key hk => (s.takeStep .nv).storeCounter_copy hk
    · exact (s.takeStep .nv).storeCounter_books n
    · exact fun hv => ((s.takeStep .nv).storeCounter_same n).trans (Counter.store_of_stored hv)
    · refine fun isA b hb hv => ⟨((s.takeStep .nv).storeCounter_same n).trans (Counter.store_of_base hb hv),
        fun hA hB => ?_⟩
      exact (congrArg Counter.stored ((s.takeStep .nv).storeCounter_same n)).trans (Counter.stored_store hb hv hA hB)
  case owner =>
    intro n owner
    have h := s.settleOne_owner n owner
    exact ⟨_, rfl, (h.counterAt n).trans (State.setCounter_same ..),
      fun k hk => (h.counterAt k).trans (State.setCounter_other _ _ hk), h.nv.copy, h.books, h.work⟩
  case slice =>
    intro k slice
    have h := s.settleOne_part k slice
    exact ⟨_, rfl, (h.partAt k).trans (State.setPart_same ..),
      fun j hj => (h.partAt j).trans (State.setPart_other _ _ hj), h.nv.copy, h.books, h.work⟩
  case configure =>
    intro hr hk v _
    have runs := exec_nvPartCfgWrite hr v
    refine ⟨fun hp hb h1 h2 h3 => State.putPart_sets ?enable, fun hp hb hsame => State.putPart_sets ?keep,
      fun hp hb => State.putPart_sets ?size, fun hp hb hbad => State.refusePart_refuses ?tooMany,
      fun hp hb hother => State.refusePart_refuses ?resize, fun hp hb => State.putPart_erased ?disable⟩
    case enable => rw [runs, State.partCfg_disabled hk hp, if_pos hb, if_neg (by omega)]
    case keep => rw [runs, State.partCfg_enabled hk hp, if_pos hb, if_pos hsame]
    case size => rw [runs, State.partCfg_disabled hk hp, if_neg (by simp [hb])]
    case tooMany => rw [runs, State.partCfg_disabled hk hp, if_pos hb, if_pos hbad]
    case resize => rw [runs, State.partCfg_enabled hk hp, if_pos hb, if_neg hother]
    case disable => rw [runs, State.partCfg_enabled hk hp, if_neg (by simp [hb])]
  case scrub =>
    intro hm hdue cws bad
    obtain ⟨sched, h⟩ := (s.takeStep .nv).scrubStep_eq cws bad
    have left := ((s.takeStep .nv).scrubMended_leaves cws).trans (State.scrubLost_leaves _ s.nv.scrubPos bad)
    rw [exec_nvScrubStep hdue, State.stepOf_served hm, h]
    refine ⟨_, rfl, ?_, ?_, ?_, left.maps, left.books, left.work, ?_⟩
    · exact State.scrubbed_scrubPos _ s.nv.scrubPos cws.length bad.length
    · exact congrArg (· + BitVec.ofNat 32 cws.length) left.corrected
    · exact congrArg (· + BitVec.ofNat 32 bad.length) left.uncorr
    · rintro rfl
      exact ⟨(s.takeStep .nv).scrubMended_counters cws, (s.takeStep .nv).scrubMended_tamper cws,
        fun h => State.scrubMended_pages (s := s.takeStep .nv) h,
        fun hc hh => (congrArg NvPage.badCw (State.scrubbed_page ..)).trans
          (State.scrubMended_badCw (s := s.takeStep .nv) hc hh)⟩

end Sys2Proof.Machine
end

section
/-! SUPPORT. The whole device: what every command and every step keeps. -/

namespace Sys2Proof.Machine
open Sys2Proof

/-- Every command keeps what `Keeps` says. -/
theorem exec_keeps (i : Instr) (s : State) : KeepsO s (exec i s) :=
  match i with
  | .grainBoundary wall => execGrainBoundary_keeps wall s (.refl s)
  | .scrupleBoundary => execScrupleBoundary_keeps s (.refl s)
  | .bgDeadlineMiss task => execBgDeadlineMiss_keeps task s (.refl s)
  | .submissionDoorbell ring value => execSubmissionDoorbell_keeps ring value s (.refl s)
  | .journalPersistedDoorbell ring lseq => execJournalPersistedDoorbell_keeps ring lseq s (.refl s)
  | .journalDrainedDoorbell ring lseq => execJournalDrainedDoorbell_keeps ring lseq s (.refl s)
  | .doorbellWriteCombined offset data => execDoorbellWriteCombined_keeps offset data s (.refl s)
  | .fetchReadIssue ring => execFetchReadIssue_keeps ring s (.refl s)
  | .descriptorArrival ring data bad => execDescriptorArrival_keeps ring data bad s (.refl s)
  | .fetchReadRetry ring index poisoned => execFetchReadRetry_keeps ring index poisoned s (.refl s)
  | .primeAdmission => execPrimeAdmission_keeps s (.refl s)
  | .nop ring => execNop_keeps ring s (.refl s)
  | .counterRead ring => execCounterRead_keeps ring s (.refl s)
  | .counterIncr ring => execCounterIncr_keeps ring s (.refl s)
  | .tallyRead ring => execTallyRead_keeps ring s (.refl s)
  | .tallyAdjust ring => execTallyAdjust_keeps ring s (.refl s)
  | .macGen ring => execMacGen_keeps ring s (.refl s)
  | .macVerify ring => execMacVerify_keeps ring s (.refl s)
  | .compare ring => execCompare_keeps ring s (.refl s)
  | .post ring => execPost_keeps ring s (.refl s)
  | .tallyOpen ring => execTallyOpen_keeps ring s (.refl s)
  | .tallySet ring => execTallySet_keeps ring s (.refl s)
  | .tallyClose ring => execTallyClose_keeps ring s (.refl s)
  | .postingAdmission => execPostingAdmission_keeps s (.refl s)
  | .postingHeldJournalFull ring => execPostingHeldJournalFull_keeps ring s (.refl s)
  | .postingCommit book => execPostingCommit_keeps book s (.refl s)
  | .completionIssue ring => execCompletionIssue_keeps ring s (.refl s)
  | .completionWriteRetry cq => execCompletionWriteRetry_keeps cq s (.refl s)
  | .msixTimerExpiry ring => execMsixTimerExpiry_keeps ring s (.refl s)
  | .frameWriteIssue book => execFrameWriteIssue_keeps book s (.refl s)
  | .headFold book => execHeadFold_keeps book s (.refl s)
  | .frameWriteRetry book => execFrameWriteRetry_keeps book s (.refl s)
  | .sealFormation book => execSealFormation_keeps book s (.refl s)
  | .sealSigned book => execSealSigned_keeps book s (.refl s)
  | .sealBook ring => execSeal_keeps ring s (.refl s)
  | .checkpoint ring => execCheckpoint_keeps ring s (.refl s)
  | .checkpointPhase2 book => execCheckpointPhase2_keeps book s (.refl s)
  | .checkpointRelease ring => execCheckpointRelease_keeps ring s (.refl s)
  | .checkpointHoldExpiry book => execCheckpointHoldExpiry_keeps book s (.refl s)
  | .checkpointRestore ring => execCheckpointRestore_keeps ring s (.refl s)
  | .replay ring => execReplay_keeps ring s (.refl s)
  | .replayEnd ring => execReplayEnd_keeps ring s (.refl s)
  | .gapClear ring => execGapClear_keeps ring s (.refl s)
  | .adoptPrepare ring => execAdoptPrepare_keeps ring s (.refl s)
  | .handover ring => execHandover_keeps ring s (.refl s)
  | .adopt ring => execAdopt_keeps ring s (.refl s)
  | .create => execCreate_keeps s (.refl s)
  | .delete => execDelete_keeps s (.refl s)
  | .bookCommandExamine book => execBookCommandExamine_keeps book s (.refl s)
  | .bookSetupDone book => execBookSetupDone_keeps book s (.refl s)
  | .deleteComplete book => execDeleteComplete_keeps book s (.refl s)
  | .salternBlockLoaded book block objects => execSalternBlockLoaded_keeps book block objects s (.refl s)
  | .salternReadRetry book block => execSalternReadRetry_keeps book block s (.refl s)
  | .blockWriteBack book level index => execBlockWriteBack_keeps book level index s (.refl s)
  | .writeBackRetry book level index => execWriteBackRetry_keeps book level index s (.refl s)
  | .panRebuild book block => execPanRebuild_keeps book block s (.refl s)
  | .rebuildFrameArrival book block data => execRebuildFrameArrival_keeps book block data s (.refl s)
  | .unfence => execUnfence_keeps s (.refl s)
  | .correctedWordWriteback place upset => execCorrectedWordWriteback_keeps place upset s (.refl s)
  | .uncorrectableError word upset => execUncorrectableError_keeps word upset s (.refl s)
  | .tamperLevel2Squash glitch unit index => execTamperLevel2Squash_keeps glitch unit index s (.refl s)
  | .glitchDetectorTrip detector => execGlitchDetectorTrip_keeps detector s (.refl s)
  | .overvoltageTrip rail => execOvervoltageTrip_keeps rail s (.refl s)
  | .clockPeriodTrip => execClockPeriodTrip_keeps s (.refl s)
  | .clockFrequencyTrip mhz => execClockFrequencyTrip_keeps mhz s (.refl s)
  | .clockRelock => execClockRelock_keeps s (.refl s)
  | .lightSensorTrip sensor => execLightSensorTrip_keeps sensor s (.refl s)
  | .temperatureGradeTrip sensor tj => execTemperatureGradeTrip_keeps sensor tj s (.refl s)
  | .temperatureTrip sensor tj => execTemperatureTrip_keeps sensor tj s (.refl s)
  | .sensorCalibration deviations => execSensorCalibration_keeps deviations s (.refl s)
  | .substrateMeshFail mesh => execSubstrateMeshFail_keeps mesh s (.refl s)
  | .batteryLoopCheck loopFault meshFault => execBatteryLoopCheck_keeps loopFault meshFault s (.refl s)
  | .vbatLow => execVbatLow_keeps s (.refl s)
  | .keyEraseComplete => execKeyEraseComplete_keeps s (.refl s)
  | .bitternSummaryFormed => execBitternSummaryFormed_keeps s (.refl s)
  | .mainRailFail rail => execMainRailFail_keeps rail s (.refl s)
  | .pwrFailNAssert => execPwrFailNAssert_keeps s (.refl s)
  | .perstNAssert => execPerstNAssert_keeps s (.refl s)
  | .drainCutoff cause => execDrainCutoff_keeps cause s (.refl s)
  | .keepDomainStop written => execKeepDomainStop_keeps written s (.refl s)
  | .startUp array holdMv vbatLost => execStartUp_keeps array holdMv vbatLost s (.refl s)
  | .linkTrainingStart => execLinkTrainingStart_keeps s (.refl s)
  | .configurationReady => execConfigurationReady_keeps s (.refl s)
  | .ringsServiceable => execRingsServiceable_keeps s (.refl s)
  | .keySweep => execKeySweep_keeps s (.refl s)
  | .keySweepFallbackMask => execKeySweepFallbackMask_keeps s (.refl s)
  | .holdWeak holdMv => execHoldWeak_keeps holdMv s (.refl s)
  | .writeThroughExit => execWriteThroughExit_keeps s (.refl s)
  | .grainRecord => execGrainRecord_keeps s (.refl s)
  | .functionLevelReset => execFunctionLevelReset_keeps s (.refl s)
  | .hotReset => execHotReset_keeps s (.refl s)
  | .linkDownReset => execLinkDownReset_keeps s (.refl s)
  | .busMasterEnableChange bme pasidEn d3hot => execBusMasterEnableChange_keeps bme pasidEn d3hot s (.refl s)
  | .configRequestRetry field => execConfigRequestRetry_keeps field s (.refl s)
  | .unsupportedBarRequest offset => execUnsupportedBarRequest_keeps offset s (.refl s)
  | .bar0BadAccess offset size write => execBar0BadAccess_keeps offset size write s (.refl s)
  | .linkProtocolViolation bit => execLinkProtocolViolation_keeps bit s (.refl s)
  | .hostReadRetry tag => execHostReadRetry_keeps tag s (.refl s)
  | .hostReadCompletion tag data => execHostReadCompletion_keeps tag data s (.refl s)
  | .registerWrite reg value => execRegisterWrite_keeps reg value s (.refl s)
  | .rcRegisterRead bar offset size => execRcRegisterRead_keeps bar offset size s (.refl s)
  | .ringEnable value => execRingEnable_keeps value s (.refl s)
  | .ringDisable value => execRingDisable_keeps value s (.refl s)
  | .ringDisableDone ring => execRingDisableDone_keeps ring s (.refl s)
  | .activate slice => execActivate_keeps slice s (.refl s)
  | .quiesce slice => execQuiesce_keeps slice s (.refl s)
  | .resume slice => execResume_keeps slice s (.refl s)
  | .reset slice => execReset_keeps slice s (.refl s)
  | .remove slice => execRemove_keeps slice s (.refl s)
  | .sliceResetComplete slice => execSliceResetComplete_keeps slice s (.refl s)
  | .sliceFree slice => execSliceFree_keeps slice s (.refl s)
  | .sliceQuotaWrite slice quota value => execSliceQuotaWrite_keeps slice quota value s (.refl s)
  | .tokenQuotaWrite slice value => execTokenQuotaWrite_keeps slice value s (.refl s)
  | .slicePasidWrite slice value => execSlicePasidWrite_keeps slice value s (.refl s)
  | .dplEnable slice value => execDplEnable_keeps slice value s (.refl s)
  | .dplReadWrite slice value => execDplReadWrite_keeps slice value s (.refl s)
  | .windowBarrier value => execWindowBarrier_keeps value s (.refl s)
  | .windowBarrierEnd slice => execWindowBarrierEnd_keeps slice s (.refl s)
  | .mpuDisable value => execMpuDisable_keeps value s (.refl s)
  | .mpuEnable value => execMpuEnable_keeps value s (.refl s)
  | .mpuRegionWrite reg value => execMpuRegionWrite_keeps reg value s (.refl s)
  | .mpuWriteBufferDrain mpu => execMpuWriteBufferDrain_keeps mpu s (.refl s)
  | .invoke ring => execInvoke_keeps ring s (.refl s)
  | .invocationCoreAssign => execInvocationCoreAssign_keeps s (.refl s)
  | .imageLoadComplete core image mailbox => execImageLoadComplete_keeps core image mailbox s (.refl s)
  | .imageSignatureVerified core => execImageSignatureVerified_keeps core s (.refl s)
  | .budgetTrap core => execBudgetTrap_keeps core s (.refl s)
  | .serviceCallEnd core => execServiceCallEnd_keeps core s (.refl s)
  | .allowAdd ring => execAllowAdd_keeps ring s (.refl s)
  | .allowRemove ring => execAllowRemove_keeps ring s (.refl s)
  | .allowRead ring => execAllowRead_keeps ring s (.refl s)
  | .svcTallyRead core => execSvcTallyRead_keeps core s (.refl s)
  | .svcPost core => execSvcPost_keeps core s (.refl s)
  | .svcDigest core => execSvcDigest_keeps core s (.refl s)
  | .svcMac core => execSvcMac_keeps core s (.refl s)
  | .svcDerive core => execSvcDerive_keeps core s (.refl s)
  | .svcBignum core => execSvcBignum_keeps core s (.refl s)
  | .svcRandom core => execSvcRandom_keeps core s (.refl s)
  | .svcNvRead core => execSvcNvRead_keeps core s (.refl s)
  | .svcNvWrite core => execSvcNvWrite_keeps core s (.refl s)
  | .svcReturn core => execSvcReturn_keeps core s (.refl s)
  | .dadd core => execDadd_keeps core s (.refl s)
  | .dsub core => execDsub_keeps core s (.refl s)
  | .dcmp core => execDcmp_keeps core s (.refl s)
  | .dmul core => execDmul_keeps core s (.refl s)
  | .ddiv core => execDdiv_keeps core s (.refl s)
  | .drnd core => execDrnd_keeps core s (.refl s)
  | .dshf core => execDshf_keeps core s (.refl s)
  | .dneg core => execDneg_keeps core s (.refl s)
  | .dabs core => execDabs_keeps core s (.refl s)
  | .dmov core => execDmov_keeps core s (.refl s)
  | .dnrm core => execDnrm_keeps core s (.refl s)
  | .dval core => execDval_keeps core s (.refl s)
  | .dtst core => execDtst_keeps core s (.refl s)
  | .dcvb core => execDcvb_keeps core s (.refl s)
  | .dcvd core => execDcvd_keeps core s (.refl s)
  | .dli core => execDli_keeps core s (.refl s)
  | .daddi core => execDaddi_keeps core s (.refl s)
  | .dcmpi core => execDcmpi_keeps core s (.refl s)
  | .dget core => execDget_keeps core s (.refl s)
  | .dput core => execDput_keeps core s (.refl s)
  | .dsel core => execDsel_keeps core s (.refl s)
  | .ldd core => execLdd_keeps core s (.refl s)
  | .std core => execStd_keeps core s (.refl s)
  | .ldx core => execLdx_keeps core s (.refl s)
  | .stx core => execStx_keeps core s (.refl s)
  | .ldh core => execLdh_keeps core s (.refl s)
  | .sth core => execSth_keeps core s (.refl s)
  | .ldb core => execLdb_keeps core s (.refl s)
  | .stb core => execStb_keeps core s (.refl s)
  | .xadd core => execXadd_keeps core s (.refl s)
  | .xsub core => execXsub_keeps core s (.refl s)
  | .xand core => execXand_keeps core s (.refl s)
  | .xor core => execXor_keeps core s (.refl s)
  | .xxor core => execXxor_keeps core s (.refl s)
  | .xshl core => execXshl_keeps core s (.refl s)
  | .xshr core => execXshr_keeps core s (.refl s)
  | .xsar core => execXsar_keeps core s (.refl s)
  | .xmul core => execXmul_keeps core s (.refl s)
  | .xcmp core => execXcmp_keeps core s (.refl s)
  | .xaddi core => execXaddi_keeps core s (.refl s)
  | .xli core => execXli_keeps core s (.refl s)
  | .xlui core => execXlui_keeps core s (.refl s)
  | .xori core => execXori_keeps core s (.refl s)
  | .xandi core => execXandi_keeps core s (.refl s)
  | .xcmpi core => execXcmpi_keeps core s (.refl s)
  | .b core => execB_keeps core s (.refl s)
  | .bl core => execBl_keeps core s (.refl s)
  | .br core => execBr_keeps core s (.refl s)
  | .dbnz core => execDbnz_keeps core s (.refl s)
  | .alaingNop core => execAlaingNop_keeps core s (.refl s)
  | .svc core => execSvc_keeps core s (.refl s)
  | .trap core => execTrap_keeps core s (.refl s)
  | .setm core => execSetm_keeps core s (.refl s)
  | .mff core => execMff_keeps core s (.refl s)
  | .mtf core => execMtf_keeps core s (.refl s)
  | .sessionOpen ring => execSessionOpen_keeps ring s (.refl s)
  | .sessionDerive ring => execSessionDerive_keeps ring s (.refl s)
  | .sessionClose ring => execSessionClose_keeps ring s (.refl s)
  | .sessionRederivation handle => execSessionRederivation_keeps handle s (.refl s)
  | .keyRemask target index => execKeyRemask_keeps target index s (.refl s)
  | .slotWrite ring => execSlotWrite_keeps ring s (.refl s)
  | .slotErase ring => execSlotErase_keeps ring s (.refl s)
  | .authWrite ring => execAuthWrite_keeps ring s (.refl s)
  | .authErase ring => execAuthErase_keeps ring s (.refl s)
  | .provision ring => execProvision_keeps ring s (.refl s)
  | .familyRead ring => execFamilyRead_keeps ring s (.refl s)
  | .certRead ring => execCertRead_keeps ring s (.refl s)
  | .cipher ring => execCipher_keeps ring s (.refl s)
  | .mac ring => execMac_keeps ring s (.refl s)
  | .digest ring => execDigest_keeps ring s (.refl s)
  | .digestUpdate ring => execDigestUpdate_keeps ring s (.refl s)
  | .digestFinish ring => execDigestFinish_keeps ring s (.refl s)
  | .modexp ring => execModexp_keeps ring s (.refl s)
  | .modmul ring => execModmul_keeps ring s (.refl s)
  | .rsaPublic ring => execRsaPublic_keeps ring s (.refl s)
  | .rsaPrivate ring => execRsaPrivate_keeps ring s (.refl s)
  | .ecdsaSign ring => execEcdsaSign_keeps ring s (.refl s)
  | .ecdsaVerify ring => execEcdsaVerify_keeps ring s (.refl s)
  | .ecdh ring => execEcdh_keeps ring s (.refl s)
  | .x25519 ring => execX25519_keeps ring s (.refl s)
  | .ed25519Sign ring => execEd25519Sign_keeps ring s (.refl s)
  | .ed25519Verify ring => execEd25519Verify_keeps ring s (.refl s)
  | .bnJobEnd engine mismatch => execBnJobEnd_keeps engine mismatch s (.refl s)
  | .random ring => execRandom_keeps ring s (.refl s)
  | .rngKat ring => execRngKat_keeps ring s (.refl s)
  | .rngInject ring => execRngInject_keeps ring s (.refl s)
  | .rngBlockEnd samples => execRngBlockEnd_keeps samples s (.refl s)
  | .conditioning => execConditioning_keeps s (.refl s)
  | .drbgInstantiate => execDrbgInstantiate_keeps s (.refl s)
  | .drbgReseed => execDrbgReseed_keeps s (.refl s)
  | .reseedOverdue => execReseedOverdue_keeps s (.refl s)
  | .rngOutputStep => execRngOutputStep_keeps s (.refl s)
  | .rngStartupSlow => execRngStartupSlow_keeps s (.refl s)
  | .rngWaitTimeout => execRngWaitTimeout_keeps s (.refl s)
  | .rngDataRead size => execRngDataRead_keeps size s (.refl s)
  | .nvRead ring => execNvRead_keeps ring s (.refl s)
  | .nvWrite ring => execNvWrite_keeps ring s (.refl s)
  | .nvCommit ring => execNvCommit_keeps ring s (.refl s)
  | .nvPasswd ring => execNvPasswd_keeps ring s (.refl s)
  | .nvCtlCommit => execNvCtlCommit_keeps s (.refl s)
  | .writeBufferIdleCommit => execWriteBufferIdleCommit_keeps s (.refl s)
  | .pageWrite => execPageWrite_keeps s (.refl s)
  | .nvScrubStep corrected bad => execNvScrubStep_keeps corrected bad s (.refl s)
  | .counterPeriodicStore counter => execCounterPeriodicStore_keeps counter s (.refl s)
  | .nvPartCfgWrite value => execNvPartCfgWrite_keeps value s (.refl s)
  | .cntOwnerWrite value => execCntOwnerWrite_keeps value s (.refl s)
  | .batCfgWrite value loopOk meshOk => execBatCfgWrite_keeps value loopOk meshOk s (.refl s)
  | .custChallenge ring => execCustChallenge_keeps ring s (.refl s)
  | .challengeSlotLapse slot => execChallengeSlotLapse_keeps slot s (.refl s)
  | .lcStage ring => execLcStage_keeps ring s (.refl s)
  | .lcChange ring => execLcChange_keeps ring s (.refl s)
  | .bitternStatement ring => execBitternStatement_keeps ring s (.refl s)
  | .clCollect ring => execClCollect_keeps ring s (.refl s)
  | .clAbort ring => execClAbort_keeps ring s (.refl s)
  | .clCollectWaitExpiry => execClCollectWaitExpiry_keeps s (.refl s)
  | .externalFieldCheck field => execExternalFieldCheck_keeps field s (.refl s)
  | .cardPing amplitude => execCardPing_keeps amplitude s (.refl s)
  | .cardAnswer data => execCardAnswer_keeps data s (.refl s)
  | .cardFrameTimeout => execCardFrameTimeout_keeps s (.refl s)
  | .tagSelectApplication aid => execTagSelectApplication_keeps aid s (.refl s)
  | .tagSelectFile fid => execTagSelectFile_keeps fid s (.refl s)
  | .readBinary offset le => execReadBinary_keeps offset le s (.refl s)
  | .updateBinary offset data capMv field => execUpdateBinary_keeps offset data capMv field s (.refl s)
  | .verify write password capMv => execVerify_keeps write password capMv s (.refl s)
  | .tagFrameError => execTagFrameError_keeps s (.refl s)
  | .fieldLoss => execFieldLoss_keeps s (.refl s)
  | .sbIdent => execSbIdent_keeps s (.refl s)
  | .sbDeviceId => execSbDeviceId_keeps s (.refl s)
  | .sbTjMax => execSbTjMax_keeps s (.refl s)
  | .sbTjMin => execSbTjMin_keeps s (.refl s)
  | .sbPower => execSbPower_keeps s (.refl s)
  | .sbHold => execSbHold_keeps s (.refl s)
  | .sbLcState => execSbLcState_keeps s (.refl s)
  | .sbTamperFlags => execSbTamperFlags_keeps s (.refl s)
  | .sbTamperCause => execSbTamperCause_keeps s (.refl s)
  | .sbStatusFlags => execSbStatusFlags_keeps s (.refl s)
  | .sbHalt => execSbHalt_keeps s (.refl s)
  | .sbSensorTj sensor => execSbSensorTj_keeps sensor s (.refl s)
  | .sidebandViolation code => execSidebandViolation_keeps code s (.refl s)
  | .smbusClockTimeout => execSmbusClockTimeout_keeps s (.refl s)
  | .telemetrySample tj power holdMv => execTelemetrySample_keeps tj power holdMv s (.refl s)
  | .peakClr => execPeakClr_keeps s (.refl s)
  | .logAckWrite tamper seq => execLogAckWrite_keeps tamper seq s (.refl s)
  | .fieldPresent field => execFieldPresent_keeps field s (.refl s)
  | .tagAnticollision frame => execTagAnticollision_keeps frame s (.refl s)
  | .cardActivationAnswer data collision => execCardActivationAnswer_keeps data collision s (.refl s)
  | .msixTableWrite offset value => execMsixTableWrite_keeps offset value s (.refl s)
  | .vbatRestored => execVbatRestored_keeps s (.refl s)
  | .functionLevelResetComplete => execFunctionLevelResetComplete_keeps s (.refl s)
  | .linkUp => execLinkUp_keeps s (.refl s)

/-- A command answers a next state. -/
theorem exec_completes (i : Instr) (s : State) : ∃ t, exec i s = .next t := by
  cases i with
  | nvWrite ring =>
    show ∃ t, execNvWrite ring s = .next t
    unfold execNvWrite
    split
    · exact ⟨_, rfl⟩
    · exact ⟨_, rfl⟩
  | rngDataRead size =>
    cases h : s.barUp with
    | false => exact ⟨_, if_neg (Bool.eq_false_iff.mp h)⟩
    | true => exact ⟨_, if_pos h⟩
  | svcNvWrite core =>
    show ∃ t, execSvcNvWrite core s = .next t
    unfold execSvcNvWrite
    dsimp only
    split
    · exact ⟨_, rfl⟩
    · exact ⟨_, rfl⟩
  | registerWrite reg value => cases reg <;> exact ⟨_, rfl⟩
  | _ => exact ⟨_, rfl⟩

/-- A step is its command, on the state with the queue's rest, or nothing. -/
theorem step_cases {s t : State} (h : step s = .next t) :
    t = s ∨ ∃ c rest, s.pending = c :: rest ∧ exec c { s with pending := rest } = .next t := by
  unfold step at h
  split at h
  · exact .inl (Host.Outcome.next.inj h).symm
  · next c rest hp => exact .inr ⟨c, rest, hp, h⟩

/-- Settles O55: a command keeps the invariant, and the queue is no part of it. -/
theorem stepKeepsInvariant : Obligations.StepKeepsInvariant := by
  unfold Obligations.StepKeepsInvariant
  intro s t inv h
  obtain rfl | ⟨c, rest, -, hc⟩ := step_cases h
  · exact inv
  · have inv' : Inv { s with pending := rest } :=
      ⟨inv.mpus, inv.rng, inv.brine, inv.wbuf, inv.cores, inv.sq, inv.cq, inv.slices, inv.books, inv.msix, inv.recs⟩
    exact (exec_keeps c _ t hc).inv inv'

/-- Settles O56: no command leaves SPENT or reaches BLANK. -/
theorem noStepLeavesSpent : Obligations.NoStepLeavesSpent := by
  unfold Obligations.NoStepLeavesSpent
  intro s t h
  obtain rfl | ⟨c, rest, -, hc⟩ := step_cases h
  · exact ⟨id, id⟩
  · exact (exec_keeps c _ t hc).life

/-- Settles O57: every command completes, and what it answers keeps the queue and the output. -/
theorem everyCommandAnswers : Obligations.EveryCommandAnswers := by
  unfold Obligations.EveryCommandAnswers
  intro i s
  obtain ⟨t, h⟩ := exec_completes i s
  have keeps := exec_keeps i s t h
  exact ⟨t, h, keeps.queue, keeps.sent⟩

/-- Settles O1: by the definition of a step, for a queue with a front and for an empty one. -/
theorem stepRunsFrontCommand : Obligations.StepRunsFrontCommand := by
  unfold Obligations.StepRunsFrontCommand
  intro s
  refine ⟨fun c rest => rfl, fun h => ?_⟩
  unfold step
  rw [h]

theorem Rng.reset_bounded : Rng.reset.Bounded :=
  ⟨Nat.zero_le _, Nat.zero_le _, Nat.zero_le _, Nat.zero_le _, fun _ h => nomatch h⟩

/-- The tables are empty at reset, and the buffers too. -/
theorem State.reset_inv : Inv State.reset where
  mpus := rfl
  rng := Rng.reset_bounded
  brine := Nat.zero_le _
  wbuf := Nat.zero_le _
  cores := fun _ h => nomatch h
  sq := twf_nil _
  cq := twf_nil _
  slices := twf_nil _
  books := twf_nil _
  msix := twf_nil _
  recs := ⟨twf_nil _, twf_nil _⟩

theorem State.reset_slotAt (target index : Nat) : State.reset.slotAt target index = Slot.reset := by
  unfold State.slotAt
  split <;> rfl

/-- Settles O60: every table is empty at reset, so each of its entries reads as its reset value. -/
theorem resetState : Obligations.ResetState := by
  unfold Obligations.ResetState
  exact ⟨State.reset_inv, rfl, rfl, rfl, rfl, rfl, rfl, fun _ => rfl, fun target index => ⟨State.reset_slotAt target index, rfl⟩,
    fun _ => ⟨rfl, rfl, rfl, rfl, rfl⟩, fun _ => ⟨rfl, rfl, rfl, rfl, rfl⟩, rfl, rfl⟩

end Sys2Proof.Machine
end

section
/-! SUPPORT. The nibble code (R95 to R98): the field GF(16), the syndrome of a word with errors, the cap of its columns. -/

namespace Sys2Proof.Machine
open Sys2Proof

/-! GF(16) (R95). -/

theorem gfDouble_xor : ∀ a b : Gf, gfDouble (a ^^^ b) = gfDouble a ^^^ gfDouble b := by decide

theorem gfMul_comm : ∀ a b : Gf, gfMul a b = gfMul b a := by decide

@[simp] theorem gfMul_one : ∀ a : Gf, gfMul a 1#4 = a := by decide

@[simp] theorem gfMul_zero : ∀ a : Gf, gfMul a 0#4 = 0#4 := by decide

theorem gfMul_double : ∀ a b : Gf, gfMul a (gfDouble b) = gfDouble (gfMul a b) := by decide

/-- A product by a non-zero element is undone by its inverse. -/
theorem gfMul_gfInv : ∀ e x : Gf, e ≠ 0 → gfMul (gfMul e x) (gfInv e) = x := by decide

theorem gfMul_ne_zero : ∀ e f : Gf, e ≠ 0 → f ≠ 0 → gfMul e f ≠ 0 := by decide

/-- The form of R95 vanishes at the origin only. -/
theorem quadric_eq_zero : ∀ a b : Gf, quadric a b = 0 → a = 0 ∧ b = 0 := by decide

theorem xor_if (p : Bool) (a b : Gf) : (if p then a ^^^ b else 0) = (if p then a else 0) ^^^ (if p then b else 0) := by
  cases p <;> simp

theorem xor_swap (a b c d : Gf) : (a ^^^ b) ^^^ (c ^^^ d) = (a ^^^ c) ^^^ (b ^^^ d) := by
  rw [BitVec.xor_assoc, BitVec.xor_assoc, ← BitVec.xor_assoc b, BitVec.xor_comm b, BitVec.xor_assoc]

theorem gfMul_xor_left (a b c : Gf) : gfMul (a ^^^ b) c = gfMul a c ^^^ gfMul b c := by
  simp only [gfMul, gfDouble_xor, xor_if, xor_swap]

theorem gfMul_xor_right (a b c : Gf) : gfMul a (b ^^^ c) = gfMul a b ^^^ gfMul a c := by
  rw [gfMul_comm, gfMul_xor_left, gfMul_comm b, gfMul_comm c]

theorem gfMul_if (p : Bool) (a b : Gf) : gfMul a (if p then b else 0) = if p then gfMul a b else 0 := by
  cases p
  · exact gfMul_zero a
  · rfl

theorem gfMul_assoc (a b c : Gf) : gfMul (gfMul a b) c = gfMul a (gfMul b c) := by
  rw [gfMul, gfMul.eq_def b c]
  simp only [gfMul_xor_right, gfMul_if, gfMul_double]

/-- The elements with the operations of R95 as a type of its own, beside the integers modulo 16 of `BitVec 4`. -/
def Gf16 : Type := Gf

/-- They are a commutative ring. -/
@[reducible] def gf16Ring : CommRing Gf16 where
  add a b := BitVec.xor a b
  zero := (0 : Gf)
  neg a := a
  mul := gfMul
  one := (1 : Gf)
  nsmul := @nsmulRec Gf ⟨0⟩ ⟨BitVec.xor⟩
  zsmul := @zsmulRec Gf ⟨0⟩ ⟨BitVec.xor⟩ ⟨id⟩ (@nsmulRec Gf ⟨0⟩ ⟨BitVec.xor⟩)
  add_assoc := BitVec.xor_assoc
  zero_add a := BitVec.zero_xor
  add_zero a := BitVec.xor_zero
  neg_add_cancel a := BitVec.xor_self
  add_comm := BitVec.xor_comm
  mul_assoc := gfMul_assoc
  one_mul a := (gfMul_comm 1 a).trans (gfMul_one a)
  mul_one := gfMul_one
  left_distrib := gfMul_xor_right
  right_distrib := gfMul_xor_left
  zero_mul a := (gfMul_comm 0 a).trans (gfMul_zero a)
  mul_zero := gfMul_zero
  mul_comm := gfMul_comm

/-- A square sum in characteristic 2: the form of the sum of two multiples of points with first coordinate 1. -/
theorem form_of_sum (e f a b a' b' : Gf) :
    gfMul (e ^^^ f) (gfMul e (quadric a b) ^^^ gfMul f (quadric a' b')) ^^^
      quadric (gfMul e a ^^^ gfMul f a') (gfMul e b ^^^ gfMul f b') =
      gfMul (gfMul e f) (quadric (a ^^^ a') (b ^^^ b')) := by
  let := gf16Ring
  have two : (2 : Gf16) = 0 := rfl
  have h (e f a b a' b' β : Gf16) :
      (e + f) * (e * (a * a + a * b + β * (b * b)) + f * (a' * a' + a' * b' + β * (b' * b'))) +
        ((e * a + f * a') * (e * a + f * a') + (e * a + f * a') * (e * b + f * b') +
          β * ((e * b + f * b') * (e * b + f * b'))) =
      e * f * ((a + a') * (a + a') + (a + a') * (b + b') + β * ((b + b') * (b + b'))) := by
    linear_combination (e * e * (a * a + a * b + β * (b * b)) + f * f * (a' * a' + a' * b' + β * (b' * b'))) * two
  exact h e f a b a' b' gfBeta

/-! Columns and syndromes (R96, R97). -/

/-- The columns but the last have the coordinates of a point and its form. -/
def coords (n : Nat) : Gf × Gf :=
  match n with
  | 32 => (0, 0)
  | 33 => (1, 0)
  | 34 => (0, 1)
  | _ => (coordA n, coordB n)

def pointColumn (p : Gf × Gf) : List Gf := [1, p.1, p.2, quadric p.1 p.2]

theorem column_of_lt {n : Nat} (h : n < 35) : column n = pointColumn (coords n) := by
  revert n
  decide

theorem coords_injective : ∀ n < 35, ∀ m < 35, coords n = coords m → n = m := by decide

@[simp] theorem column_length (n : Nat) : (column n).length = 4 := by
  unfold column
  split <;> rfl

theorem addCols_comm (x y : List Gf) : addCols x y = addCols y x := List.zipWith_comm_of_comm BitVec.xor_comm

theorem addCols_assoc (x y z : List Gf) : addCols (addCols x y) z = addCols x (addCols y z) := by
  induction x generalizing y z with
  | nil => rfl
  | cons a x ih =>
    cases y with
    | nil => rfl
    | cons b y =>
      cases z with
      | nil => rfl
      | cons c z => exact congrArg₂ List.cons (BitVec.xor_assoc a b c) (ih y z)

theorem scaleCol_xor (d e : Gf) (c : List Gf) : scaleCol (d ^^^ e) c = addCols (scaleCol d c) (scaleCol e c) := by
  induction c with
  | nil => rfl
  | cons x c ih => exact congrArg₂ List.cons (gfMul_xor_left d e x) ih

/-- A syndrome has four components. -/
theorem sums_length (n : Nat) (c : List Gf) : (sums n c).length = 4 := by
  induction c generalizing n with
  | nil => rfl
  | cons d c ih => simp [sums, addCols, scaleCol, ih]

/-- An error at a symbol adds a multiple of its column. -/
theorem sums_set {c : List Gf} {n : Nat} (e : Gf) (h : n < c.length) (k : Nat) :
    sums k (c.set n (c.getD n 0 ^^^ e)) = addCols (scaleCol e (column (k + n))) (sums k c) := by
  induction c generalizing n k with
  | nil => exact absurd h (Nat.not_lt_zero n)
  | cons d c ih =>
    cases n with
    | zero => rw [List.set_cons_zero, List.getD_cons_zero, sums, sums, BitVec.xor_comm, scaleCol_xor, addCols_assoc, Nat.add_zero k]
    | succ n =>
      have swap (x y z : List Gf) : addCols x (addCols y z) = addCols y (addCols x z) := by
        rw [← addCols_assoc, addCols_comm x, addCols_assoc]
      rw [List.set_cons_succ, List.getD_cons_succ, sums, sums, ih (Nat.lt_of_succ_lt_succ h), swap, Nat.add_right_comm,
        Nat.add_assoc]

theorem addCols_zero {x : List Gf} (h : x.length = 4) : addCols x [0, 0, 0, 0] = x := by
  match x, h with
  | [a, b, c, d], _ => simp [addCols]

theorem sums_append (n : Nat) (x y : List Gf) : sums n (x ++ y) = addCols (sums n x) (sums (n + x.length) y) := by
  induction x generalizing n with
  | nil =>
    rw [List.nil_append, sums, addCols_comm, addCols_zero (sums_length _ _)]
    rfl
  | cons d x ih => rw [List.cons_append, sums, sums, ih, addCols_assoc, List.length_cons, Nat.add_right_comm, Nat.add_assoc]

theorem exists_sums (n : Nat) (c : List Gf) : ∃ s0 s1 s2 s3, sums n c = [s0, s1, s2, s3] :=
  match sums n c, sums_length n c with
  | [s0, s1, s2, s3], _ => ⟨s0, s1, s2, s3, rfl⟩

/-- The check nibbles bring the sums of the data nibbles to zero (R97). -/
theorem sums_codeword {d : List Gf} (h : d.length = 32) : sums 0 (codeword d) = [0, 0, 0, 0] := by
  obtain ⟨s0, s1, s2, s3, hs⟩ := exists_sums 0 d
  rw [codeword, sums_append, h, checkNibbles, hs]
  have cancel : s0 ^^^ s1 ^^^ s2 ^^^ (s1 ^^^ s2) = s0 := by
    rw [BitVec.xor_assoc s0, BitVec.xor_assoc s0, BitVec.xor_self, BitVec.xor_zero]
  simp [sums, column, addCols, scaleCol, gfMul_comm gfBeta, cancel]

theorem codeword_length {d : List Gf} (h : d.length = 32) : (codeword d).length = 36 := by
  obtain ⟨s0, s1, s2, s3, hs⟩ := exists_sums 0 d
  rw [codeword, List.length_append, h, checkNibbles, hs]
  rfl

/-! The decision of R98. -/

/-- The symbol at a point. -/
def symbolAt (p : Gf × Gf) : Option Nat :=
  if p.1 = 0 ∧ p.2 = 0 then some 32
  else if p.1 = 1 ∧ p.2 = 0 then some 33
  else if p.1 = 0 ∧ p.2 = 1 then some 34
  else if p.2 = 0x2 then some p.1.toNat
  else if p.2 = 0x4 then some (16 + p.1.toNat)
  else none

theorem symbolAt_coords : ∀ n < 35, symbolAt (coords n) = some n := by decide

/-- A multiple of a column is located at its symbol. -/
theorem locate_point {e : Gf} (he : e ≠ 0) {p : Gf × Gf} {n : Nat} (hn : symbolAt p = some n) :
    locate (scaleCol e (pointColumn p)) = .corrected n e := by
  have back (x : Gf) : gfMul (gfMul e x) (gfInv e) = x := gfMul_gfInv e x he
  have first : scaleCol e (pointColumn p) = [e, gfMul e p.1, gfMul e p.2, gfMul e (quadric p.1 p.2)] :=
    congrArg (· :: _) (gfMul_one e)
  rw [first, locate, if_neg (fun k => he k.1), if_neg he]
  simp only [back, ne_eq, not_true, if_false]
  unfold symbolAt at hn
  split_ifs at hn ⊢ <;> rw [Option.some.inj hn]

theorem locate_column {e : Gf} (he : e ≠ 0) {n : Nat} (hn : n < 36) : locate (scaleCol e (column n)) = .corrected n e := by
  by_cases h : n < 35
  · rw [column_of_lt h]
    exact locate_point he (symbolAt_coords n h)
  · obtain rfl : n = 35 := by omega
    have last : scaleCol e (column 35) = [0, 0, 0, e] := by simp [scaleCol, column]
    rw [last, locate, if_neg (fun k => he k.2.2.2), if_pos rfl, if_pos ⟨rfl, rfl⟩]

/-- The form of R95 on syndromes: zero at every multiple of a column. -/
def form (s : List Gf) : Gf := gfMul (s.getD 0 0) (s.getD 3 0) ^^^ quadric (s.getD 1 0) (s.getD 2 0)

/-- A product is undone from the left. -/
theorem gfMul_div {e : Gf} (he : e ≠ 0) (x : Gf) : gfMul e (gfMul x (gfInv e)) = x := by
  rw [← gfMul_assoc, gfMul_gfInv _ _ he]

theorem form_point (e : Gf) (p : Gf × Gf) : form (scaleCol e (pointColumn p)) = 0 := by
  have h := form_of_sum e 0 p.1 p.2 0 0
  simpa [form, scaleCol, pointColumn, gfMul_comm 0#4] using h

theorem form_two_points (e f : Gf) (p q : Gf × Gf) :
    form (addCols (scaleCol e (pointColumn p)) (scaleCol f (pointColumn q))) =
      gfMul (gfMul e f) (quadric (p.1 ^^^ q.1) (p.2 ^^^ q.2)) := by
  rw [← form_of_sum]
  simp [form, addCols, scaleCol, pointColumn]

theorem form_point_last (e f : Gf) (p : Gf × Gf) :
    form (addCols (scaleCol e (pointColumn p)) (scaleCol f (column 35))) = gfMul e f := by
  have h : gfMul e (gfMul e (quadric p.1 p.2)) = quadric (gfMul e p.1) (gfMul e p.2) := by
    simpa [form, scaleCol, pointColumn] using form_point e p
  simp [form, addCols, scaleCol, pointColumn, column, gfMul_xor_right, h, BitVec.xor_comm _ (gfMul e f)]

/-- Two multiples of different columns add up to a syndrome at which the form is not zero. -/
theorem form_two_columns {n m : Nat} {e f : Gf} (hn : n < 36) (hm : m < 36) (hne : n ≠ m) (he : e ≠ 0) (hf : f ≠ 0) :
    form (addCols (scaleCol e (column n)) (scaleCol f (column m))) ≠ 0 := by
  have point {k : Nat} (hk : k < 36) (h35 : k ≠ 35) : column k = pointColumn (coords k) := column_of_lt (by omega)
  by_cases h35 : n = 35
  · subst h35
    rw [addCols_comm, point hm hne.symm, form_point_last]
    exact gfMul_ne_zero f e hf he
  by_cases h35' : m = 35
  · subst h35'
    rw [point hn hne, form_point_last]
    exact gfMul_ne_zero e f he hf
  have apart : quadric ((coords n).1 ^^^ (coords m).1) ((coords n).2 ^^^ (coords m).2) ≠ 0 := by
    intro h0
    obtain ⟨h1, h2⟩ := quadric_eq_zero _ _ h0
    exact hne (coords_injective n (by omega) m (by omega) (Prod.ext (BitVec.xor_eq_zero_iff.mp h1) (BitVec.xor_eq_zero_iff.mp h2)))
  rw [point hn h35, point hm h35', form_two_points]
  exact gfMul_ne_zero _ _ (gfMul_ne_zero e f he hf) apart

/-- The decision is `uncorrectable` wherever the form is not zero. -/
theorem locate_of_form {s : List Gf} (h : form s ≠ 0) : locate s = .uncorrectable := by
  unfold locate
  split
  · next s0 s1 s2 s3 =>
    by_cases h0 : s0 = 0
    · have hsum : ¬ (s1 = 0 ∧ s2 = 0) := by
        rintro ⟨rfl, rfl⟩
        exact h (by rw [h0]; simp [form, gfMul_comm 0#4, quadric])
      rw [if_neg (fun k => hsum ⟨k.2.1, k.2.2.1⟩), if_pos h0, if_neg hsum]
    · have hz : gfMul s3 (gfInv s0) ≠ quadric (gfMul s1 (gfInv s0)) (gfMul s2 (gfInv s0)) := by
        intro hz
        have hp := form_point s0 (gfMul s1 (gfInv s0), gfMul s2 (gfInv s0))
        simp only [scaleCol, pointColumn, List.map_cons, List.map_nil, ← hz, gfMul_div h0] at hp
        exact h (by simpa using hp)
      rw [if_neg (fun k => h0 k.1), if_neg h0]
      exact if_pos hz
  · rfl

/-- Settles O59: the columns lie on the quadric of `form`, one error leaves a multiple of its column, and two errors leave
the quadric. -/
theorem nibbleCode : Obligations.NibbleCode := by
  unfold Obligations.NibbleCode
  intro d hd
  have hlen := codeword_length hd
  have hsum := sums_codeword hd
  have one {n : Nat} {e : Gf} (hn : n < 36) :
      sums 0 ((codeword d).set n ((codeword d).getD n 0 ^^^ e)) = scaleCol e (column n) := by
    rw [sums_set e (hlen.symm ▸ hn), hsum, addCols_zero (by simp [scaleCol]), Nat.zero_add]
  have back (n : Nat) (e : Gf) (hn : n < 36) :
      ((codeword d).set n ((codeword d).getD n 0 ^^^ e)).set n
        (((codeword d).set n ((codeword d).getD n 0 ^^^ e)).getD n 0 ^^^ e) = codeword d := by
    have hn' : n < (codeword d).length := hlen.symm ▸ hn
    simp [List.getD_eq_getElem?_getD, hn']
  refine ⟨by rw [hsum]; rfl, by rw [decodeWord, hsum]; rfl, fun n e hn he => ?_, fun n m e f hn hm hnm he hf => ?_⟩
  · have hl : locate (sums 0 ((codeword d).set n ((codeword d).getD n 0 ^^^ e))) = .corrected n e := by
      rw [one hn, locate_column he hn]
    exact ⟨hl, by rw [decodeWord, hl]; exact congrArg some (back n e hn)⟩
  · rw [decodeWord, sums_set f (by rw [List.length_set, hlen]; exact hm), one hn, Nat.zero_add, locate_of_form]
    exact form_two_columns hm hn hnm.symm hf he

end Sys2Proof.Machine
end

section
/-! SUPPORT. The control instructions of an Alaing core (R344, R345, R347). -/

namespace Sys2Proof.Machine
open Sys2Proof

/-- An instruction address (R344): in the code region, on a word. -/
theorem targetSub_eq_none_iff (a : Nat) : targetSub a = none ↔ a < 0x10000 ∧ a % 4 = 0 := by
  unfold targetSub areaOf
  by_cases hc : a < 0x10000
  · by_cases hm : a % 4 = 0 <;> simp [hc, hm]
  · split_ifs <;> simp [hc]

/-- An effect that leaves the core `d`. -/
theorem Takes.leaves_done {i : Instr} {s : State} {core op : Nat} {w : Word} {body : Core → Word → Effect}
    (h : Takes s core op w) (hi : exec i s = .next (s.alaing core op body)) {d : Core} {n : Nat}
    (he : body (s.coreAt core) w = .done d n) : Leaves i s core { d with cycle := (s.coreAt core).cycle + n } := by
  have hl := h.leaves_after hi
  rwa [he] at hl

/-- An effect that raises a trap without V. -/
theorem Takes.leaves_trap {i : Instr} {s : State} {core op : Nat} {w : Word} {body : Core → Word → Effect}
    (h : Takes s core op w) (hi : exec i s = .next (s.alaing core op body)) {cause : TrapCause} {sub : Nat} {info : Word}
    (he : body (s.coreAt core) w = .trap cause sub info false) : Traps i s core w cause sub info [] := by
  have hl := h.leaves_after hi
  rw [he] at hl
  exact ⟨_, flags_nil _, hl⟩

/-- The bits of F that MTF writes (R344). -/
theorem mtf_bit (f a : Word) (n : Nat) :
    ((f &&& ~~~mtfMask) ||| (a &&& mtfMask)).getLsbD n = if mtfMask.getLsbD n then a.getLsbD n else f.getLsbD n := by
  by_cases hn : n < 32
  · simp only [BitVec.getLsbD_or, BitVec.getLsbD_and, BitVec.getLsbD_not, hn, decide_true, Bool.true_and]
    cases mtfMask.getLsbD n <;> simp
  · simp [BitVec.getLsbD_of_ge, Nat.le_of_not_lt hn]

theorem mtf_flags (f a : Word) : Flags f ((f &&& ~~~mtfMask) ||| (a &&& mtfMask))
    [(0, a.getLsbD 0), (1, a.getLsbD 1), (2, a.getLsbD 2), (3, a.getLsbD 3), (4, a.getLsbD 4), (8, a.getLsbD 8)] := by
  refine ⟨fun p hp => ?_, fun n hn => ?_⟩
  · refine (mtf_bit f a p.1).trans ?_
    simp only [List.mem_cons, List.not_mem_nil, or_false] at hp
    have hset : ∀ n ∈ [0, 1, 2, 3, 4, 8], mtfMask.getLsbD n = true := by decide
    rcases hp with rfl | rfl | rfl | rfl | rfl | rfl <;> exact if_pos (hset _ (by simp))
  · have hout : mtfMask.getLsbD n = false := by
      by_cases h32 : n < 32
      · simp only [List.mem_cons, List.not_mem_nil, or_false, forall_eq_or_imp, forall_eq] at hn
        clear f a
        revert n
        decide
      · exact BitVec.getLsbD_of_ge _ _ (Nat.le_of_not_lt h32)
    rw [mtf_bit, hout]
    rfl

theorem bits_mod_two (w : Word) : (fImm w % 2 == 1) = w.getLsbD 0 := by
  have h : fImm w % 2 = w.toNat % 2 := Nat.mod_mod_of_dvd _ (by decide) |>.trans (by simp)
  rw [h, BitVec.getLsbD, Nat.testBit_zero]
  by_cases hw : w.toNat % 2 = 1 <;> simp [hw]

/-- Settles O3: each instruction's effect is a branch taken or not, a trap, a call, or a write of X[A] or F. -/
theorem controlInstructions : Obligations.ControlInstructions := by
  unfold Obligations.ControlInstructions
  intro s core w c target at_
  refine ⟨?taken, ?notTaken, ?bl, ?br, ?brTrap, ?dbnz, ?dbnzLast, ?svc, ?trap, ?nop, ?setm, ?mff, ?mtf⟩
  case taken =>
    intro h hc
    have he : alB c w = .done { c with pc := target } 2 := if_pos hc
    exact h.leaves_done rfl he
  case notTaken =>
    intro h hc
    have he : alB c w = c.goOn 1 := if_neg (Bool.eq_false_iff.mp hc)
    exact h.leaves_done rfl he
  case bl =>
    intro h
    have he : alBl c w = .done { c.setX (fA w) (c.pc + 4) with pc := target } 2 := rfl
    exact h.leaves_done rfl he
  case br =>
    intro h halign hcode
    have hsub : targetSub (c.opB w).toNat = none := (targetSub_eq_none_iff _).mpr ⟨hcode, halign⟩
    have he : alBr c w = .done { c with pc := c.opB w } 2 := by rw [alBr, hsub]
    exact h.leaves_done rfl he
  case brTrap =>
    intro h hbad
    cases hsub : targetSub (c.opB w).toNat with
    | none => exact absurd ((targetSub_eq_none_iff _).mp hsub).symm hbad
    | some sub => exact ⟨sub, h.leaves_trap rfl (by rw [alBr, hsub]; rfl)⟩
  case dbnz =>
    intro h hx
    have hne : c.xReg (fA w) - 1 ≠ 0 := fun e => hx (by bv_omega)
    have he : alDbnz c w = .done { c.setX (fA w) (c.xReg (fA w) - 1) with pc := target } 2 := if_neg hne
    exact h.leaves_done rfl he
  case dbnzLast =>
    intro h hx
    have he : alDbnz c w = (c.setX (fA w) 0).goOn 1 := by
      rw [alDbnz, hx]
      rfl
    exact h.leaves_done rfl he
  case svc =>
    intro h
    have he : alSvc c w = .done (c.startCall (uImmW w) true) 1 := rfl
    exact h.leaves_done rfl he
  case trap => exact fun h => h.leaves_trap rfl rfl
  case nop => exact fun h => h.goesOn rfl (flags_nil _) rfl
  case setm =>
    refine fun h => h.goesOn rfl (flags_one _ flagTV _ (by decide)) ?_
    rw [← bits_mod_two]
    rfl
  case mff => exact fun h => h.putsX_plain rfl rfl
  case mtf => exact fun h => h.goesOn rfl (mtf_flags _ _) rfl

end Sys2Proof.Machine
end

section
/-! SUPPORT. Loads and stores of an Alaing core (R342, R331): what a store writes, and what every other byte reads. -/

namespace Sys2Proof.Machine
open Sys2Proof

/-- A byte that a store outside the CALL word can write: data memory, mailbox or ARG. -/
def writable (a : Nat) : Prop :=
  (0x10000 ≤ a ∧ a < 0x18000) ∨ (0x20000 ≤ a ∧ a < 0x21000) ∨ (0x30030 ≤ a ∧ a < 0x30080)

theorem areaOf_data (a : Nat) : areaOf a = some .data ↔ 0x10000 ≤ a ∧ a < 0x18000 := by
  unfold areaOf
  split_ifs <;> simp <;> omega

theorem areaOf_mail (a : Nat) : areaOf a = some .mail ↔ 0x20000 ≤ a ∧ a < 0x21000 := by
  unfold areaOf
  split_ifs <;> simp <;> omega

theorem areaOf_window (a : Nat) : areaOf a = some .window ↔ 0x30000 ≤ a ∧ a < 0x30100 := by
  unfold areaOf
  split_ifs <;> simp <;> omega

theorem byteAt_setByte_same (c : Core) {a : Nat} (v : Byte) (h : writable a) : (c.setByte a v).byteAt a = v := by
  rcases h with h | h | h
  · simp [Core.setByte, Core.byteAt, (areaOf_data a).mpr h]
  · simp [Core.setByte, Core.byteAt, (areaOf_mail a).mpr h]
  · have hw : areaOf a = some .window := (areaOf_window a).mpr (by omega)
    have ho : ¬ a - 0x30000 < 4 ∧ ¬ a - 0x30000 < 8 ∧ ¬ (0x10 ≤ a - 0x30000 ∧ a - 0x30000 < 0x30) ∧
      0x30 ≤ a - 0x30000 ∧ a - 0x30000 < 0x80 := by omega
    have hi : a - 0x30000 - 0x30 = a - 0x30030 := by omega
    obtain ⟨h4, h8, h30, harg⟩ := ho
    simp only [Core.setByte, Core.byteAt, hw, h, h4, h8, h30, harg, and_self, if_true, if_false, hi, tget_tput_same]

theorem byteAt_setByte_other (c : Core) {a b : Nat} (v : Byte) (h : b ≠ a) : (c.setByte a v).byteAt b = c.byteAt b := by
  unfold Core.setByte
  split
  · next hd =>
    have ha : 0x10000 ≤ a ∧ a < 0x18000 := (areaOf_data _).mp hd
    unfold Core.byteAt
    split
    · rfl
    · next hb =>
      have hb : 0x10000 ≤ b ∧ b < 0x18000 := (areaOf_data _).mp hb
      exact tget_tput_other _ _ _ (by omega)
    · rfl
    · rfl
    · rfl
  · next hm =>
    have ha : 0x20000 ≤ a ∧ a < 0x21000 := (areaOf_mail _).mp hm
    unfold Core.byteAt
    split
    · rfl
    · rfl
    · next hb =>
      have hb : 0x20000 ≤ b ∧ b < 0x21000 := (areaOf_mail _).mp hb
      exact tget_tput_other _ _ _ (by omega)
    · rfl
    · rfl
  · split
    · next hr =>
      unfold Core.byteAt
      split
      · rfl
      · rfl
      · rfl
      · next hb =>
        have hb := (areaOf_window b).mp hb
        have hi : 0x30 ≤ b - 0x30000 → b - 0x30000 - 0x30 ≠ a - 0x30030 := by omega
        dsimp only
        split
        · rfl
        · split
          · rfl
          · split
            · rfl
            · split
              · next harg => exact tget_tput_other _ _ _ (hi harg.1)
              · rfl
      · rfl
    · rfl
  · rfl

theorem byteAt_setBytes_outside (c : Core) {a b : Nat} (v : Bytes) (h : b < a ∨ a + v.length ≤ b) :
    (c.setBytes a v).byteAt b = c.byteAt b := by
  induction v generalizing c a with
  | nil => rfl
  | cons x v ih =>
    rw [List.length_cons] at h
    rw [Core.setBytes, ih _ (by omega), byteAt_setByte_other _ _ (by omega)]

theorem byteAt_setBytes (c : Core) {a k : Nat} {v : Bytes} (hk : k < v.length) (h : ∀ j < v.length, writable (a + j)) :
    (c.setBytes a v).byteAt (a + k) = v.getD k 0 := by
  induction v generalizing c a k with
  | nil => exact absurd hk (Nat.not_lt_zero k)
  | cons x v ih =>
    rw [Core.setBytes]
    cases k with
    | zero =>
      rw [byteAt_setBytes_outside _ _ (by omega), List.getD_cons_zero]
      exact byteAt_setByte_same c x (h 0 (by simp))
    | succ k =>
      rw [List.length_cons] at hk
      rw [List.getD_cons_succ, ← ih (c.setByte a x) (a := a + 1) (by omega) fun j hj => ?_]
      · congr 1; omega
      · rw [Nat.add_assoc, Nat.add_comm 1]
        exact h (j + 1) (by rw [List.length_cons]; omega)

/-- What the local map allows a store to write, but for the CALL word (R331, R332, R342). -/
theorem writable_of_accessSub {a n : Nat} {isX : Bool} (h : accessSub a n true isX = none) (ha : a ≠ 0x30000) :
    ∀ k < n, writable (a + k) := by
  intro k hk
  unfold accessSub at h
  cases hr : areaOf a with
  | none => simp [hr] at h
  | some r =>
    simp only [hr, Bool.true_and, Bool.and_eq_true, beq_iff_eq, bne_iff_ne, ne_eq, Bool.not_eq_true'] at h
    split_ifs at h with hcode hstop hmod hwin
    cases r with
    | code => exact absurd rfl hcode
    | data =>
      have hr := (areaOf_data a).mp hr
      simp only [Area.stop] at hstop
      exact .inl (by omega)
    | mail =>
      have hr := (areaOf_mail a).mp hr
      simp only [Area.stop] at hstop
      exact .inr (.inl (by omega))
    | window =>
      have hr := (areaOf_window a).mp hr
      have hok : windowOk (a - 0x30000) n true isX = true := by simpa using hwin
      have harg : 0x30 ≤ a - 0x30000 ∧ a - 0x30000 + n ≤ 0x80 := by
        simp only [windowOk, Bool.not_true, Bool.and_false] at hok
        split_ifs at hok with h4 <;> simp_all
        omega
      exact .inr (.inr (by omega))

section
variable {i : Instr} {s : State} {core op : Nat} {w : Word}

/-- A load that the local map allows, of a word that is correctable. -/
theorem Core.load_of {c : Core} {n : Nat} {isX : Bool} (h : accessSub (c.address w) n false isX = none)
    (hg : c.badAt (c.address w) = false) (k : Bytes → Effect) : c.load w n isX k = k (c.bytes (c.address w) n) := by
  simp [Core.load, h, hg]

/-- A load into X[A]. -/
theorem Takes.loadsX {n : Nat} {isX : Bool} (h : Takes s core op w)
    (hi : exec i s = .next (s.alaing core op fun c w =>
      c.load w n isX fun b => (c.setX (fA w) (BitVec.ofNat 32 (leNat b))).goOn 1))
    (hmap : accessSub ((s.coreAt core).address w) n false isX = none)
    (hg : (s.coreAt core).badAt ((s.coreAt core).address w) = false) :
    PutsX i s core 1 w (BitVec.ofNat 32 (leNat ((s.coreAt core).bytes ((s.coreAt core).address w) n))) [] :=
  h.putsX_plain hi (Core.load_of hmap hg _)

theorem bytes_length (c : Core) (a n : Nat) : (c.bytes a n).length = n := by simp [Core.bytes]

theorem imageAt_bytes (c : Core) (a : Nat) : imageAt (c.bytes a 16) 0 = BitVec.ofNat 128 (beNat (c.bytes a 16)) := by
  have hlen := bytes_length c a 16
  simp [imageAt, bytesAt, fit, zeros, hlen, List.take_of_length_le]

/-- What a store outside the CALL word leaves of a core. -/
theorem Core.store_of {c : Core} {v : Bytes} {isX : Bool} (h : accessSub (c.address w) v.length true isX = none)
    (ha : c.address w ≠ 0x30000) : ∃ bad, c.store w v isX = ({ c.setBytes (c.address w) v with bad := bad } : Core).goOn 1 := by
  by_cases h16 : v.length = 16
  · refine ⟨(c.setBytes (c.address w) v).bad.filter (· != c.address w / 16), ?_⟩
    rw [Core.store, h]
    simp only [ha, if_false, h16, if_true]
  · refine ⟨(c.setBytes (c.address w) v).bad, ?_⟩
    rw [Core.store, h]
    simp only [ha, if_false, h16]

/-- The memories and the local bytes of a core do not depend on its list of uncorrectable words or its PC. -/
theorem byteAt_of_memories {c d : Core} (h1 : d.code = c.code) (h2 : d.data = c.data) (h3 : d.mail = c.mail)
    (h4 : d.call = c.call) (h5 : d.status = c.status) (h6 : d.res = c.res) (h7 : d.arg = c.arg) (a : Nat) :
    d.byteAt a = c.byteAt a := by
  simp only [Core.byteAt, h1, h2, h3, h4, h5, h6, h7]

/-- A store changes no register, and not where the core stands. -/
structure Core.SameButMemories (c t : Core) : Prop where
  d : t.d = c.d
  x : t.x = c.x
  f : t.f = c.f
  pc : t.pc = c.pc
  cycle : t.cycle = c.cycle
  mode : t.mode = c.mode
  inv : t.inv = c.inv
  trapped : t.trapped = c.trapped

theorem setByte_same (c : Core) (a : Nat) (v : Byte) : Core.SameButMemories c (c.setByte a v) := by
  unfold Core.setByte
  repeat' split
  all_goals exact ⟨rfl, rfl, rfl, rfl, rfl, rfl, rfl, rfl⟩

theorem setBytes_same (c : Core) (a : Nat) (v : Bytes) : Core.SameButMemories c (c.setBytes a v) := by
  induction v generalizing c a with
  | nil => exact ⟨rfl, rfl, rfl, rfl, rfl, rfl, rfl, rfl⟩
  | cons x v ih =>
    have h := setByte_same c a x
    have k := ih (c.setByte a x) (a + 1)
    exact ⟨k.d.trans h.d, k.x.trans h.x, k.f.trans h.f, k.pc.trans h.pc, k.cycle.trans h.cycle, k.mode.trans h.mode,
      k.inv.trans h.inv, k.trapped.trans h.trapped⟩

/-- A store outside the CALL word. -/
theorem Takes.stores {isX : Bool} {v : Core → Word → Bytes} (h : Takes s core op w)
    (hi : exec i s = .next (s.alaing core op fun c w => c.store w (v c w) isX))
    (hmap : accessSub ((s.coreAt core).address w) (v (s.coreAt core) w).length true isX = none)
    (ha : (s.coreAt core).address w ≠ 0x30000) :
    let c := s.coreAt core
    let a := c.address w
    ∃ t, Leaves i s core t ∧ (∀ k, k < (v c w).length → t.byteAt (a + k) = (v c w).getD k 0) ∧
      (∀ b, b < a ∨ a + (v c w).length ≤ b → t.byteAt b = c.byteAt b) ∧
      t.d = c.d ∧ t.x = c.x ∧ t.f = c.f ∧ t.pc = c.pc + 4 ∧ t.cycle = c.cycle + 1 ∧ t.mode = c.mode ∧ t.inv = c.inv ∧
      t.trapped = c.trapped := by
  intro c a
  obtain ⟨bad, hs⟩ := Core.store_of hmap ha
  have same := setBytes_same c a (v c w)
  refine ⟨_, h.leaves_done hi hs, fun k hk => ?_, fun b hb => ?_, same.d, same.x, same.f, congrArg (· + 4) same.pc, rfl,
    same.mode, same.inv, same.trapped⟩
  · refine (byteAt_of_memories rfl rfl rfl rfl rfl rfl rfl _).trans (byteAt_setBytes c hk ?_)
    exact fun j hj => writable_of_accessSub hmap ha j hj
  · exact (byteAt_of_memories rfl rfl rfl rfl rfl rfl rfl _).trans (byteAt_setBytes_outside c _ hb)

end

/-- Settles O6: a load is a register write, a store writes bytes of data memory, mailbox or ARG. -/
theorem loadsAndStores : Obligations.LoadsAndStores := by
  unfold Obligations.LoadsAndStores
  refine ⟨fun s core w => ⟨?ldx, ?ldh, ?ldb, ?ldd⟩, fun s core w => ⟨?std, ?stx, ?sth, ?stb⟩⟩
  case ldx => exact fun h hmap hg => h.loadsX rfl hmap hg
  case ldh => exact fun h hmap hg => h.loadsX rfl hmap hg
  case ldb => exact fun h hmap hg => h.loadsX rfl hmap hg
  case ldd =>
    intro h hmap hg
    refine h.goesOn rfl (flags_nil _) ((Core.load_of hmap hg _).trans ?_)
    rw [imageAt_bytes]
    rfl
  case std => exact fun h hmap ha => h.stores (v := fun c w => imageBytes (c.dReg (fA w))) rfl hmap ha
  case stx => exact fun h hmap ha => h.stores (v := fun c w => leBytes 4 (c.xReg (fA w)).toNat) rfl hmap ha
  case sth => exact fun h hmap ha => h.stores (v := fun c w => leBytes 2 (c.xReg (fA w)).toNat) rfl hmap ha
  case stb => exact fun h hmap ha => h.stores (v := fun c w => leBytes 1 (c.xReg (fA w)).toNat) rfl hmap ha

end Sys2Proof.Machine
end

section
/-! SUPPORT. What every Alaing command does alike: the traps before the instruction (R335, R345, R346), and what no
instruction changes (R328). -/

namespace Sys2Proof.Machine
open Sys2Proof

/-- What no instruction changes of its core. -/
structure Core.Frame (c t : Core) : Prop where
  code : t.code = c.code
  res : t.res = c.res
  status : t.status = c.status
  inv : t.inv = c.inv
  handles : t.handles = c.handles

theorem Core.Frame.refl (c : Core) : c.Frame c := ⟨rfl, rfl, rfl, rfl, rfl⟩

theorem Core.Frame.trans {c d e : Core} (h : c.Frame d) (k : d.Frame e) : c.Frame e :=
  ⟨k.code.trans h.code, k.res.trans h.res, k.status.trans h.status, k.inv.trans h.inv, k.handles.trans h.handles⟩

/-- An effect leaves a core of that kind. -/
def Effect.Frames (c : Core) : Effect → Prop
  | .done t _ => c.Frame t
  | .trap .. => True

section
variable {c : Core}

theorem Core.setByte_frame (c : Core) (a : Nat) (v : Byte) : c.Frame (c.setByte a v) := by
  unfold Core.setByte
  repeat' split
  all_goals exact ⟨rfl, rfl, rfl, rfl, rfl⟩

theorem Core.setBytes_frame (c : Core) (a : Nat) (v : Bytes) : c.Frame (c.setBytes a v) := by
  induction v generalizing c a with
  | nil => exact .refl c
  | cons x v ih => exact (c.setByte_frame a x).trans (ih _ _)

theorem Core.putFlag_frame (c : Core) (n : Nat) (v : Bool) : c.Frame (c.putFlag n v) := ⟨rfl, rfl, rfl, rfl, rfl⟩

theorem Core.overflow_frames (n : Nat) : (c.overflow n).Frames c := by
  unfold Core.overflow
  split
  · trivial
  · exact ⟨rfl, rfl, rfl, rfl, rfl⟩

theorem Core.putWord_frames {d : Core} (h : c.Frame d) (a : Nat) (r : Option Image) (n : Nat) :
    (d.putWord a r n).Frames c := by
  cases r with
  | none =>
    simp only [Core.putWord, Core.overflow]
    split
    · trivial
    · exact h.trans ⟨rfl, rfl, rfl, rfl, rfl⟩
  | some v => exact h.trans ⟨rfl, rfl, rfl, rfl, rfl⟩

variable (w : Word)

theorem Core.withTwo_frames {k : Image → Image → Effect} (hk : ∀ a b, (k a b).Frames c) : (c.withTwo w k).Frames c := by
  unfold Core.withTwo
  repeat' split
  · trivial
  · trivial
  · exact hk _ _

theorem Core.withOne_frames {k : Image → Effect} (hk : ∀ a, (k a).Frames c) : (c.withOne w k).Frames c := by
  unfold Core.withOne
  split
  · trivial
  · exact hk _

theorem Core.withPair_frames {k : Int → Effect} (hk : ∀ a, (k a).Frames c) : (c.withPair w k).Frames c := by
  unfold Core.withPair
  repeat' split
  · trivial
  · trivial
  · exact hk _
  · exact hk _

theorem Core.load_frames (n : Nat) (isX : Bool) {k : Bytes → Effect} (hk : ∀ b, (k b).Frames c) :
    (c.load w n isX k).Frames c := by
  unfold Core.load
  dsimp only
  repeat' split
  · trivial
  · trivial
  · exact hk _

theorem Core.store_frames (v : Bytes) (isX : Bool) : (c.store w v isX).Frames c := by
  unfold Core.store
  dsimp only
  split
  · trivial
  · split
    · exact ⟨rfl, rfl, rfl, rfl, rfl⟩
    · split
      · exact (c.setBytes_frame (c.address w) v).trans ⟨rfl, rfl, rfl, rfl, rfl⟩
      · exact (c.setBytes_frame (c.address w) v).trans ⟨rfl, rfl, rfl, rfl, rfl⟩

variable (c)

theorem alDdiv_frames : (alDdiv c w).Frames c := by
  refine Core.withPair_frames w fun a => ?_
  dsimp only
  split
  · trivial
  · split
    · exact Core.overflow_frames _
    · exact ⟨rfl, rfl, rfl, rfl, rfl⟩

theorem alDrnd_frames : (alDrnd c w).Frames c := by
  refine Core.withPair_frames w fun a => ?_
  dsimp only
  split
  · exact Core.overflow_frames _
  · exact Core.putWord_frames (c.putFlag_frame flagC _) ..

theorem alDshf_frames : (alDshf c w).Frames c := by
  refine Core.withOne_frames w fun a => ?_
  dsimp only
  split
  · exact Core.overflow_frames _
  · exact Core.putWord_frames (c.putFlag_frame flagC _) ..

theorem alDcvb_frames : (alDcvb c w).Frames c := by
  refine Core.withOne_frames w fun a => ?_
  dsimp only
  split
  · exact ⟨rfl, rfl, rfl, rfl, rfl⟩
  · split
    · exact Core.overflow_frames _
    · exact ⟨rfl, rfl, rfl, rfl, rfl⟩

theorem alB_frames : (alB c w).Frames c := by
  unfold alB
  split
  · exact ⟨rfl, rfl, rfl, rfl, rfl⟩
  · exact ⟨rfl, rfl, rfl, rfl, rfl⟩

theorem alBr_frames : (alBr c w).Frames c := by
  unfold alBr
  split
  · trivial
  · exact ⟨rfl, rfl, rfl, rfl, rfl⟩

theorem alDbnz_frames : (alDbnz c w).Frames c := by
  unfold alDbnz
  dsimp only
  split
  · exact ⟨rfl, rfl, rfl, rfl, rfl⟩
  · exact ⟨rfl, rfl, rfl, rfl, rfl⟩

end

/-- The command runs one body under one opcode, which keeps the frame of the core. -/
def IsAlaing (make : Nat → Instr) : Prop :=
  ∃ op body, (∀ s core, exec (make core) s = .next (s.alaing core op body)) ∧ ∀ c w, (body c w).Frames c

theorem isAlaing_of {make : Nat → Instr} {op : Nat} {body : Core → Word → Effect}
    (h : ∀ s core, exec (make core) s = .next (s.alaing core op body)) (hb : ∀ c w, (body c w).Frames c) :
    IsAlaing make := ⟨op, body, h, hb⟩

/-- The list of the Alaing instructions, with what each body leaves. -/
theorem alaingCommands_isAlaing : ∀ make ∈ alaingCommands, IsAlaing make := by
  simp only [alaingCommands, List.forall_mem_cons]
  exact ⟨
    isAlaing_of (op := 0x01) (body := alDadd) (fun _ _ => rfl) (fun c w => Core.withTwo_frames w fun _ _ => Core.putWord_frames (.refl c) ..),
    isAlaing_of (op := 0x02) (body := alDsub) (fun _ _ => rfl) (fun c w => Core.withTwo_frames w fun _ _ => Core.putWord_frames (.refl c) ..),
    isAlaing_of (op := 0x03) (body := alDcmp) (fun _ _ => rfl) (fun _ w => Core.withTwo_frames w fun _ _ => ⟨rfl, rfl, rfl, rfl, rfl⟩),
    isAlaing_of (op := 0x04) (body := alDmul) (fun _ _ => rfl) (fun _ w => Core.withTwo_frames w fun _ _ => ⟨rfl, rfl, rfl, rfl, rfl⟩),
    isAlaing_of (op := 0x05) (body := alDdiv) (fun _ _ => rfl) (fun c w => alDdiv_frames c w),
    isAlaing_of (op := 0x06) (body := alDrnd) (fun _ _ => rfl) (fun c w => alDrnd_frames c w),
    isAlaing_of (op := 0x07) (body := alDshf) (fun _ _ => rfl) (fun c w => alDshf_frames c w),
    isAlaing_of (op := 0x08) (body := alDneg) (fun _ _ => rfl) (fun _ w => Core.withOne_frames w fun _ => ⟨rfl, rfl, rfl, rfl, rfl⟩),
    isAlaing_of (op := 0x09) (body := alDabs) (fun _ _ => rfl) (fun _ w => Core.withOne_frames w fun _ => ⟨rfl, rfl, rfl, rfl, rfl⟩),
    isAlaing_of (op := 0x0A) (body := alDmov) (fun _ _ => rfl) (fun _ _ => ⟨rfl, rfl, rfl, rfl, rfl⟩),
    isAlaing_of (op := 0x0B) (body := alDnrm) (fun _ _ => rfl) (fun _ w => Core.withOne_frames w fun _ => ⟨rfl, rfl, rfl, rfl, rfl⟩),
    isAlaing_of (op := 0x0C) (body := alDval) (fun _ _ => rfl) (fun _ _ => ⟨rfl, rfl, rfl, rfl, rfl⟩),
    isAlaing_of (op := 0x0D) (body := alDtst) (fun _ _ => rfl) (fun _ w => Core.withOne_frames w fun _ => ⟨rfl, rfl, rfl, rfl, rfl⟩),
    isAlaing_of (op := 0x0E) (body := alDcvb) (fun _ _ => rfl) (fun c w => alDcvb_frames c w),
    isAlaing_of (op := 0x0F) (body := alDcvd) (fun _ _ => rfl) (fun c _ => Core.putWord_frames (.refl c) ..),
    isAlaing_of (op := 0x10) (body := alDli) (fun _ _ => rfl) (fun _ _ => ⟨rfl, rfl, rfl, rfl, rfl⟩),
    isAlaing_of (op := 0x11) (body := alDaddi) (fun _ _ => rfl) (fun c w => Core.withOne_frames w fun _ => Core.putWord_frames (.refl c) ..),
    isAlaing_of (op := 0x12) (body := alDcmpi) (fun _ _ => rfl) (fun _ w => Core.withOne_frames w fun _ => ⟨rfl, rfl, rfl, rfl, rfl⟩),
    isAlaing_of (op := 0x13) (body := alDget) (fun _ _ => rfl) (fun _ _ => ⟨rfl, rfl, rfl, rfl, rfl⟩),
    isAlaing_of (op := 0x14) (body := alDput) (fun _ _ => rfl) (fun _ _ => ⟨rfl, rfl, rfl, rfl, rfl⟩),
    isAlaing_of (op := 0x15) (body := alDsel) (fun _ _ => rfl) (fun _ _ => ⟨rfl, rfl, rfl, rfl, rfl⟩),
    isAlaing_of (op := 0x18) (body := alLdd) (fun _ _ => rfl) (fun _ w => Core.load_frames w _ _ fun _ => ⟨rfl, rfl, rfl, rfl, rfl⟩),
    isAlaing_of (op := 0x19) (body := alStd) (fun _ _ => rfl) (fun _ w => Core.store_frames w _ _),
    isAlaing_of (op := 0x1A) (body := alLdx) (fun _ _ => rfl) (fun _ w => Core.load_frames w _ _ fun _ => ⟨rfl, rfl, rfl, rfl, rfl⟩),
    isAlaing_of (op := 0x1B) (body := alStx) (fun _ _ => rfl) (fun _ w => Core.store_frames w _ _),
    isAlaing_of (op := 0x1C) (body := alLdh) (fun _ _ => rfl) (fun _ w => Core.load_frames w _ _ fun _ => ⟨rfl, rfl, rfl, rfl, rfl⟩),
    isAlaing_of (op := 0x1D) (body := alSth) (fun _ _ => rfl) (fun _ w => Core.store_frames w _ _),
    isAlaing_of (op := 0x1E) (body := alLdb) (fun _ _ => rfl) (fun _ w => Core.load_frames w _ _ fun _ => ⟨rfl, rfl, rfl, rfl, rfl⟩),
    isAlaing_of (op := 0x1F) (body := alStb) (fun _ _ => rfl) (fun _ w => Core.store_frames w _ _),
    isAlaing_of (op := 0x20) (body := alXadd) (fun _ _ => rfl) (fun _ _ => ⟨rfl, rfl, rfl, rfl, rfl⟩),
    isAlaing_of (op := 0x21) (body := alXsub) (fun _ _ => rfl) (fun _ _ => ⟨rfl, rfl, rfl, rfl, rfl⟩),
    isAlaing_of (op := 0x22) (body := alXand) (fun _ _ => rfl) (fun _ _ => ⟨rfl, rfl, rfl, rfl, rfl⟩),
    isAlaing_of (op := 0x23) (body := alXor) (fun _ _ => rfl) (fun _ _ => ⟨rfl, rfl, rfl, rfl, rfl⟩),
    isAlaing_of (op := 0x24) (body := alXxor) (fun _ _ => rfl) (fun _ _ => ⟨rfl, rfl, rfl, rfl, rfl⟩),
    isAlaing_of (op := 0x25) (body := alXshl) (fun _ _ => rfl) (fun _ _ => ⟨rfl, rfl, rfl, rfl, rfl⟩),
    isAlaing_of (op := 0x26) (body := alXshr) (fun _ _ => rfl) (fun _ _ => ⟨rfl, rfl, rfl, rfl, rfl⟩),
    isAlaing_of (op := 0x27) (body := alXsar) (fun _ _ => rfl) (fun _ _ => ⟨rfl, rfl, rfl, rfl, rfl⟩),
    isAlaing_of (op := 0x28) (body := alXmul) (fun _ _ => rfl) (fun _ _ => ⟨rfl, rfl, rfl, rfl, rfl⟩),
    isAlaing_of (op := 0x29) (body := alXcmp) (fun _ _ => rfl) (fun _ _ => ⟨rfl, rfl, rfl, rfl, rfl⟩),
    isAlaing_of (op := 0x2A) (body := alXaddi) (fun _ _ => rfl) (fun _ _ => ⟨rfl, rfl, rfl, rfl, rfl⟩),
    isAlaing_of (op := 0x2B) (body := alXli) (fun _ _ => rfl) (fun _ _ => ⟨rfl, rfl, rfl, rfl, rfl⟩),
    isAlaing_of (op := 0x2C) (body := alXlui) (fun _ _ => rfl) (fun _ _ => ⟨rfl, rfl, rfl, rfl, rfl⟩),
    isAlaing_of (op := 0x2D) (body := alXori) (fun _ _ => rfl) (fun _ _ => ⟨rfl, rfl, rfl, rfl, rfl⟩),
    isAlaing_of (op := 0x2E) (body := alXandi) (fun _ _ => rfl) (fun _ _ => ⟨rfl, rfl, rfl, rfl, rfl⟩),
    isAlaing_of (op := 0x2F) (body := alXcmpi) (fun _ _ => rfl) (fun _ _ => ⟨rfl, rfl, rfl, rfl, rfl⟩),
    isAlaing_of (op := 0x30) (body := alB) (fun _ _ => rfl) (fun c w => alB_frames c w),
    isAlaing_of (op := 0x31) (body := alBl) (fun _ _ => rfl) (fun _ _ => ⟨rfl, rfl, rfl, rfl, rfl⟩),
    isAlaing_of (op := 0x32) (body := alBr) (fun _ _ => rfl) (fun c w => alBr_frames c w),
    isAlaing_of (op := 0x33) (body := alDbnz) (fun _ _ => rfl) (fun c w => alDbnz_frames c w),
    isAlaing_of (op := 0x37) (body := alNop) (fun _ _ => rfl) (fun _ _ => ⟨rfl, rfl, rfl, rfl, rfl⟩),
    isAlaing_of (op := 0x38) (body := alSvc) (fun _ _ => rfl) (fun _ _ => ⟨rfl, rfl, rfl, rfl, rfl⟩),
    isAlaing_of (op := 0x39) (body := alTrap) (fun _ _ => rfl) (fun _ _ => trivial),
    isAlaing_of (op := 0x3A) (body := alSetm) (fun _ _ => rfl) (fun _ _ => ⟨rfl, rfl, rfl, rfl, rfl⟩),
    isAlaing_of (op := 0x3B) (body := alMff) (fun _ _ => rfl) (fun _ _ => ⟨rfl, rfl, rfl, rfl, rfl⟩),
    isAlaing_of (op := 0x3C) (body := alMtf) (fun _ _ => rfl) (fun _ _ => ⟨rfl, rfl, rfl, rfl, rfl⟩),
    List.forall_mem_nil _⟩

/-- A trap before the instruction: the fetch is refused, or the word is illegal. -/
theorem State.alaing_raises {s : State} {core op sub : Nat} {body : Core → Word → Effect} {cause : TrapCause}
    {info w : Word} (hr : s.coreRuns core = true)
    (h : (s.coreAt core).execute op body = some (.trap cause sub info false, w)) :
    s.alaing core op body = s.setCore core ((s.coreAt core).raise cause sub w info false) := by
  simp only [State.alaing, hr, Bool.not_true, h]
  rfl

theorem Core.execute_badFetch {c : Core} {sub : Nat} (op : Nat) (body : Core → Word → Effect)
    (h : fetchSub c.pc.toNat = some sub) (hc : c.cycle < 100) :
    c.execute op body = some (.trap .mpu sub c.pc false, 0) := by
  simp only [Core.execute, h]
  exact if_pos hc

theorem Core.execute_illegal {c : Core} {sub : Nat} (op : Nat) (body : Core → Word → Effect)
    (h : fetchSub c.pc.toNat = none) (hb : c.badAt c.pc.toNat = false) (hw : illegalSub (c.insnAt c.pc.toNat) = some sub)
    (hc : c.cycle < 100) : c.execute op body = some (.trap .illegal sub 0 false, c.insnAt c.pc.toNat) := by
  simp only [Core.execute, h, hb, hw]
  exact if_pos hc

/-- A command whose core raises a trap without V. -/
theorem traps_of {i : Instr} {s : State} {core sub : Nat} {cause : TrapCause} {insn info : Word}
    (h : exec i s = .next (s.setCore core ((s.coreAt core).raise cause sub insn info false))) :
    Traps i s core insn cause sub info [] := ⟨_, flags_nil _, h⟩

/-- Settles O7: the fetch and the word are checked before the opcode is looked at. -/
theorem fetchAndIllegalTraps : Obligations.FetchAndIllegalTraps := by
  unfold Obligations.FetchAndIllegalTraps
  intro make hmake s core c w hr hc
  obtain ⟨op, body, hx, -⟩ := alaingCommands_isAlaing make hmake
  refine ⟨fun hbad => ?_, fun sub hcode halign hgood hill => ?_⟩
  · cases hsub : targetSub c.pc.toNat with
    | none => exact absurd ((targetSub_eq_none_iff _).mp hsub) hbad
    | some sub => exact ⟨sub, traps_of ((hx s core).trans
        (congrArg _ (State.alaing_raises hr (Core.execute_badFetch op body hsub hc))))⟩
  · have hfetch : fetchSub c.pc.toNat = none := (targetSub_eq_none_iff _).mpr ⟨hcode, halign⟩
    exact traps_of ((hx s core).trans
      (congrArg _ (State.alaing_raises hr (Core.execute_illegal op body hfetch hgood hill hc))))

/-- What a taken instruction, or a trap before it, leaves of a core. -/
theorem Core.execute_frames {c : Core} {op : Nat} {body : Core → Word → Effect} {e : Effect} {w : Word}
    (hb : ∀ c w, (body c w).Frames c) (h : c.execute op body = some (e, w)) : c.Frame (c.after e w) := by
  have frame {e : Effect} (he : e.Frames c) : c.Frame (c.after e w) := by
    cases e with
    | done d n => exact he.trans ⟨rfl, rfl, rfl, rfl, rfl⟩
    | trap cause sub info v => cases v <;> exact ⟨rfl, rfl, rfl, rfl, rfl⟩
  unfold Core.execute at h
  dsimp only at h
  split at h
  · split at h <;> cases h
    exact frame trivial
  · split at h
    · split at h <;> cases h
      exact frame trivial
    · split at h
      · split at h <;> cases h
        exact frame trivial
      · split at h <;> cases h
        exact frame (hb _ _)

/-- Settles O8: a command puts back its own core at most, as its body or a trap leaves it. -/
theorem alaingFrame : Obligations.AlaingFrame := by
  unfold Obligations.AlaingFrame
  intro make hmake s core
  obtain ⟨op, body, hx, hb⟩ := alaingCommands_isAlaing make hmake
  by_cases hr : s.coreRuns core = true
  · cases he : (s.coreAt core).execute op body with
    | none => exact .inl ((hx s core).trans (congrArg _ (by simp [State.alaing, he])))
    | some r =>
      have frame := Core.execute_frames hb he
      refine .inr ⟨_, (hx s core).trans (congrArg _ ?_), frame.code, frame.res, frame.status, frame.inv, frame.handles⟩
      simp [State.alaing, hr, he, State.modCore]
  · exact .inl ((hx s core).trans (congrArg _ (by simp [State.alaing, hr])))

end Sys2Proof.Machine
end

section
/-! SUPPORT. Prime operations in stage 2 (R30, R489, R179, R412, R414). -/

namespace Sys2Proof.Machine
open Sys2Proof

/-! What ends one piece of work. -/

/-- A command that ends one piece of work, without a fence, changes nothing else. -/
theorem endsOnly_of {i : Instr} {s : State} {id : Nat} {w : Work} {st : Status} {res : Bytes}
    (h : exec i s = .next (s.finish id st res)) (hw : s.workAt id = some w) (hr : w.ring < 65536) (hf : st ≠ .fault)
    (ht : st ≠ .tamper) : EndsOnly i s id st res := by
  obtain ⟨ends, only⟩ := State.finish_ends res hw hr hf ht
  exact ⟨_, h, ends, only⟩

/-- The operation in stage 2 is the one carried out. -/
theorem State.onPrime_of {s : State} {ring opcode : Nat} {w : Work} (h : PrimeReady s ring opcode w) (f : Work → State) :
    s.onPrime ring opcode f = f w := by
  obtain ⟨hold, -, hfail, -⟩ := h
  simp only [State.onPrime, hold, State.primeEnd, hfail]

theorem PrimeReady.ring_lt {s : State} {ring opcode : Nat} {w : Work} (h : PrimeReady s ring opcode w) :
    w.ring < 65536 := by
  obtain ⟨hold, -, -, hr⟩ := h
  have hw := List.find?_some hold
  simp only [Bool.and_eq_true, beq_iff_eq] at hw
  exact hw.1 ▸ hr

/-- An operation whose body finishes it with a status that fences nothing. -/
theorem PrimeReady.endsOnly {s : State} {ring opcode : Nat} {w : Work} (h : PrimeReady s ring opcode w) {i : Instr}
    {f : Work → State} (hi : exec i s = .next (s.onPrime ring opcode f)) {st : Status} {res : Bytes}
    (hf : f w = s.finish w.id st res) (h8 : st ≠ .fault) (h12 : st ≠ .tamper) : EndsOnly i s w.id st res := by
  rw [State.onPrime_of h, hf] at hi
  exact endsOnly_of hi h.2.1 h.ring_lt h8 h12

/-! A write of the store changes the store and, without a spare page, the logs. -/

theorem State.newCopy_eq (s : State) (e : WbEntry) : ∃ nv logs, (s.newCopy e).1 = { s with nv := nv, logs := logs } := by
  unfold State.newCopy
  dsimp only
  split
  · exact ⟨_, _, rfl⟩
  · split
    · exact ⟨_, _, rfl⟩
    · split
      · exact ⟨_, _, rfl⟩
      · exact ⟨_, _, rfl⟩

theorem State.writeCounter_eq (s : State) (n : Nat) : ∃ nv logs, s.writeCounter n = { s with nv := nv, logs := logs } := by
  unfold State.writeCounter
  dsimp only
  split
  · exact ⟨_, _, rfl⟩
  · split
    · exact s.newCopy_eq _
    · exact ⟨_, _, rfl⟩

/-! COUNTER_INCR (R487, R489). -/

theorem Counter.writeIncr_value (c : Counter) : c.writeIncr.value = c.value := by
  unfold Counter.writeIncr
  dsimp only
  repeat' split
  all_goals rfl

theorem State.incrCounter_eq (s : State) (n : Nat) : ∃ nv logs, s.incrCounter n = { s with nv := nv, logs := logs } := by
  unfold State.incrCounter
  dsimp only
  split
  · obtain ⟨nv, logs, h⟩ := State.writeCounter_eq (s.setCounter n { (s.counterAt n).writeIncr with value := (s.counterAt n).value + 1 }) n
    exact ⟨nv, logs, h⟩
  · split
    · exact ⟨_, _, rfl⟩
    · exact ⟨_, _, rfl⟩

theorem State.incrCounter_counters (s : State) (n : Nat) :
    ∃ c : Counter, c.value = (s.counterAt n).value + 1 ∧ (s.incrCounter n).nv.counters = (s.setCounter n c).nv.counters := by
  unfold State.incrCounter
  dsimp only
  split
  · exact ⟨{ (s.counterAt n).writeIncr with value := (s.counterAt n).value + 1 }, rfl,
      (State.writeCounter_rewrites (s.setCounter n _) n).nv.counters⟩
  · refine ⟨{ s.counterAt n with value := (s.counterAt n).value + 1 }, rfl, ?_⟩
    split
    · rfl
    · rfl

theorem State.incrCounter_value (s : State) (n : Nat) :
    ((s.incrCounter n).counterAt n).value = (s.counterAt n).value + 1 := by
  obtain ⟨c, hc, h⟩ := s.incrCounter_counters n
  have same : (s.incrCounter n).counterAt n = (s.setCounter n c).counterAt n := congrArg (tget Counter.issued · n) h
  rw [same, State.setCounter_same, hc]

theorem State.incrCounter_other (s : State) {n k : Nat} (hk : k ≠ n) : (s.incrCounter n).counterAt k = s.counterAt k := by
  obtain ⟨c, -, h⟩ := s.incrCounter_counters n
  exact (congrArg (tget Counter.issued · k) h).trans (State.setCounter_other s c hk)

/-- Settles O9: each operation in stage 2 finishes with its result; COUNTER_INCR changes its counter first. -/
theorem primeOperations : Obligations.PrimeOperations := by
  unfold Obligations.PrimeOperations
  refine ⟨fun s ring w => ⟨fun h hs => ?counterRead, fun old h hb hr hid => ?tallyRead, fun h => ?macGen, fun h => ?macVerify,
    fun h => ?compare⟩, ?counterIncr⟩
  case counterRead =>
    refine h.endsOnly rfl ?_ (by decide) (by decide)
    simp [State.counterOp, hs]
  case tallyRead =>
    refine h.endsOnly rfl ?_ (by decide) (by decide)
    have hsel : readGroup old (w.aux % 4) =
        [imageBytes old.value, imageBytes old.floor, imageBytes old.ceiling, bytesAt old.bytes 0x30 16].getD (w.aux % 4) [] := by
      have hlt : w.aux % 4 < 4 := Nat.mod_lt _ (by decide)
      match w.aux % 4, hlt with
      | 0, _ => rfl
      | 1, _ => rfl
      | 2, _ => rfl
      | 3, _ => rfl
    simp only [State.tallyReadOp, State.primeBook, hr, hid, hsel]
  case macGen => exact h.endsOnly rfl rfl (by decide) (by decide)
  case macVerify =>
    refine h.endsOnly rfl (by simp only [State.macVerifyOp, beq_iff_eq]) ?_ ?_ <;> split <;> decide
  case compare =>
    refine h.endsOnly rfl ?_ ?_ ?_
    · unfold State.compareOp
      by_cases hc : bytesAt w.desc 0x10 w.cmpLen = bytesAt w.desc (0x10 + w.cmpLen) w.cmpLen
      · simp [hc, flag, leBytes]
      · simp [hc, flag, leBytes]
    all_goals split <;> decide
  case counterIncr =>
    intro s ring w n v h hs hv
    have hi : exec (.counterIncr ring) s = .next ((s.incrCounter n).finish w.id .ok (leBytes 8 (v + 1) ++ counterMac w (v + 1))) := by
      have hx : exec (.counterIncr ring) s = .next (s.onPrime ring 0x1001 (fun w => s.counterOp w true)) := rfl
      rw [hx, State.onPrime_of h]
      have hcount : ((s.incrCounter n).counterAt n).value = v + 1 := s.incrCounter_value n
      simp only [n, v] at hs hv hcount
      simp [State.counterOp, hs, hv, hcount, n, v]
    obtain ⟨nv, logs, he⟩ := s.incrCounter_eq n
    have hw : (s.incrCounter n).workAt w.id = some w := by rw [he]; exact h.2.1
    obtain ⟨ends, only, -⟩ := State.finish_ends (leBytes 8 (v + 1) ++ counterMac w (v + 1)) hw h.ring_lt
      (by decide : Status.ok ≠ .fault) (by decide)
    refine ⟨_, hi, ends, ?_, fun m hm => ?_, ?_, ?_⟩
    · rw [only]; exact s.incrCounter_value n
    · rw [only]; exact s.incrCounter_other hm
    · rw [only, he]
    · rw [only, he]

end Sys2Proof.Machine
end

section
/-! SUPPORT. Records of the Pan and commits of a book (R120, R169, R182, R183). -/

namespace Sys2Proof.Machine
open Sys2Proof

/-! One block, one record. -/

/-- Changing one resident block leaves the others. -/
theorem State.blockAt_modBlock (s : State) (book block k n : Nat) {f : PanBlock → PanBlock}
    (hf : ∀ b, (f b).book = b.book ∧ (f b).index = b.index) :
    (s.modBlock book block f).blockAt k n = if k = book ∧ n = block then (s.blockAt k n).map f else s.blockAt k n := by
  have keys (b : PanBlock) : ((if b.book == book && b.index == block then f b else b).book == k &&
      (if b.book == book && b.index == block then f b else b).index == n) = (b.book == k && b.index == n) := by
    split
    · rw [(hf b).1, (hf b).2]
    · rfl
  have found : (s.modBlock book block f).blockAt k n =
      (s.blockAt k n).map (fun b => if b.book == book && b.index == block then f b else b) := by
    unfold State.modBlock State.blockAt
    rw [List.find?_map]
    simp only [Function.comp_def, keys]
  rw [found]
  cases hb : s.blockAt k n with
  | none => simp
  | some b =>
    have hk : b.book = k ∧ b.index = n := by simpa using List.find?_some hb
    obtain ⟨rfl, rfl⟩ := hk
    simp only [Option.map_some, Bool.and_eq_true, beq_iff_eq]
    split <;> rfl

/-- The block of a record that a commit has written. -/
def PanBlock.write (b : PanBlock) (slot now : Nat) (t : Tally) : PanBlock :=
  { b with recs := b.recs.set slot t, dirty := true, dirtyAt := if b.dirty then b.dirtyAt else now }

theorem State.blockAt_setRecord (s : State) (book index k n : Nat) (t : Tally) : (s.setRecord book index t).blockAt k n =
    if k = book ∧ n = index / 4 then (s.blockAt k n).map (fun b => b.write (index % 4) s.now t) else s.blockAt k n :=
  State.blockAt_modBlock _ _ _ _ _ fun _ => ⟨rfl, rfl⟩

/-- The record that a commit wrote is held. -/
theorem Holds.setRecord_same {s : State} {book index : Nat} {old : Tally} (h : Holds s book index old) (new : Tally) :
    Holds (s.setRecord book index new) book index new := by
  obtain ⟨b, hb, hlost, hrec⟩ := h
  have hlt : index % 4 < b.recs.length := (List.getElem?_eq_some_iff.mp hrec).1
  have hnew := s.blockAt_setRecord book index book (index / 4) new
  rw [if_pos ⟨rfl, rfl⟩, hb, Option.map_some] at hnew
  exact ⟨_, hnew, hlost, List.getElem?_set_self hlt⟩

/-- Every other record is held as before. -/
theorem Holds.setRecord_other {s : State} {book index k i : Nat} {r : Tally} (h : Holds s k i r) (new : Tally)
    (hne : k ≠ book ∨ i ≠ index) : Holds (s.setRecord book index new) k i r := by
  obtain ⟨b, hb, hlost, hrec⟩ := h
  have hnew := s.blockAt_setRecord book index k (i / 4) new
  by_cases hblock : k = book ∧ i / 4 = index / 4
  · have hslot : index % 4 ≠ i % 4 := by omega
    rw [if_pos hblock, hb, Option.map_some] at hnew
    exact ⟨_, hnew, hlost, (List.getElem?_set_ne hslot).trans hrec⟩
  · rw [if_neg hblock, hb] at hnew
    exact ⟨b, hnew, hlost, hrec⟩

/-- A record is held as long as the Pan stands. -/
theorem Holds.of_pan {s t : State} {book index : Nat} {r : Tally} (h : Holds s book index r) (hp : t.pan = s.pan) :
    Holds t book index r := by
  unfold Holds State.blockAt at h ⊢
  rwa [hp]

theorem State.record_of_holds {s : State} {book index : Nat} {r : Tally} (h : Holds s book index r) :
    s.record book index = some r := by
  obtain ⟨b, hb, hlost, hrec⟩ := h
  simp [State.record, hb, hlost, hrec, Option.filter]

/-! A record of the journal is staged. -/

/-- The book after a commit: LSEQ and the staged records. -/
theorem State.commitRecord_book (s : State) (book : Nat) (r : RecordInfo) :
    ((s.commitRecord book r).bookAt book).lseq = (s.bookAt book).lseq + 1 ∧
      ((s.commitRecord book r).bookAt book).staged.length = (s.bookAt book).staged.length + 1 := by
  rw [State.commitRecord, State.modBook, State.setBook_same]
  exact ⟨rfl, by rw [List.length_append]; rfl⟩

theorem State.commitRecord_other (s : State) {book k : Nat} (r : RecordInfo) (h : k ≠ book) :
    (s.commitRecord book r).bookAt k = s.bookAt k := State.setBook_other _ _ h

/-! TALLY_ADJUST (R182). -/

/-- The legs of an accepted posting pass each check. -/
theorem firstLeg_of_postVerdict {cap : Nat} {adj : Bool} {ls : List (Leg × Tally)} (h : postVerdict cap adj ls = none) {k : Nat}
    (hk : k ∈ [9, 10, 11, 12, 13, 14]) : firstLeg k cap 0 ls = none := by
  unfold postVerdict at h
  split at h
  · exact absurd h (by simp)
  · split at h
    · exact absurd h (by simp)
    · rw [List.head?_eq_none_iff, List.filterMap_eq_nil_iff] at h
      exact h k hk

/-- An accepted leg has a good identifier. -/
theorem idFail_of_postVerdict {cap : Nat} {adj : Bool} {l : Leg} {old : Tally}
    (h : postVerdict cap adj [(l, old)] = none) : idFail cap l.tid old = none := by
  have h9 : firstLeg 9 cap 0 [(l, old)] = none := firstLeg_of_postVerdict h (by simp)
  simp only [firstLeg, legFail] at h9
  split at h9
  · exact absurd h9 (by simp)
  · assumption

theorem indexOk_of_idFail {cap tid : Nat} {old : Tally} (h : idFail cap tid old = none) : indexOk cap tid = true := by
  cases hi : indexOk cap tid
  · simp [idFail, firstFail, hi] at h
  · rfl

/-- The record that a TALLY_ADJUST leaves. -/
theorem legResult_eq {l : Leg} {old : Tally} {sum : Image} (h : decAdd old.value l.amount = some sum) :
    legResult l old = { old with value := sum, version := old.version + 1 } := by
  rw [legResult, h]
  rfl

/-- The record of a TALLY_ADJUST in the journal. -/
def Work.adjustInfo (w : Work) (new : Tally) : RecordInfo :=
  { kind := 0x02, session := w.session, ring := w.ring, flags := 1, digest := sha256 w.desc,
    entries := [recordEntry w.adjustLeg.tid new.version 0 w.adjustLeg.amount], prime := true, reserved := 0,
    at_ := w.admitted.map (fun g => g + 1 + w.extra) }

/-- A TALLY_ADJUST that passes its checks, up to its completion. -/
def State.adjusted (s : State) (w : Work) (new : Tally) : State :=
  ((s.setRecord w.slice (tidIndex w.adjustLeg.tid) new).commitRecord w.slice (w.adjustInfo new)).modWork w.id
    (fun v => { v with commit := some (w.slice, (s.bookAt w.slice).lseq + 1) })

theorem State.tallyAdjustOp_eq {s : State} {w : Work} {old : Tally} (hin : w.input = []) (h2 : s.phase2Dirty w = false)
    (hold : Holds s w.slice (tidIndex w.adjustLeg.tid) old)
    (hv : postVerdict (s.bookAt w.slice).cap true [(w.adjustLeg, old)] = none)
    (hroom : adjustBytes ≤ s.roomOf w.slice + w.reserved) :
    s.tallyAdjustOp w = (s.adjusted w (legResult w.adjustLeg old)).finish w.id .ok
      (leBytes 8 ((s.bookAt w.slice).lseq + 1) ++ leBytes 6 (legResult w.adjustLeg old).version) := by
  have hidx : indexOk (s.bookAt w.slice).cap (w.field 0x10 8) = true := indexOk_of_idFail (idFail_of_postVerdict hv)
  have hrec : s.primeRecord w = some old := by
    simp only [State.primeRecord, hin, hidx, if_true]
    exact State.record_of_holds hold
  have hlseq : (((s.setRecord w.slice (tidIndex w.adjustLeg.tid) (legResult w.adjustLeg old)).commitRecord w.slice
      (w.adjustInfo (legResult w.adjustLeg old))).bookAt w.slice).lseq = (s.bookAt w.slice).lseq + 1 :=
    (State.commitRecord_book _ _ _).1
  unfold State.tallyAdjustOp State.primeBook
  simp only [h2, hrec, hv, Nat.not_lt.mpr hroom, if_false]
  exact congrArg₂ (fun n (t : State) => t.finish w.id .ok (leBytes 8 n ++ leBytes 6 (legResult w.adjustLeg old).version)) hlseq
    (by rw [State.adjusted, ← hlseq]; rfl)

/-- Settles O10: the operation writes its record, stages its journal record, and finishes. -/
theorem tallyAdjustCommits : Obligations.TallyAdjustCommits := by
  unfold Obligations.TallyAdjustCommits
  intro s ring w old sum book b amount l h hin hb hold hv hroom h2 hsum
  have hnew : legResult w.adjustLeg old = { old with value := sum, version := old.version + 1 } := legResult_eq hsum
  have hi : exec (.tallyAdjust ring) s = .next ((s.adjusted w (legResult w.adjustLeg old)).finish w.id .ok
      (leBytes 8 (b.lseq + 1) ++ leBytes 6 (legResult w.adjustLeg old).version)) :=
    (congrArg _ (State.onPrime_of h _)).trans (congrArg _ (State.tallyAdjustOp_eq hin h2 hold hv hroom))
  rw [hnew] at hi
  have hw : (s.adjusted w { old with value := sum, version := old.version + 1 }).workAt w.id =
      some { w with commit := some (w.slice, b.lseq + 1) } := by
    rw [State.adjusted, State.workAt_modWork, if_pos rfl]
    · exact congrArg (Option.map _) h.2.1
    · exact fun _ => rfl
  obtain ⟨ends, only, -⟩ := State.finish_ends (leBytes 8 (b.lseq + 1) ++ leBytes 6 (old.version + 1)) hw h.ring_lt
    (by decide : Status.ok ≠ .fault) (by decide)
  obtain ⟨hlseq, hstaged⟩ := State.commitRecord_book (s.setRecord book (tidIndex l.tid) _) book
    (w.adjustInfo { old with value := sum, version := old.version + 1 })
  refine ⟨_, hi, ends, ?_, ?_, ?_, fun k hk => ?_, ?_, ?_⟩
  · exact (hold.setRecord_same _).of_pan (by rw [only]; rfl)
  · rw [only]; exact hlseq
  · rw [only]; exact hstaged
  · rw [only]; exact State.commitRecord_other _ _ hk
  · rw [only]; rfl
  · rw [only]; rfl

end Sys2Proof.Machine
end

section
/-! SUPPORT. The commit of a posting (R164, R165, R169, R170). -/

namespace Sys2Proof.Machine
open Sys2Proof

/-! The works of two states, but for what a commit keeps of a TALLY_READ. -/

/-- The work that has been changed. -/
theorem State.workAt_modWork_same {s : State} {id : Nat} {w : Work} {f : Work → Work} (hw : s.workAt id = some w)
    (hf : ∀ v, (f v).id = v.id) : (s.modWork id f).workAt id = some (f w) := by
  rw [State.workAt_modWork _ _ _ _ hf, if_pos rfl, hw]
  rfl

/-- A descriptor stands in the device with its ring. -/
def HasWork (s : State) (id ring : Nat) : Prop := ∃ w, s.workAt id = some w ∧ w.ring = ring

theorem workAt_of_map (s : State) {f : Work → Work} (hid : ∀ w, (f w).id = w.id) (k : Nat) :
    ({ s with work := s.work.map f } : State).workAt k = (s.workAt k).map f := by
  unfold State.workAt
  rw [List.find?_map]
  simp only [Function.comp_def, hid]

theorem HasWork.map {s : State} {id ring : Nat} (h : HasWork s id ring) {f : Work → Work}
    (hf : ∀ w, (f w).id = w.id ∧ (f w).ring = w.ring) : HasWork { s with work := s.work.map f } id ring := by
  obtain ⟨w, hw, hr⟩ := h
  refine ⟨f w, ?_, (hf w).2.trans hr⟩
  rw [workAt_of_map s fun w => (hf w).1, hw]
  rfl

theorem State.snapReads_eq (s : State) (book index admitted : Nat) (old : Tally) : ∃ f : Work → Work,
    (∀ w, (f w).id = w.id ∧ (f w).ring = w.ring) ∧
      s.snapReads book index admitted old = { s with work := s.work.map f } := by
  refine ⟨_, fun w => ⟨?_, ?_⟩, rfl⟩
  · dsimp only
    repeat' split
    all_goals rfl
  · dsimp only
    repeat' split
    all_goals rfl

/-! The legs. -/

/-- One leg of a commit. -/
def State.commitLeg (s : State) (e : Entry) (l : Leg) : State :=
  (s.snapReads e.book (tidIndex l.tid) e.admitted ((s.record e.book (tidIndex l.tid)).getD Tally.zero)).setRecord e.book
    (tidIndex l.tid) l.new

theorem State.commitLegs_foldl (s : State) (e : Entry) : s.commitLegs e = e.legs.foldl (fun s l => s.commitLeg e l) s := rfl

section
variable {s : State} {e : Entry} {l : Leg}

theorem State.commitLeg_eq (s : State) (e : Entry) (l : Leg) : ∃ work pan, s.commitLeg e l = { s with work := work, pan := pan } := by
  obtain ⟨f, -, h⟩ := s.snapReads_eq e.book (tidIndex l.tid) e.admitted ((s.record e.book (tidIndex l.tid)).getD Tally.zero)
  refine ⟨s.work.map f, (s.commitLeg e l).pan, ?_⟩
  rw [State.commitLeg, h]
  rfl

theorem HasWork.commitLeg {id ring : Nat} (h : HasWork s id ring) (e : Entry) (l : Leg) : HasWork (s.commitLeg e l) id ring := by
  obtain ⟨f, hf, hs⟩ := s.snapReads_eq e.book (tidIndex l.tid) e.admitted ((s.record e.book (tidIndex l.tid)).getD Tally.zero)
  have hm := h.map hf
  rw [← hs] at hm
  exact hm

theorem Holds.commitLeg_same {old : Tally} (h : Holds s e.book (tidIndex l.tid) old) :
    Holds (s.commitLeg e l) e.book (tidIndex l.tid) l.new :=
  (h.of_pan (t := s.snapReads _ _ _ _) rfl).setRecord_same l.new

theorem Holds.commitLeg_other {i : Nat} {r : Tally} (h : Holds s e.book i r) (hne : i ≠ tidIndex l.tid) :
    Holds (s.commitLeg e l) e.book i r :=
  (h.of_pan (t := s.snapReads _ _ _ _) rfl).setRecord_other l.new (.inr hne)

end

/-- What the legs of a commit leave: only works and the Pan change. -/
theorem foldl_commitLeg_eq (e : Entry) (ls : List Leg) (s : State) : ∃ work pan,
    ls.foldl (fun s l => s.commitLeg e l) s = { s with work := work, pan := pan } := by
  induction ls generalizing s with
  | nil => exact ⟨_, _, rfl⟩
  | cons l ls ih =>
    obtain ⟨work, pan, h⟩ := s.commitLeg_eq e l
    obtain ⟨work', pan', h'⟩ := ih (s.commitLeg e l)
    exact ⟨work', pan', by rw [List.foldl_cons, h', h]⟩

theorem HasWork.foldl_commitLeg {id ring : Nat} (e : Entry) (ls : List Leg) {s : State} (h : HasWork s id ring) :
    HasWork (ls.foldl (fun s l => s.commitLeg e l) s) id ring := by
  induction ls generalizing s with
  | nil => exact h
  | cons l ls ih => exact ih (h.commitLeg e l)

/-- A record that no leg names is held as before. -/
theorem Holds.foldl_commitLeg_other {e : Entry} (ls : List Leg) {s : State} {i : Nat} {r : Tally} (h : Holds s e.book i r)
    (hne : ∀ l ∈ ls, i ≠ tidIndex l.tid) : Holds (ls.foldl (fun s l => s.commitLeg e l) s) e.book i r := by
  induction ls generalizing s with
  | nil => exact h
  | cons l ls ih =>
    rw [List.forall_mem_cons] at hne
    exact ih (h.commitLeg_other hne.1) hne.2

/-- Legs that name different records that are held: each record holds the new value. -/
theorem holds_foldl_commitLeg {e : Entry} (ls : List Leg) {s : State}
    (hd : ls.Pairwise (fun l k => tidIndex l.tid ≠ tidIndex k.tid))
    (hold : ∀ l ∈ ls, ∃ old, Holds s e.book (tidIndex l.tid) old) :
    ∀ l ∈ ls, Holds (ls.foldl (fun s l => s.commitLeg e l) s) e.book (tidIndex l.tid) l.new := by
  induction ls generalizing s with
  | nil => exact fun _ hl => absurd hl List.not_mem_nil
  | cons l ls ih =>
    rw [List.pairwise_cons] at hd
    rw [List.forall_mem_cons] at hold ⊢
    obtain ⟨⟨old, hl⟩, hrest⟩ := hold
    refine ⟨hl.commitLeg_same.foldl_commitLeg_other ls hd.1, ih hd.2 fun k hk => ?_⟩
    obtain ⟨oldk, hk'⟩ := hrest k hk
    exact ⟨oldk, hk'.commitLeg_other fun h => hd.1 k hk h.symm⟩

/-! The outcome for the descriptor. -/

/-- A completion stays as it ended when the receipt is noted in it. -/
theorem Ended.note {s : State} {id : Nat} {st : Status} {res : Bytes} (h : Ended s id st res) (rcpt : Bool) :
    Ended (s.modWork id (fun w => { w with cpl := w.cpl.map (fun c => { c with rcpt := rcpt }) })) id st res := by
  obtain ⟨w, c, hw, hdone, hc, hst, hres⟩ := h
  have hnew : w.cpl.map (fun c => { c with rcpt := rcpt }) = some { c with rcpt := rcpt } := by
    rw [hc]
    rfl
  exact ⟨_, _, State.workAt_modWork_same hw fun _ => rfl, hdone, hnew, hst, hres⟩

/-- A descriptor that is changed, ends with OK, and has its receipt noted. -/
theorem finish_note_ends {s : State} {id : Nat} {w : Work} (hw : s.workAt id = some w) (hr : w.ring < 65536) {f : Work → Work}
    (hf : ∀ w, (f w).id = w.id ∧ (f w).ring = w.ring) (res : Bytes) (rcpt : Bool) :
    let t := ((s.modWork id f).finish id .ok res).modWork id
      (fun w => { w with cpl := w.cpl.map (fun c => { c with rcpt := rcpt }) })
    Ended t id .ok res ∧ t = { s with work := t.work } := by
  have hw' : (s.modWork id f).workAt id = some (f w) := State.workAt_modWork_same hw fun w => (hf w).1
  obtain ⟨ends, only, -⟩ := State.finish_ends res hw' ((hf w).2.symm ▸ hr) (by decide : Status.ok ≠ .fault) (by decide)
  refine ⟨ends.note rcpt, ?_⟩
  rw [only]
  rfl

/-- A descriptor's commit: it ends with the result, and nothing but the work list changes. -/
theorem State.commitOutcome_ends {s : State} {e : Entry} {ring : Nat} (ha : e.applet = false)
    (hw : HasWork s e.src ring) (hr : ring < 65536) (lseq : Nat) :
    Ended (s.commitOutcome e lseq) e.src .ok (e.result lseq) ∧
      s.commitOutcome e lseq = { s with work := (s.commitOutcome e lseq).work } := by
  obtain ⟨w, hw, rfl⟩ := hw
  unfold State.commitOutcome
  simp only [ha, Bool.false_and, Bool.false_eq_true, if_false]
  refine finish_note_ends hw hr (fun w => ?_) (e.result lseq) e.rcpt
  exact ⟨rfl, rfl⟩

/-- The state of a commit before the outcome is handed on. -/
def State.committed (s : State) (e : Entry) : State :=
  let b := s.bookAt e.book
  let t := (s.commitLegs e).commitRecord e.book e.info
  { t with
    brine := { t.brine with
      entries := (t.brine.entries.filter (fun (x : Entry) => x.key != e.key)).map (Entry.unlink · e.key), commits := t.brine.commits + 1 },
    sched := { t.sched with commitsLeft := t.sched.commitsLeft - 1, commitLegs := t.sched.commitLegs - e.legs.length,
                            strandsUsed := (e.book, (b.lseq + 1) % b.strands) :: t.sched.strandsUsed } }

theorem exec_postingCommit {s : State} {book : Nat} {e : Entry} (h : s.brine.entries.find? (fun x => x.book == book) = some e)
    (hm : s.mayCommit e = true) :
    exec (.postingCommit book) s = .next ((s.committed e).commitOutcome e ((s.bookAt e.book).lseq + 1)) := by
  refine congrArg Host.Outcome.next ?_
  unfold State.commitBook
  rw [h]
  exact if_pos hm

/-- Settles O13: the legs are written, the record is staged, the entry leaves, the descriptor ends. -/
theorem postingCommits : Obligations.PostingCommits := by
  unfold Obligations.PostingCommits
  intro s book e w b hfind hmay happ hw hring hd hold
  obtain rfl : e.book = book := by simpa using List.find?_some hfind
  obtain ⟨work, pan, hlegs⟩ := foldl_commitLeg_eq e e.legs s
  rw [← State.commitLegs_foldl] at hlegs
  have hwork : HasWork (s.committed e) e.src w.ring := HasWork.foldl_commitLeg (s := s) e e.legs ⟨w, hw, rfl⟩
  obtain ⟨ends, hout⟩ := State.commitOutcome_ends happ hwork hring (b.lseq + 1)
  obtain ⟨hlseq, hstaged⟩ := (s.commitLegs e).commitRecord_book e.book e.info
  have hb : (s.commitLegs e).bookAt e.book = s.bookAt e.book := by rw [hlegs]; rfl
  refine ⟨_, exec_postingCommit hfind hmay, ?_, fun l hl => ?_, ?_, ?_, ?_, ?_, ?_, fun k hk => ?_, ?_, ?_⟩
  · cases hk : e.kind <;> simpa only [Entry.result, hk] using ends
  · have hnew : Holds (s.commitLegs e) e.book (tidIndex l.tid) l.new := holds_foldl_commitLeg e.legs hd hold l hl
    exact hnew.of_pan (by rw [hout]; rfl)
  · rw [hout]; exact hlseq.trans (by rw [hb])
  · rw [hout]; exact hstaged.trans (by rw [hb])
  · rw [hout]
    intro x hx
    obtain ⟨y, hy, rfl⟩ := List.mem_map.mp hx
    exact bne_iff_ne.mp (List.mem_filter.mp hy).2
  · rw [hout]
    change (s.commitLegs e).brine.commits + 1 = _
    rw [hlegs]
  · rw [hout]
    change (s.commitLegs e).sched.commitsLeft - 1 = _
    rw [hlegs]
  · rw [hout]
    exact (State.commitRecord_other _ _ hk).trans (by rw [hlegs]; rfl)
  · rw [hout]
    change (s.commitLegs e).nv = _
    rw [hlegs]
  · rw [hout]
    change (s.commitLegs e).keys = _
    rw [hlegs]

end Sys2Proof.Machine
end

section
/-! SUPPORT. Postings on their way to admission (R115, R152, R153, R160, R200). -/

namespace Sys2Proof.Machine
open Sys2Proof

/-- A descriptor that stands first with its opcode is one of the ring. -/
theorem State.ring_of_toStart {s : State} {ring opcode : Nat} {w : Work} (h : s.toStart ring opcode = some w) :
    w.ring = ring := by
  have hw := List.find?_some (Option.filter_eq_some_iff.mp h).1
  simp only [Bool.and_eq_true, beq_iff_eq] at hw
  exact hw.1

theorem Starts.ring_lt {s : State} {ring opcode : Nat} {w : Work} (h : Starts s ring opcode w) : w.ring < 65536 :=
  (State.ring_of_toStart h.1).symm ▸ h.2.2

/-- A refusal with the result of R153: the work ends, and the logs may take an event. -/
theorem State.refuse_ends {s : State} {w : Work} (hw : s.workAt w.id = some w) (hr : w.ring < 65536) (k : Nat) {st : Status}
    (hf : st ≠ .fault) (ht : st ≠ .tamper) :
    Ended (s.refuse w k st) w.id st [BitVec.ofNat 8 k, 0xFF] ∧
      s.refuse w k st = { s with work := (s.refuse w k st).work, logs := (s.refuse w k st).logs } := by
  unfold State.refuse State.refuseLeg
  dsimp only
  split
  · obtain ⟨ends, only, -⟩ := State.finish_ends (s := s.plogWork w 0x01 k st 0) (refusalResult k 0xFF) hw hr hf ht
    refine ⟨ends, ?_⟩
    rw [only]
    rfl
  · obtain ⟨ends, only, -⟩ := State.finish_ends (refusalResult k 0xFF) hw hr hf ht
    refine ⟨ends, ?_⟩
    rw [only]

/-- What presenting a posting that comes first does. -/
theorem State.onPosting_of {s : State} {ring opcode : Nat} {w : Work} (h : Starts s ring opcode w) :
    s.onPosting ring opcode = if s.postFirst w then s.presentPosting w else s := State.onStart_of h.1 _

theorem State.presentPosting_refuses {s : State} {w : Work} {k : Nat} {st : Status} (h : s.postEarly w = some (k, st)) :
    s.presentPosting w = s.refuse w k st := by
  simp only [State.presentPosting, h]

theorem State.presentPosting_holds {s : State} {w : Work} (h : s.postEarly w = none) :
    s.presentPosting w = s.modWork w.id (fun v => { v with phase := .held, heldAt := s.now }) := by
  simp only [State.presentPosting, h]

/-- The four commands of postings and tally operations. -/
theorem exec_onPosting {p : Nat × (Nat → Instr)}
    (h : p ∈ [(0x2000, Instr.post), (0x2010, .tallyOpen), (0x2011, .tallySet), (0x2012, .tallyClose)]) (ring : Nat)
    (s : State) : exec (p.2 ring) s = .next (s.onPosting ring p.1) := by
  simp only [List.mem_cons, List.not_mem_nil, or_false] at h
  rcases h with rfl | rfl | rfl | rfl <;> rfl

/-- Settles O12: a posting is presented by its checks 1 to 3; one that is short of room finishes when its time is up. -/
theorem postingsPresented : Obligations.PostingsPresented := by
  unfold Obligations.PostingsPresented
  refine ⟨fun p hp s ring w h => ?_, fun s ring g w hold hw hring hwait hshort hsince hlate => ?_⟩
  · have hi := exec_onPosting hp ring s
    rw [State.onPosting_of h] at hi
    refine ⟨fun hfirst => ?_, fun hfirst hearly => ?_, fun k st hfirst hearly hf ht => ?_⟩
    · rw [hi, hfirst]
      rfl
    · rw [hi, hfirst, if_pos rfl, State.presentPosting_holds hearly]
    · rw [hfirst, if_pos rfl, State.presentPosting_refuses hearly] at hi
      obtain ⟨ends, only⟩ := State.refuse_ends h.2.1 h.ring_lt k hf ht
      exact ⟨_, hi, ends, only⟩
  · have hr : w.ring = ring := by
      have hw := List.find?_some hold
      simp only [Bool.and_eq_true, beq_iff_eq] at hw
      exact hw.1
    have hdue : ¬ s.now < g + (s.bookAt w.slice).fullWait * pound := by
      unfold pound
      omega
    have hi : exec (.postingHeldJournalFull ring) s = .next (s.finish w.id .journalFull (zeros 16)) := by
      refine congrArg Host.Outcome.next ?_
      simp only [State.heldFull, hold, hsince, hshort, hdue]
      simp [Nat.ne_of_gt hwait]
    exact endsOnly_of hi hw (hr ▸ hring) (by decide) (by decide)

end Sys2Proof.Machine
end

section
/-! SUPPORT. Doorbells (R173, R198, R258 to R260). -/

namespace Sys2Proof.Machine
open Sys2Proof

section
variable (s : State)

/-! What a doorbell changes. -/

theorem State.dbIgnored_eq (ring off : Nat) (f : DbFlag) :
    s.dbIgnored ring off f =
      { s with sq := (s.dbIgnored ring off f).sq, logs := (s.dbIgnored ring off f).logs } := rfl

theorem State.dbIgnored_sqAt (ring off : Nat) (f : DbFlag) :
    (s.dbIgnored ring off f).sqAt ring = (s.sqAt ring).withFlag f := State.setSq_same ..

theorem State.dbIgnored_other {ring k : Nat} (off : Nat) (f : DbFlag) (h : k ≠ ring) :
    (s.dbIgnored ring off f).sqAt k = s.sqAt k := State.setSq_other _ _ h

theorem State.dbIgnored_logged (ring off : Nat) (f : DbFlag) :
    Logged s (s.dbIgnored ring off f) 0x02 0 (f.bitNo + 65536 * off) := State.plogEvent_logged ..

theorem State.submit_eq (ring value : Nat) : ∃ sq logs, s.submit ring value = { s with sq := sq, logs := logs } := by
  unfold State.submit
  dsimp only
  repeat' split
  all_goals exact ⟨_, _, rfl⟩

theorem State.persistedDb_eq (slice lseq : Nat) :
    ∃ books logs, s.persistedDb slice lseq = { s with books := books, logs := logs } := by
  unfold State.persistedDb
  dsimp only
  repeat' split
  all_goals exact ⟨_, _, rfl⟩

theorem State.drainedDb_eq (slice lseq : Nat) :
    ∃ books logs, s.drainedDb slice lseq = { s with books := books, logs := logs } := by
  unfold State.drainedDb
  dsimp only
  repeat' split
  all_goals exact ⟨_, _, rfl⟩

/-- A write of a doorbell page changes rings, books and logs. -/
theorem State.doorbell_eq (ring off size value : Nat) :
    ∃ sq books logs, s.doorbell ring off size value = { s with sq := sq, books := books, logs := logs } := by
  obtain ⟨sq, logs, hs⟩ := s.submit_eq ring value
  obtain ⟨books, logs', hp⟩ := s.persistedDb_eq (s.sqAt ring).slice value
  obtain ⟨books', logs'', hd⟩ := s.drainedDb_eq (s.sqAt ring).slice value
  unfold State.doorbell
  dsimp only
  rw [hs, hp, hd]
  repeat' split
  all_goals exact ⟨_, _, _, rfl⟩

end

/-! The rows of R259. -/

section
variable {s : State} {ring : Nat}

theorem State.doorbell_size {off size : Nat} (value : Nat) (h : size ≠ 8 ∨ off % 8 ≠ 0) :
    s.doorbell ring off size value = s.dbIgnored ring off .size := if_pos (by simpa using h)

theorem State.doorbell_reserved {off : Nat} (value : Nat) (h8 : off % 8 = 0) (h : 0x18 ≤ off) :
    s.doorbell ring off 8 value = s.dbIgnored ring off .reserved := by
  simp [State.doorbell, h8, h]

theorem State.doorbell_disabled {off : Nat} (value : Nat) (h8 : off % 8 = 0) (hoff : off < 0x18)
    (h : (s.sqAt ring).enabled = false ∨ (s.sqAt ring).busy = true) :
    s.doorbell ring off 8 value = s.dbIgnored ring off .disabled := by
  have hd : (!(s.sqAt ring).enabled || (s.sqAt ring).busy) = true := by simpa using h
  simp [State.doorbell, h8, Nat.not_le.mpr hoff, hd]

/-- A doorbell of an enabled ring is what its offset says. -/
theorem State.doorbell_served {off : Nat} (value : Nat) (h8 : off % 8 = 0) (hoff : off < 0x18)
    (he : (s.sqAt ring).enabled = true) (hb : (s.sqAt ring).busy = false) :
    s.doorbell ring off 8 value = if off = 0 then s.submit ring value
      else if off = 8 then s.persistedDb (s.sqAt ring).slice value else s.drainedDb (s.sqAt ring).slice value := by
  simp [State.doorbell, h8, Nat.not_le.mpr hoff, he, hb]

end

/-! The submission doorbell. -/

section
variable {s : State} {ring value : Nat}

theorem State.submit_stale (h : value / 65536 % 256 ≠ (s.sliceAt (s.sqAt ring).slice).gen ∨
    (s.sliceAt (s.sqAt ring).slice).st ≠ .active) : s.submit ring value = s.dbIgnored ring 0 .stale :=
  if_pos (by simpa [bits] using h)

theorem State.submit_live (hg : value / 65536 % 256 = (s.sliceAt (s.sqAt ring).slice).gen)
    (ha : (s.sliceAt (s.sqAt ring).slice).st = .active) :
    (s.submit ring value).sqAt ring = { s.sqAt ring with tail := value % 65536 } ∧
      (∀ k, k ≠ ring → (s.submit ring value).sqAt k = s.sqAt k) ∧
      s.submit ring value = { s with sq := (s.submit ring value).sq } := by
  have hs : s.submit ring value = if value % 65536 == (s.sqAt ring).tail then s
      else s.modSq ring (fun q => { q with tail := value % 65536 }) := by
    simp [State.submit, bits, hg, ha]
  rw [hs]
  split
  · next ht =>
    rw [beq_iff_eq] at ht
    exact ⟨by rw [ht], fun _ _ => rfl, rfl⟩
  · exact ⟨State.setSq_same .., fun k hk => State.setSq_other _ _ hk, rfl⟩

end

/-! The doorbells of the journal. -/

/-- Behind a release the first frame that stands ends above the released LSEQ. -/
theorem Book.release_head {b : Book} {e : Nat × Nat} (h : b.release.frameEnds.head? = some e) :
    max b.drained b.persisted < e.1 := by
  let gone (e : Nat × Nat) : Bool := decide (e.1 ≤ max b.drained b.persisted)
  have hdrop : b.release.frameEnds = b.frameEnds.dropWhile gone := by
    conv_lhs => change b.frameEnds.drop (b.frameEnds.takeWhile gone).length
    conv_lhs => arg 2; rw [← List.takeWhile_append_dropWhile (p := gone) (l := b.frameEnds)]
    exact List.drop_left
  have hstays := List.head?_dropWhile_not gone b.frameEnds
  rw [← hdrop, h] at hstays
  simpa [gone] using hstays

section
variable {s : State} {slice n : Nat}

/-- Outside OPEN a journal doorbell is only logged. -/
theorem State.persistedDb_closed (h : (s.bookAt slice).st ≠ .open_) : s.persistedDb slice n = s.plogJournalDb slice n :=
  if_pos (by simpa using h)

theorem State.drainedDb_closed (h : (s.bookAt slice).st ≠ .open_) : s.drainedDb slice n = s.plogJournalDb slice n :=
  if_pos (by simpa using h)

theorem State.persistedDb_open (h : (s.bookAt slice).st = .open_) :
    s.persistedDb slice n = if n ≤ (s.bookAt slice).persisted then s
      else (if (s.bookAt slice).issued < n then s.plogJournalDb slice n else s).setBook slice
        ({ s.bookAt slice with persisted := min n (s.bookAt slice).issued } : Book).release := by
  simp [State.persistedDb, h]

theorem State.drainedDb_open (h : (s.bookAt slice).st = .open_) :
    s.drainedDb slice n = if n ≤ max (s.bookAt slice).drained (s.bookAt slice).persisted then s
      else (if (s.bookAt slice).issued < n then s.plogJournalDb slice n else s).setBook slice
        ({ s.bookAt slice with drained := max (s.bookAt slice).drained (min n (s.bookAt slice).issued) } : Book).release := by
  simp [State.drainedDb, h]

/-- An LSEQ that has been issued is persisted, and the frames up to it are free. -/
theorem State.persistedDb_takes (h : (s.bookAt slice).st = .open_) (hlo : (s.bookAt slice).persisted < n)
    (hhi : n ≤ (s.bookAt slice).issued) :
    let b := s.bookAt slice
    let t := s.persistedDb slice n
    (t.bookAt slice).persisted = n ∧ (t.bookAt slice).drained = b.drained ∧ (t.bookAt slice).lseq = b.lseq ∧
      (∀ e, (t.bookAt slice).frameEnds.head? = some e → max b.drained n < e.1) ∧ OtherBooks s t slice ∧
      t = { s with books := t.books } := by
  dsimp only
  rw [State.persistedDb_open h, if_neg (by omega), if_neg (by omega), Nat.min_eq_left hhi, State.setBook_same]
  exact ⟨rfl, rfl, rfl, fun e he => Book.release_head he, fun k hk => State.setBook_other _ _ hk, rfl⟩

/-- One beyond what has been issued is cut to it, and logged. -/
theorem State.persistedDb_beyond (h : (s.bookAt slice).st = .open_) (hlo : (s.bookAt slice).persisted < n)
    (hhi : (s.bookAt slice).issued < n) :
    let t := s.persistedDb slice n
    (t.bookAt slice).persisted = (s.bookAt slice).issued ∧ Logged s t 0x08 0 (n % 2 ^ 32) ∧ OtherBooks s t slice ∧
      t = { s with books := t.books, logs := t.logs } := by
  dsimp only
  rw [State.persistedDb_open h, if_neg (by omega), if_pos hhi, Nat.min_eq_right hhi.le, State.setBook_same]
  exact ⟨rfl, State.plogEvent_logged .., fun k hk => State.setBook_other _ _ hk, rfl⟩

/-- An LSEQ that has been issued is drained, and the frames up to it are free. -/
theorem State.drainedDb_takes (h : (s.bookAt slice).st = .open_)
    (hlo : max (s.bookAt slice).drained (s.bookAt slice).persisted < n) (hhi : n ≤ (s.bookAt slice).issued) :
    let b := s.bookAt slice
    let t := s.drainedDb slice n
    (t.bookAt slice).drained = n ∧ (t.bookAt slice).persisted = b.persisted ∧
      (∀ e, (t.bookAt slice).frameEnds.head? = some e → n < e.1) ∧ OtherBooks s t slice ∧
      t = { s with books := t.books } := by
  dsimp only
  rw [State.drainedDb_open h, if_neg (by omega), if_neg (by omega), Nat.min_eq_left hhi, max_eq_right (by omega),
    State.setBook_same]
  exact ⟨rfl, rfl, fun e he => (le_max_left ..).trans_lt (Book.release_head he), fun k hk => State.setBook_other _ _ hk,
    rfl⟩

end

/-! A doorbell reaches the ring of its page. -/

/-- On a device that answers, a doorbell is taken. -/
theorem State.onDoorbell_of {s : State} (hu : s.barUp = true) (hh : s.halted = false) (offset : Nat) (f : State → State) :
    s.onDoorbell offset f = f s := if_pos (by simp [hu, hh])

theorem exec_doorbellWriteCombined_short {s : State} (hu : s.barUp = true) (hh : s.halted = false) {data : Bytes}
    (h : data.length ≤ 8) (offset : Nat) : exec (.doorbellWriteCombined offset data) s =
      .next (s.doorbell (offset / 4096) (offset % 4096) data.length (leNat data)) := by
  refine congrArg Host.Outcome.next ?_
  rw [State.onDoorbell_of hu hh, if_pos h]

/-- Two aligned quadwords in one TLP are two doorbells (R260). -/
theorem State.doorbellTlp_pair (s : State) {data : Bytes} {off : Nat} (h8 : off % 8 = 0) (h : data.length = 16) :
    s.doorbellTlp (data.length + 1) off data =
      (s.doorbell (off / 4096) (off % 4096) 8 (leNat (data.take 8))).doorbell ((off + 8) / 4096) ((off + 8) % 4096) 8
        (leNat (data.drop 8)) := by
  have hne : data ≠ [] := fun e => by simp [e] at h
  have hne' : data.drop 8 ≠ [] := fun e => by simpa [h] using congrArg List.length e
  rw [h]
  have htake : (data.drop 8).take 8 = data.drop 8 := List.take_of_length_le (by simp [h])
  simp [State.doorbellTlp, h, h8, hne, hne', htake]

/-- A doorbell that R259 ignores. -/
theorem ignored_of {i : Instr} {s : State} {ring off : Nat} {f : DbFlag} (hi : exec i s = .next (s.dbIgnored ring off f)) :
    ∃ t, exec i s = .next t ∧ t.sqAt ring = (s.sqAt ring).withFlag f ∧ (∀ k, k ≠ ring → t.sqAt k = s.sqAt k) ∧
      Logged s t 0x02 0 (f.bitNo + 65536 * off) ∧ t = { s with sq := t.sq, logs := t.logs } :=
  ⟨_, hi, s.dbIgnored_sqAt .., fun _ hk => s.dbIgnored_other _ _ hk, s.dbIgnored_logged .., rfl⟩

/-- Settles O51: the rows of R259, then the three doorbells of an enabled ring. -/
theorem doorbells : Obligations.Doorbells := by
  unfold Obligations.Doorbells
  intro s hu hh ring q b dbs ignored
  have hsub (v : Nat) : exec (.submissionDoorbell ring v) s = .next (s.doorbell ring 0 8 v) :=
    congrArg _ (State.onDoorbell_of hu hh ..)
  have hper (v : Nat) : exec (.journalPersistedDoorbell ring v) s = .next (s.doorbell ring 8 8 v) :=
    congrArg _ (State.onDoorbell_of hu hh ..)
  have hdra (v : Nat) : exec (.journalDrainedDoorbell ring v) s = .next (s.doorbell ring 0x10 8 v) :=
    congrArg _ (State.onDoorbell_of hu hh ..)
  have hdbs : ∀ p ∈ dbs, p.1 % 8 = 0 ∧ p.1 < 0x18 ∧ ∀ v, exec (p.2 v) s = .next (s.doorbell ring p.1 8 v) := by
    simp only [dbs, List.mem_cons, List.not_mem_nil, or_false]
    rintro p (rfl | rfl | rfl)
    · exact ⟨(by decide : 0 % 8 = 0), (by decide : 0 < 0x18), hsub⟩
    · exact ⟨(by decide : 8 % 8 = 0), (by decide : 8 < 0x18), hper⟩
    · exact ⟨(by decide : 0x10 % 8 = 0), (by decide : 0x10 < 0x18), hdra⟩
  have hpage {off : Nat} (h : off < 4096) : (4096 * ring + off) / 4096 = ring ∧ (4096 * ring + off) % 4096 = off := by omega
  have hwc {off : Nat} {data : Bytes} (h : off < 4096) (hl : data.length ≤ 8) :
      exec (.doorbellWriteCombined (4096 * ring + off) data) s = .next (s.doorbell ring off data.length (leNat data)) := by
    rw [exec_doorbellWriteCombined_short hu hh hl, (hpage h).1, (hpage h).2]
  refine ⟨fun he hb => ?_, fun hoff p hp v => ?_, fun off data ho hl => ?_, fun off data ho h18 h8 hl => ?_,
    fun p hp data hl => ?_, fun off data h8 hl => ?_⟩
  · have hserved {off : Nat} (v : Nat) (h8 : off % 8 = 0) (ho : off < 0x18) := State.doorbell_served v h8 ho he hb
    have hsub' (v : Nat) : exec (.submissionDoorbell ring v) s = .next (s.submit ring v) := by
      rw [hsub, hserved v rfl (by decide), if_pos rfl]
    have hper' (v : Nat) : exec (.journalPersistedDoorbell ring v) s = .next (s.persistedDb q.slice v) := by
      rw [hper, hserved v rfl (by decide), if_neg (by decide), if_pos rfl]
    have hdra' (v : Nat) : exec (.journalDrainedDoorbell ring v) s = .next (s.drainedDb q.slice v) := by
      rw [hdra, hserved v rfl (by decide), if_neg (by decide), if_neg (by decide)]
    refine ⟨fun v hg ha => ⟨_, hsub' v, State.submit_live hg ha⟩, fun v hv => ?_, fun n ho => ⟨fun hlo hhi => ?_,
      fun hlo hhi => ?_, fun hn => ?_, fun hlo hhi => ?_, fun hn => ?_⟩, fun n hc => ?_⟩
    · have hi := hsub' v
      rw [State.submit_stale hv] at hi
      exact ignored_of hi
    · exact ⟨_, hper' n, State.persistedDb_takes ho hlo hhi⟩
    · exact ⟨_, hper' n, State.persistedDb_beyond ho hlo hhi⟩
    · rw [hper', State.persistedDb_open ho, if_pos hn]
    · exact ⟨_, hdra' n, State.drainedDb_takes ho hlo hhi⟩
    · rw [hdra', State.drainedDb_open ho, if_pos hn]
    · simp only [List.forall_mem_cons]
      refine ⟨⟨_, hper' n, ?_⟩, ⟨_, hdra' n, ?_⟩, fun _ h => absurd h List.not_mem_nil⟩
      · rw [State.persistedDb_closed hc]
        exact ⟨State.plogEvent_logged .., rfl⟩
      · rw [State.drainedDb_closed hc]
        exact ⟨State.plogEvent_logged .., rfl⟩
  · obtain ⟨h8, hlt, hi⟩ := hdbs p hp
    have hd := hi v
    rw [State.doorbell_disabled v h8 hlt hoff] at hd
    exact ignored_of hd
  · have hi := hwc (data := data) ho (by omega)
    rw [State.doorbell_size _ (by omega)] at hi
    exact ignored_of hi
  · have hi := hwc (data := data) ho (by omega)
    rw [hl, State.doorbell_reserved _ h8 h18] at hi
    exact ignored_of hi
  · obtain ⟨-, hlt, hi⟩ := hdbs p hp
    have hw := hwc (data := data) (by omega : p.1 < 4096) (by omega)
    rw [hl] at hw
    exact ⟨_, hw, hi _⟩
  · have ht := exec_doorbellWriteCombined_short hu hh (data := data.take 8) (by simp) off
    obtain ⟨sq, books, logs, e⟩ := s.doorbell_eq (off / 4096) (off % 4096) (data.take 8).length (leNat (data.take 8))
    have hu' := exec_doorbellWriteCombined_short
      (s := s.doorbell (off / 4096) (off % 4096) (data.take 8).length (leNat (data.take 8))) (by rw [e]; exact hu)
      (by rw [e]; exact hh) (data := data.drop 8) (by simp [hl]) (off + 8)
    refine ⟨_, _, ht, hu', ?_⟩
    refine congrArg Host.Outcome.next ?_
    rw [State.onDoorbell_of hu hh, if_neg (by omega), State.doorbellTlp_pair s h8 hl]
    simp [hl]

end Sys2Proof.Machine
end

section
/-! SUPPORT. The configuration of rings (R272). -/

namespace Sys2Proof.Machine
open Sys2Proof

section
variable {s : State} {k value : Nat}

/-- SIZE_LOG2 of a RING_CFG value. -/
theorem bits_size (value : Nat) : bits value 4 0 = value % 32 := by simp [bits]

/-- SLICE of a RING_CFG value. -/
theorem bits_slice (value : Nat) : bits value 25 16 = value / 65536 % 1024 := by simp [bits]

/-! ERR. -/

theorem State.sqErr_sqAt (s : State) (k err offset : Nat) : (s.sqErr k err offset).sqAt k = { s.sqAt k with err := err } := by
  unfold State.sqErr
  dsimp only
  split <;> exact State.setSq_same ..

theorem State.sqErr_other (s : State) {j : Nat} (err offset : Nat) (h : j ≠ k) :
    (s.sqErr k err offset).sqAt j = s.sqAt j := by
  unfold State.sqErr
  dsimp only
  split <;> exact State.setSq_other _ _ h

theorem State.sqErr_zero (s : State) (k offset : Nat) :
    s.sqErr k 0 offset = s.modSq k (fun q => { q with err := 0 }) := rfl

theorem State.sqErr_logged (s : State) (k offset : Nat) {err : Nat} (h : err ≠ 0) :
    Logged s (s.sqErr k err offset) 0x04 err offset ∧
      s.sqErr k err offset = { s with sq := (s.sqErr k err offset).sq, logs := (s.sqErr k err offset).logs } := by
  simp only [State.sqErr, h, if_false]
  exact ⟨State.plogEvent_logged .., rfl⟩

theorem State.cqErr_cqAt (s : State) (k err offset : Nat) : (s.cqErr k err offset).cqAt k = { s.cqAt k with err := err } := by
  unfold State.cqErr
  dsimp only
  split <;> exact State.setCq_same ..

theorem State.cqErr_other (s : State) {j : Nat} (err offset : Nat) (h : j ≠ k) :
    (s.cqErr k err offset).cqAt j = s.cqAt j := by
  unfold State.cqErr
  dsimp only
  split <;> exact State.setCq_other _ _ h

theorem State.cqErr_zero (s : State) (k offset : Nat) :
    s.cqErr k 0 offset = s.modCq k (fun c => { c with err := 0 }) := rfl

theorem State.cqErr_logged (s : State) (k offset : Nat) {err : Nat} (h : err ≠ 0) :
    Logged s (s.cqErr k err offset) 0x04 err offset ∧
      s.cqErr k err offset = { s with cq := (s.cqErr k err offset).cq, logs := (s.cqErr k err offset).logs } := by
  simp only [State.cqErr, h, if_false]
  exact ⟨State.plogEvent_logged .., rfl⟩

/-- A change of the fetch reads of a ring that leaves them fetch reads. -/
theorem State.fetchReads_modFetch (s : State) (ring : Nat) {f : Read → Read} (hf : ∀ r, (f r).kind = r.kind) :
    (s.modFetch ring f).fetchReads ring = (s.fetchReads ring).map f := by
  have hk (r : Read) : (f r).isFetch ring = r.isFetch ring := by rw [Read.isFetch, hf, Read.isFetch]
  change (s.reads.map _).filter _ = (s.reads.filter _).map f
  induction s.reads with
  | nil => rfl
  | cons r rs ih => cases hr : r.isFetch ring <;> simp [hr, hk, ih]

/-- A state that differs in its submission rings. -/
theorem State.only_sq {s t : State} {sq : Table Sq} (h : t = { s with sq := sq }) : t = { s with sq := t.sq } := by rw [h]

/-- A state that differs in its completion rings. -/
theorem State.only_cq {s t : State} {cq : Table Cq} (h : t = { s with cq := cq }) : t = { s with cq := t.cq } := by rw [h]

/-! Submission rings. -/

theorem State.sqCfg_enable (he : (s.sqAt k).enabled = false) (hb : (s.sqAt k).busy = false) (hv : value.testBit 8 = true) :
    let t := s.setSq k { s.sqAt k with sizeLog2 := value % 32, slice := value / 65536 % 1024 }
    s.sqCfg k value = if t.sqEnableErr k = 0 then (t.sqErr k (t.sqEnableErr k) offRingCfg).modSq k Sq.started
      else t.sqErr k (t.sqEnableErr k) offRingCfg := by
  simp [State.sqCfg, bits_size, bits_slice, bit, he, hb, hv, State.modSq]

theorem State.sqCfg_disable (he : (s.sqAt k).enabled = true) (hb : (s.sqAt k).busy = false) (hv : value.testBit 8 = false)
    (hsize : value % 32 = (s.sqAt k).sizeLog2) (hslice : value / 65536 % 1024 = (s.sqAt k).slice) :
    s.sqCfg k value = (s.sqDisable k).sqErr k 0 offRingCfg := by
  simp [State.sqCfg, bits_size, bits_slice, bit, he, hb, hv, hsize, hslice]

/-! Completion rings. -/

/-- A completion ring as its enable leaves it (R272). -/
def Cq.started (c : Cq) : Cq := { c with enabled := true, widx := 0, phase := true, stalled := false, stallAt := 0 }

theorem State.cqCfg_enable (he : (s.cqAt k).enabled = false) (hv : value.testBit 8 = true) :
    let t := s.setCq k { s.cqAt k with sizeLog2 := value % 32, slice := value / 65536 % 1024 }
    s.cqCfg k value = if t.cqEnableErr k = 0 then (t.cqErr k (t.cqEnableErr k) offRingCfg).modCq k Cq.started
      else t.cqErr k (t.cqEnableErr k) offRingCfg := by
  simp [State.cqCfg, bits_size, bits_slice, bit, he, hv, State.modCq, Cq.started]

theorem State.cqCfg_disable (he : (s.cqAt k).enabled = true) (hv : value.testBit 8 = false)
    (hsize : value % 32 = (s.cqAt k).sizeLog2) (hslice : value / 65536 % 1024 = (s.cqAt k).slice) :
    s.cqCfg k value = if s.cqBound k then s.cqErr k 7 offRingCfg
      else (s.modCq k (fun c => { c with enabled := false })).cqErr k 0 offRingCfg := by
  simp [State.cqCfg, bits_size, bits_slice, bit, he, hv, hsize, hslice]

end

theorem exec_ringEnable {s : State} (h : s.regWritable offRingCfg = true) {value : Nat} (hv : value.testBit 8 = true) :
    exec (.ringEnable value) s = .next (s.ringCfg value) :=
  congrArg _ ((if_pos hv).trans (State.onReg_of h _))

theorem exec_ringDisable {s : State} (h : s.regWritable offRingCfg = true) {value : Nat} (hv : value.testBit 8 = false) :
    exec (.ringDisable value) s = .next (s.ringCfg value) :=
  congrArg _ ((if_neg (Bool.eq_false_iff.mp hv)).trans (State.onReg_of h _))

/-- Settles O54: a write of RING_CFG by the kind of the selected ring and the bit that it sets. -/
theorem ringConfiguration : Obligations.RingConfiguration := by
  unfold Obligations.RingConfiguration
  intro s value hw k q c size slice othersSq othersCq
  refine ⟨fun hv hk he hb => ?_, fun hv hk he => ?_, fun hv hk he hb hsize hslice => ?_,
    fun hv hk he hsize hslice => ?_, fun ring hb hwork hreads => ?_⟩
  · have hi : exec (.ringEnable value) s = .next (s.sqCfg k value) := by
      rw [exec_ringEnable hw hv, State.ringCfg, hk]
      rfl
    rw [State.sqCfg_enable he hb hv] at hi
    intro q' err
    split at hi
    · next h0 =>
      rw [h0, State.sqErr_zero] at hi
      simp only [State.modSq, State.setSq_same] at hi
      refine ⟨_, hi, fun j hj => ?_, fun _ => ⟨State.setSq_same .., State.only_sq rfl⟩, fun h => absurd h0 h⟩
      simp [State.setSq_other, hj]
    · next h0 =>
      obtain ⟨hlog, hall⟩ := State.sqErr_logged (s.setSq k q') k offRingCfg h0
      refine ⟨_, hi, fun j hj => ?_, fun h => absurd h h0, fun _ => ⟨?_, hlog, ?_⟩⟩
      · exact (State.sqErr_other _ _ _ hj).trans (State.setSq_other _ _ hj)
      · exact (State.sqErr_sqAt ..).trans (by rw [State.setSq_same])
      · rw [hall]
        rfl
  · have hi : exec (.ringEnable value) s = .next (s.cqCfg k value) := by
      rw [exec_ringEnable hw hv, State.ringCfg, hk]
      rfl
    rw [State.cqCfg_enable he hv] at hi
    intro c' err
    split at hi
    · next h0 =>
      rw [h0, State.cqErr_zero] at hi
      simp only [State.modCq, State.setCq_same] at hi
      refine ⟨_, hi, fun j hj => ?_, fun _ => ?_, fun h => absurd h0 h⟩
      · simp [State.setCq_other, hj]
      · rw [State.setCq_same]
        exact ⟨rfl, rfl, rfl, rfl, rfl, rfl, State.only_cq rfl⟩
    · next h0 =>
      obtain ⟨hlog, hall⟩ := State.cqErr_logged (s.setCq k c') k offRingCfg h0
      refine ⟨_, hi, fun j hj => ?_, fun h => absurd h h0, fun _ => ⟨?_, hlog, ?_⟩⟩
      · exact (State.cqErr_other _ _ _ hj).trans (State.setCq_other _ _ hj)
      · exact (State.cqErr_cqAt ..).trans (by rw [State.setCq_same])
      · rw [hall]
        rfl
  · have hi : exec (.ringDisable value) s = .next (s.sqCfg k value) := by
      rw [exec_ringDisable hw hv, State.ringCfg, hk]
      rfl
    rw [State.sqCfg_disable he hb hv hsize hslice] at hi
    refine ⟨_, hi, ?_, fun j hj => ?_, fun r hr => ?_, rfl⟩
    · exact (State.sqErr_sqAt ..).trans (congrArg (fun q : Sq => { q with err := 0 }) (State.setSq_same ..))
    · exact (State.sqErr_other _ _ _ hj).trans (State.setSq_other _ _ hj)
    · have hf := (s.modSq k (fun q => { q with busy := true, carry := [] })).fetchReads_modFetch k
        (f := fun r => { r with discard := true }) fun _ => rfl
      obtain ⟨x, -, rfl⟩ := List.mem_map.mp (hf ▸ hr)
      rfl
  · have hi : exec (.ringDisable value) s = .next (s.cqCfg k value) := by
      rw [exec_ringDisable hw hv, State.ringCfg, hk]
      rfl
    rw [State.cqCfg_disable he hv hsize hslice] at hi
    split at hi
    · next hb =>
      obtain ⟨hlog, hall⟩ := State.cqErr_logged s k offRingCfg (err := 7) (by decide)
      refine ⟨_, hi, fun j hj => State.cqErr_other _ _ _ hj, ?_, fun _ => ⟨State.cqErr_cqAt .., hlog⟩, fun h => ?_⟩
      · rw [hall]
      · rw [hb] at h
        exact absurd h (by decide)
    · next hb =>
      refine ⟨_, hi, fun j hj => ?_, rfl, fun h => absurd h hb, fun _ => ?_⟩
      · exact (State.cqErr_other _ _ _ hj).trans (State.setCq_other _ _ hj)
      · exact (State.cqErr_cqAt ..).trans (by rw [State.modCq, State.setCq_same])
  · have hd : exec (.ringDisableDone ring) s = .next (s.modSq ring (fun q => { q with busy := false, enabled := false })) := by
      refine congrArg Host.Outcome.next (if_pos ?_)
      simpa [hb, hreads] using hwork
    exact ⟨_, hd, State.setSq_same .., fun j hj => State.setSq_other _ _ hj, rfl⟩

end Sys2Proof.Machine
end

section
/-! SUPPORT. The scruple boundary and missed deadlines of background tasks (R54 to R57). -/

namespace Sys2Proof.Machine
open Sys2Proof

/-- A table whose entries have been changed by a function that keeps the default. -/
theorem tget_tmap {α : Type} [DecidableEq α] {d : α} {f : α → α} {t : Table α} (h : Twf d t) (hf : f d = d) (k : Nat) :
    tget d (tmap d f t) k = f (tget d t k) := by
  obtain ⟨hkeys, -⟩ := h
  induction t with
  | nil => exact hf.symm
  | cons e t ih =>
    obtain ⟨j, v⟩ := e
    simp only [List.map_cons, List.pairwise_cons] at hkeys
    have hrest := ih hkeys.2
    simp only [tmap, ne_eq, decide_not] at hrest ⊢
    by_cases hj : j = k
    · subst hj
      have hmiss : j ∉ t.map Prod.fst := fun hm => absurd (hkeys.1 j hm) (Nat.lt_irrefl j)
      rw [tget_of_not_mem hmiss, hf] at hrest
      by_cases hv : f v = d <;> simp [tget, hv, hrest]
    · by_cases hv : f v = d <;> simp [tget, hv, hj, hrest]

/-! Yields of big-number jobs. -/

theorem State.bnYield_eq (s : State) (w : BnJob) : ∃ crypto draws, s.bnYield w = { s with crypto := crypto, draws := draws } := by
  unfold State.bnYield
  split
  · exact ⟨_, _, rfl⟩
  · exact ⟨_, _, rfl⟩

theorem foldl_bnYield_eq (ws : List BnJob) (s : State) :
    ∃ crypto draws, ws.foldl (fun s w => s.bnYield w) s = { s with crypto := crypto, draws := draws } := by
  induction ws generalizing s with
  | nil => exact ⟨_, _, rfl⟩
  | cons w ws ih =>
    obtain ⟨crypto, draws, h⟩ := s.bnYield_eq w
    obtain ⟨crypto', draws', h'⟩ := ih (s.bnYield w)
    exact ⟨crypto', draws', by rw [List.foldl_cons, h', h]⟩

/-- What a scruple boundary leaves, but for the big-number engines. -/
theorem State.scrupleBoundary_eq {s : State} (hr : s.sched.running = true) (hc : s.tamper.clockStopped = false)
    (hf : s.pwr.flush = none) (hn : s.now % 20 = 0) (hl : s.sched.lastScruple ≠ some s.now) :
    ∃ crypto draws, s.scrupleBoundary =
      { s with
        slices := tmap Slice.reset (fun x => { x with tokForce := x.tokQuota, tokLeft := x.tokQuota }) s.slices,
        sched := { s.sched with
          lastScruple := some s.now,
          atRisk := (List.range 6).filter (fun k => !(s.riskUnits k).isEmpty),
          esc := ((List.range 6).filter (fun k => !(s.riskUnits k).isEmpty)).flatMap s.riskUnits },
        crypto := crypto, draws := draws } := by
  have hgo : (s.now % scruple != 0 || s.sched.lastScruple == some s.now || !s.sched.running || s.tamper.clockStopped ||
      s.pwr.flush.isSome) = false := by simp [scruple, hn, hl, hr, hc, hf]
  unfold State.scrupleBoundary
  rw [if_neg (by rw [hgo]; decide)]
  exact foldl_bnYield_eq _ _

/-! Missed deadlines. -/

/-- The scheduler as a missed deadline leaves it. -/
def Sched.missing (x : Sched) (task : Nat) : Sched :=
  { x with missed := if x.missed.contains task then x.missed else task :: x.missed, bgMiss := true }

theorem Sched.mem_missing (x : Sched) (task : Nat) : task ∈ (x.missing task).missed := by
  unfold Sched.missing
  dsimp only
  split
  · next h => simpa using h
  · exact List.mem_cons_self ..

/-- The deadline of re-masking is a tamper event, the others are of the protocol. -/
theorem State.missTask_remask (s : State) :
    s.missTask 1 = ({ s with sched := s.sched.missing 1 } : State).level1 10 0x19 0 0xFFFF 0 := rfl

theorem State.missTask_other (s : State) {task : Nat} (h : task ≠ 1) : s.missTask task =
    ({ s with sched := s.sched.missing task } : State).plogEvent unitSched 0x09 0 0xFFFF 0xFFFF task :=
  if_neg (by simpa using h)

theorem State.level1_sched (s : State) (unit source loc slice detail : Nat) :
    (s.level1 unit source loc slice detail).sched = s.sched := by
  unfold State.level1
  split <;> rfl

/-- A task that meets its deadline unfinished. -/
theorem State.deadlineMiss_of {s : State} {task : Nat} (hr : s.sched.running = true) (hc : s.tamper.clockStopped = false)
    (hf : s.pwr.flush = none) (ht : task ∈ [0, 1, 3, 4]) (ho : s.sched.overdue.contains task = false)
    (hd : s.taskDeadline task ≤ s.now) (hs : s.taskSteps task .keyStore ≠ 0) :
    s.deadlineMiss task = ({ s with sched := { s.sched with overdue := task :: s.sched.overdue } } : State).missTask task := by
  have hgo : (!s.sched.running || s.tamper.clockStopped || s.pwr.flush.isSome) = false := by simp [hr, hc, hf]
  have hmiss : (s.sched.overdue.contains task || decide (s.now < s.taskDeadline task) || s.taskSteps task .keyStore == 0)
      = false := by
    rw [ho]
    simp [hs, hd]
  simp only [List.mem_cons, List.not_mem_nil, or_false] at ht
  unfold State.deadlineMiss
  rw [if_neg (by rw [hgo]; decide)]
  rcases ht with rfl | rfl | rfl | rfl <;> exact if_neg (by rw [hmiss]; decide)

/-- An event is raised from every state with the logs and the grain of the one in which it is raised. -/
theorem Raised.of_logs {s s' t : State} {level source loc : Nat} (h : Raised s' t level source loc) (hl : s'.logs = s.logs)
    (hn : s'.now = s.now) : Raised s t level source loc := by
  unfold Raised at h ⊢
  rwa [hl, hn] at h

/-- Settles O50: the tokens, the risk and the escalation of the boundary; then the missed deadlines. -/
theorem scruplesAndDeadlines : Obligations.ScruplesAndDeadlines := by
  unfold Obligations.ScruplesAndDeadlines
  intro s hr hc hf
  refine ⟨fun hn hl hwf => ?_, fun hn => ?_, fun task ht ho hd hs => ?_, fun ho hd hs hspent => ?_⟩
  · obtain ⟨crypto, draws, h⟩ := State.scrupleBoundary_eq hr hc hf hn hl
    refine ⟨_, congrArg Host.Outcome.next h, rfl, fun k => ?_, fun k hk => ?_, fun u => ?_, rfl, rfl⟩
    · have ht : tget Slice.reset (tmap Slice.reset (fun x => { x with tokForce := x.tokQuota, tokLeft := x.tokQuota })
          s.slices) k = { s.sliceAt k with tokForce := (s.sliceAt k).tokQuota, tokLeft := (s.sliceAt k).tokQuota } :=
        tget_tmap hwf rfl k
      simp only [State.sliceAt] at ht ⊢
      rw [ht]
      exact ⟨rfl, rfl, rfl⟩
    · simp [hk]
    · simp only [List.mem_flatMap, List.mem_filter, List.mem_range, Bool.not_eq_true', List.isEmpty_eq_false_iff]
      exact ⟨fun ⟨k, ⟨hk, _⟩, hu⟩ => ⟨k, hk, hu⟩, fun ⟨k, hk, hu⟩ => ⟨k, ⟨hk, List.ne_nil_of_mem hu⟩, hu⟩⟩
  · exact congrArg Host.Outcome.next (if_pos (by simp [scruple, hn]))
  · have h4 : task ∈ [0, 1, 3, 4] ∧ task ≠ 1 := (by decide : ∀ n ∈ [0, 3, 4], n ∈ [0, 1, 3, 4] ∧ n ≠ 1) task ht
    obtain ⟨h4, h1⟩ := h4
    have hi : exec (.bgDeadlineMiss task) s = .next (s.deadlineMiss task) := rfl
    rw [State.deadlineMiss_of hr hc hf h4 ho hd hs, State.missTask_other _ h1] at hi
    exact ⟨_, hi, List.mem_cons_self .., Sched.mem_missing .., rfl, State.plogEvent_logged .., rfl⟩
  · have hi : exec (.bgDeadlineMiss 1) s = .next (s.deadlineMiss 1) := rfl
    rw [State.deadlineMiss_of hr hc hf (by decide) ho hd hs, State.missTask_remask] at hi
    refine ⟨_, hi, ?_, ?_, ?_⟩
    · rw [State.level1_sched]
      exact Sched.mem_missing ..
    · rw [State.level1_sched]
      rfl
    · refine Raised.of_logs (State.level1_raised ?_ ..) rfl rfl
      exact hspent

end Sys2Proof.Machine
end

section
/-! SUPPORT. The sideband port, the telemetry sample and the acknowledgement of the logs (R577, R584 to R590, R596). -/

namespace Sys2Proof.Machine
open Sys2Proof

/-! The sideband port. -/

section
variable {s : State}

/-- The commands that a device in HALT answers (R587). -/
def haltCodes : List Nat := [0x00, 0x09, 0x0A]

theorem mem_haltCodes {code : Nat} : code ∈ haltCodes ↔ (code == 0x00 || code == 0x09 || code == 0x0A) = true := by
  simp [haltCodes, or_assoc]

theorem State.sbAnswer_shown {code : Nat} (data : Bytes) (hu : s.portUp = true) (hh : s.halted = false ∨ code ∈ haltCodes) :
    s.sbAnswer code data = s.emit (.sideband data) := by
  refine if_neg ?_
  rcases hh with hh | hc
  · simp [hu, hh]
  · rw [hu, mem_haltCodes.mp hc]
    simp

theorem State.sbAnswer_refused {code : Nat} (data : Bytes)
    (h : s.portUp = false ∨ s.halted = true ∧ code ∉ haltCodes) : s.sbAnswer code data = s.sbRefuse code := by
  refine if_pos ?_
  rcases h with hu | ⟨hh, hc⟩
  · simp [hu]
  · rw [mem_haltCodes, Bool.not_eq_true] at hc
    rw [hh, hc]
    simp

theorem refuses_of {i : Instr} {code : Nat} (hi : exec i s = .next (s.sbRefuse code)) :
    ∃ t, exec i s = .next t ∧ t.out = s.out ++ [.sidebandNak] ∧ Logged s t 0x0E 0 (code % 256) ∧
      t = { s with out := t.out, logs := t.logs } :=
  ⟨_, hi, rfl, ⟨_, rfl, rfl, rfl, rfl, rfl⟩, rfl⟩

/-- A command that answers with its data, or is not acknowledged. -/
theorem shows_of {i : Instr} {code : Nat} {data : Bytes} (hi : exec i s = .next (s.sbAnswer code data))
    (hc : code % 256 = code) :
    (s.portUp = true → s.halted = false ∨ code ∈ haltCodes →
        exec i s = .next { s with out := s.out ++ [.sideband data] }) ∧
      (s.portUp = false ∨ s.halted = true ∧ code ∉ haltCodes → ∃ t, exec i s = .next t ∧
        t.out = s.out ++ [.sidebandNak] ∧ Logged s t 0x0E 0 code ∧ t = { s with out := t.out, logs := t.logs }) := by
  refine ⟨fun hu hh => ?_, fun h => ?_⟩
  · rw [hi, State.sbAnswer_shown data hu hh]
    rfl
  · rw [State.sbAnswer_refused data h] at hi
    have hr := refuses_of hi
    rwa [hc] at hr

end

/-- The byte of SB_TAMPER_FLAGS (R586). -/
def tamperFlags (n : Nat) (alarm latch : Bool) : Byte := BitVec.ofNat 8 (n + at_ (flag alarm) 5 + at_ (flag latch) 6)

theorem tamperFlags_fields : ∀ n < 16, ∀ alarm latch : Bool, (tamperFlags n alarm latch).toNat % 32 = n ∧
    (tamperFlags n alarm latch).getLsbD 5 = alarm ∧ (tamperFlags n alarm latch).getLsbD 6 = latch ∧
    (tamperFlags n alarm latch).getLsbD 7 = false := by decide

/-- The byte of SB_STATUS_FLAGS (R586). -/
def statusFlags (halted through bittern spent up : Bool) : Byte :=
  BitVec.ofNat 8 (flag halted + at_ (flag through) 1 + at_ (flag bittern) 2 + at_ (flag spent) 3 + at_ (flag up) 4)

theorem statusFlags_fields : ∀ halted through bittern spent up : Bool,
    let v := statusFlags halted through bittern spent up
    v.getLsbD 0 = halted ∧ v.getLsbD 1 = through ∧ v.getLsbD 2 = bittern ∧ v.getLsbD 3 = spent ∧ v.getLsbD 4 = up ∧
      v.toNat < 32 := by decide

/-- HTM_HALT as the sideband port shows it: the code and the attempts (R410). -/
theorem State.haltBytes (s : State) :
    leBytes 2 s.haltReg = [BitVec.ofNat 8 s.keys.haltCode, BitVec.ofNat 8 (s.keys.attempts % 4)] := by
  have hlo : BitVec.ofNat 8 s.haltReg = BitVec.ofNat 8 s.keys.haltCode := by
    refine BitVec.eq_of_toNat_eq ?_
    simp only [BitVec.toNat_ofNat, State.haltReg, at_]
    omega
  have hhi : s.haltReg / 256 = s.keys.attempts % 4 := by
    unfold State.haltReg at_
    omega
  rw [leBytes, leBytes, leBytes, hlo, hhi]

/-! Extremes of the temperatures. -/

theorem tjMax_mem (a b : BitVec 16) : tjMax a b = a ∨ tjMax a b = b := by
  unfold tjMax
  split_ifs <;> simp

theorem tjMin_mem (a b : BitVec 16) : tjMin a b = a ∨ tjMin a b = b := by
  unfold tjMin
  split_ifs <;> simp

theorem tjMax_none (b : BitVec 16) : tjMax tjNone b = b := if_pos (by decide)

theorem tjMin_none (b : BitVec 16) : tjMin tjNone b = b := if_pos (by decide)

/-- What picks one of two picks one of a list. -/
theorem foldl_pick_mem {f : BitVec 16 → BitVec 16 → BitVec 16} (hf : ∀ a b, f a b = a ∨ f a b = b) (l : List (BitVec 16))
    (a : BitVec 16) : l.foldl f a ∈ a :: l := by
  induction l generalizing a with
  | nil => exact List.mem_cons_self ..
  | cons b l ih =>
    rw [List.foldl_cons]
    rcases hf a b with h | h
    · rw [h]
      exact (List.mem_cons.mp (ih a)).elim (fun e => by rw [e]; exact List.mem_cons_self ..)
        fun hm => List.mem_cons_of_mem _ (List.mem_cons_of_mem _ hm)
    · rw [h]
      exact List.mem_cons_of_mem _ (ih b)

/-- From a value that gives way, it picks one of the list. -/
theorem foldl_pick_none_mem {f : BitVec 16 → BitVec 16 → BitVec 16} (hf : ∀ a b, f a b = a ∨ f a b = b)
    (hn : ∀ b, f tjNone b = b) (l : List (BitVec 16)) (hl : l ≠ []) : l.foldl f tjNone ∈ l := by
  obtain ⟨b, l, rfl⟩ := List.exists_cons_of_ne_nil hl
  rw [List.foldl_cons, hn]
  exact foldl_pick_mem hf l b

/-- A value that does not exist is below every other. -/
theorem tjNone_le (x : BitVec 16) : tjNone.toInt ≤ x.toInt := by
  have := BitVec.le_toInt x
  exact this

theorem le_tjMax (a b : BitVec 16) : a.toInt ≤ (tjMax a b).toInt ∧ b.toInt ≤ (tjMax a b).toInt := by
  unfold tjMax
  split_ifs with h1 h2 h3
  · rw [eq_of_beq h1]
    exact ⟨tjNone_le b, le_rfl⟩
  · rw [eq_of_beq h2]
    exact ⟨le_rfl, tjNone_le a⟩
  · exact ⟨(BitVec.slt_iff_toInt_lt.mp h3).le, le_rfl⟩
  · exact ⟨le_rfl, not_lt.mp fun hlt => h3 (BitVec.slt_iff_toInt_lt.mpr hlt)⟩

theorem le_foldl_tjMax (l : List (BitVec 16)) (a : BitVec 16) :
    a.toInt ≤ (l.foldl tjMax a).toInt ∧ ∀ x ∈ l, x.toInt ≤ (l.foldl tjMax a).toInt := by
  induction l generalizing a with
  | nil => simp
  | cons b l ih =>
    obtain ⟨hacc, hrest⟩ := ih (tjMax a b)
    obtain ⟨ha, hb⟩ := le_tjMax a b
    rw [List.foldl_cons, List.forall_mem_cons]
    exact ⟨ha.trans hacc, hb.trans hacc, hrest⟩

/-- The smaller of two values that exist. -/
theorem tjMin_le (a b : BitVec 16) : (a ≠ tjNone → tjMin a b ≠ tjNone ∧ (tjMin a b).toInt ≤ a.toInt) ∧
    (b ≠ tjNone → tjMin a b ≠ tjNone ∧ (tjMin a b).toInt ≤ b.toInt) := by
  unfold tjMin
  split_ifs with h1 h2 h3
  · exact ⟨fun h => absurd (eq_of_beq h1) h, fun h => ⟨h, le_rfl⟩⟩
  · exact ⟨fun h => ⟨h, le_rfl⟩, fun h => absurd (eq_of_beq h2) h⟩
  · exact ⟨fun h => ⟨h, le_rfl⟩, fun _ => ⟨by simpa using h1, (BitVec.slt_iff_toInt_lt.mp h3).le⟩⟩
  · have hle : b.toInt ≤ a.toInt := not_lt.mp fun hlt => h3 (BitVec.slt_iff_toInt_lt.mpr hlt)
    exact ⟨fun _ => ⟨by simpa using h2, hle⟩, fun h => ⟨h, le_rfl⟩⟩

theorem foldl_tjMin_le (l : List (BitVec 16)) (a : BitVec 16) :
    (a ≠ tjNone → (l.foldl tjMin a).toInt ≤ a.toInt) ∧ ∀ x ∈ l, x ≠ tjNone → (l.foldl tjMin a).toInt ≤ x.toInt := by
  induction l generalizing a with
  | nil => simp
  | cons b l ih =>
    obtain ⟨hacc, hrest⟩ := ih (tjMin a b)
    obtain ⟨ha, hb⟩ := tjMin_le a b
    rw [List.foldl_cons, List.forall_mem_cons]
    exact ⟨fun h => (hacc (ha h).1).trans (ha h).2, fun h => (hacc (hb h).1).trans (hb h).2, hrest⟩

/-! The sample. -/

/-- The extremes of a sample. -/
theorem Telemetry.sample_extremes (t : Telemetry) (now draw : Nat) {tj : List (BitVec 16)} (h : tj ≠ []) (power mv : Nat) :
    let u := t.sample now draw tj power mv
    u.tMax ∈ tj ∧ u.tMin ∈ tj ∧ ∀ x ∈ tj, x ≠ 0x8000 → x.toInt ≤ u.tMax.toInt ∧ u.tMin.toInt ≤ x.toInt :=
  ⟨foldl_pick_none_mem tjMax_mem tjMax_none tj h, foldl_pick_none_mem tjMin_mem tjMin_none tj h, fun x hx hne =>
    ⟨(le_foldl_tjMax tj tjNone).2 x hx, (foldl_tjMin_le tj tjNone).2 x hx hne⟩⟩

theorem sensorList_ne_nil (tj : List (BitVec 16)) : sensorList tj ≠ [] := by simp [sensorList]

/-- HOLD at 9.5 V or above is only recorded. -/
theorem State.holdSample_strong (s : State) {mv : Nat} (h : 9500 ≤ mv) :
    s.holdSample mv = { s with pwr := { s.pwr.sample mv with holdOk := true } } := by
  simp [State.holdSample, h]

/-- A sample that is due, HOLD not weak: the registers of telemetry, the power registers and the step. -/
theorem exec_telemetrySample {s : State} (tj : List (BitVec 16)) (power : Nat) {mv : Nat} (hst : s.pwr.starting = true)
    (hr : s.sched.running = true) (hf : s.pwr.flush = none) (hs : s.tamper.state ≠ .spent)
    (hd : s.taskDeadline 4 ≤ s.now + 5760) (hmv : 9500 ≤ mv) (hm : s.mayStep .telemetry background = true) :
    ∃ tel pwr sched draws, exec (.telemetrySample tj power mv) s = .next
      { s with tel := tel, pwr := pwr, sched := sched, draws := draws } ∧
      tel = s.tel.sample s.now s.draws (sensorList tj) power mv := by
  have hgo : (s.pwr.starting && s.sched.running && s.pwr.flush.isNone && s.tamper.state != .spent &&
      decide (s.taskDeadline 4 ≤ s.now + pound)) = true := by simp [hst, hr, hf, hs, hd, pound]
  have hdone (v : State) : ∃ sched, (v.holdSample mv).taskDone 4 =
      { v with pwr := { v.pwr.sample mv with holdOk := true }, sched := sched } := by
    rw [State.holdSample_strong _ hmv]
    exact State.taskDone_eq _ 4
  obtain ⟨sched, h⟩ := hdone
    { s.takeStep .telemetry with tel := s.tel.sample s.now s.draws (sensorList tj) power mv }.drawn
  refine ⟨_, { s.pwr.sample mv with holdOk := true }, sched, s.draws + 1, congrArg Host.Outcome.next ?_, rfl⟩
  rw [if_neg (by rw [hgo]; decide), State.stepOf_served hm]
  exact h

/-- Settles O48: the commands of the sideband port, the sample, the acknowledgements. -/
theorem sidebandAndTelemetry : Obligations.SidebandAndTelemetry := by
  unfold Obligations.SidebandAndTelemetry
  intro s refuses shows_ temp
  have htemp (code : Nat) (x : BitVec 16) : s.sbTemp code x = s.sbAnswer code (temp x) := by
    simp only [State.sbTemp, temp, beq_iff_eq]
    rfl
  refine ⟨shows_of rfl rfl, shows_of rfl rfl, ?_, ?_, shows_of rfl rfl, shows_of rfl rfl, shows_of rfl rfl, ?_,
    shows_of rfl rfl, ?_, ?_, fun k => ⟨fun hk => ?_, fun hk => ?_⟩, fun code => refuses_of rfl, rfl, ?_, ?_, ?_, ?_⟩
  · exact shows_of (congrArg _ (htemp ..)) rfl
  · exact shows_of (congrArg _ (htemp ..)) rfl
  · refine ⟨if s.tamper.state = .spent then 0 else tamperFlags (min 15 s.window2.length) s.alarm s.tamper.latch,
      shows_of ?_ rfl, fun h => if_pos h, fun h => ?_⟩
    · refine congrArg Host.Outcome.next ?_
      by_cases h : s.tamper.state = .spent
      · simp only [h, if_true]
        rfl
      · simp only [beq_iff_eq, h, if_false]
        rfl
    · rw [if_neg h]
      exact tamperFlags_fields _ (by omega) _ _
  · refine ⟨statusFlags s.halted s.nv.wt (s.tamper.state == .bittern) (s.tamper.state == .spent) (s.pwr.step == 9),
      shows_of rfl rfl, ?_⟩
    simpa only [beq_eq_decide] using statusFlags_fields ..
  · refine shows_of ?_ rfl
    rw [← State.haltBytes]
    rfl
  · exact shows_of (congrArg _ ((if_neg (by omega)).trans (htemp ..))) (by omega)
  · exact refuses_of (congrArg _ (if_pos hk))
  · intro tj power mv hst hr hf hs hd hp hlo hhi hm
    obtain ⟨tel, pwr, sched, draws, h, htel⟩ := exec_telemetrySample tj power hst hr hf hs hd hlo hm
    refine ⟨_, h, rfl, ?_⟩
    dsimp only
    subst htel
    refine ⟨rfl, rfl, Nat.mod_eq_of_lt hp, Nat.mod_eq_of_lt hhi, rfl, ?_, s.tel.sample_extremes _ _ (sensorList_ne_nil tj) _ _⟩
    simp only [Telemetry.sample, Nat.mod_eq_of_lt hp]
  · exact fun hw => congrArg Host.Outcome.next (State.onReg_of hw _)
  · exact fun hw seq => congrArg Host.Outcome.next (State.onReg_of hw _)
  · exact fun hw seq => congrArg Host.Outcome.next (State.onReg_of hw _)

end Sys2Proof.Machine
end

section
/-! SUPPORT. Page writes on their way through the write buffer of the store (R475, R480). -/

namespace Sys2Proof.Machine
open Sys2Proof

/-- The page writes that have not reached the array, oldest first. -/
def Nv.queue (n : Nv) : List WbEntry := n.wbuf ++ n.behind

section
variable {n : Nv} {q : List WbEntry} {e : WbEntry}

/-- The newest write of a page is what a read of the page sees. -/
theorem Nv.entryOf_last (h : n.queue = q ++ [e]) : n.entryOf e.key = some e := by
  unfold Nv.entryOf
  rw [← Nv.queue, h]
  simp

theorem Nv.readPage_last (h : n.queue = q ++ [e]) (hb : e.badCw = []) : (n.readPage e.key).1 = fit 256 e.data := by
  simp only [Nv.readPage, Nv.entryOf_last h, NvPage.readable, hb]
  rfl

end

/-- A page write goes to the end of the queue; of the state nothing else changes but the freezing of the entries. -/
theorem State.bufferIn_eq (s : State) (e : WbEntry) : ∃ wbuf behind last f q,
    s.bufferIn e = { s with nv := { s.nv with wbuf := wbuf, behind := behind, lastWrite := last } } ∧
      wbuf ++ behind = q ++ [{ e with frozen := f }] ∧ q.length = s.nv.queue.length := by
  have hfree (l : List WbEntry) : (l.map (fun x => { x with frozen := true })).length = l.length := List.length_map ..
  unfold State.bufferIn
  dsimp only
  split
  · next h =>
    simp only [Bool.and_eq_true, Bool.not_eq_true', List.isEmpty_iff, decide_eq_true_eq] at h
    obtain ⟨⟨-, hbehind⟩, hlen⟩ := h
    have htake : (s.nv.wbuf ++ [e]).take 64 = s.nv.wbuf ++ [e] := List.take_of_length_le (by simp; omega)
    rw [htake]
    split
    · exact ⟨_, _, _, true, s.nv.wbuf.map (fun x => { x with frozen := true }), rfl, by simp [hbehind],
        by simp [Nv.queue, hbehind]⟩
    · exact ⟨_, _, _, e.frozen, s.nv.wbuf, rfl, by simp [hbehind], by simp [Nv.queue, hbehind]⟩
  · exact ⟨_, _, _, e.frozen, s.nv.queue, rfl, (List.append_assoc ..).symm, rfl⟩

/-- A write to a page that stands in no buffer entry, when there is room: its page write is the newest. -/
theorem State.bufferWrite_fresh {s : State} {key : Nat} (o : Nat) (data : Bytes) (sync : List CommitWait)
    (hk : ∀ e ∈ s.nv.wbuf, e.key ≠ key) (hroom : s.nv.wbuf.length < 64 ∨ s.nv.wt = true) :
    let new := wrapWrite (s.nv.readPage key).1 o data
    ∃ nv f q, s.bufferWrite key o data sync = some { s with nv := nv } ∧
      nv.queue = q ++ [{ userEntry key o new sync with frozen := f }] ∧ (nv.readPage key).1 = fit 256 new ∧
      nv.pages = s.nv.pages ∧ nv.maps = s.nv.maps := by
  intro new
  have hread {nv : Nv} {f : Bool} {q : List WbEntry} (hq : nv.queue = q ++ [{ userEntry key o new sync with frozen := f }]) :
      (nv.readPage key).1 = fit 256 new := Nv.readPage_last hq rfl
  have hany : s.nv.wbuf.any (fun e => e.key == key && !e.frozen) = false := by
    simp only [List.any_eq_false, Bool.and_eq_true, beq_iff_eq, not_and]
    exact fun e he h => absurd h (hk e he)
  unfold State.bufferWrite
  dsimp only
  split
  · have hq : ({ s.nv with behind := s.nv.behind ++ [{ userEntry key o new sync with frozen := true }] } : Nv).queue =
        s.nv.queue ++ [{ userEntry key o new sync with frozen := true }] := (List.append_assoc ..).symm
    exact ⟨_, true, _, rfl, hq, hread hq, rfl, rfl⟩
  · next hwt =>
    have hlen : ¬ 64 ≤ s.nv.wbuf.length := by
      rcases hroom with h | h
      · omega
      · exact absurd h hwt
    rw [if_neg (by rw [hany]; decide), if_neg hlen]
    obtain ⟨wbuf, behind, last, f, q, h, hq, -⟩ := s.bufferIn_eq (userEntry key o new sync)
    exact ⟨_, f, q, congrArg some h, hq, hread (nv := { s.nv with wbuf := wbuf, behind := behind, lastWrite := last }) hq,
      rfl, rfl⟩

end Sys2Proof.Machine
end
section
/-! SUPPORT. The device as a contactless tag (R530, R539 to R547). -/

namespace Sys2Proof.Machine
open Sys2Proof

section
variable {s : State}

theorem State.onApp_of (ht : s.tagTalks = true) (ha : s.cl.app = true) (f : State) : s.onApp f = f := by
  simp [State.onApp, ht, ha]

/-- The contents of the selected file, or what the tag answers instead (R541). -/
def State.readFile (s : State) (offset len : Nat) : State :=
  match s.cl.file with
  | none => s.swFree
  | some f =>
    if f = fidIdent then s.readAnswer s.identFile offset len
    else if f = fidCert then s.readAnswer s.keys.cert offset len
    else if f = fidSummary then s.readAnswer ((s.tamper.summary.map (fit 256)).getD []) offset len
    else s.readInv offset len

theorem exec_readBinary (ht : s.tagTalks = true) (ha : s.cl.app = true) (hp : s.pwr.mainOk = true ∨ 1500 ≤ s.cl.field)
    (offset len : Nat) : exec (.readBinary offset len) s = .next (s.readFile offset len) := by
  have hlit : (!s.pwr.mainOk && decide (s.cl.field < readField)) = false := by
    rcases hp with h | h
    · simp [h]
    · simp [readField, Nat.not_lt.mpr h]
  refine congrArg Host.Outcome.next ((if_neg (by rw [hlit]; decide)).trans ((State.onApp_of ht ha _).trans ?_))
  rfl

/-! Passwords. -/

theorem State.passwordCheck_passes {part : Nat} {write : Bool} {given : Bytes} (hl : (s.partAt part).locked = false)
    (hp : passwordOk (if write then (s.partAt part).writePw else (s.partAt part).readPw) given = true) :
    s.passwordCheck part write given = (s.modPart part (fun p => { p with fails := 0 }), none) := by
  simp [State.passwordCheck, hl, hp]

theorem State.passwordCheck_fails {part : Nat} {write : Bool} {given : Bytes} (hl : (s.partAt part).locked = false)
    (hp : passwordOk (if write then (s.partAt part).writePw else (s.partAt part).readPw) given = false) :
    s.passwordCheck part write given = (s.passwordFailed part, some (7, .auth)) := by
  simp [State.passwordCheck, hl, hp]

/-- A failure is counted, and locks at 8; of the rest only the logs change. -/
theorem State.passwordFailed_eq (s : State) (part : Nat) : ∃ logs, s.passwordFailed part =
    { s.setPart part { s.partAt part with
        fails := (s.partAt part).fails + 1, locked := decide (8 ≤ (s.partAt part).fails + 1) } with logs := logs } := by
  unfold State.passwordFailed
  dsimp only
  split
  · exact ⟨_, rfl⟩
  · exact ⟨_, rfl⟩

/-- With main power a read password that fits opens the application for reads. -/
theorem State.comparePassword_passes {given : Bytes} (hm : s.pwr.mainOk = true) (hl : (s.partAt 0).locked = false)
    (hp : passwordOk (s.partAt 0).readPw given = true) : s.comparePassword false given =
      ({ s.modPart 0 (fun p => { p with fails := 0 }) with cl := { s.cl with readOk := true } } : State).rfOut (sw 0x9000) := by
  unfold State.comparePassword
  rw [State.passwordCheck_passes (write := false) hl hp]
  simp only [hm, if_true]
  rfl

/-- One that does not fit is counted, and the answer tells the failures left. -/
theorem State.comparePassword_fails {given : Bytes} (hm : s.pwr.mainOk = true) (hl : (s.partAt 0).locked = false)
    (hp : passwordOk (s.partAt 0).readPw given = false) :
    s.comparePassword false given = (s.passwordFailed 0).wrongPassword := by
  unfold State.comparePassword
  rw [State.passwordCheck_fails (write := false) hl hp]
  simp only [hm, if_true]

/-- The status word of a wrong password. -/
theorem sw_failures : ∀ n < 8, sw (0x63C0 + (8 - (n + 1))) = [0x63, BitVec.ofNat 8 (0xC0 + (7 - n))] := by decide

theorem State.updatePowered_of {offset : Nat} {data : Bytes} {t : State}
    (h : s.bufferWrite (userKey 0 (offset / 256)) (offset % 256) data [s.tagWait] = some t) :
    s.updatePowered offset data =
      { t with nextId := t.nextId + 1, cl := { t.cl with pendingUpdate := some s.nextId } } := by
  simp only [State.updatePowered, h]

end

/-- Settles O47: field and activation, then the commands of the application. -/
theorem tagAnswers : Obligations.TagAnswers := by
  unfold Obligations.TagAnswers
  intro s p talks answers
  refine ⟨fun field hf => ⟨fun h => ?_, fun hm hb => ?_⟩, ?_, fun hm hf => ?_, fun ht => ?_⟩
  · refine congrArg Host.Outcome.next ((if_neg hf).trans (if_pos ?_))
    simpa using h
  · refine congrArg Host.Outcome.next ((if_neg hf).trans (if_neg ?_))
    simp [hm, hb]
  · refine ⟨_, rfl, rfl, rfl, rfl, rfl, rfl, rfl, rfl, rfl, rfl, fun hm => ?_, fun hm => ?_, rfl, rfl⟩
    · exact ⟨by simp [State.fieldLoss, hm, State.deselect, State.tagLevel], by
        simp [State.fieldLoss, hm, State.deselect, State.tagLevel]⟩
    · exact ⟨by simp [State.fieldLoss, hm, State.deselect, State.tagLevel], by
        simp [State.fieldLoss, hm, State.deselect, State.tagLevel]⟩
  · have hon : s.tagOn = true := by simp [State.tagOn, hm, hf]
    have hframe (f : TagFrame) (hl : s.cl.level ≠ .protocol) : exec (.tagAnticollision f) s = .next (s.tagFrame f) :=
      congrArg Host.Outcome.next (if_pos (by simp [hon, hl]))
    refine ⟨fun hl => ?_, fun hl => ⟨?_, ?_⟩, fun hl => ⟨?_, ?_⟩, fun hp => ?_⟩
    · refine (hframe _ (by simp [hl])).trans (congrArg Host.Outcome.next ?_)
      simp only [State.tagFrame, hl]
      rfl
    · refine (hframe _ (by simp [hl])).trans (congrArg Host.Outcome.next ?_)
      simp only [State.tagFrame, hl]
      rfl
    · refine (hframe _ (by simp [hl])).trans (congrArg Host.Outcome.next ?_)
      simp only [State.tagFrame, hl, readyLevel, beq_self_eq_true]
      rfl
    · refine (hframe _ (by simp [hl])).trans (congrArg Host.Outcome.next ?_)
      simp only [State.tagFrame, hl]
      rfl
    · refine (hframe _ (by simp [hl])).trans (congrArg Host.Outcome.next ?_)
      simp only [State.tagFrame, hl]
      rfl
    · have hi : exec .tagFrameError s = .next (s.frameError 1) :=
        congrArg Host.Outcome.next ((if_neg (by simp [hon])).trans (if_pos hp))
      exact ⟨_, hi, rfl, ⟨_, rfl, rfl, rfl, rfl, rfl⟩, rfl⟩
  · obtain ⟨hmode, hfield, hlevel⟩ := ht
    have htalk : s.tagTalks = true := by simp [State.tagTalks, State.tagOn, hmode, hfield, hlevel]
    refine ⟨?_, fun ha fid => ⟨fun hx => ?_, fun hx => ?_⟩, fun ha hpow o n => ⟨fun hfile hlen => ?_, fun hfile hlen => ?_⟩,
      ?_, ?_, ?_, ?_⟩
    · exact congrArg Host.Outcome.next ((if_neg (by simp [htalk])).trans (if_pos (by simp)))
    · exact congrArg Host.Outcome.next ((State.onApp_of htalk ha _).trans (if_pos hx))
    · exact congrArg Host.Outcome.next ((State.onApp_of htalk ha _).trans (if_neg (by simp [hx])))
    · refine (exec_readBinary htalk ha hpow o n).trans (congrArg Host.Outcome.next ?_)
      simp only [State.readFile, hfile]
      exact (if_pos rfl).trans (if_neg (by omega))
    · refine (exec_readBinary htalk ha hpow o n).trans (congrArg Host.Outcome.next ?_)
      simp only [State.readFile, hfile]
      exact (if_neg (by decide)).trans ((if_pos rfl).trans (if_pos (by omega)))
    · intro ha hm hs hfile hpend hlock hok hwt hlen o data mv field key ho hsize hkey
      obtain ⟨nv, f, q, hw, -, hread, hpages, hmaps⟩ :=
        State.bufferWrite_fresh (o % 256) data [s.tagWait] hkey (.inl hlen)
      have hi : exec (.updateBinary o data mv field) s = .next (s.updatePowered o data) := by
        refine congrArg Host.Outcome.next ((if_neg (by simp [hpend])).trans ((State.onApp_of htalk ha _).trans ?_))
        rw [if_neg (by simpa using hs), if_neg (by simp [hfile, fidInv]), if_neg (Bool.eq_false_iff.mp hlock),
          if_neg (by simp [hok]), if_neg (by simp; omega), if_pos hm]
      rw [State.updatePowered_of hw] at hi
      exact ⟨_, hi, rfl, hread, hpages, hmaps, rfl, rfl, rfl⟩
    · intro ha hpend hlock hs hfile o data mv field
      refine congrArg Host.Outcome.next ((if_neg (by simp [hpend])).trans ((State.onApp_of htalk ha _).trans ?_))
      rw [if_neg (by simpa using hs), if_neg (by simp [hfile, fidInv]), if_pos hlock]
      rfl
    · intro ha hlock write pw mv
      exact congrArg Host.Outcome.next ((State.onApp_of htalk ha _).trans (if_pos hlock))
    · intro ha hlock hm pw mv
      have hi : exec (.verify false pw mv) s = .next (s.comparePassword false pw) := by
        refine congrArg Host.Outcome.next ((State.onApp_of htalk ha _).trans ?_)
        rw [if_neg (Bool.eq_false_iff.mp hlock), if_neg (by simp [hm])]
      refine ⟨fun hpw => ?_, fun hz hpw hfails => ?_⟩
      · have hok : passwordOk p.readPw pw = true := by
          rcases hpw with h | h <;> simp [passwordOk, h]
        rw [State.comparePassword_passes hm hlock hok] at hi
        exact ⟨_, hi, rfl, State.setPart_same .., rfl, rfl⟩
      · have hok : passwordOk p.readPw pw = false := by simp [passwordOk, hz, Ne.symm hpw]
        obtain ⟨logs, hf⟩ := s.passwordFailed_eq 0
        rw [State.comparePassword_fails hm hlock hok, hf] at hi
        have hp := s.setPart_same 0 { p with fails := p.fails + 1, locked := decide (8 ≤ p.fails + 1) }
        refine ⟨_, hi, rfl, ?_, ?_, rfl⟩
        · refine hp.trans ?_
          simp [p, Nat.succ_le_succ_iff]
        · rw [← sw_failures p.fails hfails]
          have hout := congrArg (fun x : UserPart => s.out ++ [Out.rf (sw (0x63C0 + (8 - x.fails)))]) hp
          exact hout

end Sys2Proof.Machine
end

section
/-! SUPPORT. What reads and writes of host memory change (R305 to R307, R321). -/

namespace Sys2Proof.Machine
open Sys2Proof

/-- From `s` to `t` only what a checked access leaves has changed: what is sent, captures of violations, the dirty-page log
and its filter, the logs. -/
def Accessed (s t : State) : Prop := ∃ out mpus slices hregs logs,
  t = { s with out := out, mpus := mpus, slices := slices, hregs := hregs, logs := logs }

theorem Accessed.refl (s : State) : Accessed s s := ⟨_, _, _, _, _, rfl⟩

theorem Accessed.trans {s t u : State} (h : Accessed s t) (h' : Accessed t u) : Accessed s u := by
  obtain ⟨_, _, _, _, _, rfl⟩ := h
  obtain ⟨_, _, _, _, _, rfl⟩ := h'
  exact ⟨_, _, _, _, _, rfl⟩

/-- Changes made one after the other. -/
theorem Accessed.foldl {α : Type} {f : State → α → State} (hf : ∀ s a, Accessed s (f s a)) (l : List α) (s : State) :
    Accessed s (l.foldl f s) := by
  induction l generalizing s with
  | nil => exact .refl s
  | cons a l ih => exact (hf s a).trans (ih _)

section
variable (s : State)

theorem State.violation_accessed (master slice a : Nat) (write precise : Bool) (v : Verdict) :
    Accessed s (s.violation master slice a write precise v) := by
  cases v <;> exact ⟨_, _, _, _, _, rfl⟩

theorem State.fwRegion_accessed (master addr len : Nat) : Accessed s (s.fwRegion master addr len) := by
  unfold State.fwRegion
  split <;> exact ⟨_, _, _, _, _, rfl⟩

theorem State.emitWrite_accessed (master slice a : Nat) (attr : Attr) (t : Traffic) (data : Bytes) :
    Accessed s (s.emitWrite master slice a attr t data) := ⟨_, _, _, _, _, rfl⟩

theorem State.modSlice_accessed (slice : Nat) (f : Slice → Slice) : Accessed s (s.modSlice slice f) :=
  ⟨_, _, _, _, _, rfl⟩

/-! Writes. -/

theorem State.writeParts_accessed (master slice : Nat) (t : Traffic) (precise : Bool) (base : Nat) (data : Bytes)
    (ps : List (Nat × Nat)) : Accessed s (s.writeParts master slice t precise base data ps).1 := by
  induction ps generalizing s with
  | nil => exact .refl s
  | cons p ps ih =>
    unfold State.writeParts
    split
    · exact (s.emitWrite_accessed ..).trans (ih _)
    · exact s.violation_accessed ..

theorem State.rawWrite_accessed (master slice : Nat) (t : Traffic) (precise : Bool) (addr : Nat) (data : Bytes) :
    Accessed s (s.rawWrite master slice t precise addr data).1 :=
  (s.fwRegion_accessed ..).trans (State.writeParts_accessed ..)

theorem State.dplStop_accessed (slice : Nat) (access : Bool) : Accessed s (s.dplStop slice access) := ⟨_, _, _, _, _, rfl⟩

theorem State.dplEntry_accessed (slice source page : Nat) : Accessed s (s.dplEntry slice source page) := by
  unfold State.dplEntry
  dsimp only
  split
  · exact .refl s
  split
  · exact s.dplStop_accessed ..
  split
  · refine Accessed.trans ?_ (State.modSlice_accessed ..)
    exact s.rawWrite_accessed ..
  · refine Accessed.trans ?_ (State.dplStop_accessed ..)
    exact s.rawWrite_accessed ..

theorem State.dplPage_accessed (slice : Nat) (t : Traffic) (page : Nat) : Accessed s (s.dplPage slice t page) := by
  unfold State.dplPage
  split_ifs
  · exact s.dplEntry_accessed ..
  · exact s.modSlice_accessed ..
  · exact .refl s

theorem State.dplNote_accessed (slice : Nat) (t : Traffic) (addr len : Nat) : Accessed s (s.dplNote slice t addr len) := by
  unfold State.dplNote
  split
  · exact .refl s
  · exact Accessed.foldl (fun _ _ => State.dplPage_accessed ..) _ s

theorem State.writeNow_accessed (master slice : Nat) (t : Traffic) (precise : Bool) (addr : Nat) (data : Bytes) :
    Accessed s (s.writeNow master slice t precise addr data).1 :=
  (s.rawWrite_accessed ..).trans (State.dplNote_accessed ..)

theorem State.assignDma_other {master : Nat} (h : master ≠ 42 ∧ master ≠ 43) (job : Nat) : s.assignDma master job = s := by
  simp [State.assignDma, h]

variable {s}

/-- A write by a master whose MPU has no buffer is checked at once. -/
theorem State.hostWrite_direct {master : Nat} (h : master < 32 ∨ 44 ≤ master) (slice : Nat) (t : Traffic)
    (work : Option Nat) (addr : Nat) (data : Bytes) : s.hostWrite master slice t work addr data =
      if data.isEmpty then (s, true) else s.writeNow master slice t true addr data := by
  have hb : (decide (32 ≤ master) && decide (master < 44) && (s.mpuAt master).bufwLive) = false := by
    rcases h with h | h
    · simp [Nat.not_le.mpr h]
    · simp [Nat.not_lt.mpr h]
  cases work with
  | none => simp only [State.hostWrite, hb, Bool.false_eq_true, if_false]
  | some id =>
    simp only [State.hostWrite, s.assignDma_other (by omega : master ≠ 42 ∧ master ≠ 43), hb, Bool.false_eq_true, if_false]

theorem State.hostWrite_accessed {master : Nat} (h : master < 32 ∨ 44 ≤ master) (slice : Nat) (t : Traffic)
    (work : Option Nat) (addr : Nat) (data : Bytes) : Accessed s (s.hostWrite master slice t work addr data).1 := by
  rw [State.hostWrite_direct h]
  split
  · exact .refl s
  · exact s.writeNow_accessed ..

end

/-! Reads. -/

/-- The read that has been issued. -/
structure Read.Issued (r : Read) (n : Nat) (k : ReadKind) (book a l : Nat) (again : Bool) : Prop where
  id : r.id = n
  kind : r.kind = k
  slice : r.slice = book
  addr : r.addr = a
  len : r.len = l
  retry : r.retry = again
  failedAt : r.failedAt = none
  preUnfence : r.preUnfence = false
  discard : r.discard = (k == .failed)

/-- A read that passes its checks stands last in the list of reads. -/
theorem State.hostRead_ok {s : State} {kind : ReadKind} {master slice : Nat} {t : Traffic} {addr len : Nat} {retry : Bool}
    (h : (s.hostRead kind master slice t addr len retry).2 = true) : ∃ out mpus crypto r,
      (s.hostRead kind master slice t addr len retry).1 =
        { s with out := out, mpus := mpus, crypto := crypto, nextId := s.nextId + 1, reads := s.reads ++ [r] } ∧
      r.Issued s.nextId kind slice addr len retry := by
  have hregion (u : State) : ∃ mpus, u.fwRegion master addr len = { u with mpus := mpus } := by
    unfold State.fwRegion
    split <;> exact ⟨_, rfl⟩
  have hassign (id : Nat) : ∃ crypto, s.assignDma master id = { s with crypto := crypto } := by
    unfold State.assignDma
    split <;> exact ⟨_, rfl⟩
  have hstart : ∃ crypto mpus, (match kind.work? with | some id => s.assignDma master id | none => s).fwRegion master addr
      len = { s with crypto := crypto, mpus := mpus } := by
    split
    · obtain ⟨crypto, ha⟩ := hassign ‹_›
      obtain ⟨mpus, hm⟩ := hregion { s with crypto := crypto }
      exact ⟨crypto, mpus, ha ▸ hm⟩
    · obtain ⟨mpus, hm⟩ := hregion s
      exact ⟨_, mpus, hm⟩
  obtain ⟨crypto, mpus, hu⟩ := hstart
  unfold State.hostRead at h ⊢
  dsimp only at h ⊢
  generalize State.fwRegion _ master addr len = u at h hu ⊢
  split at h
  · subst hu
    exact ⟨_, mpus, crypto, _, rfl, rfl, rfl, rfl, rfl, rfl, rfl, rfl, rfl, rfl⟩
  · exact absurd h Bool.false_ne_true

/-- The read of a named buffer: the work waits for its data. -/
theorem asks_of {i : Instr} {s : State} {id n master slice addr len : Nat} {t : Traffic} {w : Work} {f : Work → Work}
    (hw : s.workAt id = some w) (hok : (s.hostRead (.work id 0) master slice t addr len false).2 = true)
    (hf : ∀ v, (f v).id = v.id ∧ (f v).phase = .reading n)
    (hi : exec i s = .next ((s.hostRead (.work id 0) master slice t addr len false).1.modWork id f)) :
    Asks i s id n addr len := by
  obtain ⟨out, mpus, crypto, r, h, hr⟩ := State.hostRead_ok hok
  rw [h] at hi
  refine ⟨_, hi, ?_, ⟨r, List.mem_append_right _ (List.mem_singleton.mpr rfl), hr.kind, hr.addr, hr.len, hr.failedAt⟩, rfl,
    rfl, rfl, rfl, rfl⟩
  have hn := State.workAt_modWork_same (f := f) (s :=
    { s with out := out, mpus := mpus, crypto := crypto, nextId := s.nextId + 1, reads := s.reads ++ [r] }) hw
    fun v => (hf v).1
  unfold At
  rw [hn]
  exact congrArg some (hf w).2

/-! Writes do not look at the rest of the state. -/

/-- The state `r` with all that a checked access looks at or changes as in `s`. -/
def State.onHost (s r : State) : State :=
  { r with
    out := s.out, mpus := s.mpus, slices := s.slices, hregs := s.hregs, logs := s.logs, link := s.link,
    sched := { r.sched with grain := s.sched.grain, taken := s.sched.taken }, keys := s.keys }

section
variable (s r : State)

theorem State.onHost_violation (master slice a : Nat) (write precise : Bool) (v : Verdict) :
    (s.onHost r).violation master slice a write precise v = (s.violation master slice a write precise v).onHost r := by
  cases v <;> rfl

theorem State.onHost_fwRegion (master addr len : Nat) :
    (s.onHost r).fwRegion master addr len = (s.fwRegion master addr len).onHost r := by
  unfold State.fwRegion
  split <;> rfl

theorem State.onHost_writeParts (master slice : Nat) (t : Traffic) (precise : Bool) (base : Nat) (data : Bytes)
    (ps : List (Nat × Nat)) : (s.onHost r).writeParts master slice t precise base data ps =
      ((s.writeParts master slice t precise base data ps).1.onHost r,
        (s.writeParts master slice t precise base data ps).2) := by
  induction ps generalizing s with
  | nil => rfl
  | cons p ps ih =>
    have hv : (s.onHost r).verdict master slice p.1 true = s.verdict master slice p.1 true := rfl
    unfold State.writeParts
    rw [hv]
    split
    · exact ih (s.emitWrite ..)
    · exact congrArg (·, false) (s.onHost_violation r ..)

theorem State.onHost_rawWrite (master slice : Nat) (t : Traffic) (precise : Bool) (addr : Nat) (data : Bytes) :
    (s.onHost r).rawWrite master slice t precise addr data =
      ((s.rawWrite master slice t precise addr data).1.onHost r, (s.rawWrite master slice t precise addr data).2) := by
  unfold State.rawWrite
  dsimp only
  rw [State.onHost_fwRegion]
  exact State.onHost_writeParts ..

theorem State.onHost_dplEntry (slice source page : Nat) :
    (s.onHost r).dplEntry slice source page = (s.dplEntry slice source page).onHost r := by
  have hs : (s.onHost r).sliceAt slice = s.sliceAt slice := rfl
  have hm : (s.onHost r).mpuAt (masterCq slice) = s.mpuAt (masterCq slice) := rfl
  unfold State.dplEntry
  dsimp only
  rw [hs, hm, State.onHost_rawWrite]
  split
  · rfl
  split
  · rfl
  split
  · rfl
  · rfl

theorem State.onHost_dplPage (slice : Nat) (t : Traffic) (page : Nat) :
    (s.onHost r).dplPage slice t page = (s.dplPage slice t page).onHost r := by
  have hs : (s.onHost r).sliceAt slice = s.sliceAt slice := rfl
  have hc : (s.onHost r).canMaster (masterCq slice) = s.canMaster (masterCq slice) := rfl
  unfold State.dplPage
  rw [hs, hc, State.onHost_dplEntry]
  split
  · rfl
  split
  · rfl
  · rfl

theorem State.onHost_dplNote (slice : Nat) (t : Traffic) (addr len : Nat) :
    (s.onHost r).dplNote slice t addr len = (s.dplNote slice t addr len).onHost r := by
  unfold State.dplNote
  split
  · rfl
  · induction List.range ((addr + len - 1) / 4096 + 1 - addr / 4096) generalizing s with
    | nil => rfl
    | cons i l ih =>
      rw [List.foldl_cons, List.foldl_cons, State.onHost_dplPage]
      exact ih _

theorem State.onHost_writeNow (master slice : Nat) (t : Traffic) (precise : Bool) (addr : Nat) (data : Bytes) :
    (s.onHost r).writeNow master slice t precise addr data =
      ((s.writeNow master slice t precise addr data).1.onHost r, (s.writeNow master slice t precise addr data).2) := by
  have hl : ((s.fwRegion master addr data.length).onHost r).landed true master slice addr data.length =
      (s.fwRegion master addr data.length).landed true master slice addr data.length := rfl
  unfold State.writeNow
  dsimp only
  rw [State.onHost_fwRegion, State.onHost_rawWrite, hl, State.onHost_dplNote]

/-- A write by a master whose MPU has no buffer does not look at the rest of the state. -/
theorem State.onHost_hostWrite {master : Nat} (h : master < 32 ∨ 44 ≤ master) (slice : Nat) (t : Traffic)
    (work : Option Nat) (addr : Nat) (data : Bytes) : (s.onHost r).hostWrite master slice t work addr data =
      ((s.hostWrite master slice t work addr data).1.onHost r, (s.hostWrite master slice t work addr data).2) := by
  rw [State.hostWrite_direct h, State.hostWrite_direct h]
  split
  · rfl
  · exact State.onHost_writeNow ..

end

end Sys2Proof.Machine
end

section
/-! SUPPORT. The collect and the dialogue with a custodian card (R529 to R538, R547). -/

namespace Sys2Proof.Machine
open Sys2Proof

section
variable {s : State} {c : Collect}

/-- A work as it ended stays so when another work changes. -/
theorem Ended.of_workAt {s t : State} {id : Nat} {st : Status} {res : Bytes} (h : Ended s id st res)
    (hw : t.workAt id = s.workAt id) : Ended t id st res := by
  obtain ⟨w, x, hs, hrest⟩ := h
  exact ⟨w, x, hw.trans hs, hrest⟩

/-- The end of a collect: the front end is a tag again, the collect's work ends with its counts (R530, R538). -/
theorem State.endCollect_ends {v : Work} {st : Status} (hv : s.workAt c.work = some v) (hr : v.ring < 65536)
    (hf : st ≠ .fault) (ht : st ≠ .tamper) :
    Ended (s.endCollect c st) c.work st (clResult c.selected c.sigs.length c.rejected) ∧
      (∀ k, k ≠ c.work → (s.endCollect c st).workAt k = s.workAt k) ∧
      s.endCollect c st = { s with
        out := s.out ++ (if c.dialog.isSome then [.rf rfHlta] else []),
        cl := { s.cl with mode := .tag, collect := none, extField := false }, work := (s.endCollect c st).work } := by
  have hd : (if c.dialog.isSome then s.rfOut rfHlta else s) =
      { s with out := s.out ++ (if c.dialog.isSome then [.rf rfHlta] else []) } := by
    split
    · rfl
    · rw [List.append_nil]
  unfold State.endCollect
  rw [hd]
  obtain ⟨ends, only, others⟩ := State.finish_ends (clResult c.selected c.sigs.length c.rejected)
    (s := { s with
      out := s.out ++ (if c.dialog.isSome then [.rf rfHlta] else []),
      cl := { s.cl with mode := .tag, collect := none, extField := false } }) hv hr hf ht
  exact ⟨ends, others, only⟩

/-- A completion whose result beyond the known bytes is open (R537). -/
theorem State.finishOpen_ends {id : Nat} {w : Work} {st : Status} (known : Bytes) (hw : s.workAt id = some w)
    (hr : w.ring < 65536) (hf : st ≠ .fault) (ht : st ≠ .tamper) : ∃ res,
      Ended (s.finishOpen id st known) id st res ∧ (∀ k, k ≠ id → (s.finishOpen id st known).workAt k = s.workAt k) ∧
      s.finishOpen id st known = { s with work := (s.finishOpen id st known).work, draws := s.draws + 1 } := by
  obtain ⟨ends, only, others⟩ :=
    State.finish_ends (known ++ Config.freeBytes s.draws (16 - known.length)) hw hr hf ht
  refine ⟨_, ends, others, ?_⟩
  unfold State.finishOpen
  rw [only]
  rfl

/-! The dialogue. -/

/-- The dialogue that runs. -/
def State.dialog (s : State) : Option Dialog := s.cl.collect.bind Collect.dialog

theorem State.dialog_of {d : Dialog} (hc : s.cl.collect = some c) (hd : c.dialog = some d) : s.dialog = some d := by
  rw [State.dialog, hc]
  exact hd

theorem State.dialog_modDialog (s : State) (f : Dialog → Dialog) : (s.modDialog f).dialog = s.dialog.map f := by
  unfold State.dialog State.modDialog State.modCollect
  cases s.cl.collect <;> rfl

/-- The dialogue waits for the answer of the step whose frame has been sent. -/
theorem State.sendCard_step (step : CardStep) (frame : Bytes) {d : Dialog} (h : s.dialog = some d) :
    (s.sendCard step frame).dialog.map Dialog.step = some step := by
  change (s.modDialog (fun d => { d with step := step, sent := frame, retries := 0 })).dialog.map Dialog.step = _
  rw [State.dialog_modDialog, h]
  rfl

theorem State.resolve_step (level : Nat) (known : List Bool) {d : Dialog} (h : s.dialog = some d) :
    (s.resolve level known).dialog.map Dialog.step = some .anticol :=
  State.sendCard_step _ _ (d := { d with level := level, known := known }) (by rw [State.dialog_modDialog, h]; rfl)

/-- The dialogue as a REQA begins it. -/
def reqaDialog (n : Nat) (fresh : Bool) : Dialog :=
  { step := .atqa n, level := 1, known := [], branches := [], uid := [], sent := rfReqa, retries := 0, fresh := fresh }

theorem State.sendReqa_collect (n : Nat) (fresh : Bool) (hc : s.cl.collect = some c) :
    (s.sendReqa n fresh).cl.collect = some { c with dialog := some (reqaDialog n fresh) } := by
  change s.cl.collect.map _ = _
  rw [hc]
  rfl

theorem State.sendReqa_dialog (n : Nat) (fresh : Bool) (hc : s.cl.collect = some c) :
    (s.sendReqa n fresh).dialog = some (reqaDialog n fresh) := State.dialog_of (State.sendReqa_collect n fresh hc) rfl

/-- No answer to a REQA: it is sent again, up to 3 times, else no card is left. -/
theorem State.cardTimeout_reqa {d : Dialog} {n : Nat} (hc : s.cl.collect = some c) (hd : c.dialog = some d)
    (hs : c.sigs.length < 2) (hstep : d.step = .atqa n) : s.cardTimeout =
      if n < 3 then s.sendReqa (n + 1) d.fresh
      else (if d.fresh then { s with cl := { s.cl with falseDet := s.cl.falseDet + 1 } } else s).toPing := by
  have hopen : (!c.full) = true := by simpa [Collect.full] using hs
  have hdlg : (s.cl.collect.filter (fun c => !c.full)).bind Collect.dialog = some d := by
    rw [hc, Option.filter_some, if_pos hopen]
    exact hd
  unfold State.cardTimeout
  rw [hdlg]
  dsimp only
  rw [hstep]

/-! The second signature. -/

/-- The state when the second card has been accepted. -/
def State.bothSigned (s : State) (c : Collect) (y x : Nat × Bytes × Bytes) : State :=
  { s with cl := { s.cl with collect := some { c with sigs := [y, x] }, sigs := 2 } }

/-- The record of a collect with two signatures is written, which does not look at the collect, and the collect ends. -/
theorem State.bothSigned_done {v : Work} (y x : Nat × Bytes × Bytes) (hv : s.workAt c.work = some v) (hr : v.ring < 65536) :
    let o := s.hostWrite masterMgmt v.slice .statement (some v.id) (v.field 0x18 8) (authRecord c.block [y, x])
    let t := (s.bothSigned c y x).collectDone { c with sigs := [y, x] }
    Ended t c.work (if o.2 then .ok else .access) (clResult c.selected 2 c.rejected) ∧
      t.cl = { s.cl with mode := .tag, collect := none, extField := false, sigs := 2 } ∧
      t.out = o.1.out ++ (if c.dialog.isSome then [.rf rfHlta] else []) ∧ t.books = s.books := by
  intro o t
  have hwrite := s.onHost_hostWrite (s.bothSigned c y x) (master := masterMgmt) (by decide) v.slice .statement (some v.id)
    (v.field 0x18 8) (authRecord c.block [y, x])
  have hst : ∀ b : Bool, (if b then Status.ok else .access) ≠ .fault ∧ (if b then Status.ok else .access) ≠ .tamper := by
    decide
  have ht : t = (o.1.onHost (s.bothSigned c y x)).endCollect { c with sigs := [y, x] } (if o.2 then .ok else .access) := by
    have hu : (s.bothSigned c y x).workAt c.work = some v := hv
    have hself : s.onHost (s.bothSigned c y x) = s.bothSigned c y x := rfl
    rw [hself] at hwrite
    change State.collectDone _ _ = _
    simp only [State.collectDone, hu, hwrite]
    rfl
  obtain ⟨ends, -, hend⟩ := State.endCollect_ends (s := o.1.onHost (s.bothSigned c y x)) (c := { c with sigs := [y, x] }) hv hr
    (hst o.2).1 (hst o.2).2
  rw [← ht] at ends hend
  refine ⟨ends, ?_, ?_, ?_⟩
  · rw [hend]
    rfl
  · rw [hend]
    rfl
  · rw [hend]
    rfl

/-! Pings. -/

/-- A ping that is due, and what it measures. -/
theorem State.cardPing_of {a : Nat} (hc : s.cl.collect = some c) (hd : c.dialog = none) (hf : c.fieldOk = true)
    (hdue : c.pings = none ∨ c.lastPing + s.cl.pingMs * 8000 ≤ s.now) (ha : a < 1024) :
    s.cardPing a =
      let u := s.modCollect (fun c => { c with fieldOk := false, measuredAt := s.now, lastPing := s.now })
      match c.pings with
      | none => { u with cl := { u.cl with detBase := a, detLast := 0 } }.modCollect (fun c => { c with pings := some 0 })
      | some n =>
        let x := detuning u.cl.detBase a
        let v := { u with cl := { u.cl with detLast := min 1023 x } }
        if v.cl.detThr ≤ x then { v with cl := { v.cl with mode := .reader } }.sendReqa 1 true
        else v.modCollect (fun c => { c with pings := if n + 1 = 16 then none else some (n + 1) }) := by
  have hgo : (c.dialog.isSome || !c.fieldOk || !(c.pings.isNone || decide (c.lastPing + s.cl.pingMs * msec ≤ s.now))) =
      false := by
    rw [hd, hf]
    rcases hdue with h | h
    · simp [h]
    · simp [msec, h]
  unfold State.cardPing
  rw [hc]
  dsimp only
  rw [hgo, Nat.mod_eq_of_lt ha]
  rfl

end

/-- Settles O46: the start and the end of a collect, the field checks and pings, the dialogue by its steps. -/
theorem collects : Obligations.Collects := by
  unfold Obligations.Collects
  intro s ring w c still sends
  refine ⟨fun hs hform hst hrun hcol hr1 hr2 hr3 hcan hok => ?_, fun hs haux hzero => ⟨fun hcol hrun => ?_,
    fun v hcol hsl hv hr hne => ?_⟩, fun hcol v hv hr => ⟨fun hsig hdue => ?_, fun field hdlg hfield hdue => ?_,
    fun a hdlg hfield ha => ⟨fun hp => ?_, fun k hp hdue hthr => ?_, fun k hp hdue hthr => ?_⟩, fun d hdlg => ?_⟩⟩
  · refine asks_of (f := fun v => { v with phase := .reading 1 }) hs.2.1 hok (fun _ => ⟨rfl, rfl⟩) ?_
    have hstate : (s.tamper.state == .issued || s.tamper.state == .sealed_) = true := by simpa using hst
    refine congrArg Host.Outcome.next ((State.onStart_of hs.1 _).trans ?_)
    unfold State.startCollect
    simp only [hform, hstate, hrun, hcol, hr1, hr2, hr3, hcan, hok]
    rfl
  · have hi : exec (.clAbort ring) s = .next (s.finishOpen w.id .ok []) := by
      refine congrArg Host.Outcome.next ((State.onStart_of hs.1 _).trans ?_)
      simp only [State.clAbort, haux, hzero, hcol, hrun]
      rfl
    obtain ⟨res, ends, -, only⟩ := State.finishOpen_ends [] hs.2.1 hs.ring_lt (by decide : Status.ok ≠ .fault) (by decide)
    refine ⟨_, res, hi, ends, ?_, ?_⟩
    · rw [only]
    · rw [only]
      exact ⟨rfl, rfl, rfl⟩
  · have hi : exec (.clAbort ring) s = .next ((s.endCollect c .auth).finishOpen w.id .ok []) := by
      refine congrArg Host.Outcome.next ((State.onStart_of hs.1 _).trans ?_)
      simp only [State.clAbort, haux, hzero, hcol, hsl]
      rfl
    obtain ⟨ends, others, hend⟩ := State.endCollect_ends hv hr (by decide : Status.auth ≠ .fault) (by decide)
    obtain ⟨res, ends', others', only⟩ := State.finishOpen_ends [] ((others _ hne.symm).trans hs.2.1) hs.ring_lt
      (by decide : Status.ok ≠ .fault) (by decide)
    refine ⟨_, res, hi, ends', ?_, ?_, ends.of_workAt (others' _ hne), ?_⟩
    · rw [only, hend]
    · rw [only, hend]
    · rw [only, hend]
      exact ⟨rfl, rfl, rfl⟩
  · have hi : exec .clCollectWaitExpiry s = .next (s.endCollect c .auth) := by
      refine congrArg Host.Outcome.next ?_
      rw [hcol]
      refine (if_neg ?_).trans (if_pos (by simp [pound, hdue]))
      simpa [Collect.full] using hsig
    obtain ⟨ends, -, hend⟩ := State.endCollect_ends hv hr (by decide : Status.auth ≠ .fault) (by decide)
    refine ⟨_, hi, ?_, ?_, ends, ?_⟩
    · rw [hend]
    · rw [hend]
    · rw [hend]
      exact ⟨rfl, rfl, rfl⟩
  · have hlate : ¬ s.now < c.measuredAt + (if s.cl.extField then 10 * msec else 5 * msec) := not_lt.mpr hdue
    have hgo : (c.dialog.isSome || c.fieldOk ||
        decide (s.now < c.measuredAt + (if s.cl.extField then 10 * msec else 5 * msec))) = false := by
      rw [hdlg, hfield, decide_eq_false hlate]
      rfl
    have hlim : (!decide (fieldLimit < field)) = decide (field ≤ 150) := by
      rw [← decide_not]
      exact decide_eq_decide.mpr not_lt
    have hi : exec (.externalFieldCheck field) s = .next { s with cl := { s.cl with
        collect := some { c with fieldOk := decide (field ≤ 150), measuredAt := s.now },
        extField := decide (150 < field) } } := by
      refine congrArg Host.Outcome.next ?_
      simp only [State.modCollect, hcol, hgo, hlim]
      rfl
    exact ⟨_, hi, rfl, rfl, rfl⟩
  · have hi : exec (.cardPing a) s = .next { s with cl := { s.cl with
        detBase := a, detLast := 0,
        collect := some { c with fieldOk := false, measuredAt := s.now, lastPing := s.now, pings := some 0 } } } := by
      refine congrArg Host.Outcome.next ((State.cardPing_of hcol hdlg hfield (.inl hp) ha).trans ?_)
      simp only [State.modCollect, hcol, hp]
      rfl
    exact ⟨_, hi, rfl, rfl, rfl⟩
  · have hi : exec (.cardPing a) s = .next (({ s with cl := { s.cl with
        detLast := min 1023 (detuning s.cl.detBase a), mode := .reader,
        collect := some { c with fieldOk := false, measuredAt := s.now, lastPing := s.now } } } : State).sendReqa 1 true) := by
      refine congrArg Host.Outcome.next ((State.cardPing_of hcol hdlg hfield (.inr hdue) ha).trans ?_)
      simp only [State.modCollect, hcol, Option.map_some, hp, hthr, if_true]
    exact ⟨_, _, hi, rfl, State.sendReqa_dialog 1 true rfl, rfl, rfl, rfl, rfl, rfl, rfl⟩
  · have hi : exec (.cardPing a) s = .next { s with cl := { s.cl with
        detLast := min 1023 (detuning s.cl.detBase a),
        collect := some { c with
          fieldOk := false, measuredAt := s.now, lastPing := s.now,
          pings := if k + 1 = 16 then none else some (k + 1) } } } := by
      refine congrArg Host.Outcome.next ((State.cardPing_of hcol hdlg hfield (.inr hdue) ha).trans ?_)
      simp only [State.modCollect, hcol, Option.map_some, hp, Nat.not_le.mpr hthr, if_false]
    exact ⟨_, hi, rfl, rfl, rfl⟩
  · have hdialog := State.dialog_of hcol hdlg
    refine ⟨fun k hstep => ?_, fun hstep data hne hlen hrate => ?_, fun hstep => ?_, fun k hsig hstep hk => ?_,
      fun k hsig hstep hk => ?_, fun data x hstep hsig hsel hacc => ?_, fun data x y hstep hsig hacc hcan => ?_⟩
    · have hi : exec (.cardActivationAnswer [0x04, 0x00] none) s =
          .next ((s.modDialog (fun d => { d with fresh := false })).resolve 1 []) := by
        refine congrArg Host.Outcome.next ?_
        simp only [State.activation, hcol, hdlg, hstep]
      exact ⟨_, hi, State.resolve_step 1 [] (d := { d with fresh := false })
        (by rw [State.dialog_modDialog, hdialog]; rfl), rfl, rfl, rfl, rfl⟩
    · have hok : (data.isEmpty || (data.headD 0).toNat != data.length) = false := by
        rw [hlen, bne_self_eq_false, Bool.or_false]
        simpa using hne
      have hi : exec (.cardActivationAnswer data none) s = .next (s.sendCard .selectAid apduSelect) := by
        refine congrArg Host.Outcome.next ?_
        simp only [State.activation, hcol, hdlg, hstep, State.atsAnswer, hok, hrate]
        rfl
      exact ⟨_, hi, State.sendCard_step _ _ hdialog, rfl, rfl, rfl, rfl⟩
    · have hi : exec (.cardActivationAnswer [0x90, 0x00] none) s = .next (s.sendCard .pso (apduPso c.block)) := by
        refine congrArg Host.Outcome.next ?_
        simp only [State.activation, hcol, hdlg, hstep]
        rfl
      exact ⟨_, hi, State.sendCard_step _ _ hdialog, rfl, rfl, rfl, rfl⟩
    · have hi : exec .cardFrameTimeout s = .next (s.sendReqa (k + 1) d.fresh) := by
        refine congrArg Host.Outcome.next ((State.cardTimeout_reqa hcol hdlg hsig hstep).trans ?_)
        exact if_pos hk
      exact ⟨_, hi, by rw [← State.dialog, State.sendReqa_dialog _ _ hcol]; rfl, rfl, rfl, rfl, rfl⟩
    · have hi : exec .cardFrameTimeout s = .next { s with cl := { s.cl with
          mode := .ping, falseDet := s.cl.falseDet + (if d.fresh then 1 else 0),
          collect := some { c with dialog := none, fieldOk := false, measuredAt := s.now, lastPing := s.now } } } := by
        refine congrArg Host.Outcome.next ((State.cardTimeout_reqa hcol hdlg hsig hstep).trans ((if_neg (by omega)).trans ?_))
        cases d.fresh
        · simp [State.toPing, State.modCollect, hcol]
        · simp [State.toPing, State.modCollect, hcol]
          rfl
      exact ⟨_, hi, rfl, rfl, rfl, rfl⟩
    · have hi : exec (.cardAnswer data) s = .next (({ s with cl := { s.cl with
          collect := some { c with sigs := [x] }, sigs := 1 } } : State).rfOut rfHlta |>.sendReqa 1 false) := by
        refine congrArg Host.Outcome.next ?_
        simp only [State.cardAnswer, hcol, hdlg, hstep, Collect.full, hsig, hacc, State.nextCard]
        simp [cardLimit, Nat.not_le.mpr hsel]
      exact ⟨_, _, hi, State.sendReqa_collect _ _ rfl, rfl, rfl, rfl, List.append_assoc .., rfl, rfl, rfl⟩
    · have hi : exec (.cardAnswer data) s =
          .next ((s.bothSigned c y x).collectDone { c with sigs := [y, x] }) := by
        refine congrArg Host.Outcome.next ?_
        simp only [State.cardAnswer, State.bothSigned, hcol, hdlg, hstep, Collect.full, hsig, hacc]
        exact (if_neg (by simp)).trans ((if_pos rfl).trans (if_pos hcan))
      obtain ⟨ends, hcl, hout, hbooks⟩ := State.bothSigned_done (c := c) y x hv hr
      refine ⟨_, hi, by rw [hcl], by rw [hcl], ends, ?_, hbooks⟩
      rw [hout, hdlg]
      rfl

end Sys2Proof.Machine
end

section
/-! SUPPORT. What writes through the buffer of an MPU change (R306, R321), and what a record of the store changes. -/

namespace Sys2Proof.Machine
open Sys2Proof

/-- From `s` to `t` only what a write behind a buffer leaves has changed: what a checked access leaves, and the works of the
writes that were buffered, with the units that they held. -/
def Drained (s t : State) : Prop := ∃ out mpus slices hregs logs work crypto rng nv applets,
  t = { s with
    out := out, mpus := mpus, slices := slices, hregs := hregs, logs := logs, work := work, crypto := crypto, rng := rng,
    nv := nv, applets := applets }

theorem Drained.refl (s : State) : Drained s s := ⟨_, _, _, _, _, _, _, _, _, _, rfl⟩

theorem Drained.trans {s t u : State} (h : Drained s t) (h' : Drained t u) : Drained s u := by
  obtain ⟨_, _, _, _, _, _, _, _, _, _, rfl⟩ := h
  obtain ⟨_, _, _, _, _, _, _, _, _, _, rfl⟩ := h'
  exact ⟨_, _, _, _, _, _, _, _, _, _, rfl⟩

theorem Accessed.drained {s t : State} (h : Accessed s t) : Drained s t := by
  obtain ⟨_, _, _, _, _, rfl⟩ := h
  exact ⟨_, _, _, _, _, _, _, _, _, _, rfl⟩

section
variable (s : State)

theorem State.countLate_eq (slice : Nat) (conds : List Nat) : ∃ f, s.countLate slice conds = s.modSlice slice f ∨
    s.countLate slice conds = s := by
  unfold State.countLate
  split
  · exact ⟨_, .inl rfl⟩
  · exact ⟨_, .inl rfl⟩
  · exact ⟨_, .inl rfl⟩
  · exact ⟨_, .inl rfl⟩
  · exact ⟨_, .inl rfl⟩
  · exact ⟨_, .inl rfl⟩
  · exact ⟨id, .inr rfl⟩

theorem State.countLate_accessed (slice : Nat) (conds : List Nat) : Accessed s (s.countLate slice conds) := by
  obtain ⟨f, h | h⟩ := s.countLate_eq slice conds
  · exact h ▸ s.modSlice_accessed slice f
  · exact h.symm ▸ .refl s

/-- An outcome that fences nothing: the work, and where a core waits for it the core. -/
theorem State.finishRaw_drained (id : Nat) (st : Status) (res : Bytes) : Drained s (s.finishRaw id st res) := by
  unfold State.finishRaw
  split
  · exact .refl s
  · next w _ =>
    split
    · have hdrop : Drained s (s.dropWork id) := ⟨_, _, _, _, _, _, _, _, _, _, rfl⟩
      refine (hdrop.trans (State.countLate_accessed _ w.slice (s.lateAtEnd w)).drained).trans ?_
      exact ⟨_, _, _, _, _, _, _, _, _, _, rfl⟩
    · exact ⟨_, _, _, _, _, _, _, _, _, _, rfl⟩

theorem State.finish_drained (id : Nat) {st : Status} (res : Bytes) (hf : st ≠ .fault) (ht : st ≠ .tamper) :
    Drained s (s.finish id st res) := by
  unfold State.finish
  split
  · exact .refl s
  · split
    · exact s.finishRaw_drained ..
    · split
      · exact absurd rfl ht
      · exact absurd rfl hf
      · exact s.finishRaw_drained ..

theorem State.restatus_drained (id : Nat) {st : Status} (hf : st ≠ .fault) (ht : st ≠ .tamper) :
    Drained s (s.restatus id st) := by
  unfold State.restatus
  split
  · exact .refl s
  · exact s.finish_drained _ _ hf ht

theorem State.releaseUnits_drained (id : Nat) : Drained s (s.releaseUnits id) :=
  ⟨_, _, _, _, _, _, _, _, _, _, rfl⟩

theorem State.drainOne_drained (master : Nat) : Drained s (s.drainOne master) := by
  unfold State.drainOne
  split
  · exact .refl s
  · next b rest _ =>
    have hw : Drained s ((s.modMpu master (fun m => { m with wbuf := rest })).writeNow master b.slice b.kind false b.addr
        b.data).1 := Drained.trans ⟨_, _, _, _, _, _, _, _, _, _, rfl⟩ (State.writeNow_accessed ..).drained
    dsimp only
    split
    · exact hw
    · split
      · exact hw
      · exact hw.trans ((State.releaseUnits_drained _ _).trans (State.restatus_drained _ _ (by decide) (by decide)))

theorem State.drainAll_drained (master : Nat) : Drained s (s.drainAll master) := by
  unfold State.drainAll
  generalize (s.mpuAt master).wbuf = l
  induction l generalizing s with
  | nil => exact .refl s
  | cons b l ih => exact (s.drainOne_drained master).trans (ih _)

theorem State.assignDma_drained (master job : Nat) : Drained s (s.assignDma master job) := by
  unfold State.assignDma
  split
  · exact ⟨_, _, _, _, _, _, _, _, _, _, rfl⟩
  · exact .refl s

/-- A host write once its work has an engine. -/
def State.hostWriteFrom (s : State) (master slice : Nat) (t : Traffic) (work : Option Nat) (addr : Nat) (data : Bytes) :
    State × Bool :=
  if data.isEmpty then (s, true)
  else if decide (32 ≤ master) && decide (master < 44) && (s.mpuAt master).bufwLive then
    if t.awaited then (s.drainAll master).writeNow master slice t false addr data
    else
      ((if (s.mpuAt master).wbuf.length < 16 then s else s.drainOne master).modMpu master (fun m =>
        { m with wbuf := m.wbuf ++ [{ slice := slice, work := work, addr := addr, kind := t, data := data }] }), true)
  else s.writeNow master slice t true addr data

theorem State.hostWriteFrom_drained (master slice : Nat) (t : Traffic) (work : Option Nat) (addr : Nat) (data : Bytes) :
    Drained s (s.hostWriteFrom master slice t work addr data).1 := by
  unfold State.hostWriteFrom
  split
  · exact .refl s
  split
  · split
    · exact (s.drainAll_drained master).trans (State.writeNow_accessed ..).drained
    · refine Drained.trans ?_ ⟨_, _, _, _, _, _, _, _, _, _, rfl⟩
      split
      · exact .refl s
      · exact s.drainOne_drained master
  · exact (s.writeNow_accessed ..).drained

theorem State.hostWrite_drained (master slice : Nat) (t : Traffic) (work : Option Nat) (addr : Nat) (data : Bytes) :
    Drained s (s.hostWrite master slice t work addr data).1 := by
  cases work with
  | none => exact s.hostWriteFrom_drained master slice t none addr data
  | some id => exact (s.assignDma_drained master id).trans (State.hostWriteFrom_drained _ master slice t (some id) addr data)

end

/-! Records of the store. -/

theorem State.writeEntry_eq (s : State) (e : WbEntry) : ∃ nv logs, (s.writeEntry e).1 = { s with nv := nv, logs := logs } := by
  unfold State.writeEntry
  dsimp only
  split
  · exact s.newCopy_eq e
  split
  · split
    · exact ⟨_, _, rfl⟩
    · exact s.newCopy_eq e
  · split
    · exact ⟨_, _, rfl⟩
    split
    · exact s.newCopy_eq e
    · exact ⟨_, _, rfl⟩

theorem foldl_writeEntry_eq (es : List WbEntry) (r : State × Bool) : ∃ nv logs,
    (es.foldl (fun r e => if r.2 then r.1.writeEntry e else r) r).1 = { r.1 with nv := nv, logs := logs } := by
  induction es generalizing r with
  | nil => exact ⟨_, _, rfl⟩
  | cons e es ih =>
    rw [List.foldl_cons]
    split
    · obtain ⟨nv, logs, h⟩ := r.1.writeEntry_eq e
      obtain ⟨nv', logs', h'⟩ := ih (r.1.writeEntry e)
      exact ⟨nv', logs', by rw [h', h]⟩
    · exact ih r

/-- A record that a rule writes at once: the store, its step, and without a spare page the logs. -/
theorem State.nvPut_eq (s : State) (part rec : Nat) : ∃ nv logs sched,
    s.nvPut part rec = { s with nv := nv, logs := logs, sched := sched } := by
  obtain ⟨nv, logs, h⟩ := foldl_writeEntry_eq (s.recordEntries (recKey part rec) [] []) (s.commitBuffer.takeStep .nv, true)
  refine ⟨nv, logs, (s.takeStep .nv).sched, ?_⟩
  unfold State.nvPut State.nvNow
  dsimp only
  split
  · exact h
  · exact h

/-! Writing pages. -/

/-- Only the array, its maps and its wear have changed. -/
def Nv.Paged (n m : Nv) : Prop := ∃ pages maps retired worn,
  m = { n with pages := pages, maps := maps, retired := retired, worn := worn }

theorem Nv.Paged.refl (n : Nv) : n.Paged n := ⟨_, _, _, _, rfl⟩

theorem Nv.Paged.trans {n m l : Nv} (h : n.Paged m) (k : m.Paged l) : n.Paged l := by
  obtain ⟨_, _, _, _, rfl⟩ := h
  obtain ⟨_, _, _, _, rfl⟩ := k
  exact ⟨_, _, _, _, rfl⟩

theorem Nv.writePhys_paged (n : Nv) (p : Nat) (v : NvPage) : n.Paged (n.writePhys p v) := by
  obtain ⟨retired, worn, h⟩ := n.writePhys_eq p v
  rw [h]
  exact ⟨_, _, _, _, rfl⟩

theorem Nv.freePages_paged (l : List Nat) (n : Nv) : n.Paged (l.foldl Nv.freePage n) := by
  induction l generalizing n with
  | nil => exact .refl n
  | cons p l ih => exact Nv.Paged.trans ⟨_, _, _, _, rfl⟩ (ih (n.freePage p))

/-- Pages have been written; without a spare page the logs have grown. -/
def PagesWritten (s t : State) : Prop :=
  ∃ nv logs, t = { s with nv := nv, logs := logs } ∧ logs.tpend = s.logs.tpend ∧ s.nv.Paged nv

section
variable {s t u : State}

theorem PagesWritten.refl (s : State) : PagesWritten s s := ⟨_, _, rfl, rfl, .refl _⟩

theorem PagesWritten.trans (h : PagesWritten s t) (k : PagesWritten t u) : PagesWritten s u := by
  obtain ⟨_, _, rfl, hlog, hp⟩ := h
  obtain ⟨_, _, rfl, klog, kp⟩ := k
  exact ⟨_, _, rfl, klog.trans hlog, hp.trans kp⟩

theorem PagesWritten.of_nv {n : Nv} (h : s.nv.Paged n) : PagesWritten s { s with nv := n } := ⟨_, _, rfl, rfl, h⟩

theorem State.newCopy_pagesWritten (s : State) (e : WbEntry) : PagesWritten s (s.newCopy e).1 := by
  unfold State.newCopy
  dsimp only
  split
  · exact ⟨_, _, rfl, rfl, .refl _⟩
  · split
    · exact .of_nv (Nv.writePhys_paged ..)
    split
    · exact .of_nv (Nv.freePages_paged ..)
    · refine .of_nv (Nv.Paged.trans ?_ (Nv.writePhys_paged ..))
      exact (Nv.freePages_paged _ _).trans ⟨_, _, _, _, rfl⟩

theorem State.writeEntry_pagesWritten (s : State) (e : WbEntry) : PagesWritten s (s.writeEntry e).1 := by
  unfold State.writeEntry
  dsimp only
  split
  · exact s.newCopy_pagesWritten e
  split
  · split
    · exact .refl s
    · exact s.newCopy_pagesWritten e
  · split
    · exact .refl s
    split
    · exact s.newCopy_pagesWritten e
    · exact .of_nv (Nv.writePhys_paged ..)

theorem foldl_writeEntry_pagesWritten (es : List WbEntry) (r : State × Bool) :
    PagesWritten r.1 (es.foldl (fun r e => if r.2 then r.1.writeEntry e else r) r).1 := by
  induction es generalizing r with
  | nil => exact .refl _
  | cons e es ih =>
    rw [List.foldl_cons]
    split
    · exact (r.1.writeEntry_pagesWritten e).trans (ih _)
    · exact ih r

theorem State.writeCounter_pagesWritten (s : State) (n : Nat) : PagesWritten s (s.writeCounter n) := by
  unfold State.writeCounter
  dsimp only
  split
  · exact .refl s
  · split
    · exact s.newCopy_pagesWritten _
    · exact .of_nv (Nv.writePhys_paged ..)

/-- A record that is written at once: its pages, and its images where no spare is missing. -/
theorem State.nvNow_of (s : State) (key : Nat) (img : List RecImage) : ∃ t, PagesWritten (s.commitBuffer.takeStep .nv) t ∧
    ((s.nvNow key img).1 = t ∨ (s.nvNow key img).1 = img.foldl State.commitImage t) := by
  refine ⟨_, foldl_writeEntry_pagesWritten (s.recordEntries key img []) (s.commitBuffer.takeStep .nv, true), ?_⟩
  unfold State.nvNow
  dsimp only
  split
  · exact .inr rfl
  · exact .inl rfl

theorem State.nvPut_of (s : State) (part rec : Nat) : PagesWritten (s.commitBuffer.takeStep .nv) (s.nvPut part rec) := by
  obtain ⟨t, ht, h | h⟩ := s.nvNow_of (recKey part rec) []
  · exact (show s.nvPut part rec = t from h) ▸ ht
  · exact (show s.nvPut part rec = t from h) ▸ ht

end

end Sys2Proof.Machine
end

section
/-! SUPPORT. The frames of a book in its journal region (R195 to R201). -/

namespace Sys2Proof.Machine
open Sys2Proof

/-! Work that ends gives journal room back; nothing else of a book changes. -/

/-- The books of two states are equal but for the reserved journal room. -/
structure SameBooks (s t : State) : Prop where
  book : ∀ k, ∃ n, t.bookAt k = { s.bookAt k with reserved := n }

theorem SameBooks.of_eq {s t : State} (h : t.books = s.books) : SameBooks s t :=
  ⟨fun k => ⟨(s.bookAt k).reserved, by rw [State.bookAt, h]; rfl⟩⟩

theorem SameBooks.refl (s : State) : SameBooks s s := .of_eq rfl

theorem SameBooks.trans {s t u : State} (h : SameBooks s t) (h' : SameBooks t u) : SameBooks s u := by
  refine ⟨fun k => ?_⟩
  obtain ⟨n, hn⟩ := h.book k
  obtain ⟨m, hm⟩ := h'.book k
  exact ⟨m, by rw [hm, hn]⟩

theorem Drained.kept {s t : State} (h : Drained s t) :
    t.books = s.books ∧ t.brine = s.brine ∧ t.pan = s.pan ∧ t.sched = s.sched := by
  obtain ⟨_, _, _, _, _, _, _, _, _, _, rfl⟩ := h
  exact ⟨rfl, rfl, rfl, rfl⟩

theorem Drained.books {s t : State} (h : Drained s t) : t.books = s.books := h.kept.1

theorem Drained.bookAt {s t : State} (h : Drained s t) (k : Nat) : t.bookAt k = s.bookAt k := by
  rw [State.bookAt, h.books]
  rfl

theorem SameBooks.foldl {α : Type} {f : State → α → State} (hf : ∀ s a, SameBooks s (f s a)) (l : List α) (s : State) :
    SameBooks s (l.foldl f s) := by
  induction l generalizing s with
  | nil => exact .refl s
  | cons a l ih => exact (hf s a).trans (ih _)

section
variable (s : State)

theorem State.modBook_reserved_sameBooks (book : Nat) (f : Book → Nat) :
    SameBooks s (s.modBook book (fun b => { b with reserved := f b })) := by
  refine ⟨fun k => ?_⟩
  by_cases hk : k = book
  · subst hk
    exact ⟨f (s.bookAt k), State.setBook_same ..⟩
  · exact ⟨(s.bookAt k).reserved, (State.setBook_other _ _ hk).trans rfl⟩

theorem State.dropEntries_sameBooks (p : Entry → Bool) : SameBooks s (s.dropEntries p) := by
  unfold State.dropEntries
  exact (SameBooks.foldl (fun s (e : Entry) => s.modBook_reserved_sameBooks e.book _) _ s).trans (.of_eq rfl)

theorem State.fenceRing_sameBooks (ring cause tag : Nat) : SameBooks s (s.fenceRing ring cause tag) := by
  unfold State.fenceRing State.refence
  split
  · split
    · exact .of_eq rfl
    · exact .refl s
  · refine SameBooks.trans ?_ (State.dropEntries_sameBooks ..)
    exact .of_eq rfl

theorem State.finishRaw_sameBooks (id : Nat) (st : Status) (res : Bytes) : SameBooks s (s.finishRaw id st res) :=
  .of_eq (s.finishRaw_drained id st res).books

theorem State.releaseWithheld_sameBooks (book : Nat) : SameBooks s (s.releaseWithheld book) := by
  unfold State.releaseWithheld
  refine SameBooks.trans (SameBooks.trans (SameBooks.foldl ?_ _ s) (SameBooks.foldl ?_ _ _)) (.of_eq rfl)
  · intro s w
    refine SameBooks.trans ?_ (State.finishRaw_sameBooks ..)
    exact .of_eq rfl
  · exact fun s w => State.fenceRing_sameBooks ..

end

/-! The books of the writer. -/

/-- Settling moves records out of the staging; where the writer stands does not change. -/
theorem Book.settle_eq (b : Book) : ∃ staged headsIssued target savedHeads,
    b.settle = { b with staged := staged, headsIssued := headsIssued, target := target, savedHeads := savedHeads } := by
  unfold Book.settle Book.recordTarget
  dsimp only
  split
  · exact ⟨_, _, _, _, rfl⟩
  · exact ⟨_, _, _, _, rfl⟩

theorem State.throughBook_eq (s : State) (book : Nat) : ∃ nv logs sched,
    s.throughBook book = { s with nv := nv, logs := logs, sched := sched } := by
  unfold State.throughBook
  split
  · exact State.nvPut_eq ..
  · exact ⟨_, _, _, rfl⟩

section
variable {s : State} {book : Nat} {r : Staged}

/-- The book once a frame has been issued. -/
def Book.frameOut (b : Book) (r : Staged) : Book :=
  ({ b with
    staged := b.staged.map (fun x => if x.lseq == r.lseq then { x with issued := true } else x),
    jWrite := b.jWrite + r.record.length + 32, issued := r.lseq,
    frameEnds := b.frameEnds ++ [(r.lseq, b.jWrite + r.record.length + 32)], jStall := none } : Book).settle

theorem Book.frameOut_eq (b : Book) (r : Staged) : ∃ staged headsIssued target savedHeads, b.frameOut r = { b with
    staged := staged, headsIssued := headsIssued, target := target, savedHeads := savedHeads,
    jWrite := b.jWrite + r.record.length + 32, issued := r.lseq,
    frameEnds := b.frameEnds ++ [(r.lseq, b.jWrite + r.record.length + 32)], jStall := none } := Book.settle_eq _

/-- Behind an issued frame the book has gone on; where it is OPEN, ledger and window stand. -/
theorem State.frameIssued_eq (s : State) (book : Nat) (r : Staged) :
    (∃ n, (s.frameIssued book r).bookAt book = { (s.bookAt book).frameOut r with reserved := n }) ∧
      ((s.bookAt book).st = .open_ → (∀ k, k ≠ book → (s.frameIssued book r).bookAt k = s.bookAt k) ∧
        (s.frameIssued book r).brine = s.brine ∧ (s.frameIssued book r).pan = s.pan) := by
  obtain ⟨nv, logs, sched, h⟩ := (s.modBook book (fun b => b.frameOut r)).throughBook_eq book
  have hbook : ((s.modBook book (fun b => b.frameOut r)).throughBook book).bookAt book = (s.bookAt book).frameOut r := by
    rw [h]
    exact State.setBook_same ..
  have hst : ((s.bookAt book).frameOut r).st = (s.bookAt book).st := by
    obtain ⟨_, _, _, _, e⟩ := (s.bookAt book).frameOut_eq r
    rw [e]
  have hi : s.frameIssued book r =
      if (((s.modBook book (fun b => b.frameOut r)).throughBook book).bookAt book).st == .open_
      then (s.modBook book (fun b => b.frameOut r)).throughBook book
      else ((s.modBook book (fun b => b.frameOut r)).throughBook book).releaseWithheld book := rfl
  rw [hi, hbook, hst]
  refine ⟨?_, fun ho => ?_⟩
  · split
    · exact ⟨_, hbook⟩
    · obtain ⟨n, hn⟩ := (State.releaseWithheld_sameBooks _ book).book book
      exact ⟨n, by rw [hn, hbook]⟩
  · rw [if_pos (by simp [ho]), h]
    exact ⟨fun k hk => State.setBook_other _ _ hk, rfl, rfl⟩

/-! The writes of a frame. -/

/-- The region end is reached by a frame that has no room before it, and the pad is written or refused (R197). -/
def State.writePad (s : State) (book : Nat) (r : Staged) : State × Bool :=
  let b := s.bookAt book
  if b.padFrom b.jWrite (r.record.length + 32) = 0 then (s, true)
  else s.hostWrite (masterJournal book) book .frame none (b.jBase + b.jWrite % b.region) (b.padMarker b.jWrite)

theorem State.writePad_drained (s : State) (book : Nat) (r : Staged) : Drained s (s.writePad book r).1 := by
  unfold State.writePad
  dsimp only
  split
  · exact .refl s
  · exact s.hostWrite_drained ..

/-- The writer stands behind a pad that has been written, and where it stood when the pad was refused. -/
theorem State.writePad_jWrite (s : State) (book : Nat) (r : Staged) :
    let b := s.bookAt book
    let pad := b.padFrom b.jWrite (r.record.length + 32)
    let padOk := (s.hostWrite (masterJournal book) book .frame none (b.jBase + b.jWrite % b.region)
      (b.padMarker b.jWrite)).2
    (if (s.writePad book r).2 then b.padded r pad else b).jWrite = if padOk then b.jWrite + pad else b.jWrite := by
  intro b pad padOk
  by_cases hz : pad = 0
  · have hw : s.writePad book r = (s, true) := if_pos hz
    rw [hw, hz]
    exact (ite_self _).symm
  · have hw : (s.writePad book r).2 = padOk := congrArg Prod.snd (if_neg hz)
    rw [hw]
    split <;> rfl

theorem Book.padded_records (b : Book) (r : Staged) (pad : Nat) :
    (b.padded r pad).staged.map Staged.record = b.staged.map Staged.record := by
  unfold Book.padded
  rw [List.map_map]
  refine List.map_congr_left fun x _ => ?_
  dsimp only [Function.comp]
  split <;> rfl

/-- Where the writes of a frame leave the books: at the end of a pad that was written. -/
theorem State.writeFrame_books (s : State) (book : Nat) (r : Staged) :
    let b := s.bookAt book
    let t := (s.writeFrame book r).1
    t.bookAt book = (if (s.writePad book r).2 then b.padded r (b.padFrom b.jWrite (r.record.length + 32)) else b) ∧
      (∀ k, k ≠ book → t.bookAt k = s.bookAt k) ∧ t.brine = s.brine ∧ t.pan = s.pan ∧ t.sched = s.sched ∧
      ((s.writeFrame book r).2 = true → (s.writePad book r).2 = true) := by
  intro b t
  have hpad := s.writePad_drained book r
  obtain ⟨-, hbrine, hpan, hsched⟩ := hpad.kept
  have hw : s.writeFrame book r = if !(s.writePad book r).2 then s.writePad book r
      else ((s.writePad book r).1.modBook book (fun x => x.padded r
        (b.padFrom b.jWrite (r.record.length + 32)))).hostWrite (masterJournal book) book .frame none
        (b.jBase + (b.jWrite + b.padFrom b.jWrite (r.record.length + 32)) % b.region)
        (r.record ++ b.trailer r (b.jWrite + b.padFrom b.jWrite (r.record.length + 32))) := rfl
  cases hok : (s.writePad book r).2 with
  | false =>
    rw [hok, if_pos (by decide)] at hw
    have ht : t = (s.writePad book r).1 := congrArg Prod.fst hw
    have hno : (s.writeFrame book r).2 = false := (congrArg Prod.snd hw).trans hok
    rw [ht, hno]
    exact ⟨hpad.bookAt book, fun k _ => hpad.bookAt k, hbrine, hpan, hsched, fun h => absurd h Bool.false_ne_true⟩
  | true =>
    rw [hok, if_neg (by decide)] at hw
    have hframe : Drained ((s.writePad book r).1.modBook book (fun x => x.padded r
        (b.padFrom b.jWrite (r.record.length + 32)))) t := by
      have ht : t = _ := congrArg Prod.fst hw
      rw [ht]
      exact State.hostWrite_drained ..
    obtain ⟨-, hbrine', hpan', hsched'⟩ := hframe.kept
    refine ⟨?_, fun k hk => ?_, hbrine'.trans hbrine, hpan'.trans hpan, hsched'.trans hsched, fun _ => rfl⟩
    · rw [hframe.bookAt, State.modBook, State.setBook_same, hpad.bookAt]
      rfl
    · rw [hframe.bookAt, State.modBook, State.setBook_other _ _ hk, hpad.bookAt]

theorem State.exec_frameWriteIssue (h : (s.bookAt book).jStall = none) :
    exec (.frameWriteIssue book) s = .next (s.issueFrame book) :=
  congrArg Host.Outcome.next (if_neg (by rw [h]; decide))

end

/-- Settles O14: a frame that is due is written behind its pad, or stalls the journal. -/
theorem journalFrames : Obligations.JournalFrames := by
  unfold Obligations.JournalFrames
  intro s book r b n pos padOk written hnext
  have hissue : s.frameDue book r = true → s.issueFrame book =
      if (s.writeFrame book r).2 then (s.writeFrame book r).1.frameIssued book r
      else (s.writeFrame book r).1.journalStall book := by
    intro hdue
    unfold State.issueFrame
    rw [hnext]
    simp only [hdue]
    rfl
  obtain ⟨hbook, hothers, hbrine, hpan, hsched, hpadded⟩ := s.writeFrame_books book r
  have hwritten : s.frameDue book r = true → (s.writeFrame book r).2 = true → written (s.issueFrame book) := by
    intro hdue hok
    rw [hissue hdue, if_pos hok]
    obtain ⟨⟨n', hn'⟩, hopen⟩ := State.frameIssued_eq (s.writeFrame book r).1 book r
    rw [hbook, hpadded hok, if_pos rfl] at hn' hopen
    obtain ⟨_, _, _, _, hout⟩ := (b.padded r (b.padFrom b.jWrite (r.record.length + 32))).frameOut_eq r
    rw [hout] at hn'
    have hend : b.jWrite + b.padFrom b.jWrite (r.record.length + 32) + r.record.length + 32 = pos + n := Nat.add_assoc ..
    refine ⟨by rw [hn'], by rw [hn']; exact hend, ?_, by rw [hn'], fun ho => ?_⟩
    · rw [hn', ← hend]
      rfl
    · obtain ⟨hk, hb, hp⟩ := hopen ho
      exact ⟨fun k hne => (hk k hne).trans (hothers k hne), hb.trans hbrine, hp.trans hpan⟩
  refine ⟨fun hdue hstall hok => ?_, fun g hdue hstall hg hok => ?_, fun hdue hstall hno => ?_, fun hdue => ?_⟩
  · exact ⟨_, State.exec_frameWriteIssue hstall, hwritten hdue hok⟩
  · have hi : exec (.frameWriteRetry book) s = .next (s.issueFrame book) := by
      refine congrArg Host.Outcome.next ?_
      rw [hstall]
      exact if_neg (not_lt.mpr hg)
    exact ⟨_, hi, hwritten hdue hok⟩
  · have hi := State.exec_frameWriteIssue hstall
    rw [hissue hdue, hno, if_neg Bool.false_ne_true] at hi
    have hb : ((s.writeFrame book r).1.journalStall book).bookAt book =
        { (s.writeFrame book r).1.bookAt book with jStall := some s.now, wrAccess := true } := by
      refine (State.setBook_same ..).trans ?_
      rw [State.now, hsched]
      rfl
    refine ⟨_, hi, by rw [hb], by rw [hb], ?_, ?_⟩
    · rw [hb, hbook]
      exact State.writePad_jWrite s book r
    · rw [hb, hbook]
      change (if (s.writePad book r).2 = true then b.padded r _ else b).staged.map Staged.record = _
      split
      · exact Book.padded_records ..
      · rfl
  · refine congrArg Host.Outcome.next ?_
    have hnone : s.issueFrame book = s := by
      unfold State.issueFrame
      rw [hnext]
      simp only [hdue]
      rfl
    rw [hnone]
    exact ite_self s

end Sys2Proof.Machine
end

section
/-! SUPPORT. Works that end without a fence leave the other works, and a descriptor stands until its completion is issued. -/

namespace Sys2Proof.Machine
open Sys2Proof

/-- From `s` to `t` every descriptor still stands, with its ring. -/
structure KeepsWork (s t : State) : Prop where
  work : ∀ {id ring}, ring < 65536 → HasWork s id ring → HasWork t id ring

theorem KeepsWork.refl (s : State) : KeepsWork s s := ⟨fun _ h => h⟩

theorem KeepsWork.trans {s t u : State} (h : KeepsWork s t) (h' : KeepsWork t u) : KeepsWork s u :=
  ⟨fun hr hw => h'.work hr (h.work hr hw)⟩

theorem KeepsWork.of_eq {s t : State} (h : t.work = s.work) : KeepsWork s t := by
  refine ⟨fun _ hw => ?_⟩
  obtain ⟨w, hw, hr⟩ := hw
  exact ⟨w, by rw [State.workAt, h]; exact hw, hr⟩

theorem Accessed.work {s t : State} (h : Accessed s t) : t.work = s.work := by
  obtain ⟨_, _, _, _, _, rfl⟩ := h
  rfl

theorem Accessed.keepsWork {s t : State} (h : Accessed s t) : KeepsWork s t := .of_eq h.work

section
variable (s : State)

theorem State.modWork_keepsWork (id : Nat) {f : Work → Work} (hf : ∀ w, (f w).id = w.id ∧ (f w).ring = w.ring) :
    KeepsWork s (s.modWork id f) := by
  refine ⟨fun _ hw => HasWork.map hw fun w => ?_⟩
  split
  · exact hf w
  · exact ⟨rfl, rfl⟩

/-- The works with another serial number are found as before. -/
theorem State.workAt_dropWork {id k : Nat} (h : k ≠ id) : (s.dropWork id).workAt k = s.workAt k := by
  unfold State.workAt State.dropWork
  rw [List.find?_filter]
  congr 1
  funext w
  by_cases hk : w.id = k
  · simp [hk, h]
  · simp [hk]

/-- An outcome without its fence: the work, the counter of a late one, the core that waits for it. -/
theorem State.finishRaw_eq (id : Nat) (st : Status) (res : Bytes) : ∃ work slices applets,
    s.finishRaw id st res = { s with work := work, slices := slices, applets := applets } := by
  unfold State.finishRaw
  split
  · exact ⟨_, _, _, rfl⟩
  · next w _ =>
    dsimp only
    split
    · obtain ⟨f, h | h⟩ := (s.dropWork id).countLate_eq w.slice (s.lateAtEnd w)
      · exact ⟨_, _, _, by rw [h]; rfl⟩
      · exact ⟨_, _, _, by rw [h]; rfl⟩
    · exact ⟨_, _, _, rfl⟩

theorem State.finishRaw_other {id k : Nat} (st : Status) (res : Bytes) (h : k ≠ id) :
    (s.finishRaw id st res).workAt k = s.workAt k := by
  unfold State.finishRaw
  split
  · rfl
  · next w _ =>
    split
    · have hd := s.workAt_dropWork h
      have hc := ((s.dropWork id).countLate_accessed w.slice (s.lateAtEnd w)).work
      refine Eq.trans ?_ hd
      unfold State.workAt
      exact congrArg (List.find? fun w => w.id == k) hc
    · refine (State.workAt_modWork _ _ _ _ ?_).trans (if_neg h)
      exact fun _ => rfl

theorem State.finishRaw_keepsWork (id : Nat) (st : Status) (res : Bytes) : KeepsWork s (s.finishRaw id st res) := by
  refine ⟨fun {k ring} hr hw => ?_⟩
  by_cases hk : k = id
  · subst hk
    obtain ⟨w, hw, rfl⟩ := hw
    have ha : w.isApplet = false := by simpa [Work.isApplet] using hr
    unfold State.finishRaw
    rw [hw]
    dsimp only
    rw [ha, if_neg Bool.false_ne_true]
    refine (s.modWork_keepsWork k ?_).work hr ⟨w, hw, rfl⟩
    exact fun _ => ⟨rfl, rfl⟩
  · obtain ⟨w, hw, hring⟩ := hw
    exact ⟨w, (s.finishRaw_other st res hk).trans hw, hring⟩

variable {s}

/-- FAULT and TAMPER fence a ring; every other status is the bare outcome. -/
theorem State.finish_eq_finishRaw (id : Nat) {st : Status} (res : Bytes) (hf : st ≠ .fault) (ht : st ≠ .tamper) :
    s.finish id st res = s.finishRaw id st res := by
  unfold State.finish
  split
  · next h => simp only [State.finishRaw, h]
  · dsimp only
    split
    · rfl
    · split
      · exact absurd rfl ht
      · exact absurd rfl hf
      · rfl

/-- A descriptor that ends with such a status. -/
theorem HasWork.finish_ends {id ring : Nat} (h : HasWork s id ring) (hr : ring < 65536) {st : Status} (res : Bytes)
    (hf : st ≠ .fault) (ht : st ≠ .tamper) : Ended (s.finish id st res) id st res := by
  obtain ⟨w, hw, rfl⟩ := h
  exact (State.finish_ends res hw hr hf ht).1

/-- Several works end in the same way: only works, late counters and waiting cores change. -/
theorem foldl_finish_eq (ids : List Nat) {st : Status} (res : Bytes) (hf : st ≠ .fault) (ht : st ≠ .tamper) (s : State) :
    ∃ work slices applets, ids.foldl (fun s id => s.finish id st res) s =
      { s with work := work, slices := slices, applets := applets } := by
  induction ids generalizing s with
  | nil => exact ⟨_, _, _, rfl⟩
  | cons id ids ih =>
    obtain ⟨work, slices, applets, h⟩ := ih (s.finish id st res)
    obtain ⟨work', slices', applets', h'⟩ := s.finishRaw_eq id st res
    rw [← State.finish_eq_finishRaw id res hf ht] at h'
    exact ⟨work, slices, applets, by rw [List.foldl_cons, h, h']⟩

/-- What has ended in this way stays so. -/
theorem Ended.foldl_finish {id ring : Nat} {st : Status} {res : Bytes} (ids : List Nat) (hr : ring < 65536) (hf : st ≠ .fault)
    (ht : st ≠ .tamper) {s : State} (hw : HasWork s id ring) (h : Ended s id st res) :
    Ended (ids.foldl (fun s id => s.finish id st res) s) id st res := by
  induction ids generalizing s with
  | nil => exact h
  | cons k ids ih =>
    have hk : HasWork (s.finish k st res) id ring :=
      (State.finish_eq_finishRaw (s := s) k res hf ht) ▸ (s.finishRaw_keepsWork k st res).work hr hw
    refine ih hk ?_
    by_cases he : id = k
    · subst he
      exact hw.finish_ends hr res hf ht
    · refine h.of_workAt (?_ : (s.finish k st res).workAt id = _)
      rw [State.finish_eq_finishRaw k res hf ht]
      exact s.finishRaw_other st res he

/-- Each of several descriptors ends. -/
theorem foldl_finish_ends {id ring : Nat} {st : Status} (res : Bytes) {ids : List Nat} (hid : id ∈ ids) (hr : ring < 65536)
    (hf : st ≠ .fault) (ht : st ≠ .tamper) {s : State} (hw : HasWork s id ring) :
    Ended (ids.foldl (fun s id => s.finish id st res) s) id st res := by
  induction ids generalizing s with
  | nil => exact absurd hid List.not_mem_nil
  | cons k ids ih =>
    have hk : HasWork (s.finish k st res) id ring :=
      (State.finish_eq_finishRaw (s := s) k res hf ht) ▸ (s.finishRaw_keepsWork k st res).work hr hw
    rcases List.mem_cons.mp hid with rfl | hmem
    · exact Ended.foldl_finish ids hr hf ht hk (hw.finish_ends hr res hf ht)
    · exact ih hmem hk

end

/-! Writes behind a buffer. -/

section
variable (s : State)

theorem State.drainOne_keepsWork (master : Nat) : KeepsWork s (s.drainOne master) := by
  unfold State.drainOne
  split
  · exact .refl s
  · next b rest _ =>
    have hpop : KeepsWork s (s.modMpu master (fun m => { m with wbuf := rest })) := .of_eq rfl
    have hw := hpop.trans
      (State.writeNow_accessed _ master b.slice b.kind false b.addr b.data).keepsWork
    dsimp only
    split
    · exact hw
    · split
      · exact hw
      · next id _ =>
        refine hw.trans ?_
        have hfree (u : State) : KeepsWork u (u.releaseUnits id) := .of_eq rfl
        refine (hfree _).trans ?_
        unfold State.restatus
        split
        · exact .refl _
        · rw [State.finish_eq_finishRaw _ _ (by decide) (by decide)]
          exact State.finishRaw_keepsWork ..

theorem State.drainAll_keepsWork (master : Nat) : KeepsWork s (s.drainAll master) := by
  unfold State.drainAll
  generalize (s.mpuAt master).wbuf = l
  induction l generalizing s with
  | nil => exact .refl s
  | cons b l ih => exact (s.drainOne_keepsWork master).trans (ih _)

theorem State.hostWriteFrom_keepsWork (master slice : Nat) (t : Traffic) (work : Option Nat) (addr : Nat) (data : Bytes) :
    KeepsWork s (s.hostWriteFrom master slice t work addr data).1 := by
  unfold State.hostWriteFrom
  split
  · exact .refl s
  split
  · split
    · exact (s.drainAll_keepsWork master).trans (State.writeNow_accessed ..).keepsWork
    · have hroom : KeepsWork s (if (s.mpuAt master).wbuf.length < 16 then s else s.drainOne master) := by
        split
        · exact .refl s
        · exact s.drainOne_keepsWork master
      refine hroom.trans ?_
      exact .of_eq rfl
  · exact (s.writeNow_accessed ..).keepsWork

theorem State.hostWrite_keepsWork (master slice : Nat) (t : Traffic) (work : Option Nat) (addr : Nat) (data : Bytes) :
    KeepsWork s (s.hostWrite master slice t work addr data).1 := by
  cases work with
  | none => exact s.hostWriteFrom_keepsWork master slice t none addr data
  | some id =>
    have ha : KeepsWork s (s.assignDma master id) := by
      unfold State.assignDma
      split <;> exact .of_eq rfl
    exact ha.trans (State.hostWriteFrom_keepsWork _ master slice t (some id) addr data)

end

end Sys2Proof.Machine
end

section
/-! SUPPORT. Folds into the strand heads, and seals (R194, R202 to R206, R240). -/

namespace Sys2Proof.Machine
open Sys2Proof

section
variable {s : State} {book : Nat}

/-! Folds. -/

/-- The oldest record not yet folded goes into the head of its strand, and is marked. -/
theorem Book.foldNext_of {b : Book} {r : Staged} (h : b.staged.find? (fun x => !x.folded) = some r) :
    b.foldNext.heads = b.heads.set (r.lseq % b.strands) (sha256 (b.heads.getD (r.lseq % b.strands) [] ++ r.record)) ∧
      b.foldNext.lseq = b.lseq ∧ ∀ x ∈ b.foldNext.staged, x.lseq = r.lseq → x.folded = true := by
  let c : Book := { b with
    staged := b.staged.map (fun x => if x.lseq == r.lseq then { x with folded := true } else x),
    heads := foldHead b.strands b.heads r.lseq r.record }
  have hf : b.foldNext = c.settle := by
    unfold Book.foldNext
    rw [h]
  have hstaged : c.settle.staged = c.staged.drop (c.staged.takeWhile (fun r => r.issued && r.folded)).length := by
    unfold Book.settle Book.recordTarget
    dsimp only
    split <;> rfl
  have hmark : ∀ x ∈ c.staged, x.lseq = r.lseq → x.folded = true := by
    intro x hx hl
    obtain ⟨y, -, rfl⟩ := List.mem_map.mp hx
    by_cases hy : y.lseq = r.lseq
    · simp [hy]
    · simp [hy] at hl
  obtain ⟨_, _, _, _, hc⟩ := c.settle_eq
  refine ⟨?_, ?_, fun x hx => ?_⟩
  · rw [hf, hc]
    rfl
  · rw [hf, hc]
  · rw [hf, hstaged] at hx
    exact hmark x (List.mem_of_mem_drop hx)

/-- A fold on a digest engine that may make a class-1 step, or in a flush. -/
theorem State.foldOn_of (h : s.pwr.flush.isSome = true ∨ ∃ e, e < 12 ∧ s.mayStep (.digest e) 1 = true) : ∃ sched,
    s.foldOn book = { s.modBook book Book.foldNext with sched := sched } ∧
      (s.pwr.flush.isSome = true → sched = s.sched) := by
  unfold State.foldOn
  split
  · exact ⟨_, rfl, fun _ => rfl⟩
  · next hflush =>
    split
    · next hnone =>
      obtain ⟨e, he, hm⟩ := h.resolve_left hflush
      have hno := List.find?_eq_none.mp hnone e (List.mem_range.mpr he)
      exact absurd hm hno
    · exact ⟨_, rfl, fun hs => absurd hs hflush⟩

theorem State.foldOn_idle (h : ¬ (s.pwr.flush.isSome = true ∨ ∃ e, e < 12 ∧ s.mayStep (.digest e) 1 = true)) :
    s.foldOn book = s := by
  rw [not_or, not_exists] at h
  have hnone : (List.range digestEngines).find? (fun e => s.mayStep (.digest e) 1) = none := by
    rw [List.find?_eq_none]
    exact fun e he hm => h.2 e ⟨List.mem_range.mp he, hm⟩
  unfold State.foldOn
  rw [if_neg h.1, hnone]

/-! The forming of a seal. -/

theorem State.workAt_of_mem {w : Work} (h : w ∈ s.work) : ∃ v, s.workAt w.id = some v :=
  Option.isSome_iff_exists.mp (List.find?_isSome.mpr ⟨w, h, beq_self_eq_true w.id⟩)

/-- Works that are all put into a phase. -/
theorem workAt_foldl_phase (ws : List Work) (p : Phase) (s : State) (k : Nat) :
    (ws.foldl (fun s w => s.modWork w.id (fun v => { v with phase := p })) s).workAt k =
      (s.workAt k).map (fun v => if k ∈ ws.map Work.id then { v with phase := p } else v) := by
  induction ws generalizing s with
  | nil => simp
  | cons w ws ih =>
    have hm := State.workAt_modWork s w.id k (fun v => { v with phase := p }) fun _ => rfl
    rw [List.foldl_cons, ih, hm]
    by_cases hk : k = w.id
    · rw [if_pos hk, Option.map_map]
      refine congrArg (fun f => (s.workAt k).map f) (funext fun v => ?_)
      simp only [Function.comp, hk, List.map_cons, List.mem_cons, true_or, if_true]
      split <;> rfl
    · simp [hk]

theorem foldl_phase_eq (ws : List Work) (p : Phase) (s : State) : ∃ work,
    ws.foldl (fun s w => s.modWork w.id (fun v => { v with phase := p })) s = { s with work := work } := by
  induction ws generalizing s with
  | nil => exact ⟨_, rfl⟩
  | cons w ws ih =>
    obtain ⟨work, h⟩ := ih (s.modWork w.id (fun v => { v with phase := p }))
    exact ⟨work, by rw [List.foldl_cons, h]; rfl⟩

theorem foldl_dropBn_eq {α : Type} (l : List α) (p : α → BnJob → Bool) (s : State) : ∃ crypto rng,
    l.foldl (fun s x => s.dropBn (p x)) s = { s with crypto := crypto, rng := rng } := by
  induction l generalizing s with
  | nil => exact ⟨_, _, rfl⟩
  | cons x l ih =>
    obtain ⟨crypto, rng, h⟩ := ih (s.dropBn (p x))
    exact ⟨crypto, rng, by rw [List.foldl_cons, h]; rfl⟩

/-- Older seals that are written unsigned: the seals of the book and the big-number jobs change. -/
theorem State.unsignOlder_eq (s : State) (book : Nat) : ∃ seals crypto rng,
    s.unsignOlder book = { s.setBook book { s.bookAt book with seals := seals } with crypto := crypto, rng := rng } := by
  obtain ⟨crypto, rng, h⟩ := foldl_dropBn_eq
    ((s.bookAt book).seals.filter (fun x => x.sign && x.works.isEmpty && s.sealQueued book x.no))
    (fun x j => j.ofSeal book x.no) (s.modBook book (fun b => { b with
      seals := b.seals.map (fun x =>
        if ((s.bookAt book).seals.filter (fun x => x.sign && x.works.isEmpty && s.sealQueued book x.no)).any
          (fun y => y.no == x.no) then { x with sign := false } else x) }))
  exact ⟨_, crypto, rng, h⟩

/-- A big-number job joins the queue. -/
theorem State.bnSubmit_eq (s : State) (j : BnJob) : ∃ rng, s.bnSubmit j = { s with
    nextId := s.nextId + 1, rng := rng,
    crypto := { s.crypto with bnQueue := s.crypto.bnQueue ++
      [{ j with admitted := s.nextId, since := s.now, rand := bnNeed j.op j.keyType == 0, done := 0, retries := 0 }] } } := by
  unfold State.bnSubmit State.askRandom
  dsimp only
  split
  · exact ⟨_, rfl⟩
  · split
    · exact ⟨_, rfl⟩
    · exact ⟨_, rfl⟩

/-- The seal that a cause at this boundary forms (R203). -/
def Book.sealOf (b : Book) (now cause : Nat) (works : List Nat) : Seal :=
  { no := b.sealNo + 1, lseq := b.lseq, grain := now, cause := cause, prev := b.lastSeal,
    digest := sealDigest b.uid b.lseq (b.sealNo + 1) b.lastSeal (b.headsAt b.lseq), heads := b.headsAt b.lseq,
    addr := b.sealBase + 256 * ((b.sealNo + 1) % 2 ^ b.sealLog2), since := b.sinceSeal, sign := true, works := works }

/-- A book with one more seal. -/
def Book.sealed (b : Book) (x : Seal) : Book :=
  { b with sealNo := x.no, lastSeal := x.digest, sinceSeal := 0, sealAt := some x.grain, seals := b.seals ++ [x] }

/-- A seal is formed once the older ones without a command are left unsigned. -/
theorem State.formSeal_eq {cause : Nat} (h : s.sealCause book = some cause) :
    s.formSeal book = ((s.sealWorks book).foldl (fun s w => s.modWork w.id (fun v => { v with phase := .active 2 }))
      ((s.unsignOlder book).setBook book (((s.unsignOlder book).bookAt book).sealed
        (((s.unsignOlder book).bookAt book).sealOf (s.unsignOlder book).now cause ((s.sealWorks book).map Work.id))))).bnSubmit
      (sealJob book (((s.unsignOlder book).bookAt book).sealNo + 1)) := by
  unfold State.formSeal
  rw [h]
  rfl

/-- The forming of a seal: it stands behind the others, its job in the queue, and its commands wait for it. -/
theorem State.formSeal_of {cause : Nat} (h : s.sealCause book = some cause) :
    (∃ seals, (s.formSeal book).bookAt book = { s.bookAt book with seals := seals }.sealed
      ((s.bookAt book).sealOf s.now cause ((s.sealWorks book).map Work.id))) ∧
    (∃ j, (s.formSeal book).crypto.bnQueue.getLast? = some j ∧ j.ofSeal book ((s.bookAt book).sealNo + 1) = true ∧
      j.op = 0x20) ∧
    (∀ w ∈ s.sealWorks book, At (s.formSeal book) w.id (.active 2)) ∧ OtherBooks s (s.formSeal book) book := by
  obtain ⟨seals, crypto, rng, hu⟩ := s.unsignOlder_eq book
  have hub : (s.unsignOlder book).bookAt book = { s.bookAt book with seals := seals } := by
    rw [hu]
    exact State.setBook_same ..
  have hnow : (s.unsignOlder book).now = s.now := by rw [hu]; rfl
  have hwork : (s.unsignOlder book).work = s.work := by rw [hu]; rfl
  have hother : ∀ k, k ≠ book → (s.unsignOlder book).bookAt k = s.bookAt k := by
    intro k hk
    rw [hu]
    exact State.setBook_other _ _ hk
  have hf := State.formSeal_eq h
  rw [hub, hnow] at hf
  generalize hv : (s.unsignOlder book).setBook book _ = v at hf
  obtain ⟨work, hw⟩ := foldl_phase_eq (s.sealWorks book) (.active 2) v
  have hat := workAt_foldl_phase (s.sealWorks book) (.active 2) v
  rw [hw] at hf hat
  obtain ⟨rng', hb⟩ := State.bnSubmit_eq { v with work := work } (sealJob book ((s.bookAt book).sealNo + 1))
  rw [hb] at hf
  have hbook : ∀ k, (s.formSeal book).bookAt k = v.bookAt k := fun k => by rw [hf]; rfl
  refine ⟨⟨seals, ?_⟩, ⟨_, by rw [hf]; exact List.getLast?_concat .., ?_, rfl⟩, fun w hmem => ?_, fun k hk => ?_⟩
  · rw [hbook, ← hv]
    exact State.setBook_same ..
  · simp [BnJob.ofSeal, sealJob]
  · have hvw : v.work = s.work := by rw [← hv]; exact hwork
    obtain ⟨y, hy⟩ := State.workAt_of_mem (List.mem_filter.mp hmem).1
    have hy' : v.workAt w.id = some y := by rw [State.workAt, hvw]; exact hy
    have ht : (s.formSeal book).workAt w.id = ({ v with work := work } : State).workAt w.id := by rw [hf]; rfl
    rw [At, ht, hat, hy', Option.map_some, Option.map_some, if_pos (List.mem_map_of_mem hmem)]
  · rw [hbook, ← hv]
    exact (State.setBook_other _ _ hk).trans (hother k hk)

end

/-! The writing of a seal. -/

section
variable {s : State} {book : Nat}

/-- An engine whose job has ended takes up another: only the engines and the queue change. -/
theorem State.bnChoose_eq (s : State) (e : Nat) : ∃ crypto, s.bnChoose e = { s with crypto := crypto } := by
  unfold State.bnChoose
  dsimp only
  split
  · exact ⟨_, rfl⟩
  split
  · exact ⟨_, rfl⟩
  split
  · exact ⟨_, rfl⟩
  · exact ⟨_, rfl⟩

theorem State.bnRetire_eq (s : State) (e : Nat) : ∃ crypto, s.bnRetire e = { s with crypto := crypto } := by
  obtain ⟨crypto, h⟩ := State.bnChoose_eq
    { s.setBn e { s.bnAt e with running := none, prot := false, pause := 0 } with crypto :=
      { (s.setBn e { s.bnAt e with running := none, prot := false, pause := 0 }).crypto with bnJobs := s.crypto.bnJobs + 1 } } e
  exact ⟨crypto, h⟩

/-- A seal that has been written, or whose write was refused, leaves its book. -/
def State.sealGone (s : State) (book no : Nat) (ok : Bool) : State :=
  (if ok then s
    else (s.modBook book (fun b => { b with sealAccess := true })).plogEvent unitJournal 0x07 0 book 0xFFFF (206 - 100)).modBook
      book (fun b => { b with seals := b.seals.filter (fun y => y.no != no) })

theorem State.sealGone_of (s : State) (book no : Nat) (ok : Bool) :
    (s.sealGone book no ok).out = s.out ∧ (s.sealGone book no ok).work = s.work ∧
      (s.sealGone book no ok).bookAt book = { s.bookAt book with
        sealAccess := (s.bookAt book).sealAccess || !ok, seals := (s.bookAt book).seals.filter (fun y => y.no != no) } ∧
      OtherBooks s (s.sealGone book no ok) book := by
  cases ok
  · let v := (s.modBook book (fun b => { b with sealAccess := true })).plogEvent unitJournal 0x07 0 book 0xFFFF (206 - 100)
    have hv : v.bookAt book = { s.bookAt book with sealAccess := true } := State.setBook_same ..
    refine ⟨rfl, rfl, (State.setBook_same v ..).trans
      ((congrArg (fun b : Book => { b with seals := b.seals.filter (fun y => y.no != no) }) hv).trans ?_),
      fun k hk => (State.setBook_other v _ hk).trans (State.setBook_other s _ hk)⟩
    simp
  · refine ⟨rfl, rfl, (State.setBook_same ..).trans ?_, fun k hk => State.setBook_other _ _ hk⟩
    simp

/-- An access error of a posted write ends a command with ACCESS. -/
theorem access_no_fence (ok : Bool) : (if ok then Status.ok else .access) ≠ .fault ∧
    (if ok then Status.ok else .access) ≠ .tamper := by
  cases ok
  · decide
  · decide

theorem State.writeSeal_eq {v u : State} {x : Seal} {sig : Bytes}
    (hsig : (if x.sign then v.signBook book (v.sealBody book x) else (zeros 96, v)) = (sig, u)) {o : State × Bool}
    (ho : u.hostWrite (masterJournal book) book .seal none x.addr (v.sealBody book x ++ sig) = o) :
    v.writeSeal book x = x.works.foldl (fun s id => s.finish id (if o.2 then .ok else .access) (leBytes 8 x.no ++ leBytes 8 x.lseq))
      (o.1.sealGone book x.no o.2) := by
  unfold State.writeSeal
  dsimp only
  rw [hsig]
  dsimp only
  rw [ho]
  rfl

theorem State.writeSeal_of {v u : State} {x : Seal} {sig : Bytes}
    (hsig : (if x.sign then v.signBook book (v.sealBody book x) else (zeros 96, v)) = (sig, u)) {o : State × Bool}
    (ho : u.hostWrite (masterJournal book) book .seal none x.addr (v.sealBody book x ++ sig) = o) (hbooks : u.books = v.books)
    (hwork : u.work = v.work) :
    (v.writeSeal book x).out = o.1.out ∧
      (v.writeSeal book x).bookAt book = { v.bookAt book with
        sealAccess := (v.bookAt book).sealAccess || !o.2, seals := (v.bookAt book).seals.filter (fun y => y.no != x.no) } ∧
      OtherBooks v (v.writeSeal book x) book ∧
      ∀ id ∈ x.works, ∀ w, v.workAt id = some w → w.ring < 65536 →
        Ended (v.writeSeal book x) id (if o.2 then .ok else .access) (leBytes 8 x.no ++ leBytes 8 x.lseq) := by
  have hd : Drained u o.1 := ho ▸ State.hostWrite_drained ..
  have hk : KeepsWork u o.1 := ho ▸ State.hostWrite_keepsWork ..
  have hne := access_no_fence o.2
  obtain ⟨hout, hcw, hsame, hother⟩ := o.1.sealGone_of book x.no o.2
  have ht := State.writeSeal_eq hsig ho
  obtain ⟨work, slices, applets, hfold⟩ := foldl_finish_eq x.works (leBytes 8 x.no ++ leBytes 8 x.lseq) hne.1 hne.2
    (o.1.sealGone book x.no o.2)
  have hbk : ∀ k, o.1.bookAt k = v.bookAt k := fun k => by rw [hd.bookAt, State.bookAt, hbooks]; rfl
  refine ⟨?_, ?_, fun k hk => ?_, fun id hid w hw hr => ?_⟩
  · rw [ht, hfold]
    exact hout
  · rw [ht, hfold]
    exact hsame.trans (by rw [hbk])
  · rw [ht, hfold]
    exact (hother k hk).trans (hbk k)
  · rw [ht]
    have hu : HasWork u id w.ring := ⟨w, by rw [State.workAt, hwork]; exact hw, rfl⟩
    exact foldl_finish_ends _ hid hr hne.1 hne.2 ((KeepsWork.of_eq hcw).work hr (hk.work hr hu))

/-- The oldest seal goes out: unsigned, or with the engine of its ended job freed. -/
theorem State.sealSigned_eq {x : Seal} {u : State} {sig : Bytes} (hx : (s.bookAt book).seals.head? = some x)
    (hst : (s.bookAt book).statable x.lseq = true) (hrun : s.writerRuns = true)
    (hcan : s.canMaster (masterJournal book) = true)
    (hu : (x.sign = false ∧ u = s ∧ sig = zeros 96) ∨ (x.sign = true ∧ ∃ e j,
      s.bnEngineOf (fun j => j.ofSeal book x.no) = some (e, j) ∧
        (s.bnRetire e).signBook book (s.sealBody book x) = (sig, u))) :
    ∃ crypto, s.sealSigned book = ({ s with crypto := crypto } : State).writeSeal book x ∧
      (if x.sign then ({ s with crypto := crypto } : State).signBook book (s.sealBody book x)
        else (zeros 96, { s with crypto := crypto })) = (sig, u) := by
  unfold State.sealSigned
  rw [hx]
  dsimp only
  rw [hst, hrun, hcan, if_neg (by decide)]
  obtain ⟨hn, rfl, rfl⟩ | ⟨hy, e, j, hj, hsig⟩ := hu
  · rw [hn]
    exact ⟨u.crypto, rfl, rfl⟩
  · obtain ⟨crypto, hr⟩ := s.bnRetire_eq e
    rw [hy, hj]
    dsimp only
    rw [hr] at hsig ⊢
    exact ⟨crypto, rfl, hsig⟩

end

/-- Settles O15: one fold, and the three stages of a seal. -/
theorem headFoldsAndSeals : Obligations.HeadFoldsAndSeals := by
  unfold Obligations.HeadFoldsAndSeals
  constructor
  · intro s book r b steps hr
    refine ⟨fun h => ?_, fun h => congrArg Host.Outcome.next (State.foldOn_idle h)⟩
    obtain ⟨sched, ht, hs⟩ := State.foldOn_of (book := book) h
    obtain ⟨hheads, hlseq, hmark⟩ := Book.foldNext_of hr
    have hbook : (s.foldOn book).bookAt book = b.foldNext := by
      rw [ht]
      exact State.setBook_same ..
    refine ⟨_, rfl, ?_, fun hf => ?_, ?_, ?_, ?_, fun k hk => ?_⟩
    · rw [ht]
      rfl
    · rw [ht]
      exact hs hf
    · rw [hbook]
      exact hheads
    · rw [hbook]
      exact hlseq
    · rw [hbook]
      exact hmark
    · rw [ht]
      exact State.setBook_other _ _ hk
  intro s book b
  refine ⟨fun ring w h haux hzero hacc => ?_, fun cause hc => ?_, fun x u sig hx hst hrun hcan hu => ?_⟩
  · refine congrArg Host.Outcome.next ((State.onStart_of h.1 _).trans ?_)
    simp [State.sealBody_, haux, hzero, hacc]
  · obtain ⟨⟨seals, hb⟩, ⟨j, hj, hof, hop⟩, hat, hother⟩ := State.formSeal_of hc
    refine ⟨_, b.sealOf s.now cause ((s.sealWorks book).map Work.id), j, rfl, ?_⟩
    rw [hb]
    exact ⟨List.getLast?_concat .., rfl, rfl, rfl, rfl, rfl, rfl, rfl, rfl, rfl, rfl, rfl, rfl, rfl, rfl, hj, hof, hop, hat,
      hother⟩
  · intro o
    obtain ⟨crypto, ht, hsig⟩ := State.sealSigned_eq hx hst hrun hcan hu
    have hfrom : u.books = s.books ∧ u.work = s.work := by
      have hu := congrArg Prod.snd hsig
      dsimp only at hu
      rw [← hu]
      split
      · exact ⟨rfl, rfl⟩
      · exact ⟨rfl, rfl⟩
    obtain ⟨hout, hbook, hother, hends⟩ := State.writeSeal_of (v := { s with crypto := crypto }) (o := o) hsig rfl hfrom.1
      hfrom.2
    refine ⟨_, congrArg Host.Outcome.next ht, hout, ?_, ?_, hends, ?_, ?_, hother⟩
    · rw [hbook]
      intro y hy
      simpa using (List.mem_filter.mp hy).2
    · rw [hbook]
      rfl
    · rw [hbook]
      rfl
    · rw [hbook]
      rfl

end Sys2Proof.Machine
end

section
/-! SUPPORT. What the end of work and the fences that faults make leave as they are (R234 to R243). -/

namespace Sys2Proof.Machine
open Sys2Proof

/-- What the end of work leaves as it is: the tamper monitor but for its count of level-1 events, power, keys, the grain and
whether it goes on, the running mark of the store and the count of comparator glitches. -/
def State.kept (s : State) : Tamper × Power × KeyStore × Nat × Bool × Bool × Ctr :=
  ({ s.tamper with l1 := 0 }, s.pwr, s.keys, s.sched.grain, s.sched.running, s.nv.running, s.crypto.cmpGlitch)

/-- From `s` to `t` work may have ended, rings and books may have been fenced: the log of tamper events only grows, and no entry
has come into an empty window. -/
structure Quiet (s t : State) : Prop where
  kept : t.kept = s.kept
  log : s.logs.tpend <+: t.logs.tpend
  empty : s.brine.entries = [] → t.brine.entries = []

/-- The same, and no running core has stopped. -/
structure Calm (s t : State) : Prop extends Quiet s t where
  runs : ∀ c, (s.coreAt c).mode = .running → (t.coreAt c).mode = .running

section
variable {s t u : State}

theorem Quiet.tamper (h : Quiet s t) : t.tamper = { s.tamper with l1 := t.tamper.l1 } :=
  congrArg (fun k => { k.1 with l1 := t.tamper.l1 }) h.kept

theorem Quiet.pwr (h : Quiet s t) : t.pwr = s.pwr := congrArg (fun k => k.2.1) h.kept

theorem Quiet.keys (h : Quiet s t) : t.keys = s.keys := congrArg (fun k => k.2.2.1) h.kept

theorem Quiet.grain (h : Quiet s t) : t.sched.grain = s.sched.grain := congrArg (fun k => k.2.2.2.1) h.kept

theorem Quiet.ticks (h : Quiet s t) : t.sched.running = s.sched.running := congrArg (fun k => k.2.2.2.2.1) h.kept

theorem Quiet.mark (h : Quiet s t) : t.nv.running = s.nv.running := congrArg (fun k => k.2.2.2.2.2.1) h.kept

theorem Quiet.glitches (h : Quiet s t) : t.crypto.cmpGlitch = s.crypto.cmpGlitch := congrArg (fun k => k.2.2.2.2.2.2) h.kept

theorem Quiet.refl (s : State) : Quiet s s := ⟨rfl, List.prefix_rfl, id⟩

theorem Quiet.trans (h : Quiet s t) (h' : Quiet t u) : Quiet s u := ⟨h'.kept.trans h.kept, h.log.trans h'.log, h'.empty ∘ h.empty⟩

/-- Nothing that counts has been touched. -/
theorem Calm.same (h : t.kept = s.kept) (hlog : t.logs.tpend = s.logs.tpend) (hwindow : t.brine.entries = s.brine.entries)
    (hcores : t.applets.cores = s.applets.cores) : Calm s t where
  kept := h
  log := hlog ▸ List.prefix_rfl
  empty h := hwindow.trans h
  runs c h := (congrArg (fun x => (tget Core.reset x c).mode) hcores).trans h

end

theorem Quiet.foldl {α : Type} {f : State → α → State} (hf : ∀ s a, Quiet s (f s a)) (l : List α) (s : State) :
    Quiet s (l.foldl f s) := by
  induction l generalizing s with
  | nil => exact .refl s
  | cons a l ih => exact (hf s a).trans (ih _)

theorem Calm.refl (s : State) : Calm s s := .same rfl rfl rfl rfl

theorem Calm.trans {s t u : State} (h : Calm s t) (h' : Calm t u) : Calm s u where
  toQuiet := h.toQuiet.trans h'.toQuiet
  runs c := h'.runs c ∘ h.runs c

theorem Calm.foldl {α : Type} {f : State → α → State} (hf : ∀ s a, Calm s (f s a)) (l : List α) (s : State) :
    Calm s (l.foldl f s) := by
  induction l generalizing s with
  | nil => exact .refl s
  | cons a l ih => exact (hf s a).trans (ih _)

/-- One of two ways. -/
theorem Calm.ite {c : Prop} [Decidable c] {s t u : State} (ht : Calm s t) (hu : Calm s u) : Calm s (if c then t else u) := by
  split
  · exact ht
  · exact hu

section
variable (s : State)

/-! Cores. -/

theorem State.modCore_calm (c : Nat) {f : Core → Core} (hf : ∀ x, (f x).mode = x.mode) : Calm s (s.modCore c f) where
  toQuiet := ⟨rfl, List.prefix_rfl, id⟩
  runs k hk := by
    by_cases h : k = c
    · subst h
      exact (congrArg Core.mode (State.setCore_same s k _)).trans ((hf _).trans hk)
    · exact (congrArg Core.mode (State.setCore_other s _ h)).trans hk

theorem State.answerCore_calm (core : Nat) (status : Word) (res : Bytes) : Calm s (s.answerCore core status res) := by
  refine s.modCore_calm core fun x => ?_
  split
  · rfl
  · rfl

/-- An entry that the change of a table does not make the default is found as before, changed. -/
theorem tget_tmap_of_ne {α : Type} [DecidableEq α] {d : α} {f : α → α} {k : Nat} {v : α} (t : Table α) (hv : v ≠ d)
    (hf : f v ≠ d) (h : tget d t k = v) : tget d (tmap d f t) k = f v := by
  induction t with
  | nil => exact absurd h.symm hv
  | cons e t ih =>
    obtain ⟨j, w⟩ := e
    by_cases hj : j = k
    · obtain rfl : w = v := by simpa [tget, hj] using h
      simp [tmap, tget, hj, hf]
    · have hrest := ih (by simpa [tget, hj] using h)
      by_cases hw : f w = d
      · simpa [tmap, hw] using hrest
      · simpa [tmap, tget, hw, hj] using hrest

theorem State.releaseCalls_calm (book : Nat) : Calm s (s.releaseCalls book) where
  toQuiet := ⟨rfl, List.prefix_rfl, id⟩
  runs k hk := by
    have hne : ∀ x : Core, x.mode = .running → x ≠ Core.reset := fun x hx hr => by
      rw [hr] at hx
      exact absurd hx (by decide)
    have hmode : ((s.coreAt k).released book (s.bookAt book).issued (s.bookAt book).persisted).mode = .running := by
      unfold Core.released
      split
      · split
        · exact hk
        · exact hk
      · exact hk
    exact (congrArg Core.mode (tget_tmap_of_ne
      (f := fun x => x.released book (s.bookAt book).issued (s.bookAt book).persisted) s.applets.cores (hne _ hk)
      (hne _ hmode) rfl)).trans hmode

/-! Entries of the window. -/

theorem reexecAux_nil (bad : List (Nat × Bool)) : (reexecAux bad []).1 = [] := rfl

theorem State.reexecute_calm (bad : List (Nat × Bool)) : Calm s (s.reexecute bad) where
  kept := rfl
  log := List.prefix_rfl
  runs _ h := h
  empty h := by
    unfold State.reexecute
    rw [h]
    exact reexecAux_nil bad

theorem State.modBook_calm (book : Nat) (f : Book → Book) : Calm s (s.modBook book f) := .same rfl rfl rfl rfl

theorem State.dropEntries_calm (p : Entry → Bool) : Calm s (s.dropEntries p) := by
  unfold State.dropEntries
  dsimp only
  refine Calm.trans ?_ (State.reexecute_calm _ _)
  have hr : Calm s _ := Calm.foldl (fun s (e : Entry) =>
    s.modBook_calm e.book (fun b => { b with reserved := b.reserved - e.reserved })) (s.brine.entries.filter p) s
  exact hr.trans ⟨⟨rfl, List.prefix_rfl, fun h => by rw [h]; rfl⟩, fun _ h => h⟩

/-! Descriptors and rings. -/

theorem State.redecide_calm (rank : Nat) (p : Work → Bool) (st : Status) (res : Bytes) : Calm s (s.redecide rank p st res) := .same rfl rfl rfl rfl

theorem State.modWork_calm (id : Nat) (f : Work → Work) : Calm s (s.modWork id f) := .same rfl rfl rfl rfl

theorem State.refence_calm (ring cause tag : Nat) : Calm s (s.refence ring cause tag) := by
  unfold State.refence
  split
  · exact .same rfl rfl rfl rfl
  · exact .refl s

theorem State.fenceRing_calm (ring cause tag : Nat) : Calm s (s.fenceRing ring cause tag) := by
  unfold State.fenceRing
  split
  · exact s.refence_calm ring cause tag
  · refine Calm.trans ?_ (State.dropEntries_calm _ _)
    exact .same rfl rfl rfl rfl

theorem State.countLate_calm (slice : Nat) (conds : List Nat) : Calm s (s.countLate slice conds) := by
  obtain ⟨f, h | h⟩ := s.countLate_eq slice conds
  · rw [h]
    exact .same rfl rfl rfl rfl
  · rw [h]
    exact .refl s

theorem State.finishRaw_calm (id : Nat) (st : Status) (res : Bytes) : Calm s (s.finishRaw id st res) := by
  unfold State.finishRaw
  split
  · exact .refl s
  · split
    · have hd : Calm s (s.dropWork id) := .same rfl rfl rfl rfl
      exact (hd.trans (State.countLate_calm _ _ _)).trans (State.answerCore_calm _ _ _ _)
    · exact s.modWork_calm _ _

theorem State.finish_calm (id : Nat) (st : Status) (res : Bytes) : Calm s (s.finish id st res) := by
  unfold State.finish
  split
  · exact .refl s
  · have hr := s.finishRaw_calm id st res
    dsimp only
    split
    · exact hr
    · split
      · exact hr.trans (State.fenceRing_calm _ _ _ _)
      · exact hr.trans (State.fenceRing_calm _ _ _ _)
      · exact hr

theorem State.plog_calm (e : PEvent) : Calm s (s.plog e) := .same rfl rfl rfl rfl

theorem State.refuseWith_calm (w : Work) (check : Nat) (st : Status) (res : Bytes) : Calm s (s.refuseWith w check st res) := by
  unfold State.refuseWith
  exact (Calm.ite (s.plog_calm _) (.refl s)).trans (State.finish_calm _ _ _ _)

theorem State.refuseLeg_calm (w : Work) (check leg : Nat) (st : Status) : Calm s (s.refuseLeg w check leg st) :=
  s.refuseWith_calm w check st (refusalResult check leg)

theorem State.releaseUnits_calm (id : Nat) : Calm s (s.releaseUnits id) := .same rfl rfl rfl rfl

theorem State.endEntry_calm (e : Entry) (st : Status) (res : Bytes) (fence : Bool) : Calm s (s.endEntry e st res fence) := by
  unfold State.endEntry
  split
  · exact s.answerCore_calm _ _ _
  · exact (s.modWork_calm _ _).trans (Calm.ite (State.finish_calm _ _ _ _) (State.finishRaw_calm _ _ _ _))

theorem State.endEntries_calm (p : Entry → Bool) (st : Status) (res : Bytes) (fence : Bool) :
    Calm s (s.endEntries p st res fence) :=
  (s.dropEntries_calm p).trans (Calm.foldl (fun s e => s.endEntry_calm e st res fence) _ _)

theorem State.releaseWithheld_calm (book : Nat) : Calm s (s.releaseWithheld book) := by
  unfold State.releaseWithheld
  dsimp only
  refine Calm.trans ?_ (State.releaseCalls_calm _ book)
  refine (Calm.foldl (fun s w => ?_) _ s).trans (Calm.foldl (fun s w => s.fenceRing_calm _ _ _) _ _)
  exact (s.modWork_calm _ _).trans (State.finishRaw_calm _ _ _ _)

/-! The store. -/

theorem PagesWritten.calm {s t : State} (h : PagesWritten s t) : Calm s t := by
  obtain ⟨_, _, rfl, hlog, _, _, _, _, rfl⟩ := h
  exact .same rfl hlog rfl rfl

theorem State.nvPut_calm (part rec : Nat) : Calm s (s.nvPut part rec) := by
  have hstep : Calm s (s.commitBuffer.takeStep .nv) := .same rfl rfl rfl rfl
  exact hstep.trans (s.nvPut_of part rec).calm

theorem State.recordBook_calm (book : Nat) : Calm s (s.recordBook book) := by
  unfold State.recordBook
  refine Calm.trans ?_ (State.nvPut_calm _ _ _)
  exact .same rfl rfl rfl rfl

theorem State.bookState_calm (book : Nat) (st : BookState) : Calm s (s.bookState book st) :=
  (s.modBook_calm _ _).trans (State.recordBook_calm _ book)

/-! Lanes. -/

theorem State.refuse_calm (w : Work) (check : Nat) (st : Status) : Calm s (s.refuse w check st) := s.refuseLeg_calm w check 0xFF st

theorem State.primeWait_calm (w : Work) : Calm s (s.primeWait w) := s.modWork_calm _ _

theorem State.primeBook_calm (w : Work) {f : Tally → State} (hf : ∀ t, Calm s (f t)) : Calm s (s.primeBook w f) := by
  unfold State.primeBook
  split
  · split
    · exact s.refuse_calm _ _ _
    · exact s.primeWait_calm w
  · exact hf _

theorem State.writeCounter_calm (n : Nat) : Calm s (s.writeCounter n) := (s.writeCounter_pagesWritten n).calm

theorem State.incrCounter_calm (n : Nat) : Calm s (s.incrCounter n) := by
  unfold State.incrCounter
  dsimp only
  split
  · refine Calm.trans ?_ (State.writeCounter_calm _ _)
    exact .same rfl rfl rfl rfl
  split
  · exact .same rfl rfl rfl rfl
  · exact .same rfl rfl rfl rfl

theorem State.counterOp_calm (w : Work) (incr : Bool) : Calm s (s.counterOp w incr) := by
  unfold State.counterOp
  dsimp only
  split
  · exact s.refuse_calm _ _ _
  split
  · exact s.refuse_calm _ _ _
  · exact (Calm.ite (s.incrCounter_calm _) (.refl s)).trans (State.finish_calm _ _ _ _)

theorem State.tallyReadOp_calm (w : Work) : Calm s (s.tallyReadOp w) := by
  refine s.primeBook_calm w fun t => ?_
  split
  · exact s.refuseLeg_calm _ _ _ _
  · exact s.finish_calm _ _ _

theorem State.setRecord_calm (book index : Nat) (t : Tally) : Calm s (s.setRecord book index t) := .same rfl rfl rfl rfl

theorem State.commitRecord_calm (book : Nat) (r : RecordInfo) : Calm s (s.commitRecord book r) := .same rfl rfl rfl rfl

theorem State.tallyAdjustOp_calm (w : Work) : Calm s (s.tallyAdjustOp w) := by
  unfold State.tallyAdjustOp
  split
  · exact s.primeWait_calm w
  · refine s.primeBook_calm w fun t => ?_
    dsimp only
    split
    · exact s.refuseLeg_calm _ _ _ _
    split
    · exact s.refuse_calm _ _ _
    · refine Calm.trans ?_ (State.finish_calm _ _ _ _)
      refine Calm.trans ?_ (State.modWork_calm _ _ _)
      exact Calm.trans (s.setRecord_calm _ _ _) (State.commitRecord_calm _ _ _)

theorem State.primeOp_calm (w : Work) : Calm s (s.primeOp w) := by
  unfold State.primeOp
  split
  · exact s.counterOp_calm w false
  · exact s.counterOp_calm w true
  · exact s.tallyReadOp_calm w
  · exact s.tallyAdjustOp_calm w
  · exact s.finish_calm _ _ _
  · exact s.finish_calm _ _ _
  · exact s.finish_calm _ _ _
  · exact .refl s

theorem State.primeEnd_calm (w : Work) {f : Work → State} (hf : ∀ w, Calm s (f w)) : Calm s (s.primeEnd w f) := by
  unfold State.primeEnd
  split
  · exact Calm.ite (s.refuseWith_calm _ _ _ _) (s.refuse_calm _ _ _)
  · exact hf w

theorem State.finishLanes_calm (p : State → Work → Bool) : Calm s (s.finishLanes p) :=
  Calm.foldl (fun s w => Calm.ite (s.primeEnd_calm w s.primeOp_calm) (.refl s)) _ s

/-! Commits. -/

theorem State.commitLegs_calm (e : Entry) : Calm s (s.commitLegs e) := by
  refine Calm.foldl (fun s l => ?_) _ s
  refine Calm.trans ?_ (State.setRecord_calm _ _ _ _)
  exact .same rfl rfl rfl rfl

theorem State.commitOutcome_calm (e : Entry) (lseq : Nat) : Calm s (s.commitOutcome e lseq) := by
  unfold State.commitOutcome
  dsimp only
  split
  · exact .refl s
  split
  · refine Calm.trans ?_ (State.answerCore_calm _ _ _ _)
    exact s.modCore_calm _ fun _ => rfl
  · refine Calm.trans ?_ (State.modWork_calm _ _ _)
    refine Calm.trans ?_ (State.finish_calm _ _ _ _)
    exact s.modWork_calm _ _

theorem State.commitEntry_calm (e : Entry) : Calm s (s.commitEntry e) := by
  unfold State.commitEntry
  refine Calm.trans ?_ (State.commitOutcome_calm _ _ _)
  refine ((s.commitLegs_calm e).trans (State.commitRecord_calm _ e.book e.info)).trans ?_
  exact ⟨⟨rfl, List.prefix_rfl, fun h => by simp [h]⟩, fun _ h => h⟩

theorem State.commitBook_calm (book : Nat) : Calm s (s.commitBook book) := by
  unfold State.commitBook
  split
  · exact .refl s
  · exact Calm.ite (s.commitEntry_calm _) (.refl s)

theorem State.commitStanding_calm : Calm s s.commitStanding :=
  Calm.foldl (fun s k => Calm.foldl (fun s _ => s.commitBook_calm k) _ s) _ s

end

end Sys2Proof.Machine
end

section
/-! SUPPORT. A change of the life-cycle state, and the tamper events that cause one (R36, R504 to R510). -/

namespace Sys2Proof.Machine
open Sys2Proof

section
variable (s : State)

/-! The end of work (R36, R238). -/

theorem State.clearCore_quiet (core : Nat) : Quiet s (s.clearCore core) where
  kept := rfl
  log := List.prefix_rfl
  empty h := by
    have hd : (s.clearCore core).brine.entries =
        s.brine.entries.map (fun e => if e.applet && e.src == core then { e with src := noCore } else e) := rfl
    rw [hd, h]
    rfl

theorem State.dropCollect_quiet (id : Nat) : Quiet s (s.dropCollect id) := by
  unfold State.dropCollect
  split
  · split
    · exact ⟨rfl, List.prefix_rfl, fun h => h⟩
    · exact .refl s
  · exact .refl s

/-- Once every entry is ended the window is empty. -/
theorem State.endEntries_all (st : Status) (res : Bytes) (fence : Bool) :
    (s.endEntries (fun _ => true) st res fence).brine.entries = [] := by
  have hd : (s.dropEntries (fun _ => true)).brine.entries = [] := by
    unfold State.dropEntries State.reexecute
    dsimp only
    have hf : ∀ es : List Entry, es.filter (fun _ => !true) = [] := by simp
    rw [hf]
    exact reexecAux_nil _
  exact (Calm.foldl (fun s e => s.endEntry_calm e st res fence) _ _).empty hd

/-- The first half of the end of work: what stands commits, every entry ends. -/
def State.windowEnded (s : State) (st : Status) : State :=
  (((s.finishLanes State.adjustAt2).commitStanding).redecide rankChange (fun _ => true) st []).endEntries (fun _ => true) st []
    false

theorem State.windowEnded_calm (st : Status) : Calm s (s.windowEnded st) := by
  unfold State.windowEnded
  refine Calm.trans ?_ (State.endEntries_calm _ _ _ _ _)
  refine Calm.trans ?_ (State.redecide_calm _ _ _ _ _)
  refine Calm.trans ?_ (State.commitStanding_calm _)
  exact s.finishLanes_calm _

/-- The second half: the cores, the big-number jobs, the descriptors and the collect. -/
def State.worksEnded (s : State) (target : LcState) (keep : Option Nat) (st : Status) : State :=
  let s := (s.applets.cores.map Prod.fst).foldl (fun s c => s.clearCore c) s
  let s := s.dropBn (fun _ => true)
  let ends := s.work.filter (fun w => !w.isDone && some w.id != keep && !servedIn target w.opcode)
  let s := ends.foldl (fun s w => (s.releaseUnits w.id).finishRaw w.id st []) s
  let s := { s with work := s.work.filter (fun w => !(w.isApplet && !w.isDone)) }
  ends.foldl (fun s w => s.dropCollect w.id) s

theorem State.worksEnded_quiet (target : LcState) (keep : Option Nat) (st : Status) :
    Quiet s (s.worksEnded target keep st) := by
  unfold State.worksEnded
  dsimp only
  refine Quiet.trans ?_ (Quiet.foldl (fun s (w : Work) => s.dropCollect_quiet w.id) _ _)
  refine Quiet.trans (Quiet.trans ?_ (Quiet.foldl (fun s (w : Work) => ?_) _ _)) ⟨rfl, List.prefix_rfl, fun h => h⟩
  · exact Quiet.trans (Quiet.foldl (fun s c => s.clearCore_quiet c) _ _) ⟨rfl, List.prefix_rfl, fun h => h⟩
  · exact ((s.releaseUnits_calm w.id).trans (State.finishRaw_calm _ _ _ _)).toQuiet

/-- At last a change by a tamper event fences the rings of what it ended. -/
theorem State.endForChange_eq (target : LcState) (keep : Option Nat) (st : Status) : ∃ hits : List Work,
    s.endForChange target keep st =
      if st == .tamper then hits.foldl (fun s w => s.fenceRing w.ring 3 w.tag) ((s.windowEnded st).worksEnded target keep st)
      else (s.windowEnded st).worksEnded target keep st := ⟨_, rfl⟩

/-- A change of state ends every entry and leaves the monitor, power, keys and grain. -/
theorem State.endForChange_quiet (target : LcState) (keep : Option Nat) (st : Status) :
    Quiet s (s.endForChange target keep st) ∧ (s.endForChange target keep st).brine.entries = [] := by
  obtain ⟨hits, h⟩ := s.endForChange_eq target keep st
  have hw := (s.windowEnded st).worksEnded_quiet target keep st
  have hq : Quiet (s.windowEnded st) (s.endForChange target keep st) := by
    rw [h]
    split
    · exact hw.trans (Quiet.foldl (fun s (w : Work) => (s.fenceRing_calm _ _ _).toQuiet) _ _)
    · exact hw
  exact ⟨(s.windowEnded_calm st).toQuiet.trans hq, hq.empty (State.endEntries_all _ _ _ _)⟩

/-! The books and the keys (R408, R510). -/

theorem State.dropPan_calm (book : Nat) : Calm s (s.dropPan book) := .same rfl rfl rfl rfl

theorem State.releaseForChange_calm (book : Nat) (again : Bool) : Calm s (s.releaseForChange book again) := by
  unfold State.releaseForChange
  dsimp only
  split
  · exact .refl s
  split
  · exact s.modBook_calm _ _
  · refine Calm.trans ?_ (State.releaseWithheld_calm _ _)
    refine Calm.trans ?_ (State.dropPan_calm _ _)
    refine Calm.trans ?_ (State.bookState_calm _ _ _)
    exact s.modBook_calm _ _

theorem State.releaseBooks_calm (bs : List Nat) (again : Bool) :
    Calm s (bs.foldl (fun s b => s.releaseForChange b again) s) :=
  Calm.foldl (fun s b => s.releaseForChange_calm b again) bs s

/-- What the destruction of the keys leaves: the monitor, the window, the grain and the logs (R408). -/
theorem State.destroyKeys_of : let t := s.destroyKeys
    t.tamper = s.tamper ∧ t.brine = s.brine ∧ t.logs = s.logs ∧ t.applets.allow = [] ∧ t.keys.erasing = true ∧
      t.keys.compact = [] ∧ t.keys.large = [] ∧ t.keys.sessions = [] ∧ t.keys.auth = [] := by
  unfold State.destroyKeys
  dsimp only
  refine ⟨rfl, rfl, rfl, rfl, ?_⟩
  split
  · exact ⟨rfl, rfl, rfl, rfl, rfl⟩
  · exact ⟨rfl, rfl, rfl, rfl, rfl⟩

/-! The change (R509). -/

variable (target : LcState) (cause num : Nat) (work : Option Nat) (byTamper : Bool)

/-- The transition that a change begins or takes over. -/
def State.nextTransition (s : State) (target : LcState) (work : Option Nat) : Transition :=
  { target := target,
    work := match s.tamper.transition with
      | some t => t.work
      | none => work,
    rewritten := s.tamper.transition.isSome }

/-- A change up to the destruction of the keys only ends work. -/
theorem State.changeState_eq : ∃ v rng, Quiet (s.enterState target cause num (s.nextTransition target work)) v ∧
    v.brine.entries = [] ∧ s.changeState target cause num work byTamper = { v.rngLifeCycle.destroyKeys with rng := rng } := by
  have hrec := State.nvPut_calm (s.enterState target cause num (s.nextTransition target work)) partSystem recLife
  obtain ⟨hend, hnil⟩ := State.endForChange_quiet
    (s.enterState target cause num (s.nextTransition target work)).recordLife target (s.nextTransition target work).work
    (if byTamper then .tamper else .state)
  have hbooks := State.releaseBooks_calm (((s.enterState target cause num (s.nextTransition target work)).recordLife).endForChange
    target (s.nextTransition target work).work (if byTamper then .tamper else .state))
    (((s.enterState target cause num (s.nextTransition target work)).recordLife.endForChange target
      (s.nextTransition target work).work (if byTamper then .tamper else .state)).books.map Prod.fst)
    s.tamper.transition.isSome
  unfold State.changeState
  dsimp only
  split
  · exact ⟨_, _, (hrec.toQuiet.trans hend).trans hbooks.toQuiet, hbooks.empty hnil, rfl⟩
  · exact ⟨_, _, (hrec.toQuiet.trans hend).trans hbooks.toQuiet, hbooks.empty hnil, rfl⟩

/-- The monitor after a change: the record of the new state, and perhaps more level-1 events. -/
theorem State.changeState_tamper : ∃ l1, (s.changeState target cause num work byTamper).tamper =
    { (s.enterState target cause num (s.nextTransition target work)).tamper with l1 := l1 } := by
  obtain ⟨v, rng, hv, -, ht⟩ := s.changeState_eq target cause num work byTamper
  rw [ht]
  exact ⟨v.tamper.l1, hv.tamper⟩

theorem State.changeState_changed : Changed s (s.changeState target cause num work byTamper) target cause num := by
  obtain ⟨v, rng, hv, hnil, ht⟩ := s.changeState_eq target cause num work byTamper
  obtain ⟨htamper, hbrine, -, hallow, herasing, hcompact, hlarge, hsessions, hauth⟩ := v.rngLifeCycle.destroyKeys_of
  have hm : (s.changeState target cause num work byTamper).tamper =
      { (s.enterState target cause num (s.nextTransition target work)).tamper with l1 := v.tamper.l1 } := by
    rw [ht]
    exact htamper.trans hv.tamper
  exact {
    state := by rw [hm]; rfl
    cause := by rw [hm]; rfl
    detail := by rw [hm]; rfl
    grain := by rw [hm]; rfl
    pending := by rw [hm]; rfl
    summary := by rw [hm]; rfl
    erasing := by rw [ht]; exact herasing
    keys := by rw [ht]; exact ⟨hcompact, hlarge, hsessions, hauth⟩
    window := by rw [ht]; exact (congrArg Brine.entries hbrine).trans hnil
    allow := by rw [ht]; exact hallow }

theorem State.changeState_log : s.logs.tpend <+: (s.changeState target cause num work byTamper).logs.tpend := by
  obtain ⟨v, rng, hv, -, ht⟩ := s.changeState_eq target cause num work byTamper
  obtain ⟨-, -, hlogs, -⟩ := v.rngLifeCycle.destroyKeys_of
  rw [ht]
  exact hv.log.trans ((congrArg Logs.tpend hlogs).symm ▸ List.prefix_rfl)

end

/-! Events (R504, R506). -/

/-- What an event was raised with stays in the log. -/
theorem Raised.grows {s t u : State} {level source loc : Nat} (h : Raised s t level source loc)
    (hl : t.logs.tpend <+: u.logs.tpend) : Raised s u level source loc := by
  obtain ⟨e, more, ht, hlevel, hsource, hloc, hgrain⟩ := h
  obtain ⟨rest, hu⟩ := hl
  exact ⟨e, more ++ rest, by rw [← hu, ht]; simp, hlevel, hsource, hloc, hgrain⟩

theorem State.tlogTamper_raised (s : State) (level action : Nat) (e : TamperEvent) :
    Raised s (s.tlogTamper level action e) level e.source e.loc := ⟨_, [], rfl, rfl, rfl, rfl, rfl⟩

/-- The same from a state with the grain of the first, and the events of the first. -/
theorem Changed.of_now {s v t : State} {target : LcState} {cause num : Nat} (h : Changed v t target cause num)
    (hn : v.now = s.now) : Changed s t target cause num :=
  ⟨h.state, h.cause, h.detail, h.grain.trans hn, h.pending, h.summary, h.erasing, h.keys, h.window, h.allow⟩

/-- An event of level 3 or 4 to which the device responds is logged and changes the state. -/
theorem State.severe_eq {s : State} {level : Nat} (h : Responds s level) (e : TamperEvent) : s.severe level e =
    (s.tlogTamper level level e).changeState (if level = 4 then .spent else .bittern) e.cause e.num none true := by
  obtain ⟨hsense, hflush, hstart, hacts⟩ := h
  unfold State.severe
  rw [hsense, hflush, hstart, hacts]
  rfl

theorem State.severe_of {s : State} {level : Nat} (h : Responds s level) (e : TamperEvent) :
    Changed s (s.severe level e) (if level = 4 then .spent else .bittern) e.cause e.num ∧
      Raised s (s.severe level e) level e.source e.loc := by
  rw [State.severe_eq h e]
  exact ⟨((s.tlogTamper level level e).changeState_changed _ e.cause e.num none true).of_now rfl,
    (s.tlogTamper_raised level level e).grows (State.changeState_log ..)⟩

/-- What the response does not touch: the clock and the battery latch. -/
theorem State.severe_tamper {s : State} {level : Nat} (h : Responds s level) (e : TamperEvent) :
    (s.severe level e).tamper.clockStopped = s.tamper.clockStopped ∧ (s.severe level e).tamper.latch = s.tamper.latch ∧
      (s.severe level e).tamper.latchLoop = s.tamper.latchLoop ∧ (s.severe level e).tamper.afterRelock = s.tamper.afterRelock ∧
        (s.severe level e).tamper.l2 = s.tamper.l2 := by
  obtain ⟨l1, hl⟩ := (s.tlogTamper level level e).changeState_tamper (if level = 4 then .spent else .bittern) e.cause e.num none
    true
  rw [State.severe_eq h e, hl]
  exact ⟨rfl, rfl, rfl, rfl, rfl⟩

/-! The sensors (R498). -/

theorem tripped_of {tj : BitVec 16} (h : tj.toInt < -360 ∨ 1000 < tj.toInt) : tripped tj (-45) 125 = true := by
  simp only [tripped, Bool.or_eq_true, decide_eq_true_eq]
  omega

/-- A calibration that finds one track off: after its event the task is done. -/
theorem execSensorCalibration_one {s : State} {track dev : Nat} (hs : s.sensing = true) (hm : s.mayStep .tamper background = true)
    (ht : track < 256) (hd : 200 < dev) : execSensorCalibration [(track, dev)] s =
      .next (((s.takeStep .tamper).severe 3 (sensor 0x09 0x04 track dev track)).taskDone 3) := by
  refine congrArg Host.Outcome.next ?_
  rw [if_neg (by simp [hs]), State.stepOf_served hm]
  simp only [List.foldl_cons, List.foldl_nil, ht, if_true, State.trackDeviates, hd]

/-- The event of a battery latch that a broken loop has set. -/
def loopEvent (mesh : Bool) : TamperEvent :=
  { source := 0x0B, cause := 0x13, unit := unitBattery, loc := 0, slice := 0xFFFF, detail := latchBits true mesh, num := 0 }

/-- A broken loop with main power present sets the latch and is an event at once (R500, R501). -/
theorem State.batteryCheck_first {s : State} (hs : s.sensing = true) (hok : s.pwr.mainOk = true) (harm : s.tamper.arm = true)
    (hloop : s.tamper.loopEn = true) (hlatch : s.tamper.latch = false) (meshFault : Bool) :
    s.batteryCheck true meshFault =
      { s with tamper := { s.tamper with latch := true, latchLoop := true, latchMesh := s.tamper.latchMesh } }.severe 4 (loopEvent s.tamper.latchMesh) := by
  have hne : (s.tamper.state == .spent) = false := by
    simpa using (Bool.and_eq_true_iff.mp hs).1
  unfold State.batteryCheck
  simp only [hok, harm, hloop, hlatch, hne, Bool.and_self, Bool.not_true, Bool.not_false, Bool.and_false, Bool.or_false,
    Bool.or_true, Bool.false_eq_true, if_false, if_true,
    loopEvent]

/-- Settles O22: each sensor raises its event, and the device responds with the change of state. -/
theorem severeTrips : Obligations.SevereTrips := by
  unfold Obligations.SevereTrips
  refine fun s => ⟨fun h => ⟨fun rail hr => ?_, fun n tj hn htj => ?_, fun track dev hm ht hd => ?_, fun mhz hc => ?_⟩,
    fun h => ⟨fun n hn => ?_, fun mesh hmesh hok => ?_, fun mf hok harm hloop hlatch => ?_⟩⟩
  · exact ⟨_, congrArg Host.Outcome.next (if_neg (by omega)), State.severe_of h (sensor 0x02 0x02 rail 0 rail)⟩
  · refine ⟨_, congrArg Host.Outcome.next (if_pos ?_), State.severe_of h (sensor 0x07 0x03 n (tjDetail tj) n)⟩
    simp [hn, tripped_of htj]
  · have hr : Responds (s.takeStep .tamper) 3 := h
    obtain ⟨hchanged, hraised⟩ := State.severe_of hr (sensor 0x09 0x04 track dev track)
    obtain ⟨sched, hdone⟩ := ((s.takeStep .tamper).severe 3 (sensor 0x09 0x04 track dev track)).taskDone_eq 3
    refine ⟨_, execSensorCalibration_one h.1 hm ht hd, ?_⟩
    rw [hdone]
    obtain ⟨hstate, hcause, hdetail, hgrain, hpending, hsummary, herasing, hkeys, hwindow, hallow⟩ := hchanged
    exact ⟨⟨hstate, hcause, hdetail, hgrain, hpending, hsummary, herasing, hkeys, hwindow, hallow⟩, hraised⟩
  · let v : State := { s with tamper := { s.tamper with clockStopped := false, afterRelock := none } }
    have hr : Responds v 3 := h
    obtain ⟨hchanged, hraised⟩ := State.severe_of hr (sensor 0x04 0x01 0 mhz 0)
    obtain ⟨hclock, -⟩ := State.severe_tamper hr (sensor 0x04 0x01 0 mhz 0)
    refine ⟨v.severe 3 (sensor 0x04 0x01 0 mhz 0), congrArg Host.Outcome.next ?_, hchanged.of_now rfl, hclock, hraised⟩
    rw [hc]
    rfl
  · exact ⟨_, congrArg Host.Outcome.next (if_neg (by omega)), State.severe_of h (sensor 0x05 0x10 n 0 n)⟩
  · refine ⟨_, congrArg Host.Outcome.next (if_neg ?_), State.severe_of h (sensor 0x0A 0x12 mesh 0 mesh)⟩
    simp [hok]
    omega
  · let v : State := { s with tamper := { s.tamper with latch := true, latchLoop := true, latchMesh := s.tamper.latchMesh } }
    have hr : Responds v 4 := h
    obtain ⟨hchanged, -⟩ := State.severe_of hr (loopEvent s.tamper.latchMesh)
    obtain ⟨-, hl, hll, -⟩ := State.severe_tamper hr (loopEvent s.tamper.latchMesh)
    refine ⟨_, congrArg Host.Outcome.next (State.batteryCheck_first h.1 hok harm hloop hlatch mf), hchanged.of_now rfl, hl, hll⟩

end Sys2Proof.Machine
end

section
/-! SUPPORT. A comparator glitch on the check of a Saltern load (R422, R498, R505): the counterexample to O23. -/

namespace Sys2Proof.Machine
open Sys2Proof

/-- A load of block 0 whose check has been made again already, for a block that is being rebuilt. -/
def glitchedLoad : State :=
  { State.reset with
    pan := { Pan.reset with
      loads := [{ book := 0, block := 0, levels := [0], trusted := 1, failedAt := none, retried := false, redone := true }],
      rebuilds := [{ book := 0, block := 0, started := true, haveBase := false, recs := [], pos := 0, expect := 1, rings := [] }] },
    tamper := { Tamper.reset with state := .issued }, pwr := { Power.reset with mainOk := true } }

/-- The second glitch fails the rebuild, which raises an event of level 1 before the glitch itself is raised. -/
theorem glitchedLoad_levels : ∃ t, exec (.tamperLevel2Squash (some true) 2 0) glitchedLoad = .next t ∧
    glitchedLoad.logs.tpend = [] ∧ t.logs.tpend.map TEvent.level = [1, 2] :=
  ⟨_, rfl, rfl, by decide⟩

/-- Refutes O23: where the second glitch of a load (unit 2) fails a rebuild, the Saltern failure is raised first, with level 1,
so that the event on its way into the log is not the one of level 2. -/
theorem not_lowTripsAndBattery : ¬ Obligations.LowTripsAndBattery := by
  unfold Obligations.LowTripsAndBattery
  rintro ⟨h, -⟩
  obtain ⟨-, -, -, -, hsquash, -⟩ := h glitchedLoad
  obtain ⟨-, hglitch⟩ := hsquash 2 0 (by decide) (by decide) rfl (by decide)
  obtain ⟨t, ht, ⟨e, more, hlog, hlevel, -⟩, -⟩ := hglitch true
  obtain ⟨u, hu, hnone, hlevels⟩ := glitchedLoad_levels
  obtain rfl : t = u := Host.Outcome.next.inj (ht.symm.trans hu)
  rw [hlog, hnone, List.nil_append, List.map_cons] at hlevels
  exact absurd (hlevel.symm.trans (List.cons.inj hlevels).1) (by decide)

end Sys2Proof.Machine
end

section
/-! SUPPORT. Life-cycle commands, challenges and the summary statement (R509 to R521). -/

namespace Sys2Proof.Machine
open Sys2Proof

section
variable {s : State}

/-- The end of an erasure that a command waits for. -/
theorem State.eraseComplete_of {tr : Transition} {id : Nat} {v : Work} (he : s.keys.erasing = true)
    (htr : s.tamper.transition = some tr) (hid : tr.work = some id) (hre : tr.rewritten = false) (hv : s.workAt id = some v)
    (hr : v.ring < 65536) : ∃ work nv logs sched,
      s.eraseComplete = { s with
        work := work, tamper := { s.tamper with erasePending := false, transition := none }, nv := nv, logs := logs,
        sched := sched, keys := { s.keys with erasing := false, erasePending := false } } ∧
      Ended s.eraseComplete id .ok (leBytes 1 (lcCode s.tamper.state)) := by
  obtain ⟨nv, logs, sched, h1⟩ :=
    { s with keys := { s.keys with erasing := false, erasePending := false } }.nvPut_eq partSystem recErase
  let u : State := { s with
    keys := { s.keys with erasing := false, erasePending := false }, nv := nv, logs := logs, sched := sched,
    tamper := { s.tamper with erasePending := false, transition := none } }
  obtain ⟨nv', logs', sched', h2⟩ := u.nvPut_eq partSystem recLife
  have ht : s.eraseComplete =
      { u with nv := nv', logs := logs', sched := sched' }.finish id .ok (leBytes 1 (lcCode s.tamper.state)) := by
    unfold State.eraseComplete
    rw [he, if_neg (by decide)]
    dsimp only
    rw [h1]
    dsimp only
    rw [htr]
    dsimp only
    unfold State.recordLife
    rw [h2]
    unfold State.endTransition
    rw [hid]
    dsimp only
    rw [hre]
    rfl
  obtain ⟨ends, only, -⟩ := State.finish_ends (s := { u with nv := nv', logs := logs', sched := sched' }) (st := .ok)
    (leBytes 1 (lcCode s.tamper.state)) hv hr (by decide) (by decide)
  rw [ht]
  exact ⟨_, _, _, _, only, ends⟩

/-- A random use that is asked for stands among the waiters. -/
theorem State.askRandom_of (s : State) (use : RngUse) (prio slice need : Nat) : ∃ rng,
    s.askRandom use prio slice need = { s with rng := rng } ∧ ∃ x ∈ rng.waiters, x.use = use := by
  unfold State.askRandom
  split
  · next h =>
    obtain ⟨x, hx, hu⟩ := List.any_eq_true.mp h
    exact ⟨s.rng, rfl, x, hx, by simpa using hu⟩
  · exact ⟨_, rfl, _, List.mem_append_right _ (List.mem_singleton.mpr rfl), rfl⟩

theorem State.startChallenge_of {w : Work} (hw : s.workAt w.id = some w) (h : s.challengeFail w = none) : ∃ work rng,
    s.startChallenge w = { s with work := work, rng := rng } ∧ At (s.startChallenge w) w.id (.active 1) ∧
      ∃ x ∈ rng.waiters, x.use = .challenge w.id := by
  let u := s.modWork w.id (fun v => { v with phase := .active 1, admitted := some s.now })
  obtain ⟨rng, hr, hx⟩ := u.askRandom_of (.challenge w.id) 4 w.slice 16
  have ht : s.startChallenge w = { u with rng := rng } := by
    unfold State.startChallenge
    rw [h]
    exact hr
  have hat : u.workAt w.id = _ := State.workAt_modWork_same hw fun _ => rfl
  refine ⟨_, rng, ht, ?_, hx⟩
  rw [ht]
  exact congrArg (Option.map Work.phase) hat

/-- The transition that a change begins. -/
theorem State.changeState_transition (h : s.tamper.transition = none) (target : LcState) (cause num : Nat) (work : Option Nat)
    (byTamper : Bool) : (s.changeState target cause num work byTamper).tamper.transition =
      some { target := target, work := work, rewritten := false } := by
  obtain ⟨l1, ht⟩ := s.changeState_tamper target cause num work byTamper
  rw [ht]
  change some (s.nextTransition target work) = _
  unfold State.nextTransition
  rw [h]
  rfl

/-- LC_CHANGE outside SEALED needs no authorisation. -/
theorem State.startLcChange_plain {w : Work} {target : LcState} (hform : s.lcForm w = true)
    (hto : lcOfCode (w.field 0x10 1) = some target) (hallow : lcAllowed s.tamper.state target = true)
    (hnone : s.tamper.transition = none) (hera : s.keys.erasing = false) (hst : s.tamper.state ≠ .sealed_)
    (hconf : s.confirmOk w = true) (hhold : s.holdHealthy = true) : s.startLcChange w =
      (s.modWork w.id (fun v => { v with phase := .active 1 })).changeState target 0x20 0 (some w.id) false := by
  have hc : s.lcCustodians = false := by simp [State.lcCustodians, hst]
  unfold State.startLcChange
  rw [hform, if_pos rfl, hto]
  dsimp only
  rw [hallow, hnone, hera, hc, if_neg (by decide), if_pos (by decide)]
  unfold State.lcCommit
  rw [hallow, hconf, hhold]
  rfl

/-- LC_CHANGE in SEALED reads its authorisation. -/
theorem State.startLcChange_reads {w : Work} {target : LcState} (hform : s.lcForm w = true)
    (hto : lcOfCode (w.field 0x10 1) = some target) (hallow : lcAllowed s.tamper.state target = true)
    (hnone : s.tamper.transition = none) (hera : s.keys.erasing = false) (hst : s.tamper.state = .sealed_)
    (hrange : s.rangeOk w.slice (w.field 0x18 8) authLen false = true) (hcan : s.canRead masterMgmt = true)
    (hok : (s.hostRead (.work w.id 0) masterMgmt w.slice .statement (w.field 0x18 8) authLen false).2 = true) :
    s.startLcChange w = (s.hostRead (.work w.id 0) masterMgmt w.slice .statement (w.field 0x18 8) authLen false).1.modWork w.id
      (fun v => { v with phase := .reading 1 }) := by
  have hc : s.lcCustodians = true := by simp [State.lcCustodians, hst]
  unfold State.startLcChange
  rw [hform, if_pos rfl, hto]
  dsimp only
  rw [hallow, hnone, hera, hc, hrange, hcan, hok, if_neg (by decide), if_neg (by decide), if_neg (by decide), if_neg (by decide),
    if_pos rfl]

theorem State.startStage_reads {w : Work} (hform : stageForm w = true) (hst : s.tamper.state = .issued)
    (hcan : s.canRead masterMgmt = true) (hsrc : s.rangeOk w.slice (w.field 0x10 8) (w.field 0x18 4) false = true)
    (hauth : s.rangeOk w.slice (w.field 0x20 8) authLen false = true)
    (hok : (s.hostRead (.work w.id 0) masterMgmt w.slice .statement (w.field 0x10 8) (w.field 0x18 4) false).2 = true) :
    s.startStage w = (s.hostRead (.work w.id 0) masterMgmt w.slice .statement (w.field 0x10 8) (w.field 0x18 4) false).1.modWork
      w.id (fun v => { v with phase := .reading 1 }) := by
  unfold State.startStage
  dsimp only
  rw [hform, hst, hsrc, hauth, hcan, hok, if_neg (by decide), if_neg (by decide), if_neg (by decide), if_neg (by decide), if_pos rfl]

/-- The summary is signed, stored and recorded. -/
theorem State.summaryFormed_eq (h : s.summaryReady = true) : ∃ sig nv logs sched,
    execBitternSummaryFormed s = .next { s with
      draws := s.draws + 1, nv := nv, logs := logs, sched := sched,
      tamper := { s.tamper with summary := some (s.summaryStatement ++ sig), summaryDue := false } } := by
  obtain ⟨nv, logs, sched, hn⟩ := { s with
    draws := s.draws + 1,
    tamper := { s.tamper with
      summary := some (s.signIdentity s.summaryStatement).1, summaryDue := false } }.nvPut_eq partSystem recLife
  refine ⟨(s.signP384 (leNat s.keys.dId) (sha384 s.summaryStatement)).1, nv, logs, sched, congrArg Host.Outcome.next ?_⟩
  rw [if_pos h]
  exact hn

/-- The summary statement goes to its buffer. -/
theorem State.bitternBody_summary {w : Work} {b : Bytes} (hfail : s.statementFail w = none) (hkind : w.field 0x1C 1 = 0)
    (hsum : s.tamper.summary = some b) (hcan : s.canMaster masterMgmt = true)
    (hok : (s.hostWrite masterMgmt w.slice .statement (some w.id) (w.field 0x10 8) b).2 = true) : s.bitternBody w =
      (s.hostWrite masterMgmt w.slice .statement (some w.id) (w.field 0x10 8) b).1.finishOpen w.id .ok (leBytes 4 b.length) := by
  unfold State.bitternBody
  dsimp only
  rw [hfail, hkind, hsum, hcan]
  dsimp only
  rw [if_neg (by simp)]
  have hk : (if (0 : Nat) == 0 then ((some b).getD [], s) else s.signIdentity
      (if (0 : Nat) == 1 then s.bookStatement (w.field 0x1E 2) else s.counterStatement (w.field 0x1E 2))) = (b, s) := rfl
  rw [hk]
  exact if_pos hok

end

/-- Settles O24, command by command. -/
theorem lifeCycleCommands : Obligations.LifeCycleCommands := by
  unfold Obligations.LifeCycleCommands
  refine fun s ring w => ⟨fun tr id v he htr hid hre hv hr => ?_, fun h hfail => ?_, fun slot b hfind hdue => ?_,
    fun h hform hst hcan hsrc hauth hok => ?_, fun target h hform hto hallow hnone hera => ⟨fun hne hconf hhold => ?_,
      fun hsealed hrange hcan hok => ?_⟩, fun hready => ?_, fun b h hfail hkind hsum hcan hok => ?_⟩
  · obtain ⟨work, nv, logs, sched, ht, hends⟩ := State.eraseComplete_of he htr hid hre hv hr
    refine ⟨_, rfl, ?_, ?_, ?_, ?_, ?_, hends⟩
    all_goals rw [ht]
  · obtain ⟨work, rng, ht, hat, hx⟩ := State.startChallenge_of h.2.1 hfail
    refine ⟨_, congrArg Host.Outcome.next (State.onStart_of h.1 _), hat, ?_, ?_⟩
    · rw [ht]
      exact hx
    · rw [ht]
  · refine ⟨s.consumeChallenge slot, congrArg Host.Outcome.next ?_, fun e he => ?_, fun e he hne => ?_, rfl⟩
    · rw [hfind]
      exact if_pos hdue
    · simpa using (List.mem_filter.mp he).2
    · exact List.mem_filter.mpr ⟨he, by simpa using hne⟩
  · exact asks_of (f := fun v => { v with phase := .reading 1 }) h.2.1 hok (fun _ => ⟨rfl, rfl⟩) (congrArg Host.Outcome.next
      ((State.onStart_of h.1 _).trans (State.startStage_reads hform hst hcan hsrc hauth hok)))
  · let u := s.modWork w.id (fun v => { v with phase := .active 1 })
    refine ⟨_, congrArg Host.Outcome.next ((State.onStart_of h.1 _).trans
      (State.startLcChange_plain hform hto hallow hnone hera hne hconf hhold)), ?_, ?_⟩
    · exact (u.changeState_changed target 0x20 0 (some w.id) false).of_now rfl
    · exact State.changeState_transition (s := u) hnone ..
  · exact asks_of (f := fun v => { v with phase := .reading 1 }) h.2.1 hok (fun _ => ⟨rfl, rfl⟩) (congrArg Host.Outcome.next
      ((State.onStart_of h.1 _).trans (State.startLcChange_reads hform hto hallow hnone hera hsealed hrange hcan hok)))
  · obtain ⟨sig, nv, logs, sched, ht⟩ := State.summaryFormed_eq hready
    have hst : s.tamper.state = .bittern := by
      simp only [State.summaryReady, Bool.and_eq_true, beq_iff_eq] at hready
      exact hready.1.1.1.1
    exact ⟨_, sig, ht, rfl, rfl, hst, rfl, rfl⟩
  · have hd := s.hostWrite_drained masterMgmt w.slice .statement (some w.id) (w.field 0x10 8) b
    obtain ⟨v, hv, hvr⟩ := (s.hostWrite_keepsWork masterMgmt w.slice .statement (some w.id) (w.field 0x10 8) b).work
      h.ring_lt ⟨w, h.2.1, rfl⟩
    obtain ⟨ends, only, -⟩ := State.finish_ends (st := .ok) (leBytes 4 b.length ++ Config.freeBytes
      (s.hostWrite masterMgmt w.slice .statement (some w.id) (w.field 0x10 8) b).1.draws (16 - (leBytes 4 b.length).length)) hv
      (hvr ▸ h.ring_lt) (by decide) (by decide)
    refine ⟨_, _, congrArg Host.Outcome.next ((State.onStart_of h.1 _).trans
      (State.bitternBody_summary hfail hkind hsum hcan hok)), ends, ?_, ?_⟩
    · unfold State.finishOpen
      rw [only]
      rfl
    · unfold State.finishOpen
      rw [only]
      exact hd.books

end Sys2Proof.Machine
end

section
/-! SUPPORT. A function-level, hot or link-down reset (R277, R560). -/

namespace Sys2Proof.Machine
open Sys2Proof

/-- What a reset of slices leaves as it is: link, power, keys, the tamper monitor and the calendar, of the store its counters, its
pages and write-through. -/
def State.unreset (s : State) : Link × Power × KeyStore × Tamper × Sched × Table Counter × Table NvPage × Table (List Nat) × Bool :=
  (s.link, s.pwr, s.keys, s.tamper, s.sched, s.nv.counters, s.nv.pages, s.nv.maps, s.nv.wt)

/-- State, LSEQ and heads of the books stand. -/
def SameLedger (s t : State) : Prop := ∀ k, (t.bookAt k).st = (s.bookAt k).st ∧ (t.bookAt k).lseq = (s.bookAt k).lseq ∧
  (t.bookAt k).heads = (s.bookAt k).heads

theorem SameLedger.refl (s : State) : SameLedger s s := fun _ => ⟨rfl, rfl, rfl⟩

theorem SameLedger.of_books {s t : State} (h : t.books = s.books) : SameLedger s t := fun k => by
  rw [State.bookAt, h]
  exact ⟨rfl, rfl, rfl⟩

/-- From `s` to `t` a reset of slices has ended work. -/
structure Resets (s t : State) : Prop where
  kept : t.unreset = s.unreset
  book : SameLedger s t

theorem Resets.same {s t : State} (h : t.unreset = s.unreset) (hb : t.books = s.books) : Resets s t := ⟨h, .of_books hb⟩

section
variable {s t u : State}

theorem Resets.link (h : Resets s t) : t.link = s.link := congrArg (fun k => k.1) h.kept

theorem Resets.pwr (h : Resets s t) : t.pwr = s.pwr := congrArg (fun k => k.2.1) h.kept

theorem Resets.keys (h : Resets s t) : t.keys = s.keys := congrArg (fun k => k.2.2.1) h.kept

theorem Resets.tamper (h : Resets s t) : t.tamper = s.tamper := congrArg (fun k => k.2.2.2.1) h.kept

theorem Resets.sched (h : Resets s t) : t.sched = s.sched := congrArg (fun k => k.2.2.2.2.1) h.kept

theorem Resets.counters (h : Resets s t) : t.nv.counters = s.nv.counters := congrArg (fun k => k.2.2.2.2.2.1) h.kept

theorem Resets.pages (h : Resets s t) : t.nv.pages = s.nv.pages := congrArg (fun k => k.2.2.2.2.2.2.1) h.kept

theorem Resets.maps (h : Resets s t) : t.nv.maps = s.nv.maps := congrArg (fun k => k.2.2.2.2.2.2.2.1) h.kept

theorem Resets.wt (h : Resets s t) : t.nv.wt = s.nv.wt := congrArg (fun k => k.2.2.2.2.2.2.2.2) h.kept

theorem Resets.refl (s : State) : Resets s s := .same rfl rfl

theorem Resets.trans (h : Resets s t) (h' : Resets t u) : Resets s u where
  kept := h'.kept.trans h.kept
  book k := by
    obtain ⟨hst, hlseq, hheads⟩ := h.book k
    obtain ⟨hst', hlseq', hheads'⟩ := h'.book k
    exact ⟨hst'.trans hst, hlseq'.trans hlseq, hheads'.trans hheads⟩

end

theorem Resets.foldl {α : Type} {f : State → α → State} (hf : ∀ s a, Resets s (f s a)) (l : List α) (s : State) :
    Resets s (l.foldl f s) := by
  induction l generalizing s with
  | nil => exact .refl s
  | cons a l ih => exact (hf s a).trans (ih _)

section
variable (s : State)

/-! Buffered writes drain (R321). -/

theorem Accessed.resets {s t : State} (h : Accessed s t) : Resets s t := by
  obtain ⟨_, _, _, _, _, rfl⟩ := h
  exact .same rfl rfl

theorem State.finishRaw_resets (id : Nat) (st : Status) (res : Bytes) : Resets s (s.finishRaw id st res) := by
  obtain ⟨_, _, _, h⟩ := s.finishRaw_eq id st res
  rw [h]
  exact .same rfl rfl

theorem State.restatus_resets (id : Nat) : Resets s (s.restatus id .access) := by
  unfold State.restatus
  split
  · exact .refl s
  · rw [State.finish_eq_finishRaw _ _ (by decide) (by decide)]
    exact s.finishRaw_resets _ _ _

theorem State.releaseUnits_resets (id : Nat) : Resets s (s.releaseUnits id) := .same rfl rfl

theorem State.drainOne_resets (master : Nat) : Resets s (s.drainOne master) := by
  unfold State.drainOne
  split
  · exact .refl s
  · next b rest _ =>
    have hrest : Resets s (s.modMpu master (fun m => { m with wbuf := rest })) := .same rfl rfl
    have hw : Resets s ((s.modMpu master (fun m => { m with wbuf := rest })).writeNow master b.slice b.kind false b.addr
        b.data).1 := hrest.trans (State.writeNow_accessed ..).resets
    dsimp only
    split
    · exact hw
    · split
      · exact hw
      · exact hw.trans ((State.releaseUnits_resets _ _).trans (State.restatus_resets _ _))

theorem State.drainAll_resets (master : Nat) : Resets s (s.drainAll master) := by
  unfold State.drainAll
  exact Resets.foldl (fun s _ => s.drainOne_resets master) _ s

/-! The work of a slice ends (R289). -/

theorem State.modSq_resets (ring : Nat) (f : Sq → Sq) : Resets s (s.modSq ring f) := .same rfl rfl

theorem State.discardFetch_resets (slice : Nat) : Resets s (s.discardFetch slice) := by
  refine Resets.foldl (fun s e => ?_) _ s
  exact .same rfl rfl

/-- A change of a book that leaves its state, its LSEQ and its heads. -/
theorem State.modBook_resets (book : Nat) {f : Book → Book}
    (hf : ∀ b, (f b).st = b.st ∧ (f b).lseq = b.lseq ∧ (f b).heads = b.heads) : Resets s (s.modBook book f) where
  kept := rfl
  book k := by
    by_cases h : k = book
    · subst h
      have hs := State.setBook_same s k (f (s.bookAt k))
      obtain ⟨hst, hlseq, hheads⟩ := hf (s.bookAt k)
      exact ⟨(congrArg Book.st hs).trans hst, (congrArg Book.lseq hs).trans hlseq, (congrArg Book.heads hs).trans hheads⟩
    · have hs := State.setBook_other s (f (s.bookAt book)) h
      exact ⟨congrArg Book.st hs, congrArg Book.lseq hs, congrArg Book.heads hs⟩

theorem State.dropEntries_resets (p : Entry → Bool) : Resets s (s.dropEntries p) := by
  unfold State.dropEntries
  dsimp only
  have hr : Resets s _ := Resets.foldl (fun s (e : Entry) => s.modBook_resets e.book
    (f := fun b => { b with reserved := b.reserved - e.reserved }) fun _ => ⟨rfl, rfl, rfl⟩) (s.brine.entries.filter p) s
  exact hr.trans (.same rfl rfl)

theorem State.endWriteBack_resets (w : Work) : Resets s (s.endWriteBack w) := by
  refine s.modBook_resets _ fun b => ?_
  have hwb : ∀ c : Book, c.st = b.st ∧ c.lseq = b.lseq ∧ c.heads = b.heads →
      ∀ j : Option WbJob, ({ c with wb := j }).st = b.st ∧ ({ c with wb := j }).lseq = b.lseq ∧
        ({ c with wb := j }).heads = b.heads := fun c h _ => h
  have hhand : ∀ p : Prop, [Decidable p] → (if p then { b with handover := none } else b).st = b.st ∧
      (if p then { b with handover := none } else b).lseq = b.lseq ∧
      (if p then { b with handover := none } else b).heads = b.heads := by
    intro p _
    split
    · exact ⟨rfl, rfl, rfl⟩
    · exact ⟨rfl, rfl, rfl⟩
  dsimp only
  split
  · split
    · exact hwb _ (hhand _) none
    · exact hhand _
  · exact hhand _

theorem State.abandon_resets (w : Work) : Resets s (s.abandon w) := by
  have hd (s : State) : Resets s (s.dropCollect w.id) := by
    unfold State.dropCollect
    split
    · split
      · exact .same rfl rfl
      · exact .refl s
    · exact .refl s
  unfold State.abandon
  exact (s.releaseUnits_resets w.id).trans ((hd _).trans (.same rfl rfl))

theorem State.dropWrites_resets (w : Work) : Resets s (s.dropWrites w) := by
  unfold State.dropWrites
  have h : Resets s (s.dropWork w.id) := .same rfl rfl
  have hl := ((s.dropWork w.id).countLate_accessed w.slice (s.lateAtEnd w)).resets
  exact h.trans (hl.trans (.same rfl rfl))

theorem State.muteCheckpoint_resets {w : Work} {t : State} (h : s.muteCheckpoint w = some t) : Resets s t := by
  unfold State.muteCheckpoint at h
  split at h
  · split at h
    · obtain rfl := Option.some.inj h
      exact s.modBook_resets _ fun _ => ⟨rfl, rfl, rfl⟩
    · exact absurd h (by simp)
  · exact absurd h (by simp)

theorem State.resetWork_resets (w : Work) : Resets s (s.resetWork w) := by
  have hdrop : Resets s (s.dropWork w.id) := .same rfl rfl
  have hend : Resets s ((s.endWriteBack w).abandon w) := (s.endWriteBack_resets w).trans (State.abandon_resets _ _)
  unfold State.resetWork
  split
  · exact hdrop
  split
  · exact .refl s
  split
  · split
    · exact s.dropWrites_resets w
    · exact .refl s
  split
  · exact hdrop
  split
  · split
    · next h => exact s.muteCheckpoint_resets h
    · exact hend
  split
  · exact .refl s
  split
  · exact .refl s
  · exact hend

theorem State.startReset_resets (slice : Nat) (remove : Bool) : Resets s (s.startReset slice remove) := by
  unfold State.startReset
  dsimp only
  refine Resets.trans ?_ (Resets.foldl (fun s w => s.resetWork_resets w) _ _)
  refine Resets.trans ?_ (State.modBook_resets _ _ fun _ => ⟨rfl, rfl, rfl⟩)
  refine Resets.trans ?_ (State.dropEntries_resets _ _)
  refine Resets.trans (Resets.trans ?_ (State.discardFetch_resets _ _)) (.same rfl rfl)
  exact .same rfl rfl

/-! The reset as a whole. -/

/-- Before the registers go back to their reset values: buffers drain, the slices are reset. -/
def State.slicesReset (s : State) : State :=
  let s := if s.linkOpen then (List.range 12).foldl (fun s i => s.drainAll (32 + i)) s else s
  ((s.slices.filter (fun e => e.2.live_)).map Prod.fst).foldl (fun s n => s.startReset n false) s

theorem State.slicesReset_resets : Resets s s.slicesReset := by
  unfold State.slicesReset
  dsimp only
  refine Resets.trans ?_ (Resets.foldl (fun s n => s.startReset_resets n false) _ _)
  split
  · exact Resets.foldl (fun s i => s.drainAll_resets (32 + i)) _ s
  · exact .refl s

theorem State.hostReset_eq {s : State} (hs : s.pwr.starting = true) (hf : s.pwr.flush = none) (cause : Nat) :
    s.hostReset cause = (((s.slicesReset.resetRegs cause).rngReset.lockReset).nextEpoch) := by
  unfold State.hostReset
  rw [hs, hf]
  rfl

/-- A new reset epoch: the keys, and in write-through the store. -/
theorem State.nextEpoch_of (s : State) : (s.nextEpoch.keys.epoch = s.keys.epoch + 1) ∧
    s.nextEpoch.nv.counters = s.nv.counters ∧ s.nextEpoch.now = s.now ∧
      (s.nv.wt = false → s.nextEpoch.nv = s.nv) ∧
      ∃ nv logs sched keys, s.nextEpoch = { s with nv := nv, logs := logs, sched := sched, keys := keys } := by
  unfold State.nextEpoch
  dsimp only
  split
  · next hwt =>
    refine ⟨?_, (State.nvPut_rewrites _ partSystem recEpoch).nv.counters, (State.nvPut_calm _ partSystem recEpoch).grain,
      fun h => absurd hwt (by simp [h]), ?_⟩
    · rw [(State.nvPut_calm _ partSystem recEpoch).keys]
    · obtain ⟨nv, logs, sched, h⟩ := State.nvPut_eq _ partSystem recEpoch
      exact ⟨nv, logs, sched, _, h⟩
  · exact ⟨rfl, rfl, rfl, fun _ => rfl, _, _, _, _, rfl⟩

end

/-- The three resets of the host. -/
theorem exec_hostReset {p : Nat × Instr} (h : p ∈ [(2, Instr.functionLevelReset), (3, .hotReset), (4, .linkDownReset)])
    (s : State) : exec p.2 s = .next (s.hostReset p.1) := by
  simp only [List.mem_cons, List.not_mem_nil, or_false] at h
  rcases h with rfl | rfl | rfl
  · rfl
  · rfl
  · rfl

/-- What the reset values of the registers leave of the store. -/
theorem State.resetRegs_store (r : State) (cause : Nat) :
    ((r.resetRegs cause).rngReset.lockReset).nv.pages = r.nv.pages ∧ ((r.resetRegs cause).rngReset.lockReset).nv.maps = r.nv.maps ∧
      ((r.resetRegs cause).rngReset.lockReset).nv.wt = r.nv.wt := ⟨rfl, rfl, rfl⟩

/-- Settles O28: the slices are reset, the registers return to their reset values, a new epoch begins. -/
theorem hostResets : Obligations.HostResets := by
  unfold Obligations.HostResets
  refine fun s hs hf => ⟨fun p hp => ?_, rfl⟩
  have hr := s.slicesReset_resets
  have hi := exec_hostReset hp s
  rw [State.hostReset_eq hs hf] at hi
  obtain ⟨hepoch, hcounters, hnow, hnv, nv, logs, sched, keys, ht⟩ :=
    ((s.slicesReset.resetRegs p.1).rngReset.lockReset).nextEpoch_of
  have hgrain : s.slicesReset.now = s.now := congrArg Sched.grain hr.sched
  have hlink : (((s.slicesReset.resetRegs p.1).rngReset.lockReset).nextEpoch).link = s.link.hostReset p.1 := by
    rw [ht, ← hr.link]
    rfl
  have htamper : (((s.slicesReset.resetRegs p.1).rngReset.lockReset).nextEpoch).tamper =
      { s.tamper with l1 := 0, l2 := 0, stage := none, challenges := [] } := by
    rw [ht, ← hr.tamper]
    rfl
  have hbook (k : Nat) : (((s.slicesReset.resetRegs p.1).rngReset.lockReset).nextEpoch).bookAt k = s.slicesReset.bookAt k := by
    rw [ht]
    rfl
  refine ⟨_, hi, ?_, ?_, ?_, ?_, ?_, ?_, ?_, ?_, ?_, ?_, ?_, ?_, ?_, hnow.trans hgrain, hcounters.trans hr.counters,
    fun hwt => ?_, fun k => ?_⟩
  iterate 3
    · rw [ht]
      rfl
  iterate 4
    · rw [hlink]
      rfl
  · rw [ht]
    rfl
  · exact hepoch.trans (congrArg (fun k : KeyStore => k.epoch + 1) hr.keys)
  iterate 4
    · rw [htamper]
  · obtain ⟨hpages, hmaps, hthrough⟩ := s.slicesReset.resetRegs_store p.1
    have hn := hnv (hthrough.trans (hr.wt.trans hwt))
    exact ⟨(congrArg Nv.pages hn).trans (hpages.trans hr.pages), (congrArg Nv.maps hn).trans (hmaps.trans hr.maps)⟩
  · rw [hbook]
    exact hr.book k

end Sys2Proof.Machine
end

section
/-! SUPPORT. Host accesses of registers, configuration space and the MSI-X table (R245 to R252, R273, R324, R496). -/

namespace Sys2Proof.Machine
open Sys2Proof

section
variable {s : State}

/-! Configuration space. -/

theorem State.onCfg_of (hu : s.link.up = true) (hf : s.pwr.flush = none) (hs : 8 ≤ s.pwr.step) (hr : s.link.resetting = false)
    (f : State → State) : s.onCfg f = f s := by
  unfold State.onCfg
  rw [hu, hf, hr, if_neg (by decide), if_pos (by simp [hs])]

theorem State.onCfg_crs (hu : s.link.up = true) (hf : s.pwr.flush = none) (h : s.pwr.step < 8 ∨ s.link.resetting = true)
    (f : State → State) : s.onCfg f = s.emit .crs := by
  unfold State.onCfg
  rw [hu, hf, if_neg (by decide), if_neg]
  rcases h with h | h
  · simp [Nat.not_le.mpr h]
  · simp [h]

theorem Link.write_maxPayload (l : Link) {v : Nat} (h : v ≤ 2) : l.write .maxPayload v = { l with mps := 128 * 2 ^ v } := by
  have hv : min 2 (bits v 2 0) = v := by
    have hb : bits v 2 0 = v % 8 := by simp [bits]
    omega
  simp only [Link.write, hv]

theorem Link.write_maxReadRequest (l : Link) {v : Nat} (h : v ≤ 5) :
    l.write .maxReadRequest v = { l with mrrs := 128 * 2 ^ v } := by
  have hv : min 5 (bits v 2 0) = v := by
    have hb : bits v 2 0 = v % 8 := by simp [bits]
    omega
  simp only [Link.write, hv]

/-- Messages that waited go out, if any: vectors and output change. -/
theorem State.sendPending_eq (s : State) : ∃ out msix, s.sendPending = { s with out := out, msix := msix } := by
  have hfold (l : List (Nat × Vector)) (s : State) : ∃ out msix, l.foldl
      (fun s e => (s.setVector e.1 { e.2 with pending := false }).emit (.msix e.2.addr e.2.data)) s =
        { s with out := out, msix := msix } := by
    induction l generalizing s with
    | nil => exact ⟨_, _, rfl⟩
    | cons e l ih =>
      obtain ⟨out, msix, h⟩ := ih ((s.setVector e.1 { e.2 with pending := false }).emit (.msix e.2.addr e.2.data))
      exact ⟨out, msix, h⟩
  unfold State.sendPending
  split
  · exact hfold _ s
  · exact ⟨_, _, rfl⟩

theorem State.sendPending_closed (h : s.linkOpen = false) : s.sendPending = s := by
  unfold State.sendPending
  rw [h]
  rfl

/-! Writes and reads of BAR0. -/

theorem State.regWritable_of (hu : s.barUp = true) (hh : s.halted = false) (hst : s.tamper.state ≠ .spent) (o : Nat) :
    s.regWritable o = true := by
  simp [State.regWritable, hu, hh, hst]

theorem State.shows_of (hh : s.halted = false) (hst : s.tamper.state ≠ .spent) (o : Nat) : s.shows o = true := by
  simp [State.shows, hh, hst]

/-- A write of a whole 32-bit register. -/
theorem exec_bar0Write (hu : s.barUp = true) (hh : s.halted = false) (hst : s.tamper.state ≠ .spent) {o v : Nat}
    (hgood : bar0Good o 4 = true) (hwide : wideAt (o / 8 * 8) = none) (hv : v < 2 ^ 32) :
    exec (.registerWrite (.bar0 o 4) v) s = .next (s.writeWord o v) := by
  refine congrArg Host.Outcome.next ?_
  unfold State.writeBar0
  rw [if_pos hu, hgood, if_neg (by decide), if_pos (by decide), State.onReg_of (State.regWritable_of hu hh hst o),
    Nat.mod_eq_of_lt hv]
  unfold State.writeHalf
  dsimp only
  rw [hwide]

/-- A read of one 32-bit register. -/
theorem exec_bar0Read (hu : s.barUp = true) (hh : s.halted = false) (hst : s.tamper.state ≠ .spent) {o : Nat}
    (hgood : bar0Good o 4 = true) (hrng : o ≠ 0x090000) :
    exec (.rcRegisterRead 0 o 4) s = .next ((s.readClears o).emit (.barRead o (leBytes 4 (s.readWord o)))) := by
  refine congrArg Host.Outcome.next ((if_pos hu).trans ?_)
  dsimp only
  unfold State.readBar0
  rw [hgood, if_neg (by decide), if_neg (by simp [hrng])]
  unfold State.readOne
  rw [State.shows_of hh hst]
  rfl

/-- A read of one of the 13 counters of corrected errors gives it and clears it. -/
theorem State.read_errCorr {u : Nat} (h : u ≤ 12) : s.readWord (0x0A0100 + 4 * u) = tget 0 s.tel.errCorr u ∧
    s.readClears (0x0A0100 + 4 * u) = { s with tel := { s.tel with errCorr := tput 0 s.tel.errCorr u 0 } } := by
  interval_cases u
  all_goals exact ⟨rfl, rfl⟩

/-! The bits of AER. -/

/-- A list with an element added unless it is there. -/
theorem contains_added (l : List Nat) (n : Nat) : (if l.contains n then l else l ++ [n]).contains n = true := by
  split
  · assumption
  · simp

theorem mem_added {l : List Nat} (n : Nat) {a : Nat} (h : a ∈ l) : a ∈ (if l.contains n then l else l ++ [n]) := by
  split
  · exact h
  · exact List.mem_append_left _ h

/-! The MSI-X table. -/

/-- The word of a vector's data. -/
theorem State.readMsix_data {n : Nat} (hn : n < 2048) : s.readMsix (16 * n + 8) 4 =
    s.emit (.barOther 4 (16 * n + 8) (leBytes 4 (s.vectorAt n).data)) := by
  have hgood : bar0Good (16 * n + 8) 4 = true := by
    have halign : (16 * n + 8) % 4 = 0 := by omega
    have hin : 16 * n + 8 < 0x200000 := by omega
    simp [bar0Good, halign, hin]
  have hword : s.msixWord (16 * n + 8) = (s.vectorAt n).data := by
    have hvec : (16 * n + 8) / 16 = n := by omega
    have hpart : (16 * n + 8) % 16 / 4 = 2 := by omega
    unfold State.msixWord
    dsimp only
    rw [if_pos (by omega), hpart, hvec]
    rfl
  unfold State.readMsix
  rw [if_pos hgood]
  have hone : List.range (4 / 4) = [0] := rfl
  rw [hone, List.flatMap_singleton, Nat.mul_zero, Nat.add_zero, hword]

/-- A second write of an entry that the first has listed. -/
theorem tput_tput {α : Type} [DecidableEq α] {d : α} (t : Table α) (k : Nat) {a : α} (b : α) (h : a ≠ d) :
    tput d (tput d t k a) k b = tput d t k b := by
  have hins : tins k b (tins k a t) = tins k b t := by
    induction t with
    | nil => simp [tins]
    | cons e t ih =>
      obtain ⟨j, w⟩ := e
      by_cases hlt : k < j
      · simp [tins, hlt]
      · by_cases he : k = j
        · simp [tins, he]
        · simp [tins, hlt, he, ih]
  have hdel : tdel (tins k a t) k = tdel t k := by
    clear hins
    induction t with
    | nil => simp [tins, tdel]
    | cons e t ih =>
      obtain ⟨j, w⟩ := e
      unfold tdel at ih ⊢
      by_cases hlt : k < j
      · simp [tins, hlt]
      · by_cases he : k = j
        · simp [tins, he]
        · simp [tins, hlt, he, List.filter_cons, ih]
  unfold tput
  rw [if_neg h]
  split
  · exact hdel
  · exact hins

theorem Vector.write_pending (v : Vector) (word value : Nat) : (v.write word value).pending = v.pending := by
  unfold Vector.write
  split
  · rfl
  · rfl
  · rfl
  · rfl

/-- A write of a table word in a device that answers. -/
theorem exec_msixTableWrite (hu : s.barUp = true) (hh : s.halted = false) {offset : Nat} (ho : offset % 4 = 0)
    (hlt : offset < 0x8000) (value : Nat) : exec (.msixTableWrite offset value) s =
      .next ((s.setVector (offset / 16) ((s.vectorAt (offset / 16)).write (offset % 16 / 4) value)).unmasked (offset / 16)) := by
  refine congrArg Host.Outcome.next ((State.onDoorbell_of hu hh _ _).trans ?_)
  unfold State.writeMsix
  rw [if_neg]
  simp [ho, hlt]

theorem State.unmasked_quiet (n : Nat) {v : Vector} (h : v.pending = false) : (s.setVector n v).unmasked n = s.setVector n v := by
  have hv : (s.setVector n v).vectorAt n = v := tget_tput_same ..
  unfold State.unmasked
  dsimp only
  rw [hv, h]
  rfl

theorem State.unmasked_sends (n : Nat) {v : Vector} (h : v.pending = true) (hm : v.masked = false) (ho : s.linkOpen = true)
    (he : s.link.msixEn = true) (hf : s.link.funcMask = false) : (s.setVector n v).unmasked n =
      { s.setVector n { v with pending := false } with out := s.out ++ [.msix v.addr v.data] } := by
  have hv : (s.setVector n v).vectorAt n = v := tget_tput_same ..
  have hs : (s.setVector n v).silent v = false := by simp [State.silent, hm, he, hf]
  have hne : v ≠ Vector.reset := fun hr => by rw [hr] at h; exact absurd h (by decide)
  have hopen : (s.setVector n v).linkOpen = true := ho
  unfold State.unmasked
  dsimp only
  rw [hv, h, hs, hopen, if_pos (by decide)]
  unfold State.emit State.setVector
  dsimp only
  rw [tput_tput _ _ _ hne]

end

/-- Settles O29: each access through its lemma; a setting or a selector by evaluation. -/
theorem registerAccess : Obligations.RegisterAccess := by
  unfold Obligations.RegisterAccess
  constructor
  · intro s cfg set put gives
    refine ⟨fun hc v => ?_, fun hu hh hst v hv => ?_, fun hu hh hst => ?_⟩
    · obtain ⟨hu, hf, hs, hr⟩ := hc
      refine ⟨?_, ?_, ?_, ?_, ?_, ?_, fun h => ?_, fun h => ?_⟩
      iterate 6
        · exact congrArg Host.Outcome.next (State.onCfg_of hu hf hs hr _)
      · refine congrArg Host.Outcome.next ((State.onCfg_of hu hf hs hr _).trans ?_)
        rw [Link.write_maxPayload _ h]
      · refine congrArg Host.Outcome.next ((State.onCfg_of hu hf hs hr _).trans ?_)
        rw [Link.write_maxReadRequest _ h]
    · refine ⟨?_, ?_, ?_, ?_, ?_, ?_, ?_, ?_, fun hk => ?_, ?_⟩
      all_goals refine (exec_bar0Write hu hh hst rfl rfl hv).trans (congrArg Host.Outcome.next ?_)
      · change ({ s with hregs := { s.hregs with ringSel := bits v 15 0, ringKind := bit v 16 } } : State) = _
        simp [bits, bit]
      · change ({ s with hregs := { s.hregs with winSlice := bits v 9 0, winIndex := bits v 20 16 } } : State) = _
        simp [bits]
      · change ({ s with hregs := { s.hregs with mpuSel := bits v 5 0, mpuRegion := bits v 11 8 } } : State) = _
        simp [bits]
      · change ({ s with brine := { s.brine with bookSel := bits v 9 0 } } : State) = _
        simp [bits]
      · change ({ s with nv := { s.nv with partSel := bits v 5 0 } } : State) = _
        simp [bits]
      · change ({ s with nv := { s.nv with cntSel := bits v 11 0 } } : State) = _
        simp [bits]
      · rfl
      · rfl
      · change (if s.hregs.ringKind then s
          else (s.defer (.mod_ s.hregs.ringSel (bits v 7 0) (bits v 23 8))).sqErr s.hregs.ringSel 0 0x020018) = _
        rw [hk, if_neg (by decide)]
        simp [bits, State.sqErr]
      · rfl
    · have hread {o : Nat} (hgood : bar0Good o 4 = true) (hrng : o ≠ 0x090000) := exec_bar0Read hu hh hst hgood hrng
      refine ⟨hread rfl (by decide), hread rfl (by decide), hread rfl (by decide), fun u hle => ?_, hread rfl (by decide),
        hread rfl (by decide)⟩
      obtain ⟨hword, hclear⟩ := s.read_errCorr hle
      refine (hread ?_ ?_).trans ?_
      · have halign : (0x0A0100 + 4 * u) % 4 = 0 := by omega
        have hin : 0x0A0100 + 4 * u < 0x200000 := by omega
        simp [bar0Good, halign, hin]
      · omega
      · rw [hword, hclear]
        rfl
  · intro s
    refine ⟨fun hu hf h f => ?_, fun hu hf hs hr => ?_, fun hu offset size => ?_, fun hu n hn => ?_, fun hu hf hs hr bme pasidEn d3hot => ?_,
      fun hu offset => ?_, fun hu offset size hbad write => ?_, fun hs hf bit => ?_, fun hu hh offset value ho hlt => ?_⟩
    · exact congrArg Host.Outcome.next (State.onCfg_crs hu hf h _)
    · intro shows
      have hshow (f : CfgField) : shows f (s.link.read f) := congrArg Host.Outcome.next (State.onCfg_of hu hf hs hr _)
      exact ⟨hshow _, hshow _, hshow _, hshow _, hshow _, hshow _, hshow _, hshow _, hshow _, hshow _⟩
    · exact congrArg Host.Outcome.next (if_pos hu)
    · exact congrArg Host.Outcome.next ((if_pos hu).trans (State.readMsix_data hn))
    · obtain ⟨out, msix, ht⟩ := State.sendPending_eq
        { s with link := { s.link with bme := bme, pasidEn := pasidEn, d3hot := d3hot } }
      refine ⟨_, congrArg Host.Outcome.next ((State.onCfg_of hu hf hs hr _).trans ht), rfl, ⟨rfl, rfl, rfl, rfl, rfl⟩, rfl, fun hc => ?_⟩
      have hclosed : ({ s with link := { s.link with bme := bme, pasidEn := pasidEn, d3hot := d3hot } } : State).linkOpen = false := by
        rcases hc with rfl | rfl | rfl
        · rfl
        · simp [State.linkOpen]
        · simp [State.linkOpen]
      rw [State.sendPending_closed hclosed] at ht
      exact ⟨(congrArg State.out ht).symm, (congrArg State.msix ht).symm⟩
    · refine ⟨s.barRefused offset, congrArg Host.Outcome.next (if_pos (by simpa using hu)), rfl, ?_, ⟨_, rfl, rfl, rfl, rfl, rfl⟩, rfl⟩
      exact contains_added s.link.aer 52
    · refine ⟨_, congrArg Host.Outcome.next ((if_neg (by simp [hbad])).trans (if_pos hu)), ?_⟩
      cases write
      · exact ⟨⟨_, rfl, rfl, rfl, rfl, rfl⟩, rfl, rfl⟩
      · exact ⟨⟨_, rfl, rfl, rfl, rfl, rfl⟩, (List.append_nil _).symm, rfl⟩
    · refine ⟨_, congrArg Host.Outcome.next (if_neg (by simp [hs, hf])), ⟨_, rfl, rfl, rfl, rfl, rfl⟩,
        contains_added s.link.aer (aerBit bit), fun a ha => ?_, rfl⟩
      exact mem_added _ ha
    · intro n v
      have hi := exec_msixTableWrite hu hh ho hlt value
      refine ⟨fun hp => ?_, fun hw hp hb hopen hen hfm => ?_⟩
      · refine hi.trans (congrArg Host.Outcome.next (State.unmasked_quiet _ ?_))
        exact (Vector.write_pending ..).trans hp
      · refine hi.trans (congrArg Host.Outcome.next ((State.unmasked_sends _ ?_ ?_ hopen hen hfm).trans ?_))
        · exact (Vector.write_pending ..).trans hp
        · rw [hw]
          exact hb
        · rw [hw]
          change _ = ({ s.setVector n { v with masked := false, pending := false } with out := s.out ++ [.msix v.addr v.data] } : State)
          have hwrite : v.write (12 / 4) value = { v with masked := false } := congrArg (fun m => { v with masked := m }) hb
          rw [hwrite]

end Sys2Proof.Machine
end

section
/-! SUPPORT. Quotas, PASID and the dirty-page log of a slice (R58, R279, R285, R286, R300, R301). -/

namespace Sys2Proof.Machine
open Sys2Proof

section
variable {s : State} {n : Nat}

/-- A write to a slice entry that is refused and logged. -/
theorem State.plogSlice_logged (o err : Nat) : Logged s (s.plogSlice n o err) 0x04 err (sliceOff n o) :=
  ⟨_, rfl, rfl, rfl, rfl, rfl⟩

theorem State.setSlice_others (x : Slice) : OtherSlices s (s.setSlice n x) n := fun _ hk => State.setSlice_other s x hk

/-- A refused quota: QREF is set and the write logged. -/
theorem State.quotaRefused_of (o : Nat) : (s.quotaRefused n o).sliceAt n = { s.sliceAt n with qref := true } ∧
    Logged s (s.quotaRefused n o) 0x04 0 (sliceOff n o) ∧ OtherSlices s (s.quotaRefused n o) n ∧
      Untouched s (s.quotaRefused n o) :=
  ⟨State.setSlice_same .., ⟨_, rfl, rfl, rfl, rfl, rfl⟩, State.setSlice_others _, rfl, rfl, rfl, rfl, rfl⟩

theorem bits_eq {v hi : Nat} (h : v < 2 ^ (hi + 1)) : bits v hi 0 = v := by
  unfold bits
  rw [Nat.pow_zero, Nat.div_one, Nat.sub_zero, Nat.mod_eq_of_lt h]

/-- BASE of a 64-bit value. -/
theorem dplBase_eq {v : Nat} (h : v < 2 ^ 64) : v / 4096 * 4096 % 2 ^ 64 = v / 4096 * 4096 :=
  Nat.mod_eq_of_lt ((Nat.div_mul_le_self v 4096).trans_lt h)

end

/-- Settles O31, register by register. -/
theorem sliceRegisters : Obligations.SliceRegisters := by
  unfold Obligations.SliceRegisters
  intro s n v x writable becomes logs logged quota
  refine ⟨fun hw r => congrArg Host.Outcome.next (State.onReg_of hw _), fun hv => ?_, fun hlow hv => ?_, fun hv hodd => ?_,
    fun hmul hle hlines hfree hcounts => ?_, fun hv hfree => ?_, fun hst hco hv => ?_, fun hw => ⟨fun hv hne => ?_, fun hlow hv => ?_⟩,
    fun hw hv => ⟨fun hfree => ?_, fun hne => ?_⟩, fun hw hv => ?_, rfl, fun hw hv => ?_⟩
  · have hb : bits v 16 0 = v := bits_eq (by omega)
    constructor
    all_goals
      change (if 65536 < bits v 16 0 then _ else _) = _
      rw [hb, if_neg (by omega)]
  · have hb : bits v 16 0 = v := bits_eq hv
    have hsq : quota .sq = s.quotaRefused n 0x0C := if_pos (hb.symm ▸ hlow)
    have hcq : quota .cq = s.quotaRefused n 0x10 := if_pos (hb.symm ▸ hlow)
    rw [hsq, hcq]
    exact ⟨State.quotaRefused_of _, State.quotaRefused_of _⟩
  · have hb : bits v 18 0 = v := bits_eq hv
    have hq : quota .pan = s.quotaRefused n 0x14 := by
      refine if_pos ?_
      simp [hb, hodd]
    rw [hq]
    exact State.quotaRefused_of _
  · have hb : bits v 18 0 = v := bits_eq (by omega)
    refine (if_neg ?_).trans ?_
    · simp [hb, hmul, hle, hcounts, x, hfree]
    · rw [hb]
  · have hb : bits v 13 0 = v := bits_eq (by omega)
    refine (if_neg ?_).trans ?_
    · simp [hb, hv, x, hfree]
    · rw [hb]
  · have hq : quota .limits = (s.modSlice n (fun x => { x with strandQuota := v % 128 })).modSlice n
        (fun x => { x with coreQuota := v / 256 % 64 }) := by
      have h6 : bits v 6 0 = v % 128 := by simp [bits]
      have h13 : bits v 13 8 = v / 256 % 64 := by simp [bits]
      change (if 32 < bits v 13 8 then _ else State.modSlice (if 64 < bits v 6 0 then _ else _) n _) = _
      rw [h6, h13, if_neg (by omega), if_neg (by omega)]
    rw [hq]
    refine ⟨(State.setSlice_same ..).trans ?_, fun k hk => ?_, rfl, rfl, rfl, rfl, rfl⟩
    · exact congrArg (fun y : Slice => { y with coreQuota := v / 256 % 64 }) (State.setSlice_same s n _)
    · exact (State.setSlice_other _ _ hk).trans (State.setSlice_other _ _ hk)
  · have hb : bits v 7 0 = v := bits_eq (by omega)
    refine congrArg Host.Outcome.next ((State.onReg_of hw _).trans ((if_neg ?_).trans ?_))
    · simp [hb, hv, x, hne]
    · rw [hb]
  · have hb : bits v 7 0 = v := bits_eq (by omega)
    refine ⟨s.tokenRefused n, congrArg Host.Outcome.next ((State.onReg_of hw _).trans (if_pos ?_)), rfl, rfl,
      ⟨_, rfl, rfl, rfl, rfl, rfl⟩, rfl, rfl, rfl, rfl, rfl⟩
    simp [hb, hlow]
  · have hb : bits v 19 0 = v := bits_eq hv
    refine congrArg Host.Outcome.next ((State.onReg_of hw _).trans ((if_pos ?_).trans ?_))
    · simpa using hfree
    · rw [hb]
      rfl
  · refine ⟨s.plogSlice n 0x08 0, congrArg Host.Outcome.next ((State.onReg_of hw _).trans (if_neg ?_)), rfl,
      State.plogSlice_logged .., fun _ _ => rfl, rfl, rfl, rfl, rfl, rfl⟩
    simpa using hne
  · have hbase := dplBase_eq hv
    have hi : exec (.dplEnable n v) s = .next (s.dplCtl n v) := congrArg Host.Outcome.next (State.onReg_of hw _)
    intro y
    refine ⟨fun hbit => ?_, fun hbit hen => ?_, fun hbit hen hr => ?_, fun hbit hen hr => ?_⟩
    · refine hi.trans (congrArg Host.Outcome.next ?_)
      unfold State.dplCtl
      dsimp only
      rw [hbase, bit, hbit, if_pos (by decide)]
    · refine hi.trans (congrArg Host.Outcome.next ?_)
      unfold State.dplCtl
      dsimp only
      rw [hbase, bit, hbit, if_neg (by decide), if_pos hen]
    · refine hi.trans (congrArg Host.Outcome.next ?_)
      unfold State.dplCtl
      dsimp only
      rw [hbase, bit, hbit, if_neg (by decide), if_neg (by simp [x, hen]), if_pos hr]
    · refine ⟨(s.setSlice n { y with dplAccess := true }).plogSlice n 0x30 0, hi.trans (congrArg Host.Outcome.next ?_), ?_⟩
      · unfold State.dplCtl
        dsimp only
        rw [hbase, bit, hbit, if_neg (by decide), if_neg (by simp [x, hen]), if_neg (by simp [hr])]
      · exact ⟨State.setSlice_same .., ⟨_, rfl, rfl, rfl, rfl, rfl⟩, State.setSlice_others _, rfl, rfl, rfl, rfl, rfl⟩
  · have hb : bits v 15 0 = v := bits_eq (by omega)
    refine congrArg Host.Outcome.next ((State.onReg_of hw _).trans ?_)
    unfold State.dplConsume
    rw [hb]
    rfl

end Sys2Proof.Machine
end

section
/-! SUPPORT. The commands of a slice at the boundary at which they take effect (R281 to R294). -/

namespace Sys2Proof.Machine
open Sys2Proof

/-! The reset of a slice (R291, R294). -/

/-- From `s` to `t` work of slice `n` has been given up: no work has come, the window stands, of the slices only late and
dropped counters of slice `n` have changed. -/
structure GivesUp (n : Nat) (s t : State) : Prop where
  work : ∀ w ∈ t.work, w ∈ s.work
  brine : t.brine = s.brine
  others : OtherSlices s t n
  own : (t.sliceAt n).st = (s.sliceAt n).st ∧ (t.sliceAt n).gen = (s.sliceAt n).gen ∧
    (t.sliceAt n).removing = (s.sliceAt n).removing

theorem GivesUp.refl (n : Nat) (s : State) : GivesUp n s s := ⟨fun _ h => h, rfl, fun _ _ => rfl, rfl, rfl, rfl⟩

theorem GivesUp.trans {n : Nat} {s t u : State} (h : GivesUp n s t) (h' : GivesUp n t u) : GivesUp n s u where
  work w hw := h.work w (h'.work w hw)
  brine := h'.brine.trans h.brine
  others k hk := (h'.others k hk).trans (h.others k hk)
  own := by
    obtain ⟨hst, hgen, hrem⟩ := h.own
    obtain ⟨hst', hgen', hrem'⟩ := h'.own
    exact ⟨hst'.trans hst, hgen'.trans hgen, hrem'.trans hrem⟩

/-- A change that leaves slices and window, and adds no work. -/
theorem GivesUp.of_eq {n : Nat} {s t : State} (hw : ∀ w ∈ t.work, w ∈ s.work) (hb : t.brine = s.brine)
    (hs : t.slices = s.slices) : GivesUp n s t :=
  ⟨hw, hb, fun k _ => by rw [State.sliceAt, hs]; rfl, by rw [State.sliceAt, hs]; exact ⟨rfl, rfl, rfl⟩⟩

/-- A change of the slice that leaves state, generation and removal. -/
theorem State.modSlice_givesUp (s : State) (n : Nat) {f : Slice → Slice}
    (hf : ∀ x, (f x).st = x.st ∧ (f x).gen = x.gen ∧ (f x).removing = x.removing) : GivesUp n s (s.modSlice n f) := by
  refine ⟨fun _ h => h, rfl, fun k hk => State.setSlice_other s _ hk, ?_⟩
  have hs := State.setSlice_same s n (f (s.sliceAt n))
  obtain ⟨hst, hgen, hrem⟩ := hf (s.sliceAt n)
  exact ⟨(congrArg Slice.st hs).trans hst, (congrArg Slice.gen hs).trans hgen, (congrArg Slice.removing hs).trans hrem⟩

section
variable (s : State) (w : Work)

theorem State.dropWork_givesUp (n id : Nat) : GivesUp n s (s.dropWork id) :=
  .of_eq (fun _ h => (List.mem_filter.mp h).1) rfl rfl

/-- The work itself is gone. -/
theorem State.dropWork_gone (id : Nat) : ∀ v ∈ (s.dropWork id).work, v.id ≠ id := fun v hv => by
  simpa using (List.mem_filter.mp hv).2

theorem State.countLate_givesUp (n : Nat) (conds : List Nat) : GivesUp n s (s.countLate n conds) := by
  unfold State.countLate
  split
  iterate 6
    · exact s.modSlice_givesUp n fun _ => ⟨rfl, rfl, rfl⟩
  · exact .refl n s

theorem State.dropWrites_givesUp : GivesUp w.slice s (s.dropWrites w) := by
  unfold State.dropWrites
  refine GivesUp.trans ?_ (State.modSlice_givesUp _ _ fun _ => ⟨rfl, rfl, rfl⟩)
  exact (s.dropWork_givesUp _ _).trans (State.countLate_givesUp _ _ _)

theorem State.abandon_givesUp (n : Nat) : GivesUp n s (s.abandon w) := by
  have hd (s : State) : GivesUp n s (s.dropCollect w.id) := by
    unfold State.dropCollect
    split
    · split
      · exact .of_eq (fun _ h => h) rfl rfl
      · exact .refl n s
    · exact .refl n s
  unfold State.abandon
  have hr : GivesUp n s (s.releaseUnits w.id) := .of_eq (fun _ h => h) rfl rfl
  exact (hr.trans (hd _)).trans (State.dropWork_givesUp _ _ _)

theorem State.endWriteBack_givesUp (n : Nat) : GivesUp n s (s.endWriteBack w) := .of_eq (fun _ h => h) rfl rfl

/-- Each kind of work at a reset. -/
theorem State.resetWork_givesUp : GivesUp w.slice s (s.resetWork w) := by
  have hend : GivesUp w.slice s ((s.endWriteBack w).abandon w) :=
    (s.endWriteBack_givesUp w _).trans (State.abandon_givesUp _ _ _)
  unfold State.resetWork
  split
  · exact s.dropWork_givesUp _ _
  split
  · exact .refl _ s
  split
  · split
    · exact s.dropWrites_givesUp w
    · exact .refl _ s
  split
  · exact s.dropWork_givesUp _ _
  split
  · split
    · next h =>
      unfold State.muteCheckpoint at h
      split at h
      · split at h
        · obtain rfl := Option.some.inj h
          exact .of_eq (fun _ h => h) rfl rfl
        · exact absurd h (by simp)
      · exact absurd h (by simp)
    · exact hend
  split
  · exact .refl _ s
  split
  · exact .refl _ s
  · exact hend

/-- Work that waits is gone, unless it stands in its commit grain. -/
theorem State.resetWork_waiting (h : w.waiting = true) : s.standsAt w.id = true ∨ ∀ v ∈ (s.resetWork w).work, v.id ≠ w.id := by
  have hdone : w.isDone = false := by
    unfold Work.waiting at h
    unfold Work.isDone
    split at h
    · next hp => rw [hp]
    · next hp => rw [hp]
    · exact absurd h Bool.false_ne_true
  unfold State.resetWork
  split
  · exact .inr (s.dropWork_gone _)
  split
  · next hs => exact .inl hs
  · rw [hdone, if_neg (by decide)]
    exact .inr (s.dropWork_gone _)

end

/-- All work of a slice at its reset: what waited is gone or stands. -/
theorem foldl_resetWork {n : Nat} (ws : List Work) (s : State) (hws : ∀ w ∈ ws, w.slice = n) :
    GivesUp n s (ws.foldl (fun s w => s.resetWork w) s) ∧
      ∀ w ∈ ws, w.waiting = true → s.standsAt w.id = true ∨
        ∀ v ∈ (ws.foldl (fun s w => s.resetWork w) s).work, v.id ≠ w.id := by
  induction ws generalizing s with
  | nil => exact ⟨.refl n s, fun _ h => absurd h List.not_mem_nil⟩
  | cons w ws ih =>
    have hw : GivesUp n s (s.resetWork w) := hws w List.mem_cons_self ▸ s.resetWork_givesUp w
    obtain ⟨hrest, hgone⟩ := ih (s.resetWork w) fun v hv => hws v (List.mem_cons_of_mem w hv)
    refine ⟨hw.trans hrest, fun v hv hwait => ?_⟩
    obtain rfl | hv := List.mem_cons.mp hv
    · exact (s.resetWork_waiting v hwait).imp_right fun hg u hu => hg u (hrest.work u hu)
    · have hst : (s.resetWork w).standsAt v.id = s.standsAt v.id := by rw [State.standsAt, hw.brine]; rfl
      exact hst ▸ hgone v hv hwait

theorem mem_reexecAux {e : Entry} {bad : List (Nat × Bool)} {l : List Entry} (h : e ∈ (reexecAux bad l).1) :
    ∃ x ∈ l, e.slice = x.slice ∧ e.stands = x.stands := by
  induction l generalizing bad with
  | nil => exact absurd h List.not_mem_nil
  | cons x l ih =>
    unfold reexecAux at h
    split at h
    · obtain rfl | h := List.mem_cons.mp h
      · exact ⟨x, List.mem_cons_self, rfl, rfl⟩
      · obtain ⟨y, hy, he⟩ := ih h
        exact ⟨y, List.mem_cons_of_mem x hy, he⟩
    · obtain rfl | h := List.mem_cons.mp h
      · exact ⟨e, List.mem_cons_self, rfl, rfl⟩
      · obtain ⟨y, hy, he⟩ := ih h
        exact ⟨y, List.mem_cons_of_mem x hy, he⟩

/-- What is left of the window: nothing that the condition names. -/
theorem State.dropEntries_left {s : State} {p : Entry → Bool}
    (hp : ∀ e x : Entry, e.slice = x.slice → e.stands = x.stands → p e = p x) : ∀ e ∈ (s.dropEntries p).brine.entries, p e = false := by
  intro e he
  obtain ⟨x, hx, hslice, hstands⟩ := mem_reexecAux he
  rw [hp e x hslice hstands]
  simpa using (List.mem_filter.mp hx).2

theorem State.dropEntries_eq (s : State) (p : Entry → Bool) : ∃ books brine,
    s.dropEntries p = { s with books := books, brine := brine } := by
  have hfold (es : List Entry) (s : State) : ∃ books,
      es.foldl (fun s e => s.modBook e.book (fun b => { b with reserved := b.reserved - e.reserved })) s =
        { s with books := books } := by
    induction es generalizing s with
    | nil => exact ⟨_, rfl⟩
    | cons e es ih =>
      obtain ⟨books, h⟩ := ih (s.modBook e.book (fun b => { b with reserved := b.reserved - e.reserved }))
      exact ⟨books, h⟩
  obtain ⟨books, h⟩ := hfold (s.brine.entries.filter p) s
  unfold State.dropEntries
  dsimp only
  rw [h]
  exact ⟨_, _, rfl⟩

theorem State.discardFetch_eq (s : State) (n : Nat) : ∃ sq reads, s.discardFetch n = { s with sq := sq, reads := reads } := by
  have hfold (l : List (Nat × Sq)) (s : State) : ∃ sq reads, l.foldl (fun s e =>
      (s.modSq e.1 (fun q => { q with carry := [], refetch := none })).modFetch e.1 (fun r => { r with discard := true })) s =
        { s with sq := sq, reads := reads } := by
    induction l generalizing s with
    | nil => exact ⟨_, _, rfl⟩
    | cons e l ih =>
      obtain ⟨sq, reads, h⟩ := ih ((s.modSq e.1 (fun q => { q with carry := [], refetch := none })).modFetch e.1
        (fun r => { r with discard := true }))
      exact ⟨sq, reads, h⟩
  exact hfold _ s

/-- The reset of a slice up to its work: the new generation, the fetches and the entries. -/
theorem State.startReset_eq (s : State) (n : Nat) (remove : Bool) : ∃ v : State, (∀ k, v.sliceAt k = (s.setSlice n { s.sliceAt n with
      gen := ((s.sliceAt n).gen + 1) % 256, st := .resetting, removing := remove }).sliceAt k) ∧
    (∀ e ∈ v.brine.entries, (e.slice == n && !e.stands) = false) ∧
    s.startReset n remove = (v.work.filter (fun w => w.slice == n)).foldl (fun s w => s.resetWork w) v := by
  let u := s.modSlice n (fun x => { x with gen := (x.gen + 1) % 256, st := .resetting, removing := remove })
  obtain ⟨sq, reads, hd⟩ := u.discardFetch_eq n
  let p (e : Entry) : Bool := e.slice == n && !e.stands
  obtain ⟨books, brine, he⟩ := ((u.discardFetch n).standInK n).dropEntries_eq p
  have hleft := State.dropEntries_left (s := (u.discardFetch n).standInK n) (p := p)
    fun e x hslice hstands => by simp only [p, hslice, hstands]
  refine ⟨(((u.discardFetch n).standInK n).dropEntries p).modBook n (fun b => { b with hold := none }), fun k => ?_, hleft, rfl⟩
  rw [he, hd]
  rfl

/-- RESET and REMOVE begin (R291). -/
theorem State.startReset_of (s : State) (n : Nat) (remove : Bool) : let t := s.startReset n remove
    ((t.sliceAt n).st = .resetting ∧ (t.sliceAt n).gen = ((s.sliceAt n).gen + 1) % 256 ∧ (t.sliceAt n).removing = remove) ∧
    (∀ e ∈ t.brine.entries, e.slice = n → e.stands = true) ∧
    (∀ w ∈ t.work, w.slice = n → w.waiting = true → t.standsAt w.id = true) ∧ OtherSlices s t n ∧ t.keys = s.keys ∧
    ∀ k, (t.bookAt k).st = (s.bookAt k).st ∧ (t.bookAt k).lseq = (s.bookAt k).lseq := by
  obtain ⟨v, hslices, hentries, ht⟩ := s.startReset_eq n remove
  obtain ⟨hgives, hgone⟩ := foldl_resetWork (n := n) (v.work.filter (fun w => w.slice == n)) v
    fun w hw => by simpa using (List.mem_filter.mp hw).2
  rw [← ht] at hgives hgone
  have hres := s.startReset_resets n remove
  obtain ⟨hst, hgen, hrem⟩ := hgives.own
  have hown : v.sliceAt n = _ := (hslices n).trans (State.setSlice_same ..)
  refine ⟨⟨hst.trans (congrArg Slice.st hown), hgen.trans (congrArg Slice.gen hown), hrem.trans (congrArg Slice.removing hown)⟩,
    fun e he hn => ?_, fun w hw hn hwait => ?_, fun k hk => ?_, hres.keys, fun k => ⟨(hres.book k).1, (hres.book k).2.1⟩⟩
  · rw [hgives.brine] at he
    simpa [hn] using hentries e he
  · have hmem : w ∈ v.work.filter (fun w => w.slice == n) := List.mem_filter.mpr ⟨hgives.work w hw, by simpa using hn⟩
    have hs := (hgone w hmem hwait).resolve_right fun hg => hg w hw rfl
    rw [State.standsAt, hgives.brine]
    exact hs
  · exact (hgives.others k hk).trans ((hslices k).trans (State.setSlice_other _ _ hk))

/-! The other commands. -/

section
variable {s : State} {n : Nat}

theorem State.modSlice_untouched (s : State) (f : Slice → Slice) : Untouched s (s.modSlice n f) := ⟨rfl, rfl, rfl, rfl, rfl⟩

/-- A refused token quota is noted and logged: nothing else of the device changes (R58). -/
theorem State.tokenRefused_frame (s : State) : (s.tokenRefused n).slices = s.slices ∧ Untouched s (s.tokenRefused n) :=
  ⟨rfl, rfl, rfl, rfl, rfl, rfl⟩

theorem Untouched.trans {s t u : State} (h : Untouched s t) (h' : Untouched t u) : Untouched s u := by
  obtain ⟨hb, hp, hk, hn, hw⟩ := h
  obtain ⟨hb', hp', hk', hn', hw'⟩ := h'
  exact ⟨hb'.trans hb, hp'.trans hp, hk'.trans hk, hn'.trans hn, hw'.trans hw⟩

/-- The tokens of a slice that becomes ACTIVE (R57, R58). -/
theorem State.tokensIn_of (s : State) (n : Nat) : (∃ force left quota, (s.tokensIn n).sliceAt n =
      { s.sliceAt n with tokForce := force, tokLeft := left, tokQuota := quota }) ∧
    OtherSlices s (s.tokensIn n) n ∧ Untouched s (s.tokensIn n) := by
  let u := s.modSlice n (fun x => { x with tokForce := 0, tokLeft := 0 })
  let v := u.modSlice n (fun x => { x with tokQuota := 0 })
  have hu : u.sliceAt n = { s.sliceAt n with tokForce := 0, tokLeft := 0 } := State.setSlice_same ..
  have huo : OtherSlices s u n := State.setSlice_others _
  have hv : v.sliceAt n = { u.sliceAt n with tokQuota := 0 } := State.setSlice_same ..
  have hvo : OtherSlices u v n := State.setSlice_others _
  have htouch : Untouched s u := s.modSlice_untouched _
  have htouch' : Untouched u v := u.modSlice_untouched _
  obtain ⟨hslices, hrefused⟩ := v.tokenRefused_frame (n := n)
  have hr (k : Nat) : (v.tokenRefused n).sliceAt k = v.sliceAt k := congrArg (tget Slice.reset · k) hslices
  have ht : s.tokensIn n = if 128 < u.tokenSum then v.tokenRefused n else u := rfl
  rw [ht]
  split
  · rw [hu] at hv
    exact ⟨⟨0, 0, 0, (hr n).trans hv⟩, fun k hk => (hr k).trans ((hvo k hk).trans (huo k hk)),
      htouch.trans (htouch'.trans hrefused)⟩
  · exact ⟨⟨0, 0, _, hu⟩, huo, htouch⟩

theorem State.sliceErr_of (err : Nat) : Logged s (s.sliceErr n err) 0x04 err (sliceOff n 0) ∧
    (s.sliceErr n err).sliceAt n = { s.sliceAt n with err := err } ∧ OtherSlices s (s.sliceErr n err) n ∧
      Untouched s (s.sliceErr n err) :=
  ⟨⟨_, rfl, rfl, rfl, rfl, rfl⟩, State.setSlice_same .., State.setSlice_others _, rfl, rfl, rfl, rfl, rfl⟩

/-- An accepted RESET or REMOVE clears ERR first. -/
theorem State.startReset_cleared (remove : Bool) :
    let t := (s.modSlice n (fun x => { x with err := 0 })).startReset n remove
    ((t.sliceAt n).st = .resetting ∧ (t.sliceAt n).gen = ((s.sliceAt n).gen + 1) % 256 ∧ (t.sliceAt n).removing = remove) ∧
    (∀ e ∈ t.brine.entries, e.slice = n → e.stands = true) ∧
    (∀ w ∈ t.work, w.slice = n → w.waiting = true → t.standsAt w.id = true) ∧ OtherSlices s t n ∧ t.keys = s.keys ∧
    ∀ k, (t.bookAt k).st = (s.bookAt k).st ∧ (t.bookAt k).lseq = (s.bookAt k).lseq := by
  let u := s.modSlice n (fun x => { x with err := 0 })
  have hu : u.sliceAt n = _ := State.setSlice_same ..
  obtain ⟨⟨hst, hgen, hrem⟩, hentries, hwork, hother, hkeys, hbooks⟩ := u.startReset_of n remove
  rw [hu] at hgen
  exact ⟨⟨hst, hgen, hrem⟩, hentries, hwork, fun k hk => (hother k hk).trans (State.setSlice_other s _ hk), hkeys, hbooks⟩

theorem Slice.live_of {x : Slice} (h : x.st = .active ∨ x.st = .quiescing) : x.live_ = true := by
  rcases h with h | h
  · simp [Slice.live_, h]
  · simp [Slice.live_, h]

/-- The rings of the slice are cleared (R291). -/
theorem foldl_cleared_eq (rs : List Nat) (s : State) : ∃ sq, rs.foldl (fun s r => s.modSq r Sq.cleared) s = { s with sq := sq } := by
  induction rs generalizing s with
  | nil => exact ⟨_, rfl⟩
  | cons r rs ih =>
    obtain ⟨sq, h⟩ := ih (s.modSq r Sq.cleared)
    exact ⟨sq, h⟩

/-- The end of a reset. -/
theorem State.resetDone_of (hst : (s.sliceAt n).st = .resetting) (hret : (s.sliceAt n).retiring = false)
    (hgone : s.oldWorkGone n = true) : ∃ sq, s.resetDone n =
      if (s.sliceAt n).removing then { s with sq := sq }.removeSlice n
      else ({ s with sq := sq }.modSlice n (fun x => { x with st := .active })).tokensIn n := by
  obtain ⟨sq, h⟩ := foldl_cleared_eq (s.ringsOf n) s
  refine ⟨sq, ?_⟩
  unfold State.resetDone
  dsimp only
  rw [hst, hret, hgone, if_neg (by decide), h]

end

/-- Settles O30, command by command. -/
theorem sliceCommands : Obligations.SliceCommands := by
  unfold Obligations.SliceCommands
  intro s n x live effect gone refused
  refine ⟨fun hw => ?_, fun hfree herr => ?_, fun hne => ?_, fun hst => ?_, fun hne => ?_, fun hst => ?_, fun hlive => ?_,
    fun hlive hbook hacc => ?_, fun hlive hbook => ?_, fun hst hret hgone => ⟨fun hrem => ?_, fun hrem => ?_⟩,
    fun hret hold => ?_⟩
  · exact ⟨congrArg Host.Outcome.next (State.onReg_of hw _), congrArg Host.Outcome.next (State.onReg_of hw _),
      congrArg Host.Outcome.next (State.onReg_of hw _), congrArg Host.Outcome.next (State.onReg_of hw _),
      congrArg Host.Outcome.next (State.onReg_of hw _)⟩
  · have ht : effect 1 = (s.modSlice n Slice.activated).tokensIn n := by
      refine (if_neg (by simpa [x] using hfree)).trans ?_
      rw [herr]
      rfl
    have hu : (s.modSlice n Slice.activated).sliceAt n = x.activated := State.setSlice_same ..
    obtain ⟨⟨force, left, quota, hown⟩, hother, htouch⟩ := (s.modSlice n Slice.activated).tokensIn_of n
    rw [hu] at hown
    rw [ht]
    dsimp only
    rw [hown]
    exact ⟨rfl, rfl, rfl, rfl, fun k hk => (hother k hk).trans (State.setSlice_other s _ hk), htouch⟩
  · have ht : effect 1 = s.sliceErr n 1 := if_pos (by simpa [x] using hne)
    simp only [refused, ht]
    exact State.sliceErr_of 1
  · exact if_neg (by simpa [x] using hst)
  · have ht : effect 2 = s.sliceErr n 1 := if_pos (by simpa [x] using hne)
    simp only [refused, ht]
    exact State.sliceErr_of 1
  · have ht : effect 3 = (s.modSlice n (fun x => { x with st := .active, err := 0 })).tokensIn n :=
      if_neg (by simpa [x] using hst)
    have hu : (s.modSlice n (fun x => { x with st := .active, err := 0 })).sliceAt n = _ := State.setSlice_same ..
    obtain ⟨⟨force, left, quota, hown⟩, hother, htouch⟩ :=
      (s.modSlice n (fun x => { x with st := .active, err := 0 })).tokensIn_of n
    rw [hu] at hown
    rw [ht]
    dsimp only
    rw [hown]
    exact ⟨rfl, rfl, fun k hk => (hother k hk).trans (State.setSlice_other s _ hk), htouch⟩
  · have hl : (s.sliceAt n).live_ = true := Slice.live_of hlive
    have ht : effect 4 = (s.modSlice n (fun x => { x with err := 0 })).startReset n false :=
      if_neg (by simp [hl])
    obtain ⟨⟨hst, hgen, hrem⟩, hrest⟩ := State.startReset_cleared (s := s) (n := n) false
    rw [ht]
    exact ⟨hst, hgen, hrem, hrest⟩
  · have hl : (s.sliceAt n).live_ = true := Slice.live_of hlive
    have ht : effect 5 = (s.modSlice n (fun x => { x with err := 0 })).startReset n true :=
      (if_neg (by simp [hl])).trans (if_neg (by simp [hbook, hacc]))
    obtain ⟨⟨hst, -, hrem⟩, hrest⟩ := State.startReset_cleared (s := s) (n := n) true
    rw [ht]
    exact ⟨hst, hrem, hrest⟩
  · have hl : (s.sliceAt n).live_ = true := Slice.live_of hlive
    have ht : effect 5 = s.sliceErr n 2 := (if_neg (by simp [hl])).trans (if_pos (by simp [hbook]))
    simp only [refused, ht]
    exact State.sliceErr_of 2
  · obtain ⟨sq, ht⟩ := State.resetDone_of hst hret hgone
    rw [hrem, if_neg (by decide)] at ht
    let u : State := { s with sq := sq }
    have hu : (u.modSlice n (fun x => { x with st := .active })).sliceAt n = _ := State.setSlice_same ..
    obtain ⟨⟨force, left, quota, hown⟩, hother, htouch⟩ := (u.modSlice n (fun x => { x with st := .active })).tokensIn_of n
    rw [hu] at hown
    refine ⟨_, congrArg Host.Outcome.next ht, ?_, fun k hk => (hother k hk).trans (State.setSlice_other u _ hk), htouch⟩
    rw [hown]
  · obtain ⟨sq, ht⟩ := State.resetDone_of hst hret hgone
    rw [hrem, if_pos (by decide)] at ht
    have hown : (({ s with sq := sq } : State).removeSlice n).sliceAt n = _ := State.setSlice_same ..
    refine ⟨_, congrArg Host.Outcome.next ht, ?_⟩
    rw [hown]
    refine ⟨hst, rfl, rfl, fun e he => ?_, fun hw k => tget_tmap (f := fun e : Window => { e with en := false }) hw rfl k, fun e he => ?_, fun e he => ?_, fun e he hopen => ?_,
      fun k hk => State.setSlice_other _ _ hk, rfl⟩
    · obtain ⟨y, -, rfl⟩ := List.mem_map.mp (List.mem_filter.mp he).1
      rfl
    · simpa using (List.mem_filter.mp he).2
    · simpa using (List.mem_filter.mp he).2
    · simpa [hopen] using (List.mem_filter.mp he).2
  · refine congrArg Host.Outcome.next (if_pos ?_)
    simp [x] at hret
    simp [hret, hold]

end Sys2Proof.Machine
end

section
/-! SUPPORT. Window barriers and the programming of the master MPUs (R309 to R325). -/

namespace Sys2Proof.Machine
open Sys2Proof

/-! One MPU. -/

section
variable {s : State}

theorem State.setMpu_same {m : Nat} (h : m < s.mpus.length) (v : Mpu) : (s.setMpu m v).mpuAt m = v := by
  simp [State.mpuAt, State.setMpu, List.getD_eq_getElem?_getD, h]

theorem State.setMpu_other {m k : Nat} (v : Mpu) (h : k ≠ m) : (s.setMpu m v).mpuAt k = s.mpuAt k := by
  simp [State.mpuAt, State.setMpu, List.getD_eq_getElem?_getD, List.getElem?_set_ne (Ne.symm h)]

/-- A change of an MPU does nothing where there is none. -/
theorem State.mpuAt_modMpu (m k : Nat) (f : Mpu → Mpu) : (s.modMpu m f).mpuAt k = s.mpuAt k ∨
    (k = m ∧ (s.modMpu m f).mpuAt k = f (s.mpuAt k)) := by
  by_cases hk : k = m
  · subst hk
    by_cases h : k < s.mpus.length
    · exact .inr ⟨rfl, State.setMpu_same h _⟩
    · refine .inl ?_
      unfold State.modMpu State.setMpu State.mpuAt
      rw [List.set_eq_of_length_le (Nat.not_lt.mp h)]
  · exact .inl (State.setMpu_other _ hk)

end

/-- From `s` to `t` accesses have been checked: MPU `k` has its buffer, and but for the one of the management core its regions
and its BUFW. -/
structure Port (k : Nat) (s t : State) : Prop where
  length : t.mpus.length = s.mpus.length
  wbuf : (t.mpuAt k).wbuf = (s.mpuAt k).wbuf
  own : k ≠ masterMgmt → (t.mpuAt k).bufw = (s.mpuAt k).bufw ∧ (t.mpuAt k).regions = (s.mpuAt k).regions

theorem Port.of_eq {k : Nat} {s t : State} (h : t.mpus = s.mpus) : Port k s t := by
  have ha : t.mpuAt k = s.mpuAt k := by rw [State.mpuAt, h]; rfl
  exact ⟨by rw [h], by rw [ha], fun _ => by rw [ha]; exact ⟨rfl, rfl⟩⟩

theorem Port.refl (k : Nat) (s : State) : Port k s s := .of_eq rfl

theorem Port.trans {k : Nat} {s t u : State} (h : Port k s t) (h' : Port k t u) : Port k s u where
  length := h'.length.trans h.length
  wbuf := h'.wbuf.trans h.wbuf
  own hk := ⟨(h'.own hk).1.trans (h.own hk).1, (h'.own hk).2.trans (h.own hk).2⟩

section
variable {k : Nat} (s : State)

theorem State.modMpu_port (m : Nat) {f : Mpu → Mpu} (hw : ∀ x, (f x).wbuf = x.wbuf)
    (hf : m ≠ masterMgmt → ∀ x, (f x).bufw = x.bufw ∧ (f x).regions = x.regions) : Port k s (s.modMpu m f) := by
  refine ⟨List.length_set .., ?_, fun hk => ?_⟩
  · obtain h | ⟨-, h⟩ := s.mpuAt_modMpu m k f
    · rw [h]
    · rw [h, hw]
  · obtain h | ⟨hm, h⟩ := s.mpuAt_modMpu m k f
    · rw [h]
      exact ⟨rfl, rfl⟩
    · rw [h]
      exact hf (hm ▸ hk) _

theorem State.violation_port (master slice a : Nat) (write precise : Bool) (v : Verdict) :
    Port k s (s.violation master slice a write precise v) := by
  cases v with
  | pass r => exact .refl k s
  | mpu noRegion j =>
    exact (s.modMpu_port (f := fun m => { m with viol := m.viol + 1, cap := _ }) master (fun _ => rfl) fun _ _ => ⟨rfl, rfl⟩).trans
      (.of_eq rfl)
  | window noWindow => exact .of_eq rfl

theorem State.fwRegion_port (master addr len : Nat) : Port k s (s.fwRegion master addr len) := by
  unfold State.fwRegion
  split
  · exact s.modMpu_port 44 (fun _ => rfl) fun h => absurd rfl h
  · exact .refl k s

theorem State.writeParts_port (master slice : Nat) (t : Traffic) (precise : Bool) (base : Nat) (data : Bytes)
    (ps : List (Nat × Nat)) : Port k s (s.writeParts master slice t precise base data ps).1 := by
  induction ps generalizing s with
  | nil => exact .refl k s
  | cons p ps ih =>
    unfold State.writeParts
    split
    · exact Port.trans (t := s.emitWrite ..) (.of_eq rfl) (ih _)
    · exact s.violation_port ..

theorem State.rawWrite_port (master slice : Nat) (t : Traffic) (precise : Bool) (addr : Nat) (data : Bytes) :
    Port k s (s.rawWrite master slice t precise addr data).1 :=
  (s.fwRegion_port ..).trans (State.writeParts_port ..)

theorem State.dplEntry_port (slice source page : Nat) : Port k s (s.dplEntry slice source page) := by
  unfold State.dplEntry
  dsimp only
  split
  · exact .refl k s
  split
  · exact .of_eq rfl
  split
  · exact (s.rawWrite_port ..).trans (.of_eq rfl)
  · exact (s.rawWrite_port ..).trans (.of_eq rfl)

theorem State.dplNote_port (slice : Nat) (t : Traffic) (addr len : Nat) : Port k s (s.dplNote slice t addr len) := by
  have hpage (s : State) (page : Nat) : Port k s (s.dplPage slice t page) := by
    unfold State.dplPage
    split
    · exact s.dplEntry_port ..
    split
    · exact .of_eq rfl
    · exact .refl k s
  unfold State.dplNote
  split
  · exact .refl k s
  · generalize List.range ((addr + len - 1) / 4096 + 1 - addr / 4096) = l
    induction l generalizing s with
    | nil => exact .refl k s
    | cons i l ih => exact (hpage s _).trans (ih _)

theorem State.writeNow_port (master slice : Nat) (t : Traffic) (precise : Bool) (addr : Nat) (data : Bytes) :
    Port k s (s.writeNow master slice t precise addr data).1 :=
  (s.rawWrite_port ..).trans (State.dplNote_port ..)

end

/-- From `s` to `t` buffers have drained: MPU `k` has its regions and its BUFW. -/
structure Drains (k : Nat) (s t : State) : Prop where
  length : t.mpus.length = s.mpus.length
  bufw : (t.mpuAt k).bufw = (s.mpuAt k).bufw
  regions : (t.mpuAt k).regions = (s.mpuAt k).regions

theorem Drains.of_eq {k : Nat} {s t : State} (h : t.mpus = s.mpus) : Drains k s t := by
  have ha : t.mpuAt k = s.mpuAt k := by rw [State.mpuAt, h]; rfl
  exact ⟨by rw [h], by rw [ha], by rw [ha]⟩

theorem Drains.trans {k : Nat} {s t u : State} (h : Drains k s t) (h' : Drains k t u) : Drains k s u :=
  ⟨h'.length.trans h.length, h'.bufw.trans h.bufw, h'.regions.trans h.regions⟩

theorem Port.drains {k : Nat} {s t : State} (h : Port k s t) (hk : k ≠ masterMgmt) : Drains k s t :=
  ⟨h.length, (h.own hk).1, (h.own hk).2⟩

section
variable {k : Nat} (s : State)

theorem State.restatus_mpus (id : Nat) : (s.restatus id .access).mpus = s.mpus := by
  unfold State.restatus
  split
  · rfl
  · rw [State.finish_eq_finishRaw _ _ (by decide) (by decide)]
    obtain ⟨_, _, _, h⟩ := s.finishRaw_eq id .access ((‹Work›.cpl.map Cpl.result).getD [])
    rw [h]

theorem State.releaseUnits_restatus_mpus (id : Nat) : ((s.releaseUnits id).restatus id .access).mpus = s.mpus :=
  State.restatus_mpus _ _

/-- A write that leaves its buffer (R321). -/
theorem State.drainOne_drains (hk : k ≠ masterMgmt) (m : Nat) : Drains k s (s.drainOne m) := by
  unfold State.drainOne
  split
  · exact .of_eq rfl
  · next b rest _ =>
    have hbuf : Drains k s (s.modMpu m (fun m => { m with wbuf := rest })) := by
      refine ⟨List.length_set .., ?_, ?_⟩
      all_goals
        obtain h | ⟨-, h⟩ := s.mpuAt_modMpu m k (fun m => { m with wbuf := rest })
        · rw [h]
        · rw [h]
    have hw := hbuf.trans ((State.writeNow_port (k := k) (s.modMpu m (fun m => { m with wbuf := rest })) m b.slice b.kind false
      b.addr b.data).drains hk)
    dsimp only
    split
    · exact hw
    split
    · exact hw
    · exact hw.trans (.of_eq (State.releaseUnits_restatus_mpus _ _))

theorem State.drainAll_drains (hk : k ≠ masterMgmt) (m : Nat) : Drains k s (s.drainAll m) := by
  unfold State.drainAll
  generalize (s.mpuAt m).wbuf = l
  induction l generalizing s with
  | nil => exact .of_eq rfl
  | cons b l ih => exact (s.drainOne_drains hk m).trans (ih _)

/-- MPU_WRITE_BUFFER_DRAIN of a write that no work waits for. -/
theorem State.drainOne_alone {b : BufWrite} {rest : List BufWrite} (hb : (s.mpuAt k).wbuf = b :: rest) (hw : b.work = none) :
    s.drainOne k = ((s.modMpu k (fun y => { y with wbuf := rest })).writeNow k b.slice b.kind false b.addr b.data).1 := by
  unfold State.drainOne
  rw [hb]
  dsimp only
  rw [hw]
  split
  · rfl
  · rfl

end

/-! Writes of the registers. -/

section
variable {s : State}

theorem State.mpuErr_zero (m o : Nat) : s.mpuErr m 0 o = s.modMpu m (fun x => { x with err := 0 }) := rfl

theorem State.mpuErr_logs {err : Nat} (h : err ≠ 0) (m o : Nat) : Logged s (s.mpuErr m err o) 0x04 err o := by
  unfold State.mpuErr
  dsimp only
  rw [if_neg h]
  exact ⟨_, rfl, rfl, rfl, rfl, rfl⟩

/-- ERR of an MPU changes only that MPU and the logs. -/
theorem State.mpuErr_of {m : Nat} (hm : m < s.mpus.length) (err o : Nat) :
    (s.mpuErr m err o).mpuAt m = { s.mpuAt m with err := err } ∧
      (∀ k, k ≠ m → (s.mpuErr m err o).mpuAt k = s.mpuAt k) ∧ Untouched s (s.mpuErr m err o) := by
  unfold State.mpuErr
  dsimp only
  split
  · exact ⟨State.setMpu_same hm _, fun k hk => State.setMpu_other _ hk, rfl, rfl, rfl, rfl, rfl⟩
  · exact ⟨State.setMpu_same hm _, fun k hk => State.setMpu_other _ hk, rfl, rfl, rfl, rfl, rfl⟩

/-- A DMA MPU that is disabled drains its buffer first. -/
theorem State.mpuOff_of {k : Nat} (hk : k < s.mpus.length) (hd : k ≠ masterMgmt) :
    (s.mpuOff k).mpuAt k = { (s.mpuOff k).mpuAt k with
        en := false, err := 0, bufw := (s.mpuAt k).bufw, regions := (s.mpuAt k).regions } ∧
      (∀ j, (s.mpuOff k).bookAt j = s.bookAt j) ∧ (s.mpuOff k).keys = s.keys := by
  let v := if s.linkOpen then s.drainAll k else s
  have hv : Drains k s v ∧ Drained s v := by
    unfold v
    split
    · exact ⟨s.drainAll_drains hd k, s.drainAll_drained k⟩
    · exact ⟨.of_eq rfl, .refl s⟩
  obtain ⟨⟨hlen, hbufw, hreg⟩, hdr⟩ := hv
  have hvk : k < v.mpus.length := hlen.symm ▸ hk
  let w := v.modMpu k (fun x => { x with en := false })
  have hwk : k < w.mpus.length := by
    simpa [w, State.modMpu, State.setMpu] using hvk
  obtain ⟨hown, -, hbooks, -, hkeys, -⟩ := State.mpuErr_of hwk 0 offMpuCtl
  have how : w.mpuAt k = { v.mpuAt k with en := false } := State.setMpu_same hvk _
  have hoff : s.mpuOff k = w.mpuErr k 0 offMpuCtl := rfl
  rw [how] at hown
  rw [hoff, hown, ← hbufw, ← hreg]
  refine ⟨rfl, fun j => ?_, hkeys.trans ?_⟩
  · rw [State.bookAt, hbooks]
    exact hdr.bookAt j
  · obtain ⟨_, _, _, _, _, _, _, _, _, _, h⟩ := hdr
    change v.keys = s.keys
    rw [h]

theorem State.barrierErr_of (n err : Nat) : (s.barrierErr n err).sliceAt n = { s.sliceAt n with winErr := err } ∧
    Logged s (s.barrierErr n err) 0x04 err 0x030020 ∧ OtherSlices s (s.barrierErr n err) n ∧ Untouched s (s.barrierErr n err) :=
  ⟨State.setSlice_same .., ⟨_, rfl, rfl, rfl, rfl, rfl⟩, State.setSlice_others _, rfl, rfl, rfl, rfl, rfl⟩

theorem mpuFirmware_dma {m : Nat} (hlo : 32 ≤ m) (hhi : m < 44) : mpuFirmware m = false := by
  simp only [mpuFirmware, Bool.or_eq_false_iff, decide_eq_false_iff_not, beq_eq_false_iff_ne]
  omega

/-- A write of MPU_CTL to a DMA MPU: BUFW at once, a change of EN at the boundary, unless completion rings need the MPU. -/
theorem State.mpuCtl_of (hlen : s.mpus.length = 45) (hlo : 32 ≤ s.hregs.mpuSel) (hhi : s.hregs.mpuSel < 44) (v : Nat) :
    s.mpuCtl v = if ((s.mpuAt s.hregs.mpuSel).en && !bit v 0 && (s.hregs.mpuSel == 36 || s.hregs.mpuSel == 37) &&
        s.cq.any (fun e => e.2.enabled)) = true then
      (s.modMpu s.hregs.mpuSel (fun z => { z with bufw := v.testBit 1 })).mpuErr s.hregs.mpuSel 4 offMpuCtl
    else (s.modMpu s.hregs.mpuSel (fun z => { z with bufw := v.testBit 1 })).defer (.mpu s.hregs.mpuSel (bit v 0)) := by
  have hm : s.hregs.mpuSel < s.mpus.length := by omega
  have hs : (s.modMpu s.hregs.mpuSel (fun z => { z with bufw := v.testBit 1 })).mpuAt s.hregs.mpuSel = _ :=
    State.setMpu_same hm _
  have hen : ((s.modMpu s.hregs.mpuSel (fun z => { z with bufw := v.testBit 1 })).mpuAt s.hregs.mpuSel).en =
      (s.mpuAt s.hregs.mpuSel).en := by rw [hs]
  unfold State.mpuCtl
  dsimp only
  rw [if_neg (by omega), mpuFirmware_dma hlo hhi, if_neg (by decide), ← hen]
  rfl

theorem mpuRegOffset_range (r : MpuReg) : 0x030108 ≤ mpuRegOffset r ∧ mpuRegOffset r ≤ 0x03011C := by
  cases r
  · decide
  · decide
  · decide

end

/-- Settles O32, command by command. -/
theorem accessControl : Obligations.AccessControl := by
  unfold Obligations.AccessControl
  intro s n m x others y selected barred
  refine ⟨fun hn hw => ?_, fun hbusy hok => ?_, fun hbad => ?_, fun hbusy hret => ?_, fun hlen hlo hhi hw => ?_, fun k hlen hlo hhi => ?_,
    fun k b rest hk hopen hbuf hwork => ?_⟩
  · have hi (v : Nat) : exec (.windowBarrier v) s = .next (s.barrierWrite v) := congrArg Host.Outcome.next (State.onReg_of hw _)
    have hb : bits (n + 65536) 9 0 = n := by
      simp only [bits]
      omega
    have hgo : bit (n + 65536) 16 = true := by
      simp [bit, Nat.testBit_eq_decide_div_mod_eq]
      omega
    have hstop : bit n 16 = false := Nat.testBit_lt_two_pow (by omega)
    have hsel : bits n 9 0 = n := by
      simp only [bits]
      omega
    refine ⟨fun hbusy => ?_, fun hbusy => ⟨selected.barrierErr n 3, ?_, State.barrierErr_of (s := selected) n 3⟩, ?_⟩
    · have hb' : (selected.sliceAt n).winBusy = false := hbusy
      rw [hi]
      unfold State.barrierWrite
      dsimp only
      rw [hb, hgo, if_neg (by decide)]
      exact congrArg Host.Outcome.next (if_neg (Bool.eq_false_iff.mp hb'))
    · rw [hi]
      unfold State.barrierWrite
      dsimp only
      rw [hb, hgo, if_neg (by decide)]
      exact congrArg Host.Outcome.next (if_pos hbusy)
    · rw [hi]
      unfold State.barrierWrite
      dsimp only
      rw [hsel, hstop]
      rfl
  · change s.barrier n = _
    unfold State.barrier
    dsimp only
    rw [if_neg (Bool.eq_false_iff.mp hbusy), hok]
    rfl
  · have ht : s.settleOne (.barrier n) = s.barrierErr n (if y.winBusy then 3 else y.stagedErr) := by
      change s.barrier n = _
      unfold State.barrier
      dsimp only
      by_cases hbusy : y.winBusy = true
      · rw [if_pos hbusy, if_pos hbusy]
      · rw [if_neg hbusy, if_neg hbusy, if_pos (by simpa using hbad.resolve_left hbusy)]
    rw [ht]
    exact State.barrierErr_of ..
  · exact congrArg Host.Outcome.next (if_pos (by simp [hbusy, hret]))
  · have hctl : s.regWritable offMpuCtl = true := hw _ (by decide) (by decide)
    have hm : m < s.mpus.length := by omega
    have hdma : mpuFirmware m = false := mpuFirmware_dma hlo hhi
    have hsame (v : Nat) : (s.modMpu m (fun z => { z with bufw := v.testBit 1 })).mpuAt m = { x with bufw := v.testBit 1 } :=
      State.setMpu_same hm _
    intro buffers
    refine ⟨fun v hv hen hno => ?_, fun v hv hen hcq hpair => ?_, fun v hv => ?_, fun r v hen => ?_, fun r v hen => ?_⟩
    · refine congrArg Host.Outcome.next ((if_neg (Bool.eq_false_iff.mp hv)).trans ((State.onReg_of hctl _).trans ?_))
      rw [State.mpuCtl_of hlen hlo hhi, if_neg, bit, hv]
      rcases hno with h | ⟨h, h'⟩
      · simp [h]
      · simp [m] at h h'
        simp [h, h']
    · refine ⟨_, congrArg Host.Outcome.next ((if_neg (Bool.eq_false_iff.mp hv)).trans ((State.onReg_of hctl _).trans
        ((State.mpuCtl_of hlen hlo hhi v).trans (if_pos ?_)))), ?_⟩
      · simp [bit, hv, m] at hen hcq hpair ⊢
        exact ⟨⟨hen, hpair⟩, hcq⟩
      · have hu : m < (buffers v).mpus.length := by
          simpa [buffers, State.modMpu, State.setMpu] using hm
        obtain ⟨hown, hother, hbooks, hpan, hkeys, hnv, hwork⟩ := State.mpuErr_of hu 4 offMpuCtl
        refine ⟨hown.trans (congrArg (fun z : Mpu => { z with err := 4 }) (hsame v)),
          fun k hk => (hother k hk).trans (State.setMpu_other _ hk), hbooks, hpan, hkeys, hnv, hwork⟩
    · refine congrArg Host.Outcome.next ((if_pos hv).trans ((State.onReg_of hctl _).trans ?_))
      rw [State.mpuCtl_of hlen hlo hhi, if_neg (by simp [bit, hv]), bit, hv]
    · obtain ⟨h1, h2⟩ := mpuRegOffset_range r
      let j := s.hregs.mpuRegion
      let u := s.modMpu m (fun z => { z with regions := tput Region.reset z.regions j ((z.region j).write r v) })
      have hu : m < u.mpus.length := by
        simpa [u, State.modMpu, State.setMpu] using hm
      have hus : u.mpuAt m = { x with regions := tput Region.reset x.regions j ((x.region j).write r v) } :=
        State.setMpu_same hm _
      obtain ⟨hown, hother, hbooks, hpan, hkeys, hnv, hwork⟩ := State.mpuErr_of hu 0 (mpuRegOffset r)
      rw [hus] at hown
      refine ⟨u.mpuErr m 0 (mpuRegOffset r), congrArg Host.Outcome.next ((State.onReg_of (hw _ h1 h2) _).trans ?_), ?_, ?_,
        fun k hk => ?_, fun k hk => (hother k hk).trans (State.setMpu_other _ hk), hbooks, hpan, hkeys, hnv, hwork⟩
      · unfold State.mpuRegion
        dsimp only
        rw [if_neg (by omega), hdma, if_neg (by decide), if_neg (Bool.eq_false_iff.mp hen)]
      · rw [hown]
        exact tget_tput_same ..
      · rw [hown]
        exact hen
      · rw [hown]
        exact tget_tput_other _ _ _ hk
    · obtain ⟨h1, h2⟩ := mpuRegOffset_range r
      refine ⟨s.mpuErr m 1 (mpuRegOffset r), congrArg Host.Outcome.next ((State.onReg_of (hw _ h1 h2) _).trans ?_), State.mpuErr_of hm ..⟩
      unfold State.mpuRegion
      dsimp only
      rw [if_neg (by omega), hdma, if_neg (by decide), if_pos hen]
  · have hm : k < s.mpus.length := by omega
    intro z on off
    refine ⟨fun hen => ?_, fun hen herr => ?_, fun hen herr => ?_⟩
    · have hoff : off = s.mpuOff k := by
        change s.mpuEn k false = _
        unfold State.mpuEn
        dsimp only
        rw [hen]
      have hd : k ≠ masterMgmt := by
        unfold masterMgmt
        omega
      obtain ⟨hown, hbooks, hkeys⟩ := State.mpuOff_of hm hd
      rw [hoff]
      refine ⟨?_, ?_, ?_, ?_, fun j => congrArg Book.st (hbooks j), hkeys⟩
      all_goals rw [hown]
    · have hu : k < (s.setMpu k { z with en := true, bufwLive := z.bufw }).mpus.length := by
        simpa [State.setMpu] using hm
      have hon : on = (s.setMpu k { z with en := true, bufwLive := z.bufw }).mpuErr k 0 offMpuCtl := by
        change s.mpuEn k true = _
        unfold State.mpuEn
        dsimp only
        rw [hen]
        dsimp only
        rw [herr, if_pos rfl]
      obtain ⟨hown, hother, hbooks, hpan, hkeys, hnv, hwork⟩ := State.mpuErr_of hu 0 offMpuCtl
      rw [State.setMpu_same hm] at hown
      rw [hon]
      exact ⟨hown, fun j hj => (hother j hj).trans (State.setMpu_other _ hj), hbooks, hpan, hkeys, hnv, hwork⟩
    · have hon : on = s.mpuErr k z.enableErr offMpuCtl := by
        change s.mpuEn k true = _
        unfold State.mpuEn
        dsimp only
        rw [hen]
        dsimp only
        rw [if_neg herr]
      obtain ⟨hown, hother⟩ := State.mpuErr_of hm z.enableErr offMpuCtl
      rw [hon]
      exact ⟨hown, State.mpuErr_logs herr _ _, hother⟩
  · let u := s.modMpu k (fun y => { y with wbuf := rest })
    have hus : u.mpuAt k = { s.mpuAt k with wbuf := rest } := State.setMpu_same hk _
    have hport := u.writeNow_port (k := k) k b.slice b.kind false b.addr b.data
    obtain ⟨_, _, _, _, _, hacc⟩ := u.writeNow_accessed k b.slice b.kind false b.addr b.data
    intro o
    refine ⟨o.1, congrArg Host.Outcome.next ((if_pos hopen).trans (s.drainOne_alone hbuf hwork)), ?_, rfl, ?_⟩
    · rw [hport.wbuf, hus]
    · change Untouched s (u.writeNow k b.slice b.kind false b.addr b.data).1
      rw [hacc]
      exact ⟨rfl, rfl, rfl, rfl, rfl⟩

end Sys2Proof.Machine
end

section
/-! SUPPORT. Host reads of named buffers (R248). -/

namespace Sys2Proof.Machine
open Sys2Proof

section
variable {s : State}

/-- With an empty window nothing leaves it. -/
theorem State.dropEntries_empty (he : s.brine.entries = []) (p : Entry → Bool) : ∃ brine,
    s.dropEntries p = { s with brine := brine } := by
  unfold State.dropEntries
  rw [he]
  exact ⟨_, rfl⟩

/-- A fence meets no work that has ended, when the window is empty. -/
theorem State.fenceHits_done (he : s.brine.entries = []) {w : Work} (hd : w.isDone = true) (ring : Nat) :
    s.fenceHits ring w = false := by
  have hwin : s.inWindow w.id = false := by
    simp [State.inWindow, he]
  have hwait : w.waiting = false := by
    unfold Work.isDone at hd
    unfold Work.waiting
    cases h : w.phase <;> simp_all
  rw [State.fenceHits, hwin, hwait]
  simp

/-- The fence of a ring, while the window is empty and no reload has failed. -/
theorem State.fenceRing_empty (he : s.brine.entries = []) (ring : Nat) {cause : Nat} (hc : cause ≠ 4) (tag : Nat) : ∃ work sq pan brine,
    s.fenceRing ring cause tag = { s with work := work, sq := sq, pan := pan, brine := brine } ∧ (tget Sq.reset sq ring).fenced = true ∧
      ∀ id w, s.workAt id = some w → w.isDone = true → work.find? (fun v => v.id == id) = some w := by
  unfold State.fenceRing
  split
  · next hf =>
    refine ⟨s.work, s.sq, s.pan, s.brine, ?_, hf, fun _ _ h _ => h⟩
    unfold State.refence
    exact if_neg fun h => hc h.1
  · let head := (s.work.find? (s.fenceHits ring)).map Work.slot
    let hit (w : Work) : Work :=
      if s.fenceHits ring w then { w.done .fenced [BitVec.ofNat 8 cause] with ending := some (s.now, rankRing) } else w
    let q : Sq := { s.sqAt ring with fenced := true, fenceCause := cause, fenceTag := tag, fenceHead := head }
    let u : State := { s with
      sq := tput Sq.reset s.sq ring q, work := s.work.map hit, pan := { s.pan with fences := s.pan.fences + 1 } }
    obtain ⟨brine, hu⟩ := State.dropEntries_empty (s := u) he fun e => !e.applet && e.ring == ring && !e.stands
    refine ⟨u.work, u.sq, u.pan, brine, hu, ?_, fun id w hw hd => ?_⟩
    · rw [tget_tput_same]
    · have hid (v : Work) : (hit v).id = v.id := by
        unfold hit
        split
        · rfl
        · rfl
      refine (workAt_of_map s hid id).trans ?_
      rw [hw]
      exact congrArg some (if_neg (by simp [State.fenceHits_done he hd]))

/-- FAULT ends a descriptor and fences its ring (R233). -/
theorem State.finish_fault {id : Nat} {w : Work} (res : Bytes) (hw : s.workAt id = some w) (hr : w.ring < 65536)
    (he : s.brine.entries = []) :
    Ended (s.finish id .fault res) id .fault res ∧ ((s.finish id .fault res).sqAt w.ring).fenced = true ∧
      ∃ work sq pan brine, s.finish id .fault res = { s with work := work, sq := sq, pan := pan, brine := brine } := by
  have ha : w.isApplet = false := by simpa [Work.isApplet] using hr
  let f (v : Work) : Work := ({ v with lateConds := s.lateAtEnd w } : Work).done .fault res
  have h : s.finish id .fault res = (s.modWork id f).fenceRing w.ring 2 w.tag := by
    simp [State.finish, State.finishRaw, hw, ha, f]
  have hd : (s.modWork id f).workAt id = some (f w) := State.workAt_modWork_same hw fun _ => rfl
  obtain ⟨work, sq, pan, brine, ht, hsq, hwork⟩ := State.fenceRing_empty (s := s.modWork id f) he w.ring (cause := 2) (by decide) w.tag
  rw [h, ht]
  exact ⟨⟨f w, _, hwork id (f w) hd rfl, rfl, rfl, rfl, rfl⟩, hsq, _, _, _, _, rfl⟩

theorem State.finishOpen_fault {id : Nat} {w : Work} (known : Bytes) (hw : s.workAt id = some w) (hr : w.ring < 65536)
    (he : s.brine.entries = []) : ∃ res,
    Ended (s.finishOpen id .fault known) id .fault res ∧ ((s.finishOpen id .fault known).sqAt w.ring).fenced = true ∧
      ∃ work sq pan brine, s.finishOpen id .fault known =
        { s with work := work, sq := sq, pan := pan, brine := brine, draws := s.draws + 1 } := by
  obtain ⟨ends, fenced, work, sq, pan, brine, h⟩ :=
    State.finish_fault (known ++ Config.freeBytes s.draws (16 - known.length)) hw hr he
  refine ⟨_, ends, fenced, work, sq, pan, brine, ?_⟩
  unfold State.finishOpen
  rw [h]
  rfl

/-! Reads. -/

theorem State.readAt_dropRead (id : Nat) : (s.dropRead id).readAt id = none := by
  simp [State.readAt, State.dropRead]

theorem State.readAt_modRead {id : Nat} {r : Read} (h : s.readAt id = some r) {f : Read → Read} (hf : ∀ r, (f r).id = r.id) :
    (s.modRead id f).readAt id = some (f r) := by
  have hid : r.id = id := by simpa using List.find?_some h
  have hg (r : Read) : (if r.id == id then f r else r).id = r.id := by
    split
    · exact hf r
    · rfl
  unfold State.readAt State.modRead at *
  dsimp only
  rw [List.find?_map]
  simp only [Function.comp_def, hg, h]
  simp [hid]

/-- The work that a read brings its data to. -/
theorem State.readWork_of {r : Read} {w : Work} {part : Nat} (hk : r.kind = .work w.id part) (hw : s.workAt w.id = some w)
    (hr : w.isReading = true) : s.readWork r = some w := by
  simp [State.readWork, hk, hw, hr]

/-- The data of a named buffer that has arrived whole reaches its work. -/
theorem State.readCompletion_of {tag : Nat} {r : Read} {w : Work} {part : Nat} {data : Bytes} (hr : s.readAt tag = some r)
    (hk : r.kind = .work w.id part) (hw : s.workAt w.id = some w) (hread : w.isReading = true) (hdis : r.discard = false)
    (hfail : r.failedAt = none) (hwait : r.wait = []) (hlen : data.length = r.len) :
    s.readCompletion tag data = if (s.dropRead tag).dataHeld w = true then
      (s.dropRead tag).modWork w.id (fun v => { v with arrived := some data }) else (s.dropRead tag).readArrived w data := by
  have hnamed : r.named = true := by rw [Read.named, hk]
  have hwork : (s.dropRead tag).readWork r = some w := State.readWork_of (s := s.dropRead tag) hk hw hread
  unfold State.readCompletion
  rw [hr]
  dsimp only
  rw [hwait, hnamed, hfail, hlen, if_neg (by simp), if_neg (by simp), hdis, if_neg (by decide), hwork]

/-- An error completion of a named buffer, or its retry. -/
theorem State.readRetry_of {tag : Nat} {r : Read} {w : Work} {part : Nat} (hr : s.readAt tag = some r)
    (hk : r.kind = .work w.id part) (hdis : r.discard = false) : s.readRetry tag = s.workRetry r := by
  unfold State.readRetry
  rw [hr]
  dsimp only
  rw [hdis, if_neg (by decide), hk]

end

/-- Settles O33: the data, the first error, the retry and the second error. -/
theorem hostReads : Obligations.HostReads := by
  unfold Obligations.HostReads
  intro s tag r w part hr hk hw hread hdis
  have hid : r.id = tag := by simpa using List.find?_some hr
  have hretry : exec (.hostReadRetry tag) s = .next (s.workRetry r) := congrArg Host.Outcome.next (State.readRetry_of hr hk hdis)
  have hwork : s.readWork r = some w := State.readWork_of hk hw hread
  refine ⟨fun data hfail hwait hlen hop => ?_, fun hfail hfirst => ?_, fun g hfail hlate hcan => ?_, fun hfail hsecond hring hempty hop => ?_⟩
  · let f (v : Work) : Work := { v with input := w.input ++ [data] }
    let g (v : Work) : Work := { v with phase := .active 1 }
    let t := ((s.dropRead tag).modWork w.id f).modWork w.id g
    have hstream : isStream w.opcode = false := by
      rcases hop with h | h
      · rw [h]; rfl
      · rw [h]; rfl
    have hheld : (s.dropRead tag).dataHeld w = false := by
      rcases hop with h | h
      · simp [State.dataHeld, h, isStream]
      · simp [State.dataHeld, h, isStream]
    have ht : (s.dropRead tag).readArrived w data = t := by
      unfold State.readArrived
      rw [if_neg (by simp [hstream])]
      unfold State.readData
      rcases hop with h | h
      · simp only [h]; rfl
      · simp only [h]; rfl
    refine ⟨t, congrArg Host.Outcome.next ((State.readCompletion_of hr hk hw hread hdis hfail hwait hlen).trans
      ((if_neg (Bool.eq_false_iff.mp hheld)).trans ht)), State.readAt_dropRead tag, ?_, rfl⟩
    exact State.workAt_modWork_same (f := g) (State.workAt_modWork_same (s := s.dropRead tag) (f := f) hw fun _ => rfl) fun _ => rfl
  · rw [hretry]
    unfold State.workRetry
    rw [hwork]
    dsimp only
    rw [hfail]
    dsimp only
    rw [hfirst, if_neg (by decide), hid]
    rfl
  · intro u hpass
    let q := u.readTlps r.master r.slice w.readTraffic (u.parts r.master r.slice r.addr r.len)
    let k := u.tagsFor q.1.length
    let f (x : Read) : Read := { x with
      retry := true, failedAt := none, epoch := (u.sliceAt r.slice).winEpoch, tags := k, wait := q.1.drop k }
    let v : State := { u with out := u.out ++ q.1.take k }
    have hagain : s.rereadNow r w.readTraffic = (v.modRead r.id f, true) := by
      unfold State.rereadNow
      dsimp only
      rw [hpass]
    obtain ⟨_, _, _, _, _, hu⟩ := s.fwRegion_accessed r.master r.addr r.len
    have hreads : v.readAt r.id = some r := by
      change u.readAt r.id = some r
      change State.readAt (s.fwRegion r.master r.addr r.len) r.id = some r
      rw [hu, hid]
      exact hr
    have hdue : ¬ (decide (s.now < g + pound) || !true) = true := by
      rw [Bool.not_true, Bool.or_false, decide_eq_true_eq]
      exact Nat.not_lt.mpr hlate
    refine ⟨v.modRead r.id f, f r, hretry.trans (congrArg Host.Outcome.next ?_), hid ▸ State.readAt_modRead hreads fun _ => rfl,
      rfl, rfl, rfl, rfl, rfl, ?_, ?_⟩
    · unfold State.workRetry
      rw [hwork]
      dsimp only
      rw [hfail]
      dsimp only
      rw [hcan, if_neg hdue, hagain]
      rfl
    · change State.workAt (s.fwRegion r.master r.addr r.len) w.id = some w
      rw [hu]
      exact hw
    · change (s.fwRegion r.master r.addr r.len).books = s.books
      rw [hu]
  · obtain ⟨res, ends, fenced, _, _, _, _, ht⟩ := State.finishOpen_fault (s := s.dropRead tag) [] hw hring hempty
    have hfault : (s.dropRead tag).readFault w = (s.dropRead tag).finishOpen w.id .fault [] := by
      unfold State.readFault
      simp only [List.mem_cons, List.not_mem_nil, or_false] at hop
      rcases hop with h | h | h | h | h | h | h | h
      all_goals simp only [h, isStream]; rfl
    refine ⟨_, _, hretry.trans (congrArg Host.Outcome.next ?_), ends, fenced, ?_, ?_⟩
    · unfold State.workRetry
      rw [hwork]
      dsimp only
      rw [hfail]
      dsimp only
      rw [if_pos hsecond, hid, hfault]
    · rw [ht]
      exact State.readAt_dropRead tag
    · rw [ht]
      rfl

end Sys2Proof.Machine
end

section
/-! SUPPORT. A write buffer that drains before a completion (R321): the counterexample to O53. -/

namespace Sys2Proof.Machine
open Sys2Proof

/-- The completion of slot 0 of ring 0, whose work has ended. -/
def drainingCpl : Cpl :=
  { status := .ok, result := [], late := false, redo := false, rcpt := false, opcode := 0, tag := 0 }
def drainingWork : Work := { State.reset.newWork 0 0 1 [] with phase := .done, cpl := some drainingCpl }

/-- In the buffer of the MPU that writes the completion stands a write of work 7 for a slice without windows; the store holds a
wait of that work. -/
def drainingBuffer : State :=
  { State.reset with
    work := [drainingWork]
    link := { Link.reset with bme := true, pasidEn := true, up := true }
    nv := { Nv.reset with commitWaits := [(7, 1)] }
    slices := [(0, { Slice.reset with live := [(0, { en := true, r := true, w := true, base := 0, limit := 1 })] })]
    mpus := List.replicate 45 { (State.reset.mpuAt 36) with
      en := true, bufwLive := true, regions := [(0, { Region.reset with stop := 1023, en := true, r := true, w := true })],
      wbuf := [{ slice := 1, work := some 7, addr := 0, kind := .stream, data := [0] }] } }

/-- Before the completion is written the buffer drains: its write fails its check, and the wait in the store is given up. -/
theorem drainingBuffer_nv : ∃ t, exec (.completionIssue 0) drainingBuffer = .next t ∧ t.nv.commitWaits = [] :=
  ⟨_, rfl, by decide⟩

/-- Refutes O53: where the MPU of the completion ring buffers writes, an older write of another work that fails its check gives up
that work's wait in the store, so that issuing a completion does not leave the store as it is. -/
theorem not_completions : ¬ Obligations.Completions := by
  unfold Obligations.Completions
  intro h
  obtain ⟨hissue, -⟩ := h drainingBuffer 0 drainingWork drainingCpl
  obtain ⟨hwrite, -⟩ := hissue (by decide) rfl rfl (by decide)
  obtain ⟨hpass, -⟩ := hwrite (by decide) rfl (by decide) (by decide) rfl rfl
  obtain ⟨t, ht, -, -, -, -, -, -, hnv, -⟩ := hpass (by decide)
  obtain ⟨u, hu, hwaits⟩ := drainingBuffer_nv
  obtain rfl : t = u := Host.Outcome.next.inj (ht.symm.trans hu)
  rw [hnv] at hwaits
  exact absurd hwaits (by decide)

end Sys2Proof.Machine
end

section
/-! SUPPORT. Descriptor fetch (R257 to R268). -/

namespace Sys2Proof.Machine
open Sys2Proof

/-! The fetch reads of a ring. -/

/-- The read is not used when it is one of these. -/
def Read.skipIn (late : List Nat) (r : Read) : Read := if late.contains r.id then { r with discard := true } else r

theorem map_skipIn {a b : List Read} (h : ((a ++ b).map Read.id).Nodup) :
    (a ++ b).map (Read.skipIn (b.map Read.id)) = a ++ b.map (fun x => { x with discard := true }) := by
  rw [List.map_append, List.nodup_append] at h
  obtain ⟨-, -, hab⟩ := h
  have ha : a.map (Read.skipIn (b.map Read.id)) = a.map fun r => r := by
    refine List.map_congr_left fun r hr => if_neg ?_
    rw [List.contains_iff_mem]
    exact fun hb => hab _ (List.mem_map_of_mem hr) _ hb rfl
  have hb : b.map (Read.skipIn (b.map Read.id)) = b.map (fun x => { x with discard := true }) := by
    refine List.map_congr_left fun r hr => if_pos ?_
    rw [List.contains_iff_mem]
    exact List.mem_map_of_mem hr
  rw [List.map_append, ha, hb, List.map_id']

theorem filter_ne_of_nodup {l : List Read} {i : Nat} {r : Read} (h : l[i]? = some r) (hn : (l.map Read.id).Nodup) :
    l.filter (fun x => x.id != r.id) = l.take i ++ l.drop (i + 1) := by
  induction l generalizing i with
  | nil => exact absurd h (by simp)
  | cons a l ih =>
    rw [List.map_cons, List.nodup_cons] at hn
    obtain ⟨ha, hn⟩ := hn
    cases i with
    | zero =>
      obtain rfl : a = r := by simpa using h
      have hl : l.filter (fun x => x.id != a.id) = l :=
        List.filter_eq_self.mpr fun x hx => by
        simpa using fun he : x.id = a.id => ha (he ▸ List.mem_map_of_mem hx)
      simpa using hl
    | succ i =>
      have hr : l[i]? = some r := by simpa using h
      have hne : a.id ≠ r.id := fun he => ha (he ▸ List.mem_map_of_mem (List.mem_of_getElem? hr))
      simp [hne, ih hr hn]

section
variable (s : State) (ring : Nat)

theorem State.fetchReads_modRead (id : Nat) {f : Read → Read} (hf : ∀ r, (f r).kind = r.kind) :
    (s.modRead id f).fetchReads ring = (s.fetchReads ring).map (fun r => if r.id == id then f r else r) := by
  have hk : (fun r => Read.isFetch r ring) ∘ (fun r => if r.id == id then f r else r) = fun r => r.isFetch ring := by
    funext r
    have hkind : (if r.id == id then f r else r).kind = r.kind := by
      split
      · exact hf r
      · rfl
    simp only [Function.comp, Read.isFetch, hkind]
  unfold State.fetchReads State.modRead
  rw [List.filter_map, hk]

theorem State.fetchReads_dropRead (id : Nat) :
    (s.dropRead id).fetchReads ring = (s.fetchReads ring).filter (fun r => r.id != id) := List.filter_comm ..

/-- A halted ring (R263). -/
theorem State.haltRing_of (cause first : Nat) : let t := s.haltRing ring cause first
    (t.sqAt ring).halted = true ∧ (t.sqAt ring).haltCause = cause ∧ (t.sqAt ring).fetch = (s.sqAt ring).fetch ∧
      (∀ k, k ≠ ring → t.sqAt k = s.sqAt k) ∧
      t.fetchReads ring = (s.fetchReads ring).map (Read.skipIn (((s.fetchReads ring).drop first).map Read.id)) ∧
      t.work = s.work ∧ t.books = s.books := by
  intro t
  let q : Sq := { s.sqAt ring with
    halted := true, haltCause := cause, carry := if first = 0 then [] else (s.sqAt ring).carry }
  have hq : t.sqAt ring = q := State.setSq_same s ring q
  have hk (r : Read) : (Read.skipIn (((s.fetchReads ring).drop first).map Read.id) r).kind = r.kind := by
    unfold Read.skipIn
    split
    · rfl
    · rfl
  rw [hq]
  exact ⟨rfl, rfl, rfl, fun k hk => State.setSq_other s q hk, (s.setSq ring q).fetchReads_modFetch ring hk, rfl, rfl⟩

/-- A fetch read that passes its checks, and one that does not. -/
theorem State.hostRead_fetch (slice addr len : Nat) :
    let m := masterFetch ring
    let q := s.readTlps m slice .fetch (s.parts m slice addr len)
    let o := s.hostRead (.fetch ring) m slice .fetch addr len false
    (q.2 = none → o = (s.addRead (.fetch ring) m slice addr len false q.1, true)) ∧
      (q.2 ≠ none → o.2 = false ∧ o.1.fetchReads ring = s.fetchReads ring ∧ o.1.sq = s.sq ∧ o.1.work = s.work ∧
        o.1.books = s.books) := by
  intro m q o
  have hm : ¬ (m == 44) = true := by
    unfold m masterFetch
    rw [beq_iff_eq]
    omega
  have hfw : s.fwRegion m addr len = s := if_neg hm
  refine ⟨fun hq => ?_, fun hq => ?_⟩
  · change State.hostRead .. = _
    unfold State.hostRead
    simp only [ReadKind.work?, hfw]
    rw [show (s.readTlps m slice .fetch (s.parts m slice addr len)).2 = none from hq]
  · obtain ⟨⟨a, v⟩, hav⟩ := Option.ne_none_iff_exists'.mp hq
    let n := s.landed false m slice addr len
    let u := if n = 0 then s else s.addRead .failed m slice addr n false q.1
    have ho : o = (u.violation m slice a false true v, false) := by
      change State.hostRead .. = _
      unfold State.hostRead
      simp only [ReadKind.work?, hfw]
      rw [show (s.readTlps m slice .fetch (s.parts m slice addr len)).2 = some (a, v) from hav]
    obtain ⟨_, _, _, _, _, hv⟩ := u.violation_accessed m slice a false true v
    have hu : u.fetchReads ring = s.fetchReads ring ∧ u.sq = s.sq ∧ u.work = s.work ∧ u.books = s.books := by
      unfold u
      split
      · exact ⟨rfl, rfl, rfl, rfl⟩
      · refine ⟨?_, rfl, rfl, rfl⟩
        unfold State.fetchReads State.addRead
        simp [Read.isFetch]
    rw [ho, hv]
    exact ⟨rfl, hu⟩

/-- The rotation of the engines has no part in the check of a read. -/
theorem State.readTlps_fetchServed (m slice : Nat) (t : Traffic) (ps : List (Nat × Nat)) :
    (s.fetchServed ring).readTlps m slice t ps = s.readTlps m slice t ps := by
  induction ps with
  | nil => rfl
  | cons p ps ih =>
    unfold State.readTlps
    rw [ih]
    rfl

end

/-! Arrival. -/

section
variable {s : State} {w : Work}

theorem State.workAt_addWork (h : ∀ v ∈ s.work, v.id ≠ w.id) : (s.addWork w).workAt w.id = some w := by
  have hn : s.work.find? (fun v => v.id == w.id) = none := by
    simpa [List.find?_eq_none] using h
  simp [State.workAt, State.addWork, hn]

/-- A descriptor that is refused as it arrives. -/
theorem State.addDone_ends {st : Status} (res : Bytes) (h : ∀ v ∈ s.work, v.id ≠ w.id) (hr : w.ring < 65536) (hf : st ≠ .fault)
    (ht : st ≠ .tamper) : Ended (s.addDone w st res) w.id st res ∧
      s.addDone w st res = { s with work := (s.addDone w st res).work, nextId := s.nextId + 1 } := by
  obtain ⟨ends, only, -⟩ := State.finish_ends res (State.workAt_addWork h) hr hf ht
  exact ⟨ends, only⟩

/-- A list of checks ends with the outcome of one of them. -/
theorem mem_of_firstFail {α : Type} {l : List (Bool × α)} {a : α} (h : firstFail l = some a) : ∃ c ∈ l, c.2 = a := by
  induction l with
  | nil => exact absurd h (by simp [firstFail])
  | cons c l ih =>
    unfold firstFail at h
    split at h
    · obtain ⟨d, hd, hda⟩ := ih h
      exact ⟨d, List.mem_cons_of_mem _ hd, hda⟩
    · exact ⟨c, List.mem_cons_self .., Option.some.inj h⟩

theorem headerFail_status {size gen k : Nat} {st : Status} (h : headerFail size gen w = some (k, st)) :
    st = .malformed ∨ st = .stale := by
  obtain ⟨c, hc, hst⟩ := mem_of_firstFail h
  simp only [List.mem_cons, List.not_mem_nil, or_false] at hc
  rcases hc with rfl | rfl | rfl | rfl | rfl | rfl | rfl | rfl
  all_goals
    obtain ⟨-, rfl⟩ := Prod.mk.inj hst
    simp

theorem slotCountOf_one {d : Bytes} (h : fieldAt d 2 1 = 1) : slotCountOf d = 1 := by
  simp [slotCountOf, h]

/-- A refusal by the header checks of a descriptor of one slot (R265, R268). -/
theorem State.refuseHeader_ends {k : Nat} {st : Status} (h : ∀ v ∈ s.work, v.id ≠ w.id) (hr : w.ring < 65536)
    (hone : w.field 2 1 = 1) (hst : st = .malformed ∨ st = .stale) : ∃ d,
    Logged s (s.refuseHeader w k st) 0x01 k d ∧
    Ended (s.refuseHeader w k st) w.id st (if ((opInfo w.opcode).map OpInfo.listed).getD false then [1, 0xFF]
      else if w.opcode = 0x3020 then (s.bookAt w.slice).replayResult 0 0 else [BitVec.ofNat 8 k]) ∧
    ∃ logs, s.refuseHeader w k st = { s with
      logs := logs, work := (s.refuseHeader w k st).work, nextId := s.nextId + 1 } := by
  have hslots : (k == 1 && slotCountOf w.desc != w.field 2 1) = false := by
    rw [slotCountOf_one hone, hone]
    simp
  let d := if st = .stale then w.field 4 1 + 256 * (s.sliceAt w.slice).gen else 0
  let u := s.plogWork w 0x01 k st d
  have ht : s.refuseHeader w k st = u.addDone w st (if ((opInfo w.opcode).map OpInfo.listed).getD false then [1, 0xFF]
      else if w.opcode = 0x3020 then (s.bookAt w.slice).replayResult 0 0 else [BitVec.ofNat 8 k]) := by
    unfold State.refuseHeader
    cases hi : opInfo w.opcode with
    | none =>
      simp only [hslots, hi, Bool.false_eq_true, if_false, beq_iff_eq]
      rfl
    | some i =>
      simp only [hslots, hi, Bool.false_eq_true, if_false, beq_iff_eq]
      rfl
  obtain ⟨ends, only⟩ := State.addDone_ends (s := u) (st := st) (if ((opInfo w.opcode).map OpInfo.listed).getD false then [1, 0xFF]
      else if w.opcode = 0x3020 then (s.bookAt w.slice).replayResult 0 0 else [BitVec.ofNat 8 k]) h hr
    (by rcases hst with rfl | rfl <;> decide) (by rcases hst with rfl | rfl <;> decide)
  refine ⟨d, ?_, ?_, ?_⟩
  · rw [ht, only]
    exact s.plogWork_logged w 0x01 k st d
  · rw [ht]
    exact ends
  · rw [ht]
    exact ⟨_, only⟩

end

/-- The data of one descriptor of one slot. -/
theorem State.present_one {s : State} {ring slot : Nat} {data : Bytes} (hlen : data.length = 64) (hone : fieldAt data 2 1 = 1)
    (hslot : slot < (s.sqAt ring).size) : s.present ring false 1 slot data [] = s.presentOne ring slot 1 data false := by
  have hdata : data.isEmpty = false := by
    cases data with
    | nil => exact absurd hlen (by decide)
    | cons _ _ => rfl
  have hcount : slotCountOf data = 1 := slotCountOf_one hone
  have hmin : min 1 ((s.sqAt ring).size - slot) = 1 := by omega
  have htake : data.take 64 = data := List.take_of_length_le (by omega)
  simp [State.present, hdata, hcount, hmin, hlen, htake]

/-- One whole descriptor arrives alone. -/
theorem State.arrival_of {s : State} {ring : Nat} {r : Read} {data : Bytes} (hr : (s.fetchReads ring).head? = some r)
    (har : r.arrives = true) (hd : r.discard = false) (hpre : r.preUnfence = false) (hf : s.pwr.flush = none)
    (hc : (s.sqAt ring).carry = []) (hlen : data.length = 64) (hrl : r.len = 64) (hone : fieldAt data 2 1 = 1)
    (hslot : (r.addr - (s.sqAt ring).base) / 64 < (s.sqAt ring).size) :
    s.arrival ring data [] = ((s.dropRead r.id).modSq ring (fun q => { q with carry := [] })).presentOne ring
      ((r.addr - (s.sqAt ring).base) / 64) 1 data false := by
  let u := (s.dropRead r.id).modSq ring (fun q => { q with carry := [] })
  have hu : u.sqAt ring = { s.sqAt ring with carry := [] } := State.setSq_same ..
  have hp : u.present ring false 1 ((r.addr - (s.sqAt ring).base) / 64) data [] = _ :=
    State.present_one hlen hone (by rw [hu]; exact hslot)
  rw [← hp]
  have hfl : (s.dropRead r.id).pwr.flush.isSome = false := by
    change s.pwr.flush.isSome = false
    rw [hf]
    rfl
  have hcar : ((s.dropRead r.id).sqAt ring).carry = [] := hc
  unfold State.arrival
  rw [hr]
  dsimp only
  rw [har, hd, hfl, hpre, hcar, hlen, hrl]
  rfl

/-- Settles O52, command by command. -/
theorem fetching : Obligations.Fetching := by
  unfold Obligations.Fetching
  intro s ring q n read halts
  let served := s.fetchServed ring
  have hidle (h : n = 0 ∨ s.fetchTurn ring = false) : s.fetchRead ring = s := by
    unfold State.fetchRead
    refine if_pos ?_
    rcases h with h | h
    · simp [show s.fetchRoom ring = 0 from h]
    · simp [h]
  have hgo (hn : n ≠ 0) (hturn : s.fetchTurn ring = true) : s.fetchRead ring =
      let r := served.hostRead (.fetch ring) (masterFetch ring) q.slice .fetch (q.base + 64 * q.fetch) (64 * n) false
      if r.2 then r.1.modSq ring (fun q => { q with fetch := (q.fetch + n) % q.size, need := 0 })
      else r.1.haltRing ring 3 (r.1.fetchReads ring).length := by
    unfold State.fetchRead
    exact if_neg (by simp [show s.fetchRoom ring ≠ 0 from hn, hturn])
  obtain ⟨hpass, hfail⟩ := s.hostRead_fetch ring q.slice (q.base + 64 * q.fetch) (64 * n)
  obtain ⟨hpass', hfail'⟩ := served.hostRead_fetch ring q.slice (q.base + 64 * q.fetch) (64 * n)
  rw [State.readTlps_fetchServed] at hpass' hfail'
  let o := s.readTlps (masterFetch ring) q.slice .fetch (s.parts (masterFetch ring) q.slice (q.base + 64 * q.fetch) (64 * n))
  refine ⟨fun h => congrArg Host.Outcome.next (hidle h), fun hn hturn hread => ?_, fun hn hturn hread => ?_,
    fun r index poisoned hr hdis => ⟨fun hfail hfirst => ?_, fun hfail hsecond hnodup => ?_, fun g hfail hlate hcan => ?_⟩,
    fun r data hr har hdis hpre hflush hcarry hlen hrl hone hring hfresh => ?_, fun w hw => ?_⟩
  · have hq : o.2 = none := by
      by_contra hq
      exact absurd (hread.symm.trans (hfail hq).1) (by decide)
    let u := served.addRead (.fetch ring) (masterFetch ring) q.slice (q.base + 64 * q.fetch) (64 * n) false o.1
    let q' : Sq := { q with fetch := (q.fetch + n) % q.size, need := 0 }
    have ht : s.fetchRead ring = u.setSq ring q' := by
      rw [hgo hn hturn, hpass' hq]
      rfl
    refine ⟨_, congrArg Host.Outcome.next ht, State.setSq_same .., fun k hk => State.setSq_other _ _ hk,
      ⟨_, List.mem_append_right _ (List.mem_singleton_self _), rfl, rfl, rfl, rfl⟩, ?_, rfl, rfl⟩
    exact (congrArg (fun o => State.out o.1) (hpass hq)).symm
  · have hq : o.2 ≠ none := fun hq => Bool.false_ne_true (hread.symm.trans (congrArg Prod.snd (hpass hq)))
    obtain ⟨hno, hreads, hsq, hwork, hbooks⟩ := hfail' hq
    let r := served.hostRead (.fetch ring) (masterFetch ring) q.slice .fetch (q.base + 64 * q.fetch) (64 * n) false
    have ht : s.fetchRead ring = r.1.haltRing ring 3 (r.1.fetchReads ring).length := by
      rw [hgo hn hturn]
      exact if_neg (by rw [hno]; decide)
    have hat (k : Nat) : r.1.sqAt k = s.sqAt k := by
      rw [State.sqAt, hsq]
      rfl
    obtain ⟨hhalt, hcause, hfetch, hother, hleft, hw, hb⟩ := r.1.haltRing_of ring 3 (r.1.fetchReads ring).length
    refine ⟨_, congrArg Host.Outcome.next ht, hhalt, hcause, hfetch.trans (congrArg Sq.fetch (hat ring)),
      fun k hk => (hother k hk).trans (hat k), ?_, hw.trans hwork, hb.trans hbooks⟩
    rw [hleft, List.drop_length]
    exact (List.map_id' _).trans hreads
  · let t := (s.modRead r.id (fun r => r.fails s.now)).plogHeld 263 r.slice ring
    have ht : s.fetchRetry ring index poisoned = t := by
      unfold State.fetchRetry
      rw [hr]
      dsimp only
      rw [hdis, hfail, hfirst]
      rfl
    refine ⟨t, congrArg Host.Outcome.next ht, ?_, State.plogEvent_logged .., rfl⟩
    refine (congrArg (·[index]?) (s.fetchReads_modRead ring r.id (f := fun r => r.fails s.now) fun _ => rfl)).trans ?_
    simp only [List.getElem?_map, hr, Option.map_some, beq_self_eq_true, if_true]
  · have hi : index < (s.fetchReads ring).length := (List.getElem?_eq_some_iff.mp hr).1
    let l := (s.fetchReads ring).take index
    let rest := (s.fetchReads ring).drop (index + 1)
    have hdrop : (s.dropRead r.id).fetchReads ring = l ++ rest :=
      (s.fetchReads_dropRead ring r.id).trans (filter_ne_of_nodup hr hnodup)
    have hlate : (l ++ rest).drop index = rest := by
      have hlen : l.length = index := List.length_take_of_le (Nat.le_of_lt hi)
      conv_lhs => rw [← hlen]
      exact List.drop_left
    have hn : ((l ++ rest).map Read.id).Nodup := by
      rw [← hdrop, s.fetchReads_dropRead ring r.id]
      exact hnodup.sublist (List.filter_sublist.map _)
    have ht : s.fetchRetry ring index poisoned = (s.dropRead r.id).haltRing ring (if poisoned then 2 else 1) index := by
      unfold State.fetchRetry
      rw [hr]
      dsimp only
      rw [hdis, hfail, hsecond]
      rfl
    obtain ⟨hhalt, hcause, hfetch, hother, hleft, hw, hb⟩ := (s.dropRead r.id).haltRing_of ring (if poisoned then 2 else 1) index
    refine ⟨_, congrArg Host.Outcome.next ht, hhalt, hcause, hfetch, hother, ?_, hw, hb⟩
    rw [hleft, hdrop, hlate]
    exact map_skipIn hn
  · intro u v hpass
    let k := u.tagsFor v.1.length
    let f (x : Read) : Read := { x with
      retry := true, failedAt := none, epoch := (u.sliceAt r.slice).winEpoch, tags := k, wait := v.1.drop k }
    let w : State := { u with out := u.out ++ v.1.take k }
    have hagain : s.rereadNow r .fetch = (w.modRead r.id f, true) := by
      unfold State.rereadNow
      dsimp only
      rw [hpass]
    have hdue : ¬ (decide (s.now < g + pound) || !true) = true := by
      rw [Bool.not_true, Bool.or_false, decide_eq_true_eq]
      exact Nat.not_lt.mpr hlate
    have ht : s.fetchRetry ring index poisoned = w.modRead r.id f := by
      unfold State.fetchRetry
      rw [hr]
      dsimp only
      rw [hdis, hfail]
      dsimp only
      rw [hcan, if_neg (by decide), if_neg hdue, hagain]
      rfl
    obtain ⟨_, _, _, _, _, hu⟩ := s.fwRegion_accessed r.master r.addr r.len
    have hreads : w.fetchReads ring = s.fetchReads ring := by
      change State.fetchReads (s.fwRegion r.master r.addr r.len) ring = _
      rw [hu]
      rfl
    refine ⟨_, congrArg Host.Outcome.next ht, ?_, rfl, ?_, ?_, ?_⟩
    · rw [w.fetchReads_modRead ring r.id (f := f) fun _ => rfl, hreads, List.getElem?_map, hr]
      simp only [Option.map_some, beq_self_eq_true, if_true, f]
    · change State.sqAt (s.fwRegion r.master r.addr r.len) ring = _
      rw [hu]
      rfl
    · change (s.fwRegion r.master r.addr r.len).work = _
      rw [hu]
    · change (s.fwRegion r.master r.addr r.len).books = _
      rw [hu]
  · intro slot w fail hslot i after
    let u := (s.dropRead r.id).modSq ring (fun q => { q with carry := [] })
    have huq : u.sqAt ring = { q with carry := [] } := State.setSq_same ..
    have huw : u.newWork ring slot 1 data = w := by
      unfold State.newWork
      rw [huq]
      rfl
    let v := u.modSq ring (fun q => { q with refetch := if q.refetch == some slot then none else q.refetch, need := 0 })
    have hvq : v.sqAt ring = { q with
        carry := [], refetch := if q.refetch == some slot then none else q.refetch, need := 0 } :=
      (State.setSq_same ..).trans (by rw [huq])
    have ht : s.arrival ring data [] =
        if q.fenced then (v.addDone w .fenced [BitVec.ofNat 8 q.fenceCause]).modSq ring
          (fun q => { q with fenceHead := some (q.fenceHead.getD slot) })
        else v.route w := by
      rw [State.arrival_of hr har hdis hpre hflush hcarry hlen hrl hone hslot]
      change State.presentOne u ring slot 1 data false = _
      unfold State.presentOne
      simp only [huq, huw, Bool.or_false]
      rfl
    have hhead : headerFail (v.sqAt w.ring).size (v.sliceAt w.slice).gen w = fail := by
      change headerFail (v.sqAt ring).size _ w = _
      rw [hvq]
      rfl
    refine ⟨fun hfen => ?_, fun k st hfen hfail => ?_, fun hfen hfail hrun => ?_, fun hfen hfail hrun => ?_⟩
    · obtain ⟨ends, only⟩ := State.addDone_ends (s := v) (w := w) (st := .fenced) [BitVec.ofNat 8 q.fenceCause] hfresh hring
        (by decide) (by decide)
      refine ⟨_, congrArg Host.Outcome.next (ht.trans (if_pos hfen)), ?_, ends⟩
      rw [only]
      exact ⟨rfl, rfl, rfl⟩
    · have hroute : v.route w = v.refuseHeader w k st := by
        unfold State.route
        rw [hhead, hfail]
      obtain ⟨d, hlog, ends, logs, only⟩ := State.refuseHeader_ends (s := v) (w := w) (k := k) hfresh hring hone
        (headerFail_status hfail)
      refine ⟨v.refuseHeader w k st, d, congrArg Host.Outcome.next (ht.trans ((if_neg (by simp [hfen])).trans hroute)), ?_, hlog, ends⟩
      rw [only]
      exact ⟨rfl, rfl, rfl⟩
    · have hroute : v.route w = (v.plogWork w 0x01 0 .state 0).addDone w .state [] := by
        unfold State.route
        rw [hhead, hfail]
        exact if_pos (by rw [show v.opcodeRuns w.opcode = false from hrun]; decide)
      obtain ⟨ends, only⟩ := State.addDone_ends (s := v.plogWork w 0x01 0 .state 0) (w := w) (st := .state) [] hfresh hring
        (by decide) (by decide)
      refine ⟨_, 0, congrArg Host.Outcome.next (ht.trans ((if_neg (by simp [hfen])).trans hroute)), ?_, ?_, ends⟩
      · rw [only]
        exact ⟨rfl, rfl, rfl⟩
      · rw [only]
        exact v.plogWork_logged w 0x01 0 .state 0
    · have hroute : v.route w = v.addWork (if classOf w.opcode = 0 then { w with phase := .held } else w) := by
        unfold State.route
        rw [hhead, hfail]
        refine (if_neg (by rw [show v.opcodeRuns w.opcode = true from hrun]; decide)).trans ?_
        split
        · rfl
        · rfl
      exact ⟨_, congrArg Host.Outcome.next (ht.trans ((if_neg (by simp [hfen])).trans hroute)), ⟨rfl, rfl, rfl⟩, rfl, rfl⟩
  · have hlt := hw.ring_lt
    obtain ⟨hstart, hat, -⟩ := hw
    obtain ⟨ends, only⟩ := State.finish_ends (st := .ok) [] hat hlt (by decide) (by decide)
    exact ⟨_, congrArg Host.Outcome.next (State.onStart_of hstart _), ends, only⟩

end Sys2Proof.Machine
end

section
/-! SUPPORT. BIGNUM descriptors (R428 to R432). -/

namespace Sys2Proof.Machine
open Sys2Proof

/-- From `s` to `t` a use of a slot has been charged: the key store, the record of the use, the step of the store's controller. -/
def Charged (s t : State) : Prop := ∃ compact large nv logs taken,
  t = { s with
    keys := { s.keys with compact := compact, large := large }, nv := nv, logs := logs, sched := { s.sched with taken := taken } } ∧
  ∀ k, taken.contains (.dma k) = s.sched.taken.contains (.dma k)

theorem Charged.refl (s : State) : Charged s s := ⟨_, _, _, _, _, rfl, fun _ => rfl⟩

theorem Charged.trans {s t u : State} (h : Charged s t) (h' : Charged t u) : Charged s u := by
  obtain ⟨_, _, _, _, _, rfl, ht⟩ := h
  obtain ⟨_, _, _, _, _, rfl, hu⟩ := h'
  exact ⟨_, _, _, _, _, rfl, fun k => (hu k).trans (ht k)⟩

theorem Charged.canRead {s t : State} (h : Charged s t) (m : Nat) : t.canRead m = s.canRead m := by
  obtain ⟨_, _, _, _, _, rfl, ht⟩ := h
  unfold State.canRead State.canMaster State.engineRedoes
  rw [ht]
  rfl

section
variable (s : State)

theorem State.setSlot_charged (target index : Nat) (v : Slot) : Charged s (s.setSlot target index v) := by
  unfold State.setSlot
  split
  · exact ⟨_, _, _, _, _, rfl, fun _ => rfl⟩
  · exact ⟨_, _, _, _, _, rfl, fun _ => rfl⟩

theorem State.bufferIn_charged (e : WbEntry) : Charged s (s.bufferIn e) := by
  obtain ⟨_, _, _, _, _, h, -⟩ := s.bufferIn_eq e
  exact ⟨_, _, _, _, _, h, fun _ => rfl⟩

/-- The record of a use (R386). -/
theorem State.nvLazy_uses_charged (key t n u : Nat) : Charged s (s.nvLazy key (.uses t n u)) := by
  unfold State.nvLazy
  split
  · obtain ⟨nv, logs, h⟩ := foldl_writeEntry_eq (s.recordEntries key [.uses t n u] []) (s.commitBuffer.takeStep .nv, true)
    have hr : Charged s ((s.recordEntries key [.uses t n u] []).foldl (fun r e => if r.2 then r.1.writeEntry e else r)
        (s.commitBuffer.takeStep .nv, true)).1 :=
      ⟨_, _, nv, logs, .nv :: s.sched.taken, h, fun k => by simp⟩
    unfold State.nvNow
    dsimp only
    split
    · exact hr.trans (State.setSlot_charged _ t n _)
    · exact hr
  · next hwt =>
    clear hwt
    generalize s.recordEntries key [.uses t n u] [] = es
    have hstep (v : State) (e : WbEntry) : Charged v (if v.nv.wbuf.any (fun x => x.key == key && !x.frozen) then
        { v with nv := { v.nv with
          wbuf := v.nv.wbuf.map (fun x =>
            if x.key == key && !x.frozen then { x with data := e.data, img := x.img ++ e.img, badCw := [] } else x),
          lastWrite := v.now } }
        else v.bufferIn { e with frozen := false }) := by
      split
      · exact ⟨_, _, _, _, _, rfl, fun _ => rfl⟩
      · exact v.bufferIn_charged _
    induction es generalizing s with
    | nil => exact .refl s
    | cons e es ih => exact (hstep s e).trans (ih _)

theorem State.chargeSlot_charged (target index : Nat) : Charged s (s.chargeSlot target index) := by
  unfold State.chargeSlot
  dsimp only
  split
  · exact .refl s
  split
  · exact (s.setSlot_charged ..).trans (State.nvLazy_uses_charged ..)
  · exact s.setSlot_charged ..

theorem State.bnKeyCheck_charged (slice op kh : Nat) : Charged s (s.bnKeyCheck slice op kh).1 := by
  unfold State.bnKeyCheck
  split
  · exact .refl s
  split
  · exact .refl s
  split
  · exact .refl s
  · exact s.chargeSlot_charged ..

/-- A read changes of the engines only which stream engine serves which job (R25). -/
theorem State.hostRead_crypto (kind : ReadKind) (master slice : Nat) (t : Traffic) (addr len : Nat) (retry : Bool) : ∃ jobs,
    (s.hostRead kind master slice t addr len retry).1.crypto = { s.crypto with dmaJobs := jobs } := by
  have hstart : ∃ jobs, (match kind.work? with | some id => s.assignDma master id | none => s).crypto =
      { s.crypto with dmaJobs := jobs } := by
    split
    · unfold State.assignDma
      split
      · exact ⟨_, rfl⟩
      · exact ⟨_, rfl⟩
    · exact ⟨_, rfl⟩
  have hregion : ∃ jobs, ((match kind.work? with | some id => s.assignDma master id | none => s).fwRegion master addr len).crypto =
      { s.crypto with dmaJobs := jobs } := by
    obtain ⟨jobs, hj⟩ := hstart
    refine ⟨jobs, hj ▸ ?_⟩
    obtain ⟨_, _, _, _, _, hu⟩ := State.fwRegion_accessed _ master addr len
    rw [hu]
  obtain ⟨jobs, hj⟩ := hregion
  refine ⟨jobs, ?_⟩
  unfold State.hostRead
  dsimp only
  generalize State.fwRegion _ master addr len = u at hj ⊢
  rw [← hj]
  split
  · rfl
  · next a v hq =>
    obtain ⟨_, _, _, _, _, hv⟩ := State.violation_accessed _ master slice a false true v
    rw [hv]
    split
    · rfl
    · rfl

end

section
variable {s : State} {w : Work}

theorem At.of_modWork {id : Nat} {f : Work → Work} (hw : s.workAt id = some w) (hf : ∀ v, (f v).id = v.id) :
    At (s.modWork id f) id (f w).phase :=
  congrArg (Option.map Work.phase) (State.workAt_modWork_same hw hf)

/-- The row of a BIGNUM descriptor. -/
theorem State.bnRow_of {ring op : Nat}
    (h : s.oldest ring (fun v => v.isRouted && v.opcode == 0x6000 && (v.aux == op || !bnOpOk v.aux)) = some w)
    (hb : s.mayBegin w = true) : s.bnRow ring op = s.bnStart w := by
  unfold State.bnRow
  rw [h]
  exact if_pos hb

/-- A BIGNUM descriptor whose checks pass, up to its read (R430). -/
theorem State.bnStart_of (hform : s.bnForm w = true) (hkey : (s.bnKeyCheck w.slice w.aux (w.field 0x1C 4)).2 = none)
    (hin : s.rangeOk w.slice (w.field 0x10 8) (w.field 0x18 4) false = true)
    (hout : bnInLays w.aux = true ∨ s.rangeOk w.slice (w.field 0x20 8) (w.field 0x28 4) true = true) :
    let c := (s.bnKeyCheck w.slice w.aux (w.field 0x1C 4)).1
    s.bnStart w = if w.field 0x18 4 = 0 then c.bnBegin w []
      else if !c.canRead (c.masterStream w.id) then s
      else
        let o := c.hostRead (.work w.id 0) (c.masterStream w.id) w.slice .stream (w.field 0x10 8) (w.field 0x18 4) false
        if o.2 then o.1.modWork w.id (fun v => { v with phase := .reading 1, admitted := some c.now })
        else o.1.refuse w 4 .access := by
  intro c
  have hrange : (c.rangeOk w.slice (w.field 0x10 8) (w.field 0x18 4) false &&
      (bnInLays w.aux || c.rangeOk w.slice (w.field 0x20 8) (w.field 0x28 4) true)) = true := by
    have hr : ∀ a n b, c.rangeOk w.slice a n b = s.rangeOk w.slice a n b := by
      obtain ⟨_, _, _, _, _, hc, -⟩ := s.bnKeyCheck_charged w.slice w.aux (w.field 0x1C 4)
      intro a n b
      change State.rangeOk (s.bnKeyCheck ..).1 .. = _
      rw [hc]
      rfl
    rw [hr, hr, hin]
    rcases hout with h | h
    · simp [h]
    · simp [h]
  unfold State.bnStart
  rw [hform]
  dsimp only
  rw [hkey]
  dsimp only
  rw [hrange]
  rfl

/-- The key that the job of a BIGNUM descriptor gets. -/
def State.bnKeyOf (s : State) (op kh : Nat) : Option Bytes :=
  match bnTypes op, bnKey kh with
  | some _, some (t, i) => some (s.slotAt t i).material
  | _, _ => none

theorem State.bnBegin_eq (s : State) (w : Work) (input : Bytes) :
    let type := s.bnType w.aux (w.field 0x1C 4)
    let key := s.bnKeyOf w.aux (w.field 0x1C 4)
    s.bnBegin w input =
      if !(bnInOk w.aux input && decide (bnOutLen w.aux type input ≤ w.field 0x28 4)) then s.refuse w 1 .malformed
      else if bnInLays w.aux && !s.rangeOk w.slice (w.field 0x20 8) (w.field 0x28 4) true then s.refuse w 4 .access
      else if !bnValid w.aux type (key.getD []) input then s.refuse w 5 .range
      else (s.bnSubmit (bnJobOf w.id 0 0 w.slice w.aux key type input)).modWork w.id (fun v => { v with phase := .active 1 }) :=
  rfl

/-- IN has the sizes that it lays down and is valid: its job joins the queue. -/
theorem State.bnBegin_joins {input : Bytes} {v : Work} (hw : s.workAt w.id = some v)
    (hin : bnInOk w.aux input = true) (hlen : bnOutLen w.aux (s.bnType w.aux (w.field 0x1C 4)) input ≤ w.field 0x28 4)
    (hout : bnInLays w.aux = true → s.rangeOk w.slice (w.field 0x20 8) (w.field 0x28 4) true = true)
    (hvalid : bnValid w.aux (s.bnType w.aux (w.field 0x1C 4)) ((s.bnKeyOf w.aux (w.field 0x1C 4)).getD []) input = true) :
    ∃ rng work j, s.bnBegin w input = { s with
      nextId := s.nextId + 1, rng := rng, work := work, crypto := { s.crypto with bnQueue := s.crypto.bnQueue ++ [j] } } ∧
      At (s.bnBegin w input) w.id (.active 1) ∧ j.work = w.id ∧ j.use = 0 ∧ j.op = w.aux ∧ j.input = input ∧
      j.cost = bnCost w.aux (s.bnType w.aux (w.field 0x1C 4)) input := by
  have hno : (bnInLays w.aux && !s.rangeOk w.slice (w.field 0x20 8) (w.field 0x28 4) true) = false := by
    cases h : bnInLays w.aux with
    | false => rfl
    | true => rw [hout h]; rfl
  obtain ⟨rng, hb⟩ := State.bnSubmit_eq s (bnJobOf w.id 0 0 w.slice w.aux (s.bnKeyOf w.aux (w.field 0x1C 4))
    (s.bnType w.aux (w.field 0x1C 4)) input)
  let f (v : Work) : Work := { v with phase := .active 1 }
  rw [State.bnBegin_eq, hin, hno, hvalid, decide_eq_true hlen, if_neg (by decide), if_neg (by decide), if_neg (by decide), hb]
  refine ⟨rng, _, _, rfl, ?_, rfl, rfl, rfl, rfl, rfl⟩
  exact At.of_modWork (f := f) hw fun _ => rfl

theorem State.readData_bignum (h : w.opcode = 0x6000) (data : Bytes) : s.readData w data = s.bnBegin w data := by
  unfold State.readData
  simp only [h]

/-- An OP without KEY. -/
theorem State.bnKeyOf_none {op : Nat} (h : bnTypes op = none) (kh : Nat) : s.bnKeyOf op kh = none ∧ s.bnType op kh = 0 := by
  unfold State.bnKeyOf State.bnType
  rw [h]
  exact ⟨rfl, rfl⟩

/-- The key of an Ed25519 signature has a TYPE that suits it (R428, R430). -/
theorem State.bnKeyCheck_sign {slice kh : Nat} (h : (s.bnKeyCheck slice 0x31 kh).2 = none) : s.bnType 0x31 kh = 0x14 := by
  unfold State.bnKeyCheck at h
  unfold State.bnType
  simp only [bnTypes] at h ⊢
  cases hk : bnKey kh with
  | none => simp [hk] at h
  | some t =>
    simp only [hk] at h ⊢
    cases hs : s.slotFail t.1 t.2 with
    | some st => simp [hs] at h
    | none =>
      simp only [hs] at h
      split at h
      · next hok =>
        simp only [Bool.and_eq_true, List.contains_iff_mem, List.mem_singleton] at hok
        exact hok.1
      · exact absurd h (by simp)

/-- OUT_LEN of a signature that passes check 1 has room for it. -/
theorem State.bnForm_sign (haux : w.aux = 0x31) (hform : s.bnForm w = true) (htype : s.bnType 0x31 (w.field 0x1C 4) = 0x14) :
    64 ≤ w.field 0x28 4 := by
  unfold State.bnForm at hform
  simp only [haux, htype, bnLensOk, bnTypes, bnOutMin, bnOutLen, Bool.and_eq_true, List.contains_cons, beq_self_eq_true,
    Bool.true_or, if_true, decide_eq_true_eq] at hform
  exact hform.2.2

end

/-- The commands of BIGNUM by their OP. -/
theorem exec_bignum {p : Nat × Instr} {ring : Nat} (h : p ∈ [(0x01, Instr.modexp ring), (0x02, .modmul ring), (0x10, .rsaPublic ring),
    (0x11, .rsaPrivate ring), (0x20, .ecdsaSign ring), (0x21, .ecdsaVerify ring), (0x22, .ecdh ring), (0x30, .x25519 ring),
    (0x31, .ed25519Sign ring), (0x32, .ed25519Verify ring)]) (s : State) : exec p.2 s = .next (s.bnRow ring p.1) := by
  simp only [List.mem_cons, List.not_mem_nil, or_false] at h
  rcases h with rfl | rfl | rfl | rfl | rfl | rfl | rfl | rfl | rfl | rfl
  all_goals rfl

/-- Settles O41: the read of IN, its arrival, and the signature of an empty message, whose job joins the queue at once. -/
theorem bigNumbers : Obligations.BigNumbers := by
  unfold Obligations.BigNumbers
  intro s ring w addr n c
  have hcharged : Charged s c.1 := s.bnKeyCheck_charged w.slice w.aux (w.field 0x1C 4)
  obtain ⟨_, _, _, _, _, hc, -⟩ := id hcharged
  refine ⟨fun p hp hold hw hring hbegin haux hform hkey hin hout hn hcan hread => ?_,
    fun tag r data hr hk hw hop hreading har hdis hlen htypes hout hin hfits hvalid => ?_,
    fun hold hw hring hbegin haux hform hkey hn hout => ?_⟩
  · have hmaster : c.1.masterStream w.id = s.masterStream w.id := by
      rw [hc]
      rfl
    let o := c.1.hostRead (.work w.id 0) (s.masterStream w.id) w.slice .stream addr n false
    let f (v : Work) : Work := { v with phase := .reading 1, admitted := some c.1.now }
    have ht : s.bnRow ring p.1 = o.1.modWork w.id f := by
      rw [State.bnRow_of hold hbegin, State.bnStart_of hform hkey hin hout]
      change (if n = 0 then _ else if (!c.1.canRead (c.1.masterStream w.id)) = true then _ else _) = _
      rw [hmaster, hcharged.canRead, hcan, if_neg (Nat.ne_of_gt hn), if_neg (by decide)]
      exact if_pos hread
    obtain ⟨out, mpus, crypto, x, ho, hx⟩ := State.hostRead_ok hread
    obtain ⟨jobs, hjobs⟩ := c.1.hostRead_crypto (.work w.id 0) (s.masterStream w.id) w.slice .stream addr n false
    have hat : o.1.workAt w.id = some w := by
      change State.workAt (State.hostRead ..).1 w.id = _
      rw [ho, hc]
      exact hw
    refine ⟨o.1.modWork w.id f, (exec_bignum hp s).trans (congrArg Host.Outcome.next ht), ?_, ⟨x, ?_, hx.kind, hx.addr, hx.len⟩, ?_, ?_, ?_⟩
    · exact At.of_modWork (f := f) hat fun _ => rfl
    · change x ∈ (State.hostRead ..).1.reads
      rw [ho]
      exact List.mem_append_right _ (List.mem_singleton_self _)
    · change (State.hostRead ..).1.keys = _
      rw [ho]
    · have hcrypto : o.1.crypto = { s.crypto with dmaJobs := jobs } := hjobs.trans (by rw [hc])
      refine hcrypto.trans ?_
      change _ = { s.crypto with dmaJobs := o.1.crypto.dmaJobs }
      rw [hcrypto]
    · change (State.hostRead ..).1.books = _
      rw [ho, hc]
  · let u := s.dropRead tag
    let w' : Work := { w with input := w.input ++ [data] }
    let f (v : Work) : Work := { v with input := w'.input }
    let v := u.modWork w.id f
    have hv : v.workAt w'.id = some (f w) := State.workAt_modWork_same (s := u) (f := f) hw fun _ => rfl
    obtain ⟨hfail, hwait⟩ : r.failedAt = none ∧ r.wait = [] := by
      simpa [Read.arrives, List.isEmpty_iff] using har
    have hheld : u.dataHeld w = false := by
      simp [State.dataHeld, hop, isStream]
    have ht : s.readCompletion tag data = v.bnBegin w' data := by
      rw [State.readCompletion_of hr hk hw hreading hdis hfail hwait hlen, if_neg (Bool.eq_false_iff.mp hheld)]
      unfold State.readArrived
      rw [if_neg (by simp [hop, isStream])]
      exact State.readData_bignum (w := w') hop data
    obtain ⟨hkey, htype⟩ := v.bnKeyOf_none htypes (w.field 0x1C 4)
    obtain ⟨rng, work, j, hb, hat, hjw, hju, hjo, hji, hjc⟩ := State.bnBegin_joins (w := w') (input := data) hv hin
      (by change bnOutLen w.aux (v.bnType w.aux (w.field 0x1C 4)) data ≤ w.field 0x28 4; rw [htype]; exact hfits) hout
      (by change bnValid w.aux (v.bnType w.aux (w.field 0x1C 4)) ((v.bnKeyOf w.aux (w.field 0x1C 4)).getD []) data = true
          rw [htype, hkey]; exact hvalid)
    refine ⟨_, j, congrArg Host.Outcome.next ht, hat, ?_, hjw, hju, hjo, hji, hjc.trans (congrArg (bnCost w.aux · data) htype), ?_, ?_, ?_⟩
    · rw [hb]
      rfl
    · rw [hb]
      exact State.readAt_dropRead tag
    · rw [hb]
      rfl
    · rw [hb]
      rfl
  · have hkey' : (s.bnKeyCheck w.slice 0x31 (w.field 0x1C 4)).2 = none := by
      rw [← haux]
      exact hkey
    have htype := State.bnKeyCheck_sign hkey'
    have hroom := State.bnForm_sign haux hform htype
    have hin : s.rangeOk w.slice (w.field 0x10 8) (w.field 0x18 4) false = true := by
      unfold State.rangeOk
      rw [show w.field 0x18 4 = 0 from hn]
      rfl
    have ht : s.bnRow ring 0x31 = c.1.bnBegin w [] := by
      rw [State.bnRow_of hold hbegin, State.bnStart_of hform hkey hin (.inr hout)]
      exact if_pos hn
    have hat : c.1.workAt w.id = some w := by
      rw [hc]
      exact hw
    obtain ⟨rng, work, j, hb, hact, hjw, -, hjo, hji, -⟩ := State.bnBegin_joins (s := c.1) (input := []) hat
      (by rw [haux]; rfl) (by rw [haux]; exact hroom) (fun h => absurd h (by rw [haux]; decide)) (by rw [haux]; rfl)
    refine ⟨_, j, congrArg Host.Outcome.next ht, hact, ?_, hjw, hjo.trans haux, hji, ?_⟩
    · rw [hb, hc]
    · rw [hb, hc]

end Sys2Proof.Machine
end

section
/-! SUPPORT. Cipher, MAC and digest streams (R411 to R424). -/

namespace Sys2Proof.Machine
open Sys2Proof

/-! Writes of a stream engine, whose MPU may buffer them. -/

section
variable (s : State)

theorem State.restatus_out (id : Nat) : (s.restatus id .access).out = s.out := by
  unfold State.restatus
  split
  · rfl
  · rw [State.finish_eq_finishRaw _ _ (by decide) (by decide)]
    obtain ⟨_, _, _, h⟩ := s.finishRaw_eq id .access ((‹Work›.cpl.map Cpl.result).getD [])
    rw [h]

theorem State.drainOne_out {master : Nat} {b : BufWrite} {rest : List BufWrite} (hb : (s.mpuAt master).wbuf = b :: rest) :
    (s.drainOne master).out =
      ((s.modMpu master (fun m => { m with wbuf := rest })).writeNow master b.slice b.kind false b.addr b.data).1.out := by
  unfold State.drainOne
  rw [hb]
  dsimp only
  generalize State.writeNow _ _ _ _ _ _ _ = o
  split
  · rfl
  split
  · rfl
  · exact State.restatus_out _ _

theorem State.onHost_drainOne_out (r : State) (master : Nat) : ((s.onHost r).drainOne master).out = (s.drainOne master).out := by
  have hm : (s.onHost r).mpuAt master = s.mpuAt master := rfl
  cases hb : (s.mpuAt master).wbuf with
  | nil =>
    unfold State.drainOne
    rw [hm, hb]
    rfl
  | cons b rest =>
    have hpop : (s.onHost r).modMpu master (fun m => { m with wbuf := rest }) =
      (s.modMpu master (fun m => { m with wbuf := rest })).onHost r := rfl
    rw [State.drainOne_out _ hb, State.drainOne_out _ (hm.symm ▸ hb), hpop, State.onHost_writeNow]
    generalize State.writeNow _ _ _ _ _ _ _ = o
    rfl

/-- What such a write sends, and whether it passes, does not depend on the rest of the state. -/
theorem State.onHost_hostWriteFrom_out (r : State) (master slice : Nat) {t : Traffic} (ht : t.awaited = false) (work : Option Nat)
    (addr : Nat) (data : Bytes) :
    let o := s.hostWriteFrom master slice t work addr data
    let p := (s.onHost r).hostWriteFrom master slice t work addr data
    p.2 = o.2 ∧ p.1.out = o.1.out := by
  have hm : (s.onHost r).mpuAt master = s.mpuAt master := rfl
  intro o p
  unfold o p State.hostWriteFrom
  rw [hm, ht]
  split
  · exact ⟨rfl, rfl⟩
  split
  · have hroom : (if (s.mpuAt master).wbuf.length < 16 then s.onHost r else (s.onHost r).drainOne master).out =
        (if (s.mpuAt master).wbuf.length < 16 then s else s.drainOne master).out := by
      split
      · rfl
      · exact s.onHost_drainOne_out r master
    rw [if_neg Bool.false_ne_true, if_neg Bool.false_ne_true]
    exact ⟨rfl, hroom⟩
  · rw [State.onHost_writeNow]
    exact ⟨rfl, rfl⟩

theorem State.assignDma_onHost (r : State) (master job : Nat) :
    (s.onHost r).assignDma master job = s.onHost ((s.onHost r).assignDma master job) := by
  unfold State.assignDma
  split
  · rfl
  · rfl

theorem State.onHost_hostWrite_out (r : State) (master slice : Nat) {t : Traffic} (ht : t.awaited = false) (work : Option Nat)
    (addr : Nat) (data : Bytes) :
    let o := s.hostWrite master slice t work addr data
    let p := (s.onHost r).hostWrite master slice t work addr data
    p.2 = o.2 ∧ p.1.out = o.1.out := by
  cases work with
  | none => exact s.onHost_hostWriteFrom_out r master slice ht none addr data
  | some id =>
    have hfrom (u : State) : u.hostWrite master slice t (some id) addr data =
        (u.assignDma master id).hostWriteFrom master slice t (some id) addr data := rfl
    have hs : s.assignDma master id = s.onHost (s.assignDma master id) := s.assignDma_onHost s master id
    obtain ⟨hok, hout⟩ := s.onHost_hostWriteFrom_out ((s.onHost r).assignDma master id) master slice ht (some id) addr data
    obtain ⟨hok', hout'⟩ := s.onHost_hostWriteFrom_out (s.assignDma master id) master slice ht (some id) addr data
    rw [← s.assignDma_onHost r] at hok hout
    rw [← hs] at hok' hout'
    rw [hfrom, hfrom]
    exact ⟨hok.trans hok'.symm, hout.trans hout'.symm⟩

/-! Reads of a stream engine. -/

theorem State.readTlps_congr {s t : State} (hm : t.mpus = s.mpus) (hs : t.slices = s.slices) (master slice : Nat) (k : Traffic)
    (ps : List (Nat × Nat)) : (t.readTlps master slice k ps).2 = (s.readTlps master slice k ps).2 := by
  have hv (a : Nat) : t.verdict master slice a false = s.verdict master slice a false := by
    unfold State.verdict State.mpuAt State.sliceAt
    rw [hm, hs]
  induction ps with
  | nil => rfl
  | cons p ps ih =>
    unfold State.readTlps
    rw [hv]
    split
    · exact ih
    · rfl

theorem State.parts_congr {s t : State} (hm : t.mpus = s.mpus) (hs : t.slices = s.slices) (master slice addr len : Nat) :
    t.parts master slice addr len = s.parts master slice addr len := by
  unfold State.parts State.mpuAt State.sliceAt
  rw [hm, hs]

theorem State.fwRegion_congr {s t : State} (hm : t.mpus = s.mpus) (hs : t.slices = s.slices) (master addr len : Nat) :
    (t.fwRegion master addr len).mpus = (s.fwRegion master addr len).mpus ∧
      (t.fwRegion master addr len).slices = (s.fwRegion master addr len).slices := by
  unfold State.fwRegion
  split
  · unfold State.modMpu State.setMpu State.mpuAt
    rw [hm, hs]
    exact ⟨rfl, rfl⟩
  · exact ⟨hm, hs⟩

/-- Whether a read passes its checks is a matter of the MPU and the windows alone. -/
theorem State.hostRead_passes (kind : ReadKind) (master slice : Nat) (k : Traffic) (addr len : Nat) (retry : Bool) :
    let v := s.fwRegion master addr len
    (s.hostRead kind master slice k addr len retry).2 = (v.readTlps master slice k (v.parts master slice addr len)).2.isNone := by
  intro v
  have hstart : (match kind.work? with | some id => s.assignDma master id | none => s).mpus = s.mpus ∧
      (match kind.work? with | some id => s.assignDma master id | none => s).slices = s.slices := by
    split
    · unfold State.assignDma
      split
      · exact ⟨rfl, rfl⟩
      · exact ⟨rfl, rfl⟩
    · exact ⟨rfl, rfl⟩
  obtain ⟨hm, hs⟩ := State.fwRegion_congr hstart.1 hstart.2 master addr len
  unfold State.hostRead
  dsimp only
  generalize State.fwRegion _ master addr len = u at hm hs ⊢
  rw [← State.parts_congr hm hs, ← State.readTlps_congr hm hs]
  split
  · next h => exact (congrArg Option.isNone h).symm
  · next h => exact (congrArg Option.isNone h).symm

theorem State.hostRead_congr {s t : State} (hm : t.mpus = s.mpus) (hs : t.slices = s.slices) (master : Nat)
    (kind kind' : ReadKind) (slice : Nat) (k : Traffic) (addr len : Nat) :
    (t.hostRead kind' master slice k addr len false).2 = (s.hostRead kind master slice k addr len false).2 := by
  obtain ⟨hm', hs'⟩ := State.fwRegion_congr hm hs master addr len
  rw [State.hostRead_passes, State.hostRead_passes, State.readTlps_congr hm' hs', State.parts_congr hm' hs']

end

theorem State.opcode_of_toStart {s : State} {ring opcode : Nat} {w : Work} (h : s.toStart ring opcode = some w) :
    w.opcode = opcode := by
  have hw := List.find?_some (Option.filter_eq_some_iff.mp h).1
  simp only [Bool.and_eq_true, beq_iff_eq] at hw
  exact hw.2.2

/-! Streams enter their pools. -/

/-- From `s` to `t` keys have been used: the key store, the records of their uses, the handles of the cores. -/
def KeysUsed (s t : State) : Prop := ∃ keys nv logs sched applets,
  t = { s with keys := keys, nv := nv, logs := logs, sched := sched, applets := applets }

theorem KeysUsed.refl (s : State) : KeysUsed s s := ⟨_, _, _, _, _, rfl⟩

theorem KeysUsed.trans {s t u : State} (h : KeysUsed s t) (h' : KeysUsed t u) : KeysUsed s u := by
  obtain ⟨_, _, _, _, _, rfl⟩ := h
  obtain ⟨_, _, _, _, _, rfl⟩ := h'
  exact ⟨_, _, _, _, _, rfl⟩

theorem State.chargeKey_used (s : State) (k : KeySrc) : KeysUsed s (s.chargeKey k) := by
  cases k with
  | session h => exact ⟨_, _, _, _, _, rfl⟩
  | slot t i =>
    obtain ⟨_, _, _, _, _, h, -⟩ := s.chargeSlot_charged t i
    exact ⟨_, _, _, _, _, h⟩
  | handle c n => exact ⟨_, _, _, _, _, rfl⟩

theorem State.cipherKeys_used (s : State) (w : Work) : KeysUsed s (s.cipherKeys w).1 := by
  unfold State.cipherKeys
  dsimp only
  generalize (if (cipherMode w.aux == 3) = true then [1, 3] else aesTypes) = types
  split
  · split
    · exact .refl s
    · exact .refl s
    · exact .refl s
    · split
      · exact .refl s
      split
      · exact s.chargeKey_used _
      split
      · exact .refl s
      · exact (s.chargeKey_used _).trans (State.chargeKey_used _ _)
  · exact .refl s

theorem KeysUsed.bufOk {s t : State} (h : KeysUsed s t) (slice addr len : Nat) (write : Bool) :
    t.bufOk slice addr len write = s.bufOk slice addr len write ∧ t.rangeOk slice addr len write = s.rangeOk slice addr len write := by
  obtain ⟨_, _, _, _, _, rfl⟩ := h
  exact ⟨rfl, rfl⟩

/-- A stream that has been given its keys waits in its pool. -/
theorem KeysUsed.startStream {s t : State} {w : Work} (h : KeysUsed s t) (hw : s.workAt w.id = some w) (digest : Bool) (key : Bytes) :
    let u := t.startStream w digest key
    At u w.id (.active 0) ∧ (u.workAt w.id).map Work.key = some key ∧ u.books = s.books ∧ u.reads = s.reads ∧
      ∃ x, u.crypto.streams = s.crypto.streams ++ [x] ∧ x.work = w.id ∧ x.onDigest = digest ∧ x.unit = none ∧ x.pos = 0 ∧
        x.total = w.aadLen + w.srcLen := by
  obtain ⟨_, _, _, sched, _, rfl⟩ := h
  intro u
  let f (v : Work) : Work := { v with phase := .active 0, key := key, input := [], admitted := some sched.grain }
  have hu : u.workAt w.id = some (f w) := State.workAt_modWork_same (s := s) (f := f) hw fun _ => rfl
  unfold At
  rw [hu]
  exact ⟨rfl, rfl, rfl, rfl, _, rfl, rfl, rfl, rfl, rfl, rfl⟩

section
variable {s : State} {w : Work}

/-- CIPHER whose checks pass. -/
theorem State.cipherBody_of {key : Bytes} (hform : w.cipherForm = true) (hbusy : s.sessionBusy w.session = false)
    (hkeys : (s.cipherKeys w).2 = .ok key) (hsrc : s.bufOk w.slice (w.field 0x10 8) w.srcLen false = true)
    (hdst : s.bufOk w.slice (w.field 0x20 8) w.srcLen true = true) (haad : s.bufOk w.slice (w.field 0x30 8) w.aadLen false = true)
    (htag : cipherMode w.aux ≠ 0 ∨ s.rangeOk w.slice (w.field 0x38 8) (cipherTlen w.aux) (!cipherDec w.aux) = true) :
    s.cipherBody w = (s.cipherKeys w).1.startStream w false key := by
  have hu := s.cipherKeys_used w
  have hok : (!(cipherMode w.aux == 0) || s.rangeOk w.slice (w.field 0x38 8) (cipherTlen w.aux) (!cipherDec w.aux)) = true := by
    rcases htag with h | h
    · simp [h]
    · simp [h]
  unfold State.cipherBody
  dsimp only
  rw [hform, hbusy, hkeys]
  dsimp only
  rw [(hu.bufOk ..).1, (hu.bufOk ..).1, (hu.bufOk ..).1, (hu.bufOk ..).2, hsrc, hdst, haad, hok]
  rfl

/-- MAC whose checks pass. -/
theorem State.macBody_of {k : KeySrc} (hform : w.macForm = true) (hbusy : s.sessionBusy w.session = false)
    (hsrc : keySrcOf (w.field 0x1C 4) w.session none = some k) (hsess : s.streamSession w = none) (hfail : s.keyFail k w.slice = none)
    (hsuits : s.keySuits k attrMac (macTypes (macAlg w.aux)) w.slice = true)
    (hbuf : s.bufOk w.slice (w.field 0x10 8) w.srcLen false = true)
    (htag : s.rangeOk w.slice (w.field 0x20 8) (macTlen w.aux) (!macVerifies w.aux) = true) :
    s.macBody w = (s.chargeKey k).startStream w (macAlg w.aux != 0) (s.keyView k w.slice).key := by
  have hu := s.chargeKey_used k
  unfold State.macBody
  dsimp only
  rw [hform, hbusy, hsrc]
  dsimp only
  rw [hsess, hfail]
  dsimp only
  rw [hsuits, (hu.bufOk ..).1, (hu.bufOk ..).2, hbuf, htag]
  rfl

/-- A digest opcode whose checks pass. -/
theorem State.digestBody_of (hform : w.digestForm = true) (hbusy : s.contextBusy w = false)
    (hbuf : s.bufOk w.slice (w.field 0x10 8) w.srcLen false = true)
    (hout : ∀ a k, w.digestOut = some (a, k) → s.rangeOk w.slice a k true = true)
    (hctx : w.opcode ≠ 0x5010 → s.rangeOk w.slice (w.field 0x20 8) 512 false = true ∧
      s.rangeOk w.slice (w.field 0x20 8) 512 true = true) : s.digestBody w = s.startStream w true [] := by
  have hc : (w.opcode == 0x5010 || (s.rangeOk w.slice (w.field 0x20 8) 512 false &&
      s.rangeOk w.slice (w.field 0x20 8) 512 true)) = true := by
    by_cases h : w.opcode = 0x5010
    · simp [h]
    · simp [hctx h]
  unfold State.digestBody
  dsimp only
  rw [hform, hbusy, hbuf, hc]
  cases ho : w.digestOut with
  | none => rfl
  | some o =>
    simp [hout o.1 o.2 ho]

/-! A stream binds to a unit. -/

theorem mem_insertBy {α : Type} {le : α → α → Bool} {x y : α} {l : List α} (h : x ∈ insertBy le y l) : x = y ∨ x ∈ l := by
  induction l with
  | nil => exact .inl (List.mem_singleton.mp h)
  | cons z l ih =>
    unfold insertBy at h
    split at h
    · exact List.mem_cons.mp h
    · rcases List.mem_cons.mp h with rfl | h
      · exact .inr (List.mem_cons_self ..)
      · exact (ih h).imp_right (List.mem_cons_of_mem _)

theorem mem_of_mem_sortBy {α : Type} {le : α → α → Bool} {x : α} {l : List α} (h : x ∈ sortBy le l) : x ∈ l := by
  induction l with
  | nil => exact h
  | cons y l ih =>
    rcases mem_insertBy h with rfl | h
    · exact List.mem_cons_self ..
    · exact List.mem_cons_of_mem _ (ih h)

/-- The stream whose turn it is waits in the unit and meets the condition. -/
theorem State.streamTurn_mem {u : UnitId} {p : Stream → Work → Bool} {x : Stream} (h : s.streamTurn u p = some (x, w)) :
    x ∈ s.crypto.streams ∧ p x w = true := by
  have hmem := List.mem_filter.mp (mem_of_mem_sortBy (List.mem_of_mem_head? (Option.mem_def.mpr h)))
  obtain ⟨y, hy, hyx⟩ := List.mem_filterMap.mp hmem.1
  obtain ⟨v, -, hv⟩ := Option.map_eq_some_iff.mp hyx
  obtain ⟨rfl, rfl⟩ := Prod.mk.inj hv
  exact ⟨hy, hmem.2⟩

/-- A stream's read that passes its checks. -/
theorem State.streamReads {id master slice addr len : Nat} {kind : ReadKind} {f : Work → Work}
    (h : (s.hostRead kind master slice .stream addr len false).2 = true) (hw : s.workAt id = some w) (hf : ∀ v, (f v).id = v.id) :
    let t := (s.hostRead kind master slice .stream addr len false).1.modWork id f
    At t id (f w).phase ∧ t.books = s.books ∧ (∃ r ∈ t.reads, r.addr = addr ∧ r.len = len ∧ r.failedAt = none) ∧
      t.crypto.streams = s.crypto.streams := by
  intro t
  obtain ⟨jobs, hj⟩ := s.hostRead_crypto kind master slice .stream addr len false
  obtain ⟨_, _, _, r, ho, hr⟩ := State.hostRead_ok h
  have hw' : (s.hostRead kind master slice .stream addr len false).1.workAt id = some w := by
    rw [ho]
    exact hw
  refine ⟨At.of_modWork hw' hf, ?_, ⟨r, ?_, hr.addr, hr.len, hr.failedAt⟩, ?_⟩
  · change (s.hostRead kind master slice .stream addr len false).1.books = _
    rw [ho]
  · change r ∈ (s.hostRead kind master slice .stream addr len false).1.reads
    rw [ho]
    exact List.mem_append_right _ (List.mem_singleton_self _)
  · change (s.hostRead kind master slice .stream addr len false).1.crypto.streams = _
    rw [hj]

/-- The engine of a job does not depend on what its work has read. -/
theorem State.masterStream_modWork (s : State) (id : Nat) {f : Work → Work} (hf : ∀ v, (f v).id = v.id ∧ (f v).phase = v.phase)
    (job : Nat) : (s.modWork id f).masterStream job = s.masterStream job := by
  have hjobs : (s.modWork id f).dmaJobs = s.dmaJobs := by
    have hany (j : Nat) : ((s.modWork id f).work.any fun w => w.id == j && !w.isDone) = s.work.any fun w => w.id == j && !w.isDone := by
      unfold State.modWork
      rw [List.any_map]
      congr 1
      funext w
      simp only [Function.comp, Work.isDone]
      split
      · rw [(hf w).1, (hf w).2]
      · rfl
    unfold State.dmaJobs
    simp only [hany]
    rfl
  unfold State.masterStream
  rw [hjobs]

/-- Address and length of what a stream reads first, with the step that waits for it. -/
def Work.firstRead (w : Work) : Nat × Nat × Nat :=
  match w.preRead with
  | some (a, k) => (a, k, 2)
  | none => if w.aadLen = 0 then (w.field 0x10 8, w.srcLen, 1) else (w.field 0x30 8, w.aadLen, 1)

/-- The first data of a stream of a ring. -/
theorem State.streamNext_reads {x : Stream} (hr : w.ring < 65536) (hw : s.workAt w.id = some w) (hpos : x.pos = 0)
    (htotal : x.total = w.aadLen + w.srcLen) {a n : Nat}
    (hfirst : (a, n) = if w.aadLen = 0 then (w.field 0x10 8, w.srcLen) else (w.field 0x30 8, w.aadLen)) (hn : 0 < n)
    (hread : (s.hostRead (.work w.id 1) (s.masterStream w.id) w.slice .stream a (min (w.stepBytes x.onDigest) n) false).2 = true) :
    let t := s.streamNext w x
    At t w.id (.reading 1) ∧ t.books = s.books ∧
      (∃ r ∈ t.reads, r.addr = a ∧ r.len = min (w.stepBytes x.onDigest) n ∧ r.failedAt = none) ∧
      t.crypto.streams = s.crypto.streams := by
  have ha : w.isApplet = false := by simpa [Work.isApplet] using hr
  have hplace : (if decide (x.pos < w.aadLen) = true then w.field 0x30 8 + x.pos else w.field 0x10 8 + (x.pos - w.aadLen)) = a ∧
      (if decide (x.pos < w.aadLen) = true then w.aadLen else x.total) - x.pos = n ∧ ¬ x.total ≤ x.pos := by
    rw [hpos, htotal]
    split at hfirst
    · next h0 =>
      obtain ⟨rfl, rfl⟩ := Prod.mk.inj hfirst
      simp [h0]
      omega
    · next h0 =>
      obtain ⟨rfl, rfl⟩ := Prod.mk.inj hfirst
      simp [Nat.pos_of_ne_zero h0]
      omega
  obtain ⟨haddr, hlen, htot⟩ := hplace
  have ht : s.streamNext w x = (s.hostRead (.work w.id 1) (s.masterStream w.id) w.slice .stream a (min (w.stepBytes x.onDigest) n)
      false).1.modWork w.id (fun v => { v with phase := .reading 1 }) := by
    unfold State.streamNext
    dsimp only
    rw [haddr, hlen, ha, if_neg (by simpa using htot)]
    exact if_pos hread
  rw [ht]
  exact State.streamReads (f := fun v => { v with phase := .reading 1 }) hread hw fun _ => rfl

/-- The first read of a stream of a ring: a tag or a context, or its first data. -/
theorem State.streamBegin_reads {x : Stream} (hr : w.ring < 65536) (hw : s.workAt w.id = some w) (hpos : x.pos = 0)
    (htotal : x.total = w.aadLen + w.srcLen) (hn : 0 < w.firstRead.2.1) {len : Nat}
    (hlen : len = if w.firstRead.2.2 = 2 then w.firstRead.2.1 else min (w.stepBytes x.onDigest) w.firstRead.2.1)
    (hread : (s.hostRead (.work w.id 0) (s.masterStream w.id) w.slice .stream w.firstRead.1 len false).2 = true) :
    let t := s.streamBegin w x
    At t w.id (.reading w.firstRead.2.2) ∧ t.books = s.books ∧
      (∃ r ∈ t.reads, r.addr = w.firstRead.1 ∧ r.len = len ∧ r.failedAt = none) ∧ t.crypto.streams = s.crypto.streams := by
  have ha : w.isApplet = false := by simpa [Work.isApplet] using hr
  cases hp : w.preRead with
  | some ak =>
    obtain ⟨a, k⟩ := ak
    have hfirst : w.firstRead = (a, k, 2) := by
      unfold Work.firstRead
      rw [hp]
    rw [hfirst] at hlen hread ⊢
    obtain rfl : len = k := hlen
    have ht : s.streamBegin w x = (s.hostRead (.work w.id 0) (s.masterStream w.id) w.slice .stream a len
        false).1.modWork w.id (fun v => { v with phase := .reading 2 }) := by
      unfold State.streamBegin
      rw [ha, hp]
      exact if_pos hread
    rw [ht]
    exact State.streamReads (f := fun v => { v with phase := .reading 2 }) hread hw fun _ => rfl
  | none =>
    let f (v : Work) : Work := { v with input := [[]] }
    let u := s.modWork w.id f
    have hstep : w.firstRead.2.2 = 1 ∧
        (w.firstRead.1, w.firstRead.2.1) = if w.aadLen = 0 then (w.field 0x10 8, w.srcLen) else (w.field 0x30 8, w.aadLen) := by
      unfold Work.firstRead
      rw [hp]
      dsimp only
      split
      · exact ⟨rfl, rfl⟩
      · exact ⟨rfl, rfl⟩
    obtain ⟨hphase, hplace⟩ := hstep
    rw [hphase, if_neg (by decide)] at hlen
    have hm : u.masterStream w.id = s.masterStream w.id := s.masterStream_modWork w.id (f := f) (fun _ => ⟨rfl, rfl⟩) w.id
    have ht : s.streamBegin w x = u.streamNext (f w) x := by
      unfold State.streamBegin
      rw [ha, hp]
      rfl
    rw [ht, hphase]
    have hread' : (u.hostRead (.work w.id 1) (u.masterStream w.id) w.slice .stream w.firstRead.1 len false).2 = true := by
      rw [hm, State.hostRead_congr (s := s) (t := u) rfl rfl _ (.work w.id 0)]
      exact hread
    subst hlen
    exact State.streamNext_reads (w := f w) hr (State.workAt_modWork_same (f := f) hw fun _ => rfl) hpos htotal hplace hn hread'

end

section
variable {s : State} {w : Work} {x : Stream}

/-- The last step of a DIGEST: its digest is written and it ends. -/
theorem State.digestStep_of (hop : w.opcode = 0x5010) {p : Nat}
    (hp : (if w.isApplet then min x.total (x.pos + w.stepBytes x.onDigest) else w.streamData.length) = p) (hall : x.total ≤ p) :
    let v := s.modStream x.work (fun y => { y with pos := p })
    let r := v.streamWrite w (w.field 0x20 8) (((DigestCtx.fresh w.digestAlg).absorb w.digestAlg w.streamData).out w.digestAlg)
    s.streamStep x w = if r.2 then r.1.streamOut w .ok (leBytes 4 (shaSize w.digestAlg)) false else r.1.streamAccess w := by
  intro v r
  have hno : (w.opcode == 0x5000) = false := by rw [hop]; rfl
  have hout : w.digestOut = some (w.field 0x20 8, w.field 0x28 4) := by
    unfold Work.digestOut
    simp only [hop]
  have hend : v.streamEnd w = v.digestEnd w := by
    unfold State.streamEnd
    simp only [hop]
  have hstep : s.streamStep x w = v.digestEnd w := by
    unfold State.streamStep
    dsimp only
    rw [hp, hno, ← hend]
    exact if_pos hall
  rw [hstep]
  unfold State.digestEnd
  simp only [hout, hop, beq_self_eq_true, if_true, Nat.reduceBEq, Bool.or_true, Bool.false_eq_true, if_false, List.append_nil]
  rfl

/-- A stream of a ring that has written its output ends. -/
theorem State.streamOut_ends {v : State} {res : Bytes} {m : Nat} {addr : Nat} {data : Bytes} (hw : v.workAt w.id = some w)
    (hr : w.ring < 65536) :
    let o := v.hostWrite m w.slice .stream (some w.id) addr data
    let t := o.1.streamOut w .ok res false
    Ended t w.id .ok res ∧ t.out = o.1.out ∧ (∀ y ∈ t.crypto.streams, y.work ≠ w.id) ∧ t.books = v.books := by
  have hhas := (v.hostWrite_keepsWork m w.slice .stream (some w.id) addr data).work hr ⟨w, hw, rfl⟩
  have hdrained := v.hostWrite_drained m w.slice .stream (some w.id) addr data
  intro o t
  have ho : o = v.hostWrite m w.slice .stream (some w.id) addr data := rfl
  rw [← ho] at hhas hdrained
  clear_value o
  have hfree : HasWork (o.1.releaseUnits w.id) w.id w.ring := hhas
  have ht : t = (o.1.releaseUnits w.id).finish w.id .ok res := rfl
  obtain ⟨y, hy, hyr⟩ := hfree
  obtain ⟨ends, only, -⟩ := State.finish_ends (st := .ok) res hy (hyr ▸ hr) (by decide) (by decide)
  rw [ht]
  refine ⟨ends, ?_, fun z hz => ?_, ?_⟩
  · rw [only]
    rfl
  · rw [only] at hz
    simpa using (List.mem_filter.mp hz).2
  · rw [only]
    exact hdrained.books

theorem State.releaseUnits_work (s : State) (id : Nat) : (s.releaseUnits id).work = s.work := rfl

theorem State.releaseUnits_books (s : State) (id : Nat) : (s.releaseUnits id).books = s.books := rfl

theorem State.releaseUnits_coreAt (s : State) (id core : Nat) : (s.releaseUnits id).coreAt core = s.coreAt core := rfl

/-- A service call that ends (R347). -/
theorem State.finish_call {core : Nat} (hw : s.workAt w.id = some w) (hr : w.ring = 65536 + core)
    (hmode : (s.coreAt core).mode = .waiting) (hnone : (s.coreAt core).answer = none) (res : Bytes) :
    let t := s.finish w.id .ok res
    ∃ late c, c = { s.coreAt core with answer := some (svcStatus .ok late w.redone false, fit 16 res) } ∧
      ∃ slices, t = ({ s.dropWork w.id with slices := slices } : State).setCore core c := by
  have ha : w.isApplet = true := by
    simp [Work.isApplet, hr]
  have hcore : w.ring - 65536 = core := by omega
  intro t
  obtain ⟨f, hf⟩ := (s.dropWork w.id).countLate_eq w.slice (s.lateAtEnd w)
  have hlate : ∃ slices, (s.dropWork w.id).countLate w.slice (s.lateAtEnd w) = { s.dropWork w.id with slices := slices } := by
    rcases hf with h | h
    · exact ⟨_, h⟩
    · exact ⟨_, h⟩
  obtain ⟨slices, hs⟩ := hlate
  refine ⟨!(s.lateAtEnd w).isEmpty, _, rfl, slices, ?_⟩
  have ht : t = ((s.dropWork w.id).countLate w.slice (s.lateAtEnd w)).answerCore core
      (svcStatus .ok (!(s.lateAtEnd w).isEmpty) w.redone false) (fit 16 res) := by
    change s.finish w.id .ok res = _
    rw [State.finish_eq_finishRaw _ _ (by decide) (by decide)]
    unfold State.finishRaw
    rw [hw]
    dsimp only
    rw [if_pos ha, hcore]
  have hanswers : ((s.coreAt core).mode == CoreMode.waiting && (s.coreAt core).answer.isNone) = true := by
    rw [hmode, hnone]
    rfl
  rw [ht, hs]
  unfold State.answerCore State.modCore
  exact congrArg _ (if_pos hanswers)

theorem State.workAt_dropWork_same (s : State) (id : Nat) : (s.dropWork id).workAt id = none := by
  simp [State.workAt, State.dropWork]

end

/-- Settles O40: three kinds of stream enter their pools, the next one binds, a DIGEST ends. -/
theorem streams : Obligations.Streams := by
  unfold Obligations.Streams
  intro s ring w m n first len enters
  have hfirst : first = w.firstRead := rfl
  have enters_of {i : Instr} {c : State} {digest : Bool} {key : Bytes} (hw : s.workAt w.id = some w) (hc : KeysUsed s c)
      (hi : exec i s = .next (c.startStream w digest key)) : enters i digest key :=
    ⟨_, hi, hc.startStream hw digest key⟩
  refine ⟨fun key hstart hform hbusy hkeys hsrc hdst haad htag => ?_, fun k hstart hform hbusy hk hsess hfail hsuits hbuf htag => ?_,
    fun p hp hstart hform hbusy hbuf hout hctx => ?_,
    fun digest u x hbest hturn hw hx hring hpos htotal hn hread => ?_, fun u x hready hmay hop hw hx => ?_⟩
  · obtain ⟨hs, hw, -⟩ := hstart
    exact enters_of hw (s.cipherKeys_used w) (congrArg Host.Outcome.next ((State.onStart_of hs _).trans
      (State.cipherBody_of hform hbusy hkeys hsrc hdst haad htag)))
  · obtain ⟨hs, hw, -⟩ := hstart
    exact enters_of hw (s.chargeKey_used k) (congrArg Host.Outcome.next ((State.onStart_of hs _).trans
      (State.macBody_of hform hbusy hk hsess hfail hsuits hbuf htag)))
  · obtain ⟨hs, hw, -⟩ := hstart
    have hop : w.opcode = p.1 := State.opcode_of_toStart hs
    have hi : exec p.2 s = .next (s.onStart ring p.1 s.digestBody) := by
      simp only [List.mem_cons, List.not_mem_nil, or_false] at hp
      rcases hp with rfl | rfl | rfl
      · rfl
      · rfl
      · rfl
    exact enters_of hw (.refl s) (hi.trans (congrArg Host.Outcome.next ((State.onStart_of hs _).trans
      (State.digestBody_of hform hbusy hbuf hout (hop ▸ hctx)))))
  · let y : Stream := { x with unit := some u }
    let v := (s.servedSlice (poolUnit digest) w.slice).modStream x.work (fun y => { y with unit := some u })
    have ht : s.bindStream digest = v.streamBegin w y := by
      unfold State.bindStream
      rw [hbest, hturn]
    obtain ⟨hmem, hcond⟩ := State.streamTurn_mem hturn
    have hdig : x.onDigest = digest := by
      simp only [Bool.and_eq_true, beq_iff_eq] at hcond
      exact hcond.1.1
    have hlen : len digest = if w.firstRead.2.2 = 2 then w.firstRead.2.1 else min (w.stepBytes y.onDigest) w.firstRead.2.1 := by
      rw [show y.onDigest = digest from hdig]
      rfl
    have hread' : (v.hostRead (.work w.id 0) (v.masterStream w.id) w.slice .stream w.firstRead.1 (len digest) false).2 = true :=
      (State.hostRead_congr (s := s) (t := v) rfl rfl m (.work w.id 0) (.work w.id 0) w.slice .stream first.1 (len digest)).trans hread
    obtain ⟨hat, hbooks, hr, hstreams⟩ := State.streamBegin_reads (s := v) (x := y) hring hw hpos htotal hn hlen hread'
    refine ⟨_, ht, hat, hbooks, hr, y, ?_, hx, rfl⟩
    rw [hstreams]
    exact List.mem_map.mpr ⟨x, hmem, if_pos (beq_self_eq_true x.work)⟩
  · obtain ⟨hmem, hcond⟩ := State.streamTurn_mem hready
    have hdig : x.onDigest = true := by
      simp only [Bool.and_eq_true, beq_iff_eq] at hcond
      exact hcond.1.1.1
    have hunit : s.unitGrain true u = (s.servedSlice (.digest u) w.slice).streamStep x w := by
      unfold State.unitGrain
      rw [if_neg (by rw [show streamUnit true u = .digest u from rfl, hmay]; decide), hready]
      rfl
    intro d o
    refine ⟨fun hring hall hok => ?_, fun core hring hmode hnone hall => ?_⟩
    · have ha : w.isApplet = false := by simpa [Work.isApplet] using hring
      let v := (s.servedSlice (.digest u) w.slice).modStream x.work (fun y => { y with pos := w.streamData.length })
      have hv : s.onHost v = v := rfl
      have hstep := State.digestStep_of (s := s.servedSlice (.digest u) w.slice) (x := x) hop (p := w.streamData.length)
        (if_neg (by simp [ha])) hall
      have hwrite : v.streamWrite w (w.field 0x20 8) d = v.hostWrite m w.slice .stream (some w.id) (w.field 0x20 8) d :=
        if_neg (by simp [ha])
      obtain ⟨hok', hout⟩ := s.onHost_hostWrite_out v m w.slice (t := .stream) rfl (some w.id) (w.field 0x20 8) d
      rw [hv] at hok' hout
      obtain ⟨ends, htout, hgone, hbooks⟩ := State.streamOut_ends (v := v) (res := leBytes 4 (shaSize w.digestAlg)) (m := m)
        (addr := w.field 0x20 8) (data := d) hw hring
      refine ⟨_, hunit.trans (hstep.trans (if_pos ?_)), ?_⟩
      · change (v.streamWrite w (w.field 0x20 8) d).2 = true
        rw [hwrite, hok']
        exact hok
      · change Ended ((v.streamWrite w (w.field 0x20 8) d).1.streamOut w .ok _ false) _ _ _ ∧ _
        rw [hwrite]
        exact ⟨ends, htout.trans hout, hgone, hbooks⟩
    · have ha : w.isApplet = true := by simp [Work.isApplet, hring]
      have hp : (if w.isApplet then min x.total (x.pos + w.stepBytes x.onDigest) else w.streamData.length) = x.total := by
        rw [if_pos ha, hdig]
        exact Nat.min_eq_left hall
      have hstep := State.digestStep_of (s := s.servedSlice (.digest u) w.slice) hop hp (Nat.le_refl _)
      let c : Core := { s.coreAt core with output := [(w.field 0x20 8, d)] }
      let v := ((s.servedSlice (.digest u) w.slice).modStream x.work (fun y => { y with pos := x.total })).setCore core c
      have hwrite : State.streamWrite ((s.servedSlice (.digest u) w.slice).modStream x.work (fun y => { y with pos := x.total })) w
          (w.field 0x20 8) d = (v, true) := by
        refine (if_pos ha).trans ?_
        rw [show w.ring - 65536 = core by omega]
        rfl
      have hc : (v.releaseUnits w.id).coreAt core = c := (v.releaseUnits_coreAt w.id core).trans (State.setCore_same ..)
      have hwv : (v.releaseUnits w.id).workAt w.id = some w := by
        rw [State.workAt, State.releaseUnits_work]
        exact hw
      obtain ⟨late, c', hc', slices, hend⟩ := State.finish_call (s := v.releaseUnits w.id) hwv hring
        ((congrArg Core.mode hc).trans hmode) ((congrArg Core.answer hc).trans hnone) (leBytes 4 (shaSize w.digestAlg))
      rw [hc] at hc'
      have ht : s.unitGrain true u =
          ({ (v.releaseUnits w.id).dropWork w.id with slices := slices } : State).setCore core c' := by
        refine hunit.trans (hstep.trans ?_)
        rw [hwrite]
        exact hend
      refine ⟨_, late, ht, ?_, ?_, ?_, fun y hy => ?_, fun k hk => ?_, ?_⟩
      · rw [State.setCore_same, hc']
      · rw [State.setCore_same, hc']
      · exact State.workAt_dropWork_same (v.releaseUnits w.id) w.id
      · simpa using (List.mem_filter.mp hy).2
      · exact (State.setCore_other _ _ hk).trans (State.setCore_other _ c hk)
      · exact v.releaseUnits_books w.id

end Sys2Proof.Machine
end

section
/-! SUPPORT. The consumers of the random unit and its test access (R447 to R462). -/

namespace Sys2Proof.Machine
open Sys2Proof

section
variable {s : State} {w : Work}

/-- A work that begins by waiting for the random unit. -/
theorem State.waits_of {f : Work → Work} (use : RngUse) (prio slice need : Nat) (hw : s.workAt w.id = some w)
    (hf : ∀ v, (f v).id = v.id) :
    let t := (s.modWork w.id f).askRandom use prio slice need
    At t w.id (f w).phase ∧ (∃ x ∈ t.rng.waiters, x.use = use) ∧ t = { s with work := t.work, rng := t.rng } := by
  obtain ⟨rng, h, hx⟩ := (s.modWork w.id f).askRandom_of use prio slice need
  intro t
  have ht : t = { s.modWork w.id f with rng := rng } := h
  rw [ht]
  exact ⟨At.of_modWork hw hf, hx, rfl⟩

theorem State.not_mem_dropRandom (use : RngUse) : ∀ y ∈ (s.dropRandom use).rng.waiters, y.use ≠ use := fun y hy => by
  simpa using (List.mem_filter.mp hy).2

/-! The known-answer tests (R457). -/

/-- A first run that yields results has passed both tests. -/
theorem State.katRun_first {x : RngWait} (h : x.need = 3) {c d : Bool} (hr : (s.katRun x).1 = some (c, d)) : c = true ∧ d = true := by
  unfold State.katRun at hr
  rw [if_pos (by exact h)] at hr
  split at hr
  · obtain ⟨rfl, rfl⟩ := Prod.mk.inj (Option.some.inj hr)
    exact ⟨rfl, rfl⟩
  · exact absurd hr (by simp)

theorem State.katFailed_eq (s : State) (detail : Nat) : ∃ logs tamper,
    s.katFailed detail = { s with rng := { s.rng with errKat := true, kat := false }, logs := logs, tamper := tamper } := by
  unfold State.katFailed State.level1
  dsimp only
  split
  · exact ⟨_, _, rfl⟩
  · exact ⟨_, _, rfl⟩

theorem State.katDone_eq (s : State) (c d : Bool) : ∃ rng logs tamper,
    s.katDone c d = { s with rng := rng, logs := logs, tamper := tamper } ∧ rng.waiters = s.rng.waiters ∧
      (c = false ∨ d = false → rng.errKat = true ∧ rng.kat = false) := by
  unfold State.katDone
  cases c with
  | true =>
    cases d with
    | true => exact ⟨_, _, _, rfl, rfl, by simp⟩
    | false =>
      obtain ⟨_, _, h⟩ := s.katFailed_eq 2
      exact ⟨_, _, _, h, rfl, fun _ => ⟨rfl, rfl⟩⟩
  | false =>
    obtain ⟨_, _, h⟩ := s.katFailed_eq 1
    cases d with
    | true => exact ⟨_, _, _, h, rfl, fun _ => ⟨rfl, rfl⟩⟩
    | false =>
      obtain ⟨logs, tamper, h'⟩ := (s.katFailed 1).katFailed_eq 2
      rw [h] at h'
      refine ⟨{ s.rng with errKat := true, kat := false }, logs, tamper, ?_, rfl, fun _ => ⟨rfl, rfl⟩⟩
      dsimp only
      rw [if_neg Bool.false_ne_true, if_neg Bool.false_ne_true, h]
      exact h'

/-- RNG_KAT ends with the results of its tests. -/
theorem State.katRan_ends {x : RngWait} {c d : Bool} (hx : x.use = .kat w.id) (hw : s.workAt w.id = some w) (hr : w.ring < 65536)
    (he : s.brine.entries = []) (hrun : (s.katRun x).1 = some (c, d)) :
    let t := s.katRan x
    Ended t w.id (if c && d then .ok else .fault) (leBytes 1 (flag c + 2 * flag d)) ∧
      (c = false ∨ d = false → t.rng.errKat = true ∧ t.rng.kat = false) ∧ (∀ y ∈ t.rng.waiters, y.use ≠ .kat w.id) ∧
      t.books = s.books ∧ t.keys = s.keys := by
  obtain ⟨rng, logs, tamper, hdone, -, hfail⟩ := State.katDone_eq { s with draws := s.draws + 2 } c d
  let u : State := ({ s with draws := s.draws + 2, rng := rng, logs := logs, tamper := tamper } : State).dropRandom (.kat w.id)
  have ht : s.katRan x = u.finish w.id (if c && d then .ok else .fault) (leBytes 1 (flag c + 2 * flag d)) := by
    have huw : u.workAt w.id = some w := hw
    unfold State.katRan
    dsimp only
    rw [hrun]
    dsimp only
    rw [hx]
    dsimp only
    rw [hdone]
    unfold State.forWork
    change (match u.workAt w.id with | some w => _ | none => u) = _
    rw [huw]
  have hgone : ∀ y ∈ u.rng.waiters, y.use ≠ .kat w.id := State.not_mem_dropRandom _
  intro t
  have ht' : t = _ := ht
  rw [ht']
  cases hcd : c && d with
  | true =>
    obtain ⟨ends, only, -⟩ := State.finish_ends (s := u) (st := .ok) (leBytes 1 (flag c + 2 * flag d)) hw hr (by decide) (by decide)
    rw [if_pos rfl]
    refine ⟨ends, fun h => ?_, ?_⟩
    · rcases h with rfl | rfl
      · exact absurd hcd (by simp)
      · exact absurd hcd (by simp)
    · rw [only]
      exact ⟨hgone, rfl, rfl⟩
  | false =>
    obtain ⟨ends, -, _, _, _, _, only⟩ := State.finish_fault (s := u) (leBytes 1 (flag c + 2 * flag d)) hw hr he
    rw [if_neg Bool.false_ne_true]
    refine ⟨ends, fun h => ?_, ?_⟩
    · rw [only]
      exact hfail h
    · rw [only]
      exact ⟨hgone, rfl, rfl⟩

/-! Steps and their end (R451). -/

theorem State.rngStep_of {f : State → State} (hrun : s.halted = false) (hat : s.rng.stepAt ≠ some s.now)
    (hfree : s.sched.taken.contains .random = false) (hon : s.rng.started.isSome = true) :
    s.rngStep f = f { s with rng := { s.rng with stepAt := some s.now } } := by
  have hnone : s.rng.started.isNone = false := by
    rw [← Option.not_isSome, hon]
    rfl
  unfold State.rngStep
  rw [hnone, hrun, hfree]
  exact if_neg (by simpa using hat)

/-- The end of a step after which every consumer still waits. -/
theorem State.rngGrain_of {use : RngUse} {b : Bytes} (h : s.rng.given = some (use, b)) {t : State}
    (ht : ({ s with rng := if use.isTest then { s.rng with given := none, lastSlice := s.rngServed use } else
      ({ s.rng with given := none, lastSlice := s.rngServed use } : Rng).count (16 * ((b.length + 15) / 16)) } : State).rngGive use b = t)
    (hleft : ∀ y ∈ t.rng.waiters, 0 < y.left) : s.rngGrain = { t with rng := { t.rng with undo := none } } := by
  unfold State.rngGrain
  rw [h]
  dsimp only
  rw [ht]
  have hnone : t.rng.waiters.filter (fun x => x.left == 0 &&
      State.rngOpen { t with rng := { t.rng with undo := none } } x) = [] := by
    refine List.filter_eq_nil_iff.mpr fun y hy => ?_
    simp [Nat.ne_of_gt (hleft y hy)]
  rw [hnone]
  rfl

end

/-- Settles O43, clause by clause. -/
theorem randomService : Obligations.RandomService := by
  unfold Obligations.RandomService
  intro s ring w free
  refine ⟨fun hs hf => ⟨fun hlen => ?_, fun hlen => ?_⟩, fun hs haux hz => ?_,
    fun x hx hw hr he => ⟨fun hneed c d hrun => State.katRun_first hneed hrun,
      fun c d hrun => State.katRan_ends hx hw hr he hrun, fun hrun => ?_⟩,
    fun hs hform hstate => ⟨fun hauth hsrc hout hcan hread => ?_, fun hauth hsrc hcan hread => ?_⟩,
    fun x hx hfree => ⟨fun htest => ?_, fun htest hrel hbuf hleft => ?_⟩,
    fun b hb hwait => ?_, fun b target index x hb hx hwait => ?_,
    fun x hx => ⟨fun hu hw hr => ?_, fun hu hw hr => ?_, fun core hu hmode hnone => ?_⟩⟩
  · have hlt := hs.ring_lt
    obtain ⟨hstart, hw, -⟩ := hs
    obtain ⟨ends, only⟩ := State.finish_ends (st := .ok) [] hw hlt (by decide) (by decide)
    refine ⟨_, congrArg Host.Outcome.next ((State.onStart_of hstart _).trans ?_), ends, only⟩
    unfold State.randomBody
    rw [hf]
    exact if_pos hlen
  · obtain ⟨hstart, hw, -⟩ := hs
    obtain ⟨hat, hwaits, hrest⟩ := State.waits_of (f := fun v => { v with phase := .active 1, pos := 0 }) (.request w.id) 6 w.slice
      (w.field 0x18 4) hw fun _ => rfl
    refine ⟨_, congrArg Host.Outcome.next ((State.onStart_of hstart _).trans ?_), hat, hwaits, hrest⟩
    unfold State.randomBody
    rw [hf]
    exact if_neg hlen
  · obtain ⟨hstart, hw, -⟩ := hs
    obtain ⟨hat, hwaits, hrest⟩ := State.waits_of (f := fun v => { v with phase := .active 1 }) (.kat w.id) 6 w.slice katSteps hw
      fun _ => rfl
    refine ⟨_, congrArg Host.Outcome.next ((State.onStart_of hstart _).trans ?_), hat, hwaits, hrest⟩
    unfold State.katBody
    exact if_neg (by rw [haux, hz]; decide)
  · unfold State.katRan
    dsimp only
    rw [hrun]
  · obtain ⟨hstart, hw, -⟩ := hs
    let o := s.hostRead (.work w.id 1) (s.masterStream w.id) w.slice .stream (w.field 0x10 8) (w.field 0x18 4) false
    obtain ⟨out, mpus, crypto, r, ho, hr⟩ := State.hostRead_ok hread
    have ht : s.injectBody w = o.1.modWork w.id (fun v => { v with phase := .reading 2 }) := by
      have hok : (s.rangeOk w.slice (w.field 0x10 8) (w.field 0x18 4) false &&
          s.rangeOk w.slice (w.field 0x20 8) (w.field 0x28 4) true) = true := by
        rw [hsrc, hout]
        rfl
      unfold State.injectBody
      rw [hform, hstate]
      refine (if_pos hauth).trans ?_
      unfold State.injectSrc
      dsimp only
      rw [hok, hcan]
      exact if_pos hread
    obtain ⟨hat, hbooks, -, -⟩ := State.streamReads (f := fun v => { v with phase := .reading 2 }) hread hw fun _ => rfl
    refine ⟨_, congrArg Host.Outcome.next ((State.onStart_of hstart _).trans ht), hat, ⟨r, ?_, hr.kind, hr.addr, hr.len⟩, hbooks, ?_⟩
    · change r ∈ o.1.reads
      rw [show o.1 = _ from ho]
      exact List.mem_append_right _ (List.mem_singleton_self _)
    · change o.1.rng = s.rng
      rw [show o.1 = _ from ho]
  · obtain ⟨hstart, hw, -⟩ := hs
    refine asks_of (f := fun v => { v with phase := .reading 1 }) hw hread (fun _ => ⟨rfl, rfl⟩)
      (congrArg Host.Outcome.next ((State.onStart_of hstart _).trans ?_))
    unfold State.injectBody
    dsimp only
    rw [hform, hstate, show s.rangeOk w.slice (w.field 0x30 8) authLen false = true from hsrc, hcan]
    exact (if_neg hauth).trans (if_pos hread)
  · obtain ⟨hrun, hat, hfree, hon⟩ := hfree
    refine ⟨_, congrArg Host.Outcome.next ?_, rfl⟩
    unfold State.outputStep
    rw [hx]
    dsimp only
    rw [if_pos htest, State.rngStep_of hrun hat hfree hon]
    rfl
  · obtain ⟨hrun, hat, hfree, hon⟩ := hfree
    intro n
    refine ⟨_, congrArg Host.Outcome.next ?_, rfl⟩
    have hblocks : min (min 8 (s.rng.buf.length / 16)) ((x.left + 15) / 16) ≠ 0 := by omega
    unfold State.outputStep
    rw [hx]
    dsimp only
    rw [htest, hrel, if_neg (by decide), if_neg (by simpa using hblocks), State.rngStep_of hrun hat hfree hon]
  · refine ⟨_, rfl, ?_⟩
    rw [State.rngGrain_of hb rfl hwait]
    exact ⟨rfl, rfl, rfl⟩
  · let since := s.rng.stepAt.getD s.now
    let give (z : RngWait) : RngWait := if z.use == .remask target index then { z with got := z.got ++ b, since := since } else z
    have huse (z : RngWait) : (give z).use = z.use := by
      unfold give
      split
      · rfl
      · rfl
    have hleft : ∀ y ∈ s.rng.waiters.map give, 0 < y.left := by
      intro y hy
      obtain ⟨z, hz, rfl⟩ := List.mem_map.mp hy
      obtain ⟨hpos, hmore⟩ := hwait z hz
      unfold give
      split
      · next hu =>
        have := hmore (by simpa using hu)
        unfold RngWait.left at this ⊢
        simp only [List.length_append]
        omega
      · exact hpos
    have hfind : (s.rng.waiters.map give).find? (fun y => y.use == .remask target index) = some (give x) := by
      rw [List.find?_map]
      simp only [Function.comp_def, huse, hx]
      rfl
    have hgive : give x = { x with got := x.got ++ b, since := since } := if_pos (by simpa using List.find?_some hx)
    refine ⟨_, give x, rfl, ?_⟩
    rw [State.rngGrain_of hb rfl hleft, hgive]
    rw [hgive] at hfind
    exact ⟨hfind, rfl, rfl, rfl, rfl⟩
  · let u : State := s.dropRandom x.use
    let v : State := { u with rng := { u.rng with timeouts := s.rng.timeouts + 1 } }
    have ht : s.rngTimeout = v.finish w.id .noEntropy (leBytes 4 w.pos) := by
      unfold State.rngTimeout
      rw [hx]
      dsimp only
      rw [hu]
      dsimp only
      rw [← hu]
      change (match v.workAt w.id with | some w => _ | none => v) = _
      rw [show v.workAt w.id = some w from hw]
      rfl
    obtain ⟨ends, only, -⟩ := State.finish_ends (s := v) (st := .noEntropy) (leBytes 4 w.pos) hw hr (by decide) (by decide)
    refine ⟨_, congrArg Host.Outcome.next ht, ends, ?_⟩
    rw [only]
    exact ⟨State.not_mem_dropRandom _, rfl, rfl⟩
  · let u : State := s.dropRandom x.use
    let v : State := { u with rng := { u.rng with timeouts := s.rng.timeouts + 1 } }
    have ht : s.rngTimeout = v.refuse w 12 .noEntropy := by
      unfold State.rngTimeout
      rw [hx]
      dsimp only
      rw [hu]
      dsimp only
      rw [← hu]
      change (match v.workAt w.id with | some w => _ | none => v) = _
      rw [show v.workAt w.id = some w from hw]
      rfl
    obtain ⟨ends, only⟩ := State.refuse_ends (s := v) (st := .noEntropy) hw hr 12 (by decide) (by decide)
    refine ⟨_, congrArg Host.Outcome.next ht, ends, ?_⟩
    rw [only]
    exact ⟨State.not_mem_dropRandom _, rfl, rfl, rfl⟩
  · let u : State := s.dropRandom x.use
    let v : State := { u with rng := { u.rng with timeouts := s.rng.timeouts + 1 } }
    have ht : s.rngTimeout = v.answerCore core (svcStatus .noEntropy false false false) (leBytes 4 0) := by
      unfold State.rngTimeout
      rw [hx]
      dsimp only
      rw [hu]
      dsimp only
      rw [← hu]
      rfl
    have hanswers : ((s.coreAt core).mode == CoreMode.waiting && (s.coreAt core).answer.isNone) = true := by
      rw [hmode, hnone]
      rfl
    have hcore : v.answerCore core (svcStatus .noEntropy false false false) (leBytes 4 0) = v.setCore core
        { s.coreAt core with answer := some (svcStatus .noEntropy false false false, leBytes 4 0) } := by
      unfold State.answerCore State.modCore
      exact congrArg _ (if_pos hanswers)
    refine ⟨_, congrArg Host.Outcome.next (ht.trans hcore), ?_, fun k hk => State.setCore_other _ _ hk, State.not_mem_dropRandom _,
      rfl, rfl, rfl, rfl, rfl⟩
    unfold Answered
    rw [State.setCore_same]

end Sys2Proof.Machine
end

section
/-! SUPPORT. The sources, the conditioner and the DRBG (R440 to R460). -/

namespace Sys2Proof.Machine
open Sys2Proof

section
variable (s : State)

/-- A use that is asked for changes only the waiters. -/
theorem State.askRandom_waiters (use : RngUse) (prio slice need : Nat) : ∃ ws,
    s.askRandom use prio slice need = { s with rng := { s.rng with waiters := ws } } ∧ ∃ x ∈ ws, x.use = use := by
  unfold State.askRandom
  split
  · next h =>
    obtain ⟨x, hx, hu⟩ := List.any_eq_true.mp h
    exact ⟨_, rfl, x, hx, by simpa using hu⟩
  · exact ⟨_, rfl, _, List.mem_append_right _ (List.mem_singleton.mpr rfl), rfl⟩

/-! A block of every source (R441 to R444). -/

theorem State.blockSources_eq (k : Nat) (l : List Bytes) : ∃ sources,
    s.blockSources k l = { s with rng := { s.rng with sources := sources } } := by
  induction l generalizing s k with
  | nil => exact ⟨_, rfl⟩
  | cons b l ih =>
    obtain ⟨sources, h⟩ := ih (s.setSource k ((s.sourceAt k).block b)) (k + 1)
    exact ⟨sources, h⟩

theorem State.blockSources_below {k j : Nat} (l : List Bytes) (h : j < k) : (s.blockSources k l).sourceAt j = s.sourceAt j := by
  induction l generalizing s k with
  | nil => rfl
  | cons b l ih => exact (ih _ (Nat.lt_succ_of_lt h)).trans (s.setSource_other _ (Nat.ne_of_lt h))

/-- The source whose block is the `i`th of the list. -/
theorem State.blockSources_at (k i : Nat) {l : List Bytes} (h : i < l.length) :
    (s.blockSources k l).sourceAt (k + i) = (s.sourceAt (k + i)).block (l.getD i []) := by
  induction l generalizing s k i with
  | nil => exact absurd h (Nat.not_lt_zero i)
  | cons b l ih =>
    cases i with
    | zero => exact (State.blockSources_below _ l (Nat.lt_succ_self k)).trans (s.setSource_same k _)
    | succ i =>
      have hk : k + (i + 1) = k + 1 + i := by omega
      have hold : (s.setSource k ((s.sourceAt k).block b)).sourceAt (k + 1 + i) = s.sourceAt (k + 1 + i) :=
        s.setSource_other _ (by omega)
      rw [hk]
      refine (ih _ (k + 1) i (Nat.lt_of_succ_lt_succ h)).trans ?_
      rw [hold]
      rfl

/-- The entries of a list whose index meets a condition. -/
theorem map_fst_filter_zipIdx (p : Nat → Bool) (l : List Bytes) (k : Nat) :
    ((l.zipIdx k).filter (fun q => p q.2)).map Prod.fst =
      ((List.range' k l.length).filter p).map (fun i => l.getD (i - k) []) := by
  induction l generalizing k with
  | nil => rfl
  | cons b l ih =>
    have hrest : ((List.range' (k + 1) l.length).filter p).map (fun i => (b :: l).getD (i - k) []) =
        ((List.range' (k + 1) l.length).filter p).map (fun i => l.getD (i - (k + 1)) []) := by
      refine List.map_congr_left fun i hi => ?_
      have hk : k + 1 ≤ i := (List.mem_range'_1.mp (List.mem_filter.mp hi).1).1
      have hs : i - k = i - (k + 1) + 1 := by omega
      rw [hs]
      rfl
    rw [List.zipIdx_cons, List.length_cons, List.range'_succ]
    by_cases h : p k = true
    · rw [List.filter_cons_of_pos h, List.filter_cons_of_pos (p := fun q : Bytes × Nat => p q.2) (a := (b, k)) h, List.map_cons, List.map_cons, ih, hrest, Nat.sub_self]
      rfl
    · rw [List.filter_cons_of_neg h, List.filter_cons_of_neg (p := fun q : Bytes × Nat => p q.2) (a := (b, k)) h, ih, hrest]

/-- The combined block of R441. -/
theorem State.combined_eq {samples : List Bytes} (h : samples.length = 11) :
    let good := (List.range 11).filter (fun k => (s.sourceAt k).passing)
    s.combined samples = if good = [] then none else some ((good.map (fun k => samples.getD k [])).foldl xorBytes (zeros 128)) := by
  intro good
  have hok : (samples.zipIdx.filter (fun p => (s.sourceAt p.2).passing)).map Prod.fst = good.map (fun k => samples.getD k []) := by
    rw [map_fst_filter_zipIdx (fun k => (s.sourceAt k).passing), h]
    rfl
  unfold State.combined
  rw [hok]
  simp only [List.isEmpty_iff, List.map_eq_nil_iff]

end

/-- Settles O42, step by step. -/
theorem randomUnit : Obligations.RandomUnit := by
  unfold Obligations.RandomUnit
  intro s r steps only
  let v : State := { s with rng := { s.rng with stepAt := some s.now } }
  have runs {f : State → State} (h : steps) : s.rngStep f = f v :=
    State.rngStep_of h.2.1 h.2.2.1 h.2.2.2 h.1
  have hmet (l : List Nat) : (l.filter (· != 5)).contains 5 = false := by simp
  refine ⟨fun samples hlen hon hrun => ?_, fun b rest hs hstart hb => ?_, fun hs hinst hstart hkat herr hpool => ?_,
    fun hs hdue hslot hpool hpass => ?_, fun hinst hlate hover => ?_, fun g hg hstart hslow hlate => ?_,
    fun n hup hrun hspent => ⟨fun hbit hn => ?_, fun hno => ?_⟩⟩
  · intro src good
    let u := s.blockSources 0 samples
    obtain ⟨sources, hu⟩ := s.blockSources_eq 0 samples
    have hsrc (k : Nat) (hk : k < 11) : u.sourceAt k = src k := by
      have h := s.blockSources_at 0 k (l := samples) (by omega)
      rwa [Nat.zero_add] at h
    have hgood : (List.range 11).filter (fun k => (u.sourceAt k).passing) = good :=
      List.filter_congr fun k hk => by rw [hsrc k (List.mem_range.mp hk)]
    have hcomb := u.combined_eq hlen
    rw [hgood] at hcomb
    let v : State := if good = [] then
        { u with rng := { u.rng with buf := [], callLeft := 0, nonePassing := true, freshNeeded := 3 + u.rng.blocks.length } }
      else { u with rng := { u.rng with
        blocks := u.rng.blocks ++ [(good.map (fun k => samples.getD k [])).foldl xorBytes (zeros 128)] } }
    let passed := !v.rng.startup && (List.range sourceCount).all (fun k => (v.sourceAt k).startOk)
    have ht : s.blockEnd samples = if passed then
        ({ v with rng := { v.rng with startup := true } } : State).askRandom .startTests 6 1024 katSteps else v := by
      have hnone : s.rng.started.isNone = false := by
        rw [← Option.not_isSome, show s.rng.started.isSome = true from hon]
        rfl
      have htake : samples.take sourceCount = samples := List.take_of_length_le (Nat.le_of_eq hlen)
      have hgiven : (match u.combined samples with
          | some b => { u with rng := { u.rng with blocks := u.rng.blocks ++ [b] } }
          | none => { u with rng := { u.rng with
            buf := [], callLeft := 0, nonePassing := true, freshNeeded := 3 + u.rng.blocks.length } }) = v := by
        by_cases hg : good = []
        · rw [hcomb.trans (if_pos hg)]
          exact (if_pos hg).symm
        · rw [hcomb.trans (if_neg hg)]
          exact (if_neg hg).symm
      unfold State.blockEnd
      rw [hnone, hrun, if_neg (by decide), htake]
      unfold passed
      rw [← hgiven] <;> rfl
    have hend : ∃ st ws, s.blockEnd samples = { v with rng := { v.rng with startup := st, waiters := ws } } ∧
        (passed = true → st = true ∧ ∃ x ∈ ws, x.use = .startTests) := by
      rw [ht]
      split
      · obtain ⟨ws, h, hx⟩ := State.askRandom_waiters { v with rng := { v.rng with startup := true } } .startTests 6 1024 katSteps
        exact ⟨true, ws, h, fun _ => ⟨rfl, hx⟩⟩
      · next h => exact ⟨_, _, rfl, fun h' => absurd h' h⟩
    obtain ⟨st, ws, heq, htests⟩ := hend
    have hvsrc (k : Nat) (hk : k < 11) : v.sourceAt k = src k := by
      rw [← hsrc k hk]
      unfold v
      split
      · rfl
      · rfl
    refine ⟨s.blockEnd samples, rfl, ?_⟩
    rw [heq]
    refine ⟨?_, hvsrc, fun hg => ?_, fun hg => ?_, fun hst hok => htests ?_⟩
    · change _ = { s with rng := { v.rng with startup := st, waiters := ws } }
      unfold v
      split
      · rw [show u = _ from hu]
      · rw [show u = _ from hu]
    · unfold v
      rw [if_neg hg, show u = _ from hu]
    · unfold v
      rw [if_pos hg, show u = _ from hu]
      exact ⟨rfl, rfl, rfl, rfl⟩
    · have hvst : v.rng.startup = false := by
        rw [← hst]
        unfold v
        split
        · rw [show u = _ from hu]
        · rw [show u = _ from hu]
      have hall : (List.range sourceCount).all (fun k => (v.sourceAt k).startOk) = true := by
        rw [List.all_eq_true]
        intro k hk
        have hk' : k < 11 := List.mem_range.mp hk
        rw [hvsrc k hk']
        exact hok k hk'
      unfold passed
      rw [hvst, hall]
      rfl
  · refine ⟨s.conditioning, rfl, ?_⟩
    have ht : s.conditioning = { v with rng := { v.rng with
        blocks := rest, pool := (r.pool ++ [condition b]).drop ((r.pool ++ [condition b]).length - 3),
        freshNeeded := r.freshNeeded - 1, undo := some (v.rngSaved (some b)) } } := by
      unfold State.conditioning
      rw [show s.rng.blocks = b :: rest from hb]
      exact (if_neg (by rw [show s.rng.startup = true from hstart]; decide)).trans (runs hs)
    rw [ht]
    refine ⟨rfl, rfl, ?_, rfl⟩
    change List.drop _ _ = _
    rw [List.length_append]
    rfl
  · intro u
    have ht : s.instantiate = ({ v with rng := { v.rng with
        key := u.1, v := u.2, inst := true, calls := 0, callLeft := 0, seededAt := s.now, pool := [],
        nonePassing := false, undo := some (v.rngSaved none) } } : State).reseedMet := by
      unfold State.instantiate
      refine (if_neg ?_).trans (runs hs)
      rw [show s.rng.inst = false from hinst, show s.rng.startup = true from hstart, show s.rng.kat = true from hkat,
        show s.rng.errKat = false from herr, hpool]
      decide
    refine ⟨s.instantiate, rfl, ?_⟩
    rw [ht]
    exact ⟨rfl, hmet _, rfl, rfl, rfl, rfl, rfl, rfl⟩
  · intro k u
    have hk : (if (r.callLeft == 0) = true then (r.key, r.v) else drbgUpdate r.key r.v (zeros 48)) = k := by
      simp only [beq_iff_eq, k]
    have ht : s.reseed = ({ v with rng := { v.rng with
        key := u.1, v := u.2, calls := 0, callLeft := 0, seededAt := s.now, pool := [], nonePassing := false,
        reseeds := r.reseeds + 1,
        undo := some (v.rngSaved none) } } : State).reseedMet := by
      unfold State.reseed
      refine (if_neg (by rw [hdue, hslot, hpool, hpass]; decide)).trans ((runs hs).trans ?_)
      dsimp only
      rw [show v.rng.callLeft = r.callLeft from rfl, show v.rng.key = r.key from rfl, show v.rng.v = r.v from rfl, hk]
      rfl
    refine ⟨s.reseed, rfl, ?_⟩
    rw [ht]
    exact ⟨rfl, rfl, rfl, rfl, rfl, rfl, hmet _, rfl⟩
  · let missed := if s.sched.missed.contains 5 then s.sched.missed else 5 :: s.sched.missed
    let u : State := { s with
      rng := { r with errLate := true }, sched := { s.sched with overdue := 5 :: s.sched.overdue, missed := missed, bgMiss := true } }
    have hfresh : s.seedFresh = false := by
      unfold State.seedFresh pound
      exact decide_eq_false (Nat.not_lt.mpr hlate)
    have ht : s.reseedOverdue = u.plogEvent unitSched 0x09 0 0xFFFF 0xFFFF 5 := by
      unfold State.reseedOverdue
      rw [show s.rng.inst = true from hinst, hfresh, hover, if_pos (by decide)]
      rfl
    refine ⟨_, congrArg Host.Outcome.next ht, rfl, ?_, rfl, ?_, rfl⟩
    · change (5 :: s.sched.overdue).contains 5 = true
      simp
    · exact u.plogEvent_logged unitSched 0x09 0 0xFFFF 0xFFFF 5
  · let u : State := { s with rng := { r with errSlow := true } }
    have ht : s.startupSlow = u.plogEvent 12 0x0D 0 0xFFFF 0xFFFF 1 := by
      have hdue : decide (s.now < g + pound) = false := by
        unfold pound
        exact decide_eq_false (Nat.not_lt.mpr hlate)
      unfold State.startupSlow
      rw [show s.rng.started = some g from hg]
      refine if_neg ?_
      rw [show s.rng.startup = false from hstart, show s.rng.errSlow = false from hslow, hdue]
      decide
    exact ⟨_, congrArg Host.Outcome.next ht, rfl, u.plogEvent_logged 12 0x0D 0 0xFFFF 0xFFFF 1, rfl⟩
  · have hspent' : (s.tamper.state == .spent) = false := by simpa using hspent
    have hread : s.rngData n = (r.fifo.take n, { s with rng := { r with fifo := r.fifo.drop n } }) := by
      refine if_neg ?_
      have hn' : n ≤ s.rng.fifo.length := hn
      simp [hbit, hn']
    have hi : exec (.rngDataRead n) s = .next ((s.rngData n).2.emit (.barRead 0x090000 (s.rngData n).1)) := by
      refine (if_pos hup).trans ?_
      rw [hrun, hspent']
      rfl
    rw [hi, hread]
    rfl
  · have hspent' : (s.tamper.state == .spent) = false := by simpa using hspent
    have hread : s.rngData n = (zeros n, { s with rng := { r with errEmpty := true } }) := by
      refine if_pos ?_
      rcases hno with h | h
      · simp [h]
      · simp [show s.rng.fifo.length < n from h]
    have hi : exec (.rngDataRead n) s = .next ((s.rngData n).2.emit (.barRead 0x090000 (s.rngData n).1)) := by
      refine (if_pos hup).trans ?_
      rw [hrun, hspent']
      rfl
    rw [hi, hread]
    rfl

end Sys2Proof.Machine
end

section
/-! SUPPORT. A table of sessions that is not in order: the counterexample to O37. -/

namespace Sys2Proof.Machine
open Sys2Proof

/-- A session of slice 0 that may derive others without limit. -/
def unlimitedSession : Session :=
  { Session.reset with isOpen := true, attr := 0x00440100, masked := zeros 32, mask := zeros 32 }

/-- The first 112 bytes of a SESSION_DERIVE of one label of one byte, for a key without limit. -/
def deriveHead : Bytes :=
  zeros 16 ++ [1] ++ zeros 15 ++ [0, 0, 0x40, 0] ++ zeros 12 ++ [1] ++ zeros 63

/-- Its MAC under a key of 32 zero bytes. -/
def deriveMac : Bytes := [241, 58, 237, 160, 242, 89, 131, 254, 245, 59, 13, 164, 114, 112, 188, 193]

/-- The descriptor, under session 3. -/
def deriveWork : Work :=
  { State.reset.newWork 0 0 1 (deriveHead ++ deriveMac) with opcode := 0x4002, session := 3, aux := 0, slice := 0 }

/-- Session 5 stands before session 3, so that charging session 3 lists it a second time; the slice may hold three. -/
def disorderedSessions : State :=
  { State.reset with
    work := [deriveWork]
    slices := [(0, { Slice.reset with sessQuota := 3 })]
    keys := { State.reset.keys with sessions := [(5, unlimitedSession), (3, unlimitedSession)] } }

/-- The MAC verifies, yet no context is opened. -/
theorem disorderedSessions_refused : deriveWork.macOk (disorderedSessions.sessionAt 3).key 0x80 = true ∧
    (disorderedSessions.contextReady deriveWork []).sessionAt 0 = Session.reset := by
  decide +kernel

/-- Refutes O37: where the table of sessions is not in order, the charge of SESSION_DERIVE lists its session a second time, and the
count of the slice's sessions reaches the quota: no context is opened. -/
theorem not_sessions : ¬ Obligations.Sessions := by
  unfold Obligations.Sessions
  intro h
  obtain ⟨-, hderive, -⟩ := h disorderedSessions 0 deriveWork
  obtain ⟨hmac, hrefused⟩ := disorderedSessions_refused
  obtain ⟨-, hopened⟩ := hderive [] 0 rfl (by decide) (by decide) (by decide) (by decide) (by decide) (by decide) (by decide) (by decide)
    hmac (by decide) (by decide) (by decide) (by decide) (by decide)
  obtain ⟨y, hy, -, hopen, -⟩ := hopened (by decide) (by decide) rfl
  rw [hrefused] at hy
  rw [← hy] at hopen
  exact absurd hopen (by decide)

end Sys2Proof.Machine
end

section
/-! SUPPORT. A fence that returns journal room: the counterexample to O38. -/

namespace Sys2Proof.Machine
open Sys2Proof

/-- A FAMILY_READ of family 0 in ring 0. -/
def familyWork : Work := State.reset.newWork 0 0 1 (leBytes 2 0x4011 ++ zeros 62)

/-- An earlier posting of its ring and of book 0, uncommitted, for which one journal byte is set aside. -/
def reservingEntry : Entry :=
  { State.reset.entryOf (State.reset.newWork 0 1 1 []) with src := 7, applet := false, book := 0, ring := 0, reserved := 1 }

/-- The record of family 0 stands in a page that holds no committed copy. -/
def unreadableFamily : State :=
  { State.reset with
    work := [familyWork]
    sched := { State.reset.sched with served := [(.mgmt, 2)] }
    books := [(0, { Book.reset with reserved := 1 })]
    brine := { State.reset.brine with entries := [reservingEntry] }
    nv := { Nv.reset with maps := [(recKey partKeys (recFamily 0), [0])], pages := [(0, NvPage.blank)] } }

/-- The FAULT fences the ring, and the posting that the fence ends gives its journal room back. -/
theorem unreadableFamily_reserved : ∃ t, exec (.familyRead 0) unreadableFamily = .next t ∧ (t.bookAt 0).reserved = 0 :=
  ⟨_, rfl, by decide⟩

/-- Refutes O38: a FAMILY_READ that ends with FAULT fences its ring; where an uncommitted posting of that ring stands in the
window, its journal room returns to its book, which so does not stay as it was. -/
theorem not_keyUpkeep : ¬ Obligations.KeyUpkeep := by
  unfold Obligations.KeyUpkeep
  intro h
  obtain ⟨-, hfamily, -⟩ := h unreadableFamily 0 familyWork
  obtain ⟨-, hfault⟩ := hfamily ⟨by decide, by decide, by decide⟩ (by decide) (by decide) (by decide)
  obtain ⟨t, _, ht, -, -, hbooks⟩ := hfault (by decide)
  obtain ⟨u, hu, hroom⟩ := unreadableFamily_reserved
  obtain rfl : t = u := Host.Outcome.next.inj (ht.symm.trans hu)
  rw [State.bookAt, hbooks] at hroom
  exact absurd hroom (by decide)

end Sys2Proof.Machine
end

section
/-! SUPPORT. A table of books that lists one twice: the counterexample to O25. -/

namespace Sys2Proof.Machine
open Sys2Proof

/-- Book 0 holds nothing but a write-back under way; behind it stands a second entry of book 0 with a commit. -/
def doubledBook : State :=
  { State.reset with
    books := [(0, { Book.reset with wb := some { work := 0, phase := 1, passes := 0, cut := 0, heads := [], hold := false,
                                                 mute := false, grain := 0, ended := 0, root := [] } }),
      (0, { Book.reset with lseq := 1 })]
    nv := { Nv.reset with running := true }
    pwr := { State.reset.pwr with starting := true } }

/-- The power failure ends the write-back; the first entry is then the default and leaves the table. -/
theorem doubledBook_lseq : ∃ t, exec (.mainRailFail 0) doubledBook = .next t ∧ (t.bookAt 0).lseq = 1 :=
  ⟨_, rfl, by decide⟩

/-- Refutes O25: in a table of books that lists one twice, the end of its write-back at a power failure removes the first entry, so
that the book reads with the LSEQ of the second. -/
theorem not_powerFailures : ¬ Obligations.PowerFailures := by
  unfold Obligations.PowerFailures
  intro h
  obtain ⟨hfail, -⟩ := h
  obtain ⟨hmarked, -⟩ := hfail doubledBook
  obtain ⟨hrail, -⟩ := hmarked (by decide) rfl
  obtain ⟨t, ht, -, ⟨-, -, -, hbooks⟩, -⟩ := hrail 0 (by decide)
  obtain ⟨u, hu, hlseq⟩ := doubledBook_lseq
  obtain rfl : t = u := Host.Outcome.next.inj (ht.symm.trans hu)
  obtain ⟨-, hkeep⟩ := hbooks 0
  rw [hkeep] at hlseq
  exact absurd hlseq (by decide)

end Sys2Proof.Machine
end

section
/-! SUPPORT. A serial number that two works share: the counterexample to O11. -/

namespace Sys2Proof.Machine
open Sys2Proof

/-- A TALLY_CLOSE that is held, of a ring or, from ring 65536 on, of a service call. -/
def heldClose (ring : Nat) : Work :=
  { State.reset.newWork ring 0 1 (leBytes 2 0x2012 ++ zeros 62) with opcode := 0x2012, phase := .held }

/-- Ring 0 and core 0 each hold a TALLY_CLOSE, both with serial number 0; book and session 0 are open, and there is room. -/
def sharedSerial : State :=
  { State.reset with
    work := [heldClose 0, heldClose 65536]
    sched := { State.reset.sched with grain := 1, admitLeft := 8 }
    books := [(0, { Book.reset with st := .open_, jSize := 20, adjReserve := 0 })]
    keys := { State.reset.keys with sessions := [(0, { Session.reset with isOpen := true, attr := 0x00400000 })] }
    pwr := { State.reset.pwr with step := 9 } }

/-- The call of the core enters the window without a work of its own, and every work with its serial number goes. -/
theorem sharedSerial_gone : ∃ t, exec .postingAdmission sharedSerial = .next t ∧ t.workAt 0 = none :=
  ⟨_, rfl, by decide⟩

/-- Refutes O11: where a held service call has the serial number of a held descriptor, its admission behind the descriptor's removes
both works. -/
theorem not_admissions : ¬ Obligations.Admissions := by
  unfold Obligations.Admissions
  intro h
  obtain ⟨-, -, hposting, -⟩ := h
  obtain ⟨t, v, ht, hv, -⟩ := hposting sharedSerial (heldClose 0) [heldClose 65536] (by decide) rfl (by decide)
    (by decide) (by decide) (by decide) (by decide) (by decide) (by decide) (by decide)
    (by decide)
  obtain ⟨u, hu, hgone⟩ := sharedSerial_gone
  obtain rfl : t = u := Host.Outcome.next.inj (ht.symm.trans hu)
  exact absurd (hv.symm.trans hgone) (by simp)

end Sys2Proof.Machine
end

section
/-! SUPPORT. A page of the flush that cannot be written: the counterexample to O49. -/

namespace Sys2Proof.Machine
open Sys2Proof

/-- INDEX 0 of a copy of two pages whose INDEX 1 has not been written, and for whose commit the FAMILY_READ of `familyWork` waits. -/
def partialCopy : WbEntry :=
  { key := recKey partHeads recGrain, kind := 2, index := 0, pages := 2, data := [], first := 0, img := [],
    sync := [{ work := familyWork.id, core := none, last := true, ok := [], fail := [] }], frozen := true, badCw := [] }

/-- The flush that saves. -/
def savingFlush : Flush := { since := 0, step := .save, cut := false }

/-- A flush that has still to write `partialCopy`, while a posting of the waiting descriptor's ring stands in the window. -/
def savingState : State :=
  { unreadableFamily with
    sched := { State.reset.sched with running := true, fresh := false }
    pwr := { State.reset.pwr with flush := some savingFlush }
    nv := { Nv.reset with wbuf := [partialCopy] } }

/-- The page is not written: what waited for it ends with FAULT, its ring is fenced, and the posting's journal room returns to its book. -/
theorem savingState_reserved :
    ∃ t, exec (.grainBoundary none) savingState = .next t ∧ (t.bookAt 0).reserved = 0 :=
  ⟨_, rfl, by decide⟩

/-- Refutes O49: a page write of the flush that fails ends what waited for it with FAULT; where an uncommitted posting of that ring stands
in the window, its journal room returns to its book, which so does not stay as it was. -/
theorem not_grainBoundary : ¬ Obligations.GrainBoundary := by
  unfold Obligations.GrainBoundary
  intro h
  obtain ⟨-, -, -, hflush, -⟩ := h savingState
  obtain ⟨-, hsave, -⟩ := hflush savingFlush (by decide) rfl rfl rfl
  obtain ⟨t, ht, -, -, hbooks⟩ := hsave rfl (fun hdone => absurd (congrArg List.length hdone.1) (by decide))
  obtain ⟨u, hu, hroom⟩ := savingState_reserved
  obtain rfl : t = u := Host.Outcome.next.inj (ht.symm.trans hu)
  rw [State.bookAt, hbooks] at hroom
  exact absurd hroom (by decide)

end Sys2Proof.Machine
end

section
/-! SUPPORT. Moving a book (R214 to R217). -/

namespace Sys2Proof.Machine
open Sys2Proof

section
variable {s : State} {w : Work}

theorem State.startPrepare_of (h : s.prepareFail w = none) : s.startPrepare w =
    (s.modWork w.id (fun v => { v with phase := .active 1 })).askRandom (.nonce w.id) 4 w.slice 16 := by
  unfold State.startPrepare
  rw [h]

/-- Checks that charge at most the session. -/
theorem State.handoverFail_keys (s : State) (w : Work) : ∃ keys, (s.handoverFail w).1 = { s with keys := keys } := by
  unfold State.handoverFail
  dsimp only
  split
  · exact ⟨_, rfl⟩
  · split
    · exact ⟨_, rfl⟩
    · split <;> exact ⟨_, rfl⟩

theorem State.adoptFail_keys (s : State) (w : Work) : ∃ keys, (s.adoptFail w).1 = { s with keys := keys } := by
  unfold State.adoptFail
  dsimp only
  split
  · exact ⟨_, rfl⟩
  · split
    · exact ⟨_, rfl⟩
    · split <;> exact ⟨_, rfl⟩

theorem State.startHandover_of (hbusy : s.sessionBusy w.session = false) (h : (s.handoverFail w).2 = none) : s.startHandover w =
    ((s.handoverFail w).1.modBook w.slice (fun b => { b with handover := some w.id })).modWork w.id (fun v =>
      { v with phase := .active 1, admitted := some s.now }) := by
  unfold State.startHandover
  rw [hbusy]
  dsimp only
  rw [h]
  rfl

theorem State.startAdopt_of (hbusy : s.sessionBusy w.session = false) (hcan : s.canRead (masterJournal w.slice) = true)
    (h : (s.adoptFail w).2 = none) (hread : ((s.adoptFail w).1.hostRead (.work w.id 0) (masterJournal w.slice) w.slice .statement
      (w.field 0x10 8) (w.field 0x18 4) false).2 = true) : s.startAdopt w =
    ((s.adoptFail w).1.hostRead (.work w.id 0) (masterJournal w.slice) w.slice .statement (w.field 0x10 8) (w.field 0x18 4)
      false).1.modWork w.id (fun v => { v with phase := .reading 1 }) := by
  unfold State.startAdopt
  rw [hbusy, hcan]
  dsimp only
  rw [h]
  exact if_pos hread

end

/-- The read of a named buffer, sent behind checks that have charged a session at most. -/
theorem asks_charged {i : Instr} {s : State} {keys : KeyStore} {id n master slice addr len : Nat} {t : Traffic} {w : Work}
    {f : Work → Work} (hw : s.workAt id = some w)
    (hok : (({ s with keys := keys } : State).hostRead (.work id 0) master slice t addr len false).2 = true)
    (hf : ∀ v, (f v).id = v.id ∧ (f v).phase = .reading n)
    (hi : exec i s = .next ((({ s with keys := keys } : State).hostRead (.work id 0) master slice t addr len false).1.modWork id f)) :
    Asks i s id n addr len := by
  obtain ⟨out, mpus, crypto, r, h, hr⟩ := State.hostRead_ok hok
  rw [h] at hi
  refine ⟨_, hi, ?_, ⟨r, List.mem_append_right _ (List.mem_singleton.mpr rfl), hr.kind, hr.addr, hr.len, hr.failedAt⟩, rfl,
    rfl, rfl, rfl, rfl⟩
  have hn := State.workAt_modWork_same (f := f) (s := { s with
    keys := keys, out := out, mpus := mpus, crypto := crypto, nextId := s.nextId + 1, reads := s.reads ++ [r] }) hw fun v => (hf v).1
  unfold At
  rw [hn]
  exact congrArg some (hf w).2

/-- An accepted HANDOVER stands in its book, which accepts no later work. -/
theorem handover_of {s : State} {ring : Nat} {w : Work} (hs : Starts s ring 0x3030 w) (hbusy : s.sessionBusy w.session = false)
    (h : (s.handoverFail w).2 = none) : ∃ t, exec (.handover ring) s = .next t ∧ (t.bookAt w.slice).handover = some w.id ∧
      At t w.id (.active 1) ∧ OtherBooks s t w.slice ∧ t = { s with books := t.books, work := t.work, keys := t.keys } ∧
      (t.bookAt w.slice).accepts = false := by
  obtain ⟨keys, hk⟩ := s.handoverFail_keys w
  have hstart := State.startHandover_of hbusy h
  rw [hk] at hstart
  let u : State := { s with keys := keys }
  have hbook : (u.modBook w.slice (fun b => { b with handover := some w.id })).bookAt w.slice =
      { s.bookAt w.slice with handover := some w.id } := State.setBook_same u w.slice _
  refine ⟨_, congrArg Host.Outcome.next ((State.onStart_of hs.1 _).trans hstart), congrArg Book.handover hbook,
    At.of_modWork (s := u.modBook w.slice _) hs.2.1 fun _ => rfl, fun k hk => State.setBook_other u _ hk, rfl, ?_⟩
  refine (congrArg Book.accepts hbook).trans ?_
  exact Bool.and_false _

/-- Settles O19: each of the three begins once its checks have passed. -/
theorem movingBooks : Obligations.MovingBooks := by
  unfold Obligations.MovingBooks
  intro s ring w
  refine ⟨fun hs h => ?_, handover_of, fun hs hbusy hcan h hread => ?_⟩
  · obtain ⟨hat, hwaits, hrest⟩ := State.waits_of (f := fun v => { v with phase := .active 1 }) (.nonce w.id) 4 w.slice 16 hs.2.1
      fun _ => rfl
    exact ⟨_, congrArg Host.Outcome.next ((State.onStart_of hs.1 _).trans (State.startPrepare_of h)), hat, hwaits, hrest⟩
  · obtain ⟨keys, hk⟩ := s.adoptFail_keys w
    have hstart := State.startAdopt_of hbusy hcan h hread
    rw [hk] at hread hstart
    exact asks_charged (f := fun v => { v with phase := .reading 1 }) hs.2.1 hread (fun _ => ⟨rfl, rfl⟩)
      (congrArg Host.Outcome.next ((State.onStart_of hs.1 _).trans hstart))

end Sys2Proof.Machine
end

section
/-! SUPPORT. The service calls of the Alaing cores: how a call is taken up, answered, and what it submits (R347 to R350, R369). -/

namespace Sys2Proof.Machine
open Sys2Proof

section
variable {s : State} {core n : Nat} {v : Invocation} {form buffers : Core → Invocation → Bool} {op : Core → Invocation → State}

/-- A core that stands in a call waits for the answer; the call has not been taken up. -/
theorem Core.calls_iff {c : Core} : c.calls = true ↔ c.mode = .waiting ∧ c.started = false ∧ c.answer = none := by
  simp only [Core.calls, Bool.and_eq_true, beq_iff_eq, Bool.not_eq_true', Option.isNone_iff_eq_none, and_assoc]

/-- A call that passes checks 1 to 3 and SVC_MASK runs its operation. -/
theorem onCall_runs (hinv : (s.coreAt core).inv = some v) (hcalls : (s.coreAt core).calls = true)
    (hbudget : (s.coreAt core).spentBudget = false) (hcall : (s.coreAt core).call.toNat = n) (hn : n ≠ 0) (hlast : n ≤ svcReturn)
    (hmask : n = svcReturn ∨ v.svcMask.testBit n = true) (hform : form (s.coreAt core) v = true)
    (hbuffers : buffers (s.coreAt core) v = true) : s.onCall core n form buffers op = op (s.coreAt core) v := by
  have hbar : (n != svcReturn && !bit v.svcMask n) = false := by
    rcases hmask with h | h
    · simp [h]
    · simp [bit, h]
  unfold State.onCall
  dsimp only
  rw [hinv]
  dsimp only
  rw [hcalls, hbudget, hcall, hform, hbuffers, hbar, if_neg (by decide), if_neg (by simp [hn, Nat.not_lt.mpr hlast]), if_neg (not_not.mpr rfl)]
  rfl

theorem Calls.onCall_of (h : Calls s core n v) (hn : n ≠ 0) (hlast : n ≤ svcReturn) (hform : form (s.coreAt core) v = true)
    (hbuffers : buffers (s.coreAt core) v = true) : s.onCall core n form buffers op = op (s.coreAt core) v :=
  onCall_runs h.inv h.calls h.inBudget h.number hn hlast (.inr h.mask) hform hbuffers

/-- A call of an unassigned number is refused at check 1, whichever service looks at it. -/
theorem onCall_unassigned (hinv : (s.coreAt core).inv = some v) (hcalls : (s.coreAt core).calls = true)
    (hbudget : (s.coreAt core).spentBudget = false) (hcall : (s.coreAt core).call.toNat = 0 ∨ 10 < (s.coreAt core).call.toNat) :
    s.onCall core n form buffers op = s.refuseSvc core 1 .malformed := by
  unfold State.onCall
  dsimp only
  rw [hinv]
  dsimp only
  rw [hcalls, hbudget, if_neg (by decide), if_pos (by simpa only [Bool.or_eq_true, decide_eq_true_eq] using (show _ ∨ Machine.svcReturn < _ from hcall))]

end

/-! Answers. -/

section
variable {s : State} {core : Nat}

theorem State.modCore_same (s : State) (core : Nat) (f : Core → Core) : (s.modCore core f).coreAt core = f (s.coreAt core) :=
  State.setCore_same s core _

theorem State.modCore_other (s : State) {core k : Nat} (f : Core → Core) (h : k ≠ core) :
    (s.modCore core f).coreAt k = s.coreAt k := State.setCore_other s _ h

/-- Work and books as in `s`, and of the cores only this one changed. -/
structure CoreChange (s t : State) (core : Nat) : Prop where
  others : OtherCores s t core
  books : t.books = s.books
  work : t.work = s.work

theorem State.answerSvc_of (hmode : (s.coreAt core).mode = .waiting) (hanswer : (s.coreAt core).answer = none) (st : Status)
    (res : Bytes) : (s.answerSvc core st res).coreAt core =
      { s.coreAt core with answer := some (svcStatus st false false false, res) } := by
  refine (s.modCore_same core _).trans (if_pos ?_)
  simp [hmode, hanswer]

theorem State.answerSvc_answers (hmode : (s.coreAt core).mode = .waiting) (hanswer : (s.coreAt core).answer = none) (st : Status)
    (res : Bytes) : Answered (s.answerSvc core st res) core st res :=
  congrArg Core.answer (State.answerSvc_of hmode hanswer st res)

theorem State.answerSvc_change (s : State) (core : Nat) (st : Status) (res : Bytes) : CoreChange s (s.answerSvc core st res) core :=
  ⟨fun _ hk => State.setCore_other _ _ hk, rfl, rfl⟩

/-- A command that answers the call at once. -/
theorem answersOnly_of {i : Instr} {st : Status} {res : Bytes} (hcalls : (s.coreAt core).calls = true)
    (h : exec i s = .next (s.answerSvc core st res)) : AnswersOnly i s core st res (s.coreAt core).output := by
  obtain ⟨hmode, _, hanswer⟩ := Core.calls_iff.mp hcalls
  exact ⟨_, h, State.answerSvc_answers hmode hanswer st res, (congrArg Core.output (State.answerSvc_of hmode hanswer st res)).trans rfl,
    (s.answerSvc_change core st res).others, rfl⟩

theorem refuseSvc_of {check : Nat} {st : Status} (hcalls : (s.coreAt core).calls = true) :
    Answered (s.refuseSvc core check st) core st [] ∧ Logged s (s.refuseSvc core check st) 0x0A check (s.coreAt core).call.toNat ∧
      CoreChange s (s.refuseSvc core check st) core := by
  obtain ⟨hmode, _, hanswer⟩ := Core.calls_iff.mp hcalls
  refine ⟨State.answerSvc_answers (s := s.plog _) hmode hanswer st [], ⟨_, rfl, rfl, rfl, rfl, rfl⟩, ?_⟩
  exact ⟨((s.plog _).answerSvc_change core st []).others, rfl, rfl⟩

end

/-! Work that a call submits. -/

section
variable {s u : State} {core : Nat} {w : Work}

/-- `u` is `s` with a key charged: of the cores only this one may have changed, and of it only its handles. -/
structure KeyCharged (s u : State) (core : Nat) : Prop where
  rest : u = { s with keys := u.keys, applets := u.applets }
  others : OtherCores s u core
  core : ∃ hs, u.coreAt core = { s.coreAt core with handles := hs }

theorem KeyCharged.refl (s : State) (core : Nat) : KeyCharged s s core := ⟨rfl, fun _ _ => rfl, _, rfl⟩

/-- A handle that a call names is one of its core. -/
theorem keySrcOf_handle {kh session c i : Nat} (h : keySrcOf kh session (some core) = some (.handle c i)) : c = core := by
  unfold keySrcOf at h
  dsimp only at h
  split at h
  · exact absurd h (by simp)
  · split at h
    · split at h <;> exact absurd h (by simp)
    · split at h
      · exact (KeySrc.handle.inj (Option.some.inj h)).1.symm
      · exact absurd h (by simp)
    · split at h <;> exact absurd h (by simp)
    · split at h <;> exact absurd h (by simp)
    · exact absurd h (by simp)

theorem State.chargeKey_applet {kh session : Nat} {k : KeySrc} (h : keySrcOf kh session (some core) = some k)
    (hk : k.ofApplet = true) : KeyCharged s (s.chargeKey k) core := by
  match k with
  | .session i => exact ⟨rfl, fun _ _ => rfl, _, rfl⟩
  | .slot _ _ => exact absurd hk Bool.false_ne_true
  | .handle c i =>
    obtain rfl := keySrcOf_handle h
    exact ⟨rfl, fun k hk => State.modCore_other s _ hk, _, s.modCore_same c _⟩

theorem State.svcStarted_of (s : State) (core : Nat) : (s.svcStarted core).coreAt core = { s.coreAt core with started := true } :=
  s.modCore_same core _

theorem submits_of {i : Instr} (hcalls : (s.coreAt core).calls = true) (h : exec i s = .next (s.svcSubmit core w)) :
    Submits i s core w := by
  obtain ⟨_, _, hanswer⟩ := Core.calls_iff.mp hcalls
  let x : State := { s with work := s.work ++ [w], nextId := s.nextId + 1 }
  have hc := x.svcStarted_of core
  exact ⟨_, h, rfl, congrArg Core.started hc, (congrArg Core.answer hc).trans hanswer, fun k hk => x.modCore_other _ hk, rfl⟩

/-- A call that enters a pool behind the charge of its key. -/
theorem pools_of {i : Instr} {digest : Bool} (hcalls : (s.coreAt core).calls = true) (hu : KeyCharged s u core)
    (h : exec i s = .next (u.svcStream core w digest)) : Pools i s core w digest := by
  obtain ⟨_, _, hanswer⟩ := Core.calls_iff.mp hcalls
  obtain ⟨hrest, hothers, hs, hcore⟩ := hu
  let y : Work := { w with phase := .active 0, admitted := some u.now }
  let x : State := { u with work := u.work ++ [y], nextId := u.nextId + 1 }
  have hc := x.svcStarted_of core
  have hnow : u.now = s.now := by rw [hrest]; rfl
  refine ⟨_, { work := w.id, onDigest := digest, unit := none, pos := 0, total := w.srcLen }, h, ?_, ?_, rfl, rfl, rfl, rfl, rfl,
    congrArg Core.started hc, ?_, ?_, ?_⟩
  · show u.work ++ [{ w with phase := .active 0, admitted := some u.now }] = _
    rw [hnow, hrest]
  · show u.crypto.streams ++ _ = _
    rw [hrest]
  · have hu : (u.coreAt core).answer = none := (congrArg Core.answer hcore).trans hanswer
    exact (congrArg Core.answer hc).trans hu
  · intro k hk
    have hx : (u.svcStream core w digest).coreAt k = u.coreAt k :=
      x.modCore_other (fun c => { c with started := true }) hk
    exact hx.trans (hothers k hk)
  · show u.books = s.books
    rw [hrest]

end

/-! The services. -/

section
variable {s : State} {core : Nat} {v : Invocation}

/-- Every service refuses a call of an unassigned number. -/
theorem unassigned_call {i : Instr} (hi : i ∈ [Instr.svcTallyRead core, .svcPost core, .svcDigest core, .svcMac core, .svcDerive core,
    .svcBignum core, .svcRandom core, .svcNvRead core, .svcNvWrite core, .svcReturn core]) (hinv : (s.coreAt core).inv = some v)
    (hcalls : (s.coreAt core).calls = true) (hbudget : (s.coreAt core).spentBudget = false)
    (hcall : (s.coreAt core).call.toNat = 0 ∨ 10 < (s.coreAt core).call.toNat) :
    exec i s = .next (s.refuseSvc core 1 .malformed) := by
  have hstd {n : Nat} {form buffers : Core → Invocation → Bool} {op : Core → Invocation → State} :=
    onCall_unassigned (n := n) (form := form) (buffers := buffers) (op := op) hinv hcalls hbudget hcall
  simp only [List.mem_cons, List.not_mem_nil, or_false] at hi
  rcases hi with rfl | rfl | rfl | rfl | rfl | rfl | rfl | rfl | rfl | rfl
  case inr.inr.inr.inr.inr.inr.inr.inr.inl =>
    obtain ⟨_, hstarted, _⟩ := Core.calls_iff.mp hcalls
    refine (if_neg ?_).trans (congrArg Host.Outcome.next hstd)
    simp [hstarted]
  all_goals exact congrArg Host.Outcome.next hstd

/-- DIGEST. -/
theorem svcDigest_of (h : Calls s core 3 v) (hclean : (s.coreAt core).argClean [(0, 1), (4, 12)] = true)
    (halg : (s.coreAt core).argAt 0 1 < 7) (hin : localOk ((s.coreAt core).argAt 4 4) ((s.coreAt core).argAt 8 4) 1 = true)
    (hout : localOk ((s.coreAt core).argAt 0x0C 4) (shaSize ((s.coreAt core).argAt 0 1)) 1 = true) :
    Pools (.svcDigest core) s core (s.svcDigestWork core (s.coreAt core) v) true :=
  pools_of h.calls (.refl s core) (congrArg Host.Outcome.next
    (h.onCall_of (by decide) (by decide) (by simp [hclean, halg]) (by simp [hin, hout])))

/-- RANDOM. -/
theorem svcRandom_of (h : Calls s core 7 v) (hclean : (s.coreAt core).argClean [(0, 8)] = true)
    (hlen : (s.coreAt core).argAt 4 4 ≤ 4096) (hbuf : localOk ((s.coreAt core).argAt 0 4) ((s.coreAt core).argAt 4 4) 1 = true) :
    exec (.svcRandom core) s = .next (if (s.coreAt core).argAt 4 4 = 0 then s.answerSvc core .ok (leBytes 4 0)
      else (s.askRandom (.service core) 5 v.slice ((s.coreAt core).argAt 4 4)).svcStarted core) :=
  congrArg Host.Outcome.next (h.onCall_of (by decide) (by decide) (by simp [hclean, hlen]) hbuf)

/-- A MAC call is taken up unless the session of its key is being derived again. -/
theorem svcMac_of {k : KeySrc} (h : Calls s core 4 v) (hclean : (s.coreAt core).argClean [(0, 3), (4, 16)] = true)
    (hop : (s.coreAt core).argAt 0 1 < 2) (htlen : macTlenOk ((s.coreAt core).argAt 1 1) ((s.coreAt core).argAt 2 1) = true)
    (hin : localOk ((s.coreAt core).argAt 8 4) ((s.coreAt core).argAt 0x0C 4) 1 = true)
    (hout : localOk ((s.coreAt core).argAt 0x10 4) ((s.coreAt core).argAt 2 1) 1 = true)
    (hkey : keySrcOf ((s.coreAt core).argAt 4 4) v.session (some core) = some k)
    (hbusy : ∀ i, k = .session i → (s.sessionBusy i && !svcMacPrime (s.coreAt core)) = false) :
    exec (.svcMac core) s = .next (s.svcMac core (s.coreAt core) v) := by
  refine congrArg Host.Outcome.next ((h.onCall_of (by decide) (by decide) ?_ ?_).trans ?_)
  · simp [hclean, hop, htlen]
  · simp [hin, hout]
  · rw [hkey]
    match k with
    | .session i => exact if_neg (Bool.eq_false_iff.mp (hbusy i rfl))
    | .slot _ _ => rfl
    | .handle _ _ => rfl

theorem State.svcMac_slot {k : KeySrc} (hkey : keySrcOf ((s.coreAt core).argAt 4 4) v.session (some core) = some k)
    (hk : k.ofApplet = false) : s.svcMac core (s.coreAt core) v = s.answerSvc core .policy [] := by
  unfold State.svcMac
  dsimp only
  rw [hkey]
  dsimp only
  rw [hk]
  rfl

theorem State.svcMac_prime {k : KeySrc} (hkey : keySrcOf ((s.coreAt core).argAt 4 4) v.session (some core) = some k)
    (hk : k.ofApplet = true) (hprime : svcMacPrime (s.coreAt core) = true) : s.svcMac core (s.coreAt core) v =
    s.svcSubmit core (s.svcMacWork core (s.coreAt core) v
      ((s.coreAt core).bytes ((s.coreAt core).argAt 8 4) ((s.coreAt core).argAt 0x0C 4))) := by
  unfold State.svcMac
  dsimp only
  rw [hkey]
  dsimp only
  rw [hk, hprime]
  rfl

theorem State.svcMac_pooled {k : KeySrc} (hkey : keySrcOf ((s.coreAt core).argAt 4 4) v.session (some core) = some k)
    (hk : k.ofApplet = true) (hprime : svcMacPrime (s.coreAt core) = false) (hfail : s.keyFail k v.slice = none)
    (hserves : s.keyServes k attrMac 2 (macTypes ((s.coreAt core).argAt 1 1)) v.slice = true) :
    s.svcMac core (s.coreAt core) v = (s.chargeKey k).svcStream core (s.svcMacStream core (s.coreAt core) v (s.keyView k v.slice).key
      ((s.coreAt core).bytes ((s.coreAt core).argAt 8 4) ((s.coreAt core).argAt 0x0C 4))) ((s.coreAt core).argAt 1 1 != 0) := by
  unfold State.svcMac
  dsimp only
  rw [hkey]
  dsimp only
  rw [hk, hprime, hfail]
  dsimp only
  rw [hserves]
  rfl

/-- A work of a call is formed alike before and after the charge of its key. -/
theorem KeyCharged.svcMacStream {u : State} (h : KeyCharged s u core) (c : Core) (key msg : Bytes) :
    u.svcMacStream core c v key msg = s.svcMacStream core c v key msg := by
  rw [h.rest]
  rfl

end

/-! DERIVE. -/

section
variable {s : State} {core n : Nat} {v : Invocation} {k : KeySrc}

/-- A DERIVE call is taken up unless the session of its key is being derived again. -/
theorem svcDerive_of (h : Calls s core 5 v) (hclean : (s.coreAt core).argClean [(0, 16)] = true)
    (hmin : 1 ≤ (s.coreAt core).argAt 8 4) (hmax : (s.coreAt core).argAt 8 4 ≤ 32)
    (hattr : BitVec.ofNat 32 ((s.coreAt core).argAt 0x0C 4) &&& attrReserved = 0)
    (hin : localOk ((s.coreAt core).argAt 4 4) ((s.coreAt core).argAt 8 4) 1 = true)
    (hkey : keySrcOf ((s.coreAt core).argAt 0 4) v.session (some core) = some k)
    (hbusy : ∀ i, k = .session i → s.sessionBusy i = false) :
    exec (.svcDerive core) s = .next (s.svcDerive core (s.coreAt core) v) := by
  refine congrArg Host.Outcome.next ((h.onCall_of (by decide) (by decide) ?_ hin).trans ?_)
  · simp [hclean, hmin, hmax, hattr]
  · rw [hkey]
    match k with
    | .session i => exact if_neg (Bool.eq_false_iff.mp (hbusy i rfl))
    | .slot _ _ => rfl
    | .handle _ _ => rfl

/-- The handle that DERIVE returns from a parent, without a use count of its own. -/
def derivedHandle (s : State) (c : Core) (x : KeyView) (n : Nat) : Handle :=
  { num := n, key := kdf x.key (x.level + 1) 0x03 (c.bytes (c.argAt 4 4) (c.argAt 8 4)) 32,
    attr := deriveAttr x.attr (BitVec.ofNat 32 (c.argAt 0x0C 4)), level := x.level + 1, uses := 0, epoch := s.keys.epoch }

/-- A core takes a handle. -/
def State.addHandle (s : State) (core : Nat) (h : Handle) : State :=
  s.modCore core (fun y => { y with handles := y.handles ++ [h] })

theorem State.svcDerive_stands {c : Core} (hkey : keySrcOf (c.argAt 0 4) v.session (some core) = some k) (hk : k.ofApplet = true)
    (hfail : s.keyFail k v.slice = none) {x : KeyView} (hx : (s.chargeKey k).keyView k v.slice = x) (htype : x.type = 0x03)
    (hallow : attrAllows x.attr attrDerive 2 x.slice v.slice = true) (hlevel : x.level < 7)
    (hreq : (BitVec.ofNat 32 (c.argAt 0x0C 4)).getLsbD attrUnlimited = true)
    (hok : deriveOk x.attr (BitVec.ofNat 32 (c.argAt 0x0C 4)) x.uses 0 = true) (hfree : c.freeHandle = some n) :
    s.svcDerive core c v = (((s.chargeKey k).addHandle core (derivedHandle (s.chargeKey k) c x n)).answerSvc core .ok
      (leBytes 4 (0x10000000 + n))).drawn := by
  unfold State.svcDerive
  rw [hkey]
  dsimp only
  rw [hk, if_neg (by decide), hfail]
  dsimp only
  rw [hx, hreq, if_pos rfl, hok, hallow, htype, decide_eq_true (show x.level + 1 ≤ 7 from hlevel), if_neg (by decide), hfree]
  rfl

theorem KeyCharged.derives {u : State} {h : Handle} {res : Bytes} (hu : KeyCharged s u core) (hcalls : (s.coreAt core).calls = true) :
    let t := ((u.addHandle core h).answerSvc core .ok res).drawn
    Answered t core .ok res ∧ h ∈ (t.coreAt core).handles ∧ OtherCores s t core ∧ t.books = s.books ∧ t.work = s.work := by
  obtain ⟨hmode, _, hanswer⟩ := Core.calls_iff.mp hcalls
  obtain ⟨hrest, hothers, hs, hcore⟩ := hu
  have hadd : (u.addHandle core h).coreAt core = { s.coreAt core with handles := hs ++ [h] } := by
    refine (u.modCore_same core _).trans ?_
    rw [hcore]
  have hm : ((u.addHandle core h).coreAt core).mode = .waiting := (congrArg Core.mode hadd).trans hmode
  have ha : ((u.addHandle core h).coreAt core).answer = none := (congrArg Core.answer hadd).trans hanswer
  have hstate := State.answerSvc_of hm ha .ok res
  refine ⟨State.answerSvc_answers hm ha .ok res, ?_, fun k hk => ?_, ?_, ?_⟩
  · have hmem : h ∈ ((u.addHandle core h).coreAt core).handles := by
      rw [hadd]
      exact List.mem_append_right _ (List.mem_singleton.mpr rfl)
    exact (congrArg Core.handles hstate).symm ▸ hmem
  · exact ((State.answerSvc_change _ core .ok res).others k hk).trans ((u.modCore_other _ hk).trans (hothers k hk))
  · show u.books = s.books
    rw [hrest]
  · show u.work = s.work
    rw [hrest]

end

/-- Settles O35: a call that passes its checks runs its operation, which answers it, submits a work or puts a stream into a pool. -/
theorem serviceAnswers : Obligations.ServiceAnswers := by
  unfold Obligations.ServiceAnswers
  intro s core v
  refine ⟨fun i hi hinv hcalls hbudget hcall => ?_, svcDigest_of, fun h hclean hlen hbuf => ?_,
    fun k h hclean hop htlen hin hout hkey => ?_,
    fun k n h hclean hmin hmax hattr hin hkey hk hbusy hfail htype hallow hlevel hreq hok hfree => ?_⟩
  · obtain ⟨hans, hlog, hchange⟩ := refuseSvc_of (check := 1) (st := .malformed) hcalls
    exact ⟨_, unassigned_call hi hinv hcalls hbudget hcall, hans, hlog, hchange.others, hchange.books, hchange.work⟩
  · have hi := svcRandom_of h hclean hlen hbuf
    refine ⟨fun h0 => answersOnly_of h.calls (hi.trans (congrArg Host.Outcome.next (if_pos h0))), fun h0 => ?_⟩
    obtain ⟨rng, hr, hx⟩ := s.askRandom_of (.service core) 5 v.slice ((s.coreAt core).argAt 4 4)
    rw [if_neg h0, hr] at hi
    let u : State := { s with rng := rng }
    exact ⟨_, hi, congrArg Core.started (u.svcStarted_of core), hx, fun k hk => u.modCore_other _ hk, rfl, rfl⟩
  · refine ⟨fun hk => ?_, fun hk hprime => ?_, fun hk hprime hbusy hfail hserves => ?_⟩
    · refine answersOnly_of h.calls ((svcMac_of h hclean hop htlen hin hout hkey ?_).trans
        (congrArg Host.Outcome.next (State.svcMac_slot hkey hk)))
      rintro i rfl
      exact absurd hk.symm Bool.false_ne_true
    · refine submits_of h.calls ((svcMac_of h hclean hop htlen hin hout hkey fun i _ => ?_).trans
        (congrArg Host.Outcome.next (State.svcMac_prime hkey hk hprime)))
      rw [hprime]
      exact Bool.and_false _
    · have hu := State.chargeKey_applet (s := s) hkey hk
      dsimp only
      rw [hu.svcMacStream]
      refine pools_of h.calls hu ((svcMac_of h hclean hop htlen hin hout hkey fun i hi => ?_).trans
        (congrArg Host.Outcome.next (State.svcMac_pooled hkey hk hprime hfail hserves)))
      rw [hbusy i hi]
      rfl
  · obtain ⟨hans, hmem, hothers, hbooks, hwork⟩ := (State.chargeKey_applet (s := s) hkey hk).derives h.calls
    exact ⟨_, (svcDerive_of h hclean hmin hmax hattr hin hkey hbusy).trans (congrArg Host.Outcome.next
      (State.svcDerive_stands hkey hk hfail rfl htype hallow hlevel hreq hok hfree)), hans,
      ⟨_, hmem, rfl, rfl, rfl, rfl⟩, hothers, hbooks, hwork⟩

end Sys2Proof.Machine
end

section
/-! SUPPORT. Checkpoints (R137 to R140). -/

namespace Sys2Proof.Machine
open Sys2Proof

section
variable {s : State} {book : Nat} {j : WbJob}

theorem State.modBook_same (s : State) (book : Nat) (f : Book → Book) : (s.modBook book f).bookAt book = f (s.bookAt book) :=
  State.setBook_same s book _

theorem State.modBook_other (s : State) (book : Nat) (f : Book → Book) : OtherBooks s (s.modBook book f) book :=
  fun _ hk => State.setBook_other s _ hk

/-- A block of the book is marked in the fixed set when it is dirty. -/
theorem State.blockAt_markCut {n k : Nat} {p : PanBlock} (h : s.blockAt n k = some p) :
    (s.markCut n).blockAt n k = some { p with cut := p.dirty } := by
  have hp : p.book = n ∧ p.index = k := by simpa using List.find?_some h
  unfold State.blockAt at h ⊢
  show (s.pan.blocks.map _).find? _ = _
  rw [List.find?_map]
  have keys : ((fun b : PanBlock => b.book == n && b.index == k) ∘ fun b : PanBlock =>
      if (b.book == n) = true then { b with cut := b.dirty } else b) = fun b => b.book == n && b.index == k := by
    funext b
    show ((if (b.book == n) = true then { b with cut := b.dirty } else b).book == n &&
      (if (b.book == n) = true then { b with cut := b.dirty } else b).index == k) = _
    split <;> rfl
  rw [keys, h]
  exact congrArg some (if_pos (beq_iff_eq.mpr hp.1))

theorem State.markCut_rest (s : State) (book : Nat) : s.markCut book = { s with pan := (s.markCut book).pan } := rfl

/-! CHECKPOINT (R137, R138). -/

/-- The job of a checkpoint as it begins. -/
def firstPass (w : Work) : WbJob := { wbJobOf w.id with phase := 1, hold := bit (w.field 0x1C 4) 0 }

theorem State.startCheckpoint_begins {w : Work} (hform : w.ckptForm (s.bookAt w.slice).strands = true)
    (haccepts : (s.bookAt w.slice).accepts = true) (hwb : (s.bookAt w.slice).wb = none) (hhold : (s.bookAt w.slice).hold = none)
    (hrange : s.rangeOk w.slice (w.field 0x10 8) (w.field 0x18 4) true = true) : s.startCheckpoint w =
    ((s.modBook w.slice (fun b => { b with wb := some (firstPass w) })).markCut w.slice).modWork w.id (fun v =>
      { v with phase := .active 1, admitted := some s.now }) := by
  unfold State.startCheckpoint
  dsimp only
  rw [hform, haccepts, hwb, hhold, hrange]
  rfl

theorem State.startCheckpoint_waits {w : Work} (hform : w.ckptForm (s.bookAt w.slice).strands = true)
    (haccepts : (s.bookAt w.slice).accepts = true) (h : (s.bookAt w.slice).wb ≠ none ∨ (s.bookAt w.slice).hold ≠ none) :
    s.startCheckpoint w = s.modWork w.id (fun v => { v with phase := .active 0, admitted := some (v.admitted.getD s.now) }) := by
  have hstands : ((s.bookAt w.slice).wb.isSome || (s.bookAt w.slice).hold.isSome) = true := by
    simpa [Option.isSome_iff_ne_none] using h
  unfold State.startCheckpoint
  dsimp only
  rw [hform, haccepts, hstands]
  rfl

/-! Phases 1 and 2 (R137). -/

theorem exec_checkpointPhase2 (h : s.wbOf book 0x3010 = some j) : exec (.checkpointPhase2 book) s = .next (match j.phase with
    | 1 => s.ckptPhase1 book j
    | 2 => s.ckptPhase2 book j
    | _ => s.ckptPhase3 book j) := by
  show Host.Outcome.next (s.ckptStep book) = _
  unfold State.ckptStep
  rw [h] <;> rfl

theorem State.ckptPhase1_repeats (hcut : s.cutLeft book = false) (h : 64 < s.dirtyBlocks book ∧ j.passes + 1 < 8) :
    s.ckptPhase1 book j = (s.modBook book (fun b => { b with wb := some { j with passes := j.passes + 1 } })).markCut book := by
  unfold State.ckptPhase1
  rw [hcut]
  exact if_pos h

theorem State.ckptPhase1_cuts (hcut : s.cutLeft book = false) (h : ¬ (64 < s.dirtyBlocks book ∧ j.passes + 1 < 8))
    (hearly : s.earlierPostings book j = false) : s.ckptPhase1 book j = s.takeCut book j := by
  unfold State.ckptPhase1
  rw [hcut, hearly]
  exact if_neg h

theorem State.ckptPhase2_ends (hcut : s.cutLeft book = false) : s.ckptPhase2 book j =
    s.setBook book { s.bookAt book with wb := some { j with phase := 3, root := (s.bookAt book).rootBytes, ended := s.now } } := by
  unfold State.ckptPhase2
  rw [hcut]
  rfl

/-! The statement (R138 to R140, R240). -/

theorem State.ckptPhase3_states {w : Work} (hw : s.workAt j.work = some w) (hmute : j.mute = false)
    (hstatable : (s.bookAt book).statable j.cut = true) (hruns : s.writerRuns = true)
    (hcan : s.canMaster (masterJournal book) = true) : s.ckptPhase3 book j = s.ckptStatement book j w := by
  unfold State.ckptPhase3
  rw [hw]
  dsimp only
  rw [hmute, hstatable, hruns, hcan, if_neg Bool.false_ne_true]
  exact if_pos (by decide)

theorem State.ckptPhase3_muted {w : Work} (hw : s.workAt j.work = some w) (hmute : j.mute = true) : s.ckptPhase3 book j =
    ((s.modBook book (fun b => { b with wb := none })).countDropped w.slice 1).dropWork w.id := by
  unfold State.ckptPhase3
  rw [hw]
  dsimp only
  exact if_pos hmute

theorem State.workAt_dropWork_self (s : State) (id : Nat) : (s.dropWork id).workAt id = none :=
  List.find?_eq_none.mpr fun w hw => by simpa using (List.mem_filter.mp hw).2

/-- What the written statement, or its refusal, leaves. -/
theorem ckptStatement_of {w : Work} {u : State} {sig : Bytes} (hw : s.workAt j.work = some w) (hring : w.ring < 65536)
    (hid : w.id = j.work) (hsig : s.signBook book (s.ckptBody book j) = (sig, u)) {o : State × Bool}
    (ho : u.hostWrite (masterJournal book) book .statement none (w.field 0x10 8) (s.ckptBody book j ++ sig) = o) :
    (s.ckptStatement book j w).out = o.1.out ∧
      Ended (s.ckptStatement book j w) w.id (if o.2 then .ok else .access)
        (leBytes 8 j.cut ++ leBytes 2 (336 + 32 * (s.bookAt book).strands)) ∧
      ((s.ckptStatement book j w).bookAt book).wb = none ∧
      ((s.ckptStatement book j w).bookAt book).hold = (if o.2 && j.hold then some j.ended else (s.bookAt book).hold) ∧
      OtherBooks s (s.ckptStatement book j w) book := by
  obtain rfl : s.drawn = u := congrArg Prod.snd hsig
  have hdrained : Drained s.drawn o.1 := ho ▸ State.hostWrite_drained _ _ _ _ _ _ _
  have hkeeps : KeepsWork s.drawn o.1 := ho ▸ State.hostWrite_keepsWork _ _ _ _ _ _ _
  have hbook (k : Nat) : o.1.bookAt k = s.bookAt k := hdrained.bookAt k
  let v := o.1.modBook book (fun b => { b with wb := none, hold := if o.2 && j.hold then some j.ended else b.hold })
  have hres : leBytes 8 j.cut ++ leBytes 2 (ckptLen (s.bookAt book).strands) =
      leBytes 8 j.cut ++ leBytes 2 (336 + 32 * (s.bookAt book).strands) := rfl
  have ht : s.ckptStatement book j w = v.finish w.id (if o.2 then .ok else .access)
      (leBytes 8 j.cut ++ leBytes 2 (336 + 32 * (s.bookAt book).strands)) := by
    unfold State.ckptStatement
    dsimp only
    rw [hsig]
    dsimp only
    rw [ho]
    rfl
  have hf : (if o.2 then Status.ok else .access) ≠ .fault := by split <;> decide
  have htam : (if o.2 then Status.ok else .access) ≠ .tamper := by split <;> decide
  obtain ⟨work, slices, applets, hraw⟩ := v.finishRaw_eq w.id (if o.2 then .ok else .access)
    (leBytes 8 j.cut ++ leBytes 2 (336 + 32 * (s.bookAt book).strands))
  have hfin : s.ckptStatement book j w = { v with work := work, slices := slices, applets := applets } :=
    ht.trans ((State.finish_eq_finishRaw w.id _ hf htam).trans hraw)
  have hvbook : v.bookAt book = { s.bookAt book with
      wb := none, hold := if o.2 && j.hold then some j.ended else (s.bookAt book).hold } := by
    refine (o.1.modBook_same book _).trans ?_
    rw [hbook]
  have hhas : HasWork v w.id w.ring := hkeeps.work hring ⟨w, hid ▸ hw, rfl⟩
  refine ⟨by rw [hfin]; rfl, ?_, ?_, ?_, fun k hk => ?_⟩
  · rw [ht]
    exact hhas.finish_ends hring _ hf htam
  · rw [hfin]
    exact congrArg Book.wb hvbook
  · rw [hfin]
    exact congrArg Book.hold hvbook
  · have hv : v.bookAt k = s.bookAt k := (State.setBook_other o.1 _ hk).trans (hbook k)
    rw [hfin]
    exact hv

/-! The hold (R139). -/

theorem State.releaseHold_ends {w : Work} (haux : w.aux = 0) (hzero : w.zeroFrom 0x10 0x40 = true)
    (h : (s.bookAt w.slice).handover = none) : s.releaseHold w =
    (s.modBook w.slice (fun b => { b with hold := none })).finishOpen w.id .ok [] := by
  unfold State.releaseHold
  rw [haux, hzero, h]
  rfl

theorem State.releaseHold_refused {w : Work} (haux : w.aux = 0) (hzero : w.zeroFrom 0x10 0x40 = true)
    (h : (s.bookAt w.slice).handover ≠ none) : s.releaseHold w = s.refuseOpen w .state [] := by
  unfold State.releaseHold
  rw [haux, hzero, if_neg (by decide), if_pos (Option.isSome_iff_ne_none.mpr h)]

end

/-- CHECKPOINT begins with its fixed set, or waits. -/
theorem checkpoint_of {s : State} {ring : Nat} {w : Work} (hs : Starts s ring 0x3010 w)
    (hform : w.ckptForm (s.bookAt w.slice).strands = true) (haccepts : (s.bookAt w.slice).accepts = true) :
    ((s.bookAt w.slice).wb = none → (s.bookAt w.slice).hold = none → s.rangeOk w.slice (w.field 0x10 8) (w.field 0x18 4) true = true →
      ∃ t j, exec (.checkpoint ring) s = .next t ∧ (t.bookAt w.slice).wb = some j ∧ j.work = w.id ∧ j.phase = 1 ∧
        j.hold = bit (w.field 0x1C 4) 0 ∧ At t w.id (.active 1) ∧
        (∀ k p, s.blockAt w.slice k = some p → t.blockAt w.slice k = some { p with cut := p.dirty }) ∧ OtherBooks s t w.slice ∧
        t = { s with books := t.books, pan := t.pan, work := t.work }) ∧
      ((s.bookAt w.slice).wb ≠ none ∨ (s.bookAt w.slice).hold ≠ none →
        ∃ t, exec (.checkpoint ring) s = .next t ∧ At t w.id (.active 0) ∧ OnlyWork s t w.id) := by
  refine ⟨fun hwb hhold hrange => ?_, fun h => ?_⟩
  · let u := s.modBook w.slice (fun b => { b with wb := some (firstPass w) })
    have hsame : u.bookAt w.slice = { s.bookAt w.slice with wb := some (firstPass w) } := s.modBook_same w.slice _
    have hother : OtherBooks s u w.slice := s.modBook_other w.slice _
    exact ⟨_, firstPass w, congrArg Host.Outcome.next ((State.onStart_of hs.1 _).trans
        (State.startCheckpoint_begins hform haccepts hwb hhold hrange)),
      congrArg Book.wb hsame, rfl, rfl, rfl,
      At.of_modWork (s := u.markCut w.slice) hs.2.1 fun _ => rfl, fun k p hp => State.blockAt_markCut (s := u) hp,
      hother, rfl⟩
  · refine ⟨_, congrArg Host.Outcome.next ((State.onStart_of hs.1 _).trans (State.startCheckpoint_waits hform haccepts h)),
      At.of_modWork hs.2.1 fun _ => rfl, rfl, fun k hk => ?_⟩
    refine (State.workAt_modWork _ _ _ _ ?_).trans (if_neg hk)
    exact fun _ => rfl

/-- CHECKPOINT_RELEASE ends the hold, but not once a HANDOVER has been accepted. -/
theorem checkpointRelease_of {s : State} {ring : Nat} {w : Work} (hs : Starts s ring 0x3011 w) (haux : w.aux = 0)
    (hzero : w.zeroFrom 0x10 0x40 = true) :
    ((s.bookAt w.slice).handover = none → ∃ t res, exec (.checkpointRelease ring) s = .next t ∧ Ended t w.id .ok res ∧
      (t.bookAt w.slice).hold = none ∧ OtherBooks s t w.slice ∧ t = { s with books := t.books, work := t.work, draws := t.draws }) ∧
    ((s.bookAt w.slice).handover ≠ none →
      ∃ t res, exec (.checkpointRelease ring) s = .next t ∧ Ended t w.id .state res ∧ t.books = s.books) := by
  refine ⟨fun h => ?_, fun h => ?_⟩
  · let u := s.modBook w.slice (fun b => { b with hold := none })
    have hsame : u.bookAt w.slice = { s.bookAt w.slice with hold := none } := s.modBook_same w.slice _
    have hother : OtherBooks s u w.slice := s.modBook_other w.slice _
    obtain ⟨res, hends, -, honly⟩ := State.finishOpen_ends (s := u) [] hs.2.1 hs.ring_lt (by decide : Status.ok ≠ .fault) (by decide)
    refine ⟨_, res, congrArg Host.Outcome.next ((State.onStart_of hs.1 _).trans (State.releaseHold_ends haux hzero h)), hends, ?_⟩
    rw [honly]
    exact ⟨congrArg Book.hold hsame, hother, rfl⟩
  · let u := s.plogWork w 0x01 0 .state 0
    obtain ⟨res, hends, -, honly⟩ := State.finishOpen_ends (s := u) [] hs.2.1 hs.ring_lt (by decide : Status.state ≠ .fault) (by decide)
    have hi : s.refuseOpen w .state [] = u.finishOpen w.id .state [] := rfl
    refine ⟨_, res, congrArg Host.Outcome.next ((State.onStart_of hs.1 _).trans ((State.releaseHold_refused haux hzero h).trans hi)),
      hends, ?_⟩
    rw [honly]
    rfl

/-- Settles O17: one lemma for each step of a checkpoint. -/
theorem checkpoints : Obligations.Checkpoints := by
  unfold Obligations.Checkpoints
  intro s book
  refine ⟨fun ring w hs => checkpoint_of hs, fun j hj hcut => ⟨fun hp hdirty hpass => ?_, fun hp hlast hearly => ?_, fun hp => ?_⟩,
    fun j w hj hp hw hring => ⟨fun u sig hmute hstatable hruns hcan hsig => ?_, fun hmute => ?_⟩, fun ring w hs => checkpointRelease_of hs,
    fun g hg hnow => ?_⟩
  · have hi := exec_checkpointPhase2 hj
    rw [hp] at hi
    let u := s.modBook book (fun b => { b with wb := some { j with passes := j.passes + 1 } })
    have hsame : u.bookAt book = { s.bookAt book with wb := some { j with passes := j.passes + 1 } } := s.modBook_same book _
    have hother : OtherBooks s u book := s.modBook_other book _
    refine ⟨_, hi.trans (congrArg Host.Outcome.next (State.ckptPhase1_repeats hcut ⟨hdirty, hpass⟩)),
      fun k p hk => State.blockAt_markCut (s := u) hk, hsame, hother, rfl⟩
  · have hi := exec_checkpointPhase2 hj
    rw [hp] at hi
    let u := s.modBook book (fun b =>
      { b with wb := some { j with phase := 2, cut := b.lseq, heads := b.headsAt b.lseq, grain := s.now } })
    have hsame : (u.bookAt book).wb = some
        { j with phase := 2, cut := (s.bookAt book).lseq, heads := (s.bookAt book).headsAt (s.bookAt book).lseq, grain := s.now } :=
      congrArg Book.wb (s.modBook_same book _)
    have hother : OtherBooks s u book := s.modBook_other book _
    exact ⟨_, _, hi.trans (congrArg Host.Outcome.next (State.ckptPhase1_cuts hcut hlast hearly)), hsame, rfl, rfl, rfl, rfl, rfl,
      fun k p hk => State.blockAt_markCut (s := u) hk, hother, rfl⟩
  · have hi := exec_checkpointPhase2 hj
    rw [hp] at hi
    exact hi.trans (congrArg Host.Outcome.next (State.ckptPhase2_ends hcut))
  · have hi := exec_checkpointPhase2 hj
    rw [hp] at hi
    exact ⟨_, hi.trans (congrArg Host.Outcome.next (State.ckptPhase3_states hw hmute hstatable hruns hcan)),
      ckptStatement_of hw hring (by simpa using List.find?_some hw) hsig rfl⟩
  · have hi := exec_checkpointPhase2 hj
    rw [hp] at hi
    let u := s.modBook book (fun b => { b with wb := none })
    have hsame : u.bookAt book = { s.bookAt book with wb := none } := s.modBook_same book _
    have hother : OtherBooks s u book := s.modBook_other book _
    exact ⟨_, hi.trans (congrArg Host.Outcome.next (State.ckptPhase3_muted hw hmute)), rfl,
      (u.countDropped w.slice 1).workAt_dropWork_self w.id, hsame, hother⟩
  · show execCheckpointHoldExpiry book s = _
    unfold execCheckpointHoldExpiry
    rw [hg]
    exact congrArg Host.Outcome.next (if_neg (Nat.not_lt.mpr hnow))

end Sys2Proof.Machine
end

section
/-! SUPPORT. What the end of a book's work, and the fences it makes, leave of books, descriptors and the Pan (R136, R168, R234, R238). -/

namespace Sys2Proof.Machine
open Sys2Proof

/-- From `s` to `t` work may have ended, rings may have been fenced, records may have been written: the books are equal but for the
reserved journal room, every descriptor still stands, and the Pan holds what it held. -/
structure Ending (s t : State) : Prop where
  books : SameBooks s t
  work : KeepsWork s t
  pan : t.pan = { s.pan with fences := t.pan.fences }

theorem Ending.same {s t : State} (hb : t.books = s.books) (hw : t.work = s.work) (hp : t.pan = { s.pan with fences := t.pan.fences }) :
    Ending s t := ⟨.of_eq hb, .of_eq hw, hp⟩

theorem Ending.refl (s : State) : Ending s s := .same rfl rfl rfl

theorem Ending.trans {s t u : State} (h : Ending s t) (h' : Ending t u) : Ending s u where
  books := h.books.trans h'.books
  work := h.work.trans h'.work
  pan := by rw [h'.pan, h.pan]

theorem Ending.foldl {α : Type} {f : State → α → State} (hf : ∀ s a, Ending s (f s a)) (l : List α) (s : State) :
    Ending s (l.foldl f s) := by
  induction l generalizing s with
  | nil => exact .refl s
  | cons a l ih => exact (hf s a).trans (ih _)

theorem Ending.ite {c : Prop} [Decidable c] {s t u : State} (ht : Ending s t) (hu : Ending s u) : Ending s (if c then t else u) := by
  split
  · exact ht
  · exact hu

section
variable (s : State)

/-! Works. -/

/-- Works that are changed one by one, each keeping its serial number and its ring. -/
theorem Ending.mapWork {f : Work → Work} (hf : ∀ w, (f w).id = w.id ∧ (f w).ring = w.ring) :
    Ending s { s with work := s.work.map f } where
  books := .of_eq rfl
  pan := rfl
  work := ⟨fun _ hw => hw.map hf⟩

theorem State.modWork_ending (id : Nat) {f : Work → Work} (hf : ∀ w, (f w).id = w.id ∧ (f w).ring = w.ring) :
    Ending s (s.modWork id f) where
  books := .of_eq rfl
  pan := rfl
  work := s.modWork_keepsWork id hf

theorem State.finishRaw_ending (id : Nat) (st : Status) (res : Bytes) : Ending s (s.finishRaw id st res) where
  books := s.finishRaw_sameBooks id st res
  work := s.finishRaw_keepsWork id st res
  pan := by
    obtain ⟨work, slices, applets, h⟩ := s.finishRaw_eq id st res
    rw [h]

theorem State.answerCore_ending (core : Nat) (status : Word) (res : Bytes) : Ending s (s.answerCore core status res) := .same rfl rfl rfl

theorem State.plog_ending (e : PEvent) : Ending s (s.plog e) := .same rfl rfl rfl

theorem State.redecide_ending (rank : Nat) (p : Work → Bool) (st : Status) (res : Bytes) : Ending s (s.redecide rank p st res) := by
  refine Ending.mapWork s fun w => ?_
  split
  · exact ⟨rfl, rfl⟩
  · exact ⟨rfl, rfl⟩

theorem State.markEnding_ending (rank : Nat) (ids : List Nat) : Ending s (s.markEnding rank ids) := by
  refine Ending.mapWork s fun w => ?_
  split
  · exact ⟨rfl, rfl⟩
  · exact ⟨rfl, rfl⟩

theorem State.eachWork_ending (p : Work → Bool) {f : State → Work → State} (hf : ∀ s w, Ending s (f s w)) :
    Ending s (s.eachWork p f) := Ending.foldl hf _ s

/-! Entries and fences. -/

theorem State.dropEntries_ending (p : Entry → Bool) : Ending s (s.dropEntries p) where
  books := s.dropEntries_sameBooks p
  work := by
    obtain ⟨books, brine, h⟩ := s.dropEntries_eq p
    exact .of_eq (by rw [h])
  pan := by
    obtain ⟨books, brine, h⟩ := s.dropEntries_eq p
    rw [h]

theorem State.refence_ending (ring cause tag : Nat) : Ending s (s.refence ring cause tag) := by
  unfold State.refence
  split
  · refine Ending.trans (t := s.redecide rankRing (fun w => w.ring == ring) .fenced [BitVec.ofNat 8 cause]) ?_ (.same rfl rfl rfl)
    exact s.redecide_ending _ _ _ _
  · exact .refl s

theorem State.fenceRing_ending (ring cause tag : Nat) : Ending s (s.fenceRing ring cause tag) := by
  unfold State.fenceRing
  split
  · exact s.refence_ending ring cause tag
  · refine Ending.trans ?_ (State.dropEntries_ending _ _)
    refine ⟨.of_eq rfl, ⟨fun _ hw => hw.map fun w => ?_⟩, rfl⟩
    split
    · exact ⟨rfl, rfl⟩
    · exact ⟨rfl, rfl⟩

theorem State.finish_ending (id : Nat) (st : Status) (res : Bytes) : Ending s (s.finish id st res) := by
  unfold State.finish
  split
  · exact .refl s
  · dsimp only
    split
    · exact s.finishRaw_ending id st res
    split
    · exact (s.finishRaw_ending id _ res).trans (State.fenceRing_ending _ _ _ _)
    · exact (s.finishRaw_ending id _ res).trans (State.fenceRing_ending _ _ _ _)
    · exact s.finishRaw_ending id st res

theorem State.endEntry_ending (e : Entry) (st : Status) (res : Bytes) (fence : Bool) : Ending s (s.endEntry e st res fence) := by
  unfold State.endEntry
  split
  · exact s.answerCore_ending _ _ _
  · refine (s.modWork_ending e.src ?_).trans (Ending.ite (State.finish_ending _ _ _ _) (State.finishRaw_ending _ _ _ _))
    exact fun _ => ⟨rfl, rfl⟩

theorem State.endEntries_ending (p : Entry → Bool) (st : Status) (res : Bytes) (fence : Bool) :
    Ending s (s.endEntries p st res fence) :=
  (s.dropEntries_ending p).trans (Ending.foldl (fun s e => s.endEntry_ending e st res fence) _ _)

theorem State.releaseWithheld_ending (book : Nat) : Ending s (s.releaseWithheld book) := by
  have hraw : ∀ (s : State) (w : Work), Ending s ((s.modWork w.id (fun v => { v with receipt := none })).finishRaw w.id .fault
      (faultResult ((w.commit.map Prod.snd).getD 0) 3)) := by
    intro s w
    refine (s.modWork_ending w.id ?_).trans (State.finishRaw_ending _ _ _ _)
    exact fun _ => ⟨rfl, rfl⟩
  unfold State.releaseWithheld
  dsimp only
  refine Ending.trans ?_ (t := List.foldl (fun (s : State) (w : Work) => s.fenceRing w.ring 2 w.tag) _ _) (.same rfl rfl rfl)
  exact (Ending.foldl hraw _ s).trans (Ending.foldl (fun s w => s.fenceRing_ending _ _ _) _ _)

/-! The work of a book. -/

theorem State.endBookWork_ending (book : Nat) (st : Status) : Ending s (s.endBookWork book st) := by
  unfold State.endBookWork
  dsimp only
  refine Ending.trans ?_ (State.markEnding_ending _ _ _)
  refine Ending.trans ?_ (State.eachWork_ending _ _ fun s w => s.finishRaw_ending _ _ _)
  refine Ending.trans ?_ (State.eachWork_ending _ _ fun s w => s.finishRaw_ending _ _ _)
  refine Ending.trans ?_ (State.eachWork_ending _ _ fun s w =>
    Ending.trans (Ending.ite (s.plog_ending _) (.refl s)) (State.finishRaw_ending _ _ _ _))
  refine Ending.trans ?_ (State.endEntries_ending _ _ _ _ _)
  exact s.redecide_ending _ _ _ _

theorem State.standInK_ending (book : Nat) : Ending s (s.standInK book) := .same rfl rfl rfl

/-! Records. -/

theorem State.nvPut_ending (part rec : Nat) : Ending s (s.nvPut part rec) := by
  obtain ⟨nv, logs, sched, h⟩ := s.nvPut_eq part rec
  rw [h]
  exact .same rfl rfl rfl

theorem State.recordBook_ending (book : Nat) : Ending s (s.recordBook book) := by
  unfold State.recordBook
  refine Ending.trans ?_ (State.nvPut_ending _ _ _)
  exact .same rfl rfl rfl

/-- The record of a book's state leaves the books as they are. -/
theorem State.recordBook_bookAt (book k : Nat) : (s.recordBook book).bookAt k = s.bookAt k := by
  unfold State.recordBook
  obtain ⟨nv, logs, sched, h⟩ := State.nvPut_eq
    ({ s with nv := { s.nv with bookRecs := tput Book.reset s.nv.bookRecs book (s.bookAt book) } } : State) partHeads (recBook book)
  rw [h]
  rfl

theorem State.bookState_same (book : Nat) (st : BookState) : (s.bookState book st).bookAt book = { s.bookAt book with st := st } :=
  (State.recordBook_bookAt _ book book).trans (s.modBook_same book _)

theorem State.bookState_other (book : Nat) (st : BookState) : OtherBooks s (s.bookState book st) book := fun k hk =>
  (State.recordBook_bookAt _ book k).trans (State.setBook_other s _ hk)

theorem State.bookState_keepsWork (book : Nat) (st : BookState) : KeepsWork s (s.bookState book st) := by
  let u := s.modBook book (fun b => { b with st := st })
  have hu : KeepsWork s u := .of_eq rfl
  exact hu.trans (u.recordBook_ending book).work

end

/-- A book after an end of work: as before but for its reserved room. -/
theorem Ending.bookAt {s t : State} (h : Ending s t) (k : Nat) : ∃ n, t.bookAt k = { s.bookAt k with reserved := n } := h.books.book k

end Sys2Proof.Machine
end

section
/-! SUPPORT. Recovery of a book (R142, R208 to R212). -/

namespace Sys2Proof.Machine
open Sys2Proof

theorem beyond64_of_le {addr len : Nat} (h : addr + len ≤ 2 ^ 64) : beyond64 addr len = false := decide_eq_false (Nat.not_lt.mpr h)

section
variable {s : State} {w : Work}

/-! The buffers that are read. -/

theorem State.startRestore_reads (haux : w.aux = 0) (hzero : w.zeroFrom 0x1C 0x40 = true)
    (hend : w.field 0x10 8 + w.field 0x18 4 ≤ 2 ^ 64) (hrange : s.rangeOk w.slice (w.field 0x10 8) (w.field 0x18 4) false = true)
    (hcan : s.canRead (masterJournal w.slice) = true)
    (hread : (s.hostRead (.work w.id 0) (masterJournal w.slice) w.slice .statement (w.field 0x10 8) (w.field 0x18 4) false).2 = true)
    (hst : (s.bookAt w.slice).st = .recovering ∨ (s.bookAt w.slice).st = .fencedIntegrity) (hkeys : (s.bookAt w.slice).keysHeld = true)
    (hlen : w.field 0x18 4 = 336 + 32 * (s.bookAt w.slice).strands) : s.startRestore w =
    (s.hostRead (.work w.id 0) (masterJournal w.slice) w.slice .statement (w.field 0x10 8) (w.field 0x18 4) false).1.modWork w.id
      (fun v => { v with phase := .reading 1 }) := by
  have hpass : firstFail [
      (w.aux == 0 && w.zeroFrom 0x1C 0x40 && !beyond64 (w.field 0x10 8) (w.field 0x18 4), (1, Status.malformed)),
      ((s.bookAt w.slice).st == .recovering || (s.bookAt w.slice).st == .fencedIntegrity, (2, .state)),
      ((s.bookAt w.slice).keysHeld, (3, .slotBad)), (w.field 0x18 4 == ckptLen (s.bookAt w.slice).strands, (4, .malformed)),
      (s.rangeOk w.slice (w.field 0x10 8) (w.field 0x18 4) false, (5, .access))] = none := by
    have h4 : (w.field 0x18 4 == ckptLen (s.bookAt w.slice).strands) = true := beq_iff_eq.mpr hlen
    have h2 : ((s.bookAt w.slice).st == .recovering || (s.bookAt w.slice).st == .fencedIntegrity) = true := by simpa using hst
    simp [firstFail, haux, hzero, beyond64_of_le hend, hkeys, hrange, h4, h2]
  unfold State.startRestore
  dsimp only
  rw [hpass]
  dsimp only
  rw [hcan, if_neg (by decide), if_pos hread]

theorem State.startGapClear_reads (haux : w.aux = 0) (hzero : w.zeroFrom 0x1C 0x40 = true)
    (hend : w.field 0x10 8 + w.field 0x18 4 ≤ 2 ^ 64) (hrange : s.rangeOk w.slice (w.field 0x10 8) (w.field 0x18 4) false = true)
    (hcan : s.canRead 44 = true)
    (hread : (s.hostRead (.work w.id 0) 44 w.slice .statement (w.field 0x10 8) (w.field 0x18 4) false).2 = true)
    (hst : (s.bookAt w.slice).st = .fencedGap) (hrestored : (s.bookAt w.slice).restored = true) (hwb : (s.bookAt w.slice).wb = none)
    (hlen : w.field 0x18 4 = 312) : s.startGapClear w =
    (s.hostRead (.work w.id 0) 44 w.slice .statement (w.field 0x10 8) (w.field 0x18 4) false).1.modWork w.id
      (fun v => { v with phase := .reading 1 }) := by
  have hpass : firstFail [
      (w.aux == 0 && w.zeroFrom 0x1C 0x40 && w.field 0x18 4 == authLen && !beyond64 (w.field 0x10 8) (w.field 0x18 4),
        (1, Status.malformed)),
      ((s.bookAt w.slice).st == .fencedGap && (s.bookAt w.slice).restored, (2, .state)),
      (s.rangeOk w.slice (w.field 0x10 8) (w.field 0x18 4) false, (3, .access))] = none := by
    have h1 : (w.field 0x18 4 == authLen) = true := beq_iff_eq.mpr hlen
    simp [firstFail, haux, hzero, beyond64_of_le hend, hst, hrestored, hrange, h1]
  have hopen : ((s.bookAt w.slice).wb.isSome || !s.canRead masterMgmt) = false := by
    rw [hwb, show s.canRead masterMgmt = true from hcan]
    rfl
  unfold State.startGapClear
  dsimp only
  rw [hpass]
  dsimp only
  rw [hopen, if_neg Bool.false_ne_true]
  exact if_pos hread

theorem State.startReplay_begins (haux : w.aux = 0) (hzero : w.zeroFrom 0x1C 0x40 = true)
    (hend : w.field 0x10 8 + w.field 0x18 4 ≤ 2 ^ 64) (hrange : s.rangeOk w.slice (w.field 0x10 8) (w.field 0x18 4) false = true)
    (hst : (s.bookAt w.slice).st = .recovering) (hlen : w.field 0x18 4 ≠ 0) (hmod : w.field 0x18 4 % 32 = 0)
    (hnone : s.work.any (fun v => v.replaying w.slice) = false) :
    s.startReplay w = s.modWork w.id (fun v => { v with phase := .active 1 }) := by
  have hform : (w.aux == 0 && w.zeroFrom 0x1C 0x40 && w.field 0x18 4 != 0 && w.field 0x18 4 % 32 == 0 &&
      !beyond64 (w.field 0x10 8) (w.field 0x18 4)) = true := by
    simp [haux, hzero, hlen, hmod, beyond64_of_le hend]
  unfold State.startReplay
  dsimp only
  rw [hform, hst, hnone, hrange]
  rfl

/-- A REPLAY with nothing read sends the read of the head of its next frame. -/
theorem State.replayFrame_reads (hleft : (s.bookAt w.slice).replayed < (s.bookAt w.slice).target) (hpos : w.pos < w.field 0x18 4)
    (hinput : w.input = []) (hcan : s.canRead (masterJournal w.slice) = true)
    (hread : (s.hostRead (.work w.id 0) (masterJournal w.slice) w.slice .statement (w.field 0x10 8 + w.pos) 32 false).2 = true) :
    (s.replayFrame w).1 =
      (s.hostRead (.work w.id 0) (masterJournal w.slice) w.slice .statement (w.field 0x10 8 + w.pos) 32 false).1.modWork w.id
        (fun v => { v with phase := .reading 1 }) := by
  have hfirst : s.replayFrame w = (s.replayRead w replayHead, false) := by
    unfold State.replayFrame
    dsimp only
    rw [if_neg (Nat.not_le.mpr hleft), if_neg (Nat.sub_ne_zero_of_lt hpos), hinput]
    exact if_pos (by decide)
  rw [hfirst]
  show s.replayRead w replayHead = _
  unfold State.replayRead
  dsimp only
  rw [hcan, hinput, if_neg (by decide)]
  exact if_pos hread

/-! REPLAY_END (R211). -/

theorem State.endOfReplay_short (haux : w.aux = 0) (hzero : w.zeroFrom 0x10 0x40 = true) (hst : (s.bookAt w.slice).st = .recovering)
    (hnone : s.work.any (fun v => v.replaying w.slice) = false) (hwb : (s.bookAt w.slice).wb = none)
    (hleft : (s.bookAt w.slice).replayed < (s.bookAt w.slice).target) :
    s.endOfReplay w = (s.fenceGap w.slice).finish w.id .gap (((s.fenceGap w.slice).bookAt w.slice).replayResult w.pos 0) := by
  unfold State.endOfReplay
  dsimp only
  rw [haux, hzero, hst, hnone, hwb, if_neg (by decide), if_neg (by decide), if_neg (by decide), if_neg (Nat.not_le.mpr hleft)]
  rfl

theorem State.endOfReplay_reached (haux : w.aux = 0) (hzero : w.zeroFrom 0x10 0x40 = true) (hst : (s.bookAt w.slice).st = .recovering)
    (hnone : s.work.any (fun v => v.replaying w.slice) = false) (hwb : (s.bookAt w.slice).wb = none)
    (hrestored : (s.bookAt w.slice).restored = true) (hall : (s.bookAt w.slice).target ≤ (s.bookAt w.slice).replayed)
    (hheads : (s.bookAt w.slice).heads = (s.bookAt w.slice).savedHeads) (hmoved : (s.bookAt w.slice).moved = false) :
    s.endOfReplay w = (s.openBook w.slice).recoveryEnd w .ok := by
  have hreach : s.reachTarget w = (s.openBook w.slice).recoveryEnd w .ok := by
    have hne : ((s.bookAt w.slice).heads != (s.bookAt w.slice).savedHeads) = false := by rw [hheads]; exact bne_self_eq_false _
    unfold State.reachTarget
    dsimp only
    rw [hne, hmoved, if_neg Bool.false_ne_true, if_neg Bool.false_ne_true]
  unfold State.endOfReplay
  dsimp only
  rw [haux, hzero, hst, hnone, hwb, if_neg (by decide), if_neg (by decide), if_neg (by decide), if_pos hall]
  unfold State.replayReached
  rw [hrestored]
  exact hreach

/-- The book that a gap fences. -/
theorem State.fenceGap_of (s : State) (book : Nat) : KeepsWork s (s.fenceGap book) ∧
    ((s.fenceGap book).bookAt book).st = .fencedGap ∧ ((s.fenceGap book).bookAt book).replayed = (s.bookAt book).replayed := by
  have hend := (s.bookState book .fencedGap).endBookWork_ending book .gap
  obtain ⟨n, hn⟩ := hend.bookAt book
  have hb : (s.fenceGap book).bookAt book = { s.bookAt book with st := .fencedGap, reserved := n } := by
    refine Eq.trans hn ?_
    rw [State.bookState_same]
  exact ⟨(s.bookState_keepsWork book .fencedGap).trans hend.work, congrArg Book.st hb, (congrArg Book.replayed hb).trans rfl⟩

/-- The book that opens when its region has not moved. -/
theorem State.openBook_of {book : Nat} (hmoved : (s.bookAt book).moved = false) : KeepsWork s (s.openBook book) ∧
    (∃ bad, (s.openBook book).bookAt book = { (s.bookAt book).reopened with st := .open_, cfgBad := bad }) ∧
      OtherBooks s (s.openBook book) book := by
  let u := s.modBook book Book.reopened
  let v := u.bookState book .open_
  have ht : s.openBook book = v.modBook book (fun b => { b with cfgBad := !v.journalOk book }) := by
    unfold State.openBook
    rw [hmoved]
    rfl
  have hu : u.bookAt book = (s.bookAt book).reopened := s.modBook_same book _
  have hv : v.bookAt book = { (s.bookAt book).reopened with st := .open_ } := by
    refine (u.bookState_same book .open_).trans ?_
    rw [hu]
  have hkeeps : KeepsWork s u := .of_eq rfl
  refine ⟨?_, ⟨!v.journalOk book, ?_⟩, fun k hk => ?_⟩
  · rw [ht]
    exact (hkeeps.trans (u.bookState_keepsWork book .open_)).trans (.of_eq rfl)
  · rw [ht, v.modBook_same, hv]
  · rw [ht]
    exact (v.modBook_other book _ k hk).trans ((u.bookState_other book .open_ k hk).trans (s.modBook_other book _ k hk))

end

/-- An outcome without a fence leaves the books. -/
theorem State.finish_bookAt {s : State} (k id : Nat) {st : Status} (res : Bytes) (hf : st ≠ .fault) (ht : st ≠ .tamper) :
    (s.finish id st res).bookAt k = s.bookAt k := by
  rw [State.finish_eq_finishRaw _ _ hf ht]
  exact (s.finishRaw_drained id st res).bookAt k

/-- REPLAY_END fences a book that has not reached its target, and opens one that has. -/
theorem replayEnd_of {s : State} {ring : Nat} {w : Work} (hs : Starts s ring 0x3021 w) (haux : w.aux = 0)
    (hzero : w.zeroFrom 0x10 0x40 = true) (hst : (s.bookAt w.slice).st = .recovering)
    (hnone : s.work.any (fun v => v.replaying w.slice) = false) (hwb : (s.bookAt w.slice).wb = none) :
    ((s.bookAt w.slice).replayed < (s.bookAt w.slice).target → ∃ t, exec (.replayEnd ring) s = .next t ∧
      (t.bookAt w.slice).st = .fencedGap ∧
      Ended t w.id .gap (leBytes 8 (s.bookAt w.slice).replayed ++ leBytes 4 w.pos ++ [0])) ∧
    ((s.bookAt w.slice).restored = true → (s.bookAt w.slice).target ≤ (s.bookAt w.slice).replayed →
      (s.bookAt w.slice).heads = (s.bookAt w.slice).savedHeads → (s.bookAt w.slice).moved = false →
      ∃ t, exec (.replayEnd ring) s = .next t ∧ (t.bookAt w.slice).st = .open_ ∧ (t.bookAt w.slice).lseq = (s.bookAt w.slice).lseq ∧
        (t.bookAt w.slice).issued = (s.bookAt w.slice).lseq ∧
        Ended t w.id .ok (leBytes 8 (s.bookAt w.slice).replayed ++ leBytes 4 w.pos ++ [0]) ∧ OtherBooks s t w.slice) := by
  have hhas : HasWork s w.id w.ring := ⟨w, hs.2.1, rfl⟩
  refine ⟨fun hleft => ?_, fun hrestored hall hheads hmoved => ?_⟩
  · obtain ⟨hkeeps, hfenced, hreplayed⟩ := s.fenceGap_of w.slice
    have hi := State.endOfReplay_short haux hzero hst hnone hwb hleft
    rw [Book.replayResult, hreplayed] at hi
    refine ⟨_, congrArg Host.Outcome.next ((State.onStart_of hs.1 _).trans hi), ?_,
      (hkeeps.work hs.ring_lt hhas).finish_ends hs.ring_lt _ (by decide) (by decide)⟩
    rw [State.finish_bookAt _ _ _ (by decide) (by decide)]
    exact hfenced
  · obtain ⟨hkeeps, ⟨bad, hbook⟩, hothers⟩ := State.openBook_of hmoved
    have hop : w.opcode = 0x3021 := State.opcode_of_toStart hs.1
    have hi := State.endOfReplay_reached haux hzero hst hnone hwb hrestored hall hheads hmoved
    have hend : (s.openBook w.slice).recoveryEnd w .ok = (s.openBook w.slice).finish w.id .ok
        (leBytes 8 (s.bookAt w.slice).replayed ++ leBytes 4 w.pos ++ [0]) := by
      unfold State.recoveryEnd
      rw [hop, if_pos (by decide), Book.replayResult, hbook]
      rfl
    have hbooks (k : Nat) := State.finish_bookAt (s := s.openBook w.slice) k w.id
      (leBytes 8 (s.bookAt w.slice).replayed ++ leBytes 4 w.pos ++ [0]) (by decide : Status.ok ≠ .fault) (by decide)
    refine ⟨_, congrArg Host.Outcome.next ((State.onStart_of hs.1 _).trans (hi.trans hend)), ?_, ?_, ?_,
      (hkeeps.work hs.ring_lt hhas).finish_ends hs.ring_lt _ (by decide) (by decide), fun k hk => (hbooks k).trans (hothers k hk)⟩
    · rw [hbooks, hbook]
    · rw [hbooks, hbook]
      rfl
    · rw [hbooks, hbook]
      rfl

/-- Settles O18: what is read, what begins, and the two ends of REPLAY_END. -/
theorem recovery : Obligations.Recovery := by
  unfold Obligations.Recovery
  intro s ring w
  refine ⟨fun hs ⟨haux, hzero, hend, hrange, hcan, hread⟩ hst hkeys hlen => ?_,
    fun hs haux hzero hend hrange hst hlen hmod hnone => ?_, fun hw hleft hpos hinput hcan hread => ?_,
    fun hs ⟨haux, hzero, hend, hrange, hcan, hread⟩ hst hrestored hwb hlen => ?_,
    fun hs haux hzero hst hnone hwb => replayEnd_of hs haux hzero hst hnone hwb⟩
  · exact asks_of (f := fun v => { v with phase := .reading 1 }) hs.2.1 hread (fun _ => ⟨rfl, rfl⟩) (congrArg Host.Outcome.next
      ((State.onStart_of hs.1 _).trans (State.startRestore_reads haux hzero hend hrange hcan hread hst hkeys hlen)))
  · exact congrArg Host.Outcome.next ((State.onStart_of hs.1 _).trans
      (State.startReplay_begins haux hzero hend hrange hst hlen hmod hnone))
  · obtain ⟨out, mpus, crypto, r, h, hr⟩ := State.hostRead_ok hread
    intro t
    have ht : t = _ := State.replayFrame_reads hleft hpos hinput hcan hread
    rw [h] at ht
    rw [ht]
    refine ⟨At.of_modWork (f := fun v => { v with phase := .reading 1 }) (s := { s with
      out := out, mpus := mpus, crypto := crypto, nextId := s.nextId + 1, reads := s.reads ++ [r] }) hw fun _ => rfl, ?_, rfl, rfl⟩
    exact ⟨r, List.mem_append_right _ (List.mem_singleton.mpr rfl), hr.kind, hr.addr, hr.len⟩
  · exact asks_of (f := fun v => { v with phase := .reading 1 }) hs.2.1 hread (fun _ => ⟨rfl, rfl⟩) (congrArg Host.Outcome.next
      ((State.onStart_of hs.1 _).trans (State.startGapClear_reads haux hzero hend hrange hcan hread hst hrestored hwb hlen)))

end Sys2Proof.Machine
end

section
/-! SUPPORT. CREATE and DELETE of a book (R103, R104, R144). -/

namespace Sys2Proof.Machine
open Sys2Proof

/-! Masked keys (R388). -/

/-- A mask that is long enough undoes itself. -/
theorem xorBytes_xorBytes : ∀ (a m : Bytes), a.length ≤ m.length → xorBytes (xorBytes a m) m = a
  | [], _, _ => rfl
  | _ :: _, [], h => absurd h (by simp)
  | x :: a, y :: m, h => by
    have ih := xorBytes_xorBytes a m (Nat.le_of_succ_le_succ h)
    have hx : (x ^^^ y) ^^^ y = x := by rw [BitVec.xor_assoc, BitVec.xor_self, BitVec.xor_zero]
    show ((x ^^^ y) ^^^ y) :: xorBytes (xorBytes a m) m = x :: a
    rw [ih, hx]

theorem length_bytesAt (b : Bytes) (o n : Nat) : (bytesAt b o n).length = n := by
  simp only [bytesAt, fit, zeros, List.length_append, List.length_take, List.length_drop, List.length_replicate]
  omega

theorem length_bookKey_le (k : Slot) (uid : Nat) (label : String) : (bookKey k uid label).length ≤ 32 := List.length_take_le _ _

theorem unmask_bookKey (k : Slot) (uid : Nat) (label : String) (r : Bytes) (o : Nat) :
    xorBytes (xorBytes (bookKey k uid label) (bytesAt r o 32)) (bytesAt r o 32) = bookKey k uid label :=
  xorBytes_xorBytes _ _ ((length_bytesAt r o 32).symm ▸ length_bookKey_le k uid label)

section
variable {s : State} {book : Nat}

/-! The register write (R144). -/

theorem State.bookCtl_asks {n : Nat} {c : BookCmd} (hcmd : (s.bookAt s.brine.bookSel).cmd = none)
    (hc : n = 1 ∧ c = .create ∨ n = 2 ∧ c = .delete) :
    s.bookCtl n = s.modBook s.brine.bookSel (fun x => { x with cmd := some c, accepted := false, cmdErr := 0 }) := by
  unfold State.bookCtl
  dsimp only
  rw [hcmd]
  rcases hc with ⟨rfl, rfl⟩ | ⟨rfl, rfl⟩
  · rfl
  · rfl

/-! Refusals. -/

theorem State.bookRefused_of (s : State) (book err : Nat) : ((s.bookRefused book err).bookAt book).cmd = none ∧
    ((s.bookRefused book err).bookAt book).cmdErr = err ∧ ((s.bookRefused book err).bookAt book).st = (s.bookAt book).st ∧
      OtherBooks s (s.bookRefused book err) book ∧ (s.bookRefused book err).keys = s.keys ∧ (s.bookRefused book err).nv = s.nv := by
  have hb : (s.bookRefused book err).bookAt book = { s.bookAt book with cmd := none, accepted := false, cmdErr := err } :=
    s.modBook_same book (fun b => { b with cmd := none, accepted := false, cmdErr := err })
  have ho : OtherBooks s (s.bookRefused book err) book := fun k hk => State.setBook_other s _ hk
  rw [hb]
  exact ⟨rfl, rfl, rfl, ho, rfl, rfl⟩

/-! The examination (R103, R104). -/

theorem State.examineBook_create (hcmd : (s.bookAt book).cmd = some .create) (haccepted : (s.bookAt book).accepted = false) :
    s.examineBook book = if s.createErr book = 0 then (s.nextIncarn book).modBook book (fun b => { b with accepted := true })
      else s.bookRefused book (s.createErr book) := by
  unfold State.examineBook
  dsimp only
  rw [haccepted, hcmd]
  rfl

theorem State.examineBook_delete (hcmd : (s.bookAt book).cmd = some .delete) (haccepted : (s.bookAt book).accepted = false) :
    s.examineBook book = if (s.bookAt book).st == .none_ || (s.bookAt book).st == .deleting then s.bookRefused book 1
      else s.startDelete book := by
  unfold State.examineBook
  dsimp only
  rw [haccepted, hcmd]
  rfl

/-- An accepted CREATE takes the next incarnation (R100). -/
theorem State.nextIncarn_accepts (s : State) (book : Nat) :
    let t := (s.nextIncarn book).modBook book (fun b => { b with accepted := true })
    t.brine = { s.brine with incarnCtr := s.brine.incarnCtr + 1 } ∧
      t.bookAt book = { s.bookAt book with incarn := s.brine.incarnCtr + 1, accepted := true } ∧ OtherBooks s t book ∧
      t.pan = s.pan ∧ t.keys = s.keys ∧ t.work = s.work := by
  let u : State := { s with brine := { s.brine with incarnCtr := s.brine.incarnCtr + 1 } }
  let v := u.modBook book (fun b => { b with incarn := s.brine.incarnCtr + 1 })
  obtain ⟨nv, logs, sched, h⟩ := v.nvPut_eq partHeads recIncarn
  have hn : s.nextIncarn book = { v with nv := nv, logs := logs, sched := sched } := h
  have hv : v.bookAt book = { s.bookAt book with incarn := s.brine.incarnCtr + 1 } := u.modBook_same book _
  have hother : OtherBooks s v book := u.modBook_other book _
  intro t
  have ht : t = ({ v with nv := nv, logs := logs, sched := sched } : State).modBook book (fun b => { b with accepted := true }) := by
    rw [← hn]
  rw [ht]
  refine ⟨rfl, ?_, fun k hk => ?_, rfl, rfl, rfl⟩
  · refine (State.modBook_same _ book _).trans ?_
    exact congrArg (fun b : Book => { b with accepted := true }) hv
  · exact (State.modBook_other _ book _ k hk).trans (hother k hk)

/-! DELETE (R104). -/

theorem State.refuse_ending (s : State) (w : Work) (check : Nat) (st : Status) : Ending s (s.refuse w check st) := by
  unfold State.refuse State.refuseLeg
  refine Ending.trans ?_ (State.finish_ending _ _ _ _)
  exact Ending.ite (s.plog_ending _) (.refl s)

theorem State.endSeals_ending (s : State) (book : Nat) : Ending s (s.endSeals book) :=
  s.eachWork_ending _ fun s w => s.refuse_ending w 2 .state

/-- The write-backs of a book end: its job and its handover are gone. -/
theorem State.endCheckpoints_of (s : State) (book : Nat) (st : Status) : KeepsWork s (s.endCheckpoints book st) ∧
    ∃ n, (s.endCheckpoints book st).bookAt book = { s.bookAt book with wb := none, handover := none, reserved := n } := by
  have hend : Ending s (s.eachWork (fun w => w.writesBack book) (fun s w =>
      s.finishRaw w.id st (if w.opcode / 16 == 0x302 then (s.bookAt book).replayResult w.pos 0 else refusalResult 2 0xFF))) :=
    s.eachWork_ending _ fun s w => s.finishRaw_ending _ _ _
  obtain ⟨n, hn⟩ := hend.bookAt book
  refine ⟨hend.work.trans (.of_eq rfl), n, ?_⟩
  refine (State.modBook_same _ book _).trans ?_
  rw [hn]

/-- The book of an accepted DELETE. -/
theorem State.startDelete_of (s : State) (book : Nat) : ∃ n, (s.startDelete book).bookAt book =
    { s.bookAt book with accepted := true, st := .deleting, wb := none, handover := none, reserved := n } := by
  let s1 := s.modBook book (fun b => { b with accepted := true })
  let s2 := (s1.standInK book).bookState book .deleting
  let s3 := s2.endBookWork book .state
  let s4 := s3.endCheckpoints book .state
  let s5 := s4.endSeals book
  have h1 : s1.bookAt book = { s.bookAt book with accepted := true } := s.modBook_same book _
  have h2 : s2.bookAt book = { s.bookAt book with accepted := true, st := .deleting } := by
    refine (State.bookState_same _ book .deleting).trans ?_
    show { s1.bookAt book with st := .deleting } = _
    rw [h1]
  obtain ⟨n3, h3⟩ := (s2.endBookWork_ending book .state).bookAt book
  obtain ⟨-, n4, h4⟩ := s3.endCheckpoints_of book .state
  have h6 : Ending s4 (if (s.bookAt book).st == .open_ then s5.releaseWithheld book else s5) := by
    refine (s4.endSeals_ending book).trans ?_
    split
    · exact s5.releaseWithheld_ending book
    · exact .refl s5
  obtain ⟨n, hn⟩ := h6.bookAt book
  refine ⟨n, ?_⟩
  have ht : (s.startDelete book).bookAt book =
      (if (s.bookAt book).st == .open_ then s5.releaseWithheld book else s5).bookAt book := rfl
  rw [ht, hn, h4, h3, h2]

/-- The end of a deletion. -/
theorem State.eraseBook_of (s : State) (book : Nat) : ((s.eraseBook book).bookAt book).st = .none_ ∧
    ((s.eraseBook book).bookAt book).keysHeld = false ∧ ((s.eraseBook book).bookAt book).cmd = none ∧
    ((s.eraseBook book).bookAt book).cap = (s.bookAt book).cap ∧ (∀ x ∈ (s.eraseBook book).pan.blocks, x.book ≠ book) ∧
    OtherBooks s (s.eraseBook book) book := by
  let u := s.dropPan book
  let v := u.modBook book (fun b =>
    { Book.reset with
      holdExpired := b.holdExpired, wbAccess := b.wbAccess, strands := b.strands, keySlot := b.keySlot,
      saltBase := b.saltBase, cap := b.cap, uid := b.uid, jBase := b.jBase, jSize := b.jSize, fullWait := b.fullWait,
      sealLog2 := b.sealLog2, adjReserve := b.adjReserve, sealBase := b.sealBase, fullSeen := b.fullSeen,
      wrAccess := b.wrAccess, sealAccess := b.sealAccess, nonce := b.nonce, jWrite := b.jWrite })
  have hv := u.modBook_same book (fun b =>
    { Book.reset with
      holdExpired := b.holdExpired, wbAccess := b.wbAccess, strands := b.strands, keySlot := b.keySlot,
      saltBase := b.saltBase, cap := b.cap, uid := b.uid, jBase := b.jBase, jSize := b.jSize, fullWait := b.fullWait,
      sealLog2 := b.sealLog2, adjReserve := b.adjReserve, sealBase := b.sealBase, fullSeen := b.fullSeen,
      wrAccess := b.wrAccess, sealAccess := b.sealAccess, nonce := b.nonce, jWrite := b.jWrite })
  have hb : (s.eraseBook book).bookAt book = v.bookAt book := v.recordBook_bookAt book book
  have hpan : (s.eraseBook book).pan = { v.pan with fences := (s.eraseBook book).pan.fences } := (v.recordBook_ending book).pan
  refine ⟨?_, ?_, ?_, ?_, fun x hx => ?_, fun k hk => ?_⟩
  · exact (congrArg Book.st hb).trans (congrArg Book.st hv)
  · exact (congrArg Book.keysHeld hb).trans (congrArg Book.keysHeld hv)
  · exact (congrArg Book.cmd hb).trans (congrArg Book.cmd hv)
  · exact (congrArg Book.cap hb).trans ((congrArg Book.cap hv).trans rfl)
  · rw [hpan] at hx
    simpa using (List.mem_filter.mp hx).2
  · exact (v.recordBook_bookAt book k).trans (State.setBook_other u _ hk)

/-! The set-up (R103, R388). -/

/-- The book with its four keys, under the mask `r`. -/
def Book.keyed (b : Book) (k : Slot) (r : Bytes) : Book :=
  { b with
    keysHeld := true, keyMask := r, kEnc := xorBytes (bookKey k b.uid "SALT-ENC") (bytesAt r 0 32),
    kTwk := xorBytes (bookKey k b.uid "SALT-TWK") (bytesAt r 32 32), kMac := xorBytes (bookKey k b.uid "SALT-MAC") (bytesAt r 64 32),
    kJrn := xorBytes (bookKey k b.uid "JRNL-MAC") (bytesAt r 96 32) }

theorem chargeSlots_charged {α : Type} (slot : Nat) (l : List α) (s : State) : Charged s (l.foldl (fun s _ => s.chargeSlot 0 slot) s) := by
  induction l generalizing s with
  | nil => exact .refl s
  | cons _ l ih => exact (s.chargeSlot_charged 0 slot).trans (ih _)

theorem Charged.bookAt {s t : State} (h : Charged s t) (k : Nat) : t.bookAt k = s.bookAt k := by
  obtain ⟨_, _, _, _, _, rfl, _⟩ := h
  rfl

theorem State.deriveBook_bookAt (s : State) (book k : Nat) (r : Bytes) : (s.deriveBook book r).bookAt k =
    if k = book then (s.bookAt book).keyed (s.slotAt 0 (s.bookAt book).keySlot) r else s.bookAt k := by
  refine ((chargeSlots_charged (s.bookAt book).keySlot (List.range 4)
    (s.setBook book ((s.bookAt book).keyed (s.slotAt 0 (s.bookAt book).keySlot) r))).bookAt k).trans ?_
  split
  · next h =>
    subst h
    exact State.setBook_same ..
  · next h => exact State.setBook_other s _ h

/-- The book as its set-up leaves it. -/
def Book.created (b : Book) : Book := { b.fresh with cmd := none, accepted := false, cmdErr := 0, st := .open_ }

theorem State.setupBook_of (s : State) (book : Nat) (r : Bytes) :
    (∃ bad, (s.setupBook book r).bookAt book =
      { ((s.bookAt book).keyed (s.slotAt 0 (s.bookAt book).keySlot) r).created with cfgBad := bad }) ∧
      OtherBooks s (s.setupBook book r) book := by
  let u := s.deriveBook book r
  let v := u.modBook book (fun b => { b.fresh with cmd := none, accepted := false, cmdErr := 0 })
  let x := v.bookState book .open_
  have hu : u.bookAt book = (s.bookAt book).keyed (s.slotAt 0 (s.bookAt book).keySlot) r :=
    (s.deriveBook_bookAt book book r).trans (if_pos rfl)
  have hv : v.bookAt book = { ((s.bookAt book).keyed (s.slotAt 0 (s.bookAt book).keySlot) r).fresh with
      cmd := none, accepted := false, cmdErr := 0 } := by
    refine (u.modBook_same book _).trans ?_
    rw [hu]
  have hx : x.bookAt book = ((s.bookAt book).keyed (s.slotAt 0 (s.bookAt book).keySlot) r).created := by
    refine (v.bookState_same book .open_).trans ?_
    rw [hv]
    rfl
  refine ⟨⟨!x.journalOk book, ?_⟩, fun k hk => ?_⟩
  · refine (x.modBook_same book _).trans ?_
    rw [hx]
  · have hothers : u.bookAt k = s.bookAt k := (s.deriveBook_bookAt book k r).trans (if_neg hk)
    refine (State.setBook_other x _ hk).trans ((v.bookState_other book .open_ k hk).trans ?_)
    exact (State.setBook_other u _ hk).trans hothers

theorem exec_bookSetupDone (hcmd : (s.bookAt book).cmd = some .create) (haccepted : (s.bookAt book).accepted = true) :
    exec (.bookSetupDone book) s = .next (if s.masterOk (s.bookAt book).keySlot book = false then s.bookRefused book 6
      else match s.gotRandom (.bookKeys book) with
        | none => s.askRandom (.bookKeys book) 2 book 128
        | some r => (s.dropRandom (.bookKeys book)).setupBook book r) := by
  show execBookSetupDone book s = _
  unfold execBookSetupDone
  dsimp only
  rw [haccepted, hcmd, if_neg (by decide)]
  cases s.masterOk (s.bookAt book).keySlot book
  · rfl
  · cases s.gotRandom (.bookKeys book)
    · rfl
    · rfl

end

/-- A set-up with its masks opens the book. -/
theorem bookSetupDone_of {s : State} {book : Nat} {r : Bytes} (hcmd : (s.bookAt book).cmd = some .create)
    (haccepted : (s.bookAt book).accepted = true) (hok : s.masterOk (s.bookAt book).keySlot book = true)
    (hgot : s.gotRandom (.bookKeys book) = some r) : ∃ t, exec (.bookSetupDone book) s = .next t ∧
      (∃ bad, t.bookAt book = { ((s.bookAt book).keyed (s.slotAt 0 (s.bookAt book).keySlot) r).created with cfgBad := bad }) ∧
      OtherBooks s t book := by
  have hi := exec_bookSetupDone hcmd haccepted
  rw [hok, hgot, if_neg (by decide)] at hi
  obtain ⟨hbook, hothers⟩ := (s.dropRandom (.bookKeys book)).setupBook_of book r
  exact ⟨_, hi, hbook, hothers⟩

/-- Settles O16: one lemma for each step of the two commands. -/
theorem bookCommands : Obligations.BookCommands := by
  unfold Obligations.BookCommands
  intro s book
  refine ⟨fun hw hcmd => ?_, fun hw hcmd => ?_, fun hcmd hacc herr => ?_, fun hcmd hacc herr => ?_, fun hcmd hacc hst => ?_,
    fun hcmd hacc hnone hdel => ?_, fun hcmd hacc hok => ?_, fun hcmd hacc hok hgot => ?_, fun r hcmd hacc hok hgot => ?_,
    fun hst hstaged hseals hleft => ?_⟩
  · exact congrArg Host.Outcome.next ((State.onReg_of hw _).trans (State.bookCtl_asks hcmd (.inl ⟨rfl, rfl⟩)))
  · exact congrArg Host.Outcome.next ((State.onReg_of hw _).trans (State.bookCtl_asks hcmd (.inr ⟨rfl, rfl⟩)))
  · exact ⟨_, congrArg Host.Outcome.next ((State.examineBook_create hcmd hacc).trans (if_pos herr)), s.nextIncarn_accepts book⟩
  · exact ⟨_, congrArg Host.Outcome.next ((State.examineBook_create hcmd hacc).trans (if_neg herr)), s.bookRefused_of book _⟩
  · have hst : ((s.bookAt book).st == .none_ || (s.bookAt book).st == .deleting) = true := by simpa using hst
    exact ⟨_, congrArg Host.Outcome.next ((State.examineBook_delete hcmd hacc).trans (if_pos hst)), s.bookRefused_of book _⟩
  · have hst : ¬ ((s.bookAt book).st == .none_ || (s.bookAt book).st == .deleting) = true := by simp [hnone, hdel]
    obtain ⟨n, hn⟩ := s.startDelete_of book
    refine ⟨_, congrArg Host.Outcome.next ((State.examineBook_delete hcmd hacc).trans (if_neg hst)), ?_⟩
    rw [hn]
    exact ⟨rfl, rfl, rfl, rfl⟩
  · have hi := exec_bookSetupDone hcmd hacc
    exact ⟨_, hi.trans (congrArg Host.Outcome.next (if_pos hok)), s.bookRefused_of book 6⟩
  · have hi := exec_bookSetupDone hcmd hacc
    rw [hok, hgot] at hi
    exact hi
  · obtain ⟨t, hi, ⟨bad, hb⟩, hothers⟩ := bookSetupDone_of hcmd hacc hok hgot
    refine ⟨t, hi, ?_⟩
    rw [hb]
    exact ⟨rfl, rfl, rfl, rfl, rfl, rfl, unmask_bookKey _ _ _ r 0, unmask_bookKey _ _ _ r 32, unmask_bookKey _ _ _ r 64,
      unmask_bookKey _ _ _ r 96, rfl, hothers⟩
  · have hdone : ((s.bookAt book).st == .deleting && (s.bookAt book).staged.isEmpty && (s.bookAt book).seals.isEmpty &&
        !s.workLeft book) = true := by simp [hst, hstaged, hseals, hleft]
    exact ⟨_, congrArg Host.Outcome.next (if_pos hdone), s.eraseBook_of book⟩

end Sys2Proof.Machine
end

section
/-! SUPPORT. The Pan and the Saltern: loads, write-backs, the node cache (R119 to R136). -/

namespace Sys2Proof.Machine
open Sys2Proof

section
variable {s : State} {book block : Nat}

/-! The node cache (R124). -/

/-- A cache within its size is not trimmed. -/
theorem State.trim_of_le (h : s.pan.nodes.length ≤ s.nodeRoom) : s.trim = s := by
  have hfold : ∀ l : List PanNode, l.foldl State.trimNode s = s := by
    intro l
    induction l with
    | nil => rfl
    | cons n l ih =>
      have hn : s.trimNode n = s := if_pos h
      rw [List.foldl_cons, hn, ih]
  exact hfold _

/-- From `s` to `t` the Pan keeps its nodes and the room for them. -/
structure NodesKept (s t : State) : Prop where
  length : t.pan.nodes.length = s.pan.nodes.length
  units : t.pan.nodeUnits = s.pan.nodeUnits

theorem NodesKept.trans {s t u : State} (h : NodesKept s t) (h' : NodesKept t u) : NodesKept s u where
  length := h'.length.trans h.length
  units := h'.units.trans h.units

theorem NodesKept.of_pan {s t : State} (h : t.pan = s.pan) : NodesKept s t where
  length := by rw [h]
  units := by rw [h]

theorem Ending.nodesKept {s t : State} (h : Ending s t) : NodesKept s t where
  length := by rw [h.pan]
  units := by rw [h.pan]

theorem NodesKept.trim {s t : State} (h : NodesKept s t) (hroom : s.pan.nodes.length ≤ s.nodeRoom) : t.trim = t := by
  refine State.trim_of_le ?_
  rw [h.length, State.nodeRoom, h.units]
  exact hroom

theorem State.nodeAt_modNode_same {level index : Nat} {n : PanNode} {f : PanNode → PanNode}
    (hf : ∀ n, (f n).book = n.book ∧ (f n).level = n.level ∧ (f n).index = n.index) (h : s.nodeAt book level index = some n) :
    (s.modNode book level index f).nodeAt book level index = some (f n) := by
  have hn : (n.book == book && n.level == level && n.index == index) = true :=
    List.find?_some (p := fun n : PanNode => n.book == book && n.level == level && n.index == index) h
  have keys : ((fun n : PanNode => n.book == book && n.level == level && n.index == index) ∘ fun n =>
      if (n.book == book && n.level == level && n.index == index) = true then f n else n) =
      fun n => n.book == book && n.level == level && n.index == index := by
    funext m
    dsimp only [Function.comp]
    split
    · rw [(hf m).1, (hf m).2.1, (hf m).2.2]
    · rfl
  unfold State.nodeAt at h ⊢
  show (s.pan.nodes.map _).find? _ = _
  rw [List.find?_map, keys, h]
  exact congrArg some (if_pos hn)

/-! Loads (R132, R134, R136). -/

theorem State.loadAt_dropLoad (s : State) (book block : Nat) : (s.dropLoad book block).loadAt book block = none :=
  List.find?_eq_none.mpr fun l hl => by simpa [imp_iff_not_or] using (List.mem_filter.mp hl).2

theorem State.loadAt_modLoad {l : Load} {f : Load → Load} (hf : ∀ l, (f l).book = l.book ∧ (f l).block = l.block)
    (h : s.loadAt book block = some l) : (s.modLoad book block f).loadAt book block = some (f l) := by
  have hl : (l.book == book && l.block == block) = true :=
    List.find?_some (p := fun l : Load => l.book == book && l.block == block) h
  have keys : ((fun l : Load => l.book == book && l.block == block) ∘ fun l =>
      if (l.book == book && l.block == block) = true then f l else l) = fun l => l.book == book && l.block == block := by
    funext m
    dsimp only [Function.comp]
    split
    · rw [(hf m).1, (hf m).2]
    · rfl
  unfold State.loadAt at h ⊢
  show (s.pan.loads.map _).find? _ = _
  rw [List.find?_map, keys, h]
  exact congrArg some (if_pos hl)

/-- A loaded block whose parent is on the die is placed when its MAC fits; else the path is bad. -/
theorem State.verifyPath_block {d mac : Bytes} {v : Nat} (hparent : s.parentEntry book 0 block = some (v, mac)) (hv : v ≠ 0) :
    s.verifyPath book block 0 [(0, d)] = if (s.bookAt book).objMac 0 block v d = mac then
      (s.dropLoad book block).placeBlock book block v ((s.bookAt book).openBlock block v d) else s.loadBad book block 0 := by
  have hzero : (v == 0) = false := by simpa using hv
  rw [State.verifyPath]
  dsimp only
  rw [Nat.pow_zero, Nat.div_one, hparent]
  dsimp only
  rw [hzero]
  by_cases hmac : (s.bookAt book).objMac 0 block v d = mac
  · rw [if_pos hmac, hmac, bne_self_eq_false mac]
    rfl
  · have hne : ((s.bookAt book).objMac 0 block v d != mac) = true := bne_iff_ne.mpr hmac
    rw [if_neg hmac, hne]
    rfl

theorem State.placeBlock_new {ver : Nat} {plain : Bytes} (h : s.blockAt book block = none) : ∃ p,
    (s.placeBlock book block ver plain).blockAt book block = some p ∧ p.recs = recsOf plain ∧ p.dirty = false ∧ p.wbVer = ver ∧
      (s.placeBlock book block ver plain).loadAt book block = s.loadAt book block ∧ NodesKept s (s.placeBlock book block ver plain) ∧
      s.placeBlock book block ver plain = { s with pan := (s.placeBlock book block ver plain).pan } := by
  let p : PanBlock :=
    { book := book, index := block, recs := recsOf plain, dirty := false, dirtyAt := 0, wbVer := ver, wbLseq := (s.bookAt book).lseq,
      wbPos := (s.bookAt book).jHead, stamp := s.pan.clock, wbRefused := none, cut := false, lost := false }
  have hplaced : s.placeBlock book block ver plain = { s.tick with pan := { s.tick.pan with blocks := s.pan.blocks ++ [p] } } := by
    unfold State.placeBlock
    rw [h]
  rw [hplaced]
  refine ⟨p, ?_, rfl, rfl, rfl, rfl, ⟨rfl, rfl⟩, rfl⟩
  show (s.pan.blocks ++ [p]).find? _ = _
  rw [List.find?_append, show s.pan.blocks.find? (fun b => b.book == book && b.index == block) = none from h]
  simp [p]

theorem exec_salternBlockLoaded {l : Load} {d : Bytes} (hload : s.loadAt book block = some l) (hfailed : l.failedAt = none)
    (hlevels : l.levels = [0]) (hlen : d.length = 256) (hflush : s.pwr.flush = none)
    (harrive : (s.reads.filter (fun r => r.ofLoad book block)).all Read.arrives = true) :
    exec (.salternBlockLoaded book block [d]) s = .next ((s.dropLoadReads book block).verifyPath book block 0 [(0, d)]).trim := by
  have hdrains : s.drains = true := by
    unfold State.drains
    rw [hflush]
  have hsizes : ([d].map List.length != l.levels.map objSize) = false := by
    rw [hlevels]
    simp [hlen, objSize]
  show Host.Outcome.next (s.blockLoaded book block [d]) = _
  unfold State.blockLoaded
  rw [hload]
  dsimp only
  rw [harrive, hfailed, hsizes, hdrains, hlevels]
  rfl

/-! A book that fails its integrity (R136). -/

theorem State.endCheckpoints_nodesKept (s : State) (book : Nat) (st : Status) : NodesKept s (s.endCheckpoints book st) := by
  have hend : Ending s (s.eachWork (fun w => w.writesBack book) (fun s w =>
      s.finishRaw w.id st (if w.opcode / 16 == 0x302 then (s.bookAt book).replayResult w.pos 0 else refusalResult 2 0xFF))) :=
    s.eachWork_ending _ fun s w => s.finishRaw_ending _ _ _
  exact hend.nodesKept.trans ⟨rfl, rfl⟩

/-- An open book as it enters FENCED_INTEGRITY. -/
def State.entersFenced (s : State) (book : Nat) : State :=
  (((s.standInK book).bookState book .fencedIntegrity).modBook book (fun b => { b with restored := false })).modBook book
    Book.recordTarget

/-- The end of its work, its write-backs and its loads. -/
def State.leavesOpen (s : State) (book : Nat) : State :=
  (((s.endBookWork book .integrity).endCheckpoints book .integrity).dropLoads book).releaseWithheld book

theorem Book.recordTarget_st (b : Book) : b.recordTarget.st = b.st := by
  unfold Book.recordTarget
  split
  · rfl
  · rfl

theorem State.entersFenced_of (s : State) (book : Nat) : ((s.entersFenced book).bookAt book).st = .fencedIntegrity ∧
    NodesKept s (s.entersFenced book) := by
  have hst : (((s.standInK book).bookState book .fencedIntegrity).bookAt book).st = .fencedIntegrity := by
    rw [State.bookState_same]
  have hkept : NodesKept s ((s.standInK book).bookState book .fencedIntegrity) := by
    have hu : NodesKept s ((s.standInK book).modBook book (fun b => { b with st := .fencedIntegrity })) := ⟨rfl, rfl⟩
    exact hu.trans (State.recordBook_ending _ book).nodesKept
  unfold State.entersFenced
  generalize (s.standInK book).bookState book .fencedIntegrity = u at hst hkept
  refine ⟨?_, hkept.trans ⟨rfl, rfl⟩⟩
  rw [State.modBook_same, State.modBook_same, Book.recordTarget_st]
  exact hst

theorem State.leavesOpen_of (s : State) (book : Nat) : ((s.leavesOpen book).bookAt book).st = (s.bookAt book).st ∧
    (∀ l ∈ (s.leavesOpen book).pan.loads, l.book ≠ book) ∧ NodesKept s (s.leavesOpen book) := by
  have hwork := s.endBookWork_ending book .integrity
  unfold State.leavesOpen
  generalize s.endBookWork book .integrity = u at hwork
  obtain ⟨-, n, hbook⟩ := u.endCheckpoints_of book .integrity
  have hkept := u.endCheckpoints_nodesKept book .integrity
  generalize u.endCheckpoints book .integrity = v at hbook hkept
  have hend := (v.dropLoads book).releaseWithheld_ending book
  generalize (v.dropLoads book).releaseWithheld book = x at hend
  obtain ⟨m, hm⟩ := hwork.bookAt book
  obtain ⟨k, hk⟩ := hend.bookAt book
  refine ⟨?_, fun l hl => ?_, ?_⟩
  · rw [hk]
    show (v.bookAt book).st = _
    rw [hbook, hm]
  · rw [hend.pan] at hl
    simpa using (List.mem_filter.mp hl).2
  · have hdrop : NodesKept v (v.dropLoads book) := ⟨rfl, rfl⟩
    exact ((hwork.nodesKept.trans hkept).trans hdrop).trans hend.nodesKept

/-- An open book that is fenced: its state, its loads, the node cache. -/
theorem State.fenceIntegrity_of (hst : (s.bookAt book).st = .open_) : ((s.fenceIntegrity book).bookAt book).st = .fencedIntegrity ∧
    (∀ l ∈ (s.fenceIntegrity book).pan.loads, l.book ≠ book) ∧ NodesKept s (s.fenceIntegrity book) := by
  have ht : s.fenceIntegrity book = (s.entersFenced book).leavesOpen book := by
    unfold State.fenceIntegrity
    dsimp only
    rw [hst, if_neg (by decide), if_neg (by decide)]
    rfl
  obtain ⟨hfenced, hkept⟩ := s.entersFenced_of book
  obtain ⟨hsame, hloads, hkept'⟩ := (s.entersFenced book).leavesOpen_of book
  rw [ht]
  exact ⟨hsame.trans hfenced, hloads, hkept.trans hkept'⟩

theorem State.endWaiters_ending (s : State) (book block : Nat) (st : Status) : Ending s (s.endWaiters book block st) := by
  unfold State.endWaiters
  dsimp only
  refine Ending.trans ?_ (State.eachWork_ending _ _ fun s w => s.finish_ending _ _ _)
  refine Ending.trans ?_ (State.eachWork_ending _ _ fun s w => s.finish_ending _ _ _)
  refine Ending.trans ?_ (Ending.foldl (fun s e => s.endEntry_ending _ _ _ _) _ _)
  exact s.dropEntries_ending _

theorem State.level1_ending (s : State) (unit source loc slice detail : Nat) : Ending s (s.level1 unit source loc slice detail) := by
  unfold State.level1
  split
  · exact .refl s
  · exact .same rfl rfl rfl

theorem State.loadBad_of {level : Nat} (hrebuild : s.rebuildAt book block = none) (hst : (s.bookAt book).st = .open_) :
    ((s.loadBad book block level).bookAt book).st = .fencedIntegrity ∧ (s.loadBad book block level).loadAt book block = none ∧
      NodesKept s (s.loadBad book block level) := by
  let s1 := s.dropLoad book block
  let s2 := if s.readsBlock book block then s1.endWaiters book block .integrity else s1
  let s3 := s2.level1 11 0x16 book book (level * 2 ^ 56 + block / 8 ^ level)
  have h1 : s1.rebuildAt book block = none := hrebuild
  have ht : s.loadBad book block level = s3.fenceIntegrity book := by
    unfold State.loadBad
    dsimp only
    rw [show (s.dropLoad book block).rebuildAt book block = none from h1]
    rfl
  have hend : Ending s1 s3 := (Ending.ite (s1.endWaiters_ending book block .integrity) (.refl s1)).trans (s2.level1_ending _ _ _ _ _)
  obtain ⟨n, hn⟩ := hend.bookAt book
  have hst3 : (s3.bookAt book).st = .open_ := (congrArg Book.st hn).trans hst
  obtain ⟨hfenced, hloads, hkept⟩ := State.fenceIntegrity_of hst3
  have k1 : NodesKept s s1 := ⟨rfl, rfl⟩
  rw [ht]
  refine ⟨hfenced, List.find?_eq_none.mpr fun l hl => ?_, (k1.trans hend.nodesKept).trans hkept⟩
  simp [hloads l hl]

end

/-- The end of the read of a block whose parent is on the die. -/
theorem salternBlockLoaded_of {s : State} {book block v : Nat} {l : Load} {d mac : Bytes} (hload : s.loadAt book block = some l)
    (hfailed : l.failedAt = none) (hlevels : l.levels = [0]) (hlen : d.length = 256) (hflush : s.pwr.flush = none)
    (harrive : (s.reads.filter (fun r => r.ofLoad book block)).all Read.arrives = true) (hroom : s.pan.nodes.length ≤ s.nodeRoom)
    (hparent : s.parentEntry book 0 block = some (v, mac)) (hv : v ≠ 0) :
    ((s.bookAt book).objMac 0 block v d = mac → s.blockAt book block = none →
      ∃ t p, exec (.salternBlockLoaded book block [d]) s = .next t ∧ t.blockAt book block = some p ∧
        p.recs = recsOf ((s.bookAt book).openBlock block v d) ∧ p.dirty = false ∧ p.wbVer = v ∧ t.loadAt book block = none ∧
        t = { s with pan := t.pan, reads := t.reads }) ∧
    ((s.bookAt book).objMac 0 block v d ≠ mac → s.rebuildAt book block = none → (s.bookAt book).st = .open_ →
      ∃ t, exec (.salternBlockLoaded book block [d]) s = .next t ∧ (t.bookAt book).st = .fencedIntegrity ∧
        t.loadAt book block = none) := by
  let u := s.dropLoadReads book block
  have hverify : u.verifyPath book block 0 [(0, d)] = _ := State.verifyPath_block (s := u) hparent hv
  have hi := exec_salternBlockLoaded hload hfailed hlevels hlen hflush harrive
  rw [hverify] at hi
  refine ⟨fun hmac hblock => ?_, fun hmac hrebuild hst => ?_⟩
  · rw [if_pos (show (u.bookAt book).objMac 0 block v d = mac from hmac)] at hi
    obtain ⟨p, hp, hrecs, hdirty, hver, hloads, hkept, hrest⟩ := State.placeBlock_new (s := u.dropLoad book block) (ver := v)
      (plain := (u.bookAt book).openBlock block v d) hblock
    have hu : NodesKept s (u.dropLoad book block) := ⟨rfl, rfl⟩
    rw [(hu.trans hkept).trim hroom] at hi
    refine ⟨_, p, hi, hp, hrecs, hdirty, hver, hloads.trans (u.loadAt_dropLoad book block), ?_⟩
    rw [hrest]
    rfl
  · rw [if_neg (show ¬ (u.bookAt book).objMac 0 block v d = mac from hmac)] at hi
    obtain ⟨hfenced, hloads, hkept⟩ := State.loadBad_of (s := u) (level := 0) hrebuild hst
    have hu : NodesKept s u := ⟨rfl, rfl⟩
    rw [(hu.trans hkept).trim hroom] at hi
    exact ⟨_, hi, hfenced, hloads⟩

/-! Reads that fail (R134). -/

section
variable {s : State} {book block : Nat} {l : Load}

theorem State.loadReads_kept (retry : Bool) (levels : List Nat) (h : (s.loadReads book block retry levels).2 = true) :
    (s.loadReads book block retry levels).1.pan = s.pan ∧ (s.loadReads book block retry levels).1.books = s.books ∧
      (s.loadReads book block retry levels).1.work = s.work := by
  induction levels generalizing s with
  | nil => exact ⟨rfl, rfl, rfl⟩
  | cons k levels ih =>
    unfold State.loadReads at h ⊢
    dsimp only at h ⊢
    split at h
    · next hread =>
      obtain ⟨out, mpus, crypto, r, hr, -⟩ := State.hostRead_ok hread
      rw [if_pos hread]
      obtain ⟨hpan, hbooks, hwork⟩ := ih h
      rw [hpan, hbooks, hwork, hr]
      exact ⟨rfl, rfl, rfl⟩
    · next hread => exact absurd h hread

theorem State.loadRetry_first (hload : s.loadAt book block = some l) (hfailed : l.failedAt = none) (hretried : l.retried = false)
    (hrebuild : s.rebuildAt book block = none) : s.loadRetry book block =
    ((s.loadReadFailed book block).modLoad book block (fun l => { l with failedAt := some s.now })).plogSaltern 134 book := by
  unfold State.loadRetry
  rw [hload]
  dsimp only
  rw [hfailed]
  dsimp only
  rw [hretried, hrebuild]
  rfl

theorem State.loadReadFailed_kept (s : State) (book block : Nat) : ∃ reads, s.loadReadFailed book block = { s with reads := reads } := by
  unfold State.loadReadFailed
  split
  · exact ⟨_, rfl⟩
  · exact ⟨_, rfl⟩

theorem State.loadRetry_again {g : Nat} (hload : s.loadAt book block = some l) (hfailed : l.failedAt = some g) (hnow : g + 5760 ≤ s.now)
    (hcan : s.canRead (masterSaltern book) = true) (hreads : (s.loadReads book block true l.levels).2 = true) :
    s.loadRetry book block =
      (s.loadReads book block true l.levels).1.modLoad book block (fun l => { l with failedAt := none, retried := true }) := by
  have hdue : (decide (s.now < g + pound) || !s.canRead (masterSaltern book)) = false := by
    rw [hcan, decide_eq_false (show ¬ s.now < g + pound from Nat.not_lt.mpr hnow)]
    rfl
  unfold State.loadRetry
  rw [hload]
  dsimp only
  rw [hfailed]
  dsimp only
  rw [hdue, if_neg Bool.false_ne_true]
  exact if_pos hreads

/-- A read of a load that fails the first time waits for its retry. -/
theorem salternReadRetry_fails (hload : s.loadAt book block = some l) (hfailed : l.failedAt = none) (hretried : l.retried = false)
    (hrebuild : s.rebuildAt book block = none) : ∃ t, exec (.salternReadRetry book block) s = .next t ∧
      t.loadAt book block = some { l with failedAt := some s.now } ∧ t.books = s.books ∧ t.work = s.work := by
  have hi : exec (.salternReadRetry book block) s = .next (s.loadRetry book block) := rfl
  obtain ⟨reads, hr⟩ := s.loadReadFailed_kept book block
  rw [State.loadRetry_first hload hfailed hretried hrebuild, hr] at hi
  refine ⟨_, hi, ?_, rfl, rfl⟩
  refine State.loadAt_modLoad (s := { s with reads := reads }) (f := fun l => { l with failedAt := some s.now }) ?_ hload
  exact fun _ => ⟨rfl, rfl⟩

theorem salternReadRetry_again {g : Nat} (hload : s.loadAt book block = some l) (hfailed : l.failedAt = some g)
    (hnow : g + 5760 ≤ s.now) (hcan : s.canRead (masterSaltern book) = true)
    (hreads : (s.loadReads book block true l.levels).2 = true) : ∃ t, exec (.salternReadRetry book block) s = .next t ∧
      t.loadAt book block = some { l with failedAt := none, retried := true } ∧ t.books = s.books ∧ t.work = s.work := by
  have hi : exec (.salternReadRetry book block) s = .next (s.loadRetry book block) := rfl
  rw [State.loadRetry_again hload hfailed hnow hcan hreads] at hi
  obtain ⟨hpan, hbooks, hwork⟩ := State.loadReads_kept true l.levels hreads
  have hload' : (s.loadReads book block true l.levels).1.loadAt book block = some l := by
    rw [State.loadAt, hpan]
    exact hload
  refine ⟨_, hi, State.loadAt_modLoad ?_ hload', hbooks, hwork⟩
  exact fun _ => ⟨rfl, rfl⟩

end

/-! Write-backs (R121, R135). -/

section
variable {s : State} {book block : Nat}

/-- The entry of an object in its parent changes the root of the book, or a node of the cache. -/
theorem State.setEntry_kept (s : State) (book level index ver : Nat) (mac : Bytes) :
    (s.setEntry book level index ver mac).pan.blocks = s.pan.blocks ∧ NodesKept s (s.setEntry book level index ver mac) ∧
      (s.setEntry book level index ver mac).out = s.out ∧ OtherBooks s (s.setEntry book level index ver mac) book := by
  unfold State.setEntry
  dsimp only
  split
  · exact ⟨rfl, ⟨rfl, rfl⟩, rfl, fun k hk => State.setBook_other s _ hk⟩
  · refine ⟨rfl, ⟨?_, rfl⟩, rfl, fun _ _ => rfl⟩
    show ((s.pan.nodes.map _).map _).length = _
    rw [List.length_map, List.length_map]

theorem getD_set_of_lt {α : Type} {l : List α} {e : Nat} (h : e < l.length) (x d : α) : (l.set e x).getD e d = x := by
  rw [List.getD_eq_getElem?_getD, List.getElem?_set_self h]
  rfl

/-- The parent's entry as it has been set. -/
theorem State.parentEntry_setEntry {ver : Nat} {mac : Bytes} (hver : (s.bookAt book).rootVer.length = 8)
    (hmac : (s.bookAt book).rootMac.length = 8)
    (hnode : ∀ n, s.nodeAt book 1 (block / 8) = some n → n.ver.length = 8 ∧ n.mac.length = 8)
    (hparent : (s.parentEntry book 0 block).isSome = true) :
    (s.setEntry book 0 block ver mac).parentEntry book 0 block = some (ver, mac) := by
  have he : block % 8 < 8 := Nat.mod_lt _ (by decide)
  by_cases hroot : 0 + 1 = (s.bookAt book).height
  · have hset : s.setEntry book 0 block ver mac = s.setBook book { s.bookAt book with
        rootVer := (s.bookAt book).rootVer.set (block % 8) ver, rootMac := (s.bookAt book).rootMac.set (block % 8) mac } := by
      unfold State.setEntry
      exact if_pos hroot
    rw [hset]
    unfold State.parentEntry
    rw [State.setBook_same]
    dsimp only
    refine (if_pos hroot).trans ?_
    rw [getD_set_of_lt (hver.symm ▸ he), getD_set_of_lt (hmac.symm ▸ he)]
  · obtain ⟨n, hn⟩ : ∃ n, s.nodeAt book 1 (block / 8) = some n := by
      unfold State.parentEntry at hparent
      dsimp only at hparent
      rw [if_neg hroot, Option.isSome_map] at hparent
      exact Option.isSome_iff_exists.mp hparent
    let touched (n : PanNode) : PanNode := { n with stamp := s.pan.clock }
    have htouch : (s.touchNode book 1 (block / 8)).nodeAt book 1 (block / 8) = some (touched n) := by
      refine State.nodeAt_modNode_same (s := s.tick) (f := touched) ?_ hn
      exact fun _ => ⟨rfl, rfl, rfl⟩
    let cut := match (s.bookAt book).wb with | some j => j.phase == 2 | none => false
    let entered (n : PanNode) : PanNode :=
      { n with
        ver := n.ver.set (block % 8) ver, mac := n.mac.set (block % 8) mac, dirty := true,
        dirtyAt := if n.dirty then n.dirtyAt else s.now, cut := n.cut || cut, awaited := false }
    have hset : s.setEntry book 0 block ver mac = (s.touchNode book 1 (block / 8)).modNode book 1 (block / 8) entered := by
      unfold State.setEntry
      exact if_neg hroot
    have hentered : (s.setEntry book 0 block ver mac).nodeAt book 1 (block / 8) = some (entered (touched n)) := by
      rw [hset]
      refine State.nodeAt_modNode_same ?_ htouch
      exact fun _ => ⟨rfl, rfl, rfl⟩
    have hheight : ¬ 0 + 1 = ((s.setEntry book 0 block ver mac).bookAt book).height := by
      rw [hset]
      exact hroot
    obtain ⟨hv, hm⟩ := hnode n hn
    unfold State.parentEntry
    dsimp only
    rw [if_neg hheight, hentered, Option.map_some]
    exact congrArg some (Prod.ext (getD_set_of_lt (hv.symm ▸ he) ver 0) (getD_set_of_lt (hm.symm ▸ he) mac []))

/-- A write-back that may be made, of a dirty block whose parent is on the die. -/
theorem State.doWriteBack_of {p : PanBlock} {v : Nat} {mac : Bytes} (hp : s.blockAt book block = some p) (hdirty : p.dirty = true)
    (hlost : p.lost = false) (hmay : (s.bookAt book).mayWriteBack p.cut = true)
    (hparent : s.parentEntry book 0 block = some (v, mac)) (hcan : s.canMaster (masterSaltern book) = true) {o : State × Bool}
    (ho : s.hostWrite (masterSaltern book) book .saltern none ((s.bookAt book).saltBase + 256 * block)
      ((s.bookAt book).sealBlock block (v + 1) p.bytes) = o) : s.doWriteBack book 0 block =
    if o.2 then o.1.wrote book 0 block (v + 1) ((s.bookAt book).objMac 0 block (v + 1)
      ((s.bookAt book).sealBlock block (v + 1) p.bytes)) else o.1.writeBackRefused book 0 block := by
  have hcut : s.objCut book 0 block = p.cut := by
    unfold State.objCut
    rw [if_pos rfl, hp]
    rfl
  have hneed : s.needParent book 0 block = s := by
    unfold State.needParent
    exact if_pos (by rw [hparent]; rfl)
  have hsealed : s.sealed book 0 block (v + 1) = some ((s.bookAt book).objMac 0 block (v + 1)
      ((s.bookAt book).sealBlock block (v + 1) p.bytes), (s.bookAt book).sealBlock block (v + 1) p.bytes) := by
    unfold State.sealed
    dsimp only
    rw [if_pos rfl, hp, Option.filter_some, if_pos (by rw [hdirty, hlost]; rfl)]
    rfl
  have haddr : (s.bookAt book).objAddr 0 block = (s.bookAt book).saltBase + 256 * block := if_pos rfl
  unfold State.doWriteBack
  rw [hcut, hmay, hneed]
  unfold State.writeBack
  rw [hparent]
  dsimp only
  rw [hsealed]
  dsimp only
  rw [hcan, haddr, ho, if_neg (by decide), if_neg (by decide)]
  split
  · rfl
  · rfl

/-- What the write of a block leaves: the block clean under its new version, its parent's entry, the others as they were. -/
theorem State.wrote_of {o : State} {p : PanBlock} {ver : Nat} {mac : Bytes} (hd : Drained s o) (hp : s.blockAt book block = some p)
    (hroom : s.pan.nodes.length ≤ s.nodeRoom) (hparent : (s.parentEntry book 0 block).isSome = true) :
    let t := (o.wrote book 0 block ver mac).trim
    ∃ q, t.blockAt book block = some q ∧ q.recs = p.recs ∧ q.dirty = false ∧ q.wbVer = ver ∧ q.wbRefused = none ∧ t.out = o.out ∧
      OtherBooks s t book ∧
      ((s.bookAt book).rootVer.length = 8 → (s.bookAt book).rootMac.length = 8 →
        (∀ n, s.nodeAt book 1 (block / 8) = some n → n.ver.length = 8 ∧ n.mac.length = 8) →
        t.parentEntry book 0 block = some (ver, mac)) ∧
      ∀ k, k ≠ block → t.blockAt book k = s.blockAt book k := by
  obtain ⟨hbooks, -, hpan, -⟩ := hd.kept
  have hblocks (k : Nat) : o.blockAt book k = s.blockAt book k := by rw [State.blockAt, hpan]; rfl
  let written (q : PanBlock) : PanBlock :=
    { q with dirty := false, wbVer := ver, wbLseq := (o.bookAt book).lseq, wbPos := (o.bookAt book).jHead, wbRefused := none, cut := false }
  let u := o.modBlock book block written
  have hset : o.wrote book 0 block ver mac = u.setEntry book 0 block ver mac := by
    unfold State.wrote
    rfl
  obtain ⟨hsame, hkept, hout, hothers⟩ := u.setEntry_kept book 0 block ver mac
  have hnodes : NodesKept s (u.setEntry book 0 block ver mac) := by
    have hu : NodesKept o u := ⟨rfl, rfl⟩
    exact ((NodesKept.of_pan hpan).trans hu).trans hkept
  have htrim : (o.wrote book 0 block ver mac).trim = u.setEntry book 0 block ver mac := by
    rw [hset]
    exact hnodes.trim hroom
  have hat (k : Nat) : (u.setEntry book 0 block ver mac).blockAt book k = u.blockAt book k := by
    rw [State.blockAt, hsame]
    rfl
  have hmod (k : Nat) : u.blockAt book k = if book = book ∧ k = block then (o.blockAt book k).map written else o.blockAt book k :=
    o.blockAt_modBlock book block book k fun _ => ⟨rfl, rfl⟩
  have hbook (k : Nat) : u.bookAt k = s.bookAt k := hd.bookAt k
  have hnode (n level : Nat) : u.nodeAt book level n = s.nodeAt book level n := by
    show o.nodeAt book level n = _
    rw [State.nodeAt, hpan]
    rfl
  intro t
  rw [show t = u.setEntry book 0 block ver mac from htrim]
  refine ⟨written p, ?_, rfl, rfl, rfl, rfl, hout, fun k hk => (hothers k hk).trans (hbook k), fun hver hmac hall => ?_, fun k hk => ?_⟩
  · rw [hat, hmod, if_pos ⟨rfl, rfl⟩, hblocks, hp]
    rfl
  · refine State.parentEntry_setEntry ?_ ?_ (fun n hn => ?_) ?_
    · rw [hbook]
      exact hver
    · rw [hbook]
      exact hmac
    · rw [hnode] at hn
      exact hall n hn
    · have hentry : u.parentEntry book 0 block = s.parentEntry book 0 block := by
        unfold State.parentEntry
        rw [hbook, hnode]
      rw [hentry]
      exact hparent
  · rw [hat, hmod, if_neg fun h => hk h.2, hblocks]

/-- What a refused write of a block leaves. -/
theorem State.writeBackRefused_of {o : State} {p : PanBlock} (hd : Drained s o) (hp : s.blockAt book block = some p)
    (hroom : s.pan.nodes.length ≤ s.nodeRoom) : let t := (o.writeBackRefused book 0 block).trim
    (t.bookAt book).wbAccess = true ∧ t.blockAt book block = some { p with wbRefused := some s.now } ∧ OtherBooks s t book := by
  obtain ⟨hbooks, -, hpan, hsched⟩ := hd.kept
  let v := (o.modBook book (fun b => { b with wbAccess := true })).plogSaltern 135 book
  let u := v.modBlock book block (fun p => { p with wbRefused := some v.now })
  have hset : o.writeBackRefused book 0 block = u := rfl
  have hnodes : NodesKept s u := by
    have hu : NodesKept o u := ⟨rfl, rfl⟩
    exact (NodesKept.of_pan hpan).trans hu
  have htrim : (o.writeBackRefused book 0 block).trim = u := by
    rw [hset]
    exact hnodes.trim hroom
  have hblock : v.blockAt book block = some p := by
    refine Eq.trans ?_ hp
    show o.blockAt book block = _
    rw [State.blockAt, hpan]
    rfl
  have hnow : v.now = s.now := by
    show o.sched.grain = _
    rw [hsched]
    rfl
  have hmod : u.blockAt book block = some { p with wbRefused := some s.now } := by
    refine (v.blockAt_modBlock book block book block (f := fun p => { p with wbRefused := some v.now }) ?_).trans ?_
    · exact fun _ => ⟨rfl, rfl⟩
    · rw [if_pos ⟨rfl, rfl⟩, hblock, hnow]
      rfl
  intro t
  rw [show t = u from htrim]
  exact ⟨congrArg Book.wbAccess (o.modBook_same book (fun b => { b with wbAccess := true })), hmod, fun k hk =>
    (State.setBook_other o _ hk).trans (hd.bookAt k)⟩

/-- The write-backs of a fixed set are class-1 work; the others are background steps of the mover. -/
theorem State.stepWriteBack_of {u : State} (h : (s.bookAt book).wb.isSome = true ∧ u = s ∨
    (s.bookAt book).wb = none ∧ s.mayStep .mover background = true ∧ u = s.takeStep .mover) :
    s.stepWriteBack book 0 block = u.doWriteBack book 0 block := by
  unfold State.stepWriteBack
  rcases h with ⟨hwb, rfl⟩ | ⟨hwb, hstep, rfl⟩
  · exact if_pos hwb
  · rw [hwb]
    refine (if_neg (by simp)).trans ?_
    unfold State.stepOf
    exact if_pos hstep

theorem State.takeStep_mover_canMaster (s : State) (m : Nat) : (s.takeStep .mover).canMaster m = s.canMaster m := by
  have htaken : (s.takeStep .mover).sched.taken.contains (.dma (m - 32)) = s.sched.taken.contains (.dma (m - 32)) := by
    show (UnitId.mover :: s.sched.taken).contains (.dma (m - 32)) = _
    rw [List.contains_cons]
    rfl
  unfold State.canMaster State.engineRedoes
  rw [htaken]
  rfl

end

/-- A write-back, and the retry of one that was refused. -/
theorem writeBack_of {s u : State} {book block v : Nat} {p : PanBlock} {mac : Bytes} (hp : s.blockAt book block = some p)
    (hdirty : p.dirty = true) (hlost : p.lost = false) (hmay : (s.bookAt book).mayWriteBack p.cut = true)
    (hparent : s.parentEntry book 0 block = some (v, mac)) (hcan : s.canMaster (masterSaltern book) = true)
    (hroom : s.pan.nodes.length ≤ s.nodeRoom)
    (hu : (s.bookAt book).wb.isSome = true ∧ u = s ∨
      (s.bookAt book).wb = none ∧ s.mayStep .mover background = true ∧ u = s.takeStep .mover) {o : State × Bool}
    (ho : u.hostWrite (masterSaltern book) book .saltern none ((s.bookAt book).saltBase + 256 * block)
      ((s.bookAt book).sealBlock block (v + 1) p.bytes) = o) {i : Instr}
    (hi : exec i s = .next (s.stepWriteBack book 0 block).trim) :
    (o.2 = true → ∃ t q, exec i s = .next t ∧ t.blockAt book block = some q ∧ q.recs = p.recs ∧ q.dirty = false ∧ q.wbVer = v + 1 ∧
      q.wbRefused = none ∧ t.out = o.1.out ∧ OtherBooks s t book ∧
      ((s.bookAt book).rootVer.length = 8 → (s.bookAt book).rootMac.length = 8 →
        (∀ n, s.nodeAt book 1 (block / 8) = some n → n.ver.length = 8 ∧ n.mac.length = 8) →
        t.parentEntry book 0 block = some (v + 1, (s.bookAt book).objMac 0 block (v + 1)
          ((s.bookAt book).sealBlock block (v + 1) p.bytes))) ∧
      ∀ k, k ≠ block → t.blockAt book k = s.blockAt book k) ∧
    (o.2 = false → ∃ t, exec i s = .next t ∧ (t.bookAt book).wbAccess = true ∧
      t.blockAt book block = some { p with wbRefused := some s.now } ∧ OtherBooks s t book) := by
  have hd : Drained u o.1 := ho ▸ State.hostWrite_drained _ _ _ _ _ _ _
  have hstep := State.stepWriteBack_of (block := block) hu
  have hsame : ∃ taken, u = { s with sched := { s.sched with taken := taken } } := by
    rcases hu with ⟨-, rfl⟩ | ⟨-, -, rfl⟩
    · exact ⟨_, rfl⟩
    · exact ⟨_, rfl⟩
  have hcanU : u.canMaster (masterSaltern book) = true := by
    rcases hu with ⟨-, rfl⟩ | ⟨-, -, rfl⟩
    · exact hcan
    · exact (s.takeStep_mover_canMaster _).trans hcan
  obtain ⟨taken, rfl⟩ := hsame
  have hwrite := State.doWriteBack_of (s := { s with sched := { s.sched with taken := taken } }) hp hdirty hlost hmay hparent hcanU ho
  rw [hstep, hwrite] at hi
  refine ⟨fun hok => ?_, fun hno => ?_⟩
  · rw [if_pos hok] at hi
    obtain ⟨q, hq⟩ := State.wrote_of (s := { s with sched := { s.sched with taken := taken } }) (ver := v + 1) (mac := (s.bookAt book).objMac 0 block (v + 1)
      ((s.bookAt book).sealBlock block (v + 1) p.bytes)) hd hp hroom (Option.isSome_iff_exists.mpr ⟨_, hparent⟩)
    exact ⟨_, q, hi, hq⟩
  · rw [if_neg (Bool.eq_false_iff.mp hno)] at hi
    exact ⟨_, hi, State.writeBackRefused_of (s := { s with sched := { s.sched with taken := taken } }) hd hp hroom⟩

/-- Settles O20: the end of a load, its failed reads, the write-back and its retry. -/
theorem panAndSaltern : Obligations.PanAndSaltern := by
  unfold Obligations.PanAndSaltern
  intro s book block
  refine ⟨fun l d v mac hload hfailed hlevels hlen hflush harrive hroom hparent hv =>
      salternBlockLoaded_of hload hfailed hlevels hlen hflush harrive hroom hparent hv,
    fun l hload hfailed hretried hrebuild => salternReadRetry_fails hload hfailed hretried hrebuild,
    fun l g hload hfailed hnow hcan hreads => salternReadRetry_again hload hfailed hnow hcan hreads,
    fun p v mac u hp hdirty hlost hmay hparent hcan hroom hu => ?_, fun hwb hstep hroom => ?_⟩
  · have hrefused : s.objRefused book 0 block = p.wbRefused := by
      unfold State.objRefused
      rw [if_pos rfl, hp]
      rfl
    have hnew (h : p.wbRefused = none) :
        exec (.blockWriteBack book 0 block) s = .next (s.stepWriteBack book 0 block).trim := by
      refine congrArg Host.Outcome.next (if_neg ?_)
      rw [hrefused, h]
      exact Bool.false_ne_true
    have hretry (g : Nat) (h : p.wbRefused = some g) (hnow : g + 5760 ≤ s.now) :
        exec (.writeBackRetry book 0 block) s = .next (s.stepWriteBack book 0 block).trim := by
      show execWriteBackRetry book 0 block s = _
      unfold execWriteBackRetry
      rw [hrefused, h]
      exact congrArg Host.Outcome.next (if_neg (Nat.not_lt.mpr hnow))
    have hof {i : Instr} := writeBack_of (i := i) hp hdirty hlost hmay hparent hcan hroom hu rfl
    exact ⟨fun h => (hof (hnew h)).1, fun h => (hof (hnew h)).2, fun g h hnow => (hof (hretry g h hnow)).1,
      fun g h hnow => (hof (hretry g h hnow)).2⟩
  · have hstay : s.stepWriteBack book 0 block = s := by
      unfold State.stepWriteBack
      rw [hwb]
      refine (if_neg (by simp)).trans ?_
      unfold State.stepOf
      exact if_neg (Bool.eq_false_iff.mp hstep)
    have htrim : (s.stepWriteBack book 0 block).trim = s := by rw [hstay, State.trim_of_le hroom]
    refine ⟨congrArg Host.Outcome.next ?_, ?_⟩
    · rw [htrim]
      exact ite_self s
    · show execWriteBackRetry book 0 block s = _
      unfold execWriteBackRetry
      refine congrArg Host.Outcome.next ?_
      rw [htrim]
      split
      · rfl
      · exact ite_self s

end Sys2Proof.Machine
end

section
/-! SUPPORT. Corrected and uncorrectable words, the rebuild of a block, UNFENCE (R23, R24, R98, R230, R237, R333). -/

namespace Sys2Proof.Machine
open Sys2Proof

/-! A word and its nibbles (R72). -/

theorem nib_lt (w : Image) (n : Nat) : nib w n < 16 := Nat.mod_lt _ (by decide)

/-- The first `k` nibbles are the word without the others. -/
theorem foldl_nibbles (w : Image) : ∀ k ≤ 32, ((List.range k).map (fun n => BitVec.ofNat 4 (nib w n))).foldl
    (fun a (x : Gf) => 16 * a + x.toNat) 0 = w.toNat / 2 ^ (4 * (32 - k)) := by
  intro k
  induction k with
  | zero =>
    intro _
    exact (Nat.div_eq_of_lt w.isLt).symm
  | succ k ih =>
    intro hk
    have hpow : 2 ^ (4 * (32 - k)) = 2 ^ (4 * (31 - k)) * 16 := by
      rw [show 4 * (32 - k) = 4 * (31 - k) + 4 by omega, Nat.pow_add]
    have hdiv : w.toNat / 2 ^ (4 * (32 - k)) = w.toNat / 2 ^ (4 * (31 - k)) / 16 := by rw [hpow, Nat.div_div_eq_div_mul]
    have hnib : (BitVec.ofNat 4 (nib w k)).toNat = w.toNat / 2 ^ (4 * (31 - k)) % 16 := by
      rw [BitVec.toNat_ofNat, Nat.mod_eq_of_lt (nib_lt w k)]
      rfl
    rw [List.range_succ, List.map_append, List.foldl_append, ih (by omega), List.map_singleton, List.foldl_cons, List.foldl_nil, hnib,
      hdiv, show 32 - (k + 1) = 31 - k by omega]
    exact Nat.div_add_mod _ 16

theorem imageOf_codeword (w : Image) : imageOf (codeword (nibbles w)) = w := by
  have hlen : (nibbles w).length = 32 := by simp [nibbles]
  have htake : (codeword (nibbles w)).take 32 = nibbles w := by
    rw [codeword, List.take_append_of_le_length (by omega), List.take_of_length_le (by omega)]
  unfold imageOf
  rw [htake]
  have hfold := foldl_nibbles w 32 (by decide)
  refine BitVec.eq_of_toNat_eq ?_
  rw [BitVec.toNat_ofNat]
  unfold nibbles
  rw [hfold, Nat.sub_self, Nat.mul_zero, Nat.pow_zero, Nat.div_one, Nat.mod_eq_of_lt w.isLt]

/-! An upset of one symbol (R98). -/

theorem upsetAt_one (n e k : Nat) : upsetAt [(n, e)] k = if n = k then BitVec.ofNat 4 e else 0 := by
  unfold upsetAt
  by_cases h : n = k
  · simp [h]
  · simp [h]

theorem received_one {w : Image} {n e : Nat} : received w [(n, e)] =
    (codeword (nibbles w)).set n ((codeword (nibbles w)).getD n 0 ^^^ BitVec.ofNat 4 e) := by
  have hlen : (codeword (nibbles w)).length = 36 := codeword_length (by simp [nibbles])
  refine List.ext_getElem (by simp [received, hlen]) fun i hi hi' => ?_
  have hi36 : i < (codeword (nibbles w)).length := by simpa [received, hlen] using hi
  simp only [received, List.getElem_zipWith, List.getElem_map, List.getElem_range, upsetAt_one, List.getElem_set]
  split
  · next h =>
    subst h
    rw [List.getD_eq_getElem?_getD, List.getElem?_eq_getElem hi36]
    rfl
  · exact BitVec.xor_zero

theorem examined_one {w : Image} {n e : Nat} (hn : n < 36) (he : 0 < e) (he' : e < 16) :
    examined w [(n, e)] = .corrected n (BitVec.ofNat 4 e) ∧ reread w [(n, e)] = some w := by
  have hne : BitVec.ofNat 4 e ≠ 0 := by
    intro h
    have h0 := congrArg BitVec.toNat h
    rw [BitVec.toNat_ofNat, Nat.mod_eq_of_lt he'] at h0
    exact Nat.ne_of_gt he h0
  obtain ⟨-, -, hone, -⟩ := nibbleCode (nibbles w) (by simp [nibbles])
  obtain ⟨hlocate, hdecode⟩ := hone n (BitVec.ofNat 4 e) hn hne
  unfold examined reread
  rw [received_one]
  exact ⟨hlocate, by rw [hdecode, Option.map_some, imageOf_codeword]⟩

/-- A word with one bad symbol is counted for its unit and stands as it was. -/
theorem correctWord_one {s : State} {p : CodePlace} {w : Image} {n e : Nat} (hw : s.codedWord p = some w) (hn : n < 36) (he : 0 < e)
    (he' : e < 16) : s.correctWord p [(n, e)] = if placeUnit p = 10 then
      { s.corrected (placeUnit p) 1 with nv := { s.nv with corrected := s.nv.corrected + 1 } } else s.corrected (placeUnit p) 1 := by
  obtain ⟨hexamined, hreread⟩ := examined_one (w := w) hn he he'
  unfold State.correctWord
  rw [hw]
  dsimp only
  rw [hexamined, hreread]
  exact if_pos rfl

/-! An uncorrectable word of a tally line (R230). -/

section
variable {s : State} {book block : Nat}

/-- An entry with a leg in the block has dropped its legs. -/
def Dropped (book block : Nat) (e : Entry) : Prop := e.names book block = true → e.legs.all (fun l => !l.got) = true

theorem Entry.restart_dropped (e : Entry) : Dropped book block e.restart := fun _ => by
  simp [Entry.restart, Leg.drop]

theorem Entry.refetch_legs (e : Entry) (bad : List (Nat × Bool)) : (e.refetch bad).names book block = e.names book block ∧
    (e.legs.all (fun l => !l.got) = true → (e.refetch bad).legs.all (fun l => !l.got) = true) := by
  have htid (l : Leg) : (if l.from_ bad then l.drop else l).tid = l.tid := by
    split
    · rfl
    · rfl
  refine ⟨?_, fun h => ?_⟩
  · simp only [Entry.names, Entry.refetch, List.any_map, Function.comp_def, htid]
  · simp only [Entry.refetch, List.all_map, Function.comp_def]
    refine List.all_eq_true.mpr fun l hl => ?_
    have hgot := List.all_eq_true.mp h l hl
    split
    · rfl
    · exact hgot

/-- Re-execution takes records away, and gives none. -/
theorem reexecAux_dropped (es : List Entry) (bad : List (Nat × Bool)) (h : ∀ e ∈ es, Dropped book block e) :
    ∀ e ∈ (reexecAux bad es).1, Dropped book block e := by
  induction es generalizing bad with
  | nil => exact fun _ he => absurd he (List.not_mem_nil)
  | cons x es ih =>
    have hx := h x (List.mem_cons_self)
    have hes := fun e he => h e (List.mem_cons_of_mem x he)
    unfold reexecAux
    split
    · intro e he
      rcases List.mem_cons.mp he with rfl | he
      · obtain ⟨hnames, hlegs⟩ := x.refetch_legs (book := book) (block := block) bad
        exact fun hn => hlegs (hx (hnames ▸ hn))
      · exact ih _ hes e he
    · intro e he
      rcases List.mem_cons.mp he with rfl | he
      · exact hx
      · exact ih _ hes e he

/-- The rebuild of a block that has just been lost. -/
def State.newRebuild (s : State) (b : PanBlock) (book block : Nat) : Rebuild :=
  { book := book, block := block, started := false, haveBase := false, recs := [], pos := b.wbPos, expect := b.wbLseq + 1,
    rings := s.ringsOn book block }

theorem State.loseBlock_of {p : PanBlock} (hp : s.blockAt book block = some p) (hlost : p.lost = false) :
    (s.loseBlock book block false).blockAt book block = some { p with lost := true } ∧
      ((s.loseBlock book block false).rebuildAt book block).isSome = true ∧
      (∀ e ∈ (s.loseBlock book block false).brine.entries, Dropped book block e) ∧
      (s.loseBlock book block false).books = s.books ∧ (s.loseBlock book block false).nv = s.nv := by
  let hits := s.brine.entries.filter (fun e => e.names book block)
  let v := s.modBlock book block (fun b => { b with lost := true })
  let u : State := { v with
    brine := { v.brine with entries := v.brine.entries.map (fun (e : Entry) => if e.names book block then e.restart else e) },
    pan := { v.pan with rebuilds := v.pan.rebuilds ++ [s.newRebuild p book block] } }
  have ht : s.loseBlock book block false = u.reexecute (hits.map Entry.key) := by
    unfold State.loseBlock
    rw [hp]
    dsimp only
    rw [hlost]
    rfl
  have hblock : v.blockAt book block = some { p with lost := true } := by
    refine (s.blockAt_modBlock book block book block (f := fun b => { b with lost := true }) ?_).trans ?_
    · exact fun _ => ⟨rfl, rfl⟩
    · rw [if_pos ⟨rfl, rfl⟩, hp]
      rfl
  have hentries : ∀ e ∈ u.brine.entries, Dropped book block e := by
    intro e he
    obtain ⟨x, -, rfl⟩ := List.mem_map.mp he
    split
    · exact x.restart_dropped
    · next hn => exact fun hn' => absurd hn' hn
  rw [ht]
  refine ⟨hblock, ?_, reexecAux_dropped _ _ hentries, rfl, rfl⟩
  show ((s.pan.rebuilds ++ [s.newRebuild p book block]).find? (fun r => r.book == book && r.block == block)).isSome = true
  rw [List.find?_append, Option.isSome_or]
  simp [State.newRebuild]

/-- A dropped entry has not fetched its tallies. -/
theorem Dropped.not_fetched {e : Entry} (h : Dropped book block e) (hbook : e.book = book)
    (hleg : e.legs.any (fun l => tidBlock l.tid == block) = true) : e.fetched = false := by
  have hall := h (by rw [Entry.names, hbook, hleg, beq_self_eq_true]; rfl)
  obtain ⟨l, hl, -⟩ := List.any_eq_true.mp hleg
  have hgot : l.got = false := by simpa using List.all_eq_true.mp hall l hl
  refine Bool.eq_false_iff.mpr fun hf => ?_
  have := List.all_eq_true.mp hf l hl
  rw [hgot] at this
  exact Bool.false_ne_true this

/-! The rebuild (R230). -/

theorem State.rebuildAt_modRebuild {r : Rebuild} {f : Rebuild → Rebuild} (hf : ∀ x, x.book = book → x.block = block →
      (f x).book = book ∧ (f x).block = block) (h : s.rebuildAt book block = some r) :
    (s.modRebuild book block f).rebuildAt book block = some (f r) := by
  have hr : (r.book == book && r.block == block) = true :=
    List.find?_some (p := fun r : Rebuild => r.book == book && r.block == block) h
  have keys : ((fun r : Rebuild => r.book == book && r.block == block) ∘ fun r =>
      if (r.book == book && r.block == block) = true then f r else r) = fun r => r.book == book && r.block == block := by
    funext m
    dsimp only [Function.comp]
    split
    · next hm =>
      obtain ⟨hb, hk⟩ : m.book = book ∧ m.block = block := by simpa using hm
      rw [(hf m hb hk).1, (hf m hb hk).2, hb, hk]
    · rfl
  unfold State.rebuildAt at h ⊢
  show (s.pan.rebuilds.map _).find? _ = _
  rw [List.find?_map, keys, h]
  exact congrArg some (if_pos hr)

theorem State.rebuildAt_names {r : Rebuild} (h : s.rebuildAt book block = some r) : r.book = book ∧ r.block = block := by
  simpa using List.find?_some h

theorem State.rebuildAt_dropRebuild (s : State) (book block : Nat) : (s.dropRebuild book block).rebuildAt book block = none :=
  List.find?_eq_none.mpr fun r hr => by simpa [imp_iff_not_or] using (List.mem_filter.mp hr).2

theorem Rebuild.apply_names {r q : Rebuild} {d : Bytes} (h : r.apply d = some q) : q.book = r.book ∧ q.block = r.block := by
  unfold Rebuild.apply at h
  obtain ⟨x, -, rfl⟩ := Option.map_eq_some_iff.mp h
  exact ⟨rfl, rfl⟩

/-- A rebuild that has come to the last commit places its block. -/
theorem State.rebuildRun_done {r : Rebuild} (hr : s.rebuildAt book block = some r) (hrecs : r.recs ≠ [])
    (hlast : (s.bookAt book).lseq < r.expect) : s.rebuildRun book block = s.rebuildDone r := by
  have hsome : r.recs.isEmpty = false := by simpa using hrecs
  unfold State.rebuildRun State.rebuildNext
  rw [hr]
  dsimp only
  rw [hsome, if_neg Bool.false_ne_true]
  exact if_pos (by simp [hlast])

theorem State.rebuildDone_of {p : PanBlock} {r : Rebuild} (hp : s.blockAt book block = some p) (hb : r.book = book)
    (hk : r.block = block) : (s.rebuildDone r).blockAt book block = some { p with recs := r.recs, lost := false } ∧
      (s.rebuildDone r).rebuildAt book block = none ∧ (s.rebuildDone r).pan.reloads = s.pan.reloads + 1 ∧
      (s.rebuildDone r).books = s.books := by
  subst hb hk
  let u := s.dropRebuild r.book r.block
  refine ⟨?_, s.rebuildAt_dropRebuild r.book r.block, rfl, rfl⟩
  refine (u.blockAt_modBlock r.book r.block r.book r.block (f := fun b => { b with recs := r.recs, lost := false }) ?_).trans ?_
  · exact fun _ => ⟨rfl, rfl⟩
  · rw [if_pos ⟨rfl, rfl⟩]
    exact congrArg (Option.map fun b : PanBlock => { b with recs := r.recs, lost := false }) hp

theorem exec_rebuildFrameArrival {r q : Rebuild} {x : Read} {d : Bytes} (hr : s.rebuildAt book block = some r)
    (hx : s.reads.find? (fun y => y.kind == .rebuild book block) = some x) (harrive : x.arrives = true) (hlen : d.length = x.len)
    (hflush : s.pwr.flush = none) (hpad : fieldAt d 0 1 ≠ 0xFF) (hframe : (s.bookAt book).frameFail book d = none)
    (hlseq : recLseq d = r.expect) (hwrap : fieldAt d (frameAt d - 16) 8 = r.pos / (s.bookAt book).region)
    (happly : r.apply (recordOf d) = some q) : exec (.rebuildFrameArrival book block d) s =
      .next (((s.dropRead x.id).modRebuild book block (fun _ => { q with pos := r.pos + frameAt d, expect := r.expect + 1 })).rebuildRun
        book block) := by
  obtain ⟨hb, hk⟩ := State.rebuildAt_names hr
  have hgo : (!x.arrives || d.length != x.len || s.pwr.flush.isSome) = false := by simp [harrive, hlen, hflush]
  have hnopad : ¬ (fieldAt d 0 1 == 0xFF) = true := by simpa using hpad
  have hok : ((((s.dropRead x.id).bookAt book).frameFail book d).isNone && recLseq d == r.expect &&
      fieldAt d (frameAt d - 16) 8 == r.pos / ((s.dropRead x.id).bookAt book).region) = true := by
    have hf : ((s.dropRead x.id).bookAt book).frameFail book d = none := hframe
    have hw : fieldAt d (frameAt d - 16) 8 = r.pos / ((s.dropRead x.id).bookAt book).region := hwrap
    simp [hf, hlseq, hw]
  show Host.Outcome.next (s.rebuildArrival book block d) = _
  unfold State.rebuildArrival
  rw [hr, hx]
  dsimp only
  rw [hgo, if_neg Bool.false_ne_true]
  unfold State.rebuildFrame
  dsimp only
  rw [hb, hk, if_neg hnopad, hok, if_pos rfl, happly]

theorem State.startLoad_of (h : (s.startLoad book block 0).2 = true) : ((s.startLoad book block 0).1.loadAt book block).isSome = true ∧
    (s.startLoad book block 0).1.rebuildAt book block = s.rebuildAt book block ∧ (s.startLoad book block 0).1.books = s.books := by
  unfold State.startLoad at h ⊢
  dsimp only at h ⊢
  split at h
  · next hreads =>
    obtain ⟨hpan, hbooks, -⟩ := State.loadReads_kept false _ hreads
    rw [if_pos hreads]
    refine ⟨?_, ?_, hbooks⟩
    · show ((_ ++ [_]).find? (fun l : Load => l.book == book && l.block == block)).isSome = true
      rw [List.find?_append, Option.isSome_or]
      simp
    · show (State.pan _).rebuilds.find? _ = _
      rw [hpan]
      rfl
  · exact absurd h Bool.false_ne_true

theorem exec_panRebuild {p : PanBlock} {r : Rebuild} (hp : s.blockAt book block = some p) (hr : s.rebuildAt book block = some r)
    (hbase : r.haveBase = false) (hstarted : r.started = false) (hver : p.wbVer ≠ 0) (hcan : s.canRead (masterSaltern book) = true)
    (hload : ((s.modRebuild book block (fun r => { r with started := true })).startLoad book block 0).2 = true) :
    exec (.panRebuild book block) s =
      .next ((s.modRebuild book block (fun r => { r with started := true })).startLoad book block 0).1 := by
  show Host.Outcome.next (s.panRebuild book block) = _
  unfold State.panRebuild
  rw [hr, hp]
  dsimp only
  rw [hbase, hstarted, hcan, if_neg hver, if_pos hload]
  rfl

end

/-! UNFENCE (R237). -/

theorem unfence_of (s : State) (ring : Nat) : let t := s.settleOne (.unfence ring)
    ((s.sqAt ring).fenced = true → t.sqAt ring = { s.sqAt ring with fenced := false } ∧ (∀ k, k ≠ ring → t.sqAt k = s.sqAt k) ∧
      (∀ r ∈ t.fetchReads ring, r.preUnfence = true) ∧ t.work = s.work ∧ t.books = s.books) ∧
    ((s.sqAt ring).fenced = false → t = s) := by
  intro t
  refine ⟨fun h => ?_, fun h => if_neg (Bool.eq_false_iff.mp h)⟩
  let u := s.modSq ring (fun q => { q with fenced := false })
  have ht : t = u.modFetch ring (fun r => { r with preUnfence := true }) := if_pos h
  have hsame : u.sqAt ring = { s.sqAt ring with fenced := false } := State.setSq_same s ring _
  have hothers : ∀ k, k ≠ ring → u.sqAt k = s.sqAt k := fun k hk => State.setSq_other s _ hk
  rw [ht]
  refine ⟨hsame, hothers, fun r hr => ?_, rfl, rfl⟩
  rw [State.fetchReads_modFetch (f := fun r => { r with preUnfence := true }) u ring fun _ => rfl] at hr
  obtain ⟨x, -, rfl⟩ := List.mem_map.mp hr
  rfl

/-- Settles O21: a corrected word, the places of an uncorrectable one, the rebuild, UNFENCE. -/
theorem faultsAndRebuilds : Obligations.FaultsAndRebuilds := by
  unfold Obligations.FaultsAndRebuilds
  intro s book block
  refine ⟨fun p w n e hw hn he he' => ?_, fun bad upset h => congrArg Host.Outcome.next (if_neg h),
    fun p upset hp hlost hbad => ?_, fun core addr upset hbad => ?_, fun p r hp hr hbase hstarted hver hcan hload => ?_,
    fun p r x d q hp hr hx harrive hlen hflush hpad hframe hlseq hwrap happly hrecs hlast => ?_,
    fun hw hkind => congrArg Host.Outcome.next ((State.onReg_of hw _).trans (if_neg (Bool.eq_false_iff.mp hkind))), unfence_of s⟩
  · have hi : exec (.correctedWordWriteback p [(n, e)]) s = .next (s.correctWord p [(n, e)]) := rfl
    rw [correctWord_one hw hn he he'] at hi
    refine ⟨_, hi, ?_⟩
    split
    · exact ⟨tget_tput_same _ _ _ _, fun k hk => tget_tput_other _ _ _ hk, rfl, rfl⟩
    · exact ⟨tget_tput_same _ _ _ _, fun k hk => tget_tput_other _ _ _ hk, rfl, rfl⟩
  · obtain ⟨logs, tamper, tel, h⟩ := s.uncorrectable_eq 11 2 book block
    let u : State := { s with logs := logs, tamper := tamper, tel := tel }
    obtain ⟨hblock, hrebuild, hentries, hbooks, hnv⟩ := State.loseBlock_of (s := u) hp hlost
    have hi : exec (.uncorrectableError (.panLine book block false) upset) s = .next (u.loseBlock book block false) :=
      congrArg Host.Outcome.next ((if_pos hbad).trans (congrArg (fun x : State => x.loseBlock book block false) h))
    exact ⟨_, _, hi, hblock, rfl, hrebuild, fun e he hbook hleg => (hentries e he).not_fetched hbook hleg, hbooks, hnv⟩
  · obtain ⟨logs, tamper, tel, h⟩ := s.uncorrectable_eq 7 8 0xFFFF addr
    let u : State := { s with logs := logs, tamper := tamper, tel := tel }
    have hi : exec (.uncorrectableError (.local_ core addr) upset) s = .next (u.loseLocal core addr) :=
      congrArg Host.Outcome.next ((if_pos hbad).trans (congrArg (fun x : State => x.loseLocal core addr) h))
    refine ⟨_, hi, ?_, fun k hk => u.modCore_other _ hk, rfl⟩
    unfold State.loseLocal
    rw [State.modCore_same]
    split
    · next hc => exact hc
    · simp
  · obtain ⟨hloaded, hat, hbooks⟩ := State.startLoad_of hload
    refine ⟨_, { r with started := true }, exec_panRebuild hp hr hbase hstarted hver hcan hload, ?_, rfl, hloaded, hbooks⟩
    refine hat.trans (State.rebuildAt_modRebuild (f := fun r => { r with started := true }) ?_ hr)
    exact fun _ hb hk => ⟨hb, hk⟩
  · obtain ⟨hb, hk⟩ := State.rebuildAt_names hr
    obtain ⟨hqb, hqk⟩ := Rebuild.apply_names happly
    let r' : Rebuild := { q with pos := r.pos + frameAt d, expect := r.expect + 1 }
    let u := (s.dropRead x.id).modRebuild book block (fun _ => r')
    have hu : u.rebuildAt book block = some r' := State.rebuildAt_modRebuild (s := s.dropRead x.id) (f := fun _ => r')
      (fun _ _ _ => ⟨hqb.trans hb, hqk.trans hk⟩) hr
    have hdone : u.rebuildRun book block = u.rebuildDone r' := State.rebuildRun_done hu hrecs (show (s.bookAt book).lseq < r.expect + 1 by omega)
    obtain ⟨hblock, hgone, hreloads, hbooks⟩ := State.rebuildDone_of (s := u) (r := r') hp (hqb.trans hb) (hqk.trans hk)
    have hi := exec_rebuildFrameArrival hr hx harrive hlen hflush hpad hframe hlseq hwrap happly
    exact ⟨_, _, hi.trans (congrArg Host.Outcome.next hdone), hblock, rfl, rfl, hgone, hreloads, hbooks⟩

end Sys2Proof.Machine
end

section
/-! SUPPORT. Service calls that run operations, the end of a call, the end of a big-number job (R347 to R350, R366, R430, R435). -/

namespace Sys2Proof.Machine
open Sys2Proof

section
variable {s : State} {core : Nat} {v : Invocation}

/-! TALLY_READ, POST. -/

theorem svcTallyRead_of (h : Calls s core 1 v) (hclean : (s.coreAt core).argClean [(0, 8), (8, 1)] = true)
    (haux : (s.coreAt core).argAt 8 1 < 4) :
    Submits (.svcTallyRead core) s core (s.svcWork core v (zeros 16 ++ memRead (s.coreAt core).arg 0 8 ++ zeros 40) 0x1010
      ((s.coreAt core).argAt 8 1) 0 16 1 false [] []) :=
  submits_of h.calls (congrArg Host.Outcome.next (h.onCall_of (by decide) (by decide) (by simp [hclean, haux]) rfl))

/-- The newest work is changed where no other bears its number. -/
theorem State.modWork_newest {w : Work} {f : Work → Work} (h : s.workAt w.id = none) :
    (({ s with work := s.work ++ [w] } : State).modWork w.id f).work = s.work ++ [f w] := by
  have hold : s.work.map (fun v => if v.id == w.id then f v else v) = s.work := by
    exact (List.map_congr_left fun v hv => if_neg (List.find?_eq_none.mp h v hv)).trans (List.map_id' _)
  show (s.work ++ [w]).map _ = _
  rw [List.map_append, hold]
  simp

theorem svcPost_of (h : Calls s core 2 v) (hclean : (s.coreAt core).argClean [(0, 7), (8, 8)] = true)
    (haux : (s.coreAt core).argAt 4 2 < 64) (hmin : 1 ≤ (s.coreAt core).argAt 4 2 % 16) (hmax : (s.coreAt core).argAt 4 2 % 16 ≤ 8)
    (hd : (s.coreAt core).argAt 6 1 < 2) (hin : localOk ((s.coreAt core).argAt 0 4) (postPayload (s.coreAt core)) 16 = true)
    (hrcpt : ((s.coreAt core).argAt 4 2).testBit 4 = false ∨ localOk ((s.coreAt core).argAt 8 4) 128 16 = true)
    (hnew : s.workAt s.nextId = none) (hearly : s.postEarly (s.svcPostWork core (s.coreAt core) v) = none) :
    Submits (.svcPost core) s core (s.svcPostWork core (s.coreAt core) v) := by
  have hi : exec (.svcPost core) s = .next (s.svcPost core (s.coreAt core) v) := by
    refine congrArg Host.Outcome.next (h.onCall_of (by decide) (by decide) ?_ ?_)
    · simp [hclean, haux, bits, hmin, hmax, hd]
    · rcases hrcpt with hb | hb
      · simp [hin, bit, hb]
      · simp [hin, hb]
  obtain ⟨_, _, hanswer⟩ := Core.calls_iff.mp h.calls
  let w := s.svcPostWork core (s.coreAt core) v
  let x : State := { s with work := s.work ++ [{ w with phase := .routed }], nextId := s.nextId + 1 }
  have hc := x.svcStarted_of core
  have hheld : s.svcPost core (s.coreAt core) v =
      (s.svcSubmit core { w with phase := .routed }).modWork w.id (fun v => { v with phase := .held, heldAt := s.now }) :=
    State.presentPosting_holds (s := s.svcSubmit core { w with phase := .routed }) hearly
  refine ⟨_, hi.trans (congrArg Host.Outcome.next hheld), ?_, congrArg Core.started hc, (congrArg Core.answer hc).trans hanswer,
    fun k hk => x.modCore_other (fun c => { c with started := true }) hk, rfl⟩
  exact State.modWork_newest (w := { w with phase := .routed }) hnew

/-! BIGNUM. -/

theorem svcBignum_of {op : Nat} (h : Calls s core 6 v) (hclean : (s.coreAt core).argClean [(0, 2), (4, 20)] = true)
    (hop : (s.coreAt core).argAt 0 2 = op) (hassigned : bnOpOk op = true) (hkeyless : bnTypes op = none) (hkey : (s.coreAt core).argAt 4 4 = 0)
    (hlens : bnLensOk op 0 ((s.coreAt core).argAt 0x0C 4) ((s.coreAt core).argAt 0x14 4) = true)
    (hin : localOk ((s.coreAt core).argAt 8 4) ((s.coreAt core).argAt 0x0C 4) 1 = true)
    (hout : localOk ((s.coreAt core).argAt 0x10 4) ((s.coreAt core).argAt 0x14 4) 1 = true) {b : Bytes}
    (hb : (s.coreAt core).bytes ((s.coreAt core).argAt 8 4) ((s.coreAt core).argAt 0x0C 4) = b) (hsizes : bnInOk op b = true)
    (hroom : bnOutLen op 0 b ≤ (s.coreAt core).argAt 0x14 4) : exec (.svcBignum core) s =
      .next (if bnValid op 0 [] b then (s.bnSubmit (bnJobOf v.work 1 core v.slice op none 0 b)).svcStarted core
        else s.answerSvc core .range []) := by
  subst hop
  obtain ⟨-, htype⟩ := s.bnKeyOf_none hkeyless ((s.coreAt core).argAt 4 4)
  refine congrArg Host.Outcome.next ((h.onCall_of (by decide) (by decide) ?_ ?_).trans ?_)
  · rw [hkey] at htype ⊢
    dsimp only
    rw [htype, hclean, hassigned, hkeyless, hlens]
    rfl
  · simp [hin, hout]
  · have hcheck : s.bnKeyCheck v.slice ((s.coreAt core).argAt 0 2) ((s.coreAt core).argAt 4 4) = (s, none) := by
      unfold State.bnKeyCheck
      rw [hkeyless]
    unfold State.svcBignum
    dsimp only
    rw [hcheck]
    dsimp only
    rw [hb, htype, hsizes, hkeyless, decide_eq_true hroom, if_neg (by decide)]
    cases hvalid : bnValid ((s.coreAt core).argAt 0 2) 0 [] b
    · exact if_pos (by simp [hvalid])
    · exact if_neg (by simp [hvalid])

/-- A job of a service call joins the queue. -/
theorem State.svcBnSubmit_of (s : State) (core : Nat) (j : BnJob) : let t := (s.bnSubmit j).svcStarted core
    (t.coreAt core).started = true ∧ (∃ k, t.crypto.bnQueue = s.crypto.bnQueue ++ [k] ∧ k.use = j.use ∧ k.who = j.who ∧ k.op = j.op ∧
      k.input = j.input) ∧ OtherCores s t core ∧ Untouched s t := by
  intro t
  obtain ⟨rng, hsub⟩ := s.bnSubmit_eq j
  have ht : t = (State.svcStarted _ core) := congrArg (State.svcStarted · core) hsub
  rw [ht]
  exact ⟨congrArg Core.started (State.svcStarted_of _ core), ⟨_, rfl, rfl, rfl, rfl, rfl⟩, fun k hk => State.modCore_other _ _ hk,
    rfl, rfl, rfl, rfl, rfl⟩

/-! NV_READ, NV_WRITE. -/

/-- A password that is accepted clears the failures of its partition. -/
theorem State.passwordCheck_none {part : Nat} {write : Bool} {given : Bytes} (h : (s.passwordCheck part write given).2 = none) :
    s.passwordCheck part write given = (s.modPart part (fun p => { p with fails := 0 }), none) := by
  cases hl : (s.partAt part).locked with
  | true => exact absurd h (by simp [State.passwordCheck, hl])
  | false =>
    cases hp : passwordOk (if write then (s.partAt part).writePw else (s.partAt part).readPw) given with
    | true => exact State.passwordCheck_passes hl hp
    | false =>
      rw [State.passwordCheck_fails hl hp] at h
      exact absurd h (by simp)

/-- The checks of NV_READ and NV_WRITE that a call passes clear the failures of its partition. -/
theorem State.svcNvChecks_passes {c : Core} {write : Bool} (h : (s.svcNvChecks c v write).2 = none) :
    s.svcNvChecks c v write = (s.modPart (c.argAt 0 1) (fun p => { p with fails := 0 }), none) := by
  unfold State.svcNvChecks at h ⊢
  split
  · next hf =>
    rw [hf] at h
    exact absurd h (by simp)
  · next hf =>
    rw [hf] at h
    rw [State.passwordCheck_none (Option.map_eq_none_iff.mp h)]
    rfl

theorem State.badRead_eq (s : State) (key : Nat) : ∃ logs tamper tel uncorr torn,
    s.badRead key = { s with logs := logs, tamper := tamper, tel := tel, nv := { s.nv with uncorr := uncorr, torn := torn } } := by
  have hfold (l : List Nat) (u : State) : ∃ logs tamper tel,
      l.foldl (fun u _ => u.uncorrectable 13 10 0xFFFF ((key / 2 ^ 20 - 0x40) * 4096 + key % 2 ^ 20)) u =
        { u with logs := logs, tamper := tamper, tel := tel } := by
    induction l generalizing u with
    | nil => exact ⟨_, _, _, rfl⟩
    | cons x l ih =>
      obtain ⟨logs, tamper, tel, h⟩ := u.uncorrectable_eq 13 10 0xFFFF ((key / 2 ^ 20 - 0x40) * 4096 + key % 2 ^ 20)
      rw [List.foldl_cons, h]
      obtain ⟨logs', tamper', tel', h'⟩ := ih { u with logs := logs, tamper := tamper, tel := tel }
      exact ⟨logs', tamper', tel', h'⟩
  unfold State.badRead
  dsimp only
  obtain ⟨logs, tamper, tel, h⟩ := hfold (List.range (popcountTo 17 (s.nv.readPage key).2.1)) s
  rw [h]
  exact ⟨_, _, _, _, _, rfl⟩

theorem exec_svcNvRead (h : Calls s core 8 v) (hform : nvArgOk (s.coreAt core) = true)
    (hbuf : localOk ((s.coreAt core).argAt 0x0C 4) ((s.coreAt core).argAt 8 4) 1 = true) {u : State}
    (hu : s.svcNvChecks (s.coreAt core) v false = (u, none)) : exec (.svcNvRead core) s =
      .next (if !u.mayReadPage v.slice then s else
        let x := u.readsPage v.slice
        let r := x.nv.readPage (userKey ((s.coreAt core).argAt 0 1) ((s.coreAt core).argAt 4 4 / 256))
        ((x.badRead (userKey ((s.coreAt core).argAt 0 1) ((s.coreAt core).argAt 4 4 / 256))).svcOutput core ((s.coreAt core).argAt 0x0C 4)
          (wrapRead r.1 ((s.coreAt core).argAt 4 4 % 256) ((s.coreAt core).argAt 8 4))).answerSvc core r.2.2
            (leBytes 4 ((s.coreAt core).argAt 8 4))) := by
  refine congrArg Host.Outcome.next ((h.onCall_of (by decide) (by decide) hform hbuf).trans ?_)
  rw [hu]

/-- Bytes put out for a call and its answer. -/
theorem State.svcOutput_answers (hcalls : (s.coreAt core).mode = .waiting) (hanswer : (s.coreAt core).answer = none) (a : Nat) (b : Bytes)
    (st : Status) (res : Bytes) : let t := (s.svcOutput core a b).answerSvc core st res
    Answered t core st res ∧ (t.coreAt core).output = [(a, b)] ∧ OtherCores s t core := by
  intro t
  have hc : (s.svcOutput core a b).coreAt core = { s.coreAt core with output := [(a, b)] } := s.modCore_same core _
  have hm : ((s.svcOutput core a b).coreAt core).mode = .waiting := (congrArg Core.mode hc).trans hcalls
  have hn : ((s.svcOutput core a b).coreAt core).answer = none := (congrArg Core.answer hc).trans hanswer
  refine ⟨State.answerSvc_answers hm hn st res, ?_, fun k hk => ?_⟩
  · exact (congrArg Core.output (State.answerSvc_of hm hn st res)).trans (congrArg Core.output hc)
  · exact ((s.svcOutput core a b).modCore_other _ hk).trans (s.modCore_other _ hk)

theorem exec_svcNvWrite (h : Calls s core 9 v) (hform : nvArgOk (s.coreAt core) = true)
    (hbuf : localOk ((s.coreAt core).argAt 0x0C 4) ((s.coreAt core).argAt 8 4) 1 = true) {u : State}
    (hu : s.svcNvChecks (s.coreAt core) v true = (u, none)) : exec (.svcNvWrite core) s = .next (u.svcNvStore core (s.coreAt core)) := by
  obtain ⟨_, hstarted, _⟩ := Core.calls_iff.mp h.calls
  refine (if_neg (by simp [hstarted])).trans (congrArg Host.Outcome.next ((h.onCall_of (by decide) (by decide) hform hbuf).trans ?_))
  rw [hu]

/-- The cores, the books and what the store holds are as before. -/
structure ReadsOnly (s t : State) : Prop where
  applets : t.applets = s.applets
  books : t.books = s.books
  pages : t.nv.pages = s.nv.pages
  maps : t.nv.maps = s.nv.maps
  wbuf : t.nv.wbuf = s.nv.wbuf
  behind : t.nv.behind = s.nv.behind

theorem ReadsOnly.trans {s t u : State} (h : ReadsOnly s t) (k : ReadsOnly t u) : ReadsOnly s u :=
  ⟨k.applets.trans h.applets, k.books.trans h.books, k.pages.trans h.pages, k.maps.trans h.maps, k.wbuf.trans h.wbuf,
    k.behind.trans h.behind⟩

theorem ReadsOnly.readPage {t : State} (h : ReadsOnly s t) (key : Nat) : t.nv.readPage key = s.nv.readPage key := by
  unfold Nv.readPage Nv.entryOf Nv.copy Nv.page
  rw [h.pages, h.maps, h.wbuf, h.behind]

theorem State.modPart_readsOnly (s : State) (part : Nat) (f : UserPart → UserPart) : ReadsOnly s (s.modPart part f) := ⟨rfl, rfl, rfl, rfl, rfl, rfl⟩

theorem State.readsPage_readsOnly (s : State) (slice : Nat) : ReadsOnly s (s.readsPage slice) := ⟨rfl, rfl, rfl, rfl, rfl, rfl⟩

theorem State.badRead_readsOnly (s : State) (key : Nat) : ReadsOnly s (s.badRead key) := by
  obtain ⟨logs, tamper, tel, uncorr, torn, h⟩ := s.badRead_eq key
  rw [h]
  exact ⟨rfl, rfl, rfl, rfl, rfl, rfl⟩

/-- A call that reads the store puts out what it has read. -/
theorem ReadsOnly.answers {y : State} (hy : ReadsOnly s y) (hcalls : (s.coreAt core).calls = true) (a : Nat) (b : Bytes) (st : Status)
    (res : Bytes) : let t := (y.svcOutput core a b).answerSvc core st res
    Answered t core st res ∧ (t.coreAt core).output = [(a, b)] ∧ OtherCores s t core ∧ ReadsOnly s { t with applets := s.applets } := by
  obtain ⟨hmode, _, hanswer⟩ := Core.calls_iff.mp hcalls
  have hcore (k : Nat) : y.coreAt k = s.coreAt k := congrArg (fun x : Applets => tget Core.reset x.cores k) hy.applets
  obtain ⟨hans, hout, hothers⟩ := State.svcOutput_answers (s := y) (core := core) ((congrArg Core.mode (hcore core)).trans hmode)
    ((congrArg Core.answer (hcore core)).trans hanswer) a b st res
  exact ⟨hans, hout, fun k hk => (hothers k hk).trans (hcore k), rfl, hy.books, hy.pages, hy.maps, hy.wbuf, hy.behind⟩

theorem svcNvRead_of (h : Calls s core 8 v) (hform : nvArgOk (s.coreAt core) = true)
    (hbuf : localOk ((s.coreAt core).argAt 0x0C 4) ((s.coreAt core).argAt 8 4) 1 = true)
    (hchecks : (s.svcNvChecks (s.coreAt core) v false).2 = none)
    (hmay : (s.svcNvChecks (s.coreAt core) v false).1.mayReadPage v.slice = true) :
    let r := s.nv.readPage (userKey ((s.coreAt core).argAt 0 1) ((s.coreAt core).argAt 4 4 / 256))
    ∃ t, exec (.svcNvRead core) s = .next t ∧ Answered t core r.2.2 (leBytes 4 ((s.coreAt core).argAt 8 4)) ∧
      (t.coreAt core).output =
        [((s.coreAt core).argAt 0x0C 4, wrapRead r.1 ((s.coreAt core).argAt 4 4 % 256) ((s.coreAt core).argAt 8 4))] ∧
      OtherCores s t core ∧ t.books = s.books ∧ t.nv.pages = s.nv.pages ∧ t.nv.maps = s.nv.maps ∧ t.nv.wbuf = s.nv.wbuf := by
  intro r
  have hu := State.svcNvChecks_passes hchecks
  rw [hu] at hmay
  have hi := exec_svcNvRead h hform hbuf hu
  rw [hmay, if_neg (by decide)] at hi
  have hx := (s.modPart_readsOnly ((s.coreAt core).argAt 0 1) (fun p => { p with fails := 0 })).trans
    (State.readsPage_readsOnly _ v.slice)
  dsimp only at hi
  rw [hx.readPage] at hi
  obtain ⟨hans, hout, hothers, hkept⟩ := (hx.trans (State.badRead_readsOnly _
    (userKey ((s.coreAt core).argAt 0 1) ((s.coreAt core).argAt 4 4 / 256)))).answers h.calls ((s.coreAt core).argAt 0x0C 4)
    (wrapRead r.1 ((s.coreAt core).argAt 4 4 % 256) ((s.coreAt core).argAt 8 4)) r.2.2 (leBytes 4 ((s.coreAt core).argAt 8 4))
  exact ⟨_, hi, hans, hout, hothers, hkept.books, hkept.pages, hkept.maps, hkept.wbuf⟩

/-- The data of a call that find a buffer entry free are stored, and the call is answered. -/
theorem State.svcNvStore_of {u t : State} {c : Core} (hwt : u.nv.wt = false) (hwrite : u.bufferWrite (userKey (c.argAt 0 1) (c.argAt 4 4 / 256))
    (c.argAt 4 4 % 256) (c.bytes (c.argAt 0x0C 4) (c.argAt 8 4)) [] = some t) :
    u.svcNvStore core c = t.answerSvc core .ok (leBytes 4 (c.argAt 8 4)) := by
  unfold State.svcNvStore
  dsimp only
  rw [hwt, if_neg Bool.false_ne_true, hwrite, bytes_length]
  rfl

theorem svcNvWrite_of (h : Calls s core 9 v) (hform : nvArgOk (s.coreAt core) = true)
    (hbuf : localOk ((s.coreAt core).argAt 0x0C 4) ((s.coreAt core).argAt 8 4) 1 = true)
    (hchecks : (s.svcNvChecks (s.coreAt core) v true).2 = none) (hwt : s.nv.wt = false) {key : Nat}
    (hkey : key = userKey ((s.coreAt core).argAt 0 1) ((s.coreAt core).argAt 4 4 / 256)) (hfree : ∀ e ∈ s.nv.wbuf, e.key ≠ key)
    (hroom : s.nv.wbuf.length < 64) :
    ∃ t, exec (.svcNvWrite core) s = .next t ∧ Answered t core .ok (leBytes 4 ((s.coreAt core).argAt 8 4)) ∧
      (t.nv.readPage key).1 = fit 256 (wrapWrite (s.nv.readPage key).1 ((s.coreAt core).argAt 4 4 % 256)
        ((s.coreAt core).bytes ((s.coreAt core).argAt 0x0C 4) ((s.coreAt core).argAt 8 4))) ∧
      t.nv.pages = s.nv.pages ∧ t.nv.maps = s.nv.maps ∧ OtherCores s t core ∧ t.books = s.books := by
  obtain ⟨hmode, _, hanswer⟩ := Core.calls_iff.mp h.calls
  have hu := State.svcNvChecks_passes hchecks
  have hsame := s.modPart_readsOnly ((s.coreAt core).argAt 0 1) (fun p => { p with fails := 0 })
  have hi := exec_svcNvWrite h hform hbuf hu
  generalize hx : s.modPart ((s.coreAt core).argAt 0 1) (fun p => { p with fails := 0 }) = x at hsame hi
  have hxwt : x.nv.wt = false := hx ▸ hwt
  have hcore (k : Nat) : x.coreAt k = s.coreAt k := congrArg (fun a : Applets => tget Core.reset a.cores k) hsame.applets
  obtain ⟨nv, -, -, hwrite, -, hread, hpages, hmaps⟩ := State.bufferWrite_fresh (s := x) (key := key) ((s.coreAt core).argAt 4 4 % 256)
    ((s.coreAt core).bytes ((s.coreAt core).argAt 0x0C 4) ((s.coreAt core).argAt 8 4)) [] (hsame.wbuf ▸ hfree) (.inl (hsame.wbuf ▸ hroom))
  rw [hsame.readPage] at hread
  refine ⟨_, hi.trans (congrArg Host.Outcome.next (State.svcNvStore_of hxwt (hkey ▸ hwrite))),
    State.answerSvc_answers (s := { x with nv := nv }) ((congrArg Core.mode (hcore core)).trans hmode)
      ((congrArg Core.answer (hcore core)).trans hanswer) _ _, hread, hpages.trans hsame.pages, hmaps.trans hsame.maps,
    fun k hk => (State.modCore_other _ _ hk).trans (hcore k), hsame.books⟩

/-! RETURN. -/

theorem find?_filter_of {α : Type} {p q : α → Bool} {x : α} {l : List α} (h : l.find? p = some x) (hx : q x = true) :
    (l.filter q).find? p = some x := by
  rw [List.find?_filter]
  obtain ⟨hp, as, bs, rfl, has⟩ := List.find?_eq_some_iff_append.mp h
  refine List.find?_eq_some_iff_append.mpr ⟨by simp [hp, hx], as, bs, rfl, fun a ha => ?_⟩
  have hno : p a = false := by simpa using has a ha
  simp [hno]

/-- A core that is cleared: its calls leave the work, of the cores only it changes. -/
theorem State.clearCore_of (s : State) (core : Nat) : let t := s.clearCore core
    t.coreAt core = Core.reset ∧ OtherCores s t core ∧ t.books = s.books ∧
      t.work = s.work.filter (fun w => w.ring != appletRing core) :=
  ⟨State.setCore_same _ core _, fun _ hk => State.setCore_other _ _ hk, rfl, rfl⟩

theorem State.clearCore_workAt {id : Nat} {w : Work} (h : s.workAt id = some w) (hring : w.ring < 65536) (core : Nat) :
    (s.clearCore core).workAt id = some w := by
  obtain ⟨-, -, -, hwork⟩ := s.clearCore_of core
  unfold State.workAt
  rw [hwork]
  refine find?_filter_of h (bne_iff_ne.mpr ?_)
  unfold appletRing
  omega

/-- A descriptor that ends with a status that fences nothing: its output to the mailbox stands. -/
theorem State.finish_leaves {id : Nat} {w : Work} (h : s.workAt id = some w) (hring : w.ring < 65536) {st : Status} (res : Bytes)
    (hf : st ≠ .fault) (ht : st ≠ .tamper) : let t := s.finish id st res
    Ended t id st res ∧ (∃ u, t.workAt id = some u ∧ u.mailbox = w.mailbox) ∧ t = { s with work := t.work } := by
  intro t
  have happlet : w.isApplet = false := by simpa [Work.isApplet] using hring
  have heq : t = s.modWork id (fun v => ({ v with lateConds := s.lateAtEnd w } : Work).done st res) := by
    refine (s.finish_eq_finishRaw id res hf ht).trans ?_
    unfold State.finishRaw
    rw [h]
    dsimp only
    rw [happlet]
    rfl
  obtain ⟨ends, only, -⟩ := State.finish_ends res h hring hf ht
  refine ⟨ends, ?_, only⟩
  rw [heq]
  exact ⟨_, State.workAt_modWork_same h fun _ => rfl, rfl⟩


/-- The output of an invocation that has returned goes out with its completion. -/
def State.takeOutput (s : State) (v : Invocation) (bytes : Bytes) : State :=
  if bytes = [] then s else s.modWork v.work (fun w => { w with mailbox := some (v.outAddr, bytes) })

theorem exec_svcReturn (hinv : (s.coreAt core).inv = some v) (hcalls : (s.coreAt core).calls = true)
    (hbudget : (s.coreAt core).spentBudget = false) (hcall : (s.coreAt core).call.toNat = 10)
    (hclean : (s.coreAt core).argClean [(0, 4)] = true) (hmax : (s.coreAt core).argAt 0 4 ≤ 4096) (hcap : (s.coreAt core).argAt 0 4 ≤ v.outCap)
    (hout : (s.coreAt core).argAt 0 4 = 0 ∨ s.outputFail core v.slice v.outAddr ((s.coreAt core).argAt 0 4) = none) :
    exec (.svcReturn core) s = .next (((s.clearCore core).takeOutput v ((s.coreAt core).bytes 0x20000 ((s.coreAt core).argAt 0 4))).finish
      v.work .ok (leBytes 4 ((s.coreAt core).argAt 0 4) ++ leBytes 4 (v.charged + 1) ++ leBytes 4 v.posts)) := by
  refine congrArg Host.Outcome.next ((onCall_runs hinv hcalls hbudget hcall (by decide) (by decide) (.inl rfl) ?_ rfl).trans ?_)
  · simp [hclean, hmax, hcap]
  · have hgood : (if (s.coreAt core).argAt 0 4 = 0 then none
        else s.outputFail core v.slice v.outAddr ((s.coreAt core).argAt 0 4)) = none := by
      rcases hout with h | h
      · exact if_pos h
      · rw [h, ite_self]
    have hlen := bytes_length (s.coreAt core) 0x20000 ((s.coreAt core).argAt 0 4)
    unfold State.svcReturn State.takeOutput
    dsimp only
    rw [hgood]
    dsimp only
    by_cases h0 : (s.coreAt core).argAt 0 4 = 0
    · rw [if_pos h0, if_pos (List.length_eq_zero_iff.mp (hlen.trans h0))]
      rfl
    · rw [if_neg h0, if_neg fun h => h0 (hlen.symm.trans (congrArg List.length h))]
      rfl

theorem State.takeOutput_of {w : Work} (h : s.workAt v.work = some w) (bytes : Bytes) : ∃ u,
    (s.takeOutput v bytes).workAt v.work = some u ∧ u.ring = w.ring ∧ (bytes ≠ [] → u.mailbox = some (v.outAddr, bytes)) := by
  unfold State.takeOutput
  split
  · next hb => exact ⟨w, h, rfl, fun hn => absurd hb hn⟩
  · exact ⟨_, State.workAt_modWork_same h fun _ => rfl, rfl, fun _ => rfl⟩

theorem State.takeOutput_leaves (s : State) (v : Invocation) (bytes : Bytes) :
    (s.takeOutput v bytes).applets = s.applets ∧ (s.takeOutput v bytes).books = s.books := by
  unfold State.takeOutput
  split
  · exact ⟨rfl, rfl⟩
  · exact ⟨rfl, rfl⟩

/-- An invocation that returns: the work ends with its output, and the core is cleared. -/
theorem svcReturned_of {w : Work} (hw : s.workAt v.work = some w) (hring : w.ring < 65536) (bytes res : Bytes) :
    let t := ((s.clearCore core).takeOutput v bytes).finish v.work .ok res
    Ended t v.work .ok res ∧ (∃ u, t.workAt v.work = some u ∧ (bytes ≠ [] → u.mailbox = some (v.outAddr, bytes))) ∧
      t.coreAt core = Core.reset ∧ OtherCores s t core ∧ t.books = s.books := by
  intro t
  obtain ⟨hreset, hothers, hbooks, -⟩ := s.clearCore_of core
  obtain ⟨u, hu, hr, hmail⟩ := State.takeOutput_of (State.clearCore_workAt hw hring core) bytes
  obtain ⟨ends, ⟨x, hx, hbox⟩, hsame⟩ := State.finish_leaves (st := .ok) hu (hr ▸ hring) res (by decide) (by decide)
  obtain ⟨happlets, hbook⟩ := (s.clearCore core).takeOutput_leaves v bytes
  have hcores (k : Nat) : t.coreAt k = (s.clearCore core).coreAt k :=
    congrArg (fun a : Applets => tget Core.reset a.cores k) ((congrArg State.applets hsame).trans happlets)
  exact ⟨ends, ⟨x, hx, fun hb => hbox.trans (hmail hb)⟩, (hcores core).trans hreset, fun k hk => (hcores k).trans (hothers k hk),
    (congrArg State.books hsame).trans (hbook.trans hbooks)⟩

/-! The end of a call. -/

theorem foldl_setBytes_same (l : List (Nat × Bytes)) (c : Core) :
    Core.SameButMemories c (l.foldl (fun c o => c.setBytes o.1 o.2) c) := by
  induction l generalizing c with
  | nil => exact ⟨rfl, rfl, rfl, rfl, rfl, rfl, rfl, rfl⟩
  | cons o l ih =>
    have h := setBytes_same c o.1 o.2
    have k := ih (c.setBytes o.1 o.2)
    exact ⟨k.d.trans h.d, k.x.trans h.x, k.f.trans h.f, k.pc.trans h.pc, k.cycle.trans h.cycle, k.mode.trans h.mode, k.inv.trans h.inv,
      k.trapped.trans h.trapped⟩

/-- A call that ends: the core goes on with its registers, the outcome in STATUS and in Z where the call asked for it. -/
theorem Core.endCall_of (c : Core) (draw : Nat) (status : Word) (res : Bytes) : let d := c.endCall draw status res
    d.mode = .resume ∧ d.status = status ∧ d.answer = none ∧ d.pc = c.pc ∧ d.d = c.d ∧ d.x = c.x ∧
      (c.svcZ = true → d.f.getLsbD 1 = decide (status.toNat % 256 = 0)) ∧ (c.svcZ = false → d.f = c.f) ∧
      (c.call ≠ 4 → ∀ i, i < res.length → tget 0 d.res i = res.getD i 0) := by
  intro d
  have hsame := foldl_setBytes_same (c.svcWrites status res) c
  let e := (c.svcWrites status res).foldl (fun c o => c.setBytes o.1 o.2) c
  have hflags : d.pc = e.pc ∧ d.d = e.d ∧ d.x = e.x ∧
      d.f = if c.svcZ then Machine.putFlag e.f 1 (status.toNat % 256 == 0) else e.f := by
    show (c.endCall draw status res).pc = _ ∧ (c.endCall draw status res).d = _ ∧ (c.endCall draw status res).x = _ ∧
      (c.endCall draw status res).f = _
    unfold Core.endCall
    cases c.svcZ with
    | true => exact ⟨rfl, rfl, rfl, rfl⟩
    | false => exact ⟨rfl, rfl, rfl, rfl⟩
  obtain ⟨hpc, hd, hx, hf⟩ := hflags
  refine ⟨rfl, rfl, rfl, hpc.trans hsame.pc, hd.trans hsame.d, hx.trans hsame.x, fun hz => ?_, fun hz => ?_, fun hcall i hi => ?_⟩
  · rw [hf, if_pos hz, putFlag_bit _ _ _ _ (by decide), if_pos rfl]
    exact Bool.beq_eq_decide_eq _ _
  · rw [hf, hz]
    exact hsame.f
  · have hres : d.res = memWrite [] 0 (res ++ Config.freeBytes draw (32 - res.length)) :=
      if_neg (by simpa using hcall)
    have hget := memWrite_same (m := []) (a := 0) (i := i) (res ++ Config.freeBytes draw (32 - res.length))
      (by rw [List.length_append]; omega)
    rw [Nat.zero_add] at hget
    rw [hres, hget, List.getD_append _ _ _ _ hi]

theorem exec_serviceCallEnd {status : Word} {res : Bytes} (h : (s.coreAt core).answer = some (status, res))
    (hmode : (s.coreAt core).mode = .waiting) (hawait : s.awaitMet (s.coreAt core) = true) :
    exec (.serviceCallEnd core) s = .next (s.modCore core (fun c => c.endCall s.draws status res)).drawn := by
  show execServiceCallEnd core s = _
  unfold execServiceCallEnd
  dsimp only
  rw [h, hmode, hawait]
  rfl

end

/-! Big-number jobs. -/

section
variable {s : State} {e : Nat} {j : BnJob}

/-- The engine when it may choose among jobs that can run. -/
def BnEngine.chosen (x : BnEngine) (now : Nat) (ready : List BnJob) : BnEngine :=
  if x.running.isSome then x
  else
    match bnBest now (x.saved ++ ready) with
    | none => x
    | some j =>
      let saved := x.saved.any (fun k => k.admitted == j.admitted)
      { running := some (if saved then j.restore else j), prot := j.prot now, saved := x.saved.filter (fun k => k.admitted != j.admitted),
        pause := if saved then 1 else 0 }

theorem State.bnChoose_at (s : State) (e : Nat) : (s.bnChoose e).bnAt e = (s.bnAt e).chosen s.now s.bnReady ∧
    (s.bnChoose e).crypto.bnJobs = s.crypto.bnJobs ∧ (s.bnChoose e).crypto.bnMismatch = s.crypto.bnMismatch ∧
      (s.bnChoose e).crypto.bnFaults = s.crypto.bnFaults := by
  unfold State.bnChoose BnEngine.chosen
  dsimp only
  split
  · exact ⟨rfl, rfl, rfl, rfl⟩
  · cases bnBest s.now ((s.bnAt e).saved ++ s.bnReady) with
    | none => exact ⟨rfl, rfl, rfl, rfl⟩
    | some j =>
      dsimp only
      split
      · exact ⟨State.setBn_same s e _, rfl, rfl, rfl⟩
      · exact ⟨State.setBn_same (s.bnUnqueue j) e _, rfl, rfl, rfl⟩

theorem State.bnRetire_at (s : State) (e : Nat) :
    (s.bnRetire e).bnAt e = ({ s.bnAt e with running := none, prot := false, pause := 0 } : BnEngine).chosen s.now s.bnReady ∧
    (s.bnRetire e).crypto.bnJobs = s.crypto.bnJobs + 1 ∧ (s.bnRetire e).crypto.bnMismatch = s.crypto.bnMismatch ∧
      (s.bnRetire e).crypto.bnFaults = s.crypto.bnFaults := by
  let y : BnEngine := { s.bnAt e with running := none, prot := false, pause := 0 }
  let x : State := { s.setBn e y with crypto := { (s.setBn e y).crypto with bnJobs := s.crypto.bnJobs + 1 } }
  obtain ⟨hat, hjobs, hmismatch, hfaults⟩ := x.bnChoose_at e
  have hx : x.bnAt e = y := State.setBn_same s e y
  exact ⟨hat.trans (by rw [hx]; rfl), hjobs, hmismatch, hfaults⟩

theorem exec_bnJobEnd_service (h : s.bnFinished e = some j) (huse : j.use = 1) : exec (.bnJobEnd e false) s =
    .next ((s.bnRetire e).drawn.svcBnEnd j.who ((s.bnRetire e).bnOutcome j).1) := by
  refine congrArg Host.Outcome.next ((if_neg Bool.false_ne_true).trans ?_)
  unfold State.bnJobEnd
  rw [h]
  dsimp only
  rw [huse]
  rfl

theorem exec_bnJobEnd_descriptor {w : Work} (h : s.bnFinished e = some j) (huse : j.use = 0) (hw : s.workAt j.work = some w)
    (hcan : s.canMaster (s.masterStream w.id) = true) : exec (.bnJobEnd e false) s =
      .next ((s.bnRetire e).drawn.bnEnd w j ((s.bnRetire e).bnOutcome j).1) := by
  refine congrArg Host.Outcome.next ((if_neg Bool.false_ne_true).trans ?_)
  unfold State.bnJobEnd
  rw [h]
  dsimp only
  rw [huse, if_pos rfl, hw]
  dsimp only
  rw [hcan]
  rfl

/-- A job that ends leaves all but its engine and the pending values. -/
theorem State.bnRetire_drawn (s : State) (e : Nat) : ∃ crypto, (s.bnRetire e).drawn = { s with crypto := crypto, draws := s.draws + 1 } := by
  obtain ⟨crypto, h⟩ := s.bnRetire_eq e
  rw [h]
  exact ⟨crypto, rfl⟩

/-- The state with one more mismatch and one more level-2 event in its count and its window. -/
def State.mismatchCounted (s : State) : State :=
  { s with crypto := { s.crypto with bnMismatch := s.crypto.bnMismatch + 1 },
           tamper := { s.tamper with l2 := satAdd 0xFFFFFFFF s.tamper.l2 1, window := s.window2 ++ [s.now] } }

/-- A mismatch that is not the sixteenth level-2 event of its window. -/
theorem exec_bnJobEnd_mismatch (h : s.bnFinished e = some j) (hs : s.sensing = true) (hf : s.pwr.flush = none) (hw : s.window2.length < 15) :
    ∃ action v, v.source = 0x13 ∧ v.loc = e ∧
      exec (.bnJobEnd e true) s = .next ((s.mismatchCounted.bnMismatched e j).st.tlogTamper 2 action v) := by
  have hesc : decide (16 ≤ (s.window2 ++ [s.now]).length) = false := by
    rw [List.length_append]
    exact decide_eq_false (by simp; omega)
  have hi : exec (.bnJobEnd e true) s = .next (State.level2 { s with crypto := { s.crypto with bnMismatch := s.crypto.bnMismatch + 1 } }
      { source := 0x13, cause := 0, unit := placeOfUnit 7, loc := e, slice := j.slice, detail := j.op, num := 0 }
      (fun s => s.bnMismatched e j)) := by
    refine congrArg Host.Outcome.next ((if_pos rfl).trans ?_)
    unfold State.bnMismatch
    rw [h]
    dsimp only
    rw [hs]
    rfl
  have hlevel (x : State) (v : TamperEvent) (squash : State → Squashed) (hs : x.sensing = true) (hf : x.pwr.flush = none)
      (hesc : decide (16 ≤ (x.window2 ++ [x.now]).length) = false) : ∃ action slice, x.level2 v squash =
        (squash { x with tamper := { x.tamper with l2 := satAdd 0xFFFFFFFF x.tamper.l2 1, window := x.window2 ++ [x.now] } }).st.tlogTamper 2
          action { v with slice := slice } := by
    unfold State.level2
    dsimp only
    rw [hs, hf, hesc]
    exact ⟨_, _, rfl⟩
  obtain ⟨action, slice, hl⟩ := hlevel { s with crypto := { s.crypto with bnMismatch := s.crypto.bnMismatch + 1 } } _
    (fun s => s.bnMismatched e j) hs hf hesc
  exact ⟨action, _, rfl, rfl, hi.trans (congrArg Host.Outcome.next hl)⟩

/-- An event logged from a state with the logs and the grain of the first. -/
theorem State.tlogTamper_raised_of {u : State} (hlogs : u.logs = s.logs) (hnow : u.now = s.now) (level action : Nat) (v : TamperEvent) :
    Raised s (u.tlogTamper level action v) level v.source v.loc :=
  ⟨_, [], congrArg (fun l : Logs => l.tpend ++ [_]) hlogs, rfl, rfl, rfl, hnow⟩

/-- A first mismatch: the job of the engine runs once more. -/
theorem State.bnMismatched_retries (s : State) (e : Nat) (hr : j.retries = 0) : let u := (s.bnMismatched e j).st
    (∃ k, (u.bnAt e).running = some k ∧ k.retries = 1 ∧ k.done = j.done ∧ k.cost = j.cost + bnCost j.op j.keyType j.input) ∧
      u.crypto.bnMismatch = s.crypto.bnMismatch ∧ u.logs = s.logs ∧ u.now = s.now ∧ Untouched s u := by
  let k : BnJob :=
    { j with cost := j.cost + bnCost j.op j.keyType j.input, retries := 1, rand := bnNeed j.op j.keyType == 0 }
  let x := s.setBn e { s.bnAt e with running := some k }
  have hx : x.bnAt e = { s.bnAt e with running := some k } := State.setBn_same s e _
  intro u
  have hu : u = if bnNeed j.op j.keyType = 0 then x else x.askRandom (.bignum j.admitted) 1 j.slice (bnNeed j.op j.keyType) :=
    congrArg Squashed.st (if_pos hr)
  obtain ⟨rng, hrng, -⟩ := x.askRandom_of (.bignum j.admitted) 1 j.slice (bnNeed j.op j.keyType)
  obtain ⟨rng', hu'⟩ : ∃ rng, u = { x with rng := rng } := by
    rw [hu, hrng]
    split
    · exact ⟨x.rng, rfl⟩
    · exact ⟨rng, rfl⟩
  rw [hu']
  exact ⟨⟨k, congrArg BnEngine.running hx, rfl, rfl, rfl⟩, rfl, rfl, rfl, rfl, rfl, rfl, rfl, rfl⟩

/-- A second mismatch of a service job: its call is answered with FAULT. -/
theorem State.bnMismatched_faults (s : State) (e : Nat) (hr : j.retries ≠ 0) (huse : j.use = 1)
    (hmode : (s.coreAt j.who).mode = .waiting) (hanswer : (s.coreAt j.who).answer = none) : let u := (s.bnMismatched e j).st
    Answered u j.who .fault [] ∧ u.bnAt e = (s.bnRetire e).bnAt e ∧ (u.coreAt j.who).output = (s.coreAt j.who).output ∧
      u.crypto.bnMismatch = s.crypto.bnMismatch ∧ u.crypto.bnFaults = s.crypto.bnFaults + 1 ∧ u.logs = s.logs ∧ u.now = s.now ∧
        Untouched s u := by
  intro u
  have hu : u = State.answerSvc { s.bnRetire e with crypto := { (s.bnRetire e).crypto with bnFaults := (s.bnRetire e).crypto.bnFaults + 1 } }
      j.who .fault [] := by
    refine (congrArg Squashed.st (if_neg hr)).trans ?_
    unfold State.bnFault
    dsimp only
    rw [huse] <;> rfl
  obtain ⟨-, -, hmismatch, hfaults⟩ := s.bnRetire_at e
  obtain ⟨crypto, hretire⟩ := s.bnRetire_eq e
  rw [hretire] at hu hmismatch hfaults ⊢
  let x : State := { s with crypto := { crypto with bnFaults := crypto.bnFaults + 1 } }
  have hu' : u = x.answerSvc j.who .fault [] := hu
  have hout := State.answerSvc_of (s := x) hmode hanswer .fault []
  have hans := State.answerSvc_answers (s := x) hmode hanswer .fault []
  rw [hu']
  exact ⟨hans, rfl, (congrArg Core.output hout).trans rfl, hmismatch, congrArg (· + 1) hfaults, rfl, rfl, rfl, rfl, rfl, rfl, rfl⟩

/-- A job that ends for a descriptor that verifies. -/
theorem bnEnd_verdict {w : Work} {ok : Bool} (hw : s.workAt w.id = some w) (hring : w.ring < 65536) : let t := s.bnEnd w j (.verdict ok)
    Ended t w.id (if ok then .ok else .auth) (zeros 4 ++ leBytes 4 j.cost ++ leBytes 1 j.retries) ∧ t.crypto = s.crypto ∧
      t.books = s.books ∧ t.keys = s.keys := by
  have hst : (if ok then Status.ok else .auth) ≠ .fault ∧ (if ok then Status.ok else .auth) ≠ .tamper := by
    cases ok with
    | true => exact ⟨by decide, by decide⟩
    | false => exact ⟨by decide, by decide⟩
  obtain ⟨ends, only, -⟩ := State.finish_ends (zeros 4 ++ leBytes 4 j.cost ++ leBytes 1 j.retries) hw hring hst.1 hst.2
  rw [List.append_assoc] at ends only ⊢
  exact ⟨ends, (congrArg State.crypto only).trans rfl, (congrArg State.books only).trans rfl, (congrArg State.keys only).trans rfl⟩

end

/-- Settles O36: each call runs its operation, ends with its answer, and a big-number job ends or runs once more. -/
theorem serviceOperations : Obligations.ServiceOperations := by
  unfold Obligations.ServiceOperations
  intro s core v
  refine ⟨svcTallyRead_of, svcPost_of, fun h hclean hassigned hkeyless hkey hlens hin hout hsizes hroom => ?_,
    fun h hform hbuf hchecks => ⟨fun hmay => ?_, svcNvRead_of h hform hbuf hchecks⟩,
    fun h hform hbuf hchecks hwt hfree hroom => svcNvWrite_of h hform hbuf hchecks hwt rfl hfree hroom,
    fun w hinv hcalls hbudget hcall hclean hmax hcap hout hw hring => ?_, fun status res hans hmode hawait => ?_, fun e j hj => ?_⟩
  · have hi := svcBignum_of h hclean rfl hassigned hkeyless hkey hlens hin hout rfl hsizes hroom
    refine ⟨fun hvalid => ?_, fun hvalid => ?_⟩
    · rw [if_pos hvalid] at hi
      obtain ⟨hstarted, ⟨k, hqueue, huse, hwho, hop, hinput⟩, hothers, hsame⟩ := s.svcBnSubmit_of core (bnJobOf v.work 1 core v.slice
        ((s.coreAt core).argAt 0 2) none 0 ((s.coreAt core).bytes ((s.coreAt core).argAt 8 4) ((s.coreAt core).argAt 0x0C 4)))
      exact ⟨_, k, hi, hstarted, hqueue, huse, hwho, hop, hinput, hothers, hsame⟩
    · rw [if_neg (by simp [hvalid])] at hi
      exact answersOnly_of h.calls hi
  · refine (exec_svcNvRead h hform hbuf (Prod.ext rfl hchecks)).trans (congrArg Host.Outcome.next (if_pos ?_))
    rw [hmay]
    rfl
  · obtain ⟨ends, ⟨u, hu, hmail⟩, hreset, hothers, hbooks⟩ := svcReturned_of (core := core) hw hring
      ((s.coreAt core).bytes 0x20000 ((s.coreAt core).argAt 0 4))
      (leBytes 4 ((s.coreAt core).argAt 0 4) ++ leBytes 4 (v.charged + 1) ++ leBytes 4 v.posts)
    refine ⟨_, u, exec_svcReturn hinv hcalls hbudget hcall hclean hmax hcap hout, ends, hu, fun h0 => hmail fun hb => h0 ?_, hreset, hothers,
      hbooks⟩
    exact (bytes_length _ _ _).symm.trans (congrArg List.length hb)
  · obtain ⟨hresume, hstatus, hanswer, hpc, hd, hx, hz, hf, hres⟩ := (s.coreAt core).endCall_of s.draws status res
    have hc : ((s.modCore core (fun c => c.endCall s.draws status res)).drawn).coreAt core = (s.coreAt core).endCall s.draws status res :=
      s.modCore_same core fun c => c.endCall s.draws status res
    rw [exec_serviceCallEnd hans hmode hawait]
    refine ⟨_, rfl, ?_⟩
    rw [hc]
    exact ⟨hresume, hstatus, hanswer, hpc, hd, hx, hz, hf, hres,
      fun k hk => s.modCore_other (fun c => c.endCall s.draws status res) hk, rfl, rfl, rfl, rfl, rfl⟩
  · refine ⟨fun b huse hmode hanswer ho => ?_, fun w ok huse hw hring hcan ho => ?_, fun hs hf hwin hr => ?_,
      fun hs hf hwin hr huse hmode hanswer => ?_⟩
    · have hi := exec_bnJobEnd_service hj huse
      obtain ⟨crypto, hu⟩ := s.bnRetire_drawn e
      have hat : (s.bnRetire e).drawn.bnAt e = (s.bnRetire e).bnAt e := rfl
      rw [ho] at hi
      rw [← hat]
      rw [hu] at hi ⊢
      obtain ⟨hans, hout, -⟩ := State.svcOutput_answers (s := { s with crypto := crypto, draws := s.draws + 1 }) (core := j.who) hmode hanswer
        ((s.coreAt j.who).argAt 0x10 4) b .ok (leBytes 4 b.length)
      exact ⟨_, hi, hans, rfl, hout, rfl, rfl, rfl, rfl, rfl⟩
    · have hid : w.id = j.work := by simpa using List.find?_some (p := fun w : Work => w.id == j.work) hw
      have hi := exec_bnJobEnd_descriptor hj huse hw hcan
      obtain ⟨crypto, hu⟩ := s.bnRetire_drawn e
      have hat : (s.bnRetire e).drawn.bnAt e = (s.bnRetire e).bnAt e := rfl
      have hjobs : (s.bnRetire e).drawn.crypto.bnJobs = s.crypto.bnJobs + 1 := (s.bnRetire_at e).2.1
      rw [ho] at hi
      rw [← hat]
      rw [hu] at hi hjobs ⊢
      obtain ⟨ends, hcrypto, hbooks, hkeys⟩ :=
        bnEnd_verdict (s := { s with crypto := crypto, draws := s.draws + 1 }) (j := j) (ok := ok) (hid.symm ▸ hw) hring
      exact ⟨_, hi, ends, congrArg (fun x : Crypto => tget BnEngine.reset x.bn e) hcrypto, (congrArg Crypto.bnJobs hcrypto).trans hjobs,
        hbooks, hkeys⟩
    · obtain ⟨action, x, hsource, hloc, hi⟩ := exec_bnJobEnd_mismatch hj hs hf hwin
      obtain ⟨⟨k, hrun, hretries, hdone, hcost⟩, hmismatch, hlogs, hnow, hsame⟩ := s.mismatchCounted.bnMismatched_retries e hr
      exact ⟨_, k, hi, hrun, hretries, hdone, hcost, hmismatch, hsource ▸ hloc ▸ State.tlogTamper_raised_of hlogs hnow 2 action x, hsame⟩
    · obtain ⟨action, x, hsource, hloc, hi⟩ := exec_bnJobEnd_mismatch hj hs hf hwin
      obtain ⟨hans, hat, hout, hmismatch, hfaults, hlogs, hnow, hsame⟩ :=
        s.mismatchCounted.bnMismatched_faults e hr huse hmode hanswer
      refine ⟨_, hi, hans, ?_, hout, hmismatch, hfaults, hsource ▸ hloc ▸ State.tlogTamper_raised_of hlogs hnow 2 action x, hsame⟩
      exact (hat.trans (s.mismatchCounted.bnRetire_at e).1).trans (s.bnRetire_at e).1.symm

end Sys2Proof.Machine
end

section
/-! SUPPORT. Reads and writes of USER partitions, the write buffer and the page step of the store (R471 to R476, R480, R491 to R494). -/

namespace Sys2Proof.Machine
open Sys2Proof

/-! Writes of host memory leave the store. -/

/-- Of the store only the works that wait for a commit have changed. -/
def StoreKept (s t : State) : Prop := ∃ waits, t.nv = { s.nv with commitWaits := waits }

theorem StoreKept.of_eq {s t : State} (h : t.nv = s.nv) : StoreKept s t := ⟨s.nv.commitWaits, h⟩

theorem StoreKept.trans {s t u : State} (h : StoreKept s t) (k : StoreKept t u) : StoreKept s u := by
  obtain ⟨_, h⟩ := h
  obtain ⟨waits, k⟩ := k
  exact ⟨waits, by rw [k, h]⟩

theorem Accessed.storeKept {s t : State} (h : Accessed s t) : StoreKept s t := by
  obtain ⟨_, _, _, _, _, rfl⟩ := h
  exact .of_eq rfl

section
variable (s : State)

theorem State.releaseUnits_storeKept (id : Nat) : StoreKept s (s.releaseUnits id) := ⟨_, rfl⟩

theorem State.restatus_nv (id : Nat) {st : Status} (hf : st ≠ .fault) (ht : st ≠ .tamper) : (s.restatus id st).nv = s.nv := by
  unfold State.restatus
  split
  · rfl
  · rw [State.finish_eq_finishRaw _ _ hf ht]
    obtain ⟨_, _, _, h⟩ := s.finishRaw_eq id st _
    rw [h]

theorem State.modMpu_storeKept (master : Nat) (f : Mpu → Mpu) : StoreKept s (s.modMpu master f) := .of_eq rfl

theorem State.drainOne_storeKept (master : Nat) : StoreKept s (s.drainOne master) := by
  unfold State.drainOne
  split
  · exact .of_eq rfl
  · next b rest _ =>
    have hw : StoreKept s ((s.modMpu master (fun m => { m with wbuf := rest })).writeNow master b.slice b.kind false b.addr
        b.data).1 := (s.modMpu_storeKept master _).trans (State.writeNow_accessed _ master b.slice b.kind false b.addr b.data).storeKept
    dsimp only
    split
    · exact hw
    · split
      · exact hw
      · next id _ =>
        exact hw.trans ((State.releaseUnits_storeKept _ id).trans (.of_eq (State.restatus_nv _ id (by decide) (by decide))))

theorem State.drainAll_storeKept (master : Nat) : StoreKept s (s.drainAll master) := by
  unfold State.drainAll
  generalize (s.mpuAt master).wbuf = l
  induction l generalizing s with
  | nil => exact .of_eq rfl
  | cons b l ih => exact (s.drainOne_storeKept master).trans (ih _)

theorem State.hostWriteFrom_storeKept (master slice : Nat) (t : Traffic) (work : Option Nat) (addr : Nat) (data : Bytes) :
    StoreKept s (s.hostWriteFrom master slice t work addr data).1 := by
  unfold State.hostWriteFrom
  split
  · exact .of_eq rfl
  split
  · split
    · exact (s.drainAll_storeKept master).trans (State.writeNow_accessed ..).storeKept
    · refine StoreKept.trans ?_ (.of_eq rfl)
      split
      · exact .of_eq rfl
      · exact s.drainOne_storeKept master
  · exact (s.writeNow_accessed ..).storeKept

theorem State.hostWrite_storeKept (master slice : Nat) (t : Traffic) (work : Option Nat) (addr : Nat) (data : Bytes) :
    StoreKept s (s.hostWrite master slice t work addr data).1 := by
  cases work with
  | none => exact s.hostWriteFrom_storeKept master slice t none addr data
  | some id =>
    refine StoreKept.trans (.of_eq ?_) (State.hostWriteFrom_storeKept (s.assignDma master id) master slice t (some id) addr data)
    unfold State.assignDma
    split
    · rfl
    · rfl

end

/-! NV_READ. -/

section
variable {s : State} {w : Work}

/-- A descriptor that ends: with FAULT its ring is fenced, which hits no entry of an empty window. -/
theorem HasWork.finish_any {id ring : Nat} (h : HasWork s id ring) (hr : ring < 65536) {st : Status} (res : Bytes) (ht : st ≠ .tamper)
    (hf : st ≠ .fault ∨ s.brine.entries = []) : let t := s.finish id st res
    Ended t id st res ∧ t.out = s.out ∧ t.books = s.books ∧ t.nv = s.nv ∧ t.sched = s.sched := by
  intro t
  obtain ⟨w, hw, rfl⟩ := h
  by_cases hst : st = .fault
  · subst hst
    obtain ⟨ends, -, work, sq, pan, brine, heq⟩ := State.finish_fault res hw hr (hf.resolve_left fun h => h rfl)
    exact ⟨ends, (congrArg State.out heq).trans rfl, (congrArg State.books heq).trans rfl, (congrArg State.nv heq).trans rfl,
      (congrArg State.sched heq).trans rfl⟩
  · obtain ⟨ends, heq, -⟩ := State.finish_ends res hw hr hst ht
    exact ⟨ends, (congrArg State.out heq).trans rfl, (congrArg State.books heq).trans rfl, (congrArg State.nv heq).trans rfl,
      (congrArg State.sched heq).trans rfl⟩

theorem NvPage.outcome_ne_tamper (p : NvPage) : p.outcome ≠ .tamper := by
  unfold NvPage.outcome
  split
  · decide
  · split
    · decide
    · decide

theorem Nv.readPage_ne_tamper (n : Nv) (key : Nat) : (n.readPage key).2.2 ≠ .tamper := by
  unfold Nv.readPage
  split
  · exact NvPage.outcome_ne_tamper _
  · split
    · decide
    · exact NvPage.outcome_ne_tamper _

/-- The checks of NV_READ and NV_WRITE that a descriptor passes clear the failures of its partition. -/
theorem State.nvChecks_passes {write : Bool} (h : (s.nvChecks w write).2 = none) :
    s.nvChecks w write = (s.modPart (w.field 0x10 1) (fun p => { p with fails := 0 }), none) := by
  unfold State.nvChecks at h ⊢
  dsimp only at h ⊢
  split
  · next hf =>
    rw [hf] at h
    exact absurd h (by simp)
  · next hf =>
    rw [hf] at h
    dsimp only at h
    split at h
    · exact absurd h (by simp)
    · next hrange =>
      rw [if_neg hrange]
      exact State.passwordCheck_none h

/-- The page that an NV_READ reads, and the state in which its bytes go out. -/
def State.nvReads (u : State) (w : Work) : State :=
  (u.readsPage w.slice).badRead (userKey (w.field 0x10 1) (w.field 0x14 4 / 256))

theorem State.nvReadBody_of {u : State} (hform : nvForm w false = true) (hu : s.nvChecks w false = (u, none)) :
    s.nvReadBody w = if !u.canMaster (u.masterStream w.id) || !u.mayReadPage w.slice then s else
      let r := (u.readsPage w.slice).nv.readPage (userKey (w.field 0x10 1) (w.field 0x14 4 / 256))
      let o := (u.nvReads w).hostWrite ((u.nvReads w).masterStream w.id) w.slice .stream (some w.id) (w.field 0x18 8)
        (wrapRead r.1 (w.field 0x14 4 % 256) (w.field 0x20 4))
      if o.2 then o.1.finish w.id r.2.2 (nvResult (w.field 0x20 4) r.2.1) else o.1.finish w.id .access (nvResult 0 r.2.1) := by
  unfold State.nvReadBody
  dsimp only
  rw [hform, hu] <;> rfl

/-- An NV_READ that its checks, the calendar and the rotation let through. -/
theorem exec_nvRead {ring : Nat} {u : State} (h : Starts s ring 0x9000 w) (hform : nvForm w false = true)
    (hu : s.nvChecks w false = (u, none)) (hcan : u.canMaster (u.masterStream w.id) = true) (hmay : u.mayReadPage w.slice = true) :
    exec (.nvRead ring) s = .next (
      let r := (u.readsPage w.slice).nv.readPage (userKey (w.field 0x10 1) (w.field 0x14 4 / 256))
      let o := (u.nvReads w).hostWrite ((u.nvReads w).masterStream w.id) w.slice .stream (some w.id) (w.field 0x18 8)
        (wrapRead r.1 (w.field 0x14 4 % 256) (w.field 0x20 4))
      if o.2 then o.1.finish w.id r.2.2 (nvResult (w.field 0x20 4) r.2.1) else o.1.finish w.id .access (nvResult 0 r.2.1)) := by
  refine congrArg Host.Outcome.next ((State.onStart_of h.1 _).trans ((State.nvReadBody_of hform hu).trans (if_neg ?_)))
  rw [hcan, hmay]
  decide

/-- What a page read leaves: the cores, books and pages, the window, and its step of the controller taken. -/
theorem State.nvReads_of (u : State) (w : Work) : ReadsOnly u (u.nvReads w) ∧ (u.nvReads w).brine = u.brine ∧
    (u.nvReads w).work = u.work ∧ (u.nvReads w).sched.taken.contains .nv = true ∧
      (u.nvReads w).masterStream w.id = u.masterStream w.id := by
  refine ⟨(u.readsPage_readsOnly w.slice).trans (State.badRead_readsOnly _ _), ?_⟩
  obtain ⟨_, _, _, _, _, h⟩ := (u.readsPage w.slice).badRead_eq (userKey (w.field 0x10 1) (w.field 0x14 4 / 256))
  unfold State.nvReads
  rw [h]
  exact ⟨rfl, rfl, rfl, rfl⟩

/-- A page read that is written to its buffer, or whose write is refused. -/
theorem nvRead_of {ring : Nat} {u : State} (h : Starts s ring 0x9000 w) (hform : nvForm w false = true)
    (hu : s.nvChecks w false = (u, none)) (hsame : ReadsOnly s u) (hbrine : u.brine = s.brine) (hwork : u.work = s.work)
    (hmaster : u.masterStream w.id = s.masterStream w.id) (hcan : u.canMaster (s.masterStream w.id) = true)
    (hmay : u.mayReadPage w.slice = true)
    {r : Bytes × Nat × Status} (hr : s.nv.readPage (userKey (w.field 0x10 1) (w.field 0x14 4 / 256)) = r)
    (hfault : r.2.2 ≠ .fault ∨ s.brine.entries = []) :
    let o := (u.nvReads w).hostWrite (s.masterStream w.id) w.slice .stream (some w.id) (w.field 0x18 8)
      (wrapRead r.1 (w.field 0x14 4 % 256) (w.field 0x20 4))
    ∃ t, exec (.nvRead ring) s = .next t ∧ t.out = o.1.out ∧ t.books = s.books ∧ (t.nv.pages = s.nv.pages ∧ t.nv.maps = s.nv.maps) ∧
      t.nv.wbuf = s.nv.wbuf ∧ t.sched.taken.contains .nv = true ∧
      (o.2 = true → Ended t w.id r.2.2 (leBytes 4 (w.field 0x20 4) ++ leBytes 4 r.2.1)) ∧ (o.2 = false → ∃ x, Ended t w.id .access x) := by
  intro o
  obtain ⟨hread, hbrine', hwork', htaken, hmaster'⟩ := u.nvReads_of w
  have hkept := hsame.trans hread
  have hdrained := State.hostWrite_drained (u.nvReads w) (s.masterStream w.id) w.slice .stream (some w.id) (w.field 0x18 8)
    (wrapRead r.1 (w.field 0x14 4 % 256) (w.field 0x20 4))
  obtain ⟨waits, hstore⟩ := State.hostWrite_storeKept (u.nvReads w) (s.masterStream w.id) w.slice .stream (some w.id) (w.field 0x18 8)
    (wrapRead r.1 (w.field 0x14 4 % 256) (w.field 0x20 4))
  have hhas : HasWork o.1 w.id w.ring := (State.hostWrite_keepsWork (u.nvReads w) (s.masterStream w.id) w.slice .stream (some w.id)
    (w.field 0x18 8) (wrapRead r.1 (w.field 0x14 4 % 256) (w.field 0x20 4))).work h.ring_lt
      ((KeepsWork.of_eq (hwork'.trans hwork)).work h.ring_lt ⟨w, h.2.1, rfl⟩)
  have hempty : r.2.2 ≠ .fault ∨ o.1.brine.entries = [] :=
    hfault.imp_right fun he => by rw [hdrained.kept.2.1, hbrine', hbrine, he]
  have hi := exec_nvRead h hform hu (hmaster ▸ hcan) hmay
  dsimp only at hi
  rw [(hsame.trans (u.readsPage_readsOnly w.slice)).readPage, hr, hmaster', hmaster] at hi
  have hbooks : o.1.books = s.books := hdrained.books.trans hkept.books
  have hpages : o.1.nv.pages = s.nv.pages ∧ o.1.nv.maps = s.nv.maps ∧ o.1.nv.wbuf = s.nv.wbuf := by
    rw [hstore]
    exact ⟨hkept.pages, hkept.maps, hkept.wbuf⟩
  have hsched : o.1.sched.taken.contains .nv = true := by rw [hdrained.kept.2.2.2]; exact htaken
  obtain ⟨hp, hm, hb⟩ := hpages
  change exec (.nvRead ring) s = .next (if o.2 then _ else _) at hi
  cases ho : o.2 with
  | true =>
    rw [ho, if_pos rfl] at hi
    obtain ⟨ends, hout, hbk, hnv, hsc⟩ := hhas.finish_any h.ring_lt (nvResult (w.field 0x20 4) r.2.1)
      (hr ▸ Nv.readPage_ne_tamper _ _) hempty
    exact ⟨_, hi, hout, hbk.trans hbooks, ⟨(congrArg Nv.pages hnv).trans hp, (congrArg Nv.maps hnv).trans hm⟩,
      (congrArg Nv.wbuf hnv).trans hb, hsc ▸ hsched, fun _ => ends, fun hno => absurd hno (by simp)⟩
  | false =>
    rw [ho, if_neg Bool.false_ne_true] at hi
    obtain ⟨ends, hout, hbk, hnv, hsc⟩ := hhas.finish_any h.ring_lt (st := .access) (nvResult 0 r.2.1) (by decide) (.inl (by decide))
    exact ⟨_, hi, hout, hbk.trans hbooks, ⟨(congrArg Nv.pages hnv).trans hp, (congrArg Nv.maps hnv).trans hm⟩,
      (congrArg Nv.wbuf hnv).trans hb, hsc ▸ hsched, fun hno => absurd hno (by simp), fun _ => ⟨_, ends⟩⟩

/-! NV_WRITE. -/

/-- An NV_WRITE that its checks let through reads its data. -/
theorem nvWrite_asks {ring : Nat} (h : Starts s ring 0x9001 w) (hnone : s.oldest ring (fun v => v.opcode == 0x9001 && v.activeAt 1) = none)
    (hform : nvForm w true = true) {u : State} (hu : s.nvChecks w true = (u, none)) (hsame : ReadsOnly s u) (hwork : u.work = s.work)
    (hmaster : ∀ m, u.canRead m = s.canRead m) (hstream : u.masterStream w.id = s.masterStream w.id)
    (hcan : s.canRead (s.masterStream w.id) = true)
    (hok : (u.hostRead (.work w.id 0) (s.masterStream w.id) w.slice .stream (w.field 0x18 8) (w.field 0x20 4) false).2 = true) :
    ∃ t, exec (.nvWrite ring) s = .next t ∧ At t w.id (.reading 1) ∧ t.nv.wbuf = s.nv.wbuf ∧ t.books = s.books ∧
      ∃ r ∈ t.reads, r.kind = .work w.id 0 ∧ r.addr = w.field 0x18 8 ∧ r.len = w.field 0x20 4 := by
  have hbody : s.nvWriteBody w = (u.hostRead (.work w.id 0) (s.masterStream w.id) w.slice .stream (w.field 0x18 8) (w.field 0x20 4)
      false).1.modWork w.id (fun v => { v with phase := .reading 1 }) := by
    unfold State.nvWriteBody
    dsimp only
    rw [hform, if_neg (by decide), hu]
    dsimp only
    rw [hstream, hmaster, hcan, if_neg (by decide), hok]
    rfl
  have hi : exec (.nvWrite ring) s = .next (s.nvWriteBody w) := by
    show execNvWrite ring s = _
    unfold execNvWrite
    rw [hnone]
    exact congrArg Host.Outcome.next (State.onStart_of h.1 _)
  obtain ⟨out, mpus, crypto, r, hread, hr⟩ := State.hostRead_ok hok
  rw [hbody, hread] at hi
  have hw : u.workAt w.id = some w := (congrArg (List.find? fun v : Work => v.id == w.id) hwork).trans h.2.1
  refine ⟨_, hi, ?_, hsame.wbuf, hsame.books, r, List.mem_append_right _ (List.mem_singleton.mpr rfl), hr.kind, hr.addr, hr.len⟩
  exact At.of_modWork (s := { u with out := out, mpus := mpus, crypto := crypto, nextId := u.nextId + 1, reads := u.reads ++ [r] })
    (f := fun v => { v with phase := .reading 1 }) hw fun _ => rfl

/-- What waits for the page of an NV_WRITE. -/
def pageWait (w : Work) : CommitWait :=
  { work := w.id, core := none, last := true, ok := nvResult (w.field 0x20 4) 0, fail := nvResult 0 0 }

theorem State.nvStore_of {key : Nat} (hkey : userKey (w.field 0x10 1) (w.field 0x14 4 / 256) = key) {t : State}
    (ht : s.bufferWrite key (w.field 0x14 4 % 256) (fit (w.field 0x20 4) w.input.flatten)
      (if w.aux == 1 || s.nv.wt then [pageWait w] else []) = some t) :
    s.nvStore w = if w.aux == 1 || s.nv.wt then t.modWork w.id (fun v => { v with phase := .active 2 })
      else t.finish w.id .ok (nvResult (w.field 0x20 4) 0) := by
  unfold pageWait at ht
  unfold State.nvStore
  dsimp only
  rw [hkey, ht]

/-- The data of an NV_WRITE go to the end of the queue. -/
theorem nvWrite_stores {ring : Nat} (h : s.oldest ring (fun v => v.opcode == 0x9001 && v.activeAt 1) = some w)
    (hw : s.workAt w.id = some w) (hring : ring < 65536) {key : Nat} (hkey : userKey (w.field 0x10 1) (w.field 0x14 4 / 256) = key)
    (hfree : ∀ e ∈ s.nv.wbuf, e.key ≠ key) (hroom : s.nv.wbuf.length < 64 ∨ s.nv.wt = true) :
    ∃ t, exec (.nvWrite ring) s = .next t ∧
      (t.nv.readPage key).1 = fit 256 (wrapWrite (s.nv.readPage key).1 (w.field 0x14 4 % 256) (fit (w.field 0x20 4) w.input.flatten)) ∧
      (t.nv.pages = s.nv.pages ∧ t.nv.maps = s.nv.maps) ∧ t.books = s.books ∧
      (s.nv.wt = false → w.aux ≠ 1 → Ended t w.id .ok (leBytes 4 (w.field 0x20 4) ++ zeros 4)) ∧
      (s.nv.wt = true ∨ w.aux = 1 → At t w.id (.active 2) ∧ ∃ e ∈ t.nv.wbuf ++ t.nv.behind, e.key = key ∧ e.sync = [pageWait w]) := by
  have hwring : w.ring = ring := by
    have hp := List.find?_some (p := fun v : Work => v.ring == ring && (v.opcode == 0x9001 && v.activeAt 1)) h
    simp only [Bool.and_eq_true, beq_iff_eq] at hp
    exact hp.1
  have hi : exec (.nvWrite ring) s = .next (s.nvStore w) := by
    show execNvWrite ring s = _
    unfold execNvWrite
    rw [h]
  obtain ⟨nv, f, q, ht, hqueue, hread, hpages, hmaps⟩ := State.bufferWrite_fresh (s := s) (key := key) (w.field 0x14 4 % 256)
    (fit (w.field 0x20 4) w.input.flatten) (if w.aux == 1 || s.nv.wt then [pageWait w] else []) hfree hroom
  rw [State.nvStore_of hkey ht] at hi
  by_cases hsync : (w.aux == 1 || s.nv.wt) = true
  · rw [if_pos hsync] at hi hqueue
    refine ⟨_, hi, hread, ⟨hpages, hmaps⟩, rfl, fun hwt haux => ?_, fun _ => ⟨?_, _, hqueue ▸ List.mem_append_right q
      (List.mem_singleton.mpr rfl), rfl, rfl⟩⟩
    · simp [hwt, haux] at hsync
    · exact At.of_modWork (s := { s with nv := nv }) (f := fun v => { v with phase := .active 2 }) hw fun _ => rfl
  · rw [if_neg hsync] at hi
    obtain ⟨ends, hsame, -⟩ := State.finish_ends (s := { s with nv := nv }) (st := .ok) (nvResult (w.field 0x20 4) 0) hw
      (hwring ▸ hring) (by decide) (by decide)
    have hnv : (State.finish { s with nv := nv } w.id .ok (nvResult (w.field 0x20 4) 0)).nv = nv := congrArg State.nv hsame
    refine ⟨_, hi, ?_, ?_, (congrArg State.books hsame).trans rfl, fun _ _ => ends, fun hs => absurd ?_ hsync⟩
    · rw [hnv]
      exact hread
    · rw [hnv]
      exact ⟨hpages, hmaps⟩
    · rcases hs with hwt | haux
      · simp [hwt]
      · simp [haux]

/-! NV_COMMIT. -/

/-- The state with every entry of the queue frozen. -/
theorem State.commitBuffer_queue (s : State) : s.commitBuffer.nv.queue = s.nv.queue.map (fun e => { e with frozen := true }) :=
  (List.map_append ..).symm

theorem nvCommit_of {ring : Nat} (h : Starts s ring 0x9002 w) (haux : w.aux = 0) (hform : w.zeroFrom 0x10 0x40 = true) :
    exec (.nvCommit ring) s = .next (if s.nv.queue = [] then s.commitBuffer.finish w.id .ok [] else
      State.modWork { s.commitBuffer with nv := { s.commitBuffer.nv with
        commitWaits := s.nv.commitWaits ++ [(w.id, s.nv.queue.length)] } } w.id (fun v => { v with phase := .active 1 })) := by
  have hlen : s.commitBuffer.nv.wbuf.length + s.commitBuffer.nv.behind.length = s.nv.queue.length := by
    simp [Nv.queue, State.commitBuffer]
  have hempty : (s.commitBuffer.nv.wbuf.isEmpty && s.commitBuffer.nv.behind.isEmpty) = s.nv.queue.isEmpty := by
    simp only [Nv.queue, State.commitBuffer, List.isEmpty_map]
    cases s.nv.wbuf with
    | nil => rfl
    | cons _ _ => rfl
  refine congrArg Host.Outcome.next ((State.onStart_of h.1 _).trans ?_)
  unfold State.nvCommitBody
  dsimp only
  rw [haux, hform, if_neg (by decide), hempty, hlen]
  by_cases hq : s.nv.queue = []
  · rw [if_pos hq, hq]
    rfl
  · rw [if_neg hq, if_neg (by simpa using hq)]
    rfl

theorem Nv.freeze_empty {n : Nv} (h : n.queue = []) :
    ({ n with wbuf := n.wbuf.map (fun e => { e with frozen := true }), behind := n.behind.map (fun e => { e with frozen := true }) } : Nv) = n := by
  obtain ⟨hw, hb⟩ := List.append_eq_nil_iff.mp h
  cases n
  simp only at hw hb
  subst hw hb
  rfl

theorem State.commitBuffer_empty (hq : s.nv.queue = []) : s.commitBuffer = s :=
  congrArg (fun n : Nv => { s with nv := n }) (Nv.freeze_empty hq)

/-! NV_PASSWD. -/

/-- Entries with what they carry and what waits for them. -/
def Nv.carried (n : Nv) : List (List RecImage × List CommitWait) := n.queue.map (fun e => (e.img, e.sync))

theorem carried_freeze (l : List WbEntry) :
    (l.map (fun e => { e with frozen := true })).map (fun e => (e.img, e.sync)) = l.map (fun e => (e.img, e.sync)) := by
  simp [Function.comp_def]

theorem State.commitBuffer_carried (s : State) : s.commitBuffer.nv.carried = s.nv.carried := by
  unfold Nv.carried
  rw [State.commitBuffer_queue, carried_freeze]

/-- A page write goes behind the others. -/
theorem State.bufferIn_carried (s : State) (e : WbEntry) : (s.bufferIn e).nv.carried = s.nv.carried ++ [(e.img, e.sync)] := by
  unfold State.bufferIn
  dsimp only
  split
  · next h =>
    simp only [Bool.and_eq_true, Bool.not_eq_true', List.isEmpty_iff, decide_eq_true_eq] at h
    obtain ⟨⟨-, hbehind⟩, hlen⟩ := h
    have htake : (s.nv.wbuf ++ [e]).take 64 = s.nv.wbuf ++ [e] := List.take_of_length_le (by simp; omega)
    have hin : ({ s.nv with wbuf := (s.nv.wbuf ++ [e]).take 64, lastWrite := s.now } : Nv).carried = s.nv.carried ++ [(e.img, e.sync)] := by
      unfold Nv.carried Nv.queue
      simp [htake, hbehind]
    split
    · exact (State.commitBuffer_carried _).trans hin
    · exact hin
  · unfold Nv.carried Nv.queue State.bufferBehind
    simp

theorem foldl_bufferIn_carried (es : List WbEntry) (s : State) :
    (es.foldl State.bufferIn s).nv.carried = s.nv.carried ++ es.map (fun e => (e.img, e.sync)) := by
  induction es generalizing s with
  | nil => exact (List.append_nil _).symm
  | cons e es ih =>
    rw [List.foldl_cons, ih, State.bufferIn_carried, List.append_assoc]
    rfl

/-- Page writes that enter the queue leave the array and the partitions. -/
theorem foldl_bufferIn_eq (es : List WbEntry) (s : State) : ∃ wbuf behind last,
    es.foldl State.bufferIn s = { s with nv := { s.nv with wbuf := wbuf, behind := behind, lastWrite := last } } := by
  induction es generalizing s with
  | nil => exact ⟨_, _, _, rfl⟩
  | cons e es ih =>
    obtain ⟨wbuf, behind, last, _, _, h, -⟩ := s.bufferIn_eq e
    obtain ⟨wbuf', behind', last', h'⟩ := ih (s.bufferIn e)
    refine ⟨wbuf', behind', last', ?_⟩
    rw [List.foldl_cons, h', h]

/-- The record of the partitions has five pages: the image and the wait stand with the last to be written. -/
theorem State.recordEntries_userTable (s : State) (img : List RecImage) (x : CommitWait) :
    (s.recordEntries (recKey partSystem recUserTable) img [x]).map (fun e => (e.img, e.sync)) =
      List.replicate 4 ([], [{ x with last := false }]) ++ [(img, [x])] := by
  have hlen : ((s.storeView.putImages img).recordData (recKey partSystem recUserTable)).length = 1280 := by
    unfold State.recordData
    simp [recKey, partSystem, recUserTable, partKeys, partAllow, partCounters, partHeads, recEpoch, openPages]
  unfold State.recordEntries
  dsimp only
  rw [hlen]
  cases x
  simp [List.range_succ]

/-- The image that an NV_PASSWD commits. -/
def State.passwdImage (u : State) (w : Work) : RecImage :=
  .passwords (w.field 0x10 1)
    (if bit (w.field 0x11 1) 0 then bytesAt w.desc 0x18 8 else (u.storeView.partAt (w.field 0x10 1)).readPw)
    (if bit (w.field 0x11 1) 1 then bytesAt w.desc 0x20 8 else (u.storeView.partAt (w.field 0x10 1)).writePw)

/-- What waits for the record of an NV_PASSWD. -/
def passwdWait (w : Work) : CommitWait := { work := w.id, core := none, last := true, ok := nvResult 0 0, fail := nvResult 0 0 }

theorem exec_nvPasswd {ring : Nat} {u : State} (h : Starts s ring 0x9003 w) (haux : w.aux = 0) (hlow : w.zeroFrom 0x12 0x18 = true)
    (hhigh : w.zeroFrom 0x30 0x40 = true) (hpart : w.field 0x10 1 ≤ 63) (hsel : w.field 0x11 1 ≠ 0) (hmax : w.field 0x11 1 < 4)
    (hfail : s.partFail (w.field 0x10 1) w.slice 0 = none)
    (hu : s.passwordCheck (w.field 0x10 1) true (bytesAt w.desc 0x28 8) = (u, none)) : exec (.nvPasswd ring) s =
      .next ((u.modWork w.id (fun v => { v with phase := .active 1 })).nvSend
        [(recKey partSystem recUserTable, [u.passwdImage w])] (passwdWait w)) := by
  refine congrArg Host.Outcome.next ((State.onStart_of h.1 _).trans ?_)
  unfold State.nvPasswdBody
  dsimp only
  rw [haux, hlow, hhigh, decide_eq_true hpart, decide_eq_true hmax, show (w.field 0x11 1 != 0) = true by simpa using hsel,
    if_neg (by decide), hfail]
  dsimp only
  rw [hu]
  rfl

/-- A record of the partitions that is sent behind the queue. -/
theorem State.nvSend_userTable (s : State) (img : List RecImage) (x : CommitWait) (hx : x.last = true) :
    let t := s.nvSend [(recKey partSystem recUserTable, img)] x
    t.nv.carried = s.nv.carried ++ (List.replicate 4 ([], [{ x with last := false }]) ++ [(img, [x])]) ∧
      t.nv.parts = s.nv.parts ∧ t.nv.pages = s.nv.pages ∧ t.nv.maps = s.nv.maps ∧ t.books = s.books ∧ t.work = s.work := by
  intro t
  have ht : t = (s.commitBuffer.recordEntries (recKey partSystem recUserTable) img [x]).foldl State.bufferIn s.commitBuffer := by
    show s.nvSend _ x = _
    unfold State.nvSend
    cases x
    subst hx
    rfl
  obtain ⟨wbuf, behind, last, heq⟩ := foldl_bufferIn_eq
    (s.commitBuffer.recordEntries (recKey partSystem recUserTable) img [x]) s.commitBuffer
  refine ⟨?_, ?_⟩
  · rw [ht, foldl_bufferIn_carried, State.recordEntries_userTable, State.commitBuffer_carried]
  · rw [ht, heq]
    exact ⟨rfl, rfl, rfl, rfl, rfl⟩

/-- Of a queue that has grown: what its new entries carry. -/
theorem carried_drop {n m : Nv} {l : List (List RecImage × List CommitWait)} (h : n.carried = m.carried ++ l) :
    (n.queue.drop m.queue.length).flatMap WbEntry.img = l.flatMap Prod.fst := by
  have hd : (n.queue.drop m.queue.length).map (fun e => (e.img, e.sync)) = l := by
    rw [List.map_drop]
    exact (congrArg (List.drop _) h).trans (List.drop_left' (by simp [Nv.carried]))
  rw [← hd, List.flatMap_map]

theorem carried_last {n : Nv} {q : List (List RecImage × List CommitWait)} {img : List RecImage} {sync : List CommitWait}
    (h : n.carried = q ++ [(img, sync)]) : ∃ e, n.queue.getLast? = some e ∧ e.sync = sync := by
  have hl : n.queue.getLast?.map (fun e => (e.img, e.sync)) = some (img, sync) := by
    rw [← List.getLast?_map]
    exact (congrArg List.getLast? h).trans List.getLast?_concat
  obtain ⟨e, he, hpair⟩ := Option.map_eq_some_iff.mp hl
  exact ⟨e, he, congrArg Prod.snd hpair⟩

theorem nvPasswd_of {u : State} (hw : u.workAt w.id = some w) :
    let t := (u.modWork w.id (fun v => { v with phase := .active 1 })).nvSend
        [(recKey partSystem recUserTable, [u.passwdImage w])] (passwdWait w)
    At t w.id (.active 1) ∧ (t.nv.queue.drop u.nv.queue.length).flatMap WbEntry.img = [u.passwdImage w] ∧
      (∃ e, t.nv.queue.getLast? = some e ∧ e.sync = [passwdWait w]) ∧ (∀ k, t.partAt k = u.partAt k) ∧
      (t.nv.pages = u.nv.pages ∧ t.nv.maps = u.nv.maps) ∧ t.books = u.books := by
  intro t
  obtain ⟨hcarried, hparts, hpages, hmaps, hbooks, hwork⟩ :=
    (u.modWork w.id (fun v => { v with phase := .active 1 })).nvSend_userTable [u.passwdImage w] (passwdWait w) rfl
  refine ⟨?_, (carried_drop hcarried).trans ?_, carried_last (hcarried.trans (List.append_assoc ..).symm),
    fun k => congrArg (fun p => tget UserPart.none_ p k) hparts, ⟨hpages, hmaps⟩, hbooks⟩
  · have hat : At (u.modWork w.id (fun v => { v with phase := .active 1 })) w.id (.active 1) := At.of_modWork hw fun _ => rfl
    exact (congrArg (fun l : List Work => (l.find? fun v : Work => v.id == w.id).map Work.phase) hwork).trans hat
  · simp [List.replicate]

end

/-! The page step. -/

section
variable {s : State} {e : WbEntry}

/-- A page write that has written its page: the current copy of its record holds its data, no other copy has changed. -/
structure Wrote (s t : State) (e : WbEntry) : Prop where
  data : ∀ q, (t.nv.copy e.key).head? = some q → (t.nv.page q).data = e.data
  copy : ∀ k, k ≠ e.key → t.nv.copy k = s.nv.copy k
  queue : t.nv.queue = s.nv.queue
  wbuf : t.nv.wbuf = s.nv.wbuf
  waits : t.nv.commitWaits = s.nv.commitWaits
  work : t.work = s.work
  books : t.books = s.books

theorem Nv.freePages_copy (l : List Nat) (n : Nv) : ∃ pages, l.foldl Nv.freePage n = { n with pages := pages } := by
  induction l generalizing n with
  | nil => exact ⟨_, rfl⟩
  | cons p l ih =>
    obtain ⟨pages, h⟩ := ih (n.freePage p)
    exact ⟨pages, h⟩

theorem Nv.writePhys_data (n : Nv) (p : Nat) (v : NvPage) : ((n.writePhys p v).page p).data = v.data := by
  obtain ⟨retired, worn, h⟩ := n.writePhys_eq p v
  rw [h]
  exact (congrArg NvPage.data (n.setPage_page_same p { v with wear := satAdd 0xFFFFFFFF (n.page p).wear 1 })).trans rfl

/-- INDEX 0 of a new copy. -/
theorem State.newCopy_wrote (h : (s.newCopy e).2 = true) (hindex : e.index = 0) : Wrote s (s.newCopy e).1 e := by
  unfold State.newCopy at h ⊢
  dsimp only at h ⊢
  split
  · next hb =>
    rw [hb] at h
    exact absurd h Bool.false_ne_true
  · next p hb =>
    rw [hb] at h
    dsimp only at h
    rw [hindex] at h ⊢
    rw [if_neg (by decide)] at h ⊢
    split
    · next hn =>
      rw [if_pos hn] at h
      exact absurd h Bool.false_ne_true
    · generalize s.nv.newPages e.key e.pages = rest
      let v : NvPage :=
        { part := e.key / 2 ^ 20, kind := e.kind, lpage := e.key % 2 ^ 20, seq := s.nv.nextSeq e.key, wear := 0, index := 0,
          pages := e.pages, commit := (0 : Nat) == 0, data := e.data, badCw := e.badCw }
      show Wrote s { s with nv := (s.nv.adopt e.key p rest).writePhys p v } e
      obtain ⟨retired, worn, hphys⟩ := (s.nv.adopt e.key p rest).writePhys_eq p v
      obtain ⟨pages, hadopt⟩ := Nv.freePages_copy (s.nv.copy e.key) s.nv
      have hcopy : ((s.nv.adopt e.key p rest).writePhys p v).copy e.key = p :: rest := by
        rw [hphys]
        exact Nv.setCopy_copy_same _ e.key (p :: rest)
      have hkept : ((s.nv.adopt e.key p rest).writePhys p v).queue = s.nv.queue ∧
          ((s.nv.adopt e.key p rest).writePhys p v).wbuf = s.nv.wbuf ∧
            ((s.nv.adopt e.key p rest).writePhys p v).commitWaits = s.nv.commitWaits := by
        rw [hphys]
        unfold Nv.adopt
        rw [hadopt]
        exact ⟨rfl, rfl, rfl⟩
      obtain ⟨hqueue, hwbuf, hwaits⟩ := hkept
      refine ⟨fun q hq => ?_, ((Nv.adopt_rewrites (recs := (· = e.key)) s.nv p rest rfl).trans (Nv.writePhys_rewrites _ p v)).copy,
        hqueue, hwbuf, hwaits, rfl, rfl⟩
      · rw [show ({ s with nv := (s.nv.adopt e.key p rest).writePhys p v } : State).nv = (s.nv.adopt e.key p rest).writePhys p v from rfl,
          hcopy] at hq
        obtain rfl : p = q := Option.some.inj hq
        exact Nv.writePhys_data _ p v

theorem State.writeEntry_wrote (h : (s.writeEntry e).2 = true) (hindex : e.index = 0) : Wrote s (s.writeEntry e).1 e := by
  unfold State.writeEntry at h ⊢
  split
  · next hp =>
    rw [if_pos hp] at h
    exact State.newCopy_wrote h hindex
  · next hp =>
    rw [if_neg hp] at h
    split
    · next hcopy =>
      rw [hcopy] at h
      dsimp only at h
      split
      · exact ⟨fun q hq => absurd (hcopy ▸ hq) (by simp), fun _ _ => rfl, rfl, rfl, rfl, rfl, rfl⟩
      · next hz =>
        rw [if_neg hz] at h
        exact State.newCopy_wrote h hindex
    · next p rest hcopy =>
      rw [hcopy] at h
      dsimp only at h ⊢
      split
      · next hsame =>
        refine ⟨fun q hq => ?_, fun _ _ => rfl, rfl, rfl, rfl, rfl, rfl⟩
        rw [hcopy] at hq
        obtain rfl : p = q := Option.some.inj hq
        simp only [Bool.and_eq_true, beq_iff_eq] at hsame
        exact hsame.1.1
      · next hsame =>
        rw [if_neg hsame] at h
        split
        · next hdue =>
          rw [if_pos hdue] at h
          exact State.newCopy_wrote h hindex
        · let v : NvPage :=
            { s.nv.page p with seq := ((s.nv.page p).seq + 1) % 2 ^ 32, commit := true, data := e.data, badCw := e.badCw }
          show Wrote s { s with nv := s.nv.writePhys p v } e
          obtain ⟨retired, worn, hphys⟩ := s.nv.writePhys_eq p v
          have hkept : (s.nv.writePhys p v).maps = s.nv.maps ∧ (s.nv.writePhys p v).queue = s.nv.queue ∧
              (s.nv.writePhys p v).wbuf = s.nv.wbuf ∧ (s.nv.writePhys p v).commitWaits = s.nv.commitWaits := by
            rw [hphys]
            exact ⟨rfl, rfl, rfl, rfl⟩
          obtain ⟨hmaps, hqueue, hwbuf, hwaits⟩ := hkept
          have hcopies (k : Nat) : (s.nv.writePhys p v).copy k = s.nv.copy k := congrArg (fun m => tget (shippedMap k) m k) hmaps
          refine ⟨fun q hq => ?_, fun k _ => hcopies k, hqueue, hwbuf, hwaits, rfl, rfl⟩
          rw [show ({ s with nv := s.nv.writePhys p v } : State).nv = s.nv.writePhys p v from rfl, hcopies, hcopy] at hq
          obtain rfl : p = q := Option.some.inj hq
          exact s.nv.writePhys_data p v

/-- Key and data of the entries of the queue. -/
def Nv.pairs (n : Nv) : List (Nat × Bytes) := n.queue.map (fun e => (e.key, e.data))

theorem State.bufferNext_eq (s : State) : ∃ wbuf behind last,
    s.bufferNext = { s with nv := { s.nv with wbuf := wbuf, behind := behind, lastWrite := last } } := by
  unfold State.bufferNext
  split
  · exact ⟨_, _, _, rfl⟩
  · dsimp only
    split
    · split
      · exact ⟨_, _, _, rfl⟩
      · exact ⟨_, _, _, rfl⟩
    · exact ⟨_, _, _, rfl⟩

/-- A page write that enters the buffer from behind it stands where it stood. -/
theorem State.bufferNext_pairs (s : State) : s.bufferNext.nv.pairs = s.nv.pairs := by
  unfold State.bufferNext
  split
  · rfl
  · next e rest hb =>
    split
    · next hlen =>
      dsimp only
      have htake : (s.nv.wbuf ++ [e]).take 64 = s.nv.wbuf ++ [e] := List.take_of_length_le (by simp; omega)
      have hin : ({ s.nv with wbuf := (s.nv.wbuf ++ [e]).take 64, behind := rest, lastWrite := s.now } : Nv).pairs = s.nv.pairs := by
        unfold Nv.pairs Nv.queue
        simp [htake, hb]
      split
      · refine Eq.trans ?_ hin
        unfold Nv.pairs
        rw [State.commitBuffer_queue]
        simp [Function.comp_def]
      · exact hin
    · rfl

theorem State.popPage_eq (s : State) : ∃ wbuf behind last,
    s.popPage = { s with nv := { s.nv with wbuf := wbuf, behind := behind, lastWrite := last } } := by
  unfold State.popPage
  split
  · next rest _ =>
    obtain ⟨wbuf, behind, last, h⟩ := State.bufferNext_eq { s with nv := { s.nv with wbuf := rest } }
    exact ⟨wbuf, behind, last, h⟩
  · exact ⟨_, _, _, rfl⟩

theorem State.popPage_pairs (s : State) : s.popPage.nv.pairs = s.nv.pairs.tail := by
  unfold State.popPage
  split
  · next e rest hw =>
    refine (State.bufferNext_pairs _).trans ?_
    unfold Nv.pairs Nv.queue
    rw [hw]
    rfl
  · next hw =>
    unfold Nv.pairs Nv.queue
    rw [hw]
    simp

/-- A page that was the next has been written and taken out of the queue. -/
theorem Wrote.popPage {u : State} (h : Wrote s u e) : let t := u.popPage
    (∀ q, (t.nv.copy e.key).head? = some q → (t.nv.page q).data = e.data) ∧ (∀ k, k ≠ e.key → t.nv.copy k = s.nv.copy k) ∧
      t.nv.pairs = s.nv.pairs.tail ∧ t.nv.commitWaits = s.nv.commitWaits ∧ t.work = s.work ∧ t.books = s.books := by
  intro t
  have hpairs : t.nv.pairs = s.nv.pairs.tail :=
    u.popPage_pairs.trans (congrArg (fun q : List WbEntry => (q.map fun e : WbEntry => (e.key, e.data)).tail) h.queue)
  obtain ⟨wbuf, behind, last, ht⟩ := u.popPage_eq
  refine ⟨?_, ?_, hpairs, ?_⟩
  · show ∀ q, (u.popPage.nv.copy e.key).head? = some q → (u.popPage.nv.page q).data = e.data
    rw [ht]
    exact h.data
  · show ∀ k, k ≠ e.key → u.popPage.nv.copy k = s.nv.copy k
    rw [ht]
    exact h.copy
  · show u.popPage.nv.commitWaits = _ ∧ u.popPage.work = _ ∧ u.popPage.books = _
    rw [ht]
    exact ⟨h.waits, h.work, h.books⟩

/-- The page that is next is written; no descriptor waits for the queue. -/
theorem State.pageWrite_of {u : State} (hnext : s.nv.nextPage = some e) (hwrite : s.writeEntry e = (u, true)) (hwaits : u.popPage.nv.commitWaits = []) :
    s.pageWrite = u.popPage.entryDone e true := by
  unfold State.pageWrite
  rw [hnext]
  dsimp only
  rw [hwrite]
  dsimp only
  rw [hwaits]
  have hsame : ({ u.popPage with nv := { u.popPage.nv with commitWaits := [] } } : State) = u.popPage := by
    rw [← hwaits]
  exact congrArg (fun t : State => t.entryDone e true) hsame

/-- The state in which the page step of the controller runs. -/
def State.pageStep (s : State) : State := if s.pwr.starting then s.takeStep .nv else s

theorem exec_pageWrite (hnext : s.nv.nextPage = some e) (h : s.pwr.starting = false ∨ s.mayStep .nv 2 = true) :
    exec .pageWrite s = .next s.pageStep.pageWrite := by
  have hdue : s.pageDue = true := by
    unfold State.pageDue
    rw [hnext]
    rfl
  unfold State.pageStep
  refine congrArg Host.Outcome.next ((if_neg (by simp [hdue])).trans ?_)
  cases hs : s.pwr.starting with
  | false => rfl
  | true => exact State.stepOf_served (h.resolve_left (by simp [hs])) State.pageWrite

theorem exec_pageWrite_waits (hstarting : s.pwr.starting = true) (hmay : s.mayStep .nv 2 = false) : exec .pageWrite s = .next s := by
  have hstep : (if s.pwr.starting then s.stepOf .nv 2 State.pageWrite else s.pageWrite) = s :=
    (if_pos hstarting).trans (State.stepOf_unserved hmay _)
  refine congrArg Host.Outcome.next ?_
  rw [hstep, ite_self]

/-- The step of the controller changes nothing but the calendar. -/
theorem State.pageStep_wrote {u t : State} (hu : s.pageStep = u) (h : Wrote u t e) : Wrote s t e := by
  subst hu
  have hsame : s.pageStep.nv = s.nv ∧ s.pageStep.work = s.work ∧ s.pageStep.books = s.books := by
    unfold State.pageStep
    split
    · exact ⟨rfl, rfl, rfl⟩
    · exact ⟨rfl, rfl, rfl⟩
  obtain ⟨hnv, hwork, hbooks⟩ := hsame
  exact ⟨h.data, fun k hk => (h.copy k hk).trans (by rw [hnv]), h.queue.trans (by rw [hnv]), h.wbuf.trans (by rw [hnv]),
    h.waits.trans (by rw [hnv]), h.work.trans hwork, h.books.trans hbooks⟩

/-- The page write of user data: what it waited for completes. -/
theorem pageWrite_of (hnext : s.nv.nextPage = some e) (hgo : s.pwr.starting = false ∨ s.mayStep .nv 2 = true)
    (hwrite : (s.pageStep.writeEntry e).2 = true) (hwaits : s.nv.commitWaits = []) (himg : e.img = [.user]) (hindex : e.index = 0) :
    ∃ t : State, exec .pageWrite s = .next ((e.sync.foldl (fun s w => s.waitDone w true) t).tagWritten e.sync true) ∧
      (∀ q, (t.nv.copy e.key).head? = some q → (t.nv.page q).data = e.data) ∧ (∀ k, k ≠ e.key → t.nv.copy k = s.nv.copy k) ∧
      t.nv.pairs = s.nv.pairs.tail ∧ t.work = s.work ∧ t.books = s.books := by
  have hwrote := State.pageStep_wrote rfl (State.writeEntry_wrote hwrite hindex)
  obtain ⟨hdata, hcopy, hpairs, hpopped, hwork, hbooks⟩ := hwrote.popPage
  have hnext' : s.pageStep.nv.nextPage = some e := by
    unfold State.pageStep
    split
    · exact hnext
    · exact hnext
  have hi := (exec_pageWrite hnext hgo).trans (congrArg Host.Outcome.next
    (State.pageWrite_of hnext' (Prod.ext rfl hwrite) (hpopped.trans hwaits)))
  refine ⟨_, hi.trans (congrArg Host.Outcome.next ?_), hdata, hcopy, hpairs, hwork, hbooks⟩
  unfold State.entryDone
  rw [if_pos rfl, himg]
  rfl

theorem State.tagWritten_leaves (s : State) (sync : List CommitWait) (ok : Bool) :
    (s.tagWritten sync ok).nv = s.nv ∧ (s.tagWritten sync ok).work = s.work ∧ (s.tagWritten sync ok).books = s.books := by
  unfold State.tagWritten
  split
  · exact ⟨rfl, rfl, rfl⟩
  · split
    · exact ⟨rfl, rfl, rfl⟩
    · exact ⟨rfl, rfl, rfl⟩

end

/-- Settles O44: each command passes its checks into the queue of page writes, and the page step takes the first out of it. -/
theorem storeCommands : Obligations.StoreCommands := by
  unfold Obligations.StoreCommands
  intro s ring w
  refine ⟨fun h hform hchecks => ?_, fun h hnone hform hchecks hcan hok => ?_, fun h hw hring hfree hroom =>
    nvWrite_stores h hw hring rfl hfree hroom, fun h haux hform => ⟨fun hq => ?_, fun hq => ?_⟩,
    fun h haux hlow hhigh hpart hsel hmax hfail hchecks => ?_, fun k r p => ⟨State.setPart_same s k _, fun j hj => State.setPart_other s _ hj⟩,
    fun h => congrArg Host.Outcome.next (State.onReg_of h _), fun h => congrArg Host.Outcome.next (if_pos h), fun e hnext => ⟨?_, ?_⟩⟩
  · have hu := State.nvChecks_passes hchecks
    rw [hu]
    refine ⟨fun hno => ?_, fun hcan hmay hfault => nvRead_of h hform hu (s.modPart_readsOnly _ _) rfl rfl rfl hcan hmay rfl hfault⟩
    refine congrArg Host.Outcome.next ((State.onStart_of h.1 _).trans ((State.nvReadBody_of hform hu).trans (if_pos ?_)))
    rcases hno with hno | hno
    · simp [hno]
    · simp only [Bool.or_eq_true, Bool.not_eq_true']
      exact .inl hno
  · have hu := State.nvChecks_passes hchecks
    rw [hu] at hok
    exact nvWrite_asks h hnone hform hu (s.modPart_readsOnly _ _) rfl (fun _ => rfl) rfl hcan hok
  · have hi := nvCommit_of h haux hform
    rw [if_pos (show s.nv.queue = [] from hq), State.commitBuffer_empty hq] at hi
    obtain ⟨ends, hsame, -⟩ := State.finish_ends (st := .ok) [] h.2.1 h.ring_lt (by decide) (by decide)
    exact ⟨_, hi, ends, hsame⟩
  · have hi := nvCommit_of h haux hform
    rw [if_neg (show s.nv.queue ≠ [] from hq)] at hi
    refine ⟨_, hi, At.of_modWork h.2.1 fun _ => rfl, rfl, List.mem_append_right _ ?_, rfl, rfl, rfl⟩
    exact List.mem_singleton.mpr (by rw [Nv.queue])
  · have hu := State.passwordCheck_none hchecks
    rw [hu]
    obtain ⟨hat, himgs, hlast, hparts, harray, hbooks⟩ :=
      nvPasswd_of (u := s.modPart (w.field 0x10 1) (fun p => { p with fails := 0 })) (w := w) h.2.1
    exact ⟨_, exec_nvPasswd h haux hlow hhigh hpart hsel hmax hfail hu, hat, himgs, hlast, hparts, harray, hbooks⟩
  · exact exec_pageWrite_waits
  · intro hgo u hwrite hwaits himg hindex
    obtain ⟨t, hi, hdata, hcopy, hpairs, hwork, hbooks⟩ := pageWrite_of hnext hgo hwrite hwaits himg hindex
    refine ⟨fun hsync => ?_, fun ok fail hsync hw hring => ?_⟩
    · rw [hsync] at hi
      obtain ⟨hnv, hwork', hbooks'⟩ := t.tagWritten_leaves [] true
      have hi' : exec .pageWrite s = .next (t.tagWritten [] true) := hi
      refine ⟨_, hi', (congrArg Nv.pairs hnv).trans hpairs, ?_, ?_, hwork'.trans hwork, hbooks'.trans hbooks⟩
      · rw [hnv]
        exact hdata
      · rw [hnv]
        exact hcopy
    · rw [hsync] at hi
      have hw' : t.workAt w.id = some w := (congrArg (List.find? fun v : Work => v.id == w.id) hwork).trans hw
      obtain ⟨ends, hsame, -⟩ := State.finish_ends (s := t) (st := .ok) ok hw' hring (by decide) (by decide)
      obtain ⟨hnv, hwork', hbooks'⟩ := (t.finish w.id .ok ok).tagWritten_leaves [⟨w.id, none, true, ok, fail⟩] true
      have hnvt : ((t.finish w.id .ok ok).tagWritten [⟨w.id, none, true, ok, fail⟩] true).nv = t.nv :=
        hnv.trans ((congrArg State.nv hsame).trans rfl)
      refine ⟨_, hi, ?_, ?_, hbooks'.trans ((congrArg State.books hsame).trans hbooks)⟩
      · show ∀ q, (((t.finish w.id .ok ok).tagWritten [⟨w.id, none, true, ok, fail⟩] true).nv.copy e.key).head? = some q → _
        rw [hnvt]
        intro q hq
        exact (congrArg (fun n : Nv => (n.page q).data) hnvt).trans (hdata q hq)
      · obtain ⟨v, c, hv, hd, hc, hst, hres⟩ := ends
        exact ⟨v, c, (congrArg (List.find? fun v : Work => v.id == w.id) hwork').trans hv, hd, hc, hst, hres⟩

end Sys2Proof.Machine
end

section
/-! SUPPORT. The allow-list and the course of an invocation (R355 to R366). -/

namespace Sys2Proof.Machine
open Sys2Proof

section
variable {s : State} {w : Work} {ring : Nat}

/-! Sessions and entries that a command looks up. -/

theorem State.readAllow_eq (s : State) (index slice : Nat) : ∃ logs, s.readAllow index slice = { s with logs := logs } := by
  unfold State.readAllow
  split
  · exact ⟨_, rfl⟩
  · exact ⟨_, rfl⟩

/-- The checks of session and MAC pass: the session is charged. -/
theorem State.appletSession_passes {n : Nat} (hfail : s.sessionFail w.session w.slice = none) (hmac : w.macOk (s.sessionAt w.session).key n = true) :
    s.appletSession w n = (s.chargeSession w.session, none) := by
  unfold State.appletSession
  rw [hfail]
  dsimp only
  rw [hmac]
  rfl

/-- A charge leaves of a session all but its uses. -/
theorem State.chargeSession_sessionAt (s : State) (h : Nat) : ((s.chargeSession h).sessionAt h).attr = (s.sessionAt h).attr ∧
    ((s.chargeSession h).sessionAt h).slice = (s.sessionAt h).slice := by
  have hsame : (s.chargeSession h).sessionAt h = if (s.sessionAt h).attr.getLsbD attrUnlimited then s.sessionAt h
      else { s.sessionAt h with uses := (s.sessionAt h).uses - 1 } := State.setSession_same s h _
  rw [hsame]
  split
  · exact ⟨rfl, rfl⟩
  · exact ⟨rfl, rfl⟩

/-- An entry of the allow-list that is occupied can be read. -/
theorem State.readAllow_occupied {index slice : Nat} (h : (s.allowEntry index).occupied = true) : s.readAllow index slice = s := by
  unfold State.readAllow
  unfold State.allowEntry at h
  split at h
  · next hok => exact if_neg (by simp [hok])
  · exact absurd h (by decide)

/-! ALLOW_ADD. -/

theorem State.allowAddBody_of {c : State} (hc : s.appletSession w 0x80 = (c, none)) (haux : w.aux = 0) (hzero : w.zeroFrom 0x20 0x70 = true)
    (hindex : w.field 0x1C 2 < 256) (hslice : w.field 0x1E 2 < 1024 ∨ w.field 0x1E 2 = 0xFFFF)
    (hbeyond : w.field 0x10 8 + w.field 0x18 4 ≤ 2 ^ 64) (hlen : imageLenOk (w.field 0x18 4) = true) {u : State}
    (hu : c.readAllow (w.field 0x1C 2) w.slice = u) (hright : u.allowRight w (w.field 0x1E 2) (w.field 0x1C 2) = true)
    (hauth : u.appletAuthorityOk = true) (hocc : u.appletAuthority.occupied = true) (hfree : (u.allowEntry (w.field 0x1C 2)).occupied = false)
    (hrange : u.rangeOk w.slice (w.field 0x10 8) (w.field 0x18 4) false = true) (hcan : u.canRead masterMgmt = true)
    (hok : (u.hostRead (.work w.id 0) masterMgmt w.slice .image (w.field 0x10 8) (w.field 0x18 4) false).2 = true) :
    s.allowAddBody w = (u.hostRead (.work w.id 0) masterMgmt w.slice .image (w.field 0x10 8) (w.field 0x18 4) false).1.modWork w.id
      (fun v => { v with phase := .reading 1 }) := by
  have hne : (w.field 0x18 4 != 0) = true := by
    simp only [imageLenOk, Bool.and_eq_true, decide_eq_true_eq] at hlen
    exact bne_iff_ne.mpr (by omega)
  have hs : (decide (w.field 0x1E 2 < 1024) || w.field 0x1E 2 == 0xFFFF) = true := by simpa using hslice
  unfold State.allowAddBody
  dsimp only
  rw [haux, hzero, decide_eq_true hindex, hs, beyond64_of_le hbeyond, hne, if_neg (by decide), hc]
  dsimp only
  rw [hu, hright, hauth, hocc, hfree, hrange, hlen, hcan, hok]
  rfl

theorem allowAdd_of (h : Starts s ring 0x7010 w) (hbusy : s.sessionBusy w.session = false) (hfail : s.sessionFail w.session w.slice = none)
    (hmac : w.macOk (s.sessionAt w.session).key 0x80 = true) (haux : w.aux = 0) (hzero : w.zeroFrom 0x20 0x70 = true)
    (hindex : w.field 0x1C 2 < 256) (hslice : w.field 0x1E 2 < 1024 ∨ w.field 0x1E 2 = 0xFFFF)
    (hbeyond : w.field 0x10 8 + w.field 0x18 4 ≤ 2 ^ 64) (hlen : imageLenOk (w.field 0x18 4) = true)
    (hright : (s.chargeSession w.session).allowRight w (w.field 0x1E 2) (w.field 0x1C 2) = true)
    (hauth : s.appletAuthorityOk = true) (hocc : s.appletAuthority.occupied = true) (hfree : (s.allowEntry (w.field 0x1C 2)).occupied = false)
    (hrange : s.rangeOk w.slice (w.field 0x10 8) (w.field 0x18 4) false = true) (hcan : s.canRead masterMgmt = true)
    (hok : (((s.chargeSession w.session).readAllow (w.field 0x1C 2) w.slice).hostRead (.work w.id 0) masterMgmt w.slice .image
      (w.field 0x10 8) (w.field 0x18 4) false).2 = true) :
    ∃ t, exec (.allowAdd ring) s = .next t ∧ At t w.id (.reading 1) ∧
      (∃ r ∈ t.reads, r.kind = .work w.id 0 ∧ r.addr = w.field 0x10 8 ∧ r.len = w.field 0x18 4) ∧ t.applets = s.applets ∧ t.books = s.books := by
  obtain ⟨logs, hu⟩ := (s.chargeSession w.session).readAllow_eq (w.field 0x1C 2) w.slice
  let u : State := { s.chargeSession w.session with logs := logs }
  have hu' : (s.chargeSession w.session).readAllow (w.field 0x1C 2) w.slice = u := hu
  rw [hu'] at hok
  have hbody := State.allowAddBody_of (State.appletSession_passes hfail hmac) haux hzero hindex hslice hbeyond hlen hu'
    (u := u) hright hauth hocc hfree hrange hcan hok
  obtain ⟨out, mpus, crypto, r, hread, hr⟩ := State.hostRead_ok hok
  rw [hread] at hbody
  refine ⟨_, congrArg Host.Outcome.next ((State.onStart_of h.1 _).trans ((if_neg (by simp [hbusy])).trans hbody)), ?_,
    ⟨r, List.mem_append_right _ (List.mem_singleton.mpr rfl), hr.kind, hr.addr, hr.len⟩, rfl, rfl⟩
  exact At.of_modWork (s := { u with out := out, mpus := mpus, crypto := crypto, nextId := u.nextId + 1, reads := u.reads ++ [r] })
    (f := fun v => { v with phase := .reading 1 }) h.2.1 fun _ => rfl

/-! ALLOW_REMOVE. -/

/-- A frozen page write stands in the queue as it went in. -/
theorem State.bufferIn_frozen (s : State) {e : WbEntry} (he : e.frozen = true) : e ∈ (s.bufferIn e).nv.queue := by
  have hsame : { e with frozen := true } = e := by rw [← he]
  unfold State.bufferIn
  dsimp only
  split
  · next h =>
    simp only [Bool.and_eq_true, Bool.not_eq_true', List.isEmpty_iff, decide_eq_true_eq] at h
    have htake : (s.nv.wbuf ++ [e]).take 64 = s.nv.wbuf ++ [e] := List.take_of_length_le (by simp; omega)
    rw [htake]
    split
    · rw [State.commitBuffer_queue]
      refine List.mem_map.mpr ⟨e, ?_, hsame⟩
      exact List.mem_append_left _ (List.mem_append_right _ (List.mem_singleton.mpr rfl))
    · exact List.mem_append_left _ (List.mem_append_right _ (List.mem_singleton.mpr rfl))
  · exact List.mem_append_right _ (List.mem_append_right _ (List.mem_singleton.mpr rfl))

/-- The page write of an entry of the allow-list. -/
def allowPage (index : Nat) (img : List RecImage) (x : CommitWait) (data : Bytes) : WbEntry :=
  { key := recKey partAllow index, kind := 1, index := 0, pages := 1, data := data, first := 0, img := img, sync := [x], frozen := true,
    badCw := [] }

/-- An entry of the allow-list is one page. -/
theorem State.recordEntries_allow (s : State) {index : Nat} (hindex : index < 256) (img : List RecImage) (x : CommitWait) : ∃ data,
    s.recordEntries (recKey partAllow index) img [x] = [allowPage index img x data] := by
  have hlen : ((s.storeView.putImages img).recordData (recKey partAllow index)).length = 256 := by
    unfold State.recordData
    have hpart : recKey partAllow index / 2 ^ 20 = partAllow := by unfold recKey partAllow; omega
    dsimp only
    rw [hpart, if_neg (by decide), if_pos rfl]
    exact length_bytesAt _ 0 256
  unfold State.recordEntries
  dsimp only
  rw [hlen]
  cases x
  simp [List.range_succ, allowPage]

/-- An entry that is written waits in the queue; the descriptor completes with its commit. -/
theorem State.writeAllow_of {u : State} {index : Nat} (hw : u.workAt w.id = some w) (hindex : index < 256) (a : Allow) (res : Bytes) :
    let t := u.writeAllow w index a res
    At t w.id (.active 1) ∧ (∃ e ∈ t.nv.queue, e.key = recKey partAllow index ∧ e.img = [.allow index a] ∧ e.frozen = true ∧
      e.sync = [{ work := w.id, core := none, last := true, ok := res, fail := refusalResult 9 0xFF }]) ∧
      t.applets = u.applets ∧ t.books = u.books ∧ t.nv.pages = u.nv.pages := by
  intro t
  let x := u.modWork w.id (fun v => { v with phase := .active 1 })
  let wait : CommitWait := { work := w.id, core := none, last := true, ok := res, fail := refusalResult 9 0xFF }
  have hat : At x w.id (.active 1) := At.of_modWork hw fun _ => rfl
  obtain ⟨data, hes⟩ := x.commitBuffer.recordEntries_allow hindex [.allow index a] wait
  have ht : t = x.commitBuffer.bufferIn (allowPage index [.allow index a] wait data) := by
    show x.nvSend [(recKey partAllow index, [.allow index a])] wait = _
    unfold State.nvSend
    have hself : (recKey partAllow index == recKey partAllow index) = true := beq_self_eq_true _
    show (x.commitBuffer.recordEntries (recKey partAllow index) [.allow index a]
      [{ wait with last := recKey partAllow index == recKey partAllow index }]).foldl State.bufferIn x.commitBuffer = _
    rw [hself]
    exact congrArg (fun es => List.foldl State.bufferIn x.commitBuffer es) hes
  refine ⟨?_, ⟨_, ht ▸ State.bufferIn_frozen x.commitBuffer rfl, rfl, rfl, rfl, rfl⟩, ?_⟩
  all_goals
    rw [ht]
    obtain ⟨_, _, _, _, _, heq, -⟩ := x.commitBuffer.bufferIn_eq (allowPage index [.allow index a] wait data)
    rw [heq]
  · exact hat
  · exact ⟨rfl, rfl, rfl⟩

theorem allowRemove_of (h : Starts s ring 0x7011 w) (hbusy : s.sessionBusy w.session = false) (hfail : s.sessionFail w.session w.slice = none)
    (hmac : w.macOk (s.sessionAt w.session).key 0x40 = true) (haux : w.aux = 0) (hzero : w.zeroFrom 0x12 0x30 = true)
    (hindex : w.field 0x10 2 < 256) (hright : (s.chargeSession w.session).allowRight w w.slice (w.field 0x10 2) = true)
    (hocc : (s.allowEntry (w.field 0x10 2)).occupied = true) :
    exec (.allowRemove ring) s = .next ((s.chargeSession w.session).writeAllow w (w.field 0x10 2) Allow.reset (zeros 16)) := by
  have hread : (s.chargeSession w.session).readAllow (w.field 0x10 2) w.slice = s.chargeSession w.session :=
    State.readAllow_occupied (s := s.chargeSession w.session) hocc
  have hoc : ((s.chargeSession w.session).allowEntry (w.field 0x10 2)).occupied = true := hocc
  refine congrArg Host.Outcome.next ((State.onStart_of h.1 _).trans ((if_neg (by simp [hbusy])).trans ?_))
  unfold State.allowRemoveBody
  dsimp only
  rw [haux, hzero, decide_eq_true hindex, if_neg (by decide), State.appletSession_passes hfail hmac]
  dsimp only
  rw [hread, hright, hoc]
  rfl

/-! ALLOW_READ. -/

theorem allowRead_of (h : Starts s ring 0x7012 w) (haux : w.aux = 0) (hzero : w.zeroFrom 0x1E 0x40 = true) (hindex : w.field 0x1C 2 < 256)
    (hlen : 96 ≤ w.field 0x18 4) (hbeyond : w.field 0x10 8 + w.field 0x18 4 ≤ 2 ^ 64)
    (hrange : s.rangeOk w.slice (w.field 0x10 8) (w.field 0x18 4) true = true)
    (hown : (s.allowEntry (w.field 0x1C 2)).occupied = false ∨ (s.allowEntry (w.field 0x1C 2)).slice = w.slice ∨
      (s.allowEntry (w.field 0x1C 2)).slice = 0xFFFF) (hcan : s.canMaster masterMgmt = true) :
    let o := (s.readAllow (w.field 0x1C 2) w.slice).hostWrite masterMgmt w.slice .statement (some w.id) (w.field 0x10 8)
      (s.allowEntry (w.field 0x1C 2)).bytes
    o.2 = true → exec (.allowRead ring) s = .next (o.1.finishOpen w.id .ok []) := by
  intro o ho
  have hmine : ((s.allowEntry (w.field 0x1C 2)).occupied && (s.allowEntry (w.field 0x1C 2)).slice != w.slice &&
      (s.allowEntry (w.field 0x1C 2)).slice != 0xFFFF) = false := by
    rcases hown with h | h | h
    · simp [h]
    · simp [h]
    · simp [h]
  refine congrArg Host.Outcome.next ((State.onStart_of h.1 _).trans ?_)
  unfold State.allowReadBody
  dsimp only
  rw [haux, hzero, decide_eq_true hindex, decide_eq_true hlen, beyond64_of_le hbeyond, if_neg (by decide), hrange, if_neg (by decide),
    hmine, if_neg Bool.false_ne_true, hcan, if_neg (by decide)]
  exact if_pos ho

/-- An entry that has been written to its buffer. -/
theorem allowRead_ends (h : Starts s ring 0x7012 w) {o : State × Bool} {data : Bytes}
    (ho : (s.readAllow (w.field 0x1C 2) w.slice).hostWrite masterMgmt w.slice .statement (some w.id) (w.field 0x10 8) data = o) :
    let t := o.1.finishOpen w.id .ok []
    ∃ z, Ended t w.id .ok z ∧ t.out = o.1.out ∧ t.applets = s.applets ∧ t.books = s.books ∧ t.keys = s.keys := by
  intro t
  obtain ⟨logs, hu⟩ := s.readAllow_eq (w.field 0x1C 2) w.slice
  have hacc := State.hostWrite_accessed (s := s.readAllow (w.field 0x1C 2) w.slice) (master := masterMgmt) (.inr (by decide)) w.slice
    .statement (some w.id) (w.field 0x10 8) data
  rw [ho, hu] at hacc
  obtain ⟨out, mpus, slices, hregs, logs', heq⟩ := hacc
  have hw : o.1.workAt w.id = some w := by
    rw [heq]
    exact h.2.1
  obtain ⟨z, ends, -, hfin⟩ := State.finishOpen_ends (st := .ok) [] hw h.ring_lt (by decide) (by decide)
  refine ⟨z, ends, (congrArg State.out hfin).trans rfl, (congrArg State.applets hfin).trans ?_, (congrArg State.books hfin).trans ?_,
    (congrArg State.keys hfin).trans ?_⟩
  all_goals
    rw [heq]

/-! INVOKE. -/

theorem invoke_of (h : Starts s ring 0x7000 w) (hbusy : s.sessionBusy w.session = false) (hfail : s.sessionFail w.session w.slice = none)
    (hmac : w.macOk (s.sessionAt w.session).key 0x80 = true) (hform : w.invokeForm = true)
    (hallow : attrAllows (s.sessionAt w.session).attr attrInvoke 2 (s.sessionAt w.session).slice w.slice = true)
    (hquota : (s.sliceAt w.slice).coreQuota ≠ 0) (himage : s.rangeOk w.slice (w.field 0x10 8) (w.field 0x18 4) false = true)
    (hin : s.rangeOk w.slice (w.field 0x20 8) (w.field 0x28 4) false = true)
    (hout : s.rangeOk w.slice (w.field 0x30 8) (w.field 0x2C 4) true = true) :
    exec (.invoke ring) s = .next ((s.chargeSession w.session).modWork w.id (fun v => { v with phase := .active 1 })) := by
  obtain ⟨hattr, hslice⟩ := s.chargeSession_sessionAt w.session
  have hrange (a n : Nat) (write : Bool) : (s.chargeSession w.session).rangeOk w.slice a n write = s.rangeOk w.slice a n write := rfl
  have hq : ((s.chargeSession w.session).sliceAt w.slice).coreQuota ≠ 0 := hquota
  refine congrArg Host.Outcome.next ((State.onStart_of h.1 _).trans ((if_neg (by simp [hbusy])).trans ?_))
  unfold State.invokeBody
  rw [hform, if_neg (by decide), State.appletSession_passes hfail hmac]
  dsimp only
  rw [hattr, hslice, hallow, if_neg (by decide), if_neg hq, hrange, hrange, hrange, himage, hin, hout]
  rfl

/-! Assignment and load. -/

/-- The state in which a core takes an invocation. -/
def State.coreTaken (s : State) (c : Nat) (w : Work) : State :=
  ((s.coreMpu c w).setCore c { Core.reset with mode := .loading, inv := some (invocationOf w) }).modWork w.id
    (fun v => { v with phase := .active 2, admitted := some s.now })

/-- Check 6 of an invocation passes only where its entry can be read. -/
theorem State.entryFail_occupied (h : s.entryFail w = none) : (s.allowEntry (w.field 0x1E 2)).occupied = true := by
  cases hocc : (s.allowEntry (w.field 0x1E 2)).occupied with
  | true => rfl
  | false =>
    unfold State.entryFail at h
    dsimp only at h
    rw [hocc, Bool.and_false] at h
    cases hok : s.appletAuthorityOk <;> rw [hok] at h <;> exact absurd h (by simp [firstFail])

theorem State.assignCore_of {c : Nat} (hnext : s.nextInvoke = some w) (hidle : s.idleCore = some c) (hfail : s.entryFail w = none)
    (hcan : s.canRead c = true) (hmail : w.field 0x28 4 = 0)
    (hok : ((s.coreTaken c w).hostRead (.image c) c w.slice .image (w.field 0x10 8) (w.field 0x18 4) false).2 = true) :
    s.assignCore = ((s.coreTaken c w).hostRead (.image c) c w.slice .image (w.field 0x10 8) (w.field 0x18 4) false).1 := by
  unfold State.assignCore
  rw [hnext, hidle]
  dsimp only
  rw [State.readAllow_occupied (State.entryFail_occupied hfail), hfail]
  dsimp only
  rw [hcan, if_neg (by decide)]
  change (if (!((s.coreTaken c w).hostRead (.image c) c w.slice .image (w.field 0x10 8) (w.field 0x18 4) false).2) = true then _ else _) = _
  rw [hok, if_neg (by decide), if_pos hmail]
  rfl

theorem State.coreTaken_of {c : Nat} (hw : s.workAt w.id = some w) : let p := s.coreTaken c w
    (p.coreAt c).mode = .loading ∧ (p.coreAt c).inv = some (invocationOf w) ∧ At p w.id (.active 2) ∧ OtherCores s p c ∧
      p.books = s.books := by
  intro p
  have hc : p.coreAt c = { Core.reset with mode := .loading, inv := some (invocationOf w) } := State.setCore_same _ c _
  exact ⟨congrArg Core.mode hc, congrArg Core.inv hc, At.of_modWork (s := (s.coreMpu c w).setCore c _) hw fun _ => rfl,
    fun k hk => State.setCore_other (s.coreMpu c w) _ hk, rfl⟩

/-- The reads of an image have ended. -/
structure Loads (s : State) (core : Nat) (v : Invocation) (image mailbox : Bytes) : Prop where
  mode : (s.coreAt core).mode = .loading
  inv : (s.coreAt core).inv = some v
  imageLength : image.length = v.imageLen
  mailboxLength : mailbox.length = v.inLen
  reads : s.reads.any (fun r => r.kind == .image core && !r.discard) = true
  arrived : s.reads.all (fun r => r.kind != .image core || r.discard || r.arrives) = true
  form : imageForm image = true
  digest : imageDigest image = (s.allowEntry v.allow).digest

/-- The state without the reads of an image. -/
def State.imageRead (s : State) (core : Nat) : State :=
  { s with reads := s.reads.filter (fun r => r.kind != .image core || r.discard) }

theorem Loads.exec_of {core : Nat} {v : Invocation} {image mailbox : Bytes} (h : Loads s core v image mailbox) :
    exec (.imageLoadComplete core image mailbox) s = .next (
      if (s.allowEntry v.allow).serial == s.appletAuthority.serial then
        (s.imageRead core).setCore core ((s.coreAt core).load_ v image mailbox .ready)
      else ((s.imageRead core).setCore core ((s.coreAt core).load_ v image mailbox .verifying)).bnSubmit
        ((s.imageRead core).imageJob core v image)) := by
  have hform : (!imageForm image) = false := by rw [h.form]; rfl
  have hdigest : (imageDigest image != ((s.imageRead core).allowEntry v.allow).digest) = false := bne_eq_false_iff_eq.mpr h.digest
  refine congrArg Host.Outcome.next ?_
  unfold State.imageLoaded
  dsimp only
  rw [h.inv]
  dsimp only
  rw [h.mode, h.imageLength, h.mailboxLength, h.reads, h.arrived, beq_self_eq_true, beq_self_eq_true, beq_self_eq_true, if_neg (by decide), hform,
    if_neg Bool.false_ne_true]
  change (if (imageDigest image != ((s.imageRead core).allowEntry v.allow).digest) = true then _ else _) = _
  rw [hdigest, if_neg Bool.false_ne_true]
  rfl

/-- A byte of a field that lies within its bytes. -/
theorem getD_bytesAt (b : Bytes) {o n i : Nat} (h : i < n) : (bytesAt b o n).getD i 0 = b.getD (o + i) 0 := by
  unfold bytesAt fit
  by_cases hi : i < (b.drop o).length
  · rw [List.getD_append _ _ _ _ (by rw [List.length_take]; omega)]
    simp only [List.getD_eq_getElem?_getD, List.getElem?_take, List.getElem?_drop, if_pos h]
  · have hlen : b.length ≤ o + i := by
      rw [List.length_drop] at hi
      omega
    have hz : (zeros (n - (b.drop o).length)).getD (i - ((b.drop o).take n).length) 0 = 0 := by
      unfold zeros
      rw [List.getD_eq_getElem?_getD, List.getElem?_replicate]
      split
      · rfl
      · rfl
    rw [List.getD_append_right _ _ _ _ (by rw [List.length_take]; omega), hz, List.getD_eq_default _ _ hlen]

/-- A core that has been loaded: its registers and memories. -/
theorem Core.load_leaves (c : Core) (v : Invocation) (image mailbox : Bytes) (mode : CoreMode) : let d := c.load_ v image mailbox mode
    d.mode = mode ∧ d.pc = BitVec.ofNat 32 (imgEntry image) ∧ d.d = List.replicate 16 imgZero ∧
      d.x = BitVec.ofNat 32 v.inLen :: List.replicate 7 0 ∧ d.f = 0 ∧
      (∀ i, i < imgCodeLen image → tget 0 d.code i = image.getD (64 + i) 0) ∧
      (∀ i, i < imgDataLen image → tget 0 d.data i = image.getD (64 + imgCodeLen image + i) 0) ∧
      ∀ i, i < mailbox.length → tget 0 d.mail i = mailbox.getD i 0 := by
  have hmem (b : Bytes) {i : Nat} (h : i < b.length) : tget 0 (memWrite [] 0 b) i = b.getD i 0 := by
    have hw := memWrite_same (m := []) (a := 0) b h
    rwa [Nat.zero_add] at hw
  refine ⟨rfl, rfl, rfl, rfl, rfl, fun i h => ?_, fun i h => ?_, fun i h => hmem mailbox h⟩
  · exact (hmem _ (by rw [length_bytesAt]; exact h)).trans (getD_bytesAt image h)
  · exact (hmem _ (by rw [length_bytesAt]; exact h)).trans (getD_bytesAt image h)

/-! The verification of an image. -/

theorem exec_imageSignatureVerified {core e : Nat} {v : Invocation} {j : BnJob} (hinv : (s.coreAt core).inv = some v)
    (hj : s.bnEngineOf (fun y => y.use == 3 && y.who == core) = some (e, j)) : exec (.imageSignatureVerified core) s =
      .next (match ((s.bnRetire e).bnOutcome j).1 with
        | .verdict true => ((s.bnRetire e).drawn.markCurrent v j.no).modCore core (fun c => { c with mode := .ready })
        | _ => (s.bnRetire e).drawn.loadFail core 9 .auth) := by
  show execImageSignatureVerified core s = _
  unfold execImageSignatureVerified State.imageVerified
  rw [hinv, hj] <;> rfl

/-- An entry whose signature has become current: the store, its step and the allow-list. -/
theorem State.markCurrent_eq (s : State) (v : Invocation) (serial : Nat) : ∃ nv logs sched allow,
    s.markCurrent v serial = { s with nv := nv, logs := logs, sched := sched, applets := { s.applets with allow := allow } } := by
  unfold State.markCurrent
  dsimp only
  split
  · obtain ⟨nv, logs, h⟩ := foldl_writeEntry_eq (s.recordEntries (recKey partAllow v.allow)
      [.allow v.allow { s.allowEntry v.allow with serial := serial }] []) (s.commitBuffer.takeStep .nv, true)
    unfold State.nvNow
    dsimp only
    split
    · refine ⟨nv, logs, (s.takeStep .nv).sched, tput Allow.reset s.applets.allow v.allow { s.allowEntry v.allow with serial := serial }, ?_⟩
      show State.setAllow _ v.allow { s.allowEntry v.allow with serial := serial } = _
      rw [h]
      rfl
    · exact ⟨nv, logs, (s.takeStep .nv).sched, s.applets.allow, h⟩
  · exact ⟨s.nv, s.logs, s.sched, s.applets.allow, rfl⟩

/-- The verification has passed: the core is ready. -/
theorem imageVerified_ready {core e : Nat} (v : Invocation) (no : Nat) :
    let t := ((s.bnRetire e).drawn.markCurrent v no).modCore core (fun c => { c with mode := .ready })
    (t.coreAt core).mode = .ready ∧ t.bnAt e = (s.bnRetire e).bnAt e ∧ OtherCores s t core ∧ t.books = s.books := by
  intro t
  obtain ⟨crypto, hr⟩ := s.bnRetire_eq e
  obtain ⟨nv, logs, sched, allow, hm⟩ := (s.bnRetire e).drawn.markCurrent_eq v no
  let m := (s.bnRetire e).drawn.markCurrent v no
  have hcores (k : Nat) : m.coreAt k = s.coreAt k := by
    show ((s.bnRetire e).drawn.markCurrent v no).coreAt k = _
    rw [hm, hr]
    rfl
  refine ⟨congrArg Core.mode (m.modCore_same core fun c => { c with mode := .ready }), ?_,
    fun k hk => (m.modCore_other (fun c => { c with mode := .ready }) hk).trans (hcores k), ?_⟩
  · show ((s.bnRetire e).drawn.markCurrent v no).bnAt e = _
    rw [hm]
    rfl
  · show ((s.bnRetire e).drawn.markCurrent v no).books = _
    rw [hm, hr]
    rfl

/-- A load that fails: the invocation is refused, and the core is cleared. -/
theorem State.loadFail_of {core check : Nat} {st : Status} {v : Invocation} (hinv : (s.coreAt core).inv = some v)
    (hw : s.workAt v.work = some w) (hr : w.ring < 65536) (hf : st ≠ .fault) (ht : st ≠ .tamper) : let t := s.loadFail core check st
    Ended t w.id st [BitVec.ofNat 8 check, 0xFF] ∧ t.coreAt core = Core.reset ∧ OtherCores s t core ∧ t.books = s.books := by
  intro t
  have hid : w.id = v.work := by simpa using List.find?_some (p := fun w : Work => w.id == v.work) hw
  have ht' : t = (s.clearCore core).refuse w check st := by
    show s.loadFail core check st = _
    unfold State.loadFail
    rw [hinv]
    dsimp only [Option.bind_some]
    rw [hw]
  obtain ⟨hreset, hothers, hbooks, -⟩ := s.clearCore_of core
  obtain ⟨ends, hsame⟩ := State.refuse_ends (State.clearCore_workAt (hid.symm ▸ hw) hr core) hr check hf ht
  have happlets : ((s.clearCore core).refuse w check st).applets = (s.clearCore core).applets := (congrArg State.applets hsame).trans rfl
  have hcores (k : Nat) : ((s.clearCore core).refuse w check st).coreAt k = (s.clearCore core).coreAt k :=
    congrArg (fun a : Applets => tget Core.reset a.cores k) happlets
  rw [ht']
  exact ⟨ends, (hcores core).trans hreset, fun k hk => (hcores k).trans (hothers k hk),
    ((congrArg State.books hsame).trans rfl).trans hbooks⟩

/-! The budget. -/

theorem exec_budgetTrap {core : Nat} {v : Invocation} (hinv : (s.coreAt core).inv = some v) (hspent : (s.coreAt core).spentBudget = true)
    (hsquash : (s.coreAt core).squash = false) (hgone : s.sliceGone v = false) : exec (.budgetTrap core) s =
      .next ((State.clearCore { s with applets := { s.applets with traps := s.applets.traps + 1 } } core).finish v.work .exhausted
        (trapRecord .budget 0 core (s.coreAt core).pc 0 0)) := by
  refine congrArg Host.Outcome.next ?_
  unfold State.budgetTrap
  dsimp only
  rw [hinv]
  dsimp only
  rw [hspent, hsquash, hgone, if_pos (by decide)]
  unfold State.trapEnd
  rw [hinv]
  rfl

end

/-- Settles O34: each command passes its checks to its one effect; a core is loaded, verified and cleared. -/
theorem invocations : Obligations.Invocations := by
  unfold Obligations.Invocations
  refine ⟨fun s ring w => ⟨fun h ⟨hbusy, hfail, hmac⟩ haux hzero hindex hslice hbeyond hlen hright hauth hocc hfree hrange hcan hok =>
      allowAdd_of h hbusy hfail hmac haux hzero hindex hslice hbeyond hlen hright hauth hocc hfree hrange hcan hok,
    fun h ⟨hbusy, hfail, hmac⟩ haux hzero hindex hright hocc => ?_,
    fun h haux hzero hindex hlen hbeyond hrange hown hcan ho => ?_⟩,
    fun s ring w => ⟨invoke_of, fun c hnext hw hidle hfail hcan hmail hok => ?_,
      fun core v image mailbox hmode hinv himage hmailbox hreads harrived hform hdigest => ⟨fun hserial => ?_, fun hserial => ?_⟩,
      fun core v e j hinv hj => ⟨fun hout => ?_, fun hout u hw hring => ?_⟩,
      fun core v u hinv hspent hsquash hgone hw hring => ?_⟩⟩
  · obtain ⟨hat, ⟨e, he, hkey, himg, hfrozen, hsync⟩, happlets, hbooks, hpages⟩ :=
      State.writeAllow_of (u := s.chargeSession w.session) h.2.1 hindex Allow.reset (zeros 16)
    exact ⟨_, e, allowRemove_of h hbusy hfail hmac haux hzero hindex hright hocc, hat, he, hkey, himg, hfrozen, hsync, happlets, hbooks,
      hpages⟩
  · obtain ⟨z, ends, hout, happlets, hbooks, hkeys⟩ := allowRead_ends h (data := (s.allowEntry (w.field 0x1C 2)).bytes) rfl
    exact ⟨_, z, allowRead_of h haux hzero hindex hlen hbeyond hrange hown hcan ho, ends, hout, happlets, hbooks, hkeys⟩
  · have hok' : ((s.coreTaken c w).hostRead (.image c) c w.slice .image (w.field 0x10 8) (w.field 0x18 4) false).2 = true := hok
    have hi := State.assignCore_of hnext hidle hfail hcan hmail hok'
    obtain ⟨hmode, hinv, hat, hothers, hbooks⟩ := State.coreTaken_of (c := c) hw
    obtain ⟨out, mpus, crypto, r, hread, hr⟩ := State.hostRead_ok hok'
    rw [hread] at hi
    exact ⟨_, congrArg Host.Outcome.next hi, hmode, hinv, hat, hothers, hbooks, r, List.mem_append_right _ (List.mem_singleton.mpr rfl),
      hr.kind, hr.addr, hr.len⟩
  · have hl : Loads s core v image mailbox := ⟨hmode, hinv, himage, hmailbox, hreads, harrived, hform, hdigest⟩
    have hi := hl.exec_of
    rw [if_pos (beq_iff_eq.mpr hserial)] at hi
    have hc := State.setCore_same (s.imageRead core) core ((s.coreAt core).load_ v image mailbox .ready)
    obtain ⟨hready, hpc, hd, hx, hf, hcode, hdata, hmail⟩ := (s.coreAt core).load_leaves v image mailbox .ready
    refine ⟨_, hi, ?_⟩
    rw [hc]
    exact ⟨hready, hpc, hd, hx, hf, hcode, hdata, hmail, fun k hk => State.setCore_other (s.imageRead core) _ hk, rfl, rfl, rfl, rfl, rfl⟩
  · have hl : Loads s core v image mailbox := ⟨hmode, hinv, himage, hmailbox, hreads, harrived, hform, hdigest⟩
    have hi := hl.exec_of
    rw [if_neg fun h => hserial (beq_iff_eq.mp h)] at hi
    let x := (s.imageRead core).setCore core ((s.coreAt core).load_ v image mailbox .verifying)
    obtain ⟨rng, hsub⟩ := x.bnSubmit_eq ((s.imageRead core).imageJob core v image)
    have hc : x.coreAt core = _ := State.setCore_same (s.imageRead core) core ((s.coreAt core).load_ v image mailbox .verifying)
    have hothers : OtherCores s x core := fun k hk => State.setCore_other (s.imageRead core) _ hk
    change exec _ s = .next (x.bnSubmit _) at hi
    rw [hsub] at hi
    exact ⟨_, _, hi, congrArg Core.mode hc, rfl, rfl, rfl, rfl, hothers, rfl, rfl, rfl, rfl, rfl⟩
  · have hi := exec_imageSignatureVerified hinv hj
    rw [hout] at hi
    exact ⟨_, hi, imageVerified_ready v j.no⟩
  · have hid : u.id = v.work := by simpa using List.find?_some (p := fun w : Work => w.id == v.work) hw
    have hi := exec_imageSignatureVerified hinv hj
    rw [hout] at hi
    obtain ⟨crypto, hu⟩ := s.bnRetire_drawn e
    rw [hu] at hi
    exact ⟨_, hi, State.loadFail_of (s := { s with crypto := crypto, draws := s.draws + 1 }) hinv hw hring (by decide) (by decide)⟩
  · have hid : u.id = v.work := by simpa using List.find?_some (p := fun w : Work => w.id == v.work) hw
    let x : State := { s with applets := { s.applets with traps := s.applets.traps + 1 } }
    obtain ⟨hreset, hothers, hbooks, -⟩ := x.clearCore_of core
    have hw' : (x.clearCore core).workAt v.work = some u := State.clearCore_workAt (s := x) hw hring core
    obtain ⟨ends, hsame, -⟩ := State.finish_ends (st := .exhausted) (trapRecord .budget 0 core (s.coreAt core).pc 0 0) hw' hring (by decide)
      (by decide)
    have happlets := (congrArg State.applets hsame).trans rfl
    have hcores (k : Nat) : ((x.clearCore core).finish v.work .exhausted (trapRecord .budget 0 core (s.coreAt core).pc 0 0)).coreAt k =
        (x.clearCore core).coreAt k := congrArg (fun a : Applets => tget Core.reset a.cores k) happlets
    rw [hid]
    exact ⟨_, exec_budgetTrap hinv hspent hsquash hgone, ends, (hcores core).trans hreset, (congrArg Applets.traps happlets).trans rfl,
      fun k hk => (hcores k).trans (hothers k hk), ((congrArg State.books hsame).trans rfl).trans hbooks,
      ((congrArg State.keys hsame).trans rfl).trans rfl⟩

end Sys2Proof.Machine
end

section
/-! SUPPORT. What the store changes of the state where it writes pages, counters and records at once, and how a flush of the
write buffer empties its queue (R470, R475, R478). -/

namespace Sys2Proof.Machine
open Sys2Proof

section
variable {s t u : State}

/-! What the writes of the store leave of the state. -/

/-- Every entry of the queue belongs to a commit. -/
def Nv.Frozen (n : Nv) : Prop := ∀ e ∈ n.queue, e.frozen = true

theorem Nv.Frozen.of_sublist {n m : Nv} (h : n.Frozen) (k : m.queue.Sublist n.queue) : m.Frozen := fun e he => h e (k.subset he)

/-- What a write of the store leaves as it is: power, the tamper monitor, the grain and whether it goes on, the epoch, the root
array with what decides its reconstruction, and the marks of the store. -/
def State.upheld (s : State) : (Power × Tamper × Nat × Bool) × (Nat × Nat × Bytes × Bool × Nat × Option Bytes × Bytes) ×
    (Bool × Bool × Bool × Table Book × Option Nat × Nat) :=
  ((s.pwr, s.tamper, s.sched.grain, s.sched.running),
    (s.keys.epoch, s.keys.epochRec, s.keys.rootArray, s.keys.rootOn, s.keys.haltCode, s.keys.helper, s.keys.cert),
    (s.nv.running, s.nv.wt, s.nv.wtMark, s.nv.saved, s.nv.grainSaved, s.nv.grainRec))

/-- From `s` to `t` the store has been written: no entry has come into its queue. -/
structure Stored (s t : State) : Prop where
  upheld : t.upheld = s.upheld
  frozen : s.nv.Frozen → t.nv.Frozen
  queue : t.nv.queue.length ≤ s.nv.queue.length

theorem Stored.same (h : t.upheld = s.upheld) (hq : t.nv.queue = s.nv.queue) : Stored s t :=
  ⟨h, fun hf => hf.of_sublist (hq ▸ .refl _), hq ▸ Nat.le_refl _⟩

theorem Stored.pwr (h : Stored s t) : t.pwr = s.pwr := congrArg (fun k => k.1.1) h.upheld

theorem Stored.tamper (h : Stored s t) : t.tamper = s.tamper := congrArg (fun k => k.1.2.1) h.upheld

theorem Stored.grain (h : Stored s t) : t.sched.grain = s.sched.grain := congrArg (fun k => k.1.2.2.1) h.upheld

theorem Stored.ticks (h : Stored s t) : t.sched.running = s.sched.running := congrArg (fun k => k.1.2.2.2) h.upheld

theorem Stored.epoch (h : Stored s t) : t.keys.epoch = s.keys.epoch := congrArg (fun k => k.2.1.1) h.upheld

theorem Stored.epochRec (h : Stored s t) : t.keys.epochRec = s.keys.epochRec := congrArg (fun k => k.2.1.2.1) h.upheld

theorem Stored.rootArray (h : Stored s t) : t.keys.rootArray = s.keys.rootArray := congrArg (fun k => k.2.1.2.2.1) h.upheld

theorem Stored.rootOn (h : Stored s t) : t.keys.rootOn = s.keys.rootOn := congrArg (fun k => k.2.1.2.2.2.1) h.upheld

theorem Stored.haltCode (h : Stored s t) : t.keys.haltCode = s.keys.haltCode := congrArg (fun k => k.2.1.2.2.2.2.1) h.upheld

theorem Stored.helper (h : Stored s t) : t.keys.helper = s.keys.helper := congrArg (fun k => k.2.1.2.2.2.2.2.1) h.upheld

theorem Stored.cert (h : Stored s t) : t.keys.cert = s.keys.cert := congrArg (fun k => k.2.1.2.2.2.2.2.2) h.upheld

theorem Stored.running (h : Stored s t) : t.nv.running = s.nv.running := congrArg (fun k => k.2.2.1) h.upheld

theorem Stored.wt (h : Stored s t) : t.nv.wt = s.nv.wt := congrArg (fun k => k.2.2.2.1) h.upheld

theorem Stored.wtMark (h : Stored s t) : t.nv.wtMark = s.nv.wtMark := congrArg (fun k => k.2.2.2.2.1) h.upheld

theorem Stored.saved (h : Stored s t) : t.nv.saved = s.nv.saved := congrArg (fun k => k.2.2.2.2.2.1) h.upheld

theorem Stored.grainSaved (h : Stored s t) : t.nv.grainSaved = s.nv.grainSaved := congrArg (fun k => k.2.2.2.2.2.2.1) h.upheld

theorem Stored.grainRec (h : Stored s t) : t.nv.grainRec = s.nv.grainRec := congrArg (fun k => k.2.2.2.2.2.2.2) h.upheld

theorem Stored.refl (s : State) : Stored s s := .same rfl rfl

theorem Stored.trans (h : Stored s t) (k : Stored t u) : Stored s u :=
  ⟨k.upheld.trans h.upheld, k.frozen ∘ h.frozen, k.queue.trans h.queue⟩

theorem Stored.foldl {α : Type} {f : State → α → State} (hf : ∀ s a, Stored s (f s a)) (l : List α) (s : State) :
    Stored s (l.foldl f s) := by
  induction l generalizing s with
  | nil => exact .refl s
  | cons a l ih => exact (hf s a).trans (ih _)

theorem Stored.empty (h : Stored s t) (hq : s.nv.queue = []) : t.nv.queue = [] :=
  List.eq_nil_of_length_eq_zero (Nat.le_zero.mp (h.queue.trans (by rw [hq]; exact Nat.le_refl 0)))

theorem PagesWritten.stored (h : PagesWritten s t) : Stored s t := by
  obtain ⟨_, _, rfl, -, _, _, _, _, rfl⟩ := h
  exact .same rfl rfl

theorem Nv.frozen_map (l : List WbEntry) : ∀ e ∈ l.map (fun e : WbEntry => { e with frozen := true }), e.frozen = true := by
  intro e he
  obtain ⟨_, _, rfl⟩ := List.mem_map.mp he
  rfl

theorem State.commitBuffer_frozen (s : State) : s.commitBuffer.nv.Frozen := by
  unfold Nv.Frozen
  rw [State.commitBuffer_queue]
  exact Nv.frozen_map _

theorem State.commitBuffer_stored (s : State) : Stored s s.commitBuffer where
  upheld := rfl
  frozen _ := s.commitBuffer_frozen
  queue := by rw [State.commitBuffer_queue, List.length_map]

section
variable (s : State)

theorem State.setSlot_stored (target index : Nat) (k : Slot) : Stored s (s.setSlot target index k) := by
  unfold State.setSlot
  split
  · exact .same rfl rfl
  · exact .same rfl rfl

theorem State.putImage_stored (i : RecImage) : Stored s (s.putImage i) := by
  cases i with
  | user => exact .refl s
  | uses t n u => exact s.setSlot_stored ..
  | material t n m => exact s.setSlot_stored ..
  | slot t n k => exact s.setSlot_stored ..
  | auth n a => exact .same rfl rfl
  | family f n => exact .same rfl rfl
  | allow n a => exact .same rfl rfl
  | passwords p r w => exact .same rfl rfl

theorem State.commitImage_stored (i : RecImage) : Stored s (s.commitImage i) := by
  unfold State.commitImage
  split
  · exact .same rfl rfl
  · exact .same rfl rfl
  · exact s.putImage_stored i

theorem State.nvNow_stored (key : Nat) (img : List RecImage) : Stored s (s.nvNow key img).1 := by
  obtain ⟨t, ht, h⟩ := s.nvNow_of key img
  have hs : Stored s t := by
    refine s.commitBuffer_stored.trans (Stored.trans ?_ ht.stored)
    exact .same rfl rfl
  obtain h | h := h
  · exact h ▸ hs
  · exact h ▸ hs.trans (.foldl State.commitImage_stored img t)

theorem State.nvPut_stored (part rec : Nat) : Stored s (s.nvPut part rec) := s.nvNow_stored _ _

theorem State.storeCounter_stored (n : Nat) : Stored s (s.storeCounter n) := by
  unfold State.storeCounter
  dsimp only
  split
  · exact .refl s
  · refine Stored.trans ?_ (State.writeCounter_pagesWritten _ n).stored
    exact .same rfl rfl

theorem State.storeCounters_stored : Stored s s.storeCounters := .foldl State.storeCounter_stored _ s

theorem State.recordUses_stored : Stored s s.recordUses := .foldl (fun s key => s.nvNow_stored key _) _ s

theorem State.throughAll_stored : Stored s s.throughAll := s.recordUses_stored.trans (.same rfl rfl)

/-! What waited for a page. -/

theorem State.finishRaw_stored (id : Nat) (st : Status) (res : Bytes) : Stored s (s.finishRaw id st res) := by
  obtain ⟨_, _, _, h⟩ := s.finishRaw_eq id st res
  rw [h]
  exact .same rfl rfl

theorem State.dropEntries_stored (p : Entry → Bool) : Stored s (s.dropEntries p) :=
  (Stored.foldl (f := fun s e => s.modBook e.book (fun b => { b with reserved := b.reserved - e.reserved }))
    (fun _ _ => .same rfl rfl) (s.brine.entries.filter p) s).trans (.same rfl rfl)

theorem State.fenceRing_stored (ring cause tag : Nat) : Stored s (s.fenceRing ring cause tag) := by
  unfold State.fenceRing
  split
  · unfold State.refence
    split
    · exact .same rfl rfl
    · exact .refl s
  · refine Stored.trans ?_ (State.dropEntries_stored _ _)
    exact .same rfl rfl

theorem State.finish_stored (id : Nat) (st : Status) (res : Bytes) : Stored s (s.finish id st res) := by
  unfold State.finish
  split
  · exact .refl s
  · dsimp only
    split
    · exact s.finishRaw_stored ..
    split
    · exact (s.finishRaw_stored ..).trans (State.fenceRing_stored ..)
    · exact (s.finishRaw_stored ..).trans (State.fenceRing_stored ..)
    · exact s.finishRaw_stored ..

theorem State.unsent_stored (work : Nat) : Stored s (s.unsent work) := by
  have hsub : (s.unsent work).nv.queue.Sublist s.nv.queue := List.filter_sublist.append List.filter_sublist
  exact ⟨rfl, fun h => h.of_sublist hsub, hsub.length_le⟩

theorem State.waitDone_stored (w : CommitWait) (ok : Bool) : Stored s (s.waitDone w ok) := by
  unfold State.waitDone
  split
  · split
    · exact .same rfl rfl
    · exact .refl s
  · split
    · exact (s.finish_stored ..).trans (State.unsent_stored ..)
    split
    · exact s.finish_stored ..
    · exact .refl s

theorem State.tagWritten_stored (sync : List CommitWait) (ok : Bool) : Stored s (s.tagWritten sync ok) := by
  unfold State.tagWritten
  split
  · exact .refl s
  split
  · exact .refl s
  · exact .same rfl rfl

theorem State.entryDone_stored (e : WbEntry) (ok : Bool) : Stored s (s.entryDone e ok) := by
  unfold State.entryDone
  dsimp only
  refine Stored.trans ?_ ((Stored.foldl (fun s w => s.waitDone_stored w ok) e.sync _).trans (State.tagWritten_stored ..))
  split
  · exact .foldl State.commitImage_stored _ s
  · exact .refl s

theorem State.bufferNext_stored : Stored s s.bufferNext := by
  have hlen : s.bufferNext.nv.queue.length = s.nv.queue.length := by
    have h := congrArg List.length s.bufferNext_pairs
    unfold Nv.pairs at h
    simpa using h
  unfold State.bufferNext at *
  split at hlen
  · exact .refl s
  · next e rest hb =>
    split at hlen
    · next hroom =>
      have hin : ({ s with nv := { s.nv with wbuf := (s.nv.wbuf ++ [e]).take 64, behind := rest, lastWrite := s.now } } : State).nv.queue.Sublist s.nv.queue := by
        have htake := (List.take_sublist 64 (s.nv.wbuf ++ [e])).append_right rest
        unfold Nv.queue
        rw [hb]
        exact htake.trans (by rw [List.append_assoc, List.singleton_append])
      rw [if_pos hroom]
      dsimp only at hlen ⊢
      have hs : Stored s { s with nv := { s.nv with wbuf := (s.nv.wbuf ++ [e]).take 64, behind := rest, lastWrite := s.now } } :=
        ⟨rfl, fun h => h.of_sublist hin, hin.length_le⟩
      split
      · exact hs.trans (State.commitBuffer_stored _)
      · exact hs
    · next hroom =>
      rw [if_neg hroom]
      exact .refl s

/-- The next page write leaves the queue. -/
theorem State.popPage_stored : Stored s s.popPage ∧ s.popPage.nv.queue.length = s.nv.queue.length - 1 := by
  have hlen : s.popPage.nv.queue.length = s.nv.queue.length - 1 := by
    have h := congrArg List.length s.popPage_pairs
    unfold Nv.pairs at h
    simpa using h
  refine ⟨?_, hlen⟩
  unfold State.popPage
  split
  · next e rest hw =>
    have hsub : ({ s.nv with wbuf := rest } : Nv).queue.Sublist s.nv.queue := by
      unfold Nv.queue
      rw [hw]
      exact (List.sublist_cons_self e rest).append_right _
    refine Stored.trans ?_ (State.bufferNext_stored _)
    exact ⟨rfl, fun h => h.of_sublist hsub, hsub.length_le⟩
  · have hsub : ({ s.nv with behind := s.nv.behind.tail } : Nv).queue.Sublist s.nv.queue :=
      (List.tail_sublist _).append_left _
    exact ⟨rfl, fun h => h.of_sublist hsub, hsub.length_le⟩

/-- A page write of a queue all of whose entries belong to a commit takes one of them out. -/
theorem State.pageWrite_stored : Stored s s.pageWrite ∧ (s.nv.Frozen → s.pageWrite.nv.queue.length ≤ s.nv.queue.length - 1) := by
  unfold State.pageWrite
  split
  · next hnext =>
    refine ⟨.refl s, fun hfrozen => ?_⟩
    suffices hq : s.nv.queue = [] by rw [hq]; exact Nat.le_refl 0
    unfold Nv.nextPage at hnext
    unfold Nv.Frozen Nv.queue at *
    split at hnext
    · next e rest hw =>
      rw [hw] at hfrozen
      rw [if_pos (hfrozen e List.mem_cons_self)] at hnext
      contradiction
    · next hw =>
      rw [hw, List.head?_eq_none_iff.mp hnext]
      rfl
  · next e hnext =>
    dsimp only
    have hwrite := (s.writeEntry_pagesWritten e)
    generalize s.writeEntry e = r at hwrite ⊢
    obtain ⟨hpop, hlen⟩ := r.1.popPage_stored
    have hsame : r.1.nv.queue = s.nv.queue := by
      obtain ⟨_, _, h, -, _, _, _, _, rfl⟩ := hwrite
      rw [h]
      rfl
    have hrest (t : State) (waits : List (Nat × Nat)) (ids : List (Nat × Nat)) : Stored t ((ids.foldl
        (fun (s : State) (x : Nat × Nat) => s.finish x.1 (if r.2 then .ok else .fault) [])
        { t with nv := { t.nv with commitWaits := waits } }).entryDone e r.2) := by
      refine Stored.trans ?_ (State.entryDone_stored ..)
      refine Stored.trans ?_ (.foldl (fun s x => s.finish_stored ..) ids _)
      exact .same rfl rfl
    refine ⟨hwrite.stored.trans (hpop.trans (hrest _ _ _)), fun _ => ?_⟩
    refine (hrest _ _ _).queue.trans ?_
    rw [hlen, hsame]

/-- As many page writes as the queue has entries empty it. -/
theorem foldl_pageWrite_stored (l : List Nat) : Stored s (l.foldl (fun s _ => s.pageWrite) s) ∧
    (s.nv.Frozen → s.nv.queue.length ≤ l.length → (l.foldl (fun s _ => s.pageWrite) s).nv.queue = []) := by
  induction l generalizing s with
  | nil => exact ⟨.refl s, fun _ h => List.eq_nil_of_length_eq_zero (Nat.le_zero.mp h)⟩
  | cons a l ih =>
    obtain ⟨hs, hless⟩ := s.pageWrite_stored
    obtain ⟨hrest, hempty⟩ := ih s.pageWrite
    refine ⟨hs.trans hrest, fun hfrozen hlen => hempty (hs.frozen hfrozen) ?_⟩
    have := hless hfrozen
    rw [List.length_cons] at hlen
    omega

theorem State.flushPages_stored : Stored s s.flushPages ∧ s.flushPages.nv.queue = [] := by
  have hlen : s.commitBuffer.nv.queue.length ≤ (List.range (s.nv.wbuf.length + s.nv.behind.length)).length := by
    rw [State.commitBuffer_queue]
    simp [Nv.queue]
  obtain ⟨hs, hempty⟩ := foldl_pageWrite_stored s.commitBuffer (List.range (s.nv.wbuf.length + s.nv.behind.length))
  exact ⟨s.commitBuffer_stored.trans hs, hempty s.commitBuffer_frozen hlen⟩

/-- The entry into write-through, but for its marks. -/
def State.throughStores : State :=
  ((s.flushPages.storeCounters.throughAll.nvPut partHeads recGrain).nvPut partSystem recEpoch).nvPut partHeads recWtMark

theorem State.throughStores_stored : Stored s s.throughStores ∧ s.throughStores.nv.queue = [] := by
  obtain ⟨hflush, hempty⟩ := s.flushPages_stored
  have hrest : Stored s.flushPages s.throughStores :=
    (State.storeCounters_stored _).trans ((State.throughAll_stored _).trans ((State.nvPut_stored _ _ _).trans
      ((State.nvPut_stored _ _ _).trans (State.nvPut_stored _ _ _))))
  exact ⟨hflush.trans hrest, hrest.empty hempty⟩

end
end

/-! Write-through (R480, R564). -/

/-- What a record leaves as it is: counters, books and work, and the length of the buffer. -/
def State.upkeep (s : State) : Table Counter × Table Book × Table Book × Nat × Table Book × List Work :=
  (s.nv.counters, s.nv.bookRecs, s.nv.saved, s.nv.wbuf.length, s.books, s.work)

/-- From `s` to `t` records have been written. -/
structure Upkept (s t : State) : Prop where
  upkeep : t.upkeep = s.upkeep

section
variable {s t u : State}

theorem Upkept.trans (h : Upkept s t) (k : Upkept t u) : Upkept s u := ⟨k.upkeep.trans h.upkeep⟩

theorem Upkept.counters (h : Upkept s t) : t.nv.counters = s.nv.counters := congrArg (fun k => k.1) h.upkeep

theorem Upkept.bookRecs (h : Upkept s t) : t.nv.bookRecs = s.nv.bookRecs := congrArg (fun k => k.2.1) h.upkeep

theorem Upkept.saved (h : Upkept s t) : t.nv.saved = s.nv.saved := congrArg (fun k => k.2.2.1) h.upkeep

theorem Upkept.buffer (h : Upkept s t) : t.nv.wbuf.length = s.nv.wbuf.length := congrArg (fun k => k.2.2.2.1) h.upkeep

theorem Upkept.books (h : Upkept s t) : t.books = s.books := congrArg (fun k => k.2.2.2.2.1) h.upkeep

theorem Upkept.work (h : Upkept s t) : t.work = s.work := congrArg (fun k => k.2.2.2.2.2) h.upkeep

theorem PagesWritten.upkept (h : PagesWritten s t) : Upkept s t := by
  obtain ⟨_, _, rfl, -, _, _, _, _, rfl⟩ := h
  exact ⟨rfl⟩

theorem State.commitBuffer_upkept (s : State) : Upkept s (s.commitBuffer.takeStep .nv) := by
  refine ⟨?_⟩
  unfold State.upkeep
  rw [show (s.commitBuffer.takeStep .nv).nv.wbuf.length = s.nv.wbuf.length from List.length_map _]
  rfl

theorem State.nvPut_upkept (s : State) (part rec : Nat) : Upkept s (s.nvPut part rec) :=
  s.commitBuffer_upkept.trans (s.nvPut_of part rec).upkept

theorem State.putUses_upkept (s : State) (target index uses : Nat) : Upkept s (s.putImage (.uses target index uses)) := by
  unfold State.putImage State.modSlot State.setSlot
  dsimp only
  split
  · exact ⟨rfl⟩
  · exact ⟨rfl⟩

theorem foldl_putUses_upkept {img : List RecImage} (h : ∀ i ∈ img, ∃ target index uses, i = .uses target index uses) (s : State) :
    Upkept s (img.foldl State.commitImage s) := by
  induction img generalizing s with
  | nil => exact ⟨rfl⟩
  | cons i img ih =>
    obtain ⟨target, index, uses, rfl⟩ := h i List.mem_cons_self
    exact (s.putUses_upkept target index uses).trans (ih (fun i hi => h i (List.mem_cons_of_mem _ hi)) _)

theorem State.usesImages_uses (s : State) (key : Nat) : ∀ i ∈ s.usesImages key, ∃ target index uses, i = .uses target index uses := by
  intro i hi
  obtain hi | hi := List.mem_append.mp hi
  · obtain ⟨e, -, rfl⟩ := List.mem_map.mp hi
    exact ⟨_, _, _, rfl⟩
  · obtain ⟨e, -, rfl⟩ := List.mem_map.mp hi
    exact ⟨_, _, _, rfl⟩

theorem State.recordUsesPage_upkept (s : State) (key : Nat) : Upkept s (s.recordUsesPage key) := by
  obtain ⟨t, ht, h⟩ := s.nvNow_of key (s.usesImages key)
  have hs : Upkept s t := s.commitBuffer_upkept.trans ht.upkept
  unfold State.recordUsesPage
  obtain h | h := h
  · exact h ▸ hs
  · exact h ▸ hs.trans (foldl_putUses_upkept (s.usesImages_uses key) t)

theorem State.recordUses_upkept (s : State) : Upkept s s.recordUses :=
  List.foldlRecOn s.usesPages State.recordUsesPage (motive := Upkept s) ⟨rfl⟩ fun t h key _ => h.trans (t.recordUsesPage_upkept key)

theorem State.bookImages_of (h : t.books = s.books) : t.bookImages = s.bookImages :=
  congrArg (fun b : Table Book => tmap Book.reset Book.image (b.filter (fun e => e.2.recorded))) h

/-- The state with a sample of HOLD below 9.5 V. -/
def State.weakened (s : State) (mv : Nat) : State :=
  { s with pwr := { s.pwr with holdOk := false, holdMin := if s.pwr.holdFresh then mv else min s.pwr.holdMin mv, holdFresh := false } }

/-- The marks of write-through. -/
def State.throughMarks (s : State) : State :=
  { s with keys := { s.keys with epochRec := s.keys.epoch },
           nv := { s.nv with wt := true, wtMark := true, storeDue := [], grainRec := s.now / pound * pound } }

theorem State.enterThrough_eq (s : State) : s.enterThrough = s.throughStores.throughMarks := rfl

theorem exec_holdWeak {mv : Nat} (hmv : mv < 9500) (hstarting : s.pwr.starting = true) (hwt : s.nv.wt = false)
    (hrunning : s.nv.running = true) (hflush : s.pwr.flush = none) :
    exec (.holdWeak mv) s = .next (s.weakened mv).enterThrough := by
  refine congrArg Host.Outcome.next ((if_neg (by simp [hstarting, hmv])).trans ?_)
  exact if_neg (by simp [hwt, hrunning, hflush])

theorem holdWeak_of {mv : Nat} (hmv : mv < 9500) (hstarting : s.pwr.starting = true) (hwt : s.nv.wt = false)
    (hrunning : s.nv.running = true) (hflush : s.pwr.flush = none) :
    ∃ t, exec (.holdWeak mv) s = .next t ∧ t.nv.wt = true ∧ t.nv.wtMark = true ∧ t.nv.wbuf = [] ∧ t.nv.behind = [] ∧
      t.nv.storeDue = [] ∧ t.pwr.holdOk = false ∧ t.nv.grainRec = s.now / 5760 * 5760 ∧ t.keys.epochRec = s.keys.epoch ∧
      t.keys.epoch = s.keys.epoch ∧ t.now = s.now := by
  obtain ⟨hstored, hempty⟩ := (s.weakened mv).throughStores_stored
  obtain ⟨hbuf, hbehind⟩ := List.append_eq_nil_iff.mp hempty
  refine ⟨_, exec_holdWeak hmv hstarting hwt hrunning hflush, ?_⟩
  rw [State.enterThrough_eq]
  refine ⟨rfl, rfl, hbuf, hbehind, rfl, congrArg Power.holdOk hstored.pwr, ?_, hstored.epoch, hstored.epoch, hstored.grain⟩
  exact congrArg (fun g => g / 5760 * 5760) hstored.grain

theorem exec_writeThroughExit (hstarting : s.pwr.starting = true) (hwt : s.nv.wt = true) (hflush : s.pwr.flush = none) :
    exec .writeThroughExit s = .next
      (let t := (State.throughAll { s with pwr := { s.pwr with holdOk := true } }).nvPut partHeads recWtMark
       { t with nv := { t.nv with wt := false, wtMark := false } }) := by
  refine congrArg Host.Outcome.next ((if_neg (by simp [hstarting])).trans ?_)
  exact if_neg (by simp [hwt, hflush])

theorem writeThroughExit_of (hstarting : s.pwr.starting = true) (hwt : s.nv.wt = true) (hflush : s.pwr.flush = none) :
    ∃ t, exec .writeThroughExit s = .next t ∧ t.nv.wt = false ∧ t.nv.wtMark = false ∧ t.pwr.holdOk = true ∧
      t.nv.bookRecs = s.bookImages ∧ t.nv.counters = s.nv.counters ∧ t.books = s.books ∧ t.work = s.work := by
  have huses := State.recordUses_upkept { s with pwr := { s.pwr with holdOk := true } }
  have hput := State.nvPut_upkept (State.throughAll { s with pwr := { s.pwr with holdOk := true } }) partHeads recWtMark
  have hstored := (State.throughAll_stored { s with pwr := { s.pwr with holdOk := true } }).trans
    (State.nvPut_stored _ partHeads recWtMark)
  exact ⟨_, exec_writeThroughExit hstarting hwt hflush, rfl, rfl, congrArg Power.holdOk hstored.pwr,
    hput.bookRecs.trans (State.bookImages_of huses.books), hput.counters.trans huses.counters,
    hput.books.trans huses.books, hput.work.trans huses.work⟩

theorem grainRecord_of (hrunning : s.sched.running = true) (hdue : s.nv.grainRec + 4096 * 5760 ≤ s.now) :
    ∃ t, exec .grainRecord s = .next t ∧ t.nv.grainRec = s.now / 5760 * 5760 ∧ t.nv.counters = s.nv.counters ∧
      t.nv.bookRecs = s.nv.bookRecs ∧ t.nv.saved = s.nv.saved ∧ t.nv.wbuf.length = s.nv.wbuf.length ∧
      t = { s with nv := t.nv, sched := t.sched, logs := t.logs } := by
  have hput := s.nvPut_upkept partHeads recGrain
  have hgrain := (s.nvPut_stored partHeads recGrain).grain
  obtain ⟨nv, logs, sched, h⟩ := s.nvPut_eq partHeads recGrain
  have hpound : pound = 5760 := rfl
  have hi : exec .grainRecord s = .next
      (let t := s.nvPut partHeads recGrain
       { t with nv := { t.nv with grainRec := t.now / pound * pound } }) := by
    refine congrArg Host.Outcome.next (if_neg ?_)
    simp [hrunning, hpound, hdue]
  refine ⟨_, hi, congrArg (fun g => g / 5760 * 5760) hgrain, hput.counters, hput.bookRecs, hput.saved, hput.buffer, ?_⟩
  dsimp only
  rw [h]

end

/-- Settles O26: the flush of the write buffer empties its queue, and the records that follow bring nothing into it. -/
theorem writeThrough : Obligations.WriteThrough := by
  unfold Obligations.WriteThrough
  intro s
  exact ⟨fun mv => holdWeak_of, writeThroughExit_of, grainRecord_of⟩

end Sys2Proof.Machine
end

section
/-! SUPPORT. The steps of the start-up (R561 to R567): what stands from the root to the end of step 4, and the key sweep. -/

namespace Sys2Proof.Machine
open Sys2Proof

/-! A flush of the write buffer. -/

/-- From `s` to `t` entries of the write buffer have been written: the records of the books stand, and when no work stands, none
has come and the books are as they were. -/
structure Flushed (s t : State) : Prop where
  recs : t.nv.bookRecs = s.nv.bookRecs
  idle : s.work = [] → t.work = [] ∧ t.books = s.books

section
variable {s t u : State}

theorem Flushed.same (hr : t.nv.bookRecs = s.nv.bookRecs) (hw : t.work = s.work) (hb : t.books = s.books) : Flushed s t :=
  ⟨hr, fun h => ⟨hw.trans h, hb⟩⟩

theorem Flushed.refl (s : State) : Flushed s s := .same rfl rfl rfl

theorem Flushed.trans (h : Flushed s t) (k : Flushed t u) : Flushed s u where
  recs := k.recs.trans h.recs
  idle hs := by
    obtain ⟨hw, hb⟩ := h.idle hs
    obtain ⟨kw, kb⟩ := k.idle hw
    exact ⟨kw, kb.trans hb⟩

theorem Flushed.foldl {α : Type} {f : State → α → State} (hf : ∀ s a, Flushed s (f s a)) (l : List α) (s : State) :
    Flushed s (l.foldl f s) := by
  induction l generalizing s with
  | nil => exact .refl s
  | cons a l ih => exact (hf s a).trans (ih _)

section
variable (s : State)

theorem State.dropEntries_nv (p : Entry → Bool) : (s.dropEntries p).nv = s.nv :=
  List.foldlRecOn (motive := fun t : State => t.nv = s.nv) (s.brine.entries.filter p) _ rfl fun _ h _ _ => h

theorem State.fenceRing_nv (ring cause tag : Nat) : (s.fenceRing ring cause tag).nv = s.nv := by
  unfold State.fenceRing
  split
  · unfold State.refence
    split
    · rfl
    · rfl
  · exact State.dropEntries_nv _ _

theorem State.finishRaw_nv (id : Nat) (st : Status) (res : Bytes) : (s.finishRaw id st res).nv = s.nv := by
  obtain ⟨_, _, _, h⟩ := s.finishRaw_eq id st res
  rw [h]

theorem State.finish_nv (id : Nat) (st : Status) (res : Bytes) : (s.finish id st res).nv = s.nv := by
  unfold State.finish
  split
  · rfl
  · dsimp only
    split
    · exact s.finishRaw_nv ..
    split
    · exact (State.fenceRing_nv ..).trans (s.finishRaw_nv ..)
    · exact (State.fenceRing_nv ..).trans (s.finishRaw_nv ..)
    · exact s.finishRaw_nv ..

theorem State.finish_flushed (id : Nat) (st : Status) (res : Bytes) : Flushed s (s.finish id st res) where
  recs := congrArg Nv.bookRecs (s.finish_nv id st res)
  idle h := by
    have hnone : s.workAt id = none := by rw [State.workAt, h]; rfl
    unfold State.finish
    rw [hnone]
    exact ⟨h, rfl⟩

theorem State.setSlot_flushed (target index : Nat) (k : Slot) : Flushed s (s.setSlot target index k) := by
  unfold State.setSlot
  split
  · exact .same rfl rfl rfl
  · exact .same rfl rfl rfl

theorem State.commitImage_flushed (i : RecImage) : Flushed s (s.commitImage i) := by
  cases i with
  | uses t n u => exact s.setSlot_flushed ..
  | material t n m => exact s.setSlot_flushed ..
  | user => exact .refl s
  | slot t n k => exact .same rfl rfl rfl
  | auth n a => exact .same rfl rfl rfl
  | family f n => exact .same rfl rfl rfl
  | allow n a => exact .same rfl rfl rfl
  | passwords p r w => exact .same rfl rfl rfl

theorem State.waitDone_flushed (w : CommitWait) (ok : Bool) : Flushed s (s.waitDone w ok) := by
  unfold State.waitDone
  split
  · split
    · exact .same rfl rfl rfl
    · exact .refl s
  · split
    · exact (s.finish_flushed ..).trans (.same rfl rfl rfl)
    split
    · exact s.finish_flushed ..
    · exact .refl s

theorem State.entryDone_flushed (e : WbEntry) (ok : Bool) : Flushed s (s.entryDone e ok) := by
  obtain ⟨hnv, hwork, hbooks⟩ := (e.sync.foldl (fun (s : State) w => s.waitDone w ok)
    (if ok then e.img.foldl State.commitImage s else s)).tagWritten_leaves e.sync ok
  refine Flushed.trans ?_ (.same (congrArg Nv.bookRecs hnv) hwork hbooks)
  refine Flushed.trans ?_ (.foldl (fun s w => s.waitDone_flushed w ok) _ _)
  split
  · exact .foldl State.commitImage_flushed _ s
  · exact .refl s

theorem State.pageWrite_flushed : Flushed s s.pageWrite := by
  unfold State.pageWrite
  split
  · exact .refl s
  · next e _ =>
    have hwrite : Flushed s (s.writeEntry e).1 := by
      obtain ⟨_, _, h, -, _, _, _, _, rfl⟩ := s.writeEntry_pagesWritten e
      rw [h]
      exact .same rfl rfl rfl
    obtain ⟨_, _, _, hpop⟩ := (s.writeEntry e).1.popPage_eq
    refine Flushed.trans ?_ (State.entryDone_flushed ..)
    refine Flushed.trans ?_ (.foldl (fun s x => s.finish_flushed ..) _ _)
    refine hwrite.trans ?_
    dsimp only
    rw [hpop]
    exact .same rfl rfl rfl

theorem State.flushPages_flushed : Flushed s s.flushPages := by
  refine Flushed.trans (t := s.commitBuffer) ?_ (.foldl (fun s _ => s.pageWrite_flushed) _ _)
  exact .same rfl rfl rfl

end
end

/-! The root (R374 to R376). -/

/-- Whether the root comes depends on the helper data, the certificate and the code before. -/
theorem KeyStore.reconstruct_haltCode {k l : KeyStore} (hhelper : l.helper = k.helper) (hcert : l.cert = k.cert)
    (hcode : l.haltCode = k.haltCode) (array : Bytes) : (l.reconstruct array).haltCode = (k.reconstruct array).haltCode := by
  simp only [KeyStore.reconstruct, KeyStore.rootOff, KeyStore.fromArray, hhelper, hcert]
  split
  · rfl
  · split
    · rfl
    · split
      · exact hcode
      · exact hcode

theorem KeyStore.reconstruct_epochRec (k : KeyStore) (array : Bytes) : (k.reconstruct array).epochRec = k.epochRec := by
  simp only [KeyStore.reconstruct, KeyStore.rootOff, KeyStore.fromArray]
  split
  · rfl
  · split
    · rfl
    · split
      · rfl
      · rfl

/-! What the end of an erasure leaves (R408, R509). -/

/-- What a start-up works on: power, the events that wait, the epoch recorded, the root array, the marks and records of the store,
the books. -/
def State.enduring (s : State) : Power × (LcState × List HeldEvent × Option (Nat × Nat × Nat) × Bool) ×
    (Nat × Bytes × Bool) × (Bool × Bool × Bool × Table Book × Table Book × Option Nat × Nat) × Table Book :=
  (s.pwr, (s.tamper.state, s.tamper.held, s.tamper.flushEvent, s.tamper.latch),
    (s.keys.epochRec, s.keys.rootArray, s.keys.rootOn),
    (s.nv.running, s.nv.wt, s.nv.wtMark, s.nv.saved, s.nv.bookRecs, s.nv.grainSaved, s.nv.grainRec), s.books)

/-- From `s` to `t` all of that has endured. -/
structure Endures (s t : State) : Prop where
  pwr : t.pwr = s.pwr
  state : t.tamper.state = s.tamper.state
  held : t.tamper.held = s.tamper.held
  flushEvent : t.tamper.flushEvent = s.tamper.flushEvent
  latch : t.tamper.latch = s.tamper.latch
  epochRec : t.keys.epochRec = s.keys.epochRec
  rootArray : t.keys.rootArray = s.keys.rootArray
  rootOn : t.keys.rootOn = s.keys.rootOn
  running : t.nv.running = s.nv.running
  wt : t.nv.wt = s.nv.wt
  wtMark : t.nv.wtMark = s.nv.wtMark
  saved : t.nv.saved = s.nv.saved
  bookRecs : t.nv.bookRecs = s.nv.bookRecs
  grainSaved : t.nv.grainSaved = s.nv.grainSaved
  grainRec : t.nv.grainRec = s.nv.grainRec
  books : t.books = s.books

theorem Endures.of_eq {s t : State} (h : t.enduring = s.enduring) : Endures s t where
  pwr := congrArg (fun k => k.1) h
  state := congrArg (fun k => k.2.1.1) h
  held := congrArg (fun k => k.2.1.2.1) h
  flushEvent := congrArg (fun k => k.2.1.2.2.1) h
  latch := congrArg (fun k => k.2.1.2.2.2) h
  epochRec := congrArg (fun k => k.2.2.1.1) h
  rootArray := congrArg (fun k => k.2.2.1.2.1) h
  rootOn := congrArg (fun k => k.2.2.1.2.2) h
  running := congrArg (fun k => k.2.2.2.1.1) h
  wt := congrArg (fun k => k.2.2.2.1.2.1) h
  wtMark := congrArg (fun k => k.2.2.2.1.2.2.1) h
  saved := congrArg (fun k => k.2.2.2.1.2.2.2.1) h
  bookRecs := congrArg (fun k => k.2.2.2.1.2.2.2.2.1) h
  grainSaved := congrArg (fun k => k.2.2.2.1.2.2.2.2.2.1) h
  grainRec := congrArg (fun k => k.2.2.2.1.2.2.2.2.2.2) h
  books := congrArg (fun k => k.2.2.2.2) h

/-- HTM_GRAIN resumes from the records of the grain. -/
theorem Endures.resume {s t : State} (h : Endures s t) : t.nv.resume = s.nv.resume := by
  unfold Nv.resume
  rw [h.grainSaved, h.grainRec]

theorem PagesWritten.enduring {s t : State} (h : PagesWritten s t) : t.enduring = s.enduring := by
  obtain ⟨_, _, rfl, -, _, _, _, _, rfl⟩ := h
  rfl

theorem State.nvPut_enduring (s : State) (part rec : Nat) : (s.nvPut part rec).enduring = s.enduring :=
  (s.nvPut_of part rec).enduring.trans rfl

theorem Nv.wipe_of (n : Nv) (spent : Bool) : ∃ wbuf behind, Nv.Paged { n with wbuf := wbuf, behind := behind } (n.wipe spent) := by
  unfold Nv.wipe
  dsimp only
  refine ⟨_, _, List.foldlRecOn _ _ (motive := Nv.Paged _) (.refl _) fun m h p _ => ?_⟩
  split
  · exact h.trans (m.writePhys_paged ..)
  · exact h

theorem State.destroyKeys_enduring (s : State) : s.destroyKeys.enduring = s.enduring := by
  obtain ⟨_, _, _, _, _, _, hwipe⟩ := s.nv.wipe_of (s.tamper.state == .spent)
  unfold State.destroyKeys
  dsimp only
  rw [hwipe]
  split
  · rfl
  · rfl

theorem State.finishErasure_endures (s : State) : Endures s s.finishErasure := by
  refine .of_eq ?_
  unfold State.finishErasure
  split
  · rfl
  · exact (State.nvPut_enduring _ _ _).trans (Eq.trans rfl s.destroyKeys_enduring)

/-! Step 4: the restore and what runs behind it (R13, R477, R501 to R506, R567). -/

/-- What has begun with the start: power and its step, grain, running mark, epoch, the root array. -/
def State.begun (s : State) : (Bool × Nat) × (Nat × Bool × Bool) × (Nat × Bytes × Bool) :=
  ((s.pwr.starting, s.pwr.step), (s.sched.grain, s.sched.running, s.nv.running), (s.keys.epoch, s.keys.rootArray, s.keys.rootOn))

section
variable {s t u : State}

theorem Quiet.begun (h : Quiet s t) : t.begun = s.begun := by
  unfold State.begun
  rw [h.pwr, h.grain, h.ticks, h.mark, h.keys]

theorem Stored.begun (h : Stored s t) : t.begun = s.begun := by
  unfold State.begun
  rw [h.pwr, h.grain, h.ticks, h.running, h.epoch, h.rootArray, h.rootOn]

variable (s)

theorem State.enterThrough_begun : s.enterThrough.begun = s.begun :=
  Eq.trans (by rw [State.enterThrough_eq]; rfl) s.throughStores_stored.1.begun

theorem State.destroyKeys_begun : s.destroyKeys.begun = s.begun := by
  obtain ⟨_, _, _, _, _, _, hwipe⟩ := s.nv.wipe_of (s.tamper.state == .spent)
  unfold State.destroyKeys
  dsimp only
  rw [hwipe]
  split
  · rfl
  · rfl

theorem State.changeState_begun (target : LcState) (cause num : Nat) (work : Option Nat) (byTamper : Bool) :
    (s.changeState target cause num work byTamper).begun = s.begun := by
  obtain ⟨v, rng, hv, -, h⟩ := s.changeState_eq target cause num work byTamper
  rw [h]
  exact (State.destroyKeys_begun v.rngLifeCycle).trans hv.begun

theorem State.severe_begun (level : Nat) (e : TamperEvent) : (s.severe level e).begun = s.begun := by
  unfold State.severe
  dsimp only
  split
  · rfl
  split
  · exact (apply_ite State.begun _ _ _).trans (ite_self _)
  split
  · rfl
  split
  · exact State.changeState_begun ..
  · rfl

theorem State.startTasks_eq : ∃ deadline, s.startTasks = { s with sched := { s.sched with deadline := deadline } } :=
  List.foldlRecOn (motive := fun t => ∃ deadline, t = { s with sched := { s.sched with deadline := deadline } }) (List.range 6) _
    ⟨_, rfl⟩ fun _ ⟨_, ht⟩ _ _ => ⟨_, by rw [ht]; rfl⟩

/-- The units that start: the contactless unit and the random unit, with the deadlines of the tasks. -/
theorem State.startUnits_eq : ∃ cl rng deadline,
    let t : State := { s with cl := cl, rng := rng, sched := { s.sched with deadline := deadline } }
    s.startUnits = if s.pwr.holdOk then t else t.enterThrough := by
  obtain ⟨deadline, h⟩ := State.startTasks_eq { s with
    cl := { s.cl with mode := if s.tamper.state == LcState.blank then ClMode.off else ClMode.tag },
    rng := { s.rng with started := some s.now } }
  unfold State.startUnits
  dsimp only
  rw [h]
  exact ⟨_, _, deadline, rfl⟩

theorem State.startUnits_begun : s.startUnits.begun = s.begun := by
  obtain ⟨_, _, _, h⟩ := s.startUnits_eq
  rw [h]
  split
  · rfl
  · exact State.enterThrough_begun _

theorem State.actHeld_begun : s.actHeld.begun = s.begun := by
  unfold State.actHeld
  dsimp only
  split
  · rfl
  split
  · exact State.changeState_begun ..
  · rfl

theorem State.batteryStart_begun (lost : Bool) : (s.batteryStart lost).begun = s.begun := by
  unfold State.batteryStart
  dsimp only
  split
  · exact (State.severe_begun ..).trans rfl
  split
  · rfl
  split
  · exact State.severe_begun ..
  · rfl

theorem State.lostFlush_begun : s.lostFlush.begun = s.begun := by
  unfold State.lostFlush
  dsimp only
  split
  · rfl
  split
  · exact State.severe_begun ..
  · rfl

theorem Nv.scan_eq (n : Nv) : ∃ pages, n.scan = { n with pages := pages } :=
  List.foldlRecOn (motive := fun m => ∃ pages, m = { n with pages := pages }) _ (fun (m : Nv) (e : Nat × NvPage) => m.freePage e.1)
    ⟨_, rfl⟩ fun _ hm _ _ => by
      obtain ⟨_, rfl⟩ := hm
      exact ⟨_, rfl⟩

/-- The restore of step 4. -/
structure Restored (s t : State) : Prop where
  begun : t.begun = ((s.pwr.starting, s.pwr.step), (s.nv.resume, true, true), (s.keys.epochRec + 1, s.keys.rootArray, s.keys.rootOn))
  books : t.books = s.nv.books
  tamper : t.tamper = s.tamper
  hold : t.pwr.holdOk = s.pwr.holdOk
  wt : t.nv.wt = s.nv.wt
  lost : t.nv.flushLost = s.nv.lost

theorem PagesWritten.restored {v : State} (h : Restored s t) (k : PagesWritten (t.commitBuffer.takeStep .nv) v) : Restored s v := by
  obtain ⟨_, _, rfl, -, _, _, _, _, rfl⟩ := k
  exact ⟨h.begun, h.books, h.tamper, h.hold, h.wt, h.lost⟩

theorem State.restore_restored : Restored s s.restore := by
  obtain ⟨pages, h⟩ := s.nv.scan_eq
  unfold State.restore
  rw [h]
  refine PagesWritten.restored _ (PagesWritten.restored _ ?_ (State.nvPut_of _ partSystem recEpoch)) (State.nvPut_of _ partHeads recSaved)
  exact ⟨rfl, rfl, rfl, rfl, rfl, rfl⟩

/-- Steps 3 and 4 of the start-up. -/
theorem State.stepFour_begun (lost : Bool) : (s.stepFour lost).begun =
    ((s.pwr.starting, 4), (s.nv.resume, true, true), (s.keys.epochRec + 1, s.keys.rootArray, s.keys.rootOn)) := by
  have herased := s.finishErasure_endures
  have hrest := s.finishErasure.restore_restored.begun
  rw [herased.resume, herased.pwr, herased.epochRec, herased.rootArray, herased.rootOn] at hrest
  unfold State.stepFour
  dsimp only
  rw [State.lostFlush_begun, State.batteryStart_begun, State.actHeld_begun, State.startUnits_begun]
  exact congrArg (fun b : (Bool × Nat) × (Nat × Bool × Bool) × (Nat × Bytes × Bool) => ((b.1.1, 4), b.2)) hrest

/-- Where nothing has happened, step 4 leaves the restored books and the monitor. -/
theorem State.stepFour_calm (hheld : s.tamper.held = []) (hevent : s.tamper.flushEvent = none) (hlatch : s.tamper.latch = false)
    (hlost : s.nv.lost = false) (hhold : s.pwr.holdOk = true) :
    (s.stepFour false).books = s.nv.books ∧ (s.stepFour false).tamper.state = s.tamper.state ∧ (s.stepFour false).nv.wt = s.nv.wt := by
  have herased := s.finishErasure_endures
  have hrestored := s.finishErasure.restore_restored
  have hbooks : s.finishErasure.nv.books = s.nv.books := by
    unfold Nv.books
    rw [herased.running, herased.bookRecs, herased.saved]
  have hnolost : s.finishErasure.restore.nv.flushLost = false := by
    refine hrestored.lost.trans (Eq.trans ?_ hlost)
    unfold Nv.lost
    rw [herased.running, herased.wtMark]
  have hok : s.finishErasure.restore.pwr.holdOk = true :=
    hrestored.hold.trans ((congrArg Power.holdOk herased.pwr).trans hhold)
  have hnone : s.finishErasure.restore.tamper.held = [] :=
    (congrArg Tamper.held hrestored.tamper).trans (herased.held.trans hheld)
  have hquiet : s.finishErasure.restore.tamper.flushEvent = none :=
    (congrArg Tamper.flushEvent hrestored.tamper).trans (herased.flushEvent.trans hevent)
  have hunlatched : s.finishErasure.restore.tamper.latch = false :=
    (congrArg Tamper.latch hrestored.tamper).trans (herased.latch.trans hlatch)
  obtain ⟨cl, rng, deadline, hunits⟩ := State.startUnits_eq { s.finishErasure.restore with
    pwr := { s.finishErasure.restore.pwr with step := 4 } }
  dsimp only at hunits
  rw [if_pos hok] at hunits
  unfold State.stepFour
  dsimp only
  rw [hunits]
  unfold State.actHeld
  dsimp only
  rw [hnone, hquiet]
  unfold State.batteryStart
  dsimp only
  rw [hunlatched]
  unfold State.lostFlush
  dsimp only [List.append_nil, List.filter_nil, List.head?_nil]
  rw [if_pos (by simp [hnolost])]
  exact ⟨hrestored.books.trans hbooks,
    (congrArg Tamper.state hrestored.tamper).trans herased.state,
    hrestored.wt.trans herased.wt⟩

/-! START_UP (R561 to R564). -/

/-- The device with main power back and its write buffer stored. -/
def State.powered (mv : Nat) : State := s.flushPages.powerUp mv

/-- The same with the root reconstructed, or not. -/
def State.rooted (array : Bytes) (mv : Nat) : State := { s.powered mv with keys := s.flushPages.keys.reconstruct array }

variable {s}

theorem State.startUp_root {array : Bytes} {mv : Nat} {lost : Bool} (hoff : s.pwr.starting = false) (hflush : s.pwr.flush = none)
    (hspent : s.tamper.state ≠ .spent) (hblank : s.tamper.state ≠ .blank) :
    s.startUp array mv lost = if (s.rooted array mv).halted then (s.rooted array mv).startHalted else (s.rooted array mv).stepFour lost := by
  have hstate : (s.powered mv).tamper.state = s.tamper.state := congrArg Tamper.state s.flushPages_stored.1.tamper
  unfold State.startUp
  rw [if_neg (by simp [hoff, hflush])]
  dsimp only
  have hlives : (s.flushPages.powerUp mv).tamper.state ≠ .spent := hstate ▸ hspent
  have hissued : ((s.flushPages.powerUp mv).tamper.state == .blank) = false := beq_false_of_ne (hstate ▸ hblank)
  rw [if_neg (by simpa using hlives), hissued]
  rfl

theorem State.startUp_spent {array : Bytes} {mv : Nat} {lost : Bool} (hoff : s.pwr.starting = false) (hflush : s.pwr.flush = none)
    (hspent : s.tamper.state = .spent) : s.startUp array mv lost = (s.powered mv).startSpent := by
  have hstate : (s.powered mv).tamper.state = s.tamper.state := congrArg Tamper.state s.flushPages_stored.1.tamper
  unfold State.startUp
  rw [if_neg (by simp [hoff, hflush])]
  dsimp only
  exact if_pos (by simpa [State.powered] using hstate.trans hspent)

theorem State.rooted_haltCode (array : Bytes) (mv : Nat) : (s.rooted array mv).keys.haltCode = (s.keys.reconstruct array).haltCode :=
  KeyStore.reconstruct_haltCode s.flushPages_stored.1.helper s.flushPages_stored.1.cert s.flushPages_stored.1.haltCode array

theorem State.powered_resume (mv : Nat) : (s.powered mv).nv.resume = s.nv.resume := by
  obtain ⟨hstored, -⟩ := s.flushPages_stored
  show s.flushPages.nv.resume = s.nv.resume
  unfold Nv.resume
  rw [hstored.grainSaved, hstored.grainRec]

theorem startUp_root_of {array : Bytes} {mv : Nat} {lost : Bool} (hoff : s.pwr.starting = false) (hflush : s.pwr.flush = none)
    (hspent : s.tamper.state ≠ .spent) (hblank : s.tamper.state ≠ .blank) (hcode : (s.keys.reconstruct array).haltCode = 0) :
    ∃ t, exec (.startUp array mv lost) s = .next t ∧ t.pwr.starting = true ∧ t.pwr.step = 4 ∧
      t.now = s.nv.resume ∧ t.sched.running = true ∧ t.nv.running = true ∧ t.keys.epoch = s.keys.epochRec + 1 ∧
      t.keys.rootArray = zeros 4096 ∧ t.keys.rootOn = false ∧
      (s.tamper.held = [] → s.tamper.flushEvent = none → s.tamper.latch = false → s.nv.lost = false → 9500 ≤ mv →
        lost = false → t.books = s.nv.books ∧ t.tamper.state = s.tamper.state ∧ t.nv.wt = s.nv.wt) := by
  have hgo : (s.rooted array mv).halted = false := by
    unfold State.halted
    rw [State.rooted_haltCode, hcode]
    rfl
  have hi : s.startUp array mv lost = (s.rooted array mv).stepFour lost := by
    rw [State.startUp_root hoff hflush hspent hblank, if_neg (by simp [hgo])]
  obtain ⟨hstored, -⟩ := s.flushPages_stored
  have hbegun := (s.rooted array mv).stepFour_begun lost
  have hepoch : (s.rooted array mv).keys.epochRec = s.keys.epochRec := (KeyStore.reconstruct_epochRec _ array).trans hstored.epochRec
  rw [hepoch, show (s.rooted array mv).nv.resume = s.nv.resume from State.powered_resume mv] at hbegun
  refine ⟨_, congrArg Host.Outcome.next hi, congrArg (fun k => k.1.1) hbegun, congrArg (fun k => k.1.2) hbegun,
    congrArg (fun k => k.2.1.1) hbegun, congrArg (fun k => k.2.1.2.1) hbegun, congrArg (fun k => k.2.1.2.2) hbegun,
    congrArg (fun k => k.2.2.1) hbegun, congrArg (fun k => k.2.2.2.1) hbegun, congrArg (fun k => k.2.2.2.2) hbegun, ?_⟩
  intro hheld hevent hlatch hlost hmv hbattery
  subst hbattery
  have hnolost : (s.rooted array mv).nv.lost = false := by
    show s.flushPages.nv.lost = false
    unfold Nv.lost at *
    rw [hstored.running, hstored.wtMark, hlost]
  have hsame : (s.rooted array mv).nv.books = s.nv.books := by
    show s.flushPages.nv.books = s.nv.books
    unfold Nv.books
    rw [hstored.running, s.flushPages_flushed.recs, hstored.saved]
  obtain ⟨hbooks, hstate, hwt⟩ := (s.rooted array mv).stepFour_calm ((congrArg Tamper.held hstored.tamper).trans hheld)
    ((congrArg Tamper.flushEvent hstored.tamper).trans hevent) ((congrArg Tamper.latch hstored.tamper).trans hlatch) hnolost
    (decide_eq_true hmv)
  exact ⟨hbooks.trans hsame, hstate.trans (congrArg Tamper.state hstored.tamper), hwt.trans hstored.wt⟩

theorem startUp_halted_of {array : Bytes} {mv : Nat} {lost : Bool} (hoff : s.pwr.starting = false) (hflush : s.pwr.flush = none)
    (hspent : s.tamper.state ≠ .spent) (hblank : s.tamper.state ≠ .blank) (hcode : (s.keys.reconstruct array).haltCode ≠ 0)
    (hheld : ∀ h ∈ s.tamper.held, h.level ≠ 4) :
    ∃ t, exec (.startUp array mv lost) s = .next t ∧ t.pwr.step = 2 ∧ t.halted = true ∧ t.tamper.state = s.tamper.state ∧
      t.cl.mode = .off ∧ t.keys.rootArray = zeros 4096 ∧ t.keys.rootOn = false ∧ (s.work = [] → t.books = s.books) := by
  have hstop : (s.rooted array mv).halted = true := by
    unfold State.halted
    rw [State.rooted_haltCode]
    simpa using hcode
  obtain ⟨hstored, -⟩ := s.flushPages_stored
  have hnone : (s.rooted array mv).tamper.held.find? (fun h => h.level == 4) = none := by
    rw [show (s.rooted array mv).tamper = s.tamper from hstored.tamper]
    exact List.find?_eq_none.mpr fun h hh => by simpa using hheld h hh
  have hi : s.startUp array mv lost = { s.rooted array mv with
      tamper := { (s.rooted array mv).tamper with held := [] }, pwr := { (s.rooted array mv).pwr with step := 2 },
      cl := { (s.rooted array mv).cl with mode := .off } } := by
    rw [State.startUp_root hoff hflush hspent hblank, if_pos hstop]
    unfold State.startHalted
    dsimp only
    rw [hnone]
  exact ⟨_, congrArg Host.Outcome.next hi, rfl, hstop, (congrArg Tamper.state hstored.tamper :), rfl, rfl, rfl,
    fun hw => (s.flushPages_flushed.idle hw).2⟩

theorem startUp_spent_of {array : Bytes} {mv : Nat} {lost : Bool} (hoff : s.pwr.starting = false) (hflush : s.pwr.flush = none)
    (hspent : s.tamper.state = .spent) :
    ∃ t, exec (.startUp array mv lost) s = .next t ∧ t.pwr.step = 4 ∧ t.pwr.starting = true ∧ t.tamper.state = .spent ∧
      t.now = s.nv.resume ∧ t.nv.running = false ∧ t.cl.mode = .tag ∧ (s.work = [] → t.books = s.books) := by
  obtain ⟨hstored, -⟩ := s.flushPages_stored
  have herased := (s.powered mv).finishErasure_endures
  refine ⟨_, congrArg Host.Outcome.next (State.startUp_spent hoff hflush hspent), rfl, congrArg Power.starting herased.pwr,
    herased.state.trans ((congrArg Tamper.state hstored.tamper).trans hspent), herased.resume.trans (State.powered_resume mv), rfl, rfl, fun hw => ?_⟩
  exact herased.books.trans (s.flushPages_flushed.idle hw).2

/-! The key sweep (R385, R389, R458). -/

/-- What the sweep leaves as it is: power, the mark of the fallback mask, the work, the grain and the random unit. -/
def State.unswept (s : State) : Power × Bool × List Work × Nat × Rng := (s.pwr, s.keys.weakMask, s.work, s.sched.grain, s.rng)

/-- From `s` to `t` the sweep has loaded keys. -/
structure Swept (s t : State) : Prop where
  kept : t.unswept = s.unswept
  ledger : SameLedger s t

theorem Swept.same (h : t.unswept = s.unswept) (hb : t.books = s.books) : Swept s t := ⟨h, .of_books hb⟩

theorem Swept.refl (s : State) : Swept s s := .same rfl rfl

theorem Swept.trans (h : Swept s t) (k : Swept t u) : Swept s u where
  kept := k.kept.trans h.kept
  ledger n := by
    obtain ⟨hst, hlseq, hheads⟩ := h.ledger n
    obtain ⟨kst, klseq, kheads⟩ := k.ledger n
    exact ⟨kst.trans hst, klseq.trans hlseq, kheads.trans hheads⟩

theorem Charged.swept (h : Charged s t) : Swept s t := by
  obtain ⟨_, _, _, _, _, rfl, -⟩ := h
  exact .same rfl rfl

section
variable (s : State)

theorem State.deriveBook_swept (book : Nat) (r : Bytes) : Swept s (s.deriveBook book r) := by
  unfold State.deriveBook
  dsimp only
  refine List.foldlRecOn _ _ (motive := Swept s) ⟨rfl, fun k => ?_⟩ fun t h _ _ => h.trans (t.chargeSlot_charged ..).swept
  by_cases hk : k = book
  · subst hk
    rw [State.setBook_same]
    exact ⟨rfl, rfl, rfl⟩
  · rw [State.setBook_other _ _ hk]
    exact ⟨rfl, rfl, rfl⟩

theorem State.badSlot_swept (target index : Nat) : Swept s (s.badSlot target index) := by
  have hbad : Swept s (s.modSlot target index (fun k => { k with bad := true, masked := [], mask := [], swapped := 0 })) :=
    (s.setSlot_charged ..).swept
  unfold State.badSlot
  dsimp only
  generalize s.modSlot target index _ = t at hbad ⊢
  unfold State.level1
  split
  · exact hbad
  · exact hbad.trans (.same rfl rfl)

theorem State.sweepItem_swept (target index : Nat) (r : Bytes) : Swept s (s.sweepItem target index r) := by
  unfold State.sweepItem State.sweepSlot
  dsimp only
  split
  · split
    · exact s.deriveBook_swept index r
    · exact .refl s
  split
  · exact (s.setSlot_charged ..).swept
  · exact s.badSlot_swept target index

end

theorem State.sweepAll_swept (mask : Nat → Nat → Nat → Bytes) (items : List (Nat × Nat)) (o : Nat) (s : State) :
    Swept s (State.sweepAll mask items o s) := by
  induction items generalizing o s with
  | nil => exact .refl s
  | cons e items ih => exact (s.sweepItem_swept e.1 e.2 _).trans (ih _ _)

/-- The sweep, with any masks. -/
theorem State.sweep_of (s : State) (mask : Nat → Nat → Nat → Bytes) : let t := s.sweep mask
    t.keys.swept = true ∧ t.pwr.step = max s.pwr.step 6 ∧ t.keys.weakMask = s.keys.weakMask ∧ t.work = s.work ∧ t.now = s.now ∧
      t.rng = { s.rng with waiters := t.rng.waiters } ∧ SameLedger s t := by
  have h := State.sweepAll_swept mask s.sweepItems 0 s
  refine ⟨rfl, congrArg (fun k => max k.1.step 6) h.kept, congrArg (fun k => k.2.1) h.kept, congrArg (fun k => k.2.2.1) h.kept,
    congrArg (fun k => k.2.2.2.1) h.kept, ?_, h.ledger⟩
  exact congrArg (fun k => { k.2.2.2.2 with waiters := (s.sweep mask).rng.waiters }) h.kept

theorem keySweep_of (hdue : s.sweepDue = true) (hready : s.sweepItems = [] ∨ s.gotRandom .sweep ≠ none) :
    ∃ mask, exec .keySweep s = .next (s.sweep mask) := by
  by_cases hitems : s.sweepItems = []
  · refine ⟨_, congrArg Host.Outcome.next ((if_neg (by simp [hdue])).trans (if_pos ?_))⟩
    rw [hitems]
    rfl
  · obtain ⟨r, hr⟩ := Option.ne_none_iff_exists'.mp (hready.resolve_left hitems)
    refine ⟨fun o t _ => bytesAt r o (sweepBytes t), congrArg Host.Outcome.next ((if_neg (by simp [hdue])).trans
      ((if_neg (by simpa using hitems)).trans ?_))⟩
    rw [hr]

theorem keySweep_asks (hdue : s.sweepDue = true) (hitems : s.sweepItems ≠ []) (hnone : s.gotRandom .sweep = none) :
    exec .keySweep s = .next (s.askRandom .sweep 2 0 s.sweepNeed) := by
  refine congrArg Host.Outcome.next ((if_neg (by simp [hdue])).trans ((if_neg (by simpa using hitems)).trans ?_))
  rw [hnone]

/-- The sweep under the fallback mask. -/
def State.weakSweep (s : State) : State :=
  let t := s.sweep (fun _ t i => s.fallbackMask t i (sweepBytes t))
  { t with keys := { t.keys with weakMask := true } }

theorem exec_keySweepFallbackMask (hdue : s.sweepDue = true) (hlate : s.sweepLate = true) : exec .keySweepFallbackMask s =
    .next (s.weakSweep.plogEvent 10 0x0D 0 0xFFFF 0xFFFF (Config.freeNat s.weakSweep.draws)).drawn :=
  congrArg Host.Outcome.next (if_pos (by simp [hdue, hlate]))

theorem keySweepFallbackMask_of (hdue : s.sweepDue = true) (hlate : s.sweepLate = true) :
    ∃ t, exec .keySweepFallbackMask s = .next t ∧ t.keys.swept = true ∧ t.pwr.step = max s.pwr.step 6 ∧ t.keys.weakMask = true ∧
      t.work = s.work ∧ (∃ e ∈ t.logs.ppend, e.event = 0x0D) ∧ t.rng = { s.rng with waiters := t.rng.waiters } := by
  obtain ⟨hswept, hstep, -, hwork, -, hrng, -⟩ := s.sweep_of (fun _ t i => s.fallbackMask t i (sweepBytes t))
  exact ⟨_, exec_keySweepFallbackMask hdue hlate, hswept, hstep, rfl, hwork, ⟨_, List.mem_append_right _ List.mem_cons_self, rfl⟩, hrng⟩

theorem ringsServiceable_of (hstep : s.pwr.step = 8) (hflush : s.pwr.flush = none) (hhalt : s.halted = false) (hswept : s.keys.swept = true) :
    ∃ t, exec .ringsServiceable s = .next t ∧ t.serviceable = true ∧ t = { s with pwr := t.pwr, draws := t.draws } := by
  refine ⟨_, congrArg Host.Outcome.next (if_pos (by simp [hstep, hflush, hhalt, hswept])), ?_, rfl⟩
  have hgoes : ((true && s.pwr.flush.isNone) && !s.halted) = true := by simp [hflush, hhalt]
  exact hgoes

end

/-- Settles O27: what step 4 begins with stands through every event it may raise, and the sweep only loads keys. -/
theorem startUp : Obligations.StartUp := by
  unfold Obligations.StartUp
  intro s array mv lost
  refine ⟨fun ⟨hoff, hflush, hspent, hblank⟩ hcode => startUp_root_of hoff hflush hspent hblank hcode,
    fun ⟨hoff, hflush, hspent, hblank⟩ hcode hheld => startUp_halted_of hoff hflush hspent hblank hcode hheld,
    fun hoff hflush hspent => startUp_spent_of hoff hflush hspent, fun ⟨hstart, hflush⟩ => ?_, fun ⟨hstart, hflush⟩ htraining => ?_,
    fun ⟨hstart, hflush⟩ => ?_, fun hdue hready => ?_, keySweep_asks, keySweepFallbackMask_of, ringsServiceable_of⟩
  · exact congrArg Host.Outcome.next (if_pos (by simp [hstart, hflush]))
  · exact congrArg Host.Outcome.next (if_pos (by simp [hstart, hflush, htraining]))
  · exact congrArg Host.Outcome.next (if_pos (by simp [hstart, hflush]))
  · obtain ⟨mask, hi⟩ := keySweep_of hdue hready
    obtain ⟨hswept, hstep, hweak, hwork, hnow, -, hledger⟩ := s.sweep_of mask
    exact ⟨_, hi, hswept, hstep, hweak, hwork, hnow, fun k => ⟨(hledger k).1, (hledger k).2.1⟩⟩

end Sys2Proof.Machine
end

section
/-! SUPPORT. A life-cycle change lets every descriptor stand, with its outcome (R36, R238). -/

namespace Sys2Proof.Machine
open Sys2Proof

section
variable (s : State)

/-! What the lanes and the window end. -/

theorem State.finish_keepsWork (id : Nat) (st : Status) (res : Bytes) : KeepsWork s (s.finish id st res) :=
  (s.finish_ending id st res).work

theorem KeepsWork.foldl {α : Type} {f : State → α → State} (hf : ∀ s a, KeepsWork s (f s a)) (l : List α) (s : State) :
    KeepsWork s (l.foldl f s) := by
  induction l generalizing s with
  | nil => exact .refl s
  | cons a l ih => exact (hf s a).trans (ih _)

theorem State.refuseWith_keepsWork (w : Work) (check : Nat) (st : Status) (res : Bytes) : KeepsWork s (s.refuseWith w check st res) := by
  unfold State.refuseWith
  refine KeepsWork.trans ?_ (State.finish_keepsWork ..)
  split
  · exact .of_eq rfl
  · exact .refl s

theorem State.refuseLeg_keepsWork (w : Work) (check leg : Nat) (st : Status) : KeepsWork s (s.refuseLeg w check leg st) :=
  s.refuseWith_keepsWork w check st (refusalResult check leg)

theorem State.refuse_keepsWork (w : Work) (check : Nat) (st : Status) : KeepsWork s (s.refuse w check st) :=
  s.refuseLeg_keepsWork w check 0xFF st

theorem Work.late_ring (w : Work) (k : Nat) : (w.late k).id = w.id ∧ (w.late k).ring = w.ring := by
  unfold Work.late
  split
  · exact ⟨rfl, rfl⟩
  · exact ⟨rfl, rfl⟩

theorem State.primeWait_keepsWork (w : Work) : KeepsWork s (s.primeWait w) :=
  s.modWork_keepsWork w.id fun v => Work.late_ring v 3

theorem State.primeBook_keepsWork (w : Work) {f : Tally → State} (hf : ∀ t, KeepsWork s (f t)) : KeepsWork s (s.primeBook w f) := by
  unfold State.primeBook
  split
  · split
    · exact s.refuse_keepsWork ..
    · exact s.primeWait_keepsWork w
  · exact hf _

theorem State.incrCounter_keepsWork (n : Nat) : KeepsWork s (s.incrCounter n) := by
  unfold State.incrCounter
  dsimp only
  split
  · obtain ⟨_, _, h⟩ := State.writeCounter_eq (s.setCounter n { (s.counterAt n).writeIncr with value := (s.counterAt n).value + 1 }) n
    exact .of_eq (by rw [h]; rfl)
  split
  · exact .of_eq rfl
  · exact .of_eq rfl

theorem State.counterOp_keepsWork (w : Work) (incr : Bool) : KeepsWork s (s.counterOp w incr) := by
  unfold State.counterOp
  dsimp only
  split
  · exact s.refuse_keepsWork ..
  split
  · exact s.refuse_keepsWork ..
  · refine KeepsWork.trans ?_ (State.finish_keepsWork ..)
    split
    · exact s.incrCounter_keepsWork _
    · exact .refl s

theorem State.tallyReadOp_keepsWork (w : Work) : KeepsWork s (s.tallyReadOp w) := by
  refine s.primeBook_keepsWork w fun t => ?_
  split
  · exact s.refuseLeg_keepsWork ..
  · exact s.finish_keepsWork ..

theorem State.tallyAdjustOp_keepsWork (w : Work) : KeepsWork s (s.tallyAdjustOp w) := by
  unfold State.tallyAdjustOp
  split
  · exact s.primeWait_keepsWork w
  · refine s.primeBook_keepsWork w fun t => ?_
    dsimp only
    split
    · exact s.refuseLeg_keepsWork ..
    split
    · exact s.refuse_keepsWork ..
    · refine KeepsWork.trans ?_ (State.finish_keepsWork ..)
      refine KeepsWork.trans ?_ (State.modWork_keepsWork _ _ fun _ => ⟨rfl, rfl⟩)
      exact .of_eq rfl

theorem State.primeOp_keepsWork (w : Work) : KeepsWork s (s.primeOp w) := by
  unfold State.primeOp
  split
  · exact s.counterOp_keepsWork w false
  · exact s.counterOp_keepsWork w true
  · exact s.tallyReadOp_keepsWork w
  · exact s.tallyAdjustOp_keepsWork w
  · exact s.finish_keepsWork ..
  · exact s.finish_keepsWork ..
  · exact s.finish_keepsWork ..
  · exact .refl s

theorem State.primeEnd_keepsWork (w : Work) : KeepsWork s (s.primeEnd w s.primeOp) := by
  unfold State.primeEnd
  split
  · split
    · exact s.refuseWith_keepsWork ..
    · exact s.refuse_keepsWork ..
  · exact s.primeOp_keepsWork w

theorem State.finishLanes_keepsWork (p : State → Work → Bool) : KeepsWork s (s.finishLanes p) := by
  refine KeepsWork.foldl (fun s w => ?_) _ s
  split
  · exact s.primeEnd_keepsWork w
  · exact .refl s

theorem State.commitLegs_keepsWork (e : Entry) : KeepsWork s (s.commitLegs e) :=
  ⟨fun _ h => h.foldl_commitLeg e e.legs⟩

theorem State.commitOutcome_keepsWork (e : Entry) (lseq : Nat) : KeepsWork s (s.commitOutcome e lseq) := by
  unfold State.commitOutcome
  dsimp only
  split
  · exact .refl s
  split
  · exact .of_eq rfl
  · refine KeepsWork.trans ?_ (State.modWork_keepsWork _ _ fun _ => ⟨rfl, rfl⟩)
    refine KeepsWork.trans ?_ (State.finish_keepsWork ..)
    exact s.modWork_keepsWork _ fun _ => ⟨rfl, rfl⟩

theorem State.commitEntry_keepsWork (e : Entry) : KeepsWork s (s.commitEntry e) := by
  unfold State.commitEntry
  refine KeepsWork.trans ?_ (State.commitOutcome_keepsWork _ _ _)
  exact (s.commitLegs_keepsWork e).trans (.of_eq rfl)

theorem State.commitBook_keepsWork (book : Nat) : KeepsWork s (s.commitBook book) := by
  unfold State.commitBook
  split
  · exact .refl s
  split
  · exact s.commitEntry_keepsWork _
  · exact .refl s

theorem State.windowEnded_keepsWork (st : Status) : KeepsWork s (s.windowEnded st) := by
  unfold State.windowEnded
  refine KeepsWork.trans ?_ (State.endEntries_ending ..).work
  refine KeepsWork.trans ?_ (State.redecide_ending ..).work
  refine (s.finishLanes_keepsWork State.adjustAt2).trans ?_
  exact KeepsWork.foldl (fun s k => KeepsWork.foldl (fun s _ => s.commitBook_keepsWork k) _ s) _ _

/-! What the change itself ends. -/

theorem State.clearCore_keepsWork (core : Nat) : KeepsWork s (s.clearCore core) := ⟨fun hr ⟨w, hw, hring⟩ =>
  ⟨w, State.clearCore_workAt hw (hring ▸ hr) core, hring⟩⟩

theorem State.dropCollect_keepsWork (id : Nat) : KeepsWork s (s.dropCollect id) := by
  unfold State.dropCollect
  split
  · split
    · exact .of_eq rfl
    · exact .refl s
  · exact .refl s

theorem State.dropCalls_keepsWork : KeepsWork s { s with work := s.work.filter (fun w => !(w.isApplet && !w.isDone)) } :=
  ⟨fun hr ⟨w, hw, hring⟩ => ⟨w, find?_filter_of hw (by
    have happlet : w.isApplet = false := by simpa [Work.isApplet] using hring ▸ hr
    simp [happlet]), hring⟩⟩

theorem State.worksEnded_keepsWork (target : LcState) (keep : Option Nat) (st : Status) : KeepsWork s (s.worksEnded target keep st) := by
  unfold State.worksEnded
  dsimp only
  refine KeepsWork.trans ?_ (KeepsWork.foldl (fun s (w : Work) => s.dropCollect_keepsWork w.id) _ _)
  refine KeepsWork.trans ?_ (State.dropCalls_keepsWork _)
  refine KeepsWork.trans ?_ (KeepsWork.foldl (fun s (w : Work) => ?_) _ _)
  · exact KeepsWork.trans (KeepsWork.foldl (fun s c => s.clearCore_keepsWork c) _ s) (.of_eq rfl)
  · have hunits : KeepsWork s (s.releaseUnits w.id) := .of_eq rfl
    exact hunits.trans (State.finishRaw_keepsWork ..)

theorem State.endForChange_keepsWork (target : LcState) (keep : Option Nat) (st : Status) :
    KeepsWork s (s.endForChange target keep st) := by
  obtain ⟨hits, h⟩ := s.endForChange_eq target keep st
  have hw := (s.windowEnded_keepsWork st).trans (State.worksEnded_keepsWork _ target keep st)
  rw [h]
  split
  · exact hw.trans (KeepsWork.foldl (fun s (w : Work) => (s.fenceRing_ending _ _ _).work) _ _)
  · exact hw

end

end Sys2Proof.Machine
end

section
/-! SUPPORT. The envelopes (R403 to R407, R452, R512). -/

namespace Sys2Proof.Machine
open Sys2Proof

/-! Records that a rule requires to be committed (R475). -/

section
variable (s : State)

/-- The page writes of a record carry its images with the last of them. -/
theorem State.recordEntries_carried (key : Nat) (img : List RecImage) (x : CommitWait) : ∃ q,
    (s.recordEntries key img [x]).map (fun e => (e.img, e.sync)) = q ++ [(img, [x])] ∧ q.flatMap Prod.fst = [] := by
  unfold State.recordEntries
  dsimp only
  rw [List.map_map, List.map_append]
  refine ⟨_, congrArg _ ?_, ?_⟩
  · cases x
    simp
  · refine List.flatMap_eq_nil_iff.mpr fun e he => ?_
    obtain ⟨i, hi, rfl⟩ := List.mem_map.mp he
    obtain ⟨j, hj, rfl⟩ := List.mem_iff_getElem.mp hi
    simp

/-- One of the records that are sent behind the buffer. -/
def State.sendRecord (last : Nat) (sync : CommitWait) (s : State) (x : Nat × List RecImage) : State :=
  (s.recordEntries x.1 x.2 [{ sync with last := x.1 == last }]).foldl State.bufferIn s

theorem State.sendRecord_of (last : Nat) (sync : CommitWait) (x : Nat × List RecImage) : ∃ q wbuf behind lastWrite,
    (s.sendRecord last sync x).nv.carried = s.nv.carried ++ (q ++ [(x.2, [{ sync with last := x.1 == last }])]) ∧
      q.flatMap Prod.fst = [] ∧
      s.sendRecord last sync x = { s with nv := { s.nv with wbuf := wbuf, behind := behind, lastWrite := lastWrite } } := by
  obtain ⟨q, hq, hnil⟩ := s.recordEntries_carried x.1 x.2 { sync with last := x.1 == last }
  obtain ⟨wbuf, behind, lastWrite, h⟩ := foldl_bufferIn_eq (s.recordEntries x.1 x.2 [{ sync with last := x.1 == last }]) s
  exact ⟨q, wbuf, behind, lastWrite, hq ▸ foldl_bufferIn_carried _ s, hnil, h⟩

/-- Several records and a last one, in their order: what waits for the last stands with it. -/
theorem foldl_sendRecord (recs : List (Nat × List RecImage)) (key : Nat) (img : List RecImage) (sync : CommitWait) (s : State) :
    ∃ q wbuf behind lastWrite, let t := (recs ++ [(key, img)]).foldl (State.sendRecord key sync) s
      t.nv.carried = s.nv.carried ++ (q ++ [(img, [{ sync with last := true }])]) ∧ q.flatMap Prod.fst = recs.flatMap Prod.snd ∧
        t = { s with nv := { s.nv with wbuf := wbuf, behind := behind, lastWrite := lastWrite } } := by
  induction recs generalizing s with
  | nil =>
    obtain ⟨q, wbuf, behind, lastWrite, hq, hnil, h⟩ := s.sendRecord_of key sync (key, img)
    rw [beq_self_eq_true] at hq
    exact ⟨q, wbuf, behind, lastWrite, hq, hnil, h⟩
  | cons x recs ih =>
    obtain ⟨q, wbuf, behind, lastWrite, hq, hnil, h⟩ := s.sendRecord_of key sync x
    obtain ⟨q', wbuf', behind', lastWrite', hq', himg, h'⟩ := ih (s.sendRecord key sync x)
    refine ⟨q ++ (x.2, [{ sync with last := x.1 == key }]) :: q', wbuf', behind', lastWrite', ?_, ?_, ?_⟩
    · show ((recs ++ [(key, img)]).foldl (State.sendRecord key sync) (s.sendRecord key sync x)).nv.carried = _
      rw [hq', hq]
      simp
    · rw [List.flatMap_append, hnil, List.nil_append, List.flatMap_cons, himg, List.flatMap_cons]
    · show (recs ++ [(key, img)]).foldl (State.sendRecord key sync) (s.sendRecord key sync x) = _
      rw [h', h]

theorem State.nvSend_of (recs : List (Nat × List RecImage)) (key : Nat) (img : List RecImage) (sync : CommitWait) :
    ∃ q wbuf behind lastWrite, let t := s.nvSend (recs ++ [(key, img)]) sync
      t.nv.carried = s.nv.carried ++ (q ++ [(img, [{ sync with last := true }])]) ∧ q.flatMap Prod.fst = recs.flatMap Prod.snd ∧
        t = { s with nv := { s.nv with wbuf := wbuf, behind := behind, lastWrite := lastWrite } } := by
  have hlast : (((recs ++ [(key, img)]).getLast?.map Prod.fst).getD 0) = key := by simp
  obtain ⟨q, wbuf, behind, lastWrite, hq, himg, h⟩ := foldl_sendRecord recs key img sync s.commitBuffer
  have ht : s.nvSend (recs ++ [(key, img)]) sync = (recs ++ [(key, img)]).foldl (State.sendRecord key sync) s.commitBuffer := by
    unfold State.nvSend
    dsimp only
    rw [hlast]
    rfl
  rw [State.commitBuffer_carried] at hq
  refine ⟨q, wbuf, behind, lastWrite, ?_, himg, ?_⟩
  · rw [ht]
    exact hq
  · rw [ht]
    exact h

end

section
variable {s : State} {ring : Nat} {w : Work}

/-! The read of an envelope (R406). -/

theorem State.startEnvelope_of (hturn : s.envelopeTurn w = true) (haux : w.aux = 0) (hlow : w.zeroFrom 0x1C 0x20 = true)
    (hhigh : w.zeroFrom 0x2C 0x40 = true) (hmin : 192 ≤ w.field 0x18 4) (hmax : w.field 0x18 4 ≤ 1560)
    (hend : w.field 0x10 8 + w.field 0x18 4 ≤ 2 ^ 64) (hauthz : w.field 0x20 8 + w.field 0x28 4 ≤ 2 ^ 64)
    (hrange : s.rangeOk w.slice (w.field 0x10 8) (w.field 0x18 4) false = true)
    (hranges : s.rangeOk w.slice (w.field 0x20 8) (w.field 0x28 4) false = true) (hcan : s.canRead masterMgmt = true)
    (hok : (s.hostRead (.work w.id 0) masterMgmt w.slice .statement (w.field 0x10 8) (w.field 0x18 4) false).2 = true) :
    s.startEnvelope w = (s.hostRead (.work w.id 0) masterMgmt w.slice .statement (w.field 0x10 8) (w.field 0x18 4) false).1.modWork w.id
      (fun v => { v with phase := .reading 1 }) := by
  unfold State.startEnvelope
  dsimp only
  rw [hturn, haux, hlow, hhigh, decide_eq_true hmin, decide_eq_true hmax, beyond64_of_le hend, beyond64_of_le hauthz, hrange, hranges,
    hcan, hok]
  rfl

theorem State.envelopeRow_starts (h : Starts s ring 0x4010 w)
    (hnone : s.oldest ring (fun v => v.opcode == 0x4010 && v.activeAt 1) = none) (op : Nat) (accept : Work → State → Bytes → Bytes → Bytes → State) :
    s.envelopeRow ring op accept = s.startEnvelope w := by
  unfold State.envelopeRow
  rw [hnone]
  exact State.onStart_of h.1 _

/-! An envelope that has been read (R406, R452). -/

/-- An envelope that passes its checks. -/
structure EnvelopeOk (s : State) (ring : Nat) (w : Work) (d : Bytes) : Prop where
  oldest : s.oldest ring (fun v => v.opcode == 0x4010 && v.activeAt 1) = some w
  work : s.workAt w.id = some w
  ring : ring < 65536
  read : w.input.headD [] = d
  state : s.envStateOk (envOp d) = true
  form : envForm d (w.field 0x28 4 != 0 || w.field 0x20 8 != 0) = true
  checks : s.envChecks d (w.input.getD 1 []) w.slice = none

variable {d : Bytes}

theorem EnvelopeOk.row (h : EnvelopeOk s ring w d) {op : Nat} (hop : envOp d = op) (accept : Work → State → Bytes → Bytes → Bytes → State) :
    s.envelopeRow ring op accept = match s.gotRandom (.envelope w.id) with
      | none => s.askRandom (.envelope w.id) 4 w.slice (envDraw d)
      | some r => accept w (s.dropRandom (.envelope w.id)) d (w.input.getD 1 []) r := by
  unfold State.envelopeRow
  rw [h.oldest]
  dsimp only
  rw [h.read, if_pos (by simp [hop])]
  unfold State.runEnvelope
  rw [h.read, if_neg (by simp [h.state]), if_neg (by simp [h.form]), h.checks] <;> rfl

/-- Without its random bytes the envelope waits for them. -/
theorem EnvelopeOk.waits (h : EnvelopeOk s ring w d) {op : Nat} (hop : envOp d = op) (hnone : s.gotRandom (.envelope w.id) = none)
    {i : Instr} {accept : Work → State → Bytes → Bytes → Bytes → State} (hi : exec i s = .next (s.envelopeRow ring op accept)) :
    ∃ t, exec i s = .next t ∧ (∃ y ∈ t.rng.waiters, y.use = .envelope w.id) ∧ t = { s with rng := t.rng } := by
  obtain ⟨rng, hrng, hwaits⟩ := s.askRandom_of (.envelope w.id) 4 w.slice (envDraw d)
  refine ⟨_, hi, ?_⟩
  rw [h.row hop, hnone]
  dsimp only
  rw [hrng]
  exact ⟨hwaits, rfl⟩

theorem EnvelopeOk.runs (h : EnvelopeOk s ring w d) {op : Nat} (hop : envOp d = op) {r : Bytes} (hr : s.gotRandom (.envelope w.id) = some r)
    {i : Instr} {accept : Work → State → Bytes → Bytes → Bytes → State} (hi : exec i s = .next (s.envelopeRow ring op accept)) :
    exec i s = .next (accept w (s.dropRandom (.envelope w.id)) d (w.input.getD 1 []) r) := by
  rw [hi, h.row hop, hr]

/-! The fields of a formed envelope. -/

theorem envFormOf_of {authz : Bool} (h : envForm d authz = true) : envFormOf d = true := by
  unfold envForm at h
  simp only [Bool.and_eq_true] at h
  exact h.1.2

theorem envTarget_of_slotOp (h : envFormOf d = true) (hop : envOp d = 1 ∨ envOp d = 2) : envTarget d ≠ 2 := by
  unfold envFormOf at h
  obtain hop | hop := hop
  · rw [hop] at h
    simp only [Bool.and_eq_true, decide_eq_true_eq] at h
    omega
  · rw [hop] at h
    simp only [Bool.and_eq_true, decide_eq_true_eq] at h
    omega

theorem envTarget_of_authOp (h : envFormOf d = true) (hop : envOp d = 3 ∨ envOp d = 4) : envTarget d = 2 := by
  unfold envFormOf at h
  obtain hop | hop := hop
  · rw [hop] at h
    simp only [Bool.and_eq_true, beq_iff_eq] at h
    omega
  · rw [hop] at h
    simp only [Bool.and_eq_true, beq_iff_eq] at h
    omega

/-- The records of a slot operation (R407). -/
theorem State.envRecords_slot (ht : envTarget d ≠ 2) (r : Bytes) : s.envRecords d r =
    [(recKey partKeys (recFamily (envFamily d)), [.family (envFamily d) (envCounter d)]),
      (recKey partKeys (recMaterial (envTarget d) (envIndex d)),
        [.material (envTarget d) (envIndex d) (s.envTargetImage d r).storedMaterial])] ++
      [(recKey partKeys (recSlot (envTarget d) (envIndex d)), [s.envTargetImage d r])] := by
  unfold State.envRecords
  dsimp only
  rw [if_neg (by simpa using ht)]
  rfl

/-- The records of an authority operation. -/
theorem State.envRecords_auth (ht : envTarget d = 2) (r : Bytes) : s.envRecords d r =
    [(recKey partKeys (recFamily (envFamily d)), [.family (envFamily d) (envCounter d)])] ++
      [(recKey partKeys (recAuth (envIndex d)), [s.envTargetImage d r])] := by
  unfold State.envRecords
  dsimp only
  rw [if_pos (by simpa using ht)]
  rfl

/-! An accepted envelope (R407). -/

/-- The use of a key or the authorisation that an accepted envelope takes leaves works, books, family counters and authorities. -/
theorem State.envAccepted_of (s : State) (d a : Bytes) : let t := s.envAccepted d a
    t.work = s.work ∧ t.books = s.books ∧ t.keys.families = s.keys.families ∧ t.keys.auth = s.keys.auth ∧
      t.tamper.state = s.tamper.state := by
  unfold State.envAccepted
  dsimp only
  split
  · exact ⟨rfl, rfl, rfl, rfl, rfl⟩
  split
  · obtain ⟨_, _, _, _, _, h, -⟩ := s.chargeSlot_charged 0 (envMacSlot d)
    rw [h]
    exact ⟨rfl, rfl, rfl, rfl, rfl⟩
  · exact ⟨rfl, rfl, rfl, rfl, rfl⟩

/-- What waits for the last record of an envelope. -/
def envWait (w : Work) (d : Bytes) : CommitWait :=
  { work := w.id, core := none, last := true, ok := envResult d, fail := refusalResult 12 0xFF }

theorem State.envCommit_of (hw : s.workAt w.id = some w) (a r : Bytes) {recs : List (Nat × List RecImage)} {key : Nat} {img : RecImage}
    (hrecs : s.envRecords d r = recs ++ [(key, [img])]) : let t := s.envCommit w d a r
    let u := s.envAccepted d a
    At t w.id (.active 3) ∧ (t.nv.queue.drop u.nv.queue.length).flatMap WbEntry.img = recs.flatMap Prod.snd ++ [img] ∧
      (∃ e, t.nv.queue.getLast? = some e ∧ e.sync = [envWait w d]) ∧ (∀ f, t.familyAt f = s.familyAt f) ∧ t.keys.auth = s.keys.auth ∧
      t.books = s.books ∧ t.tamper.state = s.tamper.state ∧ t.tamper.challenges = u.tamper.challenges := by
  intro t u
  obtain ⟨hwork, hbooks, hfamilies, hauth, hstate⟩ := s.envAccepted_of d a
  have hu : u.workAt w.id = some w := (congrArg (fun l : List Work => l.find? fun v : Work => v.id == w.id) hwork).trans hw
  have hat : At (u.modWork w.id (fun v => { v with phase := .active 3 })) w.id (.active 3) := At.of_modWork hu fun _ => rfl
  obtain ⟨q, wbuf, behind, last, hcarried, himg, h⟩ :=
    (u.modWork w.id (fun v => { v with phase := .active 3 })).nvSend_of recs key [img] (envWait w d)
  have ht : t = (u.modWork w.id (fun v => { v with phase := .active 3 })).nvSend (recs ++ [(key, [img])]) (envWait w d) := by
    show s.envCommit w d a r = _
    unfold State.envCommit
    rw [hrecs]
    rfl
  rw [← ht] at hcarried h
  have hnew : t.nv.carried = u.nv.carried ++ (q ++ [([img], [envWait w d])]) := hcarried
  refine ⟨?_, ?_, carried_last (hnew.trans (List.append_assoc ..).symm), ?_⟩
  · rw [h]
    exact hat
  · refine (carried_drop hnew).trans ?_
    rw [List.flatMap_append, himg]
    rfl
  · rw [h]
    exact ⟨fun f => congrArg (tget 0 · f) hfamilies, hauth, hbooks, hstate, rfl⟩

/-- A slot or authority operation, from its random bytes to its records. -/
theorem EnvelopeOk.sends (h : EnvelopeOk s ring w d) {op : Nat} (hop : envOp d = op) {r : Bytes}
    (hr : s.gotRandom (.envelope w.id) = some r) {i : Instr}
    (hi : exec i s = .next (s.envelopeRow ring op (fun w s d a r => s.envCommit w d a r))) {recs : List (Nat × List RecImage)} {key : Nat}
    {img : RecImage} (hrecs : (s.dropRandom (.envelope w.id)).envRecords d r = recs ++ [(key, [img])]) {imgs : List RecImage}
    (himgs : recs.flatMap Prod.snd ++ [img] = .family (envFamily d) (envCounter d) :: imgs) {more : List RecImage → Prop} (hmore : more imgs) :
    let u := (s.dropRandom (.envelope w.id)).envAccepted d (w.input.getD 1 [])
    ∃ t imgs, exec i s = .next t ∧ At t w.id (.active 3) ∧
      (t.nv.queue.drop u.nv.queue.length).flatMap WbEntry.img = .family (envFamily d) (envCounter d) :: imgs ∧ more imgs ∧
      (∃ e, t.nv.queue.getLast? = some e ∧ e.sync = [envWait w d]) ∧ (∀ f, t.familyAt f = s.familyAt f) ∧ t.keys.auth = s.keys.auth ∧
      t.books = s.books ∧ t.tamper.state = s.tamper.state ∧ t.tamper.challenges = u.tamper.challenges := by
  intro u
  obtain ⟨hat, hnew, hlast, hrest⟩ := State.envCommit_of (s := s.dropRandom (.envelope w.id)) h.work (w.input.getD 1 []) r hrecs
  exact ⟨_, imgs, h.runs hop hr hi, hat, hnew.trans himgs, hmore, hlast, hrest⟩

theorem tdel_ne {α : Type} (t : Table α) (k : Nat) : ∀ e ∈ tdel t k, e.1 ≠ k := fun e he => by
  simpa using (List.mem_filter.mp he).2

/-- An authority operation frees the slot of its authorisation. -/
theorem State.envAccepted_challenges (s : State) (a : Bytes) (ht : envTarget d = 2) :
    ∀ e ∈ (s.envAccepted d a).tamper.challenges, e.1 ≠ authSlot a := by
  unfold State.envAccepted
  rw [if_pos (by simpa using ht)]
  exact tdel_ne _ _

theorem fit_bytesAt (b : Bytes) (o n : Nat) : fit n (bytesAt b o n) = bytesAt b o n := by
  have hlen := length_bytesAt b o n
  unfold fit
  rw [List.take_of_length_le (Nat.le_of_eq hlen), hlen, Nat.sub_self]
  exact List.append_nil _

/-- The slot of a SLOT_WRITE (R382, R385). -/
theorem State.newSlot_of (s : State) (d m r : Bytes) : let k := s.newSlot d m r
    let x := envDesc d
    k.occupied = true ∧ k.type = fieldAt x 0 1 ∧ k.family = fieldAt x 2 2 ∧ k.slice = fieldAt x 8 2 ∧
      k.attr = BitVec.ofNat 32 (fieldAt x 4 4) ∧ k.uses = fieldAt x 0x0A 6 ∧ k.bad = false ∧ k.mask = r ∧ k.masked = xorBytes m r ∧
      k.mac = slotMac s.keys.kSint (envTarget d) (envIndex d) k m ∧
      k.stored = (if k.attr.getLsbD attrVolatile then zeros m.length else s.keys.seal (envTarget d) (envIndex d) m) ∧
      k.epoch = s.keys.epoch :=
  ⟨rfl, rfl, rfl, rfl, rfl, rfl, rfl, rfl, rfl, rfl, rfl, rfl⟩

theorem slotWrite_image (hop : envOp d = 1) (r : Bytes) : s.envTargetImage d r =
    .slot (envTarget d) (envIndex d) (s.newSlot d ((s.envMaterial d).getD []) r) := by
  unfold State.envTargetImage
  rw [hop] <;> rfl

theorem slotErase_image (hop : envOp d = 2) (r : Bytes) : s.envTargetImage d r = .slot (envTarget d) (envIndex d) Slot.reset := by
  unfold State.envTargetImage
  rw [hop] <;> rfl

theorem authWrite_image (hop : envOp d = 3) (r : Bytes) : s.envTargetImage d r =
    .auth (envIndex d) (s.authEntry (envIndex d) (fieldAt (envDesc d) 0 1) (fieldAt (envDesc d) 1 1) (envCounter d)
      (bytesAt (envDesc d) 8 16) (envWrapped d)) := by
  unfold State.envTargetImage
  rw [hop] <;> rfl

theorem authErase_image (hop : envOp d = 4) (r : Bytes) : s.envTargetImage d r = .auth (envIndex d) Authority.reset := by
  unfold State.envTargetImage
  rw [hop] <;> rfl

/-! PROVISION (R512). -/

/-- The erasure of R408 with its record. -/
theorem State.erased_of (v : State) : let t := v.destroyKeys.nvPut partSystem recErase
    t.work = v.work ∧ t.tamper = v.tamper ∧ t.keys.compact = [] ∧ t.keys.large = [] ∧ t.keys.sessions = [] ∧ t.keys.auth = [] ∧
      t.applets.allow = [] ∧ t.keys.erasing = true ∧ t.keys.erasePending = true := by
  obtain ⟨htamper, -, -, hallow, herasing, hcompact, hlarge, hsessions, hauth⟩ := v.destroyKeys_of
  have hpending : v.destroyKeys.keys.erasePending = true := by
    unfold State.destroyKeys
    dsimp only
    split
    · rfl
    · rfl
  have hwork : v.destroyKeys.work = v.work := rfl
  obtain ⟨nv, logs, sched, hput⟩ := v.destroyKeys.nvPut_eq partSystem recErase
  rw [hput]
  generalize v.destroyKeys = k at *
  exact ⟨hwork, htamper, hcompact, hlarge, hsessions, hauth, hallow, herasing, hpending⟩

theorem State.provisionStart_of (hw : s.workAt w.id = some w) (hring : w.ring < 65536) : let t := s.provisionStart w
    At t w.id (.active 2) ∧ t.keys.compact = [] ∧ t.keys.large = [] ∧ t.keys.sessions = [] ∧ t.keys.auth = [] ∧ t.applets.allow = [] ∧
      t.keys.erasing = true ∧ t.keys.erasePending = true ∧ t.tamper.state = s.tamper.state ∧ t.tamper.stage = s.tamper.stage := by
  obtain ⟨hquiet, -⟩ := s.endForChange_quiet .issued (some w.id) .state
  have hkept := (s.endForChange_keepsWork .issued (some w.id) .state).work hring ⟨w, hw, rfl⟩
  unfold State.provisionStart
  generalize s.endForChange .issued (some w.id) .state = v at *
  obtain ⟨hwork, htamper, hkeys⟩ := v.erased_of
  generalize v.destroyKeys.nvPut partSystem recErase = u at *
  obtain ⟨x, hx, -⟩ := hkept
  have hu : u.workAt w.id = some x := (congrArg (fun l : List Work => l.find? fun y : Work => y.id == w.id) hwork).trans hx
  obtain ⟨hcompact, hlarge, hsessions, hauth, hallow, herasing, hpending⟩ := hkeys
  exact ⟨At.of_modWork hu fun _ => rfl, hcompact, hlarge, hsessions, hauth, hallow, herasing, hpending,
    (congrArg Tamper.state htamper).trans (congrArg (fun k => k.1.state) hquiet.kept),
    (congrArg Tamper.stage htamper).trans (congrArg (fun k => k.1.stage) hquiet.kept)⟩

/-! The records take effect (R407). -/

theorem State.setSlot_slotAt_same (s : State) (target index : Nat) (k : Slot) : (s.setSlot target index k).slotAt target index = k := by
  unfold State.setSlot State.slotAt
  split
  · exact tget_tput_same ..
  · exact tget_tput_same ..

theorem State.setSlot_slotAt_other (s : State) (target : Nat) {index j : Nat} (k : Slot) (h : j ≠ index) :
    (s.setSlot target index k).slotAt target j = s.slotAt target j := by
  unfold State.setSlot State.slotAt
  split
  · exact tget_tput_elsewhere _ _ _ _ h
  · exact tget_tput_elsewhere _ _ _ _ h

theorem State.install_slot (s : State) (target index : Nat) (k : Slot) : let t := s.settleOne (.install (.slot target index k))
    t.slotAt target index = { k with install := (s.slotAt target index).install + 1 } ∧
      (∀ j, j ≠ index → t.slotAt target j = s.slotAt target j) ∧ t.books = s.books := by
  let v : State := if target = 0 then s.endDescendants index (s.slotAt target index).install else s
  have hv : (∀ j, v.slotAt target j = s.slotAt target j) ∧ v.books = s.books := by
    show (∀ j, (if target = 0 then s.endDescendants index (s.slotAt target index).install else s).slotAt target j = _) ∧
      (if target = 0 then s.endDescendants index (s.slotAt target index).install else s).books = _
    split
    · exact ⟨fun _ => rfl, rfl⟩
    · exact ⟨fun _ => rfl, rfl⟩
  exact ⟨v.setSlot_slotAt_same .., fun j hj => (v.setSlot_slotAt_other _ _ hj).trans (hv.1 j), (v.setSlot_books ..).trans hv.2⟩

theorem entryDone_ends {e : WbEntry} {ok fail : Bytes} (hw : s.workAt w.id = some w) (hring : w.ring < 65536) (himg : e.img = [])
    (hsync : e.sync = [⟨w.id, none, true, ok, fail⟩]) : Ended (s.entryDone e true) w.id .ok ok := by
  have hdone : s.entryDone e true = (s.finish w.id .ok ok).tagWritten e.sync true := by
    unfold State.entryDone
    rw [himg, hsync]
    rfl
  obtain ⟨-, hwork, -⟩ := (s.finish w.id .ok ok).tagWritten_leaves e.sync true
  obtain ⟨hends, -⟩ := State.finish_ends (s := s) ok hw hring (st := .ok) (by decide) (by decide)
  rw [hdone]
  exact hends.of_workAt (congrArg (fun l : List Work => l.find? fun v : Work => v.id == w.id) hwork)

end

/-- Settles O39: each row reads its envelope, waits for its random bytes, and sends its records behind the buffer; PROVISION begins
with the erasure, which lets its descriptor stand. -/
theorem envelopes : Obligations.Envelopes := by
  unfold Obligations.Envelopes
  intro s ring w
  refine ⟨fun i hi h hnone hturn haux hlow hhigh hmin hmax hend hauthz hrange hranges hcan hok => ?_,
    fun d rest holdest hw hring hinput hstate hform hchecks => ?_, fun f n => ⟨tget_tput_same .., fun g hg => ?_⟩,
    fun target index k _ => ⟨rfl, s.install_slot target index k⟩, fun index z => ⟨rfl, State.setAuth_same s index z⟩,
    fun e ok hw hring himg hsync => entryDone_ends hw hring himg hsync⟩
  · have hstarts := State.startEnvelope_of hturn haux hlow hhigh hmin hmax hend hauthz hrange hranges hcan hok
    have hrow : ∃ op accept, exec i s = .next (s.envelopeRow ring op accept) := by
      simp only [List.map_cons, List.map_nil, List.mem_cons, List.not_mem_nil, or_false] at hi
      obtain rfl | rfl | rfl | rfl | rfl := hi
      · exact ⟨_, _, rfl⟩
      · exact ⟨_, _, rfl⟩
      · exact ⟨_, _, rfl⟩
      · exact ⟨_, _, rfl⟩
      · exact ⟨_, _, rfl⟩
    obtain ⟨op, accept, hi⟩ := hrow
    rw [State.envelopeRow_starts h hnone, hstarts] at hi
    exact asks_of (f := fun v => { v with phase := .reading 1 }) h.2.1 hok (fun _ => ⟨rfl, rfl⟩) hi
  · have hread : w.input.headD [] = d := by rw [hinput]; rfl
    have h : EnvelopeOk s ring w d := ⟨holdest, hw, hring, hread, hstate, hform, hchecks⟩
    have hformOf := envFormOf_of hform
    have hwring : w.ring < 65536 := by
      have hmeets := List.find?_some (p := fun v : Work => v.ring == ring && (v.opcode == 0x4010 && v.activeAt 1)) holdest
      simp only [Bool.and_eq_true, beq_iff_eq] at hmeets
      omega
    refine ⟨fun p hp hop hnone => ?_, fun r hr => ⟨fun hop => ?_, fun hop => ?_, fun hop => ?_, fun hop => ?_, fun hop => ?_⟩⟩
    · simp only [List.mem_cons, List.not_mem_nil, or_false] at hp
      obtain rfl | rfl | rfl | rfl | rfl := hp
      · exact h.waits hop hnone rfl
      · exact h.waits hop hnone rfl
      · exact h.waits hop hnone rfl
      · exact h.waits hop hnone rfl
      · exact h.waits hop hnone rfl
    · refine h.sends hop hr rfl (State.envRecords_slot (envTarget_of_slotOp hformOf (.inl hop)) r) rfl ?_
      rw [slotWrite_image hop]
      exact ⟨_, rfl, State.newSlot_of _ d _ r⟩
    · refine h.sends hop hr rfl (State.envRecords_slot (envTarget_of_slotOp hformOf (.inr hop)) r) rfl ?_
      rw [slotErase_image hop]
      rfl
    · refine h.sends hop hr rfl (State.envRecords_auth (envTarget_of_authOp hformOf (.inl hop)) r) rfl ?_
      rw [authWrite_image hop]
      exact ⟨_, rfl, rfl, rfl, rfl, rfl, fit_bytesAt .., rfl, State.envAccepted_challenges _ _ (envTarget_of_authOp hformOf (.inl hop))⟩
    · refine h.sends hop hr rfl (State.envRecords_auth (envTarget_of_authOp hformOf (.inr hop)) r) rfl ?_
      rw [authErase_image hop]
      exact ⟨rfl, State.envAccepted_challenges _ _ (envTarget_of_authOp hformOf (.inr hop))⟩
    · exact ⟨_, h.runs hop hr rfl, State.provisionStart_of (s := s.dropRandom (.envelope w.id)) hw hwring⟩
  · exact tget_tput_other _ _ _ hg

end Sys2Proof.Machine
end
